-- ==== Sys2Proof/Word.lean ====
section
/-! DEFINITION. The word types, the sparse tables that hold the machine's state, and register fields. -/

namespace Sys2Proof

/-- A register word (R9). -/
abbrev Word := BitVec 32

/-- A byte. -/
abbrev Byte := BitVec 8

/-- Sparse data by key: entries rising by key, none equal to what an unlisted key reads as. -/
abbrev Tab (β : Type) := List (Nat × β)

/-- A field of a register: the register's offset in its page and its bit range `[hi:lo]` (R4). -/
structure Fld where
  off : Nat
  hi : Nat
  lo : Nat
  deriving DecidableEq, Repr

end Sys2Proof
end

