-- ==== Sys2Proof/Config.lean ====
section
/-! DEFINITION. The free values: what the spec leaves open. None has a body, so nothing can be proved of its value; a claim
that mentions one holds whatever it is. The argument is the number of the free value (State.freeCtr). -/

namespace Sys2Proof.Config

/-- A bit that the spec leaves open. -/
opaque freeBit : Nat → Bool

/-- A word that the spec leaves open. -/
opaque freeWord : Nat → BitVec 32

/-- A byte of data flash whose layout the spec leaves open: of the sector headers and the device's maps (R351, R352), by its place
and what the maps and counts hold. (DESIGN CHOICE: log entry 30.) -/
opaque mapByte : Nat → Nat → BitVec 8

/-- A rate adjustment of TB within 250 ppm, in parts per 10^9 above -250 000 (R101). -/
opaque freeRate : Nat → Fin 500001

end Sys2Proof.Config
end

