-- ==== Sys2Proof/Machine/Fields.lean ====
section
/-! DEFINITION. The named register fields of every page, each at the offset and bit range of its field table
(rules R54-R496). `R.P.REG.FIELD` is the field `P.REG.FIELD` of the manual; an indexed register takes its index. -/

namespace Sys2Proof.R

abbrev LF.CTRL.EXT : Fld := ⟨0x400, 0, 0⟩
abbrev LF.HOPLEN.LEN : Fld := ⟨0x404, 15, 0⟩
abbrev LF.HOPBASE.BASE : Fld := ⟨0x408, 31, 2⟩
abbrev LF.TMO.US : Fld := ⟨0x40c, 15, 0⟩
abbrev LF.STAT.DEPTH : Fld := ⟨0x410, 31, 16⟩
abbrev LF.STAT.PATH : Fld := ⟨0x410, 2, 2⟩
abbrev LF.STAT.TMO : Fld := ⟨0x410, 1, 1⟩
abbrev LF.STAT.OPEN : Fld := ⟨0x410, 0, 0⟩
abbrev LF.HOP.HOPS (n : Nat) : Fld := ⟨0x420 + 0x4 * n, 31, 0⟩
abbrev FIX.CMD.OP : Fld := ⟨0x100, 3, 0⟩
abbrev FIX.STATE.RULE : Fld := ⟨0x104, 31, 16⟩
abbrev FIX.STATE.RESULT : Fld := ⟨0x104, 15, 8⟩
abbrev FIX.STATE.BMISS : Fld := ⟨0x104, 3, 3⟩
abbrev FIX.STATE.ST : Fld := ⟨0x104, 2, 0⟩
abbrev FIX.FAILPG.NFAIL : Fld := ⟨0x108, 27, 16⟩
abbrev FIX.FAILPG.PAGE : Fld := ⟨0x108, 11, 0⟩
abbrev FIX.MODE.JOIN : Fld := ⟨0x10c, 2, 2⟩
abbrev FIX.MODE.BCAST : Fld := ⟨0x10c, 1, 1⟩
abbrev FIX.MODE.NOW : Fld := ⟨0x10c, 0, 0⟩
abbrev FIX.TIME_LO.T : Fld := ⟨0x110, 31, 0⟩
abbrev FIX.TIME_HI.T : Fld := ⟨0x114, 31, 0⟩
abbrev FIX.NSCOPE.N : Fld := ⟨0x118, 6, 0⟩
abbrev FIX.TAG.TAG : Fld := ⟨0x11c, 15, 0⟩
abbrev FIX.BLEAD.TICKS : Fld := ⟨0x120, 23, 0⟩
abbrev FIX.BEXP.N : Fld := ⟨0x124, 15, 0⟩
abbrev FIX.BACK.NACK : Fld := ⟨0x128, 31, 16⟩
abbrev FIX.BACK.ACK : Fld := ⟨0x128, 15, 0⟩
abbrev FIX.APPLIED_LO.T : Fld := ⟨0x130, 31, 0⟩
abbrev FIX.APPLIED_HI.T : Fld := ⟨0x134, 31, 0⟩
abbrev FIX.SCOPE.SUB (n : Nat) : Fld := ⟨0x200 + 0x4 * n, 12, 12⟩
abbrev FIX.SCOPE.PAGE (n : Nat) : Fld := ⟨0x200 + 0x4 * n, 11, 0⟩
abbrev TB.NOW_LO.T : Fld := ⟨0x100, 31, 0⟩
abbrev TB.NOW_HI.T : Fld := ⟨0x104, 31, 0⟩
abbrev TB.SYNC.ROLE : Fld := ⟨0x108, 1, 0⟩
abbrev TB.SSTAT.STATE : Fld := ⟨0x10c, 1, 0⟩
abbrev TB.OFFSET.NS : Fld := ⟨0x110, 31, 0⟩
abbrev TB.RATE.PPB : Fld := ⟨0x114, 31, 0⟩
abbrev TB.HOLDTMO.S : Fld := ⟨0x118, 15, 0⟩
abbrev TBC.LO.V (n : Nat) : Fld := ⟨0x200 + 0x10 * n, 31, 0⟩
abbrev TBC.HI.V (n : Nat) : Fld := ⟨0x204 + 0x10 * n, 31, 0⟩
abbrev TBC.CTRL.INTV (n : Nat) : Fld := ⟨0x208 + 0x10 * n, 31, 8⟩
abbrev TBC.CTRL.ARM (n : Nat) : Fld := ⟨0x208 + 0x10 * n, 0, 0⟩
abbrev TBC.STAT.LATE (n : Nat) : Fld := ⟨0x20c + 0x10 * n, 1, 1⟩
abbrev TBC.STAT.FIRED (n : Nat) : Fld := ⟨0x20c + 0x10 * n, 0, 0⟩
abbrev CAP.SEL.MODE (n : Nat) : Fld := ⟨0x280 + 0x10 * n, 9, 8⟩
abbrev CAP.SEL.EVT (n : Nat) : Fld := ⟨0x280 + 0x10 * n, 7, 0⟩
abbrev CAP.LO.T (n : Nat) : Fld := ⟨0x284 + 0x10 * n, 31, 0⟩
abbrev CAP.HI.T (n : Nat) : Fld := ⟨0x288 + 0x10 * n, 31, 0⟩
abbrev CAP.STAT.OVR (n : Nat) : Fld := ⟨0x28c + 0x10 * n, 1, 1⟩
abbrev CAP.STAT.FULL (n : Nat) : Fld := ⟨0x28c + 0x10 * n, 0, 0⟩
abbrev CLK.XSTAT.X32OK : Fld := ⟨0x100, 1, 1⟩
abbrev CLK.XSTAT.XOK : Fld := ⟨0x100, 0, 0⟩
abbrev CLK.LOCK.L : Fld := ⟨0x104, 16, 0⟩
abbrev CLK.LOSS.L : Fld := ⟨0x108, 16, 0⟩
abbrev CLK.GATE.G : Fld := ⟨0x10c, 16, 0⟩
abbrev HS.OUT.ON : Fld := ⟨0x100, 0, 0⟩
abbrev HS.CMD.CLRR : Fld := ⟨0x104, 1, 1⟩
abbrev HS.CMD.CLR : Fld := ⟨0x104, 0, 0⟩
abbrev HS.CFG.OLON : Fld := ⟨0x108, 13, 13⟩
abbrev HS.CFG.OLOFF : Fld := ⟨0x108, 12, 12⟩
abbrev HS.CFG.AUTOST : Fld := ⟨0x108, 10, 10⟩
abbrev HS.CFG.SLEW : Fld := ⟨0x108, 9, 8⟩
abbrev HS.CFG.LIMP : Fld := ⟨0x108, 7, 6⟩
abbrev HS.CFG.PAL : Fld := ⟨0x108, 4, 0⟩
abbrev HS.PERIOD.P : Fld := ⟨0x10c, 19, 0⟩
abbrev HS.DUTY.D : Fld := ⟨0x110, 15, 0⟩
abbrev HS.PHASE.PH : Fld := ⟨0x114, 15, 0⟩
abbrev HS.WIN.KIND : Fld := ⟨0x118, 17, 16⟩
abbrev HS.WIN.LEN : Fld := ⟨0x118, 15, 0⟩
abbrev HS.STAT.ENVT : Fld := ⟨0x11c, 31, 16⟩
abbrev HS.STAT.RCNT : Fld := ⟨0x11c, 11, 8⟩
abbrev HS.STAT.WEND : Fld := ⟨0x11c, 7, 6⟩
abbrev HS.STAT.WKIND : Fld := ⟨0x11c, 5, 4⟩
abbrev HS.STAT.GANGED : Fld := ⟨0x11c, 3, 3⟩
abbrev HS.STAT.INRUSH : Fld := ⟨0x11c, 2, 2⟩
abbrev HS.STAT.RETRY : Fld := ⟨0x11c, 1, 1⟩
abbrev HS.STAT.GATE : Fld := ⟨0x11c, 0, 0⟩
abbrev HS.SENSE.CODE : Fld := ⟨0x120, 13, 0⟩
abbrev HS.SEG.CEIL : Fld := ⟨0x124, 31, 16⟩
abbrev HS.SEG.NSEG : Fld := ⟨0x124, 15, 12⟩
abbrev HS.SEG.MAP : Fld := ⟨0x124, 7, 0⟩
abbrev HS.RATE.ICONT : Fld := ⟨0x128, 15, 0⟩
abbrev BANK.GANG.GID (k : Nat) : Fld := ⟨0x400, 4 * k + 2, 4 * k⟩
abbrev BANK.BUDGET.I : Fld := ⟨0x404, 15, 0⟩
abbrev BANK.ISUM.I : Fld := ⟨0x408, 15, 0⟩
abbrev BANK.STAT.INRUSH : Fld := ⟨0x40c, 23, 16⟩
abbrev BANK.STAT.LATCH : Fld := ⟨0x40c, 15, 8⟩
abbrev BANK.STAT.GATE : Fld := ⟨0x40c, 7, 0⟩
abbrev PAL.CFG.FACT (n : Nat) : Fld := ⟨0x100 + 0x38 * n, 31, 31⟩
abbrev PAL.CFG.NBP (n : Nat) : Fld := ⟨0x100 + 0x38 * n, 3, 0⟩
abbrev PAL.BP.T (n : Nat) (j : Nat) : Fld := ⟨0x104 + 0x38 * n + 4 * j, 31, 16⟩
abbrev PAL.BP.I (n : Nat) (j : Nat) : Fld := ⟨0x104 + 0x38 * n + 4 * j, 15, 0⟩
abbrev PAL.TRIP.I (n : Nat) : Fld := ⟨0x124 + 0x38 * n, 15, 0⟩
abbrev PAL.OL.VTH (n : Nat) : Fld := ⟨0x128 + 0x38 * n, 23, 16⟩
abbrev PAL.OL.ION (n : Nat) : Fld := ⟨0x128 + 0x38 * n, 15, 0⟩
abbrev PAL.BLANK.TOL (n : Nat) : Fld := ⟨0x12c + 0x38 * n, 31, 16⟩
abbrev PAL.BLANK.TBLK (n : Nat) : Fld := ⟨0x12c + 0x38 * n, 15, 0⟩
abbrev PAL.RETRY.INT (n : Nat) : Fld := ⟨0x130 + 0x38 * n, 12, 8⟩
abbrev PAL.RETRY.N (n : Nat) : Fld := ⟨0x130 + 0x38 * n, 3, 0⟩
abbrev SYS.ISEL.EN : Fld := ⟨0x300, 8, 8⟩
abbrev SYS.ISEL.CH : Fld := ⟨0x300, 5, 0⟩
abbrev HB.STAT.MAP : Fld := ⟨0x100, 29, 16⟩
abbrev HB.STAT.DRIVEN : Fld := ⟨0x100, 4, 4⟩
abbrev HB.STAT.LATCH : Fld := ⟨0x100, 3, 3⟩
abbrev HB.STAT.LSON : Fld := ⟨0x100, 1, 1⟩
abbrev HB.STAT.HSON : Fld := ⟨0x100, 0, 0⟩
abbrev HB.SENSE.CODE : Fld := ⟨0x104, 13, 0⟩
abbrev BRIDGE.CFG.EN (n : Nat) : Fld := ⟨0x400 + 0x40 * n, 31, 31⟩
abbrev BRIDGE.CFG.LEGB (n : Nat) : Fld := ⟨0x400 + 0x40 * n, 28, 24⟩
abbrev BRIDGE.CFG.LEGA (n : Nat) : Fld := ⟨0x400 + 0x40 * n, 20, 16⟩
abbrev BRIDGE.CFG.PKEN (n : Nat) : Fld := ⟨0x400 + 0x40 * n, 15, 15⟩
abbrev BRIDGE.CFG.PLEV (n : Nat) : Fld := ⟨0x400 + 0x40 * n, 14, 14⟩
abbrev BRIDGE.CFG.PSTOP (n : Nat) : Fld := ⟨0x400 + 0x40 * n, 12, 12⟩
abbrev BRIDGE.CFG.OLOFF (n : Nat) : Fld := ⟨0x400 + 0x40 * n, 11, 11⟩
abbrev BRIDGE.CFG.DECAY (n : Nat) : Fld := ⟨0x400 + 0x40 * n, 10, 10⟩
abbrev BRIDGE.CFG.SAFE (n : Nat) : Fld := ⟨0x400 + 0x40 * n, 9, 8⟩
abbrev BRIDGE.CFG.DT (n : Nat) : Fld := ⟨0x400 + 0x40 * n, 7, 0⟩
abbrev BRIDGE.OUT.TGTEN (n : Nat) : Fld := ⟨0x404 + 0x40 * n, 8, 8⟩
abbrev BRIDGE.OUT.CMD (n : Nat) : Fld := ⟨0x404 + 0x40 * n, 2, 0⟩
abbrev BRIDGE.CMD.CLR (n : Nat) : Fld := ⟨0x408 + 0x40 * n, 0, 0⟩
abbrev BRIDGE.PERIOD.P (n : Nat) : Fld := ⟨0x40c + 0x40 * n, 19, 0⟩
abbrev BRIDGE.DUTY.D (n : Nat) : Fld := ⟨0x410 + 0x40 * n, 15, 0⟩
abbrev BRIDGE.PHASE.PH (n : Nat) : Fld := ⟨0x414 + 0x40 * n, 15, 0⟩
abbrev BRIDGE.LIM.ISTART (n : Nat) : Fld := ⟨0x418 + 0x40 * n, 31, 16⟩
abbrev BRIDGE.LIM.ILIM (n : Nat) : Fld := ⟨0x418 + 0x40 * n, 15, 0⟩
abbrev BRIDGE.AUX.PSI (n : Nat) : Fld := ⟨0x41c + 0x40 * n, 29, 24⟩
abbrev BRIDGE.AUX.TSTART (n : Nat) : Fld := ⟨0x41c + 0x40 * n, 15, 0⟩
abbrev BRIDGE.RIP.EN (n : Nat) : Fld := ⟨0x420 + 0x40 * n, 31, 31⟩
abbrev BRIDGE.RIP.IMIN (n : Nat) : Fld := ⟨0x420 + 0x40 * n, 30, 16⟩
abbrev BRIDGE.RIP.TNOM (n : Nat) : Fld := ⟨0x420 + 0x40 * n, 15, 0⟩
abbrev BRIDGE.TMO.PARKT (n : Nat) : Fld := ⟨0x424 + 0x40 * n, 31, 16⟩
abbrev BRIDGE.TMO.STALLT (n : Nat) : Fld := ⟨0x424 + 0x40 * n, 15, 0⟩
abbrev BRIDGE.POS.POS (n : Nat) : Fld := ⟨0x428 + 0x40 * n, 31, 0⟩
abbrev BRIDGE.TGT.TGT (n : Nat) : Fld := ⟨0x42c + 0x40 * n, 31, 0⟩
abbrev BRIDGE.PINCH.SLTH (n : Nat) : Fld := ⟨0x430 + 0x40 * n, 31, 16⟩
abbrev BRIDGE.PINCH.SLWIN (n : Nat) : Fld := ⟨0x430 + 0x40 * n, 15, 0⟩
abbrev BRIDGE.PZLO.POS (n : Nat) : Fld := ⟨0x434 + 0x40 * n, 31, 0⟩
abbrev BRIDGE.PZHI.POS (n : Nat) : Fld := ⟨0x438 + 0x40 * n, 31, 0⟩
abbrev BRIDGE.STAT.AVG (n : Nat) : Fld := ⟨0x43c + 0x40 * n, 31, 16⟩
abbrev BRIDGE.STAT.POSUNC (n : Nat) : Fld := ⟨0x43c + 0x40 * n, 11, 11⟩
abbrev BRIDGE.STAT.SHARE (n : Nat) : Fld := ⟨0x43c + 0x40 * n, 10, 10⟩
abbrev BRIDGE.STAT.TGTHIT (n : Nat) : Fld := ⟨0x43c + 0x40 * n, 9, 9⟩
abbrev BRIDGE.STAT.PARKED (n : Nat) : Fld := ⟨0x43c + 0x40 * n, 8, 8⟩
abbrev BRIDGE.STAT.START (n : Nat) : Fld := ⟨0x43c + 0x40 * n, 7, 7⟩
abbrev BRIDGE.STAT.APPLIED (n : Nat) : Fld := ⟨0x43c + 0x40 * n, 6, 4⟩
abbrev BRIDGE.STAT.LATCH (n : Nat) : Fld := ⟨0x43c + 0x40 * n, 2, 2⟩
abbrev BRIDGE.STAT.GOV (n : Nat) : Fld := ⟨0x43c + 0x40 * n, 1, 0⟩
abbrev VL.OUT.ON : Fld := ⟨0x100, 0, 0⟩
abbrev VL.CMD.TRIG : Fld := ⟨0x104, 1, 1⟩
abbrev VL.CMD.CLR : Fld := ⟨0x104, 0, 0⟩
abbrev VL.CFG.PULSE : Fld := ⟨0x108, 0, 0⟩
abbrev VL.PEAK.TPKMAX : Fld := ⟨0x10c, 31, 16⟩
abbrev VL.PEAK.IPK : Fld := ⟨0x10c, 15, 0⟩
abbrev VL.PHOLD.TPH : Fld := ⟨0x110, 15, 0⟩
abbrev VL.HOLD.THOLD : Fld := ⟨0x114, 31, 16⟩
abbrev VL.HOLD.IHOLD : Fld := ⟨0x114, 15, 0⟩
abbrev VL.CHOP.P : Fld := ⟨0x118, 19, 0⟩
abbrev VL.PHASE.PH : Fld := ⟨0x11c, 15, 0⟩
abbrev VL.MINOFF.TMINOFF : Fld := ⟨0x120, 15, 0⟩
abbrev VL.STAT.WAITD : Fld := ⟨0x124, 31, 16⟩
abbrev VL.STAT.LATCH : Fld := ⟨0x124, 5, 5⟩
abbrev VL.STAT.BFED : Fld := ⟨0x124, 4, 4⟩
abbrev VL.STAT.PEND : Fld := ⟨0x124, 3, 3⟩
abbrev VL.STAT.PHASE : Fld := ⟨0x124, 2, 0⟩
abbrev VL.SENSE.CODE : Fld := ⟨0x128, 13, 0⟩
abbrev BOOST.CFG.BEN : Fld := ⟨0x100, 31, 31⟩
abbrev BOOST.CFG.VSET : Fld := ⟨0x100, 15, 8⟩
abbrev BOOST.CFG.RDYM : Fld := ⟨0x100, 3, 0⟩
abbrev VSIDE.CFG.MODEB : Fld := ⟨0x104, 1, 1⟩
abbrev VSIDE.CFG.MODEA : Fld := ⟨0x104, 0, 0⟩
abbrev BOOST.STAT.VMEAS : Fld := ⟨0x108, 31, 16⟩
abbrev BOOST.STAT.ST : Fld := ⟨0x108, 2, 0⟩
abbrev VSIDE.STAT.SRCB : Fld := ⟨0x10c, 11, 10⟩
abbrev VSIDE.STAT.EFFB : Fld := ⟨0x10c, 9, 9⟩
abbrev VSIDE.STAT.LATB : Fld := ⟨0x10c, 8, 8⟩
abbrev VSIDE.STAT.SRCA : Fld := ⟨0x10c, 3, 2⟩
abbrev VSIDE.STAT.EFFA : Fld := ⟨0x10c, 1, 1⟩
abbrev VSIDE.STAT.LATA : Fld := ⟨0x10c, 0, 0⟩
abbrev VSIDE.CMD.BCLR : Fld := ⟨0x110, 2, 2⟩
abbrev VSIDE.CMD.CLRB : Fld := ⟨0x110, 1, 1⟩
abbrev VSIDE.CMD.CLRA : Fld := ⟨0x110, 0, 0⟩
abbrev VSIDE.SENSE.CODEB : Fld := ⟨0x114, 29, 16⟩
abbrev VSIDE.SENSE.CODEA : Fld := ⟨0x114, 13, 0⟩
abbrev MX.OUT.RUN : Fld := ⟨0x100, 0, 0⟩
abbrev MX.CMD.CLR : Fld := ⟨0x104, 0, 0⟩
abbrev MX.SCAN.PRE : Fld := ⟨0x108, 19, 16⟩
abbrev MX.SCAN.GUARD : Fld := ⟨0x108, 9, 0⟩
abbrev MX.PHASE.PH : Fld := ⟨0x10c, 15, 0⟩
abbrev MX.ROWEN.EN : Fld := ⟨0x110, 15, 0⟩
abbrev MX.ICOL.CODE (n : Nat) (k : Nat) : Fld := ⟨0x114 + 0x4 * n, 8 * k + 7, 8 * k⟩
abbrev MX.DERATE.TK : Fld := ⟨0x124, 13, 8⟩
abbrev MX.DERATE.SLOPE : Fld := ⟨0x124, 3, 0⟩
abbrev MX.STAT.PHI : Fld := ⟨0x128, 24, 16⟩
abbrev MX.STAT.SLOT : Fld := ⟨0x128, 3, 0⟩
abbrev MX.TEMP.T : Fld := ⟨0x12c, 15, 0⟩
abbrev MX.LATCH.COL : Fld := ⟨0x130, 31, 16⟩
abbrev MX.LATCH.ROW : Fld := ⟨0x130, 15, 0⟩
abbrev MX.OPEN.COL : Fld := ⟨0x134, 15, 0⟩
abbrev PXC.OUT.RUN : Fld := ⟨0x100, 0, 0⟩
abbrev PXC.CFG.NDRV : Fld := ⟨0x104, 22, 16⟩
abbrev PXC.CFG.W16 : Fld := ⟨0x104, 13, 13⟩
abbrev PXC.CFG.DIV : Fld := ⟨0x104, 12, 8⟩
abbrev PXC.CFG.LEW : Fld := ⟨0x104, 7, 0⟩
abbrev PXC.PERIOD.P : Fld := ⟨0x108, 19, 0⟩
abbrev PXC.PHASE.PH : Fld := ⟨0x10c, 15, 0⟩
abbrev PXC.STAT.BLANK : Fld := ⟨0x110, 1, 1⟩
abbrev PXC.STAT.SHIFT : Fld := ⟨0x110, 0, 0⟩
abbrev CV.SWAP.CANCEL : Fld := ⟨0x100, 4, 4⟩
abbrev CV.SWAP.SRC : Fld := ⟨0x100, 1, 0⟩
abbrev CV.T_LO.T : Fld := ⟨0x104, 31, 0⟩
abbrev CV.T_HI.T : Fld := ⟨0x108, 31, 0⟩
abbrev CV.STAT.LATE : Fld := ⟨0x10c, 3, 3⟩
abbrev CV.STAT.PEND : Fld := ⟨0x10c, 2, 2⟩
abbrev CV.STAT.PXFRONT : Fld := ⟨0x10c, 1, 1⟩
abbrev CV.STAT.FRONT : Fld := ⟨0x10c, 0, 0⟩
abbrev CV.LSYNC.MODE : Fld := ⟨0x110, 1, 0⟩
abbrev CV.APPLIED_LO.T : Fld := ⟨0x114, 31, 0⟩
abbrev CV.APPLIED_HI.T : Fld := ⟨0x118, 31, 0⟩
abbrev AMB.OUT.ON : Fld := ⟨0x100, 0, 0⟩
abbrev AMB.CMD.CLR : Fld := ⟨0x104, 0, 0⟩
abbrev AMB.CUR.IB : Fld := ⟨0x108, 23, 16⟩
abbrev AMB.CUR.IG : Fld := ⟨0x108, 15, 8⟩
abbrev AMB.CUR.IR : Fld := ⟨0x108, 7, 0⟩
abbrev AMB.DRG.G : Fld := ⟨0x10c, 27, 16⟩
abbrev AMB.DRG.R : Fld := ⟨0x10c, 11, 0⟩
abbrev AMB.DB.B : Fld := ⟨0x110, 11, 0⟩
abbrev AMB.LOOP.CL : Fld := ⟨0x114, 31, 31⟩
abbrev AMB.LOOP.KI : Fld := ⟨0x114, 23, 16⟩
abbrev AMB.LOOP.INTV : Fld := ⟨0x114, 9, 0⟩
abbrev AMB.TGTRG.G : Fld := ⟨0x118, 31, 16⟩
abbrev AMB.TGTRG.R : Fld := ⟨0x118, 15, 0⟩
abbrev AMB.TGTB.B : Fld := ⟨0x11c, 15, 0⟩
abbrev AMB.SENS.ADDR : Fld := ⟨0x120, 22, 16⟩
abbrev AMB.SENS.REG : Fld := ⟨0x120, 7, 0⟩
abbrev AMB.MEASRG.G : Fld := ⟨0x124, 31, 16⟩
abbrev AMB.MEASRG.R : Fld := ⟨0x124, 15, 0⟩
abbrev AMB.MEASB.B : Fld := ⟨0x128, 15, 0⟩
abbrev AMB.APPRG.G : Fld := ⟨0x12c, 27, 16⟩
abbrev AMB.APPRG.R : Fld := ⟨0x12c, 11, 0⟩
abbrev AMB.APPB.B : Fld := ⟨0x130, 11, 0⟩
abbrev AMB.STAT.HELD : Fld := ⟨0x134, 1, 1⟩
abbrev AMB.STAT.LATCH : Fld := ⟨0x134, 0, 0⟩
abbrev AMB.PERIOD.P : Fld := ⟨0x138, 19, 0⟩
abbrev AMB.PHASE.PH : Fld := ⟨0x13c, 15, 0⟩
abbrev LI2C.CFG.FAST : Fld := ⟨0x100, 0, 0⟩
abbrev LI2C.TMO.US : Fld := ⟨0x104, 15, 0⟩
abbrev LI2C.STAT.FAILS : Fld := ⟨0x108, 15, 0⟩
abbrev SI.CFG.IEN (n : Nat) : Fld := ⟨0x100 + 0x4 * n, 31, 31⟩
abbrev SI.CFG.REF (n : Nat) : Fld := ⟨0x100 + 0x4 * n, 30, 30⟩
abbrev SI.CFG.WET (n : Nat) : Fld := ⟨0x100 + 0x4 * n, 29, 28⟩
abbrev SI.CFG.ANA (n : Nat) : Fld := ⟨0x100 + 0x4 * n, 27, 27⟩
abbrev SI.CFG.HOLD (n : Nat) : Fld := ⟨0x100 + 0x4 * n, 26, 26⟩
abbrev SI.CFG.PARK (n : Nat) : Fld := ⟨0x100 + 0x4 * n, 25, 25⟩
abbrev SI.CFG.PPER (n : Nat) : Fld := ⟨0x100 + 0x4 * n, 24, 23⟩
abbrev SI.CFG.SPER (n : Nat) : Fld := ⟨0x100 + 0x4 * n, 22, 21⟩
abbrev SI.CFG.TH (n : Nat) : Fld := ⟨0x100 + 0x4 * n, 7, 0⟩
abbrev SI.WIN.HI (n : Nat) : Fld := ⟨0x120 + 0x4 * n, 27, 16⟩
abbrev SI.WIN.LO (n : Nat) : Fld := ⟨0x120 + 0x4 * n, 11, 0⟩
abbrev SI.ADC.CODE (n : Nat) : Fld := ⟨0x140 + 0x4 * n, 11, 0⟩
abbrev SI.STATE.RAW : Fld := ⟨0x160, 15, 8⟩
abbrev SI.STATE.ST : Fld := ⟨0x160, 7, 0⟩
abbrev SI.CHG.EVEN : Fld := ⟨0x164, 15, 8⟩
abbrev SI.CHG.CHG : Fld := ⟨0x164, 7, 0⟩
abbrev SIF.ST_LO.ST : Fld := ⟨0x400, 31, 0⟩
abbrev SIF.ST_HI.ST : Fld := ⟨0x404, 31, 0⟩
abbrev IO.OUT.ON : Fld := ⟨0x100, 0, 0⟩
abbrev IO.CMD.CLR : Fld := ⟨0x104, 0, 0⟩
abbrev IO.CFG.TH : Fld := ⟨0x108, 23, 16⟩
abbrev IO.CFG.PPER : Fld := ⟨0x108, 11, 10⟩
abbrev IO.CFG.SPER : Fld := ⟨0x108, 9, 8⟩
abbrev IO.CFG.LIMP : Fld := ⟨0x108, 5, 4⟩
abbrev IO.CFG.MODE : Fld := ⟨0x108, 2, 0⟩
abbrev IO.STAT.VALID : Fld := ⟨0x10c, 3, 3⟩
abbrev IO.STAT.LATCH : Fld := ⟨0x10c, 2, 2⟩
abbrev IO.STAT.RB : Fld := ⟨0x10c, 1, 1⟩
abbrev IO.STAT.ST : Fld := ⟨0x10c, 0, 0⟩
abbrev ISO.FS.VMEAS : Fld := ⟨0x400, 31, 16⟩
abbrev ISO.FS.ST : Fld := ⟨0x400, 1, 0⟩
abbrev ISO.IN.ST : Fld := ⟨0x404, 15, 0⟩
abbrev ISO.EVEN.EN : Fld := ⟨0x408, 15, 0⟩
abbrev RXC.CMD.OP : Fld := ⟨0x100, 31, 28⟩
abbrev RXC.CMD.CLAUSE : Fld := ⟨0x100, 8, 0⟩
abbrev RXC.STAT.RUN : Fld := ⟨0x104, 24, 24⟩
abbrev RXC.STAT.NACT : Fld := ⟨0x104, 9, 0⟩
abbrev RXC.ACT.ACT (n : Nat) : Fld := ⟨0x140 + 0x4 * n, 31, 0⟩
abbrev RXC.BRK.BRK (n : Nat) : Fld := ⟨0x180 + 0x4 * n, 31, 0⟩
abbrev CL.SUBJ.EN (n : Nat) : Fld := ⟨0x100 + 0x20 * n, 31, 31⟩
abbrev CL.SUBJ.SMODE (n : Nat) : Fld := ⟨0x100 + 0x20 * n, 30, 28⟩
abbrev CL.SUBJ.SUBJ (n : Nat) : Fld := ⟨0x100 + 0x20 * n, 10, 0⟩
abbrev CL.QUAL.QEN (n : Nat) : Fld := ⟨0x104 + 0x20 * n, 31, 31⟩
abbrev CL.QUAL.QPOL (n : Nat) : Fld := ⟨0x104 + 0x20 * n, 30, 30⟩
abbrev CL.QUAL.QSUBJ (n : Nat) : Fld := ⟨0x104 + 0x20 * n, 10, 0⟩
abbrev CL.THR.HYS (n : Nat) : Fld := ⟨0x108 + 0x20 * n, 31, 16⟩
abbrev CL.THR.THR (n : Nat) : Fld := ⟨0x108 + 0x20 * n, 15, 0⟩
abbrev CL.VERB.OBJ (n : Nat) : Fld := ⟨0x10c + 0x20 * n, 25, 16⟩
abbrev CL.VERB.VERB (n : Nat) : Fld := ⟨0x10c + 0x20 * n, 3, 0⟩
abbrev CL.ARG.D (n : Nat) : Fld := ⟨0x110 + 0x20 * n, 15, 0⟩
abbrev CL.ASP.PRI (n : Nat) : Fld := ⟨0x114 + 0x20 * n, 31, 24⟩
abbrev CL.ASP.DMODE (n : Nat) : Fld := ⟨0x114 + 0x20 * n, 23, 22⟩
abbrev CL.ASP.RTRG (n : Nat) : Fld := ⟨0x114 + 0x20 * n, 21, 20⟩
abbrev CL.ASP.DUNIT (n : Nat) : Fld := ⟨0x114 + 0x20 * n, 19, 18⟩
abbrev CL.ASP.TEV (n : Nat) : Fld := ⟨0x114 + 0x20 * n, 16, 16⟩
abbrev CL.ASP.DUR (n : Nat) : Fld := ⟨0x114 + 0x20 * n, 15, 0⟩
abbrev CL.STAT.ACTIVE (n : Nat) : Fld := ⟨0x11c + 0x20 * n, 31, 31⟩
abbrev CL.STAT.GOVN (n : Nat) : Fld := ⟨0x11c + 0x20 * n, 30, 30⟩
abbrev CL.STAT.COND (n : Nat) : Fld := ⟨0x11c + 0x20 * n, 29, 29⟩
abbrev CL.STAT.BROKEN (n : Nat) : Fld := ⟨0x11c + 0x20 * n, 28, 28⟩
abbrev CL.STAT.REM (n : Nat) : Fld := ⟨0x11c + 0x20 * n, 15, 0⟩
abbrev RXO.OWN.VALID (n : Nat) : Fld := ⟨0x100 + 0x4 * n, 31, 31⟩
abbrev RXO.OWN.DISC (n : Nat) : Fld := ⟨0x100 + 0x4 * n, 30, 30⟩
abbrev RXO.OWN.CLAUSE (n : Nat) : Fld := ⟨0x100 + 0x4 * n, 8, 0⟩
abbrev RXL.CFG.HOPS : Fld := ⟨0x100, 15, 8⟩
abbrev RXL.CFG.PORTS : Fld := ⟨0x100, 1, 0⟩
abbrev RXL.REF.LREF : Fld := ⟨0x104, 15, 0⟩
abbrev RXL.TMO.LTMO : Fld := ⟨0x108, 15, 0⟩
abbrev RXL.ACC_LO.ACC : Fld := ⟨0x10c, 31, 0⟩
abbrev RXL.ACC_HI.ACC : Fld := ⟨0x110, 31, 0⟩
abbrev RXL.VAL_LO.VAL : Fld := ⟨0x114, 31, 0⟩
abbrev RXL.VAL_HI.VAL : Fld := ⟨0x118, 31, 0⟩
abbrev RXL.TO_LO.TO : Fld := ⟨0x11c, 31, 0⟩
abbrev RXL.TO_HI.TO : Fld := ⟨0x120, 31, 0⟩
abbrev RXL.EVEN_LO.EN : Fld := ⟨0x124, 31, 0⟩
abbrev RXL.EVEN_HI.EN : Fld := ⟨0x128, 31, 0⟩
abbrev CORE.STAT.ROLE : Fld := ⟨0x100, 31, 28⟩
abbrev CORE.STAT.LC : Fld := ⟨0x100, 20, 16⟩
abbrev CORE.STAT.SPLIT : Fld := ⟨0x100, 8, 8⟩
abbrev CORE.STAT.SHIPOK : Fld := ⟨0x100, 1, 1⟩
abbrev CORE.TEST.DUR : Fld := ⟨0x104, 31, 16⟩
abbrev CORE.TEST.RES : Fld := ⟨0x104, 1, 0⟩
abbrev LCM.MAP.PAIR (k : Nat) : Fld := ⟨0x100, 4 * k + 3, 4 * k⟩
abbrev LCM.SPARE.FAILED : Fld := ⟨0x104, 25, 16⟩
abbrev LCM.SPARE.SPARE : Fld := ⟨0x104, 9, 0⟩
abbrev LCM.SPLIT.NCORE : Fld := ⟨0x108, 20, 16⟩
abbrev LCM.SPLIT.SPLIT : Fld := ⟨0x108, 7, 0⟩
abbrev LCM.CSEL.CTX : Fld := ⟨0x110, 8, 0⟩
abbrev LCM.CCMD.OP : Fld := ⟨0x114, 2, 0⟩
abbrev LCM.CCFG.MIG : Fld := ⟨0x118, 31, 31⟩
abbrev LCM.CCFG.PRI : Fld := ⟨0x118, 3, 0⟩
abbrev LCM.CENTRY.PC : Fld := ⟨0x11c, 31, 2⟩
abbrev LCM.CTVEC.PC : Fld := ⟨0x120, 31, 2⟩
abbrev LCM.CSTAT.EVT : Fld := ⟨0x124, 25, 16⟩
abbrev LCM.CSTAT.OPS : Fld := ⟨0x124, 14, 8⟩
abbrev LCM.CSTAT.NMODE : Fld := ⟨0x124, 6, 6⟩
abbrev LCM.CSTAT.DRAIN : Fld := ⟨0x124, 5, 5⟩
abbrev LCM.CSTAT.DBL : Fld := ⟨0x124, 4, 4⟩
abbrev LCM.CSTAT.TMODE : Fld := ⟨0x124, 3, 3⟩
abbrev LCM.CSTAT.STATE : Fld := ⟨0x124, 2, 0⟩
abbrev LCM.CTPC.PC : Fld := ⟨0x128, 31, 0⟩
abbrev LCM.CTCAUSE.CAUSE : Fld := ⟨0x12c, 7, 0⟩
abbrev LCM.CTVAL.VAL : Fld := ⟨0x130, 31, 0⟩
abbrev LCM.CNPC.PC : Fld := ⟨0x134, 31, 0⟩
abbrev LCM.ESEL.CORE : Fld := ⟨0x138, 19, 16⟩
abbrev LCM.ESEL.WORD : Fld := ⟨0x138, 4, 0⟩
abbrev LCM.EPEND.PEND : Fld := ⟨0x13c, 31, 0⟩
abbrev LCM.LCFG.DZTRAP (n : Nat) : Fld := ⟨0x140 + 0x4 * n, 0, 0⟩
abbrev MEMC.SCRUB.EN : Fld := ⟨0x100, 31, 31⟩
abbrev MEMC.SCRUB.GAP : Fld := ⟨0x100, 12, 0⟩
abbrev MEMC.PER.MS : Fld := ⟨0x104, 15, 0⟩
abbrev MEMC.SSTAT.PASS : Fld := ⟨0x108, 31, 16⟩
abbrev MEMC.SSTAT.MACRO : Fld := ⟨0x108, 13, 8⟩
abbrev MEMC.SSTAT.RUN : Fld := ⟨0x108, 0, 0⟩
abbrev MEMC.EADDR.ADDR : Fld := ⟨0x10c, 31, 0⟩
abbrev MEMC.EINFO.MACRO : Fld := ⟨0x110, 31, 26⟩
abbrev MEMC.EINFO.ROW : Fld := ⟨0x110, 25, 13⟩
abbrev MEMC.EINFO.WORD : Fld := ⟨0x110, 12, 10⟩
abbrev MEMC.EINFO.KIND : Fld := ⟨0x110, 3, 2⟩
abbrev MEMC.EINFO.NSYM : Fld := ⟨0x110, 1, 0⟩
abbrev MEMC.ZADDR.ADDR : Fld := ⟨0x114, 31, 5⟩
abbrev MEMC.CMD.OP : Fld := ⟨0x118, 1, 0⟩
abbrev MEMR.SEL.MACRO : Fld := ⟨0x100, 5, 0⟩
abbrev MEMR.USE.FACT : Fld := ⟨0x104, 21, 16⟩
abbrev MEMR.USE.RUN : Fld := ⟨0x104, 13, 8⟩
abbrev MEMR.USE.FREE : Fld := ⟨0x104, 5, 0⟩
abbrev MEMR.IDX.S : Fld := ⟨0x108, 4, 0⟩
abbrev MEMR.MAP.USED : Fld := ⟨0x10c, 31, 31⟩
abbrev MEMR.MAP.FACT : Fld := ⟨0x10c, 30, 30⟩
abbrev MEMR.MAP.ROW : Fld := ⟨0x10c, 12, 0⟩
abbrev MEMR.MSTAT.MAPOK : Fld := ⟨0x110, 8, 8⟩
abbrev MEMR.MSTAT.PEND : Fld := ⟨0x110, 7, 0⟩
abbrev FL.ADDR.ADDR : Fld := ⟨0x100, 31, 5⟩
abbrev FL.CMD.OP : Fld := ⟨0x104, 1, 0⟩
abbrev FL.STAT.ERCNT : Fld := ⟨0x108, 31, 16⟩
abbrev FL.STAT.HWOP : Fld := ⟨0x108, 2, 2⟩
abbrev FL.STAT.RES : Fld := ⟨0x108, 1, 0⟩
abbrev FL.WEARTH.PCT : Fld := ⟨0x10c, 6, 0⟩
abbrev FL.DATA.D (n : Nat) : Fld := ⟨0x120 + 0x4 * n, 31, 0⟩
abbrev FLT.CFG.AKHZ : Fld := ⟨0x100, 13, 8⟩
abbrev FLT.CFG.LOGSEV : Fld := ⟨0x100, 1, 0⟩
abbrev FLT.STAT.SAFE : Fld := ⟨0x104, 31, 31⟩
abbrev FLT.STAT.ALIVE : Fld := ⟨0x104, 30, 30⟩
abbrev FLT.STAT.SELF : Fld := ⟨0x104, 29, 29⟩
abbrev FLT.STAT.SAFEN : Fld := ⟨0x104, 28, 28⟩
abbrev FLT.STAT.MAXSEV : Fld := ⟨0x104, 25, 24⟩
abbrev FLT.CMD.ARG : Fld := ⟨0x108, 15, 8⟩
abbrev FLT.CMD.OP : Fld := ⟨0x108, 3, 0⟩
abbrev FLT.SAFEC.CAUSE : Fld := ⟨0x10c, 18, 16⟩
abbrev FLT.SAFEC.SRC : Fld := ⟨0x10c, 15, 8⟩
abbrev FLT.SELF.WORD : Fld := ⟨0x110, 8, 0⟩
abbrev FLT.RAISED.R (n : Nat) : Fld := ⟨0x114 + 0x4 * n, 31, 0⟩
abbrev FLT.SCFG.CORE (n : Nat) : Fld := ⟨0x100 + 0x4 * n, 19, 16⟩
abbrev FLT.SCFG.RDST (n : Nat) : Fld := ⟨0x100 + 0x4 * n, 14, 14⟩
abbrev FLT.SCFG.ALIVE (n : Nat) : Fld := ⟨0x100 + 0x4 * n, 13, 13⟩
abbrev FLT.SCFG.SAFE (n : Nat) : Fld := ⟨0x100 + 0x4 * n, 12, 12⟩
abbrev FLT.SCFG.CRST (n : Nat) : Fld := ⟨0x100 + 0x4 * n, 11, 11⟩
abbrev FLT.SCFG.BRST (n : Nat) : Fld := ⟨0x100 + 0x4 * n, 10, 10⟩
abbrev FLT.SCFG.NMT (n : Nat) : Fld := ⟨0x100 + 0x4 * n, 9, 9⟩
abbrev FLT.SCFG.INT (n : Nat) : Fld := ⟨0x100 + 0x4 * n, 8, 8⟩
abbrev FLT.SCFG.SEV (n : Nat) : Fld := ⟨0x100 + 0x4 * n, 1, 0⟩
abbrev FLT.LSTAT.NUM : Fld := ⟨0x100, 22, 16⟩
abbrev FLT.LSTAT.OVF : Fld := ⟨0x100, 8, 8⟩
abbrev FLT.LSEL.IDX : Fld := ⟨0x104, 5, 0⟩
abbrev FLT.LTB_LO.T : Fld := ⟨0x108, 31, 0⟩
abbrev FLT.LTB_HI.T : Fld := ⟨0x10c, 31, 0⟩
abbrev FLT.LSRC.VALID : Fld := ⟨0x110, 31, 31⟩
abbrev FLT.LSRC.SEV : Fld := ⟨0x110, 17, 16⟩
abbrev FLT.LSRC.SRC : Fld := ⟨0x110, 7, 0⟩
abbrev FLT.LDET.D : Fld := ⟨0x114, 31, 0⟩
abbrev FLT.FTB_LO.T : Fld := ⟨0x118, 31, 0⟩
abbrev FLT.FTB_HI.T : Fld := ⟨0x11c, 31, 0⟩
abbrev FLT.FSRC.VALID : Fld := ⟨0x120, 31, 31⟩
abbrev FLT.FSRC.SEV : Fld := ⟨0x120, 17, 16⟩
abbrev FLT.FSRC.SRC : Fld := ⟨0x120, 7, 0⟩
abbrev FLT.FDET.D : Fld := ⟨0x124, 31, 0⟩
abbrev CAN.CMD.OP : Fld := ⟨0x100, 3, 0⟩
abbrev CAN.MODE.NOMATCH : Fld := ⟨0x104, 9, 8⟩
abbrev CAN.MODE.XLEN : Fld := ⟨0x104, 5, 5⟩
abbrev CAN.MODE.FDEN : Fld := ⟨0x104, 4, 4⟩
abbrev CAN.MODE.BOAUTO : Fld := ⟨0x104, 3, 3⟩
abbrev CAN.MODE.TXPRI : Fld := ⟨0x104, 2, 2⟩
abbrev CAN.MODE.SELFRX : Fld := ⟨0x104, 1, 1⟩
abbrev CAN.MODE.LOM : Fld := ⟨0x104, 0, 0⟩
abbrev CAN.NBT.SJW : Fld := ⟨0x108, 30, 24⟩
abbrev CAN.NBT.TSEG1 : Fld := ⟨0x108, 23, 16⟩
abbrev CAN.NBT.TSEG2 : Fld := ⟨0x108, 14, 8⟩
abbrev CAN.NBT.BRP : Fld := ⟨0x108, 4, 0⟩
abbrev CAN.DBT.SJW : Fld := ⟨0x10c, 28, 24⟩
abbrev CAN.DBT.TSEG1 : Fld := ⟨0x10c, 21, 16⟩
abbrev CAN.DBT.TSEG2 : Fld := ⟨0x10c, 12, 8⟩
abbrev CAN.DBT.BRP : Fld := ⟨0x10c, 4, 0⟩
abbrev CAN.XBT.SJW : Fld := ⟨0x110, 28, 24⟩
abbrev CAN.XBT.TSEG1 : Fld := ⟨0x110, 21, 16⟩
abbrev CAN.XBT.TSEG2 : Fld := ⟨0x110, 12, 8⟩
abbrev CAN.XBT.BRP : Fld := ⟨0x110, 4, 0⟩
abbrev CAN.TDC.TDCO : Fld := ⟨0x114, 14, 8⟩
abbrev CAN.TDC.EN : Fld := ⟨0x114, 0, 0⟩
abbrev CAN.RETRY.ALONETH : Fld := ⟨0x118, 31, 24⟩
abbrev CAN.RETRY.SSHOT : Fld := ⟨0x118, 16, 16⟩
abbrev CAN.RETRY.RTLIM : Fld := ⟨0x118, 15, 8⟩
abbrev CAN.RETRY.BODLY : Fld := ⟨0x118, 7, 0⟩
abbrev CAN.STAT.ABIDX : Fld := ⟨0x11c, 11, 8⟩
abbrev CAN.STAT.RXING : Fld := ⟨0x11c, 7, 7⟩
abbrev CAN.STAT.TXING : Fld := ⟨0x11c, 6, 6⟩
abbrev CAN.STAT.TSRC : Fld := ⟨0x11c, 5, 5⟩
abbrev CAN.STAT.ALONE : Fld := ⟨0x11c, 4, 4⟩
abbrev CAN.STAT.SAFE : Fld := ⟨0x11c, 3, 3⟩
abbrev CAN.STAT.STATE : Fld := ⟨0x11c, 2, 0⟩
abbrev CAN.ECNT.TEC : Fld := ⟨0x120, 24, 16⟩
abbrev CAN.ECNT.REC : Fld := ⟨0x120, 7, 0⟩
abbrev CAN.LASTERR.DPH : Fld := ⟨0x124, 4, 4⟩
abbrev CAN.LASTERR.CODE : Fld := ⟨0x124, 3, 0⟩
abbrev CAN.AB.ROUNDS : Fld := ⟨0x128, 23, 16⟩
abbrev CAN.AB.TMO : Fld := ⟨0x128, 15, 8⟩
abbrev CAN.AB.NCAND : Fld := ⟨0x128, 7, 4⟩
abbrev CAN.AB.GO : Fld := ⟨0x128, 1, 1⟩
abbrev CAN.AB.ADOPT : Fld := ⟨0x128, 0, 0⟩
abbrev CAN.ABN.SJW (n : Nat) : Fld := ⟨0x130 + 0x8 * n, 30, 24⟩
abbrev CAN.ABN.TSEG1 (n : Nat) : Fld := ⟨0x130 + 0x8 * n, 23, 16⟩
abbrev CAN.ABN.TSEG2 (n : Nat) : Fld := ⟨0x130 + 0x8 * n, 14, 8⟩
abbrev CAN.ABN.BRP (n : Nat) : Fld := ⟨0x130 + 0x8 * n, 4, 0⟩
abbrev CAN.ABD.SJW (n : Nat) : Fld := ⟨0x134 + 0x8 * n, 28, 24⟩
abbrev CAN.ABD.TSEG1 (n : Nat) : Fld := ⟨0x134 + 0x8 * n, 21, 16⟩
abbrev CAN.ABD.TSEG2 (n : Nat) : Fld := ⟨0x134 + 0x8 * n, 12, 8⟩
abbrev CAN.ABD.BRP (n : Nat) : Fld := ⟨0x134 + 0x8 * n, 4, 0⟩
abbrev RXF.BASE.ADDR (n : Nat) : Fld := ⟨0x170 + 0x10 * n, 31, 5⟩
abbrev RXF.CFG.IEN (n : Nat) : Fld := ⟨0x174 + 0x10 * n, 31, 31⟩
abbrev RXF.CFG.SZ (n : Nat) : Fld := ⟨0x174 + 0x10 * n, 26, 20⟩
abbrev RXF.CFG.NREC (n : Nat) : Fld := ⟨0x174 + 0x10 * n, 10, 0⟩
abbrev RXF.IDX.GET (n : Nat) : Fld := ⟨0x178 + 0x10 * n, 25, 16⟩
abbrev RXF.IDX.PUT (n : Nat) : Fld := ⟨0x178 + 0x10 * n, 9, 0⟩
abbrev TXS.ADDR.ADDR (n : Nat) : Fld := ⟨0x200 + 0x10 * n, 31, 2⟩
abbrev TXS.CTRL.CANCEL (n : Nat) : Fld := ⟨0x204 + 0x10 * n, 1, 1⟩
abbrev TXS.CTRL.REQ (n : Nat) : Fld := ⟨0x204 + 0x10 * n, 0, 0⟩
abbrev TXS.CFG.IEN (n : Nat) : Fld := ⟨0x208 + 0x10 * n, 0, 0⟩
abbrev TXS.STAT.ATT (n : Nat) : Fld := ⟨0x20c + 0x10 * n, 23, 16⟩
abbrev TXS.STAT.CXLATE (n : Nat) : Fld := ⟨0x20c + 0x10 * n, 8, 8⟩
abbrev TXS.STAT.ST (n : Nat) : Fld := ⟨0x20c + 0x10 * n, 2, 0⟩
abbrev CAN.TXDONE.S : Fld := ⟨0x300, 15, 0⟩
abbrev CAN.RXEV.F : Fld := ⟨0x304, 1, 0⟩
abbrev CAN.TRX.MODE : Fld := ⟨0x308, 1, 0⟩
abbrev FE.ID.EN (n : Nat) : Fld := ⟨0x400 + 0xc * n, 31, 31⟩
abbrev FE.ID.IDE (n : Nat) : Fld := ⟨0x400 + 0xc * n, 30, 30⟩
abbrev FE.ID.ID (n : Nat) : Fld := ⟨0x400 + 0xc * n, 28, 0⟩
abbrev FE.MASK.MASK (n : Nat) : Fld := ⟨0x404 + 0xc * n, 28, 0⟩
abbrev FE.ACT.VCID (n : Nat) : Fld := ⟨0x408 + 0xc * n, 23, 16⟩
abbrev FE.ACT.VCEN (n : Nat) : Fld := ⟨0x408 + 0xc * n, 15, 15⟩
abbrev FE.ACT.FMTS (n : Nat) : Fld := ⟨0x408 + 0xc * n, 6, 4⟩
abbrev FE.ACT.EARLY (n : Nat) : Fld := ⟨0x408 + 0xc * n, 2, 2⟩
abbrev FE.ACT.DEST (n : Nat) : Fld := ⟨0x408 + 0xc * n, 1, 0⟩
abbrev WAKE.CFG.FDTOL : Fld := ⟨0x700, 8, 8⟩
abbrev WAKE.CFG.RATE : Fld := ⟨0x700, 5, 4⟩
abbrev WAKE.CFG.WMODE : Fld := ⟨0x700, 1, 0⟩
abbrev WAKE.ID.IDE : Fld := ⟨0x704, 29, 29⟩
abbrev WAKE.ID.ID : Fld := ⟨0x704, 28, 0⟩
abbrev WAKE.MASK.MASK : Fld := ⟨0x708, 28, 0⟩
abbrev WAKE.DLC.DMEN : Fld := ⟨0x70c, 8, 8⟩
abbrev WAKE.DLC.DLC : Fld := ⟨0x70c, 3, 0⟩
abbrev WAKE.DATA_LO.D : Fld := ⟨0x710, 31, 0⟩
abbrev WAKE.DATA_HI.D : Fld := ⟨0x714, 31, 0⟩
abbrev WAKE.STAT.FECOVF : Fld := ⟨0x718, 8, 8⟩
abbrev WAKE.STAT.FEC : Fld := ⟨0x718, 5, 0⟩
abbrev LIN.CMD.OP : Fld := ⟨0x100, 3, 0⟩
abbrev LIN.CFG.MASTER : Fld := ⟨0x104, 31, 31⟩
abbrev LIN.CFG.BR : Fld := ⟨0x104, 14, 0⟩
abbrev LIN.FTAB.ADDR : Fld := ⟨0x108, 31, 4⟩
abbrev LIN.SCHED.ADDR : Fld := ⟨0x10c, 31, 2⟩
abbrev LIN.SCHN.N : Fld := ⟨0x110, 7, 0⟩
abbrev LIN.WAKE.US : Fld := ⟨0x114, 12, 0⟩
abbrev LIN.STAT.STATE : Fld := ⟨0x118, 26, 24⟩
abbrev LIN.STAT.LASTID : Fld := ⟨0x118, 21, 16⟩
abbrev LIN.STAT.SCHPOS : Fld := ⟨0x118, 15, 8⟩
abbrev LIN.STAT.ERR : Fld := ⟨0x118, 3, 0⟩
abbrev ETH.CFG.LROLE : Fld := ⟨0x100, 17, 16⟩
abbrev ETH.CFG.MS : Fld := ⟨0x100, 8, 8⟩
abbrev ETH.PLCA.EN : Fld := ⟨0x104, 24, 24⟩
abbrev ETH.PLCA.NCNT : Fld := ⟨0x104, 23, 16⟩
abbrev ETH.PLCA.ID : Fld := ⟨0x104, 15, 8⟩
abbrev ETH.PLCA.TO : Fld := ⟨0x104, 7, 0⟩
abbrev ETH.STAT.SQI : Fld := ⟨0x108, 10, 8⟩
abbrev ETH.STAT.MASTER : Fld := ⟨0x108, 1, 1⟩
abbrev ETH.STAT.LINK : Fld := ⟨0x108, 0, 0⟩
abbrev ESW.CFG.AGE : Fld := ⟨0x100, 15, 0⟩
abbrev ESW.PORT.FWD (n : Nat) : Fld := ⟨0x104 + 0x4 * n, 31, 31⟩
abbrev ESW.PORT.PCP (n : Nat) : Fld := ⟨0x104 + 0x4 * n, 14, 12⟩
abbrev ESW.PORT.PVID (n : Nat) : Fld := ⟨0x104 + 0x4 * n, 11, 0⟩
abbrev ESW.VLAN.VALID (n : Nat) : Fld := ⟨0x140 + 0x4 * n, 31, 31⟩
abbrev ESW.VLAN.MEMBER (n : Nat) : Fld := ⟨0x140 + 0x4 * n, 28, 24⟩
abbrev ESW.VLAN.UNTAG (n : Nat) : Fld := ⟨0x140 + 0x4 * n, 20, 16⟩
abbrev ESW.VLAN.VID (n : Nat) : Fld := ⟨0x140 + 0x4 * n, 11, 0⟩
abbrev ESW.STAT.MACN : Fld := ⟨0x180, 10, 0⟩
abbrev EHP.RXBASE.ADDR : Fld := ⟨0x100, 31, 5⟩
abbrev EHP.RXCFG.IEN : Fld := ⟨0x104, 31, 31⟩
abbrev EHP.RXCFG.SZ : Fld := ⟨0x104, 26, 20⟩
abbrev EHP.RXCFG.NREC : Fld := ⟨0x104, 10, 0⟩
abbrev EHP.RXIDX.GET : Fld := ⟨0x108, 25, 16⟩
abbrev EHP.RXIDX.PUT : Fld := ⟨0x108, 9, 0⟩
abbrev EHP.TXBASE.ADDR : Fld := ⟨0x10c, 31, 5⟩
abbrev EHP.TXCFG.IEN : Fld := ⟨0x110, 31, 31⟩
abbrev EHP.TXCFG.SZ : Fld := ⟨0x110, 26, 20⟩
abbrev EHP.TXCFG.NREC : Fld := ⟨0x110, 10, 0⟩
abbrev EHP.TXIDX.GET : Fld := ⟨0x114, 25, 16⟩
abbrev EHP.TXIDX.PUT : Fld := ⟨0x114, 9, 0⟩
abbrev LINK.CFG.FHLIM : Fld := ⟨0x100, 31, 16⟩
abbrev LINK.CFG.SYNCI : Fld := ⟨0x100, 15, 8⟩
abbrev LINK.CFG.TOPOI : Fld := ⟨0x100, 7, 0⟩
abbrev LINK.BUDGET.TICKS : Fld := ⟨0x104, 23, 0⟩
abbrev LINK.PLAT.TICKS : Fld := ⟨0x108, 23, 0⟩
abbrev LINK.TOPO.NDEV : Fld := ⟨0x10c, 31, 16⟩
abbrev LINK.TOPO.MAXHOP : Fld := ⟨0x10c, 15, 0⟩
abbrev LINK.DEVID.ID : Fld := ⟨0x110, 31, 0⟩
abbrev LINK.STAT.RING : Fld := ⟨0x114, 4, 4⟩
abbrev LINK.STAT.UP : Fld := ⟨0x114, 2, 0⟩
abbrev NM.CFG.MASTER : Fld := ⟨0x100, 31, 31⟩
abbrev NM.CFG.NODE : Fld := ⟨0x100, 29, 24⟩
abbrev NM.CFG.FWESC : Fld := ⟨0x100, 16, 16⟩
abbrev NM.CFG.NMID : Fld := ⟨0x100, 10, 0⟩
abbrev NM.SBUS.LIN : Fld := ⟨0x104, 21, 16⟩
abbrev NM.SBUS.CAN : Fld := ⟨0x104, 7, 0⟩
abbrev NM.LWAKE.EN : Fld := ⟨0x108, 5, 0⟩
abbrev NM.TIME1.RSTIME : Fld := ⟨0x10c, 31, 16⟩
abbrev NM.TIME1.KAPER : Fld := ⟨0x10c, 15, 0⟩
abbrev NM.TIME2.SILENT : Fld := ⟨0x110, 31, 16⟩
abbrev NM.TIME2.WWIN : Fld := ⟨0x110, 15, 0⟩
abbrev NM.MAXAW.S : Fld := ⟨0x114, 16, 0⟩
abbrev NM.FWTH.TH : Fld := ⟨0x118, 3, 0⟩
abbrev NM.VOTE.V : Fld := ⟨0x11c, 15, 0⟩
abbrev NM.CMD.OP : Fld := ⟨0x120, 1, 0⟩
abbrev NM.STAT.WHOLD : Fld := ⟨0x124, 10, 10⟩
abbrev NM.STAT.WLATCH : Fld := ⟨0x124, 9, 9⟩
abbrev NM.STAT.MAXEXP : Fld := ⟨0x124, 8, 8⟩
abbrev NM.STAT.STATE : Fld := ⟨0x124, 2, 0⟩
abbrev NM.WSRC.KIND : Fld := ⟨0x128, 31, 28⟩
abbrev NM.WSRC.INDEX : Fld := ⟨0x128, 5, 0⟩
abbrev NM.FWCNT.CNT (k : Nat) : Fld := ⟨0x12c, 4 * k + 3, 4 * k⟩
abbrev NM.LFWCNT.CNT (k : Nat) : Fld := ⟨0x130, 4 * k + 3, 4 * k⟩
abbrev NM.ESC.ESC : Fld := ⟨0x134, 7, 0⟩
abbrev CR.STAT.NVOK : Fld := ⟨0x100, 31, 31⟩
abbrev CR.STAT.RUN : Fld := ⟨0x100, 16, 16⟩
abbrev CR.STAT.RUNQ : Fld := ⟨0x100, 13, 12⟩
abbrev CR.STAT.SUSP : Fld := ⟨0x100, 11, 8⟩
abbrev CR.STAT.RUNCTX : Fld := ⟨0x100, 7, 0⟩
abbrev CR.LIB.VER : Fld := ⟨0x104, 31, 16⟩
abbrev CR.LIB.NPROG : Fld := ⟨0x104, 7, 0⟩
abbrev CR.CXSEL.CTX : Fld := ⟨0x108, 7, 0⟩
abbrev CR.CNT_LO.C : Fld := ⟨0x10c, 31, 0⟩
abbrev CR.CNT_HI.C : Fld := ⟨0x110, 31, 0⟩
abbrev CR.HWM_LO.P : Fld := ⟨0x114, 31, 0⟩
abbrev CR.HWM_HI.P : Fld := ⟨0x118, 31, 0⟩
abbrev Q.BASE.ADDR (n : Nat) : Fld := ⟨0x120 + 0x10 * n, 31, 5⟩
abbrev Q.CFG.NREC (n : Nat) : Fld := ⟨0x124 + 0x10 * n, 10, 0⟩
abbrev Q.IDX.GET (n : Nat) : Fld := ⟨0x128 + 0x10 * n, 25, 16⟩
abbrev Q.IDX.PUT (n : Nat) : Fld := ⟨0x128 + 0x10 * n, 9, 0⟩
abbrev Q.STAT.HEAD (n : Nat) : Fld := ⟨0x12c + 0x10 * n, 2, 0⟩
abbrev HB.USE.SLOT : Fld := ⟨0x100, 15, 0⟩
abbrev HB.WAIT.Q : Fld := ⟨0x104, 3, 0⟩
abbrev PK.CMD.OP : Fld := ⟨0x100, 1, 0⟩
abbrev PK.SRC.ADDR : Fld := ⟨0x104, 31, 0⟩
abbrev PK.LEN.N : Fld := ⟨0x108, 23, 0⟩
abbrev PK.STAT.RES : Fld := ⟨0x10c, 1, 0⟩
abbrev PK.DIG.D (n : Nat) : Fld := ⟨0x120 + 0x4 * n, 31, 0⟩
abbrev DA.STAT.ST : Fld := ⟨0x100, 9, 8⟩
abbrev DA.STAT.FAILS : Fld := ⟨0x100, 1, 0⟩
abbrev CX.CFG.EN (n : Nat) : Fld := ⟨0x100 + 0x30 * n, 31, 31⟩
abbrev CX.CFG.K256 (n : Nat) : Fld := ⟨0x100 + 0x30 * n, 30, 30⟩
abbrev CX.CFG.SEGREL (n : Nat) : Fld := ⟨0x100 + 0x30 * n, 29, 29⟩
abbrev CX.CFG.NONCE (n : Nat) : Fld := ⟨0x100 + 0x30 * n, 17, 16⟩
abbrev CX.CFG.PERM (n : Nat) : Fld := ⟨0x100 + 0x30 * n, 9, 0⟩
abbrev CX.LABEL.L (n : Nat) (j : Nat) : Fld := ⟨0x104 + 0x30 * n + 4 * j, 31, 0⟩
abbrev CX.IVFIX.F (n : Nat) : Fld := ⟨0x124 + 0x30 * n, 31, 0⟩
abbrev CX.STAT.NVWAIT (n : Nat) : Fld := ⟨0x128 + 0x30 * n, 3, 3⟩
abbrev CX.STAT.POISON (n : Nat) : Fld := ⟨0x128 + 0x30 * n, 2, 2⟩
abbrev CX.STAT.EXH (n : Nat) : Fld := ⟨0x128 + 0x30 * n, 1, 1⟩
abbrev CX.STAT.LOST (n : Nat) : Fld := ⟨0x128 + 0x30 * n, 0, 0⟩
abbrev SYS.ID.PART : Fld := ⟨0x100, 31, 16⟩
abbrev SYS.ID.REV : Fld := ⟨0x100, 15, 0⟩
abbrev SYS.DEVID_LO.ID : Fld := ⟨0x104, 31, 0⟩
abbrev SYS.DEVID_HI.ID : Fld := ⟨0x108, 31, 0⟩
abbrev SYS.STRAP.VLSEL : Fld := ⟨0x10c, 1, 1⟩
abbrev SYS.STRAP.RECOV : Fld := ⟨0x10c, 0, 0⟩
abbrev PMU.MODE.MODE : Fld := ⟨0x100, 1, 0⟩
abbrev PMU.CMD.OP : Fld := ⟨0x104, 1, 0⟩
abbrev PMU.VBAT.V : Fld := ⟨0x108, 15, 0⟩
abbrev PMU.SUP.VLOG : Fld := ⟨0x10c, 27, 16⟩
abbrev PMU.SUP.BUCK : Fld := ⟨0x10c, 2, 2⟩
abbrev PMU.SUP.VLOK : Fld := ⟨0x10c, 1, 1⟩
abbrev PMU.SUP.ISUPOK : Fld := ⟨0x10c, 0, 0⟩
abbrev PMU.RTC_LO.T : Fld := ⟨0x110, 31, 0⟩
abbrev PMU.RTC_HI.T : Fld := ⟨0x114, 15, 0⟩
abbrev PMU.ALM_LO.T : Fld := ⟨0x118, 31, 0⟩
abbrev PMU.ALM_HI.T : Fld := ⟨0x11c, 15, 0⟩
abbrev PMU.ALMCTL.FIRED : Fld := ⟨0x120, 1, 1⟩
abbrev PMU.ALMCTL.EN : Fld := ⟨0x120, 0, 0⟩
abbrev PMU.KEEP.D (n : Nat) : Fld := ⟨0x140 + 0x4 * n, 31, 0⟩
abbrev RST.CMD.KEY : Fld := ⟨0x100, 15, 8⟩
abbrev RST.CMD.OP : Fld := ⟨0x100, 1, 0⟩
abbrev RST.CAUSE.C : Fld := ⟨0x104, 5, 0⟩
abbrev RST.HOLD.MS : Fld := ⟨0x108, 11, 0⟩
abbrev RST.HSTAT.REM : Fld := ⟨0x10c, 31, 16⟩
abbrev RST.HSTAT.EXPIRED : Fld := ⟨0x10c, 1, 1⟩
abbrev RST.HSTAT.RUN : Fld := ⟨0x10c, 0, 0⟩
abbrev RST.HELD.H (n : Nat) : Fld := ⟨0x110 + 0x4 * n, 31, 0⟩
abbrev RST.RECLAIM.R (n : Nat) : Fld := ⟨0x120 + 0x4 * n, 31, 0⟩
abbrev BOOT.STAT.NOREC : Fld := ⟨0x100, 6, 6⟩
abbrev BOOT.STAT.FALLBK : Fld := ⟨0x100, 5, 5⟩
abbrev BOOT.STAT.VERIFYF : Fld := ⟨0x100, 4, 4⟩
abbrev BOOT.STAT.VMODE : Fld := ⟨0x100, 3, 2⟩
abbrev BOOT.STAT.BANK : Fld := ⟨0x100, 0, 0⟩
abbrev BOOT.SEQ.SEQ : Fld := ⟨0x104, 31, 0⟩
abbrev BOOT.TIME.US : Fld := ⟨0x108, 31, 0⟩
abbrev BOOT.IMGLEN.L : Fld := ⟨0x10c, 23, 0⟩
abbrev CFG.STAT.DEFAULTED : Fld := ⟨0x100, 31, 31⟩
abbrev CFG.STAT.VALID : Fld := ⟨0x100, 9, 8⟩
abbrev CFG.STAT.USED : Fld := ⟨0x100, 0, 0⟩
abbrev CFG.SEQ.SEQ : Fld := ⟨0x104, 31, 0⟩
abbrev CFG.APPLEN.N : Fld := ⟨0x108, 15, 0⟩
abbrev CFG.APPADDR.ADDR : Fld := ⟨0x10c, 31, 0⟩
abbrev CFG.VER.V : Fld := ⟨0x110, 15, 0⟩
abbrev CAL.STAT.UCALBAD : Fld := ⟨0x100, 31, 31⟩
abbrev CAL.STAT.UCALOK : Fld := ⟨0x100, 30, 30⟩
abbrev CAL.STAT.NREJ : Fld := ⟨0x100, 25, 16⟩
abbrev CAL.STAT.NITEMS : Fld := ⟨0x100, 9, 0⟩
abbrev CAL.SEL.ITEM : Fld := ⟨0x104, 7, 0⟩
abbrev CAL.FACT.LIM : Fld := ⟨0x108, 31, 16⟩
abbrev CAL.FACT.VAL : Fld := ⟨0x108, 15, 0⟩
abbrev CAL.USER.REJ : Fld := ⟨0x10c, 31, 31⟩
abbrev CAL.USER.DELTA : Fld := ⟨0x10c, 15, 0⟩
abbrev CAL.APPLIED.VAL : Fld := ⟨0x110, 15, 0⟩
abbrev UPD.CMD.OP : Fld := ⟨0x100, 3, 0⟩
abbrev UPD.SRCID.ID : Fld := ⟨0x104, 15, 0⟩
abbrev UPD.PADDR.ADDR : Fld := ⟨0x108, 31, 2⟩
abbrev UPD.LEN.F : Fld := ⟨0x10c, 23, 0⟩
abbrev UPD.TRIALS.N : Fld := ⟨0x110, 3, 0⟩
abbrev UPD.STAT.HOLDER : Fld := ⟨0x114, 31, 16⟩
abbrev UPD.STAT.ROLLBK : Fld := ⟨0x114, 10, 10⟩
abbrev UPD.STAT.TLEFT : Fld := ⟨0x114, 7, 4⟩
abbrev UPD.STAT.ST : Fld := ⟨0x114, 2, 0⟩
abbrev UPD.RES.DETAIL : Fld := ⟨0x118, 31, 16⟩
abbrev UPD.RES.RES : Fld := ⟨0x118, 7, 0⟩
abbrev UPD.PROG.NPC : Fld := ⟨0x11c, 29, 16⟩
abbrev UPD.PROG.HELD : Fld := ⟨0x11c, 13, 0⟩
abbrev UPD.DIG.D (n : Nat) : Fld := ⟨0x120 + 0x4 * n, 31, 0⟩
abbrev UPD.NEXT.I : Fld := ⟨0x140, 13, 0⟩
abbrev UPD.MAPSEL.W : Fld := ⟨0x144, 8, 0⟩
abbrev UPD.MAP.B : Fld := ⟨0x148, 31, 0⟩
abbrev UPD.CFV.NEW : Fld := ⟨0x14c, 31, 16⟩
abbrev UPD.CFV.RUN : Fld := ⟨0x14c, 15, 0⟩
/-! The page header and the common block of every page (R54). -/
abbrev PG_ID.TYPE : Fld := ⟨0x0, 31, 16⟩
abbrev PG_ID.INST : Fld := ⟨0x0, 15, 0⟩
abbrev PG_VER.MAJOR : Fld := ⟨0x4, 15, 8⟩
abbrev PG_CAPS.LOCKABLE : Fld := ⟨0x8, 4, 4⟩
abbrev PG_CAPS.REMOTE : Fld := ⟨0x8, 3, 3⟩
abbrev PG_CAPS.COUNTERS : Fld := ⟨0x8, 2, 2⟩
abbrev PG_CAPS.SKETCH : Fld := ⟨0x8, 1, 1⟩
abbrev PG_CAPS.FOLDER : Fld := ⟨0x8, 0, 0⟩
abbrev PG_PARENT.PAGE : Fld := ⟨0xc, 11, 0⟩
abbrev PG_NCHILD.N : Fld := ⟨0x10, 11, 0⟩
abbrev PG_LIVESZ.SIZE : Fld := ⟨0x14, 11, 0⟩
abbrev PG_CTRL.EN : Fld := ⟨0x40, 0, 0⟩
abbrev PG_CTRL.BRST : Fld := ⟨0x40, 1, 1⟩
abbrev PG_CTRL.CCLR : Fld := ⟨0x40, 2, 2⟩
abbrev PG_STAT.BLK : Fld := ⟨0x44, 31, 16⟩
abbrev PG_STAT.BUSY : Fld := ⟨0x44, 8, 8⟩
abbrev PG_STAT.CODE : Fld := ⟨0x44, 7, 0⟩
abbrev PG_STAT.GOV : Fld := ⟨0x44, 17, 16⟩
abbrev PG_STAT.GOVB : Fld := ⟨0x44, 19, 18⟩
abbrev PG_FSTAT.ALL : Fld := ⟨0x48, 31, 0⟩
abbrev PG_FSTAT.BLK : Fld := ⟨0x48, 31, 1⟩
abbrev PG_FSTAT.REF : Fld := ⟨0x48, 0, 0⟩
abbrev PG_FMASK.MASK : Fld := ⟨0x4c, 31, 0⟩
abbrev PG_IRQEN.EN : Fld := ⟨0x50, 31, 0⟩
abbrev PG_LOCK.KEY : Fld := ⟨0x54, 15, 8⟩
abbrev PG_LOCK.TREE : Fld := ⟨0x54, 1, 1⟩
abbrev PG_LOCK.LK : Fld := ⟨0x54, 0, 0⟩
abbrev PG_SKSTAT.OWNER : Fld := ⟨0x58, 17, 8⟩
abbrev PG_SKSTAT.CONFLICT : Fld := ⟨0x58, 1, 1⟩
abbrev PG_SKSTAT.DIRTY : Fld := ⟨0x58, 0, 0⟩
/-- Page event counter `i` (R62). -/
abbrev PG_CNT (i : Nat) : Fld := ⟨0x800 + 4 * i, 31, 0⟩

end Sys2Proof.R
end

