-- ==== Sys2Proof/Machine/RegTable.lean ====
section
/-! DEFINITION. The register tables of the spec as data: every field with its access code (R12) and its reset
value (R13), by page kind; the factory palette (R118) and the default reaction words (R358). -/

namespace Sys2Proof.Machine

/-- The access codes of R12. -/
inductive Acc where
  | rw | ro | wo | w1c | rs
  deriving DecidableEq, Repr

/-- One field of a field table: the field at index 0, the stride and count of an indexed register, the access code, and
the reset value by page instance and index. -/
structure Row where
  fld : Fld
  stride : Nat
  count : Nat
  acc : Acc
  rst : Nat → Nat → Nat

/-- A field that stands once in its page. -/
def Row.one (f : Fld) (a : Acc) (v : Nat) : Row := ⟨f, 0, 1, a, fun _ _ => v⟩
/-- A field of an indexed register. -/
def Row.arr (f : Fld) (st n : Nat) (a : Acc) (v : Nat) : Row := ⟨f, st, n, a, fun _ _ => v⟩

/-- A load palette entry: the breakpoints as (limit in 10 mA, end in 100 us), the steady trip threshold, the open-load
threshold and current, its time, the edge blanking, the retry interval and count (table of the load palette page). -/
structure Preset where
  bps : List (Nat × Nat)
  trip : Nat
  vth : Nat
  ion : Nat
  tol : Nat
  tblk : Nat
  int : Nat
  n : Nat

/-- The number of breakpoints in use. -/
def Preset.nbp (p : Preset) : Nat := p.bps.length
/-- The limit of breakpoint `j`, 0 for an unused one. -/
def Preset.bpI (p : Preset) (j : Nat) : Nat := (p.bps.getD j (0, 0)).1
/-- The end of breakpoint `j`, 0 for an unused one. -/
def Preset.bpT (p : Preset) (j : Nat) : Nat := (p.bps.getD j (0, 0)).2

/-- The factory presets of R118, entries 0 to 11 in order. (DEDUCED: log entry 33.) -/
def presets : List Preset := [
  -- 0 LAMP21 12 V
  ⟨[(3000, 10), (2000, 50), (1000, 200), (500, 600)], 350, 100, 100, 50, 2000, 4, 4⟩,
  -- 1 LAMP5 12 V
  ⟨[(800, 10), (500, 50), (250, 200), (120, 500)], 100, 100, 25, 50, 2000, 2, 4⟩,
  -- 2 LAMP21 24 V
  ⟨[(1500, 10), (1000, 50), (500, 200), (250, 600)], 180, 100, 50, 50, 2000, 4, 4⟩,
  -- 3 LAMP5 24 V
  ⟨[(400, 10), (250, 50), (120, 200), (60, 500)], 50, 100, 15, 50, 2000, 2, 4⟩,
  -- 4 LED module
  ⟨[(600, 2), (300, 20)], 150, 50, 10, 100, 2000, 0, 0⟩,
  -- 5 Heater
  ⟨[(3000, 500)], 2000, 50, 500, 200, 2000, 0, 0⟩,
  -- 6 Blower motor
  ⟨[(6000, 100), (4500, 1000), (3000, 5000)], 2200, 150, 300, 500, 5000, 20, 2⟩,
  -- 7 Capacitive load
  ⟨[(4000, 5), (1000, 50)], 500, 250, 20, 100, 2000, 10, 3⟩,
  -- 8 Relay coil
  ⟨[(100, 10)], 50, 100, 20, 50, 5000, 0, 0⟩,
  -- 9 Solenoid
  ⟨[(600, 50)], 400, 100, 100, 50, 5000, 0, 0⟩,
  -- 10 Generic light
  ⟨[(2000, 10), (1200, 100)], 800, 100, 20, 100, 2000, 0, 0⟩,
  -- 11 Generic heavy
  ⟨[(10000, 10), (5000, 200)], 2500, 100, 100, 100, 2000, 0, 0⟩]

/-- Entry `n` at reset: a factory preset (R118), and all 0 for a user entry (R117). -/
def palPreset (n : Nat) : Preset := presets.getD n ⟨[], 0, 0, 0, 0, 0, 0, 0⟩

/-- The default reaction words as (first source, last source, word), from the sources tables of the block chapters (R358). -/
def scfgRanges : List (Nat × Nat × Nat) := [
  (0, 0, 0x0101),
  (1, 1, 0x3003),
  (2, 2, 0x0102),
  (3, 5, 0x0101),
  (6, 6, 0x0000),
  (7, 7, 0x0101),
  (8, 8, 0x2203),
  (9, 9, 0x0502),
  (10, 11, 0x0101),
  (12, 12, 0x2803),
  (13, 15, 0x0000),
  (16, 17, 0x0101),
  (18, 18, 0x0102),
  (19, 19, 0x3003),
  (20, 20, 0x0101),
  (21, 21, 0x0102),
  (22, 22, 0x0000),
  (32, 32, 0x0000),
  (33, 36, 0x0102),
  (37, 37, 0x0000),
  (38, 41, 0x0101),
  (42, 42, 0x2203),
  (43, 43, 0x0000),
  (48, 49, 0x0102),
  (50, 50, 0x0101),
  (52, 52, 0x0000),
  (64, 117, 0x0101),
  (118, 118, 0x0000),
  (128, 142, 0x0101),
  (143, 143, 0x0000),
  (144, 146, 0x0101),
  (147, 147, 0x0000),
  (152, 154, 0x0101),
  (155, 156, 0x0000),
  (160, 170, 0x0101),
  (171, 172, 0x0000),
  (176, 183, 0x0101),
  (184, 184, 0x0000),
  (188, 193, 0x0101),
  (194, 194, 0x0000),
  (195, 197, 0x0101),
  (198, 198, 0x0000),
  (199, 199, 0x0101),
  (200, 200, 0x0000),
  (201, 202, 0x0101),
  (203, 203, 0x0000),
  (208, 208, 0x0102),
  (209, 210, 0x0101),
  (211, 213, 0x0102),
  (214, 214, 0x0101),
  (215, 215, 0x0000),
  (224, 225, 0x0101),
  (226, 226, 0x0102),
  (227, 227, 0x0000),
  (233, 233, 0x0102),
  (234, 234, 0x0101),
  (235, 235, 0x0000),
  (236, 236, 0x0101)]

/-- The default reaction word of a source; 0 for a reserved source and for source 232. -/
def scfgDefault (src : Nat) : Nat :=
  match scfgRanges.find? (fun r => r.1 ≤ src && src ≤ r.2.1) with
  | some r => r.2.2
  | none => 0

/-- The default of a field of the reaction word of source `64 q + i`. -/
def scfgField (f : Fld) (q i : Nat) : Nat :=
  scfgDefault (64 * q + i) / 2 ^ f.lo % 2 ^ (f.hi + 1 - f.lo)

/-- The field table of page kind `lf`. -/
def rows_lf : List Row := [
  Row.one R.LF.CTRL.EXT .rw 0,
  Row.one R.LF.HOPLEN.LEN .rw 0,
  Row.one R.LF.HOPBASE.BASE .rw 0x4000000,
  Row.one R.LF.TMO.US .rw 0xc8,
  Row.one R.LF.STAT.DEPTH .ro 0,
  Row.one R.LF.STAT.PATH .w1c 0,
  Row.one R.LF.STAT.TMO .w1c 0,
  Row.one R.LF.STAT.OPEN .ro 0,
  Row.arr (R.LF.HOP.HOPS 0) 4 8 .rw 0]

/-- The field table of page kind `fix`. -/
def rows_fix : List Row := [
  Row.one R.FIX.CMD.OP .wo 0,
  Row.one R.FIX.STATE.RULE .ro 0,
  Row.one R.FIX.STATE.RESULT .ro 0,
  Row.one R.FIX.STATE.BMISS .ro 0,
  Row.one R.FIX.STATE.ST .ro 0,
  Row.one R.FIX.FAILPG.NFAIL .ro 0,
  Row.one R.FIX.FAILPG.PAGE .ro 0,
  Row.one R.FIX.MODE.JOIN .rw 0,
  Row.one R.FIX.MODE.BCAST .rw 0,
  Row.one R.FIX.MODE.NOW .rw 0,
  Row.one R.FIX.TIME_LO.T .rw 0,
  Row.one R.FIX.TIME_HI.T .rw 0,
  Row.one R.FIX.NSCOPE.N .rw 0,
  Row.one R.FIX.TAG.TAG .rw 0,
  Row.one R.FIX.BLEAD.TICKS .rw 0x3e8,
  Row.one R.FIX.BEXP.N .rw 0,
  Row.one R.FIX.BACK.NACK .ro 0,
  Row.one R.FIX.BACK.ACK .ro 0,
  Row.one R.FIX.APPLIED_LO.T .ro 0,
  Row.one R.FIX.APPLIED_HI.T .ro 0,
  Row.arr (R.FIX.SCOPE.SUB 0) 4 64 .rw 0,
  Row.arr (R.FIX.SCOPE.PAGE 0) 4 64 .rw 0]

/-- The field table of page kind `tb`. -/
def rows_tb : List Row := [
  Row.one R.TB.NOW_LO.T .ro 0,
  Row.one R.TB.NOW_HI.T .ro 0,
  Row.one R.TB.SYNC.ROLE .rw 0,
  Row.one R.TB.SSTAT.STATE .ro 0,
  Row.one R.TB.OFFSET.NS .ro 0,
  Row.one R.TB.RATE.PPB .ro 0,
  Row.one R.TB.HOLDTMO.S .rw 0xa,
  Row.arr (R.TBC.LO.V 0) 16 8 .rw 0,
  Row.arr (R.TBC.HI.V 0) 16 8 .rw 0,
  Row.arr (R.TBC.CTRL.INTV 0) 16 8 .rw 0,
  Row.arr (R.TBC.CTRL.ARM 0) 16 8 .rw 0,
  Row.arr (R.TBC.STAT.LATE 0) 16 8 .w1c 0,
  Row.arr (R.TBC.STAT.FIRED 0) 16 8 .w1c 0,
  Row.arr (R.CAP.SEL.MODE 0) 16 4 .rw 0,
  Row.arr (R.CAP.SEL.EVT 0) 16 4 .rw 0,
  Row.arr (R.CAP.LO.T 0) 16 4 .ro 0,
  Row.arr (R.CAP.HI.T 0) 16 4 .ro 0,
  Row.arr (R.CAP.STAT.OVR 0) 16 4 .w1c 0,
  Row.arr (R.CAP.STAT.FULL 0) 16 4 .w1c 0]

/-- The field table of page kind `clk`. -/
def rows_clk : List Row := [
  Row.one R.CLK.XSTAT.X32OK .ro 0,
  Row.one R.CLK.XSTAT.XOK .ro 0,
  Row.one R.CLK.LOCK.L .ro 0,
  Row.one R.CLK.LOSS.L .w1c 0,
  Row.one ⟨0x10C, 11, 2⟩ .rs 0,
  Row.one ⟨0x10C, 14, 14⟩ .rs 0]

/-- The field table of page kind `hs`. -/
def rows_hs : List Row := [
  Row.one R.HS.OUT.ON .rw 0,
  Row.one R.HS.CMD.CLRR .wo 0,
  Row.one R.HS.CMD.CLR .wo 0,
  Row.one R.HS.CFG.OLON .rs 0,
  Row.one R.HS.CFG.OLOFF .rs 0,
  Row.one R.HS.CFG.AUTOST .rs 0,
  Row.one R.HS.CFG.SLEW .rs 0x1,
  Row.one R.HS.CFG.LIMP .rs 0,
  ⟨R.HS.CFG.PAL, 0, 1, .rs, fun n _ => if n < 16 then 0x0B else 0x0A⟩,
  Row.one R.HS.PERIOD.P .rs 0x30d40,
  Row.one R.HS.DUTY.D .rs 0xffff,
  Row.one R.HS.PHASE.PH .rs 0,
  Row.one R.HS.WIN.KIND .rw 0,
  Row.one R.HS.WIN.LEN .rw 0,
  Row.one R.HS.STAT.ENVT .ro 0,
  Row.one R.HS.STAT.RCNT .ro 0,
  Row.one R.HS.STAT.WEND .ro 0,
  Row.one R.HS.STAT.WKIND .ro 0,
  Row.one R.HS.STAT.GANGED .ro 0,
  Row.one R.HS.STAT.INRUSH .ro 0,
  Row.one R.HS.STAT.RETRY .ro 0,
  Row.one R.HS.STAT.GATE .ro 0,
  Row.one R.HS.SENSE.CODE .ro 0,
  ⟨R.HS.SEG.CEIL, 0, 1, .ro, fun n _ => if n < 16 then 0x4B0 else 0x12C⟩,
  ⟨R.HS.SEG.NSEG, 0, 1, .ro, fun n _ => if n < 16 then 8 else 4⟩,
  ⟨R.HS.SEG.MAP, 0, 1, .ro, fun n _ => if n < 16 then 0xFF else 0x0F⟩,
  ⟨R.HS.RATE.ICONT, 0, 1, .ro, fun n _ => if n < 16 then 0xFA else 0x50⟩]

/-- The field table of page kind `bank`. -/
def rows_bank : List Row := [
  Row.one (R.BANK.GANG.GID 0) .rs 0,
  Row.one (R.BANK.GANG.GID 1) .rs 0,
  Row.one (R.BANK.GANG.GID 2) .rs 0,
  Row.one (R.BANK.GANG.GID 3) .rs 0,
  Row.one (R.BANK.GANG.GID 4) .rs 0,
  Row.one (R.BANK.GANG.GID 5) .rs 0,
  Row.one (R.BANK.GANG.GID 6) .rs 0,
  Row.one (R.BANK.GANG.GID 7) .rs 0,
  ⟨R.BANK.BUDGET.I, 0, 1, .rs, fun b _ => if b < 2 then 0x7D0 else 0x280⟩,
  Row.one R.BANK.ISUM.I .ro 0,
  Row.one R.BANK.STAT.INRUSH .ro 0,
  Row.one R.BANK.STAT.LATCH .ro 0,
  Row.one R.BANK.STAT.GATE .ro 0]

/-- The field table of page kind `pal`. -/
def rows_pal : List Row := [
  ⟨R.PAL.CFG.FACT 0, 56, 32, .ro, fun _ n => if n < 12 then 1 else 0⟩,
  ⟨R.PAL.CFG.NBP 0, 56, 32, .rs, fun _ n => (palPreset n).nbp⟩,
  ⟨R.PAL.BP.T 0 0, 56, 32, .rs, fun _ n => (palPreset n).bpT 0⟩,
  ⟨R.PAL.BP.T 0 1, 56, 32, .rs, fun _ n => (palPreset n).bpT 1⟩,
  ⟨R.PAL.BP.T 0 2, 56, 32, .rs, fun _ n => (palPreset n).bpT 2⟩,
  ⟨R.PAL.BP.T 0 3, 56, 32, .rs, fun _ n => (palPreset n).bpT 3⟩,
  ⟨R.PAL.BP.T 0 4, 56, 32, .rs, fun _ n => (palPreset n).bpT 4⟩,
  ⟨R.PAL.BP.T 0 5, 56, 32, .rs, fun _ n => (palPreset n).bpT 5⟩,
  ⟨R.PAL.BP.T 0 6, 56, 32, .rs, fun _ n => (palPreset n).bpT 6⟩,
  ⟨R.PAL.BP.T 0 7, 56, 32, .rs, fun _ n => (palPreset n).bpT 7⟩,
  ⟨R.PAL.BP.I 0 0, 56, 32, .rs, fun _ n => (palPreset n).bpI 0⟩,
  ⟨R.PAL.BP.I 0 1, 56, 32, .rs, fun _ n => (palPreset n).bpI 1⟩,
  ⟨R.PAL.BP.I 0 2, 56, 32, .rs, fun _ n => (palPreset n).bpI 2⟩,
  ⟨R.PAL.BP.I 0 3, 56, 32, .rs, fun _ n => (palPreset n).bpI 3⟩,
  ⟨R.PAL.BP.I 0 4, 56, 32, .rs, fun _ n => (palPreset n).bpI 4⟩,
  ⟨R.PAL.BP.I 0 5, 56, 32, .rs, fun _ n => (palPreset n).bpI 5⟩,
  ⟨R.PAL.BP.I 0 6, 56, 32, .rs, fun _ n => (palPreset n).bpI 6⟩,
  ⟨R.PAL.BP.I 0 7, 56, 32, .rs, fun _ n => (palPreset n).bpI 7⟩,
  ⟨R.PAL.TRIP.I 0, 56, 32, .rs, fun _ n => (palPreset n).trip⟩,
  ⟨R.PAL.OL.VTH 0, 56, 32, .rs, fun _ n => (palPreset n).vth⟩,
  ⟨R.PAL.OL.ION 0, 56, 32, .rs, fun _ n => (palPreset n).ion⟩,
  ⟨R.PAL.BLANK.TOL 0, 56, 32, .rs, fun _ n => (palPreset n).tol⟩,
  ⟨R.PAL.BLANK.TBLK 0, 56, 32, .rs, fun _ n => (palPreset n).tblk⟩,
  ⟨R.PAL.RETRY.INT 0, 56, 32, .rs, fun _ n => (palPreset n).int⟩,
  ⟨R.PAL.RETRY.N 0, 56, 32, .rs, fun _ n => (palPreset n).n⟩]

/-- The field table of page kind `sys`. -/
def rows_sys : List Row := [
  Row.one R.SYS.ISEL.EN .rw 0,
  Row.one R.SYS.ISEL.CH .rw 0,
  Row.one R.SYS.ID.PART .ro 0x960,
  Row.one R.SYS.ID.REV .ro 0xa,
  Row.one R.SYS.DEVID_LO.ID .ro 0,
  Row.one R.SYS.DEVID_HI.ID .ro 0,
  Row.one R.SYS.STRAP.VLSEL .ro 0,
  Row.one R.SYS.STRAP.RECOV .ro 0]

/-- The field table of page kind `leg`. -/
def rows_leg : List Row := [
  Row.one R.HB.STAT.MAP .ro 0,
  Row.one R.HB.STAT.DRIVEN .ro 0,
  Row.one R.HB.STAT.LATCH .ro 0,
  Row.one R.HB.STAT.LSON .ro 0,
  Row.one R.HB.STAT.HSON .ro 0,
  Row.one R.HB.SENSE.CODE .ro 0x1f80]

/-- The field table of page kind `bridge`. -/
def rows_bridge : List Row := [
  Row.arr (R.BRIDGE.CFG.EN 0) 64 14 .rs 0,
  ⟨R.BRIDGE.CFG.LEGB 0, 64, 14, .rs, fun _ k => if k < 6 then 2 * k + 1 else 2 * (k - 6) + 1⟩,
  ⟨R.BRIDGE.CFG.LEGA 0, 64, 14, .rs, fun _ k => if k < 6 then 2 * k else 2 * (k - 6)⟩,
  Row.arr (R.BRIDGE.CFG.PKEN 0) 64 14 .rs 0,
  Row.arr (R.BRIDGE.CFG.PLEV 0) 64 14 .rs 0,
  Row.arr (R.BRIDGE.CFG.PSTOP 0) 64 14 .rs 0,
  Row.arr (R.BRIDGE.CFG.OLOFF 0) 64 14 .rs 0,
  Row.arr (R.BRIDGE.CFG.DECAY 0) 64 14 .rs 0,
  Row.arr (R.BRIDGE.CFG.SAFE 0) 64 14 .rs 0,
  Row.arr (R.BRIDGE.CFG.DT 0) 64 14 .rs 0x28,
  Row.arr (R.BRIDGE.OUT.TGTEN 0) 64 14 .rw 0,
  Row.arr (R.BRIDGE.OUT.CMD 0) 64 14 .rw 0,
  Row.arr (R.BRIDGE.CMD.CLR 0) 64 14 .wo 0,
  Row.arr (R.BRIDGE.PERIOD.P 0) 64 14 .rs 0x1388,
  Row.arr (R.BRIDGE.DUTY.D 0) 64 14 .rs 0xffff,
  Row.arr (R.BRIDGE.PHASE.PH 0) 64 14 .rs 0,
  ⟨R.BRIDGE.LIM.ISTART 0, 64, 14, .rs, fun _ k => if k < 6 then 0x1770 else 0x5DC⟩,
  ⟨R.BRIDGE.LIM.ILIM 0, 64, 14, .rs, fun _ k => if k < 6 then 0x7D0 else 0x1F4⟩,
  Row.arr (R.BRIDGE.AUX.PSI 0) 64 14 .rs 0,
  Row.arr (R.BRIDGE.AUX.TSTART 0) 64 14 .rs 0x1f4,
  Row.arr (R.BRIDGE.RIP.EN 0) 64 14 .rs 0,
  Row.arr (R.BRIDGE.RIP.IMIN 0) 64 14 .rs 0,
  Row.arr (R.BRIDGE.RIP.TNOM 0) 64 14 .rs 0,
  Row.arr (R.BRIDGE.TMO.PARKT 0) 64 14 .rs 0xbb8,
  Row.arr (R.BRIDGE.TMO.STALLT 0) 64 14 .rs 0x64,
  Row.arr (R.BRIDGE.POS.POS 0) 64 14 .rw 0,
  Row.arr (R.BRIDGE.TGT.TGT 0) 64 14 .rw 0,
  Row.arr (R.BRIDGE.PINCH.SLTH 0) 64 14 .rs 0,
  Row.arr (R.BRIDGE.PINCH.SLWIN 0) 64 14 .rs 0,
  Row.arr (R.BRIDGE.PZLO.POS 0) 64 14 .rs 0,
  Row.arr (R.BRIDGE.PZHI.POS 0) 64 14 .rs 0,
  Row.arr (R.BRIDGE.STAT.AVG 0) 64 14 .ro 0,
  Row.arr (R.BRIDGE.STAT.POSUNC 0) 64 14 .ro 0,
  Row.arr (R.BRIDGE.STAT.SHARE 0) 64 14 .ro 0,
  Row.arr (R.BRIDGE.STAT.TGTHIT 0) 64 14 .ro 0,
  Row.arr (R.BRIDGE.STAT.PARKED 0) 64 14 .ro 0,
  Row.arr (R.BRIDGE.STAT.START 0) 64 14 .ro 0,
  Row.arr (R.BRIDGE.STAT.APPLIED 0) 64 14 .ro 0,
  Row.arr (R.BRIDGE.STAT.LATCH 0) 64 14 .ro 0,
  Row.arr (R.BRIDGE.STAT.GOV 0) 64 14 .ro 0]

/-- The field table of page kind `vl`. -/
def rows_vl : List Row := [
  Row.one R.VL.OUT.ON .rw 0,
  Row.one R.VL.CMD.TRIG .wo 0,
  Row.one R.VL.CMD.CLR .wo 0,
  Row.one R.VL.CFG.PULSE .rs 0,
  Row.one R.VL.PEAK.TPKMAX .rs 0x3e8,
  Row.one R.VL.PEAK.IPK .rs 0x12c,
  Row.one R.VL.PHOLD.TPH .rs 0xc8,
  Row.one R.VL.HOLD.THOLD .rs 0x1f4,
  Row.one R.VL.HOLD.IHOLD .rs 0x64,
  Row.one R.VL.CHOP.P .rs 0x1388,
  Row.one R.VL.PHASE.PH .rs 0,
  Row.one R.VL.MINOFF.TMINOFF .rs 0xc8,
  Row.one R.VL.STAT.WAITD .ro 0,
  Row.one R.VL.STAT.LATCH .ro 0,
  Row.one R.VL.STAT.BFED .ro 0,
  Row.one R.VL.STAT.PEND .ro 0,
  Row.one R.VL.STAT.PHASE .ro 0,
  Row.one R.VL.SENSE.CODE .ro 0]

/-- The field table of page kind `boost`. -/
def rows_boost : List Row := [
  Row.one R.BOOST.CFG.BEN .rs 0,
  Row.one R.BOOST.CFG.VSET .rs 0x60,
  Row.one R.BOOST.CFG.RDYM .rs 0x8,
  Row.one R.VSIDE.CFG.MODEB .rs 0,
  Row.one R.VSIDE.CFG.MODEA .rs 0,
  Row.one R.BOOST.STAT.VMEAS .ro 0,
  Row.one R.BOOST.STAT.ST .ro 0,
  Row.one R.VSIDE.STAT.SRCB .ro 0,
  Row.one R.VSIDE.STAT.EFFB .ro 0,
  Row.one R.VSIDE.STAT.LATB .ro 0,
  Row.one R.VSIDE.STAT.SRCA .ro 0,
  Row.one R.VSIDE.STAT.EFFA .ro 0,
  Row.one R.VSIDE.STAT.LATA .ro 0,
  Row.one R.VSIDE.CMD.BCLR .wo 0,
  Row.one R.VSIDE.CMD.CLRB .wo 0,
  Row.one R.VSIDE.CMD.CLRA .wo 0,
  Row.one R.VSIDE.SENSE.CODEB .ro 0,
  Row.one R.VSIDE.SENSE.CODEA .ro 0]

/-- The field table of page kind `mx`. -/
def rows_mx : List Row := [
  Row.one R.MX.OUT.RUN .rw 0,
  Row.one R.MX.CMD.CLR .wo 0,
  Row.one R.MX.SCAN.PRE .rs 0x1,
  Row.one R.MX.SCAN.GUARD .rs 0x40,
  Row.one R.MX.PHASE.PH .rs 0,
  Row.one R.MX.ROWEN.EN .rs 0xffff,
  Row.arr (R.MX.ICOL.CODE 0 0) 4 4 .rs 0,
  Row.arr (R.MX.ICOL.CODE 0 1) 4 4 .rs 0,
  Row.arr (R.MX.ICOL.CODE 0 2) 4 4 .rs 0,
  Row.arr (R.MX.ICOL.CODE 0 3) 4 4 .rs 0,
  Row.one R.MX.DERATE.TK .rs 0xf,
  Row.one R.MX.DERATE.SLOPE .rs 0x2,
  Row.one R.MX.STAT.PHI .ro 0x100,
  Row.one R.MX.STAT.SLOT .ro 0,
  Row.one R.MX.TEMP.T .ro 0,
  Row.one R.MX.LATCH.COL .ro 0,
  Row.one R.MX.LATCH.ROW .ro 0,
  Row.one R.MX.OPEN.COL .ro 0]

/-- The field table of page kind `pxc`. -/
def rows_pxc : List Row := [
  Row.one R.PXC.OUT.RUN .rw 0,
  Row.one R.PXC.CFG.NDRV .rs 0x1,
  Row.one R.PXC.CFG.W16 .rs 0x1,
  Row.one R.PXC.CFG.DIV .rs 0x4,
  Row.one R.PXC.CFG.LEW .rs 0x4,
  Row.one R.PXC.PERIOD.P .rs 0x186a0,
  Row.one R.PXC.PHASE.PH .rs 0,
  Row.one R.PXC.STAT.BLANK .ro 0,
  Row.one R.PXC.STAT.SHIFT .ro 0]

/-- The field table of page kind `cv`. -/
def rows_cv : List Row := [
  Row.one R.CV.SWAP.CANCEL .wo 0,
  Row.one R.CV.SWAP.SRC .wo 0,
  Row.one R.CV.T_LO.T .rw 0,
  Row.one R.CV.T_HI.T .rw 0,
  Row.one R.CV.STAT.LATE .w1c 0,
  Row.one R.CV.STAT.PEND .ro 0,
  Row.one R.CV.STAT.PXFRONT .ro 0,
  Row.one R.CV.STAT.FRONT .ro 0,
  Row.one R.CV.LSYNC.MODE .rs 0,
  Row.one R.CV.APPLIED_LO.T .ro 0,
  Row.one R.CV.APPLIED_HI.T .ro 0]

/-- The field table of page kind `amb`. -/
def rows_amb : List Row := [
  Row.one R.AMB.OUT.ON .rw 0,
  Row.one R.AMB.CMD.CLR .wo 0,
  Row.one R.AMB.CUR.IB .rs 0,
  Row.one R.AMB.CUR.IG .rs 0,
  Row.one R.AMB.CUR.IR .rs 0,
  Row.one R.AMB.DRG.G .rs 0,
  Row.one R.AMB.DRG.R .rs 0,
  Row.one R.AMB.DB.B .rs 0,
  Row.one R.AMB.LOOP.CL .rs 0,
  Row.one R.AMB.LOOP.KI .rs 0x10,
  Row.one R.AMB.LOOP.INTV .rs 0xa,
  Row.one R.AMB.TGTRG.G .rs 0,
  Row.one R.AMB.TGTRG.R .rs 0,
  Row.one R.AMB.TGTB.B .rs 0,
  Row.one R.AMB.SENS.ADDR .rs 0,
  Row.one R.AMB.SENS.REG .rs 0,
  Row.one R.AMB.MEASRG.G .ro 0,
  Row.one R.AMB.MEASRG.R .ro 0,
  Row.one R.AMB.MEASB.B .ro 0,
  Row.one R.AMB.APPRG.G .ro 0,
  Row.one R.AMB.APPRG.R .ro 0,
  Row.one R.AMB.APPB.B .ro 0,
  Row.one R.AMB.STAT.HELD .ro 0,
  Row.one R.AMB.STAT.LATCH .ro 0,
  Row.one R.AMB.PERIOD.P .rs 0x61a8,
  Row.one R.AMB.PHASE.PH .rs 0]

/-- The field table of page kind `li2c`. -/
def rows_li2c : List Row := [
  Row.one R.LI2C.CFG.FAST .rs 0,
  Row.one R.LI2C.TMO.US .rs 0x3e8,
  Row.one R.LI2C.STAT.FAILS .ro 0]

/-- The field table of page kind `si`. -/
def rows_si : List Row := [
  Row.arr (R.SI.CFG.IEN 0) 4 8 .rs 0,
  Row.arr (R.SI.CFG.REF 0) 4 8 .rs 0,
  Row.arr (R.SI.CFG.WET 0) 4 8 .rs 0,
  Row.arr (R.SI.CFG.ANA 0) 4 8 .rs 0,
  Row.arr (R.SI.CFG.HOLD 0) 4 8 .rs 0,
  Row.arr (R.SI.CFG.PARK 0) 4 8 .rs 0,
  Row.arr (R.SI.CFG.PPER 0) 4 8 .rs 0x3,
  Row.arr (R.SI.CFG.SPER 0) 4 8 .rs 0x2,
  Row.arr (R.SI.CFG.TH 0) 4 8 .rs 0x1,
  Row.arr (R.SI.WIN.HI 0) 4 8 .rs 0xff0,
  Row.arr (R.SI.WIN.LO 0) 4 8 .rs 0,
  Row.arr (R.SI.ADC.CODE 0) 4 8 .ro 0,
  Row.one R.SI.STATE.RAW .ro 0,
  Row.one R.SI.STATE.ST .ro 0,
  Row.one R.SI.CHG.EVEN .rw 0,
  Row.one R.SI.CHG.CHG .w1c 0]

/-- The field table of page kind `sif`. -/
def rows_sif : List Row := [
  Row.one R.SIF.ST_LO.ST .ro 0,
  Row.one R.SIF.ST_HI.ST .ro 0]

/-- The field table of page kind `io`. -/
def rows_io : List Row := [
  Row.one R.IO.OUT.ON .rw 0,
  Row.one R.IO.CMD.CLR .wo 0,
  Row.one R.IO.CFG.TH .rs 0x1,
  Row.one R.IO.CFG.PPER .rs 0,
  Row.one R.IO.CFG.SPER .rs 0x2,
  Row.one R.IO.CFG.LIMP .rs 0,
  Row.one R.IO.CFG.MODE .rs 0,
  Row.one R.IO.STAT.VALID .ro 0,
  Row.one R.IO.STAT.LATCH .ro 0,
  Row.one R.IO.STAT.RB .ro 0,
  Row.one R.IO.STAT.ST .ro 0]

/-- The field table of page kind `iso`. -/
def rows_iso : List Row := [
  Row.one R.ISO.FS.VMEAS .ro 0,
  Row.one R.ISO.FS.ST .ro 0,
  Row.one R.ISO.IN.ST .ro 0,
  Row.one R.ISO.EVEN.EN .rw 0]

/-- The field table of page kind `rxc`. -/
def rows_rxc : List Row := [
  Row.one R.RXC.CMD.OP .wo 0,
  Row.one R.RXC.CMD.CLAUSE .wo 0,
  Row.one R.RXC.STAT.RUN .ro 0,
  Row.one R.RXC.STAT.NACT .ro 0,
  Row.arr (R.RXC.ACT.ACT 0) 4 16 .ro 0,
  Row.arr (R.RXC.BRK.BRK 0) 4 16 .ro 0]

/-- The field table of page kind `cw`. -/
def rows_cw : List Row := [
  Row.arr (R.CL.SUBJ.EN 0) 32 32 .rs 0,
  Row.arr (R.CL.SUBJ.SMODE 0) 32 32 .rs 0,
  Row.arr (R.CL.SUBJ.SUBJ 0) 32 32 .rs 0,
  Row.arr (R.CL.QUAL.QEN 0) 32 32 .rs 0,
  Row.arr (R.CL.QUAL.QPOL 0) 32 32 .rs 0,
  Row.arr (R.CL.QUAL.QSUBJ 0) 32 32 .rs 0,
  Row.arr (R.CL.THR.HYS 0) 32 32 .rs 0,
  Row.arr (R.CL.THR.THR 0) 32 32 .rs 0,
  Row.arr (R.CL.VERB.OBJ 0) 32 32 .rs 0,
  Row.arr (R.CL.VERB.VERB 0) 32 32 .rs 0,
  Row.arr (R.CL.ARG.D 0) 32 32 .rs 0xffff,
  Row.arr (R.CL.ASP.PRI 0) 32 32 .rs 0,
  Row.arr (R.CL.ASP.DMODE 0) 32 32 .rs 0,
  Row.arr (R.CL.ASP.RTRG 0) 32 32 .rs 0,
  Row.arr (R.CL.ASP.DUNIT 0) 32 32 .rs 0,
  Row.arr (R.CL.ASP.TEV 0) 32 32 .rs 0,
  Row.arr (R.CL.ASP.DUR 0) 32 32 .rs 0,
  Row.arr (R.CL.STAT.ACTIVE 0) 32 32 .ro 0,
  Row.arr (R.CL.STAT.GOVN 0) 32 32 .ro 0,
  Row.arr (R.CL.STAT.COND 0) 32 32 .ro 0,
  Row.arr (R.CL.STAT.BROKEN 0) 32 32 .ro 0,
  Row.arr (R.CL.STAT.REM 0) 32 32 .ro 0]

/-- The field table of page kind `rxo`. -/
def rows_rxo : List Row := [
  Row.arr (R.RXO.OWN.VALID 0) 4 70 .ro 0,
  Row.arr (R.RXO.OWN.DISC 0) 4 70 .ro 0,
  Row.arr (R.RXO.OWN.CLAUSE 0) 4 70 .ro 0]

/-- The field table of page kind `rxl`. -/
def rows_rxl : List Row := [
  Row.one R.RXL.CFG.HOPS .rs 0x1,
  Row.one R.RXL.CFG.PORTS .rs 0,
  Row.one R.RXL.REF.LREF .rs 0x2710,
  Row.one R.RXL.TMO.LTMO .rs 0,
  Row.one R.RXL.ACC_LO.ACC .rs 0,
  Row.one R.RXL.ACC_HI.ACC .rs 0,
  Row.one R.RXL.VAL_LO.VAL .ro 0,
  Row.one R.RXL.VAL_HI.VAL .ro 0,
  Row.one R.RXL.TO_LO.TO .w1c 0,
  Row.one R.RXL.TO_HI.TO .w1c 0,
  Row.one R.RXL.EVEN_LO.EN .rw 0,
  Row.one R.RXL.EVEN_HI.EN .rw 0]

/-- The field table of page kind `core`. -/
def rows_core : List Row := [
  Row.one R.CORE.STAT.ROLE .ro 0,
  Row.one R.CORE.STAT.LC .ro 0x1f,
  Row.one R.CORE.STAT.SPLIT .ro 0,
  Row.one R.CORE.STAT.SHIPOK .ro 0,
  Row.one R.CORE.TEST.DUR .ro 0,
  Row.one R.CORE.TEST.RES .ro 0]

/-- The field table of page kind `lcm`. -/
def rows_lcm : List Row := [
  Row.one (R.LCM.MAP.PAIR 0) .ro 0,
  Row.one (R.LCM.MAP.PAIR 1) .ro 0,
  Row.one (R.LCM.MAP.PAIR 2) .ro 0,
  Row.one (R.LCM.MAP.PAIR 3) .ro 0,
  Row.one (R.LCM.MAP.PAIR 4) .ro 0,
  Row.one (R.LCM.MAP.PAIR 5) .ro 0,
  Row.one (R.LCM.MAP.PAIR 6) .ro 0,
  Row.one (R.LCM.MAP.PAIR 7) .ro 0,
  Row.one R.LCM.SPARE.FAILED .ro 0,
  Row.one R.LCM.SPARE.SPARE .ro 0,
  Row.one R.LCM.SPLIT.NCORE .ro 0x8,
  Row.one R.LCM.SPLIT.SPLIT .ro 0,
  Row.one R.LCM.CSEL.CTX .rw 0,
  Row.one R.LCM.CCMD.OP .wo 0,
  Row.one R.LCM.CCFG.MIG .rw 0,
  Row.one R.LCM.CCFG.PRI .rw 0,
  Row.one R.LCM.CENTRY.PC .rw 0,
  Row.one R.LCM.CTVEC.PC .rw 0,
  Row.one R.LCM.CSTAT.EVT .ro 0,
  Row.one R.LCM.CSTAT.OPS .ro 0,
  Row.one R.LCM.CSTAT.NMODE .ro 0,
  Row.one R.LCM.CSTAT.DRAIN .ro 0,
  Row.one R.LCM.CSTAT.DBL .ro 0,
  Row.one R.LCM.CSTAT.TMODE .ro 0,
  Row.one R.LCM.CSTAT.STATE .ro 0,
  Row.one R.LCM.CTPC.PC .ro 0,
  Row.one R.LCM.CTCAUSE.CAUSE .ro 0,
  Row.one R.LCM.CTVAL.VAL .ro 0,
  Row.one R.LCM.CNPC.PC .ro 0,
  Row.one R.LCM.ESEL.CORE .rw 0,
  Row.one R.LCM.ESEL.WORD .rw 0,
  Row.one R.LCM.EPEND.PEND .w1c 0,
  Row.arr (R.LCM.LCFG.DZTRAP 0) 4 16 .rs 0]

/-- The field table of page kind `memc`. -/
def rows_memc : List Row := [
  Row.one R.MEMC.SCRUB.EN .rs 0x1,
  Row.one R.MEMC.SCRUB.GAP .rs 0x100,
  Row.one R.MEMC.PER.MS .rs 0x3e8,
  Row.one R.MEMC.SSTAT.PASS .ro 0,
  Row.one R.MEMC.SSTAT.MACRO .ro 0,
  Row.one R.MEMC.SSTAT.RUN .ro 0,
  Row.one R.MEMC.EADDR.ADDR .ro 0,
  Row.one R.MEMC.EINFO.MACRO .ro 0,
  Row.one R.MEMC.EINFO.ROW .ro 0,
  Row.one R.MEMC.EINFO.WORD .ro 0,
  Row.one R.MEMC.EINFO.KIND .ro 0,
  Row.one R.MEMC.EINFO.NSYM .ro 0,
  Row.one R.MEMC.ZADDR.ADDR .rw 0,
  Row.one R.MEMC.CMD.OP .wo 0]

/-- The field table of page kind `memr`. -/
def rows_memr : List Row := [
  Row.one R.MEMR.SEL.MACRO .rw 0,
  Row.one R.MEMR.USE.FACT .ro 0,
  Row.one R.MEMR.USE.RUN .ro 0,
  Row.one R.MEMR.USE.FREE .ro 0x20,
  Row.one R.MEMR.IDX.S .rw 0,
  Row.one R.MEMR.MAP.USED .ro 0,
  Row.one R.MEMR.MAP.FACT .ro 0,
  Row.one R.MEMR.MAP.ROW .ro 0,
  Row.one R.MEMR.MSTAT.MAPOK .ro 0,
  Row.one R.MEMR.MSTAT.PEND .ro 0]

/-- The field table of page kind `flc`. -/
def rows_flc : List Row := [
  Row.one R.FL.ADDR.ADDR .rw 0x100000,
  Row.one R.FL.CMD.OP .wo 0,
  Row.one R.FL.STAT.ERCNT .ro 0,
  Row.one R.FL.STAT.HWOP .ro 0,
  Row.one R.FL.STAT.RES .ro 0,
  Row.one R.FL.WEARTH.PCT .rs 0x5a,
  Row.arr (R.FL.DATA.D 0) 4 8 .rw 0xffffffff]

/-- The field table of page kind `fault0`. -/
def rows_fault0 : List Row := [
  Row.one R.FLT.CFG.AKHZ .rs 0xa,
  Row.one R.FLT.CFG.LOGSEV .rs 0x1,
  Row.one R.FLT.STAT.SAFE .ro 0,
  Row.one R.FLT.STAT.ALIVE .ro 0,
  Row.one R.FLT.STAT.SELF .ro 0,
  Row.one R.FLT.STAT.SAFEN .ro 0,
  Row.one R.FLT.STAT.MAXSEV .ro 0,
  Row.one R.FLT.CMD.ARG .wo 0,
  Row.one R.FLT.CMD.OP .wo 0,
  Row.one R.FLT.SAFEC.CAUSE .ro 0,
  Row.one R.FLT.SAFEC.SRC .ro 0,
  Row.one R.FLT.SELF.WORD .ro 0,
  Row.arr (R.FLT.RAISED.R 0) 4 8 .w1c 0]

/-- The field table of page kind `faultCfg`. -/
def rows_faultCfg : List Row := [
  Row.arr (R.FLT.SCFG.CORE 0) 4 64 .rs 0,
  ⟨R.FLT.SCFG.RDST 0, 4, 64, .rs, fun q i => scfgField (R.FLT.SCFG.RDST 0) q i⟩,
  ⟨R.FLT.SCFG.ALIVE 0, 4, 64, .rs, fun q i => scfgField (R.FLT.SCFG.ALIVE 0) q i⟩,
  ⟨R.FLT.SCFG.SAFE 0, 4, 64, .rs, fun q i => scfgField (R.FLT.SCFG.SAFE 0) q i⟩,
  ⟨R.FLT.SCFG.CRST 0, 4, 64, .rs, fun q i => scfgField (R.FLT.SCFG.CRST 0) q i⟩,
  ⟨R.FLT.SCFG.BRST 0, 4, 64, .rs, fun q i => scfgField (R.FLT.SCFG.BRST 0) q i⟩,
  ⟨R.FLT.SCFG.NMT 0, 4, 64, .rs, fun q i => scfgField (R.FLT.SCFG.NMT 0) q i⟩,
  ⟨R.FLT.SCFG.INT 0, 4, 64, .rs, fun q i => scfgField (R.FLT.SCFG.INT 0) q i⟩,
  ⟨R.FLT.SCFG.SEV 0, 4, 64, .rs, fun q i => scfgField (R.FLT.SCFG.SEV 0) q i⟩]

/-- The field table of page kind `faultLog`. -/
def rows_faultLog : List Row := [
  Row.one R.FLT.LSTAT.NUM .ro 0,
  Row.one R.FLT.LSTAT.OVF .w1c 0,
  Row.one R.FLT.LSEL.IDX .rw 0,
  Row.one R.FLT.LTB_LO.T .ro 0,
  Row.one R.FLT.LTB_HI.T .ro 0,
  Row.one R.FLT.LSRC.VALID .ro 0,
  Row.one R.FLT.LSRC.SEV .ro 0,
  Row.one R.FLT.LSRC.SRC .ro 0,
  Row.one R.FLT.LDET.D .ro 0,
  Row.one R.FLT.FTB_LO.T .ro 0,
  Row.one R.FLT.FTB_HI.T .ro 0,
  Row.one R.FLT.FSRC.VALID .ro 0,
  Row.one R.FLT.FSRC.SEV .ro 0,
  Row.one R.FLT.FSRC.SRC .ro 0,
  Row.one R.FLT.FDET.D .ro 0]

/-- The field table of page kind `can`, part 1. -/
def rows_can_0 : List Row := [
  Row.one R.CAN.CMD.OP .wo 0,
  Row.one R.CAN.MODE.NOMATCH .rs 0,
  Row.one R.CAN.MODE.XLEN .rs 0,
  Row.one R.CAN.MODE.FDEN .rs 0x1,
  Row.one R.CAN.MODE.BOAUTO .rs 0x1,
  Row.one R.CAN.MODE.TXPRI .rs 0,
  Row.one R.CAN.MODE.SELFRX .rs 0,
  Row.one R.CAN.MODE.LOM .rs 0,
  Row.one R.CAN.NBT.SJW .rs 0x20,
  Row.one R.CAN.NBT.TSEG1 .rs 0x7f,
  Row.one R.CAN.NBT.TSEG2 .rs 0x20,
  Row.one R.CAN.NBT.BRP .rs 0x1,
  Row.one R.CAN.DBT.SJW .rs 0x8,
  Row.one R.CAN.DBT.TSEG1 .rs 0x1f,
  Row.one R.CAN.DBT.TSEG2 .rs 0x8,
  Row.one R.CAN.DBT.BRP .rs 0x1,
  Row.one R.CAN.XBT.SJW .rs 0x3,
  Row.one R.CAN.XBT.TSEG1 .rs 0xc,
  Row.one R.CAN.XBT.TSEG2 .rs 0x3,
  Row.one R.CAN.XBT.BRP .rs 0x1,
  Row.one R.CAN.TDC.TDCO .rs 0x20,
  Row.one R.CAN.TDC.EN .rs 0x1,
  Row.one R.CAN.RETRY.ALONETH .rs 0x20,
  Row.one R.CAN.RETRY.SSHOT .rs 0,
  Row.one R.CAN.RETRY.RTLIM .rs 0,
  Row.one R.CAN.RETRY.BODLY .rs 0,
  Row.one R.CAN.STAT.ABIDX .ro 0,
  Row.one R.CAN.STAT.RXING .ro 0,
  Row.one R.CAN.STAT.TXING .ro 0,
  Row.one R.CAN.STAT.TSRC .ro 0,
  Row.one R.CAN.STAT.ALONE .ro 0,
  Row.one R.CAN.STAT.SAFE .ro 0,
  Row.one R.CAN.STAT.STATE .ro 0,
  Row.one R.CAN.ECNT.TEC .ro 0,
  Row.one R.CAN.ECNT.REC .ro 0,
  Row.one R.CAN.LASTERR.DPH .ro 0,
  Row.one R.CAN.LASTERR.CODE .ro 0,
  Row.one R.CAN.AB.ROUNDS .rs 0,
  Row.one R.CAN.AB.TMO .rs 0,
  Row.one R.CAN.AB.NCAND .rs 0]

/-- The field table of page kind `can`, part 2. -/
def rows_can_1 : List Row := [
  Row.one R.CAN.AB.GO .rs 0,
  Row.one R.CAN.AB.ADOPT .rs 0,
  Row.arr (R.CAN.ABN.SJW 0) 8 8 .rs 0,
  Row.arr (R.CAN.ABN.TSEG1 0) 8 8 .rs 0,
  Row.arr (R.CAN.ABN.TSEG2 0) 8 8 .rs 0,
  Row.arr (R.CAN.ABN.BRP 0) 8 8 .rs 0,
  Row.arr (R.CAN.ABD.SJW 0) 8 8 .rs 0,
  Row.arr (R.CAN.ABD.TSEG1 0) 8 8 .rs 0,
  Row.arr (R.CAN.ABD.TSEG2 0) 8 8 .rs 0,
  Row.arr (R.CAN.ABD.BRP 0) 8 8 .rs 0,
  Row.arr (R.RXF.BASE.ADDR 0) 16 2 .rs 0,
  Row.arr (R.RXF.CFG.IEN 0) 16 2 .rs 0,
  Row.arr (R.RXF.CFG.SZ 0) 16 2 .rs 0x3,
  Row.arr (R.RXF.CFG.NREC 0) 16 2 .rs 0,
  Row.arr (R.RXF.IDX.GET 0) 16 2 .rw 0,
  Row.arr (R.RXF.IDX.PUT 0) 16 2 .ro 0,
  Row.arr (R.TXS.ADDR.ADDR 0) 16 16 .rw 0,
  Row.arr (R.TXS.CTRL.CANCEL 0) 16 16 .wo 0,
  Row.arr (R.TXS.CTRL.REQ 0) 16 16 .wo 0,
  Row.arr (R.TXS.CFG.IEN 0) 16 16 .rw 0,
  Row.arr (R.TXS.STAT.ATT 0) 16 16 .ro 0,
  Row.arr (R.TXS.STAT.CXLATE 0) 16 16 .ro 0,
  Row.arr (R.TXS.STAT.ST 0) 16 16 .ro 0,
  Row.one R.CAN.TXDONE.S .w1c 0,
  Row.one R.CAN.RXEV.F .w1c 0,
  Row.one R.CAN.TRX.MODE .ro 0,
  Row.arr (R.FE.ID.EN 0) 12 64 .rs 0,
  Row.arr (R.FE.ID.IDE 0) 12 64 .rs 0,
  Row.arr (R.FE.ID.ID 0) 12 64 .rs 0,
  Row.arr (R.FE.MASK.MASK 0) 12 64 .rs 0x1fffffff,
  Row.arr (R.FE.ACT.VCID 0) 12 64 .rs 0,
  Row.arr (R.FE.ACT.VCEN 0) 12 64 .rs 0,
  Row.arr (R.FE.ACT.FMTS 0) 12 64 .rs 0x7,
  Row.arr (R.FE.ACT.EARLY 0) 12 64 .rs 0,
  Row.arr (R.FE.ACT.DEST 0) 12 64 .rs 0,
  Row.one R.WAKE.CFG.FDTOL .rs 0x1,
  Row.one R.WAKE.CFG.RATE .rs 0x2,
  Row.one R.WAKE.CFG.WMODE .rs 0,
  Row.one R.WAKE.ID.IDE .rs 0,
  Row.one R.WAKE.ID.ID .rs 0]

/-- The field table of page kind `can`, part 3. -/
def rows_can_2 : List Row := [
  Row.one R.WAKE.MASK.MASK .rs 0x1fffffff,
  Row.one R.WAKE.DLC.DMEN .rs 0,
  Row.one R.WAKE.DLC.DLC .rs 0,
  Row.one R.WAKE.DATA_LO.D .rs 0xffffffff,
  Row.one R.WAKE.DATA_HI.D .rs 0xffffffff,
  Row.one R.WAKE.STAT.FECOVF .ro 0,
  Row.one R.WAKE.STAT.FEC .ro 0]

/-- The field table of page kind `can`. -/
def rows_can : List Row := rows_can_0 ++ rows_can_1 ++ rows_can_2

/-- The field table of page kind `lin`. -/
def rows_lin : List Row := [
  Row.one R.LIN.CMD.OP .wo 0,
  Row.one R.LIN.CFG.MASTER .rs 0,
  Row.one R.LIN.CFG.BR .rs 0x4b00,
  Row.one R.LIN.FTAB.ADDR .rs 0,
  Row.one R.LIN.SCHED.ADDR .rs 0,
  Row.one R.LIN.SCHN.N .rs 0,
  Row.one R.LIN.WAKE.US .rs 0x3e8,
  Row.one R.LIN.STAT.STATE .ro 0,
  Row.one R.LIN.STAT.LASTID .ro 0,
  Row.one R.LIN.STAT.SCHPOS .ro 0,
  Row.one R.LIN.STAT.ERR .ro 0]

/-- The field table of page kind `eth`. -/
def rows_eth : List Row := [
  Row.one R.ETH.CFG.LROLE .rs 0,
  ⟨R.ETH.CFG.MS, 0, 1, .rs, fun k _ => if k = 0 then 1 else 0⟩,
  Row.one R.ETH.PLCA.EN .rs 0,
  Row.one R.ETH.PLCA.NCNT .rs 0x8,
  Row.one R.ETH.PLCA.ID .rs 0,
  Row.one R.ETH.PLCA.TO .rs 0x20,
  Row.one R.ETH.STAT.SQI .ro 0,
  Row.one R.ETH.STAT.MASTER .ro 0,
  Row.one R.ETH.STAT.LINK .ro 0]

/-- The field table of page kind `esw`. -/
def rows_esw : List Row := [
  Row.one R.ESW.CFG.AGE .rs 0x12c,
  Row.arr (R.ESW.PORT.FWD 0) 4 5 .rs 0x1,
  Row.arr (R.ESW.PORT.PCP 0) 4 5 .rs 0,
  Row.arr (R.ESW.PORT.PVID 0) 4 5 .rs 0x1,
  ⟨R.ESW.VLAN.VALID 0, 4, 16, .rs, fun _ v => if v = 0 then 1 else 0⟩,
  ⟨R.ESW.VLAN.MEMBER 0, 4, 16, .rs, fun _ v => if v = 0 then 0x1F else 0⟩,
  ⟨R.ESW.VLAN.UNTAG 0, 4, 16, .rs, fun _ v => if v = 0 then 0x1F else 0⟩,
  ⟨R.ESW.VLAN.VID 0, 4, 16, .rs, fun _ v => if v = 0 then 1 else 0⟩,
  Row.one R.ESW.STAT.MACN .ro 0]

/-- The field table of page kind `ehp`. -/
def rows_ehp : List Row := [
  Row.one R.EHP.RXBASE.ADDR .rs 0,
  Row.one R.EHP.RXCFG.IEN .rs 0,
  Row.one R.EHP.RXCFG.SZ .rs 0x19,
  Row.one R.EHP.RXCFG.NREC .rs 0,
  Row.one R.EHP.RXIDX.GET .rw 0,
  Row.one R.EHP.RXIDX.PUT .ro 0,
  Row.one R.EHP.TXBASE.ADDR .rs 0,
  Row.one R.EHP.TXCFG.IEN .rs 0,
  Row.one R.EHP.TXCFG.SZ .rs 0x19,
  Row.one R.EHP.TXCFG.NREC .rs 0,
  Row.one R.EHP.TXIDX.GET .ro 0,
  Row.one R.EHP.TXIDX.PUT .rw 0]

/-- The field table of page kind `link`. -/
def rows_link : List Row := [
  Row.one R.LINK.CFG.FHLIM .rs 0xffff,
  Row.one R.LINK.CFG.SYNCI .rs 0xfd,
  Row.one R.LINK.CFG.TOPOI .rs 0xa,
  Row.one R.LINK.BUDGET.TICKS .rs 0,
  Row.one R.LINK.PLAT.TICKS .ro 0,
  Row.one R.LINK.TOPO.NDEV .ro 0,
  Row.one R.LINK.TOPO.MAXHOP .ro 0,
  Row.one R.LINK.DEVID.ID .ro 0,
  Row.one R.LINK.STAT.RING .ro 0,
  Row.one R.LINK.STAT.UP .ro 0]

/-- The field table of page kind `nm`. -/
def rows_nm : List Row := [
  Row.one R.NM.CFG.MASTER .rs 0,
  Row.one R.NM.CFG.NODE .rs 0,
  Row.one R.NM.CFG.FWESC .rs 0,
  Row.one R.NM.CFG.NMID .rs 0x500,
  Row.one R.NM.SBUS.LIN .rs 0,
  Row.one R.NM.SBUS.CAN .rs 0,
  Row.one R.NM.LWAKE.EN .rs 0,
  Row.one R.NM.TIME1.RSTIME .rs 0x7d0,
  Row.one R.NM.TIME1.KAPER .rs 0x1f4,
  Row.one R.NM.TIME2.SILENT .rs 0xbb8,
  Row.one R.NM.TIME2.WWIN .rs 0x1f4,
  Row.one R.NM.MAXAW.S .rs 0,
  Row.one R.NM.FWTH.TH .rs 0x3,
  Row.one R.NM.VOTE.V .rw 0x1,
  Row.one R.NM.CMD.OP .wo 0,
  Row.one R.NM.STAT.WHOLD .ro 0,
  Row.one R.NM.STAT.WLATCH .ro 0,
  Row.one R.NM.STAT.MAXEXP .ro 0,
  Row.one R.NM.STAT.STATE .ro 0,
  Row.one R.NM.WSRC.KIND .ro 0,
  Row.one R.NM.WSRC.INDEX .ro 0,
  Row.one (R.NM.FWCNT.CNT 0) .ro 0,
  Row.one (R.NM.FWCNT.CNT 1) .ro 0,
  Row.one (R.NM.FWCNT.CNT 2) .ro 0,
  Row.one (R.NM.FWCNT.CNT 3) .ro 0,
  Row.one (R.NM.FWCNT.CNT 4) .ro 0,
  Row.one (R.NM.FWCNT.CNT 5) .ro 0,
  Row.one (R.NM.FWCNT.CNT 6) .ro 0,
  Row.one (R.NM.FWCNT.CNT 7) .ro 0,
  Row.one (R.NM.LFWCNT.CNT 0) .ro 0,
  Row.one (R.NM.LFWCNT.CNT 1) .ro 0,
  Row.one (R.NM.LFWCNT.CNT 2) .ro 0,
  Row.one (R.NM.LFWCNT.CNT 3) .ro 0,
  Row.one (R.NM.LFWCNT.CNT 4) .ro 0,
  Row.one (R.NM.LFWCNT.CNT 5) .ro 0,
  Row.one R.NM.ESC.ESC .w1c 0]

/-- The field table of page kind `cr`. -/
def rows_cr : List Row := [
  Row.one R.CR.STAT.NVOK .ro 0,
  Row.one R.CR.STAT.RUN .ro 0,
  Row.one R.CR.STAT.RUNQ .ro 0,
  Row.one R.CR.STAT.SUSP .ro 0,
  Row.one R.CR.STAT.RUNCTX .ro 0,
  Row.one R.CR.LIB.VER .ro 0,
  Row.one R.CR.LIB.NPROG .ro 0,
  Row.one R.CR.CXSEL.CTX .rw 0,
  Row.one R.CR.CNT_LO.C .ro 0,
  Row.one R.CR.CNT_HI.C .ro 0,
  Row.one R.CR.HWM_LO.P .ro 0,
  Row.one R.CR.HWM_HI.P .ro 0,
  Row.arr (R.Q.BASE.ADDR 0) 16 4 .rs 0,
  Row.arr (R.Q.CFG.NREC 0) 16 4 .rs 0,
  Row.arr (R.Q.IDX.GET 0) 16 4 .ro 0,
  Row.arr (R.Q.IDX.PUT 0) 16 4 .rw 0,
  Row.arr (R.Q.STAT.HEAD 0) 16 4 .ro 0]

/-- The field table of page kind `hb`. -/
def rows_hb : List Row := [
  Row.one R.HB.USE.SLOT .ro 0,
  Row.one R.HB.WAIT.Q .ro 0]

/-- The field table of page kind `pk`. -/
def rows_pk : List Row := [
  Row.one R.PK.CMD.OP .wo 0,
  Row.one R.PK.SRC.ADDR .rw 0,
  Row.one R.PK.LEN.N .rw 0,
  Row.one R.PK.STAT.RES .ro 0,
  Row.arr (R.PK.DIG.D 0) 4 8 .ro 0]

/-- The field table of page kind `da`. -/
def rows_da : List Row := [
  Row.one R.DA.STAT.ST .ro 0,
  Row.one R.DA.STAT.FAILS .ro 0]

/-- The field table of page kind `cx`. -/
def rows_cx : List Row := [
  Row.arr (R.CX.CFG.EN 0) 48 32 .rs 0,
  Row.arr (R.CX.CFG.K256 0) 48 32 .rs 0,
  Row.arr (R.CX.CFG.SEGREL 0) 48 32 .rs 0,
  Row.arr (R.CX.CFG.NONCE 0) 48 32 .rs 0,
  Row.arr (R.CX.CFG.PERM 0) 48 32 .rs 0,
  Row.arr (R.CX.LABEL.L 0 0) 48 32 .rs 0,
  Row.arr (R.CX.LABEL.L 0 1) 48 32 .rs 0,
  Row.arr (R.CX.LABEL.L 0 2) 48 32 .rs 0,
  Row.arr (R.CX.LABEL.L 0 3) 48 32 .rs 0,
  Row.arr (R.CX.LABEL.L 0 4) 48 32 .rs 0,
  Row.arr (R.CX.LABEL.L 0 5) 48 32 .rs 0,
  Row.arr (R.CX.LABEL.L 0 6) 48 32 .rs 0,
  Row.arr (R.CX.LABEL.L 0 7) 48 32 .rs 0,
  Row.arr (R.CX.IVFIX.F 0) 48 32 .rs 0,
  Row.arr (R.CX.STAT.NVWAIT 0) 48 32 .ro 0,
  Row.arr (R.CX.STAT.POISON 0) 48 32 .ro 0,
  Row.arr (R.CX.STAT.EXH 0) 48 32 .ro 0,
  Row.arr (R.CX.STAT.LOST 0) 48 32 .ro 0]

/-- The field table of page kind `pmu`. -/
def rows_pmu : List Row := [
  Row.one R.PMU.MODE.MODE .ro 0,
  Row.one R.PMU.CMD.OP .wo 0,
  Row.one R.PMU.VBAT.V .ro 0,
  Row.one R.PMU.SUP.VLOG .ro 0,
  Row.one R.PMU.SUP.BUCK .ro 1,
  Row.one R.PMU.SUP.VLOK .ro 0,
  Row.one R.PMU.SUP.ISUPOK .ro 0,
  Row.one R.PMU.RTC_LO.T .ro 0,
  Row.one R.PMU.RTC_HI.T .ro 0,
  Row.one R.PMU.ALM_LO.T .rw 0,
  Row.one R.PMU.ALM_HI.T .rw 0,
  Row.one R.PMU.ALMCTL.FIRED .w1c 0,
  Row.one R.PMU.ALMCTL.EN .rw 0,
  Row.arr (R.PMU.KEEP.D 0) 4 8 .rw 0]

/-- The field table of page kind `rst`. -/
def rows_rst : List Row := [
  Row.one R.RST.CMD.KEY .wo 0,
  Row.one R.RST.CMD.OP .wo 0,
  Row.one R.RST.CAUSE.C .w1c 0x1,
  Row.one R.RST.HOLD.MS .rs 0xc8,
  Row.one R.RST.HSTAT.REM .ro 0,
  Row.one R.RST.HSTAT.EXPIRED .ro 0,
  Row.one R.RST.HSTAT.RUN .ro 0,
  Row.arr (R.RST.HELD.H 0) 4 3 .ro 0,
  Row.arr (R.RST.RECLAIM.R 0) 4 3 .wo 0]

/-- The field table of page kind `boot`. -/
def rows_boot : List Row := [
  Row.one R.BOOT.STAT.NOREC .ro 0,
  Row.one R.BOOT.STAT.FALLBK .ro 0,
  Row.one R.BOOT.STAT.VERIFYF .ro 0,
  Row.one R.BOOT.STAT.VMODE .ro 0,
  Row.one R.BOOT.STAT.BANK .ro 0,
  Row.one R.BOOT.SEQ.SEQ .ro 0,
  Row.one R.BOOT.TIME.US .ro 0,
  Row.one R.BOOT.IMGLEN.L .ro 0]

/-- The field table of page kind `cfg`. -/
def rows_cfg : List Row := [
  Row.one R.CFG.STAT.DEFAULTED .ro 0,
  Row.one R.CFG.STAT.VALID .ro 0,
  Row.one R.CFG.STAT.USED .ro 0,
  Row.one R.CFG.SEQ.SEQ .ro 0,
  Row.one R.CFG.APPLEN.N .ro 0,
  Row.one R.CFG.APPADDR.ADDR .ro 0,
  Row.one R.CFG.VER.V .ro 0]

/-- The field table of page kind `cal`. -/
def rows_cal : List Row := [
  Row.one R.CAL.STAT.UCALBAD .ro 0,
  Row.one R.CAL.STAT.UCALOK .ro 0,
  Row.one R.CAL.STAT.NREJ .ro 0,
  Row.one R.CAL.STAT.NITEMS .ro 0,
  Row.one R.CAL.SEL.ITEM .rw 0,
  Row.one R.CAL.FACT.LIM .ro 0,
  Row.one R.CAL.FACT.VAL .ro 0,
  Row.one R.CAL.USER.REJ .ro 0,
  Row.one R.CAL.USER.DELTA .ro 0,
  Row.one R.CAL.APPLIED.VAL .ro 0]

/-- The field table of page kind `upd`. -/
def rows_upd : List Row := [
  Row.one R.UPD.CMD.OP .wo 0,
  Row.one R.UPD.SRCID.ID .rw 0,
  Row.one R.UPD.PADDR.ADDR .rw 0,
  Row.one R.UPD.LEN.F .rw 0,
  Row.one R.UPD.TRIALS.N .rw 0x3,
  Row.one R.UPD.STAT.HOLDER .ro 0,
  Row.one R.UPD.STAT.ROLLBK .ro 0,
  Row.one R.UPD.STAT.TLEFT .ro 0,
  Row.one R.UPD.STAT.ST .ro 0,
  Row.one R.UPD.RES.DETAIL .ro 0,
  Row.one R.UPD.RES.RES .ro 0,
  Row.one R.UPD.PROG.NPC .ro 0,
  Row.one R.UPD.PROG.HELD .ro 0,
  Row.arr (R.UPD.DIG.D 0) 4 8 .rw 0,
  Row.one R.UPD.NEXT.I .ro 0,
  Row.one R.UPD.MAPSEL.W .rw 0,
  Row.one R.UPD.MAP.B .ro 0,
  Row.one R.UPD.CFV.NEW .ro 0,
  Row.one R.UPD.CFV.RUN .ro 0]

end Sys2Proof.Machine
end

