-- ==== Sys2Proof/Machine/Pages.lean ====
section
/-! DEFINITION. The pages of the device: which page numbers are allocated and of which kind, the header of each
page, the folder tree, and the clock island of each page (R10, R22, R54, R56, R57, R64, R513). -/

namespace Sys2Proof

/-- The bits of a field in its register. -/
def Fld.mask (f : Fld) : Word := BitVec.ofNat 32 (2 ^ (f.hi + 1 - f.lo) - 1) <<< f.lo

/-- The value of a field in a register word. -/
def Fld.get (f : Fld) (w : Word) : Nat := ((w &&& f.mask) >>> f.lo).toNat

/-- A register word with a field replaced; the other bits stay. -/
def Fld.put (f : Fld) (w : Word) (v : Nat) : Word := (w &&& ~~~ f.mask) ||| ((BitVec.ofNat 32 v <<< f.lo) &&& f.mask)

end Sys2Proof

namespace Sys2Proof.Machine

/-- The kinds of register page; `hdr` is a page of only the header and the common block (R513). -/
inductive PageKind where
  | root | sys | fix | tb | clk | pmu | rst | boot | cal | cfg | fault0 | faultCfg | faultLog | faultCnt | hdr | core | lcm | memc | memr | flc | rxc | cw | rxo | rxl | bank | hs | pal | leg | bridge | vl | boost | mx | pxc | cv | amb | li2c | si | sif | io | iso | can | lin | eth | esw | ehp | link | nm | cr | hb | pk | da | cx | upd | lf
  deriving DecidableEq, Repr

/-- The clock islands (R17); the CP islands carry their pair number. -/
inductive Island where
  | ka | rx | cp (p : Nat) | mem | net | cry | pwr | io
  deriving DecidableEq, Repr

/-- The index of an island in the bit fields of the CLK page. -/
def Island.index : Island → Nat
  | .ka => 0 | .rx => 1 | .cp p => 2 + p | .mem => 12 | .net => 13 | .cry => 14 | .pwr => 15 | .io => 16

/-- One run of pages: kind, first and last page, type code, PG_LIVESZ, PG_CAPS.LOCKABLE, COUNTERS and FOLDER, island. -/
structure PageRun where
  kind : PageKind
  first : Nat
  last : Nat
  typ : Nat
  livesz : Nat
  lockable : Bool
  counters : Bool
  folder : Bool
  island : Island

/-- Every allocated page (R22, R57), with the header values its chapter gives. (DEDUCED: log entry 65.) -/
def pageRuns : List PageRun := [
  ⟨.root, 0x000, 0x000, 0x0100, 0x254, false, false, true, .io⟩,
  ⟨.sys, 0x001, 0x001, 0x0101, 0x204, true, false, false, .io⟩,
  ⟨.fix, 0x002, 0x002, 0x0102, 0x200, true, false, false, .io⟩,
  ⟨.tb, 0x003, 0x003, 0x0103, 0x1C0, true, false, false, .io⟩,
  ⟨.clk, 0x004, 0x004, 0x0104, 0x010, true, false, false, .io⟩,
  ⟨.pmu, 0x005, 0x005, 0x0105, 0x060, true, false, false, .ka⟩,
  ⟨.rst, 0x006, 0x006, 0x0106, 0x02C, true, true, false, .ka⟩,
  ⟨.boot, 0x007, 0x007, 0x0107, 0x010, true, false, false, .io⟩,
  ⟨.cal, 0x008, 0x008, 0x0108, 0x014, true, false, false, .io⟩,
  ⟨.cfg, 0x009, 0x009, 0x0109, 0x014, true, false, false, .io⟩,
  ⟨.fault0, 0x010, 0x010, 0x0110, 0x034, true, false, false, .ka⟩,
  ⟨.faultCfg, 0x011, 0x014, 0x0110, 0x100, true, false, false, .ka⟩,
  ⟨.faultLog, 0x015, 0x015, 0x0110, 0x028, true, false, false, .ka⟩,
  ⟨.faultCnt, 0x016, 0x019, 0x0110, 0x000, true, true, false, .ka⟩,
  ⟨.hdr, 0x01A, 0x01F, 0x0110, 0x000, false, false, false, .ka⟩,
  ⟨.core, 0x020, 0x029, 0x0120, 0x008, false, true, false, .cp 0⟩,
  ⟨.lcm, 0x02A, 0x02A, 0x012A, 0x080, true, true, false, .io⟩,
  ⟨.memc, 0x030, 0x030, 0x0130, 0x01C, true, true, false, .mem⟩,
  ⟨.memr, 0x031, 0x031, 0x0130, 0x014, true, false, false, .mem⟩,
  ⟨.flc, 0x032, 0x032, 0x0130, 0x040, true, true, false, .mem⟩,
  ⟨.hdr, 0x033, 0x033, 0x0130, 0x000, false, false, false, .mem⟩,
  ⟨.rxc, 0x040, 0x040, 0x0140, 0x0C0, true, false, false, .rx⟩,
  ⟨.cw, 0x041, 0x050, 0x0140, 0x400, true, true, false, .rx⟩,
  ⟨.rxo, 0x051, 0x051, 0x0140, 0x118, false, false, false, .rx⟩,
  ⟨.rxl, 0x052, 0x052, 0x0140, 0x02C, true, true, false, .rx⟩,
  ⟨.hdr, 0x053, 0x05F, 0x0140, 0x000, false, false, false, .rx⟩,
  ⟨.bank, 0x0F0, 0x0F5, 0x01F0, 0x310, true, false, true, .pwr⟩,
  ⟨.hs, 0x100, 0x12F, 0x0200, 0x02C, true, true, false, .pwr⟩,
  ⟨.pal, 0x130, 0x130, 0x0230, 0x700, true, false, false, .pwr⟩,
  ⟨.leg, 0x140, 0x14B, 0x0240, 0x008, true, false, false, .pwr⟩,
  ⟨.leg, 0x14C, 0x15B, 0x0241, 0x008, true, false, false, .pwr⟩,
  ⟨.bridge, 0x15C, 0x15C, 0x025C, 0x680, true, false, true, .pwr⟩,
  ⟨.vl, 0x160, 0x167, 0x0260, 0x02C, true, true, false, .pwr⟩,
  ⟨.boost, 0x168, 0x168, 0x0268, 0x018, true, false, false, .pwr⟩,
  ⟨.mx, 0x170, 0x170, 0x0270, 0x038, true, false, false, .pwr⟩,
  ⟨.hdr, 0x171, 0x171, 0x0270, 0x000, false, false, false, .pwr⟩,
  ⟨.pxc, 0x172, 0x172, 0x0270, 0x014, true, false, false, .io⟩,
  ⟨.cv, 0x173, 0x173, 0x0270, 0x01C, true, false, false, .pwr⟩,
  ⟨.amb, 0x174, 0x177, 0x0270, 0x040, true, false, false, .pwr⟩,
  ⟨.li2c, 0x178, 0x178, 0x0270, 0x00C, true, false, false, .io⟩,
  ⟨.hdr, 0x179, 0x17F, 0x0270, 0x000, false, false, false, .pwr⟩,
  ⟨.si, 0x180, 0x187, 0x0280, 0x068, true, true, false, .io⟩,
  ⟨.sif, 0x188, 0x188, 0x0288, 0x308, true, false, true, .io⟩,
  ⟨.io, 0x1A0, 0x1AF, 0x02A0, 0x010, true, true, false, .pwr⟩,
  ⟨.iso, 0x1B0, 0x1B0, 0x02B0, 0x30C, true, false, true, .pwr⟩,
  ⟨.can, 0x200, 0x207, 0x0300, 0x61C, true, true, false, .net⟩,
  ⟨.lin, 0x210, 0x215, 0x0310, 0x01C, true, true, false, .net⟩,
  ⟨.eth, 0x220, 0x223, 0x0320, 0x00C, true, true, false, .net⟩,
  ⟨.esw, 0x224, 0x224, 0x0320, 0x084, true, true, false, .net⟩,
  ⟨.ehp, 0x225, 0x225, 0x0320, 0x018, true, false, false, .net⟩,
  ⟨.hdr, 0x226, 0x227, 0x0320, 0x000, false, false, false, .net⟩,
  ⟨.link, 0x228, 0x228, 0x0328, 0x018, true, true, false, .net⟩,
  ⟨.nm, 0x230, 0x230, 0x0330, 0x038, true, true, false, .net⟩,
  ⟨.cr, 0x240, 0x240, 0x0340, 0x060, true, true, false, .cry⟩,
  ⟨.hb, 0x241, 0x241, 0x0340, 0x008, true, false, false, .cry⟩,
  ⟨.pk, 0x242, 0x242, 0x0340, 0x040, true, false, false, .cry⟩,
  ⟨.da, 0x243, 0x243, 0x0340, 0x004, true, false, false, .cry⟩,
  ⟨.cx, 0x244, 0x24B, 0x0340, 0x600, true, false, false, .cry⟩,
  ⟨.hdr, 0x24C, 0x24F, 0x0340, 0x000, false, false, false, .cry⟩,
  ⟨.upd, 0x250, 0x250, 0x0350, 0x050, true, true, false, .mem⟩,
  ⟨.lf, 0xF00, 0xF00, 0x0F00, 0x340, true, false, true, .net⟩]

/-- The run a page belongs to; none for an unallocated page (R10). -/
def pageRun (pg : Nat) : Option PageRun :=
  pageRuns.find? fun r => r.first ≤ pg && pg ≤ r.last

/-- The kind of a page; none for an unallocated page (R10). -/
def kindOf (pg : Nat) : Option PageKind := (pageRun pg).map (·.kind)

/-- The instance number a field table's reset value depends on: the page's place in the run of its kind. -/
def instOf (pg : Nat) : Nat :=
  match pageRun pg with
  | some r => pg - r.first
  | none => 0

/-- PG_ID.INST: the pages of a type code counted in ascending page order (R57). -/
def typeInst (pg : Nat) : Nat :=
  match pageRun pg with
  | some r => pg - ((pageRuns.find? fun q => q.typ == r.typ).map (·.first)).getD pg
  | none => 0

/-- The island a page lies in (R22 and the block chapters). Page 0x02A lies in the CP island of the pair that serves AC0
(R272), which is pair 0 until a takeover; `State.islandOf` follows it. An access to an unallocated page (R10) is answered by the IO
island. (DESIGN CHOICE: log entry 68.) -/
def pageIsland (pg : Nat) : Island :=
  match pageRun pg with
  | some r => if r.kind = .core then .cp (pg - 0x020) else if r.kind = .lcm then .cp 0 else r.island
  | none => .io

/-- The field table of a page kind. -/
def rowsOf : PageKind → List Row
  | .root => []
  | .sys => rows_sys
  | .fix => rows_fix
  | .tb => rows_tb
  | .clk => rows_clk
  | .pmu => rows_pmu
  | .rst => rows_rst
  | .boot => rows_boot
  | .cal => rows_cal
  | .cfg => rows_cfg
  | .fault0 => rows_fault0
  | .faultCfg => rows_faultCfg
  | .faultLog => rows_faultLog
  | .faultCnt => []
  | .hdr => []
  | .core => rows_core
  | .lcm => rows_lcm
  | .memc => rows_memc
  | .memr => rows_memr
  | .flc => rows_flc
  | .rxc => rows_rxc
  | .cw => rows_cw
  | .rxo => rows_rxo
  | .rxl => rows_rxl
  | .bank => rows_bank
  | .hs => rows_hs
  | .pal => rows_pal
  | .leg => rows_leg
  | .bridge => rows_bridge
  | .vl => rows_vl
  | .boost => rows_boost
  | .mx => rows_mx
  | .pxc => rows_pxc
  | .cv => rows_cv
  | .amb => rows_amb
  | .li2c => rows_li2c
  | .si => rows_si
  | .sif => rows_sif
  | .io => rows_io
  | .iso => rows_iso
  | .can => rows_can
  | .lin => rows_lin
  | .eth => rows_eth
  | .esw => rows_esw
  | .ehp => rows_ehp
  | .link => rows_link
  | .nm => rows_nm
  | .cr => rows_cr
  | .hb => rows_hb
  | .pk => rows_pk
  | .da => rows_da
  | .cx => rows_cx
  | .upd => rows_upd
  | .lf => rows_lf

/-- Children of a folder page, ascending (R63, R64). The link folder's own child is added by `nchild`. -/
def childList (pg : Nat) : List Nat :=
  let run := fun a n => (List.range n).map (a + ·)
  if pg = 0x000 then
    run 0x001 9 ++ run 0x010 16 ++ run 0x020 11 ++ run 0x030 4 ++ run 0x040 32 ++ run 0x0F0 6 ++ [0x130, 0x15C] ++
    run 0x160 9 ++ run 0x170 16 ++ [0x188, 0x1B0] ++ run 0x200 8 ++ run 0x210 6 ++ run 0x220 9 ++ [0x230] ++
    run 0x240 16 ++ [0x250, 0xF00]
  else if 0x0F0 ≤ pg ∧ pg ≤ 0x0F5 then run (0x100 + 8 * (pg - 0x0F0)) 8
  else if pg = 0x15C then run 0x140 28
  else if pg = 0x188 then run 0x180 8
  else if pg = 0x1B0 then run 0x1A0 16
  else []

/-- PG_PARENT.PAGE of a local page (R64). -/
def parentOf (pg : Nat) : Nat :=
  if pg = 0x000 then 0xFFF
  else if 0x100 ≤ pg ∧ pg ≤ 0x12F then 0x0F0 + (pg - 0x100) / 8
  else if 0x140 ≤ pg ∧ pg ≤ 0x15B then 0x15C
  else if 0x180 ≤ pg ∧ pg ≤ 0x187 then 0x188
  else if 0x1A0 ≤ pg ∧ pg ≤ 0x1AF then 0x1B0
  else 0x000

/-- A page and every page below it (R75); the remote device behind the link folder is never included. -/
def subtree (pg : Nat) : List Nat := pg :: (childList pg ++ (childList pg).flatMap childList)

/-- A register that only one page of its kind has: ETH.PLCA, on ETH3 (R406). -/
def absentAt (pg off : Nat) : Bool := decide (0x220 ≤ pg) && decide (pg < 0x223) && off == R.ETH.PLCA.EN.off

/-- The fields of a page that stand at an offset, each with its index in an indexed register. -/
def rowsAt (pg off : Nat) : List (Row × Nat) :=
  match kindOf pg with
  | none => []
  | some k => if absentAt pg off then [] else (rowsOf k).filterMap fun r =>
      if r.fld.off ≤ off then
        if r.stride = 0 then (if off = r.fld.off then some (r, 0) else none)
        else if (off - r.fld.off) % r.stride = 0 ∧ (off - r.fld.off) / r.stride < r.count then
          some (r, (off - r.fld.off) / r.stride) else none
      else none

/-- The bits at an offset that belong to fields of one access code; none in the word of source 232, which ignores writes (the
FAULT4 field table). -/
def accMask (a : Acc) (pg off : Nat) : Word :=
  if pg = 0x014 ∧ off = 0x1A0 then 0 else (rowsAt pg off).foldl (fun m r => if r.1.acc = a then m ||| r.1.fld.mask else m) 0

/-- The reset value of the register at an offset of a page (R13); 0 where nothing stands. (DESIGN CHOICE: log entry 16.) -/
def resetWord (key : Nat) : Word :=
  let pg := key / 0x1000
  (rowsAt pg (key % 0x1000)).foldl (fun w r => r.1.fld.put w (r.1.rst (instOf pg) r.2)) 0

end Sys2Proof.Machine
end

