-- ==== Sys2Proof/Syntax.lean ====
section
/-! DEFINITION. The commands the block takes, one constructor per row of the opcode table, and the types of their
operands. A command says that a happening of the table arises now; its operands carry what the outside supplies. -/

namespace Sys2Proof

/-- Who writes a register (the PG_SKSTAT field table): a context of a logical core, a linked device, the debugger. -/
inductive Writer where
  | ctx (lc : Fin 16) (i : Fin 32)
  | remote
  | debugger
  deriving DecidableEq, Repr

/-- What reaches a capture unit (R96). -/
inductive CapSrc where
  | event (e : BitVec 8)
  | lsyncRise
  | lsyncFall
  deriving DecidableEq, Repr

/-- A valid sync message: the link port it comes from, the steps removed that it carries, and the measured offset from the
grandmaster in ns, local minus grandmaster (R100, R409). -/
structure SyncMsg where
  port : Fin 4
  steps : BitVec 16
  offset : Int
  deriving DecidableEq, Repr

/-- The live command registers of the outputs other than the bridges (R31, R112, R184, R211, R224). -/
inductive OutReg where
  | hs (n : Fin 48)
  | vl (n : Fin 8)
  | mx
  | pxc
  | amb (g : Fin 4)
  | io (n : Fin 16)
  deriving DecidableEq, Repr

/-- The two power dies (R16). -/
inductive Die where
  | p1 | p2
  deriving DecidableEq, Repr

/-- The outputs whose hot spot can reach its shutdown threshold (R151, R190, R212). -/
inductive HotSpot where
  | hs (n : Fin 48)
  | leg (n : Fin 28)
  | vl (n : Fin 8)
  | side (b : Fin 2)
  | row (r : Fin 16)
  | col (c : Fin 16)
  | amb (g : Fin 4)
  deriving DecidableEq, Repr

/-- A conversion of a sense converter: the mean current over the period in microamperes, whether its reference check
failed (R142, R143); for a leg also the swing of a ripple peak in milliamperes (R173). -/
inductive SenseUnit where
  | hs (n : Fin 48) (i : Int) (fail : Bool)
  | leg (n : Fin 28) (i : Int) (fail : Bool) (ripple : Option Nat)
  | vl (n : Fin 8) (i : Int) (fail : Bool)
  | side (b : Fin 2) (i : Int) (fail : Bool)
  deriving DecidableEq, Repr

/-- A high-side switch of the PWR island as a cross-test watches it (R148). -/
inductive XSwitch where
  | hs (n : Fin 48)
  | leg (n : Fin 28)
  | vha
  | vhb
  | row (r : Fin 16)
  deriving DecidableEq, Repr

/-- How a read of a light sensor ends (R210): three counts, with the longest clock stretch in microseconds; a missing
acknowledgement at a byte of the transaction; a lost arbitration; a stretch; SDA held low at START. -/
inductive SensorEnd where
  | counts (r g b : BitVec 16) (stretch : Nat)
  | nack (byte : Fin 9)
  | arbLost
  | stretched (us : Nat)
  | sdaLow
  deriving DecidableEq, Repr

/-- The findings on which a segment is retouched, with what was measured (R154): the channel's and the segment's current in
milliamperes over a number of sense periods; the gate's departure from its off level in millivolts over a number of
diagnosis cycles; its temperature above the others' mean in kelvin over a number of ticks of on-time. -/
inductive SegFinding where
  | openSeg (cur seg periods : Nat)
  | gateLeak (mv cycles : Nat)
  | hot (dk ticks : Nat)
  deriving DecidableEq, Repr

/-- What crosses to the fault collector besides a source's number, for its detail word (R372). -/
inductive Detail where
  | none
  | page (pg : Nat)
  | xcpl (pg partner : Nat)
  | val (w : BitVec 32)
  | loss
  deriving DecidableEq, Repr

/-- A cause on its way to the fault collector (R357). -/
structure Cause where
  src : Nat
  det : Detail
  deriving DecidableEq, Repr

/-- A register access of a linked device through its window (R413). -/
structure PgReq where
  seq : Nat
  write : Bool
  pg : BitVec 12
  off : BitVec 12
  data : BitVec 32
  initiator : BitVec 64
  deriving DecidableEq, Repr

/-- What triggers a canvas swap that does not trigger by its own write (R199). -/
inductive SwapEdge where
  | tick | rise | fall
  deriving DecidableEq, Repr

/-- The kinds of NM frame (R418). -/
inductive NmKind where
  | keepAwake | sleep | forced
  deriving DecidableEq, Repr

/-- A CAN frame as a record holds it (R382): the format 0 Classical, 1 FD, 2 XL. -/
structure CanFrame where
  fmt : Nat
  ide : Bool
  id : Nat
  rtr : Bool := false
  brs : Bool := false
  esi : Bool := false
  sec : Bool := false
  sdt : Nat := 0
  vcid : Nat := 0
  len : Nat
  af : BitVec 32 := 0
  data : List (BitVec 8) := []
  deriving DecidableEq, Repr

/-- How far the reception of a frame has come (R390): past its SOF or its arbitration field, at its sixth EOF bit as a valid frame, or
ended by an error. -/
inductive CanRx where
  | arb | good | bad | sof
  deriving DecidableEq, Repr

/-- How an attempt ends (R385); an error with its code of LASTERR; an FD or XL frame sent whose loop delay was measured, in kernel
cycles (R379). -/
inductive CanEnd where
  | success | lost
  | error (code : Fin 7)
  | measured (delay : Nat)
  deriving DecidableEq, Repr

/-- What the bus shows with an error (R387): a dominant bit right after the node's flag, or while it sends a passive one; how many runs of
8 further dominant bits; a transmitter's stuff error at a recessive stuff bit of its arbitration field. -/
structure CanFlag where
  dom : Bool := false
  runs : Nat := 0
  arbStuff : Bool := false
  deriving DecidableEq, Repr

/-- A LIN transmitter or a CAN transmitter (R395, R404). -/
inductive Trx where
  | can (c : Fin 8)
  | lin (l : Fin 6)
  deriving DecidableEq, Repr

/-- A sleep bus (R418). -/
abbrev NetBus := Trx

/-- What stands on the bus at the end of a header (R403): the length of its break in ticks, the rate in bit/s that its sync byte
measures (0 where it measures none), and the protected identifier. -/
structure LinHeader where
  brk : Nat
  rate : Nat
  pid : BitVec 8
  deriving DecidableEq, Repr

/-- A transceiver's junction overtemperature begins, or it has cooled (R395, R404). -/
structure TrxHeat where
  bus : Trx
  hot : Bool
  deriving DecidableEq, Repr

/-- How a LIN frame ends (R401, R404): the own response sent, a response heard with its checksum, or an error on the bus. -/
inductive LinEnd where
  | sent
  | resp (data : List (BitVec 8)) (cks : BitVec 8)
  | bitErr
  | frameErr
  deriving DecidableEq, Repr

/-- The payload of a Farern frame (R410): the hop count and the latency in ticks of a TOPO frame, or the bytes of another. -/
inductive FarPay where
  | topo (hop lat : Nat)
  | bytes (b : List (BitVec 8))
  deriving DecidableEq, Repr

/-- A frame that enters the switch, with TB at its SFD (R407, R408, R410): its bytes from the destination address to the last
payload byte, or a Farern frame by its addresses, header and R-TAG, `lenOk` saying that its length is that of its type,
`next` the egress code that a PGREQ's path names at this device, none where the path ends here, and its payload. -/
inductive EthRx where
  | frame (sfd : BitVec 64) (b : List (BitVec 8))
  | far (sfd : BitVec 64) (dst mac : BitVec 48) (ver typ : BitVec 4) (lenOk : Bool) (hop : BitVec 16) (src : BitVec 32)
      (seq : BitVec 16) (next : Option (BitVec 4)) (pay : FarPay)
  deriving DecidableEq, Repr

/-- The PWM generators on TB (R98): a channel, a bridge, a valve's chopper with the valve's current in milliamperes, whose switch
also turns off when that reaches the target, and an ambient group (R183, R208). -/
inductive PwmOut where
  | hs (n : Fin 48)
  | bridge (k : Fin 14)
  | valve (n : Fin 8) (i : Nat)
  | amb (g : Fin 4)
  deriving DecidableEq, Repr

/-- A register of a context as the debugger writes it (R331). -/
inductive DbgReg where
  | g (n : Fin 32)
  | p (v : BitVec 8)
  | st (v : BitVec 2)
  | scr0 | scr1 | pc
  deriving DecidableEq, Repr

/-- What the debugger writes (R331): a register of a context of the halted core, a byte, halfword or word of memory, or a
register of a page. -/
inductive DbgTarget where
  | reg (i : Fin 32) (r : DbgReg)
  | mem (a : BitVec 32) (sz : Fin 3)
  | page (pg : BitVec 12) (off : BitVec 12)
  deriving DecidableEq, Repr

/-- The event number of a WAIT.EV or SEND.EV: in the word, or in a register (format E of R281). -/
inductive EvSrc where
  | imm (n : BitVec 10)
  | reg (r : Fin 32)
  deriving DecidableEq, Repr

/-- The supplies that the PMU watches (R452). -/
inductive Supply where
  | vbat | rail33 | vlog | buck
  | island (i : Fin 17)
  deriving DecidableEq, Repr

/-- A supply out of its range, with the straps that a power-on reset then samples (R42, R43, R452). -/
structure SupplyLoss where
  unit : Supply
  vlsel : Bool
  recov : Bool
  deriving DecidableEq, Repr

/-- What RESETN's reset finds: the strap RECOV; in PARK, where it is a wake, also the counts of the RTC since the last command
and SAFEN's level (R43, R44, R93). -/
structure ResetPins where
  recov : Bool
  rtc : BitVec 48
  safen : Bool
  deriving DecidableEq, Repr

/-- What a boot finds outside the memory that the spec lays out (R254, R344, R437, R469): the pairs healthy at shipment, the
factory row remaps (macro, row, spare) and retouched segments of the OTP repair map, the device ID, whether the runtime
repair map has a valid copy, the version and programs of the mode library, and BOOT.TIME; whether VLOG is in range and the
crystals of XIN and XIN32 run (R42, R45). -/
structure BootIn where
  vlog : Bool := true
  xin : Bool := true
  x32 : Bool := true
  shipOk : BitVec 10 := 0x3FF
  rows : List (Fin 60 × Nat × Fin 32) := []
  segs : List (Fin 48 × Fin 8) := []
  devid : BitVec 64 := 0
  mapOk : Bool := true
  badMap : List Nat := []
  libVer : BitVec 16 := 0
  progs : List (Fin 256) := []
  us : BitVec 32 := 0
  deriving DecidableEq, Repr

/-- An OPEN request of a recovery channel, CAN0 or ETH1 (R494, R495). -/
structure RomOpen where
  eth : Bool
  digest : BitVec 256
  size : BitVec 32
  deriving DecidableEq, Repr

/-- What completes (R259, R263): an outstanding access by its number, or the instruction fetch that a context waits for. -/
inductive AccRef where
  | op (id : Nat)
  | fetch (lc : Fin 16) (i : Fin 32)
  deriving DecidableEq, Repr

/-- The commands, in the order of the opcode table. -/
inductive Instr where
  /-- REGISTER_WRITE: A write of a register by its page and offset, from a context, a linked device or the debugger (R12, R59). -/
  | registerWrite (w : Writer) (pg : BitVec 12) (off : BitVec 12) (d : Word)
  /-- SKETCH_WRITE: A write that stages RS fields: `off` is the live offset of the register (R72). -/
  | sketchWrite (w : Writer) (pg : BitVec 12) (off : BitVec 12) (d : Word)
  /-- CCLR: A write of PG_CTRL.CCLR (R62). -/
  | cclr (pg : BitVec 12)
  /-- BRST: A write of PG_CTRL.BRST (R515). -/
  | brst (pg : BitVec 12)
  /-- PG_LOCK_WRITE: A write of PG_LOCK (R61). -/
  | pgLockWrite (pg : BitVec 12) (key : Byte) (tree : Bool) (lk : Bool)
  /-- CHECK: FIX.CMD CHECK (R76). -/
  | check
  /-- CHECK_COMPLETE: The evaluation of the scope's rules ends (R82). -/
  | checkComplete
  /-- FIX: FIX.CMD FIX (R78). -/
  | fix
  /-- ABORT: FIX.CMD ABORT (R76). -/
  | abort
  /-- FIX_APPLY: The fix time of an armed fix is reached (R79). -/
  | fixApply
  /-- FIX_COMPLETE: Every island's copy report has arrived (R80). -/
  | fixComplete
  /-- FIXB_RECEIVED: A FIXB broadcast arrives with its tag and fix time (R85). -/
  | fixbReceived (tag : BitVec 16) (t : BitVec 64)
  /-- FIXA_RECEIVED: A participant answers, by its ID: armed, or late or not ready (R414). -/
  | fixaReceived (tag : BitVec 16) (id : BitVec 32) (armed : Bool)
  /-- LF_WRITE: A write of LF.HOPLEN, LF.CTRL, LF.HOPBASE or LF.HOPn (R67). -/
  | lfWrite (w : Writer) (off : BitVec 12) (d : Word)
  /-- LF_WRITE_APPLY: The oldest held link-folder write takes effect (R67). -/
  | lfWriteApply
  /-- PGREQ_RECEIVED: A linked device's register access arrives (R413). -/
  | pgreqReceived (q : PgReq)
  /-- PGRSP_RECEIVED: The answer to the window access with identifier `id` arrives (R413). -/
  | pgrspReceived (id : Nat) (d : Word)
  /-- WINDOW_TIMEOUT: The window access with identifier `id` is unanswered within LF.TMO (R68). -/
  | windowTimeout (id : Nat)
  /-- TBC_CTRL_WRITE: A write of TBCn.CTRL (R95). -/
  | tbcCtrlWrite (n : Fin 8) (intv : BitVec 24) (arm : Bool)
  /-- TBC_FIRE: Compare n's value is reached (R94). -/
  | tbcFire (n : Fin 8)
  /-- CAPTURE: A selected posting or LSYNC edge reaches capture unit m (R96). -/
  | capture (m : Fin 4) (src : CapSrc)
  /-- SYNC_ROLE_WRITE: A write of TB.SYNC.ROLE (R100). -/
  | syncRoleWrite (role : BitVec 2)
  /-- SYNC_MESSAGE: A valid sync message is received (R100, R409). -/
  | syncMessage (m : SyncMsg)
  /-- SYNC_MISSED: Three sync intervals pass without a valid message (R100). -/
  | syncMissed
  /-- HOLDOVER_TIMEOUT: TB.HOLDTMO seconds pass in HOLDOVER without a valid message (R100). -/
  | holdoverTimeout
  /-- DEFERRED_TB_STEP: The IO cycle after an applied fix: a deferred step takes place (R102). -/
  | deferredTbStep
  /-- CLOCK_LOSS: The loss of an island clock is detected (R105). -/
  | clockLoss (i : Fin 17)
  /-- CLOCK_RETURN: A lost island clock returns (R92). -/
  | clockReturn (i : Fin 17)
  /-- CRYSTAL_FAILURE: The XIN count lies outside 50 to 150 % of nominal (R104). -/
  | crystalFailure
  /-- PLL_UNLOCK: An island PLL reports unlock with its clock present (R104). -/
  | pllUnlock (i : Fin 17)
  /-- ISLAND_PLL_LOCK: A started or restarted island PLL locks (R107, R90). -/
  | islandPllLock (i : Fin 17)
  /-- LIVE_OUTPUT_WRITE: A write of an output's live command register (R31, R112). -/
  | liveOutputWrite (w : Writer) (o : OutReg) (d : Word)
  /-- ENVELOPE_BREAKPOINT: The elapsed time of channel n's envelope reaches a breakpoint (R115). -/
  | envelopeBreakpoint (n : Fin 48)
  /-- HS_CLR: HS.CMD.CLR of channel n (R140). -/
  | hsClr (n : Fin 48)
  /-- CLRR: HS.CMD.CLRR of channel n (R119). -/
  | clrr (n : Fin 48)
  /-- TEST_WINDOW_OPEN: A write of HS.WIN with KIND = 0b10 (R119). -/
  | testWindowOpen (n : Fin 48) (len : BitVec 16)
  /-- WINDOW_CLOSE: A write of HS.WIN with KIND = 0b00 (R122). -/
  | windowClose (n : Fin 48) (len : BitVec 16)
  /-- TEST_WINDOW_EXPIRY: The length of channel n's TEST window elapses (R122). -/
  | testWindowExpiry (n : Fin 48)
  /-- TRIP: The unit of channel n has carried `i` mA, above its effective limit, for 200 ticks of an on-phase (R133). -/
  | trip (n : Fin 48) (i : Int)
  /-- RETRY_INTERVAL_END: Channel n's retry interval ends (R120). -/
  | retryIntervalEnd (n : Fin 48)
  /-- CEIL_TRIP: Channel n's current reaches `i` mA at its ceiling comparator (R134). -/
  | ceilTrip (n : Fin 48) (i : Int)
  /-- REVERSE_CURRENT: A current of `i` mA has flowed from the output into VBAT for 1 000 ticks of an on-phase (R137). -/
  | reverseCurrent (n : Fin 48) (i : Int)
  /-- STUCK_ON: A current of `i` mA has flowed for 10 000 ticks while the gates are commanded off (R138). -/
  | stuckOn (n : Fin 48) (i : Int)
  /-- SENSE_CONVERSION: A sense converter produces a new code (R142, R170, R192). -/
  | senseConversion (u : SenseUnit)
  /-- OFF_STATE_DIAGNOSIS: One off-state diagnosis cycle of channel n ends, with VBAT and the two samples in mV (R145). -/
  | offStateDiagnosis (n : Fin 48) (vbat : Int) (va : Int) (vb : Int)
  /-- OFF_PHASE_SHORT_SAMPLE: V_a is sampled in a PWM off-phase of which `left` more ticks remain before anything from outside ends
  it, the pattern itself apart (R147). -/
  | offPhaseShortSample (n : Fin 48) (vbat : Int) (va : Int) (left : Nat)
  /-- CROSS_TEST_EDGE: An edge of switch `a` counts for the cross-test of channel b (R148). -/
  | crossTestEdge (b : Fin 48) (a : XSwitch) (rising : Bool)
  /-- BUDGET_EXCEEDED: The bank's channel currents, in mA, have summed above its budget for 50 ticks (R149). -/
  | budgetExceeded (b : Fin 6) (i : Vector Int 8)
  /-- UNDERVOLTAGE_ENTRY: VBAT below 4.5 V for 1 000 ticks (R151). -/
  | undervoltageEntry (die : Die)
  /-- UNDERVOLTAGE_EXIT: VBAT above 5.0 V for 10 000 ticks (R151). -/
  | undervoltageExit (die : Die)
  /-- LOAD_DUMP_ENTRY: VBAT above 36.5 V for 200 ticks (R151). -/
  | loadDumpEntry (die : Die)
  /-- LOAD_DUMP_EXIT: VBAT below 34.0 V for 10 000 ticks (R151). -/
  | loadDumpExit (die : Die)
  /-- GROUND_LOSS: The die's ground rises more than 2.0 V above vehicle ground (R151). -/
  | groundLoss (die : Die)
  /-- GROUND_RESTORED: The die's ground is restored for 100 000 ticks (R151). -/
  | groundRestored (die : Die)
  /-- JUNCTION_SHUTDOWN: An output's hot spot reaches its shutdown threshold (R151). -/
  | junctionShutdown (o : HotSpot)
  /-- JUNCTION_SHUTDOWN_EXIT: A shut-down output's hot spot falls 15 K below its threshold (R151). -/
  | junctionShutdownExit (o : HotSpot)
  /-- REVERSE_BATTERY: VBAT falls below GND (R153). -/
  | reverseBattery
  /-- REVERSE_BATTERY_END: VBAT rises above GND (R153). -/
  | reverseBatteryEnd
  /-- RETOUCH: The tests of R154 find segment `seg` of channel n failing (R155). -/
  | retouch (n : Fin 48) (seg : Fin 8) (why : SegFinding)
  /-- REPAIR_MAP_APPEND: The oldest waiting repair is written to its map in data flash (R155, R344). -/
  | repairMapAppend
  /-- BRIDGE_COAST: A write of BRIDGE.OUTk with CMD = COAST (R163). -/
  | bridgeCoast (k : Fin 14) (tgten : Bool)
  /-- BRIDGE_BRAKE: A write of BRIDGE.OUTk with CMD = BRAKE (R163). -/
  | bridgeBrake (k : Fin 14) (tgten : Bool)
  /-- BRIDGE_FWD: A write of BRIDGE.OUTk with CMD = FWD (R163). -/
  | bridgeFwd (k : Fin 14) (tgten : Bool)
  /-- BRIDGE_REV: A write of BRIDGE.OUTk with CMD = REV (R163). -/
  | bridgeRev (k : Fin 14) (tgten : Bool)
  /-- BRIDGE_PARK: A write of BRIDGE.OUTk with CMD = PARK (R176). -/
  | bridgePark (k : Fin 14) (tgten : Bool)
  /-- START_ALLOWANCE_END: The start allowance of bridge k ends (R165). -/
  | startAllowanceEnd (k : Fin 14)
  /-- SHARED_LEG_START: The leg that held bridge k in COAST has become free (R166). -/
  | sharedLegStart (k : Fin 14)
  /-- BRIDGE_TRIP: Leg A of bridge k has carried `i` mA, above the effective limit, for 200 ticks (R167). -/
  | bridgeTrip (k : Fin 14) (i : Int)
  /-- LEG_CEIL: A switch of leg l reaches `i` mA at its ceiling comparator (R168). -/
  | legCeil (l : Fin 28) (i : Nat)
  /-- BRIDGE_CLR: BRIDGE.CMDk.CLR (R169). -/
  | bridgeClr (k : Fin 14)
  /-- BRIDGE_OFF_STATE_DIAGNOSIS: One off-state diagnosis cycle of bridge k ends, with the sampled voltages in mV (R172). -/
  | bridgeOffStateDiagnosis (k : Fin 14) (vbat : Int) (va : Int) (vb : Int)
  /-- STALL_TIMEOUT: STALLT ms of drive pass without an accepted ripple (R173). -/
  | stallTimeout (k : Fin 14)
  /-- POS_WRITE: A write of BRIDGE.POSk (R173). -/
  | posWrite (k : Fin 14) (v : BitVec 32)
  /-- PARK_INPUT_CHANGE: The park input of bridge k changes (R176). -/
  | parkInputChange (k : Fin 14)
  /-- PARK_RUN_TIMEOUT: PARKT ms of a park run pass (R176). -/
  | parkRunTimeout (k : Fin 14)
  /-- TRIG: VL.CMD.TRIG of valve n (R184). -/
  | trig (n : Fin 8)
  /-- PEAK_END: Valve n's current reaches `i` mA, its IPK, in PEAK (R182). -/
  | peakEnd (n : Fin 8) (i : Nat)
  /-- PKHOLD_END: TPH us of PKHOLD have passed (R182). -/
  | pkholdEnd (n : Fin 8)
  /-- END_OF_HOLD: The end of hold of a pulse-mode valve (R185). -/
  | endOfHold (n : Fin 8)
  /-- DECAY_END: Valve n's current has fallen to `i` mA in DECAY (R182). -/
  | decayEnd (n : Fin 8) (i : Nat)
  /-- MOWAIT_END: The minimum off-time of valve n has passed (R185). -/
  | mowaitEnd (n : Fin 8)
  /-- SIDE_CHANGEOVER_END: The dead time of a side's change of switch ends (R182). -/
  | sideChangeoverEnd (b : Fin 2)
  /-- VALVE_OPEN: 20 us after the peak began valve n carries `i` mA (R189). -/
  | valveOpen (n : Fin 8) (i : Nat)
  /-- VALVE_SHORT: Valve n reaches `i` mA within 2 us of the peak's start (R189). -/
  | valveShort (n : Fin 8) (i : Nat)
  /-- PKTIME: PEAK has lasted TPKMAX us (R189). -/
  | pktime (n : Fin 8)
  /-- VALVE_CEIL: Valve n reaches `i` mA at its ceiling comparator (R189). -/
  | valveCeil (n : Fin 8) (i : Nat)
  /-- VL_CLR: VL.CMD.CLR (R189). -/
  | vlClr (n : Fin 8)
  /-- SIDE_LATCH: A side's switches reach `i` mA at their ceiling comparator (R190). -/
  | sideLatch (b : Fin 2) (i : Nat)
  /-- CLRA: VSIDE.CMD.CLRA (R190). -/
  | clra
  /-- CLRB: VSIDE.CMD.CLRB (R190). -/
  | clrb
  /-- BCLR: VSIDE.CMD.BCLR (R186). -/
  | bclr
  /-- BOOST_READY: The store reaches `v` mV, its ready voltage (R186). -/
  | boostReady (v : Nat)
  /-- BOOST_READY_LOST: The store falls to `v` mV, below its ready voltage (R186). -/
  | boostReadyLost (v : Nat)
  /-- BOVP: The store has stood at `v` mV, more than 5 V above VSET, for 10 us (R186). -/
  | bovp (v : Nat)
  /-- BUVTO: 20 ms of CHARGE have passed without READY (R186). -/
  | buvto
  /-- SIDE_LIMP_TIMEOUT: 2 ms have passed since safe state was entered (R191). -/
  | sideLimpTimeout (b : Fin 2)
  /-- MATRIX_SLOT_START: A matrix slot starts: the rows that read above VBAT - 2.0 V in its guard, and the columns in dropout in the slot that ends (R202, R212). -/
  | matrixSlotStart (high : BitVec 16) (drop : BitVec 16)
  /-- SWAP: A write of CV.SWAP with CANCEL = 0 (R199). -/
  | swap (src : Fin 4)
  /-- CANCEL_SWAP: A write of CV.SWAP with CANCEL = 1 (R200). -/
  | cancelSwap
  /-- SWAP_TRIGGER: The tick CV.T or an LSYNC edge arrives (R199). -/
  | swapTrigger (src : SwapEdge)
  /-- PXC_FRAME_START: A pixel-chain frame starts (R205). -/
  | pxcFrameStart
  /-- PXC_LATCH: The latch pulse ends, with the bits sampled on PXC_DI, the first of them most significant (R205, R206). -/
  | pxcLatch (di : Nat)
  /-- DERATING_READING: The temperature sensor beside the sinks reads `t`, in 0.1 degrees C (R204). -/
  | deratingReading (t : Int)
  /-- AMBIENT_LOOP_ITERATION: INTV ms have passed for a closed-loop group (R209). -/
  | ambientLoopIteration (g : Fin 4)
  /-- SENSOR_READ_COMPLETE: The transaction of group g ends with its counts R, G, B, or fails (R210). -/
  | sensorReadComplete (g : Fin 4) (r : SensorEnd)
  /-- MX_CLR: MX.CMD.CLR (R212). -/
  | mxClr
  /-- AMB_CLR: AMB.CMD.CLR of group g (R212). -/
  | ambClr (g : Fin 4)
  /-- SHROWG: Row r reaches `i` mA at its analog ceiling (R212). -/
  | shrowg (r : Fin 16) (i : Nat)
  /-- SI_SAMPLE: Input n is sampled at `v` mV with VBAT in mV; `fail`: the converter fails its reference check (R216-R218). -/
  | siSample (n : Fin 64) (v : Int) (vbat : Int) (fail : Bool)
  /-- WETTING_HOLD_END: 20 ms after a change to closed with HOLD = 1 (R215). -/
  | wettingHoldEnd (n : Fin 64)
  /-- PARK_SAMPLE: A parking input is sampled in PARK (R220). -/
  | parkSample (n : Fin 64) (v : Int) (vbat : Int)
  /-- IO_INPUT_SAMPLE: Channel n is sampled or pulsed at `v` mV (R223). -/
  | ioInputSample (n : Fin 16) (v : Int)
  /-- IO_CLR: IO.CMD.CLR (R225). -/
  | ioClr (n : Fin 16)
  /-- READBACK_MISMATCH: The readback has differed from the command for 1 ms (R225). -/
  | readbackMismatch (n : Fin 16)
  /-- IO_CURRENT_LIMIT: The output current has stood at its limit for 1 ms (R225). -/
  | ioCurrentLimit (n : Fin 16)
  /-- IO_TSD: A junction shutdown of the output stage (R225). -/
  | ioTsd (n : Fin 16)
  /-- FIELD_SUPPLY_CHANGE: VF24 - GF24 has stood at `v` mV for the time its row asks for (R226). -/
  | fieldSupplyChange (v : Int)
  /-- LANE_LOSS: The isolator lane of channel n is lost (R224, R227). -/
  | laneLoss (n : Fin 16)
  /-- FIELD_COMMAND_TIMEOUT: 20 us without a command from the PWR island at channel n (R224). -/
  | fieldCommandTimeout (n : Fin 16)
  /-- CLAUSE_TRIGGER: An RX cycle observes signal `subj`: the present value of a level signal, an occurrence of a pulse, a current of `i` mA (R231, R232). -/
  | clauseTrigger (subj : BitVec 11) (i : Int)
  /-- CLAUSE_DURATION_END: The end tick of a TIMED clause (R235). -/
  | clauseDurationEnd (c : Fin 512)
  /-- RELEASE: RXC.CMD RELEASE (R243). -/
  | release (c : Fin 512)
  /-- FIRE: RXC.CMD FIRE (R243). -/
  | fire (c : Fin 512)
  /-- CLAUSE_BROKEN: The check word of clause c fails (R248). -/
  | clauseBroken (c : Fin 512)
  /-- LANE_PARITY_ERROR: A parity error on the lane of object index x (R248, R251). -/
  | laneParityError (x : Fin 70)
  /-- LINK_REFRESH: The refresh of link slot t is due (R244). -/
  | linkRefresh (t : Fin 64)
  /-- REFLEX_FRAME_RECEIVED: A reflex frame for slot t arrives on a trunk port (R245, R410). -/
  | reflexFrameReceived (p : Fin 2) (t : Fin 64) (v : Bool) (src : BitVec 32) (seq : BitVec 16) (hop : BitVec 16)
  /-- LINK_SLOT_TIMEOUT: LTMO us without a frame for slot t (R245). -/
  | linkSlotTimeout (t : Fin 64)
  /-- ADD: ALU ADD writes ra + rb and sets V on signed overflow (R282). -/
  | add (lc : Fin 16) (gs : Bool) (gp : Fin 8) (rd : Fin 32) (ra : Fin 32) (rb : Fin 32)
  /-- SUB: ALU SUB writes ra − rb and sets V on signed overflow (R282). -/
  | sub (lc : Fin 16) (gs : Bool) (gp : Fin 8) (rd : Fin 32) (ra : Fin 32) (rb : Fin 32)
  /-- AND: ALU AND writes ra AND rb (R282). -/
  | andR (lc : Fin 16) (gs : Bool) (gp : Fin 8) (rd : Fin 32) (ra : Fin 32) (rb : Fin 32)
  /-- OR: ALU OR writes ra OR rb (R282). -/
  | orR (lc : Fin 16) (gs : Bool) (gp : Fin 8) (rd : Fin 32) (ra : Fin 32) (rb : Fin 32)
  /-- XOR: ALU XOR writes ra XOR rb (R282). -/
  | xorR (lc : Fin 16) (gs : Bool) (gp : Fin 8) (rd : Fin 32) (ra : Fin 32) (rb : Fin 32)
  /-- ANDN: ALU ANDN writes ra AND NOT rb (R282). -/
  | andn (lc : Fin 16) (gs : Bool) (gp : Fin 8) (rd : Fin 32) (ra : Fin 32) (rb : Fin 32)
  /-- NEG: ALU NEG writes 0 − ra and sets V for 0x8000_0000 (R282). -/
  | neg (lc : Fin 16) (gs : Bool) (gp : Fin 8) (rd : Fin 32) (ra : Fin 32)
  /-- SHL: ALU SHL shifts ra left by an unmasked amount (R283). -/
  | shl (lc : Fin 16) (gs : Bool) (gp : Fin 8) (rd : Fin 32) (ra : Fin 32) (rb : Fin 32)
  /-- SHR: ALU SHR shifts ra right with zero fill (R283). -/
  | shr (lc : Fin 16) (gs : Bool) (gp : Fin 8) (rd : Fin 32) (ra : Fin 32) (rb : Fin 32)
  /-- SAR: ALU SAR shifts ra right with sign fill (R283). -/
  | sar (lc : Fin 16) (gs : Bool) (gp : Fin 8) (rd : Fin 32) (ra : Fin 32) (rb : Fin 32)
  /-- ROL: ALU ROL rotates ra left by s mod 32 (R283). -/
  | rol (lc : Fin 16) (gs : Bool) (gp : Fin 8) (rd : Fin 32) (ra : Fin 32) (rb : Fin 32)
  /-- ROR: ALU ROR rotates ra right by s mod 32 (R283). -/
  | ror (lc : Fin 16) (gs : Bool) (gp : Fin 8) (rd : Fin 32) (ra : Fin 32) (rb : Fin 32)
  /-- MUL: ALU MUL writes the low 32 bits of the signed product and sets V when it does not fit (R282). -/
  | mul (lc : Fin 16) (gs : Bool) (gp : Fin 8) (rd : Fin 32) (ra : Fin 32) (rb : Fin 32)
  /-- MULH: ALU MULH writes the high 32 bits of the signed product (R282). -/
  | mulh (lc : Fin 16) (gs : Bool) (gp : Fin 8) (rd : Fin 32) (ra : Fin 32) (rb : Fin 32)
  /-- MULHU: ALU MULHU writes the high 32 bits of the unsigned product (R282). -/
  | mulhu (lc : Fin 16) (gs : Bool) (gp : Fin 8) (rd : Fin 32) (ra : Fin 32) (rb : Fin 32)
  /-- DIV: ALU DIV writes the signed quotient with its edge cases and possible DIVZ trap (R284). -/
  | div (lc : Fin 16) (gs : Bool) (gp : Fin 8) (rd : Fin 32) (ra : Fin 32) (rb : Fin 32)
  /-- DIVU: ALU DIVU writes the unsigned quotient with its edge cases (R284). -/
  | divu (lc : Fin 16) (gs : Bool) (gp : Fin 8) (rd : Fin 32) (ra : Fin 32) (rb : Fin 32)
  /-- REM: ALU REM writes the signed remainder with its edge cases (R284). -/
  | rem (lc : Fin 16) (gs : Bool) (gp : Fin 8) (rd : Fin 32) (ra : Fin 32) (rb : Fin 32)
  /-- REMU: ALU REMU writes the unsigned remainder with its edge cases (R284). -/
  | remu (lc : Fin 16) (gs : Bool) (gp : Fin 8) (rd : Fin 32) (ra : Fin 32) (rb : Fin 32)
  /-- MIN: ALU MIN writes the signed minimum (R282). -/
  | minS (lc : Fin 16) (gs : Bool) (gp : Fin 8) (rd : Fin 32) (ra : Fin 32) (rb : Fin 32)
  /-- MAX: ALU MAX writes the signed maximum (R282). -/
  | maxS (lc : Fin 16) (gs : Bool) (gp : Fin 8) (rd : Fin 32) (ra : Fin 32) (rb : Fin 32)
  /-- MINU: ALU MINU writes the unsigned minimum (R282). -/
  | minu (lc : Fin 16) (gs : Bool) (gp : Fin 8) (rd : Fin 32) (ra : Fin 32) (rb : Fin 32)
  /-- MAXU: ALU MAXU writes the unsigned maximum (R282). -/
  | maxu (lc : Fin 16) (gs : Bool) (gp : Fin 8) (rd : Fin 32) (ra : Fin 32) (rb : Fin 32)
  /-- CLZ: ALU CLZ writes the number of leading zeros of ra (R282). -/
  | clz (lc : Fin 16) (gs : Bool) (gp : Fin 8) (rd : Fin 32) (ra : Fin 32)
  /-- POPC: ALU POPC writes the number of 1 bits of ra (R282). -/
  | popc (lc : Fin 16) (gs : Bool) (gp : Fin 8) (rd : Fin 32) (ra : Fin 32)
  /-- ADDI: ADDI adds a signed immediate and sets V as ADD does (R285). -/
  | addi (lc : Fin 16) (gs : Bool) (gp : Fin 8) (rd : Fin 32) (ra : Fin 32) (imm : BitVec 12)
  /-- ANDI: ANDI ANDs a zero-extended immediate (R285). -/
  | andi (lc : Fin 16) (gs : Bool) (gp : Fin 8) (rd : Fin 32) (ra : Fin 32) (imm : BitVec 12)
  /-- ORI: ORI ORs a zero-extended immediate (R285). -/
  | ori (lc : Fin 16) (gs : Bool) (gp : Fin 8) (rd : Fin 32) (ra : Fin 32) (imm : BitVec 12)
  /-- XORI: XORI XORs a zero-extended immediate (R285). -/
  | xori (lc : Fin 16) (gs : Bool) (gp : Fin 8) (rd : Fin 32) (ra : Fin 32) (imm : BitVec 12)
  /-- SHI: SHI shifts or rotates ra by an immediate amount (R283). -/
  | shi (lc : Fin 16) (gs : Bool) (gp : Fin 8) (rd : Fin 32) (ra : Fin 32) (op : Fin 5) (sh : BitVec 8)
  /-- MOVW: MOVW loads a 16-bit immediate into the low or high half of rd (R285). -/
  | movw (lc : Fin 16) (gs : Bool) (gp : Fin 8) (rd : Fin 32) (h : Bool) (imm : BitVec 16)
  /-- CMP: CMP writes a predicate from a condition on two registers (R286). -/
  | cmp (lc : Fin 16) (gs : Bool) (gp : Fin 8) (pd : Fin 8) (cond : Fin 14) (ra : Fin 32) (rb : Fin 32)
  /-- CMPI: CMPI writes a predicate from a condition on a register and an immediate (R286). -/
  | cmpi (lc : Fin 16) (gs : Bool) (gp : Fin 8) (pd : Fin 8) (cond : Fin 14) (ra : Fin 32) (imm : BitVec 10)
  /-- PRED: PRED writes a predicate from a logical operation on two predicates (R287). -/
  | pred (lc : Fin 16) (gs : Bool) (gp : Fin 8) (pd : Fin 8) (pa : Fin 8) (pb : Fin 8) (op : Fin 7)
  /-- SEL: SEL writes ra or rb into rd by a predicate (R287). -/
  | sel (lc : Fin 16) (gs : Bool) (gp : Fin 8) (rd : Fin 32) (ra : Fin 32) (rb : Fin 32) (ps : Fin 8)
  /-- LD: LD issues a non-blocking load of the selected width, holding an operation slot (R288). -/
  | ld (lc : Fin 16) (gs : Bool) (gp : Fin 8) (r : Fin 32) (ra : Fin 32) (w : Fin 5) (off : BitVec 9) (nsym : Nat)
  /-- ST: ST issues a store of the selected width, released after comparison (R288). -/
  | st (lc : Fin 16) (gs : Bool) (gp : Fin 8) (r : Fin 32) (ra : Fin 32) (w : Fin 3) (off : BitVec 9)
  /-- BR: BR transfers control by a PC-relative offset (R289). -/
  | br (lc : Fin 16) (gs : Bool) (gp : Fin 8) (off : BitVec 22)
  /-- CALL: CALL transfers control and writes the return address into g31 (R289). -/
  | call (lc : Fin 16) (gs : Bool) (gp : Fin 8) (off : BitVec 22)
  /-- JMP: JMP transfers to ra plus an immediate and writes the link into rd (R289). -/
  | jmp (lc : Fin 16) (gs : Bool) (gp : Fin 8) (rd : Fin 32) (ra : Fin 32) (imm : BitVec 12)
  /-- WAIT_EV: WAIT.EV consumes a pending event or parks the context until the event or a deadline (R297). -/
  | waitEv (lc : Fin 16) (gs : Bool) (gp : Fin 8) (pd : Fin 8) (rt : Option (Fin 32)) (n : EvSrc)
  /-- WAIT_T: WAIT.T parks the context until TB reaches its deadline (R298). -/
  | waitT (lc : Fin 16) (gs : Bool) (gp : Fin 8) (rt : Fin 32)
  /-- SEND_EV: SEND.EV posts a software event after earlier stores, or traps for numbers 0–255 (R296). -/
  | sendEv (lc : Fin 16) (gs : Bool) (gp : Fin 8) (n : EvSrc)
  /-- RPT: RPT repeats the following string instruction element by element, resumable at each boundary (R301). -/
  | rpt (lc : Fin 16) (gs : Bool) (gp : Fin 8) (w : Word) (n : Nat) (nsym : Nat)
  /-- MOVS: MOVS copies one element and advances rd, rs and rc (R300). -/
  | movs (lc : Fin 16) (gs : Bool) (gp : Fin 8) (rd : Fin 32) (rs : Fin 32) (rc : Fin 32) (sz : Fin 3) (nsym : Nat)
  /-- FILLS: FILLS stores one fill element and advances rd and rc (R300). -/
  | fills (lc : Fin 16) (gs : Bool) (gp : Fin 8) (rd : Fin 32) (rs : Fin 32) (rc : Fin 32) (sz : Fin 3)
  /-- CMPS: CMPS compares one element pair and stops on a difference (R300). -/
  | cmps (lc : Fin 16) (gs : Bool) (gp : Fin 8) (rd : Fin 32) (rs : Fin 32) (rc : Fin 32) (sz : Fin 3) (pd : Fin 8) (nsym : Nat)
  /-- SCANS: SCANS compares one element with a value and stops on a match (R300). -/
  | scans (lc : Fin 16) (gs : Bool) (gp : Fin 8) (rd : Fin 32) (rs : Fin 32) (rc : Fin 32) (sz : Fin 3) (pd : Fin 8) (nsym : Nat)
  /-- CRCS: CRCS folds one byte into the CRC accumulator (R302). -/
  | crcs (lc : Fin 16) (gs : Bool) (gp : Fin 8) (rd : Fin 32) (rs : Fin 32) (rc : Fin 32) (sz : Fin 3) (nsym : Nat)
  /-- FENCE: FENCE completes when every earlier load and store of the context is performed (R294). -/
  | fence (lc : Fin 16) (gs : Bool) (gp : Fin 8)
  /-- RTT: RTT leaves TMODE and resumes at CTPC (R290). -/
  | rtt (lc : Fin 16) (gs : Bool) (gp : Fin 8)
  /-- RTT_N: RTT.N leaves TMODE and resumes at CTPC + 4 (R290). -/
  | rttN (lc : Fin 16) (gs : Bool) (gp : Fin 8)
  /-- RTN: RTN leaves NMODE, resumes at CNPC and takes a held NMT (R290). -/
  | rtn (lc : Fin 16) (gs : Bool) (gp : Fin 8)
  /-- TRAP: TRAP raises a software trap with its code as detail (R290). -/
  | trap (lc : Fin 16) (gs : Bool) (gp : Fin 8) (code : BitVec 16)
  /-- RDTB: RDTB writes the observed TB tick into a register pair (R290). -/
  | rdtb (lc : Fin 16) (gs : Bool) (gp : Fin 8) (rt : Fin 32)
  /-- MFS: MFS reads a system register into rd (R291). -/
  | mfs (lc : Fin 16) (gs : Bool) (gp : Fin 8) (rd : Fin 32) (sr : Fin 32)
  /-- MTS: MTS writes ra into an RW system register (R291). -/
  | mts (lc : Fin 16) (gs : Bool) (gp : Fin 8) (ra : Fin 32) (sr : Fin 32)
  /-- NOP: The NOP hint has no effect (R278). -/
  | nop (lc : Fin 16)
  /-- YIELD: The YIELD hint gives the core to a ready context of equal priority (R278). -/
  | yield (lc : Fin 16)
  /-- ILLEGAL_INSTRUCTION: An illegal word takes the illegal-instruction trap whatever its guard (R279). -/
  | illegalInstruction (lc : Fin 16) (w : Word)
  /-- ACCESS_COMPLETE: Operation `a` is performed and completes, or the fetch that a context waits for, `nsym` symbols of its protected word in error, or 38 + n for a pattern that the decoder takes for n (R263, R292, R335). -/
  | accessComplete (a : AccRef) (nsym : Nat)
  /-- POISON_USE: The context that issues on lc uses register `r`, which holds a value from an uncorrectable word (R303). -/
  | poisonUse (lc : Fin 16) (r : Fin 32)
  /-- EVENT_POSTING_ARRIVAL: A posting on its way reaches core lc (R266). -/
  | eventPostingArrival (lc : Fin 16) (ev : BitVec 10)
  /-- WAIT_DEADLINE: The deadline tick of a waiting context is observed (R297, R298). -/
  | waitDeadline (lc : Fin 16) (i : Fin 32)
  /-- START: LCM.CCMD START on the context LCM.CSEL selects (R270). -/
  | start (w : Writer)
  /-- HALT: LCM.CCMD HALT on the context LCM.CSEL selects (R270). -/
  | halt (w : Writer)
  /-- DRAIN_COMPLETE: The last slot of a draining context frees (R270). -/
  | drainComplete (lc : Fin 16) (i : Fin 32)
  /-- RESUME: LCM.CCMD RESUME on the context LCM.CSEL selects (R270). -/
  | resume (w : Writer)
  /-- NMT_ARRIVAL: A non-maskable trap on its way reaches core lc (R269). -/
  | nmtArrival (lc : Fin 16)
  /-- MISMATCH: The copies of pair p differ; its youngest `drop` requests in flight are unreleased, and the commits of the contexts in `undo` are younger than 2 cycles (R310, R312). -/
  | mismatch (p : Fin 10) (drop : Nat) (undo : BitVec 32)
  /-- INVALID_COMPARATOR_CODE: The comparator of pair p gives an invalid code (R311); the operands as for a mismatch. -/
  | invalidComparatorCode (p : Fin 10) (drop : Nat) (undo : BitVec 32)
  /-- TAKEOVER_COMPLETE: The takeover in progress reaches step 6; the context-store entries of `badCtx`, with their offsets, and the journal entries of `badEnt`, by their numbers, with theirs, prove uncorrectable (R321, R346). -/
  | takeoverComplete (badCtx : List (BitVec 9 × BitVec 17)) (badEnt : List (Nat × BitVec 17))
  /-- SELF_TEST_END: The self-test of a pair in TEST ends after `ms` ms (R323). -/
  | selfTestEnd (p : Fin 10) (pass : Bool) (ms : BitVec 16)
  /-- SPARE_SELF_TEST: The periodic self-test of a SPARE pair ends after `ms` ms (R324). -/
  | spareSelfTest (p : Fin 10) (pass : Bool) (ms : BitVec 16)
  /-- DEBUG_HALT: The debugger halts a logical core (R330). -/
  | debugHalt (lc : Fin 16)
  /-- DEBUG_WRITE: The debugger writes while core lc is halted (R331). -/
  | debugWrite (lc : Fin 16) (t : DbgTarget) (d : Word)
  /-- DEBUG_RESUME: The debugger resumes a logical core (R332). -/
  | debugResume (lc : Fin 16)
  /-- SCRUB_PERIOD_START: A scrub period starts (R340). -/
  | scrubPeriodStart
  /-- SCRUB_READ: The scrubber reads the next word of its pass, `nsym` symbols in error, or 38 + n for a pattern that the decoder takes for n; `owner` names the context whose context-store entry the word belongs to (R340, R346). -/
  | scrubRead (nsym : Nat) (owner : Option (BitVec 9))
  /-- ROW_REMAP: The pending row of an idle macro is copied to a spare; `ok` says that a flash spare verifies (R342). -/
  | rowRemap (m : Fin 60) (row : Nat) (ok : Bool)
  /-- ZERO: MEMC.CMD ZERO (R347). -/
  | zero (w : Writer)
  /-- PROG: FL.CMD PROG (R349). -/
  | prog (w : Writer)
  /-- ERASE: FL.CMD ERASE (R349). -/
  | erase (w : Writer)
  /-- FLASH_COMMAND_END: The flash command in progress ends; `ok` says that it verifies (R349). -/
  | flashCommandEnd (ok : Bool)
  /-- SOURCE_RAISE: The causes of these sources arrive in one KA cycle (R357, R362). -/
  | sourceRaise (l : List (BitVec 8))
  /-- DIE_TEMP_MEASURE: The controller-die temperature is measured, in tenths of a degree Celsius (R359). -/
  | dieTempMeasure (t : Int)
  /-- RAISED_CLEAR: A write of FLT.RAISEDj (R362). -/
  | raisedClear (j : Fin 8) (d : Word)
  /-- SAFEN_LOW: The filtered SAFEN level changes to low (R368). -/
  | safenLow
  /-- LEAVE: FLT.CMD LEAVE (R370). -/
  | leave
  /-- ARUN: FLT.CMD ARUN (R367). -/
  | arun
  /-- ENTER: FLT.CMD ENTER (R369). -/
  | enter
  /-- TKPAIR: FLT.CMD TKPAIR (R374). -/
  | tkpair (arg : Byte)
  /-- TKCORE: FLT.CMD TKCORE (R374). -/
  | tkcore (arg : Byte)
  /-- LOGCLR: FLT.CMD LOGCLR (R371). -/
  | logclr
  /-- SELF_CHECK_DISCREPANCY: Word w is found to differ from its complement; `flip` are the bits of the value that were upset (R373). -/
  | selfCheckDiscrepancy (w : Fin 257) (flip : Word)
  /-- GO: CAN.CMD GO (R380). -/
  | canGo (c : Fin 8)
  /-- STOP: CAN.CMD STOP (R380). -/
  | canStop (c : Fin 8)
  /-- AUTOBAUD: CAN.CMD AUTOBAUD (R394). -/
  | autobaud (c : Fin 8)
  /-- AUTOBAUD_CANDIDATE_END: The candidate in trial passes (`pass`), or ends by an error or its timeout (R394). -/
  | autobaudCandidateEnd (c : Fin 8) (pass : Bool)
  /-- RECOVER: CAN.CMD RECOVER (R388). -/
  | recover (c : Fin 8)
  /-- BUS_OFF_RECOVERY_START: BODLY ms have passed since the entry to BUSOFF (R388). -/
  | busOffRecoveryStart (c : Fin 8)
  /-- BUS_OFF_RECOVERY_COMPLETE: 128 occurrences of 11 recessive bits since the recovery began (R388). -/
  | busOffRecoveryComplete (c : Fin 8)
  /-- BUS_INTEGRATION: 11 consecutive recessive bits (R380). -/
  | busIntegration (c : Fin 8)
  /-- REQ: A write of TXSt.CTRL with REQ (R383). -/
  | req (c : Fin 8) (t : Fin 16)
  /-- CANCEL: A write of TXSt.CTRL with CANCEL (R386). -/
  | canCancel (c : Fin 8) (t : Fin 16)
  /-- SELECTION_POINT: A selection point (R384). -/
  | selectionPoint (c : Fin 8)
  /-- CAN_ATTEMPT_END: The attempt of the ACTIVE slot ends; its SOF lay at tick `sof` (R385). -/
  | canAttemptEnd (c : Fin 8) (r : CanEnd) (sof : Nat)
  /-- CAN_FRAME_RECEIVED: A frame of another node: its SOF or its arbitration field has passed, or it has become valid, or it has ended in an error, as `at_` says (R390). -/
  | canFrameReceived (c : Fin 8) (f : CanFrame) (sof : Nat) (at_ : CanRx)
  /-- PROTOCOL_EXCEPTION: A frame of a disabled format (R377). -/
  | protocolException (c : Fin 8)
  /-- CAN_ERROR: An error as transmitter or receiver; `dom`: what the bus shows with it (R387). -/
  | canError (c : Fin 8) (code : Fin 7) (dph : Bool) (tx : Bool) (dom : CanFlag)
  /-- TXDTO: A transmitter has driven dominant for its limit (R395, R404). -/
  | txdto (b : Trx)
  /-- BUSDOM: The bus has read dominant for 1.1 ms (R395). -/
  | busdom (c : Fin 8)
  /-- TRANSCEIVER_OVERTEMPERATURE: A transceiver's junction overtemperature, or its end (R395, R404). -/
  | transceiverOvertemperature (b : TrxHeat)
  /-- LIN_GO: LIN.CMD GO (R405). -/
  | linGo (l : Fin 6)
  /-- LIN_STOP: LIN.CMD STOP (R405). -/
  | linStop (l : Fin 6)
  /-- SLEEP: LIN.CMD SLEEP (R405). -/
  | linSleep (l : Fin 6)
  /-- WAKE: LIN.CMD WAKE (R405). -/
  | linWake (l : Fin 6)
  /-- LIN_SLOT_START: A slot of a master's schedule starts (R402). -/
  | linSlotStart (l : Fin 6)
  /-- LIN_HEADER_RECEIVED: A slave takes a header (R403). -/
  | linHeaderReceived (l : Fin 6) (h : LinHeader)
  /-- LIN_FRAME_END: The frame on the bus ends (R401). -/
  | linFrameEnd (l : Fin 6) (r : LinEnd)
  /-- LIN_RESPONSE_TIMEOUT: TFrame_max passes, with some response bytes or none (R404). -/
  | linResponseTimeout (l : Fin 6) (part : Bool)
  /-- ETH_FRAME_RECEIVED: A frame ends on port p; `fcs` says that its FCS is right, `drop` names the ports whose egress queue is full (R407). -/
  | ethFrameReceived (p : Fin 4) (f : EthRx) (fcs : Bool) (drop : BitVec 5)
  /-- HOST_TX_RECORD: The host port sends the record at TX GET (R408). -/
  | hostTxRecord (drop : BitVec 5)
  /-- ETH_LINK_CHANGE: The link of port p goes up or down (R406). -/
  | ethLinkChange (p : Fin 4) (up : Bool) (master : Bool) (sqi : Fin 8)
  /-- TOPO_SEND: TOPOI ms have passed (R412). -/
  | topoSend
  /-- TOPO_RECEIVED: A TOPO frame arrives on port p (R412). -/
  | topoReceived (p : Fin 4) (src : BitVec 32) (hop : Nat) (lat : Nat)
  /-- KEEP_AWAKE_PERIOD: KAPER ms have passed (R421). -/
  | keepAwakePeriod
  /-- VOTE_WRITE: A write of NM.VOTE (R421). -/
  | voteWrite (v : BitVec 16)
  /-- READY_SLEEP_TIMEOUT: RSTIME ms without a keep-awake frame (R421). -/
  | readySleepTimeout
  /-- SILENCE_TIMEOUT: SILENT ms without a frame (R421). -/
  | silenceTimeout
  /-- SLEEP_FRAME_END: A sleep frame ends on a sleep bus, received or the own one (R419, R421). -/
  | sleepFrameEnd (b : NetBus) (own : Bool)
  /-- FORCED_SLEEP_FRAME_END: A forced sleep frame ends on a sleep bus (R421, R425). -/
  | forcedSleepFrameEnd (b : NetBus) (own : Bool)
  /-- NM_CANCEL: NM.CMD CANCEL (R423). -/
  | nmCancel
  /-- WINDOW_BUS_WAKE: A bus wake inside the sleep window (R424). -/
  | windowBusWake (b : NetBus)
  /-- SLEEP_WINDOW_END: The sleep window ends (R421). -/
  | sleepWindowEnd
  /-- MAXIMUM_AWAKE_EXPIRY: MAXAW seconds have passed since the entry to AWAKE (R425). -/
  | maximumAwakeExpiry
  /-- WAKE_HOLD_END: WWIN ends without a valid frame (R426). -/
  | wakeHoldEnd
  /-- JOB_SUBMIT: A write of Qq.IDX.PUT (R436). -/
  | jobSubmit (w : Writer) (q : Fin 4) (put : BitVec 10)
  /-- JOB_START: The scheduler takes the descriptor at the head of queue q (R435). -/
  | jobStart (q : Fin 4)
  /-- AES_BLOCK_BOUNDARY: An AES block boundary: the running job's block ends, and the scheduler chooses; `ue` says that a slot or the context fields of the running job prove uncorrectable (R436, R446). -/
  | aesBlockBoundary (ue : Bool)
  /-- INVERSE_CHECK_MISMATCH: A block of the running job fails its inverse check (R439). -/
  | inverseCheckMismatch
  /-- SEGMENT_VERIFY: The VERIFY of the segment that queue q's job has ended (R441). -/
  | segmentVerify (q : Fin 4)
  /-- JOB_END: The job of queue q has done its last block and ends; an unsegmented decryption verifies and releases (R440). -/
  | jobEnd (q : Fin 4)
  /-- NONCE_PERSIST_COMPLETE: The nonce-area write for context c ends; `ok` says that the entry verifies (R444). -/
  | noncePersistComplete (c : BitVec 8) (ok : Bool)
  /-- SHA: PK.CMD SHA (R447). -/
  | sha (w : Writer)
  /-- VERIFY_SIGNATURE: PK.CMD VERIFY (R447). -/
  | verifySignature (w : Writer)
  /-- PK_COMMAND_END: The PK command in progress ends; `selfFail` says that the final point fails its check (R447). -/
  | pkCommandEnd (selfFail : Bool)
  /-- DEBUG_ACCESS_REQUEST: A JTAG request for access (R448). -/
  | debugAccessRequest
  /-- DEBUG_RESPONSE: The debugger returns its signature (r, s) (R448). -/
  | debugResponse (r : BitVec 256) (sg : BitVec 256)
  /-- DOZE: PMU.CMD DOZE (R454). -/
  | doze
  /-- RUN: PMU.CMD RUN (R454). -/
  | run
  /-- PARK_ENTRY: The PMU takes the request of NM's SLEEP, and its steps run (R455). -/
  | parkEntry
  /-- PARK_WAKE: A wake in PARK: by a bus, or by what the KA island has found; the RTC counts spent in PARK, and the level of SAFEN as evaluated (R44, R93, R456). -/
  | parkWake (bus : Option NetBus) (rtc : BitVec 48) (safen : Bool)
  /-- RTC_ALARM: The RTC count equals the alarm (R458). -/
  | rtcAlarm
  /-- POWER_ON_RESET: A power-on reset, with the straps it samples (R42, R43, R459). -/
  | powerOnReset (vlsel : Bool) (recov : Bool)
  /-- SUPPLY_FAULT: A monitored supply leaves its range (R452); a power-on reset that follows samples the straps. -/
  | supplyFault (u : SupplyLoss)
  /-- CHIP_RESET: RESETN low for 2 us: an external chip reset, with the strap it samples (R43, R459); in PARK a wake, with the
  counts of the RTC since the last command and SAFEN's level (R44, R93). -/
  | chipReset (p : ResetPins)
  /-- CHIPRST: RST.CMD CHIPRST (R459). -/
  | chiprst (key : Byte)
  /-- RECLAIMALL: RST.CMD RECLAIMALL (R463). -/
  | reclaimall
  /-- RECLAIM: A write of RST.RECLAIMj (R463). -/
  | reclaim (j : Fin 3) (d : Word)
  /-- HOLD_EXPIRY: The hold time ends (R464). -/
  | holdExpiry
  /-- BOOT: The boot runs to the image or to recovery mode (R466). -/
  | boot (b : BootIn)
  /-- OPEN: UPD.CMD OPEN, or an OPEN request in recovery mode (R481, R495). -/
  | updOpen (r : Option RomOpen)
  /-- PIECE: UPD.CMD PIECE, or a PIECE request in recovery mode with its channel, ETH1 or not, and its bytes (R483, R495). -/
  | piece (r : Option (Bool × List Byte))
  /-- PIECE_STORED: The held entry of the piece being stored verifies (R484). -/
  | pieceStored
  /-- VERIFY: UPD.CMD VERIFY, or a VERIFY request in recovery mode with its channel (R486, R495). -/
  | verify (r : Option Bool)
  /-- VERIFY_END: The checks of the image end (R486). -/
  | verifyEnd
  /-- ACTIVATE: UPD.CMD ACTIVATE, or an ACTIVATE request in recovery mode with its channel and trial boots (R488, R495). -/
  | activate (r : Option (Bool × Byte))
  /-- CONFIRM: UPD.CMD CONFIRM (R490). -/
  | confirm
  /-- ABANDON: UPD.CMD ABANDON (R481). -/
  | abandon
  /-- HELLO: A HELLO request in recovery mode (R495). -/
  | hello (eth : Bool)
  /-- RESET: A RESET request in recovery mode (R495). -/
  | reset (eth : Bool)
  /-- PWM_PERIOD_EDGE: A generator reaches the next tick at which it starts a period or ends its on-time (R98). -/
  | pwmPeriodEdge (o : PwmOut)
  /-- SAFEN_HIGH: The filtered SAFEN level changes to high (R368). -/
  | safenHigh
  /-- X32_CRYSTAL_FAILURE: The 32.768 kHz crystal fails (R458). -/
  | x32CrystalFailure
  /-- ALIVE_HALF_PERIOD: A half-period boundary of ALIVE (R367). -/
  | aliveHalfPeriod
  /-- SYNC_SEND: A Sync interval has passed (R409). -/
  | syncSend
  /-- SQI_LOW: The signal quality of port p has been below 3 for 1 s (R406). -/
  | sqiLow (p : Fin 4) (sqi : Fin 8)
  /-- PLCA_BEACON_MISSED: A non-coordinator has missed 3 beacons (R406). -/
  | plcaBeaconMissed
  /-- MAC_ADDRESS_AGEING: AGE s have passed since a learned address was seen (R407). -/
  | macAddressAgeing (mac : BitVec 48)
  deriving DecidableEq, Repr

end Sys2Proof
end

