-- ==== Sys2Proof/Machine/State.lean ====
section
/-! DEFINITION. The state of the block as plain data, the reasons it can stop, and the state after reset. -/

namespace Sys2Proof.Machine

/-- The reasons the machine stops: none. The spec stops the block on no command, so no meaning raises a fault. -/
inductive Fault where
  deriving DecidableEq, Repr

/-- The reasons a command has no meaning. -/
inductive Refusal where
  /-- Rejected by name: raised by the dispatch for a command without a meaning. Safe. -/
  | notModelled (mnemonic : String)
  deriving DecidableEq, Repr

/-- The power modes (R453). -/
inductive Power where
  | run | doze | park
  deriving DecidableEq, Repr

/-- An event on its way, with the logical cores it has not reached yet (R265) and the island that posted it, by its index:
what one island posts arrives at a core in the order posted (R18). -/
structure Posting where
  ev : Nat
  left : List Nat
  isl : Nat
  deriving DecidableEq, Repr

/-- A posting on its way to a capture unit that selected it: the unit, the event, the tick it was posted at, and the island that
posted it (R18, R96). -/
structure Capture where
  unit : Nat
  ev : Nat
  tick : Nat
  isl : Nat
  deriving DecidableEq, Repr

/-- An occurrence of a pulse signal on its way to the clause fabric: its subject code, the island it comes from, and its tick
(R18, R231). -/
structure Pulse where
  subj : Nat
  isl : Nat
  tick : Nat
  deriving DecidableEq, Repr

/-- What an own flooded Farern frame carries (R410): hop limit, source device ID, and the sequence number of its R-TAG. -/
structure FarHdr where
  hops : Nat
  src : Nat
  seq : Nat
  deriving DecidableEq, Repr

/-- What leaves the device. -/
inductive Out where
  /-- LSYNC driven high for 100 ticks (R201). -/
  | lsync
  /-- A transaction on the sensor port: address, register, and the ticks of a bit; nine clocks and a STOP (R210). -/
  | i2c (addr reg bit : Nat)
  | i2cUnjam
  /-- A pixel-chain frame of `n` bits, latched (R205). -/
  | pxc (n bits : Nat)
  /-- A CAN frame sent, acknowledged by another node (R385). -/
  | can (c : Nat) (f : CanFrame)
  /-- A LIN header with its PID, a response, and a wake pulse of `us` microseconds (R402, R405). -/
  | linHeader (l pid : Nat)
  | linResp (l : Nat) (data : List Byte)
  | linWake (l us : Nat)
  /-- An Ethernet frame at a port (R407, R408). -/
  | eth (port : Nat) (b : List Byte)
  /-- A Farern frame forwarded at a port, with its payload (R410, R412). -/
  | farFwd (port typ hop src seq : Nat) (pay : FarPay)
  /-- A reflex frame handed to a port (R244). -/
  | reflex (port slot : Nat) (v : Bool) (h : FarHdr)
  /-- The own TOPO frame at a link port, a Sync with its steps removed, and a Pdelay (R409, R410, R412). -/
  | topo (port : Nat) (h : FarHdr)
  | sync (port steps : Nat)
  | pdelay (port : Nat)
  /-- A debug challenge (R448). -/
  | challenge (b : List Byte)
  /-- The debugger's status FULL (R331). -/
  | dbgFull (lc : Nat)
  /-- A window request with its hop path in runs of egress code and count (R413). -/
  | pgreq (id : Nat) (path : List (Nat × Nat)) (write : Bool) (pg off data : Nat)
  /-- The answer to a linked device's access, with its sequence, PG_STAT.CODE and data (R410, R413). -/
  | pgrsp (seq code data initiator : Nat) (h : FarHdr)
  /-- A fix broadcast, and a participant's answer: 0 ARMED, 1 LATE, 2 NOTREADY (R410, R414). -/
  | fixb (tag t : Nat) (h : FarHdr)
  | fixa (tag res : Nat) (h : FarHdr)
  /-- A reply of recovery mode on CAN0 or ETH1 (R495). -/
  | romReply (eth : Bool) (b : List Byte)
  deriving DecidableEq, Repr

/-- A command of a PWM output as the chain gives it: off, or the pattern of R98 with period, phase and duty. -/
inductive OutCmd where
  | off
  | pwm (p ph d : Nat)
  deriving DecidableEq, Repr

/-- A PWM generator (R98, R99): the pattern that runs, and the one that takes over at a tick. -/
structure Gen where
  cur : OutCmd := .off
  nxt : Option (OutCmd × Nat) := none
  deriving DecidableEq, Repr

/-- The result of an off-state diagnosis cycle (R145, R172). -/
inductive DiagRes where
  | normal | shortV | shortG | openLoad
  deriving DecidableEq, Repr

/-- What a cross-test has counted for one watched switch (R148). -/
structure XEdge where
  sw : Nat
  rise : Nat
  fall : Nat
  /-- The tick of the edge counted last. -/
  last : Nat := 0
  deriving DecidableEq, Repr

/-- The state of one high-side channel beside its registers (R114, R119, R127, R136, R145-R148). -/
structure Hs where
  /-- The protection latch (R131). -/
  latch : Bool := false
  /-- End tick of the retry interval in progress (R120). -/
  retryEnd : Option Nat := none
  /-- The resulting command of the chain (R24). -/
  cmd : OutCmd := .off
  /-- The command kept by a limp value of "hold" (R127). -/
  limpCmd : OutCmd := .off
  /-- The held command of the output hold with the level it came from (R462). -/
  heldCmd : OutCmd := .off
  heldGov : Nat := 0
  gen : Gen := {}
  /-- The clause that governs the unit, if one does (R99, R240). -/
  govCl : Option Nat := none
  /-- Tick of the activation whose envelope time runs (R114). -/
  act : Option Nat := none
  /-- The breakpoints of the envelope that have been reported since that activation (R115). -/
  bpSeen : Nat := 0
  /-- A START window may still open (R119). -/
  fresh : Bool := true
  /-- Expiry tick of an open TEST window (R119). -/
  testEnd : Option Nat := none
  /-- Mean current of the last sense period in microamperes, 0 while reversed (R142). -/
  mean : Int := 0
  /-- The thermal model's X in square microamperes (R136). -/
  x : Rat := 0
  /-- Ticks below ION accumulated since the activation, and whether OLON stands confirmed (R146). -/
  olTicks : Nat := 0
  olConf : Bool := false
  /-- The tick at which the resulting command lost its on-time, and the start of the last off-state cycle since (R145). -/
  offFrom : Nat := 0
  cyc : Option Nat := none
  /-- The result of the last off-state cycle of this off period, and whether it stands confirmed (R145). -/
  offRes : Option DiagRes := none
  offConf : Bool := false
  /-- Off-phases so far, the last one sampled, and the last one whose sample lay above VSH (R147). -/
  phase : Nat := 0
  phSeen : Option Nat := none
  phHigh : Option Nat := none
  /-- A junction shutdown is in force (R151). -/
  tsd : Bool := false
  /-- The last conversion failed its reference check (R143). -/
  senseFail : Bool := false
  /-- Tick of the last gate edge (R115), the SLEW code it runs with, and whether it is a turn-off by a fault (R111, R135). -/
  edge : Option Nat := none
  edgeSlew : Nat := 0
  faultOff : Bool := false
  /-- The die holds the gates off since its ceiling comparator acted without the PWR clock (R134, R152). -/
  ceilOff : Bool := false
  /-- Tick of the last stuck-on detection (R138). -/
  stuckAt : Option Nat := none
  /-- The tick from which the filters count anew after a condition of R29 (R139, R152). -/
  filtAt : Nat := 0
  /-- Limits of the unit that a change of its settings has replaced, each with the tick of the change (R133). -/
  limHist : List (Nat × Nat) := []
  /-- Off-state diagnosis may run, and the tick since which it may (R109, R115, R145, R152). -/
  diag : Bool := false
  diagAt : Nat := 0
  /-- The cross-test in progress (R148). -/
  xt : Option (List XEdge) := none
  deriving DecidableEq, Repr

/-- The condition of a power die (R151, R153). -/
structure DieSt where
  uv : Bool := false
  ldump : Bool := false
  gndl : Bool := false
  revb : Bool := false
  /-- Ticks of the last entries to undervoltage, load dump and loss of ground (R151). -/
  uvAt : Nat := 0
  ldAt : Nat := 0
  gndAt : Nat := 0
  deriving DecidableEq, Repr

/-- A command of a bridge: the CMD codes of R163 that a level can impose, with the duty of a drive. -/
inductive BrCmd where
  | coast | brake | fwd (d : Nat) | rev (d : Nat)
  deriving DecidableEq, Repr

/-- The state of one leg (R164, R168, R171, R172): what its high-side and its low-side switch are to be; the PWR cycles, two a
tick, before which they stay off for the dead time; the dead time of the bridge that last drove it; turned off by its ceiling
comparator while the PWR clock was lost. -/
structure Leg where
  latch : Bool := false
  tsd : Bool := false
  senseFail : Bool := false
  want : Bool × Bool := (false, false)
  hFrom : Nat := 0
  lFrom : Nat := 0
  dt : Nat := 0
  ceilOff : Bool := false
  /-- Tick of the last edge of its high-side switch (R148). -/
  edge : Option Nat := none
  /-- Its past mean currents in milliamperes with the ticks of their conversions, newest first (R175). -/
  hist : List (Nat × Int) := []
  deriving DecidableEq, Repr

/-- The state of one bridge beside its registers (R162-R177). -/
structure Bridge where
  /-- The resulting command of the chain, and the command applied after R161 and R166. -/
  cmd : BrCmd := .coast
  applied : BrCmd := .coast
  heldCmd : BrCmd := .coast
  heldGov : Nat := 0
  gen : Gen := {}
  /-- The clause that governs, if one does (R99, R240). -/
  govCl : Option Nat := none
  /-- End tick of the start allowance, the tick at which the last one ended, and the tick from which FWD or REV is applied
  (R165, R167). -/
  startEnd : Option Nat := none
  startDone : Nat := 0
  drvAt : Nat := 0
  /-- No gate of the bridge is held off while it drives (R173). -/
  live : Bool := false
  /-- The PWR cycle up to which its legs coast after a fix changed them (R177). -/
  coastTo : Nat := 0
  /-- The tick from which COAST is applied, and the start of the last off-state cycle since (R172). -/
  coastAt : Nat := 0
  cyc : Option Nat := none
  /-- Last driven direction, 1 or -1 (R173). -/
  dir : Int := 1
  /-- Ripple counting runs; microseconds since the last ripple; the last accepted intervals; misses (R173). -/
  counting : Bool := false
  since : Nat := 0
  ivals : List Nat := []
  miss : Nat := 0
  /-- Tick of the last accepted ripple or of the drive start, and whether STALL was set since the drive start. -/
  ripTick : Nat := 0
  /-- Tick of the last accepted ripple (R173). -/
  ripAcc : Option Nat := none
  stalled : Bool := false
  /-- A park run is in progress; its end tick (R176). -/
  parkRun : Bool := false
  parkEnd : Option Nat := none
  /-- A position write that takes effect at the next sense code (R173). -/
  posPend : Option Word := none
  /-- The pinch comparator's output (R175). -/
  pinch : Bool := false
  /-- The off-state cycle's conditions hold, and the tick since which they do (R172). -/
  diagOn : Bool := false
  diagAt : Nat := 0
  /-- The result of the last off-state cycle, and whether it stands confirmed (R172). -/
  diag : Option DiagRes := none
  diagConf : Bool := false
  deriving DecidableEq, Repr

/-- The phases of a valve profile, in the order of their codes (R182). -/
inductive VPhase where
  | idle | peak | pkhold | hold | decay | mowait | pkwait
  deriving DecidableEq, Repr

/-- The state of one valve beside its registers (R182-R193). -/
structure Valve where
  phase : VPhase := .idle
  latch : Bool := false
  /-- The resulting command of the chain (R184). -/
  cmd : Bool := false
  heldCmd : Bool := false
  heldGov : Nat := 0
  /-- Ticks at which the phase began, of the last trigger, and at which the last DECAY ended. -/
  phaseStart : Nat := 0
  lastTrig : Nat := 0
  holdEnd : Nat := 0
  decayEnd : Option Nat := none
  /-- A start is pending (R185). -/
  pend : Bool := false
  /-- Tick at which the wait in PKWAIT began, until PEAK is entered (R187). -/
  waitStart : Option Nat := none
  /-- The channel switch is on in the chopping period, the tick of the last period start taken, and the period and phase as
  they run (R99, R183). -/
  chopOn : Bool := false
  chopStart : Option Nat := none
  gen : Gen := {}
  tsd : Bool := false
  x : Rat := 0
  senseFail : Bool := false
  deriving DecidableEq, Repr

/-- What feeds a side node (R180). -/
inductive SideSrc where
  | off | battery | boost
  deriving DecidableEq, Repr

/-- The state of one shared side (R182, R187, R190, R191). -/
structure Side where
  src : SideSrc := .off
  /-- The switch the side is changing to, during its dead time, and that dead time's end. -/
  next : Option (SideSrc × Nat) := none
  /-- The valve that enters PEAK when the dead time ends. -/
  peakNext : Option Nat := none
  latch : Bool := false
  tsd : Bool := false
  /-- VHA or VHB has been turned off by its limp value (R191), and the KA time at which that value was first imposed. -/
  limpOff : Bool := false
  limpAt : Option Int := none
  held : Bool := false
  senseFail : Bool := false
  /-- Tick of the last edge of its high-side switch (R148). -/
  edge : Option Nat := none
  deriving DecidableEq, Repr

/-- The triggers of a canvas swap (R199). -/
inductive SwapSrc where
  | now | tick | rise | fall
  deriving DecidableEq, Repr

/-- The scan's pattern (R202): q, g and the phase PH. -/
structure Scan where
  q : Nat := 1
  g : Nat := 64
  ph : Nat := 0
  deriving DecidableEq, Repr

/-- The state of the lighting block beside its registers (R199-R212). -/
structure Light where
  /-- The armed swap, the tick of its trigger once it has come, and whether each consumer has changed. -/
  swap : Option SwapSrc := none
  trig : Option Nat := none
  mxDone : Bool := true
  pxDone : Bool := true
  /-- PXFRONT takes the value of FRONT at the next pixel-chain frame (R200). -/
  pxResync : Bool := false
  /-- The scan's pattern, and the one that takes over at a frame start (R99, R202). -/
  scan : Scan := {}
  scanNext : Option (Scan × Nat) := none
  /-- The matrix latch of SHROWV (R212); rows read high in the guards of this frame and of the last one. -/
  mxLatch : Bool := false
  rowvCur : Nat := 0
  rowvPrev : Nat := 0
  /-- Columns that qualified for the dropout test in this frame, those of them out of dropout at least once, and the columns
  found open in the last frame (R212). -/
  colQual : Nat := 0
  colFed : Nat := 0
  /-- The columns that the scan lights at a code of 8 or more as R29 and the latches stand, the ticks each has been on in this slot,
  and the tick up to which they are counted (R212). -/
  colMask : Nat := 0
  colOnT : List Nat := []
  colAt : Nat := 0
  openPrev : Nat := 0
  openTold : Nat := 0
  /-- Rows and columns shut down by temperature (R151). -/
  tsdRows : List Nat := []
  tsdCols : List Nat := []
  /-- The applied run command, and the one of the output hold with its level (R211, R462). -/
  run : Bool := false
  heldRun : Bool := false
  heldGov : Nat := 0
  /-- The present slot: its row, the tick it started, its 16 pixel words and its derating factor (R198, R202, R204). -/
  row : Nat := 0
  slotStart : Nat := 0
  phi : Nat := 256
  /-- Tick of the last temperature reading (R204), and the tick at which a pulse on LSYNC ends (R201). -/
  tempAt : Option Nat := none
  lsyncEnd : Option Nat := none
  /-- Ticks of the last slot start and of the last pixel-chain frame start taken. -/
  slotTaken : Option Nat := none
  pxTaken : Option Nat := none
  words : List Nat := []
  /-- Pixel chain: the next frame is not compared; the frame being shifted is compared; its start, the tick at which PXC_LE
  falls, and K (R205, R206). -/
  pxFirst : Bool := true
  pxCmp : Bool := false
  pxStart : Nat := 0
  pxEnd : Nat := 0
  pxK : Nat := 0
  /-- Length and bits of the frame being shifted, of the frame before, and consecutive mismatches (R206). -/
  pxCur : Nat × Nat := (0, 0)
  pxPrev : Option (Nat × Nat) := none
  /-- The bit that the engine completes before a blank frame: its value, the tick at which it began, and its K (R207). -/
  pxTail : Option (Bool × Nat × Nat) := none
  pxMism : Nat := 0
  /-- The frame being shifted is the blank frame of R207. -/
  pxBlank : Bool := false
  /-- The groups that wait for the sensor port, and the one it serves (R210). -/
  i2cWait : List Nat := []
  i2cBusy : Option Nat := none
  /-- The tick at which the port's transaction began (R210). -/
  i2cStart : Nat := 0
  /-- The gates frozen by a load dump (R151): rows on, column codes, the codes of the ambient sinks. -/
  frozen : Option (Nat × List Nat × List Nat) := none
  deriving DecidableEq, Repr

/-- The state of one ambient group beside its registers (R208-R212): its command and the hold's; its sinks shut down by
temperature; the duties sent to the sinks; the derating factor applied; PERIOD and PHASE as they run; the tick of its loop's
last iteration; iterations clamped in a row; failed reads in a row. -/
structure Amb where
  on : Bool := false
  heldOn : Bool := false
  heldGov : Nat := 0
  tsd : Bool := false
  u : Nat × Nat × Nat := (0, 0, 0)
  /-- Duties that wait for the start of a changed pattern, with that tick (R99, R208). -/
  uNext : Option ((Nat × Nat × Nat) × Nat) := none
  phi : Nat := 256
  gen : Gen := {}
  iterAt : Option Nat := none
  clampRun : Nat := 0
  failRun : Nat := 0
  deriving DecidableEq, Repr

/-- A clause beside its record (R232-R248): active; end tick when TIMED; the condition of the cycle before, none before
the first cycle of evaluation; held off at least once in this activation; broken; the tick of its last trigger, and whether that
was a FIRE (R243). -/
structure Clause where
  active : Bool := false
  endTick : Nat := 0
  prev : Option Bool := none
  heldOnce : Bool := false
  broken : Bool := false
  took : Option (Nat × Bool) := none
  deriving DecidableEq, Repr

/-- A link slot (R244, R245): its value; the tick from which its timeout counts; it has timed out since; the send value; the
tick of the last frame sent; the tick since which an evaluated LINK clause names it. -/
structure Slot where
  val : Bool := false
  rxTick : Nat := 0
  out : Bool := false
  send : Bool := false
  txTick : Nat := 0
  named : Option Nat := none
  deriving DecidableEq, Repr

/-- A CAN transmit slot beside its registers (R383-R386): the latched record address, its place in the order of requests, the
mark of a CANCEL on an ACTIVE slot, the attempts that ended in an error, and the NM frame it carries for the NM block (R420). -/
structure CanTx where
  addr : Nat := 0
  seq : Nat := 0
  cxl : Bool := false
  errs : Nat := 0
  nm : Option NmKind := none
  deriving DecidableEq, Repr

/-- A CAN controller beside its registers (R380-R397). -/
structure Can where
  tx : Tab CanTx := []
  reqSeq : Nat := 0
  /-- A STOP (false) or a disable (true) waits for the end of the frame in progress (R380). -/
  stop : Option Bool := none
  /-- Bus-off recovery runs; the tick of the entry to BUSOFF (R388). -/
  boRec : Bool := false
  boTick : Nat := 0
  /-- ACK-less attempts in a row (R389). -/
  ackless : Nat := 0
  /-- The present autobaud round; the tick at which the candidate began, the frames it has received, an error (R394). -/
  abRound : Nat := 0
  abStart : Nat := 0
  abFrames : Nat := 0
  abErr : Bool := false
  /-- A frame is being received; its arbitration field is past; it is an XL frame (R380, R390, R393). -/
  rx : Bool := false
  rxPast : Bool := false
  rxXl : Bool := false
  /-- The transmitter has turned off (R395). -/
  trxOff : Bool := false
  /-- A changed timing takes effect at the end of the frame in progress (R397). -/
  cfgPend : Bool := false
  /-- CAN.MODE as it stood at the SOF of that frame, which it governs to its end (R397). -/
  mode : Word := 0
  /-- NM frames that wait for slot 15 (R420). -/
  nmDue : List NmKind := []
  /-- A bus wake is latched in the transceiver (R424). -/
  wakeLatch : Bool := false
  deriving DecidableEq, Repr

/-- What a LIN controller has on its bus (R401-R405). -/
structure LinFrame where
  id : Nat
  /-- 1: it publishes the response; 2: it awaits one; 0: it ignores the frame. -/
  dir : Nat := 0
  /-- The tick of the break. -/
  start : Nat
  /-- The bit rate of the frame: BR, or what a slave measured (R403). -/
  rate : Nat
  /-- It is the go-to-sleep frame that SLEEP sends. -/
  sleep : Bool := false
  /-- Word 0 of its entry, as read at the end of the PID; none while the master's header is under way (R401). -/
  entry : Option Nat := none
  /-- The transmitter turned off during it (R404). -/
  cut : Bool := false
  deriving DecidableEq, Repr

/-- A LIN controller beside its registers (R400-R405). -/
structure Lin where
  /-- Tick of the next slot start of the schedule. -/
  next : Nat := 0
  /-- The schedule entry of the next slot. -/
  pos : Nat := 0
  frame : Option LinFrame := none
  /-- A header held back by a frame that overran its slot (R402). -/
  late : Option (Nat × Bool) := none
  stopPend : Bool := false
  sleepPend : Bool := false
  wakePend : Bool := false
  /-- The tick at which the transmitter turned off for its time-out, until it is on again (R404). -/
  trxOff : Option Nat := none
  /-- The transceiver is too hot to transmit (R404). -/
  hot : Bool := false
  wakeLatch : Bool := false
  deriving DecidableEq, Repr

/-- A learned MAC address with its port and the tick it was last seen (R407). -/
structure MacEntry where
  mac : Nat
  port : Nat
  seen : Nat
  deriving DecidableEq, Repr

/-- The sequence history of one source and frame type (R410): the highest number taken, the numbers taken within the history of
32 below it, and the tick of the last one taken. -/
structure SeqHist where
  src : Nat
  typ : Nat
  top : Nat
  seqs : List Nat
  last : Nat
  deriving DecidableEq, Repr

/-- A TOPO frame heard (R412): source, port, hop count, accumulated latency with the port's own cost, and its tick. -/
structure TopoSeen where
  src : Nat
  port : Nat
  hop : Nat
  lat : Nat
  tick : Nat
  deriving DecidableEq, Repr

/-- A frame in the egress queue of a port that its PCP chooses (R407), with the tick at which it was queued, and whether it is
the host's record at TX GET (R408). -/
structure EthQ where
  port : Nat
  pcp : Nat
  tick : Nat
  host : Bool
  b : List Byte
  deriving DecidableEq, Repr

/-- The Ethernet switch and the link engine beside their registers (R406-R415). -/
structure EthSt where
  /-- The egress queues in the order of arrival; for each port, the tick at which it has sent its last frame (R407). -/
  queue : List EthQ := []
  busy : Tab Nat := []
  /-- The address of the host's transmit record whose first egress is awaited (R408). -/
  txWait : Option Nat := none
  macs : List MacEntry := []
  hist : List SeqHist := []
  topo : List TopoSeen := []
  /-- For each port, the tick since which it is up without a TOPO frame, and whether NBR was reported. -/
  upTick : Tab Nat := []
  nbrTold : Tab Bool := []
  /-- Tick at which the own TOPO last returned on a trunk port, and on a branch port. -/
  ownTrunk : Option Nat := none
  ownBranch : Option Nat := none
  /-- The budget is exceeded, and was reported (R412). -/
  overBud : Bool := false
  /-- For each port, the tick of the last check that found the signal good, and whether SQILOW stands confirmed (R357, R406). -/
  sqiAt : Tab Nat := []
  sqiLow : Tab Bool := []
  /-- Ticks of the last TOPO, Sync and Pdelay sent, and a Sync that waits to be relayed (R409, R412). -/
  topoAt : Nat := 0
  syncAt : Nat := 0
  pdAt : Nat := 0
  relay : Bool := false
  /-- The link port a follower takes its time from (R409). -/
  syncPort : Option Nat := none
  /-- For each port, the steps removed of its last Sync, and the tick it came at (R409). -/
  syncSteps : Tab (Option (Nat × Nat)) := []
  /-- The sequence number of the next own frame of each type (R410). -/
  seqOut : Tab Nat := []
  deriving DecidableEq, Repr

/-- The NM block beside its registers (R418-R428). -/
structure Nm where
  /-- The sleep buses in force (R428). -/
  can : Nat := 0
  lin : Nat := 0
  /-- Tick at which the sleep window began. -/
  window : Nat := 0
  /-- The KA cycle in which the last sleep window ended, with MAXEXP and the entries to SLEEP before it (R428). -/
  closed : Option (Int × Bool × Nat) := none
  /-- The sleep window, or the sleep frames being sent for it, come of a forced sleep (R425). -/
  forced : Bool := false
  /-- Buses whose sleep or forced sleep frame this master still sends, CAN c as c and LIN l as 8 + l. -/
  sending : List Nat := []
  /-- Those of them whose frame has ended, that end not yet taken (R419, R421). -/
  ended : List Nat := []
  /-- Ticks of the last keep-awake frame received, of the last valid frame or LIN header, and of the last KAPER tick. -/
  lastKa : Nat := 0
  lastFrame : Nat := 0
  kaTick : Nat := 0
  /-- Tick of the last entry to AWAKE. -/
  awake : Nat := 0
  /-- The wake hold: its end tick and the bus that woke the device, CAN c as c and LIN l as 8 + l (R426). -/
  hold : Option (Nat × Option Nat) := none
  /-- The keep-awake vote as last evaluated (R421). -/
  vote : Bool := true
  deriving DecidableEq, Repr


/-- A switch input beside its registers (R215-R221): the filter's counter and whether it runs, the last sample tick, the
consecutive samples out of range, the end of full wetting, the reference state in PARK with the samples that differed from it,
its last raw value in PARK and the KA time of its last sample there, and the state at the entry to PARK until the first raw
value in RUN. -/
structure Si where
  c : Nat := 0
  run : Bool := false
  last : Option Nat := none
  rng : Nat := 0
  wetEnd : Option Nat := none
  parkRef : Bool := false
  parkDiff : Nat := 0
  parkRaw : Bool := false
  parkAt : Option Int := none
  entry : Option Bool := none
  deriving DecidableEq, Repr

/-- An isolated channel beside its registers (R223-R227): the filter; a change to be posted at its restart; the chain's command
with the one before level 1 and the hold's; the field side's copy of LIMP and the command it last received; the lane; the
command link, and the KA time since which it is silent; the tick of the last command edge; the readback mismatch stands
confirmed. -/
structure Io where
  c : Nat := 0
  run : Bool := false
  raw : Bool := false
  last : Option Nat := none
  resume : Bool := false
  cmd : Bool := false
  limpCmd : Bool := false
  heldCmd : Bool := false
  heldGov : Nat := 0
  limpCopy : Nat := 0
  fieldCmd : Bool := false
  laneLost : Bool := false
  cmdLost : Bool := false
  quiet : Option Int := none
  edge : Nat := 0
  rbConf : Bool := false
  deriving DecidableEq, Repr


/-- The states of a context, in the order of their codes (R262). -/
inductive CtxSt where
  | off | ready | run | waitev | waitt | opwait | halted
  deriving DecidableEq, Repr

/-- What a context in OPWAIT waits for (R262, R314): the results of registers, an operation slot, a journal entry, or the
fetch of a line of code. -/
inductive OpWait where
  | regs (l : List Nat)
  | slot
  | jour
  | fetch (line : Nat)
  deriving DecidableEq, Repr

/-- What the context store keeps of a context (R275, R312). `g` and `p` leave out g0 and p0; `bad` lists the registers that
hold a value from an uncorrectable word with the address of its load (R264); `elem` holds the values that the loads of a
string element have brought, by address, until the element is performed (R300), `late` the window addresses whose late
ACCESS trap is due (R303). -/
structure CtxRegs where
  g : Tab Word := []
  bad : List (Nat × Word) := []
  elem : List (Nat × Word) := []
  late : List Word := []
  p : Nat := 0
  v : Bool := false
  dz : Bool := false
  scr0 : Word := 0
  scr1 : Word := 0
  pc : Word := 0
  ctpc : Word := 0
  ctcause : Byte := 0
  ctval : Word := 0
  cnpc : Word := 0
  centry : Word := 0
  ctvec : Word := 0
  tmode : Bool := false
  nmode : Bool := false
  dbl : Bool := false
  drain : Bool := false
  mig : Bool := false
  pri : Nat := 0
  st : CtxSt := .off
  evt : Nat := 0
  deadline : Option Nat := none
  waitPd : Nat := 0
  opw : OpWait := .slot
  deriving DecidableEq, Repr

/-- The kinds of journaled access (R315). -/
inductive JKind where
  | load | store | post | rdtb | wait
  deriving DecidableEq, Repr

/-- A journal entry (R315): the access, its value or outcome once it is done; `age` counts the commits since it was made; `err` a link-window timeout; `bad` a value from an uncorrectable word; `poisoned` the entry itself is
uncorrectable (R317); `freed` counts the commits since the one that frees it, which is not confirmed yet (R316). -/
structure JEnt where
  id : Nat
  kind : JKind
  addr : Nat
  w : Nat
  data : Nat := 0
  done : Bool := false
  val : Nat := 0
  bad : Bool := false
  err : Bool := false
  poisoned : Bool := false
  age : Nat := 0
  freed : Option Nat := none
  deriving DecidableEq, Repr

/-- A context (R260): its present state, the committed one, and those that stand again where commits that are not confirmed yet are
discarded, newest first (R312), its epoch (R319), its journal, the
recorded entries that its re-execution meets next (R317), whether a FENCE waits (R294), and whether a freed operation slot is kept
for the context (R263). -/
structure Ctx where
  now : CtxRegs := {}
  com : CtxRegs := {}
  olds : List CtxRegs := []
  epoch : Nat := 0
  jour : List JEnt := []
  replay : List JEnt := []
  fence : Bool := false
  slotRes : Bool := false
  deriving DecidableEq, Repr

/-- An operation in flight (R263): its journal entry's number, the context and epoch it was issued under, what it does; `reg`
is the destination of a load, 32 for a string element's; `slot` says whether it holds an operation slot; `sent` is the
tick at which its window request left (R68). -/
structure Op where
  id : Nat
  ctx : Nat
  epoch : Nat
  kind : JKind
  addr : Nat
  w : Nat
  data : Nat := 0
  reg : Nat := 0
  slot : Bool := true
  sent : Option Nat := none
  deriving DecidableEq, Repr

/-- What has not yet compared equal (R309, R312): a request by its number, or a commit of a context; the issue cycles of the core
since, and its time. -/
structure BufEnt where
  id : Nat
  commit : Bool := false
  cyc : Nat := 0
  tick : Int := 0
  deriving DecidableEq, Repr

/-- A logical core: the context that issues and the last one that did (R261), the pending vector (R266), an NMT held while
NMODE = 1 (R269), postings and an NMT held for the end of a takeover (R322), its stop under R325, the debugger's halt and
replay buffer (R330, R331); `buf` holds what has not yet compared equal, oldest first (R309, R312). -/
structure LCore where
  cur : Option Nat := none
  last : Nat := 0
  pend : Nat := 0
  nmtHeld : Bool := false
  coll : List Nat := []
  collNmt : Bool := false
  stopped : Bool := false
  dbg : Bool := false
  replayBuf : List (Nat × DbgReg × Word) := []
  buf : List BufEnt := []
  deriving DecidableEq, Repr

/-- A takeover (R320): the pair that is retired, none for a pairless core (R328), the cores that move, the spare that takes
them, and the tick of its detection. -/
structure Takeover where
  pair : Option Nat
  cores : List Nat
  spare : Nat
  start : Nat
  deriving DecidableEq, Repr


/-- Corrected reads of a row in this scrub period (R341): macro, row, count; `told` once NOSPARE was reported for it (R343). -/
structure RowCnt where
  mac : Nat
  row : Nat
  n : Nat
  told : Bool := false
  deriving DecidableEq, Repr

/-- A remapped row (R342): macro, row, the spare that serves it, and whether the factory map names it. -/
structure Remap where
  mac : Nat
  row : Nat
  spare : Nat
  fact : Bool := false
  deriving DecidableEq, Repr

/-- What waits for the runtime repair map in data flash (R323, R344, R345). -/
inductive Repair where
  | remap (r : Remap)
  | pair (p : Nat)
  | poison (w : Nat)
  deriving DecidableEq, Repr

/-- A flash command in progress (R349): a program with its eight data words, or an erase, at a place. -/
structure FlashOp where
  prog : Bool
  at_ : Nat
  data : List Word := []
  deriving DecidableEq, Repr

/-- What data flash holds for the device itself (R155, R344, R345, R352): it survives every reset. The erase counts of the
flash sectors are numbered bank A 0-191, bank B 192-383, data flash 384-639. -/
structure NvMap where
  remaps : List Remap := []
  pairs : List Nat := []
  poison : List Nat := []
  retouch : List (Nat × Nat) := []
  erases : Tab Nat := []
  /-- Words that the repair map and the retouch map take up in their sector, and which sector of its pair each is in (R344). -/
  used : Nat × Nat := (0, 0)
  sec : Bool × Bool := (false, false)
  /-- How often the device has written its maps and the counts of the code flash sectors: what they read changes with it (R351). -/
  ver : Nat := 0
  deriving DecidableEq, Repr

/-- The memory integrity unit beside its registers (R338-R353). -/
structure MemSt where
  rows : List RowCnt := []
  remaps : List Remap := []
  /-- Spares marked used by a remap that failed to verify (R342). -/
  spent : List (Nat × Nat) := []
  /-- Next word of the pass as macro and word, and the tick of the present period's start (R340). -/
  word : Nat × Nat := (0, 0)
  start : Option Nat := none
  /-- MEM cycles, six in ten ticks' worth of KA time, at the last scrub read (R340). -/
  readAt : Int := 0
  /-- What waits to be appended (R344), and what is stored. -/
  repairs : List Repair := []
  nv : NvMap := {}
  flash : Option FlashOp := none
  deriving DecidableEq, Repr


/-- Where a job stands (the HEAD codes of Qq.STAT): it waits for slots or for persistence, or it has started. -/
inductive JobPh where
  | slotwait | nvwait | started
  deriving DecidableEq, Repr

/-- A cipher job taken from the head of its queue (R435-R442): its descriptor, what it took at its start (key, nonce or IV,
AAD, slots), the segment and byte it has reached, the chaining block, what it has taken in for its tag, what the holding
buffer keeps, and the segments released; `fin` once its last block and tag are done. -/
structure Job where
  addr : Nat
  prog : Nat
  ctx : Nat
  seg : Bool
  nce : Bool
  ien : Bool
  src : Nat
  dst : Nat
  len : Nat
  aadAddr : Nat
  seglen : Nat
  aadlen : Nat
  parm : Nat
  ph : JobPh := .slotwait
  key : List Byte := []
  iv : List Byte := []
  aad : List Byte := []
  slots : List Nat := []
  segk : Nat := 0
  pos : Nat := 0
  chain : List Byte := []
  acc : List Byte := []
  out : List Byte := []
  released : Nat := 0
  fin : Bool := false
  susp : Bool := false
  deriving DecidableEq, Repr

/-- The invocation counter of a key context (R443-R445): C, the value persisted for it if any, and the value being written. -/
structure Ctr where
  c : Nat := 0
  p : Option Nat := none
  wr : Option Nat := none
  /-- The digest of the label that the running write is for, once a fix has given the context another (R444). -/
  wrDig : Option (List Byte) := none
  /-- A fix has given the context a new label since its loss was shown (R445). -/
  anew : Bool := false
  deriving DecidableEq, Repr

/-- The cipher engine beside its registers: the head jobs by queue, the queue of the running one, the counters, the programs
that the library holds (R437), the PK command in progress (R447), the challenge issued and the challenges so far (R448). -/
structure CrySt where
  jobs : Tab (Option Job) := []
  run : Option Nat := none
  ctrs : Tab Ctr := []
  progs : List Nat := []
  pk : Option Bool := none
  challenge : List Byte := []
  attempts : Nat := 0
  deriving DecidableEq, Repr



/-- An entry of the fault log (R371). -/
structure LogEnt where
  tb : Nat
  src : Nat
  sev : Nat
  det : Word
  deriving DecidableEq, Repr

/-- The fault collector beside its registers (R357-R373): the log, oldest first, and FIRST; the level of the ALIVE pin and
the half period it runs with in KA cycles (R367); the temperature sources that have not fallen 10 K since they were raised
(R359) and the KA time of the last measurement; the KA time of the last half-period boundary of ALIVE; the words found discrepant
(R373). -/
structure Flt where
  log : List LogEnt := []
  first : Option LogEnt := none
  pin : Bool := false
  half : Nat := 50
  hot : List Nat := []
  tempAt : Int := 0
  edgeAt : Int := 0
  bad : List Nat := []
  /-- Where a word of the settings differs from its complement, and the KA time of the release of power-on reset (R373). -/
  comp : Tab Word := []
  relAt : Int := 0
  /-- The KA cycles in which a reaction stopped ALIVE, and in which ARUN was accepted (R376). -/
  stopAt : Option Int := none
  arunAt : Option Int := none
  deriving DecidableEq, Repr

/-- What a boot follows (R466), until it hands over to the image or to recovery mode. -/
inductive BootPh where
  | por | chip | wake | done
  deriving DecidableEq, Repr

/-- Reset, boot and PARK beside their registers (R42, R43, R455-R466): the straps as sampled, recovery mode, what the RTC
held at a time of the KA island, what it held at the entry to PARK, the ticks TB advances by when the IO PLL locks (R93), the
end of the output hold in KA time, the supplies and the crystals. -/
structure Pwr where
  boot : BootPh := .por
  recovery : Bool := false
  vlsel : Bool := false
  recov : Bool := false
  rtc : Nat := 0
  rtcAt : Int := 0
  rtcPark : Nat := 0
  resume : Option Nat := none
  holdEnd : Int := 0
  /-- The supplies have been measured since the power-on reset (R13). -/
  measured : Bool := false
  xok : Bool := false
  x32ok : Bool := false
  /-- VMODE as the last power-on reset took it (R468, R472). -/
  vmode : Nat := 1
  /-- The time of the KA island up to which the PLLs hold their frequency after a crystal failure (R105). -/
  xinEnd : Option Int := none
  /-- The user calibration in force, as item and delta (R474). -/
  ucal : List (Nat × Int) := []
  /-- Channels and segments that the factory map retouches (R155). -/
  factSegs : List (Nat × Nat) := []
  deriving DecidableEq, Repr

/-- The update block beside its registers (R481-R486): the session's digest, size and held pieces (bit i is piece i), the
active session area with its generation and its next free word, the piece being stored with the data that a firmware flash
command still keeps it from programming, the recovery channel that waits for an answer, ETH1 or not, and whether the session has
been opened since the last reload (R494). -/
structure Upd where
  dig : List Byte := []
  size : Nat := 0
  held : Nat := 0
  area : Bool := false
  gen : Nat := 0
  next : Nat := 62
  piece : Option (Nat × List Byte) := none
  /-- The bank that the session is for (R484). -/
  bank : Bool := false
  ask : Option Bool := none
  claimed : Bool := false
  deriving DecidableEq, Repr

/-- The machine. Everything the spec gives the block, as plain data; `freeCtr`, `pending` and `outbox` are the model's own. -/
structure State where
  /-- The live registers of every page, keyed by page * 0x1000 + offset (R8). -/
  regs : Tab Word := []
  /-- The staged words of registers with RS fields (R12). -/
  sketch : Tab (Option Word) := []
  /-- Symbols in error of the protected words as they stand stored, by physical place / 32 (R335, R337). -/
  symErr : Tab Nat := []
  /-- The commands that wait, first in, first out. -/
  pending : List Instr := []
  /-- Memory by physical place: macro * 2^24 + offset (R338); what an unlisted place reads is memDefault. -/
  mem : Tab Byte := []
  /-- The poisoned protected words, by physical place / 32 (R345). -/
  poison : List Nat := []
  /-- Code flash bank B is the running bank (R478). -/
  bankB : Bool := false
  /-- How many free values have been used: the model's own. -/
  freeCtr : Nat := 0
  /-- The time base and whether it runs (R90, R92). -/
  tb : Nat := 0
  tbRun : Bool := false
  /-- The time of the KA island, which goes on while TB stands, as its lead over TB in units of 10 ns (R514). -/
  kaLead : Int := 0
  /-- A forward step of TB deferred by an armed fix: the ticks to step (R102). -/
  tbStep : Option Nat := none
  /-- Consecutive sync messages within 20 ns (R100). -/
  syncGood : Nat := 0
  /-- Tick of the last valid sync message (R100). -/
  syncTick : Nat := 0
  /-- Tick at which a compare was armed, or took its present value while armed (R94). -/
  tbcTick : Tab Nat := []
  /-- Islands whose clock is lost or stopped, by index (R104, R107), and those of them that lost it. -/
  clkDead : List Nat := List.range' 1 16
  clkLost : List Nat := []
  /-- Causes on their way to the fault collector (R357). -/
  raises : List Cause := []
  /-- Event postings on their way to the cores (R265). -/
  postings : List Posting := []
  /-- Selected postings on their way to the capture units (R96). -/
  capPend : List Capture := []
  /-- What has left the device, oldest first. -/
  outbox : List Out := []
  /-- The scope taken at CHECK, whether it became stale, and the pending fix (R75-R88). -/
  fixScope : List Nat := []
  fixStale : Bool := false
  /-- FIX.MODE, TAG, BLEAD and BEXP as read at CHECK (R76). -/
  fixMode : Nat := 0
  fixTag : Nat := 0
  fixBlead : Nat := 0
  fixBexp : Nat := 0
  fixTime : Nat := 0
  fixBcast : Bool := false
  fixCopied : Bool := false
  fixReset : Option Nat := none
  fixResetPgs : List Nat := []
  /-- Participants whose answer has been counted (R414). -/
  fixSeen : List Nat := []
  /-- The tag of the broadcast fix this device initiated last (R86, R414). -/
  fixInit : Option Nat := none
  /-- Link-folder writes held behind the window accesses issued before them, whose numbers are lower (R67). -/
  lfHeld : List (Nat × Word × Nat) := []
  hs : Tab Hs := []
  dies : Tab DieSt := []
  /-- Tick of each bank's last selection by its budget (R149). -/
  bankTick : Tab (Option Nat) := []
  /-- Tick of the last conversion of each sense converter: channel n, leg 64 + l, valve 96 + n, side 104 + b (R142). -/
  senseAt : Tab (Option Nat) := []
  legs : Tab Leg := []
  bridges : Tab Bridge := []
  valves : Tab Valve := []
  sides : Tab Side := []
  /-- The tick at which the boost entered CHARGE, and whether BUVTO was set since (R186). -/
  boostTick : Nat := 0
  boostTold : Bool := false
  light : Light := {}
  ambs : Tab Amb := []
  sis : Tab Si := []
  ios : Tab Io := []
  /-- Dies whose input converter fails its reference check, and the pages that have shown it since it failed (R217). -/
  siRef : List Nat := []
  siRefPg : List Nat := []
  /-- The field supply's state as the isolated die finds it, whether it has found one since it was last without supply, and the
  time of the KA island of the last change (R45, R226). -/
  fsDie : Nat := 0
  fsNew : Bool := true
  fsAt : Int := 0
  /-- A wake of the PARK state by its kind and index in NM.WSRC, not yet taken (R220, R424, R456). -/
  parkWake : Option (Nat × Nat) := none
  cans : Tab Can := []
  lins : Tab Lin := []
  eth : EthSt := {}
  nm : Nm := {}
  /-- Pulses on their way to the clause fabric, one for each occurrence (R231, R232, R392). -/
  pulses : List Pulse := []
  clauses : Tab Clause := []
  slots : Tab Slot := []
  /-- The tick at which RXL's EN last became 1 (R244). -/
  rxlTick : Nat := 0
  /-- Segments retouched and not yet stored (R155). -/
  retouchPend : List (Nat × Nat) := []
  /-- The physical pair that serves each logical core (R256). -/
  lcMap : Tab Nat := []
  /-- The contexts, by context number (R260). -/
  ctxs : Tab Ctx := []
  lcores : Tab LCore := []
  /-- The lines in the instruction cache of each pair, newest first (R259). -/
  icache : Tab (List Nat) := []
  /-- Those of them whose word was uncorrectable as it entered (R259, R346). -/
  icBad : Tab (List Nat) := []
  /-- The tick of each pair's last self-test, or of its becoming SPARE (R324). -/
  testAt : Tab Nat := []
  /-- Logical cores with a non-maskable trap on its way (R269). -/
  nmts : List Nat := []
  /-- Operations in flight, oldest first, and the number of the next journaled access (R263). -/
  ops : List Op := []
  opNext : Nat := 1
  /-- Takeovers, the one in progress first (R321), and those that wait for it. -/
  takeovers : List Takeover := []
  tkWait : List (Option Nat × List Nat) := []
  /-- Writes of the LCM page held during a takeover (R322). -/
  lcmHeld : List (Writer × Nat × Word) := []
  /-- Retirements of each pair since the last power-on reset (R323). -/
  retired : Tab Nat := []
  /-- The macro of a pairless core's local SRAM (R326). -/
  lcSram : Tab Nat := []
  memc : MemSt := {}
  cry : CrySt := {}
  flt : Flt := {}
  pwr : Pwr := {}
  upd : Upd := {}
  /-- The power mode (R453). -/
  power : Power := .run
  deriving DecidableEq, Repr

/-- A power-on reset released, before the boot ROM runs (R466 step 1): every register at its reset value (R13), nothing
listed anywhere, no command waiting. (DESIGN CHOICE: log entries 16, 67.) -/
def State.reset : State := {}

/-- What a meaning answers. -/
abbrev Outcome := Host.Outcome State Fault Refusal

end Sys2Proof.Machine
end

