-- ==== Sys2Proof/Machine/Ops.lean ====
section
/-! DEFINITION. The named operations over the state: sparse tables, registers and their fields, counters, event
postings, detections and refusals (R12, R57-R62, R266, R357). -/

namespace Sys2Proof.Machine

/-! ## Sparse tables -/

/-- The value at a key: the listed one, or the default of the key. -/
def tget {β : Type} (d : Nat → β) : Tab β → Nat → β
  | [], k => d k
  | e :: m, k => if e.1 = k then e.2 else tget d m k

/-- Put an entry in its place in the rising order. -/
def tins {β : Type} (k : Nat) (v : β) : Tab β → Tab β
  | [] => [(k, v)]
  | e :: m => if k < e.1 then (k, v) :: e :: m else e :: tins k v m

/-- Write the value at a key; a default value is not listed. -/
def tset {β : Type} [DecidableEq β] (d : Nat → β) (m : Tab β) (k : Nat) (v : β) : Tab β :=
  if v = d k then m.filter (fun e => e.1 ≠ k) else tins k v (m.filter (fun e => e.1 ≠ k))

/-- The canonical form: keys strictly rising, no entry equal to the default of its key. -/
def twf {β : Type} [DecidableEq β] (d : Nat → β) : Tab β → Bool
  | [] => true
  | [e] => decide (e.2 ≠ d e.1)
  | e :: f :: m => decide (e.2 ≠ d e.1) && decide (e.1 < f.1) && twf d (f :: m)

/-! ## Registers -/

/-- The key of a register: R8 without the base 0x4000_0000. -/
def regKey (pg off : Nat) : Nat := pg * 0x1000 + off

/-- The stored word of a register. -/
def State.reg (s : State) (pg off : Nat) : Word := tget resetWord s.regs (regKey pg off)

/-- Store a register word. -/
def State.setReg (s : State) (pg off : Nat) (w : Word) : State :=
  { s with regs := tset resetWord s.regs (regKey pg off) w }

/-- The live value of a field. -/
def State.fld (s : State) (pg : Nat) (f : Fld) : Nat := f.get (s.reg pg f.off)

/-- Whether the live value of a field is not 0. -/
def State.bit (s : State) (pg : Nat) (f : Fld) : Bool := s.fld pg f != 0

/-- Set the live value of a field. -/
def State.setFld (s : State) (pg : Nat) (f : Fld) (v : Nat) : State :=
  s.setReg pg f.off (f.put (s.reg pg f.off) v)

/-- Set a one-bit field. -/
def State.setBit (s : State) (pg : Nat) (f : Fld) (b : Bool) : State := s.setFld pg f (if b then 1 else 0)

/-- A field shown as a signed number of its own width. -/
def State.sfld (s : State) (pg : Nat) (f : Fld) : Int :=
  let w := f.hi + 1 - f.lo
  let v := s.fld pg f
  if v < 2 ^ (w - 1) then v else (v : Int) - 2 ^ w

/-- A signed number as the bits of a field of width `w`. -/
def toField (w : Nat) (i : Int) : Nat := (i % 2 ^ w).toNat

/-- A 64-bit value held in two 32-bit fields. -/
def State.fld64 (s : State) (pg : Nat) (lo hi : Fld) : Nat := s.fld pg hi * 2 ^ 32 + s.fld pg lo

/-- Set a 64-bit value held in two 32-bit fields. -/
def State.setFld64 (s : State) (pg : Nat) (lo hi : Fld) (v : Nat) : State :=
  (s.setFld pg lo (v % 2 ^ 32)).setFld pg hi (v / 2 ^ 32 % 2 ^ 32)

/-- The staged word of a register, the live word where nothing is staged (R12, R73). -/
def State.sketchWord (s : State) (pg off : Nat) : Word :=
  (tget (fun _ => none) s.sketch (regKey pg off)).getD (s.reg pg off)

/-- The staged value of a field. -/
def State.sketchFld (s : State) (pg : Nat) (f : Fld) : Nat := f.get (s.sketchWord pg f.off)

/-- Drop every staged word of a page. -/
def State.dropSketch (s : State) (pg : Nat) : State :=
  { s with sketch := s.sketch.filter (fun e => e.1 / 0x1000 ≠ pg) }

/-- PG_CTRL.EN of a page. -/
def State.enabled (s : State) (pg : Nat) : Bool := s.bit pg R.PG_CTRL.EN

/-- The answer to the most recent write of a page (R58). -/
def State.answer (s : State) (pg code : Nat) : State := s.setFld pg R.PG_STAT.CODE code

/-- PG_STAT.CODE of a write that took effect. -/
def codeOK : Nat := 0
/-- PG_STAT.CODE of a refused write. -/
def codeRefused : Nat := 1
/-- PG_STAT.CODE of a value out of range. -/
def codeRange : Nat := 2

/-- Count one in a page event counter, saturating, on a page that has counters (R62). (DEDUCED: log entry 65.) -/
def State.count (s : State) (pg i : Nat) : State :=
  match pageRun pg with
  | some r =>
    if r.counters then s.setFld pg (R.PG_CNT i) (min 0xFFFFFFFF (s.fld pg (R.PG_CNT i) + 1)) else s
  | none => s

/-! ## Islands -/

/-- The PLLs have stopped after a crystal failure: they hold their last frequency for 100 us (R105). -/
def State.xinOut (s : State) : Bool :=
  match s.pwr.xinEnd with
  | some t => decide (t ≤ s.tb + s.kaLead)
  | none => false

/-- Whether an island's clock runs: not lost, not gated, not stopped by PARK or with the crystal (R104, R105, R107, R453). -/
def State.clocked (s : State) (i : Island) : Bool :=
  i.index = 0 || (!s.clkDead.contains i.index && s.power ≠ .park && !s.xinOut)

/-- The power dies have not been commanded since PARK or a power-on reset: the PWR clock is yet to start, and every output
is off (R42, R44, R456, R466). -/
def State.diesWait (s : State) : Bool := s.power = .park || (s.clkDead.contains 15 && !s.clkLost.contains 15)

/-- The pair that serves logical core `n` (LCM.MAP); 15 for none. (DESIGN CHOICE: log entry 16.) -/
def State.pairOf (s : State) (n : Nat) : Nat := tget (fun k => if k < 8 then k else 15) s.lcMap n

/-- A logical core exists: AC0-AC7, and a split core whose SPLIT bit is 1 (R256). -/
def State.coreExists (s : State) (n : Nat) : Bool :=
  decide (n < 8) || (decide (n < 16) && (s.fld 0x02A R.LCM.SPLIT.SPLIT).testBit (n - 8))

/-- The pair that serves a logical core; a split core runs on the checker copy of its partner's pair (R256); 15 for none. -/
def State.pairOfCore (s : State) (n : Nat) : Nat := s.pairOf (n % 8)

/-- The pair whose island holds page 0x02A: that of the lowest-numbered core with a pair (R272, R326). -/
def State.lcmPair (s : State) : Nat := (((List.range 8).map s.pairOf).find? (· ≠ 15)).getD 0

/-- The island a page lies in; page 0x02A goes with the pair that serves AC0 (R272). -/
def State.islandOf (s : State) (pg : Nat) : Island :=
  if kindOf pg = some .lcm then .cp s.lcmPair else pageIsland pg

/-! ## Events -/

/-- The island that posts a hardware event, by its index (the event tables of the chapters). (DEDUCED: log entry 65.) -/
def eventIsland (ev : Nat) : Nat :=
  if ev < 16 then 16 else if ev < 48 then 12 else if ev < 64 then 1 else if ev = 153 then 16 else if ev < 160 then 15
  else if ev < 170 then 16 else if ev < 176 then 15 else if ev < 208 then 13 else if ev < 224 then 14 else if ev < 232 then 12 else 0

/-- An evaluated clause watches a pulse subject (R230, R231): what no clause watches is over when its RX cycle is. -/
def State.pulseHeard (s : State) (u : Nat) : Bool :=
  s.clocked .rx && s.enabled 0x040 && s.regs.any fun e =>
    decide (0x41000 ≤ e.1) && decide (e.1 < 0x51000) && decide (0x100 ≤ e.1 % 0x1000) && decide (e.1 % 0x1000 < 0x500) &&
      e.1 % 0x20 = 0 && (R.CL.SUBJ.EN 0).get e.2 ≠ 0 && (R.CL.SUBJ.SUBJ 0).get e.2 = u && s.enabled (e.1 / 0x1000)

/-- An occurrence of a pulse signal crosses from an island to the clause fabric (R231, R239). -/
def State.pulse (s : State) (isl u : Nat) : State :=
  { s with pulses := s.pulses ++ if s.pulseHeard u then [⟨u, isl, s.tb⟩] else [] }

/-- An island posts an event (R265): it leaves toward every logical core, toward every capture unit that selects it (R96), and
as a pulse toward the clause fabric, where it is a subject (R231, R242). -/
def State.postFrom (s : State) (isl ev : Nat) : State :=
  let s := s.pulse isl (0x400 + ev)
  let caps := (List.range 4).filter fun m =>
    s.fld 0x003 (R.CAP.SEL.MODE m) = 1 && s.fld 0x003 (R.CAP.SEL.EVT m) = ev
  { s with
    postings := s.postings ++ [⟨ev, (List.range 16).filter s.coreExists, isl⟩]
    capPend := s.capPend ++ caps.map (fun m => ⟨m, ev, s.tb, isl⟩) }

/-- Post a hardware event. -/
def State.post (s : State) (ev : Nat) : State := s.postFrom (eventIsland ev) ev

/-- The fault collector posts an event to one logical core (R363); a capture unit does not take it.
(DESIGN CHOICE: log entry 69.) -/
def State.postTo (s : State) (ev core : Nat) : State := { s with postings := s.postings ++ [⟨ev, [core], 0⟩] }

/-- Post an event when a condition holds. -/
def State.postIf (s : State) (c : Bool) (ev : Nat) : State := if c then s.post ev else s

/-! ## Fault sources -/

/-- The leg that an index names in a bridge's class, HH0 to HH11 as 0 to 11 and LH0 to LH15 as 12 to 27; 28 is none: a bridge never
joins a leg of another class (R159, R160). -/
def brLeg (k i : Nat) : Nat :=
  if k < 6 then (if i < 12 then i else 28) else if i < 16 then 12 + i else 28

/-- The bridges a leg page belongs to: every enabled bridge with that leg (R160). -/
def State.bridgesOfLeg (s : State) (leg : Nat) : List Nat :=
  (List.range 14).filter fun k => s.bit 0x15C (R.BRIDGE.CFG.EN k) &&
    (brLeg k (s.fld 0x15C (R.BRIDGE.CFG.LEGA k)) = leg || brLeg k (s.fld 0x15C (R.BRIDGE.CFG.LEGB k)) = leg)

/-- Every bridge that contains a leg, enabled or not (R168, R179). -/
def State.bridgesWith (s : State) (leg : Nat) : List Nat :=
  (List.range 14).filter fun k =>
    brLeg k (s.fld 0x15C (R.BRIDGE.CFG.LEGA k)) = leg || brLeg k (s.fld 0x15C (R.BRIDGE.CFG.LEGB k)) = leg

/-- The source that a page's STATE_REFUSED raises (R59). -/
def noteSource (pg : Nat) : List Nat :=
  match pageRun pg with
  | none => []
  | some r =>
    if pg = 0 then [] else if pg = 1 then [15] else if pg = 2 then [6] else if pg ≤ 4 then [14] else if pg ≤ 9 then [15]
    else if pg < 0x020 then [235] else if pg < 0x030 then [22] else if pg < 0x040 then [43]
    else if pg < 0x060 then [52] else if pg < 0x140 then [118] else if pg < 0x160 then [143]
    else if pg < 0x170 then [147] else if pg < 0x180 then [156] else if pg < 0x200 then [172]
    else if pg < 0x210 then [184] else if pg < 0x220 then [194] else if pg < 0x230 then [198]
    else if pg = 0x230 then [203] else if pg < 0x250 then [215] else if pg = 0x250 then [227]
    else if r.kind = .lf then [198] else []

/-- The sources that a block-defined PG_FSTAT bit raises (the source tables of the chapters). A bit whose source depends
on more than its page names it where it is detected. -/
def State.blkSources (s : State) (pg bit : Nat) : List Nat :=
  if bit = 0 then noteSource pg
  else if pg = 3 then [11] else if pg = 5 then [2] else if pg = 6 then [3] else if pg = 7 then [4]
  else if pg = 8 ∨ pg = 9 then [5]
  else if 0x020 ≤ pg ∧ pg ≤ 0x029 then
    (if bit = 1 then [16] else if bit = 2 then [17] else if bit = 3 ∨ bit = 4 then [20] else [])
  else if pg = 0x02A then (if bit = 1 then [18] else if bit = 2 ∨ bit = 3 then [19] else [])
  else if pg = 0x030 then
    (if bit = 1 then [32] else if bit = 3 then [37] else if bit = 4 ∨ bit = 6 then [38] else if bit = 5 then [39]
     else if bit = 7 then [42] else if bit = 8 then [36] else if bit = 9 then [41] else [])
  else if pg = 0x032 then [40]
  else if pg = 0x040 then (if bit = 1 then [48] else [49])
  else if pg = 0x052 then [50]
  else if 0x0F0 ≤ pg ∧ pg ≤ 0x0F5 then [112 + (pg - 0x0F0)]
  else if 0x100 ≤ pg ∧ pg ≤ 0x12F then [64 + (pg - 0x100)]
  else if 0x140 ≤ pg ∧ pg ≤ 0x15B then (s.bridgesWith (pg - 0x140)).map (128 + ·)
  else if pg = 0x15C then [142]
  else if 0x160 ≤ pg ∧ pg ≤ 0x163 then [144] else if 0x164 ≤ pg ∧ pg ≤ 0x167 then [145]
  else if pg = 0x168 then [146] else if pg = 0x170 then [152] else if pg = 0x172 then [153]
  else if 0x174 ≤ pg ∧ pg ≤ 0x177 then [154]
  else if 0x180 ≤ pg ∧ pg ≤ 0x187 then [160 + (pg - 0x180)]
  else if 0x1A0 ≤ pg ∧ pg ≤ 0x1A7 then [168] else if 0x1A8 ≤ pg ∧ pg ≤ 0x1AF then [169]
  else if pg = 0x1B0 then (if bit = 1 then [171] else [170])
  else if 0x200 ≤ pg ∧ pg ≤ 0x207 then [176 + (pg - 0x200)]
  else if 0x210 ≤ pg ∧ pg ≤ 0x215 then [188 + (pg - 0x210)]
  else if 0x220 ≤ pg ∧ pg ≤ 0x223 then [195] else if pg = 0x224 ∨ pg = 0x225 then [196]
  else if pg = 0x228 then [197]
  else if pg = 0x230 then (if bit = 1 then [200] else if bit = 2 then [201] else if bit = 3 then [202] else [])
  else if pg = 0x240 then
    (if bit = 1 then [208] else if bit = 2 then [209] else if bit = 3 then [210]
     else if bit = 4 ∨ bit = 5 then [211] else if bit = 6 then [212] else [])
  else if pg = 0x250 then (if bit = 1 then [224] else if bit = 2 then [225] else if bit = 3 then [226] else [])
  else if pg = 0xF00 then [199]
  else []

/-- The hardware events that a page posts for a PG_FSTAT bit with its PG_IRQEN bit set (R60); none for a page whose
chapter lists no such event. -/
def State.irqEvents (s : State) (pg : Nat) : List Nat :=
  if 0x020 ≤ pg ∧ pg ≤ 0x02A then [19]
  else if 0x030 ≤ pg ∧ pg ≤ 0x033 then [35]
  else if 0x040 ≤ pg ∧ pg ≤ 0x05F then [51]
  else if 0x0F0 ≤ pg ∧ pg ≤ 0x0F5 then [112 + (pg - 0x0F0)]
  else if 0x100 ≤ pg ∧ pg ≤ 0x12F then [64 + (pg - 0x100)]
  else if 0x140 ≤ pg ∧ pg ≤ 0x15B then (s.bridgesWith (pg - 0x140)).map (128 + ·)
  else if pg = 0x15C then [143]
  else if 0x160 ≤ pg ∧ pg ≤ 0x163 then [144] else if 0x164 ≤ pg ∧ pg ≤ 0x167 then [145]
  else if pg = 0x168 then [146]
  else if pg = 0x170 ∨ pg = 0x172 ∨ (0x174 ≤ pg ∧ pg ≤ 0x177) then [154]
  else if 0x180 ≤ pg ∧ pg ≤ 0x1B0 then [170]
  else if 0x200 ≤ pg ∧ pg ≤ 0x207 then [184 + (pg - 0x200)]
  else if 0x210 ≤ pg ∧ pg ≤ 0x215 then [198]
  else if (0x220 ≤ pg ∧ pg ≤ 0x228) ∨ pg = 0xF00 then [202]
  else if pg = 0x230 then [207]
  else if 0x240 ≤ pg ∧ pg ≤ 0x24F then [213]
  else if pg = 0x250 then [225]
  else []

/-- Let a cause cross to the KA island (R357). -/
def State.raise (s : State) (src : Nat) (d : Detail) : State := { s with raises := s.raises ++ [⟨src, d⟩] }

/-- A detection (R357): the PG_FSTAT bit sets; where PG_FMASK lets it, its sources are raised with the detail given; where
PG_IRQEN asks for it, the page's event is posted (R60). -/
def State.detectAs (s : State) (pg bit : Nat) (srcs : List Nat) (d : Detail) : State :=
  let b : Word := 1 <<< bit
  let s1 := s.setReg pg 0x048 (s.reg pg 0x048 ||| b)
  let s2 := if s.reg pg 0x04C &&& b = 0 then srcs.foldl (fun t c => t.raise c d) s1 else s1
  if s.reg pg 0x050 &&& b = 0 then s2 else (s.irqEvents pg).foldl State.post s2

/-- A detection with the sources of its page and bit, and the page as its detail (R372). -/
def State.detect (s : State) (pg bit : Nat) : State := s.detectAs pg bit (s.blkSources pg bit) (.page pg)

/-- A detection when a condition holds. -/
def State.detectIf (s : State) (c : Bool) (pg bit : Nat) : State := if c then s.detect pg bit else s

/-- A check that finds a lasting result (R357): one detection when it becomes confirmed, and anew once the bit has been
cleared; `was` says that the check before had confirmed it. -/
def State.detectHeld (s : State) (was : Bool) (pg bit : Nat) : State :=
  if was && (s.reg pg 0x048).getLsbD bit then s else s.detect pg bit

/-- A write refused in the present state (R59). (DESIGN CHOICE: log entry 2.) -/
def State.refuse (s : State) (pg : Nat) : State := (s.answer pg codeRefused).detect pg 0

/-- A write answered with RANGE (R58): no effect, no REF, no source. (DESIGN CHOICE: log entry 2.) -/
def State.range (s : State) (pg : Nat) : State := s.answer pg codeRange

/-- A write answered with OK. -/
def State.ok (s : State) (pg : Nat) : State := s.answer pg codeOK

/-! ## Locks -/

/-- Whether a page's own lock is set. -/
def State.lockBit (s : State) (pg : Nat) : Bool := s.bit pg R.PG_LOCK.LK

/-- Whether a folder's lock covers its subtree. -/
def State.treeLock (s : State) (pg : Nat) : Bool := s.bit pg R.PG_LOCK.LK && s.bit pg R.PG_LOCK.TREE

/-- Whether writes to a page are locked: by its own lock or by a tree lock of a folder above it (R61). -/
def State.locked (s : State) (pg : Nat) : Bool :=
  s.lockBit pg || (pg ≠ 0 && (s.treeLock (parentOf pg) || s.treeLock (parentOf (parentOf pg))))

/-! ## What leaves the device, and free values -/

/-- Something leaves the device. (DESIGN CHOICE: log entry 67.) -/
def State.emit (s : State) (o : Out) : State := { s with outbox := s.outbox ++ [o] }

/-- A free value is used up: the next one comes from the next count. (DESIGN CHOICE: log entry 17.) -/
def State.nextFree (s : State) : State := { s with freeCtr := s.freeCtr + 1 }

/-! ## Time -/

/-- TB counts: the IO clock runs, and the crystal has not stopped the PLLs (R90, R92, R105). -/
def State.tbCounts (s : State) : Bool := s.tbRun && !s.xinOut

/-- The time of the KA island in units of 10 ns (R514). A KA cycle is 100 of them. Its phase is that of TB as long as TB counts, and
a KA page copies at the fix tick itself (R79). (DESIGN CHOICE: log entry 69.) -/
def State.kaNow (s : State) : Int := (s.tb : Int) + s.kaLead

/-- Time passes: one tick of TB, where it counts; the KA island's time goes on in any case (R90, R92, R514).
(DESIGN CHOICE: log entry 1.) -/
def State.idle (s : State) : State :=
  if s.tbCounts then { s with tb := s.tb + 1 } else { s with kaLead := s.kaLead + 1 }

/-- The last tick that TB counts to, once the crystal has failed (R90, R105). (DESIGN CHOICE: log entry 3.) -/
def State.lastTick (s : State) : Option Nat := s.pwr.xinEnd.map fun e => max s.tb (e - s.kaLead).toNat

/-- TB counts up to a tick to come (R90, R92, R105). -/
def State.tickComes (s : State) (t : Nat) : Bool :=
  s.tbRun && (match s.lastTick with | some e => decide (t ≤ e) | none => true)

/-- What comes about at a tick. A command that names a happening of a tick says that the tick has come: TB, which counts on
between commands, stands at it or later. While TB does not count, a later tick does not come.
(DESIGN CHOICE: log entries 3, 66.) -/
def State.atTick (s : State) (t : Nat) (f : State → State) : Outcome :=
  if t ≤ s.tb then .next (f s) else if s.tickComes t then .next (f { s with tb := t }) else .next s

/-- What comes about at a time of the KA island, which goes on while TB stands (R514); TB counts along where it can.
(DESIGN CHOICE: log entries 3, 66.) -/
def State.atKa (s : State) (t : Int) (f : State → State) : Outcome :=
  if t ≤ s.kaNow then .next (f s)
  else
    if s.tickComes (t - s.kaLead).toNat then .next (f { s with tb := (t - s.kaLead).toNat })
    else
      let tb := if s.tbRun then s.lastTick.getD s.tb else s.tb
      .next (f { s with tb := tb, kaLead := t - tb })

end Sys2Proof.Machine
end

