-- ==== Sys2Proof/Machine/Memory.lean ====
section
/-! DEFINITION. The memories: physical places, bytes, little-endian values and the poison marks of protected words
(R257, R258, R338, R345). Register pages and the link window are not memory. -/

namespace Sys2Proof.Machine

/-! ## Places -/

/-- The place of byte `off` of macro `m` (R338). The OTP array, which R338 does not number, is macro 60 here. -/
def place (m off : Nat) : Nat := m * 0x1000000 + off

/-- The macro a place lies in. -/
def placeMacro (p : Nat) : Nat := p / 0x1000000

/-- The LED canvases (R338). -/
def macroCanvas : Nat := 44
/-- The context stores (R338). -/
def macroCtx : Nat := 45
/-- Data flash (R338). -/
def macroData : Nat := 58
/-- Boot ROM (R338). -/
def macroRom : Nat := 59
/-- The OTP array: the model's number. (DESIGN CHOICE: log entry 30.) -/
def macroOtp : Nat := 60

/-- What a place that nothing has written reads: 0, and 0xFF in flash, which is erased (R336).
(DESIGN CHOICE: log entry 15.) -/
def memDefault (p : Nat) : Byte := if 46 ≤ placeMacro p ∧ placeMacro p ≤ 58 then 0xFF else 0

/-- Whether a memory is in canonical form. -/
abbrev Memory.wf (m : Tab Byte) : Bool := twf memDefault m

/-- The macro of a logical core's local SRAM: with the pair that serves it (R255, R338); a pairless core's stays where it was
(R326). -/
def State.localMacro (s : State) (n : Nat) : Nat :=
  if s.pairOfCore n = 15 then tget (fun _ => 24) s.lcSram n else 24 + 2 * s.pairOfCore n + n / 8

/-- Place of offset `off` in the running bank's view, or in the other bank (R338, R478). (DESIGN CHOICE: log entry 30.) -/
def bankPlace (b : Bool) (off : Nat) : Nat := place ((if b then 52 else 46) + off / 0x200000) (off % 0x200000)

/-- The physical place of an address of the memory map; none for the register windows and outside every region (R257). -/
def State.placeOf (s : State) (a : Nat) : Option Nat :=
  if a < 0xC00000 then some (bankPlace s.bankB a)
  else if 0x01000000 ≤ a ∧ a < 0x01C00000 then some (bankPlace (!s.bankB) (a - 0x01000000))
  else if 0x02000000 ≤ a ∧ a < 0x02200000 then some (place macroData (a - 0x02000000))
  else if 0x10000000 ≤ a ∧ a < 0x10600000 then some (place ((a - 0x10000000) / 0x40000) ((a - 0x10000000) % 0x40000))
  else if 0x18000000 ≤ a ∧ a < 0x18100000 then
    (let n := (a - 0x18000000) / 0x10000
     if s.coreExists n then some (place (s.localMacro n) (a % 0x10000)) else none)
  else if 0x20000000 ≤ a ∧ a < 0x20020000 then some (place macroRom (a - 0x20000000))
  else if 0x50000000 ≤ a ∧ a < 0x50004000 then some (place macroOtp (a - 0x50000000))
  else if 0x60000000 ≤ a ∧ a < 0x60002000 then some (place macroCanvas (a - 0x60000000))
  else none

/-! ## Bytes -/

/-- The byte at a place. (DESIGN CHOICE: log entry 15.) -/
def State.byteAt (s : State) (p : Nat) : Byte := tget memDefault s.mem p

/-- Symbols in error of a stored protected word (R335). (DESIGN CHOICE: log entry 9.) -/
def State.symsOf (s : State) (w : Nat) : Nat := tget (fun _ => 0) s.symErr w

/-- Set the symbols in error of a stored word. -/
def State.setSyms (s : State) (w n : Nat) : State := { s with symErr := tset (fun _ => 0) s.symErr w n }

/-- Write the byte at a place: the word is stored anew, with no symbol in error (R337). -/
def State.setByte (s : State) (p : Nat) (v : Byte) : State :=
  { s with mem := tset memDefault s.mem p v, symErr := tset (fun _ => 0) s.symErr (p / 32) 0 }

/-- `n` bytes from a place. -/
def State.bytesAt (s : State) (p n : Nat) : List Byte := (List.range n).map fun i => s.byteAt (p + i)

/-- Write bytes from a place on. -/
def State.setBytes (s : State) (p : Nat) : List Byte → State
  | [] => s
  | b :: bs => (s.setByte p b).setBytes (p + 1) bs

/-- A little-endian value (R258). -/
def leVal : List Byte → Nat
  | [] => 0
  | b :: bs => b.toNat + 256 * leVal bs

/-- The bytes of a little-endian value of `n` bytes (R258). -/
def leBytes : Nat → Nat → List Byte
  | 0, _ => []
  | n + 1, v => BitVec.ofNat 8 v :: leBytes n (v / 256)

/-- A big-endian value. -/
def beVal (l : List Byte) : Nat := leVal l.reverse

/-- The bytes of a big-endian value of `n` bytes. -/
def beBytes (n v : Nat) : List Byte := (leBytes n v).reverse

/-- The little-endian value of `n` bytes at a place. -/
def State.leAt (s : State) (p n : Nat) : Nat := leVal (s.bytesAt p n)

/-- Write a little-endian value of `n` bytes at a place. -/
def State.setLe (s : State) (p n v : Nat) : State := s.setBytes p (leBytes n v)

/-! ## Poison -/

/-- The protected word of a place is poisoned, or, in flash beyond the 64 listed, uncorrectable at each access (R345). -/
def State.poisoned (s : State) (p : Nat) : Bool := s.poison.contains (p / 32) || decide (4 ≤ s.symsOf (p / 32))

/-- A place in data flash whose layout the spec does not give: a sector header, which carries the erase count, and the device's
own maps (R351). (DESIGN CHOICE: log entry 30.) -/
def mapPlace (p : Nat) : Bool :=
  placeMacro p = macroData && (decide (0x1FE0 ≤ p % 0x2000) || decide (0x1E0000 ≤ p % 0x1000000))

/-- The byte at a place as a reader finds it: of a header or a map, one that goes with what the device has stored there (R351,
R352). (DESIGN CHOICE: log entry 30.) -/
def State.readByte (s : State) (p : Nat) : Byte :=
  if mapPlace p then
    Config.mapByte p (if p % 0x1000000 < 0x1E0000 then tget (fun _ => 0) s.memc.nv.erases (384 + p % 0x1000000 / 0x2000) else s.memc.nv.ver)
  else s.byteAt p

/-- The little-endian value of `n` bytes at a place as a reader finds it. -/
def State.readLe (s : State) (p n : Nat) : Nat := leVal ((List.range n).map fun i => s.readByte (p + i))

/-- Mark or unmark a protected word. -/
def State.setPoison (s : State) (w : Nat) (b : Bool) : State :=
  if b then (if s.poison.contains w then s else { s with poison := w :: s.poison })
  else { s with poison := s.poison.filter (· ≠ w) }

/-- A hardware reader's value: 0 from a poisoned word (R346). -/
def State.hwLe (s : State) (p n : Nat) : Nat := if s.poisoned p then 0 else s.leAt p n

end Sys2Proof.Machine
end

