-- ==== Sys2Proof/Machine/Contexts.lean ====
section
/-! DEFINITION. Contexts and their scheduling (R260-R263), commits and the journal (R312-R317), traps (R268, R269), event
delivery (R265-R267) and the context commands (R270). -/

namespace Sys2Proof.Machine

/-- The logical core map's page. -/
def lcmPg : Nat := 0x02A

/-! ## Accessors -/

/-- A context right after reset (R270): OFF; context 31 with the ROM's NMT vector; context 0 of AC0 READY in the boot ROM.
(DESIGN CHOICE: log entry 16.) -/
def ctxDflt (k : Nat) : Ctx :=
  let r : CtxRegs := { ctvec := if k % 32 = 31 then 0x20000100 else 0 }
  let r := if k = 0 then { r with st := .ready, pri := 15, pc := 0x20000000 } else r
  { now := r, com := r }

/-- A context by its number (R260). -/
def State.ctxAt (s : State) (k : Nat) : Ctx := tget ctxDflt s.ctxs k
/-- Replace a context. -/
def State.setCtx (s : State) (k : Nat) (c : Ctx) : State := { s with ctxs := tset ctxDflt s.ctxs k c }
/-- Change a context. -/
def State.modCtx (s : State) (k : Nat) (f : Ctx → Ctx) : State := s.setCtx k (f (s.ctxAt k))
/-- The present registers of a context. -/
def State.cx (s : State) (k : Nat) : CtxRegs := (s.ctxAt k).now
/-- Change the present registers of a context. -/
def State.modCx (s : State) (k : Nat) (f : CtxRegs → CtxRegs) : State := s.modCtx k fun c => { c with now := f c.now }
/-- Change what is not rolled back: the configuration that others write (R312). -/
def State.modCxAll (s : State) (k : Nat) (f : CtxRegs → CtxRegs) : State :=
  s.modCtx k fun c => { c with now := f c.now, com := f c.com, olds := c.olds.map f }

/-- A logical core's record. -/
def State.lcAt (s : State) (n : Nat) : LCore := tget (fun _ => {}) s.lcores n
/-- Replace a logical core's record. -/
def State.setLc (s : State) (n : Nat) (v : LCore) : State := { s with lcores := tset (fun _ => {}) s.lcores n v }

/-- A general register: g0 reads 0 (R275). -/
def CtxRegs.get (r : CtxRegs) (n : Nat) : Word := if n = 0 then 0 else tget (fun _ => 0) r.g n
/-- Write a general register: a write of g0 is discarded; a written register holds a good value (R275). -/
def CtxRegs.set (r : CtxRegs) (n : Nat) (v : Word) : CtxRegs :=
  if n = 0 then r else { r with g := tset (fun _ => 0) r.g n v, bad := r.bad.filter (·.1 ≠ n) }
/-- A predicate: p0 reads true (R275). -/
def CtxRegs.getP (r : CtxRegs) (n : Nat) : Bool := n = 0 || r.p.testBit n
/-- Write a predicate: a write of p0 is discarded (R275). -/
def CtxRegs.setP (r : CtxRegs) (n : Nat) (b : Bool) : CtxRegs :=
  if n = 0 then r else { r with p := if b then r.p ||| 2 ^ n else r.p &&& (0xFE ^^^ 2 ^ n) }

/-! ## Commits -/

/-- A commit (R312): the present state becomes the committed one; entries whose access has completed are freed as it is confirmed
(R316). (DEDUCED: log entry 13.) -/
def Ctx.commit (c : Ctx) : Ctx :=
  { c with
    com := c.now
    olds := c.com :: c.olds
    jour := c.jour.map fun e => { e with
      age := e.age + 1
      freed := match e.freed with | some j => some (j + 1) | none => if e.done then some 0 else none } }

/-- The oldest commit that is not confirmed yet is confirmed (R312, R316): it cannot be discarded any more, and the entries that it
frees leave the journal. (DEDUCED: log entry 13.) -/
def Ctx.confirm (c : Ctx) : Ctx :=
  { c with
    olds := c.olds.dropLast
    jour := c.jour.filter fun e => match e.freed with | some j => decide (j + 1 < c.olds.length) | none => true }

/-- The last commit is discarded: the one before it stands (R312). -/
def Ctx.uncommit (c : Ctx) : Ctx :=
  match c.olds with
  | o :: os => { c with
      com := o
      olds := os
      jour := c.jour.map fun e => { e with
        age := e.age - 1, freed := match e.freed with | some (j + 1) => some j | _ => none } }
  | [] => c

/-- A context commits; the commit is confirmed once it has left the release buffer of its pair (R312).
(DEDUCED: log entry 13.) -/
def State.commitNow (s : State) (k : Nat) : State :=
  let s := s.modCtx k Ctx.commit
  s.setLc (k / 32) { s.lcAt (k / 32) with buf := (s.lcAt (k / 32)).buf ++ [{ id := k, commit := true, tick := s.kaNow }] }

/-- A transition of a context's state under R262: a yield point. (DEDUCED: log entry 13.) -/
def State.toSt (s : State) (k : Nat) (st : CtxSt) : State := (s.modCx k fun r => { r with st := st }).commitNow k

/-- The journal entries that count against its 64 places (R314, R316). -/
def Ctx.journalled (c : Ctx) : Nat := (c.jour.filter (·.freed.isNone)).length

/-- A commit would free an entry (R314, R316). -/
def Ctx.mayFree (c : Ctx) : Bool := c.jour.any fun e => e.done && e.freed.isNone

/-! ## Operation slots -/

/-- The operations of a context. -/
def State.opsOf (s : State) (k : Nat) : List Op := s.ops.filter (·.ctx = k)

/-- The slots a context holds: its operations, its wait, and one kept for it (R263). -/
def State.slotsOf (s : State) (k : Nat) : Nat :=
  ((s.opsOf k).filter (·.slot)).length + (if (s.cx k).st = .waitev ∨ (s.cx k).st = .waitt then 1 else 0) +
    (if (s.ctxAt k).slotRes then 1 else 0)

/-- The slots in use on a core, of 64 (R263). -/
def State.slotsUsed (s : State) (n : Nat) : Nat := ((List.range 32).map fun i => s.slotsOf (32 * n + i)).sum

/-- No slot is free for an operation of a context: one kept for it is its own (R263). -/
def State.slotsFull (s : State) (k : Nat) : Bool := !(s.ctxAt k).slotRes && decide (64 ≤ s.slotsUsed (k / 32))

/-- The slot kept for a context, if there is one, is no longer kept: the context has taken it, or does not need it. -/
def State.takeSlot (s : State) (k : Nat) : State :=
  if (s.ctxAt k).slotRes then s.modCtx k fun c => { c with slotRes := false } else s

/-- A register awaits an outstanding load of the context's present epoch. (DEDUCED: log entry 13.) -/
def State.awaits (s : State) (k r : Nat) : Bool :=
  s.ops.any fun o => o.ctx = k && o.kind = .load && o.reg = r && o.epoch = (s.ctxAt k).epoch

/-- The context is inside a string element, which is no instruction boundary (R301). -/
def State.midElem (s : State) (k : Nat) : Bool := (s.cx k).elem ≠ [] || s.awaits k 32

/-- What a string element has loaded so far is dropped: the element is performed anew. -/
def State.dropElem (s : State) (k : Nat) : State :=
  State.modCx { s with ops := s.ops.map fun (o : Op) => if o.ctx = k ∧ o.reg = 32 then { o with reg := 0 } else o } k fun r =>
    { r with elem := [], bad := r.bad.filter (·.1 ≠ 32) }

/-! ## Scheduling -/

/-- The core moves under a takeover that runs or waits (R321, R322). -/
def State.moving (s : State) (n : Nat) : Bool :=
  s.takeovers.any (fun t => t.cores.contains n) || s.tkWait.any fun t => t.2.contains n

/-- A logical core issues: it exists, a pair with a running clock serves it, and nothing holds it. -/
def State.coreRuns (s : State) (n : Nat) : Bool :=
  s.coreExists n && s.pairOfCore n ≠ 15 && s.clocked (.cp (s.pairOfCore n)) && !s.moving n &&
    !(s.lcAt n).stopped && !(s.lcAt n).dbg && s.power ≠ .park

/-- Scheduling priority: an NMT handler runs above 15 (R269). -/
def CtxRegs.rank (r : CtxRegs) : Nat := if r.nmode then 16 else r.pri

/-- A context that can issue: READY, or RUN without a waiting FENCE, and not draining; a context that drains ends a string
element whose loads have arrived (R261, R270, R294, R301). -/
def Ctx.canIssue (c : Ctx) : Bool :=
  (!c.now.drain || c.now.elem ≠ []) && (c.now.st == .ready || (c.now.st == .run && !c.fence))

/-- Give the core to context `j`: the one that ran becomes READY, both yield points (R261, R312). -/
def State.giveCore (s : State) (n j : Nat) : State :=
  let l := s.lcAt n
  let s := match l.cur with
    | some i => if i ≠ j ∧ (s.cx (32 * n + i)).st = CtxSt.run ∧ !(s.ctxAt (32 * n + i)).fence then s.toSt (32 * n + i) .ready else s
    | none => s
  (s.toSt (32 * n + j) CtxSt.run).setLc n { l with cur := some j, last := j }

/-- Selection under R261: highest priority; the running context keeps the core among equals, the others follow by index;
under `hint`, another ready context of equal priority takes it. -/
def State.scheduleWith (s : State) (n : Nat) (hint : Bool) : State :=
  if !s.coreRuns n then s
  else
    let l := s.lcAt n
    let can := (List.range 32).filter fun i => (s.ctxAt (32 * n + i)).canIssue
    let top := can.foldl (fun m i => max m (s.cx (32 * n + i)).rank) 0
    let best := can.filter fun i => (s.cx (32 * n + i)).rank = top
    let next := (((List.range 32).map fun d => (l.last + 1 + d) % 32).filter best.contains).head?
    match l.cur, next with
    | some i, some j =>
      if best.contains i && (s.cx (32 * n + i)).st == .run then
        (if hint then (match (((List.range 31).map fun d => (i + 1 + d) % 32).filter best.contains).head? with
          | some k => s.giveCore n k
          | none => s) else s)
      else s.giveCore n j
    | none, some j => s.giveCore n j
    | _, none => s.setLc n { l with cur := none }

/-- Selection under R261. -/
def State.schedule (s : State) (n : Nat) : State := s.scheduleWith n false

/-- The context that issues on a core. -/
def State.issuing (s : State) (n : Nat) : Option Nat :=
  if s.coreRuns n then
    match (s.lcAt n).cur with
    | some i => if i < 32 ∧ (s.ctxAt (32 * n + i)).canIssue ∧ (s.cx (32 * n + i)).st = .run then some (32 * n + i) else none
    | none => none
  else none

/-- A context becomes READY and its core selects again. -/
def State.wake (s : State) (k : Nat) : State := (s.toSt k .ready).schedule (k / 32)

/-- Contexts in OPWAIT whose wait is over become READY (R262): the registers' loads have arrived, a journal entry has
completed; the slots free go to those of highest priority, then lowest index, and are kept for them (R263). -/
def State.wakeOps (s : State) (n : Nat) : State :=
  let ks := (List.range 32).map (32 * n + ·)
  let s := ks.foldl (fun t k =>
    let c := t.ctxAt k
    if c.now.st = .opwait then
      (match c.now.opw with
        | .regs l => if l.any (t.awaits k) then t else t.toSt k .ready
        | .jour => if c.journalled < 64 ∨ c.mayFree then t.toSt k .ready else t
        | .slot => t
        | .fetch _ => t)
    else t) s
  let ws := ks.filter fun k => (s.cx k).st = .opwait && (s.cx k).opw = .slot && !(s.cx k).drain
  let order := (List.range 17).reverse.flatMap fun r => ws.filter fun k => (s.cx k).rank = r
  ((order.take (64 - s.slotsUsed n)).foldl (fun t k => (t.modCtx k fun c => { c with slotRes := true }).toSt k .ready) s).schedule n

/-- A FENCE whose context has no access outstanding completes (R294). -/
def State.fenceDone (s : State) (k : Nat) : State :=
  let c := s.ctxAt k
  if c.fence && (s.opsOf k).all (·.kind = .post) then
    let s := s.modCtx k fun c => { c with fence := false, now := { c.now with pc := c.now.pc + 4 } }
    if (s.lcAt (k / 32)).cur = some (k % 32) then s else s.toSt k .ready
  else s

/-! ## The journal -/

/-- Record the outcome of an access in its journal entry, whatever its epoch (R315). -/
def recordIn (id v : Nat) (bad err : Bool) (l : List JEnt) : List JEnt :=
  l.map fun e => if e.id = id then { e with done := true, val := v, bad := bad, err := err } else e

/-- Where a load's value goes: its register, or the values of a string element (R300). (DESIGN CHOICE: log entry 29.) -/
def CtxRegs.land (r : CtxRegs) (o : Op) (v : Nat) (bad err : Bool) : CtxRegs :=
  if err then { r with late := r.late ++ [BitVec.ofNat 32 o.addr] }
  else if o.kind ≠ .load then r
  else if o.reg = 32 then
    { r with elem := r.elem ++ [(o.addr, BitVec.ofNat 32 v)]
             bad := if bad then r.bad ++ [(32, BitVec.ofNat 32 o.addr)] else r.bad }
  else if o.reg = 0 then r
  else
    let r := r.set o.reg (BitVec.ofNat 32 v)
    if bad then { r with bad := r.bad ++ [(o.reg, BitVec.ofNat 32 o.addr)] } else r

/-- An operation completes (R263): its entry records it (R315); under the present epoch it reaches the registers, those of
a committed state too that was taken while it was outstanding (R316, R319). -/
def State.opDone (s : State) (o : Op) (v : Nat) (bad err : Bool) : State :=
  let s : State := { s with ops := s.ops.filter (·.id ≠ o.id) }
  let s := if o.reg = 32 ∧ err then s.dropElem o.ctx else s
  s.modCtx o.ctx fun c =>
    let age := ((c.jour.find? (·.id = o.id)).map (·.age)).getD 0
    let c := { c with jour := recordIn o.id v bad err c.jour, replay := recordIn o.id v bad err c.replay }
    if o.epoch = c.epoch then
      { c with
        now := c.now.land o v bad err
        com := if 1 ≤ age then c.com.land o v bad err else c.com
        olds := (c.olds.take (age - 1)).map (·.land o v bad err) ++ c.olds.drop (age - 1) }
    else c

/-! ## Traps -/

/-- Trap cause codes (R303). -/
def trapIllegal : Nat := 1
/-- FETCH. -/
def trapFetch : Nat := 2
/-- ACCESS. -/
def trapAccess : Nat := 3
/-- POISON. -/
def trapPoison : Nat := 4
/-- DIVZ. -/
def trapDivz : Nat := 5
/-- EVENT. -/
def trapEvent : Nat := 6
/-- SOFT. -/
def trapSoft : Nat := 7

/-- A trap (R268, R303): CTPC, CTCAUSE and CTVAL are saved, TMODE sets, and the context continues at CTVEC; in TMODE or
NMODE it halts with DBL, and source 21 is raised (R304). -/
def State.takeTrap (s : State) (k cause : Nat) (late : Bool) (ctpc ctval : Word) : State :=
  let r := s.cx k
  if r.tmode || r.nmode then
    (((s.modCx k fun r => { r with dbl := true, drain := false }).toSt k .halted).raise 21 (.page lcmPg)).post 18
  else
    (s.modCx k fun r =>
      { r with ctpc := ctpc, ctcause := BitVec.ofNat 8 (cause + if late then 128 else 0), ctval := ctval, tmode := true
               pc := r.ctvec }).count lcmPg (k / 32)

/-- A late ACCESS trap due at the boundary the context has reached (R303, R304). -/
def State.takeLate (s : State) (k : Nat) (a : Word) : State :=
  let s := s.modCx k fun r => { r with late := r.late.tail }
  s.takeTrap k trapAccess true (s.cx k).pc a

/-! ## Non-maskable traps -/

/-- Context 31 takes an NMT (R269), or the core holds or drops it. (DEDUCED: log entry 14.) -/
def State.takeNmt (s : State) (n : Nat) : State :=
  let k := 32 * n + 31
  let l := s.lcAt n
  if !s.coreExists n then s
  else if s.moving n then s.setLc n { l with collNmt := true }
  else if (s.cx k).nmode then
    (if l.nmtHeld then s.count lcmPg (16 + n) else s.setLc n { l with nmtHeld := true })
  else
    let s := s.modCtx k fun c => { c with fence := false, slotRes := false, now := { c.now with
      cnpc := c.now.pc, nmode := true, pc := c.now.ctvec, drain := false, dbl := false, deadline := none } }
    (s.toSt k .ready).wakeOps n

/-- NMT_ARRIVAL (R269), at an instruction boundary of context 31 (R301). -/
def execNmtArrival (lc : Fin 16) (s : State) : Outcome :=
  if s.nmts.contains lc.val ∧ (s.moving lc ∨ !s.midElem (32 * lc.val + 31)) then .next (State.takeNmt { s with nmts := s.nmts.erase lc.val } lc) else .next s

/-! ## Events -/

/-- A posting reaches a core (R266): every context that waits on the event becomes READY with its predicate true (R297);
with none, the pending bit sets. A posting to a core that moves is collected (R322). -/
def State.arrive (s : State) (n ev : Nat) : State :=
  let l := s.lcAt n
  if s.moving n then s.setLc n { l with coll := l.coll ++ [ev] }
  else
    let ws := ((List.range 32).map (32 * n + ·)).filter fun k => (s.cx k).st = .waitev && (s.cx k).evt = ev
    if ws = [] then s.setLc n { l with pend := l.pend ||| 2 ^ ev }
    else
      (ws.foldl (fun t k =>
        (t.modCx k fun r => { r.setP r.waitPd true with pc := r.pc + 4, deadline := none }).toSt k .ready) s).wakeOps n

/-- A posting still on its way to a core. -/
def Posting.goesTo (p : Posting) (n : Nat) : Bool := p.left.contains n

/-- A posting that has reached a core. -/
def Posting.reached (p : Posting) (n : Nat) : Posting := { p with left := p.left.erase n }

/-- The first posting of an event on its way to a core arrives, after those that the same island posted before it: transfers
over one crossing arrive in the order sent (R18, R265). -/
def State.deliver (s : State) (n ev : Nat) : State :=
  let here := fun (p : Posting) => p.ev = ev && p.goesTo n
  match s.postings.find? here with
  | none => s
  | some p =>
    let pre := s.postings.takeWhile fun q => !here q
    let due := (pre.filter fun q => q.isl = p.isl && q.goesTo n) ++ [p]
    let rest := pre.map (fun q => if q.isl = p.isl then q.reached n else q) ++
      p.reached n :: (s.postings.dropWhile fun q => !here q).tail
    due.foldl (fun t q => t.arrive n q.ev) { s with postings := rest.filter (·.left ≠ []) }

/-- WAIT_DEADLINE (R297, R298): the CP island observes the deadline tick of a waiting context. -/
def execWaitDeadline (lc : Fin 16) (i : Fin 32) (s : State) : Outcome :=
  let k := 32 * lc.val + i.val
  if !s.coreRuns lc then .next s
  else match (s.cx k).st, (s.cx k).deadline with
  | .waitt, some d => s.atTick d fun s =>
    ((s.modCx k fun r => { r with pc := r.pc + 4, deadline := none }).toSt k .ready).wakeOps lc
  | .waitev, some d => s.atTick d fun s =>
    ((s.modCx k fun r => { r.setP r.waitPd false with pc := r.pc + 4, deadline := none }).toSt k .ready).wakeOps lc
  | _, _ => .next s

/-! ## Context commands -/

/-- START (R262, R276, R291): READY at CENTRY with registers, predicates, status and the trap registers cleared.
(DEDUCED: log entry 14.) -/
def State.ctxStart (s : State) (k : Nat) : State :=
  let s := (s.dropElem k).modCtx k fun c =>
    { c with replay := [], fence := false, slotRes := false, now :=
      { pc := c.now.centry, centry := c.now.centry, ctvec := c.now.ctvec, mig := c.now.mig, pri := c.now.pri } }
  s.wake k

/-- A draining context with no slot left becomes HALTED (R270). -/
def State.drainEnd (s : State) (k : Nat) : State :=
  if (s.cx k).drain ∧ (s.opsOf k).all (fun o => !o.slot) ∧ (s.cx k).elem = [] then
    ((s.modCx k fun r => { r with drain := false }).toSt k .halted).schedule (k / 32)
  else s

/-- HALT (R270): the context stops issuing and drains; a wait is abandoned with its PC at the wait.
(DEDUCED: log entry 14.) -/
def State.ctxHalt (s : State) (k : Nat) : State :=
  let s := s.modCtx k fun c => { c with fence := false, slotRes := false, now := { c.now with drain := true, deadline := none } }
  let s := if (s.cx k).st = .waitev ∨ (s.cx k).st = .waitt then s.toSt k .ready else s
  (s.drainEnd k).wakeOps (k / 32)

/-- A write of LCM.CCMD (R270): accepted in the states of its command; the others, and a draining context, refuse it.
(DEDUCED: log entry 14.) -/
def State.ctxCmd (s : State) (op : Nat) : State :=
  let k := s.fld lcmPg R.LCM.CSEL.CTX
  let st := (s.cx k).st
  if (s.cx k).drain then s.refuse lcmPg
  else if op = 1 then (if st = .off ∨ st = .halted then (s.ok lcmPg).ctxStart k else s.refuse lcmPg)
  else if op = 2 then (if st = .off ∨ st = .halted then s.refuse lcmPg else (s.ok lcmPg).ctxHalt k)
  else if op = 3 then
    (if st = .halted then ((s.ok lcmPg).modCx k fun r => { r with dbl := false }).wake k else s.refuse lcmPg)
  else s.range lcmPg

/-- DRAIN_COMPLETE (R270). (DEDUCED: log entry 14.) -/
def execDrainComplete (lc : Fin 16) (i : Fin 32) (s : State) : Outcome := .next (s.drainEnd (32 * lc.val + i.val))

/-! ## Rollback -/

/-- A rollback at a placement change (R312, R317, R319): the committed state stands; the epoch rises; what was recorded since is
met again in order. (DESIGN CHOICE: log entries 12, 29.) -/
def Ctx.rollback (c : Ctx) : Ctx :=
  { c with
    now := { c.com with st := if c.com.st = .run then .ready else c.com.st }
    epoch := (c.epoch + 1) % 65536
    replay := (c.jour.filter (·.age = 0)) ++ c.replay
    jour := c.jour.filter (1 ≤ ·.age)
    fence := false
    slotRes := false }

/-- Roll back the contexts of a core: operations of before the last commit are claimed under the new epoch (R319).
(DESIGN CHOICE: log entry 12.) -/
def State.rollbackCore (s : State) (n : Nat) : State :=
  let s := (List.range 32).foldl (fun t i =>
    let k := 32 * n + i
    let t := t.modCtx k Ctx.rollback
    let c := t.ctxAt k
    { t with ops := t.ops.map fun o =>
        if o.ctx = k ∧ c.jour.any (·.id = o.id) then { o with epoch := c.epoch } else o }) s
  s.setLc n { s.lcAt n with cur := none }

/-! ## The release buffer (R309, R310) -/

/-- A request of a core enters the release buffer. -/
def State.enter (s : State) (n id : Nat) : State :=
  s.setLc n { s.lcAt n with buf := (s.lcAt n).buf ++ [{ id := id, tick := s.kaNow }] }

/-- An entry of the release buffer is a request's. -/
def BufEnt.isReq (e : BufEnt) (id : Nat) : Bool := !e.commit && e.id == id

/-- A request has been released: it has compared equal, or the core's buffer does not hold it (R309). -/
def State.released (s : State) (n id : Nat) : Bool := !((s.lcAt n).buf.any (·.isReq id))

/-- The commits among entries that have compared equal are confirmed (R312). -/
def State.confirmAll (s : State) (l : List BufEnt) : State :=
  l.foldl (fun (t : State) e => if e.commit then t.modCtx e.id Ctx.confirm else t) s

/-- An issue cycle of a core passes (R309). -/
def LCore.aged (l : LCore) : LCore :=
  { l with buf := (l.buf.filter fun e => decide (e.cyc < 2)).map fun e => { e with cyc := e.cyc + 1 } }

/-- A request is discarded with its journal entry, which is not valid yet (R310, R316); a pending bit that its wait had
consumed is set again. (DESIGN CHOICE: log entry 12.) -/
def State.discard (s : State) (n id : Nat) : State :=
  let s := (List.range 32).foldl (fun (t : State) i =>
    let c := t.ctxAt (32 * n + i)
    match (c.jour ++ c.replay).find? fun e => e.id = id with
    | none => t
    | some e =>
      let t := if e.kind = .wait ∧ e.val = 1 ∧ e.data ≠ 0 then
          t.setLc n { t.lcAt n with pend := (t.lcAt n).pend ||| 2 ^ (e.data - 1) } else t
      t.setCtx (32 * n + i) { c with jour := c.jour.filter (·.id ≠ id), replay := c.replay.filter (·.id ≠ id) }) s
  { s with ops := s.ops.filter (·.id ≠ id) }

/-- The entries of a release buffer that both copies have agreed on when a mismatch is found (R310, R312): all but the youngest `m`
requests, the commits of the contexts that `undo` names, and whatever is younger than one of these.
(DESIGN CHOICE: log entry 12.) -/
def agreedLen (undo : Nat → Bool) : Nat → List BufEnt → Nat
  | _, [] => 0
  | m, e :: es =>
    if (!e.commit && decide ((es.filter fun x => !x.commit).length < m)) || (e.commit && undo (e.id % 32)) then 0
    else agreedLen undo m es + 1

/-- What both copies have not agreed on is discarded: requests with their journal entries, and commits (R310, R312).
(DESIGN CHOICE: log entry 12.) -/
def State.dropFrom (s : State) (n keep : Nat) : State :=
  let b := (s.lcAt n).buf
  let s := (b.drop keep).reverse.foldl (fun (t : State) e =>
    if e.commit then t.modCtx e.id Ctx.uncommit else t.discard n e.id) s
  s.setLc n { s.lcAt n with buf := b.take keep }

end Sys2Proof.Machine
end

