-- ==== Sys2Proof/Machine/MemInt.lean ====
section
/-! DEFINITION. Memory integrity (R334-R356): corrected, uncorrectable and poisoned reads, the scrubber, row repair and its
map, ZERO, and the flash controller. -/

namespace Sys2Proof.Machine

/-- MEMC. -/
def mcPg : Nat := 0x030
/-- MEMR. -/
def mrPg : Nat := 0x031
/-- The flash controller. -/
def flPg : Nat := 0x032

/-! ## Macros -/

/-- The data bytes of a macro (R338). -/
def macroBytes (m : Nat) : Nat :=
  if m < 24 then 0x40000 else if m < 44 then 0x10000 else if m = 44 then 0x2000
  else if m = 45 then 0x20000 else if m < 59 then 0x200000 else 0x20000

/-- A macro of flash. -/
def isFlash (m : Nat) : Bool := decide (46 ≤ m) && decide (m ≤ 58)

/-- The address of a place in the memory map (R257, R338); for macro 45 its offset, and 0 for a local macro that no core's
local SRAM is in. -/
def State.addrOf (s : State) (p : Nat) : Nat :=
  let m := placeMacro p
  let off := p % 0x1000000
  if m < 24 then 0x10000000 + m * 0x40000 + off
  else if m < 44 then
    match (List.range 16).find? fun n => s.coreExists n && s.localMacro n = m with
    | some n => 0x18000000 + n * 0x10000 + off
    | none => 0
  else if m = 44 then 0x60000000 + off
  else if m = 45 then off
  else if m < 58 then
    let b := decide (52 ≤ m)
    (if b = s.bankB then 0 else 0x01000000) + (m - (if b then 52 else 46)) * 0x200000 + off
  else if m = 58 then 0x02000000 + off
  else if m = 59 then 0x20000000 + off
  else 0x50000000 + off

/-! ## Reads with errors -/

/-- The bytes of words, little-endian (R258). -/
def wordsBytes (l : List Word) : List Byte := l.flatMap fun w => leBytes 4 w.toNat

/-- Eight words with values that the spec leaves open (R353). (DESIGN CHOICE: log entry 17.) -/
def State.freeBytes (s : State) : List Byte := wordsBytes ((List.range 8).map fun i => Config.freeWord (s.freeCtr + i))

/-- MEMC.EADDR and MEMC.EINFO take an error. -/
def State.memNote (s : State) (p kind nsym : Nat) : State :=
  let off := p % 0x1000000
  let s := s.setFld mcPg R.MEMC.EADDR.ADDR (s.addrOf (p / 32 * 32))
  let s := (s.setFld mcPg R.MEMC.EINFO.MACRO (placeMacro p)).setFld mcPg R.MEMC.EINFO.ROW (off / 256)
  ((s.setFld mcPg R.MEMC.EINFO.WORD (off / 32 % 8)).setFld mcPg R.MEMC.EINFO.KIND kind).setFld mcPg R.MEMC.EINFO.NSYM nsym

/-- A detection of the memory pages, with the address in its detail word (R372). -/
def State.memDetect (s : State) (bit src p : Nat) : State :=
  s.detectAs mcPg bit [src] (.val (BitVec.ofNat 32 (s.addrOf (p / 32 * 32))))

/-- A detection whose detail word is MEMC.EADDR (R372). -/
def State.memDetectE (s : State) (pg bit src : Nat) : State := s.detectAs pg bit [src] (.val (s.reg mcPg R.MEMC.EADDR.ADDR.off))

/-- A row of the tracker is pending remap: its count has reached 3; a row of the boot ROM is counted only (R341, R354). -/
def RowCnt.due (r : RowCnt) : Bool := decide (3 ≤ r.n) && r.mac != 59

/-- What waits to be stored in the device's maps, or in the nonce areas (R444), is being written: nothing else has the flash controller (R349).
(DESIGN CHOICE: log entry 30.) -/
def State.mapStart (s : State) : State :=
  if (s.memc.repairs ≠ [] ∨ s.retouchPend ≠ [] ∨ s.cry.ctrs.any (·.2.wr.isSome)) ∧ s.memc.flash = none ∧ s.upd.piece = none then
    (s.setBit flPg R.PG_STAT.BUSY true).setBit flPg R.FL.STAT.HWOP true
  else s

/-- A word of a map is stored: BUSY and HWOP clear when nothing else waits (R349). -/
def State.mapDone (s : State) : State := ((s.setBit flPg R.PG_STAT.BUSY false).setBit flPg R.FL.STAT.HWOP false).mapStart

/-- A repair waits to be stored (R344). -/
def State.queueRepair (s : State) (r : Repair) : State :=
  State.mapStart { s with memc := { s.memc with repairs := s.memc.repairs ++ [r] } }

/-- Count a corrected read of a row (R341): a full tracker of 64 gives up its lowest, oldest count that is not pending. -/
def State.rowCount (s : State) (m row : Nat) : State :=
  let rs := s.memc.rows
  let rs := if rs.any fun r => r.mac = m && r.row = row then
      rs.map fun r => if r.mac = m ∧ r.row = row then { r with n := r.n + 1 } else r
    else
      let rs := if rs.length < 64 then rs else
        let free := rs.filter fun r => !r.due
        let low := (free.map (·.n)).foldl min ((free.head?.map (·.n)).getD 0)
        match rs.find? fun r => r.n = low && !r.due with
        | some r => rs.erase r
        | none => rs
      if rs.length < 64 then rs ++ [{ mac := m, row := row, n := 1 }] else rs
  { s with memc := { s.memc with rows := rs } }

/-- The context-store entry of a context is uncorrectable (R346): HALTED with DBL, registers 0, PC at CENTRY; CTXUE, and event 18 as
with every halt with DBL (R273); its slots are free for others (R263). (DESIGN CHOICE: log entry 29.) -/
def State.ctxUe (s : State) (k off : Nat) : State :=
  let s := s.modCtx k fun c => { c with replay := [], fence := false, slotRes := false, now :=
    { pc := c.now.centry, centry := c.now.centry, ctvec := c.now.ctvec, mig := c.now.mig, pri := c.now.pri, dbl := true } }
  (((s.toSt k .halted).detectAs mcPg 8 [36] (.val (BitVec.ofNat 32 off))).post 18).wakeOps (k / 32)

/-- A read finds a word with more than 3 symbols in error (R345): it is poisoned, and the source of its class is raised. A
65th poisoned flash word is not listed. -/
def State.memUe (s : State) (p : Nat) (owner : Option Nat) : State :=
  let m := placeMacro p
  let s := (s.memNote p 2 0).count mcPg 1
  let listed := !isFlash m || decide ((s.poison.filter fun w => isFlash (placeMacro (w * 32))).length < 64)
  let s := if listed then (s.setPoison (p / 32) true).setSyms (p / 32) 0 else s
  let s := if isFlash m ∧ listed then s.queueRepair (.poison (p / 32)) else s
  if m = 45 then
    (match owner with
      | some k => s.ctxUe k (p % 0x1000000)
      | none => s.memDetect 8 36 p)
  else if m = 59 then s.memDetect 7 42 p
  else s.memDetect 2 (if m < 24 ∨ m = 44 then 33 else if m < 44 then 34 else 35) p

/-- A pattern in 4 or more symbols that decodes as a wrong word (R335): the operand 38 + n stands for one that the decoder takes
for n symbols in error. (DESIGN CHOICE: log entry 9.) -/
def miscorrects (p nsym : Nat) : Bool := decide (placeMacro p < 60) && decide (38 < nsym) && decide (nsym ≤ 41)

/-- Registers with values that the spec leaves open, from the free value numbered `f` on. (DESIGN CHOICE: log entry 29.) -/
def CtxRegs.wrong (r : CtxRegs) (f : Nat) : CtxRegs :=
  { r with
    g := (List.range 31).foldl (fun t i => tset (fun _ => 0) t (i + 1) (Config.freeWord (f + i))) r.g
    p := (Config.freeWord (f + 31)).toNat % 128 * 2
    v := Config.freeBit (f + 31)
    dz := Config.freeBit (f + 32)
    scr0 := Config.freeWord (f + 32)
    scr1 := Config.freeWord (f + 33)
    pc := Config.freeWord (f + 34) &&& 0xFFFFFFFC }

/-- What a protected word holds once a pattern in it has been taken for another correctable word (R335): open values. In macro 45
they are the committed registers of the context that owns the word. (DESIGN CHOICE: log entry 9.) -/
def State.wrongWord (s : State) (p : Nat) (owner : Option Nat) : State :=
  if placeMacro p = 45 then
    match owner with
    | some k => State.modCtx { s with freeCtr := s.freeCtr + 35 } k fun c =>
      { c with com := c.com.wrong s.freeCtr, now := if c.now.st = .run then c.now else c.now.wrong s.freeCtr }
    | none => s
  else { (s.setBytes (p / 32 * 32) s.freeBytes) with freeCtr := s.freeCtr + 8 }

/-- A read of a protected word by any requester (R335, R337, R341, R345), `nsym` more of its symbols in error than at its last read:
the state after it, and whether the value is poisoned. A corrected read leaves the stored word as it is. OTP lies outside the
macros. (DESIGN CHOICE: log entry 9.) -/
def State.memRead (s : State) (p nsym : Nat) (owner : Option Nat) : State × Bool :=
  let m := placeMacro p
  let w := p / 32
  let fixed := fun (t : State) n =>
    ((((t.setSyms w n).memNote p 1 n).count mcPg 0).memDetect 1 32 p).rowCount m (p % 0x1000000 / 256)
  if 60 ≤ m then (s, false)
  else if s.poison.contains w then (s.memNote p 3 0, true)
  else if miscorrects p nsym ∧ s.symsOf w < 4 then (fixed (s.wrongWord p owner) (nsym - 38), false)
  else
    let n := min 38 (s.symsOf w + nsym)
    if n = 0 then (s, false)
    else if n ≤ 3 then (fixed s n, false)
    else ((s.setSyms w n).memUe p owner, true)

/-- The hardware reads words of its own accord: those among them that stand in error, or are poisoned, are met as by any other read
(R341, R345, R346). (DESIGN CHOICE: log entry 9.) -/
def State.hwFind (s : State) (f : Nat → Bool) : State :=
  let ws := ((s.symErr.map (·.1)) ++ s.poison).filter f
  (ws.foldl (fun t w => tset (fun _ => 0) t w 1) ([] : Tab Nat)).foldl (fun (t : State) e => (t.memRead (e.1 * 32) 0 none).1) s

/-- The protected words in which `n` bytes from an address on stand. -/
def State.wordsIn (s : State) (a n : Nat) : List Nat :=
  (List.range ((a % 32 + n + 31) / 32)).filterMap fun i => (s.placeOf (a / 32 * 32 + 32 * i)).map (· / 32)

/-- The hardware reads `n` bytes of memory from an address on (R346). -/
def State.hwRead (s : State) (a n : Nat) : State :=
  if (s.symErr = [] ∧ s.poison = []) ∨ n = 0 then s else s.hwFind (s.wordsIn a n).contains

/-! ## Scrubbing -/

/-- The pair of a local macro runs split (R340). -/
def State.runsSplit (s : State) (pr : Nat) : Bool :=
  (List.range 8).any fun n => s.pairOf n = pr && (s.fld lcmPg R.LCM.SPLIT.SPLIT).testBit n

/-- CORE.STAT.ROLE of a pair (R254). -/
def State.role (s : State) (pr : Nat) : Nat := s.fld (0x020 + pr) R.CORE.STAT.ROLE

/-- The flash controller is at work for the device: on a piece of the update block, or on a map (R349, R484). -/
def State.flHw (s : State) : Bool := s.bit flPg R.FL.STAT.HWOP

/-- The flash bank that is being programmed or erased, by firmware or by the update block (R340). -/
def State.flashBank (s : State) : Option Bool :=
  match s.memc.flash with
  | some o => if placeMacro o.at_ < 58 then some (decide (52 ≤ placeMacro o.at_)) else none
  | none => if s.flHw ∧ s.upd.piece.isSome then some s.upd.bank else none

/-- A word of data flash is being programmed, by firmware or for a map: reads of data flash wait (R350). -/
def State.dataBusy (s : State) : Bool :=
  match s.memc.flash with
  | some o => o.prog && decide (placeMacro o.at_ = macroData)
  | none => s.flHw && s.upd.piece.isNone

/-- A macro that the scrubber skips (R340). -/
def State.scrubSkips (s : State) (m : Nat) : Bool :=
  if 24 ≤ m ∧ m < 44 then
    let pr := (m - 24) / 2
    !s.clocked (.cp pr) || s.role pr = 0 || (m % 2 = 1 && !s.runsSplit pr)
  else if m < 52 ∧ 46 ≤ m then s.flashBank = some false
  else if m < 58 ∧ 52 ≤ m then s.flashBank = some true
  else false

/-- The first macro from `m` on that the scrubber reads. -/
def State.scrubFrom (s : State) (m : Nat) : Option Nat := ((List.range 60).filter (m ≤ ·)).find? fun q => !s.scrubSkips q

/-- Put the pass at a place; past the last macro it is complete (R340). -/
def State.scrubAt (s : State) (m w : Nat) : State :=
  match (if w < macroBytes m / 32 then some (m, w) else (s.scrubFrom (m + 1)).map fun q => (q, 0)) with
  | some (q, v) => ({ s with memc := { s.memc with word := (q, v) } } : State).setFld mcPg R.MEMC.SSTAT.MACRO q
  | none =>
    let s := (s.setBit mcPg R.MEMC.SSTAT.RUN false).count mcPg 3
    (s.setFld mcPg R.MEMC.SSTAT.PASS (min 0xFFFF (s.fld mcPg R.MEMC.SSTAT.PASS + 1))).post 32

/-- The MEM island works. -/
def State.memRuns (s : State) : Bool := s.clocked .mem

/-- The MEM cycle that runs, 600 MHz against the 10 ns of KA time (R104, R514). -/
def State.memNow (s : State) : Int := 6 * s.kaNow

/-- The KA time at which the next scrub read comes: GAP MEM cycles after the last (R340). -/
def State.scrubDue (s : State) : Int := (s.memc.readAt + s.fld mcPg R.MEMC.SCRUB.GAP + 5) / 6

/-- SCRUB_PERIOD_START (R340, R341): every MEMC.PER.MS ms; an unfinished pass is abandoned with SLOW; row counts clear, but
not those of pending rows. -/
def execScrubPeriodStart (s : State) : Outcome :=
  if !s.memRuns then .next s
  else s.atTick (match s.memc.start with | some t => t + s.fld mcPg R.MEMC.PER.MS * 100000 | none => s.tb) fun s =>
    let s := if s.bit mcPg R.MEMC.SSTAT.RUN then (s.setBit mcPg R.MEMC.SSTAT.RUN false).memDetectE mcPg 5 39 else s
    let s : State := { s with memc := { s.memc with start := some s.tb, rows := s.memc.rows.filter (·.due), readAt := s.memNow } }
    if s.bit mcPg R.MEMC.SCRUB.EN then
      match s.scrubFrom 0 with
      | some m => (s.setBit mcPg R.MEMC.SSTAT.RUN true).scrubAt m 0
      | none => s
    else s

/-- The scrubber's read of the next word of the pass; a macro that it has come to skip is passed over (R340). In the SRAM macros, the
canvases and the context store the decoded word is written back, a wrong one too (R335). -/
def State.scrubRead (s : State) (nsym : Nat) (owner : Option Nat) : State :=
  let m := s.memc.word.1
  if s.scrubSkips m then s.scrubAt m (macroBytes m / 32)
  else
    let s : State := { s with memc := { s.memc with readAt := max (s.memc.readAt + s.fld mcPg R.MEMC.SCRUB.GAP) (s.memNow - 5) } }
    let p := place m (32 * s.memc.word.2)
    let r := s.memRead p nsym owner
    (if m ≤ 45 ∧ !r.2 then r.1.setSyms (p / 32) 0 else r.1).scrubAt m (s.memc.word.2 + 1)

/-- SCRUB_READ (R340): every GAP MEM cycles the next word of the pass is read, corrected where it can be, and the pass goes
on; in data flash not while a word is programmed there (R350). -/
def execScrubRead (nsym : Nat) (owner : Option (BitVec 9)) (s : State) : Outcome :=
  if !s.memRuns ∨ !s.bit mcPg R.MEMC.SSTAT.RUN ∨ !s.bit mcPg R.MEMC.SCRUB.EN ∨ (s.memc.word.1 = 58 ∧ s.dataBusy) then .next s
  else s.atKa s.scrubDue fun s => s.scrubRead nsym (owner.map (·.toNat))

/-! ## Row repair -/

/-- The spare rows of a macro in use, remapped or marked used (R339, R342). -/
def State.sparesUsed (s : State) (m : Nat) : List Nat :=
  ((s.memc.remaps.filter (·.mac = m)).map (·.spare)) ++ ((s.memc.spent.filter (·.1 = m)).map (·.2))

/-- A flash command of firmware is in progress (R349). -/
def State.flBusy (s : State) : Bool := s.memc.flash ≠ none

/-- The clock of a macro's island runs (R338). -/
def State.macroRuns (s : State) (m : Nat) : Bool :=
  if 24 ≤ m ∧ m < 44 then s.clocked (.cp ((m - 24) / 2)) else if m = 44 then s.clocked .pwr else s.memRuns

/-- ROW_REMAP (R342, R343): the lowest free spare takes the pending row. That the macro has been idle for 64 cycles is what the
command says. (DESIGN CHOICE: log entry 30.) -/
def execRowRemap (m : Fin 60) (row : Nat) (ok : Bool) (s : State) : Outcome :=
  match s.memc.rows.find? fun r => r.mac = m.val && r.row = row && r.due with
  | none => .next s
  | some r =>
    if !s.memRuns ∨ !s.macroRuns m ∨ (isFlash m ∧ (s.flBusy ∨ s.flHw)) then .next s
    else match (List.range 32).find? fun k => !(s.sparesUsed m).contains k with
      | none =>
        if r.told then .next s
        else .next (({ s with memc := { s.memc with rows := s.memc.rows.map fun q => if q = r then { q with told := true } else q } } :
          State).memDetectE mcPg 4 38)
      | some k =>
        if isFlash m ∧ !ok then .next { s with memc := { s.memc with spent := s.memc.spent ++ [(m.val, k)] } }
        else
          let q : Remap := { mac := m, row := row, spare := k }
          let s : State := { s with
            memc := { s.memc with rows := s.memc.rows.filter (· ≠ r), remaps := s.memc.remaps ++ [q] }
            symErr := s.symErr.filter fun (e : Nat × Nat) => place m (256 * row) / 256 ≠ e.1 / 8 ∨ 4 ≤ e.2 }
          .next ((((s.queueRepair (.remap q)).memDetectE mcPg 3 37).count mcPg 2).post 34)

/-! ## ZERO -/

/-- A write of MEMC.CMD with OP = ZERO (R347). -/
def State.memZero (s : State) : State :=
  match s.placeOf (32 * s.fld mcPg R.MEMC.ZADDR.ADDR) with
  | some p =>
    if placeMacro p ≤ 44 then ((s.setBytes p (List.replicate 32 0)).setPoison (p / 32) false).ok mcPg else s.range mcPg
  | none => s.range mcPg

/-- ZERO (R347). -/
def execZero (_w : Writer) (s : State) : Outcome :=
  if !s.memRuns then .next s else if s.locked mcPg then .next (s.refuse mcPg) else .next s.memZero

/-! ## The flash controller -/

/-- The number of the flash sector of a place: bank A 0-191, bank B 192-383, data flash 384-639 (R348). -/
def sectorOf (p : Nat) : Nat :=
  let m := placeMacro p
  if m = 58 then 384 + p % 0x1000000 / 0x2000
  else (if 52 ≤ m then 192 + (m - 52) * 32 else (m - 46) * 32) + p % 0x1000000 / 0x10000

/-- The first place of a sector, and its bytes (R348). -/
def sectorBase (n : Nat) : Nat :=
  if 384 ≤ n then place macroData ((n - 384) * 0x2000)
  else bankPlace (decide (192 ≤ n)) (n % 192 * 0x10000)
/-- The bytes of a sector (R348). -/
def sectorBytes (n : Nat) : Nat := if 384 ≤ n then 0x2000 else 0x10000

/-- Every byte of an address range reads erased and is not poisoned. -/
def State.erased (s : State) (p n : Nat) : Bool :=
  s.mem.all (fun e => !(decide (p ≤ e.1) && decide (e.1 < p + n))) &&
    s.poison.all fun w => !(decide (p ≤ w * 32) && decide (w * 32 < p + n))

/-- The sectors of data flash that firmware may not write: the boot record and session area (R478), the nonce areas (R444)
and the device's maps (R351). -/
def reservedSector (n : Nat) : Bool :=
  (decide (231 ≤ n) && decide (n ≤ 234)) || (decide (236 ≤ n) && decide (n ≤ 239)) || decide (240 ≤ n)

/-- The place a flash command may act on (R349, R351, R478): data flash outside the reserved sectors, for PROG outside the
sector headers, or the inactive bank. -/
def State.flTarget (s : State) (prog : Bool) : Option Nat :=
  let a := 32 * s.fld flPg R.FL.ADDR.ADDR
  if 0x01000000 ≤ a ∧ a < 0x01C00000 then s.placeOf a
  else if 0x02000000 ≤ a ∧ a < 0x02200000 then
    (if reservedSector ((a - 0x02000000) / 0x2000) ∨ (prog ∧ a % 0x2000 = 0x1FE0) then none else s.placeOf a)
  else none

/-- A write of FL.CMD (R349). -/
def State.flCmd (s : State) (prog : Bool) : State :=
  match s.flTarget prog with
  | none => s.range flPg
  | some p =>
    if s.bit flPg R.PG_STAT.BUSY then s.refuse flPg
    else if placeMacro p < 58 ∧ s.fld 0x250 R.UPD.STAT.ST ≠ 0 then s.refuse flPg
    else if prog ∧ !s.erased p 32 then s.refuse flPg
    else
      let o : FlashOp := { prog := prog, at_ := p, data := (List.range 8).map fun i => s.reg flPg (R.FL.DATA.D i).off }
      (({ s with memc := { s.memc with flash := some o } } : State).setBit flPg R.PG_STAT.BUSY true).ok flPg

/-- PROG (R349). -/
def execProg (_w : Writer) (s : State) : Outcome :=
  if !s.memRuns then .next s else if s.locked flPg then .next (s.refuse flPg) else .next (s.flCmd true)
/-- ERASE (R349). -/
def execErase (_w : Writer) (s : State) : Outcome :=
  if !s.memRuns then .next s else if s.locked flPg then .next (s.refuse flPg) else .next (s.flCmd false)

/-- A repair that waits is a remap: one not stored before a reset is lost, and found again (R344). -/
def Repair.isRemap : Repair → Bool
  | .remap _ => true
  | _ => false

/-- A repair that waits is the poison of a word from place `a` on, before `b`. -/
def Repair.poisonIn (a b : Nat) : Repair → Bool
  | .poison w => decide (a ≤ w * 32) && decide (w * 32 < b)
  | _ => false

/-- Erase a sector (R336, R345, R347, R352): every byte 0xFF; its words leave the poison list; its count rises.
(DESIGN CHOICE: log entry 30.) -/
def State.eraseSector (s : State) (n : Nat) : State :=
  let a := sectorBase n
  let b := a + sectorBytes n
  { s with
    mem := s.mem.filter fun e => !(decide (a ≤ e.1) && decide (e.1 < b))
    symErr := s.symErr.filter fun e => !(decide (a ≤ e.1 * 32) && decide (e.1 * 32 < b))
    poison := s.poison.filter fun w => !(decide (a ≤ w * 32) && decide (w * 32 < b))
    memc := { s.memc with repairs := s.memc.repairs.filter fun r => !r.poisonIn a b, nv := { s.memc.nv with
      ver := s.memc.nv.ver + 1
      poison := s.memc.nv.poison.filter fun w => !(decide (a ≤ w * 32) && decide (w * 32 < b))
      erases := tset (fun _ => 0) s.memc.nv.erases n (tget (fun _ => 0) s.memc.nv.erases n + 1) } } }

/-- The endurance of a sector (R348). -/
def endurance (n : Nat) : Nat := if 384 ≤ n then 100000 else 1000

/-- An erase has completed: WEAR when its count reaches PCT percent of the endurance (R352). -/
def State.wearCheck (s : State) (n : Nat) : State :=
  let c := tget (fun _ => 0) s.memc.nv.erases n
  let lim := s.fld flPg R.FL.WEARTH.PCT * endurance n
  if lim ≤ c * 100 ∧ (c - 1) * 100 < lim then s.memDetectE mcPg 9 41 else s

/-- The bytes a sector holds after an interrupted erase, or one that fails its verify read: what the spec leaves open (R349, R353).
(DESIGN CHOICE: log entry 31.) -/
def State.tearSector (s : State) (n : Nat) : State :=
  let a := sectorBase n
  let b := a + sectorBytes n
  let words := (List.range (sectorBytes n / 4)).map fun i => Config.freeWord (s.freeCtr + i)
  let new := ((wordsBytes words).zipIdx.map fun (e : Byte × Nat) => (a + e.2, e.1)).filter fun (e : Nat × Byte) => e.2 ≠ memDefault e.1
  { s with
    mem := (s.mem.filter fun (e : Nat × Byte) => decide (e.1 < a)) ++ new ++ s.mem.filter fun (e : Nat × Byte) => decide (b ≤ e.1)
    symErr := s.symErr.filter fun e => !(decide (a ≤ e.1 * 32) && decide (e.1 * 32 < b))
    freeCtr := s.freeCtr + sectorBytes n / 4 }

/-- A piece that the update block was erasing for or programming when power was lost: its sector, or its words, hold open values, and the
erase is not counted (R353, R484). (DESIGN CHOICE: log entry 31.) -/
def State.pieceTorn (s : State) : State :=
  match s.upd.piece with
  | some (i, data) =>
    let n := (if s.upd.bank then 192 else 0) + i / 64
    if !s.flHw then s
    else if s.upd.held / 2 ^ (i / 64 * 64) % 2 ^ 64 = 0 ∧ !s.erased (sectorBase n) (sectorBytes n) then s.tearSector n
    else (List.range ((data.length + 31) / 32)).foldl (fun (t : State) j =>
      { (t.setBytes (bankPlace s.upd.bank (1024 * i + 32 * j)) t.freeBytes) with freeCtr := t.freeCtr + 8 }) s
  | none => s

/-- Erase one of the device's sectors as part of a map write (R344, R352). -/
def State.mapErase (s : State) (n : Nat) : State := (s.eraseSector (384 + n)).wearCheck (384 + n)

/-- A map takes one more word, in sectors `base` and `base` + 1 in turn: a full sector is compacted into the other one of its pair, and
erased after that (R344). The sectors and the size of an entry are the model's. (DESIGN CHOICE: log entry 30.) -/
def State.mapRoom (s : State) (base used live : Nat) (sec : Bool) (put : NvMap → Nat → Bool → NvMap) : State :=
  let s := if used < 255 then { s with memc := { s.memc with nv := put s.memc.nv (used + 1) sec } }
    else State.mapErase { s with memc := { s.memc with nv := put s.memc.nv (live + 1) !sec } } (base + if sec then 1 else 0)
  { s with memc := { s.memc with nv := { s.memc.nv with ver := s.memc.nv.ver + 1 } } }

/-- REPAIR_MAP_APPEND (R155, R323, R344, R345, R349): between firmware commands the device appends the oldest repair that waits to
its runtime map, then the oldest retouch; BUSY and HWOP clear when none is left. (DESIGN CHOICE: log entry 30.) -/
def execRepairMapAppend (s : State) : Outcome :=
  if !s.memRuns ∨ s.flBusy ∨ s.upd.piece.isSome then .next s
  else
    let nv := s.memc.nv
    match s.memc.repairs, s.retouchPend with
    | r :: rs, _ =>
      let s := State.mapRoom { s with memc := { s.memc with repairs := rs } } 240 nv.used.1 (nv.remaps.length + nv.pairs.length + nv.poison.length) nv.sec.1
        fun v n b => { v with used := (n, v.used.2), sec := (b, v.sec.2) }
      let nv := s.memc.nv
      let nv := match r with
        | .remap q => { nv with remaps := nv.remaps ++ [q] }
        | .pair p => { nv with pairs := nv.pairs ++ [p] }
        | .poison w => { nv with poison := nv.poison ++ [w] }
      .next (State.mapDone { s with memc := { s.memc with nv := nv } })
    | [], q :: qs =>
      let s := s.mapRoom 242 nv.used.2 nv.retouch.length nv.sec.2 fun v n b => { v with used := (v.used.1, n), sec := (v.sec.1, b) }
      .next (State.mapDone { s with retouchPend := qs, memc := { s.memc with nv := { s.memc.nv with retouch := s.memc.nv.retouch ++ [q] } } })
    | [], [] => .next s

/-- FLASH_COMMAND_END (R349, R352): the verify read sets FL.STAT.RES; event 33. What a command that fails leaves in the word,
or in the sector, is free values. (DESIGN CHOICE: log entry 30.) -/
def execFlashCommandEnd (ok : Bool) (s : State) : Outcome :=
  match s.memc.flash with
  | none => .next s
  | some o =>
    if !s.memRuns then .next s
    else
      let s : State := { s with memc := { s.memc with flash := none } }
      let s := if o.prog then
          (if ok then (s.setBytes o.at_ (wordsBytes o.data)).count flPg 0
           else { (s.setBytes o.at_ s.freeBytes) with freeCtr := s.freeCtr + 8 })
        else
          let n := sectorOf o.at_
          let e := ((s.eraseSector n).wearCheck n).count flPg 1
          if ok then e else e.tearSector n
      let s := (s.setBit flPg R.PG_STAT.BUSY false).setFld flPg R.FL.STAT.RES (if ok then 1 else 2)
      let s := if ok then s else (s.count flPg 2).memDetectE flPg 1 40
      let s := if s.upd.piece.isSome then (s.setBit flPg R.PG_STAT.BUSY true).setBit flPg R.FL.STAT.HWOP true else s.mapStart
      .next (s.post 33)

/-! ## Views -/

/-- MEMR's registers as they read (the MEMR field table). -/
def State.memrView (s : State) (off : Nat) : Word :=
  let m := s.fld mrPg R.MEMR.SEL.MACRO
  let rs := s.memc.remaps.filter (·.mac = m)
  if off = R.MEMR.USE.FREE.off then
    R.MEMR.USE.FACT.put (R.MEMR.USE.RUN.put (R.MEMR.USE.FREE.put 0
      (if m = 59 then 0 else 32 - (s.sparesUsed m).length)) ((rs.filter fun r => !r.fact).length)) ((rs.filter (·.fact)).length)
  else if off = R.MEMR.MAP.ROW.off then
    (match rs.find? fun r => r.spare = s.fld mrPg R.MEMR.IDX.S with
      | some r => R.MEMR.MAP.USED.put (R.MEMR.MAP.FACT.put (R.MEMR.MAP.ROW.put 0 r.row) (if r.fact then 1 else 0)) 1
      | none => R.MEMR.MAP.USED.put 0 (if (s.sparesUsed m).contains (s.fld mrPg R.MEMR.IDX.S) then 1 else 0))
  else if off = R.MEMR.MSTAT.PEND.off then
    R.MEMR.MSTAT.PEND.put (s.reg mrPg off)
      (min 255 (s.memc.repairs.filter (·.isRemap)).length)
  else s.reg mrPg off

/-- FL.STAT.ERCNT: the erase count of the sector that holds FL.ADDR, saturating (R352). -/
def State.ercnt (s : State) : Nat :=
  match s.placeOf (32 * s.fld flPg R.FL.ADDR.ADDR) with
  | some p => if isFlash (placeMacro p) then min 0xFFFF (tget (fun _ => 0) s.memc.nv.erases (sectorOf p)) else 0
  | none => 0

end Sys2Proof.Machine
end

