-- ==== Sys2Proof/Machine/Chain.lean ====
section
/-! DEFINITION. What the precedence chain of R24 needs of every output: safe state, the output hold and its limp level,
the conditions of R29, PWM on TB (R98, R99), and the governing clause of an object (R240). -/

namespace Sys2Proof.Machine

/-- Safe state holds (R369). -/
def State.safe (s : State) : Bool := s.bit 0x010 R.FLT.STAT.SAFE

/-- The outputs of R24, numbered as the bits of RST.HELD (R465): HS n is n, MB k is 48 + k, VL n is 64 + n, VHA 72,
VHB 73, the matrix 74, AMB g is 75 + g, IO n is 80 + n. -/
def State.heldBit (s : State) (o : Nat) : Bool := (s.reg 0x006 (R.RST.HELD.H (o / 32)).off).getLsbD (o % 32)

/-- Set or clear an output's bit in RST.HELD. -/
def State.setHeld (s : State) (o : Nat) (b : Bool) : State :=
  let f := R.RST.HELD.H (o / 32)
  let m : Word := 1 <<< (o % 32)
  s.setReg 0x006 f.off (if b then s.reg 0x006 f.off ||| m else s.reg 0x006 f.off &&& ~~~ m)

/-- The hold time is running (R462). -/
def State.holdRun (s : State) : Bool := s.bit 0x006 R.RST.HSTAT.RUN

/-- Level 1 governs an output: safe state (R369), or the expired output hold of an output still held (R464). -/
def State.level1 (s : State) (o : Nat) : Bool := s.safe || (s.heldBit o && !s.holdRun)

/-- The codes of GOV (R28). -/
def govLive : Nat := 0
/-- GOV of a clause. -/
def govClause : Nat := 1
/-- GOV of a protection latch. -/
def govLatch : Nat := 2
/-- GOV of safe state. -/
def govSafe : Nat := 3

/-! ## Power dies -/

/-- The key of a power die's record. -/
def dieIdx : Die → Nat
  | .p1 => 0
  | .p2 => 1

/-- A power die's record. -/
def State.dieAt (s : State) (d : Nat) : DieSt := tget (fun _ => {}) s.dies d

/-- Replace a power die's record. -/
def State.setDie (s : State) (d : Nat) (v : DieSt) : State := { s with dies := tset (fun _ => {}) s.dies d v }

/-- A condition of R29 that turns outputs off holds on a die: undervoltage or loss of module ground (R151). -/
def DieSt.off (d : DieSt) : Bool := d.uv || d.gndl

/-- Any condition of R29 holds on a die (R143). -/
def DieSt.any (d : DieSt) : Bool := d.uv || d.ldump || d.gndl || d.revb

/-! ## PWM on TB -/

/-- A command has on-time: it is a pattern whose duty is not 0 (R114). -/
def OutCmd.onTime : OutCmd → Bool
  | .off => false
  | .pwm _ _ d => d ≠ 0

/-- The phase offset of R98. -/
def pwmPhi (p ph : Nat) : Nat := ph * p / 65536

/-- The on-time of R98 in ticks. -/
def pwmOn (p d : Nat) : Nat := d * p / 65536

/-- Whether a pattern is on at a tick (R98). -/
def OutCmd.levelAt (c : OutCmd) (t : Nat) : Bool :=
  match c with
  | .off => false
  | .pwm p ph d =>
    if d = 0 then false else if d = 0xFFFF then true
    else decide ((t + p - pwmPhi p ph % p) % p < pwmOn p d)

/-- The first tick at or after `c` that starts a period of a pattern (R99). -/
def pwmNextStart (p ph c : Nat) : Nat :=
  if p = 0 then c else c + (p - (c + p - pwmPhi p ph % p) % p) % p

/-- The pattern a generator runs at a tick: the waiting one from its start (R99). -/
def Gen.at (g : Gen) (t : Nat) : OutCmd :=
  match g.nxt with
  | some (c, s) => if s ≤ t then c else g.cur
  | none => g.cur

/-- The command a generator runs once its waiting pattern has started. -/
def Gen.last (g : Gen) : OutCmd :=
  match g.nxt with
  | some (c, _) => c
  | none => g.cur

/-- Give a generator a new command at a tick. A pattern changed while the same level and the same clause govern takes over at
its first period start (R99); every other change, a new governing level among them, acts at once (R25, R26, R112). -/
def Gen.command (g : Gen) (t : Nat) (same : Bool) (c : OutCmd) : Gen :=
  match g.at t, c with
  | .pwm p ph d, .pwm p' ph' d' =>
    if same ∧ ¬(p = p' ∧ ph = ph' ∧ d = d') then ⟨.pwm p ph d, some (c, pwmNextStart p' ph' t)⟩ else ⟨c, none⟩
  | _, _ => ⟨c, none⟩

/-- The next tick after `t` at which a pattern starts a period or ends its on-time (R98). -/
def OutCmd.nextEdge (c : OutCmd) (t : Nat) : Nat :=
  match c with
  | .off => t
  | .pwm p ph d =>
    let since := (t + p - pwmPhi p ph % p) % p
    if c.levelAt t ∧ d ≠ 0xFFFF then t + (pwmOn p d - since) else pwmNextStart p ph (t + 1)

/-- The next tick at which a generator's output is not what is shown (R98, R99). -/
def Gen.edgeTick (g : Gen) (t : Nat) (shown : Bool) : Nat :=
  if (g.at t).levelAt t ≠ shown then t
  else
    match g.nxt with
    | some (_, n) => if t < n then (if g.cur = .off then n else min n (g.cur.nextEdge t)) else (g.at t).nextEdge t
    | none => g.cur.nextEdge t

/-- A pattern switches within its period (R98). -/
def OutCmd.chops : OutCmd → Bool
  | .off => false
  | .pwm _ _ d => d ≠ 0 && d ≠ 0xFFFF

/-- A generator's output may change at a tick after `t` and before `e` (R98, R99). -/
def Gen.changesBefore (g : Gen) (t e : Nat) : Bool :=
  let own := (g.at t).chops && decide ((g.at t).nextEdge t < e)
  match g.nxt with
  | some (_, n) => own || (decide (t < n) && decide (n < e))
  | none => own

/-- The first tick at or after `t` at which a generator starts a period, under the pattern that runs then (R98, R99). -/
def Gen.nextStart (g : Gen) (t : Nat) : Nat :=
  let own := match g.at t with | .pwm p ph _ => pwmNextStart p ph t | .off => t
  match g.nxt with
  | some (_, n) => if t ≤ n then (if g.cur = .off then n else min own n) else own
  | none => own

/-! ## Clauses as level 3 -/

/-- A clause's record beside its registers. -/
def State.clauseAt (s : State) (c : Nat) : Clause := tget (fun _ => {}) s.clauses c

/-- Replace a clause's record. -/
def State.setClause (s : State) (c : Nat) (v : Clause) : State := { s with clauses := tset (fun _ => {}) s.clauses c v }

/-- A field of clause `c`: window page 0x041 + c / 32, place c mod 32 (R251). -/
def State.clFld (s : State) (c : Nat) (f : Nat → Fld) : Nat := s.fld (0x041 + c / 32) (f (c % 32))

/-- The RX island runs and is not in PARK: level 3 is empty otherwise (R105, R249). -/
def State.rxRuns (s : State) : Bool := s.clocked .rx

/-- The active clauses that address any of the objects with a verb that commands an output (R240). -/
def State.addressing (s : State) (objs : List Nat) : List Nat :=
  (s.clauses.filter fun e => e.2.active && decide (1 ≤ s.clFld e.1 R.CL.VERB.VERB) &&
    decide (s.clFld e.1 R.CL.VERB.VERB ≤ 6) && objs.contains (s.clFld e.1 R.CL.VERB.OBJ)).map (·.1)

/-- The governing clause of an object: highest PRI, then lowest number (R240). -/
def State.govClauseOf (s : State) (objs : List Nat) : Option Nat :=
  if s.rxRuns then
    (s.addressing objs).foldl (fun best c =>
      match best with
      | none => some c
      | some b => if s.clFld b R.CL.ASP.PRI < s.clFld c R.CL.ASP.PRI ∨
          (s.clFld b R.CL.ASP.PRI = s.clFld c R.CL.ASP.PRI ∧ c < b) then some c else some b) none
  else none

/-- A governing command is held off (R241): in this activation of the clause the hold-off counts once. -/
def State.heldOff (s : State) (c : Nat) : State :=
  let k := s.clauseAt c
  if k.heldOnce then s
  else (s.setClause c { k with heldOnce := true }).count (0x041 + c / 32) (2 * (c % 32) + 1)

/-! ## The status of a unit under the chain -/

/-- The level that governs an output (R24, R462, R464): `lat` says its latch holds it, `heldGov` the level its held command
came from, `cl` whether a clause governs. -/
def State.govLevel (s : State) (o : Nat) (lat : Bool) (heldGov : Nat) (cl : Bool) : Nat :=
  if s.level1 o then govSafe else if lat then govLatch
  else if s.heldBit o then heldGov
  else if cl then govClause else govLive

end Sys2Proof.Machine
end

