-- ==== Sys2Proof/Machine/Net.lean ====
section
/-! DEFINITION. What the CAN, LIN and sleep procedures share (R380-R395, R418-R428): the controllers' records and states, the
completion of a transmit slot, the keep-awake vote, and a local wake. -/

namespace Sys2Proof.Machine

/-! ## Records -/

/-- A CAN controller's record. -/
def State.canAt (s : State) (c : Nat) : Can := tget (fun _ => {}) s.cans c
/-- Replace a CAN controller's record. -/
def State.setCan (s : State) (c : Nat) (v : Can) : State := { s with cans := tset (fun _ => {}) s.cans c v }
/-- A LIN controller's record. -/
def State.linAt (s : State) (l : Nat) : Lin := tget (fun _ => {}) s.lins l
/-- Replace a LIN controller's record. -/
def State.setLin (s : State) (l : Nat) (v : Lin) : State := { s with lins := tset (fun _ => {}) s.lins l v }
/-- The controllers of the NET island run: its island is clocked. -/
def State.canRuns (s : State) : Bool := s.clocked .net && s.power ≠ .park
/-- A CAN controller's page. -/
def canPg (c : Nat) : Nat := 0x200 + c
/-- A LIN controller's page. -/
def linPg (l : Nat) : Nat := 0x210 + l
/-- The NM page. -/
def nmPg : Nat := 0x230
/-- A transmit slot's record. -/
def State.txAt (s : State) (c t : Nat) : CanTx := tget (fun _ => {}) (s.canAt c).tx t
/-- Replace a transmit slot's record. -/
def State.setTx (s : State) (c t : Nat) (v : CanTx) : State :=
  let k := s.canAt c
  s.setCan c { k with tx := tset (fun _ => {}) k.tx t v }

/-! ## States of a CAN controller -/

/-- CAN.STAT.STATE (R380): 0 OFF, 1 INIT, 2 SYNC, 3 ACTIVE, 4 PASSIVE, 5 BUSOFF, 6 LISTEN, 7 AUTOBAUD. -/
def State.canState (s : State) (c : Nat) : Nat := s.fld (canPg c) R.CAN.STAT.STATE

/-- The state of a transmit slot (TXS.STAT.ST): 0 IDLE, 1 PENDING, 2 ACTIVE, 3 DONE, 4 CANCELLED, 5 FAILED, 6 BADREC. -/
def State.txSt (s : State) (c t : Nat) : Nat := s.fld (canPg c) (R.TXS.STAT.ST t)

/-- The ACTIVE slot of a controller. -/
def State.txActive (s : State) (c : Nat) : Option Nat := (List.range 16).find? fun t => s.txSt c t = 2

/-- Show the transceiver's mode (R395), and in STAT the transmission and the reception. (DEDUCED: log entry 45.) -/
def State.canShow (s : State) (c : Nat) : State :=
  let st := s.canState c
  let mode := if s.power = .park then 3 else if st = 0 then 0
    else if st = 1 ∨ st = 6 ∨ st = 7 ∨ s.safe then 2 else 1
  ((s.setFld (canPg c) R.CAN.TRX.MODE mode).setBit (canPg c) R.CAN.STAT.TXING (s.txActive c).isSome).setBit (canPg c)
    R.CAN.STAT.RXING (s.canAt c).rx

/-- Enter a state (R380). -/
def State.setCanState (s : State) (c st : Nat) : State := (s.setFld (canPg c) R.CAN.STAT.STATE st).canShow c

/-- ACTIVE or PASSIVE by the error counters (R380, R387). -/
def State.canErrState (s : State) (c : Nat) : State :=
  let st := s.canState c
  let hi : Bool := decide (127 < s.fld (canPg c) R.CAN.ECNT.TEC) || decide (127 < s.fld (canPg c) R.CAN.ECNT.REC)
  if st = 3 ∧ hi then (s.setCanState c 4).detect (canPg c) 2
  else if st = 4 ∧ !hi then s.setCanState c 3
  else s

/-! ## The keep-awake vote -/

/-- The NM block is enabled (R422). -/
def State.nmOn (s : State) : Bool := s.enabled nmPg

/-- NM.STAT.STATE: 0 AWAKE, 1 READY-SLEEP, 2 SLEEP-PENDING, 3 SLEEP (R421). -/
def State.nmState (s : State) : Nat := s.fld nmPg R.NM.STAT.STATE

/-- CAN `c` is a sleep bus in force. -/
def State.sleepCan (s : State) (c : Nat) : Bool := s.nmOn && s.nm.can.testBit c
/-- LIN `l` is a sleep bus in force. -/
def State.sleepLin (s : State) (l : Nat) : Bool := s.nmOn && s.nm.lin.testBit l

/-- Slot 15 of a controller is reserved to the NM block: no firmware request holds it (R420). -/
def State.nmSlot (s : State) (c t : Nat) : Bool :=
  t = 15 && s.sleepCan c && !((s.txSt c 15 = 1 || s.txSt c 15 = 2) && (s.txAt c 15).nm.isNone)

/-- A transmit slot of a sleep bus holds the vote (R420, R421). -/
def State.txVote (s : State) (c : Nat) : Bool :=
  (List.range 16).any fun t => (s.txSt c t = 1 || s.txSt c t = 2) && (t ≠ 15 || (s.txAt c 15).nm.isNone)

/-- The device's keep-awake vote (R421). -/
def State.nmVote (s : State) : Bool :=
  (s.fld nmPg R.NM.VOTE.V != 0 && !s.bit nmPg R.NM.STAT.MAXEXP) || s.nm.hold.isSome ||
    (List.range 8).any fun c => s.sleepCan c && s.txVote c

/-- The sleep buses of NM.SBUS take force (R428). -/
def State.nmBuses (s : State) : State :=
  { s with nm := { s.nm with can := s.fld nmPg R.NM.SBUS.CAN, lin := s.fld nmPg R.NM.SBUS.LIN } }

/-- An NM frame that the procedure no longer sends on a bus (R420, R421): the bus is no sleep bus, a keep-awake frame outside AWAKE,
a sleep frame that is not being sent. (DEDUCED: log entry 50.) -/
def State.nmOld (s : State) (c : Nat) (k : NmKind) : Bool :=
  !s.sleepCan c || (if k = .keepAwake then decide (s.nmState ≠ 0) else !s.nm.sending.contains c)

/-- Slot 15 carries such a frame. -/
def State.nmStale (s : State) (c : Nat) : Bool :=
  match (s.txAt c 15).nm with
  | some k => s.nmOld c k
  | none => false

/-- A slot has ended in DONE, CANCELLED, FAILED or BADREC (R385): TXDONE, its event and its flag; slot 15 of a bus that is no
longer a sleep bus returns in IDLE (R420). -/
def State.txEnd (s : State) (c t st : Nat) : State :=
  let pg := canPg c
  let s := s.setFld pg (R.TXS.STAT.ST t) (if t = 15 ∧ (s.txAt c 15).nm.isSome ∧ !s.sleepCan c then 0 else st)
  let s := s.setReg pg R.CAN.TXDONE.S.off (s.reg pg R.CAN.TXDONE.S.off ||| (1 <<< t))
  let s := if s.bit pg (R.TXS.CFG.IEN t) then s.post (176 + c) else s
  (if st = 5 then s.detect pg 9 else if st = 6 then s.detect pg 8 else s).canShow c

/-- NM frames that wait and that the procedure no longer sends are cancelled; an attempt that runs comes to its end first (R420,
R421, R428). (DEDUCED: log entry 50.) -/
def State.nmSweep (s : State) : State :=
  (List.range 8).foldl (fun t c =>
    let t := t.setCan c { t.canAt c with nmDue := (t.canAt c).nmDue.filter fun k => !t.nmOld c k }
    if t.txSt c 15 = 1 ∧ t.nmStale c then
      let t := t.txEnd c 15 4
      if t.sleepCan c then t else t.setTx c 15 { t.txAt c 15 with nm := none }
    else t) s

/-- The sleep frames being sent are given up: those of LIN that wait are not sent (R421). (DEDUCED: log entry 50.) -/
def State.nmCease (s : State) : State :=
  let s := (List.range 6).foldl (fun (t : State) l =>
    if (t.linAt l).sleepPend ∧ s.nm.sending.contains (8 + l) then t.setLin l { t.linAt l with sleepPend := false } else t) s
  { s with nm := { s.nm with sending := [], ended := [] } }

/-- Enter a state of the sleep procedure: event 204 (R430). In AWAKE no sleep frame is awaited any more, but for the forced ones,
which do not depend on the vote (R425); the sleep buses take force with READY-SLEEP (R428). -/
def State.setNmState (s : State) (v : Nat) : State :=
  if s.nmState = v then s
  else
    let s := (s.setFld nmPg R.NM.STAT.STATE v).post 204
    let s := if v = 1 then s.nmBuses else s
    let s := if v = 0 then
        let s : State := { s with nm := { s.nm with awake := s.tb, kaTick := s.tb } }
        if s.nm.forced then s else s.nmCease
      else s
    s.nmSweep

/-- SLEEP-PENDING begins (R421), by a forced sleep or not (R425): the sleep window starts, and keep-awake frames that wait are
cancelled (R428). (DEDUCED: log entry 50.) -/
def State.nmWindow (s : State) (forced : Bool) : State :=
  let s : State := { s with nm := { s.nm with window := s.tb, sending := [], ended := [], forced := forced } }
  s.setNmState 2

/-- A bus on which a sleep frame was still to be sent is lost to it: switched off, reset, stopped, or no sleep bus any more. With the
last of them the window begins (R421). (DEDUCED: log entry 50.) -/
def State.nmLose (s : State) (b : Nat) : State :=
  if s.nm.sending.contains b ∧ !s.nm.ended.contains b then
    let s : State := { s with nm := { s.nm with sending := s.nm.sending.filter (· ≠ b) } }
    if s.nm.sending = [] then s.nmWindow s.nm.forced else s
  else s

/-- The vote may have changed (R421): AWAKE and READY-SLEEP follow it; a disabled block is AWAKE (R422).
(DEDUCED: log entry 50.) -/
def State.nmEval (s : State) : State :=
  let v := s.nmVote
  let was := s.nm.vote
  let s : State := { s with nm := { s.nm with vote := v } }
  if !s.nmOn then s.nmCease.setNmState 0
  else if s.nmState = 0 ∧ was ∧ !v then s.setNmState 1
  else if s.nmState = 1 ∧ v then s.setNmState 0
  else s

/-! ## Completion of a transmit slot, and NM frames -/

/-- The NM block's frame becomes PENDING in slot 15 (R418, R420). -/
def State.nmStart (s : State) (c : Nat) (k : NmKind) : State :=
  let v := s.canAt c
  let s := s.setCan c { v with reqSeq := v.reqSeq + 1 }
  let s := s.setTx c 15 { seq := v.reqSeq, nm := some k }
  let s := (s.setFld (canPg c) (R.TXS.STAT.ATT 15) 0).setFld (canPg c) (R.TXS.STAT.CXLATE 15) 0
  s.setFld (canPg c) (R.TXS.STAT.ST 15) 1

/-- An NM frame is due on a bus: it takes slot 15, or waits for it (R420). None in safe state (R428), in OFF, or in the sleep
window. -/
def State.nmSend (s : State) (c : Nat) (k : NmKind) : State :=
  if s.safe ∨ s.canState c = 0 then s
  else if s.txSt c 15 = 1 ∨ s.txSt c 15 = 2 then
    let v := s.canAt c
    if v.nmDue.contains k ∨ (s.txAt c 15).nm = some k then s else s.setCan c { v with nmDue := v.nmDue ++ [k] }
  else s.nmStart c k

/-- The first NM frame that waits takes slot 15 (R420). -/
def State.nmNext (s : State) (c : Nat) : State :=
  let v := s.canAt c
  match v.nmDue with
  | k :: ks => if s.txSt c 15 = 1 ∨ s.txSt c 15 = 2 then s else (s.setCan c { v with nmDue := ks }).nmStart c k
  | [] => s

/-- The own sleep or forced sleep frame of a bus has ended (R419, R421): sent, it counts for its bus. A sleep frame that failed is
sent again with the next timeout. (DEDUCED: log entry 50.) -/
def State.nmOwn (s : State) (b : Nat) (sent : Bool) : State :=
  if !s.nm.sending.contains b then s
  else if sent then { s with nm := { s.nm with ended := s.nm.ended ++ [b] } }
  else if s.nm.forced then s
  else { s with nm := { s.nm with sending := [], ended := [] } }

/-- The same for slot 15 that ends in `st`; a forced sleep frame that failed is sent again (R425). -/
def State.nmOwnEnd (s : State) (c t st : Nat) : State :=
  if t = 15 ∧ ((s.txAt c 15).nm = some .sleep ∨ (s.txAt c 15).nm = some .forced) then
    let s := s.nmOwn c (decide (st = 3))
    if st = 5 ∧ s.nm.forced ∧ s.nm.sending.contains c then s.setCan c { s.canAt c with nmDue := (s.canAt c).nmDue ++ [.forced] } else s
  else s

/-- A slot ends in DONE, CANCELLED, FAILED or BADREC (R385); an NM frame that waits for slot 15 takes it (R420). -/
def State.txDone (s : State) (c t st : Nat) : State := ((((s.nmOwnEnd c t st).txEnd c t st).nmNext c).canShow c).nmEval

/-- A change of NM.SBUS or of the block's enable has been made: buses that are no longer sleep buses give slot 15 back, in
IDLE, and no sleep frame is awaited of them (R420, R428). -/
def State.nmRefresh (s : State) : State :=
  let s := (if s.nmState = 2 then s else s.nmBuses).nmSweep
  let s := if s.nmOn then
      (List.range 6).foldl (fun t l => if t.sleepLin l then t else t.nmLose (8 + l))
        ((List.range 8).foldl (fun t c => if t.sleepCan c then t else t.nmLose c) s)
    else s
  s.nmEval

/-! ## Wakes -/

/-- The node drives its bus: outside safe state, its transceiver cool, and its transmitter on; one that turned off for its time-out
is on again after 11 recessive bits (R404, R405). (DEDUCED: log entry 47.) -/
def State.linTx (s : State) (l : Nat) : Bool :=
  !s.safe && !(s.linAt l).hot && (match (s.linAt l).trxOff with
    | some t => decide (t + 1100000000 / max 1 (s.fld (linPg l) R.LIN.CFG.BR) ≤ s.tb)
    | none => true)

/-- A LIN controller drives a wake pulse of LIN.WAKE.US, after the frame in progress and, where its clock is lost, after the return
(R405). None while the node does not drive its bus (R404). (DEDUCED: log entry 47.) -/
def State.linPulse (s : State) (l : Nat) : State :=
  if !s.linTx l then s
  else if (s.linAt l).frame.isSome ∨ !s.canRuns then s.setLin l { s.linAt l with wakePend := true }
  else s.emit (.linWake l (s.fld (linPg l) R.LIN.WAKE.US))

/-- Nodes that have already slept are woken again (R423). -/
def State.nmRewake (s : State) : State :=
  let s := (List.range 8).foldl (fun t c => if t.sleepCan c then t.nmSend c .keepAwake else t) s
  (List.range 6).foldl (fun t l =>
    if t.sleepLin l && (t.fld nmPg R.NM.LWAKE.EN).testBit l && t.fld (linPg l) R.LIN.STAT.STATE ≠ 0 then t.linPulse l else t) s

/-- Clear the latched bus wakes (R428). -/
def State.clearLatches (s : State) : State :=
  let s := (List.range 8).foldl (fun t c =>
    if (t.canAt c).wakeLatch then t.setCan c { t.canAt c with wakeLatch := false } else t) s
  let s := (List.range 6).foldl (fun t l =>
    if (t.linAt l).wakeLatch then t.setLin l { t.linAt l with wakeLatch := false } else t) s
  s.setBit nmPg R.NM.STAT.WLATCH false

/-- A local wake still meets the sleep window, which lasts for it through the KA cycle of its end (R428). -/
def State.windowOpen (s : State) : Bool :=
  decide (s.nmState = 2) || (decide (s.nmState = 3) && decide (s.power ≠ .park) && s.nm.closed.any fun e => e.1 = s.kaNow / 100)

/-- The end of the window in this KA cycle has not come about (R428): MAXEXP and the count of entries to SLEEP stand as before. -/
def State.windowBack (s : State) : State :=
  match s.nmState, s.nm.closed with
  | 3, some (_, exp, n) => (s.setBit nmPg R.NM.STAT.MAXEXP exp).setFld nmPg (R.PG_CNT 0) n
  | _, _ => s

/-- A local wake (R423, R425, R428): inside the sleep window, the KA cycle of its end included, it ends the window, and a forced
sleep's withdrawal of the vote with it; `src` is its kind and index in NM.WSRC where the register has one. Outside the window it is
nothing of its own. (DEDUCED: log entry 50.) -/
def State.localWake (s : State) (src : Option (Nat × Nat)) : State :=
  if s.nmOn ∧ s.windowOpen then
    let s := s.windowBack
    let s := if s.nm.forced then s.clearLatches.setBit nmPg R.NM.STAT.MAXEXP false else s.clearLatches
    let s := match src with
      | some (k, i) => (s.setFld nmPg R.NM.WSRC.KIND k).setFld nmPg R.NM.WSRC.INDEX i
      | none => s
    let s := ((s.setNmState 0).detect nmPg 4).count nmPg 3
    let s : State := { s with nm := { s.nm with sending := [], vote := s.nmVote } }
    s.nmRewake
  else s

/-- The votes stop counting (R425): MAXEXP, with event 206. (DEDUCED: log entry 50.) -/
def State.nmWithdraw (s : State) : State :=
  let was := s.bit nmPg R.NM.STAT.MAXEXP
  let s := s.setBit nmPg R.NM.STAT.MAXEXP true
  s.postIf (!was) 206

/-- A wake hold ends (R426). -/
def State.holdEnd (s : State) : State :=
  ({ s with nm := { s.nm with hold := none } }).setBit nmPg R.NM.STAT.WHOLD false

/-- A bus could wake the device in PARK (R396, R424). -/
def State.canWakeDev (s : State) : NetBus → Bool
  | .can c => s.fld (canPg c) R.WAKE.CFG.WMODE = 1 || s.fld (canPg c) R.WAKE.CFG.WMODE = 2
  | .lin l => (s.fld nmPg R.NM.LWAKE.EN).testBit l

/-- A bus wake inside the sleep window is latched in the transceiver (R424). -/
def State.windowWake (s : State) (b : NetBus) : State :=
  if s.nmOn ∧ s.nmState = 2 ∧ s.canWakeDev b then
    let s := match b with
      | .can c => s.setCan c { s.canAt c with wakeLatch := true }
      | .lin l => s.setLin l { s.linAt l with wakeLatch := true }
    s.setBit nmPg R.NM.STAT.WLATCH true
  else s

/-- A valid frame, or a LIN header, stands on a sleep bus (R421). -/
def State.nmFrameSeen (s : State) (sleep : Bool) : State :=
  if sleep then { s with nm := { s.nm with lastFrame := s.tb } } else s

/-- A valid frame has been received on a bus, CAN c as c and LIN l as 8 + l (R421, R426): a wake of that bus is genuine. -/
def State.nmValid (s : State) (b : Nat) : State :=
  let sleep := if b < 8 then s.sleepCan b else s.sleepLin (b - 8)
  let s := s.nmFrameSeen sleep
  match s.nm.hold with
  | some (_, some w) =>
    if w = b then
      let f := if b < 8 then R.NM.FWCNT.CNT b else R.NM.LFWCNT.CNT (b - 8)
      ((s.setFld nmPg f 0).holdEnd).nmEval
    else s
  | _ => s

end Sys2Proof.Machine
end

