-- ==== Sys2Proof/Machine/Can.lean ====
section
/-! DEFINITION. The CAN controllers and transceivers (R377-R399): states and commands, frame records, transmit slots, error
confinement, filters and FIFOs, autobaud. -/

namespace Sys2Proof.Machine


/-- A controller drives the bus and takes part in error signalling: ACTIVE or PASSIVE, outside safe state (R380, R381). -/
def State.canLive (s : State) (c : Nat) : Bool :=
  s.canRuns && !s.safe && (s.canState c = 3 || s.canState c = 4)

/-- A controller receives frames: ACTIVE, PASSIVE, LISTEN or AUTOBAUD (R380, R381, R394). -/
def State.canHears (s : State) (c : Nat) : Bool :=
  s.canRuns && (s.canState c = 3 || s.canState c = 4 || s.canState c = 6 || s.canState c = 7)

/-- CAN.MODE as it governs the bus (R397): one changed during a frame applies at the bus idle after it. -/
def State.canMode (s : State) (c : Nat) : Word :=
  if (s.canAt c).cfgPend then (s.canAt c).mode else s.reg (canPg c) R.CAN.MODE.LOM.off

/-- CAN XL is enabled on a controller; CAN0 to CAN5 have none (R377, R393). -/
def State.canXl (s : State) (c : Nat) : Bool := decide (6 ≤ c) && R.CAN.MODE.XLEN.get (s.canMode c) = 1

/-- A frame format is enabled (R377). -/
def State.canFmt (s : State) (c fmt : Nat) : Bool :=
  fmt = 0 || (fmt = 1 && R.CAN.MODE.FDEN.get (s.canMode c) = 1) || (fmt = 2 && s.canXl c)

/-! ## Records -/

/-- A little-endian word of system SRAM at an address, 0 from elsewhere and from a poisoned word (R346, R382). -/
def State.sramWord (s : State) (a : Nat) : Nat :=
  match s.placeOf a with
  | some p => if placeMacro p < 24 then s.hwLe p 4 else 0
  | none => 0

/-- Write bytes into system SRAM from an address on; bytes that would lie elsewhere are not written. -/
def State.sramWrite (s : State) (a : Nat) : List Byte → State
  | [] => s
  | b :: bs =>
    let s := match s.placeOf a with
      | some p => if placeMacro p < 24 then s.setByte p b else s
      | none => s
    s.sramWrite (a + 1) bs

/-- Bytes of system SRAM from an address on. -/
def State.sramBytes (s : State) (a n : Nat) : List Byte :=
  (List.range n).map fun i => BitVec.ofNat 8 (s.sramWord ((a + i) / 4 * 4) / 256 ^ ((a + i) % 4))

/-- An address range lies in system SRAM. -/
def inSram (a n : Nat) : Bool := decide (0x10000000 ≤ a) && decide (a + n ≤ 0x10600000)

/-- Bits `[hi:lo]` of a number. -/
def bits (w hi lo : Nat) : Nat := w / 2 ^ lo % 2 ^ (hi + 1 - lo)

/-- The frame of a transmit record (R382): what belongs to another format is not sent, nor is the record's ESI. -/
def State.readRec (s : State) (a : Nat) : CanFrame :=
  let w0 := s.sramWord a
  let w1 := s.sramWord (a + 4)
  let len := bits w1 11 0
  let fmt := bits w0 31 30
  let ide := bits w0 29 29 = 1 && fmt ≠ 2
  let xl := fmt = 2
  let rtr := bits w1 31 31 = 1 && fmt = 0
  { fmt := fmt, ide := ide, id := if ide then bits w0 28 0 else bits w0 10 0
    rtr := rtr, brs := bits w1 30 30 = 1 && fmt = 1, esi := false, sec := bits w1 28 28 = 1 && xl
    sdt := if xl then bits w1 27 20 else 0, vcid := if xl then bits w1 19 12 else 0, len := len
    af := if xl then BitVec.ofNat 32 (s.sramWord (a + 8)) else 0
    data := if rtr then [] else s.sramBytes (a + 24) len }

/-- A data length of a format (R377). -/
def lenOk (fmt len : Nat) : Bool :=
  match fmt with
  | 0 => decide (len ≤ 8)
  | 1 => decide (len ≤ 8) || [12, 16, 20, 24, 32, 48, 64].contains len
  | 2 => decide (1 ≤ len) && decide (len ≤ 2048)
  | _ => false

/-- A transmit record is valid (R382): in system SRAM, of an enabled format, with a data length of it.
(DEDUCED: log entry 45.) -/
def State.recOk (s : State) (c a : Nat) : Bool :=
  let f := s.readRec a
  inSram a 24 && s.canFmt c f.fmt && lenOk f.fmt f.len

/-- The NM frame of a kind (R418). -/
def State.nmFrame (s : State) (k : NmKind) : CanFrame :=
  let kind : Byte := match k with | .keepAwake => 1 | .sleep => 2 | .forced => 3
  let node := s.fld nmPg R.NM.CFG.NODE
  { fmt := 0, ide := false, id := s.fld nmPg R.NM.CFG.NMID + node, len := 2, data := [kind, BitVec.ofNat 8 node] }

/-- The frame a slot sends: the record as it stands with the controller's own ESI, or the NM block's (R382, R383, R420). -/
def State.txFrame (s : State) (c t : Nat) : CanFrame :=
  match (s.txAt c t).nm with
  | some k => s.nmFrame k
  | none =>
    let f := s.readRec (s.txAt c t).addr
    { f with esi := f.fmt = 1 && s.canState c = 4 }

/-! ## Commands -/

/-- GO (R380): from INIT, and from LISTEN. (DEDUCED: log entry 45.) -/
def execCanGo (c : Fin 8) (s : State) : Outcome :=
  let pg := canPg c
  let st := s.canState c
  let lom := R.CAN.MODE.LOM.get (s.canMode c) = 1
  if !s.canRuns then .next s else if s.locked pg ∨ (st ≠ 1 ∧ st ≠ 6) then .next (s.refuse pg)
  else .next ((s.ok pg).setCanState c (if lom then 6 else 2))

/-- STOP or a disable acts (R380, R386); a page enabled again meanwhile leaves OFF at once. -/
def State.canHalt (s : State) (c : Nat) (off : Bool) : State :=
  let s := (s.setCan c { s.canAt c with stop := none, boRec := false }).setCanState c (if off && !s.enabled (canPg c) then 0 else 1)
  if s.canState c = 0 then s.nmLose c else s

/-- A frame is in progress: sent by the controller, or received, from its SOF on (R380, R397). -/
def State.canInFrame (s : State) (c : Nat) : Bool := (s.txActive c).isSome || (s.canAt c).rx

/-- STOP or a disable is given: at once when no frame is in progress, otherwise when it ends (R380). -/
def State.canStopAt (s : State) (c : Nat) (off : Bool) : State :=
  let off := off || (s.canAt c).stop == some true
  if s.canInFrame c then s.setCan c { s.canAt c with stop := some off } else s.canHalt c off

/-- STOP (R380). -/
def execCanStop (c : Fin 8) (s : State) : Outcome :=
  let pg := canPg c
  if !s.canRuns then .next s else if s.locked pg ∨ s.canState c ≤ 1 then .next (s.refuse pg) else .next ((s.ok pg).canStopAt c false)

/-- PG_CTRL.EN of a CAN page changed (R380). -/
def State.canEnable (s : State) (c : Nat) : State :=
  if s.enabled (canPg c) then (if s.canState c = 0 then s.setCanState c 1 else s)
  else if s.canState c = 0 then s else s.canStopAt c true

/-- A candidate of the autobaud begins (R394). -/
def State.abBegin (s : State) (c k : Nat) : State :=
  (s.setCan c { s.canAt c with abStart := s.tb, abFrames := 0, abErr := false }).setFld (canPg c) R.CAN.STAT.ABIDX k

/-- AUTOBAUD (R380, R394): refused outside INIT and with no candidate. (DEDUCED: log entry 45.) -/
def execAutobaud (c : Fin 8) (s : State) : Outcome :=
  let pg := canPg c
  if !s.canRuns then .next s
  else if s.locked pg ∨ s.canState c ≠ 1 ∨ s.fld pg R.CAN.AB.NCAND = 0 then .next (s.refuse pg)
  else
    let s := (s.ok pg).setCan c { s.canAt c with abRound := 0 }
    .next ((s.abBegin c 0).setCanState c 7)

/-- The candidate in trial has passed (R394): an adopted one goes on, in LISTEN or in SYNC. -/
def State.abPass (s : State) (c : Nat) : State :=
  let s := s.setBit (canPg c) R.CAN.STAT.TSRC (s.bit (canPg c) R.CAN.AB.ADOPT)
  s.setCanState c (if s.bit (canPg c) R.CAN.AB.GO then 2 else 6)

/-- The candidate in trial has failed (R394): the next candidate, the next round, or INIT with ABFAIL. -/
def State.abFail (s : State) (c : Nat) : State :=
  let pg := canPg c
  let k := s.fld pg R.CAN.STAT.ABIDX + 1
  if k < s.fld pg R.CAN.AB.NCAND then s.abBegin c k
  else
    let round := (s.canAt c).abRound + 1
    let s := (s.setCan c { s.canAt c with abRound := round }).abBegin c 0
    let lim := s.fld pg R.CAN.AB.ROUNDS
    if lim ≠ 0 ∧ lim ≤ round then (s.setCanState c 1).detect pg 6 else s

/-- AUTOBAUD_CANDIDATE_END (R394): success after 2 frames without an error; an error, or TMO ms from the candidate's start, ends
it. An end that has not come about changes nothing. -/
def execAutobaudCandidateEnd (c : Fin 8) (pass : Bool) (s : State) : Outcome :=
  let v := s.canAt c
  if !s.canRuns ∨ s.canState c ≠ 7 then .next s
  else if v.abErr then .next (if pass then s else s.abFail c)
  else if 2 ≤ v.abFrames then .next (if pass then s.abPass c else s)
  else if pass then .next s
  else s.atTick (v.abStart + s.fld (canPg c) R.CAN.AB.TMO * 100000) fun s => s.abFail c

/-- RECOVER (R388): refused outside BUSOFF. -/
def execRecover (c : Fin 8) (s : State) : Outcome :=
  let pg := canPg c
  if !s.canRuns then .next s else if s.locked pg ∨ s.canState c ≠ 5 then .next (s.refuse pg)
  else .next ((s.ok pg).setCan c { s.canAt c with boRec := true })

/-- BUS_OFF_RECOVERY_START (R388): with BOAUTO, BODLY ms after the entry to BUSOFF. -/
def execBusOffRecoveryStart (c : Fin 8) (s : State) : Outcome :=
  let pg := canPg c
  if s.canRuns ∧ s.canState c = 5 ∧ s.bit pg R.CAN.MODE.BOAUTO ∧ !(s.canAt c).boRec then
    s.atTick ((s.canAt c).boTick + s.fld pg R.CAN.RETRY.BODLY * 100000) fun s =>
      s.setCan c { s.canAt c with boRec := true }
  else .next s

/-- BUS_OFF_RECOVERY_COMPLETE (R380, R388): ACTIVE with TEC = REC = 0. -/
def execBusOffRecoveryComplete (c : Fin 8) (s : State) : Outcome :=
  let pg := canPg c
  if s.canRuns ∧ s.canState c = 5 ∧ (s.canAt c).boRec then
    let s := s.setCan c { s.canAt c with boRec := false, trxOff := false }
    let s := (s.setFld pg R.CAN.ECNT.TEC 0).setFld pg R.CAN.ECNT.REC 0
    .next (s.setCanState c 3)
  else .next s

/-- What follows the end of a frame in progress: a STOP or disable that waited, or a changed timing (R380, R397). -/
def State.canFrameEnd (s : State) (c : Nat) : State :=
  let v := s.canAt c
  if (s.txActive c).isSome then (s.setCan c { v with rx := false, rxPast := false, rxXl := false }).canShow c
  else
    let s := s.setCan c { v with cfgPend := false, rx := false, rxPast := false, rxXl := false }
    match v.stop with
    | some off => s.canHalt c off
    | none => if v.cfgPend ∧ (s.canState c = 3 ∨ s.canState c = 4) then s.setCanState c 2 else s.canShow c

/-- The bus has been idle for 11 bits: a frame that was in progress is over (R380). -/
def State.canIdle (s : State) (c : Nat) : State :=
  let v := s.canAt c
  if (s.txActive c).isNone && (v.rx || v.stop.isSome || v.cfgPend) then s.canFrameEnd c else s

/-- BUS_INTEGRATION (R380): SYNC ends in ACTIVE, or in PASSIVE by the counters. (PRESUMED: log entry 44.) -/
def execBusIntegration (c : Fin 8) (s : State) : Outcome :=
  let s := if s.canRuns ∧ s.canState c = 2 then s.canIdle c else s
  if s.canRuns ∧ s.canState c = 2 then
    .next (((s.setCan c { s.canAt c with trxOff := false }).setCanState c 3).canErrState c)
  else .next s

/-- REQ (R383, R420, R423): the slot becomes PENDING with its record read; a bad record completes at once. A request is a
local wake inside the sleep window. -/
def execReq (c : Fin 8) (t : Fin 16) (s : State) : Outcome :=
  let pg := canPg c
  let st := s.txSt c t
  if !s.canRuns then .next s else if s.locked pg ∨ s.canState c = 0 ∨ st = 1 ∨ st = 2 ∨ s.nmSlot c t then .next (s.refuse pg)
  else
    let s := s.ok pg
    let v := s.canAt c
    let a := s.fld pg (R.TXS.ADDR.ADDR t) * 4
    let s := s.setCan c { v with reqSeq := v.reqSeq + 1 }
    let s := s.setTx c t { addr := a, seq := v.reqSeq }
    let s := (s.setFld pg (R.TXS.STAT.ATT t) 0).setFld pg (R.TXS.STAT.CXLATE t) 0
    let s := s.setFld pg (R.TXS.STAT.ST t) 1
    let s := s.hwRead a 24
    let s := if s.recOk c a then s.nmEval else s.txDone c t 6
    .next (s.localWake none)

/-- CANCEL (R386, R420). -/
def execCanCancel (c : Fin 8) (t : Fin 16) (s : State) : Outcome :=
  let pg := canPg c
  let st := s.txSt c t
  if !s.canRuns then .next s else if s.locked pg ∨ s.nmSlot c t then .next (s.refuse pg)
  else if st = 1 then .next ((s.ok pg).txDone c t 4)
  else if st = 2 then .next ((s.ok pg).setTx c t { s.txAt c t with cxl := true })
  else .next (s.refuse pg)

/-! ## Transmission -/

/-- The arbitration field of a frame as a number, the lower winning: the 11 identifier bits, RTR or SRR, IDE, the further 18
bits of an Extended identifier, and its RTR (R384). (PRESUMED: log entry 44.) -/
def arbKey (f : CanFrame) : Nat :=
  let rtr := if f.rtr then 1 else 0
  if f.ide then f.id / 2 ^ 18 * 2 ^ 21 + 2 ^ 20 + 2 ^ 19 + f.id % 2 ^ 18 * 2 + rtr
  else f.id % 2 ^ 11 * 2 ^ 21 + rtr * 2 ^ 20

/-- The slot chosen at a selection point (R384). -/
def State.txChoice (s : State) (c : Nat) : Option Nat :=
  let key := fun t => if s.bit (canPg c) R.CAN.MODE.TXPRI then (s.txAt c t).seq else arbKey (s.txFrame c t)
  (List.range 16).foldl (fun best t =>
    if s.txSt c t ≠ 1 then best
    else match best with
      | none => some t
      | some b => if key t < key b then some t else best) none

/-- SELECTION_POINT (R384): any frame on the bus is over, and the controller chooses a PENDING slot. Inside the sleep window a
controller of a sleep bus starts no attempt (R423); eleven recessive bits have passed, so a transmitter that had turned off is on
again (R395). (DEDUCED: log entry 45.) -/
def execSelectionPoint (c : Fin 8) (s : State) : Outcome :=
  let s := if s.canRuns then s.canIdle c else s
  if s.canLive c ∧ (s.txActive c).isNone then
    let s := s.setCan c { s.canAt c with trxOff := false }
    if s.nmState = 2 ∧ s.sleepCan c then .next s
    else match s.txChoice c with
      | some t => .next ((s.setFld (canPg c) (R.TXS.STAT.ST t) 2).canShow c)
      | none => .next s
  else .next s

/-- An attempt of slot `t` ends without success (R385, R386): cancelled when marked, FAILED by SSHOT or RTLIM, else PENDING. -/
def State.txFail (s : State) (c t : Nat) (err : Bool) : State :=
  let pg := canPg c
  let v := s.txAt c t
  let errs := if err then v.errs + 1 else v.errs
  let lim := s.fld pg R.CAN.RETRY.RTLIM
  let s := s.setTx c t { v with errs := errs, cxl := false }
  if v.cxl ∨ (t = 15 ∧ s.nmStale c) then s.txDone c t 4
  else if s.bit pg R.CAN.RETRY.SSHOT ∨ (err ∧ lim ≠ 0 ∧ lim ≤ errs) then s.txDone c t 5
  else (s.setFld pg (R.TXS.STAT.ST t) 1).canShow c

/-- The count of ACK-less attempts is reset (R389). -/
def State.canHeard (s : State) (c : Nat) : State :=
  (s.setCan c { s.canAt c with ackless := 0 }).setBit (canPg c) R.CAN.STAT.ALONE false

/-- One ACK-less attempt more (R389). -/
def State.canAckless (s : State) (c : Nat) : State :=
  let pg := canPg c
  let n := (s.canAt c).ackless + 1
  let s := (s.setCan c { s.canAt c with ackless := n }).count pg 4
  if s.fld pg R.CAN.RETRY.ALONETH ≤ n ∧ !s.bit pg R.CAN.STAT.ALONE then (s.setBit pg R.CAN.STAT.ALONE true).detect pg 3 else s

/-- TB of the SOF and the attempts are written back into a record (R382, R385, R386). -/
def State.txBack (s : State) (a sof att : Nat) (late : Bool) : State :=
  let w5 := s.sramWord (a + 20)
  let w5 := w5 - bits w5 16 16 * 2 ^ 16 - bits w5 15 8 * 2 ^ 8 + (if late then 2 ^ 16 else 0) + att % 256 * 2 ^ 8
  let s := s.sramWrite (a + 12) (leBytes 8 sof)
  s.sramWrite (a + 20) (leBytes 4 w5)

/-! ## Reception -/

/-- A filter element matches a frame (R390). -/
def State.feMatch (s : State) (c : Nat) (f : CanFrame) (e : Nat) : Bool :=
  let pg := canPg c
  s.bit pg (R.FE.ID.EN e) && (s.fld pg (R.FE.ACT.FMTS e)).testBit f.fmt &&
    (s.bit pg (R.FE.ID.IDE e) == (f.ide && f.fmt ≠ 2)) &&
    (Nat.xor f.id (s.fld pg (R.FE.ID.ID e))) &&& s.fld pg (R.FE.MASK.MASK e) == 0 &&
    (!s.bit pg (R.FE.ACT.VCEN e) || (f.fmt = 2 && s.fld pg (R.FE.ACT.VCID e) = f.vcid))

/-- The words of a stored record (R382, R391). -/
def recBytes (f : CanFrame) (sof room elem : Nat) (unmatched : Bool) : List Byte :=
  let b := fun (x : Bool) (k : Nat) => if x then 2 ^ k else 0
  let w0 := f.fmt % 4 * 2 ^ 30 + b (f.ide && f.fmt ≠ 2) 29 + f.id % 2 ^ 29
  let w1 := b (f.rtr && f.fmt = 0) 31 + b (f.brs && f.fmt = 1) 30 + b f.esi 29 + b (f.sec && f.fmt = 2) 28 +
    (if f.fmt = 2 then f.sdt % 256 * 2 ^ 20 + f.vcid % 256 * 2 ^ 12 else 0) + f.len % 4096
  let w2 := if f.fmt = 2 then f.af.toNat else 0
  let w5 := b (decide (room < f.data.length)) 8 + b unmatched 6 + elem % 64
  let data := f.data.take room
  leBytes 4 w0 ++ leBytes 4 w1 ++ leBytes 4 w2 ++ leBytes 8 sof ++ leBytes 4 w5 ++
    data ++ List.replicate ((4 - data.length % 4) % 4) 0

/-- Store a frame in a FIFO (R391). -/
def State.rxStore (s : State) (c q : Nat) (f : CanFrame) (sof elem : Nat) (unmatched : Bool) : State :=
  let pg := canPg c
  let n := s.fld pg (R.RXF.CFG.NREC q)
  let put := s.fld pg (R.RXF.IDX.PUT q)
  let sz := s.fld pg (R.RXF.CFG.SZ q)
  if n < 2 ∨ (put + 1) % n = s.fld pg (R.RXF.IDX.GET q) then (s.detect pg (4 + q)).count pg 2
  else
    let s := s.sramWrite (s.fld pg (R.RXF.BASE.ADDR q) * 32 + put * sz * 32) (recBytes f sof (sz * 32 - 24) elem unmatched)
    let s := (s.setFld pg (R.RXF.IDX.PUT q) ((put + 1) % n)).count pg 1
    if s.bit pg (R.RXF.CFG.IEN q) then
      (s.setReg pg R.CAN.RXEV.F.off (s.reg pg R.CAN.RXEV.F.off ||| (1 <<< q))).post (176 + c)
    else s

/-- Storage by the lowest matching element with a destination, or by NOMATCH (R391). -/
def State.rxSort (s : State) (c : Nat) (f : CanFrame) (sof : Nat) : State :=
  let pg := canPg c
  match (List.range 64).find? fun e => s.feMatch c f e && s.fld pg (R.FE.ACT.DEST e) != 0 with
  | some e =>
    let d := s.fld pg (R.FE.ACT.DEST e)
    if d = 3 then s else s.rxStore c (d - 1) f sof e false
  | none =>
    let m := R.CAN.MODE.NOMATCH.get (s.canMode c)
    if m = 1 ∨ m = 2 then s.rxStore c (m - 1) f sof 0 true else s

/-- The hits of a frame of the elements that `p` admits leave for the clause fabric (R390, R392). -/
def State.rxHits (s : State) (c : Nat) (f : CanFrame) (p : Nat → Bool) : State :=
  (((List.range 64).filter fun e => s.feMatch c f e && p e).map fun e => 0x200 + 0x40 * c + e).foldl (fun t u => t.pulse Island.net.index u) s

/-- The kind and node of an NM frame (R418). -/
def State.nmKindOf (s : State) (f : CanFrame) : Option Nat :=
  let base := s.fld nmPg R.NM.CFG.NMID
  match f.data with
  | [k, _] => if f.fmt = 0 ∧ !f.ide ∧ !f.rtr ∧ base ≤ f.id ∧ f.id ≤ base + 63 ∧ 1 ≤ k.toNat ∧ k.toNat ≤ 3
      then some k.toNat else none
  | _ => none

/-- A protocol exception (R377): bus integration, no error, counted. -/
def State.canPex (s : State) (c : Nat) : State :=
  let s := ((s.detect (canPg c) 7).count (canPg c) 7).canFrameEnd c
  if s.canState c = 3 ∨ s.canState c = 4 then s.setCanState c 2 else s

/-- PROTOCOL_EXCEPTION (R377). -/
def execProtocolException (c : Fin 8) (s : State) : Outcome := if s.canHears c then .next (s.canPex c) else .next s

/-- The SOF of another node's frame has been received (R380). -/
def State.rxSof (s : State) (c : Nat) : State := (s.setCan c { s.canAt c with rx := true }).canShow c

/-- The arbitration field of a frame has been received (R390): the hits of the early elements. -/
def State.rxArb (s : State) (c : Nat) (f : CanFrame) : State :=
  ((s.rxHits c f fun e => s.bit (canPg c) (R.FE.ACT.EARLY e)).setCan c
    { s.canAt c with rx := true, rxPast := true, rxXl := f.fmt = 2 }).canShow c

/-- A frame has become valid for a receiver (R387, R389-R392, R394, R421, R426): hits, storage, the error counter, the ACK-less
count, and what the sleep procedure takes from it. -/
def State.rxGood (s : State) (c : Nat) (f : CanFrame) (sof : Nat) : State :=
  let pg := canPg c
  let s := s.rxHits c f fun e => !s.bit pg (R.FE.ACT.EARLY e)
  let rec' := s.fld pg R.CAN.ECNT.REC
  let s := if s.safe ∨ s.canState c = 6 ∨ s.canState c = 7 then s
    else (s.setFld pg R.CAN.ECNT.REC (if 127 < rec' then 120 else rec' - 1)).canErrState c
  let s := (s.canHeard c).rxSort c f sof
  let s := if s.tb ≤ (s.canAt c).abStart + s.fld pg R.CAN.AB.TMO * 100000 then
      s.setCan c { s.canAt c with abFrames := (s.canAt c).abFrames + 1 } else s
  let s := if s.sleepCan c ∧ s.nmKindOf f = some 1 then { s with nm := { s.nm with lastKa := s.tb } } else s
  let s := if s.sleepCan c ∧ (s.nmKindOf f = some 2 ∨ s.nmKindOf f = some 3) then s else s.windowWake (.can (Fin.ofNat 8 c))
  (s.nmValid c).canFrameEnd c

/-! ## Wake-up frames in PARK (R396) -/

/-- The transceiver of a bus decodes frames in PARK: wake mode 2 (R396). -/
def State.canDecodes (s : State) (c : Nat) : Bool := s.power = .park && s.fld (canPg c) R.WAKE.CFG.WMODE = 2

/-- A valid Classical frame is a wake-up frame (R396). -/
def State.canWakeFrame (s : State) (c : Nat) (f : CanFrame) : Bool :=
  let pg := canPg c
  let mask := fun i => BitVec.ofNat 8 (if i < 4 then s.fld pg R.WAKE.DATA_LO.D / 256 ^ i else s.fld pg R.WAKE.DATA_HI.D / 256 ^ (i - 4))
  f.fmt = 0 && (f.ide == s.bit pg R.WAKE.ID.IDE) &&
    (Nat.xor f.id (s.fld pg R.WAKE.ID.ID)) &&& s.fld pg R.WAKE.MASK.MASK == 0 &&
    (!s.bit pg R.WAKE.DLC.DMEN || f.len = s.fld pg R.WAKE.DLC.DLC) &&
    (List.range f.data.length).any fun i => ((f.data[i]?).getD 0) &&& mask i ≠ 0

/-- A bus has woken the device in PARK (R396, R424). -/
def State.canParkWake (s : State) (c : Nat) : State := if s.parkWake.isNone then { s with parkWake := some (1, c) } else s

/-- A frame ends in an error for the wake decoder (R396): its counter rises, and past 31 the bus wakes the device with FECOVF.
(PRESUMED: log entry 44.) -/
def State.canFecUp (s : State) (c : Nat) : State :=
  let pg := canPg c
  let n := s.fld pg R.WAKE.STAT.FEC
  if n < 31 then s.setFld pg R.WAKE.STAT.FEC (n + 1)
  else (((s.setFld pg R.WAKE.STAT.FEC 0).setBit pg R.WAKE.STAT.FECOVF true).detect pg 12).canParkWake c

/-- The wake decoder receives a frame (R396): a valid one lowers its counter, an FD frame is ignored or counts as an error, and a
wake-up frame wakes the device. (PRESUMED: log entry 44.) -/
def State.canDecode (s : State) (c : Nat) (f : CanFrame) : State :=
  let pg := canPg c
  if f.fmt ≠ 0 then (if f.fmt = 1 ∧ s.bit pg R.WAKE.CFG.FDTOL then s else s.canFecUp c)
  else
    let s := s.setFld pg R.WAKE.STAT.FEC (s.fld pg R.WAKE.STAT.FEC - 1)
    if s.canWakeFrame c f then s.canParkWake c else s

/-- CAN_FRAME_RECEIVED (R377, R387, R389-R392, R394, R396): the frame has passed its arbitration field, has become valid, or has
ended in an error; a format that is not enabled is a protocol exception. (DEDUCED: log entry 45.) -/
def execCanFrameReceived (c : Fin 8) (f : CanFrame) (sof : Nat) (at_ : CanRx) (s : State) : Outcome :=
  if s.canDecodes c then .next (match at_ with | .arb => s | .sof => s | .good => s.canDecode c f | .bad => s.canFecUp c)
  else if !s.canHears c then .next s
  else if at_ = .sof then .next (if s.canInFrame c then s else s.rxSof c)
  else if !s.canFmt c f.fmt then .next (s.canPex c)
  else match at_ with
  | .good => .next ((if (s.canAt c).rxPast then s else s.rxArb c f).rxGood c f sof)
  | .bad => .next ((s.setCan c { s.canAt c with abErr := true }).canFrameEnd c)
  | _ => .next (if (s.canAt c).rxPast then s else s.rxArb c f)

/-! ## Ends of attempts and errors -/

/-- Entry to BUSOFF (R387, R388): the ACTIVE slot's attempt counts as ending in an error, `code` of LASTERR; slots stay PENDING. -/
def State.canBusOff (s : State) (c code : Nat) : State :=
  let pg := canPg c
  let s := ((s.setCan c { s.canAt c with boRec := false, boTick := s.tb }).setCanState c 5).detect pg 1
  let s := s.count pg 6
  match s.txActive c with
  | some t =>
    let s := s.setFld pg (R.TXS.STAT.ATT t) (min 255 (s.fld pg (R.TXS.STAT.ATT t) + 1))
    let s := if code = 3 then s.canAckless c else s
    (s.txFail c t true).canFrameEnd c
  | none => s

/-- The frame in progress is an XL frame (R393). -/
def State.canXlFrame (s : State) (c : Nat) : Bool :=
  match s.txActive c with
  | some t => (s.txFrame c t).fmt = 2
  | none => (s.canAt c).rxXl

/-- An error of a controller that hears its bus (R387): LASTERR, the count of errors, and the error counters by ISO 11898-1: 8 more for a
transmitter, 1 more for a receiver with 8 where a dominant bit follows its flag, and 8 for each further run of 8 dominant bits; none for
the ACK error of an error-passive transmitter that sees no dominant bit, and for a stuff error in arbitration at a recessive stuff
bit. In the data phase of an XL frame error signalling is disabled, and the counters stay (R393). (PRESUMED: log entry 44.) -/
def State.canErr (s : State) (c code : Nat) (dph tx : Bool) (x : CanFlag) : State :=
  let pg := canPg c
  let quiet := dph && s.canXlFrame c
  let s := ((s.setFld pg R.CAN.LASTERR.CODE code).setBit pg R.CAN.LASTERR.DPH dph).count pg 3
  let s := s.setCan c { s.canAt c with abErr := true }
  let s := if tx then s else s.canFrameEnd c
  if !s.canLive c ∨ quiet then s
  else
    let tec := s.fld pg R.CAN.ECNT.TEC
    let rec' := s.fld pg R.CAN.ECNT.REC
    let spared := (code = 3 && s.canState c = 4 && !x.dom) || (code = 1 && x.arbStuff)
    let tec' := if tx then (if spared then tec else tec + 8) + 8 * x.runs else tec
    let rec'' := if tx then rec' else min 255 (rec' + 1 + (if x.dom then 8 else 0) + 8 * x.runs)
    let s := (s.setFld pg R.CAN.ECNT.TEC (min 511 tec')).setFld pg R.CAN.ECNT.REC rec''
    if 255 < tec' then s.canBusOff c code else s.canErrState c

/-- The ACTIVE slot's attempt ends in an error (R385, R389). -/
def State.attemptErr (s : State) (c t code : Nat) : State :=
  let s := if code = 3 then s.canAckless c else s
  (s.txFail c t true).canFrameEnd c

/-- The ACTIVE slot's attempt has succeeded (R382, R385, R386, R389, R390). -/
def State.attemptSent (s : State) (c t sof att : Nat) : State :=
  let pg := canPg c
  let v := s.txAt c t
  let f := s.txFrame c t
  let s := if v.nm.isNone then s.hwRead v.addr (24 + f.data.length) else s
  let tec := s.fld pg R.CAN.ECNT.TEC
  let s := ((s.emit (.can c f)).count pg 0).nmFrameSeen (s.sleepCan c)
  let s := (s.setFld pg R.CAN.ECNT.TEC (tec - 1)).canErrState c
  let s := s.canHeard c
  let s := if v.cxl then s.setBit pg (R.TXS.STAT.CXLATE t) true else s
  let s := if v.nm.isNone then s.txBack v.addr sof att v.cxl else s
  let s := if R.CAN.MODE.SELFRX.get (s.canMode c) = 1 then (s.rxHits c f fun _ => true).rxSort c f sof else s
  (s.txDone c t 3).canFrameEnd c

/-- A measured loop delay above 127 kernel cycles is a bit error of the frame (R379): which of the two codes, and whether in a data phase,
is left open. (PRESUMED: log entry 44.) -/
def State.loopErr (s : State) (c t att : Nat) : State :=
  let code := if Config.freeBit s.freeCtr then 4 else 5
  let s := State.canErr { s with freeCtr := s.freeCtr + 2 } c code (Config.freeBit (s.freeCtr + 1)) true {}
  if s.txSt c t = 2 then (s.setFld (canPg c) (R.TXS.STAT.ATT t) att).attemptErr c t code else s

/-- CAN_ATTEMPT_END (R379, R385-R389, R393, R395): the outcome of the ACTIVE slot's attempt; after a lost arbitration the winner's frame
goes on. A transmitter that has turned off sends no frame to its end. (PRESUMED: log entry 44.) -/
def execCanAttemptEnd (c : Fin 8) (r : CanEnd) (sof : Nat) (s : State) : Outcome :=
  let pg := canPg c
  match s.txActive c with
  | none => .next s
  | some t =>
    let sent : Bool := match r with | .success => true | .measured _ => true | _ => false
    if !s.canRuns ∨ (sent ∧ (s.canAt c).trxOff) then .next s
    else
      let att := min 255 (s.fld pg (R.TXS.STAT.ATT t) + 1)
      let far := fun d => decide (127 < d) && s.bit pg R.CAN.TDC.EN && (s.txFrame c t).fmt ≠ 0
      let u := s
      let s := s.setFld pg (R.TXS.STAT.ATT t) att
      match r with
      | .success => .next (s.attemptSent c t sof att)
      | .measured d => .next (if far d then u.loopErr c t att else s.attemptSent c t sof att)
      | .lost => .next (((s.count pg 5).txFail c t false).rxSof c)
      | .error code => .next (s.attemptErr c t code)

/-- CAN_ERROR (R387): an error as transmitter or receiver. (PRESUMED: log entry 44.) -/
def execCanError (c : Fin 8) (code : Fin 7) (dph tx : Bool) (x : CanFlag) (s : State) : Outcome :=
  if s.canDecodes c ∧ code ≠ 0 then .next (s.canFecUp c)
  else if !s.canHears c ∨ code = 0 then .next s
  else .next (s.canErr c code dph tx x)

/-- BUSDOM (R395): it only reports. -/
def execBusdom (c : Fin 8) (s : State) : Outcome :=
  if s.canRuns ∧ s.canState c ≠ 0 then .next (s.detect (canPg c) 11) else .next s

/-! ## Safe state, clock and fixes -/

/-- A frame in transmission stops; its slot returns to PENDING, the attempt not counted (R381), with a CANCEL that it had met still
standing (R386). A frame being received is over for a controller that stops. (DEDUCED: log entry 45.) -/
def State.canCut (s : State) (c : Nat) : State :=
  match s.txActive c with
  | some t =>
    (if t = 15 ∧ s.nmStale c then s.txDone c t 4 else s.setFld (canPg c) (R.TXS.STAT.ST t) 1).canFrameEnd c
  | none => if (s.canAt c).rx then s.canFrameEnd c else s

/-- Safe state is entered (R381): listen-only. (DEDUCED: log entry 45.) -/
def State.canSafeEnter (s : State) : State :=
  (List.range 8).foldl (fun t c =>
    if (t.txActive c).isSome then (t.canCut c).canShow c else t.canShow c) s

/-- A controller that took part in the bus enters SYNC (R381, R397). -/
def State.canResync (s : State) (c : Nat) : State :=
  if s.canState c = 3 ∨ s.canState c = 4 ∨ s.canState c = 2 then s.setCanState c 2 else s.canShow c

/-- Safe state is left (R381). -/
def State.canSafeLeave (s : State) : State :=
  (List.range 8).foldl (fun t c => t.canResync c) s

/-- The NET clock returns and no block reset came between (R381). -/
def State.canClockBack (s : State) : State := (List.range 8).foldl (fun t c => (t.canCut c).canResync c) s

/-- A fix touched a CAN page (R394, R397): an adopted timing ends; a changed timing or mode takes effect at the next bus idle;
a changed FIFO starts anew. `old` is the state before the fix. -/
def State.canFix (s : State) (c : Nat) (old : State) : State :=
  let pg := canPg c
  let s := s.setBit pg R.CAN.STAT.TSRC false
  let timing := [0x104, 0x108, 0x10C, 0x110, 0x114].any fun o => s.reg pg o != old.reg pg o
  let s := if !timing then s
    else if s.canInFrame c then s.setCan c { s.canAt c with cfgPend := true, mode := old.canMode c }
    else s.canResync c
  [0, 1].foldl (fun t q =>
    if t.reg pg (R.RXF.BASE.ADDR q).off = old.reg pg (R.RXF.BASE.ADDR q).off ∧
        t.fld pg (R.RXF.CFG.NREC q) = old.fld pg (R.RXF.CFG.NREC q) ∧
        t.fld pg (R.RXF.CFG.SZ q) = old.fld pg (R.RXF.CFG.SZ q) then t
    else t.setReg pg (R.RXF.IDX.PUT q).off 0) s

end Sys2Proof.Machine
end

