-- ==== Sys2Proof/Machine/Lin.lean ====
section
/-! DEFINITION. The LIN controllers (R400-R405): commands, schedule, headers, frames and errors; and the transceiver conditions
that CAN and LIN share (R395, R404). -/

namespace Sys2Proof.Machine

/-- LIN.STAT.STATE (R405): 0 OFF, 1 INIT, 2 RUN. -/
def State.linState (s : State) (l : Nat) : Nat := s.fld (linPg l) R.LIN.STAT.STATE

/-- The controller is a master. -/
def State.linMaster (s : State) (l : Nat) : Bool := s.bit (linPg l) R.LIN.CFG.MASTER

/-- The parity bits of a protected identifier, by ISO 17987-3. (PRESUMED: log entry 46.) -/
def linPid (id : Nat) : Nat :=
  let b := fun i => id / 2 ^ i % 2
  id % 64 + (b 0 + b 1 + b 2 + b 4) % 2 * 64 + (1 + b 1 + b 3 + b 4 + b 5) % 2 * 128

/-- The checksum of a response by ISO 17987-3: the inverted sum with carry of the data, with the PID where it is enhanced.
(PRESUMED: log entry 46.) -/
def linCks (pid : Nat) (enh : Bool) (data : List Byte) : Nat :=
  255 - (data.foldl (fun a d => let x := a + d.toNat; if 255 < x then x - 255 else x) (if enh then pid else 0))

/-- The address of a frame's entry (R401). -/
def State.linEntry (s : State) (l id : Nat) : Nat := s.fld (linPg l) R.LIN.FTAB.ADDR * 16 + 16 * id

/-- DIR of an entry by its word 0: 3, and any LEN outside 1 to 8, count as 0 (R401). -/
def linDirOf (w : Nat) : Nat :=
  let len := bits w 3 0
  if len = 0 ∨ 8 < len ∨ bits w 31 30 = 3 then 0 else bits w 31 30

/-- DIR of a frame's entry; IDs 62 and 63 are ignored (R400, R401). -/
def State.linDir (s : State) (l id : Nat) : Nat := if 62 ≤ id then 0 else linDirOf (s.sramWord (s.linEntry l id))

/-- LEN of an entry. -/
def State.linLen (s : State) (l id : Nat) : Nat := bits (s.sramWord (s.linEntry l id)) 3 0

/-- Word 0 of a frame's entry as the controller has read it at the end of the PID; before that, as it stands (R401). -/
def State.linWord (s : State) (l : Nat) (f : LinFrame) : Nat := f.entry.getD (s.sramWord (s.linEntry l f.id))

/-- LEN of a frame on the bus. -/
def State.linFLen (s : State) (l : Nat) (f : LinFrame) : Nat := bits (s.linWord l f) 3 0

/-- Whether a frame's checksum is enhanced: IDs 60 and 61 are always classic (R401). -/
def State.linEnh (s : State) (l : Nat) (f : LinFrame) : Bool := bits (s.linWord l f) 29 29 = 1 && f.id ≠ 60 && f.id ≠ 61

/-- Bit times of a frame in ticks, rounded up (R403). -/
def LinFrame.bits (f : LinFrame) (n : Nat) : Nat := (n * 100000000 + f.rate - 1) / max 1 f.rate

/-- TFrame_max after the start of a frame's break: 1.4 x (34 + 10 x (LEN + 1)) bit times (R401). -/
def State.linDue (s : State) (l : Nat) (f : LinFrame) : Nat :=
  f.start + (14 * (34 + 10 * (s.linFLen l f + 1)) * 10000000 + f.rate - 1) / max 1 f.rate

/-- GO (R405). -/
def execLinGo (l : Fin 6) (s : State) : Outcome :=
  let pg := linPg l
  if !s.canRuns then .next s else if s.locked pg ∨ s.linState l ≠ 1 then .next (s.refuse pg)
  else
    let s := (s.ok pg).setLin l { s.linAt l with next := s.tb, pos := 0, late := none, stopPend := false, sleepPend := false }
    .next ((s.setFld pg R.LIN.STAT.STATE 2).setFld pg R.LIN.STAT.SCHPOS 0)

/-- The state INIT is entered; a go-to-sleep frame that the NM block still awaited is sent no more (R421). -/
def State.linInit (s : State) (l : Nat) : State :=
  ((s.setLin l { s.linAt l with stopPend := false, sleepPend := false, late := none }).setFld (linPg l) R.LIN.STAT.STATE 1).nmLose
    (8 + l)

/-- PG_CTRL.EN of a LIN page changed (R405): EN = 1 enters INIT, EN = 0 is OFF. -/
def State.linEnable (s : State) (l : Nat) : State :=
  if s.enabled (linPg l) then (if s.linState l = 0 then s.setFld (linPg l) R.LIN.STAT.STATE 1 else s)
  else ((s.setLin l { wakeLatch := (s.linAt l).wakeLatch, hot := (s.linAt l).hot }).setFld (linPg l) R.LIN.STAT.STATE 0).nmLose (8 + l)

/-- The next slot of a master in RUN is to send the go-to-sleep frame (R405). -/
def State.linSleepNext (s : State) (l : Nat) : State := s.setLin l { s.linAt l with sleepPend := true }

/-- SLEEP (R405): on a master in RUN. -/
def execLinSleep (l : Fin 6) (s : State) : Outcome :=
  let pg := linPg l
  if !s.canRuns then .next s else if s.locked pg ∨ s.linState l ≠ 2 ∨ !s.linMaster l then .next (s.refuse pg) else .next ((s.ok pg).linSleepNext l)

/-- WAKE (R405): in INIT or RUN. -/
def execLinWake (l : Fin 6) (s : State) : Outcome :=
  let pg := linPg l
  if !s.canRuns then .next s else if s.locked pg ∨ s.linState l = 0 then .next (s.refuse pg) else .next ((s.ok pg).linPulse l)

/-- The node sends headers: while it drives its bus, and outside the sleep window of a sleep bus (R405, R423).
(DEDUCED: log entry 50.) -/
def State.linSends (s : State) (l : Nat) : Bool := s.linTx l && !(s.nmState = 2 && s.sleepLin l)

/-- The PID of the frame on the bus ends: the controller reads the entry, and a publishing node its data, which it sends
(R401); one that does not drive its bus publishes nothing (R405). (DEDUCED: log entry 47.) -/
def State.linPidEnd (s : State) (l : Nat) : State :=
  match (s.linAt l).frame with
  | some f =>
    if f.entry.isSome ∨ f.cut then s
    else
      let a := s.linEntry l f.id
      let w := s.sramWord a
      let d := if f.sleep then 1 else if linDirOf w = 1 && !s.linTx l then 0 else linDirOf w
      let data := if f.sleep then 0 :: List.replicate 7 0xFF else s.sramBytes (a + 8) (bits w 3 0)
      let s := (s.hwRead a 16).setLin l { s.linAt l with frame := some { f with entry := some w, dir := d } }
      if d = 1 then s.emit (.linResp l data) else s
  | none => s

/-- A header is taken: LASTID, the count, and its frame on the bus (R402, R403). -/
def State.linFrame (s : State) (l : Nat) (f : LinFrame) : State :=
  ((s.setFld (linPg l) R.LIN.STAT.LASTID f.id).count (linPg l) 0).setLin l { s.linAt l with frame := some f }

/-- A master begins a header (R402); none in safe state (R405) and in the sleep window (R423). -/
def State.linHeader (s : State) (l id : Nat) (sleep : Bool) : State :=
  if !s.linSends l then s
  else ((s.emit (.linHeader l (linPid id))).nmFrameSeen (s.sleepLin l)).linFrame l
    { id := id, start := s.tb, rate := s.fld (linPg l) R.LIN.CFG.BR, sleep := sleep }

/-- A slot's header, held back while a frame overruns its slot (R402). -/
def State.linSlot (s : State) (l id : Nat) (sleep : Bool) : State :=
  if (s.linAt l).frame.isSome then
    s.setLin l { s.linAt l with late := some (id, sleep) }
  else s.linHeader l id sleep

/-- Mark an entry after an error, with LIN.STAT.ERR and the PG_FSTAT bit (R401, R404). (DEDUCED: log entry 47.) -/
def State.linError (s : State) (l code : Nat) (id : Option Nat) : State :=
  let pg := linPg l
  let s := (((s.setFld pg R.LIN.STAT.ERR code).detect pg code).count pg 2)
  match id with
  | some i =>
    let a := s.linEntry l i + 4
    let w := s.sramWord a
    s.sramWrite a (leBytes 4 (w - bits w 30 30 * 2 ^ 30 - bits w 3 0 + 2 ^ 30 + code))
  | none => s

/-- The event of a frame whose entry has IEN = 1 (R401, R417). -/
def State.linEvent (s : State) (l : Nat) (f : LinFrame) : State := s.postIf (bits (s.linWord l f) 28 28 = 1) (192 + l)

/-- The own go-to-sleep frame has ended (R419, R421): sent, it counts for its bus; one that failed is sent again with the next
timeout, a forced one no more. (DEDUCED: log entry 50.) -/
def State.linSleepEnd (s : State) (l : Nat) (sleep sent : Bool) : State := if sleep then s.nmOwn (8 + l) sent else s

/-- The frame on the bus is over (R402, R405): STOP, the end after a go-to-sleep frame, a wake pulse, a late header. -/
def State.linOver (s : State) (l : Nat) (sleep : Bool) : State :=
  let v := s.linAt l
  let s := s.setLin l { v with frame := none, wakePend := false, late := none }
  let s := if v.wakePend then s.linPulse l else s
  if v.stopPend ∨ sleep then s.linInit l
  else match v.late with
    | some (id, sl) => s.linHeader l id sl
    | none => s

/-- A frame that the node ignores is over at the latest TFrame_max after its break. (DEDUCED: log entry 47.) -/
def State.linLapse (s : State) (l : Nat) : State :=
  match (s.linAt l).frame with
  | some f => if f.entry.isSome ∧ f.dir = 0 ∧ s.linDue l f ≤ s.tb then (s.linEvent l f).linOver l f.sleep else s
  | none => s

/-- LIN_SLOT_START (R402, R404, R405): the schedule's next slot, or the go-to-sleep frame; a frame still running sets SLOTOVR.
(DEDUCED: log entry 47.) -/
def execLinSlotStart (l : Fin 6) (s : State) : Outcome :=
  let pg := linPg l
  let v := s.linAt l
  if !s.canRuns ∨ s.linState l ≠ 2 ∨ !s.linMaster l then .next s
  else
    let n := s.fld pg R.LIN.SCHN.N
    if n = 0 ∧ !v.sleepPend then .next s
    else s.atTick v.next fun s =>
      let s := s.linLapse l
      let v := s.linAt l
      let pos := if n = 0 then 0 else v.pos % n
      let w := s.sramWord (s.fld pg R.LIN.SCHED.ADDR * 4 + 4 * pos)
      let s := s.hwRead (s.fld pg R.LIN.SCHED.ADDR * 4 + 4 * pos) 4
      let id := bits w 21 16
      let len := bits w 15 0
      let s := if n ≠ 0 ∧ len = 0 then s.detect pg 12 else s
      let s := s.setLin l { v with
        next := if n = 0 then v.next else v.next + max 1 len * 10000, pos := if n = 0 then 0 else (pos + 1) % n
        sleepPend := v.sleepPend && !s.linSends l }
      let s := s.setFld pg R.LIN.STAT.SCHPOS pos
      let s := s.detectIf v.frame.isSome pg 10
      if v.sleepPend then s.linSlot l 0x3C true
      else if 62 ≤ id then s else s.linSlot l id false

/-- STOP (R405): at the end of the frame in progress. (DEDUCED: log entry 47.) -/
def execLinStop (l : Fin 6) (s : State) : Outcome :=
  let pg := linPg l
  if !s.canRuns then .next s else if s.locked pg ∨ s.linState l ≠ 2 then .next (s.refuse pg)
  else
    let s := (s.ok pg).linLapse l
    if (s.linAt l).frame.isSome then .next (s.setLin l { s.linAt l with stopPend := true }) else .next (s.linInit l)

/-- A slave takes breaks longer than 11 bit times of BR (R403). -/
def State.linBreak (s : State) (l : Nat) (h : LinHeader) : Bool :=
  decide (11 * 100000000 < h.brk * s.fld (linPg l) R.LIN.CFG.BR)

/-- A measured rate within 15 % of BR (R403). -/
def State.linRateOk (s : State) (l : Nat) (h : LinHeader) : Bool :=
  let br := s.fld (linPg l) R.LIN.CFG.BR
  decide (85 * br ≤ 100 * h.rate) && decide (100 * h.rate ≤ 115 * br) && decide (h.rate ≠ 0)

/-- LIN_HEADER_RECEIVED (R401, R403, R404, R421, R424): a slave checks the break, the sync byte and the PID and goes by its frame
table; a master hears the end of the header it sends. (DEDUCED: log entry 47.) -/
def execLinHeaderReceived (l : Fin 6) (h : LinHeader) (s : State) : Outcome :=
  if !s.canRuns ∨ s.linState l ≠ 2 then .next s
  else if s.linMaster l then
    match (s.linAt l).frame with
    | some f => if f.entry.isSome ∨ h.pid.toNat ≠ linPid f.id then .next s else s.atTick (f.start + f.bits 34) fun s => s.linPidEnd l
    | none => .next s
  else if !s.linBreak l h then .next s
  else if (s.linAt l).stopPend then .next (s.linOver l false)
  else
    let s := (s.nmFrameSeen (s.sleepLin l)).windowWake (.lin l)
    if !s.linRateOk l h then .next (s.linError l 6 none)
    else
      let id := h.pid.toNat % 64
      if h.pid.toNat ≠ linPid id then .next (s.linError l 7 none)
      else if 62 ≤ id then .next s
      else
        .next ((s.linFrame l { id := id, start := s.tb - h.brk - 21 * 100000000 / h.rate, rate := h.rate }).linPidEnd l)

/-- A subscribed response is stored: words 2 and 3, then NEW (R401). (DEDUCED: log entry 47.) -/
def State.linStore (s : State) (l id : Nat) (data : List Byte) : State :=
  let a := s.linEntry l id
  let s := s.sramWrite (a + 8) data
  let w := s.sramWord (a + 4)
  (s.sramWrite (a + 4) (leBytes 4 (w % 2 ^ 31 + 2 ^ 31))).count (linPg l) 1

/-- A frame on the bus ends in an error of R404: its entry is marked, its event posted. -/
def State.linBad (s : State) (l code : Nat) (f : LinFrame) : State :=
  (((s.linError l code (some f.id)).linEvent l f).linSleepEnd l f.sleep false).linOver l f.sleep

/-- The end of the frame on the bus (R401, R404, R426): a published frame is sent, a subscribed one is stored after a right
checksum, an ignored one passes. A go-to-sleep frame heard sets GOSLP. -/
def State.linEnd (s : State) (l : Nat) (r : LinEnd) : State :=
  match (s.linAt l).frame with
  | none => s
  | some f =>
    match r with
    | .bitErr => s.linBad l 4 f
    | .frameErr => s.linBad l 5 f
    | .sent =>
      if f.dir ≠ 1 ∨ f.cut then s
      else
        let s := (s.count (linPg l) 1).linEvent l f
        (if f.sleep then s.linSleepEnd l true true else s.nmFrameSeen (s.sleepLin l)).linOver l f.sleep
    | .resp data cks =>
      let n := s.linFLen l f
      if f.dir = 1 ∨ f.entry.isNone then s
      else if f.dir = 0 then (s.linEvent l f).linOver l f.sleep
      else if data.length < n then s.linBad l (if data = [] then 1 else 2) f
      else if cks.toNat ≠ linCks (linPid f.id) (s.linEnh l f) (data.take n) then s.linBad l 3 f
      else
        let s := s.linStore l f.id (data.take n)
        let s := if f.id = 0x3C ∧ data.head? = some 0 then s.detect (linPg l) 11 else s
        ((s.linEvent l f).nmValid (8 + l)).linOver l f.sleep

/-- LIN_FRAME_END (R401, R404): an error ends the frame at once, a header with it; every other end lies after the PID.
(PRESUMED: log entry 46.) -/
def execLinFrameEnd (l : Fin 6) (r : LinEnd) (s : State) : Outcome :=
  match (s.linAt l).frame with
  | none => .next s
  | some f =>
    if !s.canRuns then .next s
    else if f.entry.isSome ∨ r = .bitErr ∨ r = .frameErr then .next (s.linEnd l r)
    else s.atTick (f.start + f.bits 34) fun s => (s.linPidEnd l).linEnd l r

/-- LIN_RESPONSE_TIMEOUT (R401, R404): TFrame_max after the break, NORESP or INCOMP; an ignored frame passes. -/
def execLinResponseTimeout (l : Fin 6) (part : Bool) (s : State) : Outcome :=
  match (s.linAt l).frame with
  | none => .next s
  | some f =>
    if !s.canRuns ∨ f.dir = 1 then .next s
    else
      s.atTick (s.linDue l f) fun s =>
        let s := s.linPidEnd l
        match (s.linAt l).frame with
        | some f =>
          if f.dir = 2 then s.linBad l (if part then 2 else 1) f
          else if f.dir = 0 then (s.linEvent l f).linOver l f.sleep
          else s
        | none => s

/-- The NET clock is lost under a frame (R405): it ends with ERR and the code of R404 that its received bytes meet. A published one
does not read back what it sends; a subscribed one has no byte before a byte's time has passed after the PID; later the model
leaves open whether one has come. STOP takes effect with that end, and a wake pulse waits for the return.
(DESIGN CHOICE: log entry 17; DEDUCED: log entry 47.) -/
def State.linCut (s : State) (l : Nat) : State :=
  match (s.linAt l).frame with
  | some f =>
    let wake := (s.linAt l).wakePend
    let s := s.setLin l { s.linAt l with late := none, wakePend := false }
    let s :=
      if f.dir = 1 then s.linBad l 4 f
      else if s.tb < f.start + f.bits 44 then s.linBad l 1 f
      else s.nextFree.linBad l (1 + (Config.freeWord s.freeCtr).toNat % 2) f
    s.setLin l { s.linAt l with wakePend := wake }
  | none => s

/-- Safe state is entered (R39, R369): the node stops driving, in a header or a response; what others send it still stores.
(DEDUCED: log entry 47.) -/
def State.linSafe (s : State) (l : Nat) : State :=
  match (s.linAt l).frame with
  | some f => if f.dir = 1 ∨ f.entry.isNone then ((s.linEvent l f).linSleepEnd l f.sleep false).linOver l false else s
  | none => s

/-- The length in ticks of the schedule entry at `i` (R402). -/
def State.linSlotLen (s : State) (l i : Nat) : Nat :=
  max 1 (bits (s.sramWord (s.fld (linPg l) R.LIN.SCHED.ADDR * 4 + 4 * i)) 15 0) * 10000

/-- Slots that lie behind are passed over; the positions on TB stand (R405). -/
def State.linSkip (s : State) (l n : Nat) : Nat → State
  | 0 => s
  | k + 1 =>
    let v := s.linAt l
    if s.tb ≤ v.next then s
    else State.linSkip (s.setLin l { v with next := v.next + s.linSlotLen l (v.pos % n), pos := (v.pos + 1) % n }) l n k

/-- The NET clock returns (R405): the schedule goes on at the first slot start that lies ahead, whole rounds of the schedule passed
over at once; a wake pulse that waited is driven. (DEDUCED: log entry 47.) -/
def State.linClockBack (s : State) (l : Nat) : State :=
  let v := s.linAt l
  let n := s.fld (linPg l) R.LIN.SCHN.N
  let s := if v.wakePend ∧ v.frame.isNone then (s.setLin l { v with wakePend := false }).linPulse l else s
  if s.linState l ≠ 2 ∨ !s.linMaster l ∨ n = 0 then s
  else
    let round := ((List.range n).map (s.linSlotLen l)).foldl (· + ·) 0
    (s.setLin l { s.linAt l with next := v.next + (s.tb - v.next) / round * round }).linSkip l n n

/-! ## Transceivers -/

/-- The transmitter of a LIN bus has turned off: a header or response that it sends is cut (R404). -/
def State.linTrxOff (s : State) (l : Nat) (v : Lin) : State :=
  s.setLin l { v with frame := v.frame.map fun f => if f.dir = 1 ∨ f.entry.isNone then { f with cut := true } else f }

/-- TXDTO (R395, R404): the transmitter turns off; it only reports. -/
def execTxdto (b : Trx) (s : State) : Outcome :=
  match b with
  | .can c =>
    if s.canRuns ∧ s.fld (canPg c) R.CAN.TRX.MODE = 1 then
      .next ((s.setCan c { s.canAt c with trxOff := true }).detect (canPg c) 10)
    else .next s
  | .lin l =>
    if s.canRuns ∧ s.linState l ≠ 0 ∧ s.linTx l then .next ((s.linTrxOff l { s.linAt l with trxOff := some s.tb }).detect (linPg l) 8)
    else .next s

/-- TRANSCEIVER_OVERTEMPERATURE (R395, R404): the transmitter turns off; that of a LIN bus until it cools. -/
def execTransceiverOvertemperature (b : TrxHeat) (s : State) : Outcome :=
  match b.bus with
  | .can c =>
    if b.hot ∧ s.canRuns ∧ s.canState c ≠ 0 then .next ((s.setCan c { s.canAt c with trxOff := true }).detect (canPg c) 10) else .next s
  | .lin l =>
    let v := s.linAt l
    if !b.hot then .next (if v.hot then s.setLin l { v with hot := false } else s)
    else if s.canRuns ∧ s.linState l ≠ 0 then .next ((s.linTrxOff l { v with hot := true }).detect (linPg l) 9)
    else .next s

end Sys2Proof.Machine
end

