-- ==== Sys2Proof/Machine/Eth.lean ====
section
/-! DEFINITION. The Ethernet ports and switch, the host port, and the link engine's own frames (R406-R415). -/

namespace Sys2Proof.Machine

/-- An Ethernet port's page. -/
def ethPg (p : Nat) : Nat := 0x220 + p
/-- The switch page. -/
def eswPg : Nat := 0x224
/-- The host-port page. -/
def ehpPg : Nat := 0x225
/-- The link page. -/
def linkPg : Nat := 0x228

/-- LROLE of a port: 0 ordinary, 1 trunk, 2 branch (R409). -/
def State.lrole (s : State) (p : Nat) : Nat := s.fld (ethPg p) R.ETH.CFG.LROLE

/-- A port's link is up with its PHY powered (R406). -/
def State.ethUp (s : State) (p : Nat) : Bool := s.clocked .net && s.enabled (ethPg p) && s.bit (ethPg p) R.ETH.STAT.LINK

/-- The link ports that are up. -/
def State.linkPorts (s : State) : List Nat := (List.range 4).filter fun p => s.lrole p ≠ 0 && s.ethUp p

/-- A change of the Ethernet record. -/
def State.setEth (s : State) (e : EthSt) : State := { s with eth := e }

/-! ## The switch -/

/-- A frame's destination, source, tag (PCP, DEI and VID), EtherType and the rest (R407). -/
structure EthParts where
  dst : Nat
  src : Nat
  tag : Option Nat
  etype : Nat
  rest : List Byte

/-- Read the addresses, tag and EtherType of a frame. -/
def ethParse (b : List Byte) : EthParts :=
  let dst := beVal (b.take 6)
  let src := beVal ((b.drop 6).take 6)
  let t := beVal ((b.drop 12).take 2)
  if t = 0x8100 then ⟨dst, src, some (beVal ((b.drop 14).take 2)), beVal ((b.drop 16).take 2), b.drop 18⟩
  else ⟨dst, src, none, t, b.drop 14⟩

/-- The bytes of a frame with or without a tag. -/
def ethBytes (f : EthParts) (tag : Option Nat) : List Byte :=
  beBytes 6 f.dst ++ beBytes 6 f.src ++
    (match tag with
     | some tci => beBytes 2 0x8100 ++ beBytes 2 tci
     | none => []) ++ beBytes 2 f.etype ++ f.rest

/-- A multicast or broadcast address. -/
def macGroup (m : Nat) : Bool := m / 2 ^ 40 % 2 = 1

/-- Learn a source address on a port: up to 1 024 (R407). (DEDUCED: log entry 48.) -/
def State.macLearn (s : State) (m p : Nat) : State :=
  if macGroup m then s
  else
    let l := s.eth.macs.filter (·.mac ≠ m)
    if l.length = s.eth.macs.length ∧ 1024 ≤ l.length then s.detect eswPg 1
    else
      let l := ⟨m, p, s.tb⟩ :: l
      (s.setEth { s.eth with macs := l }).setFld eswPg R.ESW.STAT.MACN l.length

/-- Write a record into the host receive ring, `sfd` being TB at the frame's SFD (R408). (DEDUCED: log entry 48.) -/
def State.hostRx (s : State) (ingress sfd : Nat) (b : List Byte) : State :=
  let pg := ehpPg
  let n := s.fld pg R.EHP.RXCFG.NREC
  let put := s.fld pg R.EHP.RXIDX.PUT
  let sz := s.fld pg R.EHP.RXCFG.SZ * 64
  if n < 2 ∨ (put + 1) % n = s.fld pg R.EHP.RXIDX.GET then s.detect pg 1
  else
    let room := sz - 16
    let w0 := (if room < b.length then 2 ^ 31 else 0) + ingress * 2 ^ 16 + b.length % 2 ^ 16
    let s := s.sramWrite (s.fld pg R.EHP.RXBASE.ADDR * 32 + put * sz)
      (leBytes 4 w0 ++ leBytes 8 sfd ++ leBytes 4 0 ++ b.take room)
    let s := s.setFld pg R.EHP.RXIDX.PUT ((put + 1) % n)
    s.postIf (s.bit pg R.EHP.RXCFG.IEN) 199

/-- The ticks that a frame of `n` bytes holds its port, by the port's rate, with FCS, preamble and gap; on ETH3 with PLCA the other
nodes' opportunities and the beacon pass before the next one (R406). (PRESUMED: log entry 75.) -/
def State.wireTicks (s : State) (p n : Nat) : Nat :=
  let b := 8 * (max 64 (n + 4) + 20)
  if p ≤ 1 then (b + 9) / 10
  else if p = 2 then b
  else
    let pg := ethPg 3
    b * 10 + if s.bit pg R.ETH.PLCA.EN then 10 * (20 + (s.fld pg R.ETH.PLCA.NCNT - 1) * s.fld pg R.ETH.PLCA.TO) else 0

/-- The frame that a port sends next: of those queued for it the first of the highest priority (R407). -/
def ethNext (l : List EthQ) (q : Nat) : Option EthQ :=
  (l.filter (·.port = q)).foldl (fun b e => match b with
    | none => some e
    | some x => if x.pcp < e.pcp then some e else some x) none

/-- The host's record has been sent (R408): TB at its first egress is written back, and TX GET moves on. -/
def State.txLeft (s : State) (t : Nat) : State :=
  match s.eth.txWait with
  | none => s
  | some a =>
    let pg := ehpPg
    let s := (s.setEth { s.eth with txWait := none, queue := s.eth.queue.map fun e => { e with host := false } }).sramWrite (a + 4)
      (leBytes 8 t)
    let get := s.fld pg R.EHP.TXIDX.GET
    (s.setFld pg R.EHP.TXIDX.GET ((get + 1) % max 1 (s.fld pg R.EHP.TXCFG.NREC))).postIf (s.bit pg R.EHP.TXCFG.IEN) 200

/-- A port sends from its queues up to the present tick, in strict priority (R407). (PRESUMED: log entry 75.) -/
def State.portPump (s : State) (q : Nat) : Nat → State
  | 0 => s
  | k + 1 =>
    match ethNext s.eth.queue q with
    | none => s
    | some e =>
      let free := tget (fun _ => 0) s.eth.busy q
      if s.tb < free then s
      else
        let t := max free e.tick
        let s := s.setEth { s.eth with
          queue := s.eth.queue.erase e
          busy := tset (fun _ => 0) s.eth.busy q (t + s.wireTicks q e.b.length) }
        let s := if e.host then s.txLeft t else s
        State.portPump ((s.emit (.eth q e.b)).count (ethPg q) 1) q k

/-- The ports send what is due; the queues of a port without a link are empty. (DEDUCED: log entry 48.) -/
def State.ethPump (s : State) : State :=
  if !s.clocked .net ∨ (s.eth.queue = [] ∧ s.eth.txWait.isNone) then s
  else
    let s := s.setEth { s.eth with queue := s.eth.queue.filter fun e => s.ethUp e.port }
    let s := (List.range 4).foldl (fun (t : State) q => t.portPump q t.eth.queue.length) s
    if s.eth.queue.any (·.host) then s else s.txLeft s.tb

/-- A frame for a port takes its place in the queue of its PCP, unless that queue is full; the host takes its frames at once
(R407, R408). (DEDUCED: log entry 48.) -/
def State.egress (s : State) (q ingress sfd : Nat) (drop : BitVec 5) (pcp : Nat) (host : Bool) (b : List Byte) : State :=
  if drop.getLsbD q then (s.count eswPg q).detect eswPg 2
  else if q = 4 then s.hostRx ingress sfd b
  else if s.ethUp q then s.setEth { s.eth with queue := s.eth.queue ++ [⟨q, pcp, s.tb, host, b⟩] }
  else s

/-- Forward a frame in its VLAN: learned address, or flood (R407). -/
def State.forward (s : State) (p sfd : Nat) (drop : BitVec 5) (host : Bool) (b : List Byte) : State :=
  let f := ethParse b
  let pvid := s.fld eswPg (R.ESW.PORT.PVID p)
  let tag := match f.tag with
    | some tci => if tci % 0x1000 = 0 then tci + pvid else tci
    | none => s.fld eswPg (R.ESW.PORT.PCP p) * 0x2000 + pvid
  match (List.range 16).find? fun v =>
      s.bit eswPg (R.ESW.VLAN.VALID v) && s.fld eswPg (R.ESW.VLAN.VID v) = tag % 0x1000 with
  | none => s
  | some v =>
    let s := s.macLearn f.src p
    let member := fun q => (s.fld eswPg (R.ESW.VLAN.MEMBER v)).testBit q && s.bit eswPg (R.ESW.PORT.FWD q) && q ≠ p
    let outs := match (if macGroup f.dst then none else s.eth.macs.find? (·.mac = f.dst)) with
      | some e => [e.port].filter member
      | none => (List.range 5).filter member
    outs.foldl (fun t q =>
      t.egress q p sfd drop (tag / 0x2000) host
        (ethBytes f (if (t.fld eswPg (R.ESW.VLAN.UNTAG v)).testBit q then none else some tag))) s

/-! ## The link engine -/

/-- The types that a link port carries: all but REFLEX on a branch (R409). -/
def State.carries (s : State) (p typ : Nat) : Bool := s.lrole p = 1 || (s.lrole p = 2 && typ ≠ 1)

/-- The history of a source and type, while it has taken a frame within the last 100 ms (R410). -/
def State.seqHist (s : State) (src typ : Nat) : Option SeqHist :=
  s.eth.hist.find? fun h => h.src = src && h.typ = typ && decide (s.tb < h.last + 10000000)

/-- The vector recovery algorithm (R410): a number below the highest one taken is taken once within the history of 32, one above it
within 32 moves the history on, any other is discarded. (PRESUMED: log entry 75.) -/
def SeqHist.take (h : SeqHist) (seq : Nat) : Option SeqHist :=
  let d := (seq + 0x10000 - h.top) % 0x10000
  if d < 32 ∧ d ≠ 0 then
    some { h with top := seq, seqs := seq :: h.seqs.filter fun x => decide ((seq + 0x10000 - x) % 0x10000 < 32) }
  else if (0x10000 - d < 32 ∨ d = 0) ∧ !h.seqs.contains seq then some { h with seqs := seq :: h.seqs }
  else none

/-- Take a copy of a flooded frame, or discard it (R410). The first number after a pause of 100 ms is taken whatever it is.
(PRESUMED: log entry 75.) -/
def State.seqTake (s : State) (src typ seq : Nat) : State × Bool :=
  match (match s.seqHist src typ with | some h => h.take seq | none => some ⟨src, typ, seq, [seq], s.tb⟩) with
  | none => (s, false)
  | some h =>
    (s.setEth { s.eth with hist := { h with last := s.tb } :: s.eth.hist.filter fun k => !(k.src = src && k.typ = typ) }, true)

/-- What the next own flooded frame of a type carries, with the hop limit `hops` (R410). -/
def State.farHdr (s : State) (typ hops : Nat) : FarHdr :=
  ⟨hops, s.fld linkPg R.LINK.DEVID.ID, tget (fun _ => 0) s.eth.seqOut typ⟩

/-- An own flooded frame of a type leaves: the next one has the next number (R410). -/
def State.farSent (s : State) (typ : Nat) : State :=
  s.setEth { s.eth with seqOut := tset (fun _ => 0) s.eth.seqOut typ ((tget (fun _ => 0) s.eth.seqOut typ + 1) % 0x10000) }

/-- The hop limit of FIXB, FIXA, PGRSP and TOPO (R410). -/
def State.fhlim (s : State) : Nat := s.fld linkPg R.LINK.CFG.FHLIM

/-- An own frame floods all link ports (R410): none leaves where no link port is up. -/
def State.farFlood (s : State) (typ : Nat) (o : FarHdr → Out) : State :=
  if s.linkPorts = [] then s else (s.farSent typ).emit (o (s.farHdr typ s.fhlim))

/-- The destination address of Farern frames (R410). -/
def farDst : Nat := 0x030000009600

/-- The bytes of a Farern frame that passes a port which is no link port, as those of any other frame (R407, R410). -/
def farBytes (dst mac ver typ hop src seq : Nat) (pay : FarPay) : List Byte :=
  let body := beBytes 1 (ver * 16 + typ) ++ beBytes 1 0 ++ beBytes 2 hop ++ beBytes 4 src ++
    (match pay with
     | .topo h l => beBytes 2 h ++ beBytes 4 l
     | .bytes b => b)
  beBytes 6 dst ++ beBytes 6 mac ++
    (if typ = 2 then beBytes 2 0x88B5 else beBytes 2 0xF1C1 ++ beBytes 2 0 ++ beBytes 2 seq ++ beBytes 2 0x88B5) ++ body

/-- The cost of the hop over a link port in ticks (R411). -/
def State.hopCost (s : State) (p : Nat) : Nat := if s.lrole p = 1 then 80 else 2000

/-- The payload that a device forwards of a frame that arrived on port `p` (R410, R412): a TOPO frame counts one hop more and the
cost of the port. (DEDUCED: log entry 49.) -/
def State.payFwd (s : State) (p : Nat) : FarPay → FarPay
  | .topo hop lat => .topo (hop + 1) (lat + s.hopCost p)
  | .bytes b => .bytes b

/-- A port on which forwarding has stopped: a branch while the own TOPO returns on one (R412). -/
def State.loopStops (s : State) (q : Nat) : Bool := s.eth.ownBranch.isSome && s.lrole q = 2

/-- A Farern frame arrives on a link port (R410, R411): malformed frames are discarded, the own ones consumed, copies
eliminated, and flooded ones forwarded with the hop limit lowered; a PGREQ goes on along its path only (R66). Answers also whether the frame is taken here.
(DEDUCED: log entry 24.) -/
def State.farRx (s : State) (p ver typ : Nat) (lenOk : Bool) (hop src seq : Nat) (next : Option (BitVec 4)) (pay : FarPay) :
    State × Bool :=
  let s := s.count linkPg 0
  if ver ≠ 1 ∨ typ = 0 ∨ 6 < typ ∨ !lenOk then ((s.count linkPg 3).detect linkPg 3, false)
  else if src = s.fld linkPg R.LINK.DEVID.ID then (s, false)
  else if typ = 2 then
    (match next with
      | none => (s, true)
      | some q =>
        if !s.linkPorts.contains q.toNat ∨ hop ≤ 1 ∨ s.loopStops q.toNat then (s, false)
        else ((s.emit (.farFwd q.toNat typ (hop - 1) src seq (s.payFwd p pay))).count linkPg 1, false))
  else
    let r := if s.lrole p = 1 then s.seqTake src typ seq else (s, true)
    if !r.2 then (if (s.seqHist src typ).any (·.seqs.contains seq) then r.1.count linkPg 2 else r.1, false)
    else if hop ≤ 1 then r
    else
      ((r.1.linkPorts.filter fun q => q ≠ p && r.1.carries q typ && !r.1.loopStops q).foldl
        (fun t q => (t.emit (.farFwd q typ (hop - 1) src seq (s.payFwd p pay))).count linkPg 1) r.1, true)

/-- A frame enters the switch on a port (R407). (DEDUCED: log entry 48.) -/
def State.bridged (s : State) (p sfd : Nat) (drop : BitVec 5) (b : List Byte) : State :=
  if 1518 < b.length ∨ !s.bit eswPg (R.ESW.PORT.FWD p) then s else s.forward p sfd drop false b

/-- A frame of EtherType 0x88B5 on a link port, by its bytes after that (R410). (DEDUCED: log entry 48.) -/
def State.farBody (s : State) (p dst seq : Nat) (h : List Byte) : State :=
  let typ := (h.headD 0).toNat % 16
  (s.farRx p ((h.headD 0).toNat / 16) typ (decide (dst = farDst) && decide (8 + (if typ = 1 then 1 else 0) ≤ h.length))
    (beVal ((h.drop 2).take 2)) (beVal ((h.drop 4).take 4)) seq none (.bytes (h.drop 8))).1

/-- ETH_FRAME_RECEIVED (R407, R410): the frame is forwarded, delivered to the host ring, or taken by the link engine, which knows
its copies by the R-TAG. (DEDUCED: log entries 25, 48.) -/
def execEthFrameReceived (p : Fin 4) (f : EthRx) (fcs : Bool) (drop : BitVec 5) (s : State) : Outcome :=
  if !s.ethUp p then .next s
  else if !fcs then .next (s.count (ethPg p) 2)
  else
    let s := s.ethPump.count (ethPg p) 0
    match f with
    | .far sfd dst mac ver typ lenOk hop src seq next pay =>
      if s.lrole p = 0 then
        .next (s.bridged p sfd.toNat drop
          (farBytes dst.toNat mac.toNat ver.toNat typ.toNat hop.toNat src.toNat seq.toNat pay)).ethPump
      else .next (s.farRx p ver.toNat typ.toNat (lenOk && decide (dst.toNat = farDst)) hop.toNat src.toNat seq.toNat next pay).1
    | .frame sfd b =>
      let e := ethParse b
      let link := s.lrole p ≠ 0
      if link ∧ e.etype = 0x88F7 then .next s
      else if link ∧ e.etype = 0xF1C1 ∧ beVal ((e.rest.drop 4).take 2) = 0x88B5 then
        .next (s.farBody p e.dst (beVal ((e.rest.drop 2).take 2)) (e.rest.drop 6))
      else if link ∧ e.etype = 0x88B5 then .next (s.farBody p e.dst 0 e.rest)
      else .next (s.bridged p sfd.toNat drop b).ethPump

/-- HOST_TX_RECORD (R408): the record at TX GET is sent, or skipped with TXBAD; it waits while the one before it has not left.
(DEDUCED: log entry 48.) -/
def execHostTxRecord (drop : BitVec 5) (s : State) : Outcome :=
  let pg := ehpPg
  let s := s.ethPump
  let n := s.fld pg R.EHP.TXCFG.NREC
  let get := s.fld pg R.EHP.TXIDX.GET
  if !s.clocked .net ∨ n < 2 ∨ get = s.fld pg R.EHP.TXIDX.PUT ∨ s.eth.txWait.isSome then .next s
  else
    let a := s.fld pg R.EHP.TXBASE.ADDR * 32 + get * (s.fld pg R.EHP.TXCFG.SZ * 64)
    let w0 := s.sramWord a
    let len := bits w0 15 0
    let s := s.hwRead a (16 + if 1518 < len then 0 else len)
    let mask := bits w0 20 16
    if len < 60 ∨ 1518 < len then .next ((s.setFld pg R.EHP.TXIDX.GET ((get + 1) % n)).detect pg 2)
    else
      let b := s.sramBytes (a + 16) len
      let s := s.setEth { s.eth with txWait := some a }
      let s := if mask = 0 then (if s.bit eswPg (R.ESW.PORT.FWD 4) then s.forward 4 s.tb drop true b else s)
        else
          let pcp := match (ethParse b).tag with
            | some tci => tci / 0x2000
            | none => s.fld eswPg (R.ESW.PORT.PCP 4)
          ((List.range 5).filter mask.testBit).foldl (fun t q => t.egress q 4 s.tb drop pcp (!mask.testBit 4) b) s
      .next s.ethPump

/-! ## Links -/

/-- ETH_LINK_CHANGE (R406, R417): event 201, and LDOWN on a loss. ETH0 to ETH2 take their role from CFG.MS, without
auto-negotiation; on the multidrop ETH3 `master` is the role that its PHY reports. (DEDUCED: log entry 48.) -/
def execEthLinkChange (p : Fin 4) (up master : Bool) (sqi : Fin 8) (s : State) : Outcome :=
  let pg := ethPg p
  if !s.clocked .net ∨ !s.enabled pg ∨ up = s.bit pg R.ETH.STAT.LINK then .next s
  else
    let s := (s.setBit pg R.ETH.STAT.LINK up).setBit pg R.ETH.STAT.MASTER
      (up && if p.val = 3 then master else s.bit pg R.ETH.CFG.MS)
    let s := (s.setFld pg R.ETH.STAT.SQI (if up then sqi.val else 0)).post 201
    let s := s.setEth { s.eth with
      upTick := tset (fun _ => 0) s.eth.upTick p s.tb, nbrTold := tset (fun _ => false) s.eth.nbrTold p false
      sqiLow := tset (fun _ => false) s.eth.sqiLow p false }
    if up then .next s
    else
      let s := s.ethPump
      let m := s.fld linkPg R.LINK.STAT.UP
      let s := if p.val < 3 ∧ m.testBit p then s.setFld linkPg R.LINK.STAT.UP (m - 2 ^ p.val) else s
      .next ((s.detect pg 1).count pg 3)

/-- PG_CTRL.EN of an ETH page changed: it powers the PHY, so the link is lost with it (R406). -/
def State.ethEnable (s : State) (p : Nat) : State :=
  if !s.enabled (ethPg p) ∧ s.bit (ethPg p) R.ETH.STAT.LINK then
    let m := s.fld linkPg R.LINK.STAT.UP
    let s := if p < 3 ∧ m.testBit p then s.setFld linkPg R.LINK.STAT.UP (m - 2 ^ p) else s
    ((((s.setReg (ethPg p) R.ETH.STAT.LINK.off 0).post 201).detect (ethPg p) 1).count (ethPg p) 3)
  else s

/-- The signal quality of a port has been low for 1 s (R357, R406): a lasting result. -/
def State.sqiConfirm (s : State) (p sqi : Nat) : State :=
  let was := tget (fun _ => false) s.eth.sqiLow p
  ((s.setFld (ethPg p) R.ETH.STAT.SQI sqi).setEth { s.eth with sqiLow := tset (fun _ => false) s.eth.sqiLow p true }).detectHeld was
    (ethPg p) 2

/-- SQI_LOW (R357, R406): the signal quality is below 3, for 1 s since it was last found good or the link came up; a check that
finds it good ends the result. -/
def execSqiLow (p : Fin 4) (sqi : Fin 8) (s : State) : Outcome :=
  if !s.ethUp p then .next s
  else if 3 ≤ sqi.val then
    .next ((s.setFld (ethPg p) R.ETH.STAT.SQI sqi).setEth { s.eth with
      sqiAt := tset (fun _ => 0) s.eth.sqiAt p s.tb, sqiLow := tset (fun _ => false) s.eth.sqiLow p false })
  else
    s.atTick (max (tget (fun _ => 0) s.eth.sqiAt p) (tget (fun _ => 0) s.eth.upTick p) + 100000000) fun s => s.sqiConfirm p sqi

/-- PLCA_BEACON_MISSED (R406): ETH3 with PLCA on, not the coordinator. -/
def execPlcaBeaconMissed (s : State) : Outcome :=
  if s.clocked .net ∧ s.enabled (ethPg 3) ∧ s.bit (ethPg 3) R.ETH.PLCA.EN ∧ s.fld (ethPg 3) R.ETH.PLCA.ID ≠ 0
  then .next (s.detect (ethPg 3) 3) else .next s

/-- MAC_ADDRESS_AGEING (R407). -/
def execMacAddressAgeing (mac : BitVec 48) (s : State) : Outcome :=
  match s.eth.macs.find? (·.mac = mac.toNat) with
  | some e =>
    if !s.clocked .net then .next s
    else s.atTick (e.seen + s.fld eswPg R.ESW.CFG.AGE * 100000000) fun s =>
      let l := s.eth.macs.filter (·.mac ≠ mac.toNat)
      (s.setEth { s.eth with macs := l }).setFld eswPg R.ESW.STAT.MACN l.length
  | none => .next s

/-! ## TOPO and Sync -/

/-- Three TOPO intervals in ticks (R412). -/
def State.topoWindow (s : State) : Nat := 3 * s.fld linkPg R.LINK.CFG.TOPOI * 100000

/-- The largest value of a list. -/
def maxOf (l : List Nat) : Nat := l.foldl max 0

/-- NDEV, MAXHOP and PLAT from the TOPO frames of the last three intervals, with TOPOCHG, event 203 and OVERBUD (R412).
(DEDUCED: log entry 49.) -/
def State.topoEval (s : State) : State :=
  let l := s.eth.topo.filter fun e => s.tb ≤ e.tick + s.topoWindow
  let was := s.eth.overBud
  let ndev := (l.map (·.src)).eraseDups.length
  let hop := min 0xFFFF (maxOf (l.map (·.hop)))
  let plat := min 0xFFFFFF (maxOf (l.map (·.lat)))
  let bud := s.fld linkPg R.LINK.BUDGET.TICKS
  let late := bud != 0 && decide (bud < plat)
  let s := s.setEth { s.eth with topo := l, overBud := late }
  let chg := ndev ≠ s.fld linkPg R.LINK.TOPO.NDEV ∨ hop ≠ s.fld linkPg R.LINK.TOPO.MAXHOP
  let s := ((s.setFld linkPg R.LINK.TOPO.NDEV ndev).setFld linkPg R.LINK.TOPO.MAXHOP hop).setFld linkPg R.LINK.PLAT.TICKS plat
  let s := if chg then (s.post 203).detect linkPg 5 else s
  if late then s.detectHeld was linkPg 1 else s

/-- What has not been heard for three TOPO intervals is gone: devices, the ring (RBREAK), a loop, and a partner (NBR on the port's
page, R406). -/
def State.topoAge (s : State) : State :=
  let old := fun (x : Nat) => x + s.topoWindow < s.tb
  let s := match s.eth.ownTrunk with
    | some t => if old t then ((s.setEth { s.eth with ownTrunk := none }).setBit linkPg R.LINK.STAT.RING false).detect linkPg 2 else s
    | none => s
  let s := match s.eth.ownBranch with
    | some t => if old t then s.setEth { s.eth with ownBranch := none } else s
    | none => s
  let s := s.linkPorts.foldl (fun t q =>
    let last := maxOf (tget (fun _ => 0) t.eth.upTick q :: (t.eth.topo.filter (·.port = q)).map (·.tick))
    if last + t.topoWindow ≤ t.tb then
      let was := tget (fun _ => false) t.eth.nbrTold q
      let t := t.setEth { t.eth with nbrTold := tset (fun _ => false) t.eth.nbrTold q true }
      let m := t.fld linkPg R.LINK.STAT.UP
      (if m.testBit q then t.setFld linkPg R.LINK.STAT.UP (m - 2 ^ q) else t).detectHeld was (ethPg q) 4
    else t) s
  s.topoEval

/-- TOPO_SEND (R412): every TOPOI ms the own TOPO leaves on every link port. -/
def execTopoSend (s : State) : Outcome :=
  if !s.clocked .net then .next s
  else s.atTick (s.eth.topoAt + s.fld linkPg R.LINK.CFG.TOPOI * 100000) fun s =>
    let s := s.setEth { s.eth with topoAt := s.tb }
    let h := s.farHdr 6 s.fhlim
    let s := if s.linkPorts = [] then s else s.farSent 6
    (s.linkPorts.foldl (fun t q => t.emit (.topo q h)) s).topoAge

/-- A fix changed an Ethernet port or the link (R409, R412): a port that is no link port has no partner, and PLAT meets the
budget anew. -/
def State.linkFix (s : State) : State :=
  let s := (List.range 3).foldl (fun (t : State) p =>
    let m := t.fld linkPg R.LINK.STAT.UP
    if t.lrole p = 0 ∧ m.testBit p then t.setFld linkPg R.LINK.STAT.UP (m - 2 ^ p) else t) s
  s.topoEval

/-- TOPO_RECEIVED (R412): the own one tells of a ring or a loop, another's of its device. (DEDUCED: log entry 49.) -/
def execTopoReceived (p : Fin 4) (src : BitVec 32) (hop lat : Nat) (s : State) : Outcome :=
  if s.lrole p = 0 ∨ !s.ethUp p then .next s
  else
    let s := s.setFld linkPg R.LINK.STAT.UP (s.fld linkPg R.LINK.STAT.UP ||| 2 ^ p.val)
    let s := s.setEth { s.eth with nbrTold := tset (fun _ => false) s.eth.nbrTold p false }
    if src.toNat = s.fld linkPg R.LINK.DEVID.ID then
      if s.lrole p = 1 then .next ((s.setEth { s.eth with ownTrunk := some s.tb }).setBit linkPg R.LINK.STAT.RING true)
      else
        let was := s.eth.ownBranch.isSome
        .next ((s.setEth { s.eth with ownBranch := some s.tb }).detectIf (!was) linkPg 4)
    else
      let e : TopoSeen := ⟨src.toNat, p, hop, lat + s.hopCost p, s.tb⟩
      .next (s.setEth { s.eth with topo := e :: s.eth.topo }).topoEval

/-- A sync interval in ticks: 2^SYNCI s, SYNCI signed (R409). -/
def State.syncInterval (s : State) : Nat :=
  let e := s.sfld linkPg R.LINK.CFG.SYNCI
  if 0 ≤ e then 100000000 * 2 ^ e.toNat else 100000000 / 2 ^ (-e).toNat

/-- A Sync with its steps removed is noted for its port (R409). -/
def State.syncNote (s : State) (p steps : Nat) : State :=
  s.setEth { s.eth with syncSteps := tset (fun _ => none) s.eth.syncSteps p (some (steps, s.tb)) }

/-- The steps removed of a port's Sync, while it is a link port and one has come within three intervals (R409).
(DEDUCED: log entry 49; PRESUMED: log entry 75.) -/
def State.syncStepsAt (s : State) (p : Nat) : Option Nat :=
  match tget (fun _ => none) s.eth.syncSteps p with
  | some (k, t) => if s.linkPorts.contains p ∧ s.tb ≤ t + 3 * s.syncInterval then some k else none
  | none => none

/-- The link port whose Sync carries the fewest steps removed, on a tie the lowest (R409). -/
def State.syncBest (s : State) : Option Nat :=
  (List.range 4).foldl (fun b p => match b, s.syncStepsAt p with
    | some q, some k => if k < (s.syncStepsAt q).getD 0 then some p else some q
    | none, some _ => some p
    | b, none => b) none

/-- The Sync of a port is taken, and waits to be relayed, if it is that of the best port (R409). (DEDUCED: log entry 49.) -/
def State.syncTake (s : State) (m : SyncMsg) : State × Bool :=
  let s := s.syncNote m.port m.steps.toNat
  if s.syncBest = some m.port.val then (s.setEth { s.eth with syncPort := some m.port, relay := true }, true) else (s, false)

/-- The tick of the next Sync: the grandmaster's interval, or the relay of the one received (R409). -/
def State.syncDue (s : State) : Option Nat :=
  if s.fld 0x003 R.TB.SYNC.ROLE = 1 then some (s.eth.syncAt + s.syncInterval)
  else if s.eth.relay then some s.tb else none

/-- The steps removed that the own Sync carries: none from a grandmaster, one more in a relay (R409). -/
def State.syncStepsOut (s : State) : Nat :=
  if s.fld 0x003 R.TB.SYNC.ROLE = 1 then 0
  else match s.eth.syncPort with
    | some p => ((tget (fun _ => none) s.eth.syncSteps p).elim 0 Prod.fst) + 1
    | none => 0

/-- The messages of IEEE 802.1AS that are due leave (R409): a grandmaster's Sync on its link ports, a relay on the ports
other than its own, and Pdelay, in every role. (DEDUCED: log entry 49.) -/
def State.syncOut (s : State) : State :=
  let due := match s.syncDue with | some t => decide (t ≤ s.tb) | none => false
  let s := if due then
      State.setEth ((s.linkPorts.filter fun q => s.fld 0x003 R.TB.SYNC.ROLE = 1 || s.eth.syncPort ≠ some q).foldl
        (fun t q => t.emit (.sync q s.syncStepsOut)) s) { s.eth with syncAt := s.tb, relay := false }
    else s
  if s.eth.pdAt + 100000000 ≤ s.tb then
    State.setEth (s.linkPorts.foldl (fun t q => t.emit (.pdelay q)) s) { s.eth with pdAt := s.tb }
  else s

/-- SYNC_SEND (R409): every 2^SYNCI s, and for Pdelay every 1 s. -/
def execSyncSend (s : State) : Outcome :=
  if !s.clocked .net then .next s
  else
    let pd := s.eth.pdAt + 100000000
    s.atTick (match s.syncDue with | some t => min t pd | none => pd) State.syncOut

end Sys2Proof.Machine
end

