-- ==== Sys2Proof/Machine/Nm.lean ====
section
/-! DEFINITION. The commands of network sleep and wake (R418-R430). -/

namespace Sys2Proof.Machine

/-- Number of a sleep bus: CAN c as c, LIN l as 8 + l. -/
def busNo : NetBus → Nat
  | .can c => c
  | .lin l => 8 + l

/-- A bus is a sleep bus in force. -/
def State.sleepBus (s : State) : NetBus → Bool
  | .can c => s.sleepCan c
  | .lin l => s.sleepLin l

/-- The device is sleep master. -/
def State.nmMaster (s : State) : Bool := s.bit nmPg R.NM.CFG.MASTER

/-- KEEP_AWAKE_PERIOD (R421): while AWAKE, a keep-awake frame on every CAN sleep bus. -/
def execKeepAwakePeriod (s : State) : Outcome :=
  if s.canRuns ∧ s.nmOn ∧ s.nmState = 0 then
    s.atTick (s.nm.kaTick + s.fld nmPg R.NM.TIME1.KAPER * 100000) fun s =>
      let s : State := { s with nm := { s.nm with kaTick := s.tb } }
      (List.range 8).foldl (fun t c => if t.sleepCan c then t.nmSend c .keepAwake else t) s
  else .next s

/-- VOTE_WRITE (R421, R423, R425): stored; a write that sets a bit is a local wake inside the sleep window. -/
def execVoteWrite (v : BitVec 16) (s : State) : Outcome :=
  if !s.canRuns then .next s else if s.locked nmPg then .next (s.refuse nmPg)
  else
    let old := BitVec.ofNat 16 (s.fld nmPg R.NM.VOTE.V)
    let s := (s.setFld nmPg R.NM.VOTE.V v.toNat).ok nmPg
    .next ((if v &&& ~~~ old ≠ 0 then s.localWake (some (5, 0)) else s).nmEval)

/-- A master sends sleep or forced sleep frames on every sleep bus (R418, R421, R425); with no bus to send on, the window begins
at once. -/
def State.nmSleepFrames (s : State) (k : NmKind) : State :=
  let cans := (List.range 8).filter fun c => s.sleepCan c && s.canState c ≠ 0
  let lins := (List.range 6).filter fun l => s.sleepLin l && s.linMaster l && s.linState l = 2
  let s := cans.foldl (fun t c => t.nmSend c k) s
  let s := lins.foldl State.linSleepNext s
  let s : State := { s with nm := { s.nm with sending := cans ++ lins.map (8 + ·), ended := [], forced := decide (k = .forced) } }
  if s.nm.sending = [] then s.nmWindow s.nm.forced else s

/-- READY_SLEEP_TIMEOUT (R421): RSTIME without a keep-awake frame makes a master send sleep frames; none in safe state (R428). -/
def execReadySleepTimeout (s : State) : Outcome :=
  if s.canRuns ∧ s.nmOn ∧ s.nmState = 1 ∧ s.nmMaster ∧ !s.safe ∧ s.nm.sending = [] then
    s.atTick (s.nm.lastKa + s.fld nmPg R.NM.TIME1.RSTIME * 100000) fun s => s.nmSleepFrames .sleep
  else .next s

/-- SILENCE_TIMEOUT (R421): a non-master, and a master in safe state (R428). -/
def execSilenceTimeout (s : State) : Outcome :=
  if s.canRuns ∧ s.nmOn ∧ s.nmState = 1 ∧ (!s.nmMaster ∨ s.safe) then
    s.atTick (s.nm.lastFrame + s.fld nmPg R.NM.TIME2.SILENT * 100000) fun s => s.nmWindow false
  else .next s

/-- The own frame on a bus has ended; with the last of them the window begins (R421, R425). -/
def State.nmSent (s : State) (b : Nat) : State :=
  if s.nm.sending.contains b ∧ s.nm.ended.contains b then
    let s : State := { s with nm := { s.nm with sending := s.nm.sending.filter (· ≠ b), ended := s.nm.ended.filter (· ≠ b) } }
    if s.nm.sending = [] then s.nmWindow s.nm.forced else s
  else s

/-- SLEEP_FRAME_END (R421): READY-SLEEP goes to SLEEP-PENDING; a sleep frame is ignored in AWAKE. -/
def execSleepFrameEnd (b : NetBus) (own : Bool) (s : State) : Outcome :=
  if !s.canRuns ∨ !s.sleepBus b ∨ s.nmState ≠ 1 then .next s
  else if own then .next (s.nmSent (busNo b))
  else if s.nmMaster then .next s
  else .next (s.nmWindow false)

/-- FORCED_SLEEP_FRAME_END (R421, R425, R428). (DEDUCED: log entry 50.) -/
def execForcedSleepFrameEnd (b : NetBus) (own : Bool) (s : State) : Outcome :=
  if !s.canRuns ∨ !s.sleepBus b ∨ s.nmState = 3 then .next s
  else if own then .next (s.nmSent (busNo b))
  else
    let s := s.nmWithdraw
    let s : State := { s with nm := { s.nm with vote := s.nmVote } }
    .next (if s.nmState = 2 then { s with nm := { s.nm with forced := true } } else s.nmWindow true)

/-- NM_CANCEL (R423, R428). -/
def execNmCancel (s : State) : Outcome :=
  if !s.canRuns then .next s else if s.locked nmPg ∨ !s.windowOpen then .next (s.refuse nmPg) else .next ((s.ok nmPg).localWake none)

/-- WINDOW_BUS_WAKE (R424): latched in the transceiver. -/
def execWindowBusWake (b : NetBus) (s : State) : Outcome := .next (if s.canRuns then s.windowWake b else s)

/-- SLEEP_WINDOW_END (R421, R422, R425): SLEEP, which requests PARK. -/
def execSleepWindowEnd (s : State) : Outcome :=
  if s.canRuns ∧ s.nmOn ∧ s.nmState = 2 then
    s.atTick (s.nm.window + 100000) fun s =>
      let s : State := { s with nm := { s.nm with
        closed := some (s.kaNow / 100, s.bit nmPg R.NM.STAT.MAXEXP, s.fld nmPg (R.PG_CNT 0)) } }
      let s := (s.setNmState 3).setBit nmPg R.NM.STAT.MAXEXP false
      s.count nmPg 0
  else .next s

/-- MAXIMUM_AWAKE_EXPIRY (R425): the votes stop counting; a master sends forced sleep frames. -/
def execMaximumAwakeExpiry (s : State) : Outcome :=
  let lim := s.fld nmPg R.NM.MAXAW.S
  if s.canRuns ∧ s.nmOn ∧ s.nmState ≤ 1 ∧ lim ≠ 0 ∧ !s.bit nmPg R.NM.STAT.MAXEXP then
    s.atTick (s.nm.awake + lim * 100000000) fun s =>
      let s := (s.nmWithdraw.detect nmPg 3).nmEval
      if s.nmMaster ∧ !s.safe then s.nmSleepFrames .forced else s
  else .next s

/-- Stage and set a field at once, as the hardware's own write does; PG_SKSTAT keeps its value (R427). -/
def State.setBoth (s : State) (pg : Nat) (f : Fld) (v : Nat) : State :=
  let k := regKey pg f.off
  let s := match tget (fun _ => none) s.sketch k with
    | some w => { s with sketch := tset (fun _ => none) s.sketch k (some (f.put w v)) }
    | none => s
  s.setFld pg f v

/-- A false wake is counted, and its bus escalated at the threshold (R426, R427). -/
def State.falseWake (s : State) (b : Nat) : State :=
  let s := (s.detect nmPg 1).count nmPg 2
  let f := if b < 8 then R.NM.FWCNT.CNT b else R.NM.LFWCNT.CNT (b - 8)
  let n := min 15 (s.fld nmPg f + 1)
  let s := s.setFld nmPg f n
  if b < 8 ∧ s.bit nmPg R.NM.CFG.FWESC ∧ s.fld nmPg R.NM.FWTH.TH ≤ n ∧ s.fld (canPg b) R.WAKE.CFG.WMODE = 1 then
    let s := (s.setBoth (canPg b) R.WAKE.CFG.WMODE 2).setFld nmPg f 0
    (s.setFld nmPg R.NM.ESC.ESC (s.fld nmPg R.NM.ESC.ESC ||| 2 ^ b)).detect nmPg 2
  else s

/-- WAKE_HOLD_END (R426): the hold ends; a bus wake without a valid frame was false. -/
def execWakeHoldEnd (s : State) : Outcome :=
  match s.nm.hold with
  | some (t, b) =>
    if !s.canRuns then .next s
    else s.atTick t fun s =>
      let s := match b with
        | some k => s.falseWake k
        | none => s
      s.holdEnd.nmEval
  | none => .next s

end Sys2Proof.Machine
end

