-- ==== Sys2Proof/Machine/Crypto.lean ====
section
/-! DEFINITION. The check words of R302 and R470, and the standards that the cipher chapter names: AES (FIPS 197) with its
modes, SHA-256 (FIPS 180-4) and ECDSA verification over P-256 (FIPS 186-4). The spec names them without defining them;
they are written here from those standards (PRESUMED, log entry 26). -/

namespace Sys2Proof.Machine

/-! ## Check words -/

/-- `n` times: shift right, and XOR the polynomial where the bit shifted out was 1 (R302). -/
def crcRight (poly : Nat) : Nat → Nat → Nat
  | 0, x => x
  | n + 1, x => crcRight poly n (if x % 2 = 1 then (x / 2) ^^^ poly else x / 2)

/-- `n` times: shift left within 16 bits, and XOR 0x1021 where bit 15 was 1 (R302). -/
def crcLeft : Nat → Nat → Nat
  | 0, x => x
  | n + 1, x => crcLeft n (if 0x8000 ≤ x % 0x10000 then (x * 2 % 0x10000) ^^^ 0x1021 else x * 2 % 0x10000)

/-- One CRC step of an accumulator with a byte, by CRCS's sz (R302). -/
def crcStep (sz acc b : Nat) : Nat :=
  match sz with
  | 0 => crcRight 0x82F63B78 8 (acc ^^^ b)
  | 1 => crcRight 0xEDB88320 8 (acc ^^^ b)
  | _ => crcLeft 8 ((acc ^^^ (b * 256)) % 0x10000)

/-- The CRC-32C accumulator over bytes (R302). The match gives the kernel a numeral after each byte.
(PRESUMED: log entry 26.) -/
def crcAcc (a : Nat) : List Byte → Nat
  | [] => a
  | b :: l =>
    match crcStep 0 a b.toNat with
    | 0 => crcAcc 0 l
    | n + 1 => crcAcc (n + 1) l

/-- The CRC-32C of bytes, with initial value 0xFFFF_FFFF and final inversion (R470). -/
def crc32c (l : List Byte) : Nat := crcAcc 0xFFFFFFFF l ^^^ 0xFFFFFFFF

/-! ## Bytes and words -/

/-- The big-endian number of bytes. -/
def natOfBytes (l : List Byte) : Nat := l.foldl (fun a b => a * 256 + b.toNat) 0

/-- A number as `n` big-endian bytes. -/
def bytesOfNat : Nat → Nat → List Byte
  | 0, _ => []
  | n + 1, v => BitVec.ofNat 8 (v / 256 ^ n) :: bytesOfNat n v

/-- XOR of two byte strings, as long as the shorter. -/
def xorBytes (a b : List Byte) : List Byte := List.zipWith (· ^^^ ·) a b

/-- A byte string cut into pieces of `k`, by fuel. -/
def chunksOf (k : Nat) : Nat → List Byte → List (List Byte)
  | 0, _ => []
  | n + 1, l => if l = [] then [] else l.take k :: chunksOf k n (l.drop k)

/-- The 16-byte blocks of a string, the last one as it is. -/
def blocks16 (l : List Byte) : List (List Byte) := chunksOf 16 (l.length / 16 + 1) l

/-- A string padded with zeros to a multiple of 16 bytes. -/
def pad16 (l : List Byte) : List Byte := l ++ List.replicate ((16 - l.length % 16) % 16) 0

/-! ## SHA-256 -/

/-- The eight 32-bit words of a 256-bit number, the highest first. -/
def eightWords (v : Nat) : List Word := [7, 6, 5, 4, 3, 2, 1, 0].map fun i => BitVec.ofNat 32 (v / 2 ^ (32 * i))

/-- The round constants, eight to a number. -/
def shaConsts : List Nat := [
  0x428a2f9871374491b5c0fbcfe9b5dba53956c25b59f111f1923f82a4ab1c5ed5,
  0xd807aa9812835b01243185be550c7dc372be5d7480deb1fe9bdc06a7c19bf174,
  0xe49b69c1efbe47860fc19dc6240ca1cc2de92c6f4a7484aa5cb0a9dc76f988da,
  0x983e5152a831c66db00327c8bf597fc7c6e00bf3d5a7914706ca635114292967,
  0x27b70a852e1b21384d2c6dfc53380d13650a7354766a0abb81c2c92e92722c85,
  0xa2bfe8a1a81a664bc24b8b70c76c51a3d192e819d6990624f40e3585106aa070,
  0x19a4c1161e376c082748774c34b0bcb5391c0cb34ed8aa4a5b9cca4f682e6ff3,
  0x748f82ee78a5636f84c878148cc7020890befffaa4506cebbef9a3f7c67178f2]

/-- The initial hash value. -/
def shaInit : Nat := 0x6a09e667bb67ae853c6ef372a54ff53a510e527f9b05688c1f83d9ab5be0cd19

/-- The XOR of a word's rotations to the right. -/
def spin (w : Word) (by' : List Nat) : Word := by'.foldl (fun x n => x ^^^ w.rotateRight n) 0

/-- Half of the working variables, a to d or e to h. -/
structure ShaHalf where
  p : Word
  q : Word
  r : Word
  t : Word

/-- Half of the working variables after a round: one word comes in, and the last goes out. -/
def ShaHalf.next (v : ShaHalf) (w : Word) : ShaHalf := ⟨w, v.p, v.q, v.r⟩

/-- One round on a to d and e to h, with the sum of its constant and its schedule word. -/
def shaRound (v : ShaHalf × ShaHalf) (kw : Word) : ShaHalf × ShaHalf :=
  match v with
  | (u, l) =>
    let pick := l.r ^^^ (l.p &&& (l.q ^^^ l.r))
    let vote := (u.p &&& (u.q ||| u.r)) ||| (u.q &&& u.r)
    let sum := kw + pick + spin l.p [6, 11, 25] + l.t
    (u.next (spin u.p [2, 13, 22] + vote + sum), l.next (sum + u.t))

/-- The next word of the message schedule, from the sixteen before it, the oldest first. -/
def shaNext (w : List Word) : Word :=
  match w with
  | [old, x1, _, _, _, _, _, _, _, x9, _, _, _, _, x14, _] =>
    (spin x14 [17, 19] ^^^ x14 >>> 10) + x9 + (spin x1 [7, 18] ^^^ x1 >>> 3) + old
  | _ => 0

/-- The rounds of the constants left, over a window of sixteen words of the message schedule. -/
def shaRounds : List Word → List Word → ShaHalf × ShaHalf → ShaHalf × ShaHalf
  | [], _, v => v
  | k :: ks, w, v => shaRounds ks (w.tail ++ [shaNext w]) (shaRound v (k + w.headD 0))

/-- The hash value as working variables. -/
def shaHalves : List Word → ShaHalf × ShaHalf
  | [a, b, c, d, e, f, g, h] => (⟨a, b, c, d⟩, ⟨e, f, g, h⟩)
  | _ => (⟨0, 0, 0, 0⟩, ⟨0, 0, 0, 0⟩)

/-- The hash value after a block of sixteen words. -/
def shaBlock (h w : List Word) : List Word :=
  let v := shaRounds (shaConsts.flatMap eightWords) w (shaHalves h)
  List.zipWith (· + ·) [v.1.p, v.1.q, v.1.r, v.1.t, v.2.p, v.2.q, v.2.r, v.2.t] h

/-- The big-endian words of a byte string, cut into blocks of sixteen. -/
def shaWords (l : List Byte) : List (List Word) :=
  (chunksOf 64 (l.length / 64) l).map fun b => (chunksOf 4 16 b).map fun c => BitVec.ofNat 32 (natOfBytes c)

/-- SHA-256 of a byte string: 32 bytes. (PRESUMED: log entry 26.) -/
def sha256 (m : List Byte) : List Byte :=
  let fill := (m.length + 9 + 63) / 64 * 64 - (m.length + 9)
  let whole := m ++ [0x80] ++ List.replicate fill 0 ++ bytesOfNat 8 (8 * m.length)
  ((shaWords whole).foldl shaBlock (eightWords shaInit)).flatMap fun w => bytesOfNat 4 w.toNat

/-! ## AES -/

/-- Double in GF(2^8). -/
def aesXtime (a : Nat) : Nat := if 128 ≤ a then ((a * 2) ^^^ 0x11B) % 256 else a * 2

/-- Multiply in GF(2^8), by fuel over the bits of `b`. -/
def aesMul : Nat → Nat → Nat → Nat
  | 0, _, _ => 0
  | n + 1, a, b => (if b % 2 = 1 then a else 0) ^^^ aesMul n (aesXtime a) (b / 2)

/-- A power of 2 in GF(2^8). -/
def aesPow2 : Nat → Nat
  | 0 => 1
  | n + 1 => aesXtime (aesPow2 n)

/-- The S-box. -/
def aesSbox : List Nat :=
  [0x63, 0x7c, 0x77, 0x7b, 0xf2, 0x6b, 0x6f, 0xc5, 0x30, 0x01, 0x67, 0x2b, 0xfe, 0xd7, 0xab, 0x76] ++
  [0xca, 0x82, 0xc9, 0x7d, 0xfa, 0x59, 0x47, 0xf0, 0xad, 0xd4, 0xa2, 0xaf, 0x9c, 0xa4, 0x72, 0xc0] ++
  [0xb7, 0xfd, 0x93, 0x26, 0x36, 0x3f, 0xf7, 0xcc, 0x34, 0xa5, 0xe5, 0xf1, 0x71, 0xd8, 0x31, 0x15] ++
  [0x04, 0xc7, 0x23, 0xc3, 0x18, 0x96, 0x05, 0x9a, 0x07, 0x12, 0x80, 0xe2, 0xeb, 0x27, 0xb2, 0x75] ++
  [0x09, 0x83, 0x2c, 0x1a, 0x1b, 0x6e, 0x5a, 0xa0, 0x52, 0x3b, 0xd6, 0xb3, 0x29, 0xe3, 0x2f, 0x84] ++
  [0x53, 0xd1, 0x00, 0xed, 0x20, 0xfc, 0xb1, 0x5b, 0x6a, 0xcb, 0xbe, 0x39, 0x4a, 0x4c, 0x58, 0xcf] ++
  [0xd0, 0xef, 0xaa, 0xfb, 0x43, 0x4d, 0x33, 0x85, 0x45, 0xf9, 0x02, 0x7f, 0x50, 0x3c, 0x9f, 0xa8] ++
  [0x51, 0xa3, 0x40, 0x8f, 0x92, 0x9d, 0x38, 0xf5, 0xbc, 0xb6, 0xda, 0x21, 0x10, 0xff, 0xf3, 0xd2] ++
  [0xcd, 0x0c, 0x13, 0xec, 0x5f, 0x97, 0x44, 0x17, 0xc4, 0xa7, 0x7e, 0x3d, 0x64, 0x5d, 0x19, 0x73] ++
  [0x60, 0x81, 0x4f, 0xdc, 0x22, 0x2a, 0x90, 0x88, 0x46, 0xee, 0xb8, 0x14, 0xde, 0x5e, 0x0b, 0xdb] ++
  [0xe0, 0x32, 0x3a, 0x0a, 0x49, 0x06, 0x24, 0x5c, 0xc2, 0xd3, 0xac, 0x62, 0x91, 0x95, 0xe4, 0x79] ++
  [0xe7, 0xc8, 0x37, 0x6d, 0x8d, 0xd5, 0x4e, 0xa9, 0x6c, 0x56, 0xf4, 0xea, 0x65, 0x7a, 0xae, 0x08] ++
  [0xba, 0x78, 0x25, 0x2e, 0x1c, 0xa6, 0xb4, 0xc6, 0xe8, 0xdd, 0x74, 0x1f, 0x4b, 0xbd, 0x8b, 0x8a] ++
  [0x70, 0x3e, 0xb5, 0x66, 0x48, 0x03, 0xf6, 0x0e, 0x61, 0x35, 0x57, 0xb9, 0x86, 0xc1, 0x1d, 0x9e] ++
  [0xe1, 0xf8, 0x98, 0x11, 0x69, 0xd9, 0x8e, 0x94, 0x9b, 0x1e, 0x87, 0xe9, 0xce, 0x55, 0x28, 0xdf] ++
  [0x8c, 0xa1, 0x89, 0x0d, 0xbf, 0xe6, 0x42, 0x68, 0x41, 0x99, 0x2d, 0x0f, 0xb0, 0x54, 0xbb, 0x16]

/-- The inverse S-box as a table. -/
def aesInvSbox : List Nat := (List.range 256).map fun v => (aesSbox.findIdx? (· = v)).getD 0

/-- The key schedule, by words of four bytes, newest first. -/
def aesExpand (nk : Nat) : Nat → Nat → List (List Nat) → List (List Nat)
  | 0, _, w => w
  | n + 1, i, w =>
    let t := w.headD []
    let sub := fun (x : List Nat) => x.map fun a => aesSbox.getD a 0
    let t :=
      if i % nk = 0 then
        (let r := sub (t.drop 1 ++ t.take 1)
         List.zipWith (· ^^^ ·) r [aesPow2 (i / nk - 1), 0, 0, 0])
      else if 6 < nk ∧ i % nk = 4 then sub t else t
    aesExpand nk n (i + 1) (List.zipWith (· ^^^ ·) (w.getD (nk - 1) []) t :: w)

/-- The round keys of a key of 16 or 32 bytes, each 16 bytes. -/
def aesKeys (key : List Byte) : List (List Nat) :=
  let k := key.map (·.toNat)
  let nk := key.length / 4
  let w0 := (List.range nk).map fun i => (k.drop (4 * i)).take 4
  let w := (aesExpand nk (4 * (nk + 7) - nk) nk w0.reverse).reverse
  (List.range (nk + 7)).map fun r => ((w.drop (4 * r)).take 4).flatten

/-- Byte `i` of a block moves as ShiftRows says, `s` = 1, or back, `s` = 3. -/
def aesShift (s : Nat) (b : List Nat) : List Nat := (List.range 16).map fun i => b.getD ((i + 4 * s * (i % 4)) % 16) 0

/-- MixColumns with a row of coefficients. -/
def aesMix (c : List Nat) (b : List Nat) : List Nat :=
  (List.range 16).map fun i =>
    (List.range 4).foldl (fun a j => a ^^^ aesMul 8 (b.getD (i / 4 * 4 + j) 0) (c.getD ((j + 4 - i % 4) % 4) 0)) 0

/-- Encrypt one block. (PRESUMED: log entry 26.) -/
def aesEnc (key blk : List Byte) : List Byte :=
  let ks := aesKeys key
  let x := fun (a b : List Nat) => List.zipWith (· ^^^ ·) a b
  let sub := fun (b : List Nat) => b.map fun a => aesSbox.getD a 0
  let s := x (blk.map (·.toNat)) (ks.headD [])
  let s := ((ks.drop 1).dropLast).foldl (fun s k => x (aesMix [2, 3, 1, 1] (aesShift 1 (sub s))) k) s
  (x (aesShift 1 (sub s)) (ks.getLastD [])).map fun a => BitVec.ofNat 8 a

/-- Decrypt one block. -/
def aesDec (key blk : List Byte) : List Byte :=
  let ks := (aesKeys key).reverse
  let x := fun (a b : List Nat) => List.zipWith (· ^^^ ·) a b
  let sub := fun (b : List Nat) => b.map fun a => aesInvSbox.getD a 0
  let s := x (blk.map (·.toNat)) (ks.headD [])
  let s := ((ks.drop 1).dropLast).foldl (fun s k => aesMix [14, 11, 13, 9] (x (sub (aesShift 3 s)) k)) s
  (x (sub (aesShift 3 s)) (ks.getLastD [])).map fun a => BitVec.ofNat 8 a

/-! ## Modes -/

/-- Double in the field of CMAC. -/
def cmacDouble (b : List Byte) : List Byte :=
  let n := natOfBytes b
  bytesOfNat 16 ((n * 2 % 2 ^ 128) ^^^ (if 2 ^ 127 ≤ n then 0x87 else 0))

/-- CMAC of a message (R433, R437). (PRESUMED: log entry 26.) -/
def cmac (key m : List Byte) : List Byte :=
  let k1 := cmacDouble (aesEnc key (List.replicate 16 0))
  let full := m.length ≠ 0 ∧ m.length % 16 = 0
  let lastLen := if full then 16 else m.length % 16
  let head := m.take (m.length - lastLen)
  let last := m.drop (m.length - lastLen)
  let last := if full then xorBytes last k1
    else xorBytes (last ++ (0x80 :: List.replicate (15 - lastLen) 0)) (cmacDouble k1)
  (blocks16 head ++ [last]).foldl (fun a b => aesEnc key (xorBytes a b)) (List.replicate 16 0)

/-- A counter block increased in its last `n` bytes. -/
def ctrInc (n : Nat) (b : List Byte) : List Byte :=
  b.take (16 - n) ++ bytesOfNat n ((natOfBytes (b.drop (16 - n)) + 1) % 256 ^ n)

/-- The counter block `i` increments on. -/
def ctrAt (n i : Nat) (b : List Byte) : List Byte :=
  b.take (16 - n) ++ bytesOfNat n ((natOfBytes (b.drop (16 - n)) + i) % 256 ^ n)

/-- Multiply in GF(2^128) as GCM orders its bits, by fuel over the bits of `x`. -/
def gfMul128 : Nat → Nat → Nat → Nat
  | 0, _, _ => 0
  | n + 1, x, v =>
    (if x.testBit n then v else 0) ^^^ gfMul128 n x (if v % 2 = 1 then (v / 2) ^^^ (0xE1 * 2 ^ 120) else v / 2)

/-- GHASH of whole blocks. -/
def ghash (h : Nat) (m : List Byte) : Nat := (blocks16 m).foldl (fun y b => gfMul128 128 (y ^^^ natOfBytes b) h) 0

/-- The GCM tag of additional data and ciphertext, with a 12-byte IV. (PRESUMED: log entry 26.) -/
def gcmTag (key iv aad ct : List Byte) : List Byte :=
  let h := natOfBytes (aesEnc key (List.replicate 16 0))
  let s := ghash h (pad16 aad ++ pad16 ct ++ bytesOfNat 8 (8 * aad.length) ++ bytesOfNat 8 (8 * ct.length))
  xorBytes (bytesOfNat 16 s) (aesEnc key (iv ++ [0, 0, 0, 1]))

/-- The keystream block of data block `i` under GCM. -/
def gcmStream (key iv : List Byte) (i : Nat) : List Byte := aesEnc key (ctrAt 4 (i + 1) (iv ++ [0, 0, 0, 1]))

/-- The CCM tag of additional data and plaintext, with a 12-byte nonce and a 16-byte tag. (PRESUMED: log entry 26.) -/
def ccmTag (key nonce aad pt : List Byte) : List Byte :=
  let b0 : List Byte := [if aad = [] then 0x3A else 0x7A] ++ nonce ++ bytesOfNat 3 pt.length
  let a := if aad = [] then [] else
    pad16 ((if aad.length < 0xFF00 then bytesOfNat 2 aad.length else [0xFF, 0xFE] ++ bytesOfNat 4 aad.length) ++ aad)
  let t := (blocks16 (b0 ++ a ++ pad16 pt)).foldl (fun x b => aesEnc key (xorBytes x b)) (List.replicate 16 0)
  xorBytes t (aesEnc key ([0x02] ++ nonce ++ [0, 0, 0]))

/-- The keystream block of data block `i` under CCM. -/
def ccmStream (key nonce : List Byte) (i : Nat) : List Byte := aesEnc key ([0x02] ++ nonce ++ bytesOfNat 3 (i + 1))

/-- The key of a context (R433): the counter-mode KDF with AES-256-CMAC under the root key. (PRESUMED: log entry 26.) -/
def deriveKey (root label : List Byte) (ctx : Nat) (k256 : Bool) : List Byte :=
  let l := if k256 then 256 else 128
  let k := fun i => cmac root (bytesOfNat 4 i ++ label ++ [0] ++ bytesOfNat 1 ctx ++ bytesOfNat 4 l)
  if k256 then k 1 ++ k 2 else k 1

/-! ## ECDSA over P-256 -/

/-- The field prime. -/
def p256 : Nat := 2 ^ 256 - 2 ^ 224 + 2 ^ 192 + 2 ^ 96 - 1
/-- The group order. -/
def n256 : Nat := 0xffffffff00000000ffffffffffffffffbce6faada7179e84f3b9cac2fc632551
/-- The curve's b. -/
def b256 : Nat := 0x5ac635d8aa3a93e7b3ebbd55769886bc651d06b0cc53b0f63bce3c3e27d2604b
/-- The base point. -/
def g256 : Nat × Nat := (0x6b17d1f2e12c4247f8bce6e563a440f277037d812deb33a0f4a13945d898c296,
  0x4fe342e2fe1a7f9b8ee7eb4a7c0f9e162bce33576b315ececbb6406837bf51f5)

/-- A power modulo `m`, by fuel over the bits of the exponent. -/
def powMod (m : Nat) : Nat → Nat → Nat → Nat
  | 0, _, _ => 1
  | n + 1, a, e => (if e % 2 = 1 then a else 1) * powMod m n (a * a % m) (e / 2) % m

/-- The inverse modulo a prime. -/
def invMod (m a : Nat) : Nat := powMod m 256 (a % m) (m - 2)

/-- Add two points of the curve; none is the point at infinity. -/
def ecAdd : Option (Nat × Nat) → Option (Nat × Nat) → Option (Nat × Nat)
  | none, q => q
  | p, none => p
  | some (x1, y1), some (x2, y2) =>
    if x1 = x2 ∧ (y1 + y2) % p256 = 0 then none
    else
      let l := if x1 = x2 then (3 * x1 * x1 + p256 - 3) * invMod p256 (2 * y1) % p256
        else (y2 + p256 - y1) * invMod p256 (x2 + p256 - x1) % p256
      let x := (l * l + 2 * p256 - x1 - x2) % p256
      some (x, (l * (x1 + p256 - x) + p256 - y1) % p256)

/-- A multiple of a point, by fuel over the bits. -/
def ecMul : Nat → Nat → Option (Nat × Nat) → Option (Nat × Nat)
  | 0, _, _ => none
  | n + 1, k, p => ecAdd (if k % 2 = 1 then p else none) (ecMul n (k / 2) (ecAdd p p))

/-- A point lies on the curve. -/
def onCurve (x y : Nat) : Bool := x < p256 && y < p256 && y * y % p256 = (x * x * x + p256 * x - 3 * x + b256) % p256

/-- ECDSA verification of a signature over a 32-byte digest (R447). (PRESUMED: log entry 26.) -/
def ecdsaVerify (digest qx qy r s : Nat) : Bool :=
  if !onCurve qx qy ∨ r = 0 ∨ n256 ≤ r ∨ s = 0 ∨ n256 ≤ s then false
  else
    let w := invMod n256 s
    match ecAdd (ecMul 256 (digest * w % n256) (some g256)) (ecMul 256 (r * w % n256) (some (qx, qy))) with
    | none => false
    | some (x, _) => x % n256 = r

end Sys2Proof.Machine
end

