-- ==== Sys2Proof/Machine/Cipher.lean ====
section
/-! DEFINITION. The cipher engine (R431-R451): key contexts and their counters, jobs and the holding buffer, the signature
and hash unit, and debug authentication. -/

namespace Sys2Proof.Machine

/-- CR. -/
def crPg : Nat := 0x240
/-- PK. -/
def pkPg : Nat := 0x242
/-- DA. -/
def daPg : Nat := 0x243
/-- The page of a key context (pages 0x244-0x24B). -/
def cxPg (c : Nat) : Nat := 0x244 + c / 32

/-- A field of key context `c`. -/
def State.cxFld (s : State) (c : Nat) (f : Nat → Fld) : Nat := s.fld (cxPg c) (f (c % 32))
/-- Set a field of key context `c`. -/
def State.setCxFld (s : State) (c : Nat) (f : Nat → Fld) (v : Nat) : State := s.setFld (cxPg c) (f (c % 32)) v

/-- Replace the engine's record. -/
def State.setCry (s : State) (f : CrySt → CrySt) : State := { s with cry := f s.cry }
/-- The job of a queue. -/
def State.jobOf (s : State) (q : Nat) : Option Job := tget (fun _ => none) s.cry.jobs q
/-- Replace the job of a queue. -/
def State.setJob (s : State) (q : Nat) (j : Option Job) : State :=
  s.setCry fun c => { c with jobs := tset (fun _ => none) c.jobs q j }
/-- The counter of a key context. -/
def State.ctrOf (s : State) (c : Nat) : Ctr := tget (fun _ => {}) s.cry.ctrs c
/-- Replace the counter of a key context. -/
def State.setCtr (s : State) (c : Nat) (v : Ctr) : State :=
  s.setCry fun y => { y with ctrs := tset (fun _ => {}) y.ctrs c v }

/-! ## Memory as the engine sees it -/

/-- The place of an address of memory, 0x100_0000_0000 on for what is none. -/
def State.placeIn (s : State) (a : Nat) : Nat := (s.placeOf a).getD (0x10000000000 + a)

/-- Bytes from an address on; a poisoned word reads 0 (R346). (DEDUCED: log entry 51.) -/
def State.memBytes (s : State) (a n : Nat) : List Byte :=
  (List.range n).map fun i =>
    let p := s.placeIn (a + i)
    if s.poisoned p then 0 else s.readByte p

/-- A byte range of memory holds a poisoned word. -/
def State.memBad (s : State) (a n : Nat) : Bool := (List.range n).any fun i => s.poisoned (s.placeIn (a + i))

/-- A read of data flash waits while a word is programmed there (R350). -/
def State.dataHeld (s : State) (a n : Nat) : Bool := s.dataBusy && decide (0x02000000 < a + n) && decide (a < 0x02200000)

/-- Write bytes of memory from an address on. -/
def State.putBytes (s : State) (a : Nat) : List Byte → State
  | [] => s
  | b :: bs => ((s.setByte (s.placeIn a) b)).putBytes (a + 1) bs

/-- Bytes of the OTP array from an offset on. -/
def State.otpBytes (s : State) (off n : Nat) : List Byte := s.bytesAt (place macroOtp off) n

/-! ## Keys and nonces -/

/-- The root key (R432). -/
def State.rootKey (s : State) : List Byte := s.otpBytes 0x3F00 32

/-- The label of a key context: 32 bytes (R433). -/
def State.cxLabel (s : State) (c : Nat) : List Byte :=
  (List.range 8).flatMap fun j => leBytes 4 (s.cxFld c fun i => R.CX.LABEL.L i j)

/-- The key of a context (R433). -/
def State.cxKey (s : State) (c : Nat) : List Byte :=
  deriveKey s.rootKey (s.cxLabel c) c (s.cxFld c R.CX.CFG.K256 = 1)

/-- The first 8 bytes of SHA-256 of a label (R444). -/
def State.cxDigest (s : State) (c : Nat) : List Byte := (sha256 (s.cxLabel c)).take 8

/-- The entry words of nonce area A (false) or B: two sectors without their headers (R351, R444). -/
def nonceWords (b : Bool) : List Nat :=
  let base := sectorBase (384 + if b then 238 else 236)
  ((List.range 512).filter fun i => i % 256 ≠ 255).map fun i => base + 32 * i

/-- A nonce entry as it reads, if its check word is right (R444): context, label digest, P. -/
def State.nonceAt (s : State) (p : Nat) : Option (Nat × List Byte × Nat) :=
  let l := s.bytesAt p 32
  if s.poisoned p then none
  else if leVal (l.drop 28) = crc32c (l.take 28) then
    some (beVal (l.take 2), (l.drop 8).take 8, beVal ((l.drop 16).take 8))
  else none

/-- The bytes of a nonce entry (R444). -/
def nonceEntry (c : Nat) (dig : List Byte) (p : Nat) : List Byte :=
  let l := beBytes 2 c ++ List.replicate 6 0 ++ dig ++ beBytes 8 p ++ List.replicate 4 0
  l ++ leBytes 4 (crc32c l)

/-- The valid entries of a nonce area, oldest first. -/
def State.nonces (s : State) (b : Bool) : List (Nat × List Byte × Nat) := (nonceWords b).filterMap s.nonceAt

/-- A nonce area is valid: it holds a valid entry, or it is wholly erased. (DEDUCED: log entry 52.) -/
def State.nonceOk (s : State) (b : Bool) : Bool :=
  s.nonces b ≠ [] || s.erased (sectorBase (384 + if b then 238 else 236)) 0x4000

/-- The active nonce area (R444): the one that holds entries. -/
def State.nonceArea (s : State) : Bool := s.nonces false = [] && s.nonces true ≠ []

/-- The largest P of the valid entries for a context number and label digest (R445). (DEDUCED: log entry 52.) -/
def State.nonceFind (s : State) (c : Nat) (dig : List Byte) : Option Nat :=
  ((s.nonces false ++ s.nonces true).filter fun e => e.1 = c && e.2.1 = dig).foldl
    (fun m e => some (max (m.getD 0) e.2.2)) none

/-- Begin the write that persistence asks for (R444); it is a map write of the device (R349). -/
def State.nvCheck (s : State) (c : Nat) (first : Bool) : State :=
  let k := s.ctrOf c
  if k.wr ≠ none then s
  else match k.p with
    | some p => if p + 0x10000 - 0x100 ≤ k.c then (s.setCtr c { k with wr := some (p + 0x10000) }).mapStart else s
    | none => if first then (s.setCtr c { k with wr := some k.c }).mapStart else s

/-- Look a context's counter up in the nonce areas (R445). (DEDUCED: log entry 52.) -/
def State.ctrLoad (s : State) (c : Nat) : State :=
  let p := s.nonceFind c (s.cxDigest c)
  (s.setCtr c { s.ctrOf c with c := match p with | some v => v + 0x10000 | none => 0, p := p }).nvCheck c false

/-- The CRY island has started: both nonce areas are read (R445); NVERR when neither is valid. -/
def State.nonceLoad (s : State) : State :=
  let ok := s.nonceOk false || s.nonceOk true
  let s := s.setBit crPg R.CR.STAT.NVOK ok
  if ok then
    ((List.range 256).filter fun c => s.cxFld c R.CX.CFG.EN = 1 && s.cxFld c R.CX.CFG.NONCE ≠ 0).foldl State.ctrLoad s
  else s.detect crPg 4

/-! ## Job results -/

/-- The result codes of R446. -/
def resOk : Nat := 1
/-- TAGFAIL. -/
def resTagfail : Nat := 2
/-- SEGFAIL. -/
def resSegfail : Nat := 3
/-- BADDESC. -/
def resBaddesc : Nat := 4
/-- NOPERM. -/
def resNoperm : Nat := 5
/-- NONCE_EXHAUSTED. -/
def resExhausted : Nat := 6
/-- NONCE_LOST. -/
def resLost : Nat := 7
/-- POISONED. -/
def resPoisoned : Nat := 8
/-- INVCHK. -/
def resInvchk : Nat := 9
/-- UE. -/
def resUe : Nat := 10
/-- ABORTED. -/
def resAborted : Nat := 11
/-- NOPROG. -/
def resNoprog : Nat := 12

/-- The slots of the holding buffer in use (R440). -/
def State.slotsHeld (s : State) : List Nat :=
  (List.range 4).flatMap fun q => ((s.jobOf q).map (·.slots)).getD []

/-- A program of an authenticated mode that decrypts: it writes its plaintext into slots (R437). -/
def isDec (p : Nat) : Bool := p = 7 || p = 9

/-- The slots a job needs (R440, R441). -/
def Job.need (j : Job) : Nat := if !isDec j.prog then 0 else if j.seg then 1 else max 1 ((j.len + 1023) / 1024)

/-- A job ends (R436, R440): its slots are zeroized and freed, its status word is written, GET advances, and with IEN the
queue's event is posted. -/
def State.jobFinish (s : State) (q : Nat) (j : Job) (res : Nat) : State :=
  let s := s.putBytes (j.addr + 28) (leBytes 4 (0x80000000 + j.released * 256 + res))
  let s := s.setJob q none
  let s := s.setCry fun c => { c with run := if c.run = some q then none else c.run }
  let n := s.fld crPg (R.Q.CFG.NREC q)
  let s := if n = 0 then s else s.setFld crPg (R.Q.IDX.GET q) ((s.fld crPg (R.Q.IDX.GET q) + 1) % n)
  let s := s.count crPg 0
  let s := if res = resTagfail then s.count crPg 1 else if res = resSegfail then s.count crPg 2
    else if res = resInvchk then s.count crPg 3 else s
  s.postIf j.ien (208 + q)

/-- A job ends with UE (R446). -/
def State.jobUe (s : State) (q : Nat) (j : Job) : State := (s.jobFinish q j resUe).detect crPg 6

/-! ## Starting a job -/

/-- A byte range of system SRAM, empty ranges included. -/
def sramRange (a n : Nat) : Bool := inSram a n

/-- The segments of a message (R438). -/
def Job.nseg (j : Job) : Nat := if j.seg then max 1 ((j.len + j.seglen - 1) / j.seglen) else 1

/-- The length of the present segment (R438). -/
def Job.segBytes (j : Job) : Nat := if j.seg then min j.seglen (j.len - j.segk * j.seglen) else j.len

/-- A program writes to DST. -/
def writesDst (p : Nat) : Bool := p ≠ 4 && p ≠ 5

/-- A descriptor keeps the limits of R435, R437 and R438. (DEDUCED: log entry 51.) -/
def Job.ok (j : Job) : Bool :=
  sramRange j.src j.len && (!writesDst j.prog || sramRange j.dst j.len) && (j.prog < 6 || sramRange j.aadAddr j.aadlen) &&
  sramRange j.parm (if j.seg then (if isDec j.prog then 0x410 + 8 * j.nseg else 0x10 + 16 * j.nseg) else 0x20) &&
  (if j.prog = 1 then decide (1 ≤ j.len)
   else if j.prog = 2 ∨ j.prog = 3 then decide (j.len % 16 = 0)
   else if isDec j.prog && !j.seg then decide (j.len ≤ 16384) else true) &&
  (!j.seg || (decide (6 ≤ j.prog) && decide (j.prog ≤ 9) && decide (j.seglen % 16 = 0) && decide (16 ≤ j.seglen) &&
    decide (j.seglen ≤ 1024) && decide (j.nseg ≤ 64)))

/-- The descriptor at an address of system SRAM (R435). -/
def State.readDesc (s : State) (a : Nat) : Job :=
  let w := fun i => leVal (s.memBytes (a + 4 * i) 4)
  { addr := a, prog := bits (w 0) 31 24, ctx := bits (w 0) 23 16, seg := bits (w 0) 15 15 = 1, nce := bits (w 0) 14 14 = 1
    ien := bits (w 0) 13 13 = 1, src := w 1, dst := w 2, len := bits (w 3) 23 0, aadAddr := w 4
    seglen := bits (w 5) 31 16, aadlen := bits (w 5) 15 0, parm := w 6 }

/-- An encrypting program that takes a nonce (R434). -/
def isEnc (p : Nat) : Bool := p = 1 || p = 2 || p = 6 || p = 8

/-- The job takes a value of its context's counter: any but a decrypting one (R443). (DEDUCED: log entry 51.) -/
def Job.takes (j : Job) : Bool := j.nce && !(j.prog = 3 || isDec j.prog)

/-- Why a descriptor ends at once, if it does. (DEDUCED: log entry 51.) -/
def State.jobRefused (s : State) (j : Job) : Option Nat :=
  let c := j.ctx
  let pol := s.cxFld c R.CX.CFG.NONCE
  if !s.cry.progs.contains j.prog then some resNoprog
  else if !j.ok then some resBaddesc
  else if s.cxFld c R.CX.CFG.EN = 0 ∨ !(s.cxFld c R.CX.CFG.PERM).testBit j.prog then some resNoperm
  else if pol = 0 ∧ j.nce then some resNoperm
  else if pol = 1 ∧ isEnc j.prog ∧ !j.nce then some resNoperm
  else if j.seg ∧ isDec j.prog ∧ s.cxFld c R.CX.CFG.SEGREL = 0 then some resNoperm
  else if s.cxFld c R.CX.STAT.POISON = 1 then some resPoisoned
  else if j.nce ∧ ((s.bit crPg R.CR.STAT.NVOK = false ∧ !(s.ctrOf c).anew) ∨ s.cxFld c R.CX.STAT.LOST = 1) then some resLost
  else if j.takes ∧ 0xFFFFFFFFFFFF0000 ≤ (s.ctrOf c).c then some resExhausted
  else none

/-- The job's context marks what its refusal says (R443, R445). -/
def State.jobMark (s : State) (j : Job) (res : Nat) : State :=
  if res = resExhausted then (s.setCxFld j.ctx R.CX.STAT.EXH 1).detect crPg 3
  else if res = resLost then s.setCxFld j.ctx R.CX.STAT.LOST 1
  else s

/-- The job reads its IV or nonce from PARM (R435, R437). (DEDUCED: log entry 51.) -/
def Job.readsIv (j : Job) : Bool := !(j.takes || j.prog = 4 || j.prog = 5)

/-- The counter block, IV or nonce that a job starts with, and what the engine writes to PARM (R437, R443). -/
def State.jobIv (s : State) (j : Job) (key : List Byte) : List Byte :=
  let nb := bytesOfNat 4 (s.cxFld j.ctx R.CX.IVFIX.F) ++ bytesOfNat 8 (s.ctrOf j.ctx).c ++ [0, 0, 0, 0]
  let full := if j.takes then (if j.prog = 2 then aesEnc key nb else nb) else s.memBytes j.parm 16
  if 6 ≤ j.prog then full.take 12 else if j.prog = 4 ∨ j.prog = 5 then [] else full

/-- A job that is ready starts: it takes its nonce and derives its key (R433, R443). -/
def State.jobGo (s : State) (q : Nat) (j : Job) : State :=
  let key := s.cxKey j.ctx
  let iv := s.jobIv j key
  let s := (s.hwRead j.aadAddr (if 6 ≤ j.prog then j.aadlen else 0)).hwRead j.parm (if j.readsIv then 16 else 0)
  if s.memBad j.aadAddr (if 6 ≤ j.prog then j.aadlen else 0) ∨ (j.readsIv ∧ s.memBad j.parm 16) then s.jobUe q j
  else
    let aad := if 6 ≤ j.prog then s.memBytes j.aadAddr j.aadlen else []
    let s := if j.takes then
        ((s.putBytes j.parm iv).setCtr j.ctx { s.ctrOf j.ctx with c := (s.ctrOf j.ctx).c + 1 }).nvCheck j.ctx true
      else s
    s.setJob q (some { j with ph := .started, key := key, iv := iv, aad := aad, chain := iv })

/-- A job tries to start (R442, R444): all its slots, then its nonce; else it waits. A waiting job of higher priority has the
freed slots first. -/
def State.jobTry (s : State) (q : Nat) (j : Job) : State :=
  let free := (List.range 16).filter fun k => !s.slotsHeld.contains k
  let ahead := (List.range 4).any fun p => decide (q < p) && (match s.jobOf p with | some i => i.ph = .slotwait | none => false)
  if j.slots = [] ∧ 0 < j.need ∧ (free.length < j.need ∨ ahead) then s.setJob q (some { j with ph := .slotwait })
  else
    let j := if j.slots = [] then { j with slots := free.take j.need } else j
    if j.takes then
      let s := s.nvCheck j.ctx true
      let k := s.ctrOf j.ctx
      if 0xFFFFFFFFFFFF0000 ≤ k.c then (s.jobMark j resExhausted).jobFinish q j resExhausted
      else match k.p with
      | some p => if k.c < p + 0x10000 then s.jobGo q j else s.setJob q (some { j with ph := .nvwait })
      | none => s.setJob q (some { j with ph := .nvwait })
    else s.jobGo q j

/-- Jobs that wait try again, the highest priority first (R442, R449). -/
def State.jobsRetry (s : State) : State :=
  [3, 2, 1, 0].foldl (fun t q =>
    match t.jobOf q with
    | some j => if j.ph = .started then t else t.jobTry q j
    | none => t) s

/-- A queue holds a descriptor, or a job of one has not ended (R434, R453). -/
def State.descHeld (s : State) : Bool :=
  (List.range 4).any fun q => s.fld crPg (R.Q.IDX.GET q) ≠ s.fld crPg (R.Q.IDX.PUT q) || (s.jobOf q).isSome

/-- The engine has a clock, which DOZE stops while no queue holds a descriptor (R453). (DEDUCED: log entry 54.) -/
def State.cryClock (s : State) : Bool := s.clocked .cry && (s.power ≠ .doze || s.descHeld)

/-- The engine works: it has a clock and PG_CTRL.EN of page 0x240 is 1. -/
def State.cryRuns (s : State) : Bool := s.cryClock && s.enabled crPg

/-- JOB_START (R434, R435, R442, R443). -/
def execJobStart (q : Fin 4) (s : State) : Outcome :=
  let get := s.fld crPg (R.Q.IDX.GET q)
  if !s.cryRuns ∨ s.jobOf q ≠ none ∨ s.fld crPg (R.Q.CFG.NREC q) = 0 ∨ get = s.fld crPg (R.Q.IDX.PUT q) then .next s
  else
    let a := 32 * s.fld crPg (R.Q.BASE.ADDR q) + 32 * get
    let j := s.readDesc a
    let s := s.hwRead a 28
    if s.memBad a 28 then .next (s.jobUe q j)
    else match s.jobRefused j with
    | some res => .next ((s.jobMark j res).jobFinish q j res)
    | none => .next (s.jobTry q j)

/-- A write of Qq.IDX.PUT (R436, R391). -/
def State.putWrite (s : State) (q put : Nat) : State :=
  if s.fld crPg (R.Q.CFG.NREC q) ≤ put then s.range crPg else (s.setFld crPg (R.Q.IDX.PUT q) put).ok crPg

/-- JOB_SUBMIT (R436). (DEDUCED: log entry 51.) -/
def execJobSubmit (_w : Writer) (q : Fin 4) (put : BitVec 10) (s : State) : Outcome :=
  if !s.clocked .cry then .next s else if s.locked crPg then .next (s.refuse crPg) else .next (s.putWrite q put.toNat)

/-! ## Blocks -/

/-- The IV and the AAD of the present segment (R438). -/
def Job.segIv (j : Job) : List Byte :=
  if j.seg then j.iv.take 8 ++ xorBytes (j.iv.drop 8) (bytesOfNat 4 j.segk) else j.iv
/-- The AAD of the present segment (R438). -/
def Job.segAad (j : Job) : List Byte :=
  if j.seg then j.aad ++ bytesOfNat 4 j.segk ++ [if j.segk + 1 = j.nseg then 1 else 0] else j.aad

/-- One data block of the job's mode: what comes out, the next chaining block, and what its tag takes in. -/
def Job.block (j : Job) (d : List Byte) : List Byte × List Byte × List Byte :=
  let i := j.pos / 16
  match j.prog with
  | 1 => (xorBytes d (aesEnc j.key (ctrAt (if j.nce then 4 else 16) i j.iv)), j.chain, [])
  | 2 => let c := aesEnc j.key (xorBytes d j.chain)
         (c, c, [])
  | 3 => (xorBytes (aesDec j.key d) j.chain, d, [])
  | 6 => let c := xorBytes d (gcmStream j.key j.segIv i)
         (c, j.chain, c)
  | 7 => (xorBytes d (gcmStream j.key j.segIv i), j.chain, d)
  | 8 => (xorBytes d (ccmStream j.key j.segIv i), j.chain, d)
  | 9 => let p := xorBytes d (ccmStream j.key j.segIv i)
         (p, j.chain, p)
  | _ => ([], j.chain, d)

/-- The tag of the present segment, or the CMAC (R437, R438). -/
def Job.tag (j : Job) : List Byte :=
  if j.prog < 6 then cmac j.key j.acc
  else if j.prog < 8 then gcmTag j.key j.segIv j.segAad j.acc
  else ccmTag j.key j.segIv j.segAad j.acc

/-- The running job goes on by one block: data, or the tag once its segment's data are done. (DEDUCED: log entry 51.) -/
def State.jobBlock (s : State) (q : Nat) (j : Job) : State :=
  let off := j.segk * j.seglen * (if j.seg then 1 else 0)
  if j.fin then s
  else if j.pos < j.segBytes then
    let n := min 16 (j.segBytes - j.pos)
    let a := j.src + off + j.pos
    let s := s.hwRead a n
    if s.dataHeld a n then s
    else if s.memBad a n then s.jobUe q j
    else
      let (o, c, t) := j.block (s.memBytes a n)
      let s := if isDec j.prog then s else s.putBytes (j.dst + off + j.pos) o
      let j := { j with pos := j.pos + n, chain := c, acc := j.acc ++ t, out := if isDec j.prog then j.out ++ o else [] }
      s.setJob q (some { j with fin := decide (j.prog ≤ 3) && j.pos = j.len })
  else if isDec j.prog ∨ j.prog = 5 ∨ j.prog ≤ 3 then s.setJob q (some { j with fin := !j.seg })
  else
    let s := s.putBytes (j.parm + 0x10 + 16 * j.segk) j.tag
    if j.segk + 1 < j.nseg then s.setJob q (some { j with segk := j.segk + 1, pos := 0, acc := [] })
    else s.setJob q (some { j with fin := true })

/-- A queue's head job is ready to run (R436). -/
def State.jobReady (s : State) (q : Nat) : Bool :=
  match s.jobOf q with
  | some j => j.ph = .started && !j.fin
  | none => false

/-- The scheduler runs the ready head job of the highest-priority queue; a running job of lower priority is suspended
(R436). -/
def State.jobChoose (s : State) : State :=
  match [3, 2, 1, 0].find? s.jobReady with
  | none => s
  | some q =>
    let s := match s.cry.run with
      | some r => if r = q then s else
          (match s.jobOf r with
            | some j => if j.fin then s else (s.setJob r (some { j with susp := true })).count crPg 4
            | none => s)
      | none => s
    let s := match s.jobOf q with | some j => s.setJob q (some { j with susp := false }) | none => s
    s.setCry fun c => { c with run := some q }

/-- The running job is past its last block: in its VERIFY or release copy, or at its end (R436, R440, R441). -/
def State.jobClosing (s : State) : Bool :=
  match s.cry.run with
  | some q =>
    (match s.jobOf q with
      | some j => j.fin || (j.seg && isDec j.prog && decide (j.segBytes ≤ j.pos))
      | none => false)
  | none => false

/-- AES_BLOCK_BOUNDARY (R436, R449): a VERIFY or a release copy has none. (DEDUCED: log entry 51.) -/
def execAesBlockBoundary (ue : Bool) (s : State) : Outcome :=
  if !s.cryRuns ∨ (s.jobClosing ∧ !ue) then .next s
  else
    let s := match s.cry.run with
      | some q =>
        (match s.jobOf q with
          | some j => if ue then s.jobUe q j else s.jobBlock q j
          | none => s)
      | none => s
    .next s.jobsRetry.jobChoose

/-- INVERSE_CHECK_MISMATCH (R439): it comes in place of the boundary of the block, so that nothing of the block is written. -/
def execInverseCheckMismatch (s : State) : Outcome :=
  if !s.cryRuns then .next s
  else match s.cry.run with
  | some q =>
    (match s.jobOf q with
      | some j => .next ((s.jobFinish q j resInvchk).detect crPg 1).jobsRetry
      | none => .next s)
  | none => .next s

/-- SEGMENT_VERIFY (R441): the segment is released, or every earlier one is revoked and the context poisoned.
(DEDUCED: log entry 51.) -/
def execSegmentVerify (q : Fin 4) (s : State) : Outcome :=
  match s.jobOf q with
  | none => .next s
  | some j =>
    if !s.cryRuns ∨ s.cry.run ≠ some q.val ∨ j.ph ≠ .started ∨ !j.seg ∨ !isDec j.prog ∨ j.fin ∨ j.pos < j.segBytes then .next s
    else
      let rec0 := fun k => j.parm + 0x410 + 8 * k
      let s := s.hwRead (j.parm + 0x10 + 16 * j.segk) 16
      if s.memBad (j.parm + 0x10 + 16 * j.segk) 16 then .next (s.jobUe q j).jobsRetry
      else if j.tag = s.memBytes (j.parm + 0x10 + 16 * j.segk) 16 then
        let s := s.putBytes (j.dst + j.segk * j.seglen) j.out
        let s := s.putBytes (rec0 j.segk) (leBytes 4 (0x80000000 + j.segBytes) ++ leBytes 4 (j.segk * j.seglen))
        let j := { j with released := j.released + 1, out := [], acc := [] }
        let s := s.postIf j.ien (208 + q)
        .next (s.setJob q (some (if j.segk + 1 < j.nseg then { j with segk := j.segk + 1, pos := 0 } else { j with fin := true })))
      else
        let s := (List.range j.segk).foldl (fun t k =>
          t.putBytes (rec0 k) (leBytes 4 (0x40000000 + min j.seglen (j.len - k * j.seglen)))) s
        let s := s.setCxFld j.ctx R.CX.STAT.POISON 1
        .next ((s.jobFinish q j resSegfail).detect crPg 2).jobsRetry

/-- JOB_END (R440): CMAC-VER compares, and an unsegmented decryption verifies and copies its plaintext to DST. -/
def execJobEnd (q : Fin 4) (s : State) : Outcome :=
  match s.jobOf q with
  | none => .next s
  | some j =>
    if !s.cryRuns ∨ !j.fin then .next s
    else
      let check := j.prog = 5 ∨ (isDec j.prog ∧ !j.seg)
      let s := if check then s.hwRead (j.parm + 0x10) 16 else s
      if check ∧ s.memBad (j.parm + 0x10) 16 then .next (s.jobUe q j).jobsRetry
      else if check ∧ j.tag ≠ s.memBytes (j.parm + 0x10) 16 then .next (s.jobFinish q j resTagfail).jobsRetry
      else
        let s := if isDec j.prog ∧ !j.seg then s.putBytes j.dst j.out else s
        .next (s.jobFinish q j resOk).jobsRetry

/-! ## Nonce writes -/

/-- Write entries into the free words of an area. -/
def State.nonceFill (s : State) (b : Bool) (l : List (List Byte)) : State :=
  (((nonceWords b).filter fun p => s.erased p 32).zip l).foldl (fun t e => t.setBytes e.1 e.2) s

/-- The writes of the engine are given up with its clock or by a reset (R353, R449): a word under way is left with open values, in
a compaction the sector; P stands, and the write begins again when a job asks for it. (DESIGN CHOICE: log entry 31.) -/
def State.nonceDrop (s : State) : State :=
  if !s.cry.ctrs.any (·.2.wr.isSome) then s
  else
    let own := s.flHw && s.upd.piece.isNone && s.memc.repairs = [] && s.retouchPend = []
    let s := (s.cry.ctrs.map (·.1)).foldl (fun (t : State) c => t.setCtr c { t.ctrOf c with wr := none, wrDig := none }) s
    if !own then s
    else
      let b := s.nonceArea
      let s := if (nonceWords b).any fun p => s.erased p 32 then
          { (s.nonceFill b [s.freeBytes]) with freeCtr := s.freeCtr + 8 }
        else s.tearSector (384 + if b then 236 else 238)
      s.mapDone

/-- Every job ends with ABORTED, or leaves the engine where it has not started (R105, R449); the engine writes no more. -/
def State.cryAbort (s : State) : State :=
  let s := (List.range 4).foldl (fun t q =>
    match t.jobOf q with
    | some j => if j.ph = .started then t.jobFinish q j resAborted else t.setJob q none
    | none => t) s
  (s.setCry fun c => { c with run := none }).nonceDrop

/-- The latest entry of each pair of context number and digest, oldest first (R444). -/
def nonceLatest (l : List (Nat × List Byte × Nat)) : List (Nat × List Byte × Nat) :=
  l.foldl (fun acc e => acc.filter (fun x => !(x.1 = e.1 && x.2.1 = e.2.1)) ++ [e]) []

/-- A full area is compacted into the other one, which is erased first if need be, before an entry for context `c` and a label's digest is
appended; with more than 510 pairs those of no present label are left out, oldest first, and NVDROP sets (R444). -/
def State.nonceCompact (s : State) (b : Bool) (c : Nat) (dig : List Byte) : State :=
  let l := (nonceLatest (s.nonces b)).filter fun e => !(e.1 = c && e.2.1 = dig)
  let present := fun (e : Nat × List Byte × Nat) => e.2.1 = s.cxDigest e.1
  let gone := (l.filter fun e => !present e).take (l.length - 509)
  let kept := l.filter fun e => !gone.contains e
  let erase := fun (t : State) (x : Bool) => (t.mapErase (if x then 238 else 236)).mapErase (if x then 239 else 237)
  let s := erase s (!b)
  let s := erase (s.nonceFill (!b) (kept.map fun e => nonceEntry e.1 e.2.1 e.2.2)) b
  if gone = [] then s else s.detect crPg 5

/-- NONCE_PERSIST_COMPLETE (R444, R445): the entry counts once it verifies; a failed one is retried in the next free word.
Where a
fix has changed the label since the write began, the entry is that of the former one. (DEDUCED: log entry 52.) -/
def execNoncePersistComplete (c : BitVec 8) (ok : Bool) (s : State) : Outcome :=
  let k := s.ctrOf c.toNat
  match k.wr with
  | none => .next s
  | some v =>
    if !s.cryClock ∨ !s.memRuns ∨ s.flBusy ∨ s.upd.piece.isSome then .next s
    else
      let now := s.cxDigest c.toNat
      let dig := k.wrDig.getD now
      let s := if (nonceWords s.nonceArea).any fun p => s.erased p 32 then s else s.nonceCompact s.nonceArea c.toNat dig
      if ok then
        let s := s.nonceFill s.nonceArea [nonceEntry c.toNat dig v]
        .next ((((s.setCtr c.toNat { k with p := if dig = now then some v else k.p, wr := none, wrDig := none }).count crPg 5).nvCheck c.toNat false).mapDone).jobsRetry
      else
        let s := { (s.nonceFill s.nonceArea [s.freeBytes]) with freeCtr := s.freeCtr + 8 }
        .next (s.detect crPg 4)

/-- A fix has rewritten fields of a key context (R441, R445): POISON clears; enabling it with a nonce policy, or changing its
label or key size, looks its counter up. A label given after the loss was shown ends LOST. (DEDUCED: log entry 52.) -/
def State.cxFix (s o : State) (c : Nat) : State :=
  let ch := fun (f : Nat → Fld) => s.cxFld c f ≠ o.cxFld c f
  let lab := (List.range 8).any fun j => ch fun i => R.CX.LABEL.L i j
  let s := s.setCxFld c R.CX.STAT.POISON 0
  let s := if lab && s.cxFld c R.CX.STAT.LOST = 1 then
      (s.setCxFld c R.CX.STAT.LOST 0).setCtr c { s.ctrOf c with anew := true }
    else s
  let s := if lab && (s.ctrOf c).wr.isSome && (s.ctrOf c).wrDig.isNone then s.setCtr c { s.ctrOf c with wrDig := some (o.cxDigest c) } else s
  if s.cxFld c R.CX.CFG.NONCE ≠ 0 ∧ ((s.cxFld c R.CX.CFG.EN = 1 ∧ (o.cxFld c R.CX.CFG.EN = 0 ∨ o.cxFld c R.CX.CFG.NONCE = 0)) ∨
      lab ∨ ch R.CX.CFG.K256) then
    (s.setCxFld c R.CX.STAT.EXH 0).ctrLoad c
  else s

/-! ## The signature and hash unit -/

/-- A PK command (R447); UPDATE's VERIFY has the unit while it runs (R486). (DEDUCED: log entry 53.) -/
def State.pkCmd (s : State) (verify : Bool) : State :=
  if s.bit pkPg R.PG_STAT.BUSY ∨ s.fld 0x250 R.UPD.STAT.ST = 3 then s.refuse pkPg
  else ((s.setCry fun c => { c with pk := some verify }).setBit pkPg R.PG_STAT.BUSY true).ok pkPg

/-- SHA (R447). -/
def execSha (_w : Writer) (s : State) : Outcome :=
  if !s.clocked .cry then .next s else if s.locked pkPg then .next (s.refuse pkPg) else .next (s.pkCmd false)
/-- VERIFY_SIGNATURE (R447). -/
def execVerifySignature (_w : Writer) (s : State) : Outcome :=
  if !s.clocked .cry then .next s else if s.locked pkPg then .next (s.refuse pkPg) else .next (s.pkCmd true)

/-- A number of 32 big-endian bytes. -/
def nat32 (l : List Byte) (i : Nat) : Nat := natOfBytes ((l.drop (32 * i)).take 32)

/-- PK_COMMAND_END (R447). -/
def execPkCommandEnd (selfFail : Bool) (s : State) : Outcome :=
  match s.cry.pk with
  | none => .next s
  | some verify =>
    if !s.cryClock then .next s
    else
      let src := s.fld pkPg R.PK.SRC.ADDR
      let s := s.hwRead src (if verify then 160 else s.fld pkPg R.PK.LEN.N)
      let s := (s.setCry fun c => { c with pk := none }).setBit pkPg R.PG_STAT.BUSY false
      if verify then
        let m := s.memBytes src 160
        let s := if selfFail then (s.setFld pkPg R.PK.STAT.RES 3).raise 213 (.page pkPg)
          else s.setFld pkPg R.PK.STAT.RES
            (if ecdsaVerify (nat32 m 0) (nat32 m 1) (nat32 m 2) (nat32 m 3) (nat32 m 4) then 1 else 2)
        .next (s.post 212)
      else
        let d := sha256 (s.memBytes src (s.fld pkPg R.PK.LEN.N))
        let s := (List.range 8).foldl (fun t i => t.setFld pkPg (R.PK.DIG.D i) (leVal ((d.drop (4 * i)).take 4))) s
        .next ((s.setFld pkPg R.PK.STAT.RES 1).post 212)

/-! ## Debug authentication -/

/-- A public key at an offset of OTP reads all 0x00 or all 0xFF (R448, R469). -/
def State.keyBlank (s : State) (off : Nat) : Bool :=
  (s.otpBytes off 64).all (· = 0) || (s.otpBytes off 64).all (· = 0xFF)

/-- DEBUG_ACCESS_REQUEST (R448): the challenge goes out, unless debug is locked out, open, or has no key.
(DEDUCED: log entry 53.) -/
def execDebugAccessRequest (s : State) : Outcome :=
  let st := s.fld daPg R.DA.STAT.ST
  if !s.cryClock ∨ st = 2 ∨ st = 3 ∨ s.keyBlank 0x3E00 then .next s
  else
    let n := s.cry.attempts + 1
    let b := beBytes 8 (s.fld64 0x001 R.SYS.DEVID_LO.ID R.SYS.DEVID_HI.ID) ++ beBytes 8 s.tb ++ beBytes 4 n
    let b := b ++ cmac (deriveKey s.rootKey (List.replicate 32 0x44) 255 true) b
    .next (((s.setCry fun c => { c with challenge := b, attempts := n }).setFld daPg R.DA.STAT.ST 1).emit (.challenge b))

/-- DEBUG_RESPONSE (R448): access opens, or FAILS rises; the third failure locks debug out. (DEDUCED: log entry 53.) -/
def execDebugResponse (r sg : BitVec 256) (s : State) : Outcome :=
  if !s.cryClock ∨ s.fld daPg R.DA.STAT.ST ≠ 1 then .next s
  else
    let k := s.otpBytes 0x3E00 64
    if ecdsaVerify (natOfBytes (sha256 s.cry.challenge)) (nat32 k 0) (nat32 k 1) r.toNat sg.toNat then
      .next ((s.setFld daPg R.DA.STAT.ST 2).post 214)
    else
      let n := s.fld daPg R.DA.STAT.FAILS + 1
      .next (((s.setFld daPg R.DA.STAT.FAILS n).setFld daPg R.DA.STAT.ST (if 3 ≤ n then 3 else 0)).raise 214 (.page daPg))

/-! ## Views -/

/-- CR's status and counter registers, HB and the job bits of CX.STAT, as they read. -/
def State.cryView (s : State) (pg off : Nat) : Word :=
  let w := s.reg pg off
  let c := s.ctrOf (s.fld crPg R.CR.CXSEL.CTX)
  let susp := ((List.range 4).filter fun q => match s.jobOf q with | some j => j.susp | none => false).foldl (fun m q => m + 2 ^ q) 0
  if pg = crPg then
    if off = R.CR.STAT.RUN.off then
      (match s.cry.run with
        | some q => R.CR.STAT.RUNCTX.put (R.CR.STAT.RUNQ.put (R.CR.STAT.RUN.put (R.CR.STAT.SUSP.put w susp) 1) q)
            (((s.jobOf q).map (·.ctx)).getD 0)
        | none => R.CR.STAT.SUSP.put w susp)
    else if off = R.CR.CNT_LO.C.off then BitVec.ofNat 32 c.c
    else if off = R.CR.CNT_HI.C.off then BitVec.ofNat 32 (c.c / 2 ^ 32)
    else if off = R.CR.HWM_LO.P.off then BitVec.ofNat 32 (c.p.getD 0)
    else if off = R.CR.HWM_HI.P.off then BitVec.ofNat 32 (c.p.getD 0 / 2 ^ 32)
    else
      match (List.range 4).find? fun q => off = (R.Q.STAT.HEAD q).off with
      | some q =>
        (match s.jobOf q with
          | some j => BitVec.ofNat 32 (match j.ph with
            | .slotwait => 2
            | .nvwait => 3
            | .started => if j.susp then 5 else if s.cry.run = some q then 4 else 1)
          | none => if s.fld crPg (R.Q.IDX.GET q) = s.fld crPg (R.Q.IDX.PUT q) then 0 else 1)
      | none => w
  else if pg = 0x241 then
    (if off = R.HB.USE.SLOT.off then BitVec.ofNat 32 (s.slotsHeld.foldl (fun m k => m ||| 2 ^ k) 0)
     else if off = R.HB.WAIT.Q.off then
       BitVec.ofNat 32 (((List.range 4).filter fun q => match s.jobOf q with | some j => j.ph = .slotwait | none => false).foldl
         (fun m q => m + 2 ^ q) 0)
     else w)
  else
    match (List.range 32).find? fun i => off = (R.CX.STAT.NVWAIT i).off with
    | some i =>
      let k := 32 * (pg - 0x244) + i
      (R.CX.STAT.NVWAIT i).put w (if (List.range 4).any fun q =>
        match s.jobOf q with | some j => j.ph = .nvwait && j.ctx = k | none => false then 1 else 0)
    | none => w

end Sys2Proof.Machine
end

