-- ==== Sys2Proof/Machine/Flags.lean ====
section
/-! DEFINITION. The status word of a context: when V and DZ set, and the conditions of the compares (R275, R276, R282-R286,
R291). -/

namespace Sys2Proof.Machine

/-- V of an addition: the exact signed sum does not fit (R282). -/
def addOverflows (a b : Word) : Bool := decide ((a + b).toInt ≠ a.toInt + b.toInt)

/-- V of a subtraction (R282). -/
def subOverflows (a b : Word) : Bool := decide ((a - b).toInt ≠ a.toInt - b.toInt)

/-- V of a multiplication: the signed product does not fit in 32 bits (R282). -/
def mulOverflows (a b : Word) : Bool := decide ((a * b).toInt ≠ a.toInt * b.toInt)

/-- V of a division: 0x8000_0000 by 0xFFFF_FFFF (R284). -/
def divOverflows (a b : Word) : Bool := a == 0x80000000#32 && b == 0xFFFFFFFF#32

/-- V and DZ only ever set (R276). -/
def CtxRegs.sticky (r : CtxRegs) (v dz : Bool) : CtxRegs := { r with v := r.v || v, dz := r.dz || dz }

/-- ST as MFS reads it (R291). -/
def CtxRegs.status (r : CtxRegs) : Word := BitVec.ofNat 32 ((if r.v then 1 else 0) + (if r.dz then 2 else 0))

/-- ST as MTS writes it (R291). -/
def CtxRegs.setStatus (r : CtxRegs) (w : Word) : CtxRegs := { r with v := w.getLsbD 0, dz := w.getLsbD 1 }

/-- PV as MFS reads it (R291). -/
def CtxRegs.predicates (r : CtxRegs) : Word := BitVec.ofNat 32 (r.p % 256 / 2 * 2 + 1)

/-- PV as MTS writes it (R291). -/
def CtxRegs.setPredicates (r : CtxRegs) (w : Word) : CtxRegs := { r with p := w.toNat % 256 / 2 * 2 }

/-- The conditions of CMP and CMPI (R286). -/
def CtxRegs.condition (r : CtxRegs) (cond : Fin 14) (a b : Word) : Bool :=
  match cond with
  | 0 => a == b
  | 1 => a != b
  | 2 => a.slt b
  | 3 => b.sle a
  | 4 => a.sle b
  | 5 => b.slt a
  | 6 => a.ult b
  | 7 => b.ule a
  | 8 => a.ule b
  | 9 => b.ult a
  | 10 => a &&& b != 0
  | 11 => a &&& b == 0
  | 12 => r.v
  | 13 => r.dz

/-- The predicate operations of PRED (R287). -/
def predOp (op : Fin 7) (a b : Bool) : Bool :=
  match op with
  | 0 => a && b
  | 1 => a || b
  | 2 => xor a b
  | 3 => a && !b
  | 4 => !a
  | 5 => true
  | 6 => false

end Sys2Proof.Machine
end

