-- ==== Sys2Proof/Machine/Operands.lean ====
section
/-! DEFINITION. The operand forms of PX32: immediates, shift amounts, register pairs, effective addresses, event numbers
(R281, R283, R285, R288, R289, R296, R297), and the results of the ALU that are not operators of words (R282, R283). -/

namespace Sys2Proof.Machine

/-! ## Immediates and pairs -/

/-- A signed immediate (R281). -/
def sext {n : Nat} (imm : BitVec n) : Word := imm.signExtend 32

/-- An immediate that is not signed (R281). -/
def zext {n : Nat} (imm : BitVec n) : Word := imm.zeroExtend 32

/-- {g(rt+1), g(rt)} (R290, R297). -/
def CtxRegs.pair (r : CtxRegs) (rt : Nat) : Nat := (r.get (rt + 1)).toNat * 2 ^ 32 + (r.get rt).toNat

/-- The event number of a WAIT.EV or SEND.EV (R296, R297). -/
def CtxRegs.eventOf (r : CtxRegs) (n : EvSrc) : Nat :=
  match n with
  | .imm e => e.toNat
  | .reg a => (r.get a).toNat % 1024

/-- The register that an event number comes from. -/
def evRegs (n : EvSrc) : List Nat :=
  match n with
  | .imm _ => []
  | .reg a => [a]

/-- The target of BR and CALL (R289). -/
def CtxRegs.relTarget (r : CtxRegs) (off : BitVec 22) : Word := r.pc + 4#32 * sext off

/-! ## Widths and addresses -/

/-- The bytes of an access by its width code (R288). -/
def widthBytes (w : Nat) : Nat := if w < 2 then 1 else if w < 4 then 2 else 4

/-- The value that a load of a width code gives from its bytes (R288). -/
def widen (w v : Nat) : Nat :=
  if w = 0 then ((BitVec.ofNat 8 v).signExtend 32).toNat
  else if w = 1 then v % 2 ^ 8
  else if w = 2 then ((BitVec.ofNat 16 v).signExtend 32).toNat
  else if w = 3 then v % 2 ^ 16
  else v % 2 ^ 32

/-- The effective address of LD and ST: ra + sext(off9) * size (R288). -/
def CtxRegs.effective (r : CtxRegs) (ra w : Nat) (off : BitVec 9) : Nat :=
  (r.get ra + sext off * BitVec.ofNat 32 (widthBytes w)).toNat

/-- The load width code of a string element (R300). -/
def elemWidth (sz : Nat) : Nat := if sz = 0 then 1 else if sz = 1 then 3 else 4

/-! ## Shifts, counts and the CRC -/

/-- The shift operations by their SHI codes; the amount is not masked (R283). -/
def shiftOp (op : Fin 5) (a : Word) (sh : Nat) : Word :=
  match op with
  | 0 => if 32 ≤ sh then 0 else a <<< sh
  | 1 => if 32 ≤ sh then 0 else a >>> sh
  | 2 => a.sshiftRight (min sh 31)
  | 3 => a.rotateLeft (sh % 32)
  | 4 => a.rotateRight (sh % 32)

/-- The shift amount in a register: bits [7:0] (R283). -/
def shiftAmount (b : Word) : Nat := b.toNat % 256

/-- The number of leading zeros, 0-32 (R282). -/
def leadingZeros (a : Word) : Nat := if a = 0 then 32 else 31 - a.toNat.log2

/-- The number of 1 bits (R282). -/
def onesOf (a : Word) : Nat := ((List.range 32).filter a.getLsbD).length

/-- The high half of the signed product (R282). -/
def mulHigh (a b : Word) : Word := BitVec.ofInt 32 (a.toInt * b.toInt / 2 ^ 32)

/-- The high half of the unsigned product (R282). -/
def mulHighU (a b : Word) : Word := BitVec.ofNat 32 (a.toNat * b.toNat / 2 ^ 32)

/-- One bit of a reflected CRC (R302). -/
def crcBit (poly a : Word) : Word := if a.getLsbD 0 then (a >>> 1) ^^^ poly else a >>> 1

/-- One bit of CRC-16-CCITT (R302). -/
def ccittBit (a : Word) : Word :=
  let b := (a <<< 1) &&& 0xFFFF#32
  if a.getLsbD 15 then b ^^^ 0x1021#32 else b

/-- `n` steps of a bit. -/
def steps (f : Word → Word) : Nat → Word → Word
  | 0, a => a
  | n + 1, a => steps f n (f a)

/-- The CRC step of a byte by its code (R302). -/
def crcsStep (sz : Fin 3) (acc b : Word) : Word :=
  match sz with
  | 0 => steps (crcBit 0x82F63B78#32) 8 (acc ^^^ b)
  | 1 => steps (crcBit 0xEDB88320#32) 8 (acc ^^^ b)
  | 2 => steps ccittBit 8 (acc ^^^ (b <<< 8)) &&& 0xFFFF#32

end Sys2Proof.Machine
end

