-- ==== Sys2Proof/Machine/Release.lean ====
section
/-! DEFINITION. The order of a context's accesses (R292-R294, R296), and the requests of a core that complete within its pair:
accesses to its own local SRAM, and postings, which leave with the release of R309. -/

namespace Sys2Proof.Machine

/-! ## The core's own local SRAM -/

/-- An address in register-page space or in the link window (R257). -/
def isPageSpace (a : Nat) : Bool := decide (0x40000000 ≤ a) && decide (a ≤ 0x41FFFFFF)

/-- An address in the own local SRAM of a logical core (R256, R257). (DEDUCED: log entry 10.) -/
def ownLocal (n a : Nat) : Bool := decide (0x18000000 + 0x10000 * n ≤ a) && decide (a < 0x18010000 + 0x10000 * n)

/-! ## The order of accesses (R292-R294, R296) -/

/-- Two accesses share a byte. -/
def Op.overlaps (o q : Op) : Bool :=
  decide (o.addr < q.addr + widthBytes q.w) && decide (q.addr < o.addr + widthBytes o.w)

/-- Whether the earlier access `q` of the same context must be performed before `o`: accesses to pages and the window are
strongly ordered (R293), stores are performed in program order, and so is a load against stores of its bytes (R292); a posting
leaves after every earlier store (R296). -/
def Op.after (o q : Op) : Bool :=
  match o.kind, q.kind with
  | _, .post => o.kind = .post
  | .post, .store => true
  | .post, _ => false
  | .store, .store => true
  | .load, .load => isPageSpace o.addr || isPageSpace q.addr
  | _, _ => isPageSpace o.addr || isPageSpace q.addr || o.overlaps q

/-- An operation may be performed now. (DESIGN CHOICE: log entry 11.) -/
def State.orderly (s : State) (o : Op) : Bool := s.ops.all fun q => !(q.ctx = o.ctx && decide (q.id < o.id) && o.after q)

/-! ## What a core performs itself -/

/-- The access to the own local SRAM itself: the state after it, the value of a load, and whether its word is uncorrectable
(R258, R263, R335, R345). -/
def State.touchMem (s : State) (o : Op) (p nsym : Nat) : State × Nat × Bool :=
  let n := widthBytes o.w
  if o.kind = .load then (let r := s.memRead p nsym none; (r.1, widen o.w (r.1.readLe p n), r.2))
  else (s.setLe p n (o.data % 256 ^ n), 0, false)

/-- An operation that holds no slot is performed and completes; a posting leaves (R263, R264, R296).
(DEDUCED: log entry 10.) -/
def State.performOwn (s : State) (o : Op) (nsym : Nat) : State :=
  match o.kind with
  | .post => (s.postFrom (Island.cp (s.pairOfCore (o.ctx / 32))).index o.data).opDone o 0 false false
  | _ => match s.placeOf o.addr with
    | none => s.opDone o 0 false false
    | some p => let r := s.touchMem o p nsym; r.1.opDone o r.2.1 r.2.2 false

/-- An operation of a core that needs no completion of its own and may be performed: in order, and, but for a load, released
(R263, R296, R309). -/
def State.mayPerform (s : State) (n : Nat) (o : Op) : Bool :=
  o.ctx / 32 = n && !o.slot && s.orderly o && (o.kind = .load || s.released n o.id)

/-- The operations of a core that need no completion of their own are performed as soon as they may.
(DEDUCED: log entry 10.) -/
def State.flush (s : State) (n : Nat) : Nat → State
  | 0 => s
  | m + 1 =>
    match s.ops.find? (s.mayPerform n) with
    | none => s
    | some o => State.flush (s.performOwn o 0) n m

/-- Entries leave the release buffer of a core, `rest` stays (R309, R312): their commits are confirmed, what needs no completion of
its own is performed, and contexts that waited for it go on (R262, R294). -/
def State.leaves (s : State) (n : Nat) (out rest : List BufEnt) : State :=
  if out = [] then s
  else
    let s := (s.setLc n { s.lcAt n with buf := rest }).confirmAll out
    let t := s.flush n s.ops.length
    if t.ops.length = s.ops.length then t
    else (((List.range 32).map (32 * n + ·)).foldl State.fenceDone t).wakeOps n

/-- Everything in the release buffer of a core is released (R309). -/
def State.releaseAll (s : State) (n : Nat) : State := s.leaves n (s.lcAt n).buf []

/-- What a core issued at an earlier tick has compared equal since, whether or not it has issued anything after it (R309).
(DEDUCED: log entry 10.) -/
def State.releaseDue (s : State) (n : Nat) : State :=
  s.leaves n ((s.lcAt n).buf.filter fun e => decide (e.tick < s.kaNow)) ((s.lcAt n).buf.filter fun e => !decide (e.tick < s.kaNow))

/-- The same for every core. -/
def State.releaseDueAll (s : State) : State := (List.range 16).foldl State.releaseDue s

/-- A request is released, after all that its core issued before it (R309). (DEDUCED: log entry 10.) -/
def State.releaseTo (s : State) (n id : Nat) : State :=
  let b := (s.lcAt n).buf
  if s.released n id then s
  else s.leaves n (b.take ((b.takeWhile fun e => !e.isReq id).length + 1)) (b.drop ((b.takeWhile fun e => !e.isReq id).length + 1))

end Sys2Proof.Machine
end

