-- ==== Sys2Proof/Machine/Lockstep.lean ====
section
/-! DEFINITION. Lock-step pairs (R307-R329): pair faults, takeovers, redistribution and self-tests. -/

namespace Sys2Proof.Machine

/-- The roles of a pair (R254). -/
def roleFailed : Nat := 0
/-- ACTIVE. -/
def roleActive : Nat := 1
/-- SPARE. -/
def roleSpare : Nat := 2
/-- TEST. -/
def roleTest : Nat := 3

/-- CORE page of a pair. -/
def corePg (p : Nat) : Nat := 0x020 + p

/-- Give a pair a role. -/
def State.setRole (s : State) (p r : Nat) : State := s.setFld (corePg p) R.CORE.STAT.ROLE r

/-- The logical cores a pair serves (R255, R256). -/
def State.coresOf (s : State) (p : Nat) : List Nat := (List.range 16).filter fun n => s.coreExists n && s.pairOfCore n = p

/-- The SPARE pairs no takeover has taken. -/
def State.spares (s : State) : List Nat :=
  (List.range 10).filter fun p => s.role p = roleSpare && !(s.takeovers.any fun t => t.spare = p)

/-- A pair becomes FAILED (R323): it waits to be added to the runtime repair map. -/
def State.failPair (s : State) (p : Nat) : State :=
  (s.setRole p roleFailed).queueRepair (.pair p)

/-- A pair is retired (R321, R323): it enters TEST, or with its third retirement FAILED with THIRD. -/
def State.retire (s : State) (p : Nat) : State :=
  let n := tget (fun _ => 0) s.retired p + 1
  let s := { s with retired := tset (fun _ => 0) s.retired p n }
  if 3 ≤ n then (s.failPair p).detect (corePg p) 4 else s.setRole p roleTest

/-! ## Pairless cores -/

/-- A core loses its pair; its local SRAM stays where it is (R326, R329). (DEDUCED: log entry 28.) -/
def State.makePairless (s : State) (n : Nat) : State :=
  let m := s.localMacro n
  { s with
    lcSram := tset (fun _ => 24) s.lcSram n m
    lcMap := if n < 8 then tset (fun k => if k < 8 then k else 15) s.lcMap n 15 else s.lcMap }

/-- Every context of a core is HALTED at its committed state (R326, R329). -/
def State.haltCore (s : State) (n : Nat) : State :=
  (List.range 32).foldl (fun t i => (t.modCx (32 * n + i) fun r => { r with drain := false, deadline := none }).toSt (32 * n + i) .halted)
    ((List.range 32).foldl (fun t i => t.modCtx (32 * n + i) fun c => { c with fence := false, slotRes := false })
      (s.setLc n { s.lcAt n with cur := none, stopped := false }))

/-- Where a context that moves goes (R326): the lowest-indexed OFF context among 0-30 of the core with a pair and the most of
them, the lowest-numbered of equals. (DEDUCED: log entry 28.) -/
def State.moveTarget (s : State) : Option Nat :=
  let offs := fun n => (List.range 31).filter fun i => (s.cx (32 * n + i)).st = .off
  let cores := (List.range 16).filter fun n => s.coreExists n && s.pairOfCore n ≠ 15
  let top := cores.foldl (fun m n => max m (offs n).length) 0
  match cores.find? fun n => (offs n).length = top && 0 < top with
  | some n => ((offs n).head?).map (32 * n + ·)
  | none => none

/-- A context moves to another number with its committed state and journal; a wait is abandoned and executed again (R326). -/
def State.moveCtx (s : State) (k j : Nat) : State :=
  let c := s.ctxAt k
  let again := fun (r : CtxRegs) =>
    if r.st = .waitev ∨ r.st = .waitt then { r with deadline := none, st := .ready } else { r with deadline := none }
  let c := { c with now := again c.now, com := again c.com, olds := c.olds.map again }
  let s := { s with ops := s.ops.map fun (o : Op) => if o.ctx = k then { o with ctx := j } else o }
  ((s.setCtx j c).setCtx k { (ctxDflt k) with now := { ctvec := (ctxDflt k).now.ctvec } }).wakeOps (j / 32)

/-- Redistribution (R326): the cores of a pair become pairless, their migratable contexts move, the rest is HALTED.
(DEDUCED: log entry 28.) -/
def State.redistribute (s : State) (p : Nat) : State :=
  let cores := s.coresOf p
  let s := cores.foldl State.makePairless s
  let movers := cores.flatMap fun n => ((List.range 31).map (32 * n + ·)).filter fun k =>
    (s.cx k).mig && (s.cx k).st ≠ .off
  let ordered := (List.range 16).reverse.flatMap fun pri => movers.filter fun k => (s.cx k).pri = pri
  let (s, stuck) := ordered.foldl (fun (a : State × Bool) k =>
    match a.1.moveTarget with
    | some j => (a.1.moveCtx k j, a.2)
    | none => (a.1, true)) (s, false)
  let s := cores.foldl State.haltCore s
  let s := s.post 16
  if stuck then s.detectAs lcmPg 3 [19] (.val (BitVec.ofNat 32 p)) else s

/-! ## The windows of the LCM page -/

/-- The selected context exists. -/
def State.cselOk (s : State) (k : Nat) : Bool := s.coreExists (k / 32)

/-- Write a word of the LCM page's windows: CCFG, CENTRY and CTVEC of the selected context, EPEND (R266, R271). -/
def State.lcmWrite (s : State) (off : Nat) (d : Word) : State :=
  let k := s.fld lcmPg R.LCM.CSEL.CTX
  if off = R.LCM.CCFG.PRI.off then
    ((s.modCxAll k fun r => { r with pri := R.LCM.CCFG.PRI.get d, mig := R.LCM.CCFG.MIG.get d = 1 }).ok lcmPg).schedule (k / 32)
  else if off = R.LCM.CENTRY.PC.off then (s.modCxAll k fun r => { r with centry := d &&& 0xFFFFFFFC }).ok lcmPg
  else if off = R.LCM.CTVEC.PC.off then (s.modCxAll k fun r => { r with ctvec := d &&& 0xFFFFFFFC }).ok lcmPg
  else if off = R.LCM.EPEND.PEND.off then
    let n := s.fld lcmPg R.LCM.ESEL.CORE
    let l := s.lcAt n
    let m := d.toNat * 2 ^ (32 * s.fld lcmPg R.LCM.ESEL.WORD)
    (s.setLc n { l with pend := l.pend ^^^ (l.pend &&& m) }).ok lcmPg
  else if off = R.LCM.CSEL.CTX.off then
    (if s.cselOk (R.LCM.CSEL.CTX.get d) then (s.setFld lcmPg R.LCM.CSEL.CTX (R.LCM.CSEL.CTX.get d)).ok lcmPg else s.range lcmPg)
  else if off = R.LCM.ESEL.WORD.off then
    (if s.coreExists (R.LCM.ESEL.CORE.get d) then
      ((s.setFld lcmPg R.LCM.ESEL.CORE (R.LCM.ESEL.CORE.get d)).setFld lcmPg R.LCM.ESEL.WORD (R.LCM.ESEL.WORD.get d)).ok lcmPg
     else s.range lcmPg)
  else s.ctxCmd (R.LCM.CCMD.OP.get d)

/-- The logical core that an access to a window of the LCM page addresses, `d` the word written or read (R270, R271). -/
def State.lcmCore (s : State) (off : Nat) (d : Word) : Nat :=
  if off = R.LCM.CSEL.CTX.off then R.LCM.CSEL.CTX.get d / 32
  else if off = R.LCM.ESEL.CORE.off then R.LCM.ESEL.CORE.get d
  else if off = R.LCM.EPEND.PEND.off then s.fld lcmPg R.LCM.ESEL.CORE
  else s.fld lcmPg R.LCM.CSEL.CTX / 32

/-- The core that an access to a window of the LCM page addresses moves, or the pair does in whose island the page lies (R272, R322).
(DEDUCED: log entry 28.) -/
def State.lcmMoves (s : State) (off : Nat) (d : Word) : Bool :=
  s.moving (s.lcmCore off d) || (List.range 16).any fun n => s.moving n && s.pairOfCore n = s.lcmPair

/-- An access to a window of the LCM page is held while what it addresses moves, and behind those held before it (R322). -/
def State.lcmHolds (s : State) (off : Nat) (d : Word) : Bool :=
  decide (R.LCM.CSEL.CTX.off ≤ off) && decide (off ≤ R.LCM.EPEND.PEND.off) && (s.lcmHeld ≠ [] || s.lcmMoves off d)

/-- A write of a window of the LCM page is held (R322). -/
def State.lcmHold (s : State) (w : Writer) (off : Nat) (d : Word) : State := { s with lcmHeld := s.lcmHeld ++ [(w, off, d)] }

/-- The writes held are performed in order, up to one whose core moves still (R322). (DEDUCED: log entry 28.) -/
def State.lcmReplay : Nat → State → State
  | 0, s => s
  | n + 1, s =>
    match s.lcmHeld with
    | [] => s
    | h :: hs =>
      if s.lcmMoves h.2.1 h.2.2 then s
      else
        let s : State := { s with lcmHeld := hs }
        State.lcmReplay n (if s.locked lcmPg then s.refuse lcmPg else s.lcmWrite h.2.1 h.2.2)

/-! ## Takeovers -/

/-- What a core that moved held meets it (R322): its pending vector takes the postings collected, and context 31 an NMT. With no
spare left it is stopped (R325). -/
def State.coreLand (s : State) (stop : Bool) (n : Nat) : State :=
  let l := s.lcAt n
  let s := s.setLc n { l with coll := [], collNmt := false, stopped := stop }
  let s := l.coll.foldl (fun t e => t.arrive n e) s
  ((if l.collNmt then s.takeNmt n else s).wakeOps n)

/-- The device is in RUN (R454). -/
def State.toRun (s : State) : State :=
  if s.power = .doze then ({ s with power := .run } : State).setFld 0x005 R.PMU.MODE.MODE 0 else s

/-- A takeover whose step 1 was at tick `start` takes the lowest-numbered SPARE, and ends DOZE (R320, R321, R454); without a spare the pair fault
raises source 19 and its cores stop (R325). (DEDUCED: log entry 28.) -/
def State.takeoverOn (s : State) (pair : Option Nat) (cores : List Nat) (start : Nat) : State :=
  match s.spares with
  | q :: _ => ({ s with takeovers := [⟨pair, cores, q, start⟩] } : State).toRun
  | [] =>
    match pair with
    | some p => (cores.foldl (State.coreLand · true) (s.retire p)).detectAs lcmPg 2 [19] (.val (BitVec.ofNat 32 p))
    | none => cores.foldl (State.coreLand · false) s

/-- A takeover starts, or waits behind one in progress (R320-R322). One of pairless cores is a placement change too: their
contexts' epochs rise as it starts (R319, R328). (DEDUCED: log entry 28.) -/
def State.takeoverStart (s : State) (pair : Option Nat) (cores : List Nat) : State :=
  if s.takeovers ≠ [] then { s with tkWait := s.tkWait ++ [(pair, cores)] }
  else (if pair = none ∧ s.spares ≠ [] then cores.foldl (fun t n => (t.releaseAll n).rollbackCore n) s else s).takeoverOn pair cores s.tb

/-- The pair faults that wait meet the spares in turn, until one of them is taken over (R322, R325). -/
def State.takeWaiting : Nat → State → State
  | 0, s => s
  | n + 1, s =>
    if s.takeovers ≠ [] then s
    else match s.tkWait with
      | [] => s
      | w :: ws => State.takeWaiting n (({ s with tkWait := ws } : State).takeoverStart w.1 w.2)

/-- After a takeover has ended: the next that waits starts, and what was held for cores that move no longer is performed (R322). -/
def State.nextTakeover (s : State) : State :=
  let s := State.takeWaiting s.tkWait.length s
  State.lcmReplay s.lcmHeld.length s

/-- What retires a pair (R320). -/
inductive PairCause where
  | mismatch | invalid | clock | request
  deriving DecidableEq, Repr

/-- A pair leaves service (R310, R311, R320): both copies stop, what is unreleased is discarded, the contexts roll back, and
the takeover begins. A split pair is retired by a request only; on loss of its clock its cores become pairless (R329). A
spare that fails under the takeover gives way to the next one (R322). What a core issued before the tick of the fault has
compared equal by then; what is left is discarded with the commits that follow it, on a mismatch from the first item that the
copies did not agree on (R309, R310, R312, R316). (DEDUCED: log entry 28.) -/
def State.pairFault (s : State) (p : Nat) (why : PairCause) (drop : Nat) (undo : Nat → Bool) : State :=
  let spareHit := s.takeovers.any fun t => t.spare = p
  if spareHit ∧ (why = .clock ∨ why = .invalid) then
    let s := if why = .invalid then (s.detect (corePg p) 2).count (corePg p) 0 else s
    let s := s.retire p
    match s.takeovers with
    | t :: ts => (({ s with takeovers := ts } : State).takeoverOn t.pair t.cores t.start).nextTakeover
    | [] => s
  else if s.role p = roleSpare ∧ why = .clock then s.retire p
  else if s.role p ≠ roleActive ∨ (s.takeovers.any fun t => t.pair = some p) ∨ (s.tkWait.any fun t => t.1 = some p) then s
  else
    let cores := s.coresOf p
    let s := s.releaseDueAll
    let keep := fun (t : State) n => if why = .mismatch ∨ why = .invalid then agreedLen undo drop (t.lcAt n).buf else 0
    let stop := fun (t : State) n => ((t.dropFrom n (keep t n)).releaseAll n).rollbackCore n
    if s.runsSplit p ∧ why = .clock then
      let s := cores.foldl stop s
      let s := s.retire p
      cores.foldl State.haltCore (cores.foldl State.makePairless s)
    else if s.runsSplit p ∧ why ≠ .request then s
    else
      let s : State := match why with
        | .mismatch => (s.detect (corePg p) 1).count (corePg p) 0
        | .invalid => (s.detect (corePg p) 2).count (corePg p) 0
        | _ => s
      let s := cores.foldl stop s
      s.takeoverStart (some p) cores

/-- MISMATCH (R308, R310). (DESIGN CHOICE: log entry 12.) -/
def execMismatch (p : Fin 10) (drop : Nat) (undo : BitVec 32) (s : State) : Outcome :=
  .next (s.pairFault p .mismatch drop undo.getLsbD)

/-- INVALID_COMPARATOR_CODE (R311). -/
def execInvalidComparatorCode (p : Fin 10) (drop : Nat) (undo : BitVec 32) (s : State) : Outcome :=
  .next (s.pairFault p .invalid drop undo.getLsbD)

/-- Copy the bytes and poison marks of a local macro into another (R321, R346). -/
def State.copyMacro (s : State) (a b : Nat) : State :=
  if a = b then s
  else
    let s := s.hwFind fun w => placeMacro (w * 32) = a
    let mv := fun (p : Nat) => p % 0x1000000 + b * 0x1000000
    let src : List (Nat × Byte) := s.mem.filter fun (e : Nat × Byte) => decide (placeMacro e.1 = a)
    let mem : List (Nat × Byte) := s.mem.filter fun (e : Nat × Byte) => decide (placeMacro e.1 ≠ b)
    { s with
      symErr := s.symErr.filter fun e => placeMacro (e.1 * 32) ≠ b
      mem := src.foldl (fun (m : Tab Byte) (e : Nat × Byte) => tset memDefault m (mv e.1) e.2) mem
      poison := (s.poison.filter fun w => placeMacro (w * 32) ≠ b) ++
        ((s.poison.filter fun w => placeMacro (w * 32) = a).map fun w => mv (w * 32) / 32) }

/-- A gated or stopped CP island of the spare restarts; its CLK.GATE bit clears in the live value and the sketch (R107,
R321). -/
def State.spareClock (s : State) (q : Nat) : State :=
  let b : Word := 1 <<< (2 + q)
  let key := regKey 0x004 R.CLK.GATE.G.off
  let s := s.setReg 0x004 R.CLK.GATE.G.off (s.reg 0x004 R.CLK.GATE.G.off &&& ~~~ b)
  let s := { s with sketch := s.sketch.map fun (e : Nat × Option Word) => if e.1 = key then (e.1, e.2.map (· &&& ~~~ b)) else e }
  if s.clkDead.contains (2 + q) then
    let s := { s with clkDead := s.clkDead.filter (· ≠ 2 + q) }
    (s.setReg 0x004 R.CLK.LOCK.L.off (s.reg 0x004 R.CLK.LOCK.L.off ||| b)).post 5
  else s

/-- Steps 3 to 6 of R321: the spare is loaded and serves the cores; event 16; the retired pair enters TEST; source 18 with
the last spare. (DEDUCED: log entry 28.) -/
def State.takeoverEnd (s : State) (t : Takeover) : State :=
  let q := t.spare
  let s := t.cores.foldl (fun u n => u.copyMacro (u.localMacro n) (24 + 2 * q + n / 8)) s
  let s := (s.spareClock q).setRole q roleActive
  let s := t.cores.foldl (fun (u : State) n => { u with
    lcMap := tset (fun k => if k < 8 then k else 15) u.lcMap (n % 8) q, lcSram := tset (fun _ => 24) u.lcSram n 24 }) s
  let s := { s with takeovers := s.takeovers.tail, icache := tset (fun _ => []) s.icache q [], icBad := tset (fun _ => []) s.icBad q [] }
  let s := s.setFld lcmPg R.PG_STAT.BLK (min 0xFFFF ((s.tb - t.start) / 100))
  let s := t.cores.foldl (State.coreLand · false) s
  let s := s.post 16
  let s : State := match t.pair with | some p => s.retire p | none => s
  let s := if s.spares = [] then s.detect lcmPg 1 else s
  s.nextTakeover

/-- Every takeover that runs or waits completes at once, as under a chip reset (R322). -/
def State.takeoversFlush : Nat → State → State
  | 0, s => s
  | n + 1, s => match s.takeovers with | t :: _ => State.takeoversFlush n (s.takeoverEnd t) | [] => s

/-! ## Self-tests -/

/-- A self-test's outcome in CORE.TEST and the counters (R323, R324). -/
def State.selfTest (s : State) (p : Nat) (pass : Bool) (ms : Nat) : State :=
  let s := (s.setFld (corePg p) R.CORE.TEST.DUR ms).setFld (corePg p) R.CORE.TEST.RES (if pass then 1 else 2)
  if pass then (s.count (corePg p) 1).post 17
  else (((s.failPair p).detect (corePg p) 3).count (corePg p) 2).post 17

/-- SELF_TEST_END (R323): outside PARK; a pair without a clock does not pass. (DESIGN CHOICE: log entry 74.) -/
def execSelfTestEnd (p : Fin 10) (pass : Bool) (ms : BitVec 16) (s : State) : Outcome :=
  if s.role p = roleTest ∧ s.power ≠ .park then
    let good := pass && s.clocked (.cp p)
    let s := s.selfTest p good ms.toNat
    .next (if good then { (s.setRole p roleSpare) with testAt := tset (fun _ => 0) s.testAt p s.tb } else s)
  else .next s

/-- SPARE_SELF_TEST (R107, R324, R453): a clocked SPARE pair outside DOZE that no takeover has taken, every 10 s.
(DESIGN CHOICE: log entry 74.) -/
def execSpareSelfTest (p : Fin 10) (pass : Bool) (ms : BitVec 16) (s : State) : Outcome :=
  if s.spares.contains p.val ∧ s.clocked (.cp p) ∧ s.power = .run then
    s.atTick (tget (fun _ => 0) s.testAt p + 1000000000) fun s =>
      State.selfTest { s with testAt := tset (fun _ => 0) s.testAt p s.tb } p pass ms.toNat
  else .next s

/-! ## Views -/

/-- The registers of a CORE page, and of the LCM page, as they read (the CORE and LCM field tables). -/
def State.coreView (s : State) (p off : Nat) : Word :=
  if off = R.CORE.STAT.ROLE.off then
    let act := decide (s.role p = roleActive)
    let lc := if act then ((s.coresOf p).head?).getD 0x1F else 0x1F
    R.CORE.STAT.LC.put (R.CORE.STAT.SPLIT.put (s.reg (corePg p) off) (if s.runsSplit p then 1 else 0)) lc
  else s.reg (corePg p) off

/-- A mask of the pairs with a role. -/
def State.roleMask (s : State) (r : Nat) : Nat := ((List.range 10).filter fun p => s.role p = r).foldl (fun m p => m + 2 ^ p) 0

/-- The LCM page (R254-R271). -/
def State.lcmView (s : State) (off : Nat) : Word :=
  let k := s.fld lcmPg R.LCM.CSEL.CTX
  let r := s.cx k
  let b := fun (x : Bool) => if x then 1 else 0
  if off = 0x100 then (List.range 8).foldl (fun w n => (R.LCM.MAP.PAIR n).put w (s.pairOf n)) 0
  else if off = R.LCM.SPARE.SPARE.off then
    R.LCM.SPARE.FAILED.put (R.LCM.SPARE.SPARE.put 0 (s.roleMask roleSpare)) (s.roleMask roleFailed)
  else if off = R.LCM.CCFG.PRI.off then R.LCM.CCFG.MIG.put (R.LCM.CCFG.PRI.put 0 r.pri) (b r.mig)
  else if off = R.LCM.CENTRY.PC.off then r.centry
  else if off = R.LCM.CTVEC.PC.off then r.ctvec
  else if off = R.LCM.CSTAT.STATE.off then
    let st : Nat := match r.st with
      | .off => 0 | .ready => 1 | .run => 2 | .waitev => 3 | .waitt => 4 | .opwait => 5 | .halted => 6
    let w := R.LCM.CSTAT.OPS.put (R.LCM.CSTAT.EVT.put 0 (if r.st = .waitev then r.evt else 0)) (s.slotsOf k)
    let w := R.LCM.CSTAT.DRAIN.put (R.LCM.CSTAT.NMODE.put w (b r.nmode)) (b r.drain)
    R.LCM.CSTAT.STATE.put (R.LCM.CSTAT.TMODE.put (R.LCM.CSTAT.DBL.put w (b r.dbl)) (b r.tmode)) st
  else if off = R.LCM.CTPC.PC.off then r.ctpc
  else if off = R.LCM.CTCAUSE.CAUSE.off then BitVec.ofNat 32 r.ctcause.toNat
  else if off = R.LCM.CTVAL.VAL.off then r.ctval
  else if off = R.LCM.CNPC.PC.off then r.cnpc
  else if off = R.LCM.EPEND.PEND.off then
    BitVec.ofNat 32 ((s.lcAt (s.fld lcmPg R.LCM.ESEL.CORE)).pend / 2 ^ (32 * s.fld lcmPg R.LCM.ESEL.WORD))
  else s.reg lcmPg off

/-- A write of LCM.CCMD (R270); without its island's clock it does not arrive. -/
def State.ccmd (s : State) (w : Writer) (op : Nat) : State :=
  if s.lcmHolds R.LCM.CCMD.OP.off 0 then s.lcmHold w R.LCM.CCMD.OP.off (BitVec.ofNat 32 op)
  else if !s.clocked (s.islandOf lcmPg) then s
  else if s.locked lcmPg then s.refuse lcmPg
  else s.ctxCmd op

/-- START (R270). -/
def execStart (w : Writer) (s : State) : Outcome := .next (s.ccmd w 1)
/-- HALT (R270). -/
def execHalt (w : Writer) (s : State) : Outcome := .next (s.ccmd w 2)
/-- RESUME (R270). -/
def execResume (w : Writer) (s : State) : Outcome := .next (s.ccmd w 3)

/-- A journal entry of a core that moves proves uncorrectable: its word of macro 45 is found so, and the entry is poisoned (R317,
R346). -/
def State.badEntry (s : State) (cores : List Nat) (id off : Nat) : State :=
  let ks := cores.flatMap fun n => (List.range 32).map (32 * n + ·)
  match ks.find? fun k => (s.ctxAt k).replay.any (·.id = id) with
  | none => s
  | some k => (s.memUe (place 45 off) none).modCtx k fun c =>
    { c with replay := c.replay.map fun e => if e.id = id then { e with poisoned := true } else e }

/-- TAKEOVER_COMPLETE (R321, R322, R346): what proves uncorrectable in the context store and the journals counts first; then
steps 3 to 6, and the LCM writes held. -/
def execTakeoverComplete (badCtx : List (BitVec 9 × BitVec 17)) (badEnt : List (Nat × BitVec 17)) (s : State) : Outcome :=
  match s.takeovers with
  | [] => .next s
  | t :: _ =>
    if !s.clocked .mem then .next s
    else
      let s := badEnt.foldl (fun u b => u.badEntry t.cores b.1 b.2.toNat) s
      let s := badCtx.foldl (fun u e =>
        if t.cores.contains (e.1.toNat / 32) then u.memUe (place 45 e.2.toNat) (some e.1.toNat) else u) s
      .next (s.takeoverEnd t)

end Sys2Proof.Machine
end

