-- ==== Sys2Proof/Machine/HighSide.lean ====
section
/-! DEFINITION. The high-side load switches: the chain on a channel or gang, activation and envelope, retry windows
(R108-R128), and the commands of the load-switch chapter. -/

namespace Sys2Proof.Machine

/-- A channel's record. -/
def State.hsAt (s : State) (n : Nat) : Hs := tget (fun _ => {}) s.hs n

/-- Replace a channel's record. -/
def State.setHs (s : State) (n : Nat) (v : Hs) : State := { s with hs := tset (fun _ => {}) s.hs n v }

/-- The page of a channel. -/
def hsPg (n : Nat) : Nat := 0x100 + n

/-- The bank folder of a channel. -/
def hsBank (n : Nat) : Nat := 0x0F0 + n / 8

/-- Heavy channels are HS0 to HS15 (R108). -/
def hsHeavy (n : Nat) : Bool := n < 16

/-- The power die of a channel: banks 0 to 2 on P1, 3 to 5 on P2 (R108). -/
def hsDie (n : Nat) : Nat := if n < 24 then 0 else 1

/-- The gang number of a channel (R124). -/
def State.gid (s : State) (n : Nat) : Nat := s.fld (hsBank n) (R.BANK.GANG.GID (n % 8))

/-- The channels of a unit: the members of the channel's gang, lowest first, or the channel alone (R124). -/
def State.hsUnit (s : State) (n : Nat) : List Nat :=
  if s.gid n = 0 then [n]
  else ((List.range 8).map (n / 8 * 8 + ·)).filter fun m => s.gid m = s.gid n

/-- The leader of a unit (R124). (DESIGN CHOICE: log entry 34.) -/
def State.hsLead (s : State) (n : Nat) : Nat := (s.hsUnit n).headD n

/-- The palette entry a channel names. -/
def State.hsPal (s : State) (n : Nat) : Nat := s.fld (hsPg n) R.HS.CFG.PAL

/-- A field of a palette entry. -/
def State.palFld (s : State) (e : Nat) (f : Nat → Fld) : Nat := s.fld 0x130 (f e)

/-- NBP of a channel's entry. -/
def State.hsNbp (s : State) (n : Nat) : Nat := s.palFld (s.hsPal n) R.PAL.CFG.NBP

/-- End of breakpoint `k` of a channel's entry, in ticks: T is in 100 us units. -/
def State.hsBpT (s : State) (n k : Nat) : Nat := s.fld 0x130 (R.PAL.BP.T (s.hsPal n) k) * 10000

/-- Ticks since the activation of a unit's leader. -/
def State.hsElapsed (s : State) (n : Nat) : Option Nat := (s.hsAt (s.hsLead n)).act.map (s.tb - ·)

/-- The end of the envelope in ticks: T(NBP-1), 0 for an unused entry (R115). -/
def State.hsEnvEnd (s : State) (n : Nat) : Nat :=
  if s.hsNbp n = 0 then 0 else s.hsBpT n (s.hsNbp n - 1)

/-- HS.STAT.INRUSH: the envelope runs (R115). -/
def State.hsInrush (s : State) (n : Nat) : Bool :=
  match s.hsElapsed n with
  | some t => decide (t < s.hsEnvEnd n)
  | none => false

/-- The envelope's limit at an elapsed time, in 10 mA units: the first breakpoint not yet reached, then TRIP (R115). -/
def State.hsEnvLimit (s : State) (n t : Nat) : Nat :=
  match (List.range (s.hsNbp n)).find? (fun k => t < s.hsBpT n k) with
  | some k => s.fld 0x130 (R.PAL.BP.I (s.hsPal n) k)
  | none => s.palFld (s.hsPal n) R.PAL.TRIP.I

/-- The sum over a unit's members. -/
def sumOver (ms : List Nat) (f : Nat → Nat) : Nat := (ms.map f).foldl (· + ·) 0

/-- The effective limit of a unit in milliamperes at an elapsed time (R133): the envelope limit and CEIL while the envelope
runs, TRIP and ICONT after it; the present values of the members are summed (R125). -/
def State.hsLimitAt (s : State) (n : Nat) (e : Option Nat) : Nat :=
  let ms := s.hsUnit n
  let l := s.hsLead n
  match e with
  | some t =>
    if t < s.hsEnvEnd n then min (s.hsEnvLimit l t * 10) (sumOver ms fun m => s.fld (hsPg m) R.HS.SEG.CEIL * 100)
    else min (s.palFld (s.hsPal l) R.PAL.TRIP.I * 10) (sumOver ms fun m => s.fld (hsPg m) R.HS.RATE.ICONT * 100)
  | none => min (s.palFld (s.hsPal l) R.PAL.TRIP.I * 10) (sumOver ms fun m => s.fld (hsPg m) R.HS.RATE.ICONT * 100)

/-- The effective limit of a unit now (R133). -/
def State.hsLimit (s : State) (n : Nat) : Nat := s.hsLimitAt n (s.hsElapsed n)

/-- The settings of a page count for the limits of channels (R115, R124, R133). -/
def hsLimPg (pg : Nat) : Bool :=
  match kindOf pg with
  | some .bank => true
  | some .hs => true
  | some .pal => true
  | _ => false

/-- A change of settings has lowered the limit of units of channels: `o` is the state before it. A trip filter counts from then for
a current that the former limit allowed (R133). (DESIGN CHOICE: log entry 70.) -/
def State.hsLimMark (s o : State) : State :=
  (List.range 48).foldl (fun (t : State) n =>
    if t.hsLead n = n ∧ t.hsLimit n < o.hsLimit n then
      t.setHs n { t.hsAt n with limHist := (t.tb, o.hsLimit n) :: (t.hsAt n).limHist.filter fun e => t.tb ≤ e.1 + 200 }
    else t) s

/-- A condition of R29 other than load dump holds a channel: its envelope and filters are suspended (R152). -/
def State.hsBlocked (s : State) (n : Nat) : Bool :=
  (s.dieAt (hsDie n)).off || (s.dieAt (hsDie n)).revb || (s.hsAt n).tsd

/-- The live command of a channel (R112). -/
def State.hsLive (s : State) (n : Nat) : OutCmd :=
  if s.bit (hsPg n) R.HS.OUT.ON then
    .pwm (s.fld (hsPg n) R.HS.PERIOD.P) (s.fld (hsPg n) R.HS.PHASE.PH) (s.fld (hsPg n) R.HS.DUTY.D)
  else .off

/-- The command a clause's verb gives a channel (R113, R234). -/
def State.hsVerb (s : State) (n c : Nat) : OutCmd :=
  let pat := fun d => OutCmd.pwm (s.fld (hsPg n) R.HS.PERIOD.P) (s.fld (hsPg n) R.HS.PHASE.PH) d
  match s.clFld c R.CL.VERB.VERB with
  | 2 => pat 0xFFFF
  | 3 => pat (s.clFld c R.CL.ARG.D)
  | _ => .off

/-- What levels 3 and 4 give a unit, with the level it came from (R24, R462). -/
def State.hsLower (s : State) (n : Nat) : OutCmd × Nat :=
  match s.govClauseOf (s.hsUnit n) with
  | some c => (s.hsVerb (s.hsLead n) c, govClause)
  | none => (s.hsLive (s.hsLead n), govLive)

/-- A unit is held off by level 2: a member is latched, or the unit is in a retry interval (R120, R124). -/
def State.hsLatched (s : State) (n : Nat) : Bool :=
  (s.hsUnit n).any (fun m => (s.hsAt m).latch) || (s.hsAt (s.hsLead n)).retryEnd.isSome

/-- Whether a channel's gates are commanded on (R29, R111, R112, R128, R134, R151, R153): the conditions of R29 act after the
chain; no segment in service receives no command; none does before the PWR clock has started (R466); without the PWR clock the die imposes the limp value on the command held
since, by its own logic. -/
def State.hsGate (s : State) (n : Nat) : Bool :=
  let d := s.dieAt (hsDie n)
  let h := s.hsAt n
  if d.revb then true
  else if d.off || h.tsd || s.diesWait || s.fld (hsPg n) R.HS.SEG.NSEG = 0 then false
  else if !s.clocked .pwr then
    !h.ceilOff && s.enabled (hsPg n) && (match s.fld (hsPg n) R.HS.CFG.LIMP with
     | 1 => true
     | 2 => (match h.cmd with | .pwm _ _ dd => decide (0x8000 ≤ dd) | .off => false)
     | _ => false)
  else if d.ldump then s.bit (hsPg n) R.HS.STAT.GATE && (!s.hsLatched n || s.level1 n)
  else (h.gen.at s.tb).levelAt s.tb

/-- Off-state diagnosis may run on a channel as far as its settings and R29 go (R109, R145, R152). -/
def State.hsDiagOn (s : State) (n : Nat) : Bool :=
  s.clocked .pwr && s.bit (hsPg n) R.HS.CFG.OLOFF && s.enabled (hsPg n) && !s.hsBlocked n && !(s.dieAt (hsDie n)).ldump

/-- Off-state diagnosis stops, and begins again from this tick: the cycle in progress is given up. With OLOFF = 0 or EN = 0 what
the cycles had found is given up too. (DESIGN CHOICE: log entry 71.) -/
def State.hsDiagUpdate (s : State) (n : Nat) : State :=
  let h := s.hsAt n
  let d := s.hsDiagOn n
  if d = h.diag then s
  else if d then s.setHs n { h with diag := true, diagAt := s.tb }
  else if s.bit (hsPg n) R.HS.CFG.OLOFF && s.enabled (hsPg n) then s.setHs n { h with diag := false, cyc := none }
  else s.setHs n { h with diag := false, cyc := none, offRes := none, offConf := false, phHigh := none }

/-- Bring HS.STAT.GATE to the present gate command. An edge runs with the slew that CFG.SLEW holds as it begins (R111); a
turn-off by a fault with that of SLEW = 0b00 (R135). -/
def State.hsGateUpdate (s : State) (n : Nat) : State :=
  let s := s.hsDiagUpdate n
  let g := s.hsGate n
  if g = s.bit (hsPg n) R.HS.STAT.GATE then s
  else
    let h := s.hsAt n
    let flt := !g && (s.hsLatched n || h.ceilOff || h.tsd)
    (s.setHs n { h with
      edge := some s.tb, edgeSlew := if flt then 0 else s.fld (hsPg n) R.HS.CFG.SLEW, faultOff := flt
      phase := if g then h.phase else h.phase + 1 }).setBit (hsPg n) R.HS.STAT.GATE g

/-- The edge time of a SLEW code in ticks (R110). -/
def slewTicks (c : Nat) : Nat := 800 * 2 ^ c

/-- A channel's edge is in progress at a tick (R110, R135). -/
def Hs.inEdge (h : Hs) (t : Nat) : Bool :=
  match h.edge with
  | some e => decide (t ≤ e + slewTicks h.edgeSlew)
  | none => false

/-- A current of a channel during a turn-off by a fault: the gate drive holds it at or below CEIL (R135). -/
def State.hsCapped (s : State) (n t : Nat) (i : Int) (unit : Nat) : Int :=
  if (s.hsAt n).faultOff ∧ (s.hsAt n).inEdge t then min i (s.fld (hsPg n) R.HS.SEG.CEIL * unit : Nat) else i

/-- The edge blanking time TBLK of a channel has not yet passed since its last gate edge (R115). -/
def State.hsBlanked (s : State) (n : Nat) : Bool :=
  match (s.hsAt n).edge with
  | some e => decide (s.tb < e + s.palFld (s.hsPal n) R.PAL.BLANK.TBLK)
  | none => false

/-! ## Windows -/

/-- Open a window: RCNT 0, counted (R119). -/
def State.winOpen (s : State) (n kind : Nat) : State :=
  ((s.setFld (hsPg n) R.HS.STAT.WKIND kind).setFld (hsPg n) R.HS.STAT.RCNT 0).count (hsPg n) 3

/-- A window is open on a channel. -/
def State.winIs (s : State) (n : Nat) : Bool := s.fld (hsPg n) R.HS.STAT.WKIND ≠ 0

/-- Close an open window with an end code (R123): 1 with success, 2 by a latch, 3 without a latch; event 118. -/
def State.winClose (s : State) (n code : Nat) : State :=
  if s.winIs n then
    let s := (s.setFld (hsPg n) R.HS.STAT.WKIND 0).setFld (hsPg n) R.HS.STAT.WEND code
    let s := s.setHs n { s.hsAt n with testEnd := none }
    (if code = 1 then s.count (hsPg n) 4 else s).post 118
  else s

/-- Set the protection latch of every member of a unit, ending a retry interval and closing an open window by a latch
(R121, R124). -/
def State.hsLatchUnit (s : State) (n : Nat) : State :=
  let ms := s.hsUnit n
  let l := s.hsLead n
  let s := ms.foldl (fun t m =>
    t.setHs m { t.hsAt m with latch := true, retryEnd := none }) s
  let s := (s.setBit (hsPg l) R.HS.STAT.RETRY false)
  s.winClose l 2

/-! ## The chain on a unit -/

/-- An activation of a unit (R114, R119): the envelope time starts, the open-load total, an off-state cycle and a cross-test
end, and a START window opens on the first activation since a reset, PARK or safe state. Under a condition of R29 no envelope
runs (R152). An activation of a gang counts as the first one of its leader only. (DESIGN CHOICE: log entry 70.) -/
def State.hsActivate (s : State) (n : Nat) : State :=
  let l := s.hsLead n
  let s := (s.hsUnit n).foldl (fun t m =>
    t.setHs m { t.hsAt m with
      olTicks := 0, olConf := false, cyc := none, offRes := none, offConf := false, phHigh := none, xt := none }) s
  let h := s.hsAt l
  let s := s.setHs l { h with act := if s.hsBlocked l then none else some s.tb, bpSeen := 0, fresh := false }
  let s := s.count (hsPg l) 0
  if h.fresh && s.bit (hsPg l) R.HS.CFG.AUTOST && decide (1 ≤ s.palFld (s.hsPal l) R.PAL.RETRY.N) && !s.winIs l
  then s.winOpen l 1 else s

/-- A channel's record with a new resulting command; with the on-time ends its envelope, and the off period begins (R114,
R145). -/
def Hs.withCmd (h : Hs) (t : Nat) (c : OutCmd) : Hs :=
  if h.cmd.onTime && !c.onTime then
    { h with cmd := c, offFrom := t, cyc := none, offRes := none, offConf := false, phHigh := none }
  else { h with cmd := c }

/-- A disabled channel's diagnostics are idle: nothing of theirs is kept (R109). -/
def Hs.idleDiag (h : Hs) : Hs :=
  { h with xt := none, cyc := none, offRes := none, offConf := false, phHigh := none, olTicks := 0, olConf := false,
           senseFail := false }

/-- Give a member the unit's level, command and generator: every member receives each gate command in the same PWR cycle (R26,
R99, R109, R111, R124). (DEDUCED: log entry 33.) -/
def State.hsGive (s : State) (m lvl : Nat) (cl : Option Nat) (limp cmd : OutCmd) (gen : Gen) : State :=
  let h := s.hsAt m
  let en := s.enabled (hsPg m)
  let c := if en then cmd else .off
  let s := s.setFld (hsPg m) R.PG_STAT.GOV lvl
  let h := { h.withCmd s.tb c with
    limpCmd := limp, govCl := cl, ceilOff := false, gen := if en then gen else {} }
  (s.setHs m (if en then h else h.idleDiag)).hsGateUpdate m

/-- The member whose generator is the unit's: the first enabled one whose command has on-time, or else the leader (R124). -/
def State.hsSrc (s : State) (n : Nat) : Nat :=
  ((s.hsUnit n).find? fun m => s.enabled (hsPg m) && (s.hsAt m).cmd.onTime).getD (s.hsLead n)

/-- The generator of a unit with a new command (R99): a command that a limp value of "hold" or the output hold keeps goes on as it
stood, a pattern that waits for its start among it (R127, R462). -/
def State.hsUnitGen (s : State) (n lvl : Nat) (cl : Option Nat) (cmd : OutCmd) : Gen :=
  let m := s.hsSrc n
  let h := s.hsAt m
  let kept := (lvl = govSafe ∧ s.fld (hsPg (s.hsLead n)) R.HS.CFG.LIMP = 2) ∨ s.heldBit (s.hsLead n)
  if kept ∧ h.gen.last = cmd then h.gen
  else h.gen.command s.tb (decide (lvl = s.fld (hsPg m) R.PG_STAT.GOV ∧ cl = h.govCl)) cmd

/-- With no segment in service the latch sets in every PWR cycle (R156). -/
def State.hsNoSegs (s : State) (n : Nat) : State :=
  if (s.hsUnit n).any fun m => s.fld (hsPg m) R.HS.SEG.NSEG = 0 && !(s.hsAt m).latch
  then (s.hsLatchUnit n).count (hsPg n) 2 else s

/-- Evaluate the chain for the unit of channel `n` (R24, R26, R127, R462): its level, its resulting command, an activation or
the end of one, and each member's gate. Without the PWR clock there is no chain, and the command stays as it stood
(R105, R128). -/
def State.hsSettle (s : State) (n : Nat) : State :=
  let ms := s.hsUnit n
  let l := s.hsLead n
  if !s.clocked .pwr then ms.foldl State.hsGateUpdate s
  else
  let s := s.hsNoSegs l
  let h := s.hsAt l
  let cl := s.govClauseOf ms
  let lat := s.hsLatched n
  let lvl := s.govLevel l lat h.heldGov cl.isSome
  let limp := if lvl = govSafe ∧ s.fld (hsPg l) R.PG_STAT.GOV ≠ govSafe
    then (if lat then .off else (s.hsAt (s.hsSrc l)).cmd) else h.limpCmd
  let cmd :=
    if lvl = govSafe then
      (match s.fld (hsPg l) R.HS.CFG.LIMP with
       | 1 => OutCmd.pwm (s.fld (hsPg l) R.HS.PERIOD.P) (s.fld (hsPg l) R.HS.PHASE.PH) 0xFFFF
       | 2 => limp
       | _ => .off)
    else if lvl = govLatch then .off
    else if s.heldBit l then h.heldCmd
    else (s.hsLower l).1
  let s := if cl.isSome ∧ (lvl ≥ govLatch ∨ !s.enabled (hsPg l)) then s.heldOff (cl.getD 0) else s
  let gcl := if lvl = govClause then cl else none
  let gen := s.hsUnitGen l lvl gcl cmd
  let s := ms.foldl (fun t m => t.hsGive m lvl gcl limp cmd gen) s
  let on := (s.hsAt l).cmd.onTime
  if on ∧ !h.cmd.onTime then s.hsActivate l
  else if !on then s.setHs l { s.hsAt l with act := none }
  else s

/-- Evaluate the chain for every unit. -/
def State.hsSettleAll (s : State) : State := (List.range 48).foldl State.hsSettle s

/-! ## Faults of a channel -/

/-- A fault of channel `n` latches its unit (R121, R125, R131): the bit sets on the faulty member, GANG on the others. -/
def State.hsFault (s : State) (n bit : Nat) : State :=
  let others := (s.hsUnit n).filter (· ≠ n)
  let s := s.detect (hsPg n) bit
  let s := others.foldl (fun t m => t.detect (hsPg m) 11) s
  let s := (s.hsLatchUnit n).count (hsPg n) 2
  s.hsSettle n

/-- An overcurrent trip of the unit of channel `n` (R120, R133): in an open window with retries left it retries, otherwise
it latches. A trip under a limp value is recorded and the gates stay (R139). The faulty member of a gang is the channel that
the command names; a trip that becomes a retry shows RETRY there and no GANG on the others. (DESIGN CHOICE: log entry 70.) -/
def State.hsTrip (s : State) (n : Nat) : State :=
  let l := s.hsLead n
  let e := s.hsPal l
  if s.winIs l ∧ s.fld (hsPg l) R.HS.STAT.RCNT < s.palFld e R.PAL.RETRY.N ∧ s.fld (hsPg l) R.PG_STAT.GOV ≠ govSafe then
    let s := s.setFld (hsPg l) R.HS.STAT.RCNT (s.fld (hsPg l) R.HS.STAT.RCNT + 1)
    let s := (s.detect (hsPg n) 10).count (hsPg l) 1
    let s := s.setHs l { s.hsAt l with retryEnd := some (s.tb + s.palFld e R.PAL.RETRY.INT * 50000) }
    let s := s.setBit (hsPg l) R.HS.STAT.RETRY true
    s.hsSettle n
  else s.hsFault n 1

/-- The latch of a unit is cleared (R140); PG_FSTAT keeps its bits. -/
def State.hsUnlatch (s : State) (n : Nat) : State :=
  (s.hsUnit n).foldl (fun t m => t.setHs m { t.hsAt m with latch := false }) s

/-- Close every open window for safe state (R122): a channel in a retry interval latches. -/
def State.hsSafeWindows (s : State) : State :=
  (List.range 48).foldl (fun t n =>
    if (t.hsAt n).retryEnd.isSome then (t.hsLatchUnit n).count (hsPg n) 2
    else t.winClose n 3) s

/-! ## Meanings -/

/-- The meaning of a write of HS.OUT by its channel (R31, R112): stored, then the chain decides (R27). -/
def State.hsWriteOut (s : State) (n : Nat) (d : Word) : State :=
  ((s.setFld (hsPg n) R.HS.OUT.ON (R.HS.OUT.ON.get d)).ok (hsPg n)).hsSettle n

/-- ENVELOPE_BREAKPOINT: the next breakpoint of a running envelope is reached and the limit steps (R115); at the last one of
an activation without a trip, an open START or RECOVER window closes with success (R119). -/
def execEnvelopeBreakpoint (n : Fin 48) (s : State) : Outcome :=
  let l := s.hsLead n
  match (s.hsAt l).act with
  | none => .next s
  | some a =>
    if s.hsNbp l = 0 ∨ !s.clocked .pwr then .next s
    else
      let seen := (s.hsAt l).bpSeen
      let next := ((List.range (s.hsNbp l)).find? fun k =>
        s.tb < a + s.hsBpT l k || (s.tb == a + s.hsBpT l k && seen ≤ k)).getD (s.hsNbp l - 1)
      s.atTick (a + s.hsBpT l next) fun s =>
        if s.tb < a + s.hsEnvEnd l then s.setHs l { s.hsAt l with bpSeen := next + 1 }
        else if s.fld (hsPg l) R.HS.STAT.WKIND = 1 ∨ s.fld (hsPg l) R.HS.STAT.WKIND = 3 then s.winClose l 1 else s

/-- Clear a unit's latch, or refuse: on a channel not latched, and on a gang member that is not the leader (R125, R140). -/
def State.hsClrBase (s : State) (n : Nat) (after : State → State) : State :=
  if s.locked (hsPg n) ∨ s.hsLead n ≠ n ∨ !(s.hsUnit n).any (fun m => (s.hsAt m).latch) then s.refuse (hsPg n)
  else (after ((s.hsUnlatch n).ok (hsPg n))).hsSettle n

/-- HS_CLR (R140). (DESIGN CHOICE: log entry 70.) -/
def execHsClr (n : Fin 48) (s : State) : Outcome :=
  if s.clocked .pwr then .next (s.hsClrBase n id) else .next s

/-- CLRR (R119, R140): CLR, and a RECOVER window opens unless the entry has N = 0. -/
def execClrr (n : Fin 48) (s : State) : Outcome :=
  if s.clocked .pwr then .next (s.hsClrBase n fun t =>
    if 1 ≤ t.palFld (t.hsPal n) R.PAL.RETRY.N ∧ !t.winIs n then t.winOpen n 3 else t)
  else .next s

/-- TEST_WINDOW_OPEN (R119, R122): refused while a window is open or the channel is latched; LEN = 0 answers RANGE.
(DESIGN CHOICE: log entry 34.) -/
def execTestWindowOpen (n : Fin 48) (len : BitVec 16) (s : State) : Outcome :=
  let pg := hsPg n
  if !s.clocked .pwr then .next s
  else if s.locked pg then .next (s.refuse pg)
  else if len.toNat = 0 then .next (s.range pg)
  else if s.winIs n ∨ (s.hsUnit n).any (fun m => (s.hsAt m).latch) ∨ s.hsLead n ≠ n then .next (s.refuse pg)
  else
    let s := ((s.setFld pg R.HS.WIN.KIND 2).setFld pg R.HS.WIN.LEN len.toNat).ok pg
    let s := s.winOpen n 2
    .next (s.setHs n { s.hsAt n with testEnd := some (s.tb + len.toNat * 100000) })

/-- Close the window of a unit: in a retry interval the unit latches, otherwise it ends without a latch (R122). Such a latch
sets no PG_FSTAT bit. (DESIGN CHOICE: log entry 34.) -/
def State.winStop (s : State) (n code : Nat) : State :=
  if (s.hsAt n).retryEnd.isSome then ((s.hsLatchUnit n).count (hsPg n) 2).hsSettle n else s.winClose n code

/-- WINDOW_CLOSE (R122): the window closes at once; a channel in a retry interval latches. (DESIGN CHOICE: log entry 34.) -/
def execWindowClose (n : Fin 48) (len : BitVec 16) (s : State) : Outcome :=
  let pg := hsPg n
  if !s.clocked .pwr then .next s
  else if s.locked pg then .next (s.refuse pg)
  else if s.hsLead n ≠ n then .next (s.refuse pg)
  else
    let s := ((s.setFld pg R.HS.WIN.KIND 0).setFld pg R.HS.WIN.LEN len.toNat).ok pg
    .next (s.winStop n 3)

/-- TEST_WINDOW_EXPIRY (R119, R122): success, or a latch in a retry interval. -/
def execTestWindowExpiry (n : Fin 48) (s : State) : Outcome :=
  match (s.hsAt n).testEnd with
  | some t =>
    if s.clocked .pwr ∧ s.fld (hsPg n) R.HS.STAT.WKIND = 2 then s.atTick t fun s => s.winStop n 1 else .next s
  | none => .next s

/-- RETRY_INTERVAL_END (R120): level 2 releases; with on-time below it a new activation starts, without it the window closes
without a latch. -/
def execRetryIntervalEnd (n : Fin 48) (s : State) : Outcome :=
  let l := s.hsLead n
  match (s.hsAt l).retryEnd with
  | some t =>
    if !s.clocked .pwr then .next s
    else s.atTick t fun s =>
      let s := (s.setHs l { s.hsAt l with retryEnd := none }).setBit (hsPg l) R.HS.STAT.RETRY false
      let s := s.hsSettle l
      if (s.hsAt l).cmd.onTime then s else s.winClose l 3
  | none => .next s

end Sys2Proof.Machine
end

