-- ==== Sys2Proof/Machine/Protect.lean ====
section
/-! DEFINITION. Load protection and diagnostics of the high-side channels (R131-R158): trips, the thermal model, sense codes,
open load, short to supply and cross-tests, the bank budget, and retouch. -/

namespace Sys2Proof.Machine

/-- An on-phase or an off-phase that began with the last gate edge lasts at least until a tick (R133, R138). -/
def State.hsPhaseLasts (s : State) (n t : Nat) : Bool :=
  (s.dieAt (hsDie n)).ldump || !(s.hsAt n).gen.changesBefore s.tb t

/-- What a filter of a channel finds, `flt` ticks after a tick at the earliest, while the channel keeps its phase; the PWR
island makes the comparison (R105, R133, R137, R138), and a condition of R29 other than load dump suspends it (R152). -/
def State.hsFilter (s : State) (n : Nat) (on : Bool) (t : Nat) (f : State → State) : Outcome :=
  if s.clocked .pwr ∧ s.bit (hsPg n) R.HS.STAT.GATE = on ∧ !s.hsBlocked n ∧ s.hsPhaseLasts n t then s.atTick t f else .next s

/-- The tick of the last breakpoint of a unit's envelope at or before an elapsed time (R115); 0 before the first one. -/
def State.hsLastStep (s : State) (n e : Nat) : Nat :=
  (((List.range (s.hsNbp n)).map (s.hsBpT n)).filter (· ≤ e)).foldl max 0

/-- The first tick, at or after `t`, at which a current has lain above the effective limit for the 200 ticks of the trip
filter (R132, R133): the limit falls in steps, so above it 200 ticks before, or since its last step, or since a change of the
settings that lowered it below the current. (DESIGN CHOICE: log entry 70.) -/
def State.hsTripTick (s : State) (n t : Nat) (i : Int) : Option Nat :=
  let l := s.hsLead n
  let t := (((s.hsAt l).limHist.filter fun e => i ≤ (e.2 : Int)).map (·.1 + 200)).foldl max t
  match (s.hsAt l).act with
  | none => if (s.hsLimitAt n none : Int) < i then some t else none
  | some a =>
    if (s.hsLimitAt n (some (t - 200 - a)) : Int) < i then some t
    else if (s.hsLimitAt n (some (t - a)) : Int) < i then some (max t (a + s.hsLastStep l (t - a) + 200))
    else none

/-- The tick from which the filters of a channel count: its last gate edge, or the end of a condition of R29 (R139, R152). -/
def Hs.filtFrom (h : Hs) : Nat := max (h.edge.getD 0) h.filtAt

/-- TRIP (R133): a current above the effective limit through 200 ticks of an on-phase trips the unit.
(DESIGN CHOICE: log entries 2, 70.) -/
def execTrip (n : Fin 48) (i : Int) (s : State) : Outcome :=
  match s.hsTripTick n (max s.tb ((s.hsAt n).filtFrom + 200)) i with
  | some t => s.hsFilter n true t fun s => s.hsTrip n
  | none => .next s

/-- CEIL_TRIP (R134): a current at HS.SEG.CEIL latches at once, in on-phases and off-phases, and closes a window (R121). While
the PWR clock is lost the die turns the gates off by its own comparator, and nothing is recorded (R152).
(DESIGN CHOICE: log entry 70.) -/
def execCeilTrip (n : Fin 48) (i : Int) (s : State) : Outcome :=
  if (s.fld (hsPg n) R.HS.SEG.CEIL * 100 : Nat) ≤ i then
    if s.clocked .pwr then .next (s.hsFault n 2)
    else .next ((s.setHs n { s.hsAt n with ceilOff := true }).hsGateUpdate n)
  else .next s

/-- REVERSE_CURRENT (R137): a reverse current above the threshold for 1 000 ticks of an on-phase latches. -/
def execReverseCurrent (n : Fin 48) (i : Int) (s : State) : Outcome :=
  if (if hsHeavy n then 2000 else 500) < i
  then s.hsFilter n true ((s.hsAt n).filtFrom + 1000) fun s => s.hsFault n 7 else .next s

/-- STUCK_ON (R138): a current above the threshold for 10 000 ticks while the gates are commanded off, counted from TBLK ticks
after the off edge, and again from each detection; it latches, and the gates stay as the shorted segment has them (R29). -/
def execStuckOn (n : Fin 48) (i : Int) (s : State) : Outcome :=
  let h := s.hsAt n
  let start := max (max (h.edge.getD 0 + s.palFld (s.hsPal n) R.PAL.BLANK.TBLK) h.filtAt) (h.stuckAt.getD 0)
  if (if hsHeavy n then 500 else 125) < i
  then s.hsFilter n false (start + 10000) fun s => (s.setHs n { s.hsAt n with stuckAt := some s.tb }).hsFault n 8
  else .next s

/-! ## Sense codes and the thermal model -/

/-- A sense code: the mean divided by the step and rounded down, 0x3F00 above full scale, 0 for a reversed current (R142).
(DEDUCED: log entry 35.) -/
def senseCode (step : Int) (mean : Int) : Nat :=
  if mean < 0 then 0 else min 0x3F00 (mean / step).toNat

/-- The step of a channel's sense code in microamperes (R132). (DEDUCED: log entry 33.) -/
def hsStep (n : Nat) : Int := if hsHeavy n then 10000 else 2500

/-- The fault rail (R143). -/
def faultRail : Nat := 0x3FFF

/-- HS.SENSE.CODE reads the fault rail (R143). -/
def State.hsRail (s : State) (n : Nat) : Bool :=
  (s.hsAt n).latch || s.fld (hsPg n) R.HS.SEG.NSEG = 0 || (s.dieAt (hsDie n)).any || (s.hsAt n).tsd ||
    (s.enabled (hsPg n) && (s.hsAt n).senseFail)

/-- One step of the thermal model (R136): X + (I * I - X) * 1 us / tau. -/
def thermalStep (x : Rat) (i : Int) (tau : Nat) : Rat := x + ((i * i : Int) - x) / (tau : Rat)

/-- ICONT_present of a unit in microamperes (R136). -/
def State.hsIcont (s : State) (n : Nat) : Nat := sumOver (s.hsUnit n) fun m => s.fld (hsPg m) R.HS.RATE.ICONT * 100000

/-- The thermal step of a unit, taken with the conversion of its highest-numbered member, when every member's mean of the
period is known (R136, R142): I2T latches when X reaches ICONT_present squared, and shows on that member; in a retry interval
it cannot occur (R139). (DESIGN CHOICE: log entry 70.) -/
def State.hsThermal (s : State) (n : Nat) : State :=
  let ms := s.hsUnit n
  if ms.getLastD n ≠ n then s
  else
    let i := (ms.map fun m => max 0 (s.hsAt m).mean).foldl (· + ·) 0
    let x := thermalStep (s.hsAt (s.hsLead n)).x i (if hsHeavy n then 2000000 else 1000000)
    let s := ms.foldl (fun t m => t.setHs m { t.hsAt m with x := x }) s
    let lim : Int := s.hsIcont n
    if ((lim * lim : Int) : Rat) ≤ x ∧ (s.hsAt (s.hsLead n)).retryEnd.isNone ∧
        !((s.hsAt n).latch && (s.reg (hsPg n) 0x048).getLsbD 3) then s.hsFault n 3 else s

/-- The on-state open-load total (R146): a code below ION in an on-phase adds its 100 ticks, a code at or above it, the fault
rail among them, resets the total; OLON is a lasting result. A gang member compares with its share of ION. -/
def State.hsOnOpen (s : State) (n : Nat) : State :=
  let h := s.hsAt n
  let e := s.hsPal n
  let ion : Int := (s.palFld e R.PAL.OL.ION : Int) * 1000
  if s.bit (hsPg n) R.HS.CFG.OLON ∧ s.bit (hsPg n) R.HS.STAT.GATE ∧ !s.hsInrush n ∧ !s.hsBlanked n ∧
      !s.hsBlocked n ∧ !(s.dieAt (hsDie n)).ldump then
    if (senseCode (hsStep n) h.mean : Int) * hsStep n * (s.hsUnit n).length < ion ∧ !s.hsRail n then
      let tot := h.olTicks + 100
      let hit : Bool := decide (s.palFld e R.PAL.BLANK.TOL * 100000 ≤ tot)
      let s := s.setHs n { h with olTicks := tot, olConf := hit }
      if hit then s.detectHeld h.olConf (hsPg n) 5 else s
    else s.setHs n { h with olTicks := 0, olConf := false }
  else s

/-- BANK.ISUM: the sum of the channels' means in 0.1 A units, a reversed channel counting as 0 (R149). -/
def State.bankSum (s : State) (b : Nat) : State :=
  let sum := ((List.range 8).map fun k => max 0 (s.hsAt (8 * b + k)).mean).foldl (· + ·) 0
  s.setFld (0x0F0 + b) R.BANK.ISUM.I (min 0xFFFF (sum / 100000).toNat)

/-- A conversion of a channel's sense converter (R142, R143): the code, the reference check, the thermal model, the on-state
open load and the bank's sum. A disabled channel's code reads 0 and its diagnostics are idle (R109). A failed check is a
lasting result (R357). (DEDUCED: log entry 35.) -/
def State.hsSense (s : State) (n : Nat) (i : Int) (fail : Bool) : State :=
  let en := s.enabled (hsPg n)
  let h := s.hsAt n
  let i := s.hsCapped n s.tb i 100000
  let s := s.setHs n { h with mean := max 0 i, senseFail := en && fail }
  let s := s.setFld (hsPg n) R.HS.SENSE.CODE (if en then senseCode (hsStep n) i else 0)
  let s := if en && fail then s.detectHeld h.senseFail (hsBank n) 6 else s
  let s := s.bankSum (n / 8)
  let s := if en then s.hsOnOpen n else s
  s.hsThermal n

/-! ## Off-state diagnosis -/

/-- The short-to-supply threshold in millivolts (R132). -/
def vsh : Int := 5500

/-- The pull-up of an off-state diagnosis: its current in microamperes and its compliance in millivolts (R132). -/
def pullUp : Nat × Nat := (100, 5000)

/-- The current that the pull-up sources into an output at a voltage in millivolts: it sinks none, and sources none above its
compliance (R145). -/
def pullUpCurrent (on : Bool) (mv : Int) : Nat := if on ∧ mv < pullUp.2 then pullUp.1 else 0

/-- The start of the first off-state cycle (R115, R145): TBLK ticks after the on-time ended and after the last gate edge, and not
before the diagnosis may run. (DESIGN CHOICE: log entry 71.) -/
def State.hsCycleFirst (s : State) (n : Nat) : Nat :=
  let h := s.hsAt n
  max (max h.offFrom (h.edge.getD 0) + s.palFld (s.hsPal n) R.PAL.BLANK.TBLK) h.diagAt

/-- A start of an off-state cycle: that of the last one that ended, or the first one's (R145). -/
def State.hsCycleBase (s : State) (n : Nat) : Nat := (s.hsAt n).cyc.getD (s.hsCycleFirst n)

/-- The pull-up is on from 5 000 to 30 000 ticks after the start of an off-state cycle (R145); an activation ends the cycle.
(DESIGN CHOICE: log entry 71.) -/
def State.hsPullUpOn (s : State) (n : Nat) : Bool :=
  let h := s.hsAt n
  let c := s.hsCycleBase n
  h.diag && !h.cmd.onTime && !s.bit (hsPg n) R.HS.STAT.GATE && decide (c + 5000 ≤ s.tb) &&
    decide (5000 ≤ (s.tb - c) % 100000) && decide ((s.tb - c) % 100000 < 30000)

/-- The end of the off-state cycle to come (R145): 100 000 ticks after the one before; the second sample lies 30 000 ticks after the
start. -/
def State.hsCycleEnd (s : State) (n : Nat) : Nat :=
  s.hsCycleBase n + (if (s.hsAt n).cyc.isSome then 130000 else 30000)

/-- The start of the off-state cycle that ends now (R145). -/
def State.hsCycleStart (s : State) (n : Nat) : Nat :=
  s.hsCycleBase n + (s.tb - 30000 - s.hsCycleBase n) / 100000 * 100000

/-- The result of an off-state cycle, from VBAT and the two samples in millivolts (R145). -/
def State.hsOffResult (s : State) (n : Nat) (vbat va vb : Int) : DiagRes :=
  if vsh < va ∧ 7000 ≤ vbat then .shortV
  else if 2000 + (s.palFld (s.hsPal n) R.PAL.OL.VTH : Int) * 10 < vb then .openLoad else .normal

/-- Off-state diagnosis runs on a channel (R109, R145, R152). -/
def State.hsOffRuns (s : State) (n : Nat) (vbat : Int) : Bool := s.hsDiagOn n && decide (6000 ≤ vbat)

/-- A confirmed short to supply starts a cross-test (R148). -/
def State.hsXtStart (s : State) (n : Nat) : State :=
  s.setHs n { s.hsAt n with xt := some ((s.hsAt n).xt.getD []) }

/-- One off-state cycle ends with a result (R145): the same result in two consecutive cycles of one off period is one
detection, until another result, the end of the off period or a W1C. SHORTV starts a cross-test (R148). -/
def State.hsOffCycle (s : State) (n : Nat) (res : DiagRes) : State :=
  let h := s.hsAt n
  let same : Bool := decide (h.offRes = some res ∧ res ≠ .normal)
  let bit := if res = .shortV then 6 else 4
  let s := s.setHs n { h with cyc := some (s.hsCycleStart n), offRes := some res, offConf := same }
  if !same then s
  else (if res = .shortV ∧ !(h.offConf && (s.reg (hsPg n) 0x048).getLsbD bit) then s.hsXtStart n else s).detectHeld h.offConf
    (hsPg n) bit

/-- OFF_STATE_DIAGNOSIS (R145): the gate stays off to the end of the cycle. A battery below 6.0 V stops the diagnosis, which begins
again from then. -/
def execOffStateDiagnosis (n : Fin 48) (vbat va vb : Int) (s : State) : Outcome :=
  let h := s.hsAt n
  if !s.hsDiagOn n ∨ h.cmd.onTime then .next s
  else if vbat < 6000 then .next (s.setHs n { h with cyc := none, diagAt := s.tb })
  else if s.bit (hsPg n) R.HS.STAT.GATE ∨ h.gen.changesBefore s.tb (s.hsCycleEnd n) then .next s
  else s.atTick (s.hsCycleEnd n) fun s => s.hsOffCycle n (s.hsOffResult n vbat va vb)

/-- An off-phase's sample above VSH or not (R147): two consecutive off-phases above VSH set SHORTV, which starts a cross-test
(R148). -/
def State.hsOffPhase (s : State) (n : Nat) (high : Bool) : State :=
  let h := s.hsAt n
  let two : Bool := high && h.phHigh = some (h.phase - 1)
  let s := s.setHs n { h with
    phSeen := some h.phase, phHigh := if high then some h.phase else none, offConf := two }
  if !two then s
  else (if !(h.offConf && (s.reg (hsPg n) 0x048).getLsbD 6) then s.hsXtStart n else s).detectHeld h.offConf (hsPg n) 6

/-- OFF_PHASE_SHORT_SAMPLE (R147): V_a is sampled once in an off-phase, TBLK ticks after its off edge, if at least 200 more
ticks of it remain: neither the pattern nor anything from outside ends it before. -/
def execOffPhaseShortSample (n : Fin 48) (vbat va : Int) (left : Nat) (s : State) : Outcome :=
  let h := s.hsAt n
  let t := h.edge.getD 0 + s.palFld (s.hsPal n) R.PAL.BLANK.TBLK
  if s.hsOffRuns n vbat ∧ 7000 ≤ vbat ∧ h.cmd.onTime ∧ !s.bit (hsPg n) R.HS.STAT.GATE ∧ h.phSeen ≠ some h.phase ∧
      200 ≤ left ∧ !h.gen.changesBefore s.tb (max s.tb t + 200) then
    s.atTick t fun s => s.hsOffPhase n (decide (vsh < va))
  else .next s

/-! ## The bank budget -/

/-- The current of a unit, from the bank's readings; a reversed channel counts as 0 (R149). -/
def unitCurrent (s : State) (b : Nat) (i : Vector Int 8) (n : Nat) : Int :=
  ((s.hsUnit n).map fun m => if m / 8 = b then max 0 (s.hsCapped m s.tb (i.toList.getD (m % 8) 0) 100) else 0).foldl (· + ·) 0

/-- A unit can be selected by the budget: the comparison of R133 is made on it, in an on-phase (R149, R152). -/
def State.budgetCan (s : State) (n : Nat) : Bool :=
  s.hsLead n = n && (s.hsUnit n).any (fun m => s.bit (hsPg m) R.HS.STAT.GATE) && !s.hsBlocked n &&
    (s.hsAt n).retryEnd.isNone

/-- The unit the budget selects: above its own limit with the largest excess, of equal excesses the lowest-numbered
(R149, R150). Of a gang the leader shows the trip. (DESIGN CHOICE: log entry 70.) -/
def State.budgetPick (s : State) (b : Nat) (i : Vector Int 8) : Option Nat :=
  ((List.range 8).map (8 * b + ·)).foldl (fun best n =>
    let ex : Int := unitCurrent s b i n - (s.hsLimit n : Int)
    if !s.budgetCan n ∨ ex ≤ 0 then best
    else match best with
      | none => some n
      | some m => if unitCurrent s b i m - (s.hsLimit m : Int) < ex then some n else best) none

/-- BUDGET sets and the bank selects a unit, which trips (R149). -/
def State.budgetSelect (s : State) (b : Nat) (i : Vector Int 8) : State :=
  let s := { s with bankTick := tset (fun _ => none) s.bankTick b (some s.tb) }
  let s := s.detect (0x0F0 + b) 1
  match s.budgetPick b i with
  | some n => s.hsTrip n
  | none => s

/-- BUDGET_EXCEEDED (R149): BUDGET sets on the folder and the selected unit trips, again 50 ticks later at the earliest; a unit
within its own limit is never turned off (R150). -/
def execBudgetExceeded (b : Fin 6) (i : Vector Int 8) (s : State) : Outcome :=
  let sum : Int := (i.toList.map fun c => max 0 c).foldl (· + ·) 0
  if s.clocked .pwr ∧ ((s.fld (0x0F0 + b) R.BANK.BUDGET.I * 100 : Nat) : Int) < sum then
    match tget (fun _ => none) s.bankTick b with
    | some t => s.atTick (t + 50) fun s => s.budgetSelect b i
    | none => .next (s.budgetSelect b i)
  else .next s

/-! ## Retouch -/

/-- Segments of a class (R108). -/
def hsClassSegs (n : Nat) : Nat := if hsHeavy n then 8 else 4
/-- Class latch ceiling in 0.1 A units (R108). -/
def hsClassCeil (n : Nat) : Nat := if hsHeavy n then 1200 else 300
/-- Class continuous rating in 0.1 A units (R108). -/
def hsClassIcont (n : Nat) : Nat := if hsHeavy n then 250 else 80

/-- The present value of a class value with `m` segments in service (R156). -/
def presentValue (n cls m : Nat) : Nat :=
  let k := hsClassSegs n
  if m = 0 then 0 else if k - 1 ≤ m then cls else cls * m / (k - 1)

/-- The bits set in a segment map. -/
def popCount (w : Nat) : Nat := ((List.range 8).filter fun i => w.testBit i).length

/-- HS.SEG and HS.RATE for a segment map (R155, R156). With no segment left the latch sets with the chain's evaluation. -/
def State.hsSetMap (s : State) (n map : Nat) : State :=
  let o := s
  let m := popCount map
  let s := s.setFld (hsPg n) R.HS.SEG.MAP map
  let s := s.setFld (hsPg n) R.HS.SEG.NSEG m
  let s := s.setFld (hsPg n) R.HS.SEG.CEIL (presentValue n (hsClassCeil n) m)
  let s := (s.setFld (hsPg n) R.HS.RATE.ICONT (presentValue n (hsClassIcont n) m)).hsLimMark o
  if m = 0 then s.hsSettle n else s

/-- A finding that a segment is to be retouched stands up to its test (R154): in an on-phase with at least 20 % of ICONT, less
than 25 % of the mean share on 64 consecutive sense periods; in the off state, a gate more than 0.5 V off its level in the last two
diagnosis cycles; more than 20 K above the mean of the others for 10 s of on-time. -/
def State.segFound (s : State) (n : Nat) : SegFinding → Bool
  | .openSeg cur seg periods => s.bit (hsPg n) R.HS.STAT.GATE && decide (s.fld (hsPg n) R.HS.RATE.ICONT * 100 ≤ 5 * cur) &&
      decide (4 * seg * s.fld (hsPg n) R.HS.SEG.NSEG < cur) && decide (64 ≤ periods)
  | .gateLeak mv cycles => s.hsDiagOn n && !(s.hsAt n).cmd.onTime && decide (500 < mv) && decide (2 ≤ cycles) &&
      (match (s.hsAt n).cyc with | some c => decide (s.hsCycleFirst n + 100000 ≤ c) | none => false)
  | .hot dk ticks => s.bit (hsPg n) R.HS.STAT.GATE && decide (2 ≤ s.fld (hsPg n) R.HS.SEG.NSEG) && decide (20 < dk) && decide (1000000000 ≤ ticks)

/-- RETOUCH (R154, R155): the segment leaves service for good, RETOUCH sets, and the segment waits to be appended to the
runtime retouch map. -/
def execRetouch (n : Fin 48) (seg : Fin 8) (why : SegFinding) (s : State) : Outcome :=
  let map := s.fld (hsPg n) R.HS.SEG.MAP
  if s.clocked .pwr ∧ map.testBit seg ∧ s.segFound n why then
    let s := (s.hsSetMap n (map - 2 ^ seg.val)).detect (hsPg n) 9
    .next (State.mapStart { s with retouchPend := s.retouchPend ++ [(n.val, seg.val)] })
  else .next s

end Sys2Proof.Machine
end

