-- ==== Sys2Proof/Machine/Bridge.lean ====
section
/-! DEFINITION. The motor bridges (R159-R179): legs, the chain on a bridge, shared legs, protection, ripple counting,
anti-pinch and wiper park. -/

namespace Sys2Proof.Machine

/-- A leg's record. -/
def State.legAt (s : State) (l : Nat) : Leg := tget (fun _ => {}) s.legs l
/-- Replace a leg's record. -/
def State.setLeg (s : State) (l : Nat) (v : Leg) : State := { s with legs := tset (fun _ => {}) s.legs l v }
/-- A bridge's record. -/
def State.bridgeAt (s : State) (k : Nat) : Bridge := tget (fun _ => {}) s.bridges k
/-- Replace a bridge's record. -/
def State.setBridge (s : State) (k : Nat) (v : Bridge) : State := { s with bridges := tset (fun _ => {}) s.bridges k v }

/-- The bridge folder. -/
def brPg : Nat := 0x15C
/-- A leg's page: HH0 to HH11 are legs 0 to 11, LH0 to LH15 legs 12 to 27 (R159). -/
def legPg (l : Nat) : Nat := 0x140 + l
/-- A leg's die: heavy legs on P2, light legs on P1 (R159). -/
def legDie (l : Nat) : Nat := if l < 12 then 1 else 0
/-- A field of a bridge's descriptor. -/
def State.br (s : State) (k : Nat) (f : Nat → Fld) : Nat := s.fld brPg (f k)
/-- Leg A of a bridge; 28 where the index names none (R160). -/
def State.legA (s : State) (k : Nat) : Nat := brLeg k (s.br k R.BRIDGE.CFG.LEGA)
/-- Leg B of a bridge; 28 where the index names none (R160). -/
def State.legB (s : State) (k : Nat) : Nat := brLeg k (s.br k R.BRIDGE.CFG.LEGB)

/-- A bridge operates: EN and both legs enabled (R161). -/
def State.brOperates (s : State) (k : Nat) : Bool :=
  s.br k R.BRIDGE.CFG.EN ≠ 0 && s.enabled (legPg (s.legA k)) && s.enabled (legPg (s.legB k))

/-- A leg of the bridge is latched (R162). -/
def State.brLatched (s : State) (k : Nat) : Bool := (s.legAt (s.legA k)).latch || (s.legAt (s.legB k)).latch

/-- Two enabled bridges share a leg (R160). -/
def State.brShare (s : State) (j k : Nat) : Bool :=
  j ≠ k && s.br j R.BRIDGE.CFG.EN ≠ 0 && decide (s.legA j < 28 ∧ s.legB j < 28) &&
    (s.legA j = s.legA k || s.legA j = s.legB k || s.legB j = s.legA k || s.legB j = s.legB k)

/-- The command a clause gives a bridge (R234). -/
def State.brVerb (s : State) (c : Nat) : BrCmd :=
  match s.clFld c R.CL.VERB.VERB with
  | 4 => .brake
  | 5 => .fwd (s.clFld c R.CL.ARG.D)
  | 6 => .rev (s.clFld c R.CL.ARG.D)
  | _ => .coast

/-- The live command of a bridge; PARK drives FWD while its park run lasts (R163, R176). -/
def State.brLive (s : State) (k : Nat) : BrCmd :=
  match s.br k R.BRIDGE.OUT.CMD with
  | 1 => .brake
  | 2 => .fwd (s.br k R.BRIDGE.DUTY.D)
  | 3 => .rev (s.br k R.BRIDGE.DUTY.D)
  | 4 => if (s.bridgeAt k).parkRun then .fwd (s.br k R.BRIDGE.DUTY.D) else .coast
  | _ => .coast

/-- The code of a command in STAT.APPLIED (R163). -/
def brCode : BrCmd → Nat
  | .coast => 0
  | .brake => 1
  | .fwd _ => 2
  | .rev _ => 3

/-- A command drives the motor with on-time (R165). -/
def brOnTime : BrCmd → Bool
  | .fwd d => d ≠ 0
  | .rev d => d ≠ 0
  | _ => false

/-- Two commands drive in the same direction. -/
def brSameDir : BrCmd → BrCmd → Bool
  | .fwd _, .fwd _ => true
  | .rev _, .rev _ => true
  | _, _ => false

/-- The PWM pattern of a bridge's command. -/
def State.brPattern (s : State) (k : Nat) : BrCmd → OutCmd
  | .fwd d => .pwm (s.br k R.BRIDGE.PERIOD.P) (s.br k R.BRIDGE.PHASE.PH) d
  | .rev d => .pwm (s.br k R.BRIDGE.PERIOD.P) (s.br k R.BRIDGE.PHASE.PH) d
  | _ => .off

/-- A bridge coasts for the dead time after a fix changed its legs (R177). -/
def State.brCoasts (s : State) (k : Nat) : Bool := decide (2 * s.tb < (s.bridgeAt k).coastTo)

/-- Another bridge that shares a leg drives (R166, R177). -/
def State.brBlocked (s : State) (k : Nat) : Bool :=
  (List.range 14).any fun j => s.brShare j k && (s.bridgeAt j).applied != .coast && !s.brCoasts j

/-- What levels 3 and 4 give a bridge, with the level it came from (R162). -/
def State.brLower (s : State) (k : Nat) : BrCmd × Nat :=
  match s.govClauseOf [0x040 + k] with
  | some c => (s.brVerb c, govClause)
  | none => (s.brLive k, govLive)

/-- A bridge that applies a command to a leg (R162, R166). -/
def State.legDriver (s : State) (l : Nat) : Option Nat :=
  (s.bridgesOfLeg l).find? fun k => s.brOperates k && (s.bridgeAt k).applied != .coast

/-- A condition of R29 other than load dump holds a leg's switches off, or its ceiling comparator does (R151, R168, R171). -/
def State.legHeld (s : State) (l : Nat) : Bool :=
  (s.dieAt (legDie l)).off || (s.dieAt (legDie l)).revb || (s.legAt l).tsd || (!s.clocked .pwr && (s.legAt l).ceilOff)

/-- The switches of a leg as its driving bridge commands them, high side then low side (R163); both off for a leg of no
operating bridge, and under the conditions of R29; a load dump freezes them but for a protection turn-off (R151).
(DEDUCED: log entry 37.) -/
def State.legWant (s : State) (l : Nat) : Bool × Bool :=
  if s.diesWait ∨ s.legHeld l then (false, false)
  else if (s.dieAt (legDie l)).ldump then (if (s.legAt l).latch && !s.safe then (false, false) else (s.legAt l).want)
  else
    match s.legDriver l with
    | none => (false, false)
    | some k =>
      let b := s.bridgeAt k
      let onPh := (b.gen.at s.tb).levelAt s.tb
      let chop : Bool × Bool := if onPh then (true, false) else (false, s.br k R.BRIDGE.CFG.DECAY = 0)
      match b.applied with
      | .coast => (false, false)
      | .brake => (false, true)
      | .fwd _ => if l = s.legA k then chop else (false, true)
      | .rev _ => if l = s.legA k then (false, true) else chop

/-- The switches of a leg as they are commanded in this PWR cycle (R164): a switch turns on DT PWR cycles after the other one
turned off at the earliest. -/
def State.legOn (s : State) (l : Nat) : Bool × Bool :=
  let g := s.legAt l
  (g.want.1 && decide (g.hFrom ≤ 2 * s.tb), g.want.2 && decide (g.lFrom ≤ 2 * s.tb))

/-- Give a leg its switches (R164): a switch that turns off holds the other one off for the dead time, which is that of the bridge
that drives the leg, or else of the one that last did. (DESIGN CHOICE: log entry 72.) -/
def State.legSwitch (s : State) (l : Nat) (w : Bool × Bool) : State :=
  let g := s.legAt l
  let on := s.legOn l
  let dt := match s.legDriver l with | some k => s.br k R.BRIDGE.CFG.DT | none => g.dt
  let hFrom := if on.2 && !w.2 then 2 * s.tb + dt else g.hFrom
  s.setLeg l { g with
    want := w, dt := dt, hFrom := hFrom
    lFrom := if on.1 && !w.1 then 2 * s.tb + dt else g.lFrom
    ceilOff := g.ceilOff && !s.clocked .pwr
    edge := if on.1 && !w.1 then some s.tb else if w.1 && !g.want.1 then some (max s.tb ((hFrom + 1) / 2)) else g.edge }

/-- A bridge's off-state cycle runs as far as its own state goes: OLOFF, COAST, and no other bridge drives its legs (R161, R172). -/
def State.brDiagOn (s : State) (k : Nat) : Bool :=
  let driven := fun l => (s.bridgesOfLeg l).any fun j => j ≠ k && (s.bridgeAt j).applied != .coast
  s.clocked .pwr && s.br k R.BRIDGE.CFG.OLOFF ≠ 0 && s.brOperates k && (s.bridgeAt k).applied == .coast &&
    !driven (s.legA k) && !driven (s.legB k)

/-- A bridge's off-state diagnosis stops, with what its cycles had found, or begins again from this tick (R172, R357). -/
def State.brDiagUpdate (s : State) (k : Nat) : State :=
  let b := s.bridgeAt k
  let d := s.brDiagOn k
  if d = b.diagOn then s
  else if d then s.setBridge k { b with diagOn := true, diagAt := s.tb }
  else s.setBridge k { b with diagOn := false, cyc := none, diag := none, diagConf := false }

/-- Bring a leg and its page to the present state (R162 and the HB.STAT table). Of an undriven leg the lowest-numbered bridge that
contains it, enabled or not, gives the level. (DESIGN CHOICE: log entry 72.) -/
def State.legUpdate (s : State) (l : Nat) : State :=
  if 28 ≤ l then s
  else
  let s := (s.bridgesWith l).foldl State.brDiagUpdate s
  let ks := s.bridgesOfLeg l
  let drv := s.legDriver l
  let s := s.legSwitch l (s.legWant l)
  let s := s.setFld (legPg l) R.HB.STAT.MAP (ks.foldl (fun m k => m + 2 ^ k) 0)
  let s := s.setBit (legPg l) R.HB.STAT.DRIVEN drv.isSome
  let s := s.setBit (legPg l) R.HB.STAT.LATCH (s.legAt l).latch
  match (drv <|> (s.bridgesWith l).head?) with
  | some k => s.setFld (legPg l) R.PG_STAT.GOV (s.br k R.BRIDGE.STAT.GOV)
  | none => s.setFld (legPg l) R.PG_STAT.GOV 0

/-- HB.STAT as it reads: HSON and LSON are the switches of this PWR cycle; no bridge drives the leg while it coasts after a fix
(R177). -/
def State.legView (s : State) (l : Nat) (w : Word) : Word :=
  let w := if (s.legDriver l).any s.brCoasts then R.HB.STAT.DRIVEN.put w 0 else w
  R.HB.STAT.HSON.put (R.HB.STAT.LSON.put w (if (s.legOn l).2 then 1 else 0)) (if (s.legOn l).1 then 1 else 0)

/-- A drive start of bridge `k` (R165, R173): the start allowance opens and counting begins with AVG at TNOM. A fix that sets
RIP.EN while the bridge drives counts from the next drive start on. (DESIGN CHOICE: log entry 72.) -/
def State.brDriveStart (s : State) (k : Nat) : State :=
  let b := s.bridgeAt k
  let tnom := s.br k R.BRIDGE.RIP.TNOM
  let t := max s.tb ((b.coastTo + 1) / 2)
  let b := { b with
    startEnd := some (t + s.br k R.BRIDGE.AUX.TSTART * 10000)
    counting := s.br k R.BRIDGE.RIP.EN ≠ 0
    since := 0, ivals := List.replicate 8 tnom, miss := 0
    ripTick := t, stalled := false }
  let s := s.setBridge k b
  (s.setBit brPg (R.BRIDGE.STAT.START k) true).setFld brPg (R.BRIDGE.STAT.AVG k) tnom

/-- Coasting with an accepted ripple in the last 3/2 AVG makes the position uncertain (R173). -/
def State.brCoasted (s : State) (k : Nat) : State :=
  if (s.bridgeAt k).ripAcc.any fun t => decide (2 * (s.tb - t) ≤ 300 * s.br k R.BRIDGE.STAT.AVG)
  then s.setBit brPg (R.BRIDGE.STAT.POSUNC k) true else s

/-- The command that the chain gives a bridge at a level (R161, R162, R171); without the PWR clock the dies apply SAFE. -/
def State.brChain (s : State) (k lvl : Nat) : BrCmd :=
  if !s.brOperates k ∨ s.power = .park then .coast
  else if lvl = govSafe ∨ !s.clocked .pwr then (if s.br k R.BRIDGE.CFG.SAFE = 1 then .brake else .coast)
  else if lvl = govLatch then .coast
  else if s.heldBit (48 + k) then (s.bridgeAt k).heldCmd
  else (s.brLower k).1

/-- A bridge's record with its commands (R99, R165, R167, R172, R176): the PWM pattern, the ticks from which it drives or coasts,
and a fresh PARKT for a park run that level 1 or 2 releases (R177). -/
def State.brRecord (s : State) (k lvl : Nat) (cl : Option Nat) (cmd applied : BrCmd) : Bridge :=
  let b := s.bridgeAt k
  let old := s.br k R.BRIDGE.STAT.GOV
  let same := lvl = old ∧ cl = b.govCl ∧ brSameDir b.applied applied
  let b := { b with
    cmd := cmd, applied := applied, govCl := cl, gen := b.gen.command s.tb (decide same) (s.brPattern k applied)
    parkEnd := if b.parkRun ∧ govLatch ≤ old ∧ lvl < govLatch then some (s.tb + s.br k R.BRIDGE.TMO.PARKT * 100000) else b.parkEnd
    drvAt := if 2 ≤ brCode applied ∧ brCode b.applied < 2 then max s.tb ((b.coastTo + 1) / 2) else b.drvAt
    dir := match applied with | .fwd _ => 1 | .rev _ => -1 | _ => b.dir }
  if applied = .coast then (if (s.bridgeAt k).applied = .coast then b else { b with coastAt := s.tb, cyc := none })
  else { b with cyc := none, diag := none, diagConf := false }

/-- Evaluate the chain for bridge `k` and apply its command to the legs (R161, R162, R165, R166). `free` lets a bridge held
by a shared leg start. -/
def State.brSettle (s : State) (k : Nat) (free : Bool := false) : State :=
  let b := s.bridgeAt k
  let run := s.clocked .pwr
  let cl := s.govClauseOf [0x040 + k]
  let lvl := if run then s.govLevel (48 + k) (s.brLatched k) b.heldGov cl.isSome else s.br k R.BRIDGE.STAT.GOV
  let cmd := s.brChain k lvl
  let s := if run ∧ cl.isSome ∧ (lvl ≥ govLatch ∨ !s.brOperates k) then s.heldOff (cl.getD 0) else s
  let wasShared := s.br k R.BRIDGE.STAT.SHARE ≠ 0
  let share := cmd != .coast && run && !s.safe && (s.brBlocked k || (wasShared && !free))
  let applied := if share then .coast else cmd
  let start := brOnTime applied && !(brOnTime b.applied && brSameDir b.applied applied)
  let gates := applied != .coast && !s.legHeld (s.legA k) && !s.legHeld (s.legB k)
  let s := s.setBridge k { s.brRecord k lvl (if lvl = govClause then cl else none) cmd applied with live := gates }
  let s := s.setFld brPg (R.BRIDGE.STAT.GOV k) lvl
  let s := s.setFld brPg (R.BRIDGE.STAT.APPLIED k) (brCode applied)
  let s := s.setBit brPg (R.BRIDGE.STAT.SHARE k) share
  let s := s.setBit brPg (R.BRIDGE.STAT.LATCH k) (s.brLatched k)
  let s := if b.live && !gates then s.brCoasted k else s
  let s := if start then s.brDriveStart k else s
  (s.legUpdate (s.legA k)).legUpdate (s.legB k)

/-- Bridges that share a leg and all drive, as safe state lets them, start anew with the rule of R166: of those that would start
in the same PWR cycle the lower-numbered drives. -/
def State.brUnshare (s : State) : State :=
  if s.safe ∨ !s.clocked .pwr then s
  else
    let ks := (List.range 14).filter fun k => (s.bridgeAt k).applied != .coast && s.brBlocked k
    ks.foldl (fun (t : State) k => t.setBridge k { t.bridgeAt k with applied := .coast }) s

/-- Evaluate the chain for every bridge, and every leg. -/
def State.brSettleAll (s : State) : State :=
  let s := (List.range 14).foldl (fun t k => t.brSettle k) s.brUnshare
  (List.range 28).foldl State.legUpdate s

/-- Evaluate every bridge that contains a leg (R168, R169). -/
def State.brSettleLeg (s : State) (l : Nat) : State :=
  ((s.bridgesWith l).foldl (fun t k => t.brSettle k) s).legUpdate l

/-- Evaluate every bridge that contains one of two legs, the lower-numbered first (R166, R168, R169). -/
def State.brSettleLegs (s : State) (a b : Nat) : State :=
  (((List.range 14).filter fun k => (s.bridgesWith a ++ s.bridgesWith b).contains k).foldl (fun (t : State) k => t.brSettle k) s
    |>.legUpdate a).legUpdate b

/-- The hardware writes OUTk.CMD = BRAKE (R174-R176): the bridge is reclaimed if it is held (R463). -/
def State.brHwBrake (s : State) (k : Nat) : State :=
  let s := s.setFld brPg (R.BRIDGE.OUT.CMD k) 1
  let s := s.setBridge k { s.bridgeAt k with parkRun := false, parkEnd := none }
  (s.setHeld (48 + k) false).brSettle k

/-- Bit 6 of a switch input: its filtered state (R219). -/
def State.siState (s : State) (n : Nat) : Bool := (s.fld (0x180 + n / 8) R.SI.STATE.ST).testBit (n % 8)

/-- The park input of a bridge stands at the level that means "parked" (R176). -/
def State.brParkedIn (s : State) (k : Nat) : Bool :=
  s.siState (s.br k R.BRIDGE.AUX.PSI) == (s.br k R.BRIDGE.CFG.PLEV != 0)

/-- A park run ends with BRAKE; PARKED sets when the input came (R176), and event 142 is posted (R179). -/
def State.brParkDone (s : State) (k : Nat) : State :=
  ((s.brHwBrake k).setBit brPg (R.BRIDGE.STAT.PARKED k) true).post 142

/-- A firmware write of BRIDGE.OUTk (R163, R174, R176): stored whatever level governs (R27). A write of PARK takes effect, and
tests the park input, as it is made, whatever level governs. (DESIGN CHOICE: log entry 72.) -/
def State.brWriteOut (s : State) (k : Nat) (code : Nat) (tgten : Bool) : State :=
  if s.locked brPg then s.refuse brPg
  else if code = 4 ∧ s.br k R.BRIDGE.CFG.PKEN = 0 then s.refuse brPg
  else if 4 < code then s.range brPg
  else
    let s := s.setFld brPg (R.BRIDGE.OUT.CMD k) code
    let s := s.setBit brPg (R.BRIDGE.OUT.TGTEN k) tgten
    let s := (s.setBit brPg (R.BRIDGE.STAT.TGTHIT k) false).setBit brPg (R.BRIDGE.STAT.PARKED k) false
    let s := s.ok brPg
    let s := s.setBridge k { s.bridgeAt k with parkRun := false, parkEnd := none }
    if code = 4 then
      if s.brParkedIn k then s.brParkDone k
      else (s.setBridge k { s.bridgeAt k with
        parkRun := true, parkEnd := some (s.tb + s.br k R.BRIDGE.TMO.PARKT * 100000) }).brSettle k
    else s.brSettle k

/-- BRIDGE_COAST (R163). -/
def execBridgeCoast (k : Fin 14) (tgten : Bool) (s : State) : Outcome :=
  if s.clocked .pwr then .next (s.brWriteOut k 0 tgten) else .next s
/-- BRIDGE_BRAKE (R163). -/
def execBridgeBrake (k : Fin 14) (tgten : Bool) (s : State) : Outcome :=
  if s.clocked .pwr then .next (s.brWriteOut k 1 tgten) else .next s
/-- BRIDGE_FWD (R163). -/
def execBridgeFwd (k : Fin 14) (tgten : Bool) (s : State) : Outcome :=
  if s.clocked .pwr then .next (s.brWriteOut k 2 tgten) else .next s
/-- BRIDGE_REV (R163). -/
def execBridgeRev (k : Fin 14) (tgten : Bool) (s : State) : Outcome :=
  if s.clocked .pwr then .next (s.brWriteOut k 3 tgten) else .next s
/-- BRIDGE_PARK (R176). -/
def execBridgePark (k : Fin 14) (tgten : Bool) (s : State) : Outcome :=
  if s.clocked .pwr then .next (s.brWriteOut k 4 tgten) else .next s

/-- START_ALLOWANCE_END (R165). -/
def execStartAllowanceEnd (k : Fin 14) (s : State) : Outcome :=
  match (s.bridgeAt k).startEnd with
  | some t =>
    if !s.clocked .pwr then .next s
    else s.atTick t fun s =>
      (s.setBridge k { s.bridgeAt k with startEnd := none, startDone := s.tb }).setBit brPg (R.BRIDGE.STAT.START k) false
  | none => .next s

/-- A bridge of a lower number waits for the same leg and could start too (R166). -/
def State.brLowerWaits (s : State) (k : Nat) : Bool :=
  (List.range k).any fun j => s.brShare j k && s.br j R.BRIDGE.STAT.SHARE ≠ 0 && !s.brBlocked j

/-- Bridges that share a leg with bridge `k`, which has started, and still coast after a fix changed their legs wait for it: their
drive start does not come (R166, R177). (DESIGN CHOICE: log entry 72.) -/
def State.brYield (s : State) (k : Nat) : State :=
  ((List.range 14).filter fun j => s.brShare j k && s.brCoasts j && (s.bridgeAt j).applied != .coast).foldl (fun (t : State) j =>
    ((t.setBridge j { t.bridgeAt j with startEnd := none, coastTo := 0 }).setBit brPg (R.BRIDGE.STAT.START j) false).brSettle j) s

/-- SHARED_LEG_START (R166): a bridge held by a shared leg starts once no sharing bridge drives, the lower-numbered first. -/
def execSharedLegStart (k : Fin 14) (s : State) : Outcome :=
  if s.clocked .pwr ∧ s.br k R.BRIDGE.STAT.SHARE ≠ 0 ∧ !s.brBlocked k ∧ !s.brLowerWaits k then .next ((s.brSettle k true).brYield k)
  else .next s

/-- The effective limit of a bridge in milliamperes (R167). -/
def State.brLimit (s : State) (k : Nat) : Nat :=
  10 * (if s.br k R.BRIDGE.STAT.START ≠ 0 then s.br k R.BRIDGE.LIM.ISTART else s.br k R.BRIDGE.LIM.ILIM)

/-- Latch a leg, or both legs of a bridge, and settle the bridges that contain them (R168). (DEDUCED: log entry 37.) -/
def State.latchLegs (s : State) (a b : Nat) : State :=
  ([a, b].foldl (fun (t : State) l => t.setLeg l { t.legAt l with latch := true }) s).brSettleLegs a b

/-- The first tick at which the 200 ticks of the trip filter have passed with a current above the limit (R167): since FWD or REV
is applied, and since the start allowance ended where the current lies below ISTART. -/
def State.brTripTick (s : State) (k : Nat) (i : Int) : Nat :=
  let b := s.bridgeAt k
  max (b.drvAt + 200)
    (if s.br k R.BRIDGE.STAT.START = 0 ∧ i.natAbs ≤ 10 * s.br k R.BRIDGE.LIM.ISTART then b.startDone + 200 else 0)

/-- BRIDGE_TRIP (R167): |I_A| above the limit for 200 ticks of an applied FWD or REV latches both legs. -/
def execBridgeTrip (k : Fin 14) (i : Int) (s : State) : Outcome :=
  if s.clocked .pwr ∧ brCode (s.bridgeAt k).applied ≥ 2 ∧ s.brLimit k < i.natAbs
  then s.atTick (s.brTripTick k i) fun s => (s.detect (legPg (s.legA k)) 1).latchLegs (s.legA k) (s.legB k) else .next s

/-- LEG_CEIL (R168): the ceiling is 60 A for a heavy leg and 15 A for a light one. While the PWR clock is lost the die turns the
leg off by its own comparator, and nothing is recorded (R152). (DESIGN CHOICE: log entry 70.) -/
def execLegCeil (l : Fin 28) (i : Nat) (s : State) : Outcome :=
  if (if l.val < 12 then 60000 else 15000) ≤ i then
    if s.clocked .pwr then .next ((s.detect (legPg l) 2).latchLegs l l)
    else .next ((s.setLeg l { s.legAt l with ceilOff := true }).brSettleLeg l)
  else .next s

/-- BRIDGE_CLR (R169): clears both legs' latches and settles every bridge that contains them; refused with none latched. -/
def execBridgeClr (k : Fin 14) (s : State) : Outcome :=
  if !s.clocked .pwr then .next s
  else if s.locked brPg ∨ !s.brLatched k then .next (s.refuse brPg)
  else
    let ls := [s.legA k, s.legB k]
    let s := ls.foldl (fun t l => t.setLeg l { t.legAt l with latch := false }) (s.ok brPg)
    .next (s.brSettleLegs (s.legA k) (s.legB k))

/-- The result of an off-state cycle of a bridge, from the two samples in millivolts: the rows of the table in order (R172). -/
def brOffResult (va vb : Int) : DiagRes :=
  if 5500 ≤ va ∧ 5500 ≤ vb then .shortV else if va ≤ 500 then .shortG
  else if 4000 ≤ va ∧ vb ≤ 1000 then .openLoad else .normal

/-- The end of a bridge's off-state cycle to come (R172): it starts after 10 000 ticks of COAST, once its other conditions hold, and
100 000 ticks after the one before; the samples lie 25 000 ticks after the start. -/
def State.brCycleEnd (s : State) (k : Nat) : Nat :=
  (match (s.bridgeAt k).cyc with
   | some c => c + 100000
   | none => max ((s.bridgeAt k).coastAt + 10000) (s.bridgeAt k).diagAt) + 25000

/-- One off-state cycle of a bridge ends with a result (R172): the same result in two consecutive cycles is one detection
(R357). -/
def State.brOffCycle (s : State) (k : Nat) (res : DiagRes) : State :=
  let b := s.bridgeAt k
  let bit := match res with | .shortV => 3 | .shortG => 4 | _ => 5
  let same : Bool := decide (b.diag = some res ∧ res ≠ .normal)
  let s := s.setBridge k { b with cyc := some (s.tb - 25000), diag := some res, diagConf := same }
  if same then s.detectHeld b.diagConf (legPg (s.legA k)) bit else s

/-- BRIDGE_OFF_STATE_DIAGNOSIS (R172). A battery below 7.0 V stops the diagnosis, which begins again from then. -/
def execBridgeOffStateDiagnosis (k : Fin 14) (vbat va vb : Int) (s : State) : Outcome :=
  if !s.brDiagOn k then .next s
  else if 7000 ≤ vbat then s.atTick (s.brCycleEnd k) fun s => s.brOffCycle k (brOffResult va vb)
  else .next (s.setBridge k { s.bridgeAt k with cyc := none, diag := none, diagConf := false, diagAt := s.tb })

/-- STALL_TIMEOUT (R173): once per drive start, FWD or REV for STALLT ms with no accepted ripple. -/
def execStallTimeout (k : Fin 14) (s : State) : Outcome :=
  let b := s.bridgeAt k
  if s.clocked .pwr ∧ s.br k R.BRIDGE.RIP.EN ≠ 0 ∧ brCode b.applied ≥ 2 ∧ !b.stalled then
    s.atTick (b.ripTick + s.br k R.BRIDGE.TMO.STALLT * 100000) fun s =>
      (s.setBridge k { b with stalled := true }).detect (legPg (s.legA k)) 6
  else .next s

/-- POS_WRITE (R173): stored, in effect at the next sense code, clearing POSUNC then. -/
def execPosWrite (k : Fin 14) (v : BitVec 32) (s : State) : Outcome :=
  if !s.clocked .pwr then .next s
  else if s.locked brPg then .next (s.refuse brPg)
  else .next ((s.setBridge k { s.bridgeAt k with posPend := some v }).ok brPg)

/-- PARK_INPUT_CHANGE (R176, R177): in a park run the first change to PLEV writes BRAKE and sets PARKED, also while level 3
governs; while level 1 or 2 does, CMD stays PARK. -/
def execParkInputChange (k : Fin 14) (s : State) : Outcome :=
  if s.clocked .pwr ∧ (s.bridgeAt k).parkRun ∧ s.br k R.BRIDGE.OUT.CMD = 4 ∧ s.br k R.BRIDGE.STAT.GOV < govLatch ∧
      s.brParkedIn k then .next (s.brParkDone k) else .next s

/-- PARK_RUN_TIMEOUT (R176): BRAKE is written and PARKTO sets on leg A. -/
def execParkRunTimeout (k : Fin 14) (s : State) : Outcome :=
  match (s.bridgeAt k).parkEnd with
  | some t =>
    if s.clocked .pwr ∧ (s.bridgeAt k).parkRun ∧ s.br k R.BRIDGE.STAT.GOV < govLatch then
      s.atTick t fun s => (s.brHwBrake k).detect (legPg (s.legA k)) 9
    else .next s
  | none => .next s

/-! ## Sense codes of a leg -/

/-- The position count as a signed number. -/
def State.brPos (s : State) (k : Nat) : Int := s.sfld brPg (R.BRIDGE.POS.POS k)

/-- Move the position count and stop at the target (R173, R174). -/
def State.brMove (s : State) (k : Nat) (dir : Int) : State :=
  let s := s.setFld brPg (R.BRIDGE.POS.POS k) (toField 32 (s.brPos k + dir))
  let tgt := s.sfld brPg (R.BRIDGE.TGT.TGT k)
  if s.br k R.BRIDGE.OUT.TGTEN ≠ 0 ∧ s.brPos k = tgt then
    ((s.brHwBrake k).setBit brPg (R.BRIDGE.STAT.TGTHIT k) true).post 142
  else s

/-- The mean of the last intervals. -/
def meanOf (l : List Nat) : Nat := if l = [] then 0 else l.foldl (· + ·) 0 / l.length

/-- One sense code of a bridge's ripple counter (R173). (DEDUCED: log entry 37.) -/
def State.brRipple (s : State) (k : Nat) (ripple : Option Nat) : State :=
  let b := s.bridgeAt k
  let avg := s.br k R.BRIDGE.STAT.AVG
  if !b.counting ∨ s.br k R.BRIDGE.RIP.EN = 0 ∨ b.applied = .coast ∨ s.brCoasts k then s
  else
    let since := b.since + 1
    let peak : Bool := match ripple with | some i => decide (s.br k R.BRIDGE.RIP.IMIN * 10 ≤ i) | none => false
    if peak ∧ avg ≤ 2 * since then
      let iv := (since :: b.ivals).take 8
      let s := s.setBridge k { b with since := 0, miss := 0, ivals := iv, ripTick := s.tb, ripAcc := some s.tb }
      (s.setFld brPg (R.BRIDGE.STAT.AVG k) (min 0xFFFF (meanOf iv))).brMove k b.dir
    else if 3 * avg ≤ 2 * since then
      if b.applied = .brake then s.setBridge k { b with since := since, counting := false }
      else if b.miss + 1 = 4 then
        let s := s.setBridge k { b with since := since - avg, miss := 4, counting := false }
        let s := s.brMove k b.dir
        (s.detect (legPg (s.legA k)) 7).setBit brPg (R.BRIDGE.STAT.POSUNC k) true
      else (s.setBridge k { b with since := since - avg, miss := b.miss + 1 }).brMove k b.dir
    else s.setBridge k { b with since := since }

/-- The pinch comparator of a bridge at a sense code (R175), `i` the current of its leg A in milliamperes. -/
def State.brPinch (s : State) (k : Nat) (i : Int) : State :=
  let b := s.bridgeAt k
  let win := s.br k R.BRIDGE.PINCH.SLWIN
  let th := s.br k R.BRIDGE.PINCH.SLTH
  let pos := s.brPos k
  let armed : Bool := decide (th ≠ 0 ∧ brCode b.applied = 2 ∧ !s.brCoasts k ∧ s.br k R.BRIDGE.STAT.START = 0 ∧
    ((s.sfld brPg (R.BRIDGE.PZLO.POS k) ≤ pos ∧ pos ≤ s.sfld brPg (R.BRIDGE.PZHI.POS k)) ∨
      s.br k R.BRIDGE.STAT.POSUNC ≠ 0))
  let out : Bool := armed && (match (s.legAt (s.legA k)).hist.find? (fun e => e.1 + 100 * win = s.tb) with
    | some e => decide ((th : Int) * 10 ≤ i - e.2)
    | none => false)
  let s := s.setBridge k { b with pinch := out }
  if out && !b.pinch then
    let s := s.detect (legPg (s.legA k)) 8
    if s.br k R.BRIDGE.CFG.PSTOP ≠ 0 then s.brHwBrake k else s
  else s

/-- A position write waiting for this sense code takes effect (R173). (DEDUCED: log entry 37.) -/
def State.brPosLoad (s : State) (k : Nat) : State :=
  match (s.bridgeAt k).posPend with
  | some v =>
    let s := s.setBridge k { s.bridgeAt k with posPend := none }
    (s.setFld brPg (R.BRIDGE.POS.POS k) v.toNat).setBit brPg (R.BRIDGE.STAT.POSUNC k) false
  | none => s

/-- HB.SENSE.CODE of a mean current: offset binary, clipped to its range (R170). -/
def legCode (l : Nat) (i : Int) : Nat :=
  let step : Int := if l < 12 then 10000 else 2500
  let c := 0x1F80 + i / step
  if c < 0 then 0 else if 0x3F00 < c then 0x3F00 else c.toNat

/-- HB.SENSE.CODE reads the fault rail (R170). -/
def State.legRail (s : State) (l : Nat) : Bool :=
  (s.legAt l).latch || (s.dieAt (legDie l)).any || (s.legAt l).tsd || (s.legAt l).senseFail

/-- A conversion of a leg's sense converter (R170): the code; a position write takes effect on every bridge whose leg A it is; the
ripple counter and the pinch comparator run on those that operate (R161, R173, R175). -/
def State.legSense (s : State) (l : Nat) (i : Int) (fail : Bool) (ripple : Option Nat) : State :=
  let s := s.setLeg l { s.legAt l with senseFail := fail, hist := ((s.tb, i / 1000) :: (s.legAt l).hist).take 65536 }
  let s := s.setFld (legPg l) R.HB.SENSE.CODE (legCode l i)
  ((s.bridgesWith l).filter fun k => s.legA k = l).foldl
    (fun t k =>
      let t := t.brPosLoad k
      if t.brOperates k then (t.brRipple k ripple).brPinch k (i / 1000) else t) s

/-! ## Fixes -/

/-- A fix that changes LEGA, LEGB or EN of a bridge that drives (R177): the old and the new legs coast for DT PWR cycles, and the
new configuration then applies with a drive start; `o` is the state before the fix. -/
def State.brFixOne (s o : State) (k : Nat) : State :=
  if (o.bridgeAt k).applied = .coast ∨
      (s.br k R.BRIDGE.CFG.LEGA = o.br k R.BRIDGE.CFG.LEGA ∧ s.br k R.BRIDGE.CFG.LEGB = o.br k R.BRIDGE.CFG.LEGB ∧
       s.br k R.BRIDGE.CFG.EN = o.br k R.BRIDGE.CFG.EN) then s
  else
    let till := 2 * s.tb + s.br k R.BRIDGE.CFG.DT
    let s := s.brCoasted k
    let s := s.setBridge k { s.bridgeAt k with applied := .coast, live := false, coastTo := till, gen := {} }
    [o.legA k, o.legB k, s.legA k, s.legB k].foldl (fun (t : State) l =>
      t.setLeg l { t.legAt l with hFrom := max (t.legAt l).hFrom till, lFrom := max (t.legAt l).lFrom till }) s

/-- A fix of the bridge folder (R177); the bridges are settled after it. -/
def State.brFix (s o : State) : State := (List.range 14).foldl (fun (t : State) k => t.brFixOne o k) s

/-- STAT.APPLIED and START as they read: COAST, and no start allowance, while a changed bridge waits out its dead time (R177). -/
def State.brStatView (s : State) (k : Nat) (w : Word) : Word :=
  if s.brCoasts k then (R.BRIDGE.STAT.START k).put ((R.BRIDGE.STAT.APPLIED k).put w 0) 0 else w

end Sys2Proof.Machine
end

