-- ==== Sys2Proof/Machine/Inputs.lean ====
section
/-! DEFINITION. The switch inputs and the isolated 24 V bank (R215-R229). -/

namespace Sys2Proof.Machine

/-- A switch input's record. -/
def State.siAt (s : State) (n : Nat) : Si := tget (fun _ => {}) s.sis n
/-- Replace a switch input's record. -/
def State.setSi (s : State) (n : Nat) (v : Si) : State := { s with sis := tset (fun _ => {}) s.sis n v }
/-- An isolated channel's record. -/
def State.ioAt (s : State) (n : Nat) : Io := tget (fun _ => {}) s.ios n
/-- Replace an isolated channel's record. -/
def State.setIo (s : State) (n : Nat) (v : Io) : State := { s with ios := tset (fun _ => {}) s.ios n v }
/-- The page of a switch input. -/
def siPg (n : Nat) : Nat := 0x180 + n / 8
/-- The page of an isolated channel. -/
def ioPg (n : Nat) : Nat := 0x1A0 + n
/-- The isolated bank folder. -/
def isoPg : Nat := 0x1B0

/-- A field of a switch input's configuration. -/
def State.siCfg (s : State) (n : Nat) (f : Nat → Fld) : Nat := s.fld (siPg n) (f (n % 8))

/-- Put bit `k` of a field. -/
def State.putBit (s : State) (pg : Nat) (f : Fld) (k : Nat) (b : Bool) : State :=
  let v := s.fld pg f
  s.setFld pg f (if v.testBit k = b then v else if b then v + 2 ^ k else v - 2 ^ k)

/-- A switch input is enabled (R216). -/
def State.siOn (s : State) (n : Nat) : Bool := s.enabled (siPg n) && s.siCfg n R.SI.CFG.IEN ≠ 0

/-- The filtered state of a switch input. -/
def State.siSt (s : State) (n : Nat) : Bool := (s.fld (siPg n) R.SI.STATE.ST).testBit (n % 8)

/-- The raw value of a switch input. -/
def State.siRaw (s : State) (n : Nat) : Bool := (s.fld (siPg n) R.SI.STATE.RAW).testBit (n % 8)

/-- The sample period of a code in ticks (R216). -/
def sperTicks (c : Nat) : Nat := match c with | 0 => 10000 | 1 => 50000 | 2 => 100000 | _ => 500000

/-- The first tick from `c` on that leaves `off` modulo `p` (R216). -/
def nextCong (p off c : Nat) : Nat := c + (p + off % p - c % p) % p

/-- The next sample tick of input number `j` with period `p`, after the last one taken (R216).
(DESIGN CHOICE: log entry 3.) -/
def State.nextSample (s : State) (p j : Nat) (last : Option Nat) : Nat :=
  nextCong p (100 * j) (if last = some s.tb then s.tb + 1 else s.tb)

/-- The raw value by the ratiometric thresholds; between them the previous one stays (R215). -/
def rawOf (ref : Bool) (v vbat : Int) (prev : Bool) : Bool :=
  let low : Bool := decide (10 * v < 4 * vbat)
  let high : Bool := decide (6 * vbat < 10 * v)
  if ref then (if high then true else if low then false else prev)
  else (if low then true else if high then false else prev)

/-- A filtered change of a switch input (R219, R221): SI.STATE, SI.CHG, its event and count, and a local wake where the input
parks (R423). -/
def State.siChange (s : State) (n : Nat) (st : Bool) : State :=
  let pg := siPg n
  let s := (s.putBit pg R.SI.STATE.ST (n % 8) st).putBit pg R.SI.CHG.CHG (n % 8) true
  let s := s.count pg (n % 8)
  let s := s.postIf ((s.fld pg R.SI.CHG.EVEN).testBit (n % 8)) (160 + n / 8)
  let s := if st && s.siCfg n R.SI.CFG.HOLD ≠ 0 then s.setSi n { s.siAt n with wetEnd := some (s.tb + 2000000) } else s
  if s.siCfg n R.SI.CFG.PARK ≠ 0 then s.localWake (some (3, n)) else s

/-- The wetting current of a switch input in milliamperes (R215, R220, R39): none in PARK between pulses. -/
def State.siWet (s : State) (n : Nat) : Nat :=
  let full := match s.siCfg n R.SI.CFG.WET with | 0 => 2 | 1 => 5 | 2 => 10 | _ => 15
  if !s.siOn n ∨ s.power = .park then 0
  else if s.siCfg n R.SI.CFG.HOLD = 0 then full
  else match (s.siAt n).wetEnd with
    | some t => if s.tb < t then full else 1
    | none => 1

/-- One sample of the counter filter: the counter, and whether the state changes (R218). -/
def filterStep (th c : Nat) (raw st : Bool) : Nat × Bool :=
  let c' := if raw then min (c + 1) th else c - 1
  (c', (c' = th && !st && raw) || (c' = 0 && st && !raw))

/-- A raw value of an enabled switch input reaches its filter (R218, R221). (DEDUCED: log entry 40.) -/
def State.siFilter (s : State) (n : Nat) (raw : Bool) : State :=
  let pg := siPg n
  let v := s.siAt n
  let th := s.siCfg n R.SI.CFG.TH
  let s := s.putBit pg R.SI.STATE.RAW (n % 8) raw
  if !v.run then
    let s := s.setSi n { v with run := true, c := if raw then th else 0, entry := none }
    let s := s.putBit pg R.SI.STATE.ST (n % 8) raw
    if v.entry = some (!raw) then s.siChange n raw else s
  else
    let r := filterStep th v.c raw (s.siSt n)
    let s := s.setSi n { v with c := r.1 }
    if r.2 then s.siChange n (!s.siSt n) else s

/-- The converter of a die fails its check: every analog input of the die reads 0xFFF, and REF sets on their pages, a lasting
result for each (R217, R357). -/
def State.siRefFail (s : State) (d : Nat) : State :=
  let ana := ((List.range 32).map (32 * d + ·)).filter fun n => s.siOn n && s.siCfg n R.SI.CFG.ANA ≠ 0
  let s := ana.foldl (fun t n => t.setFld (siPg n) (R.SI.ADC.CODE (n % 8)) 0xFFF) s
  let pgs := (ana.map siPg).eraseDups
  let was := s.siRefPg
  let s : State := { s with
    siRef := if s.siRef.contains d then s.siRef else d :: s.siRef
    siRefPg := was ++ pgs.filter fun pg => !was.contains pg }
  pgs.foldl (fun t pg => t.detectHeld (was.contains pg) pg 1) s

/-- The converter of a die passes its check (R217). -/
def State.siRefPass (s : State) (d : Nat) : State :=
  { s with siRef := s.siRef.filter (· ≠ d), siRefPg := s.siRefPg.filter fun pg => (pg - 0x180) / 4 ≠ d }

/-- RANGE of a switch input: 10 consecutive samples out of range, a lasting result (R357 and the page's table). -/
def State.siRange (s : State) (n : Nat) (v vbat : Int) : State :=
  let k := s.siAt n
  let r := if v < -1000 ∨ vbat + 1000 < v then k.rng + 1 else 0
  let s := s.setSi n { k with rng := min r 10 }
  if 10 ≤ r then s.detectHeld (decide (10 ≤ k.rng)) (siPg n) (8 + n % 8) else s

/-- The code of a voltage (R217). -/
def siCode (v : Int) : Nat := if v < 0 then 0 else if 40800 < v then 0xFF0 else (v / 10).toNat

/-- SI_SAMPLE (R215-R219): at a sample tick of an enabled input outside PARK. (DEDUCED: log entry 40.) -/
def execSiSample (n : Fin 64) (v vbat : Int) (fail : Bool) (s : State) : Outcome :=
  if !s.siOn n ∨ !s.clocked .io ∨ s.power = .park then .next s
  else s.atTick (s.nextSample (sperTicks (s.siCfg n R.SI.CFG.SPER)) n (s.siAt n).last) fun s =>
    let s := s.setSi n { s.siAt n with last := some s.tb }
    let s := s.siRange n v vbat
    if s.siCfg n R.SI.CFG.ANA ≠ 0 then
      if fail then s.siRefFail (n / 32)
      else
        let s := s.siRefPass (n / 32)
        let code := siCode v
        let s := s.setFld (siPg n) (R.SI.ADC.CODE (n % 8)) code
        s.siFilter n (decide (s.siCfg n R.SI.WIN.LO ≤ code) && decide (code ≤ s.siCfg n R.SI.WIN.HI))
    else
      s.siFilter n (rawOf (s.siCfg n R.SI.CFG.REF ≠ 0) v vbat ((s.siAt n).run && s.siRaw n))

/-- WETTING_HOLD_END (R215): the current falls to 1 mA. -/
def execWettingHoldEnd (n : Fin 64) (s : State) : Outcome :=
  match (s.siAt n).wetEnd with
  | some t => s.atTick t fun s => s.setSi n { s.siAt n with wetEnd := none }
  | none => .next s

/-- The park period of a code in KA time (R220). -/
def parkPeriod (c : Nat) : Int := match c with | 0 => 1000000 | 1 => 2000000 | 2 => 5000000 | _ => 10000000

/-- A sample of a parking input (R220, R423): two consecutive results that differ from the reference are a park change, a local
wake. -/
def State.parkSampled (s : State) (n : Nat) (v vbat : Int) : State :=
  let k := { s.siAt n with parkAt := some s.kaNow }
  let raw := rawOf (s.siCfg n R.SI.CFG.REF ≠ 0) v vbat k.parkRaw
  let d := if raw = k.parkRef then 0 else k.parkDiff + 1
  if 2 ≤ d then
    let s := s.setSi n { k with parkRaw := raw, parkRef := raw, parkDiff := 0 }
    let s := s.putBit (siPg n) R.SI.CHG.CHG (n % 8) true
    if s.parkWake.isNone then { s with parkWake := some (3, n) } else s
  else s.setSi n { k with parkRaw := raw, parkDiff := d }

/-- PARK_SAMPLE (R220): once per park period of an input with PARK = 1. -/
def execParkSample (n : Fin 64) (v vbat : Int) (s : State) : Outcome :=
  if s.power ≠ .park ∨ s.siCfg n R.SI.CFG.PARK = 0 then .next s
  else s.atKa (match (s.siAt n).parkAt with | some t => t + parkPeriod (s.siCfg n R.SI.CFG.PPER) | none => s.kaNow)
    fun s => s.parkSampled n v vbat

/-- The configuration or the enable of an SI page changed (R216, R218): a disabled input reads 0; a lowered TH bounds the
counter. -/
def State.siRefresh (s : State) (p : Nat) : State :=
  (List.range 8).foldl (fun t i =>
    let n := 8 * p + i
    if t.siOn n then
      (if (t.siAt n).run then t.setSi n { t.siAt n with c := min (t.siAt n).c (t.siCfg n R.SI.CFG.TH) } else t)
    else
      let t := t.setSi n { t.siAt n with c := 0, run := false, rng := 0, wetEnd := none, last := none, entry := none }
      let t := (t.putBit (siPg n) R.SI.STATE.ST i false).putBit (siPg n) R.SI.STATE.RAW i false
      t.setFld (siPg n) (R.SI.ADC.CODE i) 0)
    (if ((List.range 8).map (8 * p + ·)).any fun n => s.siOn n && s.siCfg n R.SI.CFG.ANA ≠ 0 then s
     else { s with siRefPg := s.siRefPg.filter (· ≠ 0x180 + p) })

/-! ## The isolated bank -/

/-- IO.CFG.MODE (R223). -/
def State.ioMode (s : State) (n : Nat) : Nat := s.fld (ioPg n) R.IO.CFG.MODE

/-- The field supply is OK, as the isolated die finds it (R226). -/
def State.fieldOk (s : State) : Bool := s.fsDie = 2

/-- The filtered bit of a channel: its input state, or its readback in mode 4 (R223). -/
def ioBit (mode : Nat) : Fld := if mode = 4 then R.IO.STAT.RB else R.IO.STAT.ST

/-- Evaluate the chain for channel `n` (R224); a change of the command is an edge (R225). Without the PWR clock there is no chain,
and the field side receives no command. -/
def State.ioSettle (s : State) (n : Nat) : State :=
  let pg := ioPg n
  let v := s.ioAt n
  if !s.clocked .pwr then
    s.setIo n { v with quiet := match v.quiet with | some t => some t | none => some s.kaNow }
  else
  let lat := s.bit pg R.IO.STAT.LATCH
  let lvl := s.govLevel (80 + n) lat v.heldGov false
  let limp := if lvl = govSafe ∧ s.fld pg R.PG_STAT.GOV ≠ govSafe then v.cmd else v.limpCmd
  let cmd := s.ioMode n = 4 &&
    (if lvl = govSafe then (match s.fld pg R.IO.CFG.LIMP with | 1 => true | 2 => limp | _ => false)
     else if lvl = govLatch then false
     else if s.heldBit (80 + n) then v.heldCmd
     else s.bit pg R.IO.OUT.ON)
  let s := s.setFld pg R.PG_STAT.GOV lvl
  let edge := cmd != v.cmd
  s.setIo n { v with
    cmd := cmd, limpCmd := limp, fieldCmd := if v.laneLost then v.fieldCmd else cmd
    cmdLost := v.laneLost && v.cmdLost, quiet := if v.laneLost then v.quiet else none
    edge := if edge then s.tb else v.edge, rbConf := v.rbConf && !edge }

/-- The field stage's switch is on (R224, R226): by the chain, or by the field side's copy of LIMP; off without field supply. -/
def State.ioOutOn (s : State) (n : Nat) : Bool :=
  let v := s.ioAt n
  if !s.fieldOk ∨ s.ioMode n ≠ 4 ∨ s.diesWait then false
  else if v.laneLost || v.cmdLost then (match v.limpCopy with | 1 => true | 2 => v.fieldCmd | _ => false)
  else v.fieldCmd

/-- Show IO.STAT.VALID of every channel (R226, R227). -/
def State.ioValid (s : State) : State :=
  (List.range 16).foldl (fun t n => t.setBit (ioPg n) R.IO.STAT.VALID (t.fieldOk && !(t.ioAt n).laneLost)) s

/-- A change of an isolated input (R219, R223): its count and event. -/
def State.ioChange (s : State) (n : Nat) (st : Bool) : State :=
  let s := (s.setBit (ioPg n) R.IO.STAT.ST st).count (ioPg n) 0
  s.postIf ((s.fld isoPg R.ISO.EVEN.EN).testBit n) (if n < 8 then 168 else 169)

/-- The raw value of a channel's stage: thresholds with hysteresis by mode (R223). -/
def ioRaw (mode : Nat) (v : Int) (prev : Bool) : Bool :=
  let on : Int := if mode = 1 ∨ mode = 4 then 11000 else 9000
  if on < v then true else if v < on - 2000 then false else prev

/-- A raw value reaches a channel's filter (R218, R223, R226). (DEDUCED: log entry 40.) -/
def State.ioFilter (s : State) (n : Nat) (raw : Bool) : State :=
  let pg := ioPg n
  let v := s.ioAt n
  let th := s.fld pg R.IO.CFG.TH
  let m := s.ioMode n
  let st := s.bit pg (ioBit m)
  if !v.run then
    let s := s.setIo n { v with run := true, raw := raw, c := if raw then th else 0, resume := false }
    if m = 4 then s.setBit pg R.IO.STAT.RB raw
    else if v.resume && raw != st then s.ioChange n raw else s.setBit pg R.IO.STAT.ST raw
  else
    let r := filterStep th v.c raw st
    let s := s.setIo n { v with c := r.1, raw := raw }
    if !r.2 then s
    else if m = 4 then (s.setIo n { s.ioAt n with rbConf := false }).setBit pg R.IO.STAT.RB (!st) else s.ioChange n (!st)

/-- The pulse periods of mode 3 in ticks (R223). -/
def ioPulseTicks (code : Nat) : Nat := [100000, 500000, 1000000, 2000000].getD code 100000

/-- The sample period of a channel in ticks (R216, R223): in mode 3 each pulse is one sample. -/
def State.ioPeriod (s : State) (n : Nat) : Nat :=
  if s.ioMode n = 3 then ioPulseTicks (s.fld (ioPg n) R.IO.CFG.PPER) else sperTicks (s.fld (ioPg n) R.IO.CFG.SPER)

/-- IO_INPUT_SAMPLE (R223, R226): at a sample tick in modes 1, 2 and 4, at a pulse's end in mode 3, while the bank is OK. A
sample that arrives shows that the lane is there. (DEDUCED: log entry 40.) -/
def execIoInputSample (n : Fin 16) (v : Int) (s : State) : Outcome :=
  let m := s.ioMode n
  if m = 0 ∨ 4 < m ∨ !s.fieldOk ∨ !s.clocked .io ∨ s.power = .park then .next s
  else
    s.atTick (s.nextSample (s.ioPeriod n) (64 + n) (s.ioAt n).last) fun s =>
      let k := s.ioAt n
      let s := s.setIo n { k with last := some s.tb, laneLost := false, run := k.run && !k.laneLost, resume := k.resume || k.laneLost }
      let s := if k.laneLost then (s.ioSettle n).ioValid else s
      s.ioFilter n (ioRaw m v (s.ioAt n).raw)

/-- A channel latches (R225). -/
def State.ioLatch (s : State) (n bit : Nat) : State :=
  (((s.detect (ioPg n) bit).setBit (ioPg n) R.IO.STAT.LATCH true).count (ioPg n) 1).ioSettle n

/-- IO_CLR (R225, R227). -/
def execIoClr (n : Fin 16) (s : State) : Outcome :=
  if !s.clocked .pwr then .next s
  else if s.locked (ioPg n) ∨ !s.bit (ioPg n) R.IO.STAT.LATCH then .next (s.refuse (ioPg n))
  else .next (((s.setBit (ioPg n) R.IO.STAT.LATCH false).ok (ioPg n)).ioSettle n)

/-- READBACK_MISMATCH (R225): from 500 us after the last edge, for 1 ms; it only reports, a lasting result (R357). -/
def execReadbackMismatch (n : Fin 16) (s : State) : Outcome :=
  let v := s.ioAt n
  if s.clocked .pwr ∧ s.ioMode n = 4 ∧ s.fieldOk ∧ !v.laneLost ∧ s.bit (ioPg n) R.IO.STAT.RB ≠ v.cmd then
    s.atTick (v.edge + 150000) fun s =>
      (s.setIo n { v with rbConf := true }).detectHeld v.rbConf (ioPg n) (if v.cmd then 2 else 1)
  else .next s

/-- IO_CURRENT_LIMIT (R225): the current has stood at the limit for 1 ms. -/
def execIoCurrentLimit (n : Fin 16) (s : State) : Outcome :=
  if s.clocked .pwr ∧ s.ioOutOn n then s.atTick ((s.ioAt n).edge + 100000) fun s => s.ioLatch n 3 else .next s

/-- IO_TSD (R225). -/
def execIoTsd (n : Fin 16) (s : State) : Outcome :=
  if s.clocked .pwr ∧ s.ioMode n = 4 then .next (s.ioLatch n 4) else .next s

/-- The field supply's state from its voltage; between the thresholds it stays (R226). -/
def fieldState (v : Int) (st : Nat) : Nat :=
  if v < 10000 then 0 else if v < 16000 then 1 else if 18000 ≤ v ∧ v ≤ 32000 then 2 else if 34000 < v then 3 else st

/-- How long a voltage must stand before the field supply enters a state, in ticks (R226). -/
def fieldDwell (st : Nat) : Nat := if st = 2 then 1000000 else if st = 3 then 10000 else 100000

/-- What the isolated die finds reaches the bank folder, where the PWR island runs (R45, R226, R229): event 171 where FS.ST changes;
FSABS, FSUV, FSOV at the entry. -/
def State.fieldTell (s : State) : State :=
  let new := s.fsDie
  let s := if s.fld isoPg R.ISO.FS.ST = new then s else (s.setFld isoPg R.ISO.FS.ST new).post 171
  if new = 0 then s.detect isoPg 1 else if new = 1 then s.detect isoPg 2 else if new = 3 then s.detect isoPg 3 else s

/-- The field supply enters a state (R226): filters restart on the return to OK, with one change posted where the state differs,
and a command that is on makes a fresh edge. -/
def State.fieldEnter (s : State) (new : Nat) : State :=
  let s : State := { s with fsDie := new, fsNew := false, fsAt := s.kaNow }
  let s := if s.clocked .pwr then s.fieldTell else s
  let s := if new = 2 then (List.range 16).foldl (fun (t : State) n =>
      let k := t.ioAt n
      t.setIo n { k with
        run := false, resume := k.resume || k.run, edge := if k.cmd then t.tb else k.edge, rbConf := false }) s
    else s
  s.ioValid

/-- FIELD_SUPPLY_CHANGE (R45, R226): the isolated die measures the voltage, with or without the PWR clock; a state is entered once
it has stood for its time, ABSENT too when it is the first one found. -/
def execFieldSupplyChange (v : Int) (s : State) : Outcome :=
  if s.diesWait then .next s
  else
    let new := fieldState v s.fsDie
    let s := if s.clocked .pwr then s.setFld isoPg R.ISO.FS.VMEAS (min 0xFFFF (max 0 v / 10).toNat) else s
    if new = s.fsDie ∧ !(s.fsNew ∧ v < 10000) then .next s else s.atKa (s.fsAt + fieldDwell new) fun s => s.fieldEnter new

/-- The bank is unpowered in PARK (R226): its supply reads ABSENT until it has stood again after the wake.
(DESIGN CHOICE: log entry 73.) -/
def State.bankPark (s : State) : State :=
  let s : State := { s with fsDie := 0 }
  let s := (s.setFld isoPg R.ISO.FS.ST 0).setFld isoPg R.ISO.FS.VMEAS 0
  ((List.range 16).foldl (fun (t : State) n =>
    let k := t.ioAt n
    t.setIo n { k with cmd := false, fieldCmd := false, run := false, resume := k.resume || k.run }) s).ioValid

/-- LANE_LOSS (R224, R227): LANE sets; an input holds and reads invalid, an output goes by the field side's copy.
(DEDUCED: log entry 40.) -/
def execLaneLoss (n : Fin 16) (s : State) : Outcome :=
  if (s.ioAt n).laneLost then .next s
  else
    let s := (s.setIo n { s.ioAt n with laneLost := true, quiet := some s.kaNow }).ioValid
    .next (if s.clocked .pwr then s.detect (ioPg n) 5 else s)

/-- FIELD_COMMAND_TIMEOUT (R224): after 20 us without a command the field side applies its copy by its own logic. -/
def execFieldCommandTimeout (n : Fin 16) (s : State) : Outcome :=
  match (s.ioAt n).quiet with
  | some t => s.atKa (t + 2000) fun s => s.setIo n { s.ioAt n with cmdLost := true }
  | none => .next s

/-- A write of IO.OUT (R224, R227). -/
def State.ioWriteOut (s : State) (n : Nat) (d : Word) : State :=
  if s.ioMode n ≠ 4 then s.refuse (ioPg n)
  else ((s.setFld (ioPg n) R.IO.OUT.ON (R.IO.OUT.ON.get d)).ok (ioPg n)).ioSettle n

/-- A fix touched an IO page (R218, R224, R227); `old` is its mode before. (DEDUCED: log entry 40.) -/
def State.ioFix (s : State) (n old : Nat) : State :=
  let pg := ioPg n
  let v := s.ioAt n
  let m := s.ioMode n
  let v := { v with limpCopy := s.fld pg R.IO.CFG.LIMP, c := min v.c (s.fld pg R.IO.CFG.TH) }
  let s := if m = old then s.setIo n v
    else
      let s := s.setIo n { v with run := false, resume := false, edge := s.tb }
      let s := if old = 4 then s.setBit pg R.IO.STAT.RB false else s
      if m = 0 ∨ m = 4 then s.setBit pg R.IO.STAT.ST false else s
  s.ioSettle n

end Sys2Proof.Machine
end

