-- ==== Sys2Proof/Machine/Valve.lean ====
section
/-! DEFINITION. The valve drivers and the boost converter (R180-R196): the profile, the chain on a valve, the shared sides,
and their protection. -/

namespace Sys2Proof.Machine

/-- A valve's record. -/
def State.valveAt (s : State) (n : Nat) : Valve := tget (fun _ => {}) s.valves n
/-- A side's record. -/
def State.sideAt (s : State) (b : Nat) : Side := tget (fun _ => {}) s.sides b

/-- The page of a valve. -/
def vlPg (n : Nat) : Nat := 0x160 + n
/-- The boost and side page. -/
def vsPg : Nat := 0x168
/-- The side of a valve: VHA serves VL0 to VL3, VHB VL4 to VL7 (R180). -/
def vlSide (n : Nat) : Nat := n / 4
/-- The valves of a side. -/
def sideValves (b : Nat) : List Nat := (List.range 4).map (4 * b + ·)

/-- The code of a phase (R182). -/
def vpCode : VPhase → Nat
  | .idle => 0 | .peak => 1 | .pkhold => 2 | .hold => 3 | .decay => 4 | .mowait => 5 | .pkwait => 6

/-- Replace a valve's record, and show it in VL.STAT. -/
def State.setValve (s : State) (n : Nat) (v : Valve) : State :=
  let s := { s with valves := tset (fun _ => {}) s.valves n v }
  let s := s.setFld (vlPg n) R.VL.STAT.PHASE (vpCode v.phase)
  let s := s.setBit (vlPg n) R.VL.STAT.PEND v.pend
  s.setBit (vlPg n) R.VL.STAT.LATCH v.latch

/-- The code of a side's source in VSIDE.STAT. -/
def srcCode : SideSrc → Nat
  | .off => 0 | .battery => 1 | .boost => 2

/-- More than two valves of the side are enabled, or MINOFF is set (R185). -/
def State.minoff (s : State) (b : Nat) : Bool :=
  decide (2 < ((sideValves b).filter fun n => s.enabled (vlPg n)).length) ||
    (if b = 0 then s.bit vsPg R.VSIDE.CFG.MODEA else s.bit vsPg R.VSIDE.CFG.MODEB)

/-- The limp value of a side is imposed: level 1, or the loss of the PWR clock (R191). -/
def State.sideLimped (s : State) (b : Nat) : Bool := s.level1 (72 + b) || !s.clocked .pwr

/-- Replace a side's record, and show it in VSIDE.STAT. -/
def State.setSide (s : State) (b : Nat) (v : Side) : State :=
  let v := { v with
    edge := if (v.src = .off) = ((s.sideAt b).src = .off) then v.edge else some s.tb
    limpAt := if s.sideLimped b then (match v.limpAt with | some t => some t | none => some s.kaNow) else none }
  let s := { s with sides := tset (fun _ => {}) s.sides b v }
  let s := s.setFld vsPg (if b = 0 then R.VSIDE.STAT.SRCA else R.VSIDE.STAT.SRCB) (srcCode v.src)
  let s := s.setBit vsPg (if b = 0 then R.VSIDE.STAT.EFFA else R.VSIDE.STAT.EFFB) (s.minoff b)
  let s := s.setBit vsPg (if b = 0 then R.VSIDE.STAT.LATA else R.VSIDE.STAT.LATB) v.latch
  s.setFld vsPg (if b = 0 then R.PG_STAT.GOV else R.PG_STAT.GOVB)
    (if s.level1 (72 + b) then govSafe else if v.latch then govLatch else govLive)

/-- The boost converter runs: in CHARGE or READY, outside the conditions of R151 on its die (R186). -/
def State.boostConverts (s : State) : Bool :=
  (s.fld vsPg R.BOOST.STAT.ST = 1 || s.fld vsPg R.BOOST.STAT.ST = 2) && !(s.dieAt 1).any

/-- The boost store can feed a peak: CHARGE or READY (R182). -/
def State.boostFeeds (s : State) : Bool := s.fld vsPg R.BOOST.STAT.ST = 1 || s.fld vsPg R.BOOST.STAT.ST = 2

/-- A valve stands in PEAK or waits for one. -/
def State.sidePeaking (s : State) (b : Nat) : Bool :=
  (s.sideAt b).peakNext.isSome ||
    (sideValves b).any fun n => (s.valveAt n).phase = .peak || (s.valveAt n).phase = .pkwait

/-- A side's switches are off by its latch or a condition of R29 (R190, R191). -/
def State.sideCut (s : State) (b : Nat) : Bool :=
  (s.sideAt b).latch || (s.sideAt b).tsd || (s.dieAt 1).off || (s.dieAt 1).revb

/-- The switch a side uses (R187): boost, or battery while the boost is off or in FAULT, while a valve peaks or waits; battery
while any valve runs another phase; off otherwise, and while latched, limp or cut by R29. -/
def State.sideWant (s : State) (b : Nat) : SideSrc :=
  if s.sideCut b ∨ (s.sideAt b).limpOff then .off
  else if s.sidePeaking b then (if s.boostFeeds then .boost else .battery)
  else if (sideValves b).any fun n =>
      (s.valveAt n).phase = .pkhold || (s.valveAt n).phase = .hold || (s.valveAt n).phase = .decay then .battery
  else .off

/-- A valve enters PEAK (R182, R187, R188): with that entry its wait is recorded. -/
def State.vlEnterPeak (s : State) (n : Nat) : State :=
  let v := s.valveAt n
  let s := match v.waitStart with
    | some t => s.setFld (vlPg n) R.VL.STAT.WAITD (min 0xFFFF ((s.tb - t) / 100))
    | none => s
  let s := s.setValve n { v with phase := .peak, phaseStart := s.tb, chopOn := true, waitStart := none }
  let s := s.setBit (vlPg n) R.VL.STAT.BFED ((s.sideAt (vlSide n)).src = .boost)
  s.detectIf (s.bit vsPg R.BOOST.CFG.BEN && s.fld vsPg R.BOOST.STAT.ST = 1) (vlPg n) 6

/-- Bring a side to the switch it uses: from one switch to the other over a dead time of 10 ticks (R182). The valve whose peak
waited for the side enters PEAK as it is fed (R187). A load dump freezes the side (R151). -/
def State.sideUpdate (s : State) (b : Nat) : State :=
  let v := s.sideAt b
  let want := s.sideWant b
  if (s.dieAt 1).ldump ∧ !s.sideCut b then s.setSide b v
  else match v.next with
  | some (t, e) =>
    if want = .off then s.setSide b { v with src := .off, next := none, peakNext := none }
    else if want = t then s.setSide b v else s.setSide b { v with next := some (want, e) }
  | none =>
    if want = v.src then s.setSide b v
    else if want = .off then s.setSide b { v with src := want }
    else if v.src = .off then
      let s := s.setSide b { v with src := want, peakNext := none }
      match v.peakNext with
      | some n => s.vlEnterPeak n
      | none => s
    else s.setSide b { v with src := .off, next := some (want, s.tb + 10) }

/-- The waiting valve with the earliest start, of equal starts the lowest-numbered (R187). -/
def State.nextWaiter (s : State) (b : Nat) : Option Nat :=
  (sideValves b).foldl (fun best n =>
    if (s.valveAt n).phase ≠ .pkwait then best
    else match best with
      | none => some n
      | some m => if (s.valveAt n).waitStart.getD 0 < (s.valveAt m).waitStart.getD 0 then some n else best) none

/-- A valve takes its peak: at once when the side is on its switch, after the dead time otherwise (R187). -/
def State.vlTakePeak (s : State) (n : Nat) : State :=
  let b := vlSide n
  let s := (s.setSide b { s.sideAt b with peakNext := some n }).sideUpdate b
  let v := s.sideAt b
  if v.peakNext = some n ∧ v.next.isNone ∧ v.src ≠ .off then (s.setSide b { v with peakNext := none }).vlEnterPeak n else s

/-- The side's running peak has ended: the next waiter takes its peak, or the side is brought to its switch (R187). In a load dump
the gates are frozen, and the waiter waits on (R151). -/
def State.sidePeakEnded (s : State) (b : Nat) : State :=
  if (s.dieAt 1).ldump ∨ (s.sideAt b).peakNext.isSome ∨ (sideValves b).any fun n => (s.valveAt n).phase = .peak then s.sideUpdate b
  else match s.nextWaiter b with
    | some n => (s.setValve n { s.valveAt n with phase := .idle }).vlTakePeak n
    | none => s.sideUpdate b

/-- A profile start (R182, R187). (DEDUCED: log entry 38.) -/
def State.vlStart (s : State) (n : Nat) : State :=
  let b := vlSide n
  let s := s.count (vlPg n) 0
  if (s.sideAt b).peakNext.isSome ∨ (sideValves b).any fun m => m ≠ n && (s.valveAt m).phase = .peak then
    let s := s.setValve n { s.valveAt n with phase := .pkwait, waitStart := some s.tb }
    ((s.detect (vlPg n) 7).count (vlPg n) 1).sideUpdate b
  else (s.setValve n { s.valveAt n with phase := .idle, waitStart := none }).vlTakePeak n

/-- A valve leaves its phase for another that needs no peak; a peak that ends lets the next waiter in (R187). From PKHOLD to HOLD
the chopper goes on with its switch as it is (R183). -/
def State.vlMove (s : State) (n : Nat) (p : VPhase) : State :=
  let b := vlSide n
  let s := if (s.sideAt b).peakNext = some n then s.setSide b { s.sideAt b with peakNext := none } else s
  let s := s.setValve n { s.valveAt n with
    phase := p, phaseStart := s.tb, chopOn := (s.valveAt n).chopOn && (s.valveAt n).phase == .pkhold && p == .hold }
  s.sidePeakEnded b

/-- A valve is turned off (R184, R185, R193): DECAY from a phase with current; a start that waits ends with nothing started; one
that is pending is discarded if `dropPend` says so. -/
def State.vlOff (s : State) (n : Nat) (dropPend : Bool) : State :=
  let v := s.valveAt n
  let drop := dropPend || v.phase = .mowait || v.phase = .pkwait
  let s := if drop then s.setValve n { v with pend := false, waitStart := none } else s
  match v.phase with
  | .peak => s.vlMove n .decay
  | .pkhold => s.vlMove n .decay
  | .hold => s.vlMove n .decay
  | .pkwait => s.vlMove n .idle
  | .mowait => s.vlMove n .idle
  | .decay => s
  | .idle => if (s.sideAt (vlSide n)).peakNext = some n then s.vlMove n .idle else s

/-- A condition of R29 other than load dump holds a valve off: its own, its side's or its die's (R151, R190, R191). -/
def State.vlHeld (s : State) (n : Nat) : Bool :=
  (s.valveAt n).tsd || (s.sideAt (vlSide n)).tsd || (s.dieAt 1).off || (s.dieAt 1).revb

/-- A trigger, or a level-mode change to on (R184, R185). While a condition of R29 holds the valve off, a load dump freezes its
switches or its side's latch holds it, it starts nothing. (DESIGN CHOICE: log entry 72.) -/
def State.vlTrigger (s : State) (n : Nat) : State :=
  let m := s.minoff (vlSide n)
  let s := s.setValve n { s.valveAt n with lastTrig := s.tb }
  let v := s.valveAt n
  let store := fun (t : State) =>
    if v.pend then t.count (vlPg n) 2 else t.setValve n { v with pend := true }
  if s.vlHeld n ∨ (s.dieAt 1).ldump ∨ (s.sideAt (vlSide n)).latch then s
  else match v.phase with
  | .idle =>
    if (s.sideAt (vlSide n)).peakNext = some n then (if m then store s else s)
    else match v.decayEnd with
      | some e =>
        if m ∧ s.tb < e + s.fld (vlPg n) R.VL.MINOFF.TMINOFF * 1000 then s.vlMove n .mowait else s.vlStart n
      | none => s.vlStart n
  | .decay =>
    if m then store s
    else
      let s := s.vlMove n .hold
      s.setValve n { s.valveAt n with holdEnd := s.tb + s.fld (vlPg n) R.VL.HOLD.THOLD * 10000 }
  | .mowait => s.count (vlPg n) 2
  | .pkwait => if m then s.count (vlPg n) 2 else s
  | _ =>
    if m then store s
    else s.setValve n { v with holdEnd := max v.holdEnd (s.tb + s.fld (vlPg n) R.VL.HOLD.THOLD * 10000) }

/-- What levels 3 and 4 give a valve, with the level it came from (R184). -/
def State.vlLower (s : State) (n : Nat) : Bool × Nat :=
  match s.govClauseOf [0x060 + n] with
  | some c => (s.clFld c R.CL.VERB.VERB = 2, govClause)
  | none => (s.bit (vlPg n) R.VL.OUT.ON, govLive)

/-- A valve is held off by its latch or its side's (R184). -/
def State.vlLatched (s : State) (n : Nat) : Bool := (s.valveAt n).latch || (s.sideAt (vlSide n)).latch

/-- Evaluate the chain for valve `n` (R182, R184): its level, its command, and what a change of it starts or ends. The conditions
of R29 act after the chain: under one that turns the gates off, or without the PWR clock, a running profile goes to DECAY and
a pending start is discarded; a load dump holds the command as it is but for a latch (R151). (DESIGN CHOICE: log entry 72.) -/
def State.vlSettle (s : State) (n : Nat) : State :=
  let v := s.valveAt n
  let cl := s.govClauseOf [0x060 + n]
  let run := s.clocked .pwr
  let lvl := if run then s.govLevel (64 + n) (s.vlLatched n) v.heldGov cl.isSome else s.fld (vlPg n) R.PG_STAT.GOV
  let en := run && s.enabled (vlPg n)
  let forced := lvl = govSafe ∨ lvl = govLatch ∨ !en
  let s := if run ∧ cl.isSome ∧ (lvl ≥ govLatch ∨ !s.enabled (vlPg n)) then s.heldOff (cl.getD 0) else s
  let s := s.setFld (vlPg n) R.PG_STAT.GOV lvl
  if (s.dieAt 1).ldump ∧ !s.vlHeld n ∧ lvl ≠ govLatch ∧ run then s.sideUpdate (vlSide n)
  else
    let cmd := en && (if lvl = govSafe ∨ lvl = govLatch then false
      else if s.heldBit (64 + n) then v.heldCmd else (s.vlLower n).1)
    let s := s.setValve n { v with cmd := cmd }
    if forced ∨ s.vlHeld n then (s.vlOff n true).sideUpdate (vlSide n)
    else if cmd ∧ !v.cmd then s.vlTrigger n
    else if !cmd ∧ v.cmd ∧ !s.bit (vlPg n) R.VL.CFG.PULSE then s.vlOff n false
    else s.sideUpdate (vlSide n)

/-- A valve's start waits (R185, R187). -/
def State.vlWaits (s : State) (n : Nat) : Bool :=
  (s.valveAt n).phase = .pkwait || (s.valveAt n).phase = .mowait || (s.sideAt (vlSide n)).peakNext = some n

/-- Evaluate the chain for several valves in one PWR cycle (R187, R193): the starts that wait first, so that none of them enters
PEAK as another valve is turned off with it. -/
def State.vlSettleList (s : State) (l : List Nat) : State :=
  let w := l.filter s.vlWaits
  (w ++ l.filter fun n => !w.contains n).foldl State.vlSettle s

/-- Evaluate the chain for every valve and both sides. -/
def State.vlSettleAll (s : State) : State := ((s.vlSettleList (List.range 8)).sideUpdate 0).sideUpdate 1

/-- A latching condition of a valve (R189); a disabled valve takes no part (R182), and nothing latches without the PWR clock. -/
def State.vlFault (s : State) (n bit : Nat) : State :=
  if !s.enabled (vlPg n) ∨ !s.clocked .pwr then s
  else
    let s := (s.detect (vlPg n) bit).count (vlPg n) 3
    (s.setValve n { s.valveAt n with latch := true }).vlSettle n

/-- A valve's profile runs on: in one of two phases, with its gates not frozen and the PWR clock running (R105, R151, R182). -/
def State.vlRuns (s : State) (n : Nat) (p : VPhase) : Bool :=
  (s.valveAt n).phase = p && s.clocked .pwr && !(s.dieAt 1).ldump

/-! ## Meanings -/

/-- A write of VL.OUT (R31, R184). -/
def State.vlWriteOut (s : State) (n : Nat) (d : Word) : State :=
  ((s.setFld (vlPg n) R.VL.OUT.ON (R.VL.OUT.ON.get d)).ok (vlPg n)).vlSettle n

/-- TRIG (R184): a level-4 trigger in pulse mode, without effect while another level governs; refused in level mode. -/
def execTrig (n : Fin 8) (s : State) : Outcome :=
  if !s.clocked .pwr then .next s
  else if s.locked (vlPg n) ∨ !s.bit (vlPg n) R.VL.CFG.PULSE then .next (s.refuse (vlPg n))
  else
    let s := s.ok (vlPg n)
    if s.enabled (vlPg n) ∧ s.fld (vlPg n) R.PG_STAT.GOV = govLive ∧ !s.heldBit (64 + n) then .next (s.vlTrigger n)
    else .next s

/-- PEAK_END (R182, R189): the current reaches IPK; within 2 us of the peak's start that is a short, and after TPKMAX it comes too
late. -/
def execPeakEnd (n : Fin 8) (i : Nat) (s : State) : Outcome :=
  let v := s.valveAt n
  if s.vlRuns n .peak ∧ s.fld (vlPg n) R.VL.PEAK.IPK * 10 ≤ i then
    if s.tb ≤ v.phaseStart + 200 then .next (s.vlFault n 2)
    else if v.phaseStart + s.fld (vlPg n) R.VL.PEAK.TPKMAX * 100 < s.tb then .next (s.vlFault n 4)
    else .next (s.vlMove n .pkhold)
  else .next s

/-- PKHOLD_END (R182, R185): HOLD begins, and with it its end in pulse mode; under EXTEND a later trigger has moved it. A fix that
changes THOLD during the hold does not move its end. (DESIGN CHOICE: log entry 72.) -/
def execPkholdEnd (n : Fin 8) (s : State) : Outcome :=
  let v := s.valveAt n
  if s.vlRuns n .pkhold then
    s.atTick (v.phaseStart + s.fld (vlPg n) R.VL.PHOLD.TPH * 100) fun s =>
      let s := s.vlMove n .hold
      s.setValve n { s.valveAt n with holdEnd := s.tb + s.fld (vlPg n) R.VL.HOLD.THOLD * 10000 }
  else .next s

/-- END_OF_HOLD (R185). -/
def execEndOfHold (n : Fin 8) (s : State) : Outcome :=
  let v := s.valveAt n
  if s.vlRuns n .hold ∧ s.bit (vlPg n) R.VL.CFG.PULSE then s.atTick v.holdEnd fun s => s.vlMove n .decay else .next s

/-- At level 1 a side turns off once all its valves have left DECAY (R191). -/
def State.sideLimp (s : State) (b : Nat) : State :=
  if s.level1 (72 + b) ∧ !(sideValves b).any fun n => (s.valveAt n).phase = .decay then
    (s.setSide b { s.sideAt b with limpOff := true }).sideUpdate b
  else s

/-- DECAY_END (R182, R185): below 50 mA the valve goes to IDLE, or to MOWAIT with a start pending; event 147. VL.STAT.PEND stays 1 in
a MOWAIT that a pending start entered. (DESIGN CHOICE: log entry 72.) -/
def execDecayEnd (n : Fin 8) (i : Nat) (s : State) : Outcome :=
  let v := s.valveAt n
  if v.phase = .decay ∧ s.clocked .pwr ∧ i < 50 then
    let s := s.setValve n { v with decayEnd := some s.tb }
    let s := s.vlMove n (if v.pend then .mowait else .idle)
    .next ((s.post 147).sideLimp (vlSide n))
  else .next s

/-- MOWAIT_END (R185): a pulse-mode valve starts; a level-mode valve only if its command is still on. -/
def execMowaitEnd (n : Fin 8) (s : State) : Outcome :=
  let v := s.valveAt n
  if s.vlRuns n .mowait then
    s.atTick (v.decayEnd.getD 0 + s.fld (vlPg n) R.VL.MINOFF.TMINOFF * 1000) fun s =>
      let s := s.setValve n { v with pend := false, phase := .idle }
      if s.bit (vlPg n) R.VL.CFG.PULSE ∨ v.cmd then s.vlStart n else s
  else .next s

/-- SIDE_CHANGEOVER_END (R182, R187): the other switch closes, and the valve whose peak waited for it enters PEAK. -/
def execSideChangeoverEnd (b : Fin 2) (s : State) : Outcome :=
  let v := s.sideAt b
  match v.next with
  | some (src, e) =>
    if !s.clocked .pwr ∨ (s.dieAt 1).ldump then .next s
    else s.atTick e fun s =>
      let s := s.setSide b { v with src := src, next := none, peakNext := none }
      match v.peakNext with
      | some n => s.vlEnterPeak n
      | none => s
  | none => .next s

/-- VALVE_OPEN (R189): below 50 mA at 20 us after the peak began. -/
def execValveOpen (n : Fin 8) (i : Nat) (s : State) : Outcome :=
  let v := s.valveAt n
  if s.vlRuns n .peak ∧ i < 50 then s.atTick (v.phaseStart + 2000) fun s => s.vlFault n 1 else .next s

/-- VALVE_SHORT (R189): IPK within 2 us of the peak's start. -/
def execValveShort (n : Fin 8) (i : Nat) (s : State) : Outcome :=
  let v := s.valveAt n
  if s.vlRuns n .peak ∧ s.tb ≤ v.phaseStart + 200 ∧ s.fld (vlPg n) R.VL.PEAK.IPK * 10 ≤ i
  then .next (s.vlFault n 2) else .next s

/-- PKTIME (R189). -/
def execPktime (n : Fin 8) (s : State) : Outcome :=
  let v := s.valveAt n
  if s.vlRuns n .peak
  then s.atTick (v.phaseStart + s.fld (vlPg n) R.VL.PEAK.TPKMAX * 100) fun s => s.vlFault n 4 else .next s

/-- VALVE_CEIL (R189): the analog comparator at 15 A. -/
def execValveCeil (n : Fin 8) (i : Nat) (s : State) : Outcome :=
  if 15000 ≤ i then .next (s.vlFault n 8) else .next s

/-- VL_CLR (R189, R196): clears the valve's own latch; refused when it is not latched. -/
def execVlClr (n : Fin 8) (s : State) : Outcome :=
  if !s.clocked .pwr then .next s
  else if s.locked (vlPg n) ∨ !(s.valveAt n).latch then .next (s.refuse (vlPg n))
  else .next (((s.setValve n { s.valveAt n with latch := false }).ok (vlPg n)).vlSettle n)

/-- The side's latch sets (R190): its switches off, its running valves to DECAY with SIDE, its waiting starts discarded. -/
def State.sideFault (s : State) (b bit : Nat) : State :=
  let s := s.detect vsPg bit
  let s := s.setSide b { s.sideAt b with latch := true, src := .off, next := none, peakNext := none }
  let s := (sideValves b).foldl (fun t n =>
    t.detectIf ((t.valveAt n).phase = .peak || (t.valveAt n).phase = .pkhold || (t.valveAt n).phase = .hold) (vlPg n) 9) s
  s.vlSettleList (sideValves b)

/-- SIDE_LATCH (R190): the shared ceiling comparator of a side at 30 A. Without the PWR clock it turns the side off, and nothing
is recorded (R152). (DESIGN CHOICE: log entry 70.) -/
def execSideLatch (b : Fin 2) (i : Nat) (s : State) : Outcome :=
  if 30000 ≤ i then
    if s.clocked .pwr then .next (s.sideFault b (3 + b))
    else .next ((s.setSide b { s.sideAt b with limpOff := true }).sideUpdate b)
  else .next s

/-- Clear a side's latch; refused when it is not latched (R190). -/
def State.sideClr (s : State) (b : Nat) : State :=
  if s.locked vsPg ∨ !(s.sideAt b).latch then s.refuse vsPg
  else
    ((s.setSide b { s.sideAt b with latch := false }).ok vsPg).vlSettleList (sideValves b)

/-- CLRA (R190). -/
def execClra (s : State) : Outcome := if s.clocked .pwr then .next (s.sideClr 0) else .next s
/-- CLRB (R190). -/
def execClrb (s : State) : Outcome := if s.clocked .pwr then .next (s.sideClr 1) else .next s

/-- VSET in millivolts (R186). -/
def State.vset (s : State) : Nat := 24000 + s.fld vsPg R.BOOST.CFG.VSET * 250

/-- The ready voltage in millivolts (R186). -/
def State.readyV (s : State) : Nat := s.vset - s.fld vsPg R.BOOST.CFG.RDYM * 500

/-- Set the boost's state, and bring both sides to their switches. -/
def State.setBoost (s : State) (st : Nat) : State :=
  ((s.setFld vsPg R.BOOST.STAT.ST st).sideUpdate 0).sideUpdate 1

/-- The boost enters CHARGE (R186). -/
def State.boostCharge (s : State) : State := { s.setBoost 1 with boostTick := s.tb, boostTold := false }

/-- BCLR (R186): leaves FAULT; refused outside it. -/
def execBclr (s : State) : Outcome :=
  if !s.clocked .pwr then .next s
  else if s.locked vsPg ∨ s.fld vsPg R.BOOST.STAT.ST ≠ 3 then .next (s.refuse vsPg) else .next ((s.ok vsPg).boostCharge)

/-- The store's voltage is measured (R186). -/
def State.boostMeas (s : State) (v : Nat) : State := s.setFld vsPg R.BOOST.STAT.VMEAS (min 0xFFFF (v / 10))

/-- BOOST_READY (R186, R195). -/
def execBoostReady (v : Nat) (s : State) : Outcome :=
  if !s.clocked .pwr then .next s
  else
  let s := s.boostMeas v
  if s.fld vsPg R.BOOST.STAT.ST = 1 ∧ s.readyV ≤ v then .next ((s.setBoost 2).post 148) else .next s

/-- BOOST_READY_LOST (R186). -/
def execBoostReadyLost (v : Nat) (s : State) : Outcome :=
  if !s.clocked .pwr then .next s
  else
  let s := s.boostMeas v
  if s.fld vsPg R.BOOST.STAT.ST = 2 ∧ v < s.readyV then .next s.boostCharge else .next s

/-- BOVP (R186): the converter stops. -/
def execBovp (v : Nat) (s : State) : Outcome :=
  if !s.clocked .pwr then .next s
  else
  let s := s.boostMeas v
  if s.boostFeeds ∧ s.vset + 5000 < v then .next ((s.setBoost 3).detect vsPg 1) else .next s

/-- BUVTO (R186): set once, charging continues. -/
def execBuvto (s : State) : Outcome :=
  if s.clocked .pwr ∧ s.fld vsPg R.BOOST.STAT.ST = 1 ∧ !s.boostTold
  then s.atTick (s.boostTick + 2000000) fun s => ({ s with boostTold := true } : State).detect vsPg 2 else .next s

/-- SIDE_LIMP_TIMEOUT (R191): 2 ms after safe state was entered, or the PWR clock was lost, the side is off at the latest. -/
def execSideLimpTimeout (b : Fin 2) (s : State) : Outcome :=
  match (s.sideAt b).limpAt with
  | some t => s.atKa (t + 200000) fun s => (s.setSide b { s.sideAt b with limpOff := true }).sideUpdate b
  | none => .next s

/-- VL.SENSE.CODE reads the fault rail (R192): the valve is latched, not its side alone. -/
def State.vlRail (s : State) (n : Nat) : Bool :=
  (s.valveAt n).latch || (s.dieAt 1).any || (s.valveAt n).tsd || (s.valveAt n).senseFail

/-- A conversion of a valve's converter (R192), with its thermal model: tau 0.5 s, ICONT_present 3 A (R189). A disabled valve
shows no new code and does not latch (R182). (DESIGN CHOICE: log entry 72.) -/
def State.vlSense (s : State) (n : Nat) (i : Int) (fail : Bool) : State :=
  let v := s.valveAt n
  let x := thermalStep v.x (max 0 i) 500000
  let s := s.setValve n { v with x := x, senseFail := fail && s.enabled (vlPg n) }
  if !s.enabled (vlPg n) then s
  else
    let s := s.setFld (vlPg n) R.VL.SENSE.CODE (senseCode 1000 i)
    if (9000000000000 : Rat) ≤ x ∧ !v.latch then s.vlFault n 5 else s

/-- VSIDE.SENSE of a side reads the fault rail (R192). -/
def State.sideRail (s : State) (b : Nat) : Bool :=
  (s.sideAt b).latch || (s.dieAt 1).any || (s.sideAt b).tsd || (s.sideAt b).senseFail

/-- A conversion of a side's converter (R192). -/
def State.sideSense (s : State) (b : Nat) (i : Int) (fail : Bool) : State :=
  let s := s.setSide b { s.sideAt b with senseFail := fail }
  s.setFld vsPg (if b = 0 then R.VSIDE.SENSE.CODEA else R.VSIDE.SENSE.CODEB) (senseCode 2500 i)

/-! ## Chopping -/

/-- The chopper's period and phase as they run; those of the registers before the first change (R99, R183). -/
def State.vlGen (s : State) (n : Nat) : Gen :=
  let g := (s.valveAt n).gen
  if g.cur = .off ∧ g.nxt = none then ⟨.pwm (s.fld (vlPg n) R.VL.CHOP.P) (s.fld (vlPg n) R.VL.PHASE.PH) 0x8000, none⟩ else g

/-- A fix changes a valve's chopper (R99, R193): the new period and phase run from their first period start. -/
def State.vlFix (s o : State) (n : Nat) : State :=
  let new := OutCmd.pwm (s.fld (vlPg n) R.VL.CHOP.P) (s.fld (vlPg n) R.VL.PHASE.PH) 0x8000
  s.setValve n { s.valveAt n with gen := (o.vlGen n).command s.tb true new }

/-- The current that the chopper regulates to, in milliamperes (R182, R183). -/
def State.vlTarget (s : State) (n : Nat) : Nat :=
  10 * (if (s.valveAt n).phase = .pkhold then s.fld (vlPg n) R.VL.PEAK.IPK else s.fld (vlPg n) R.VL.HOLD.IHOLD)

/-- The chopper's next period start, after the last one taken (R183). -/
def State.vlNextStart (s : State) (n : Nat) : Nat :=
  let t := (s.vlGen n).nextStart s.tb
  if (s.valveAt n).chopStart = some t then (s.vlGen n).nextStart (t + 1) else t

/-- An edge of a valve's chopper (R183): at a period start the switch turns on; it turns off when the current has reached the
target, or 100 ticks before the next start. -/
def State.vlChop (s : State) (n i : Nat) : Outcome :=
  let v := s.valveAt n
  if (!s.vlRuns n .pkhold ∧ !s.vlRuns n .hold) ∨ s.vlHeld n then .next s
  else if v.chopOn then
    if s.vlTarget n ≤ i then .next (s.setValve n { v with chopOn := false })
    else s.atTick ((s.vlGen n).nextStart (v.chopStart.getD s.tb + 1) - 100) fun s => s.setValve n { s.valveAt n with chopOn := false }
  else s.atTick (s.vlNextStart n) fun s => s.setValve n { s.valveAt n with chopOn := true, chopStart := some s.tb }

/-- The low-side switch of a valve is on (R182, R183): in PEAK, and in the on-time of the chopper. -/
def State.vlGate (s : State) (n : Nat) : Bool :=
  s.clocked .pwr && !s.vlHeld n && ((s.valveAt n).phase = .peak || (s.valveAt n).chopOn)

end Sys2Proof.Machine
end

