-- ==== Sys2Proof/Machine/Fabric.lean ====
section
/-! DEFINITION. The clause fabric (R230-R253): subjects and conditions, triggers and durations, verbs, link slots and
reflex frames, and the views of the REFLEX pages. -/

namespace Sys2Proof.Machine

/-- The pages RXC, RXO and RXL (R251). -/
def rxcPg : Nat := 0x040
/-- Page RXO. -/
def rxoPg : Nat := 0x051
/-- Page RXL. -/
def rxlPg : Nat := 0x052
/-- The window page of a clause. -/
def cwPg (c : Nat) : Nat := 0x041 + c / 32

/-- A clause is evaluated (R230, R248, R249). -/
def State.clEval (s : State) (c : Nat) : Bool :=
  s.rxRuns && s.enabled rxcPg && s.enabled (cwPg c) && s.clFld c R.CL.SUBJ.EN ≠ 0 && !(s.clauseAt c).broken

/-- The clauses whose subject register is listed: all that can be evaluated (CL.SUBJ.EN resets to 0). -/
def State.clListed (s : State) : List Nat :=
  s.regs.filterMap fun e =>
    let off := e.1 % 0x1000
    if 0x41000 ≤ e.1 ∧ e.1 < 0x51000 ∧ 0x100 ≤ off ∧ off < 0x500 ∧ off % 0x20 = 0
    then some ((e.1 / 0x1000 - 0x41) * 32 + (off - 0x100) / 0x20) else none

/-! ## Subjects -/

/-- The kinds of signal (R231). -/
inductive Sig where
  | level | pulse | measured | reserved
  deriving DecidableEq, Repr

/-- The kind of a subject code (R231). -/
def sigKind (u : Nat) : Sig :=
  if u < 0x50 ∨ (0x58 ≤ u ∧ u < 0x66) ∨ (0x100 ≤ u ∧ u < 0x140) then .level
  else if (0x50 ≤ u ∧ u < 0x58) ∨ (0x200 ≤ u ∧ u < 0x800) then .pulse
  else if 0x80 ≤ u ∧ u < 0xD4 then .measured else .reserved

/-- Slot `t` of RXL.ACC is accepted, and the slots are in service (R245). -/
def State.slotTaken (s : State) (t : Nat) : Bool :=
  s.enabled rxlPg && (s.fld rxlPg (if t < 32 then R.RXL.ACC_LO.ACC else R.RXL.ACC_HI.ACC)).testBit (t % 32)

/-- A link slot's record. -/
def State.slotAt (s : State) (t : Nat) : Slot := tget (fun _ => {}) s.slots t
/-- Replace a link slot's record. -/
def State.setSlot (s : State) (t : Nat) (v : Slot) : State := { s with slots := tset (fun _ => {}) s.slots t v }

/-- The value of a binary level signal; false where its source does not operate (R231). -/
def State.sigLevel (s : State) (u : Nat) : Bool :=
  if u < 0x40 then s.siOn u && s.siSt u
  else if u < 0x50 then s.ioMode (u - 0x40) ≠ 0 && s.bit (ioPg (u - 0x40)) (ioBit (s.ioMode (u - 0x40)))
  else if 0x58 ≤ u ∧ u < 0x66 then s.brOperates (u - 0x58) && (s.bridgeAt (u - 0x58)).pinch
  else if 0x100 ≤ u ∧ u < 0x140 then s.slotTaken (u - 0x100) && (s.slotAt (u - 0x100)).val
  else false

/-- The page whose enable a measured signal needs. -/
def sigPage (u : Nat) : Nat := if u < 0xB0 then hsPg (u - 0x80) else if u < 0xCC then legPg (u - 0xB0) else vlPg (u - 0xCC)

/-- The reading of a measured signal in 10 mA, from `i` milliamperes: 0 where its source does not operate, and for a
high-side current in reverse (R231, R232). -/
def State.sigReading (s : State) (u : Nat) (i : Int) : Int :=
  if !s.enabled (sigPage u) then 0 else if u < 0xB0 ∧ i < 0 then 0 else i / 10

/-- The condition of a measured signal, from the one before (R232). (DESIGN CHOICE: log entry 18.) -/
def State.measCond (s : State) (c : Nat) (r : Int) (prev : Bool) : Bool :=
  let thr := s.sfld (cwPg c) (R.CL.THR.THR (c % 32))
  if thr < r then true else if r < thr - (s.clFld c R.CL.THR.HYS : Int) then false else prev

/-- The qualifier holds (R233). -/
def State.clQual (s : State) (c : Nat) : Bool :=
  s.clFld c R.CL.QUAL.QEN = 0 || s.sigLevel (s.clFld c R.CL.QUAL.QSUBJ) == decide (s.clFld c R.CL.QUAL.QPOL = 1)

/-! ## Active states -/

/-- The ticks of a DUNIT (R235). -/
def dunit (u : Nat) : Nat := match u with | 0 => 1 | 1 => 100 | _ => 100000

/-- A clause ends: event 49 under TEV (R242). -/
def State.clEnd (s : State) (c : Nat) : State :=
  (s.setClause c { s.clauseAt c with active := false, endTick := 0, heldOnce := false }).postIf (s.clFld c R.CL.ASP.TEV ≠ 0) 49

/-- A trigger of a clause (R235, R236, R242): counted, event 48 under TEV, POST posts its event, and the active state changes. -/
def State.clTrigger (s : State) (c : Nat) : State :=
  let k := s.clauseAt c
  let dm := s.clFld c R.CL.ASP.DMODE
  let s := s.count (cwPg c) (2 * (c % 32))
  let s := s.postIf (s.clFld c R.CL.ASP.TEV ≠ 0) 48
  let s := if s.clFld c R.CL.VERB.VERB = 8 then s.postFrom Island.rx.index (s.clFld c R.CL.VERB.OBJ) else s
  let till := s.tb + s.clFld c R.CL.ASP.DUR * dunit (s.clFld c R.CL.ASP.DUNIT)
  if !k.active then s.setClause c { k with active := true, endTick := if dm = 1 then till else 0, heldOnce := false }
  else match s.clFld c R.CL.ASP.RTRG with
    | 0 => if dm = 1 then s.setClause c { k with endTick := till } else s
    | 2 => if dm = 0 then s else s.clEnd c
    | _ => s

/-- A TIMED clause whose end tick has come ends (R235). -/
def State.clDue (s : State) (c : Nat) : State :=
  let k := s.clauseAt c
  if k.active && decide (s.clFld c R.CL.ASP.DMODE = 1) && decide (k.endTick ≤ s.tb) then s.clEnd c else s

/-- A trigger by the subject or by FIRE; both in one RX cycle, which the model takes to be those of one tick, make one trigger
(R243). (DESIGN CHOICE: log entry 42.) -/
def State.clTake (s : State) (c : Nat) (fire : Bool) : State :=
  if (s.clauseAt c).took = some (s.tb, !fire) then s
  else (s.setClause c { s.clauseAt c with took := some (s.tb, fire) }).clTrigger c

/-- Stages S, M and A for one evaluated clause (R232-R236): `hit` a pulse of its subject, `i` a reading of it in
milliamperes. A measured condition that nothing has determined yet is a free value. (DESIGN CHOICE: log entries 18, 42.) -/
def State.clStep (s : State) (c : Nat) (hit : Bool) (i : Option Int) : State :=
  let u := s.clFld c R.CL.SUBJ.SUBJ
  let prev := (s.clauseAt c).prev
  let r : Option Bool × State := match sigKind u with
    | .level => (some (s.sigLevel u), s)
    | .pulse => (some hit, s)
    | .reserved => (some false, s)
    | .measured =>
      match i, prev with
      | some i, some p => (some (s.measCond c (s.sigReading u i) p), s)
      | some i, none => (some (s.measCond c (s.sigReading u i) (Config.freeBit s.freeCtr)), s.nextFree)
      | none, p => (p, s)
  match r.1 with
  | none => s
  | some cond =>
    let s := r.2.clDue c
    let s := s.setClause c { s.clauseAt c with prev := some (if sigKind u = .pulse then false else cond) }
    let q := s.clQual c
    let want := if s.clFld c R.CL.SUBJ.SMODE = 1 then !cond else cond
    let was := match prev with
      | none => false
      | some p => if s.clFld c R.CL.SUBJ.SMODE = 1 then !p else p
    if s.clFld c R.CL.ASP.DMODE = 0 then
      let a := (s.clauseAt c).active
      if a && !(want && q) then s.clEnd c else if !a && want && q then s.clTrigger c else s
    else
      let trig : Bool := match s.clFld c R.CL.SUBJ.SMODE with
        | 0 => want && !was
        | 1 => want && !was
        | 2 => cond && (sigKind u = .pulse || prev = some false)
        | 3 => !cond && prev = some true
        | 4 => if sigKind u = .pulse then cond else prev = some (!cond)
        | _ => false
      if trig && q then s.clTake c false else s

/-! ## Link slots -/

/-- The ports a reflex frame of this device leaves by: the selected trunk ports with a link (R244).
(DEDUCED: log entry 43.) -/
def State.reflexPorts (s : State) : List Nat :=
  (List.range 2).filter fun p => (s.fld rxlPg R.RXL.CFG.PORTS).testBit p && s.lrole p = 1 && s.ethUp p

/-- Send a reflex frame with the present send value (R244). (DEDUCED: log entry 43.) -/
def State.reflexSend (s : State) (t : Nat) : State :=
  let s := s.setSlot t { s.slotAt t with txTick := s.tb }
  match s.reflexPorts with
  | [] => s.detect rxlPg 2
  | ps =>
    let h := s.farHdr 1 (s.fld rxlPg R.RXL.CFG.HOPS)
    (ps.foldl (fun u p => u.emit (.reflex p t (s.slotAt t).send h)) (s.farSent 1)).count rxlPg 0

/-- An evaluated LINK clause names slot `t` (R244). -/
def State.linkNamed (s : State) (t : Nat) : Bool :=
  s.clListed.any fun c => s.clEval c && s.clFld c R.CL.VERB.VERB = 9 && s.clFld c R.CL.VERB.OBJ = t

/-- Bring slot `t`'s send value to its LINK clauses; a change is sent (R244). -/
def State.linkSettle (s : State) (t : Nat) : State :=
  let v := s.clauses.any fun e => e.2.active && s.clEval e.1 && s.clFld e.1 R.CL.VERB.VERB = 9 && s.clFld e.1 R.CL.VERB.OBJ = t
  let k := s.slotAt t
  let s := s.setSlot t { k with
    send := v, named := if s.linkNamed t then (k.named <|> some s.tb) else none }
  if v ≠ k.send ∧ s.enabled rxlPg then s.reflexSend t else s

/-! ## Objects -/

/-- Evaluate the chain of an object of R234. -/
def State.objSettle (s : State) (o : Nat) : State :=
  if o < 0x030 then s.hsSettle (s.hsLead o)
  else if 0x040 ≤ o ∧ o < 0x04E then s.brSettle (o - 0x040)
  else if 0x060 ≤ o ∧ o < 0x068 then s.vlSettle (o - 0x060) else s

/-- What clauses act on, taken once each: their objects, and the slots of their LINK verbs. -/
def State.clObjects (s : State) (cs : List Nat) (link : Bool) : List Nat :=
  ((cs.filter fun c =>
    if link then s.clFld c R.CL.VERB.VERB = 9 else 1 ≤ s.clFld c R.CL.VERB.VERB ∧ s.clFld c R.CL.VERB.VERB ≤ 6).map
      fun c => s.clFld c R.CL.VERB.OBJ).eraseDups

/-- Stages P to L for the objects and slots of some clauses (R240-R242); of the bridges the lower-numbered starts first (R166). -/
def State.clSettle (s : State) (cs : List Nat) : State :=
  (s.clObjects cs true).foldl State.linkSettle
    (((List.range 0x068).filter (s.clObjects cs false).contains).foldl State.objSettle s)

/-- Evaluation of clauses begins or resumes, without an observation of their signals beyond the level signals (R232, R249);
clauses that are not evaluated end. -/
def State.clRefresh (s : State) (cs : List Nat) : State :=
  let s := cs.foldl (fun t c =>
    if t.clEval c then
      (if sigKind (t.clFld c R.CL.SUBJ.SUBJ) = .pulse then
        (if (t.clauseAt c).prev = none then t.setClause c { t.clauseAt c with prev := some false } else t)
       else t.clStep c false none)
    else
      let t := t.setClause c { t.clauseAt c with prev := none }
      if (t.clauseAt c).active then t.clEnd c else t) s
  s.clSettle cs

/-- The clauses of a window page, and of all. -/
def State.clOf (s : State) (pg : Nat) : List Nat :=
  ((s.clListed ++ s.clauses.map (·.1)).eraseDups).filter fun c => pg = rxcPg || cwPg c = pg

/-- PG_CTRL.EN of RXC or of a window page changed (R249). -/
def State.clEnable (s : State) (pg : Nat) : State := s.clRefresh (s.clOf pg)

/-! ## Meanings -/

/-- An RX cycle observes a signal (R232, R233): the clauses that watch it, and those in FOLLOW that it qualifies. -/
def State.clObserve (s : State) (u : Nat) (hit : Bool) (i : Option Int) : State :=
  let mine := s.clListed.filter fun c => s.clEval c && s.clFld c R.CL.SUBJ.SUBJ = u
  let qual := s.clListed.filter fun c => s.clEval c && s.clFld c R.CL.SUBJ.SUBJ ≠ u && s.clFld c R.CL.ASP.DMODE = 0 &&
    s.clFld c R.CL.QUAL.QEN = 1 && s.clFld c R.CL.QUAL.QSUBJ = u
  let s := mine.foldl (fun t c => t.clStep c hit i) s
  let s := qual.foldl (fun t c => t.clStep c false none) s
  s.clSettle (mine ++ qual)

/-- The signals whose source is a page of its own, beside the link slots (R231). -/
def sigsOf (pg : Nat) : List Nat :=
  if 0x180 ≤ pg ∧ pg ≤ 0x187 then (List.range 8).map (8 * (pg - 0x180) + ·)
  else if 0x1A0 ≤ pg ∧ pg ≤ 0x1AF then [0x40 + (pg - 0x1A0)]
  else if pg = 0x15C then List.range' 0x58 14
  else if 0x140 ≤ pg ∧ pg ≤ 0x15B then (0xB0 + (pg - 0x140)) :: List.range' 0x58 14
  else if 0x100 ≤ pg ∧ pg ≤ 0x12F then [0x80 + (pg - 0x100)]
  else if 0x160 ≤ pg ∧ pg ≤ 0x167 then [0xCC + (pg - 0x160)] else []

/-- A page whose enable or fields changed is a source of signals (R231, R250): its level signals are observed, and where it is
disabled its measured ones at 0 A, so that a clause in FOLLOW on a source that no longer operates ends. -/
def State.sourceSeen (s : State) (pg : Nat) : State :=
  (sigsOf pg).foldl (fun (t : State) u =>
    if sigKind u = .level then t.clObserve u false none
    else if t.enabled pg then t else t.clObserve u false (some 0)) s

/-- The occurrence of a pulse that reaches the fabric next: those of one island arrive in the order of their ticks (R18). -/
def State.pulseNext (s : State) (u : Nat) : Option Pulse :=
  match s.pulses.find? (·.subj = u) with
  | some p => if s.pulses.any fun q => q.isl = p.isl && decide (q.tick < p.tick) then none else some p
  | none => none

/-- CLAUSE_TRIGGER (R232): an RX cycle observes a signal; a pulse is true once for each of its occurrences (R231), of which those of
one tick fall into one RX cycle. (DESIGN CHOICE: log entry 42.) -/
def execClauseTrigger (subj : BitVec 11) (i : Int) (s : State) : Outcome :=
  let u := subj.toNat
  if !s.rxRuns then .next s
  else if sigKind u = .pulse then
    (match s.pulseNext u with
     | some p => .next (({ s with pulses := s.pulses.filter fun q => !(q.subj = u && q.tick = p.tick) } : State).clObserve u true none)
     | none => .next s)
  else .next (s.clObserve u false (some i))

/-- CLAUSE_DURATION_END (R235). -/
def execClauseDurationEnd (c : Fin 512) (s : State) : Outcome :=
  let k := s.clauseAt c
  if k.active && decide (s.clFld c R.CL.ASP.DMODE = 1) && s.rxRuns then
    s.atTick k.endTick fun s => (s.clEnd c).clSettle [c.val]
  else .next s

/-- A TIMED clause whose end tick has come ends, and its object follows (R235, R240). -/
def State.clExpire (s : State) (c : Nat) : State :=
  if (s.clauseAt c).active && decide (s.clFld c R.CL.ASP.DMODE = 1) && decide ((s.clauseAt c).endTick ≤ s.tb)
  then (s.clEnd c).clSettle [c] else s

/-- RELEASE (R243), after a duration that ends in the same RX cycle (R237). -/
def execRelease (c : Fin 512) (s : State) : Outcome :=
  if !s.rxRuns then .next s
  else
    let s := s.clExpire c
    if s.locked rxcPg ∨ !(s.clauseAt c).active ∨ s.clFld c R.CL.ASP.DMODE = 0 then .next (s.refuse rxcPg)
    else .next (((s.ok rxcPg).clEnd c).clSettle [c.val])

/-- FIRE (R243): a trigger without subject and qualifier, one with a trigger by the subject in the same RX cycle.
(DESIGN CHOICE: log entry 42.) -/
def execFire (c : Fin 512) (s : State) : Outcome :=
  if !s.rxRuns then .next s
  else if s.locked rxcPg ∨ !s.clEval c ∨ s.clFld c R.CL.ASP.DMODE = 0 then .next (s.refuse rxcPg)
  else .next ((((s.ok rxcPg).clDue c).clTake c true).clSettle [c.val])

/-- CLAUSE_BROKEN (R248). (DESIGN CHOICE: log entry 42.) -/
def execClauseBroken (c : Fin 512) (s : State) : Outcome :=
  if (s.clauseAt c).broken ∨ !s.rxRuns then .next s
  else
    let k := s.clauseAt c
    let s := s.setClause c { k with broken := true, prev := none }
    let s := if k.active then s.clEnd c else s
    .next ((s.detect rxcPg 1).clSettle [c.val])

/-- LANE_PARITY_ERROR (R248): the latch keeps its level-3 value for the cycle, the next cycle restores it; LANE sets.
(DESIGN CHOICE: log entry 42.) -/
def execLaneParityError (_x : Fin 70) (s : State) : Outcome :=
  if s.rxRuns then .next (s.detect rxcPg 2) else .next s

/-- LINK_REFRESH (R244). -/
def execLinkRefresh (t : Fin 64) (s : State) : Outcome :=
  let k := s.slotAt t
  match k.named with
  | none => .next s
  | some n =>
    if s.enabled rxlPg && decide (s.fld rxlPg R.RXL.REF.LREF ≠ 0) && s.rxRuns then
      s.atTick (max k.txTick (max n s.rxlTick) + s.fld rxlPg R.RXL.REF.LREF * 100) fun s => s.reflexSend t
    else .next s

/-- A slot's value changes: RXL.VAL, event 50 where EVEN asks (R245), and the clauses on the slot see it (R250). -/
def State.slotSet (s : State) (t : Nat) (v : Bool) : State :=
  let k := s.slotAt t
  if k.val = v then s
  else
    let s := (s.setSlot t { k with val := v }).putBit rxlPg (if t < 32 then R.RXL.VAL_LO.VAL else R.RXL.VAL_HI.VAL) (t % 32) v
    (s.postIf ((s.fld rxlPg (if t < 32 then R.RXL.EVEN_LO.EN else R.RXL.EVEN_HI.EN)).testBit (t % 32)) 50).clObserve
      (0x100 + t) false none

/-- REFLEX_FRAME_RECEIVED (R245, R410): the link engine takes and forwards the frame; an accepted one sets its slot.
(DEDUCED: log entry 43.) -/
def execReflexFrameReceived (p : Fin 2) (t : Fin 64) (v : Bool) (src : BitVec 32) (seq : BitVec 16) (hop : BitVec 16)
    (s : State) : Outcome :=
  if s.lrole p ≠ 1 ∨ !s.ethUp p then .next s
  else
    let r := s.farRx p 1 1 true hop.toNat src.toNat seq.toNat none (.bytes [BitVec.ofNat 8 (t.val + if v then 128 else 0)])
    let s := r.1
    if r.2 ∧ s.slotTaken t ∧ s.rxRuns then
      let s := (s.setSlot t { s.slotAt t with rxTick := s.tb, out := false }).count rxlPg 1
      .next (s.slotSet t v)
    else .next s

/-- LINK_SLOT_TIMEOUT (R245). (DEDUCED: log entry 43.) -/
def execLinkSlotTimeout (t : Fin 64) (s : State) : Outcome :=
  let k := s.slotAt t
  if s.slotTaken t && decide (s.fld rxlPg R.RXL.TMO.LTMO ≠ 0) && !k.out && s.rxRuns then
    s.atTick (k.rxTick + s.fld rxlPg R.RXL.TMO.LTMO * 100) fun s =>
      let s := s.setSlot t { s.slotAt t with out := true }
      let s := s.putBit rxlPg (if t.val < 32 then R.RXL.TO_LO.TO else R.RXL.TO_HI.TO) (t.val % 32) true
      ((s.slotSet t false).count rxlPg 2).detect rxlPg 1
  else .next s

/-! ## What a fix, an enable and a park exit do to the fabric -/

/-- The slots start over: they hold 0 until their first frame, and their timeouts count from now (R245, R249). -/
def State.slotsRestart (s : State) (ts : List Nat) : State :=
  ts.foldl (fun u t => (u.setSlot t { u.slotAt t with rxTick := u.tb, out := false }).slotSet t false) s

/-- PG_CTRL.EN of RXL changed (R244, R245). -/
def State.rxlEnable (s : State) : State :=
  let s := { s with rxlTick := s.tb }
  s.slotsRestart (List.range 64)

/-- A fix of RXL applied; `o` is the state before (R245). -/
def State.rxlFix (s o : State) : State :=
  let all := s.fld rxlPg R.RXL.TMO.LTMO ≠ o.fld rxlPg R.RXL.TMO.LTMO
  let acc := fun (u : State) (t : Nat) => (u.fld rxlPg (if t < 32 then R.RXL.ACC_LO.ACC else R.RXL.ACC_HI.ACC)).testBit (t % 32)
  (List.range 64).foldl (fun u t =>
    if acc u t && !acc o t then u.slotsRestart [t]
    else if !acc u t then u.slotSet t false
    else if all then u.setSlot t { u.slotAt t with rxTick := u.tb, out := false }
    else u) s

/-- The words of a clause's record that firmware can write: SUBJ, QUAL, THR, VERB, ARG, ASP. -/
def State.clWord (s : State) (c i : Nat) : Word := s.reg (cwPg c) (0x100 + 0x20 * (c % 32) + 4 * i)

/-- A fix changed a clause structurally: EN, SMODE, SUBJ, the qualifier, VERB, OBJ, DMODE or DUNIT (R247). -/
def State.clStructural (s o : State) (c : Nat) : Bool :=
  s.clWord c 0 ≠ o.clWord c 0 || s.clWord c 1 ≠ o.clWord c 1 || s.clWord c 3 ≠ o.clWord c 3 ||
    s.clFld c R.CL.ASP.DMODE ≠ o.clFld c R.CL.ASP.DMODE || s.clFld c R.CL.ASP.DUNIT ≠ o.clFld c R.CL.ASP.DUNIT

/-- A fix of a window page applied (R247, R248): a clause whose record was rewritten is in service again; a structural change
ends it and starts its evaluation; a tuning change applies to it as it runs. `o` is the state before, `staged` says which
clauses had a staged word. -/
def State.clauseFix (s o : State) (pg : Nat) (staged : Nat → Bool) : State :=
  let cs := (s.clOf pg ++ o.clOf pg).eraseDups
  let s := cs.foldl (fun t c =>
    let t := if staged c && (t.clauseAt c).broken then t.setClause c { t.clauseAt c with broken := false, prev := none } else t
    if t.clStructural o c then
      let t := if (t.clauseAt c).active then t.clEnd c else t
      t.setClause c { t.clauseAt c with prev := none }
    else t) s
  let s := s.clRefresh cs
  (o.clObjects cs true).foldl State.linkSettle ((o.clObjects cs false).foldl State.objSettle s)

/-- The RX island stops for PARK: all clauses inactive, slots read 0 (R249). -/
def State.fabricPark (s : State) : State :=
  let s := s.clauses.foldl (fun t e => t.setClause e.1 { e.2 with active := false, endTick := 0, prev := none, heldOnce := false }) s
  let s := { s with slots := [], pulses := [] }
  (s.setFld rxlPg R.RXL.VAL_LO.VAL 0).setFld rxlPg R.RXL.VAL_HI.VAL 0

/-- The fabric runs again after PARK: every evaluated clause starts as at enabling (R249). -/
def State.fabricWake (s : State) : State := ({ s with rxlTick := s.tb }.slotsRestart (List.range 64)).clRefresh (s.clOf rxcPg)

/-! ## Views -/

/-- The objects a clause competes for: its object, with a gang all its members (R240). -/
def State.objUnit (s : State) (o : Nat) : List Nat := if o < 0x030 then s.hsUnit o else [o]

/-- CL.STAT (the clause window table). -/
def State.clStat (s : State) (c : Nat) : Word :=
  let k := s.clauseAt c
  let v := s.clFld c R.CL.VERB.VERB
  let gov := k.active && decide (1 ≤ v ∧ v ≤ 6) && s.govClauseOf (s.objUnit (s.clFld c R.CL.VERB.OBJ)) = some c
  let u := s.clFld c R.CL.SUBJ.SUBJ
  let cond := s.clEval c && (if sigKind u = .level then s.sigLevel u else k.prev.getD false)
  let shown := match s.clFld c R.CL.SUBJ.SMODE with
    | 0 => cond && (s.clFld c R.CL.ASP.DMODE ≠ 0 || s.clQual c)
    | 1 => s.clEval c && !cond && (s.clFld c R.CL.ASP.DMODE ≠ 0 || s.clQual c)
    | _ => cond
  let d := dunit (s.clFld c R.CL.ASP.DUNIT)
  let rem := if k.active ∧ s.clFld c R.CL.ASP.DMODE = 1 then (k.endTick - s.tb + d - 1) / d else 0
  let f := fun (g : Nat → Fld) (w : Word) (v : Nat) => (g 0).put w v
  f R.CL.STAT.ACTIVE (f R.CL.STAT.GOVN (f R.CL.STAT.COND (f R.CL.STAT.BROKEN (f R.CL.STAT.REM 0 rem)
    (if k.broken then 1 else 0)) (if shown then 1 else 0)) (if gov then 1 else 0)) (if k.active then 1 else 0)

/-- A bit mask over the 32 clauses of window `j`. -/
def State.clMask (s : State) (j : Nat) (p : Clause → Bool) : Word :=
  BitVec.ofNat 32 (((List.range 32).filter fun i => p (s.clauseAt (32 * j + i))).foldl (fun a i => a + 2 ^ i) 0)

/-- RXC.STAT (the RXC table). -/
def State.rxcStat (s : State) : Word :=
  let n := (s.clauses.filter fun e => e.2.active).length
  R.RXC.STAT.RUN.put (R.RXC.STAT.NACT.put 0 n) (if s.enabled rxcPg && s.rxRuns then 1 else 0)

/-- The object code of an object index (the RXO table). -/
def rxoObj (x : Nat) : Nat := if x < 48 then x else if x < 62 then 0x040 + (x - 48) else 0x060 + (x - 62)

/-- RXO.OWN (the RXO table, R241): DISC while the governing command is held off. -/
def State.rxoOwn (s : State) (x : Nat) : Word :=
  let o := rxoObj x
  match s.govClauseOf (s.objUnit o) with
  | none => 0
  | some c =>
    let gov := if x < 48 then s.fld (hsPg x) R.PG_STAT.GOV else if x < 62 then s.br (x - 48) R.BRIDGE.STAT.GOV
      else s.fld (vlPg (x - 62)) R.PG_STAT.GOV
    let dis := if x < 48 then !s.enabled (hsPg x) else if x < 62 then !s.brOperates (x - 48) else !s.enabled (vlPg (x - 62))
    (R.RXO.OWN.VALID 0).put ((R.RXO.OWN.DISC 0).put ((R.RXO.OWN.CLAUSE 0).put 0 c) (if govLatch ≤ gov ∨ dis then 1 else 0)) 1

end Sys2Proof.Machine
end

