-- ==== Sys2Proof/Machine/Light.lean ====
section
/-! DEFINITION. The lighting block (R197-R214): canvases and their swap, the matrix scan, derating, the pixel chain, and the
ambient groups. -/

namespace Sys2Proof.Machine

/-- The matrix page. -/
def mxPg : Nat := 0x170
/-- The pixel-chain page. -/
def pxPg : Nat := 0x172
/-- The canvas page. -/
def cvPg : Nat := 0x173
/-- An ambient group's page. -/
def ambPg (g : Nat) : Nat := 0x174 + g
/-- The sensor port's page. -/
def i2cPg : Nat := 0x178

/-- An ambient group's record. -/
def State.ambAt (s : State) (g : Nat) : Amb := tget (fun _ => {}) s.ambs g
/-- Replace an ambient group's record. -/
def State.setAmb (s : State) (g : Nat) (v : Amb) : State := { s with ambs := tset (fun _ => {}) s.ambs g v }

/-! ## The swap -/

/-- Show the state of the swap in CV.STAT.PEND; a swap that both consumers have taken is over (R199). -/
def State.swapShow (s : State) : State :=
  let l := s.light
  let s := if l.mxDone && l.pxDone then { s with light := { l with swap := none, trig := none } } else s
  s.setBit cvPg R.CV.STAT.PEND s.light.swap.isSome

/-- LSYNC is driven high for 100 ticks (R201); between a chip reset and its boot the pin is an input (R40). -/
def State.lsyncPulse (s : State) : State :=
  if s.pwr.boot = .done then ({ s with light := { s.light with lsyncEnd := some (s.tb + 100) } }).emit .lsync else s

/-- The matrix changes front (R199): event 152, its tick in CV.APPLIED, and an LSYNC pulse in mode 2 (R201). -/
def State.mxSwap (s : State) : State :=
  let s := { s with light := { s.light with mxDone := true } }
  let s := s.setBit cvPg R.CV.STAT.FRONT (!s.bit cvPg R.CV.STAT.FRONT)
  let s := s.setFld64 cvPg R.CV.APPLIED_LO.T R.CV.APPLIED_HI.T s.tb
  let s := if s.fld cvPg R.CV.LSYNC.MODE = 2 then s.lsyncPulse else s
  (s.post 152).swapShow

/-- The pixel chain changes front (R199). -/
def State.pxSwap (s : State) : State :=
  let s := { s with light := { s.light with pxDone := true } }
  (s.setBit cvPg R.CV.STAT.PXFRONT (!s.bit cvPg R.CV.STAT.PXFRONT)).swapShow

/-- A triggered swap reaches the consumers that show no frames (R199). -/
def State.swapIdle (s : State) : State :=
  if s.light.trig.isSome then
    let s := if !s.light.mxDone && !s.bit mxPg R.MX.OUT.RUN then s.mxSwap else s
    if s.light.trig.isSome && !s.light.pxDone && !s.bit pxPg R.PXC.OUT.RUN then s.pxSwap else s
  else s

/-! ## The matrix -/

/-- Slot length S (R202). -/
def Scan.slot (c : Scan) : Nat := 4096 * c.q + c.g
/-- Frame length F (R202). -/
def Scan.frame (c : Scan) : Nat := 16 * c.slot
/-- The phase offset (R202). -/
def Scan.phi (c : Scan) : Nat := c.ph * c.frame / 65536
/-- The ticks since the last frame start at a tick (R202). -/
def Scan.since (c : Scan) (t : Nat) : Nat := (t + c.frame - c.phi % c.frame) % c.frame

/-- The scan's pattern as the registers stand (R202). -/
def State.scanLive (s : State) : Scan :=
  ⟨s.fld mxPg R.MX.SCAN.PRE, s.fld mxPg R.MX.SCAN.GUARD, s.fld mxPg R.MX.PHASE.PH⟩

/-- The pattern the scan runs: a changed one from its first frame start (R99, R202). -/
def State.scanAt (s : State) : Scan :=
  match s.light.scanNext with
  | some (c, t) => if t ≤ s.tb then c else s.light.scan
  | none => s.light.scan

/-- A fix changed q, g or PH (R99, R202): the new pattern begins at its first frame start. -/
def State.scanFix (s : State) : State :=
  let cur := s.scanAt
  let new := s.scanLive
  if new = cur then { s with light := { s.light with scan := cur, scanNext := none } }
  else { s with light := { s.light with scan := cur, scanNext := some (new, pwmNextStart new.frame new.ph s.tb) } }

/-- Bits of a list of rows or columns. -/
def maskOf (l : List Nat) : Nat := (l.map (2 ^ ·)).foldl (· ||| ·) 0

/-- Latched rows. -/
def State.rowLatch (s : State) : Nat := s.fld mxPg R.MX.LATCH.ROW
/-- Latched columns. -/
def State.colLatch (s : State) : Nat := s.fld mxPg R.MX.LATCH.COL

/-- Any matrix latch is set (R211). -/
def State.mxLatched (s : State) : Bool := s.light.mxLatch || s.rowLatch != 0 || s.colLatch != 0

/-- The level that commands the matrix lets it scan: RUN, or the hold's command; nothing at level 1 or under the matrix latch
(R211). -/
def State.mxRun (s : State) : Bool :=
  !s.level1 74 && !s.light.mxLatch &&
    (if s.heldBit 74 then s.light.heldRun else s.bit mxPg R.MX.OUT.RUN)

/-- A column's code in MX.ICOL. -/
def State.icol (s : State) (c : Nat) : Nat := s.fld mxPg (R.MX.ICOL.CODE (c / 4) (c % 4))

/-- A column's present code, derated by the factor of the slot (R203, R204). -/
def State.colCode (s : State) (c : Nat) : Nat := s.icol c * s.light.phi / 256

/-- The columns that the scan lights in the present slot at a code of 8 or more, as the latches and the conditions of R29 stand
(R211, R212). -/
def State.colLit (s : State) : Nat :=
  let l := s.light
  let d := s.dieAt 1
  if !l.run || !(s.fld mxPg R.MX.ROWEN.EN).testBit l.row || s.rowLatch.testBit l.row || l.tsdRows.contains l.row || d.any ||
      !s.clocked .pwr then 0
  else maskOf ((List.range 16).filter fun c =>
    !s.colLatch.testBit c && !l.tsdCols.contains c && decide (8 ≤ s.colCode c))

/-- Count the ticks that the columns have been on in the present slot up to now, and take what lights them from now on (R212). -/
def State.colCount (s : State) : State :=
  let l := s.light
  let from' := l.slotStart + s.scanAt.g
  let t := (List.range 16).map fun c =>
    let e := from' + l.words.getD c 0 % 4096 * s.scanAt.q
    l.colOnT.getD c 0 + (if l.colMask.testBit c then min s.tb e - max l.colAt from' else 0)
  { s with light := { l with colOnT := t, colAt := s.tb, colMask := s.colLit } }

/-- Evaluate the chain for the matrix (R211); with the scan its checks end, and what they find later they find anew (R212, R357). -/
def State.mxSettle (s : State) : State :=
  let s := s.setFld mxPg R.PG_STAT.GOV (s.govLevel 74 s.mxLatched s.light.heldGov false)
  let run := s.mxRun
  let l := if run then { s.light with run := true }
    else { s.light with run := false, colQual := 0, colFed := 0, openPrev := 0, openTold := 0, rowvPrev := 0, rowvCur := 0 }
  ({ s with light := l }).colCount.swapIdle

/-- The scan stands in the lit part of a row's slot (R202). -/
def State.rowPhase (s : State) (r : Nat) : Bool :=
  s.light.run && s.light.row == r && decide (s.light.slotStart + s.scanAt.g ≤ s.tb) &&
    decide (s.tb < s.light.slotStart + s.scanAt.slot) && (s.fld mxPg R.MX.ROWEN.EN).testBit r

/-- The row switch as the scan commands it at the present tick; a row latch turns that row off (R202, R211, R212). -/
def State.rowCmd (s : State) (r : Nat) : Bool := s.rowPhase r && !s.rowLatch.testBit r

/-- The row switch is on at the present tick, with the conditions of R29 (R151, R153). -/
def State.rowOn (s : State) (r : Nat) : Bool :=
  let d := s.dieAt 1
  if d.revb then true
  else if d.off || !s.clocked .pwr || s.light.tsdRows.contains r then false
  else match s.light.frozen with
    | some z => z.1.testBit r && !s.rowLatch.testBit r && !s.light.mxLatch
    | none => s.rowCmd r

/-- The code at which the scan makes a column sink at the present tick, 0 while it is off (R202, R203, R204, R211, R212). -/
def State.colCmd (s : State) (c : Nat) : Nat :=
  let v := (s.light.words.getD c 0) % 4096
  if s.rowPhase s.light.row && !s.colLatch.testBit c && decide (v ≠ 0) &&
      decide (s.tb < s.light.slotStart + s.scanAt.g + v * s.scanAt.q)
  then s.colCode c else 0

/-- The code at which a column sinks at the present tick, with the conditions of R29 (R151, R153). -/
def State.colOn (s : State) (c : Nat) : Nat :=
  let d := s.dieAt 1
  if d.off || d.revb || !s.clocked .pwr || s.light.tsdCols.contains c then 0
  else match s.light.frozen with
    | some z => if s.colLatch.testBit c ∨ s.light.mxLatch then 0 else z.2.1.getD c 0
    | none => s.colCmd c

/-- The place of pixel word `k` of a canvas (R197). -/
def canvasWord (b : Bool) (k : Nat) : Nat := place macroCanvas ((if b then 0x1000 else 0) + 2 * k)

/-- The 16 pixel words of a row in the matrix's front canvas (R197, R198). -/
def State.rowWords (s : State) (r : Nat) : List Nat :=
  (List.range 16).map fun k => s.hwLe (canvasWord (s.bit cvPg R.CV.STAT.FRONT) (16 * r + k)) 2

/-- Account the slot that ends for OPENC: a column on for 200 ticks or more at a code of 8 or more qualifies, and `drop` says
whether it stood in dropout (R212). -/
def State.slotEnd (s : State) (drop : Nat) : State :=
  let s := s.colCount
  let l := s.light
  let qual := maskOf ((List.range 16).filter fun c => decide (200 ≤ l.colOnT.getD c 0))
  { s with light := { l with colQual := l.colQual ||| qual, colFed := l.colFed ||| maskOf ((List.range 16).filter fun c =>
      qual.testBit c && !drop.testBit c) } }

/-- A frame ends: the columns that were in dropout in every qualifying slot of two consecutive frames are open (R212), a lasting
result for each column (R357). -/
def State.frameEnd (s : State) : State :=
  let l := s.light
  let opn := maskOf ((List.range 16).filter fun c => l.colQual.testBit c && !l.colFed.testBit c)
  let both := opn &&& l.openPrev
  let old := l.openTold
  let s := { s with light := { l with colQual := 0, colFed := 0, openPrev := opn, openTold := both, rowvPrev := l.rowvCur, rowvCur := 0 } }
  let s := s.setFld mxPg R.MX.OPEN.COL both
  if both = 0 then s else s.detectHeld (both ||| old == old) mxPg 3

/-- A frame starts: a triggered swap applies (R199, R200), and LSYNC pulses in mode 1 (R201). -/
def State.frameStart (s : State) : State :=
  let s := if s.light.trig.isSome && !s.light.mxDone then s.mxSwap else s
  if s.fld cvPg R.CV.LSYNC.MODE = 1 then s.lsyncPulse else s

/-- The matrix latches on a row that reads high in the guards of two consecutive frames while it is off (R212). -/
def State.rowHigh (s : State) (high : Nat) : State :=
  let high := high &&& maskOf ((List.range 16).filter fun r => !s.rowOn r)
  let s := { s with light := { s.light with rowvCur := s.light.rowvCur ||| high } }
  if s.light.rowvCur &&& s.light.rowvPrev ≠ 0 ∧ !s.light.mxLatch then
    (({ s with light := { s.light with mxLatch := true } }).detect mxPg 2).mxSettle
  else s

/-- The tick of the next slot start: of the present one when it has not been taken yet (R202). A changed pattern begins with
its own first frame (R99). (DESIGN CHOICE: log entry 3.) -/
def State.nextSlot (s : State) : Nat :=
  let from' := if s.light.slotTaken = some s.tb then s.tb + 1 else s.tb
  let at' := fun (c : Scan) => from' + (max 1 c.slot - c.since from' % max 1 c.slot) % max 1 c.slot
  match s.light.scanNext with
  | some (c, t) => if t ≤ from' then at' c else min t (at' s.light.scan)
  | none => at' s.light.scan

/-- MATRIX_SLOT_START (R198, R199, R202-R204, R212): at the tick of a slot start of the running pattern.
(DEDUCED: log entry 39.) -/
def execMatrixSlotStart (high drop : BitVec 16) (s : State) : Outcome :=
  if !s.clocked .pwr ∨ !s.bit mxPg R.MX.OUT.RUN ∧ !s.light.run then .next s
  else s.atTick s.nextSlot fun s =>
    let c := s.scanAt
    let r := c.since s.tb / max 1 c.slot
    let s := s.slotEnd drop.toNat
    let s := if r = 0 then s.frameEnd.frameStart else s
    let s := s.hwRead (0x60000000 + canvasWord (s.bit cvPg R.CV.STAT.FRONT) (16 * r) % 0x1000000) 32
    let s := { s with light := { s.light with
      row := r, slotStart := s.tb, slotTaken := some s.tb, words := s.rowWords r, phi := s.fld mxPg R.MX.STAT.PHI
      colMask := 0, colOnT := [], colAt := s.tb } }
    (s.colCount.setFld mxPg R.MX.STAT.SLOT r).rowHigh high.toNat

/-- The derating factor of a reading in 0.1 degrees C (R204). -/
def State.derate (s : State) (t : Int) : Nat :=
  let tk : Int := 850 + 10 * (s.fld mxPg R.MX.DERATE.TK : Int)
  if t ≤ tk then 256
  else (256 - (t - tk) * (s.fld mxPg R.MX.DERATE.SLOPE : Int) * 256 / 1000).toNat

/-- DERATING_READING (R204): every 1 ms the temperature and the factor; DIEOT when the factor reaches 0, a lasting result. -/
def execDeratingReading (t : Int) (s : State) : Outcome :=
  if !s.clocked .pwr then .next s
  else s.atTick (match s.light.tempAt with | some a => a + 100000 | none => s.tb) fun s =>
    let phi := s.derate t
    let was := s.fld mxPg R.MX.STAT.PHI
    let s := { s with light := { s.light with tempAt := some s.tb } }
    let s := (s.setFld mxPg R.MX.TEMP.T (toField 16 t)).setFld mxPg R.MX.STAT.PHI phi
    if phi = 0 then s.detectHeld (was == 0) mxPg 5 else s

/-- MX_CLR (R212): refused when nothing is latched. -/
def execMxClr (s : State) : Outcome :=
  if !s.clocked .pwr then .next s
  else if s.locked mxPg ∨ !s.mxLatched then .next (s.refuse mxPg)
  else
    let s := (s.setFld mxPg R.MX.LATCH.COL 0).setFld mxPg R.MX.LATCH.ROW 0
    .next (({ s with light := { s.light with mxLatch := false } }).ok mxPg).mxSettle

/-- SHROWG (R212): the row latches at its ceiling. -/
def execShrowg (r : Fin 16) (i : Nat) (s : State) : Outcome :=
  if s.clocked .pwr ∧ 1500 ≤ i then .next ((s.setFld mxPg R.MX.LATCH.ROW (s.rowLatch ||| 2 ^ r.val)).detect mxPg 1).mxSettle else .next s

/-- A write of MX.OUT (R31, R211). -/
def State.mxWriteOut (s : State) (d : Word) : State :=
  ((s.setFld mxPg R.MX.OUT.RUN (R.MX.OUT.RUN.get d)).ok mxPg).mxSettle

/-! ## The pixel chain -/

/-- W of R205. -/
def State.pxW (s : State) : Nat := if s.bit pxPg R.PXC.CFG.W16 then 16 else 12

/-- The bits of a pixel-chain frame with their number: driver NDRV - 1 first, channel 15 first, each word's most significant
bit first (R205). -/
def State.pxFrame (s : State) : Nat × Nat :=
  let n := s.fld pxPg R.PXC.CFG.NDRV * 16
  let b := s.bit cvPg R.CV.STAT.PXFRONT
  let word := fun k => s.hwLe (canvasWord b (0x100 + k)) 2 % 2 ^ s.pxW
  (n * s.pxW, (List.range n).foldl (fun acc i => acc * 2 ^ s.pxW + word (n - 1 - i)) 0)

/-- A frame of `n` bits begins to shift at a tick (R205). -/
def State.pxShift (s : State) (t : Nat) (f : Nat × Nat) (blank : Bool) : State :=
  let k := s.fld pxPg R.PXC.CFG.DIV
  ({ s with light := { s.light with
      pxCur := f, pxBlank := blank, pxStart := t, pxK := k, pxEnd := t + f.1 * 2 * k + s.fld pxPg R.PXC.CFG.LEW
      pxCmp := !blank && !s.light.pxFirst, pxFirst := blank } }).setBit pxPg R.PXC.STAT.SHIFT true

/-- The end of the bit in progress (R207). -/
def State.pxBitEnd (s : State) : Nat :=
  let l := s.light
  if s.bit pxPg R.PXC.STAT.SHIFT && decide (s.tb < l.pxStart + l.pxCur.1 * 2 * l.pxK)
  then l.pxStart + ((s.tb - l.pxStart) / (2 * l.pxK) + 1) * (2 * l.pxK) else s.tb

/-- The bit in progress: its value, the tick at which it began, and K (R205, R207). -/
def State.pxBitNow (s : State) : Option (Bool × Nat × Nat) :=
  let l := s.light
  if s.bit pxPg R.PXC.STAT.SHIFT && decide (l.pxStart ≤ s.tb) && decide (s.tb < l.pxStart + l.pxCur.1 * 2 * l.pxK) then
    let i := (s.tb - l.pxStart) / (2 * l.pxK)
    some (l.pxCur.2.testBit (l.pxCur.1 - 1 - i), l.pxStart + i * (2 * l.pxK), l.pxK)
  else none

/-- The engine completes the bit in progress and starts a blank frame (R207). -/
def State.pxStartBlank (s : State) : State :=
  if s.clocked .io && !s.bit pxPg R.PXC.STAT.BLANK then
    ({ s with light := { s.light with pxTail := s.pxBitNow } } : State).pxShift s.pxBitEnd (s.fld pxPg R.PXC.CFG.NDRV * 16 * s.pxW, 0) true
  else s

/-- The IO island's clock has returned: in safe state the engine blanks the drivers now (R207).
(DESIGN CHOICE: log entry 73.) -/
def State.pxClockBack (s : State) : State := if s.safe then s.pxStartBlank else s

/-- Safe state has been left: the pins follow the engine again from its next frame (R207). -/
def State.pxLeaveSafe (s : State) : State := s.setBit pxPg R.PXC.STAT.BLANK false

/-- The pins go low without a latch pulse: chip reset, or loss of the IO island's clock (R207). -/
def State.pxStop (s : State) : State :=
  ({ s with light := { s.light with pxPrev := none, pxMism := 0, pxBlank := false, pxFirst := true, pxTail := none } }).setBit pxPg R.PXC.STAT.SHIFT false

/-- A frame start of the pixel chain (R198-R200, R205): fronts change; outside safe state the frame begins to shift. -/
def State.pxFrameStart (s : State) : State :=
  let s := { s with light := { s.light with pxTaken := some s.tb } }
  let s := if s.light.pxResync then
      ({ s with light := { s.light with pxResync := false } }).setBit cvPg R.CV.STAT.PXFRONT (s.bit cvPg R.CV.STAT.FRONT)
    else s
  let s := if s.light.trig.isSome && !s.light.pxDone then s.pxSwap else s
  if s.safe then s
  else
    let s := s.hwRead (0x60000000 + canvasWord (s.bit cvPg R.CV.STAT.PXFRONT) 0x100 % 0x1000000) (s.fld pxPg R.PXC.CFG.NDRV * 32)
    s.pxShift s.tb s.pxFrame false

/-- PXC_FRAME_START (R198, R199, R205, R207): a frame start of the engine's pattern while RUN = 1; in safe state it completes a
swap and shifts nothing (R200). (DEDUCED: log entry 39.) -/
def execPxcFrameStart (s : State) : Outcome :=
  let p := s.fld pxPg R.PXC.PERIOD.P
  let ph := s.fld pxPg R.PXC.PHASE.PH
  if s.clocked .io ∧ s.bit pxPg R.PXC.OUT.RUN ∧ (s.safe ∨ !s.bit pxPg R.PXC.STAT.SHIFT) then
    s.atTick (pwmNextStart p ph (if s.light.pxTaken = some s.tb then s.tb + 1 else s.tb)) State.pxFrameStart
  else .next s

/-- A frame of the pixel chain is latched (R205-R207): event 153; the returned bits are compared with the frame before; a
mismatch in two consecutive frames is a lasting result (R357). -/
def State.pxLatched (s : State) (di : Nat) : State :=
  let l := s.light
  let s := ((s.setBit pxPg R.PXC.STAT.SHIFT false).emit (.pxc l.pxCur.1 l.pxCur.2)).post 153
  if l.pxBlank then
    ({ s with light := { l with pxBlank := false, pxPrev := none, pxMism := 0 } }).setBit pxPg R.PXC.STAT.BLANK s.safe
  else
    let bad := l.pxCmp && (match l.pxPrev with | some (n, w) => n == l.pxCur.1 && di % 2 ^ n != w | none => false)
    let m := if bad then l.pxMism + 1 else 0
    let s := { s with light := { l with pxPrev := some l.pxCur, pxMism := m } }
    if 2 ≤ m then s.detectHeld (decide (2 ≤ l.pxMism)) pxPg 1 else s

/-- PXC_LATCH (R205-R207): at the tick at which PXC_LE falls. -/
def execPxcLatch (di : Nat) (s : State) : Outcome :=
  if !s.clocked .io ∨ !s.bit pxPg R.PXC.STAT.SHIFT then .next s
  else s.atTick s.light.pxEnd fun s => s.pxLatched di

/-- A write of PXC.OUT (R31): the first frame after RUN = 1 is not compared (R206). -/
def State.pxWriteOut (s : State) (d : Word) : State :=
  let was := s.bit pxPg R.PXC.OUT.RUN
  let s := (s.setFld pxPg R.PXC.OUT.RUN (R.PXC.OUT.RUN.get d)).ok pxPg
  let s := if was then s else { s with light := { s.light with pxFirst := true, pxMism := 0 } }
  s.swapIdle

/-- A fix changes NDRV or W16: the next frame is not compared (R206). -/
def State.pxFix (s o : State) : State :=
  if s.fld pxPg R.PXC.CFG.NDRV ≠ o.fld pxPg R.PXC.CFG.NDRV ∨ s.fld pxPg R.PXC.CFG.W16 ≠ o.fld pxPg R.PXC.CFG.W16
  then { s with light := { s.light with pxFirst := true, pxMism := 0 } } else s

/-! ## The trigger of a swap -/

/-- A trigger in the tick of a frame start applies at that frame start (R200): the frame's words are those of the new front. -/
def State.swapAtFrame (s : State) : State :=
  let s := if s.light.trig.isSome && !s.light.mxDone && s.light.slotTaken = some s.tb && s.light.row = 0 then
      let s := s.mxSwap
      { s with light := { s.light with words := s.rowWords 0 } }
    else s
  if s.light.trig.isSome && !s.light.pxDone && s.light.pxTaken = some s.tb then
    let s := s.pxSwap
    if s.bit pxPg R.PXC.STAT.SHIFT && !s.light.pxBlank then { s with light := { s.light with pxCur := s.pxFrame } } else s
  else s

/-- The trigger comes (R199). -/
def State.swapTrig (s : State) : State := ({ s with light := { s.light with trig := some s.tb } }).swapAtFrame.swapIdle

/-- SWAP (R199, R200): refused while one is pending. -/
def execSwap (src : Fin 4) (s : State) : Outcome :=
  if !s.clocked .pwr then .next s
  else if s.locked cvPg ∨ s.light.swap.isSome then .next (s.refuse cvPg)
  else
    let k : SwapSrc := if src = 0 then .now else if src = 1 then .tick else if src = 2 then .rise else .fall
    let s := s.ok cvPg
    let l := { s.light with swap := some k, trig := none, mxDone := false, pxDone := false }
    let s := ({ s with light := l }).swapShow
    let t : Nat := s.fld64 cvPg R.CV.T_LO.T R.CV.T_HI.T
    if k = .now then .next s.swapTrig
    else if k = .tick ∧ t < s.tb then
      .next (((s.setBit cvPg R.CV.STAT.LATE true).raise 155 (.page cvPg)).swapTrig)
    else .next s

/-- CANCEL_SWAP (R200): before the trigger the swap is discarded, otherwise refused. -/
def execCancelSwap (s : State) : Outcome :=
  if !s.clocked .pwr then .next s
  else if s.locked cvPg ∨ s.light.swap.isNone ∨ s.light.trig.isSome then .next (s.refuse cvPg)
  else .next ({ s.ok cvPg with light := { s.light with mxDone := true, pxDone := true } }).swapShow

/-- SWAP_TRIGGER (R199): the event that the armed swap waits for. (DEDUCED: log entry 39.) -/
def execSwapTrigger (src : SwapEdge) (s : State) : Outcome :=
  if s.light.trig.isSome ∨ !s.clocked .pwr then .next s
  else match s.light.swap, src with
    | some .tick, .tick => s.atTick (s.fld64 cvPg R.CV.T_LO.T R.CV.T_HI.T) State.swapTrig
    | some .rise, .rise => .next s.swapTrig
    | some .fall, .fall => .next s.swapTrig
    | _, _ => .next s


/-! ## Ambient colour -/

/-- D of a 12-bit duty (R208). -/
def ambDuty (u : Nat) : Nat := if u = 4095 then 0xFFFF else u * 16

/-- The staged duties R, G, B as the registers stand. -/
def State.ambStaged (s : State) (g : Nat) : Nat × Nat × Nat :=
  (s.fld (ambPg g) R.AMB.DRG.R, s.fld (ambPg g) R.AMB.DRG.G, s.fld (ambPg g) R.AMB.DB.B)

/-- Evaluate the chain for an ambient group (R211). -/
def State.ambSettle (s : State) (g : Nat) : State :=
  let v := s.ambAt g
  let lat := s.bit (ambPg g) R.AMB.STAT.LATCH
  let lvl := s.govLevel (75 + g) lat v.heldGov false
  let on := !s.level1 (75 + g) && !lat &&
    (if s.heldBit (75 + g) then v.heldOn else s.bit (ambPg g) R.AMB.OUT.ON)
  (s.setFld (ambPg g) R.PG_STAT.GOV lvl).setAmb g { v with on := on }

/-- The code at which the PWM makes colour `x` (0 R, 1 G, 2 B) of a group sink at the present tick (R204, R208). -/
def State.ambCmd (s : State) (g x : Nat) : Nat :=
  let v := s.ambAt g
  let code := s.fld (ambPg g) (if x = 0 then R.AMB.CUR.IR else if x = 1 then R.AMB.CUR.IG else R.AMB.CUR.IB)
  let u := s.fld (ambPg g) (if x = 0 then R.AMB.APPRG.R else if x = 1 then R.AMB.APPRG.G else R.AMB.APPB.B)
  match v.gen.at s.tb with
  | .pwm p ph _ =>
    if v.on && (OutCmd.pwm p ph (ambDuty u)).levelAt s.tb then code * v.phi / 256 else 0
  | .off => 0

/-- The code at which a sink of a group sinks at the present tick, with the conditions of R29 (R151, R153). -/
def State.ambSink (s : State) (g x : Nat) : Nat :=
  let v := s.ambAt g
  let d := s.dieAt 1
  if d.off || d.revb || !s.clocked .pwr || v.tsd then 0
  else match s.light.frozen with
    | some z => if s.bit (ambPg g) R.AMB.STAT.LATCH then 0 else z.2.2.getD (3 * g + x) 0
    | none => s.ambCmd g x

/-- Freeze the lighting gates of the entry PWR cycle of a load dump (R151). -/
def State.lightFreeze (s : State) : State :=
  let rows := ((List.range 16).filter fun r => s.rowOn r).foldl (fun a r => a + 2 ^ r) 0
  let cols := (List.range 16).map fun c => s.colOn c
  let ambs := (List.range 12).map fun j => s.ambSink (j / 3) (j % 3)
  { s with light := { s.light with frozen := some (rows, cols, ambs) } }

/-- A fix touched a group (R99, R208): the open loop's duties, the starting value of a loop that closes, and the pattern. Duties
that come with a changed pattern apply with it; the old pattern goes on with the old ones up to then. -/
def State.ambFix (s : State) (g : Nat) (wasCl : Bool) : State :=
  let v := s.ambAt g
  let cl := s.bit (ambPg g) R.AMB.LOOP.CL
  let gen := v.gen.command s.tb true (.pwm (s.fld (ambPg g) R.AMB.PERIOD.P) (s.fld (ambPg g) R.AMB.PHASE.PH) 1)
  let v := { v with gen := gen, clampRun := if cl && wasCl then v.clampRun else 0 }
  let v := if cl && wasCl then v else
    match gen.nxt with
    | some (_, t) => { v with uNext := some (s.ambStaged g, t) }
    | none => { v with u := s.ambStaged g, uNext := none }
  (s.setAmb g v).ambSettle g

/-- A period of a group's PWM starts: the duties and the derating factor apply (R204, R208, R209). -/
def State.ambEdge (s : State) (g : Nat) : State :=
  let v := s.ambAt g
  let v := match v.uNext with
    | some (u, t) => if t ≤ s.tb then { v with u := u, uNext := none } else v
    | none => v
  let s := s.setAmb g { v with phi := s.fld mxPg R.MX.STAT.PHI }
  let s := s.setFld (ambPg g) R.AMB.APPRG.R v.u.1
  let s := s.setFld (ambPg g) R.AMB.APPRG.G v.u.2.1
  s.setFld (ambPg g) R.AMB.APPB.B v.u.2.2

/-- The loop of a group runs: CL = 1, and level 4 governs with ON = 1 (R209). -/
def State.ambLoops (s : State) (g : Nat) : Bool :=
  s.bit (ambPg g) R.AMB.LOOP.CL && s.bit (ambPg g) R.AMB.OUT.ON && s.fld (ambPg g) R.PG_STAT.GOV == govLive &&
    !s.heldBit (75 + g)

/-- The ticks of a bit on the sensor port (R210). -/
def State.i2cBit (s : State) : Nat := if s.bit i2cPg R.LI2C.CFG.FAST then 250 else 1000

/-- The sensor port takes the lowest group that waits (R210): one transaction, with the group's address and register.
(DEDUCED: log entry 39.) -/
def State.i2cNext (s : State) : State :=
  match s.light.i2cBusy with
  | some _ => s
  | none =>
    match (List.range 4).find? s.light.i2cWait.contains with
    | some g =>
      ({ s with light := { s.light with
          i2cBusy := some g, i2cStart := s.tb, i2cWait := s.light.i2cWait.filter (· ≠ g) } }).emit
        (.i2c (s.fld (ambPg g) R.AMB.SENS.ADDR) (s.fld (ambPg g) R.AMB.SENS.REG) s.i2cBit)
    | none => s

/-- The sensor port stops: nothing it had in progress completes (R210); after the restart its checks begin anew (R357). -/
def State.i2cStop (s : State) : State :=
  (List.range 4).foldl (fun (t : State) g => t.setAmb g { t.ambAt g with failRun := 0, clampRun := 0 })
    { s with light := { s.light with i2cBusy := none, i2cWait := [] } }

/-- AMBIENT_LOOP_ITERATION (R209, R210): every INTV ms the group's read joins the port's order. (DEDUCED: log entry 39.) -/
def execAmbientLoopIteration (g : Fin 4) (s : State) : Outcome :=
  if s.ambLoops g ∧ s.enabled i2cPg ∧ s.clocked .io ∧ !s.light.i2cWait.contains g.val ∧ s.light.i2cBusy ≠ some g.val then
    s.atTick (match (s.ambAt g).iterAt with | some t => t + s.fld (ambPg g) R.AMB.LOOP.INTV * 100000 | none => s.tb) fun s =>
      let s := s.setAmb g { s.ambAt g with iterAt := some s.tb }
      ({ s with light := { s.light with i2cWait := g.val :: s.light.i2cWait } }).i2cNext
  else .next s

/-- One colour of the loop: the new duty, and whether it was clamped (R209). -/
def loopStep (tgt phi meas ki u : Nat) : Nat × Bool :=
  let e : Int := (tgt * phi / 256 : Nat) - (meas : Int)
  let v := (u : Int) + (e * ki).tdiv 256
  if v < 0 then (0, true) else if 4095 < v then (4095, true) else (v.toNat, false)

/-- A reading drives the loop (R209). -/
def State.ambLoop (s : State) (g mr mg mb : Nat) : State :=
  let pg := ambPg g
  let v := s.ambAt g
  let phi := s.fld mxPg R.MX.STAT.PHI
  let ki := s.fld pg R.AMB.LOOP.KI
  let u := match v.uNext with | some e => e.1 | none => v.u
  let r := loopStep (s.fld pg R.AMB.TGTRG.R) phi mr ki u.1
  let gr := loopStep (s.fld pg R.AMB.TGTRG.G) phi mg ki u.2.1
  let b := loopStep (s.fld pg R.AMB.TGTB.B) phi mb ki u.2.2
  let run := if r.2 || gr.2 || b.2 then v.clampRun + 1 else 0
  let new := (r.1, gr.1, b.1)
  let s := s.setAmb g (match v.uNext with
    | some (_, t) => { v with uNext := some (new, t), clampRun := run }
    | none => { v with u := new, clampRun := run })
  if 16 ≤ run then s.detectHeld (decide (16 ≤ v.clampRun)) pg 3 else s

/-- A read of a group's sensor fails (R209, R210): the loop holds, its iterations clamped in a row end, and two failures in a row
are a lasting result (R357). -/
def State.i2cFail (s : State) (g : Nat) : State :=
  let v := s.ambAt g
  let s := s.setFld i2cPg R.LI2C.STAT.FAILS (min 0xFFFF (s.fld i2cPg R.LI2C.STAT.FAILS + 1))
  let s := (s.setAmb g { v with failRun := v.failRun + 1, clampRun := 0 }).setBit (ambPg g) R.AMB.STAT.HELD true
  (if 2 ≤ v.failRun + 1 then s.detectHeld (decide (2 ≤ v.failRun)) (ambPg g) 2 else s).i2cNext

/-- A read of a group's sensor succeeds (R209): the counts update the duties while the loop runs. -/
def State.i2cCounts (s : State) (g mr mg mb : Nat) : State :=
  let pg := ambPg g
  let s := (s.setAmb g { s.ambAt g with failRun := 0 }).setBit pg R.AMB.STAT.HELD false
  let s := (s.setFld pg R.AMB.MEASRG.R mr).setFld pg R.AMB.MEASRG.G mg
  let s := s.setFld pg R.AMB.MEASB.B mb
  (if s.ambLoops g then s.ambLoop g mr mg mb else s).i2cNext

/-- The bits that a transaction has carried before it ends: nine to a byte, of the nine bytes of a full reading (R210). -/
def sensorBits : SensorEnd → Nat
  | .counts _ _ _ _ => 81
  | .nack b => 9 * (b.val + 1)
  | .arbLost => 1
  | .stretched _ => 1
  | .sdaLow => 0

/-- A transaction ends (R210): a stretch beyond TMO fails it; with SDA held low at START the port first sends nine clock pulses
and a STOP. -/
def State.sensorEnds (s : State) (g : Nat) (r : SensorEnd) : State :=
  let tmo := s.fld i2cPg R.LI2C.TMO.US
  let s := { s with light := { s.light with i2cBusy := none } }
  match r with
  | .counts mr mg mb us => if tmo < us then s.i2cFail g else s.i2cCounts g mr.toNat mg.toNat mb.toNat
  | .sdaLow => (s.emit .i2cUnjam).i2cFail g
  | _ => s.i2cFail g

/-- A stretch within TMO ends no transaction (R210). -/
def State.sensorGoesOn (s : State) : SensorEnd → Bool
  | .stretched us => decide (us ≤ s.fld i2cPg R.LI2C.TMO.US)
  | _ => false

/-- SENSOR_READ_COMPLETE (R209, R210): counts update the duties while the loop runs; a failure holds them, and two in a row
set SENSOR. -/
def execSensorReadComplete (g : Fin 4) (r : SensorEnd) (s : State) : Outcome :=
  if s.light.i2cBusy ≠ some g.val ∨ !s.clocked .io ∨ !s.enabled i2cPg ∨ s.sensorGoesOn r then .next s
  else s.atTick (s.light.i2cStart + sensorBits r * s.i2cBit) fun s => s.sensorEnds g r

/-- AMB_CLR (R212): refused when nothing is latched. -/
def execAmbClr (g : Fin 4) (s : State) : Outcome :=
  if !s.clocked .pwr then .next s
  else if s.locked (ambPg g) ∨ !s.bit (ambPg g) R.AMB.STAT.LATCH then .next (s.refuse (ambPg g))
  else .next (((s.setBit (ambPg g) R.AMB.STAT.LATCH false).ok (ambPg g)).ambSettle g)

/-- A write of AMB.OUT (R31, R211). -/
def State.ambWriteOut (s : State) (g : Nat) (d : Word) : State :=
  ((s.setFld (ambPg g) R.AMB.OUT.ON (R.AMB.OUT.ON.get d)).ok (ambPg g)).ambSettle g

end Sys2Proof.Machine
end

