-- ==== Sys2Proof/Machine/Supply.lean ====
section
/-! DEFINITION. The conditions of R29 on the power dies (R151-R153), the sense conversions of R142, the edges of the PWM
generators (R98), and live writes of output commands (R31). -/

namespace Sys2Proof.Machine

/-- The channels, and the legs, of a power die (R16). -/
def dieHs (d : Nat) : List Nat := (List.range 48).filter fun n => hsDie n = d
/-- The legs of a power die. -/
def dieLegs (d : Nat) : List Nat := (List.range 28).filter fun l => legDie l = d

/-- What a channel's checks had found is dropped while a condition of R29 suspends them (R152): its envelope, its open-load
total, its off-state cycle. -/
def Hs.suspend (h : Hs) : Hs :=
  { h with act := none, olTicks := 0, olConf := false, cyc := none, offRes := none, offConf := false, phHigh := none }

/-- Bring every output of a die to its condition: blocked channels abandon their envelopes (R152). -/
def State.dieSettle (s : State) (d : Nat) : State :=
  let s := (dieHs d).foldl (fun t n =>
    (if t.hsBlocked n then t.setHs n (t.hsAt n).suspend else t).hsGateUpdate n) s
  let s := (List.range 14).foldl (fun t k => t.brSettle k) s
  let s := (dieLegs d).foldl State.legUpdate s
  if d = 1 then s.vlSettleAll.colCount else s

/-- Bring the gates of a die's outputs to the present tick, for a load dump to freeze: a switch that waits out its dead time
stays off (R151). (DEDUCED: log entry 36.) -/
def State.dieGates (s : State) (d : Nat) : State :=
  let s := (dieLegs d).foldl State.legUpdate ((dieHs d).foldl State.hsGateUpdate s)
  (dieLegs d).foldl (fun (t : State) l => t.setLeg l { t.legAt l with want := t.legOn l }) s

/-- Undervoltage (0), load dump (1) or ground loss (2) sets its bit on every page that reports it for a die (R152, R157, and
the field tables of the bridge folder, the boost page and the LED pages); nothing is recorded without the PWR clock. -/
def State.dieReport (s : State) (d j : Nat) : State :=
  if !s.clocked .pwr then s
  else
  let s := ((List.range 3).map fun b => 0x0F0 + 3 * d + b).foldl (fun t pg => t.detect pg (2 + j)) s
  let s := s.detect brPg (1 + j)
  if d = 1 then
    let s := (s.detect vsPg (7 + j)).detect mxPg (6 + j)
    (List.range 4).foldl (fun t g => t.detect (ambPg g) (4 + j)) s
  else s

/-- A condition has ended: a channel whose resulting command has on-time is activated with t = 0 (R152); not one frozen on
through a load dump. (DEDUCED: log entry 36.) -/
def State.dieResume (s : State) (d : Nat) (frozenOn : Nat → Bool) : State :=
  let s := s.dieSettle d
  (dieHs d).foldl (fun t n =>
    if t.clocked .pwr ∧ t.hsLead n = n ∧ (t.hsAt n).cmd.onTime ∧ !t.hsBlocked n ∧ !frozenOn n then (t.hsActivate n).hsGateUpdate n else t) s

/-- A condition that suspended the filters of a die's channels has ended: they count anew (R139, R152). -/
def State.dieBack (s : State) (d : Nat) : State :=
  (dieHs d).foldl (fun (t : State) n => t.setHs n { t.hsAt n with filtAt := t.tb }) s

/-- UNDERVOLTAGE_ENTRY (R151). -/
def execUndervoltageEntry (die : Die) (s : State) : Outcome :=
  let d := dieIdx die
  if (s.dieAt d).uv then .next s
  else .next (((s.setDie d { s.dieAt d with uv := true, uvAt := s.tb }).dieReport d 0).dieSettle d)

/-- UNDERVOLTAGE_EXIT (R151, R152): 10 000 ticks after the entry at the earliest. -/
def execUndervoltageExit (die : Die) (s : State) : Outcome :=
  let d := dieIdx die
  if (s.dieAt d).uv then
    s.atTick ((s.dieAt d).uvAt + 10000) fun s => ((s.setDie d { s.dieAt d with uv := false }).dieBack d).dieResume d fun _ => false
  else .next s

/-- LOAD_DUMP_ENTRY (R151): the gates freeze as in the entry PWR cycle. -/
def execLoadDumpEntry (die : Die) (s : State) : Outcome :=
  let d := dieIdx die
  if (s.dieAt d).ldump then .next s
  else
    let s := s.dieGates d
    let s := if d = 1 then s.lightFreeze else s
    .next (((s.setDie d { s.dieAt d with ldump := true, ldAt := s.tb }).dieReport d 1).dieSettle d)

/-- A load dump ends on a die (R151, R152). -/
def State.dumpEnd (s : State) (d : Nat) : State :=
  let on := (dieHs d).filter fun n => s.bit (hsPg n) R.HS.STAT.GATE
  let s := if d = 1 then { s with light := { s.light with frozen := none } } else s
  let s := (s.setDie d { s.dieAt d with ldump := false }).dieResume d fun n => on.contains n
  if d = 1 then (s.sidePeakEnded 0).sidePeakEnded 1 else s

/-- LOAD_DUMP_EXIT (R151, R152): 10 000 ticks after the entry at the earliest. (DEDUCED: log entry 36.) -/
def execLoadDumpExit (die : Die) (s : State) : Outcome :=
  let d := dieIdx die
  if (s.dieAt d).ldump then s.atTick ((s.dieAt d).ldAt + 10000) fun s => s.dumpEnd d else .next s

/-- GROUND_LOSS (R151). -/
def execGroundLoss (die : Die) (s : State) : Outcome :=
  let d := dieIdx die
  if (s.dieAt d).gndl then .next s
  else .next (((s.setDie d { s.dieAt d with gndl := true, gndAt := s.tb }).dieReport d 2).dieSettle d)

/-- GROUND_RESTORED (R151, R152): 100 000 ticks after the loss at the earliest. -/
def execGroundRestored (die : Die) (s : State) : Outcome :=
  let d := dieIdx die
  if (s.dieAt d).gndl then
    s.atTick ((s.dieAt d).gndAt + 100000) fun s => ((s.setDie d { s.dieAt d with gndl := false }).dieBack d).dieResume d fun _ => false
  else .next s

/-- REVERSE_BATTERY (R151, R153): both dies, without logic and without a record. (DEDUCED: log entry 36.) -/
def execReverseBattery (s : State) : Outcome :=
  let s := [0, 1].foldl (fun (t : State) d => t.setDie d { t.dieAt d with revb := true }) s
  .next ((s.dieSettle 0).dieSettle 1)

/-- REVERSE_BATTERY_END (R151, R152). -/
def execReverseBatteryEnd (s : State) : Outcome :=
  if (s.dieAt 0).revb ∨ (s.dieAt 1).revb then
    let s := [0, 1].foldl (fun (t : State) d => t.setDie d { t.dieAt d with revb := false }) s
    .next ((((s.dieBack 0).dieBack 1).dieResume 0 fun _ => false).dieResume 1 fun _ => false)
  else .next s

/-- A list with an element added or taken out. -/
def withElem (l : List Nat) (k : Nat) (b : Bool) : List Nat := if b then (if l.contains k then l else l ++ [k]) else l.filter (· ≠ k)

/-- JUNCTION_SHUTDOWN (R151, R152): the die turns the output off; where the PWR island runs, the output latches and TSD sets
on its page (R157, R171, R189, R190, R212). -/
def execJunctionShutdown (o : HotSpot) (s : State) : Outcome :=
  let run := s.clocked .pwr
  match o with
  | .hs n =>
    let s := (s.setHs n { (s.hsAt n).suspend with tsd := true }).hsGateUpdate n
    if !run then .next s
    else
      let others := (s.hsUnit n).filter (· ≠ n.val)
      let s := others.foldl (fun t m => t.detect (hsPg m) 11) (s.detect (hsBank n) 5)
      .next (((s.hsLatchUnit n).count (hsPg n) 2).hsSettle n)
  | .leg l =>
    let s := s.setLeg l { s.legAt l with tsd := true }
    if run then .next ((s.detect (legPg l) 10).latchLegs l l) else .next (s.brSettleLeg l)
  | .vl n =>
    let s := s.setValve n { s.valveAt n with tsd := true }
    if run ∧ s.enabled (vlPg n) then .next (s.vlFault n 3) else .next (s.vlSettle n)
  | .side b =>
    let s := s.setSide b { s.sideAt b with tsd := true }
    if run then .next (s.sideFault b (5 + b)) else .next (s.sideUpdate b)
  | .row r =>
    let s := { s with light := { s.light with tsdRows := withElem s.light.tsdRows r true } }
    if run then .next (((s.putBit mxPg R.MX.LATCH.ROW r true).detect mxPg 4).mxSettle) else .next s.colCount
  | .col c =>
    let s := { s with light := { s.light with tsdCols := withElem s.light.tsdCols c true } }
    if run then .next (((s.putBit mxPg R.MX.LATCH.COL c true).detect mxPg 4).mxSettle) else .next s.colCount
  | .amb g =>
    let s := s.setAmb g { s.ambAt g with tsd := true }
    if run then .next (((s.setBit (ambPg g) R.AMB.STAT.LATCH true).detect (ambPg g) 1).ambSettle g) else .next s

/-- JUNCTION_SHUTDOWN_EXIT (R151, R152): the hot spot is 15 K below its threshold. -/
def execJunctionShutdownExit (o : HotSpot) (s : State) : Outcome :=
  match o with
  | .hs n =>
    if (s.hsAt n).tsd then
      let s := s.setHs n { s.hsAt n with tsd := false, filtAt := s.tb }
      let l := s.hsLead n
      let s := if s.clocked .pwr ∧ (s.hsAt l).cmd.onTime ∧ !s.hsBlocked l then s.hsActivate l else s
      .next (s.hsGateUpdate n)
    else .next s
  | .leg l => .next ((s.setLeg l { s.legAt l with tsd := false }).brSettleLeg l)
  | .vl n => .next ((s.setValve n { s.valveAt n with tsd := false }).vlSettle n)
  | .side b => .next ((s.setSide b { s.sideAt b with tsd := false }).sideUpdate b)
  | .row r => .next (State.colCount { s with light := { s.light with tsdRows := withElem s.light.tsdRows r false } })
  | .col c => .next (State.colCount { s with light := { s.light with tsdCols := withElem s.light.tsdCols c false } })
  | .amb g => .next (s.setAmb g { s.ambAt g with tsd := false })

/-! ## Sense conversions -/

/-- The number of a sense converter (State.senseAt). -/
def senseKey : SenseUnit → Nat
  | .hs n _ _ => n
  | .leg l _ _ _ => 64 + l
  | .vl n _ _ => 96 + n
  | .side b _ _ => 104 + b

/-- The tick of a converter's next conversion: each takes one at every tick that is a multiple of 100 (R142). -/
def State.senseTick (s : State) (u : Nat) : Nat :=
  let t := nextCong 100 0 s.tb
  if tget (fun _ => none) s.senseAt u = some t then t + 100 else t

/-- SENSE_CONVERSION (R142): periods start at the ticks that are multiples of 100. (DEDUCED: log entry 35.) -/
def execSenseConversion (u : SenseUnit) (s : State) : Outcome :=
  if !s.clocked .pwr then .next s
  else s.atTick (s.senseTick (senseKey u)) fun s =>
    let s : State := { s with senseAt := tset (fun _ => none) s.senseAt (senseKey u) (some (nextCong 100 0 s.tb)) }
    match u with
    | .hs n i fail => s.hsSense n i fail
    | .leg l i fail ripple => s.legSense l i fail ripple
    | .vl n i fail => s.vlSense n i fail
    | .side b i fail => s.sideSense b i fail

/-! ## Cross-tests -/

/-- The number a cross-test counts a switch under. -/
def xId : XSwitch → Nat
  | .hs n => n
  | .leg n => 64 + n
  | .vha => 96
  | .vhb => 97
  | .row r => 112 + r

/-- The page of a watched switch (R148, R372). -/
def xPage : XSwitch → Nat
  | .hs n => 0x100 + n
  | .leg n => 0x140 + n
  | .vha => 0x168
  | .vhb => 0x168
  | .row _ => 0x170

/-- The cross-test of a channel watches every other high-side switch of the PWR island outside its gang (R148). -/
def State.xWatched (s : State) (b : Nat) : XSwitch → Bool
  | .hs n => !(s.hsUnit b).contains n.val
  | _ => true

/-- The high-side switches of the PWR island (R148). -/
def xSwitches : List XSwitch :=
  (List.finRange 48).map .hs ++ (List.finRange 28).map .leg ++ [.vha, .vhb] ++ (List.finRange 16).map .row

/-- The last edge of a matrix row at the present tick (R202): that of the scanned row, on after the guard, and of the two rows before
it, off at the ends of their slots. -/
def State.rowEdge (s : State) (r : Nat) : Option (Nat × Bool) :=
  let l := s.light
  let c := s.scanAt
  let k := (l.row + 16 - r) % 16
  if !l.run || !(s.fld mxPg R.MX.ROWEN.EN).testBit r || s.rowLatch.testBit r || (s.dieAt 1).any || l.tsdRows.contains r then none
  else if k = 0 then
    if l.slotStart + c.slot ≤ s.tb then some (l.slotStart + c.slot, false)
    else if l.slotStart + c.g ≤ s.tb then some (l.slotStart + c.g, true) else none
  else if k ≤ 2 then some (l.slotStart - (k - 1) * c.slot, false) else none

/-- The last gate edge of a switch that lies at or before the present tick, and its direction (R148). -/
def State.xEdgeAt (s : State) (a : XSwitch) : Option (Nat × Bool) :=
  let known := fun (e : Option Nat) (on : Bool) => match e with | some t => if t ≤ s.tb then some (t, on) else none | none => none
  match a with
  | .hs n => known (s.hsAt n).edge (s.bit (hsPg n) R.HS.STAT.GATE)
  | .leg l => known (s.legAt l).edge (s.legOn l).1
  | .vha => known (s.sideAt 0).edge ((s.sideAt 0).src != .off)
  | .vhb => known (s.sideAt 1).edge ((s.sideAt 1).src != .off)
  | .row r => s.rowEdge r

/-- Count an edge of a switch at its tick; an edge that has been counted does not count again. -/
def xCount (l : List XEdge) (a : Nat) (rising : Bool) (t : Nat) : List XEdge :=
  let e := (l.find? (·.sw = a)).getD ⟨a, 0, 0, 0⟩
  if 0 < e.rise + e.fall ∧ e.last = t then l
  else ⟨a, if rising then e.rise + 1 else e.rise, if rising then e.fall else e.fall + 1, t⟩ :: l.filter (·.sw ≠ a)

/-- The tick of the edge of a watched switch that counts now (R148): its gate stands in that direction since at most 5 000 ticks,
and no other watched switch has had an edge since. (DESIGN CHOICE: log entry 71.) -/
def State.xEdgeSeen (s : State) (b : Nat) (a : XSwitch) (rising : Bool) : Option Nat :=
  match s.xEdgeAt a with
  | some (e, on) =>
    if on = rising ∧ s.tb ≤ e + 5000 ∧ (xSwitches.all fun o => o == a || !s.xWatched b o ||
        (match s.xEdgeAt o with | some (e', _) => decide (e' ≤ e) | none => true)) then some e else none
  | none => none

/-- CROSS_TEST_EDGE (R148): two counted on-edges and two off-edges of one switch with no counted edge of another set XCPL on
B, and on A where A is a high-side channel; the log names the partner (R372). (DEDUCED: log entry 35.) -/
def execCrossTestEdge (b : Fin 48) (a : XSwitch) (rising : Bool) (s : State) : Outcome :=
  let h := s.hsAt b
  if !s.xWatched b a ∨ !s.clocked .pwr ∨ !s.enabled (hsPg b) then .next s
  else match h.xt, s.xEdgeSeen b a rising with
  | some l, some t =>
    let l := xCount l (xId a) rising t
    match l with
    | [e] =>
      if 2 ≤ e.rise ∧ 2 ≤ e.fall then
        let s := s.setHs b { h with xt := none }
        let s := s.detectAs (hsPg b) 12 (s.blkSources (hsPg b) 12) (.xcpl (hsPg b) (xPage a))
        match a with
        | .hs n => .next (s.detectAs (hsPg n) 12 (s.blkSources (hsPg n) 12) (.xcpl (hsPg n) (hsPg b)))
        | _ => .next s
      else .next (s.setHs b { h with xt := some l })
    | _ => .next (s.setHs b { h with xt := some l })
  | _, _ => .next s

/-! ## PWM edges -/

/-- PWM_PERIOD_EDGE (R98, R99). -/
def execPwmPeriodEdge (o : PwmOut) (s : State) : Outcome :=
  if !s.clocked .pwr then .next s
  else match o with
  | .hs n =>
    s.atTick ((s.hsAt n).gen.edgeTick s.tb (s.bit (hsPg n) R.HS.STAT.GATE)) fun s => s.hsGateUpdate n
  | .bridge k =>
    let b := s.bridgeAt k
    let drive := if b.applied matches .rev _ then s.legB k else s.legA k
    s.atTick (b.gen.edgeTick s.tb (s.legAt drive).want.1) fun s =>
      (s.legUpdate (s.legA k)).legUpdate (s.legB k)
  | .valve n i => s.vlChop n i
  | .amb g =>
    if ((s.ambAt g).gen.at s.tb).onTime then s.atTick ((s.ambAt g).gen.nextStart s.tb) fun s => s.ambEdge g else .next s

/-! ## Live writes of outputs -/

/-- LIVE_OUTPUT_WRITE (R31): the write is stored and takes effect when level 4 governs (R27). A locked page refuses it (R61). -/
def State.outWrite (s : State) (o : OutReg) (d : Word) : State :=
  match o with
  | .hs n => if s.locked (hsPg n) then s.refuse (hsPg n) else s.hsWriteOut n d
  | .vl n => if s.locked (vlPg n) then s.refuse (vlPg n) else s.vlWriteOut n d
  | .mx => if s.locked mxPg then s.refuse mxPg else s.mxWriteOut d
  | .pxc => if s.locked pxPg then s.refuse pxPg else s.pxWriteOut d
  | .amb g => if s.locked (ambPg g) then s.refuse (ambPg g) else s.ambWriteOut g d
  | .io n => if s.locked (ioPg n) then s.refuse (ioPg n) else s.ioWriteOut n d

/-- LIVE_OUTPUT_WRITE. It does not arrive while its page's island has no clock (R31, R105, R453). -/
def execLiveOutputWrite (_w : Writer) (o : OutReg) (d : BitVec 32) (s : State) : Outcome :=
  if s.clocked (if o = .pxc then .io else .pwr) then .next (s.outWrite o d) else .next s

end Sys2Proof.Machine
end

