-- ==== Sys2Proof/Machine/TimeBase.lean ====
section
/-! DEFINITION. The time base (R90-R103): its compare and capture units and its synchronisation. -/

namespace Sys2Proof.Machine

/-- The TB page. -/
def tbPg : Nat := 0x003

/-- TB steps forward: compares whose values it passes fire with LATE (R93, R102). The KA island's own time does not step.
(DESIGN CHOICE: log entry 69.) -/
def State.tbAdvance (s : State) (k : Nat) : State :=
  let t := s.tb + k
  let s := (List.range 8).foldl (fun u n =>
    let v := u.fld64 tbPg (R.TBC.LO.V n) (R.TBC.HI.V n)
    if u.bit tbPg (R.TBC.CTRL.ARM n) ∧ v ≤ t ∧ u.tb < v then { u with tbcTick := tset (fun _ => 0) u.tbcTick n t } else u) s
  { s with tb := t, kaLead := s.kaLead - k }

/-! ## Compare units -/

/-- Compare `n` fires; `late` when its value was already reached as it was armed or took it (R94). -/
def State.tbcFire (s : State) (n : Nat) (v : Nat) (late : Bool) : State :=
  let s := (s.setBit tbPg (R.TBC.STAT.FIRED n) true).post (8 + n)
  let s := s.pulse Island.io.index (0x50 + n)
  let s := if late then (s.setBit tbPg (R.TBC.STAT.LATE n) true).detect tbPg 1 else s
  let i := s.fld tbPg (R.TBC.CTRL.INTV n)
  if i = 0 then s.setBit tbPg (R.TBC.CTRL.ARM n) false
  else
    let s := s.setFld64 tbPg (R.TBC.LO.V n) (R.TBC.HI.V n) ((v + i) % 2 ^ 64)
    { s with tbcTick := tset (fun _ => 0) s.tbcTick n (if late then s.tb else v) }

/-- The value of a compare, and whether it fires in the present IO cycle (R94, R95): armed, and reached since it was armed. -/
def State.tbcVal (s : State) (n : Nat) : Nat := s.fld64 tbPg (R.TBC.LO.V n) (R.TBC.HI.V n)
/-- A compare that is due. -/
def State.tbcDue (s : State) (n : Nat) : Bool :=
  s.bit tbPg (R.TBC.CTRL.ARM n) && s.tbRun && s.clocked .io &&
    decide (max (s.tbcVal n) (tget (fun _ => 0) s.tbcTick n + 1) ≤ s.tb)

/-- A write of TBC.CTRL (R95). A compare that fires in the cycle of a disarming write has fired. -/
def State.tbcCtrl (s : State) (n intv : Nat) (arm : Bool) : State :=
  if s.bit tbPg (R.TBC.CTRL.ARM n) ∧ arm then
    (if intv = s.fld tbPg (R.TBC.CTRL.INTV n) then s.ok tbPg else s.refuse tbPg)
  else
    let s := if s.tbcDue n then s.tbcFire n (s.tbcVal n) (decide (s.tbcVal n ≤ tget (fun _ => 0) s.tbcTick n)) else s
    let s := (s.setFld tbPg (R.TBC.CTRL.INTV n) intv).setBit tbPg (R.TBC.CTRL.ARM n) arm
    ({ s with tbcTick := tset (fun _ => 0) s.tbcTick n s.tb }).ok tbPg

/-- TBC_CTRL_WRITE (R95). It does not arrive while the IO island has no clock. -/
def execTbcCtrlWrite (n : Fin 8) (intv : BitVec 24) (arm : Bool) (s : State) : Outcome :=
  if !s.clocked .io then .next s
  else if s.locked tbPg then .next (s.refuse tbPg) else .next (s.tbcCtrl n intv.toNat arm)

/-- TBC_FIRE (R94): in the first IO cycle with TB at the value, or in the next one where it was reached before. -/
def execTbcFire (n : Fin 8) (s : State) : Outcome :=
  let v := s.tbcVal n
  let a := tget (fun _ => 0) s.tbcTick n
  if s.bit tbPg (R.TBC.CTRL.ARM n) ∧ s.tbRun ∧ s.clocked .io then
    s.atTick (max v (a + 1)) fun s => s.tbcFire n v (decide (v ≤ a))
  else .next s

/-! ## Capture units -/

/-- A capture unit takes an occurrence of its source at a tick (R96, R97). -/
def State.capTake (s : State) (m tick : Nat) : State :=
  if s.bit tbPg (R.CAP.STAT.FULL m) then (s.setBit tbPg (R.CAP.STAT.OVR m) true).detect tbPg 2
  else ((s.setFld64 tbPg (R.CAP.LO.T m) (R.CAP.HI.T m) tick).setBit tbPg (R.CAP.STAT.FULL m) true).post m

/-- CAPTURE (R18, R96): a selected posting arrives with the tick of its posting, after those that its island posted before; or an
LSYNC edge is sampled. -/
def execCapture (m : Fin 4) (src : CapSrc) (s : State) : Outcome :=
  let mode := s.fld tbPg (R.CAP.SEL.MODE m)
  if !s.clocked .io then .next s
  else match src with
  | .event e =>
    match s.capPend.find? fun p => p.unit = m.val && p.ev = e.toNat with
    | some p =>
      if (s.capPend.takeWhile (· ≠ p)).any fun q => q.isl = p.isl && !(q.ev = p.ev && q.tick = p.tick) then .next s
      else
        let s : State := { s with capPend := s.capPend.erase p }
        .next (if mode = 1 ∧ s.fld tbPg (R.CAP.SEL.EVT m) = e.toNat then s.capTake m p.tick else s)
    | none => .next s
  | .lsyncRise => if mode = 2 then .next (s.capTake m s.tb) else .next s
  | .lsyncFall => if mode = 3 then .next (s.capTake m s.tb) else .next s

/-! ## Synchronisation -/

/-- The states of TB.SSTAT (R100). -/
def syncFree : Nat := 0
/-- ACQUIRE. -/
def syncAcquire : Nat := 1
/-- LOCKED. -/
def syncLocked : Nat := 2
/-- HOLDOVER. -/
def syncHoldover : Nat := 3

/-- TB.SSTAT.STATE. -/
def State.syncState (s : State) : Nat := s.fld tbPg R.TB.SSTAT.STATE

/-- Bring TB.SSTAT to a state; event 4 at a change (R100). (DEDUCED: log entry 49.) -/
def State.syncGo (s : State) (st : Nat) : State :=
  if s.syncState = st then s else (s.setFld tbPg R.TB.SSTAT.STATE st).post 4

/-- The synchronisation starts over in FREE, where TB is never adjusted (R92, R93, R100). -/
def State.syncFreeGo (s : State) : State :=
  ({ s.setFld tbPg R.TB.RATE.PPB 0 with syncGood := 0, tbStep := none } : State).syncGo syncFree

/-- A write of TB.SYNC.ROLE (R100): FREE with no adjustment, then LOCKED for a grandmaster. (DESIGN CHOICE: log entry 19.) -/
def State.syncRole (s : State) (role : Nat) : State :=
  if role = 3 then s.range tbPg
  else if role = s.fld tbPg R.TB.SYNC.ROLE then s.ok tbPg
  else
    let s := ((s.setFld tbPg R.TB.SYNC.ROLE role).syncFreeGo).ok tbPg
    if role = 1 then s.syncGo syncLocked else s

/-- SYNC_ROLE_WRITE (R100). It does not arrive while the IO island has no clock. -/
def execSyncRoleWrite (role : BitVec 2) (s : State) : Outcome :=
  if !s.clocked .io then .next s
  else if s.locked tbPg then .next (s.refuse tbPg) else .next (s.syncRole role.toNat)

/-- The local FIX page is ARMED (R76). -/
def State.fixArmed (s : State) : Bool := s.fld 0x002 R.FIX.STATE.ST = 3

/-- Steer TB by an offset in ns (R101, R102): one forward step from more than 10 000 ticks behind, deferred by an armed fix;
otherwise a rate adjustment within 250 ppm, whose amount is free: it slows a TB that is ahead, speeds up one that is behind,
and is open at no offset. (DESIGN CHOICE: log entries 17, 19.) -/
def State.steer (s : State) (off : Int) : State :=
  if off < -100000 then
    let k := (-off / 10).toNat
    if s.fixArmed then { s with tbStep := some k } else s.tbAdvance k
  else
    let v : Nat := (Config.freeRate s.freeCtr).val
    let r : Int := if 0 < off then -((v % 250000 : Nat) : Int) - 1 else if off < 0 then ((v % 250000 : Nat) : Int) + 1 else (v : Int) - 250000
    (s.setFld tbPg R.TB.RATE.PPB (toField 32 r)).nextFree

/-- SYNC_MESSAGE (R100, R101, R409): a follower whose TB counts measures its offset and takes its next state; the Sync of another port than the best is only noted, and a
device without a role only relays. The message that
brings it to ACQUIRE is not one of the 8 that bring it to LOCKED. (DESIGN CHOICE: log entry 69.) -/
def execSyncMessage (m : SyncMsg) (s : State) : Outcome :=
  if s.fld tbPg R.TB.SYNC.ROLE = 1 ∨ !s.linkPorts.contains m.port.val ∨ !s.clocked .net then .next s
  else
    let r := s.syncTake m
    let s := r.1
    if !r.2 ∨ s.fld tbPg R.TB.SYNC.ROLE ≠ 2 ∨ !s.tbCounts ∨ !s.clocked .io then .next s else
    let off := m.offset
    let s := s.setFld tbPg R.TB.OFFSET.NS (toField 32 off)
    let good := decide (off.natAbs ≤ 20)
    let st := s.syncState
    let n := if st = syncAcquire && good then s.syncGood + 1 else 0
    let s := { s with syncTick := s.tb, syncGood := n }
    let st2 :=
      if st = syncLocked then (if good then syncLocked else syncAcquire)
      else if st = syncAcquire ∧ 8 ≤ n then syncLocked else syncAcquire
    let s := s.detectIf (decide (st = syncLocked ∧ st2 ≠ syncLocked)) tbPg 3
    .next ((s.syncGo st2).steer off)

/-- SYNC_MISSED (R100): from LOCKED to HOLDOVER after three intervals. -/
def execSyncMissed (s : State) : Outcome :=
  if s.syncState = syncLocked ∧ s.fld tbPg R.TB.SYNC.ROLE = 2 ∧ s.clocked .io then
    s.atTick (s.syncTick + 3 * s.syncInterval) fun s => (s.syncGo syncHoldover).detect tbPg 3
  else .next s

/-- HOLDOVER_TIMEOUT (R100). -/
def execHoldoverTimeout (s : State) : Outcome :=
  if s.syncState = syncHoldover ∧ s.clocked .io then
    s.atTick (s.syncTick + s.fld tbPg R.TB.HOLDTMO.S * 100000000) fun s =>
      (s.setFld tbPg R.TB.RATE.PPB 0).syncGo syncFree
  else .next s

/-- DEFERRED_TB_STEP (R102): in the IO cycle after the fix applies. (DEDUCED: log entry 49.) -/
def execDeferredTbStep (s : State) : Outcome :=
  match s.tbStep with
  | some k => if s.fixArmed ∨ !s.tbCounts ∨ !s.clocked .io then .next s else .next (({ s with tbStep := none } : State).tbAdvance k)
  | none => .next s

end Sys2Proof.Machine
end

