-- ==== Sys2Proof/Machine/Reset.lean ====
section
/-! DEFINITION. What resets do: the block reset of a page (R515), the chip reset (R21, R459, R460) and the output hold that
follows it (R462-R465). -/

namespace Sys2Proof.Machine

/-! ## The outputs as a whole -/

/-- Evaluate the chain of every output (R24, R25). -/
def State.settleAll (s : State) : State :=
  let s := s.hsSettleAll.brSettleAll.vlSettleAll.mxSettle
  let s := (List.range 4).foldl State.ambSettle s
  (((List.range 16).foldl State.ioSettle s).sideLimp 0).sideLimp 1

/-- The outputs of R24 by their numbers in RST.HELD (R465). (DEDUCED: log entry 63.) -/
def heldOutputs : List Nat :=
  List.range 62 ++ List.range' 64 8 ++ [72, 73, 74] ++ List.range' 75 4 ++ List.range' 80 16

/-- Level 1 no longer holds the switches of both sides off (R370, R463). -/
def State.sidesFree (s : State) : State :=
  [0, 1].foldl (fun (t : State) b => if t.level1 (72 + b) then t else t.setSide b { t.sideAt b with limpOff := false }) s

/-- Bring one output to the chain. -/
def State.outSettle (s : State) (o : Nat) : State :=
  if o < 48 then s.hsSettle (s.hsLead o)
  else if o < 62 then s.brSettle (o - 48)
  else if 64 ≤ o ∧ o < 72 then s.vlSettle (o - 64)
  else if o = 72 ∨ o = 73 then s.sidesFree.sideUpdate (o - 72)
  else if o = 74 then s.mxSettle
  else if 75 ≤ o ∧ o < 79 then s.ambSettle (o - 75)
  else if 80 ≤ o then s.ioSettle (o - 80)
  else s

/-! ## The output hold -/

/-- Take the held command of every output: what levels 3 and 4 gave it in the last PWR cycle; one that is held already keeps
its held command (R462, R475). -/
def State.takeHeld (s : State) : State :=
  let s := (List.range 48).foldl (fun (t : State) n =>
    if t.heldBit n then t else
      let c := s.hsLower n
      t.setHs n { t.hsAt n with heldCmd := c.1, heldGov := c.2 }) s
  let s := (List.range 14).foldl (fun (t : State) k =>
    if t.heldBit (48 + k) then t else
      let c := s.brLower k
      t.setBridge k { t.bridgeAt k with heldCmd := c.1, heldGov := c.2 }) s
  let s := (List.range 8).foldl (fun (t : State) n =>
    if t.heldBit (64 + n) then t else
      let c := s.vlLower n
      t.setValve n { t.valveAt n with heldCmd := c.1, heldGov := c.2 }) s
  let s : State := if s.heldBit 74 then s else
    { s with light := { s.light with heldRun := s.bit mxPg R.MX.OUT.RUN, heldGov := govLive } }
  let s := (List.range 4).foldl (fun (t : State) g =>
    if t.heldBit (75 + g) then t else
      t.setAmb g { t.ambAt g with heldOn := t.bit (ambPg g) R.AMB.OUT.ON, heldGov := govLive }) s
  (List.range 16).foldl (fun (t : State) n =>
    if t.heldBit (80 + n) then t else
      t.setIo n { t.ioAt n with heldCmd := t.bit (ioPg n) R.IO.OUT.ON, heldGov := govLive }) s

/-- The hold time ends (R464): outputs still held take their limp values; HOLDEXP. -/
def State.holdExpire (s : State) : State :=
  let any := heldOutputs.any s.heldBit
  let s := s.setBit 0x006 R.RST.HSTAT.RUN false
  let s := if any then ((s.setBit 0x006 R.RST.HSTAT.EXPIRED true).count 0x006 1).detect 0x006 1 else s
  s.settleAll

/-- The output hold of a chip reset starts (R462); none in safe state; with MS = 0 the limp values apply at once (R464).
(DEDUCED: log entry 63.) -/
def State.holdStart (s : State) : State :=
  if s.safe then s
  else
    let ms := s.fld 0x006 R.RST.HOLD.MS
    let s := s.takeHeld
    let s := heldOutputs.foldl (fun (t : State) o => t.setHeld o true) s
    let s := (s.setBit 0x006 R.RST.HSTAT.RUN true).setBit 0x006 R.RST.HSTAT.EXPIRED false
    let s : State := { s with pwr := { s.pwr with holdEnd := s.kaNow + ms * 100000 } }
    if ms = 0 then s.holdExpire else s

/-- The hold is over for every output: safe state, PARK (R475). -/
def State.holdClear (s : State) : State :=
  let s := heldOutputs.foldl (fun (t : State) o => t.setHeld o false) s
  s.setBit 0x006 R.RST.HSTAT.RUN false

/-- The hold runs while an output is held. -/
def State.holdDone (s : State) : State :=
  if heldOutputs.any s.heldBit then s else s.setBit 0x006 R.RST.HSTAT.RUN false

/-- Reclaim outputs (R463): a gang by its leader's bit; the switch of a side with its bit, or with the last of its valves. -/
def State.reclaim (s : State) (os : List Nat) : State :=
  let os := os.filter s.heldBit
  let os := os.flatMap fun o => if o < 48 then (if s.hsLead o = o then s.hsUnit o else []) else [o]
  let s := os.foldl (fun (t : State) o => t.setHeld o false) s
  let sides := [0, 1].filter fun b => s.heldBit (72 + b) && !((sideValves b).any fun n => s.heldBit (64 + n))
  let s := sides.foldl (fun (t : State) b => t.setHeld (72 + b) false) s
  ((os ++ sides.map (72 + ·)).foldl State.outSettle s).holdDone

/-- RECLAIM (R463). -/
def execReclaim (j : Fin 3) (d : Word) (s : State) : Outcome :=
  if s.locked 0x006 then .next (s.refuse 0x006)
  else
    let os := ((List.range 32).filter fun i => d.getLsbD i).map (32 * j.val + ·)
    .next ((s.ok 0x006).reclaim (os.filter heldOutputs.contains))

/-- RECLAIMALL (R463). -/
def execReclaimall (s : State) : Outcome :=
  if s.locked 0x006 then .next (s.refuse 0x006) else .next ((s.ok 0x006).reclaim heldOutputs)

/-- HOLD_EXPIRY (R464). -/
def execHoldExpiry (s : State) : Outcome :=
  if s.holdRun then s.atKa s.pwr.holdEnd fun s => s.holdExpire else .next s

/-! ## FIX and resets -/

/-- FIX's page. -/
def fixPg : Nat := 0x002

/-- FIX.STATE.ST: 0 IDLE, 1 CHECKING, 2 CHECKED, 3 ARMED (R74). -/
def State.fixSt (s : State) : Nat := s.fld fixPg R.FIX.STATE.ST

/-- FIX takes a state with a result (R76, R77). -/
def State.fixGo (s : State) (st res : Nat) : State := (s.setFld fixPg R.FIX.STATE.ST st).setFld fixPg R.FIX.STATE.RESULT res

/-- A page of the KA island: PMU, RST, FAULT0-FAULT15 (R78). -/
def kaPage (pg : Nat) : Bool := pg = 0x005 || pg = 0x006 || (decide (0x010 ≤ pg) && decide (pg ≤ 0x01F))

/-- The arming lead of a scope in ticks (R78). -/
def fixLead (scope : List Nat) : Nat := if scope.any kaPage then 400 else 64

/-- A scope page's sketches changed or its block was reset in CHECKING or CHECKED (R76): STALE. -/
def State.fixTouched (s : State) (pg : Nat) : State :=
  if !s.fixScope.contains pg then s
  else if s.fixSt = 1 then { s with fixStale := true }
  else if s.fixSt = 2 then s.fixGo 0 4
  else s

/-- RESULT = RESET, LATE or BMISS raises the FIX warning source (R84, R89). -/
def State.fixWarn (s : State) : State := s.raise 7 (.page fixPg)

/-- A fault-driven block reset meets a pending fix (R84): before the commit point the fix is withdrawn; after it, up to its
completion, the other pages apply and the result is RESET, with the lowest of the pages reset. (DEDUCED: log entry 21.) -/
def State.fixFaultReset (s : State) (pg : Nat) : State :=
  if s.fixSt ≠ 3 ∨ !s.fixScope.contains pg then s.fixTouched pg
  else if s.tb < s.fixTime - fixLead s.fixScope ∧ !s.fixCopied then
    (((s.fixGo 0 8).setFld fixPg R.FIX.FAILPG.PAGE pg).fixWarn).post 7
  else { s with fixResetPgs := s.fixResetPgs ++ [pg], fixReset := some ((s.fixReset.map (min pg)).getD pg) }

/-! ## The block reset -/

/-- Registers whose RO fields report what a block reset leaves as it is: straps, supplies, latches, roles, the present
segments, the hold, the collector, the last boot (R13, R515). -/
def keptAt : PageKind → List Nat
  | .sys => [R.SYS.DEVID_LO.ID.off, R.SYS.DEVID_HI.ID.off, R.SYS.STRAP.VLSEL.off]
  | .clk => [R.CLK.XSTAT.XOK.off, R.CLK.LOCK.L.off]
  | .pmu => [R.PMU.MODE.MODE.off, R.PMU.VBAT.V.off, R.PMU.SUP.VLOG.off]
  | .rst => [R.RST.HSTAT.RUN.off, (R.RST.HELD.H 0).off, (R.RST.HELD.H 1).off, (R.RST.HELD.H 2).off]
  | .boot => [R.BOOT.STAT.BANK.off, R.BOOT.SEQ.SEQ.off, R.BOOT.TIME.US.off, R.BOOT.IMGLEN.L.off]
  | .cfg => [R.CFG.STAT.USED.off, R.CFG.SEQ.SEQ.off, R.CFG.APPLEN.N.off, R.CFG.APPADDR.ADDR.off, R.CFG.VER.V.off]
  | .cal => [R.CAL.STAT.UCALOK.off]
  | .fault0 => [R.FLT.STAT.SAFE.off, R.FLT.SAFEC.CAUSE.off, R.FLT.SELF.WORD.off]
  | .hs => [R.HS.STAT.GATE.off, R.HS.SEG.MAP.off, R.HS.RATE.ICONT.off]
  | .vl => [R.VL.STAT.PHASE.off]
  | .boost => [R.VSIDE.STAT.SRCA.off]
  | .mx => [R.MX.STAT.PHI.off, R.MX.TEMP.T.off, R.MX.LATCH.ROW.off]
  | .amb => [R.AMB.STAT.LATCH.off, R.AMB.APPRG.R.off, R.AMB.APPB.B.off]
  | .io => [R.IO.STAT.LATCH.off]
  | .iso => [R.ISO.FS.ST.off]
  | .memc => [R.MEMC.SSTAT.RUN.off]
  | .memr => [R.MEMR.MSTAT.MAPOK.off]
  | .cr => [R.CR.STAT.NVOK.off, R.CR.LIB.VER.off]
  | .da => [R.DA.STAT.ST.off]
  | .esw => [R.ESW.STAT.MACN.off]
  | .link => [R.LINK.DEVID.ID.off, R.LINK.STAT.UP.off, R.LINK.PLAT.TICKS.off, R.LINK.TOPO.NDEV.off]
  | .upd => [R.UPD.STAT.ST.off, R.UPD.CFV.RUN.off]
  | _ => []

/-- The registers of a page take their reset values (R515): live registers, sketches, PG_SKSTAT and EN.
(DEDUCED: log entries 22, 38.) -/
def State.pageReset (s : State) (pg : Nat) : State :=
  let keep := ((kindOf pg).map keptAt).getD []
  let s : State := { s with regs := s.regs.filter fun (e : Nat × Word) =>
    !(e.1 / 0x1000 = pg && decide (0x100 ≤ e.1 % 0x1000) && decide (e.1 % 0x1000 < 0x800) && !keep.contains (e.1 % 0x1000)) }
  ((s.dropSketch pg).setReg pg 0x058 0).setBit pg R.PG_CTRL.EN false

/-- The clauses of a window page start from nothing (R248, R515). -/
def State.windowReset (s o : State) (pg : Nat) : State :=
  let cs := o.clOf pg
  let s : State := { s with clauses := s.clauses.filter fun (e : Nat × Clause) => cwPg e.1 ≠ pg }
  let objs := o.clObjects cs false
  let links := o.clObjects cs true
  links.foldl State.linkSettle (objs.foldl State.objSettle s)

/-- What a block reset does beyond its page's registers; `o` is the state before it (R141, R169, R381, R405, R449).
(DESIGN CHOICE: log entry 68.) -/
def State.resetHook (s o : State) (pg : Nat) : State :=
  match kindOf pg with
  | some .fix => { s with fixScope := [], fixStale := false }
  | some .tb => ({ s with tbcTick := [], syncGood := 0, tbStep := none } : State).postIf (o.syncState ≠ 0) 4
  | some .clk => s.postIf (o.reg pg R.CLK.LOSS.L.off ≠ 0) 5
  | some .bank => (((List.range 8).map (8 * (pg - 0x0F0) + ·)).foldl State.hsSettle s).hsLimMark o
  | some .hs =>
    let n := pg - 0x100
    let s := (s.setFld pg R.HS.STAT.WKIND 0).setFld pg R.HS.STAT.WEND 0
    let s := (s.setFld pg R.HS.STAT.RCNT 0).setBit pg R.HS.STAT.RETRY false
    let s := s.setHs n { s.hsAt n with latch := false, retryEnd := none, testEnd := none, xt := none }
    ((o.hsUnit n).foldl State.hsSettle (s.hsSettle n)).hsLimMark o
  | some .pal => s.hsSettleAll.hsLimMark o
  | some .leg =>
    let l := pg - 0x140
    (s.setLeg l { s.legAt l with latch := false }).brSettleLeg l
  | some .bridge =>
    ((List.range 14).foldl (fun (t : State) k => t.setBridge k { t.bridgeAt k with parkRun := false, parkEnd := none }) s).brSettleAll
  | some .vl => (s.setValve (pg - 0x160) { s.valveAt (pg - 0x160) with gen := {} }).vlSettle (pg - 0x160)
  | some .boost => s.vlSettleAll
  | some .mx => s.scanFix.mxSettle
  | some .pxc => s.pxStop.setBit pxPg R.PXC.STAT.BLANK (o.bit pxPg R.PXC.STAT.BLANK && s.safe)
  | some .cv => { s with light := { s.light with swap := none, trig := none } }
  | some .amb => s.ambFix (pg - 0x174) (o.bit pg R.AMB.LOOP.CL)
  | some .li2c => s.i2cStop
  | some .si => s.siRefresh (pg - 0x180)
  | some .io => s.ioFix (pg - 0x1A0) (o.ioMode (pg - 0x1A0))
  | some .iso => s.ioValid
  | some .rxc => s.clEnable rxcPg
  | some .cw => s.windowReset o pg
  | some .rxl => s.rxlEnable
  | some .can =>
    let c := pg - 0x200
    (((s.setCan c { wakeLatch := (s.canAt c).wakeLatch }).setCanState c 0).nmLose c).nmEval
  | some .lin => s.linEnable (pg - 0x210)
  | some .eth =>
    if o.bit pg R.ETH.STAT.LINK then (s.setBit pg R.ETH.STAT.LINK true).ethEnable (pg - 0x220) else s
  | some .nm => ({ s with nm := { s.nm with awake := s.tb, kaTick := s.tb } } : State).nmRefresh
  | some .cr => s.cryAbort
  | some .fault0 => { s with flt := { s.flt with bad := s.flt.bad.filter (· ≠ 256) } }
  | some .faultCfg => { s with flt := { s.flt with bad := s.flt.bad.filter fun w => w / 64 ≠ pg - 0x011 || w = 256 } }
  | some .cx => ((List.range 32).map (32 * (pg - 0x244) + ·)).foldl (fun (t : State) c => t.cxFix o c) s
  | some .lf => { s with lfHeld := [] }
  | _ => s

/-- Whether a page refuses BRST: the core pages and the LCM (chapter on the application cores). -/
def brstRefused (pg : Nat) : Bool := decide (0x020 ≤ pg) && decide (pg ≤ 0x02A)

/-- A block reset acts on a page (R515), and clauses see its signals go (R250). (DEDUCED: log entry 22.) -/
def State.blockReset (s : State) (pg : Nat) : State := ((s.pageReset pg).resetHook s pg).sourceSeen pg

/-- A fault-driven block reset (R365): it acts on a locked page too; not on FIX outside IDLE (R76), nor where BRST is
refused. -/
def State.faultReset (s : State) (pg : Nat) : State :=
  if (kindOf pg).isNone ∨ brstRefused pg ∨ (pg = fixPg ∧ s.fixSt ≠ 0) then s
  else (s.fixFaultReset pg).blockReset pg

/-- BRST (R515): refused on a locked page, on a core page, on FIX outside IDLE, and on a scope page of an ARMED fix (R61, R76,
R84). A page whose island has no clock is not reached. (DEDUCED: log entry 22.) -/
def execBrst (pg : BitVec 12) (s : State) : Outcome :=
  let p := pg.toNat
  if (kindOf p).isNone ∨ !s.clocked (s.islandOf p) then .next s
  else if s.locked p ∨ brstRefused p ∨ (p = fixPg ∧ s.fixSt ≠ 0) ∨ (s.fixSt = 3 ∧ s.fixScope.contains p) then .next (s.refuse p)
  else .next (((s.fixTouched p).blockReset p).ok p)

/-! ## The chip reset -/

/-- A page that a chip reset leaves: of the KA and PWR islands (R21, R460). (DEDUCED: log entry 56.) -/
def resetKeeps (pg : Nat) : Bool := pageIsland pg == .ka || pageIsland pg == .pwr

/-- Registers of the other islands that report what a chip reset leaves: ID and straps, crystals, the roles and the map (R255),
the split (R256), the locked debug (R448). (DEDUCED: log entry 56.) -/
def chipKept (pg off : Nat) : Bool :=
  (pg = 0x001 && (off = R.SYS.DEVID_LO.ID.off || off = R.SYS.DEVID_HI.ID.off || off = R.SYS.STRAP.VLSEL.off)) ||
  (pg = 0x004 && off = R.CLK.XSTAT.XOK.off) ||
  (decide (0x020 ≤ pg) && decide (pg ≤ 0x029) && (off = R.CORE.STAT.ROLE.off || off = R.CORE.TEST.RES.off)) ||
  (pg = 0x02A && (off = R.LCM.SPLIT.SPLIT.off || off = 0x044)) ||
  (pg = 0x228 && off = R.LINK.DEVID.ID.off) ||
  (pg = 0x230 && ((R.NM.FWCNT.CNT 0).off ≤ off && off ≤ (R.NM.LFWCNT.CNT 5).off || off = R.NM.ESC.ESC.off)) ||
  (pg = 0x243 && off = R.DA.STAT.ST.off)

/-- What a context holds after a reset: context 0 of AC0 is READY at PRI 15 at the boot ROM, all others OFF (R270). -/
def bootCtxs : Tab Ctx :=
  let r : CtxRegs := { (ctxDflt 0).now with pc := 0x20000000, pri := 15, st := .ready }
  tset ctxDflt [] 0 { ctxDflt 0 with now := r, com := r }

/-- The cores after a reset (R270, R271): contexts, pending vectors, operations in flight, postings and traps on their way;
takeovers complete under it, and a TEST pair starts its self-test again. (DEDUCED: log entry 56.) -/
def State.coresReset (s : State) : State :=
  let s := State.takeoversFlush 64 s.releaseDueAll
  { s with ctxs := bootCtxs, lcores := [], icache := [], icBad := [], ops := [], nmts := [], postings := [], capPend := [], lcmHeld := [] }

/-- The lighting after a chip reset (R199, R207, R209): the pixel chain's part of a swap is discarded, its pins go low, and the
loops stop. -/
def State.lightReset (s : State) : State :=
  let l := s.light
  let s : State := { s with light := { l with
    pxDone := l.pxDone || l.swap.isSome, pxResync := l.pxResync || (l.swap.isSome && !l.pxDone) } }
  s.i2cStop.pxStop.swapShow

/-- A flash command or a piece that a reset interrupts leaves what R353 says: the word, or the sector, with open values.
(DESIGN CHOICE: log entry 31.) -/
def State.flashTorn (s : State) : State :=
  let s := s.pieceTorn
  match s.memc.flash with
  | none => s
  | some o =>
    let s : State := { s with memc := { s.memc with flash := none } }
    if o.prog then { (s.setBytes o.at_ s.freeBytes) with freeCtr := s.freeCtr + 8 } else s.tearSector (sectorOf o.at_)

/-- A chip reset starts (R21, R40, R84, R249, R270, R322, R367, R381, R460, R462): `cause` is its bit of RST.CAUSE.
(DEDUCED: log entries 53, 56.) -/
def State.chipReset (s : State) (cause : Nat) : State :=
  let s := (s.setReg 0x006 R.RST.CAUSE.C.off (s.reg 0x006 R.RST.CAUSE.C.off ||| (1 <<< cause))).count 0x006 0
  let s := s.holdStart
  let s := s.coresReset.cryAbort.flashTorn
  let daSt := s.fld daPg R.DA.STAT.ST
  let esc := s.bit nmPg R.NM.STAT.MAXEXP
  let blank := s.bit pxPg R.PXC.STAT.BLANK && s.safe
  let s : State := { s with
    regs := s.regs.filter fun (e : Nat × Word) =>
      let pg := e.1 / 0x1000
      (resetKeeps pg && e.1 % 0x1000 ≠ 0x058) || chipKept pg (e.1 % 0x1000)
    sketch := []
    fixScope := [], fixStale := false, fixBcast := false, fixCopied := false, fixReset := none, fixResetPgs := [], fixSeen := [], fixInit := none
    clauses := [], slots := [], pulses := []
    fixMode := 0, fixTag := 0, fixBlead := 0, fixBexp := 0
    tbcTick := [], tbStep := none, syncGood := 0, lfHeld := []
    cans := [], lins := [], eth := {}
    nm := { s.nm with can := 0, lin := 0, sending := [], ended := [], hold := none, vote := true, awake := s.tb, kaTick := s.tb }
    sis := [], siRef := []
    ios := s.ios.map fun (e : Nat × Io) => (e.1, { e.2 with run := false })
    upd := {}
    cry := { s.cry with jobs := [], run := none, ctrs := [], pk := none, challenge := [] }
    memc := { s.memc with start := none, rows := s.memc.rows.filter (·.told), repairs := s.memc.repairs.filter fun r => !r.isRemap }
    clkDead := (List.range' 1 16).filter fun i => i ≠ 15 || s.clkDead.contains 15
    clkLost := s.clkLost.filter (· = 15)
    power := .run
    pwr := { s.pwr with boot := .chip, recovery := false } }
  let s := (List.range 48).foldl (fun (t : State) n => t.setHs n { t.hsAt n with fresh := true }) s
  let s := if daSt = 3 then s else s.setFld daPg R.DA.STAT.ST 0
  let s := (s.setBit nmPg R.NM.STAT.MAXEXP esc).setBit pxPg R.PXC.STAT.BLANK blank
  let s := ((s.setBit 0x010 R.FLT.STAT.ALIVE false).setFld 0x005 R.PMU.MODE.MODE 0)
  let s : State := { s with flt := { s.flt with pin := false } }
  (s.lightReset).settleAll

/-- CHIPRST (R459): any other KEY answers RANGE. (DEDUCED: log entry 56.) -/
def execChiprst (key : Byte) (s : State) : Outcome :=
  if s.locked 0x006 then .next (s.refuse 0x006)
  else if key ≠ 0xA5 then .next (s.range 0x006)
  else .next ((s.ok 0x006).chipReset 3)

end Sys2Proof.Machine
end

