-- ==== Sys2Proof/Machine/Fault.lean ====
section
/-! DEFINITION. The fault collector (R357-R376): raises, the log, reactions, safe state, ALIVE and the self-check. -/

namespace Sys2Proof.Machine

/-- FAULT0. -/
def fltPg : Nat := 0x010

/-- The word of a source's reaction (R358); source 232 has none. -/
def State.scfg (s : State) (src : Nat) : Word :=
  if src = 232 then 0 else s.reg (0x011 + src / 64) (0x100 + 4 * (src % 64))

/-- A field of a source's word. -/
def State.scfgFld (s : State) (src : Nat) (f : Nat → Fld) : Nat := (f 0).get (s.scfg src)

/-- A reserved source is never raised (R357). -/
def srcReserved (src : Nat) : Bool := src ≠ 232 && (scfgRanges.find? fun r => decide (r.1 ≤ src) && decide (src ≤ r.2.1)).isNone

/-- The detail word of a cause (R372). -/
def State.detailWord (s : State) (c : Cause) : Word :=
  match c.det with
  | .page pg =>
    if c.src = 0 ∨ c.src = 1 ∨ (233 ≤ c.src ∧ c.src ≤ 235) then 0
    else BitVec.ofNat 32 (pg * 65536) ||| (s.reg pg 0x048 &&& 0xFFFF)
  | .val w => w
  | .xcpl pg q => BitVec.ofNat 32 (pg * 65536 + 0x8000 + q)
  | .loss => s.reg 0x004 R.CLK.LOSS.L.off &&& 0x1FFFF
  | .none => 0

/-- The page whose PG_FSTAT bit raised a cause (R365); the memory sources carry an address as their detail. -/
def Cause.pages (c : Cause) : List Nat :=
  match c.det with
  | .page pg => [pg]
  | .xcpl pg _ => [pg]
  | .val _ => if 32 ≤ c.src ∧ c.src ≤ 42 then [if c.src = 40 then 0x032 else 0x030] else []
  | .loss => []
  | .none => []

/-- Write a log entry (R371): a full log loses its oldest. (DEDUCED: log entry 61.) -/
def State.logPut (s : State) (e : LogEnt) : State :=
  if s.flt.log.length < 64 then { s with flt := { s.flt with log := s.flt.log ++ [e] } }
  else State.setBit { s with flt := { s.flt with log := s.flt.log.tail ++ [e] } } 0x015 R.FLT.LSTAT.OVF true

/-- A source is raised (R357, R362, R371): it is counted, logged by its severity, and taken by FIRST; RAISED sets.
(DEDUCED: log entry 61.) -/
def State.raiseOne (s : State) (src sev : Nat) (det : Word) : State :=
  let e : LogEnt := ⟨s.tb, src, sev, det⟩
  let s := s.count (0x016 + src / 64) (src % 64)
  let s := if s.fld fltPg R.FLT.CFG.LOGSEV ≤ sev then s.logPut e else s
  let s : State := if 2 ≤ sev ∧ s.flt.first.isNone then { s with flt := { s.flt with first := some e } } else s
  let f := R.FLT.RAISED.R (src / 32)
  s.setReg fltPg f.off (s.reg fltPg f.off ||| (1 <<< (src % 32)))

/-- FLT.RAISED of a source. -/
def State.raised (s : State) (src : Nat) : Bool := (s.reg fltPg (R.FLT.RAISED.R (src / 32)).off).getLsbD (src % 32)

/-! ## ALIVE and safe state -/

/-- ALIVE stops (R367). (DEDUCED: log entry 62.) -/
def State.aliveStop (s : State) : State := s.setBit fltPg R.FLT.STAT.ALIVE false

/-- Safe state is entered (R369): every output at its limp value, open windows closed, CAN listen-only, the blank frame, the
hold over, ALIVE stopped, event 236. A later cause changes CAUSE only when it is the self-check's. -/
def State.enterSafe (s : State) (cause src : Nat) : State :=
  if s.safe then (if cause = 3 then s.setFld fltPg R.FLT.SAFEC.CAUSE 3 else s)
  else
    let s := (s.setBit fltPg R.FLT.STAT.SAFE true).setFld fltPg R.FLT.SAFEC.CAUSE cause
    let s := (s.setFld fltPg R.FLT.SAFEC.SRC (if cause = 1 then src else 0)).post 236
    let s := s.aliveStop.holdClear.hsSafeWindows
    ((List.range 6).foldl State.linSafe s.settleAll.canSafeEnter).pxStartBlank

/-- Safe state is left (R370): level 1 releases, event 237; a START window may open again. -/
def State.leaveSafe (s : State) : State :=
  let s := (s.setBit fltPg R.FLT.STAT.SAFE false).post 237
  let s := (List.range 48).foldl (fun (t : State) n => t.setHs n { t.hsAt n with fresh := true }) s
  (s.sidesFree.settleAll.canSafeLeave).pxLeaveSafe

/-! ## Reactions -/

/-- The core that takes an interrupt or NMT (R364): the lowest-numbered one with a pair in place of a pairless core. -/
def State.faultTarget (s : State) (n : Nat) : Nat :=
  if s.pairOfCore n ≠ 15 then n
  else ((List.range 16).find? fun m => s.coreExists m && s.pairOfCore m ≠ 15).getD n

/-- Sources without a resettable block (R365). -/
def brstExempt (src : Nat) : Bool :=
  src ≤ 1 || src = 8 || (decide (10 ≤ src) && decide (src ≤ 13)) || (decide (16 ≤ src) && decide (src ≤ 31)) || decide (232 ≤ src)

/-- The pages a source's block reset acts on (R365). -/
def State.brstPages (s : State) (src : Nat) (causes : List Cause) : List Nat :=
  if src = 9 then
    let loss := s.reg 0x004 R.CLK.LOSS.L.off
    (pageRuns.flatMap fun r => (List.range (r.last + 1 - r.first)).map (r.first + ·)).filter fun pg =>
      loss.getLsbD (s.islandOf pg).index
  else (causes.filter (·.src = src)).flatMap Cause.pages

/-- Source 19 takes safe state with SAFE = 1 and RDST = 0, any other source with SAFE = 1 (R361). -/
def State.reactsSafe (s : State) (src : Nat) : Bool :=
  s.scfgFld src R.FLT.SCFG.SAFE = 1 && !(src = 19 && s.scfgFld src R.FLT.SCFG.RDST = 1)

/-- The interrupts and NMTs of sources as (core named, event); NMTs carry event 0 (R363). -/
def State.faultPosts (s : State) (srcs : List Nat) : List (Nat × Nat) :=
  let core := fun src => s.scfgFld src R.FLT.SCFG.CORE
  let ints := (srcs.filter fun c => s.scfgFld c R.FLT.SCFG.INT = 1).map fun c => (core c, 232 + s.scfgFld c R.FLT.SCFG.SEV)
  let nmts := (srcs.filter fun c => s.scfgFld c R.FLT.SCFG.NMT = 1).map fun c => (core c, 0)
  (nmts ++ ints).eraseDups

/-- The pairs that redistribution frees as source 19 reacts (R326, R361). -/
def State.reactPairs (s : State) (srcs : List Nat) (causes : List Cause) : List Nat :=
  if srcs.contains 19 && s.scfgFld 19 R.FLT.SCFG.RDST = 1 && s.scfgFld 19 R.FLT.SCFG.SAFE ≠ 1 then
    (causes.filter (·.src = 19)).filterMap fun c => match c.det with | .val w => some (w.toNat % 16) | _ => none
  else []

/-- The cores named whose interrupts and NMTs go to another, pairless as they are or become with this reaction (R364); none where a
chip reset drops them (R362). -/
def State.reactMoved (s : State) (srcs : List Nat) (causes : List Cause) : List Nat :=
  let gone := s.reactPairs srcs causes
  if srcs.any (fun c => s.scfgFld c R.FLT.SCFG.CRST = 1) then []
  else ((s.faultPosts srcs).filter fun p => s.pairOfCore p.1 = 15 || gone.contains (s.pairOfCore p.1)).map (·.1)

/-- A reaction stops ALIVE: an ARUN of the same KA cycle, accepted before, is refused (R376). -/
def State.reactAlive (s : State) : State :=
  let cyc := s.kaNow / 100
  let s := if s.flt.arunAt = some cyc ∧ s.bit fltPg R.FLT.STAT.ALIVE then s.refuse fltPg else s
  State.aliveStop { s with flt := { s.flt with stopAt := some cyc } }

/-- The united reactions of the sources that changed to RAISED (R361-R365, R376), in the order of R362. -/
def State.react (s : State) (srcs : List Nat) (causes : List Cause) : State :=
  let has := fun (f : Nat → Fld) (c : Nat) => s.scfgFld c f = 1
  let posts := s.faultPosts srcs
  let brsts := (srcs.filter fun c => has R.FLT.SCFG.BRST c && !brstExempt c).flatMap fun c => s.brstPages c causes
  let s := if srcs.any (has R.FLT.SCFG.ALIVE) then s.reactAlive else s
  let t := match srcs.filter s.reactsSafe with
    | c :: cs => s.enterSafe 1 (cs.foldl min c)
    | [] => s
  let t := (s.reactPairs srcs causes).foldl State.redistribute t
  if srcs.any (has R.FLT.SCFG.CRST) then t.chipReset 2
  else
    let t := ((posts.map fun p => (t.faultTarget p.1, p.2)).eraseDups).foldl (fun (u : State) p =>
      if p.2 = 0 then { u with nmts := u.nmts ++ [p.1] } else u.postTo p.2 p.1) t
    brsts.eraseDups.foldl State.faultReset t

/-- What the raises of one KA cycle have come to: the state with the log written, the sources that changed to RAISED, their causes,
and the causes of 234 for the entries replaced. -/
structure Raised where
  st : State
  fresh : List Nat := []
  causes : List Cause := []
  lost : List Cause := []

/-- Causes are counted and logged in ascending source order (R357, R362, R371). -/
def Raised.log (r : Raised) (causes : List Cause) : Raised :=
  let causes := causes.filter fun c => !srcReserved c.src
  let ordered := (List.range 256).flatMap fun n => causes.filter (·.src = n)
  let fresh := ((ordered.map (·.src)).eraseDups).filter fun c => !r.st.raised c
  let step := fun (a : State × List Cause) (c : Cause) =>
    let sev := a.1.scfgFld c.src R.FLT.SCFG.SEV
    let full := decide (64 ≤ a.1.flt.log.length) && decide (a.1.fld fltPg R.FLT.CFG.LOGSEV ≤ sev) && c.src != 234
    (a.1.raiseOne c.src sev (a.1.detailWord c), if full then a.2 ++ [⟨234, .val 0⟩] else a.2)
  let l := ordered.foldl step (r.st, [])
  { st := l.1, fresh := r.fresh ++ fresh, causes := r.causes ++ ordered, lost := l.2 }

/-- The sources 236 that the posts of sources cause (R364). -/
def Raised.moved (r : Raised) (srcs : List Nat) : List Cause :=
  (r.st.reactMoved srcs r.causes).map fun n => ⟨236, .val (BitVec.ofNat 32 n)⟩

/-- A word of the collector's settings is found to differ from its complement (R373): SELF and the log entry of source 232, once for a
word, and safe state with cause 3. -/
def State.selfFound (s : State) (w : Nat) : State × List Cause :=
  if s.flt.bad.contains w then (s.enterSafe 3 0, [])
  else
    let s := if s.bit fltPg R.FLT.STAT.SELF then s else (s.setBit fltPg R.FLT.STAT.SELF true).setFld fltPg R.FLT.SELF.WORD w
    let full := 64 ≤ s.flt.log.length
    let s := s.raiseOne 232 3 (BitVec.ofNat 32 w)
    let s : State := { s with flt := { s.flt with bad := s.flt.bad ++ [w] } }
    (s.enterSafe 3 0, if full then [⟨234, .val 0⟩] else [])

/-- The words that a reaction uses are compared with their complements (R373). -/
def Raised.selfCheck (r : Raised) : Raised :=
  (r.fresh.filter fun c => tget (fun _ => (0 : Word)) r.st.flt.comp c ≠ 0).foldl (fun (a : Raised) c =>
    let f := a.st.selfFound c
    { a with st := f.1, lost := a.lost ++ f.2 }) r

/-- One KA cycle of raises (R357, R362): counted and logged; what they raise in the collector itself, 234 for a replaced entry and 236
for a redirection, falls into the same cycle; then those whose RAISED bit changed take their reactions, united. -/
def State.raiseNow (s : State) (causes : List Cause) : State :=
  let a := (Raised.log { st := s } causes).selfCheck
  let b := a.log a.lost
  let c := b.log (b.moved b.fresh)
  let d := c.log c.lost
  let e := d.log (d.moved (d.fresh.drop b.fresh.length))
  let f := e.log e.lost
  f.st.react f.fresh f.causes

/-- Causes reach the collector. (DEDUCED: log entry 61.) -/
def State.collect (s : State) (causes : List Cause) : State := s.raiseNow causes

/-- The island that raised a cause, by its index. (DEDUCED: log entry 61.) -/
def causeIsl (c : Cause) : Nat :=
  match c.det with
  | .page pg => (pageIsland pg).index
  | .xcpl .. => 15
  | .val _ => if 16 ≤ c.src ∧ c.src < 48 then 12 else 0
  | _ => 0

/-- The first cause of a source on its way, with those that the same island raised before it, and what stays on its way: transfers
over one crossing arrive in the order sent (R18). -/
def takeCauses (src : Nat) (l : List Cause) : List Cause × List Cause :=
  match l.find? (·.src = src) with
  | none => ([], l)
  | some c =>
    let pre := l.takeWhile (·.src ≠ src)
    ((pre.filter fun d => causeIsl d = causeIsl c) ++ [c],
      (pre.filter fun d => causeIsl d ≠ causeIsl c) ++ (l.dropWhile (·.src ≠ src)).tail)

/-- SOURCE_RAISE (R18, R357, R362): the causes of the sources named that are on their way arrive, in one KA cycle; a source with
none on its way is not raised. (DEDUCED: log entry 61.) -/
def execSourceRaise (l : List (BitVec 8)) (s : State) : Outcome :=
  let r := l.foldl (fun (a : List Cause × List Cause) (x : BitVec 8) =>
    (a.1 ++ (takeCauses x.toNat a.2).1, (takeCauses x.toNat a.2).2)) (([], s.raises) : List Cause × List Cause)
  .next (State.collect { s with raises := r.2 } r.1)

/-- DIE_TEMP_MEASURE (R359): every 100 us; 140 and 150 degrees, each again only after a fall of 10 K. -/
def execDieTempMeasure (t : Int) (s : State) : Outcome :=
  s.atKa (s.flt.tempAt + 10000) fun s =>
    let hot := s.flt.hot
    let new := ([(0, (1400 : Int)), (1, 1500)].filter fun p => decide (p.2 ≤ t) && !hot.contains p.1).map (·.1)
    let keep := hot.filter fun c => decide ((if c = 0 then (1400 : Int) else 1500) - 100 < t)
    let s : State := { s with flt := { s.flt with hot := keep ++ new, tempAt := s.kaNow } }
    if new = [] then s else s.collect (new.map fun c => ⟨c, .page 0⟩)

/-- RAISED_CLEAR (R362). -/
def execRaisedClear (j : Fin 8) (d : Word) (s : State) : Outcome :=
  if s.locked fltPg then .next (s.refuse fltPg)
  else .next ((s.setReg fltPg (R.FLT.RAISED.R j).off (s.reg fltPg (R.FLT.RAISED.R j).off &&& ~~~ d)).ok fltPg)

/-! ## SAFEN and the commands -/

/-- SAFEN_LOW (R368, R369): not in PARK. -/
def execSafenLow (s : State) : Outcome :=
  if s.power = .park ∨ s.bit fltPg R.FLT.STAT.SAFEN then .next s
  else .next (((s.setBit fltPg R.FLT.STAT.SAFEN true).enterSafe 2 0).collect [⟨233, .page 0⟩])

/-- SAFEN_HIGH (R368). -/
def execSafenHigh (s : State) : Outcome :=
  if s.power = .park then .next s else .next (s.setBit fltPg R.FLT.STAT.SAFEN false)

/-- Every source whose reaction is safe state is cleared (R370). -/
def State.safeCleared (s : State) : Bool := (List.range 256).all fun c => !(s.raised c && s.reactsSafe c)

/-- LEAVE (R370). -/
def execLeave (s : State) : Outcome :=
  if s.locked fltPg ∨ !s.safe ∨ s.bit fltPg R.FLT.STAT.SAFEN ∨ s.bit fltPg R.FLT.STAT.SELF ∨ !s.safeCleared then
    .next (s.refuse fltPg)
  else .next ((s.ok fltPg).leaveSafe)

/-- ARUN (R42, R367, R376): a reaction of the same KA cycle that stops ALIVE wins; the device held in reset for want of VLOG, and in PARK, keeps ALIVE low. -/
def execArun (s : State) : Outcome :=
  if !s.bit 0x005 R.PMU.SUP.VLOK ∨ s.power = .park then .next s
  else if s.locked fltPg ∨ s.safe ∨ s.bit fltPg R.FLT.STAT.ALIVE ∨ s.flt.stopAt = some (s.kaNow / 100) then .next (s.refuse fltPg)
  else .next ({ (s.ok fltPg).setBit fltPg R.FLT.STAT.ALIVE true with flt := { s.flt with arunAt := some (s.kaNow / 100) } })

/-- ENTER (R369). -/
def execEnter (s : State) : Outcome :=
  if s.locked fltPg ∨ s.safe then .next (s.refuse fltPg) else .next ((s.ok fltPg).enterSafe 4 0)

/-- LOGCLR (R371). -/
def execLogclr (s : State) : Outcome :=
  if s.locked fltPg then .next (s.refuse fltPg)
  else .next ({ s with flt := { s.flt with log := [], first := none } }.ok fltPg)

/-- TKPAIR (R374): held while a wake boot runs (R475). -/
def execTkpair (arg : Byte) (s : State) : Outcome :=
  let p := arg.toNat
  if s.locked fltPg ∨ 10 ≤ p ∨ s.role p ≠ roleActive ∨ s.spares = [] then .next (s.refuse fltPg)
  else
    let s := s.ok fltPg
    if s.pwr.boot = .wake then .next { s with tkWait := s.tkWait ++ [(some p, s.coresOf p)] }
    else .next (s.pairFault p .request 0 fun _ => false)


/-- TKCORE (R328, R374): a split core's partner moves with it (R256). -/
def execTkcore (arg : Byte) (s : State) : Outcome :=
  let n := arg.toNat
  if s.locked fltPg ∨ !s.coreExists n ∨ s.pairOfCore n ≠ 15 ∨ s.spares = [] then .next (s.refuse fltPg)
  else
    let cores := [n % 8, n % 8 + 8].filter s.coreExists
    let s := s.ok fltPg
    if s.pwr.boot = .wake then .next { s with tkWait := s.tkWait ++ [(none, cores)] }
    else .next (s.takeoverStart none cores)

/-- Words of the settings are written: the collector writes their complements with them (R373). -/
def State.compWritten (s : State) (f : Nat → Nat → Bool) : State :=
  { s with flt := { s.flt with comp := s.flt.comp.filter fun e =>
    !(if e.1 = 256 then f fltPg R.FLT.CFG.AKHZ.off else f (0x011 + e.1 / 64) (0x100 + 4 * (e.1 % 64))) } }

/-- The KA time at which the sweep next compares word `w` with its complement: word n mod 257 in the n-th KA cycle after the release of
power-on reset (R373). -/
def State.sweepDue (s : State) (w : Nat) : Int :=
  let n := (s.kaNow - s.flt.relAt) / 100
  s.flt.relAt + 100 * (n + ((w : Int) - n) % 257)

/-- SELF_CHECK_DISCREPANCY (R373): bits of a word of the settings have changed against its complement; the sweep finds it in the word's
KA cycle. (DEDUCED: log entry 61.) -/
def execSelfCheckDiscrepancy (w : Fin 257) (flip : Word) (s : State) : Outcome :=
  let e := tget (fun _ => (0 : Word)) s.flt.comp w.val ^^^ flip
  let pg := if w.val = 256 then fltPg else 0x011 + w.val / 64
  let off := if w.val = 256 then R.FLT.CFG.AKHZ.off else 0x100 + 4 * (w.val % 64)
  let s := s.setReg pg off (s.reg pg off ^^^ flip)
  let s : State := { s with flt := { s.flt with comp := tset (fun _ => 0) s.flt.comp w.val e } }
  if e = 0 then .next s
  else s.atKa (s.sweepDue w) fun s => let r := s.selfFound w; if r.2 = [] then r.1 else r.1.collect r.2

/-- The half period of ALIVE in KA cycles (R367): 500 / AKHZ rounded. (DEDUCED: log entry 62.) -/
def State.aliveHalf (s : State) : Nat :=
  let k := s.fld fltPg R.FLT.CFG.AKHZ
  if k = 0 then s.flt.half else (1000 + k) / (2 * k)

/-- The KA time of the next half-period boundary of ALIVE; a KA cycle is 1 us (R367). (DEDUCED: log entry 62.) -/
def State.aliveDue (s : State) : Int := s.flt.edgeAt + 100 * (s.flt.half : Int)

/-- ALIVE_HALF_PERIOD (R367): at the boundary the pin toggles, or is held low after a stop; a changed AKHZ applies from here.
(DEDUCED: log entry 62.) -/
def execAliveHalfPeriod (s : State) : Outcome :=
  s.atKa s.aliveDue fun s => { s with flt := { s.flt with
    pin := s.bit fltPg R.FLT.STAT.ALIVE && !s.flt.pin && s.power ≠ .park, half := s.aliveHalf, edgeAt := s.aliveDue } }

/-! ## Views -/

/-- The highest severity among the raised sources (R360). -/
def State.maxSev (s : State) : Nat :=
  (List.range 256).foldl (fun m c => if s.raised c then max m (if c = 232 then 3 else s.scfgFld c R.FLT.SCFG.SEV) else m) 0

/-- FLT.STAT and the log registers as they read (R360, R371, the FAULT5 field table). -/
def State.fltView (s : State) (pg off : Nat) : Word :=
  let w := s.reg pg off
  let show' := fun (e : Option LogEnt) (lo hi src : Nat) =>
    match e with
    | none => (0 : Word)
    | some e =>
      if off = lo then BitVec.ofNat 32 e.tb else if off = hi then BitVec.ofNat 32 (e.tb / 2 ^ 32)
      else if off = src then R.FLT.LSRC.VALID.put (R.FLT.LSRC.SEV.put (R.FLT.LSRC.SRC.put 0 e.src) e.sev) 1
      else e.det
  if pg = fltPg then (if off = R.FLT.STAT.SAFE.off then R.FLT.STAT.MAXSEV.put w s.maxSev else w)
  else if pg = 0x015 then
    if off = R.FLT.LSTAT.NUM.off then R.FLT.LSTAT.NUM.put w s.flt.log.length
    else if R.FLT.LTB_LO.T.off ≤ off ∧ off ≤ R.FLT.LDET.D.off then
      show' (s.flt.log[s.fld 0x015 R.FLT.LSEL.IDX]?) R.FLT.LTB_LO.T.off R.FLT.LTB_HI.T.off R.FLT.LSRC.SRC.off
    else if R.FLT.FTB_LO.T.off ≤ off ∧ off ≤ R.FLT.FDET.D.off then
      show' s.flt.first R.FLT.FTB_LO.T.off R.FLT.FTB_HI.T.off R.FLT.FSRC.SRC.off
    else w
  else w

end Sys2Proof.Machine
end

