-- ==== Sys2Proof/Machine/Clock.lean ====
section
/-! DEFINITION. The island clocks (R92, R93, R104-R107): loss and return, PLL lock and unlock, crystal failure, gating. -/

namespace Sys2Proof.Machine

/-- The CLK page. -/
def clkPg : Nat := 0x004

/-- A bit of a CLK register. -/
def State.clkBit (s : State) (f : Fld) (i : Nat) : Bool := (s.reg clkPg f.off).getLsbD i

/-- Set a bit of a CLK register. -/
def State.setClkBit (s : State) (f : Fld) (i : Nat) (b : Bool) : State :=
  let m : Word := 1 <<< i
  s.setReg clkPg f.off (if b then s.reg clkPg f.off ||| m else s.reg clkPg f.off &&& ~~~ m)

/-- Bring CLK.LOCK of an island to a value; event 5 at a change. -/
def State.lockTo (s : State) (i : Nat) (b : Bool) : State :=
  if s.clkBit R.CLK.LOCK.L i = b then s else (s.setClkBit R.CLK.LOCK.L i b).post 5

/-- An island's clock has stopped: what the island does at once (R92, R105, R207, R381, R405). -/
def State.islandStops (s : State) (i : Nat) : State :=
  let s : State := { s with clkDead := s.clkDead ++ [i] }
  if i = 1 ∨ i = 15 then s.settleAll
  else if 2 ≤ i ∧ i ≤ 11 then s.pairFault (i - 2) .clock 0 fun _ => false
  else if i = 13 then (List.range 6).foldl State.linCut ((List.range 8).foldl State.canCut s)
  else if i = 14 then s.cryAbort
  else if i = 16 then ({ s with tbRun := false } : State).pxStop
  else s

/-- An island's clock runs again: what the island does then (R92, R105, R405, R445); in a boot the nonce areas are read at step 8
(R466). TB continues, and the synchronisation state becomes FREE, a grandmaster's too. (DEDUCED: log entry 49.) -/
def State.islandRuns (s : State) (i : Nat) : State :=
  let s : State := { s with clkDead := s.clkDead.filter (· ≠ i), clkLost := s.clkLost.filter (· ≠ i) }
  if i = 1 then (if s.pwr.boot = .wake then s.fabricWake else s).settleAll
  else if i = 15 then (let s := (s.setBit 0x005 R.PMU.SUP.ISUPOK true).sidesFree.settleAll; if s.fsDie = s.fld isoPg R.ISO.FS.ST then s else s.fieldTell.ioValid)
  else if 2 ≤ i ∧ i ≤ 11 then (s.coresOf (i - 2)).foldl State.schedule s
  else if i = 13 then (List.range 6).foldl (fun (t : State) l => t.linClockBack l) s.canClockBack
  else if i = 14 then (if s.pwr.boot = .done then s.nonceLoad else s)
  else if i = 16 then
    let s : State := match s.pwr.resume with
      | some k =>
        let t := s.tbAdvance k
        { t with pwr := { t.pwr with resume := none } }
      | none => s
    let s := s.pxClockBack
    if s.tbRun then s else ({ s with tbRun := true } : State).syncFreeGo
  else s

/-- CLOCK_LOSS (R92, R104, R105): CLK.LOSS sets, source 9 is raised, for IO source 12 with it; a gated or stopped island is
not lost again. (DEDUCED: log entry 54.) -/
def execClockLoss (i : Fin 17) (s : State) : Outcome :=
  if i.val = 0 ∨ s.clkDead.contains i.val ∨ s.power = .park then .next s
  else
    let new := !s.clkBit R.CLK.LOSS.L i || s.clkBit R.CLK.LOCK.L i
    let s := ((s.setClkBit R.CLK.LOSS.L i true).setClkBit R.CLK.LOCK.L i false).postIf new 5
    let s : State := { s with clkLost := s.clkLost ++ [i.val] }
    let s := s.raise 9 .loss
    let s := if i.val = 16 then s.raise 12 (.page clkPg) else s
    .next (s.islandStops i)

/-- CRYSTAL_FAILURE (R104, R105): XIN outside its limits; source 8; every PLL holds its last frequency for
100 us, and all stop together. (DESIGN CHOICE: log entry 69.) -/
def execCrystalFailure (s : State) : Outcome :=
  if s.power = .park ∨ !s.pwr.xok then .next s
  else
    let s : State := { s with pwr := { s.pwr with xok := false, xinEnd := some (s.kaNow + 10000) } }
    .next ((s.setBit clkPg R.CLK.XSTAT.XOK false).raise 8 (.page clkPg))

/-- PLL_UNLOCK (R104): with the clock present; source 10. -/
def execPllUnlock (i : Fin 17) (s : State) : Outcome :=
  if i.val = 0 ∨ !s.clkBit R.CLK.LOCK.L i ∨ s.power = .park then .next s else .next ((s.lockTo i false).raise 10 (.page clkPg))

/-- The IO PLL starts TB and every other island is released (R90, R93, R107).
(DESIGN CHOICE: log entry 17; DEDUCED: log entry 54.) -/
def State.pllLock (s : State) (i : Nat) : State :=
  let s := s.lockTo i true
  if s.clkDead.contains i then s.islandRuns i else s

/-- ISLAND_PLL_LOCK (R90, R93, R105, R107): a started or restarted PLL locks, while XIN runs; a gated one stays stopped. -/
def execIslandPllLock (i : Fin 17) (s : State) : Outcome :=
  if i.val = 0 ∨ s.clkBit R.CLK.LOCK.L i ∨ s.clkBit R.CLK.GATE.G i ∨ s.power = .park ∨ !s.pwr.xok then .next s
  else .next (s.pllLock i)

/-- An island is gated (R107): its clock stops without a loss. A pair whose island is gated stays what it is; no logical core
runs on it (rule 0x0401). -/
def State.gateStop (s : State) (i : Nat) : State :=
  let s := s.lockTo i false
  if s.clkDead.contains i then { s with clkLost := s.clkLost.filter (· ≠ i) }
  else if 2 ≤ i ∧ i ≤ 11 then { s with clkDead := s.clkDead ++ [i] }
  else s.islandStops i

/-- A fix of the CLK page applied (R107): newly gated islands stop, without a loss; the others wait for their PLL.
(DEDUCED: log entry 54.) -/
def State.clkFix (s o : State) : State :=
  (List.range 17).foldl (fun (t : State) i =>
    if t.clkBit R.CLK.GATE.G i ∧ !o.clkBit R.CLK.GATE.G i then t.gateStop i else t) s

end Sys2Proof.Machine
end

