-- ==== Sys2Proof/Machine/Update.lean ====
section
/-! DEFINITION. Firmware update and recovery (R478-R498): images, pieces, the session area, the boot record, and the commands
of the UPDATE page. -/

namespace Sys2Proof.Machine

/-- The UPDATE page. -/
def updPg : Nat := 0x250

/-- UPD.STAT.ST (R481): 0 IDLE, 1 LOADING, 2 COMPLETE, 3 VERIFYING, 4 VERIFIED, 5 ACTIVATED, 6 TRIAL. -/
def State.updSt (s : State) : Nat := s.fld updPg R.UPD.STAT.ST

/-- The codes of UPD.RES (R497). -/
def updOk : Nat := 1
/-- RESUMED. -/
def updResumed : Nat := 2
/-- DUP. -/
def updDup : Nat := 3
/-- SESSION_HELD. -/
def updHeld : Nat := 4
/-- DIGEST. -/
def updDigest : Nat := 5
/-- BADPIECE. -/
def updBad : Nat := 6
/-- PRANGE. -/
def updPrange : Nat := 7
/-- VFAIL_HDR. -/
def updVhdr : Nat := 8
/-- VFAIL_DIGEST. -/
def updVdigest : Nat := 9
/-- VFAIL_SIG. -/
def updVsig : Nat := 10
/-- VFAIL_BLOCK. -/
def updVblock : Nat := 11
/-- NOTMIGRATED. -/
def updNotMig : Nat := 12

/-! ## Reading flash -/

/-- A byte as the device's own readers see it: 0 from a poisoned word (R346). -/
def State.hwByte (s : State) (p : Nat) : Byte := if s.poisoned p then 0 else s.readByte p

/-- Byte `off` of a bank. -/
def State.bankByte (s : State) (b : Bool) (off : Nat) : Byte := s.hwByte (bankPlace b off)

/-- `n` bytes of a bank from an offset. -/
def State.bankBytes (s : State) (b : Bool) (off n : Nat) : List Byte := (List.range n).map fun i => s.bankByte b (off + i)

/-- A little-endian word of a bank. -/
def State.bankWord (s : State) (b : Bool) (off : Nat) : Nat := leVal (s.bankBytes b off 4)

/-- The words of a bank, up to the end of its image with its signature, are read (R345, R346). -/
def State.bankRead (s : State) (b : Bool) : State :=
  let n := s.bankWord b 0x08 + 4 * ((s.bankWord b 0x08 + 65535) / 65536) + 68
  s.hwFind fun w => decide (bankPlace b 0 ≤ w * 32) && decide (w * 32 < bankPlace b 0xC00000) &&
    decide ((placeMacro (w * 32) - placeMacro (bankPlace b 0)) * 0x200000 + w * 32 % 0x1000000 < n)

/-- Word `w` of data flash sector `n`, as 32 bytes (R348). -/
def dataWord (n w : Nat) : Nat := place macroData (n * 0x2000 + 32 * w)

/-- The 32 bytes of a protected word of data flash. -/
def State.dataBytes (s : State) (n w : Nat) : List Byte := (List.range 32).map fun i => s.hwByte (dataWord n w + i)

/-- Erase a data flash sector that is not erased, as a device map write (R349, R352). -/
def State.clearSector (s : State) (n : Nat) : State :=
  if s.erased (sectorBase n) (sectorBytes n) then s else (s.eraseSector n).wearCheck n

/-! ## The boot record -/

/-- A boot record (R487). -/
structure BootRec where
  seq : Nat
  bank : Bool
  trial : Bool
  tleft : Nat
  prev : Bool
  len : Nat
  dig : List Byte
  deriving DecidableEq, Repr

/-- A list of bytes with its CRC-32C behind it (R479). -/
def withCrc (l : List Byte) : List Byte := l ++ leBytes 4 (crc32c l)

/-- The last four bytes are the CRC-32C of those before. -/
def crcOk (l : List Byte) : Bool := decide (leVal (l.drop (l.length - 4)) = crc32c (l.take (l.length - 4)))

/-- The word of a boot record (R487). (DESIGN CHOICE: log entry 58.) -/
def BootRec.bytes (r : BootRec) : List Byte :=
  withCrc (leBytes 4 0x42524331 ++ leBytes 4 r.seq ++ [if r.bank then 1 else 0, if r.trial then 2 else 1, BitVec.ofNat 8 r.tleft,
    if r.prev then 1 else 0] ++ leBytes 4 r.len ++ r.dig ++ leBytes 4 0)

/-- The boot record that a word holds; none where it is not valid (R467, R487). -/
def bootRecOf (l : List Byte) : Option BootRec :=
  let at' := fun o n => leVal ((l.drop o).take n)
  if at' 0 4 = 0x42524331 ∧ crcOk l then
    some ⟨at' 4 4, at' 8 1 = 1, at' 9 1 = 2, at' 10 1 % 16, at' 11 1 = 1, at' 12 4, (l.drop 16).take 8⟩
  else none

/-- The data flash sector of a boot record copy (R478). -/
def bootSector (b : Bool) : Nat := if b then 232 else 231

/-- A copy of the boot record: the valid record of its sector with the highest sequence number (R487). -/
def State.bootCopy (s : State) (b : Bool) : Option BootRec :=
  (List.range 255).foldl (fun (best : Option BootRec) w =>
    match bootRecOf (s.dataBytes (bootSector b) w), best with
    | some r, some q => if q.seq < r.seq then some r else best
    | some r, none => some r
    | none, _ => best) none

/-- The record in force, with its copy (R467). -/
def State.bootRec (s : State) : Option (BootRec × Bool) :=
  match s.bootCopy false, s.bootCopy true with
  | some a, some b => if a.seq < b.seq then some (b, true) else some (a, false)
  | some a, none => some (a, false)
  | none, some b => some (b, true)
  | none, none => none

/-- The inactive bank (R487). -/
def State.inactive (s : State) : Bool :=
  match s.bootRec with
  | some (r, _) => !r.bank
  | none => true

/-- Append a boot record with the next sequence number to the sector without the record in force (R487).
(DESIGN CHOICE: log entry 31.) -/
def State.putBootRec (s : State) (r : BootRec) : State :=
  let hi := fun b => ((s.bootCopy b).map (·.seq)).getD 0
  let seq := (max (hi false) (hi true) + 1) % 2 ^ 32
  let b := match s.bootRec with | some (_, c) => !c | none => false
  let n := bootSector b
  match (List.range 255).find? fun w => s.erased (dataWord n w) 32 with
  | some w => s.setBytes (dataWord n w) (BootRec.bytes { r with seq := seq })
  | none => (s.clearSector (384 + n)).setBytes (dataWord n 0) (BootRec.bytes { r with seq := seq })

/-! ## Images -/

/-- What the header of an image gives (R479): B, N, L, the entry point, and the mode library's place and length. -/
structure ImgHdr where
  b : Nat
  n : Nat
  l : Nat
  entry : Nat
  libOff : Nat
  libLen : Nat
  deriving DecidableEq, Repr

/-- The header of the image in a bank, where its checks pass (R479, R486). -/
def State.imgHdr (s : State) (k : Bool) : Option ImgHdr :=
  let b := s.bankWord k 0x08
  let n := (b + 65535) / 65536
  let h : ImgHdr := ⟨b, n, b + 4 * n + 4, s.bankWord k 0x0C, s.bankWord k 0x10, s.bankWord k 0x14⟩
  if s.bankWord k 0 = 0x4D495A50 ∧ s.bankWord k 4 / 65536 = 1 ∧ 0x1000 ≤ b ∧ b ≤ 0xBFFCBC ∧ b % 4 = 0 ∧
      h.entry < b ∧ h.entry % 4 = 0 ∧ 0x100 ≤ h.libOff ∧ h.libOff + h.libLen ≤ b then some h else none

/-- CFV of the image in a bank (R479). -/
def State.imgCfv (s : State) (k : Bool) : Nat := s.bankWord k 4 % 65536

/-- The CRC of the block table is right. -/
def State.imgTableOk (s : State) (k : Bool) (h : ImgHdr) : Bool := crcOk (s.bankBytes k h.b (4 * h.n + 4))

/-- The first block whose CRC-32C is not the table's (R468, R486). -/
def State.imgBadBlock (s : State) (k : Bool) (h : ImgHdr) : Option Nat :=
  (List.range h.n).find? fun j =>
    crc32c (s.bankBytes k (65536 * j) (min 65536 (h.b - 65536 * j))) ≠ s.bankWord k (h.b + 4 * j)

/-- The image digest (R479). -/
def State.imgDigest (s : State) (k : Bool) (h : ImgHdr) : List Byte := sha256 (s.bankBytes k 0 h.l)

/-- The signature over a digest verifies under the image authority key of R469; a blank key fails every check. -/
def State.imgSigOk (s : State) (k : Bool) (h : ImgHdr) (d : List Byte) : Bool :=
  let key := s.otpBytes 0x3E40 64
  let sig := s.bankBytes k h.l 64
  !key.all (· = 0) && !key.all (· = 0xFF) &&
    ecdsaVerify (natOfBytes d) (natOfBytes (key.take 32)) (natOfBytes (key.drop 32)) (natOfBytes (sig.take 32))
      (natOfBytes (sig.drop 32))

/-- L and the first digest bytes of the image in a bank, for a record that names it (R487). (DESIGN CHOICE: log entry 58.) -/
def State.imgIds (s : State) (k : Bool) : Nat × List Byte :=
  match s.imgHdr k with
  | some h => (h.l, (s.imgDigest k h).take 8)
  | none => (0, List.replicate 8 0)

/-- Write a CONFIRMED record that names a bank (R481, R489). -/
def State.confirmBank (s : State) (k : Bool) : State :=
  let i := s.imgIds k
  s.putBootRec { seq := 0, bank := k, trial := false, tleft := 0, prev := k, len := i.1, dig := i.2 }

/-! ## The session -/

/-- The pieces of a session (R480). -/
def Upd.npc (u : Upd) : Nat := (u.size + 1023) / 1024
/-- The length of a piece (R480). -/
def Upd.pieceLen (u : Upd) (i : Nat) : Nat := if i + 1 < u.npc then 1024 else u.size - 1024 * (u.npc - 1)
/-- How many pieces are held. -/
def Upd.count (u : Upd) : Nat := ((List.range u.npc).filter u.held.testBit).length
/-- The lowest piece not held. -/
def Upd.lowest (u : Upd) : Nat := ((List.range u.npc).find? fun i => !u.held.testBit i).getD u.npc

/-- The data flash sector of a session area (R478). -/
def areaSector (a : Bool) : Nat := if a then 234 else 233

/-- H0 of an area (R485); where the spec gives no place, SRCID stands at 8 and F at 12. (DESIGN CHOICE: log entry 58.) -/
def h0Bytes (gen src size : Nat) (h1 : List Byte) : List Byte :=
  let h := leBytes 4 0x53455331 ++ leBytes 4 gen ++ leBytes 4 src ++ leBytes 4 size ++ List.replicate 12 0
  h ++ leBytes 4 (crc32c (h ++ h1))

/-- A bitmap word (R485). -/
def bitmapBytes (held j : Nat) : List Byte := withCrc (leBytes 2 j ++ leBytes 26 (held / 2 ^ (208 * j) % 2 ^ 208))

/-- An entry (R485): kind 1 a piece held, 2 VERIFIED. -/
def entryBytes (kind i : Nat) (dig : List Byte) : List Byte :=
  withCrc ([BitVec.ofNat 8 kind, 0] ++ leBytes 2 i ++ leBytes 4 0 ++ dig.take 8 ++ List.replicate 12 0)

/-- Write the session to an area with a generation, and then erase the other one (R485).
(DESIGN CHOICE: log entries 31, 58.) -/
def State.areaWrite (s : State) (a : Bool) (gen : Nat) : State :=
  let n := areaSector a
  let u := s.upd
  let s := s.clearSector (384 + n)
  let s := s.setBytes (dataWord n 0) (h0Bytes gen (s.fld updPg R.UPD.STAT.HOLDER) u.size u.dig ++ u.dig)
  let s := (List.range 60).foldl (fun (t : State) j => t.setBytes (dataWord n (2 + j)) (bitmapBytes u.held j)) s
  let s : State := { s with upd := { u with area := a, gen := gen, next := 62 } }
  s.clearSector (384 + areaSector (!a))

/-- Append an entry; a full area is compacted into the other one first (R485). -/
def State.appendEntry (s : State) (kind i : Nat) : State :=
  let s := if s.upd.next < 255 then s else s.areaWrite (!s.upd.area) (s.upd.gen + 1)
  let s := s.setBytes (dataWord (areaSector s.upd.area) s.upd.next) (entryBytes kind i s.upd.dig)
  { s with upd := { s.upd with next := s.upd.next + 1 } }

/-- Put a state into UPD.STAT. -/
def State.updGo (s : State) (st : Nat) : State := s.setFld updPg R.UPD.STAT.ST st

/-- Write UPD.RES. -/
def State.updRes (s : State) (res det : Nat) : State := (s.setFld updPg R.UPD.RES.RES res).setFld updPg R.UPD.RES.DETAIL det

/-- The session ends: both areas are erased, and the block is IDLE (R481). (DEDUCED: log entry 59.) -/
def State.updEnd (s : State) : State :=
  let s := (s.clearSector (384 + 233)).clearSector (384 + 234)
  let s : State := { s with upd := {} }
  (((s.setFld updPg R.UPD.STAT.HOLDER 0).setFld updPg R.UPD.STAT.TLEFT 0).setFld updPg R.UPD.CFV.NEW 0).updGo 0

/-- Write UPD.RES.RES alone. -/
def State.updSay (s : State) (res : Nat) : State := s.setFld updPg R.UPD.RES.RES res

/-- A session begins (R481). -/
def State.updBegin (s : State) (src size : Nat) (dig : List Byte) : State :=
  let s := s.updEnd
  let s : State := { s with upd := { s.upd with dig := dig, size := size, claimed := true } }
  let s := (List.range 8).foldl (fun (t : State) i =>
    t.setReg updPg (R.UPD.DIG.D i).off (BitVec.ofNat 32 (leVal ((dig.drop (4 * i)).take 4)))) s
  (((s.setFld updPg R.UPD.STAT.HOLDER src).areaWrite false 1).updGo 1).updSay updOk

/-- UPD.DIG0-DIG7 as bytes. -/
def State.updDigReg (s : State) : List Byte := (List.range 8).flatMap fun i => leBytes 4 (s.reg updPg (R.UPD.DIG.D i).off).toNat

/-- The bank bytes of a piece are erased. -/
def State.pieceErased (s : State) (i : Nat) : Bool := s.erased (bankPlace s.inactive (1024 * i)) ((s.upd.pieceLen i + 31) / 32 * 32)

/-- The flash sector of a bank that holds a piece (R484). -/
def State.pieceSector (s : State) (i : Nat) : Nat := (if s.inactive then 192 else 0) + i / 64

/-- The pieces of a bank sector lose their held bits. (DEDUCED: log entry 59.) -/
def dropHeld (held k : Nat) : Nat := held % 2 ^ (64 * k) + held / 2 ^ (64 * k + 64) * 2 ^ (64 * k + 64)

/-- Steps 1 and 2 of R484: the sector is erased where no piece of it is held; the data is programmed, padded with 0xFF. -/
def State.pieceProgram (s : State) (i : Nat) (data : List Byte) : State :=
  let n := s.pieceSector i
  let s := if s.upd.held / 2 ^ (i / 64 * 64) % 2 ^ 64 = 0 then s.clearSector n else s
  s.setBytes (bankPlace s.inactive (1024 * i)) data

/-! ## Answers -/

/-- The reply of recovery mode (R495): the command OR 0x80, RES, the session state, then data. (DEDUCED: log entry 60.) -/
def State.romAnswer (s : State) (eth : Bool) (code : Nat) (data : List Byte) : State :=
  s.emit (.romReply eth ([BitVec.ofNat 8 (code + 0x80), BitVec.ofNat 8 (s.fld updPg R.UPD.RES.RES), BitVec.ofNat 8 s.updSt] ++ data))

/-- The reply where the request came over a recovery channel. (DEDUCED: log entry 60.) -/
def State.romIf (s : State) (r : Option Bool) (code : Nat) : State :=
  match r with
  | some eth => s.romAnswer eth code []
  | none => s

/-- The source ID of a recovery channel (R494). -/
def romSrc (eth : Bool) : Nat := if eth then 0xFFFF else 0xFFFE

/-- A source ID of the ROM. (DEDUCED: log entry 60.) -/
def isRom (src : Nat) : Bool := decide (0xFFFE ≤ src)

/-- A command meets BUSY, a lock (from a writer of the page only), an island without a clock, or a recovery request outside recovery
mode; the last two have no effect (R105, R481, R494). -/
def State.updCmd (s : State) (r : Option Bool) (code : Nat) (f : State → State) : Outcome :=
  match r with
  | none =>
    .next (if !s.memRuns then s else if s.locked updPg ∨ s.bit updPg R.PG_STAT.BUSY then s.refuse updPg else f s)
  | some eth =>
    .next (if !s.pwr.recovery ∨ !s.memRuns ∨ !s.clocked .net then s
      else if s.bit updPg R.PG_STAT.BUSY then (s.refuse updPg).romAnswer eth code [] else f s)

/-- A command is done: OK, event 224 (R481). -/
def State.updDone (s : State) : State := (s.ok updPg).post 224

/-! ## Commands -/

/-- ABANDON in effect (R481). (DEDUCED: log entry 59.) -/
def State.updAbandon (s : State) : State := if 5 ≤ s.updSt then (s.confirmBank s.bankB).updEnd else s.updEnd

/-- OPEN (R481, R482, R494); a ROM channel takes over what firmware held, and, until its channel has opened it again, what the
other channel held before the last RESET. (DEDUCED: log entries 59, 60.) -/
def State.updOpen (s : State) (src size : Nat) (dig : List Byte) : State :=
  let st := s.updSt
  let h := s.fld updPg R.UPD.STAT.HOLDER
  let same := decide (s.upd.dig = dig)
  if size < 0x140 ∨ 0xC00000 < size then s.range updPg
  else if st = 0 then (s.updBegin src size dig).updDone
  else if isRom src ∧ (!isRom h ∨ src ≠ h ∧ !s.upd.claimed) then
    (if same then
      let s : State := { s.setFld updPg R.UPD.STAT.HOLDER src with upd := { s.upd with claimed := true } }
      ((s.areaWrite (!s.upd.area) (s.upd.gen + 1)).updSay updResumed).updDone
     else (s.updAbandon.updBegin src size dig).updDone)
  else if src ≠ h then (s.updSay updHeld).refuse updPg
  else if !same then (s.updSay updDigest).refuse updPg
  else if st ≠ 1 then s.refuse updPg
  else (({ s with upd := { s.upd with claimed := true } } : State).updSay updResumed).updDone

/-- OPEN. (DEDUCED: log entry 60.) -/
def execUpdOpen (r : Option RomOpen) (s : State) : Outcome :=
  match r with
  | none => s.updCmd none 2 fun s => s.updOpen (s.fld updPg R.UPD.SRCID.ID) (s.fld updPg R.UPD.LEN.F) s.updDigReg
  | some q => s.updCmd (some q.eth) 2 fun s =>
    (s.updOpen (romSrc q.eth) q.size.toNat (leBytes 32 q.digest.toNat)).romAnswer q.eth 2 []

/-- What a piece's bytes hold, by the first row of R483 that matches. -/
def Upd.pieceTake (u : Upd) (b : List Byte) (exact : Bool) : Nat × Nat :=
  let n := leVal ((b.drop 2).take 2)
  let i := leVal ((b.drop 4).take 4)
  let lenOk := if i < u.npc then n = u.pieceLen i else n ≤ 1024
  if leVal (b.take 2) ≠ 0x5043 ∨ ¬lenOk ∨ (exact ∧ b.length ≠ 44 + n) ∨ !crcOk (b.take (44 + n)) then (updBad, i)
  else if (b.drop 8).take 32 ≠ u.dig then (updDigest, i)
  else if u.npc ≤ i then (updPrange, i)
  else if u.held.testBit i then (updDup, i)
  else (updOk, i)

/-- PIECE (R483, R484): a piece to be stored is erased for and programmed, unless a flash command of firmware runs (R349); its
bytes and its held entry stand with PIECE_STORED. (DEDUCED: log entry 59.) -/
def State.updPiece (s : State) (src : Nat) (r : Option Bool) (b : List Byte) (exact : Bool) : State :=
  if s.updSt ≠ 0 ∧ src ≠ s.fld updPg R.UPD.STAT.HOLDER then ((s.updSay updHeld).refuse updPg).romIf r 3
  else if s.updSt ≠ 1 then (s.refuse updPg).romIf r 3
  else
    let t := s.upd.pieceTake b exact
    if t.1 ≠ updOk then (((s.updRes t.1 (t.2 % 65536)).count updPg 1).updDone).romIf r 3
    else
      let data := (b.drop 40).take (s.upd.pieceLen t.2)
      let s := ((s.setFld updPg R.UPD.RES.DETAIL t.2).setBit updPg R.PG_STAT.BUSY true).ok updPg
      let s : State := { s with upd := { s.upd with piece := some (t.2, data), ask := r, bank := s.inactive } }
      if s.flBusy then s else (s.setBit flPg R.PG_STAT.BUSY true).setBit flPg R.FL.STAT.HWOP true

/-- The bytes of SRAM that PIECE reads (R483). -/
def State.updSram (s : State) (a n : Nat) : List Byte :=
  (List.range n).map fun i => if a + i < 0x10600000 then (match s.placeOf (a + i) with | some p => s.hwByte p | none => 0) else 0

/-- PIECE. -/
def execPiece (r : Option (Bool × List Byte)) (s : State) : Outcome :=
  match r with
  | none => s.updCmd none 3 fun s =>
    let a := 4 * s.fld updPg R.UPD.PADDR.ADDR
    if 0x10000000 ≤ a ∧ a < 0x10600000 then (s.hwRead a 1068).updPiece (s.fld updPg R.UPD.SRCID.ID) none (s.updSram a 1068) false
    else s.range updPg
  | some (eth, b) => s.updCmd (some eth) 3 fun s => s.updPiece (romSrc eth) (some eth) b true

/-- PIECE_STORED (R484): the held entry verifies, and the piece is held; the last missing one makes the session COMPLETE. -/
def execPieceStored (s : State) : Outcome :=
  match s.upd.piece with
  | none => .next s
  | some (i, data) =>
    if s.flBusy ∨ !s.memRuns then .next s
    else
      let s := s.pieceProgram i data
      let ask := s.upd.ask
      let s := s.appendEntry 1 i
      let s : State := { s with upd := { s.upd with held := s.upd.held ||| 2 ^ i, piece := none, ask := none } }
      let s := ((s.setBit flPg R.PG_STAT.BUSY false).setBit flPg R.FL.STAT.HWOP false).mapStart.setBit updPg R.PG_STAT.BUSY false
      let s := (s.updRes updOk (i % 65536)).count updPg 0
      let s := if s.upd.count = s.upd.npc then s.updGo 2 else s
      .next ((s.post 224).romIf ask 3)

/-- VERIFY (R486). -/
def execVerify (r : Option Bool) (s : State) : Outcome :=
  s.updCmd r 4 fun s =>
    if s.updSt ≠ 2 then (s.refuse updPg).romIf r 4
    else
      let s : State := { s with upd := { s.upd with ask := r } }
      ((s.setBit updPg R.PG_STAT.BUSY true).updGo 3).updDone

/-- The checks of R486 in order: RES and DETAIL. -/
def State.verifyImage (s : State) : Nat × Nat :=
  let k := s.inactive
  match s.imgHdr k with
  | none => (updVhdr, 0)
  | some h =>
    if h.l + 64 ≠ s.upd.size ∨ !s.imgTableOk k h then (updVhdr, 0)
    else match s.imgBadBlock k h with
    | some j => (updVblock, j)
    | none =>
      let d := s.imgDigest k h
      if d ≠ s.upd.dig then (updVdigest, 0)
      else if !s.imgSigOk k h d then (updVsig, 0)
      else (updOk, 0)

/-- VERIFY_END (R486): not while a PK command has the signature unit. (DEDUCED: log entry 59.) -/
def execVerifyEnd (s : State) : Outcome :=
  if s.updSt ≠ 3 ∨ s.cry.pk.isSome ∨ !s.memRuns ∨ !s.clocked .cry then .next s
  else
    let ask := s.upd.ask
    let s := s.bankRead s.inactive
    let v := s.verifyImage
    let s := (s.setBit updPg R.PG_STAT.BUSY false).updSay v.1
    let s := if v.1 = updVblock then s.setFld updPg R.UPD.RES.DETAIL v.2 else s
    let s : State := { s with upd := { s.upd with ask := none } }
    let s :=
      if v.1 = updOk then
        let s := (s.appendEntry 2 0).updGo 4
        s.setFld updPg R.UPD.CFV.NEW (s.imgCfv s.inactive)
      else if v.1 = updVblock then
        let s : State := { s with upd := { s.upd with held := dropHeld s.upd.held v.2 } }
        ((s.areaWrite (!s.upd.area) (s.upd.gen + 1)).updGo 1).detect updPg 1
      else s.updEnd.detect updPg 1
    .next ((s.post 224).romIf ask 4)

/-- ACTIVATE (R488): the record's program is the activation, and invalidates the instruction caches (R259).
(DEDUCED: log entry 59.) -/
def State.updActivate (s : State) (n : Nat) : State :=
  if s.updSt ≠ 4 then s.refuse updPg
  else if n = 0 ∨ 15 < n then s.range updPg
  else
    let k := s.inactive
    let l := ((s.imgHdr k).map (·.l)).getD 0
    let prev := match s.bootRec with | some (r, _) => r.bank | none => false
    let s := s.putBootRec { seq := 0, bank := k, trial := true, tleft := n, prev := prev, len := l, dig := s.upd.dig.take 8 }
    (((({ s with icache := [], icBad := [] } : State).setFld updPg R.UPD.STAT.TLEFT n).count updPg 2).updGo 5).updDone

/-- ACTIVATE. -/
def execActivate (r : Option (Bool × Byte)) (s : State) : Outcome :=
  match r with
  | none => s.updCmd none 5 fun s => s.updActivate (s.fld updPg R.UPD.TRIALS.N)
  | some (eth, n) => s.updCmd (some eth) 5 fun s => (s.updActivate n.toNat).romAnswer eth 5 []

/-! ### Configuration copies -/

/-- The data flash sector of a configuration copy (R470). -/
def cfgSector (b : Bool) : Nat := if b then 229 else 228

/-- A word of a configuration copy. -/
def State.cfgWord (s : State) (b : Bool) (off : Nat) : Nat :=
  leVal ((List.range 4).map fun i => s.hwByte (place macroData (cfgSector b * 0x2000 + off + i)))

/-- A configuration copy is valid (R471). -/
def State.cfgValid (s : State) (b : Bool) : Bool :=
  let n := s.cfgWord b 4 % 65536
  s.cfgWord b 0 = 0x43464731 && decide (n ≤ 8140) &&
    s.cfgWord b (0x10 + n) = crc32c ((List.range (0x10 + n)).map fun i => s.hwByte (place macroData (cfgSector b * 0x2000 + i)))

/-- The format version of a copy. -/
def State.cfgVersion (s : State) (b : Bool) : Nat := s.cfgWord b 4 / 65536

/-- CONFIRM (R490). -/
def execConfirm (s : State) : Outcome :=
  s.updCmd none 0 fun s =>
    if s.updSt ≠ 6 then s.refuse updPg
    else if !([false, true].any fun b => s.cfgValid b && s.cfgVersion b = s.fld updPg R.UPD.CFV.RUN) then
      (s.updSay updNotMig).refuse updPg
    else
      let s := match s.bootRec with
        | some (r, _) => s.putBootRec { r with bank := s.bankB, trial := false, tleft := 0, prev := s.bankB }
        | none => s.confirmBank s.bankB
      ((s.updEnd).updSay updOk).updDone

/-- ABANDON (R481). -/
def execAbandon (s : State) : Outcome :=
  s.updCmd none 0 fun s =>
    if s.updSt = 0 ∨ s.updSt = 3 then s.refuse updPg else s.updAbandon.updDone

/-! ## Reload -/

/-- The session that an area holds, with its generation; none where the area is not valid (R485).
(DESIGN CHOICE: log entry 58.) -/
def State.areaRead (s : State) (a : Bool) : Option (Nat × Nat × Upd × Bool) :=
  let n := areaSector a
  let h0 := s.dataBytes n 0
  let h1 := s.dataBytes n 1
  let maps := (List.range 60).map fun j => s.dataBytes n (2 + j)
  let at' := fun (l : List Byte) o k => leVal ((l.drop o).take k)
  if at' h0 0 4 = 0x53455331 ∧ at' h0 28 4 = crc32c (h0.take 28 ++ h1) ∧ maps.all crcOk then
    let held0 := (maps.zipIdx.map fun (e : List Byte × Nat) => at' e.1 2 26 * 2 ^ (208 * e.2)).foldl (· ||| ·) 0
    let good := ((List.range' 62 193).map fun w => (w, s.dataBytes n w)).takeWhile fun (e : Nat × List Byte) =>
      crcOk e.2 && (at' e.2 0 1 = 1 || at' e.2 0 1 = 2) && (e.2.drop 8).take 8 = h1.take 8
    let held := good.foldl (fun (m : Nat) (e : Nat × List Byte) => if at' e.2 0 1 = 1 then m ||| 2 ^ (at' e.2 2 2) else m) held0
    let ver := good.any fun (e : Nat × List Byte) => at' e.2 0 1 = 2
    some (at' h0 4 4, at' h0 8 2,
      { dig := h1, size := at' h0 12 4, held := held, area := a, gen := at' h0 4 4, next := 62 + good.length }, ver)
  else none

/-- The session is reloaded (R485, R492); `booted` says that a TRIAL record names the bank booted. Torn sectors are erased,
their pieces held no longer, and a new area is written; so is one whose entries end in an invalid word. A session whose image has
given way is over (R481). (DEDUCED: log entry 59.) -/
def State.updReload (s : State) (booted : Bool) : State :=
  let pick := match s.areaRead false, s.areaRead true with
    | some a, some b => if a.1 < b.1 then some b else some a
    | some a, none => some a
    | none, b => b
  match pick with
  | none =>
    let blank := [233, 234].all fun n => s.erased (sectorBase (384 + n)) 8160
    let s := s.updGo 0
    if blank then s else s.detect updPg 3
  | some (_, src, u, ver) =>
    let s : State := { s with upd := u }
    let s := s.setFld updPg R.UPD.STAT.HOLDER src
    let s := (List.range 8).foldl (fun (t : State) i =>
      t.setReg updPg (R.UPD.DIG.D i).off (BitVec.ofNat 32 (leVal ((u.dig.drop (4 * i)).take 4)))) s
    let mine := match s.bootRec with
      | some (r, _) => if r.dig = u.dig.take 8 then some r else none
      | none => none
    if s.bit updPg R.UPD.STAT.ROLLBK then s.updEnd.post 224
    else match mine with
    | some r =>
      if r.trial then
        ((s.updGo (if booted then 6 else 5)).setFld updPg R.UPD.STAT.TLEFT r.tleft).postIf booted 224
      else s.updEnd.post 224
    | none =>
      if ver then (s.updGo 4).setFld updPg R.UPD.CFV.NEW (s.imgCfv s.inactive)
      else
        let torn := ((List.range u.npc).filter fun i => !u.held.testBit i && !s.pieceErased i).map (· / 64)
        let s := torn.eraseDups.foldl (fun (t : State) k =>
          let t := t.clearSector (t.pieceSector (64 * k))
          { t with upd := { t.upd with held := dropHeld t.upd.held k } }) s
        let clean := s.erased (dataWord (areaSector u.area) u.next) (8160 - 32 * u.next)
        let s := if torn = [] ∧ clean then s else s.areaWrite (!u.area) (u.gen + 1)
        s.updGo (if s.upd.count = s.upd.npc then 2 else 1)

/-! ## Recovery mode -/

/-- UPD.PROG as it reads. -/
def State.updProg (s : State) : Word := R.UPD.PROG.NPC.put (R.UPD.PROG.HELD.put 0 s.upd.count) s.upd.npc

/-- HELLO (R495). (DEDUCED: log entry 60.) -/
def execHello (eth : Bool) (s : State) : Outcome :=
  s.updCmd (some eth) 1 fun s =>
    let w := fun (pg off n : Nat) => leBytes n (s.reg pg off).toNat
    s.romAnswer eth 1 (w 0x001 R.SYS.DEVID_LO.ID.off 4 ++ w 0x001 R.SYS.DEVID_HI.ID.off 4 ++
      leBytes 2 (s.fld 0x001 R.SYS.ID.REV) ++ w 0x007 R.BOOT.STAT.BANK.off 4 ++ leBytes 4 s.updProg.toNat)

/-- RESET (R495): the reply leaves before a chip reset. -/
def execReset (eth : Bool) (s : State) : Outcome := s.updCmd (some eth) 6 fun s => (s.romAnswer eth 6 []).chipReset 3

/-! ## Views -/

/-- The UPDATE page as it reads (R496). -/
def State.updView (s : State) (off : Nat) : Word :=
  if off = R.UPD.PROG.HELD.off then s.updProg
  else if off = R.UPD.NEXT.I.off then BitVec.ofNat 32 s.upd.lowest
  else if off = R.UPD.MAP.B.off then BitVec.ofNat 32 (s.upd.held / 2 ^ (32 * s.fld updPg R.UPD.MAPSEL.W))
  else s.reg updPg off

end Sys2Proof.Machine
end

