-- ==== Sys2Proof/Machine/Power.lean ====
section
/-! DEFINITION. Power modes, PARK, the RTC, supplies and resets (R452-R461), and the boot (R466-R475). -/

namespace Sys2Proof.Machine

/-- The PMU page. -/
def pmuPg : Nat := 0x005
/-- The RST page. -/
def rstPg : Nat := 0x006

/-! ## RUN and DOZE -/

/-- DOZE (R453, R454): the pages and the local memory of an island that DOZE stops answer on. (DEDUCED: log entry 54.) -/
def execDoze (s : State) : Outcome :=
  if s.locked pmuPg ∨ s.power ≠ .run then .next (s.refuse pmuPg)
  else .next ((({ s with power := .doze } : State).setFld pmuPg R.PMU.MODE.MODE 1).ok pmuPg)

/-- RUN (R454). -/
def execRun (s : State) : Outcome :=
  if s.locked pmuPg ∨ s.power ≠ .doze then .next (s.refuse pmuPg) else .next (s.toRun.ok pmuPg)

/-! ## The RTC -/

/-- The RTC count (R458), which the time of the KA island carries on (R514). (DEDUCED: log entry 63.) -/
def State.rtcNow (s : State) : Nat := (s.pwr.rtc + (s.kaNow - s.pwr.rtcAt).toNat * 32768 / 100000000) % 2 ^ 48

/-- Put the RTC at a count. (DEDUCED: log entry 63.) -/
def State.setRtc (s : State) (n : Nat) : State := { s with pwr := { s.pwr with rtc := n % 2 ^ 48, rtcAt := s.kaNow } }

/-- The alarm's count. -/
def State.rtcAlm (s : State) : Nat := s.fld64 pmuPg R.PMU.ALM_LO.T R.PMU.ALM_HI.T

/-- The time of the KA island at which the RTC's count comes to the alarm, past the end of the counter where it lies behind.
(DEDUCED: log entry 63.) -/
def State.rtcDue (s : State) : Int :=
  let n := s.pwr.rtc + (s.kaNow - s.pwr.rtcAt).toNat * 32768 / 100000000 + (s.rtcAlm + 2 ^ 48 - s.rtcNow) % 2 ^ 48 - s.pwr.rtc
  max s.kaNow (s.pwr.rtcAt + ((n * 100000000 + 32767) / 32768 : Nat))

/-- The alarm fires (R458): a local wake, in PARK a wake. -/
def State.rtcFire (s : State) : State :=
  let s := s.setBit pmuPg R.PMU.ALMCTL.FIRED true
  if s.power ≠ .park then s.localWake (some (4, 0))
  else if s.parkWake.isNone then { s with parkWake := some (4, 0) } else s

/-- RTC_ALARM (R458): the count comes to the alarm while the alarm is armed. -/
def execRtcAlarm (s : State) : Outcome :=
  if s.bit pmuPg R.PMU.ALMCTL.EN then s.atKa s.rtcDue State.rtcFire else .next s

/-- X32_CRYSTAL_FAILURE (R458): the RTC goes on from the KA RC; source 13. A crystal that does not run fails no further.
(DESIGN CHOICE: log entry 55.) -/
def execX32CrystalFailure (s : State) : Outcome :=
  if !s.pwr.x32ok then .next s
  else
    let s : State := { s with pwr := { s.pwr with x32ok := false } }
    .next ((s.setBit clkPg R.CLK.XSTAT.X32OK false).raise 13 (.page clkPg))

/-! ## PARK -/

/-- Every command of an output is off, as the PARK column of R39 has it; valves have left DECAY (R455 steps 2 and 3). -/
def State.outputsPark (s : State) : State :=
  let s := (List.range 48).foldl (fun (t : State) n =>
    (t.setHs n { t.hsAt n with cmd := .off, limpCmd := .off, gen := {}, act := none }).hsGateUpdate n) s
  let s := (List.range 8).foldl (fun (t : State) n =>
    t.setValve n { t.valveAt n with phase := .idle, pend := false, cmd := false }) s
  let s := [0, 1].foldl (fun (t : State) b =>
    t.setSide b { t.sideAt b with src := .off, next := none, peakNext := none }) s
  let s := (List.range 4).foldl (fun (t : State) g => t.setAmb g { t.ambAt g with on := false }) s
  let s := s.bankPark
  { s with light := { s.light with run := false, i2cBusy := none, i2cWait := [] } }

/-- The switch inputs are given to the KA island, with the filtered states as their reference (R220, R221). -/
def State.inputsPark (s : State) : State :=
  (List.range 64).foldl (fun (t : State) n =>
    t.setSi n { c := 0, run := false, parkRef := t.siSt n, parkRaw := t.siRaw n, entry := if t.siOn n then some (t.siSt n) else none }) s

/-- The macros that PARK and a power-on reset lose: system SRAM, local SRAM, canvases, context stores (R453, R197). -/
def lostMacro (m : Nat) : Bool := decide (m ≤ 45)

/-- The memories that PARK and a power-on reset lose, as R461 then writes them: 0 with valid check symbols.
(DESIGN CHOICE: log entry 32.) -/
def State.sramClear (s : State) : State :=
  { s with
    mem := s.mem.filter fun (e : Nat × Byte) => !lostMacro (placeMacro e.1)
    symErr := s.symErr.filter fun e => !lostMacro (placeMacro (e.1 * 32))
    poison := s.poison.filter fun w => !lostMacro (placeMacro (w * 32)) }

/-- What a chip reset, and PARK, do to FIX and the sketches (R84, R455): the FIX page takes its reset values, and every sketch its
live value; in PARK the sketches of clauses are kept (R249, R460). (DESIGN CHOICE: log entry 74.) -/
def State.fixDrop (s : State) : State :=
  let clause := fun pg => decide (0x040 ≤ pg) && decide (pg ≤ 0x050)
  { s with
    regs := s.regs.filter fun (e : Nat × Word) => e.1 / 0x1000 ≠ fixPg && (e.1 % 0x1000 ≠ 0x058 || clause (e.1 / 0x1000))
    sketch := s.sketch.filter fun (e : Nat × Option Word) => clause (e.1 / 0x1000)
    fixScope := [], fixStale := false, fixBcast := false, fixCopied := false, fixReset := none, fixResetPgs := [], fixSeen := [], fixInit := none
    fixMode := 0, fixTag := 0, fixBlead := 0, fixBexp := 0 }

/-- What the NET island's memories and PHYs lose in PARK (R39, R453): the learned addresses, histories and neighbours, and the
links. (DESIGN CHOICE: log entry 74.) -/
def State.ethPark (s : State) : State :=
  let s := (List.range 4).foldl (fun (t : State) p => t.setReg (ethPg p) R.ETH.STAT.LINK.off 0) s
  ((s.setFld linkPg R.LINK.STAT.UP 0).setFld eswPg R.ESW.STAT.MACN 0).setEth {}

/-- PARK is entered, with the buck and the islands' supplies off (R39, R84, R249, R376, R455, R475).
(DESIGN CHOICE: log entry 32.) -/
def State.park (s : State) : State :=
  let s := s.holdClear
  let s := (List.range 48).foldl (fun (t : State) n =>
    ((t.winClose n 3).setHs n { (t.winClose n 3).hsAt n with retryEnd := none }).setBit (hsPg n) R.HS.STAT.RETRY false) s
  let s := s.inputsPark.cryAbort.pxStop
  let s := (List.range 6).foldl (fun (t : State) l =>
    let t := t.linCut l
    if (t.linAt l).wakePend then t.setLin l { t.linAt l with wakePend := false } else t) ((List.range 8).foldl State.canCut s)
  let s := (s.fabricPark.coresReset).flashTorn.aliveStop
  let s : State := { s with
    power := .park, tbRun := false, tbStep := none, syncGood := 0, parkWake := none
    memc := { s.memc with start := none }
    pwr := { s.pwr with rtcPark := s.rtcNow, xok := false, xinEnd := none }, flt := { s.flt with pin := false } }
  let s := s.fixDrop.ethPark
  let s := (s.setBit 0x004 R.CLK.XSTAT.XOK false).setBit mcPg R.MEMC.SSTAT.RUN false
  let s := ((s.setBit pmuPg R.PMU.SUP.BUCK false).setBit pmuPg R.PMU.SUP.VLOK false).setBit pmuPg R.PMU.SUP.ISUPOK false
  let s := (List.range 8).foldl (fun (t : State) c =>
    ((t.setFld (canPg c) R.WAKE.STAT.FEC 0).setBit (canPg c) R.WAKE.STAT.FECOVF false).canShow c) s
  s.settleAll.outputsPark

/-- PARK_ENTRY (R422, R455, R493): NM is in SLEEP, and no command of the UPDATE page runs. -/
def execParkEntry (s : State) : Outcome :=
  if s.power = .park ∨ s.nmState ≠ 3 ∨ s.bit updPg R.PG_STAT.BUSY then .next s else .next s.park

/-- The time of so many counts of the RTC passes in PARK, where TB stands (R458, R514). -/
def State.rtcPass (s : State) (rtc : Nat) : State :=
  let n := s.rtcNow + rtc
  ({ s with kaLead := s.kaLead + ((rtc * 100000000 + 32767) / 32768 : Nat) } : State).setRtc n

/-- A wake boot begins (R93, R369, R421, R426, R456): the wake is recorded, the islands start, and SAFEN's level is evaluated
before any output. `src` is the kind and index of NM.WSRC with the bus of the wake; `rtc` the counts of the RTC that have passed;
TB advances by all that the RTC counted in PARK. (DESIGN CHOICE: log entry 32.) -/
def State.wakeBoot (s : State) (src : Nat × Nat) (bus : Option Nat) (rtc : Nat) (safen : Bool) : State :=
  let s := s.rtcPass rtc
  let ticks := (s.pwr.rtc + 2 ^ 48 - s.pwr.rtcPark) % 2 ^ 48 * 100000000 / 32768
  let s := (s.setReg rstPg R.RST.CAUSE.C.off (s.reg rstPg R.RST.CAUSE.C.off ||| 0x20)).count rstPg 2
  let s := s.sramClear
  let s : State := { s with
    power := .run, parkWake := none, clkDead := List.range' 1 16, clkLost := []
    pwr := { s.pwr with boot := .wake, recovery := false, resume := some ticks } }
  let s : State := { s with fsNew := true, fsAt := s.kaNow }
  let s := ((s.setFld pmuPg R.PMU.MODE.MODE 0).setReg clkPg R.CLK.LOCK.L.off 1).setBit pmuPg R.PMU.SUP.BUCK !s.pwr.vlsel
  let s := (List.range 48).foldl (fun (t : State) n => t.setHs n { t.hsAt n with fresh := true }) s
  let s := s.clearLatches.setNmState 0
  let s := ((s.setFld nmPg R.NM.WSRC.KIND src.1).setFld nmPg R.NM.WSRC.INDEX src.2).post 205
  let s := (s.setBit nmPg R.NM.STAT.WHOLD true).count nmPg 1
  let s : State := { s with nm := { s.nm with
    hold := some (s.tb + ticks + s.fld nmPg R.NM.TIME2.WWIN * 100000, bus), awake := s.tb + ticks, kaTick := s.tb + ticks, sending := [], ended := [], vote := true } }
  let s := (List.range 8).foldl (fun (t : State) c => t.canShow c) s
  let s := if src.1 = 3 then
      s.postIf ((s.fld (siPg src.2) R.SI.CHG.EVEN).testBit (src.2 % 8)) (160 + src.2 / 8)
    else s
  if safen then s.setBit fltPg R.FLT.STAT.SAFEN false
  else ((s.setBit fltPg R.FLT.STAT.SAFEN true).enterSafe 2 0).collect [⟨233, .page 0⟩]

/-- A bus has a wake: a wake-up pattern of wake mode 1, a dominant level of a LIN bus, or a wake latched in its transceiver; the wakes
of mode 2 are found by its decoder (R396, R424). -/
def State.busWakes (s : State) (b : NetBus) : Bool :=
  match b with
  | .can c => s.fld (canPg c) R.WAKE.CFG.WMODE = 1 || (s.canAt c).wakeLatch
  | .lin l => s.canWakeDev b || (s.linAt l).wakeLatch

/-- PARK_WAKE (R424, R456): a bus wake, or the wake that the KA island has found. (DESIGN CHOICE: log entry 32.) -/
def execParkWake (bus : Option NetBus) (rtc : BitVec 48) (safen : Bool) (s : State) : Outcome :=
  if s.power ≠ .park then .next s
  else match bus with
  | some b =>
    let src := match b with | .can c => (1, c.val) | .lin l => (2, l.val)
    if s.busWakes b then .next (s.wakeBoot src (some (busNo b)) rtc.toNat safen) else .next s
  | none =>
    match s.parkWake with
    | some src => .next (s.wakeBoot src (if src.1 = 1 then some src.2 else none) rtc.toNat safen)
    | none => .next s

/-! ## Resets -/

/-- A power-on reset (R21, R459): everything takes its reset value but what flash, OTP and ROM hold; the straps are sampled.
(DESIGN CHOICE: log entry 55.) -/
def State.powerOn (s : State) (vlsel recov : Bool) : State :=
  let s := s.nonceDrop.flashTorn
  let t : State := { State.reset with
    pending := s.pending, outbox := s.outbox, freeCtr := s.freeCtr, bankB := s.bankB
    mem := s.mem.filter fun (e : Nat × Byte) => !lostMacro (placeMacro e.1)
    symErr := s.symErr.filter fun e => !lostMacro (placeMacro (e.1 * 32))
    memc := { nv := s.memc.nv }
    pwr := { vlsel := vlsel, recov := recov } }
  let t := (t.setBit 0x001 R.SYS.STRAP.VLSEL vlsel).setBit 0x001 R.SYS.STRAP.RECOV recov
  t.setBit pmuPg R.PMU.SUP.BUCK !vlsel

/-- POWER_ON_RESET (R42, R43, R459). (DESIGN CHOICE: log entries 16, 55.) -/
def execPowerOnReset (vlsel recov : Bool) (s : State) : Outcome := .next (s.powerOn vlsel recov)

/-- VLOG is out of range (R452): VLOGF, source 2 and a chip reset. -/
def State.vlogFault (s : State) : State := ((s.setBit pmuPg R.PMU.SUP.VLOK false).detect pmuPg 1).chipReset 4

/-- SUPPLY_FAULT (R42, R43, R452); a power-on reset samples the straps. In PARK only VBAT, the 3.3 V rail and the KA supply stand; the
buck feeds the islands with an external VLOG too (R502). (DESIGN CHOICE: log entries 32, 55.) -/
def execSupplyFault (u : SupplyLoss) (s : State) : Outcome :=
  match u.unit with
  | .vbat => .next (s.powerOn u.vlsel u.recov)
  | .rail33 => .next (s.powerOn u.vlsel u.recov)
  | .vlog => .next (if s.power = .park then s else s.vlogFault)
  | .buck => .next (if s.power = .park then s else (s.detect pmuPg 3).vlogFault)
  | .island i =>
    if i.val = 0 then .next (s.powerOn u.vlsel u.recov)
    else if s.power = .park then .next s
    else if i.val = 15 then execClockLoss i (s.setBit pmuPg R.PMU.SUP.ISUPOK false)
    else .next (((s.setBit pmuPg R.PMU.SUP.ISUPOK false).detect pmuPg 2).chipReset 4)

/-- RECOV is sampled (R43). -/
def State.strapRecov (s : State) (recov : Bool) : State :=
  ({ s with pwr := { s.pwr with recov := recov } } : State).setBit 0x001 R.SYS.STRAP.RECOV recov

/-- CHIP_RESET (R43, R44, R93, R459, R475): RESETN. In PARK it is a wake boot with RESETN and WAKE set, after the counts of the
RTC that it names and with SAFEN's level as it then reads. -/
def execChipReset (p : ResetPins) (s : State) : Outcome :=
  if s.power = .park then
    let s := s.setReg rstPg R.RST.CAUSE.C.off (s.reg rstPg R.RST.CAUSE.C.off ||| 2)
    .next ((s.wakeBoot (0, 0) none p.rtc.toNat p.safen).strapRecov p.recov)
  else .next ((s.chipReset 1).strapRecov p.recov)

/-! ## Boot: configuration and calibration -/

/-- The records of a configuration copy as tag, length and the offset of the value (R470). -/
def State.cfgRecs (s : State) (b : Bool) : Nat → Nat → List (Nat × Nat × Nat)
  | 0, _ => []
  | fuel + 1, off =>
    if 0x10 + s.cfgWord b 4 % 65536 ≤ off then []
    else
      let w := s.cfgWord b off
      let len := w % 65536
      (w / 2 ^ 24, len, off + 4) :: State.cfgRecs s b fuel (off + 4 + (len + 3) / 4 * 4)

/-- The value of the first record with a tag and a length whose value is in range (R470). (DESIGN CHOICE: log entry 74.) -/
def State.cfgTag (s : State) (b : Bool) (tag len : Nat) (ok : Nat → Bool) : Option Nat :=
  (((s.cfgRecs b 2048 0x10).filter fun r => r.1 = tag && r.2.1 = len).map fun r => s.cfgWord b r.2.2 % 2 ^ (8 * len)).find? ok

/-- The copy that the ROM uses (R471, R491): among the valid copies of a format version, or else among all valid ones, the
one with the higher sequence number, or A. -/
def State.cfgUse (s : State) (cfv : Nat) : Option Bool :=
  let valid := [false, true].filter s.cfgValid
  let mine := valid.filter fun b => s.cfgVersion b = cfv
  let from' := if mine = [] then valid else mine
  match from' with
  | [] => none
  | [b] => some b
  | _ => some (decide (s.cfgWord false 8 < s.cfgWord true 8))

/-- The verification mode that stands (R468): VMODE as the last power-on reset read it (R472). (DEDUCED: log entry 57.) -/
def State.bootMode (s : State) (use : Option Bool) : Nat :=
  if use.isNone ∨ (s.leAt (place macroOtp 0x3D00) 4).testBit 8 then 1 else s.pwr.vmode

/-- The values of the configuration that a power-on reset takes (R466, R470, R472): VMODE and RST.HOLD.MS. -/
def State.bootCfgTake (s : State) (use : Option Bool) : State :=
  match use with
  | none => s
  | some u =>
    let m := (s.cfgTag u 2 1 fun v => v = 1 || v = 2).getD 1
    let s : State := { s with pwr := { s.pwr with vmode := m } }
    match s.cfgTag u 3 2 fun v => decide (v ≤ 2000) with
    | some ms => s.setFld rstPg R.RST.HOLD.MS ms
    | none => s

/-- The CFG page after a boot (R470, R471). (DEDUCED: log entry 57.) -/
def State.bootCfg (s : State) (use : Option Bool) : State :=
  let pg := 0x009
  let a := s.cfgValid false
  let b := s.cfgValid true
  let s := s.setFld pg R.CFG.STAT.VALID ((if a then 1 else 0) + if b then 2 else 0)
  let s := s.detectIf (!a || !b) pg 2
  match use with
  | none =>
    let s := (s.setBit pg R.CFG.STAT.USED false).setFld pg R.CFG.SEQ.SEQ 0
    let s := ((s.setFld pg R.CFG.VER.V 0).setFld pg R.CFG.APPLEN.N 0).setFld pg R.CFG.APPADDR.ADDR 0
    (s.setBit pg R.CFG.STAT.DEFAULTED true).detect pg 1
  | some u =>
    let s := (s.setBit pg R.CFG.STAT.DEFAULTED false).setBit pg R.CFG.STAT.USED u
    let s := (s.setFld pg R.CFG.SEQ.SEQ (s.cfgWord u 8)).setFld pg R.CFG.VER.V (s.cfgVersion u)
    match (s.cfgRecs u 2048 0x10).find? fun r => r.1 = 0x80 with
    | some r => (s.setFld pg R.CFG.APPLEN.N r.2.1).setFld pg R.CFG.APPADDR.ADDR (0x02000000 + cfgSector u * 0x2000 + r.2.2)
    | none => (s.setFld pg R.CFG.APPLEN.N 0).setFld pg R.CFG.APPADDR.ADDR 0

/-- A word of the user calibration (R474). -/
def State.ucalWord (s : State) (i : Nat) : Nat :=
  leVal ((List.range 4).map fun k => s.hwByte (place macroData (230 * 0x2000 + 4 * i + k)))

/-- A factory calibration item of R469: LIM and the factory value. -/
def State.factItem (s : State) (i : Nat) : Nat × Nat :=
  let w := s.leAt (place macroOtp (0x2000 + 4 * i)) 4
  (w / 65536, w % 65536)

/-- The items of the user calibration, none where it fails its checks (R474). -/
def State.ucalItems (s : State) : Option (List (Nat × Int)) :=
  let n := s.ucalWord 0 % 65536
  let bytes := (List.range (4 * (n + 1))).map fun k => s.hwByte (place macroData (230 * 0x2000 + k))
  let items := (List.range' 1 n).map fun i =>
    let w := s.ucalWord i
    let d := w % 65536
    (w / 65536 % 256, if d < 32768 then (d : Int) else (d : Int) - 65536)
  if s.ucalWord 0 / 65536 = 1 ∧ n ≤ 256 ∧ s.ucalWord (n + 1) = crc32c bytes ∧ ((items.map (·.1)).eraseDups).length = n
  then some items else none

/-- The user calibration is applied (R473, R474): deltas beyond LIM are rejected. (DEDUCED: log entry 57.) -/
def State.bootCal (s : State) : State :=
  let pg := 0x008
  match s.ucalItems with
  | none =>
    let s : State := { s with pwr := { s.pwr with ucal := [] } }
    let s := (s.setBit pg R.CAL.STAT.UCALBAD true).setBit pg R.CAL.STAT.UCALOK false
    ((s.setFld pg R.CAL.STAT.NREJ 0).setFld pg R.CAL.STAT.NITEMS 0).detect pg 1
  | some items =>
    let rej := items.filter fun (e : Nat × Int) => decide ((s.factItem e.1).1 < e.2.natAbs)
    let s : State := { s with pwr := { s.pwr with ucal := items } }
    let s := ((s.setBit pg R.CAL.STAT.UCALBAD false).setBit pg R.CAL.STAT.UCALOK true).setFld pg R.CAL.STAT.NREJ rej.length
    (s.setFld pg R.CAL.STAT.NITEMS (items.length - rej.length)).detectIf (rej ≠ []) pg 2

/-- The CAL page as it reads: the item that CAL.SEL names (R473). -/
def State.calView (s : State) (off : Nat) : Word :=
  let i := s.fld 0x008 R.CAL.SEL.ITEM
  let f := s.factItem i
  let d := (s.pwr.ucal.find? fun e => e.1 = i).map (·.2)
  let rej := match d with | some k => decide (f.1 < k.natAbs) | none => false
  if off = R.CAL.FACT.LIM.off then BitVec.ofNat 32 (f.1 * 65536 + f.2)
  else if off = R.CAL.USER.REJ.off then
    R.CAL.USER.REJ.put (R.CAL.USER.DELTA.put 0 (toField 16 (d.getD 0))) (if rej then 1 else 0)
  else if off = R.CAL.APPLIED.VAL.off then BitVec.ofNat 32 (toField 16 ((f.2 : Int) + if rej then 0 else d.getD 0))
  else s.reg 0x008 off

/-! ## Boot: repair maps and pairs -/

/-- The entries of a map without those that fail their CRC (R344). -/
def goodEntries {α : Type} (bad : List Nat) (from_ : Nat) (l : List α) : List α :=
  (l.zipIdx.filter fun e => !bad.contains (from_ + e.2)).map (·.1)

/-- The runtime repair map as the boot loads it (R344). -/
def mapLoad (b : BootIn) (nv : NvMap) : NvMap :=
  if !b.mapOk then {} else
    { nv with
      remaps := goodEntries b.badMap 0 nv.remaps
      pairs := goodEntries b.badMap nv.remaps.length nv.pairs
      poison := goodEntries b.badMap (nv.remaps.length + nv.pairs.length) nv.poison }

/-- The repair maps are applied (R254, R344, R345): an entry of the runtime map that fails its CRC is ignored, `badMap` by number, first
the remaps, then the pairs, then the poison; without a valid runtime map, MAPERR. -/
def State.bootMaps (s : State) (b : BootIn) : State :=
  let fact := b.rows.map fun r => (⟨r.1.val, r.2.1, r.2.2.val, true⟩ : Remap)
  let s := (List.range 10).foldl (fun (t : State) p => t.setBit (corePg p) R.CORE.STAT.SHIPOK (b.shipOk.getLsbD p)) s
  let s := s.setBit mrPg R.MEMR.MSTAT.MAPOK b.mapOk
  let nv := mapLoad b s.memc.nv
  let s : State := { s with
    memc := { s.memc with remaps := fact ++ nv.remaps, spent := [] }
    poison := (s.poison.filter fun w => !isFlash (placeMacro (w * 32))) ++ nv.poison
    pwr := { s.pwr with factSegs := b.segs.map fun e => (e.1.val, e.2.val) } }
  if b.mapOk then s else s.memDetectE mcPg 6 38

/-- The pairs of the cores at a power-on reset (R255, R256, R469): healthy pairs in order, the rest SPARE. -/
def State.bootPairs (s : State) (b : BootIn) (use : Option Bool) : State :=
  let ok := (List.range 10).filter fun p => b.shipOk.getLsbD p && !(mapLoad b s.memc.nv).pairs.contains p
  let s := (List.range 10).foldl (fun (t : State) p =>
    t.setRole p (if !ok.contains p then roleFailed else if (ok.take 8).contains p then roleActive else roleSpare)) s
  let s : State := { s with lcMap := (List.range 8).foldl (fun (m : Tab Nat) n =>
    tset (fun k => if k < 8 then k else 15) m n (ok.getD n 15)) [] }
  let otp := s.leAt (place macroOtp 0x3D00) 1
  let split := if otp ≠ 0 then otp else match use with | some u => (s.cfgTag u 1 1 fun _ => true).getD 0 | none => 0
  (s.setFld lcmPg R.LCM.SPLIT.SPLIT split).setFld lcmPg R.LCM.SPLIT.NCORE (8 + popCount split)

/-- The retouch maps give HS.SEG and HS.RATE their present values (R155). -/
def State.bootSegs (s : State) : State :=
  let gone := s.pwr.factSegs ++ s.memc.nv.retouch ++ s.retouchPend
  (List.range 48).foldl (fun (t : State) n =>
    let map := ((List.range (hsClassSegs n)).filter fun k => !gone.contains (n, k)).foldl (fun m k => m + 2 ^ k) 0
    if map = t.fld (hsPg n) R.HS.SEG.MAP then t else t.hsSetMap n map) s

/-! ## Boot: the bank -/

/-- The image in a bank passes under a mode of R468: its header, and either digest and signature, or every block. -/
def State.imgPasses (s : State) (k : Bool) (mode : Nat) : Bool :=
  match s.imgHdr k with
  | none => false
  | some h => if mode = 2 then s.imgTableOk k h && (s.imgBadBlock k h).isNone else s.imgSigOk k h (s.imgDigest k h)

/-- What the choice of R467 and R489 came to: the bank with the mode that verified it, whether it runs on trial. -/
structure Chosen where
  bank : Option (Bool × Nat)
  trial : Bool
  deriving DecidableEq, Repr

/-- A bank named by a record, with the other one behind it (R467): FALLBK and VERIFYF. -/
def State.bankOr (s : State) (k : Bool) (mode : Nat) : State × Option (Bool × Nat) :=
  let pg := 0x007
  if s.imgPasses k mode then (s, some (k, mode))
  else
    let s := (s.setBit pg R.BOOT.STAT.VERIFYF true).detect pg 3
    if s.imgPasses (!k) 1 then ((s.setBit pg R.BOOT.STAT.FALLBK true).detect pg 2, some (!k, 1)) else (s, none)

/-- The trial image gives way (R489): a CONFIRMED record for the last confirmed bank; ROLLBK. (DEDUCED: log entry 57.) -/
def State.rollBack (s : State) (r : BootRec) : State :=
  let i := s.imgIds r.prev
  let s := s.putBootRec { seq := 0, bank := r.prev, trial := false, tleft := 0, prev := r.prev, len := i.1, dig := i.2 }
  ((s.setBit updPg R.UPD.STAT.ROLLBK true).count updPg 3).detect updPg 2

/-- The results of the last boot are gone (R467, R489). -/
def State.bootForget (s : State) : State :=
  let pg := 0x007
  let s := ((s.setBit pg R.BOOT.STAT.NOREC false).setBit pg R.BOOT.STAT.FALLBK false).setBit pg R.BOOT.STAT.VERIFYF false
  s.setBit updPg R.UPD.STAT.ROLLBK false

/-- Step 7 of R466: the bank is chosen and verified. (DEDUCED: log entry 57.) -/
def State.bankChoose (s : State) (mode : Nat) : State × Chosen :=
  let pg := 0x007
  match s.bootRec with
  | none =>
    let s := (s.setBit pg R.BOOT.STAT.NOREC true).detect pg 1
    if s.imgPasses false 1 then (s, ⟨some (false, 1), false⟩)
    else
      let s := (s.setBit pg R.BOOT.STAT.VERIFYF true).detect pg 3
      (s, ⟨if s.imgPasses true 1 then some (true, 1) else none, false⟩)
  | some (r, _) =>
    let s := s.setFld pg R.BOOT.SEQ.SEQ r.seq
    if !r.trial then
      let t := s.bankOr r.bank mode
      (t.1, ⟨t.2, false⟩)
    else if r.tleft = 0 then
      let t := (s.rollBack r).bankOr r.prev mode
      (t.1, ⟨t.2, false⟩)
    else
      let s := s.putBootRec { r with tleft := r.tleft - 1 }
      if s.imgPasses r.bank mode then (s, ⟨some (r.bank, mode), true⟩)
      else
        let s := (s.setBit pg R.BOOT.STAT.VERIFYF true).detect pg 3
        let t := (s.rollBack r).bankOr r.prev mode
        (t.1, ⟨t.2, false⟩)

/-! ## Boot: the steps -/

/-- Steps 2 and 3 of R466: the supplies are measured, and in range (R13, R452). -/
def State.bootSupplies (s : State) : State :=
  let s : State := { s with pwr := { s.pwr with measured := true } }
  (s.setBit pmuPg R.PMU.SUP.VLOK true).setBit pmuPg R.PMU.SUP.ISUPOK true

/-- Step 4 of R466: the crystals run, the one on XIN32 where there is one (R45), and every PLL that is not gated locks, IO
first; after a chip reset a PWR clock that is lost stays lost. -/
def State.bootClocks (s : State) (x32 : Bool) : State :=
  let por := decide (s.pwr.boot = .por)
  let s : State := { s with pwr := { s.pwr with xok := true, xinEnd := none, x32ok := s.pwr.x32ok || (por && x32) } }
  let s := (s.setBit clkPg R.CLK.XSTAT.XOK true).setBit clkPg R.CLK.XSTAT.X32OK s.pwr.x32ok
  let s := s.setClkBit R.CLK.LOCK.L 0 true
  ([16, 15] ++ List.range' 1 14).foldl (fun (t : State) i =>
    if t.clkBit R.CLK.GATE.G i ∨ t.clkLost.contains i then t else t.pllLock i) s

/-- Context 0 of AC0 continues at an address (R466 step 9). (DESIGN CHOICE: log entry 4; DEDUCED: log entry 57.) -/
def State.bootRun (s : State) (pc : Nat) : State :=
  let s := s.modCtx 0 fun c =>
    let r : CtxRegs := { c.now with pc := BitVec.ofNat 32 pc }
    ({ c with now := r } : Ctx).commit
  s.schedule 0

/-- BOOT (R42, R45, R456, R466-R474, R485, R494): the steps up to the image's entry point, or to recovery mode. While VLOG is
absent the device waits at step 2, and without a crystal on XIN at step 4, in reset. A boot that has handed over does not happen
again. (DESIGN CHOICE: log entry 4; DEDUCED: log entry 57.) -/
def execBoot (b : BootIn) (s : State) : Outcome :=
  if s.pwr.boot = .done ∨ s.power = .park ∨ !b.vlog then .next s
  else if !b.xin then .next s.bootSupplies
  else
    let por := decide (s.pwr.boot = .por)
    let s := (s.bootSupplies.bootClocks b.x32).bootMaps b
    let s := (s.setFld 0x001 R.SYS.DEVID_LO.ID (b.devid.toNat % 2 ^ 32)).setFld 0x001 R.SYS.DEVID_HI.ID (b.devid.toNat / 2 ^ 32)
    let s := s.setFld linkPg R.LINK.DEVID.ID (b.devid.toNat % 2 ^ 32)
    let named := match s.bootRec with | some (r, _) => r.bank | none => false
    let use := s.cfgUse (s.imgCfv named)
    let s : State := if por then (s.bootPairs b use).bootCfgTake use else s
    let s := s.hwFind fun w => placeMacro (w * 32) = macroData && decide (228 ≤ w % 0x80000 / 256) && decide (w % 0x80000 / 256 ≤ 239)
    let s := s.bootCal.bootForget
    let c : State × Chosen := if s.pwr.recov then (s, (⟨none, false⟩ : Chosen)) else s.bankChoose (s.bootMode use)
    let s : State := c.1
    let s : State := match c.2.bank with
      | some (k, mode) =>
        let s := s.bankRead k
        let l := ((s.imgHdr k).map (·.l)).getD 0
        let s : State := { s with bankB := k, icache := [], icBad := [], cry := { s.cry with progs := b.progs.map (·.val) } }
        let s := (s.setBit 0x007 R.BOOT.STAT.BANK k).setFld 0x007 R.BOOT.STAT.VMODE mode
        let s := (s.setFld 0x007 R.BOOT.IMGLEN.L l).setFld updPg R.UPD.CFV.RUN (s.imgCfv k)
        let s := (s.setFld crPg R.CR.LIB.VER b.libVer.toNat).setFld crPg R.CR.LIB.NPROG b.progs.length
        s.bootCfg (s.cfgUse (s.imgCfv k))
      | none =>
        let s : State := { s with cry := { s.cry with progs := [] } }
        ((s.setFld crPg R.CR.LIB.VER 0).setFld crPg R.CR.LIB.NPROG 0).bootCfg use
    let s := (s.nonceLoad.bootSegs.updReload c.2.trial).setFld 0x007 R.BOOT.TIME.US b.us.toNat
    let s : State := { s with pwr := { s.pwr with boot := .done, recovery := c.2.bank.isNone } }
    let s : State := match c.2.bank with
      | some (k, _) => s.bootRun (((s.imgHdr k).map (·.entry)).getD 0)
      | none => s.schedule 0
    .next s.nextTakeover

end Sys2Proof.Machine
end

