-- ==== Sys2Proof/Machine/Rules.lean ====
section
/-! DEFINITION. The consistency rules of CHECK (R82, R83, and the rule table of every block chapter), evaluated on the post-fix
image, which is a state whose live registers are the image. -/

namespace Sys2Proof.Machine

/-- One instance of a rule: the page it names and the rule, where it fails. -/
def ruleOn (pass : Bool) (pg rule : Nat) : List (Nat × Nat) := if pass then [] else [(pg, rule)]

/-- The lowest of some pages that is in the scope (R82). -/
def lowIn (sc : List Nat) (cands : List Nat) : Nat :=
  match cands.filter sc.contains with
  | [] => 0
  | p :: ps => ps.foldl min p

/-- A number lies in a range. -/
def within (lo hi n : Nat) : Bool := decide (lo ≤ n) && decide (n ≤ hi)

/-- The minimum pulse of a slew code in ticks (R110). -/
def minPulse (slew : Nat) : Nat := 800 * 2 ^ slew

/-- The on-time and the off-time of a pattern are each at least `m` ticks, or the duty is 0 or 0xFFFF. -/
def pulseOk (p d m : Nat) : Bool := d = 0 || d = 0xFFFF || (decide (m ≤ pwmOn p d) && decide (m ≤ p - pwmOn p d))

/-! ## The register model (R83) -/

/-- Rules 0x0001 to 0x0006; they read live values (R82). -/
def State.rulesModel (s : State) (sc : List Nat) : List (Nat × Nat) :=
  let n := s.fld fixPg R.FIX.NSCOPE.N
  let bc := s.bit fixPg R.FIX.MODE.BCAST
  let named := (List.range (min n 64)).map fun i => s.fld fixPg (R.FIX.SCOPE.PAGE i)
  ruleOn (within 1 64 n) fixPg 0x0001 ++
    named.flatMap (fun p => ruleOn ((kindOf p).isSome && p ≠ 0x002 && p ≠ 0xF00) p 0x0002) ++
    sc.flatMap (fun p => ruleOn (!s.locked p) p 0x0003 ++ ruleOn (!s.bit p R.PG_SKSTAT.CONFLICT) p 0x0004) ++
    ruleOn (!(bc && s.bit fixPg R.FIX.MODE.JOIN)) fixPg 0x0005 ++
    ruleOn (!bc || (decide (s.fld linkPg R.LINK.PLAT.TICKS + 400 ≤ s.fld fixPg R.FIX.BLEAD.TICKS) &&
      decide (1 ≤ s.fld fixPg R.FIX.BEXP.N))) fixPg 0x0006

/-! ## Clocks, cores, memory, faults, reset -/

/-- Rules 0x0401 and 0x0402 (R106). -/
def State.rulesClk (s : State) (sc : List Nat) : List (Nat × Nat) :=
  if !sc.contains clkPg then []
  else
    let used := (List.range 8).map s.pairOf
    ruleOn ((List.range 10).all fun p => !(s.clkBit R.CLK.GATE.G (2 + p) && used.contains p)) clkPg 0x0401 ++
      ruleOn (!s.clkBit R.CLK.GATE.G 14 || !s.enabled crPg) clkPg 0x0402

/-- Rule 0x0C01 (R272). -/
def State.rulesLcm (s : State) (sc : List Nat) : List (Nat × Nat) :=
  if !sc.contains lcmPg then []
  else ruleOn ((List.range' 8 8).all fun n => s.coreExists n || s.reg lcmPg (R.LCM.LCFG.DZTRAP n).off = 0) lcmPg 0x0C01

/-- Rule 0x0F01 (R355). -/
def State.rulesMem (s : State) (sc : List Nat) : List (Nat × Nat) :=
  if !(sc.contains mcPg || sc.contains flPg) then []
  else ruleOn (within 16 4096 (s.fld mcPg R.MEMC.SCRUB.GAP) && within 100 60000 (s.fld mcPg R.MEMC.PER.MS) &&
    within 50 100 (s.fld flPg R.FL.WEARTH.PCT)) (lowIn sc [mcPg, flPg]) 0x0F01

/-- Rules 0x1001 to 0x1004 (R375). -/
def State.rulesFault (s : State) (sc : List Nat) : List (Nat × Nat) :=
  if !((List.range' 0x010 5).any sc.contains) then []
  else
    ((List.range 256).filter (· ≠ 232)).flatMap (fun c =>
      let pg := 0x011 + c / 64
      let f := s.scfgFld c
      ruleOn (f R.FLT.SCFG.RDST = 0 || (c = 19 && f R.FLT.SCFG.SAFE = 0)) pg 0x1001 ++
        ruleOn ((f R.FLT.SCFG.INT = 0 && f R.FLT.SCFG.NMT = 0) || s.coreExists (f R.FLT.SCFG.CORE)) pg 0x1002 ++
        ruleOn (!srcReserved c || s.scfg c = 0) pg 0x1003) ++
      ruleOn (within 1 50 (s.fld fltPg R.FLT.CFG.AKHZ)) fltPg 0x1004

/-- Rule 0x1501 (R476). -/
def State.rulesRst (s : State) (sc : List Nat) : List (Nat × Nat) :=
  if sc.contains rstPg then ruleOn (s.fld rstPg R.RST.HOLD.MS ≤ 2000) rstPg 0x1501 else []

/-! ## Load switches (R129, R158) -/

/-- Rule 0x0501 on a palette entry. -/
def State.palOk (s : State) (e : Nat) : Bool :=
  let n := s.palFld e R.PAL.CFG.NBP
  let t := fun k => s.fld 0x130 (R.PAL.BP.T e k)
  let i := fun k => s.fld 0x130 (R.PAL.BP.I e k)
  let trip := s.palFld e R.PAL.TRIP.I
  within 1 8 n && decide (1 ≤ t 0) &&
    ((List.range (n - 1)).all fun k => decide (t k < t (k + 1)) && decide (i (k + 1) ≤ i k)) &&
    decide (trip ≤ i (n - 1)) && decide (1 ≤ trip) && decide (s.palFld e R.PAL.OL.VTH ≤ 250) &&
    (s.palFld e R.PAL.RETRY.N = 0 || within 1 20 (s.palFld e R.PAL.RETRY.INT))

/-- The limits of an entry fit `k` channels of the class of channel `n` (R108). -/
def State.palFits (s : State) (e n k : Nat) : Bool :=
  decide (s.fld 0x130 (R.PAL.BP.I e 0) ≤ k * hsClassCeil n * 10) && decide (s.palFld e R.PAL.TRIP.I ≤ k * hsClassIcont n * 10)

/-- Rules 0x0501 to 0x0506. (DESIGN CHOICE: log entry 64.) -/
def State.rulesHs (s : State) (sc : List Nat) : List (Nat × Nat) :=
  let pal := sc.contains 0x130
  let reach := fun n => pal || sc.contains (hsPg n) || sc.contains (hsBank n)
  let chans := (List.range 48).filter reach
  let named := (chans.map s.hsPal).eraseDups
  let entries := (List.range 32).filter fun e => named.contains e || (pal && s.palFld e R.PAL.CFG.NBP ≠ 0)
  let own := (List.range 48).filter fun n => sc.contains (hsPg n)
  entries.flatMap (fun e => ruleOn (s.palOk e) 0x130 0x0501) ++
    own.flatMap (fun n =>
      let pg := hsPg n
      let p := s.fld pg R.HS.PERIOD.P
      ruleOn (within 4000 1000000 p) pg 0x0502 ++ ruleOn (s.fld pg R.HS.CFG.LIMP ≠ 3) pg 0x0503 ++
        ruleOn (pulseOk p (s.fld pg R.HS.DUTY.D) (minPulse (s.fld pg R.HS.CFG.SLEW))) pg 0x0504) ++
    (chans.filter fun n => s.gid n = 0).flatMap (fun n =>
      ruleOn (s.palFits (s.hsPal n) n 1) (lowIn sc [hsBank n, hsPg n, 0x130]) 0x0505) ++
    (List.range 6).flatMap (fun b =>
      let ch := List.range' (8 * b) 8
      let pgs := [0x0F0 + b, 0x130] ++ ch.map hsPg
      let bad := (pgs.any sc.contains) && ch.any fun n => decide (4 < s.gid n)
      ruleOn (!bad) (lowIn sc pgs) 0x0506 ++
        [1, 2, 3, 4].flatMap fun g =>
          let ms := ch.filter fun n => s.gid n = g
          let at' := [0x0F0 + b, 0x130] ++ ms.map hsPg
          if ms = [] ∨ !at'.any sc.contains then []
          else
            let l := ms.headD 0
            let same := fun (f : Fld) => ms.all fun n => s.fld (hsPg n) f = s.fld (hsPg l) f
            ruleOn (within 2 4 ms.length && same R.HS.CFG.PAL && same R.HS.CFG.LIMP && same R.HS.CFG.SLEW &&
              s.palFits (s.hsPal l) l ms.length) (lowIn sc at') 0x0506)

/-- Rules 0x0601 and 0x0602. -/
def State.rulesBank (s : State) (sc : List Nat) : List (Nat × Nat) :=
  (List.range 6).flatMap fun b =>
    let f := 0x0F0 + b
    let ch := List.range' (8 * b) 8
    let pgs := [f, 0x130] ++ ch.map hsPg
    let i := s.fld f R.BANK.BUDGET.I
    (if sc.contains f then ruleOn (within 0x64 (if b < 2 then 2000 else 640) i) f 0x0601 else []) ++
      if pgs.any sc.contains then
        ruleOn (ch.all fun n => s.palFld (s.hsPal n) R.PAL.TRIP.I ≤ i * 10) (lowIn sc pgs) 0x0602
      else []

/-! ## Bridges and valves (R178, R194) -/

/-- Rules 0x0701 to 0x0706, of every enabled bridge. -/
def State.rulesBridge (s : State) (sc : List Nat) : List (Nat × Nat) :=
  let here := sc.contains brPg
  let ks := (List.range 14).filter fun k => s.br k R.BRIDGE.CFG.EN = 1
  let pairs := ks.flatMap fun j => (ks.filter (j < ·)).map fun k => (j, k)
  ks.flatMap (fun k =>
    let heavy := decide (k < 6)
    let p := s.br k R.BRIDGE.PERIOD.P
    let ilim := s.br k R.BRIDGE.LIM.ILIM
    let ist := s.br k R.BRIDGE.LIM.ISTART
    let legs := fun f => decide (s.br k f ≤ if heavy then 11 else 15)
    (if here then
      ruleOn (s.legA k ≠ s.legB k && legs R.BRIDGE.CFG.LEGA && legs R.BRIDGE.CFG.LEGB) brPg 0x0701 ++
        ruleOn (decide (s.br k R.BRIDGE.CFG.SAFE ≤ 1) && within 20 255 (s.br k R.BRIDGE.CFG.DT)) brPg 0x0703 ++
        ruleOn (within 4000 1000000 p && pulseOk p (s.br k R.BRIDGE.DUTY.D) 200) brPg 0x0704 ++
        ruleOn ((s.br k R.BRIDGE.CFG.PKEN = 0 || decide (1 ≤ s.br k R.BRIDGE.TMO.PARKT)) &&
          (s.br k R.BRIDGE.RIP.EN = 0 ||
            (decide (100 ≤ s.br k R.BRIDGE.RIP.TNOM) && decide (1 ≤ s.br k R.BRIDGE.TMO.STALLT))) &&
          (s.br k R.BRIDGE.PINCH.SLTH = 0 || (decide (100 ≤ s.br k R.BRIDGE.PINCH.SLWIN) &&
            decide (s.sfld brPg (R.BRIDGE.PZLO.POS k) ≤ s.sfld brPg (R.BRIDGE.PZHI.POS k))))) brPg 0x0706
    else []) ++
      if here || sc.contains (legPg (s.legA k)) || sc.contains (legPg (s.legB k)) then
        ruleOn (within 1 (if heavy then 2000 else 500) ilim && within ilim (if heavy then 6000 else 1500) ist &&
          decide (s.br k R.BRIDGE.AUX.TSTART ≤ 10000)) brPg 0x0705
      else []) ++
    if here then
      pairs.flatMap fun e =>
        let a := [s.legA e.1, s.legB e.1].filter fun l => decide (l < 28) && [s.legA e.2, s.legB e.2].contains l
        ruleOn (a = [] || (a.eraseDups.length = 1 && s.br e.1 R.BRIDGE.CFG.SAFE = s.br e.2 R.BRIDGE.CFG.SAFE)) brPg 0x0702
    else []

/-- Rules 0x0801 to 0x0805. -/
def State.rulesValve (s : State) (sc : List Nat) : List (Nat × Nat) :=
  ((List.range 8).filter fun n => sc.contains (vlPg n)).flatMap (fun n =>
    let pg := vlPg n
    let ipk := s.fld pg R.VL.PEAK.IPK
    let ih := s.fld pg R.VL.HOLD.IHOLD
    ruleOn (within 10 1200 ipk && within 1 300 ih && decide (ih < ipk)) pg 0x0801 ++
      ruleOn (within 10 5000 (s.fld pg R.VL.PEAK.TPKMAX) && decide (s.fld pg R.VL.PHOLD.TPH ≤ 10000)) pg 0x0802 ++
      ruleOn (within 4000 100000 (s.fld pg R.VL.CHOP.P)) pg 0x0803 ++
      ruleOn (!s.bit pg R.VL.CFG.PULSE || decide (1 ≤ s.fld pg R.VL.HOLD.THOLD)) pg 0x0804) ++
    if sc.contains vsPg then
      ruleOn (decide (s.fld vsPg R.BOOST.CFG.VSET ≤ 0xA4) && within 1 16 (s.fld vsPg R.BOOST.CFG.RDYM)) vsPg 0x0805
    else []

/-! ## Lighting, inputs (R213, R228) -/

/-- Rules 0x0901 to 0x0906. -/
def State.rulesLed (s : State) (sc : List Nat) : List (Nat × Nat) :=
  let loops := (List.range 4).filter fun g => s.bit (ambPg g) R.AMB.LOOP.CL
  let intv := fun g => s.fld (ambPg g) R.AMB.LOOP.INTV
  let least := loops.foldl (fun m g => min m (intv g)) 1000000
  let each := if s.bit 0x178 R.LI2C.CFG.FAST then 1 else 4
  let closed := fun g => decide (1 ≤ s.fld (ambPg g) R.AMB.LOOP.KI) && within 1 1000 (intv g) &&
    within 8 0x77 (s.fld (ambPg g) R.AMB.SENS.ADDR) &&
    (loops.all fun h => h = g || s.fld (ambPg h) R.AMB.SENS.ADDR ≠ s.fld (ambPg g) R.AMB.SENS.ADDR) &&
    decide (loops.length * each ≤ 4 * least)
  (if sc.contains mxPg then
    ruleOn (within 1 8 (s.fld mxPg R.MX.SCAN.PRE) && within 32 1023 (s.fld mxPg R.MX.SCAN.GUARD) &&
      ((List.range 16).all fun c => decide (s.fld mxPg (R.MX.ICOL.CODE (c / 4) (c % 4)) ≤ 240))) mxPg 0x0901 ++
      ruleOn (decide (s.fld mxPg R.MX.DERATE.TK ≤ 40) && within 1 10 (s.fld mxPg R.MX.DERATE.SLOPE)) mxPg 0x0902
  else []) ++
    (if sc.contains pxPg then
      let nd := s.fld pxPg R.PXC.CFG.NDRV
      let dv := s.fld pxPg R.PXC.CFG.DIV
      let le := s.fld pxPg R.PXC.CFG.LEW
      let p := s.fld pxPg R.PXC.PERIOD.P
      ruleOn (within 1 64 nd && within 2 31 dv && decide (1 ≤ le) && within 4000 1000000 p &&
        decide (nd * 16 * (if s.bit pxPg R.PXC.CFG.W16 then 16 else 12) * 2 * dv + le + 8 ≤ p)) pxPg 0x0903
    else []) ++
    ((List.range 4).filter fun g => sc.contains (ambPg g)).flatMap (fun g =>
      let pg := ambPg g
      ruleOn (decide (s.fld pg R.AMB.CUR.IR ≤ 240) && decide (s.fld pg R.AMB.CUR.IG ≤ 240) &&
        decide (s.fld pg R.AMB.CUR.IB ≤ 240) && within 4000 1000000 (s.fld pg R.AMB.PERIOD.P)) pg 0x0904 ++
        ruleOn (!loops.contains g || closed g) pg 0x0905) ++
    (if sc.contains 0x178 then (loops.filter fun g => !sc.contains (ambPg g)).flatMap (fun g => ruleOn (closed g) 0x178 0x0905) else []) ++
    if sc.contains 0x173 then ruleOn (s.fld 0x173 R.CV.LSYNC.MODE ≤ 2) 0x173 0x0906 else []

/-- The park periods of R220 as samples per second. -/
def parkRate (code : Nat) : Nat := [100, 50, 20, 10].getD code 10

/-- Rules 0x0A01 to 0x0A05. -/
def State.rulesIn (s : State) (sc : List Nat) : List (Nat × Nat) :=
  let sis := (List.range 64).filter fun n => sc.contains (siPg n)
  let rate := ((List.range 64).filter fun n => s.siCfg n R.SI.CFG.PARK = 1).foldl
    (fun m n => m + parkRate (s.siCfg n R.SI.CFG.PPER)) 0
  sis.flatMap (fun n =>
    ruleOn (s.siCfg n R.SI.CFG.IEN = 0 || decide (1 ≤ s.siCfg n R.SI.CFG.TH)) (siPg n) 0x0A01 ++
      ruleOn (s.siCfg n R.SI.CFG.ANA = 0 || (decide (s.siCfg n R.SI.WIN.LO ≤ s.siCfg n R.SI.WIN.HI) &&
        decide (s.siCfg n R.SI.WIN.HI ≤ 0xFF0))) (siPg n) 0x0A02) ++
    (if sis = [] then [] else ruleOn (rate ≤ 1600) (lowIn sc ((List.range 8).map (0x180 + ·))) 0x0A03) ++
    ((List.range 16).filter fun n => sc.contains (ioPg n)).flatMap fun n =>
      let pg := ioPg n
      let m := s.ioMode n
      let th := s.fld pg R.IO.CFG.TH
      ruleOn (m = 0 || decide (3 < m) || decide (1 ≤ th)) pg 0x0A01 ++
        ruleOn (decide (m ≤ 4) && decide (s.fld pg R.IO.CFG.LIMP ≤ 2)) pg 0x0A04 ++
        ruleOn ((m ≠ 3 || decide (th * ioPulseTicks (s.fld pg R.IO.CFG.PPER) ≤ 200000000)) &&
          ((m ≠ 1 && m ≠ 2) || decide (th * sperTicks (s.fld pg R.IO.CFG.SPER) ≤ 200000000))) pg 0x0A05

/-! ## Clauses (R252) -/

/-- The kinds of signal of R231. -/
inductive SubjKind where
  | level | pulse | measured
  deriving DecidableEq, Repr

/-- The kind of a subject code; none where it is reserved (R231). -/
def subjKind (u : Nat) : Option SubjKind :=
  if u < 0x50 then some .level else if u < 0x58 then some .pulse else if u < 0x66 then some .level
  else if 0x80 ≤ u ∧ u < 0xD4 then some .measured
  else if 0x100 ≤ u ∧ u < 0x140 then some .level
  else if 0x200 ≤ u ∧ u < 0x400 then some .pulse
  else if 0x400 ≤ u ∧ u < 0x800 then some .pulse
  else none

/-- The combinations of verb and object that R234 allows. -/
def verbAllowed (v o : Nat) : Bool :=
  let hs := decide (o < 0x30)
  let mb := within 0x40 0x4D o
  let vl := within 0x60 0x67 o
  match v with
  | 0 => true
  | 1 => hs || mb || vl
  | 2 => hs || vl
  | 3 => hs
  | 4 => mb
  | 5 => mb
  | 6 => mb
  | 8 => within 0x100 0x3FF o
  | 9 => decide (o < 64)
  | _ => false

/-- Rules 0x0B01 to 0x0B08. (DESIGN CHOICE: log entry 64.) -/
def State.rulesRx (s : State) (sc : List Nat) : List (Nat × Nat) :=
  let rxl := sc.contains rxlPg
  ((List.range 512).flatMap fun c =>
    let w := cwPg c
    let win := sc.contains w
    let f := s.clFld c
    let subj := f R.CL.SUBJ.SUBJ
    let kind := subjKind subj
    let sm := f R.CL.SUBJ.SMODE
    let thr := s.sfld w (R.CL.THR.THR (c % 32))
    let dm := f R.CL.ASP.DMODE
    let verb := f R.CL.VERB.VERB
    let obj := f R.CL.VERB.OBJ
    let d := f R.CL.ARG.D
    let mine :=
      if !win then []
      else
        ruleOn (decide (sm ≤ 4) && kind.isSome && (f R.CL.QUAL.QEN = 0 || subjKind (f R.CL.QUAL.QSUBJ) = some .level)) w 0x0B01 ++
          ruleOn ((kind ≠ some .pulse || sm = 2) &&
            (!(within 0x80 0xAF subj || within 0xCC 0xD3 subj) || decide (0 ≤ thr))) w 0x0B02 ++
          ruleOn (decide (dm ≤ 2) && decide (f R.CL.ASP.RTRG ≤ 2) && decide (f R.CL.ASP.DUNIT ≤ 2) &&
            (dm ≠ 0 || (decide (sm ≤ 1) && kind ≠ some .pulse && f R.CL.ASP.RTRG = 0)) &&
            (dm ≠ 1 || decide (1 ≤ f R.CL.ASP.DUR))) w 0x0B03 ++
          ruleOn (verbAllowed verb obj) w 0x0B04 ++
          ruleOn (verb ≠ 8 || (within 0x100 0x3FF obj && subj ≠ 0x400 + obj)) w 0x0B06
    let hs := verb = 3 && decide (obj < 0x30)
    let mb := (verb = 5 || verb = 6) && within 0x40 0x4D obj
    let via := [w, if hs then hsPg obj else brPg]
    let pwm :=
      if (hs || mb) && via.any sc.contains then
        ruleOn (if hs then pulseOk (s.fld (hsPg obj) R.HS.PERIOD.P) d (minPulse (s.fld (hsPg obj) R.HS.CFG.SLEW))
          else pulseOk (s.br (obj - 0x40) R.BRIDGE.PERIOD.P) d 200) (lowIn sc via) 0x0B05
      else []
    let link :=
      if verb = 9 && (win || rxl) then
        ruleOn (decide (obj < 64) && s.fld rxlPg R.RXL.CFG.PORTS ≠ 0) (lowIn sc [w, rxlPg]) 0x0B07
      else []
    mine ++ pwm ++ link) ++
    if rxl then
      let lref := s.fld rxlPg R.RXL.REF.LREF
      let ltmo := s.fld rxlPg R.RXL.TMO.LTMO
      ruleOn (decide (1 ≤ s.fld rxlPg R.RXL.CFG.HOPS) && (ltmo = 0 || (decide (100 ≤ lref) && decide (3 * lref ≤ ltmo)))) rxlPg 0x0B08
    else []

/-! ## Networks (R398, R416, R429) -/

/-- A nominal timing meets rule 0x1101. -/
def nbtOk (brp t1 t2 sjw : Nat) : Bool :=
  let q := brp * (1 + t1 + t2)
  within 1 31 brp && decide (2 ≤ t1) && decide (1 ≤ t2) && decide (sjw ≤ t2) && within 80 1600 q

/-- A data timing meets the limits of rule 0x1102 against a nominal one; `max` is the highest rate in Mbit/s. -/
def dbtOk (brp t1 t2 sjw nq max : Nat) : Bool :=
  let q := brp * (1 + t1 + t2)
  within 1 31 brp && decide (1 ≤ t1) && decide (1 ≤ t2) && decide (sjw ≤ t2) && decide (q ≤ nq) && decide (80 ≤ max * q)

/-- Rules 0x1101 to 0x1108 of a CAN page. -/
def State.rulesCan (s : State) (c : Nat) : List (Nat × Nat) :=
  let pg := canPg c
  let f := s.fld pg
  let nq := f R.CAN.NBT.BRP * (1 + f R.CAN.NBT.TSEG1 + f R.CAN.NBT.TSEG2)
  let fd := f R.CAN.MODE.FDEN = 1
  let xl := f R.CAN.MODE.XLEN = 1
  let els := (List.range 64).filter fun e => f (R.FE.ID.EN e) = 1
  let fifos := [0, 1].filter fun n => f R.CAN.MODE.NOMATCH = n + 1 || els.any fun e => f (R.FE.ACT.DEST e) = n + 1
  let cand := fun k =>
    let kq := f (R.CAN.ABN.BRP k) * (1 + f (R.CAN.ABN.TSEG1 k) + f (R.CAN.ABN.TSEG2 k))
    nbtOk (f (R.CAN.ABN.BRP k)) (f (R.CAN.ABN.TSEG1 k)) (f (R.CAN.ABN.TSEG2 k)) (f (R.CAN.ABN.SJW k)) &&
      (!fd || dbtOk (f (R.CAN.ABD.BRP k)) (f (R.CAN.ABD.TSEG1 k)) (f (R.CAN.ABD.TSEG2 k)) (f (R.CAN.ABD.SJW k)) kq 8)
  ruleOn (nbtOk (f R.CAN.NBT.BRP) (f R.CAN.NBT.TSEG1) (f R.CAN.NBT.TSEG2) (f R.CAN.NBT.SJW)) pg 0x1101 ++
    ruleOn (!fd || (dbtOk (f R.CAN.DBT.BRP) (f R.CAN.DBT.TSEG1) (f R.CAN.DBT.TSEG2) (f R.CAN.DBT.SJW) nq 8 &&
      decide (f R.CAN.TDC.TDCO ≤ 127))) pg 0x1102 ++
    ruleOn (if c < 6 then !xl && s.reg pg 0x110 = 0x030C0301
      else !xl || dbtOk (f R.CAN.XBT.BRP) (f R.CAN.XBT.TSEG1) (f R.CAN.XBT.TSEG2) (f R.CAN.XBT.SJW) nq 10) pg 0x1103 ++
    ruleOn (fifos.all fun n =>
      let nr := f (R.RXF.CFG.NREC n)
      let sz := f (R.RXF.CFG.SZ n)
      inSram (32 * f (R.RXF.BASE.ADDR n)) (nr * sz * 32) && within 2 1024 nr && decide (1 ≤ sz) &&
        (!fd || decide (3 ≤ sz)) && (!xl || decide (65 ≤ sz))) pg 0x1104 ++
    ruleOn (decide (f R.CAN.AB.NCAND ≤ 8) && (f R.CAN.AB.NCAND = 0 ||
      (decide (1 ≤ f R.CAN.AB.TMO) && (List.range (min 8 (f R.CAN.AB.NCAND))).all cand))) pg 0x1105 ++
    ruleOn (decide (1 ≤ f R.CAN.RETRY.ALONETH) && decide (f R.CAN.MODE.NOMATCH ≤ 2)) pg 0x1106 ++
    ruleOn (decide (f R.WAKE.CFG.WMODE ≤ 2) && (f R.WAKE.CFG.WMODE ≠ 2 ||
      ((f R.WAKE.ID.IDE = 1 || decide (f R.WAKE.ID.ID ≤ 0x7FF)) && decide (f R.WAKE.DLC.DLC ≤ 8)))) pg 0x1107 ++
    ruleOn (els.all fun e => f (R.FE.ACT.FMTS e) ≠ 0 &&
      (f (R.FE.ACT.VCEN e) = 0 || (f (R.FE.ACT.EARLY e) = 0 && f (R.FE.ACT.FMTS e) = 4))) pg 0x1108

/-- Rules 0x1201 to 0x1205. -/
def State.rulesNet (s : State) (sc : List Nat) : List (Nat × Nat) :=
  ((List.range 6).filter fun l => sc.contains (linPg l)).flatMap (fun l =>
    let pg := linPg l
    let n := s.fld pg R.LIN.SCHN.N
    let a := 4 * s.fld pg R.LIN.SCHED.ADDR
    ruleOn (within 1000 20000 (s.fld pg R.LIN.CFG.BR) && inSram (16 * s.fld pg R.LIN.FTAB.ADDR) 1024 &&
      (n = 0 || (inSram a (4 * n) && (List.range n).all fun i => decide (1 ≤ bits (s.sramWord (a + 4 * i)) 15 0))) &&
      within 250 5000 (s.fld pg R.LIN.WAKE.US)) pg 0x1201) ++
    ((List.range 4).filter fun p => sc.contains (ethPg p)).flatMap (fun p =>
      let pg := ethPg p
      let r := s.fld pg R.ETH.CFG.LROLE
      let nc := s.fld pg R.ETH.PLCA.NCNT
      ruleOn ((r = 0 || (r = 1 && decide (p < 2)) || (r = 2 && p = 2)) &&
        (!s.bit pg R.ETH.PLCA.EN || (within 1 32 nc && decide (s.fld pg R.ETH.PLCA.ID < nc) &&
          decide (20 ≤ s.fld pg R.ETH.PLCA.TO)))) pg 0x1202) ++
    (if sc.contains eswPg then
      let vs := (List.range 16).filter fun v => s.fld eswPg (R.ESW.VLAN.VALID v) = 1
      let vid := fun v => s.fld eswPg (R.ESW.VLAN.VID v)
      ruleOn (((List.range 5).all fun n => within 1 4094 (s.fld eswPg (R.ESW.PORT.PVID n))) &&
        vs.all fun v => within 1 4094 (vid v) && vs.all fun w => w = v || vid w ≠ vid v) eswPg 0x1203
    else []) ++
    (if sc.contains 0x225 then
      let ring := fun (b n z : Fld) =>
        let nr := s.fld 0x225 n
        nr = 0 || (inSram (32 * s.fld 0x225 b) (nr * s.fld 0x225 z * 64) && within 2 1024 nr && decide (25 ≤ s.fld 0x225 z))
      ruleOn (ring R.EHP.RXBASE.ADDR R.EHP.RXCFG.NREC R.EHP.RXCFG.SZ && ring R.EHP.TXBASE.ADDR R.EHP.TXCFG.NREC R.EHP.TXCFG.SZ)
        0x225 0x1204
    else []) ++
    if sc.contains linkPg then
      let bg := s.fld linkPg R.LINK.BUDGET.TICKS
      let si := s.sfld linkPg R.LINK.CFG.SYNCI
      ruleOn (within 1 100 (s.fld linkPg R.LINK.CFG.TOPOI) && decide (-5 ≤ si) && decide (si ≤ 0) &&
        (bg = 0 || decide (80 ≤ bg)) && decide (1 ≤ s.fld linkPg R.LINK.CFG.FHLIM)) linkPg 0x1205
    else []

/-- Rules 0x1301 to 0x1305. -/
def State.rulesNm (s : State) (sc : List Nat) : List (Nat × Nat) :=
  if !sc.contains nmPg then []
  else
    let f := s.fld nmPg
    let id := f R.NM.CFG.NMID
    ruleOn (id % 64 = 0 && decide (id + 63 ≤ 0x7FF)) nmPg 0x1301 ++
      ruleOn (decide (10 ≤ f R.NM.TIME1.KAPER) && decide (2 * f R.NM.TIME1.KAPER ≤ f R.NM.TIME1.RSTIME) &&
        decide (f R.NM.TIME1.RSTIME ≤ f R.NM.TIME2.SILENT)) nmPg 0x1302 ++
      ruleOn (within 10 10000 (f R.NM.TIME2.WWIN) && decide (f R.NM.MAXAW.S ≤ 86400)) nmPg 0x1303 ++
      ruleOn (f R.NM.CFG.FWESC = 0 || within 1 15 (f R.NM.FWTH.TH)) nmPg 0x1304 ++
      ruleOn (f R.NM.CFG.MASTER = 0 || (List.range 6).all fun l =>
        !(f R.NM.SBUS.LIN).testBit l || s.fld (linPg l) R.LIN.CFG.MASTER = 1) nmPg 0x1305

/-! ## The cipher engine (R450) -/

/-- Rules 0x1401 to 0x1403. -/
def State.rulesCry (s : State) (sc : List Nat) : List (Nat × Nat) :=
  ((List.range 256).filter fun c => sc.contains (0x244 + c / 32)).flatMap (fun c =>
    let pg := 0x244 + c / 32
    let perm := s.cxFld c R.CX.CFG.PERM
    let blank := (List.range 8).all fun j => s.fld pg (R.CX.LABEL.L (c % 32) j) = 0
    ruleOn (s.cxFld c R.CX.CFG.EN = 0 ||
      (decide (s.cxFld c R.CX.CFG.NONCE ≤ 2) && perm ≠ 0 && perm % 2 = 0 && !blank)) pg 0x1401 ++
      ruleOn (s.cxFld c R.CX.CFG.SEGREL = 0 || perm.testBit 7 || perm.testBit 9) pg 0x1402) ++
    if sc.contains crPg then
      (List.range 4).flatMap fun q =>
        let n := s.fld crPg (R.Q.CFG.NREC q)
        ruleOn (n = 0 || (within 2 1024 n && inSram (32 * s.fld crPg (R.Q.BASE.ADDR q)) (32 * n))) crPg 0x1403
    else []

/-! ## All rules -/

/-- Every failed instance of every rule of a scope: `s` gives the live values, `img` the post-fix image (R82).
(DESIGN CHOICE: log entry 64.) -/
def State.failures (s img : State) (sc : List Nat) : List (Nat × Nat) :=
  s.rulesModel sc ++ img.rulesClk sc ++ img.rulesHs sc ++ img.rulesBank sc ++ img.rulesBridge sc ++ img.rulesValve sc ++
    img.rulesLed sc ++ img.rulesIn sc ++ img.rulesRx sc ++ img.rulesLcm sc ++ img.rulesMem sc ++ img.rulesFault sc ++
    ((List.range 8).filter fun c => sc.contains (canPg c)).flatMap img.rulesCan ++ img.rulesNet sc ++ img.rulesNm sc ++
    img.rulesCry sc ++ img.rulesRst sc

/-- The first failure in ascending order of page number and then of rule (R82). (DESIGN CHOICE: log entry 64.) -/
def firstFailure (l : List (Nat × Nat)) : Nat × Nat :=
  match l with
  | [] => (0, 0)
  | e :: es => es.foldl (fun a b => if b.1 < a.1 ∨ (b.1 = a.1 ∧ b.2 < a.2) then b else a) e

end Sys2Proof.Machine
end

