-- ==== Sys2Proof/Machine/Fix.lean ====
section
/-! DEFINITION. The sketch-and-fix commit (R72-R89): CHECK, FIX and ABORT on a scope, what each block does when a fix applies,
and fixes across linked devices. -/

namespace Sys2Proof.Machine

/-- FIX.SCOPE entries in use. -/
def State.scopeEntries (s : State) : List Nat := List.range (min (s.fld fixPg R.FIX.NSCOPE.N) 64)

/-- The scope as the FIX registers name it (R75): allocated pages, subtrees expanded but for the FIX page, duplicates merged.
(DEDUCED: log entry 21.) -/
def State.scopeNow (s : State) : List Nat :=
  ((s.scopeEntries.flatMap fun i =>
    let p := s.fld fixPg (R.FIX.SCOPE.PAGE i)
    if s.bit fixPg (R.FIX.SCOPE.SUB i) then (subtree p).filter (· ≠ fixPg) else [p]).filter fun p => (kindOf p).isSome).eraseDups

/-- The RS bits at a register. -/
def rsMask (key : Nat) : Word := accMask .rs (key / 0x1000) (key % 0x1000)

/-- Copy the sketches of some pages into their live registers (R79). -/
def State.applySketch (s : State) (pages : List Nat) : State :=
  (s.sketch.filter fun (e : Nat × Option Word) => pages.contains (e.1 / 0x1000)).foldl (fun (t : State) e =>
    match e.2 with
    | some w =>
      let m := rsMask e.1
      let pg := e.1 / 0x1000
      let off := e.1 % 0x1000
      t.setReg pg off ((t.reg pg off &&& ~~~ m) ||| (w &&& m))
    | none => t) s

/-- The sketches of a page equal its live values; DIRTY, CONFLICT and OWNER clear (R73). -/
def State.discardSketch (s : State) (pg : Nat) : State := (s.dropSketch pg).setReg pg 0x058 0

/-- The post-fix image of a scope (R82). -/
def State.postFix (s : State) (scope : List Nat) : State := s.applySketch scope

/-- A page is in the scope of a CHECKED or ARMED fix: PG_SKSTAT.INSCOPE. (DEDUCED: log entry 21.) -/
def State.inScope (s : State) (pg : Nat) : Bool := decide (2 ≤ s.fixSt) && s.fixScope.contains pg

/-- A page is in the scope of an ARMED fix: PG_SKSTAT.FROZEN. -/
def State.frozenPg (s : State) (pg : Nat) : Bool := decide (s.fixSt = 3) && s.fixScope.contains pg

/-- The FIX page takes commands: its island runs and it is not locked; the write is refused where it is locked (R61). -/
def State.fixCmd (s : State) (f : State → State) : State :=
  if !s.clocked (s.islandOf fixPg) then s else if s.locked fixPg then s.refuse fixPg else f s

/-! ## CHECK -/

/-- CHECK (R76): from IDLE or CHECKED; the scope is taken. -/
def State.checkStart (s : State) : State :=
  if s.fixSt = 1 ∨ s.fixSt = 3 then s.refuse fixPg
  else ({ s.ok fixPg with fixScope := s.scopeNow, fixStale := false } : State).setFld fixPg R.FIX.STATE.ST 1

/-- FIX.STATE.RULE and FIX.FAILPG report the failures found (R82). (DESIGN CHOICE: log entry 64.) -/
def State.reportFailures (s : State) (l : List (Nat × Nat)) : State :=
  let e := firstFailure l
  ((s.setFld fixPg R.FIX.STATE.RULE e.2).setFld fixPg R.FIX.FAILPG.NFAIL (min 0xFFF l.length)).setFld fixPg R.FIX.FAILPG.PAGE e.1

/-- The registers of the FIX page but FIX.TIME, as the evaluation has read them (R76). (DEDUCED: log entry 21.) -/
def State.fixRead (s : State) : State :=
  { s with
    fixMode := (s.reg fixPg R.FIX.MODE.NOW.off).toNat
    fixTag := s.fld fixPg R.FIX.TAG.TAG
    fixBlead := s.fld fixPg R.FIX.BLEAD.TICKS
    fixBexp := s.fld fixPg R.FIX.BEXP.N }

/-- A field of FIX.MODE as read at CHECK. -/
def State.fixModeBit (s : State) (f : Fld) : Bool := s.fixMode.testBit f.lo

/-- The evaluation ends (R76, R80, R82): STALE whatever it found where the scope was touched; event 6.
(DESIGN CHOICE: log entry 68.) -/
def State.checkEnd (s : State) : State :=
  if s.fixSt ≠ 1 then s
  else if s.fixStale then ({ s.fixGo 0 4 with fixStale := false } : State).post 6
  else
    let l := s.failures (s.postFix s.fixScope) s.fixScope
    ((s.fixRead.reportFailures l).fixGo (if l = [] then 2 else 0) (if l = [] then 1 else 3)).post 6

/-- CHECK (R76). (DEDUCED: log entry 21.) -/
def execCheck (s : State) : Outcome := .next (s.fixCmd State.checkStart)

/-- CHECK_COMPLETE (R81, R82). -/
def execCheckComplete (s : State) : Outcome := if s.clocked .io then .next s.checkEnd else .next s

/-! ## FIX and ABORT -/

/-- A fix is armed for a tick (R78, R86): the broadcast leaves at once. -/
def State.fixArm (s : State) (t : Nat) (bcast joined : Bool) : State :=
  let s : State := { s with
    fixTime := t, fixBcast := bcast || joined, fixCopied := false, fixReset := none, fixResetPgs := [], fixSeen := []
    fixInit := if bcast then some s.fixTag else none }
  let s := (s.setBit fixPg R.FIX.STATE.BMISS false).setReg fixPg R.FIX.BACK.ACK.off 0
  let s := s.setFld fixPg R.FIX.STATE.ST 3
  if bcast then s.farFlood 4 (.fixb s.fixTag t) else s

/-- The minimum lead of a fix (R78, R86). -/
def State.minLead (s : State) : Nat :=
  if s.fixModeBit R.FIX.MODE.BCAST then max s.fixBlead (fixLead s.fixScope) else fixLead s.fixScope

/-- The FIX command (R76, R78, R85, R86). (DEDUCED: log entry 21.) -/
def State.fixCommand (s : State) : State :=
  if s.fixSt ≠ 2 ∨ s.fixModeBit R.FIX.MODE.JOIN then s.refuse fixPg
  else
    let s := s.ok fixPg
    let bcast := s.fixModeBit R.FIX.MODE.BCAST
    let t := s.fld64 fixPg R.FIX.TIME_LO.T R.FIX.TIME_HI.T
    if s.fixModeBit R.FIX.MODE.NOW then s.fixArm (s.tb + s.minLead) bcast false
    else if t < s.tb then s.fixGo 2 5
    else if t < s.tb + s.minLead then s.fixGo 2 6
    else s.fixArm t bcast false

/-- FIX (R78). -/
def execFix (s : State) : Outcome := .next (s.fixCmd State.fixCommand)

/-- ABORT (R73, R76, R84, R87): the sketches of the scope are discarded; refused from the commit point on and for a broadcast.
Event 7 is not posted: the rule that posts it for a withdrawn fix names R80 and R84 only. (DESIGN CHOICE: log entry 68.) -/
def State.fixAbort (s : State) : State :=
  if s.fixSt = 3 ∧ (s.fixBcast ∨ s.fixTime ≤ s.tb + fixLead s.fixScope ∨ s.fixCopied) then s.refuse fixPg
  else
    let pages := if s.fixSt = 0 then s.scopeNow else s.fixScope
    ({ pages.foldl State.discardSketch (s.ok fixPg) with fixStale := false } : State).fixGo 0 7

/-- ABORT (R76). -/
def execAbort (s : State) : Outcome := .next (s.fixCmd State.fixAbort)

/-! ## The fix applies -/

/-- The fill of a channel's thermal state in its unit (R136). -/
def State.hsFill (s : State) (n : Nat) : Rat :=
  let i := s.hsIcont n
  if i = 0 then 0 else (s.hsAt n).x / ((i * i : Nat) : Rat)

/-- A unit of channels newly formed by a fix (R122, R126, R136): its thermal state, its leader's activation, the windows of the
others; a channel that leaves a gang starts over with its own command. (DEDUCED: log entry 33.) -/
def State.unitFormed (s o : State) (ms : List Nat) : State :=
  let l := ms.headD 0
  let x := (ms.map o.hsFill).foldl max 0 * ((s.hsIcont l * s.hsIcont l : Nat) : Rat)
  let alone := ms = [l]
  let ol := o.hsLead l
  let lat := ms.any fun m => (o.hsAt m).latch
  ms.foldl (fun (t : State) m =>
    let h := t.hsAt m
    let g := if alone then {} else (o.hsAt ol).gen
    let t := t.setHs m { h with
      x := x, gen := g, govCl := if alone then none else (o.hsAt ol).govCl, latch := lat
      act := if alone ∨ m ≠ l then none else (o.hsAt ol).act
      bpSeen := (o.hsAt ol).bpSeen
      cmd := if alone then .off else if m = l then (o.hsAt l).cmd else h.cmd }
    if m = l then t
    else
      let t := (t.setHs m { t.hsAt m with retryEnd := none }).setBit (hsPg m) R.HS.STAT.RETRY false
      t.winClose m 3) s

/-- A fix of a bank folder regroups its channels (R126). (DEDUCED: log entry 33.) -/
def State.gangFix (s o : State) (b : Nat) : State :=
  let ch := List.range' (8 * b) 8
  let leads := ch.filter fun n => s.hsLead n = n && s.hsUnit n ≠ o.hsUnit n
  leads.foldl (fun (t : State) n => t.unitFormed o (t.hsUnit n)) s

/-- BEN at a fix (R186): from OFF to CHARGE, and from any state to OFF. -/
def State.boostFix (s : State) : State :=
  if !s.bit vsPg R.BOOST.CFG.BEN then s.setBoost 0
  else if s.fld vsPg R.BOOST.STAT.ST = 0 then s.boostCharge
  else s

/-- What a block does when a fix applies to one of its pages; `o` is the state before (R79). The outputs are settled after. -/
def State.fixHook (s o : State) (pg : Nat) : State :=
  match kindOf pg with
  | some .clk => s.clkFix o
  | some .bank => s.gangFix o (pg - 0x0F0)
  | some .bridge => s.brFix o
  | some .vl => s.vlFix o (pg - 0x160)
  | some .boost => s.boostFix
  | some .mx => s.scanFix
  | some .pxc => s.pxFix o
  | some .amb => s.ambFix (pg - 0x174) (o.bit pg R.AMB.LOOP.CL)
  | some .si => s.siRefresh (pg - 0x180)
  | some .io => s.ioFix (pg - 0x1A0) (o.ioMode (pg - 0x1A0))
  | some .cw => s.clauseFix o pg fun c =>
      cwPg c = pg && o.sketch.any fun (e : Nat × Option Word) => e.1 / 0x1000 = pg && (e.1 % 0x1000 - 0x100) / 0x20 = c % 32
  | some .rxl => s.rxlFix o
  | some .can => s.canFix (pg - 0x200) o
  | some .nm => s.nmRefresh
  | some .eth => s.linkFix
  | some .link => s.linkFix
  | some .cx => ((List.range 32).map (32 * (pg - 0x244) + ·)).foldl (fun (t : State) c =>
      if [0x100, 0x104, 0x108, 0x10C, 0x110, 0x114, 0x118, 0x11C, 0x120, 0x124, 0x128, 0x12C].any fun a =>
          (tget (fun _ => none) o.sketch (regKey pg (a + 0x30 * (c % 32)))).isSome
      then t.cxFix o c else t) s
  | some .faultCfg => { s with flt := { s.flt with bad := s.flt.bad.filter fun w =>
      !(w / 64 = pg - 0x011 && (tget (fun _ => none) o.sketch (regKey pg (0x100 + 4 * (w % 64)))).isSome) } }
  | some .fault0 => { s with flt := { s.flt with bad := s.flt.bad.filter fun w =>
      !(w = 256 && (tget (fun _ => none) o.sketch (regKey pg R.FLT.CFG.AKHZ.off)).isSome) } }
  | _ => s

/-- The pages of the scope that copy at the fix time: not reset since the commit point, with a running clock (R84). -/
def State.fixPages (s : State) : List Nat :=
  s.fixScope.filter fun p => !s.fixResetPgs.contains p && s.clocked (s.islandOf p)

/-- The fix time (R79, R84, R86): every page of the scope copies; the blocks take what changed.
(DESIGN CHOICE: log entry 68.) -/
def State.fixCopy (s : State) : State :=
  let pages := s.fixPages
  let dead := s.fixScope.filter fun p => !s.clocked (s.islandOf p)
  let worst := match s.fixReset, dead with
    | some p, ds => some (ds.foldl min p)
    | none, d :: ds => some (ds.foldl min d)
    | none, [] => none
  let t := s.applySketch pages
  let t := pages.foldl (fun (u : State) p => u.fixHook s p) t
  let t := pages.foldl State.discardSketch t
  let t := (List.range 2).foldl State.sideUpdate (pages.foldl State.sourceSeen t).settleAll
  let t := t.compWritten fun pg off => pages.contains pg && (tget (fun _ => none) s.sketch (regKey pg off)).isSome
  let t := if pages.any hsLimPg then t.hsLimMark s else t
  let miss := s.fixBcast && !s.fixModeBit R.FIX.MODE.JOIN && decide (s.fld fixPg R.FIX.BACK.ACK < s.fixBexp)
  let t := if miss then (t.setBit fixPg R.FIX.STATE.BMISS true).fixWarn else t
  { t with fixCopied := true, fixReset := worst }

/-- FIX_APPLY (R79): the fix time is reached. (DESIGN CHOICE: log entry 2; DEDUCED: log entry 21.) -/
def execFixApply (s : State) : Outcome :=
  if s.fixSt = 3 ∧ !s.fixCopied ∧ s.clocked .io then s.atTick s.fixTime State.fixCopy else .next s

/-- FIX_COMPLETE (R80, R84): the reports have arrived; event 7. FAILPG.PAGE names the lowest of the pages that did not apply,
those reset after the commit point among them. (DESIGN CHOICE: log entry 68.) -/
def State.fixDone (s : State) : State :=
  let s := s.setFld64 fixPg R.FIX.APPLIED_LO.T R.FIX.APPLIED_HI.T s.fixTime
  let s : State := { s with fixCopied := false, fixBcast := false }
  match s.fixReset with
  | none => (s.fixGo 0 2).post 7
  | some p => ((({ s with fixReset := none, fixResetPgs := [] } : State).fixGo 0 8).setFld fixPg R.FIX.FAILPG.PAGE p).fixWarn.post 7

/-- FIX_COMPLETE (R80). -/
def execFixComplete (s : State) : Outcome :=
  if s.fixSt = 3 ∧ s.fixCopied ∧ s.clocked .io then .next s.fixDone else .next s

/-! ## Linked devices -/

/-- FIXB_RECEIVED (R85, R414): a device with JOIN = 1 and the tag arms, is late, or answers not ready; any other answers
nothing. -/
def State.fixbTake (s : State) (tag t : Nat) : State :=
  if !s.bit fixPg R.FIX.MODE.JOIN ∨ (if s.fixSt = 2 then s.fixTag else s.fld fixPg R.FIX.TAG.TAG) ≠ tag then s
  else if s.fixSt ≠ 2 then s.farFlood 5 (.fixa tag 2)
  else if s.tb + fixLead s.fixScope ≤ t then (s.fixArm t false true).farFlood 5 (.fixa tag 0)
  else ((s.fixGo 2 9).fixWarn).farFlood 5 (.fixa tag 1)

/-- FIXB_RECEIVED (R85). (DEDUCED: log entry 25.) -/
def execFixbReceived (tag : BitVec 16) (t : BitVec 64) (s : State) : Outcome :=
  if s.clocked .io ∧ s.clocked .net then .next (s.fixbTake tag.toNat t.toNat) else .next s

/-- FIXA_RECEIVED (R86, R414): the initiator counts each participant once, one that answers after the
fix time too (R88). (DEDUCED: log entry 25.) -/
def execFixaReceived (tag : BitVec 16) (id : BitVec 32) (armed : Bool) (s : State) : Outcome :=
  if s.fixInit ≠ some tag.toNat ∨ s.fixSeen.contains id.toNat ∨
      !s.clocked .io ∨ !s.clocked .net then .next s
  else
    let s : State := { s with fixSeen := s.fixSeen ++ [id.toNat] }
    let f := if armed then R.FIX.BACK.ACK else R.FIX.BACK.NACK
    .next (s.setFld fixPg f (min 0xFFFF (s.fld fixPg f + 1)))

end Sys2Proof.Machine
end

