-- ==== Sys2Proof/Machine/Access.lean ====
section
/-! DEFINITION. Reads and writes of register pages (R7-R12, R54-R73): the header and common block, sketches, what a write of
each register does, and what each register reads as. -/

namespace Sys2Proof.Machine

/-- The state that a meaning goes on in; a stop leaves the state as it is. -/
def Outcome.orElse (o : Outcome) (s : State) : State :=
  match o with
  | .next t => t
  | _ => s

/-- The link-folder page. -/
def lfPg : Nat := 0xF00

/-- PG_SKSTAT.OWNER of a writer (the PG_SKSTAT field table). -/
def writerCode : Writer → Nat
  | .ctx lc i => 32 * lc.val + i.val
  | .remote => 0x200
  | .debugger => 0x3FF

/-! ## The header and the common block as they read -/

/-- PG_CAPS of a page (R57 and the chapters): SKETCH where it has an RS field. -/
def pgCaps (pg : Nat) : Nat :=
  match pageRun pg with
  | none => 0
  | some r =>
    (if r.lockable then 0x10 else 0) + (if r.counters then 4 else 0) +
      (if (rowsOf r.kind).any (·.acc = .rs) then 2 else 0) + (if r.folder then 1 else 0)

/-- The children of a folder page; the link folder's is the remote ROOT while the window is open (R63, R64, R68).
(DESIGN CHOICE: log entry 68.) -/
def State.children (s : State) (pg : Nat) : List Word :=
  if pg = lfPg then (if s.fld lfPg R.LF.HOPLEN.LEN = 0 ∨ !s.bit lfPg R.LF.STAT.OPEN then [] else [0xC0000000])
  else (childList pg).map fun p => 0x80000000 ||| BitVec.ofNat 32 p

/-- A register of the page header (R54, R57, R71). -/
def State.headerWord (s : State) (pg off : Nat) : Word :=
  match pageRun pg with
  | none => 0
  | some r =>
    BitVec.ofNat 32 (if off = 0x000 then r.typ * 0x10000 + typeInst pg
      else if off = 0x004 then 0x0100
      else if off = 0x008 then pgCaps pg
      else if off = 0x00C then parentOf pg
      else if off = 0x010 then (s.children pg).length
      else if off = 0x014 then r.livesz
      else 0)

/-- A page whose EN reads 1 and ignores writes: the core pages and the LCM. -/
def enFixed (pg : Nat) : Bool := brstRefused pg

/-- A register of the common block. -/
def State.commonWord (s : State) (pg off : Nat) : Word :=
  let w := s.reg pg off
  if off = 0x040 then (if enFixed pg then 1 else w &&& 1)
  else if off = 0x054 then w &&& 3
  else if off = 0x058 then
    (w &&& 0x3FF03) ||| (if s.frozenPg pg then 8 else 0) ||| (if s.inScope pg then 4 else 0)
  else if off = 0x044 ∨ off = 0x048 ∨ off = 0x04C ∨ off = 0x050 then w
  else 0

/-! ## What the live registers read as -/

/-- A mask over eight channels of a bank. -/
def mask8 (p : Nat → Bool) : Nat := ((List.range 8).filter p).foldl (fun m k => m + 2 ^ k) 0

/-- HS.STAT and HS.SENSE (the HS page table, R109, R143). -/
def State.hsView (s : State) (n off : Nat) : Word :=
  let w := s.reg (hsPg n) off
  if off = R.HS.STAT.GATE.off then
    let t := match s.hsElapsed n with | some k => min 0xFFFF (k / 10000) | none => 0
    R.HS.STAT.ENVT.put (R.HS.STAT.INRUSH.put (R.HS.STAT.GANGED.put w (if s.gid n = 0 then 0 else 1))
      (if s.hsInrush n then 1 else 0)) t
  else if off = R.HS.SENSE.CODE.off then
    (if s.hsRail n then BitVec.ofNat 32 faultRail else if s.enabled (hsPg n) then w else 0)
  else w

/-- BANK.STAT (the bank folder table). -/
def State.bankView (s : State) (b off : Nat) : Word :=
  if off = R.BANK.STAT.GATE.off then
    let m := fun (p : Nat → Bool) => mask8 fun k => p (8 * b + k)
    R.BANK.STAT.INRUSH.put (R.BANK.STAT.LATCH.put (R.BANK.STAT.GATE.put 0 (m fun n => s.bit (hsPg n) R.HS.STAT.GATE))
      (m fun n => (s.hsAt n).latch)) (m fun n => s.hsInrush n)
  else s.reg (0x0F0 + b) off

/-- The 64 filtered input states from input `a` on, as a word. -/
def State.siWord (s : State) (a : Nat) : Word :=
  BitVec.ofNat 32 (((List.range 32).filter fun i => s.siSt (a + i)).foldl (fun m i => m + 2 ^ i) 0)

/-- A live register as it reads; reading TB.NOW_LO takes the shadow (R91), and a measurement of a supply is what the spec leaves
open (R452), from the first one after a power-on reset (R13). (DEDUCED: log entry 65.) -/
def State.liveView (s : State) (pg off : Nat) : State × Word :=
  let w := s.reg pg off
  let plain := fun (v : Word) => (s, v)
  match kindOf pg with
  | some .tb =>
    if off = R.TB.NOW_LO.T.off then (s.setReg pg R.TB.NOW_HI.T.off (BitVec.ofNat 32 (s.tb / 2 ^ 32)), BitVec.ofNat 32 s.tb) else plain w
  | some .pmu =>
    if !s.pwr.measured then plain w
    else if off = R.PMU.VBAT.V.off then (s.nextFree, R.PMU.VBAT.V.put w (Config.freeWord s.freeCtr).toNat)
    else if off = R.PMU.SUP.VLOG.off then (s.nextFree, R.PMU.SUP.VLOG.put w (Config.freeWord s.freeCtr).toNat)
    else if off = R.PMU.RTC_LO.T.off then plain (BitVec.ofNat 32 s.rtcNow)
    else if off = R.PMU.RTC_HI.T.off then plain (BitVec.ofNat 32 (s.rtcNow / 2 ^ 32))
    else plain w
  | some .rst =>
    if off = R.RST.HSTAT.RUN.off then
      plain (R.RST.HSTAT.REM.put w (if s.holdRun then ((s.pwr.holdEnd - s.kaNow + 99999) / 100000).toNat else 0)) else plain w
  | some .hs => plain (s.hsView (pg - 0x100) off)
  | some .bank => plain (s.bankView (pg - 0x0F0) off)
  | some .leg =>
    plain (if off = R.HB.STAT.HSON.off then s.legView (pg - 0x140) w
      else if off = R.HB.SENSE.CODE.off ∧ s.legRail (pg - 0x140) then BitVec.ofNat 32 faultRail else w)
  | some .bridge =>
    plain (if 0x43C ≤ off ∧ off % 0x40 = 0x3C ∧ off < 0x780 then s.brStatView ((off - 0x400) / 0x40) w else w)
  | some .vl => plain (if off = R.VL.SENSE.CODE.off ∧ s.vlRail (pg - 0x160) then BitVec.ofNat 32 faultRail else w)
  | some .boost =>
    if off = R.VSIDE.SENSE.CODEA.off then
      let v := if s.sideRail 0 then R.VSIDE.SENSE.CODEA.put w faultRail else w
      plain (if s.sideRail 1 then R.VSIDE.SENSE.CODEB.put v faultRail else v)
    else plain w
  | some .sif =>
    plain (if off = R.SIF.ST_LO.ST.off then s.siWord 0 else if off = R.SIF.ST_HI.ST.off then s.siWord 32 else w)
  | some .iso =>
    plain (if off = R.ISO.IN.ST.off then
      BitVec.ofNat 32 (((List.range 16).filter fun n => s.bit (ioPg n) R.IO.STAT.ST).foldl (fun m n => m + 2 ^ n) 0) else w)
  | some .rxc =>
    if off = R.RXC.STAT.RUN.off then plain s.rxcStat
    else if (R.RXC.ACT.ACT 0).off ≤ off ∧ off < (R.RXC.ACT.ACT 16).off then
      plain (s.clMask ((off - (R.RXC.ACT.ACT 0).off) / 4) (·.active))
    else if (R.RXC.BRK.BRK 0).off ≤ off ∧ off < (R.RXC.BRK.BRK 16).off then
      plain (s.clMask ((off - (R.RXC.BRK.BRK 0).off) / 4) (·.broken))
    else plain w
  | some .cw =>
    if off % 0x20 = (R.CL.STAT.ACTIVE 0).off % 0x20 then plain (s.clStat (32 * (pg - 0x041) + (off - 0x100) / 0x20)) else plain w
  | some .rxo => if off < 0x118 + 0x100 then plain (s.rxoOwn ((off - 0x100) / 4)) else plain w
  | some .can =>
    plain (if off = R.CAN.STAT.SAFE.off then R.CAN.STAT.SAFE.put w (if s.safe then 1 else 0)
      else if off = (R.TXS.ADDR.ADDR 15).off ∧ s.nmSlot (pg - 0x200) 15 then 0 else w)
  | some .core => plain (s.coreView (pg - 0x020) off)
  | some .lcm => plain (s.lcmView off)
  | some .memr => plain (s.memrView off)
  | some .flc => plain (if off = R.FL.STAT.ERCNT.off then R.FL.STAT.ERCNT.put w s.ercnt else w)
  | some .fault0 => plain (s.fltView pg off)
  | some .faultLog => plain (s.fltView pg off)
  | some .cr => plain (s.cryView pg off)
  | some .hb => plain (s.cryView pg off)
  | some .cx => plain (s.cryView pg off)
  | some .upd => plain (s.updView off)
  | some .cal => plain (s.calView off)
  | _ => plain w

/-- A live register or its sketch address as it reads: RS bits show the sketch, WO bits 0 (R12, R55); child entries (R63).
(DEDUCED: log entry 65.) -/
def State.readLive (s : State) (pg off : Nat) : State × Word :=
  let kids := s.children pg
  if off < 0x100 + 4 * kids.length then (s, kids.getD ((off - 0x100) / 4) 0)
  else if rowsAt pg off = [] then (s, 0)
  else
    let r := s.liveView pg off
    let rs := accMask .rs pg off
    (r.1, (r.2 &&& ~~~ (rs ||| accMask .wo pg off)) ||| (s.sketchWord pg off &&& rs))

/-- A read of a register page of this device (R8-R12, R54, R55): 0 from an unallocated page. -/
def State.readReg (s : State) (pg off : Nat) : State × Word :=
  if (kindOf pg).isNone ∨ off % 4 ≠ 0 then (s, 0)
  else if off < 0x040 then (s, s.headerWord pg off)
  else if off < 0x100 then (s, s.commonWord pg off)
  else if off < 0x800 then s.readLive pg off
  else if off < 0x900 then (s, s.reg pg off)
  else s.readLive pg (off - 0x800)

/-! ## Sketches -/

/-- Stage the RS bits of a register (R12, R72): the first writer since the last fix owns the sketch. -/
def State.stage (s : State) (w : Writer) (pg off : Nat) (d : Word) : State :=
  let m := accMask .rs pg off
  let new := (s.sketchWord pg off &&& ~~~ m) ||| (d &&& m)
  let s : State := { s.fixTouched pg with sketch := tset (fun _ => none) s.sketch (regKey pg off) (some new) }
  if !s.bit pg R.PG_SKSTAT.DIRTY then (s.setBit pg R.PG_SKSTAT.DIRTY true).setFld pg R.PG_SKSTAT.OWNER (writerCode w)
  else if s.fld pg R.PG_SKSTAT.OWNER ≠ writerCode w then s.setBit pg R.PG_SKSTAT.CONFLICT true
  else s

/-- A factory entry of the load palette (R117). -/
def factoryPal (pg off : Nat) : Bool := pg = 0x130 && decide (0x100 ≤ off) && decide (off < 0x100 + 0x38 * 12)

/-- A write that stages RS fields, at the live offset `off` (R55, R61, R72, R76, R117). -/
def State.sketchWrite (s : State) (w : Writer) (pg off : Nat) (d : Word) : State :=
  if (kindOf pg).isNone ∨ !s.clocked (s.islandOf pg) ∨ off % 4 ≠ 0 ∨ off < 0x100 ∨ 0x800 ≤ off then s
  else if rowsAt pg off = [] ∧ 0x100 + 4 * (s.children pg).length ≤ off then s.ok pg
  else if s.locked pg then s.refuse pg
  else if factoryPal pg off then s.range pg
  else if accMask .rs pg off = 0 then s.ok pg
  else if s.frozenPg pg then s.refuse pg
  else (s.stage w pg off d).ok pg

/-- SKETCH_WRITE (R72). -/
def execSketchWrite (w : Writer) (pg off : BitVec 12) (d : Word) (s : State) : Outcome :=
  .next (s.sketchWrite w pg.toNat off.toNat d)

/-! ## Writes of the common block -/

/-- What PG_CTRL.EN does in the block of a page (the block chapters). (DEDUCED: log entry 41.) -/
def State.enableHook (s : State) (pg : Nat) : State :=
  match kindOf pg with
  | some .hs => s.hsSettle (pg - 0x100)
  | some .leg => s.brSettleLeg (pg - 0x140)
  | some .vl => s.vlSettle (pg - 0x160)
  | some .li2c => if s.enabled pg then s else s.i2cStop
  | some .si => s.siRefresh (pg - 0x180)
  | some .rxc => s.clEnable pg
  | some .cw => s.clEnable pg
  | some .rxl => s.rxlEnable
  | some .can => s.canEnable (pg - 0x200)
  | some .lin => s.linEnable (pg - 0x210)
  | some .eth => s.ethEnable (pg - 0x220)
  | some .nm => s.nmRefresh
  | some .cr => if s.enabled pg then s.jobsRetry else s
  | _ => s

/-- A write of PG_CTRL.EN. (DEDUCED: log entry 41.) -/
def State.setEn (s : State) (pg : Nat) (b : Bool) : State :=
  if enFixed pg ∨ s.enabled pg = b then s else ((s.setBit pg R.PG_CTRL.EN b).enableHook pg).sourceSeen pg

/-- Clear a page's event counters (R62). -/
def State.clearCounters (s : State) (pg : Nat) : State :=
  { s with regs := s.regs.filter fun (e : Nat × Word) =>
      !(e.1 / 0x1000 = pg && decide (0x800 ≤ e.1 % 0x1000) && decide (e.1 % 0x1000 < 0x900)) }

/-- CCLR (R61, R62). -/
def execCclr (pg : BitVec 12) (s : State) : Outcome :=
  let p := pg.toNat
  if (kindOf p).isNone ∨ !s.clocked (s.islandOf p) then .next s
  else if s.locked p then .next (s.refuse p)
  else .next ((s.clearCounters p).ok p)

/-- A write of PG_CTRL: a block reset leaves EN 0, and CCLR acts with either. (DEDUCED: log entry 22.) -/
def State.writeCtrl (s : State) (pg : Nat) (d : Word) : State :=
  if s.locked pg then s.refuse pg
  else
    let s := if d.getLsbD 1 then (execBrst (BitVec.ofNat 12 pg) s).orElse s else (s.setEn pg (d.getLsbD 0)).ok pg
    if d.getLsbD 2 ∧ s.fld pg R.PG_STAT.CODE = codeOK then s.clearCounters pg else s

/-- A write of PG_LOCK (R61). -/
def State.writeLock (s : State) (pg key : Nat) (tree lk : Bool) : State :=
  if s.locked pg then s.refuse pg
  else if !lk then s.ok pg
  else if key ≠ 0xC3 ∨ pgCaps pg / 16 = 0 then s.range pg
  else ((s.setBit pg R.PG_LOCK.LK true).setBit pg R.PG_LOCK.TREE tree).ok pg

/-- PG_LOCK_WRITE (R61). -/
def execPgLockWrite (pg : BitVec 12) (key : Byte) (tree lk : Bool) (s : State) : Outcome :=
  let p := pg.toNat
  if (kindOf p).isNone ∨ !s.clocked (s.islandOf p) then .next s else .next (s.writeLock p key.toNat tree lk)

/-- A write of a register of the common block. (DEDUCED: log entry 20.) -/
def State.writeCommon (s : State) (pg off : Nat) (d : Word) : State :=
  if off = 0x040 then s.writeCtrl pg d
  else if off = 0x044 ∨ off = 0x058 then s.range pg
  else if off = 0x048 then (s.setReg pg off (s.reg pg off &&& ~~~ d)).ok pg
  else if off = 0x04C ∨ off = 0x050 then (if s.locked pg then s.refuse pg else (s.setReg pg off d).ok pg)
  else if off = 0x054 then s.writeLock pg (bits d.toNat 15 8) (d.getLsbD 1) (d.getLsbD 0)
  else s.ok pg

/-! ## The link folder -/

/-- A place of the link-folder window (R65). -/
def isWindow (a : Nat) : Bool := decide (0x41000000 ≤ a) && decide (a ≤ 0x41FFFFFF)

/-- A window access issued before number `n` has not completed. -/
def State.windowBefore (s : State) (n : Nat) : Bool := s.ops.any fun o => isWindow o.addr && decide (o.id < n)

/-- A write of the path takes effect (R65, R67): OPEN clears, DEPTH shows the length in effect. -/
def State.lfEffect (s : State) (off : Nat) (d : Word) : State :=
  let s := s.setReg lfPg off (d &&& accMask .rw lfPg off)
  (s.setFld lfPg R.LF.STAT.DEPTH (s.fld lfPg R.LF.HOPLEN.LEN)).setBit lfPg R.LF.STAT.OPEN false

/-- LF.CTRL.EXT with the writes held. -/
def State.lfExt (s : State) : Bool :=
  match (s.lfHeld.filter fun (e : Nat × Word × Nat) => e.1 = R.LF.CTRL.EXT.off).getLast? with
  | some e => e.2.1.getLsbD 0
  | none => s.bit lfPg R.LF.CTRL.EXT

/-- A write of LF.HOPLEN, LF.CTRL, LF.HOPBASE or LF.HOPn (R65, R67): held behind the window accesses already issued.
(DEDUCED: log entry 20.) -/
def State.lfPut (s : State) (off : Nat) (d : Word) : State :=
  if off = R.LF.HOPLEN.LEN.off ∧ !s.lfExt ∧ 64 < bits d.toNat 15 0 then s.range lfPg
  else if s.lfHeld = [] ∧ !s.windowBefore s.opNext then (s.ok lfPg).lfEffect off d
  else { s.ok lfPg with lfHeld := s.lfHeld ++ [(off, d, s.opNext)] }

/-- The registers of R67. -/
def lfPath (off : Nat) : Bool := off = 0x400 || off = 0x404 || off = 0x408 || (decide (0x420 ≤ off) && decide (off < 0x440))

/-! ## Registers with an effect of their own -/

/-- The effect of a write of RST.CMD, PMU.CMD, UPD.CMD and the other command registers, and of the live registers whose write
does more than store; none for a register that only stores. -/
def State.ownWrite (s : State) (w : Writer) (pg off : Nat) (d : Word) : Option State :=
  let go := fun (o : Outcome) => some (o.orElse s)
  let op := fun (f : Fld) => f.get d
  match kindOf pg with
  | some .fix =>
    if off = R.FIX.CMD.OP.off then
      (match op R.FIX.CMD.OP with
        | 1 => go (execCheck s) | 2 => go (execFix s) | 3 => go (execAbort s) | _ => some (s.range pg))
    else none
  | some .tb =>
    if off = R.TB.SYNC.ROLE.off then
      (if op R.TB.SYNC.ROLE = 3 then some (s.range pg) else go (execSyncRoleWrite (BitVec.ofNat 2 (op R.TB.SYNC.ROLE)) s))
    else
      (List.range 8).findSome? fun n =>
        if off = (R.TBC.CTRL.ARM n).off then
          go (execTbcCtrlWrite (Fin.ofNat 8 n) (BitVec.ofNat 24 (op (R.TBC.CTRL.INTV n))) (op (R.TBC.CTRL.ARM n) = 1) s)
        else if (off = (R.TBC.LO.V n).off ∨ off = (R.TBC.HI.V n).off) ∧ s.bit pg (R.TBC.CTRL.ARM n) then some (s.refuse pg)
        else none
  | some .pmu =>
    if off = R.PMU.CMD.OP.off then
      (match op R.PMU.CMD.OP with | 1 => go (execDoze s) | 2 => go (execRun s) | _ => some (s.range pg))
    else none
  | some .rst =>
    if off = R.RST.CMD.OP.off then
      (match op R.RST.CMD.OP with
        | 1 => go (execChiprst (BitVec.ofNat 8 (op R.RST.CMD.KEY)) s) | 2 => go (execReclaimall s) | _ => some (s.range pg))
    else
      (List.range 3).findSome? fun j => if off = (R.RST.RECLAIM.R j).off then go (execReclaim (Fin.ofNat 3 j) d s) else none
  | some .fault0 =>
    if off = R.FLT.CMD.OP.off then
      let a := BitVec.ofNat 8 (op R.FLT.CMD.ARG)
      (match op R.FLT.CMD.OP with
        | 1 => go (execLeave s) | 2 => go (execArun s) | 3 => go (execEnter s)
        | 4 => go (execTkpair a s) | 5 => go (execTkcore a s) | 6 => go (execLogclr s) | _ => some (s.range pg))
    else
      (List.range 8).findSome? fun j => if off = (R.FLT.RAISED.R j).off then go (execRaisedClear (Fin.ofNat 8 j) d s) else none
  | some .lcm =>
    if R.LCM.CSEL.CTX.off ≤ off ∧ off ≤ R.LCM.EPEND.PEND.off ∧ (accMask .rw pg off ||| accMask .w1c pg off ||| accMask .wo pg off) ≠ 0 then
      some (s.lcmWrite off d)
    else none
  | some .memc =>
    if off = R.MEMC.CMD.OP.off then (if op R.MEMC.CMD.OP = 1 then go (execZero w s) else some (s.range pg)) else none
  | some .flc =>
    if off = R.FL.CMD.OP.off then
      (match op R.FL.CMD.OP with | 1 => go (execProg w s) | 2 => go (execErase w s) | _ => some (s.range pg))
    else none
  | some .rxc =>
    if off = R.RXC.CMD.OP.off then
      let c := Fin.ofNat 512 (op R.RXC.CMD.CLAUSE)
      (match op R.RXC.CMD.OP with | 1 => go (execRelease c s) | 2 => go (execFire c s) | _ => some (s.range pg))
    else none
  | some .hs =>
    let n := Fin.ofNat 48 (pg - 0x100)
    if off = R.HS.OUT.ON.off then go (execLiveOutputWrite w (.hs n) d s)
    else if off = R.HS.CMD.CLR.off then
      (if op R.HS.CMD.CLRR = 1 then go (execClrr n s) else if op R.HS.CMD.CLR = 1 then go (execHsClr n s) else some (s.ok pg))
    else if off = R.HS.WIN.KIND.off then
      let len := BitVec.ofNat 16 (op R.HS.WIN.LEN)
      (match op R.HS.WIN.KIND with
        | 0 => go (execWindowClose n len s) | 2 => go (execTestWindowOpen n len s) | _ => some (s.range pg))
    else none
  | some .bridge =>
    (List.range 14).findSome? fun k =>
      let b := Fin.ofNat 14 k
      if off = (R.BRIDGE.OUT.CMD k).off then
        let e := op (R.BRIDGE.OUT.TGTEN k) = 1
        (match op (R.BRIDGE.OUT.CMD k) with
          | 0 => go (execBridgeCoast b e s) | 1 => go (execBridgeBrake b e s) | 2 => go (execBridgeFwd b e s)
          | 3 => go (execBridgeRev b e s) | 4 => go (execBridgePark b e s) | _ => some (s.range pg))
      else if off = (R.BRIDGE.CMD.CLR k).off then (if op (R.BRIDGE.CMD.CLR k) = 1 then go (execBridgeClr b s) else some (s.ok pg))
      else if off = (R.BRIDGE.POS.POS k).off then go (execPosWrite b d s)
      else none
  | some .vl =>
    let n := Fin.ofNat 8 (pg - 0x160)
    if off = R.VL.OUT.ON.off then go (execLiveOutputWrite w (.vl n) d s)
    else if off = R.VL.CMD.CLR.off then
      (if op R.VL.CMD.CLR = 1 then
        let t := (execVlClr n s).orElse s
        some (if op R.VL.CMD.TRIG = 1 then (execTrig n t).orElse t else t)
      else if op R.VL.CMD.TRIG = 1 then go (execTrig n s) else some (s.ok pg))
    else none
  | some .boost =>
    if off = R.VSIDE.CMD.CLRA.off then
      let s1 := if op R.VSIDE.CMD.CLRA = 1 then (execClra s).orElse s else s.ok pg
      let s2 := if op R.VSIDE.CMD.CLRB = 1 then (execClrb s1).orElse s1 else s1
      some (if op R.VSIDE.CMD.BCLR = 1 then (execBclr s2).orElse s2 else s2)
    else none
  | some .mx =>
    if off = R.MX.OUT.RUN.off then go (execLiveOutputWrite w .mx d s)
    else if off = R.MX.CMD.CLR.off then (if op R.MX.CMD.CLR = 1 then go (execMxClr s) else some (s.ok pg))
    else none
  | some .pxc => if off = R.PXC.OUT.RUN.off then go (execLiveOutputWrite w .pxc d s) else none
  | some .cv =>
    if off = R.CV.SWAP.SRC.off then
      (if op R.CV.SWAP.CANCEL = 1 then go (execCancelSwap s) else go (execSwap (Fin.ofNat 4 (op R.CV.SWAP.SRC)) s))
    else none
  | some .amb =>
    let g := Fin.ofNat 4 (pg - 0x174)
    if off = R.AMB.OUT.ON.off then go (execLiveOutputWrite w (.amb g) d s)
    else if off = R.AMB.CMD.CLR.off then (if op R.AMB.CMD.CLR = 1 then go (execAmbClr g s) else some (s.ok pg))
    else none
  | some .io =>
    let n := Fin.ofNat 16 (pg - 0x1A0)
    if off = R.IO.OUT.ON.off then go (execLiveOutputWrite w (.io n) d s)
    else if off = R.IO.CMD.CLR.off then (if op R.IO.CMD.CLR = 1 then go (execIoClr n s) else some (s.ok pg))
    else none
  | some .can =>
    let c := Fin.ofNat 8 (pg - 0x200)
    if off = R.CAN.CMD.OP.off then
      (match op R.CAN.CMD.OP with
        | 1 => go (execCanGo c s) | 2 => go (execCanStop c s) | 3 => go (execAutobaud c s) | 4 => go (execRecover c s)
        | _ => some (s.range pg))
    else
      (List.range 16).findSome? fun t =>
        let i := Fin.ofNat 16 t
        if off = (R.TXS.CTRL.REQ t).off then
          (match op (R.TXS.CTRL.CANCEL t), op (R.TXS.CTRL.REQ t) with
            | 0, 0 => some (s.ok pg) | 0, _ => go (execReq c i s) | _, 0 => go (execCanCancel c i s) | _, _ => some (s.range pg))
        else if off = (R.TXS.ADDR.ADDR t).off ∧ s.nmSlot (pg - 0x200) t then some (s.refuse pg)
        else none
  | some .lin =>
    let l := Fin.ofNat 6 (pg - 0x210)
    if off = R.LIN.CMD.OP.off then
      (match op R.LIN.CMD.OP with
        | 1 => go (execLinGo l s) | 2 => go (execLinStop l s) | 3 => go (execLinSleep l s) | 4 => go (execLinWake l s)
        | _ => some (s.range pg))
    else none
  | some .nm =>
    if off = R.NM.VOTE.V.off then go (execVoteWrite (BitVec.ofNat 16 (op R.NM.VOTE.V)) s)
    else if off = R.NM.CMD.OP.off then (if op R.NM.CMD.OP = 1 then go (execNmCancel s) else some (s.range pg))
    else none
  | some .cr =>
    (List.range 4).findSome? fun q =>
      if off = (R.Q.IDX.PUT q).off then go (execJobSubmit w (Fin.ofNat 4 q) (BitVec.ofNat 10 (op (R.Q.IDX.PUT q))) s) else none
  | some .pk =>
    if off = R.PK.CMD.OP.off then
      (match op R.PK.CMD.OP with | 1 => go (execSha w s) | 2 => go (execVerifySignature w s) | _ => some (s.range pg))
    else none
  | some .upd =>
    if off = R.UPD.CMD.OP.off then
      (match op R.UPD.CMD.OP with
        | 1 => go (execUpdOpen none s) | 2 => go (execPiece none s) | 3 => go (execVerify none s) | 4 => go (execActivate none s)
        | 5 => go (execConfirm s) | 6 => go (execAbandon s) | _ => some (s.range pg))
    else none
  | some .lf => if lfPath off then some (s.lfPut off d) else none
  | _ => none

/-- A value lies in the range given for the RW fields of its register (R58 and the field tables). (DEDUCED: log entry 20.) -/
def State.inRange (s : State) (pg off : Nat) (d : Word) : Bool :=
  match kindOf pg with
  | some .fix => off ≠ R.FIX.NSCOPE.N.off || decide (R.FIX.NSCOPE.N.get d ≤ 64)
  | some .tb => off ≠ R.TB.HOLDTMO.S.off || (decide (1 ≤ R.TB.HOLDTMO.S.get d) && decide (R.TB.HOLDTMO.S.get d ≤ 3600))
  | some .sys => off ≠ R.SYS.ISEL.CH.off || decide (R.SYS.ISEL.CH.get d < 48)
  | some .memr => off ≠ R.MEMR.SEL.MACRO.off || decide (R.MEMR.SEL.MACRO.get d < 60)
  | some .can => [0, 1].all fun n =>
      off ≠ (R.RXF.IDX.GET n).off || decide ((R.RXF.IDX.GET n).get d < s.fld pg (R.RXF.CFG.NREC n))
  | some .ehp =>
    (off ≠ R.EHP.RXIDX.GET.off || decide (R.EHP.RXIDX.GET.get d < s.fld pg R.EHP.RXCFG.NREC)) &&
      (off ≠ R.EHP.TXIDX.PUT.off || decide (R.EHP.TXIDX.PUT.get d < s.fld pg R.EHP.TXCFG.NREC))
  | some .upd =>
    (off ≠ R.UPD.SRCID.ID.off || decide (R.UPD.SRCID.ID.get d < 0xFFFE)) &&
      (off ≠ R.UPD.TRIALS.N.off || decide (1 ≤ R.UPD.TRIALS.N.get d)) &&
      (off ≠ R.UPD.MAPSEL.W.off || decide (R.UPD.MAPSEL.W.get d ≤ 383))
  | _ => true

/-- The registers of the FIX page that a CHECK depends on (R76). -/
def fixChecked (off : Nat) : Bool :=
  off = R.FIX.MODE.NOW.off || off = R.FIX.NSCOPE.N.off || (decide ((R.FIX.SCOPE.PAGE 0).off ≤ off) && decide (off < 0x300))

/-- Store the RW bits and clear the W1C bits of a register; a change of CLK.LOSS posts event 5 (the CLK events), and a write of
the FIX page's scope makes a CHECKED fix stale (R76). -/
def State.storeRw (s : State) (pg off : Nat) (d : Word) : State :=
  let rw := accMask .rw pg off
  let old := s.reg pg off
  let new := ((old &&& ~~~ rw) ||| (d &&& rw)) &&& ~~~ (d &&& accMask .w1c pg off)
  let s := s.setReg pg off new
  let s := s.postIf (pg = clkPg && off = R.CLK.LOSS.L.off && new ≠ old) 5
  if pg = fixPg ∧ fixChecked off ∧ s.fixSt = 2 then s.fixGo 0 4 else s

/-- A write at a live address (R12, R58, R61, R76). (DEDUCED: log entry 20.) -/
def State.writeLive (s : State) (w : Writer) (pg off : Nat) (d : Word) : State :=
  if off < 0x100 + 4 * (s.children pg).length then (if s.locked pg then s.refuse pg else s.range pg)
  else if rowsAt pg off = [] then s.ok pg
  else if s.locked pg then s.refuse pg
  else if pg = fixPg ∧ s.fixSt = 3 ∧ !(off = R.FIX.CMD.OP.off && R.FIX.CMD.OP.get d = 3) then s.refuse pg
  else if factoryPal pg off then s.range pg
  else
    let rs := accMask .rs pg off
    let direct := accMask .rw pg off ||| accMask .w1c pg off ||| accMask .wo pg off
    if rs ||| direct = 0 then s.range pg
    else
      match s.ownWrite w pg off d with
      | some t => t
      | none =>
        if !s.inRange pg off d then s.range pg
        else if pg = fixPg ∧ fixChecked off ∧ s.fixSt = 1 then s.refuse pg
        else if rs ≠ 0 ∧ s.frozenPg pg then s.refuse pg
        else
          let s := if rs = 0 then s else s.stage w pg off d
          (if direct = 0 then s else s.storeRw pg off d).ok pg

/-- A write of a register page of this device (R8-R12, R54, R58): ignored at an unallocated page; without its island's clock it
does not arrive, but one to a context that moves under a takeover is held (R322). (DEDUCED: log entry 20.) -/
def State.writeReg (s : State) (w : Writer) (pg off : Nat) (d : Word) : State :=
  if pg = lcmPg ∧ s.lcmHolds off d ∧ off % 4 = 0 ∧ (accMask .rw pg off ||| accMask .w1c pg off ||| accMask .wo pg off) ≠ 0 then
    s.lcmHold w off d
  else if (kindOf pg).isNone ∨ !s.clocked (s.islandOf pg) ∨ off % 4 ≠ 0 then s
  else if off < 0x018 then s.range pg
  else if off < 0x040 then s.ok pg
  else if off < 0x100 then s.writeCommon pg off d
  else if off < 0x800 then s.writeLive w pg off d
  else if off < 0x900 then (if pgCaps pg / 4 % 2 = 1 then s.range pg else s.ok pg)
  else s.sketchWrite w pg (off - 0x800) d

/-- REGISTER_WRITE (R12, R59). -/
def execRegisterWrite (w : Writer) (pg off : BitVec 12) (d : Word) (s : State) : Outcome :=
  .next (s.writeReg w pg.toNat off.toNat d)

/-- LF_WRITE (R67). -/
def execLfWrite (w : Writer) (off : BitVec 12) (d : Word) (s : State) : Outcome := .next (s.writeReg w lfPg off.toNat d)

end Sys2Proof.Machine
end

