-- ==== Sys2Proof/Decode.lean ====
section
/-! DEFINITION. The words of the PX32 instructions (R277-R281): their encoder and decoder. The opcode table gives its rows no
bits, so no table word spells a command. -/

namespace Sys2Proof

/-- The command that a word spells by the opcode table's bits: none, since the table gives no row bits.
(DESIGN CHOICE: log entry 4.) -/
def decodeTableWord (_nbits _w : Nat) : Option Instr := none

/-! ## Fields of a word -/

/-- Bits [hi:lo] of a word. -/
def wordField (w hi lo : Nat) : Nat := w / 2 ^ lo % 2 ^ (hi + 1 - lo)

/-- A register number in a word. -/
def regAt (w lo : Nat) : Fin 32 := Fin.ofNat 32 (wordField w (lo + 4) lo)

/-- A predicate number in a word. -/
def predAt (w lo : Nat) : Fin 8 := Fin.ofNat 8 (wordField w (lo + 2) lo)

/-- A word from its guard, its major opcode and bits [21:0] (R277). -/
def wordOf (gs : Bool) (gp : Fin 8) (op low : Nat) : Word :=
  BitVec.ofNat 32 ((if gs then 0x80000000 else 0) + gp.val * 0x10000000 + op * 0x400000 + low)

/-! ## Formats (R281) -/

/-- Format R. -/
def fmtR (rd ra rb : Fin 32) (f : Nat) : Nat := rd.val * 0x20000 + ra.val * 0x1000 + rb.val * 0x80 + f
/-- Format I. -/
def fmtI (rd ra : Fin 32) (imm : Nat) : Nat := rd.val * 0x20000 + ra.val * 0x1000 + imm
/-- Format U. -/
def fmtU (rd : Fin 32) (h : Bool) (imm : BitVec 16) : Nat := rd.val * 0x20000 + (if h then 0x10000 else 0) + imm.toNat
/-- Format S. -/
def fmtS (rd ra rb : Fin 32) (ps : Fin 8) : Nat := rd.val * 0x20000 + ra.val * 0x1000 + rb.val * 0x80 + ps.val * 0x10
/-- Format M. -/
def fmtM (r ra : Fin 32) (w : Nat) (off : BitVec 9) : Nat := r.val * 0x20000 + ra.val * 0x1000 + w * 0x200 + off.toNat
/-- Format Z. -/
def fmtZ (rd rs rc : Fin 32) (sz : Fin 3) (pd : Fin 8) : Nat :=
  rd.val * 0x20000 + rs.val * 0x1000 + rc.val * 0x80 + sz.val * 0x20 + pd.val * 4
/-- Format C. -/
def fmtC (pd : Fin 8) (cond : Fin 14) (ra rb : Fin 32) : Nat :=
  pd.val * 0x80000 + cond.val * 0x8000 + ra.val * 0x400 + rb.val * 0x20
/-- Format D. -/
def fmtD (pd : Fin 8) (cond : Fin 14) (ra : Fin 32) (imm : BitVec 10) : Nat :=
  pd.val * 0x80000 + cond.val * 0x8000 + ra.val * 0x400 + imm.toNat
/-- Format P. -/
def fmtP (pd pa pb : Fin 8) (op : Fin 7) : Nat := pd.val * 0x80000 + pa.val * 0x10000 + pb.val * 0x2000 + op.val * 0x400
/-- Format E. -/
def fmtE (pd : Fin 8) (rt : Option (Fin 32)) (n : EvSrc) : Nat :=
  pd.val * 0x80000 + (match rt with | some r => 0x40000 + r.val * 0x2000 | none => 0) +
    (match n with | .imm e => e.toNat | .reg r => 0x1000 + r.val * 0x20)
/-- Format Y of MFS and MTS. -/
def fmtY (rd s : Fin 32) (func : Nat) : Nat := rd.val * 0x20000 + s.val * 0x1000 + func

/-! ## The encoder -/

/-- The word of a PX32 instruction (R280, R282-R301); none for the other commands. -/
def encodePx32 (i : Instr) : Option Word :=
  match i with
  | .add _ gs gp rd ra rb => some (wordOf gs gp 0x01 (fmtR rd ra rb 0x00))
  | .sub _ gs gp rd ra rb => some (wordOf gs gp 0x01 (fmtR rd ra rb 0x01))
  | .andR _ gs gp rd ra rb => some (wordOf gs gp 0x01 (fmtR rd ra rb 0x02))
  | .orR _ gs gp rd ra rb => some (wordOf gs gp 0x01 (fmtR rd ra rb 0x03))
  | .xorR _ gs gp rd ra rb => some (wordOf gs gp 0x01 (fmtR rd ra rb 0x04))
  | .andn _ gs gp rd ra rb => some (wordOf gs gp 0x01 (fmtR rd ra rb 0x05))
  | .neg _ gs gp rd ra => some (wordOf gs gp 0x01 (fmtR rd ra 0 0x06))
  | .shl _ gs gp rd ra rb => some (wordOf gs gp 0x01 (fmtR rd ra rb 0x08))
  | .shr _ gs gp rd ra rb => some (wordOf gs gp 0x01 (fmtR rd ra rb 0x09))
  | .sar _ gs gp rd ra rb => some (wordOf gs gp 0x01 (fmtR rd ra rb 0x0A))
  | .rol _ gs gp rd ra rb => some (wordOf gs gp 0x01 (fmtR rd ra rb 0x0B))
  | .ror _ gs gp rd ra rb => some (wordOf gs gp 0x01 (fmtR rd ra rb 0x0C))
  | .mul _ gs gp rd ra rb => some (wordOf gs gp 0x01 (fmtR rd ra rb 0x10))
  | .mulh _ gs gp rd ra rb => some (wordOf gs gp 0x01 (fmtR rd ra rb 0x11))
  | .mulhu _ gs gp rd ra rb => some (wordOf gs gp 0x01 (fmtR rd ra rb 0x12))
  | .div _ gs gp rd ra rb => some (wordOf gs gp 0x01 (fmtR rd ra rb 0x14))
  | .divu _ gs gp rd ra rb => some (wordOf gs gp 0x01 (fmtR rd ra rb 0x15))
  | .rem _ gs gp rd ra rb => some (wordOf gs gp 0x01 (fmtR rd ra rb 0x16))
  | .remu _ gs gp rd ra rb => some (wordOf gs gp 0x01 (fmtR rd ra rb 0x17))
  | .minS _ gs gp rd ra rb => some (wordOf gs gp 0x01 (fmtR rd ra rb 0x18))
  | .maxS _ gs gp rd ra rb => some (wordOf gs gp 0x01 (fmtR rd ra rb 0x19))
  | .minu _ gs gp rd ra rb => some (wordOf gs gp 0x01 (fmtR rd ra rb 0x1A))
  | .maxu _ gs gp rd ra rb => some (wordOf gs gp 0x01 (fmtR rd ra rb 0x1B))
  | .clz _ gs gp rd ra => some (wordOf gs gp 0x01 (fmtR rd ra 0 0x1C))
  | .popc _ gs gp rd ra => some (wordOf gs gp 0x01 (fmtR rd ra 0 0x1D))
  | .addi _ gs gp rd ra imm => some (wordOf gs gp 0x02 (fmtI rd ra imm.toNat))
  | .andi _ gs gp rd ra imm => some (wordOf gs gp 0x03 (fmtI rd ra imm.toNat))
  | .ori _ gs gp rd ra imm => some (wordOf gs gp 0x04 (fmtI rd ra imm.toNat))
  | .xori _ gs gp rd ra imm => some (wordOf gs gp 0x05 (fmtI rd ra imm.toNat))
  | .shi _ gs gp rd ra op sh => some (wordOf gs gp 0x06 (fmtI rd ra (op.val * 0x100 + sh.toNat)))
  | .movw _ gs gp rd h imm => some (wordOf gs gp 0x07 (fmtU rd h imm))
  | .cmp _ gs gp pd cond ra rb => some (wordOf gs gp 0x08 (fmtC pd cond ra rb))
  | .cmpi _ gs gp pd cond ra imm => some (wordOf gs gp 0x09 (fmtD pd cond ra imm))
  | .pred _ gs gp pd pa pb op => some (wordOf gs gp 0x0A (fmtP pd pa pb op))
  | .sel _ gs gp rd ra rb ps => some (wordOf gs gp 0x0B (fmtS rd ra rb ps))
  | .ld _ gs gp r ra w off _ => some (wordOf gs gp 0x0C (fmtM r ra w.val off))
  | .st _ gs gp r ra w off => some (wordOf gs gp 0x0D (fmtM r ra (2 * w.val) off))
  | .br _ gs gp off => some (wordOf gs gp 0x0E off.toNat)
  | .call _ gs gp off => some (wordOf gs gp 0x0F off.toNat)
  | .jmp _ gs gp rd ra imm => some (wordOf gs gp 0x10 (fmtI rd ra imm.toNat))
  | .waitEv _ gs gp pd rt n => some (wordOf gs gp 0x11 (fmtE pd rt n))
  | .waitT _ gs gp rt => some (wordOf gs gp 0x12 (rt.val * 0x20000))
  | .sendEv _ gs gp n => some (wordOf gs gp 0x13 (fmtE 0 none n))
  | .rpt _ gs gp _ _ _ => some (wordOf gs gp 0x14 0)
  | .movs _ gs gp rd rs rc sz _ => some (wordOf gs gp 0x15 (fmtZ rd rs rc sz 0))
  | .fills _ gs gp rd rs rc sz => some (wordOf gs gp 0x16 (fmtZ rd rs rc sz 0))
  | .cmps _ gs gp rd rs rc sz pd _ => some (wordOf gs gp 0x17 (fmtZ rd rs rc sz pd))
  | .scans _ gs gp rd rs rc sz pd _ => some (wordOf gs gp 0x18 (fmtZ rd rs rc sz pd))
  | .crcs _ gs gp rd rs rc sz _ => some (wordOf gs gp 0x19 (fmtZ rd rs rc sz 0))
  | .fence _ gs gp => some (wordOf gs gp 0x00 0x01)
  | .rtt _ gs gp => some (wordOf gs gp 0x00 0x02)
  | .rttN _ gs gp => some (wordOf gs gp 0x00 0x03)
  | .rtn _ gs gp => some (wordOf gs gp 0x00 0x04)
  | .trap _ gs gp code => some (wordOf gs gp 0x00 (code.toNat * 0x40 + 0x05))
  | .rdtb _ gs gp rt => some (wordOf gs gp 0x00 (rt.val * 0x20000 + 0x06))
  | .mfs _ gs gp rd sr => some (wordOf gs gp 0x00 (fmtY rd sr 0x08))
  | .mts _ gs gp ra sr => some (wordOf gs gp 0x00 (fmtY ra sr 0x09))
  | .nop _ => some 0x80000000#32
  | .yield _ => some 0x80000001#32
  | _ => none

/-! ## The decoder -/

/-- The guard never lets the word execute (R277). -/
def neverGuard (gs : Bool) (gp : Fin 8) : Bool := gs && gp.val == 0

/-- The system registers that MFS reads (R291). -/
def mfsDefined (sr : Nat) : Bool := decide (sr ≤ 7) || sr == 9

/-- The system registers that MTS writes (R291). -/
def mtsDefined (sr : Nat) : Bool := sr == 4 || sr == 5 || sr == 6 || sr == 9

/-- The register rules of a string instruction (R300): `fixed` says that rs is a value that is never updated. -/
def stringRegs (rd rs rc : Fin 32) (fixed : Bool) : Bool :=
  rd != 0 && rc != 0 && rd != rc && rs != rd && rs != rc && (fixed || rs != 0)

/-- SYS (R290). -/
def decodeSys (lc : Fin 16) (gs : Bool) (gp : Fin 8) (w : Nat) : Option Instr :=
  let rest := wordField w 21 6
  match wordField w 5 0 with
  | 0x01 => if rest = 0 then some (.fence lc gs gp) else none
  | 0x02 => if rest = 0 then some (.rtt lc gs gp) else none
  | 0x03 => if rest = 0 then some (.rttN lc gs gp) else none
  | 0x04 => if rest = 0 then some (.rtn lc gs gp) else none
  | 0x05 => some (.trap lc gs gp (BitVec.ofNat 16 rest))
  | 0x06 => if wordField w 16 6 = 0 ∧ wordField w 17 17 = 0 then some (.rdtb lc gs gp (regAt w 17)) else none
  | 0x08 => if wordField w 11 6 = 0 ∧ mfsDefined (regAt w 12) then some (.mfs lc gs gp (regAt w 17) (regAt w 12)) else none
  | 0x09 => if wordField w 11 6 = 0 ∧ mtsDefined (regAt w 12) then some (.mts lc gs gp (regAt w 17) (regAt w 12)) else none
  | _ => none

/-- ALU (R282). -/
def decodeAlu (lc : Fin 16) (gs : Bool) (gp : Fin 8) (w : Nat) : Option Instr :=
  let rd := regAt w 17
  let ra := regAt w 12
  let rb := regAt w 7
  match wordField w 6 0 with
  | 0x00 => some (.add lc gs gp rd ra rb)
  | 0x01 => some (.sub lc gs gp rd ra rb)
  | 0x02 => some (.andR lc gs gp rd ra rb)
  | 0x03 => some (.orR lc gs gp rd ra rb)
  | 0x04 => some (.xorR lc gs gp rd ra rb)
  | 0x05 => some (.andn lc gs gp rd ra rb)
  | 0x06 => if rb = 0 then some (.neg lc gs gp rd ra) else none
  | 0x08 => some (.shl lc gs gp rd ra rb)
  | 0x09 => some (.shr lc gs gp rd ra rb)
  | 0x0A => some (.sar lc gs gp rd ra rb)
  | 0x0B => some (.rol lc gs gp rd ra rb)
  | 0x0C => some (.ror lc gs gp rd ra rb)
  | 0x10 => some (.mul lc gs gp rd ra rb)
  | 0x11 => some (.mulh lc gs gp rd ra rb)
  | 0x12 => some (.mulhu lc gs gp rd ra rb)
  | 0x14 => some (.div lc gs gp rd ra rb)
  | 0x15 => some (.divu lc gs gp rd ra rb)
  | 0x16 => some (.rem lc gs gp rd ra rb)
  | 0x17 => some (.remu lc gs gp rd ra rb)
  | 0x18 => some (.minS lc gs gp rd ra rb)
  | 0x19 => some (.maxS lc gs gp rd ra rb)
  | 0x1A => some (.minu lc gs gp rd ra rb)
  | 0x1B => some (.maxu lc gs gp rd ra rb)
  | 0x1C => if rb = 0 then some (.clz lc gs gp rd ra) else none
  | 0x1D => if rb = 0 then some (.popc lc gs gp rd ra) else none
  | _ => none

/-- The event number of a format E word; none where a reserved field is not 0 (R281). -/
def decodeEvent (w : Nat) : Option EvSrc :=
  if wordField w 11 10 ≠ 0 then none
  else if wordField w 12 12 = 0 then some (.imm (BitVec.ofNat 10 (wordField w 9 0)))
  else if wordField w 4 0 = 0 then some (.reg (regAt w 5))
  else none

/-- The timeout registers of a WAIT.EV: none where T = 0; no word where they break their rule (R297). -/
def decodeWaitRt (w : Nat) : Option (Option (Fin 32)) :=
  if wordField w 18 18 = 0 then (if wordField w 17 13 = 0 then some none else none)
  else if wordField w 13 13 = 0 then some (some (regAt w 13)) else none

/-- A string instruction (R300). The words of an element load's errors are the command's, none in a word. -/
def decodeString (lc : Fin 16) (gs : Bool) (gp : Fin 8) (w : Nat) : Option Instr :=
  let op := wordField w 27 22
  let rd := regAt w 17
  let rs := regAt w 12
  let rc := regAt w 7
  let pd := predAt w 2
  let sz := Fin.ofNat 3 (wordField w 6 5)
  if wordField w 6 5 = 3 ∨ wordField w 1 0 ≠ 0 ∨ !stringRegs rd rs rc (op == 0x16 || op == 0x18) then none
  else match op with
    | 0x15 => if pd = 0 then some (.movs lc gs gp rd rs rc sz 0) else none
    | 0x16 => if pd = 0 then some (.fills lc gs gp rd rs rc sz) else none
    | 0x17 => some (.cmps lc gs gp rd rs rc sz pd 0)
    | 0x18 => some (.scans lc gs gp rd rs rc sz pd 0)
    | 0x19 => if pd = 0 then some (.crcs lc gs gp rd rs rc sz 0) else none
    | _ => none

/-- A word whose guard may let it execute (R279, R280). -/
def decodeGuarded (lc : Fin 16) (gs : Bool) (gp : Fin 8) (w : Nat) : Option Instr :=
  let imm12 := BitVec.ofNat 12 (wordField w 11 0)
  match wordField w 27 22 with
  | 0x00 => decodeSys lc gs gp w
  | 0x01 => decodeAlu lc gs gp w
  | 0x02 => some (.addi lc gs gp (regAt w 17) (regAt w 12) imm12)
  | 0x03 => some (.andi lc gs gp (regAt w 17) (regAt w 12) imm12)
  | 0x04 => some (.ori lc gs gp (regAt w 17) (regAt w 12) imm12)
  | 0x05 => some (.xori lc gs gp (regAt w 17) (regAt w 12) imm12)
  | 0x06 =>
    if wordField w 11 11 = 0 ∧ wordField w 10 8 < 5 then
      some (.shi lc gs gp (regAt w 17) (regAt w 12) (Fin.ofNat 5 (wordField w 10 8)) (BitVec.ofNat 8 (wordField w 7 0)))
    else none
  | 0x07 => some (.movw lc gs gp (regAt w 17) (wordField w 16 16 == 1) (BitVec.ofNat 16 (wordField w 15 0)))
  | 0x08 =>
    if wordField w 18 15 < 14 ∧ wordField w 4 0 = 0 then
      some (.cmp lc gs gp (predAt w 19) (Fin.ofNat 14 (wordField w 18 15)) (regAt w 10) (regAt w 5))
    else none
  | 0x09 =>
    if wordField w 18 15 < 14 then
      some (.cmpi lc gs gp (predAt w 19) (Fin.ofNat 14 (wordField w 18 15)) (regAt w 10) (BitVec.ofNat 10 (wordField w 9 0)))
    else none
  | 0x0A =>
    if wordField w 12 10 < 7 ∧ wordField w 9 0 = 0 then
      some (.pred lc gs gp (predAt w 19) (predAt w 16) (predAt w 13) (Fin.ofNat 7 (wordField w 12 10)))
    else none
  | 0x0B =>
    if wordField w 3 0 = 0 then some (.sel lc gs gp (regAt w 17) (regAt w 12) (regAt w 7) (predAt w 4)) else none
  | 0x0C =>
    if wordField w 11 9 < 5 then
      some (.ld lc gs gp (regAt w 17) (regAt w 12) (Fin.ofNat 5 (wordField w 11 9)) (BitVec.ofNat 9 (wordField w 8 0)) 0)
    else none
  | 0x0D =>
    if wordField w 11 9 < 5 ∧ wordField w 9 9 = 0 then
      some (.st lc gs gp (regAt w 17) (regAt w 12) (Fin.ofNat 3 (wordField w 11 10)) (BitVec.ofNat 9 (wordField w 8 0)))
    else none
  | 0x0E => some (.br lc gs gp (BitVec.ofNat 22 (wordField w 21 0)))
  | 0x0F => some (.call lc gs gp (BitVec.ofNat 22 (wordField w 21 0)))
  | 0x10 => some (.jmp lc gs gp (regAt w 17) (regAt w 12) imm12)
  | 0x11 =>
    match decodeWaitRt w, decodeEvent w with
    | some rt, some n => some (.waitEv lc gs gp (predAt w 19) rt n)
    | _, _ => none
  | 0x12 => if wordField w 16 0 = 0 ∧ wordField w 17 17 = 0 then some (.waitT lc gs gp (regAt w 17)) else none
  | 0x13 => if wordField w 21 13 = 0 then (decodeEvent w).map fun n => .sendEv lc gs gp n else none
  | 0x14 => if wordField w 21 0 = 0 then some (.rpt lc gs gp 0 0 0) else none
  | _ => decodeString lc gs gp w

/-- The instruction of a word (R277-R281); none for an illegal word. A word with guard 0b1000 is the YIELD hint or does nothing,
as NOP (R278). -/
def decodePx32 (lc : Fin 16) (v : Word) : Option Instr :=
  let w := v.toNat
  let gs := wordField w 31 31 == 1
  let gp := predAt w 28
  if neverGuard gs gp then (if w = 0x80000001 then some (.yield lc) else some (.nop lc))
  else decodeGuarded lc gs gp w

end Sys2Proof
end

