-- ==== Sys2Proof/Machine/Issue.lean ====
section
/-! DEFINITION. How a context issues an instruction (R257-R264, R268, R274-R279, R292-R294, R299, R303-R306, R314-R318): the
checks before its own effect, journaled accesses and their replay, the order in which accesses are performed, and window
requests (R65-R71, R413). -/

namespace Sys2Proof.Machine

/-! ## The memory map as the cores see it -/

/-- An address of local SRAM of a core that exists (R257). -/
def State.isLocal (s : State) (a : Nat) : Bool :=
  decide (0x18000000 ≤ a) && decide (a < 0x18100000) && s.coreExists ((a - 0x18000000) / 0x10000)

/-- An address that a fetch may read: a region with X (R257). (DESIGN CHOICE: log entry 5.) -/
def State.canFetch (s : State) (a : Nat) : Bool :=
  decide (a < 0xC00000) || inSram a 4 || s.isLocal a || (decide (0x20000000 ≤ a) && decide (a < 0x20020000))

/-- A load or store of `n` bytes is permitted: the region's access, the width and the alignment (R9, R197, R257, R258). -/
def State.canAccess (s : State) (a n : Nat) (store : Bool) : Bool :=
  decide (a % n = 0) &&
    (inSram a n || s.isLocal a ||
      (isPageSpace a && decide (n = 4)) ||
      (decide (0x60000000 ≤ a) && decide (a < 0x60002000) && decide (2 ≤ n)) ||
      (!store && (decide (a < 0xC00000) || (decide (0x01000000 ≤ a) && decide (a < 0x01C00000)) ||
        (decide (0x02000000 ≤ a) && decide (a < 0x02200000)) || (decide (0x20000000 ≤ a) && decide (a < 0x20020000)) ||
        (decide (0x50000000 ≤ a) && decide (a < 0x50004000)))))

/-- An address whose bytes read 0 whatever is stored: the root key slot (R257, R432), and a canvas beyond its pixel words
(R197). -/
def readsZero (a : Nat) : Bool :=
  (decide (0x50003F00 ≤ a) && decide (a < 0x50003F20)) ||
    (decide (0x60000000 ≤ a) && decide (a < 0x60002000) && decide (0xA00 ≤ a % 0x1000))

/-- The memory that holds an address answers: its island's clock runs, and data flash is not programming a word (R105, R107,
R326, R350). (DESIGN CHOICE: log entry 11.) -/
def State.memAnswers (s : State) (a : Nat) (store : Bool) : Bool :=
  if isPageSpace a then s.clocked (s.islandOf ((a - 0x40000000) / 0x1000))
  else if 0x60000000 ≤ a then s.clocked .pwr
  else if s.isLocal a then
    (let p := s.pairOfCore ((a - 0x18000000) / 0x10000)
     if p = 15 then s.clocked .mem else s.clocked (.cp p))
  else s.clocked .mem && (store || !(decide (0x02000000 ≤ a) && decide (a < 0x02200000) && s.dataBusy))

/-! ## Performing an access -/

/-- Who writes a page for a context. -/
def ctxWriter (k : Nat) : Writer := .ctx (Fin.ofNat 16 (k / 32)) (Fin.ofNat 32 k)

/-- The access itself: the state after it, the value of a load, and whether its word is uncorrectable (R257, R258, R335,
R345). (DESIGN CHOICE: log entry 30.) -/
def State.touch (s : State) (o : Op) (nsym : Nat) : State × Nat × Bool :=
  let n := widthBytes o.w
  if isPageSpace o.addr then
    let pg := (o.addr - 0x40000000) / 0x1000
    let off := o.addr % 0x1000
    if o.kind = .load then (let r := s.readReg pg off; (r.1, r.2.toNat, false))
    else (s.writeReg (ctxWriter o.ctx) pg off (BitVec.ofNat 32 o.data), 0, false)
  else match s.placeOf o.addr with
  | none => (s, 0, false)
  | some p =>
    if o.kind = .load then
      (if readsZero o.addr then (s, 0, false)
       else
         let r := s.memRead p nsym none
         (r.1, widen o.w (r.1.readLe p n), r.2))
    else if readsZero o.addr then (s, 0, false)
    else (s.setLe p n (o.data % 256 ^ n), 0, false)

/-- An operation is performed and completes. (DEDUCED: log entry 10.) -/
def State.perform (s : State) (o : Op) (nsym : Nat) : State :=
  if o.slot then (let r := s.touch o nsym; r.1.opDone o r.2.1 r.2.2 false) else s.performOwn o nsym

/-! ## After an operation -/

/-- What follows when operations of a context complete: its further operations, its FENCE, and the contexts that wait on its
core. -/
def State.ripple (s : State) (k : Nat) : State :=
  let s := s.flush (k / 32) s.ops.length
  (s.fenceDone k).wakeOps (k / 32)

/-! ## Window requests (R65-R69, R413) -/

/-- The word of the hop path that holds hop 8j on: inline, or in the table; none where the table's word lies outside system SRAM
or is poisoned (R66, R69). -/
def State.hopWord (s : State) (j : Nat) : Option Nat :=
  if s.bit lfPg R.LF.CTRL.EXT then
    let a := s.fld lfPg R.LF.HOPBASE.BASE * 4 + 4 * j
    match s.placeOf a with
    | some p => if inSram a 4 && !s.poisoned p then some (s.leAt p 4) else none
    | none => none
  else if j < 8 then some (s.fld lfPg (R.LF.HOP.HOPS j)) else none

/-- The hops of the path in effect (R66); none where it cannot be read. -/
def State.hopPath (s : State) : Option (List Nat) :=
  let n := s.fld lfPg R.LF.HOPLEN.LEN
  ((List.range ((n + 7) / 8)).mapM s.hopWord).map fun ws =>
    ((ws.map fun w => (List.range 8).map fun k => w / 16 ^ k % 16).flatten).take n

/-- Consecutive hops of one code, at most 4095, make a run (R413). -/
def runsOf : List Nat → List (Nat × Nat)
  | [] => []
  | h :: t =>
    match runsOf t with
    | (c, n) :: r => if c = h ∧ n < 4095 then (c, n + 1) :: r else (h, 1) :: (c, n) :: r
    | [] => [(h, 1)]

/-- The path of a request; none where the access cannot be sent (R66, R69, R413). (DEDUCED: log entry 23.) -/
def State.sendPath (s : State) : Option (List (Nat × Nat)) :=
  match s.hopPath with
  | some (h :: t) =>
    let r := runsOf (h :: t)
    if (h :: t).all (· < 4) && s.lrole h ≠ 0 && decide (r.length ≤ 700) then some r else none
  | _ => none

/-- The words of the hop table that are poisoned in system SRAM raise the memory source of their macro (R69). -/
def State.hopPoison (s : State) : State :=
  let n := s.fld lfPg R.LF.HOPLEN.LEN
  let a := s.fld lfPg R.LF.HOPBASE.BASE * 4
  match (if s.bit lfPg R.LF.CTRL.EXT ∧ inSram a (4 * ((n + 7) / 8)) then
      ((List.range ((n + 7) / 8)).filterMap fun j => s.placeOf (a + 4 * j)).find? s.poisoned else none) with
  | some p => s.memDetect 2 33 p
  | none => s

/-- A window access fails (R68, R69): it completes with an error; PATH or TMO and its PG_FSTAT bit set, and OPEN clears.
(DEDUCED: log entry 23.) -/
def State.windowFail (s : State) (o : Op) (f : Fld) (bit : Nat) : State :=
  ((((s.setBit lfPg f true).setBit lfPg R.LF.STAT.OPEN false).detect lfPg bit).opDone o 0 false true).ripple o.ctx

/-- The next window access that may be sent: of those released and issued before the oldest held write of the path, the first in
order (R67, R309, R413). (DEDUCED: log entry 23.) -/
def State.nextWindow (s : State) : Option Op :=
  if s.ops.any (·.sent.isSome) ∨ !s.clocked .net then none
  else s.ops.find? fun o => isWindow o.addr && o.kind ≠ .post && s.orderly o &&
    s.lfHeld.all (fun (e : Nat × Word × Nat) => decide (o.id < e.2.2)) && s.released (o.ctx / 32) o.id

/-- The link engine sends one window access at a time; what it cannot send completes at once, and so does every access while
the window is closed (R68, R69, R413). (DEDUCED: log entry 23.) -/
def State.windowPump (s : State) : Nat → State
  | 0 => s
  | n + 1 =>
    match s.nextWindow with
    | none => s
    | some o =>
      if s.fld lfPg R.LF.HOPLEN.LEN = 0 then State.windowPump ((s.opDone o 0 false false).ripple o.ctx) n
      else
      let s := if s.bit lfPg R.LF.CTRL.EXT then s.hwRead (s.fld lfPg R.LF.HOPBASE.BASE * 4) ((s.fld lfPg R.LF.HOPLEN.LEN + 7) / 8 * 4) else s
      match s.sendPath with
      | none => State.windowPump (s.hopPoison.windowFail o R.LF.STAT.PATH 2) n
      | some r =>
        State.emit { s with ops := s.ops.map fun (q : Op) => if q.id = o.id then { q with sent := some s.tb } else q }
          (.pgreq o.id r (o.kind = .store) ((o.addr - 0x41000000) / 0x1000) (o.addr % 0x1000) o.data)

/-- What follows when operations of a context complete, and what the link engine sends next. -/
def State.settle (s : State) (k : Nat) : State :=
  let s := s.ripple k
  s.windowPump s.ops.length

/-- An issue cycle of core `n` passes (R309, R312): what it issued 2 cycles before, or at an earlier tick, is released, and
leaves. -/
def State.cycle (s : State) (n : Nat) : State :=
  if (s.lcAt n).buf = [] then s
  else
    let old := fun (e : BufEnt) => decide (2 ≤ e.cyc) || decide (e.tick < s.kaNow)
    let b := (s.lcAt n).buf
    let s := s.setLc n (s.lcAt n).aged
    let s := s.leaves n (b.filter old) ((b.filter fun e => !old e).map fun e => { e with cyc := e.cyc + 1 })
    s.windowPump s.ops.length

/-! ## Parking, traps and plain advances -/

/-- A context leaves RUN for OPWAIT with its PC at the instruction (R262, R305). -/
def State.opWait (s : State) (k : Nat) (w : OpWait) : State :=
  ((s.modCx k fun r => { r with opw := w }).toSt k .opwait).schedule (k / 32)

/-- A trap of the instruction at the PC, after which the core selects again if the context halted (R268, R303). -/
def State.trapNow (s : State) (k cause : Nat) (ctval : Word) : State :=
  ((s.dropElem k).takeTrap k cause false (s.cx k).pc ctval).schedule (k / 32)

/-- The PC advances past the instruction (R274). -/
def State.advance (s : State) (k : Nat) (n : Nat) : State := s.modCx k fun r => { r with pc := r.pc + BitVec.ofNat 32 n }

/-! ## Issue -/

/-- The registers of `l` whose loads are outstanding (R263). -/
def State.lacking (s : State) (k : Nat) (l : List Nat) : List Nat := l.filter fun n => n ≠ 0 && s.awaits k n

/-- The address of the load that left a poisoned value in one of the registers (R264). -/
def CtxRegs.poisonOf (r : CtxRegs) (l : List Nat) : Option Word :=
  l.findSome? fun n => if n = 0 then none else (r.bad.find? (·.1 = n)).map (·.2)

/-- An instruction whose guard holds meets its operands: it waits for the results of loads it reads or overwrites, and a
poisoned source traps (R263, R264, R303). (DEDUCED: log entry 6.) -/
def State.operands (s : State) (k : Nat) (srcs dsts : List Nat) (body : State → State) : State :=
  match s.lacking k (srcs ++ dsts) with
  | n :: l => s.opWait k (.regs (n :: l))
  | [] =>
    match (s.cx k).poisonOf srcs with
    | some a => s.trapNow k trapPoison a
    | none => body s

/-- The word at an address holds an error that reading cannot correct. -/
def State.spoilt (s : State) (a : Nat) : Bool :=
  match s.placeOf a with
  | some p => s.poisoned p
  | none => false

/-- The slot kept for a context that has executed an instruction without it goes to another (R263). -/
def State.slotBack (s : State) (k : Nat) : State :=
  if (s.ctxAt k).slotRes ∧ (s.cx k).st = .run then (s.takeSlot k).wakeOps (k / 32) else s

/-! ## The instruction cache (R259) -/

/-- An address that is fetched through the instruction cache (R259). -/
def isCached (a : Nat) : Bool := decide (a < 0xC00000) || (decide (0x20000000 ≤ a) && decide (a < 0x20020000))

/-- A fetch on core `n` misses the cache of its pair. (DESIGN CHOICE: log entry 11.) -/
def State.fetchMiss (s : State) (n a : Nat) : Bool :=
  isCached a && !(tget (fun _ => []) s.icache (s.pairOfCore n)).contains (a / 32)

/-- A line enters the cache of a pair: 32 KiB, the oldest line leaves. `bad` says that its word was uncorrectable.
(DESIGN CHOICE: log entry 11.) -/
def State.cacheLine (s : State) (p line : Nat) (bad : Bool) : State :=
  let other := (tget (fun _ => []) s.icBad p).filter (· ≠ line)
  { s with
    icache := tset (fun _ => []) s.icache p ((line :: tget (fun _ => []) s.icache p).take 1024)
    icBad := tset (fun _ => []) s.icBad p (if bad then line :: other else other) }

/-- The word that a fetch finds is uncorrectable: as it was when its line entered the cache, or as it stands in memory that is
fetched uncached (R259, R346). -/
def State.fetchBad (s : State) (n a : Nat) : Bool :=
  if isCached a then (tget (fun _ => []) s.icBad (s.pairOfCore n)).contains (a / 32) else s.spoilt a

/-- A word of context `k` is fetched (R259, R303, R346): no X permission, a miss of the instruction cache, or an uncorrectable word
stands before `body`. -/
def State.atWord (s : State) (k : Nat) (a : Word) (trapAt : State → Nat → State) (body : State → State) : State :=
  let s := if isCached a.toNat ∨ !s.canFetch a.toNat then s else s.hwRead a.toNat 4
  if !s.canFetch a.toNat then trapAt s trapFetch
  else if s.fetchMiss (k / 32) a.toNat then s.opWait k (.fetch (a.toNat / 32))
  else if s.fetchBad (k / 32) a.toNat then trapAt s trapPoison
  else body s

/-- What stands at the instruction, before its own checks: a late ACCESS trap that is due, or what its fetch meets (R259, R303, R304,
R346). (DESIGN CHOICE: log entry 5; DEDUCED: log entry 6.) -/
def State.atFetch (s : State) (k : Nat) (body : State → State) : State :=
  let r := s.cx k
  match (if r.elem = [] then r.late else []) with
  | a :: _ => (s.takeLate k a).schedule (k / 32)
  | [] => s.atWord k r.pc (fun s c => s.trapNow k c r.pc) body

/-- The guard lets the instruction execute (R277). -/
def CtxRegs.guardHolds (r : CtxRegs) (gs : Bool) (gp : Fin 8) : Bool := r.getP gp != gs

/-- What follows each instruction that context `k` issues on core `n`. -/
def State.issued (s : State) (n k : Nat) : State := (s.slotBack k).cycle n

/-- The context that issues on `lc` executes an instruction, and the issue cycle passes (R309): `bad` is its word where it is illegal, `skip` the bytes its failed
guard passes over, `srcs` and `dsts` the registers it reads and writes, `body` its own effect.
(DESIGN CHOICE: log entry 5; DEDUCED: log entry 6.) -/
def State.issue (s : State) (lc : Fin 16) (gs : Bool) (gp : Fin 8) (bad : CtxRegs → Option Word) (skip : Nat)
    (srcs dsts : List Nat) (body : Nat → State → State) : Outcome :=
  match s.issuing lc with
  | none => .next s
  | some k => .next ((s.atFetch k fun s =>
    if neverGuard gs gp then s.advance k skip
    else match bad (s.cx k) with
    | some w => s.trapNow k trapIllegal w
    | none => if (s.cx k).guardHolds gs gp then s.operands k srcs dsts (body k) else s.advance k skip).issued lc k)

/-- No state makes the instruction illegal. -/
def legal : CtxRegs → Option Word := fun _ => none

/-- An instruction that only writes registers. -/
def State.simple (s : State) (lc : Fin 16) (gs : Bool) (gp : Fin 8) (srcs dsts : List Nat) (f : CtxRegs → CtxRegs) : Outcome :=
  s.issue lc gs gp legal 4 srcs dsts fun k s => s.modCx k f

/-- rd := v, V gains `ov`, DZ gains `dz`, and the PC advances (R274, R276). -/
def CtxRegs.result (r : CtxRegs) (rd : Nat) (v : Word) (ov dz : Bool) : CtxRegs :=
  let q := (r.set rd v).sticky ov dz
  { q with pc := r.pc + 4 }

/-- An ALU instruction of format R (R282). -/
def State.alu (s : State) (lc : Fin 16) (gs : Bool) (gp : Fin 8) (rd ra rb : Fin 32) (f : Word → Word → Word)
    (ov : Word → Word → Bool) : Outcome :=
  s.simple lc gs gp [ra, rb] [rd] fun r => r.result rd (f (r.get ra) (r.get rb)) (ov (r.get ra) (r.get rb)) false

/-! ## Journaled accesses -/

/-- Where a re-executed access stands (R317): its entry is poisoned; its outcome is recorded; or the original still runs and is
claimed under the present epoch (R319). -/
def State.replay (s : State) (k : Nat) (e : JEnt) (reg : Nat) (go : State → State) : State :=
  let s := s.modCtx k fun c => { c with replay := c.replay.tail, jour := c.jour ++ [{ e with age := 0 }] }
  if e.poisoned then s.trapNow k trapPoison (BitVec.ofNat 32 e.addr)
  else if e.done then
    let o : Op := { id := e.id, ctx := k, epoch := 0, kind := e.kind, addr := e.addr, w := e.w, reg := reg }
    go (s.modCx k fun r => r.land o e.val e.bad e.err)
  else
    go { s with ops := s.ops.map fun (o : Op) => if o.id = e.id then { o with epoch := (s.ctxAt k).epoch } else o }

/-- A journal with a place for the next access: a forced commit where 64 entries stand, and OPWAIT where none of them has
completed (R314). -/
def State.journalRoom (s : State) (k : Nat) (go : State → State) : State :=
  let s := if (s.ctxAt k).journalled < 64 then s else s.commitNow k
  if (s.ctxAt k).journalled < 64 then go s else s.opWait k .jour

/-- A load, a store or a posting of a context (R263, R264, R296, R309, R314, R315, R317): it waits in the release buffer, but for
a load, which leaves at issue; `go` is what the instruction does besides. -/
def State.access (s : State) (k : Nat) (kind : JKind) (addr w data reg nsym : Nat) (go : State → State) : State :=
  match (s.ctxAt k).replay with
  | e :: _ => s.replay k e reg go
  | [] => s.journalRoom k fun s =>
    let slot := kind ≠ .post && !ownLocal (k / 32) addr
    if slot ∧ s.slotsFull k then s.opWait k .slot
    else
      let s := if slot then s.takeSlot k else s
      let id := s.opNext
      let o : Op := { id := id, ctx := k, epoch := (s.ctxAt k).epoch, kind := kind, addr := addr, w := w, data := data, reg := reg, slot := slot }
      let e : JEnt := { id := id, kind := kind, addr := addr, w := w, data := data }
      let s := State.modCtx { s with ops := s.ops ++ [o], opNext := id + 1 } k fun c => { c with jour := c.jour ++ [e] }
      let s := go (s.enter (k / 32) id)
      if !slot && kind = .load && s.orderly o then (s.performOwn o nsym).settle k else s

/-- A value or an outcome that the instruction has at once, journaled (R315): RDTB, and a wait that completes without
parking, `data` the event of a WAIT.EV plus 1. `val` is what a first execution finds. -/
def State.noted (s : State) (k : Nat) (kind : JKind) (data val : Nat) (go : Nat → State → State) : State :=
  match (s.ctxAt k).replay with
  | e :: _ =>
    let s := s.modCtx k fun c => { c with replay := c.replay.tail, jour := c.jour ++ [{ e with age := 0 }] }
    if e.poisoned then s.trapNow k trapPoison (BitVec.ofNat 32 e.addr) else go e.val s
  | [] => s.journalRoom k fun s =>
    let e : JEnt := { id := s.opNext, kind := kind, addr := 0, w := 0, data := data, done := true, val := val }
    go val (State.enter (State.modCtx { s with opNext := s.opNext + 1 } k fun c => { c with jour := c.jour ++ [e] }) (k / 32) s.opNext)

end Sys2Proof.Machine
end

