-- ==== Sys2Proof/Machine/Compare.lean ====
section
/-! DEFINITION. Compares, predicates and selection (R286, R287). -/

namespace Sys2Proof.Machine

/-- pd := b, and the PC advances. -/
def CtxRegs.resultP (r : CtxRegs) (pd : Nat) (b : Bool) : CtxRegs :=
  let q := r.setP pd b
  { q with pc := r.pc + 4 }

/-- The registers that a condition looks at: none for the conditions on ST (R286). (DEDUCED: log entry 6.) -/
def condSrcs (cond : Fin 14) (l : List Nat) : List Nat := if cond.val < 12 then l else []

/-- CMP (R286). -/
def execCmp (lc : Fin 16) (gs : Bool) (gp : Fin 8) (pd : Fin 8) (cond : Fin 14) (ra rb : Fin 32) (s : State) : Outcome :=
  s.simple lc gs gp (condSrcs cond [ra, rb]) [] fun r => r.resultP pd (r.condition cond (r.get ra) (r.get rb))

/-- CMPI (R286). -/
def execCmpi (lc : Fin 16) (gs : Bool) (gp : Fin 8) (pd : Fin 8) (cond : Fin 14) (ra : Fin 32) (imm : BitVec 10) (s : State) : Outcome :=
  s.simple lc gs gp (condSrcs cond [ra]) [] fun r => r.resultP pd (r.condition cond (r.get ra) (sext imm))

/-- PRED (R287). -/
def execPred (lc : Fin 16) (gs : Bool) (gp : Fin 8) (pd pa pb : Fin 8) (op : Fin 7) (s : State) : Outcome :=
  s.simple lc gs gp [] [] fun r => r.resultP pd (predOp op (r.getP pa) (r.getP pb))

/-- SEL (R287): it needs the register it selects. (DEDUCED: log entry 6.) -/
def execSel (lc : Fin 16) (gs : Bool) (gp : Fin 8) (rd ra rb : Fin 32) (ps : Fin 8) (s : State) : Outcome :=
  s.issue lc gs gp legal 4 [] [] fun k s =>
    let src : Fin 32 := if (s.cx k).getP ps then ra else rb
    s.operands k [src] [rd] fun s => s.modCx k fun r => r.result rd (r.get src) false false

end Sys2Proof.Machine
end

