-- ==== Sys2Proof/Machine/Control.lean ====
section
/-! DEFINITION. Control transfer, the hints and illegal words (R278, R279, R289). -/

namespace Sys2Proof.Machine

/-- A transfer to a target: the fetch trap at the transfer where its bits [1:0] are not 0 (R289). -/
def State.transfer (s : State) (k : Nat) (target : Word) (f : CtxRegs → CtxRegs) : State :=
  if target.toNat % 4 ≠ 0 then s.trapNow k trapFetch target
  else s.modCx k fun r => { f r with pc := target }

/-- BR (R289). -/
def execBr (lc : Fin 16) (gs : Bool) (gp : Fin 8) (off : BitVec 22) (s : State) : Outcome :=
  s.issue lc gs gp legal 4 [] [] fun k s => s.transfer k ((s.cx k).relTarget off) id

/-- CALL: g31 := PC + 4 (R289). -/
def execCall (lc : Fin 16) (gs : Bool) (gp : Fin 8) (off : BitVec 22) (s : State) : Outcome :=
  s.issue lc gs gp legal 4 [] [31] fun k s => s.transfer k ((s.cx k).relTarget off) fun r => r.set 31 (r.pc + 4)

/-- JMP: the target, then rd := PC + 4 (R289); a misaligned target is met before an uncorrectable value of ra (R304). -/
def execJmp (lc : Fin 16) (gs : Bool) (gp : Fin 8) (rd ra : Fin 32) (imm : BitVec 12) (s : State) : Outcome :=
  s.issue lc gs gp legal 4 [] [ra, rd] fun k s =>
    let t := (s.cx k).get ra + sext imm
    if t.toNat % 4 ≠ 0 then s.trapNow k trapFetch t
    else match (s.cx k).poisonOf [ra] with
    | some a => s.trapNow k trapPoison a
    | none => s.transfer k t fun r => r.set rd (r.pc + 4)

/-- A hint word (R278): it does nothing but advance the PC; YIELD then gives the core to a ready context of equal priority
(R261). -/
def State.hint (s : State) (lc : Fin 16) (yields : Bool) : Outcome :=
  match s.issuing lc with
  | none => .next s
  | some k => .next ((s.atFetch k fun s =>
      let s := s.advance k 4
      if yields then s.scheduleWith (k / 32) true else s).cycle lc)

/-- NOP, and every other word with guard 0b1000 but YIELD (R278). -/
def execNop (lc : Fin 16) (s : State) : Outcome := s.hint lc false

/-- YIELD (R278). -/
def execYield (lc : Fin 16) (s : State) : Outcome := s.hint lc true

/-- ILLEGAL_INSTRUCTION (R279): a word that decodes to nothing takes the trap whatever its guard. -/
def execIllegalInstruction (lc : Fin 16) (w : Word) (s : State) : Outcome :=
  if decodePx32 lc w = none then s.issue lc false 0 (fun _ => some w) 4 [] [] fun _ s => s else .next s

end Sys2Proof.Machine
end

