-- ==== Sys2Proof/Machine/Debug.lean ====
section
/-! DEFINITION. The debugger (R330-R332). -/

namespace Sys2Proof.Machine

/-- JTAG access is open (R330, R448). (DEDUCED: log entry 27.) -/
def State.debugOpen (s : State) : Bool := s.fld 0x243 R.DA.STAT.ST = 2

/-- The core runs as one of a split pair, whose resume replays nothing (R331). -/
def State.splitCore (s : State) (n : Nat) : Bool := (s.fld lcmPg R.LCM.SPLIT.SPLIT).testBit (n % 8)

/-- DEBUG_HALT (R330): every context of the core stops at its next instruction boundary, and the comparator matches its last 2
cycles. One core is halted at a time. (DEDUCED: log entry 27.) -/
def execDebugHalt (lc : Fin 16) (s : State) : Outcome :=
  if !s.debugOpen ∨ !s.coreExists lc ∨ (List.range 16).any (fun n => (s.lcAt n).dbg) then .next s
  else
    let s := s.releaseAll lc
    let s := s.windowPump s.ops.length
    let l := s.lcAt lc
    let s := match l.cur with
      | some i =>
        let k := 32 * lc.val + i
        if (s.cx k).st = CtxSt.run ∧ !(s.ctxAt k).fence then s.toSt k .ready else s
      | none => s
    .next (s.setLc lc { s.lcAt lc with dbg := true, cur := none })

/-- A debugger write of a context's register (R331). -/
def CtxRegs.debugPut (r : CtxRegs) (t : DbgReg) (d : Word) : CtxRegs :=
  match t with
  | .g n => r.set n d
  | .p v => { r with p := v.toNat / 2 * 2 }
  | .st v => { r with v := v.getLsbD 0, dz := v.getLsbD 1 }
  | .scr0 => { r with scr0 := d }
  | .scr1 => { r with scr1 := d }
  | .pc => { r with pc := d &&& 0xFFFFFFFC#32 }

/-- A debugger write of memory: a single access, not replayed (R331); one that the memory map does not permit has no effect
(R257, R258). (DEDUCED: log entry 27.) -/
def State.debugMem (s : State) (a n : Nat) (d : Word) : State :=
  if isPageSpace a ∨ !s.canAccess a n true ∨ readsZero a then s
  else match s.placeOf a with
  | some p => s.setLe p n (d.toNat % 256 ^ n)
  | none => s

/-- DEBUG_WRITE (R331): a register of a context of the halted core, applied to the main copy and recorded; a 257th record is
refused with status FULL. Writes of memory and pages are single accesses. (DEDUCED: log entry 27.) -/
def execDebugWrite (lc : Fin 16) (t : DbgTarget) (d : Word) (s : State) : Outcome :=
  let l := s.lcAt lc
  if !s.debugOpen ∨ !l.dbg then .next s
  else match t with
  | .mem a sz => .next (s.debugMem a.toNat (2 ^ sz.val) d)
  | .page pg off =>
    .next (if off.toNat % 4 ≠ 0 ∨ !s.clocked (s.islandOf pg.toNat) then s else s.writeReg .debugger pg.toNat off.toNat d)
  | .reg i r =>
    if 256 ≤ l.replayBuf.length then .next (s.emit (.dbgFull lc.val))
    else
      let k := 32 * lc.val + i.val
      let s := if s.splitCore lc then s else s.setLc lc { l with replayBuf := l.replayBuf ++ [(i.val, r, d)] }
      .next ((s.dropElem k).modCx k fun r0 => r0.debugPut r d)

/-- DEBUG_RESUME (R312, R331, R332): the buffer is replayed into the checker copy, the written state is committed, and the core
selects again. (DEDUCED: log entry 27.) -/
def execDebugResume (lc : Fin 16) (s : State) : Outcome :=
  let l := s.lcAt lc
  if !l.dbg then .next s
  else
    let s := (List.range 32).foldl (fun (t : State) i => t.commitNow (32 * lc.val + i)) s
    .next ((s.setLc lc { s.lcAt lc with dbg := false, replayBuf := [] }).wakeOps lc)

end Sys2Proof.Machine
end

