-- ==== Sys2Proof/Machine/Integer.lean ====
section
/-! DEFINITION. The integer instructions: ALU, SHI, the immediate forms and MOVW (R282-R285). -/

namespace Sys2Proof.Machine

/-- ADD: V on signed overflow (R282). -/
def execAdd (lc : Fin 16) (gs : Bool) (gp : Fin 8) (rd ra rb : Fin 32) (s : State) : Outcome :=
  s.alu lc gs gp rd ra rb (fun a b => a + b) addOverflows

/-- SUB: V on signed overflow (R282). -/
def execSub (lc : Fin 16) (gs : Bool) (gp : Fin 8) (rd ra rb : Fin 32) (s : State) : Outcome :=
  s.alu lc gs gp rd ra rb (fun a b => a - b) subOverflows

/-- AND (R282). -/
def execAndR (lc : Fin 16) (gs : Bool) (gp : Fin 8) (rd ra rb : Fin 32) (s : State) : Outcome :=
  s.alu lc gs gp rd ra rb (fun a b => a &&& b) (fun _ _ => false)

/-- OR (R282). -/
def execOrR (lc : Fin 16) (gs : Bool) (gp : Fin 8) (rd ra rb : Fin 32) (s : State) : Outcome :=
  s.alu lc gs gp rd ra rb (fun a b => a ||| b) (fun _ _ => false)

/-- XOR (R282). -/
def execXorR (lc : Fin 16) (gs : Bool) (gp : Fin 8) (rd ra rb : Fin 32) (s : State) : Outcome :=
  s.alu lc gs gp rd ra rb (fun a b => a ^^^ b) (fun _ _ => false)

/-- ANDN (R282). -/
def execAndn (lc : Fin 16) (gs : Bool) (gp : Fin 8) (rd ra rb : Fin 32) (s : State) : Outcome :=
  s.alu lc gs gp rd ra rb (fun a b => a &&& ~~~ b) (fun _ _ => false)

/-- NEG: V for 0x8000_0000 (R282). -/
def execNeg (lc : Fin 16) (gs : Bool) (gp : Fin 8) (rd ra : Fin 32) (s : State) : Outcome :=
  s.alu lc gs gp rd ra 0 (fun a _ => 0 - a) (fun a _ => a == 0x80000000#32)

/-- SHL (R283). -/
def execShl (lc : Fin 16) (gs : Bool) (gp : Fin 8) (rd ra rb : Fin 32) (s : State) : Outcome :=
  s.alu lc gs gp rd ra rb (fun a b => shiftOp 0 a (shiftAmount b)) (fun _ _ => false)

/-- SHR (R283). -/
def execShr (lc : Fin 16) (gs : Bool) (gp : Fin 8) (rd ra rb : Fin 32) (s : State) : Outcome :=
  s.alu lc gs gp rd ra rb (fun a b => shiftOp 1 a (shiftAmount b)) (fun _ _ => false)

/-- SAR (R283). -/
def execSar (lc : Fin 16) (gs : Bool) (gp : Fin 8) (rd ra rb : Fin 32) (s : State) : Outcome :=
  s.alu lc gs gp rd ra rb (fun a b => shiftOp 2 a (shiftAmount b)) (fun _ _ => false)

/-- ROL (R283). -/
def execRol (lc : Fin 16) (gs : Bool) (gp : Fin 8) (rd ra rb : Fin 32) (s : State) : Outcome :=
  s.alu lc gs gp rd ra rb (fun a b => shiftOp 3 a (shiftAmount b)) (fun _ _ => false)

/-- ROR (R283). -/
def execRor (lc : Fin 16) (gs : Bool) (gp : Fin 8) (rd ra rb : Fin 32) (s : State) : Outcome :=
  s.alu lc gs gp rd ra rb (fun a b => shiftOp 4 a (shiftAmount b)) (fun _ _ => false)

/-- MUL: V when the signed product does not fit (R282). -/
def execMul (lc : Fin 16) (gs : Bool) (gp : Fin 8) (rd ra rb : Fin 32) (s : State) : Outcome :=
  s.alu lc gs gp rd ra rb (fun a b => a * b) mulOverflows

/-- MULH (R282). -/
def execMulh (lc : Fin 16) (gs : Bool) (gp : Fin 8) (rd ra rb : Fin 32) (s : State) : Outcome :=
  s.alu lc gs gp rd ra rb (mulHigh) (fun _ _ => false)

/-- MULHU (R282). -/
def execMulhu (lc : Fin 16) (gs : Bool) (gp : Fin 8) (rd ra rb : Fin 32) (s : State) : Outcome :=
  s.alu lc gs gp rd ra rb (mulHighU) (fun _ _ => false)

/-- A division (R284): with divisor 0, `zero` is the result, DZ sets, and where the logical core's DZTRAP is 1 the DIVZ trap is
taken with rd not written. -/
def State.division (s : State) (lc : Fin 16) (gs : Bool) (gp : Fin 8) (w : Word) (rd ra rb : Fin 32) (zero f : Word → Word → Word)
    (ov : Word → Word → Bool) : Outcome :=
  s.issue lc gs gp legal 4 [ra, rb] [rd] fun k s =>
    let r := s.cx k
    let a := r.get ra
    let b := r.get rb
    if b = 0 then
      (if s.bit lcmPg (R.LCM.LCFG.DZTRAP lc) then State.trapNow (s.modCx k fun r => r.sticky false true) k trapDivz w
       else s.modCx k fun r => r.result rd (zero a b) false true)
    else s.modCx k fun r => r.result rd (f a b) (ov a b) false

/-- DIV: truncates toward zero; V for 0x8000_0000 by -1 (R284). -/
def execDiv (lc : Fin 16) (gs : Bool) (gp : Fin 8) (rd ra rb : Fin 32) (s : State) : Outcome :=
  s.division lc gs gp (wordOf gs gp 0x01 (fmtR rd ra rb 0x14)) rd ra rb (fun _ _ => 0) (fun a b => a.sdiv b) divOverflows

/-- DIVU (R284). -/
def execDivu (lc : Fin 16) (gs : Bool) (gp : Fin 8) (rd ra rb : Fin 32) (s : State) : Outcome :=
  s.division lc gs gp (wordOf gs gp 0x01 (fmtR rd ra rb 0x15)) rd ra rb (fun _ _ => 0) (fun a b => a / b) (fun _ _ => false)

/-- REM: the sign of the dividend (R284). -/
def execRem (lc : Fin 16) (gs : Bool) (gp : Fin 8) (rd ra rb : Fin 32) (s : State) : Outcome :=
  s.division lc gs gp (wordOf gs gp 0x01 (fmtR rd ra rb 0x16)) rd ra rb (fun a _ => a) (fun a b => a.srem b) (fun _ _ => false)

/-- REMU (R284). -/
def execRemu (lc : Fin 16) (gs : Bool) (gp : Fin 8) (rd ra rb : Fin 32) (s : State) : Outcome :=
  s.division lc gs gp (wordOf gs gp 0x01 (fmtR rd ra rb 0x17)) rd ra rb (fun a _ => a) (fun a b => a % b) (fun _ _ => false)

/-- MIN (R282). -/
def execMinS (lc : Fin 16) (gs : Bool) (gp : Fin 8) (rd ra rb : Fin 32) (s : State) : Outcome :=
  s.alu lc gs gp rd ra rb (fun a b => if a.sle b then a else b) (fun _ _ => false)

/-- MAX (R282). -/
def execMaxS (lc : Fin 16) (gs : Bool) (gp : Fin 8) (rd ra rb : Fin 32) (s : State) : Outcome :=
  s.alu lc gs gp rd ra rb (fun a b => if a.sle b then b else a) (fun _ _ => false)

/-- MINU (R282). -/
def execMinu (lc : Fin 16) (gs : Bool) (gp : Fin 8) (rd ra rb : Fin 32) (s : State) : Outcome :=
  s.alu lc gs gp rd ra rb (fun a b => if a ≤ b then a else b) (fun _ _ => false)

/-- MAXU (R282). -/
def execMaxu (lc : Fin 16) (gs : Bool) (gp : Fin 8) (rd ra rb : Fin 32) (s : State) : Outcome :=
  s.alu lc gs gp rd ra rb (fun a b => if a ≤ b then b else a) (fun _ _ => false)

/-- CLZ (R282). -/
def execClz (lc : Fin 16) (gs : Bool) (gp : Fin 8) (rd ra : Fin 32) (s : State) : Outcome :=
  s.alu lc gs gp rd ra 0 (fun a _ => BitVec.ofNat 32 (leadingZeros a)) (fun _ _ => false)

/-- POPC (R282). -/
def execPopc (lc : Fin 16) (gs : Bool) (gp : Fin 8) (rd ra : Fin 32) (s : State) : Outcome :=
  s.alu lc gs gp rd ra 0 (fun a _ => BitVec.ofNat 32 (onesOf a)) (fun _ _ => false)

/-- An immediate form (R285). -/
def State.aluImm (s : State) (lc : Fin 16) (gs : Bool) (gp : Fin 8) (rd ra : Fin 32) (b : Word) (f : Word → Word → Word)
    (ov : Word → Word → Bool) : Outcome :=
  s.simple lc gs gp [ra] [rd] fun r => r.result rd (f (r.get ra) b) (ov (r.get ra) b) false

/-- ADDI: the signed immediate; V as ADD (R285). -/
def execAddi (lc : Fin 16) (gs : Bool) (gp : Fin 8) (rd ra : Fin 32) (imm : BitVec 12) (s : State) : Outcome :=
  s.aluImm lc gs gp rd ra (sext imm) (fun a b => a + b) addOverflows

/-- ANDI (R285). -/
def execAndi (lc : Fin 16) (gs : Bool) (gp : Fin 8) (rd ra : Fin 32) (imm : BitVec 12) (s : State) : Outcome :=
  s.aluImm lc gs gp rd ra (zext imm) (fun a b => a &&& b) (fun _ _ => false)

/-- ORI (R285). -/
def execOri (lc : Fin 16) (gs : Bool) (gp : Fin 8) (rd ra : Fin 32) (imm : BitVec 12) (s : State) : Outcome :=
  s.aluImm lc gs gp rd ra (zext imm) (fun a b => a ||| b) (fun _ _ => false)

/-- XORI (R285). -/
def execXori (lc : Fin 16) (gs : Bool) (gp : Fin 8) (rd ra : Fin 32) (imm : BitVec 12) (s : State) : Outcome :=
  s.aluImm lc gs gp rd ra (zext imm) (fun a b => a ^^^ b) (fun _ _ => false)

/-- SHI (R283). -/
def execShi (lc : Fin 16) (gs : Bool) (gp : Fin 8) (rd ra : Fin 32) (op : Fin 5) (sh : Byte) (s : State) : Outcome :=
  s.aluImm lc gs gp rd ra 0 (fun a _ => shiftOp op a sh.toNat) (fun _ _ => false)

/-- MOVW: the low half with the rest cleared, or the high half over rd's low half (R285). -/
def execMovw (lc : Fin 16) (gs : Bool) (gp : Fin 8) (rd : Fin 32) (h : Bool) (imm : BitVec 16) (s : State) : Outcome :=
  s.simple lc gs gp (if h then [rd] else []) [rd] fun r =>
    r.result rd (if h then (zext imm <<< 16) ||| (r.get rd &&& 0xFFFF#32) else zext imm) false false

end Sys2Proof.Machine
end

