-- ==== Sys2Proof/Machine/LoadStore.lean ====
section
/-! DEFINITION. Loads and stores, their completion, and the use of a poisoned value (R257, R258, R263, R264, R288, R292-R293,
R303, R335, R346). -/

namespace Sys2Proof.Machine

/-- LD (R288): a permitted load is issued and the context goes on; its value lands when the access is performed.
(DESIGN CHOICE: log entries 9, 11.) -/
def execLd (lc : Fin 16) (gs : Bool) (gp : Fin 8) (r ra : Fin 32) (w : Fin 5) (off : BitVec 9) (nsym : Nat) (s : State) : Outcome :=
  s.issue lc gs gp legal 4 [ra] [r] fun k s =>
    let a := (s.cx k).effective ra w off
    if s.canAccess a (widthBytes w) false then s.access k .load a w 0 r nsym fun s => s.advance k 4
    else s.trapNow k trapAccess (BitVec.ofNat 32 a)

/-- ST (R288). Its width code is twice `w` (R281). -/
def execSt (lc : Fin 16) (gs : Bool) (gp : Fin 8) (r ra : Fin 32) (w : Fin 3) (off : BitVec 9) (s : State) : Outcome :=
  s.issue lc gs gp legal 4 [r, ra] [] fun k s =>
    let c := 2 * w.val
    let a := (s.cx k).effective ra c off
    if s.canAccess a (widthBytes c) true then
      s.access k .store a c (((s.cx k).get r).toNat % 256 ^ widthBytes c) 0 0 fun s => s.advance k 4
    else s.trapNow k trapAccess (BitVec.ofNat 32 a)

/-- The fetch that a context waits for completes (R259, R262): the line enters the cache of its pair, whatever it holds, and the
context is READY; the instruction meets an uncorrectable word (R346). (DESIGN CHOICE: log entry 11.) -/
def State.fetchDone (s : State) (k line nsym : Nat) : State :=
  match s.placeOf (line * 32) with
  | none => (s.toSt k .ready).wakeOps (k / 32)
  | some p =>
    let r := s.memRead p nsym none
    let s := r.1.cacheLine (r.1.pairOfCore (k / 32)) line r.2
    (s.toSt k .ready).wakeOps (k / 32)

/-- The island that a request of a core crosses to (R19, R256-R258). -/
def State.targetIsland (s : State) (a : Nat) : Island :=
  if isPageSpace a then s.islandOf ((a - 0x40000000) / 0x1000)
  else if 0x60000000 ≤ a then .pwr
  else if s.isLocal a then (let p := s.pairOfCore ((a - 0x18000000) / 0x10000); if p = 15 then .mem else .cp p)
  else .mem

/-- A request has reached its target: every request that its pair sent there before, to a page or to the same memory, has been
performed (R18). Requests of one context go by `State.orderly`. (DEDUCED: log entry 10.) -/
def State.arrived (s : State) (o : Op) : Bool :=
  s.ops.all fun q => !(decide (q.id < o.id) && q.slot && !(q.kind ≠ .post && isWindow q.addr) && s.orderly q &&
    s.pairOfCore (q.ctx / 32) == s.pairOfCore (o.ctx / 32) && s.targetIsland q.addr == s.targetIsland o.addr &&
    isPageSpace q.addr == isPageSpace o.addr &&
    (isPageSpace o.addr || (s.placeOf q.addr).map placeMacro == (s.placeOf o.addr).map placeMacro))

/-- ACCESS_COMPLETE (R18, R263, R292, R293, R309, R335): an operation whose order allows it is performed where its target answers, and
completes; a window request leaves its pair, and completes by its answer. (DESIGN CHOICE: log entries 9, 11.) -/
def execAccessComplete (a : AccRef) (nsym : Nat) (s : State) : Outcome :=
  let s := s.releaseDueAll
  match a with
  | .op id =>
    match s.ops.find? (·.id = id) with
    | none => .next s
    | some o =>
      let t := s.releaseTo (o.ctx / 32) id
      if o.kind ≠ .post ∧ isWindow o.addr then .next (t.windowPump t.ops.length)
      else if !s.orderly o ∨ (o.slot ∧ !s.arrived o) ∨ (o.slot ∧ !s.memAnswers o.addr (o.kind = .store)) ∨
          ((o.addr - 0x40000000) / 0x1000 = lcmPg ∧ isPageSpace o.addr ∧ o.kind = .load ∧ s.lcmMoves (o.addr % 0x1000) (s.reg lcmPg (o.addr % 0x1000))) then .next s
      else .next ((t.perform o nsym).settle o.ctx)
  | .fetch lc i =>
    let k := 32 * lc.val + i.val
    match (s.cx k).st, (s.cx k).opw with
    | .opwait, .fetch line => if s.coreRuns lc ∧ s.memAnswers (line * 32) false then .next (s.fetchDone k line nsym) else .next s
    | _, _ => .next s

/-- POISON_USE (R264, R303): the context that issues uses a register that holds a value from an uncorrectable word. -/
def execPoisonUse (lc : Fin 16) (r : Fin 32) (s : State) : Outcome := s.issue lc false 0 legal 4 [r] [] fun _ s => s

end Sys2Proof.Machine
end

