-- ==== Sys2Proof/Machine/Strings.lean ====
section
/-! DEFINITION. The string instructions and RPT (R300-R302, R313). -/

namespace Sys2Proof.Machine

/-- The string operations (R300). -/
inductive StrKind where
  | movs | fills | cmps | scans | crcs
  deriving DecidableEq, Repr

/-- A string instruction's fields. -/
structure StrOp where
  kind : StrKind
  rd : Nat
  rs : Nat
  rc : Nat
  sz : Fin 3
  pd : Nat := 0
  deriving DecidableEq, Repr

/-- The element size (R300); CRCS takes bytes (R302). -/
def StrOp.size (z : StrOp) : Nat := if z.kind = .crcs ∨ z.sz = 0 then 1 else if z.sz = 1 then 2 else 4

/-- The load width of an element. -/
def StrOp.width (z : StrOp) : Nat := if z.kind = .crcs then 1 else elemWidth z.sz

/-- The addresses that an element loads from (R300). -/
def StrOp.loads (z : StrOp) (r : CtxRegs) : List Nat :=
  match z.kind with
  | .movs => [(r.get z.rs).toNat]
  | .fills => []
  | .cmps => [(r.get z.rd).toNat, (r.get z.rs).toNat]
  | .scans => [(r.get z.rd).toNat]
  | .crcs => [(r.get z.rs).toNat]

/-- The address that an element stores to (R300). -/
def StrOp.store (z : StrOp) (r : CtxRegs) : Option Nat :=
  match z.kind with
  | .movs => some (r.get z.rd).toNat
  | .fills => some (r.get z.rd).toNat
  | _ => none

/-- The value compared or stored from a register, cut to the element (R300). -/
def StrOp.cut (z : StrOp) (w : Word) : Nat := w.toNat % 256 ^ z.size

/-- The first forbidden address of an element (R257, R258). -/
def State.elemDenied (s : State) (z : StrOp) (r : CtxRegs) : Option Nat :=
  match (z.loads r).find? fun a => !s.canAccess a z.size false with
  | some a => some a
  | none => match z.store r with
    | some a => if s.canAccess a z.size true then none else some a
    | none => none

/-- The registers step to the next element (R300). (DEDUCED: log entry 8.) -/
def CtxRegs.elemStep (r : CtxRegs) (n : Nat) (both : Bool) (z : StrOp) : CtxRegs :=
  let q := r.set z.rd (r.get z.rd + BitVec.ofNat 32 n)
  let q := if both then q.set z.rs (r.get z.rs + BitVec.ofNat 32 n) else q
  q.set z.rc (r.get z.rc - 1)

/-- What an element does to the registers, from the values it loaded (R300, R302): the registers after it, and whether it
stopped. -/
def StrOp.finish (z : StrOp) (r : CtxRegs) (vals : List Word) : CtxRegs × Bool :=
  let r : CtxRegs := { r with elem := [], bad := r.bad.filter (·.1 ≠ 32) }
  let a := vals.headD 0
  let b := (vals.drop 1).headD 0
  match z.kind with
  | .movs => (r.elemStep z.size true z, false)
  | .fills => (r.elemStep z.size false z, false)
  | .cmps => if a = b then (r.elemStep z.size true z, false) else (r, true)
  | .scans => if a.toNat = z.cut (r.get z.rs) then (r, true) else (r.elemStep z.size false z, false)
  | .crcs =>
    let q := (r.set z.rd (crcsStep z.sz (r.get z.rd) a)).set z.rs (r.get z.rs + 1)
    (q.set z.rc (r.get z.rc - 1), false)

/-- How an element ends: the context parked or trapped, or the element is performed and stopped or not. -/
inductive ElemEnd where
  | off (s : State)
  | done (s : State) (stop : Bool)

/-- The loads of an element that are performed: none beyond memory where an address of the element is forbidden, so that an
uncorrectable word among them is met first (R304). -/
def State.elemLoads (s : State) (z : StrOp) (r : CtxRegs) : List Nat :=
  if (s.elemDenied z r).isNone then z.loads r
  else (z.loads r).filter fun a => s.canAccess a z.size false && !isPageSpace a

/-- An element of a context whose count is not 0 (R300): its loads come one after the other, and the context waits for each; an
uncorrectable word traps before a forbidden address does (R304); then its store, its registers step, and the PC advances by
`adv`. (DEDUCED: log entry 8.) -/
def State.element (s : State) (k : Nat) (z : StrOp) (nsym adv : Nat) : ElemEnd :=
  let r := s.cx k
  let ls := s.elemLoads z r
  let load := fun (t : State) =>
    let have_ := (t.cx k).elem.length
    if have_ < ls.length ∧ !t.awaits k 32 then t.access k .load (ls.getD have_ 0) z.width 0 32 nsym id else t
  let s := load s
  let s := if (s.cx k).st = .run ∧ s.issuing (k / 32) = some k then load s else s
  if s.issuing (k / 32) ≠ some k ∨ (s.cx k).tmode ≠ r.tmode then .off s
  else if s.awaits k 32 ∨ (s.cx k).elem.length < ls.length then
    .off (if s.awaits k 32 then s.opWait k (.regs [32]) else s)
  else match (s.cx k).poisonOf [32], s.elemDenied z r with
  | some a, _ => .off (s.trapNow k trapPoison a)
  | none, some a => .off (s.trapNow k trapAccess (BitVec.ofNat 32 a))
  | none, none =>
    let vals := (s.cx k).elem.map (·.2)
    let stop := (z.finish r vals).2
    match z.store r with
    | none => .done ((s.modCx k fun r => (z.finish r vals).1).advance k adv) stop
    | some a =>
      let d := if z.kind = .fills then z.cut (r.get z.rs) else (vals.headD 0).toNat
      let t := s.access k .store a z.width d 0 0 fun s => (s.modCx k fun r => (z.finish r vals).1).advance k adv
      if (t.cx k).get z.rc = r.get z.rc then .off t else .done t stop

/-- pd at the end (R300, R301): CMPS, whether rc reached 0; SCANS, whether it stopped on a match. -/
def State.stringEnd (s : State) (k : Nat) (z : StrOp) (stop : Bool) (n : Nat) : State :=
  s.modCx k fun r =>
    let q := match z.kind with
      | .cmps => r.setP z.pd (r.get z.rc == 0)
      | .scans => r.setP z.pd stop
      | _ => r
    { q with pc := r.pc + BitVec.ofNat 32 n }

/-- A context that drains ends at this boundary (R270, R301). -/
def State.boundary (s : State) (k : Nat) : State := if (s.cx k).drain then (s.drainEnd k).schedule (k / 32) else s

/-- A string instruction without RPT (R301): one element, or none. (DEDUCED: log entry 8.) -/
def State.stringOne (s : State) (k : Nat) (z : StrOp) (nsym : Nat) : State :=
  if (s.cx k).get z.rc = 0 then s.stringEnd k z false 4
  else match s.element k z nsym 4 with
  | .off t => t
  | .done t stop => (t.stringEnd k z stop 0).boundary k

/-- The registers a string instruction reads and writes. -/
def StrOp.regs (z : StrOp) : List Nat := [z.rd, z.rs, z.rc]

/-- The register rules of R300. -/
def StrOp.legal (z : StrOp) : Bool :=
  stringRegs (Fin.ofNat 32 z.rd) (Fin.ofNat 32 z.rs) (Fin.ofNat 32 z.rc) (z.kind = .fills ∨ z.kind = .scans)

/-- A string instruction issues. -/
def State.string (s : State) (lc : Fin 16) (gs : Bool) (gp : Fin 8) (w : Word) (z : StrOp) (nsym : Nat) : Outcome :=
  s.issue lc gs gp (fun _ => if z.legal then none else some w) 4 z.regs [] fun k s => s.stringOne k z nsym

/-- MOVS (R300). -/
def execMovs (lc : Fin 16) (gs : Bool) (gp : Fin 8) (rd rs rc : Fin 32) (sz : Fin 3) (nsym : Nat) (s : State) : Outcome :=
  s.string lc gs gp (wordOf gs gp 0x15 (fmtZ rd rs rc sz 0)) { kind := .movs, rd := rd, rs := rs, rc := rc, sz := sz } nsym

/-- FILLS (R300). -/
def execFills (lc : Fin 16) (gs : Bool) (gp : Fin 8) (rd rs rc : Fin 32) (sz : Fin 3) (s : State) : Outcome :=
  s.string lc gs gp (wordOf gs gp 0x16 (fmtZ rd rs rc sz 0)) { kind := .fills, rd := rd, rs := rs, rc := rc, sz := sz } 0

/-- CMPS (R300). -/
def execCmps (lc : Fin 16) (gs : Bool) (gp : Fin 8) (rd rs rc : Fin 32) (sz : Fin 3) (pd : Fin 8) (nsym : Nat) (s : State) : Outcome :=
  s.string lc gs gp (wordOf gs gp 0x17 (fmtZ rd rs rc sz pd)) { kind := .cmps, rd := rd, rs := rs, rc := rc, sz := sz, pd := pd } nsym

/-- SCANS (R300). -/
def execScans (lc : Fin 16) (gs : Bool) (gp : Fin 8) (rd rs rc : Fin 32) (sz : Fin 3) (pd : Fin 8) (nsym : Nat) (s : State) : Outcome :=
  s.string lc gs gp (wordOf gs gp 0x18 (fmtZ rd rs rc sz pd)) { kind := .scans, rd := rd, rs := rs, rc := rc, sz := sz, pd := pd } nsym

/-- CRCS (R300, R302). -/
def execCrcs (lc : Fin 16) (gs : Bool) (gp : Fin 8) (rd rs rc : Fin 32) (sz : Fin 3) (nsym : Nat) (s : State) : Outcome :=
  s.string lc gs gp (wordOf gs gp 0x19 (fmtZ rd rs rc sz 0)) { kind := .crcs, rd := rd, rs := rs, rc := rc, sz := sz } nsym

/-- The string instruction that an RPT repeats: a legal one with guard 0b0000 (R301). (DEDUCED: log entry 7.) -/
def repeated (lc : Fin 16) (w : Word) : Option StrOp :=
  match decodePx32 lc w with
  | some (.movs _ false 0 rd rs rc sz _) => some { kind := .movs, rd := rd, rs := rs, rc := rc, sz := sz }
  | some (.fills _ false 0 rd rs rc sz) => some { kind := .fills, rd := rd, rs := rs, rc := rc, sz := sz }
  | some (.cmps _ false 0 rd rs rc sz pd _) => some { kind := .cmps, rd := rd, rs := rs, rc := rc, sz := sz, pd := pd }
  | some (.scans _ false 0 rd rs rc sz pd _) => some { kind := .scans, rd := rd, rs := rs, rc := rc, sz := sz, pd := pd }
  | some (.crcs _ false 0 rd rs rc sz _) => some { kind := .crcs, rd := rd, rs := rs, rc := rc, sz := sz }
  | _ => none

/-- Up to `n` elements under RPT (R301): the PC stays at the RPT until it exits, with rc = 0 before any boundary.
(DEDUCED: log entry 7.) -/
def State.repeatElems (s : State) (k : Nat) (z : StrOp) (nsym : Nat) : Nat → State
  | 0 => if (s.cx k).get z.rc = 0 then s.stringEnd k z false 8 else s
  | n + 1 =>
    if (s.cx k).get z.rc = 0 then s.stringEnd k z false 8
    else match s.element k z nsym 0 with
    | .off t => t
    | .done t true => (t.stringEnd k z true 8).boundary k
    | .done t false =>
      let t := t.cycle (k / 32)
      if (t.cx k).get z.rc = 0 then (t.stringEnd k z false 8).boundary k
      else if t.issuing (k / 32) = some k ∧ (t.cx k).late = [] then State.repeatElems t k z nsym n else t.boundary k

/-- RPT (R301): `w` is the word after it; at most `n` elements are performed before the next boundary at which something is
pending. With a failed guard both words are skipped. (DEDUCED: log entry 7.) -/
def execRpt (lc : Fin 16) (gs : Bool) (gp : Fin 8) (w : Word) (n nsym : Nat) (s : State) : Outcome :=
  s.issue lc gs gp legal 8 [] [] fun k s =>
    let a := (s.cx k).pc + 4
    s.atWord k a (fun s cause => ((s.dropElem k).takeTrap k cause false a a).schedule (k / 32)) fun s =>
      match repeated lc w with
      | none => s.trapNow k trapIllegal (wordOf gs gp 0x14 0)
      | some z => s.operands k z.regs [] fun s => s.repeatElems k z nsym n

end Sys2Proof.Machine
end

