-- ==== Sys2Proof/Machine/System.lean ====
section
/-! DEFINITION. The system functions and system registers (R290, R291, R294). -/

namespace Sys2Proof.Machine

/-- FENCE (R294): with an access outstanding the context waits in RUN; else it completes. Its word with guard 0b1000 is the
YIELD hint (R278). -/
def execFence (lc : Fin 16) (gs : Bool) (gp : Fin 8) (s : State) : Outcome :=
  if neverGuard gs gp then s.hint lc true
  else s.issue lc gs gp legal 4 [] [] fun k s =>
    if (s.opsOf k).all (·.kind = .post) then s.advance k 4
    else (s.modCtx k fun c => { c with fence := true }).schedule (k / 32)

/-- The return from an ordinary trap is legal (R290). -/
def CtxRegs.mayRtt (r : CtxRegs) : Bool := r.tmode && !r.nmode

/-- RTT (R290). -/
def execRtt (lc : Fin 16) (gs : Bool) (gp : Fin 8) (s : State) : Outcome :=
  s.issue lc gs gp (fun r => if r.mayRtt then none else some (wordOf gs gp 0 0x02)) 4 [] [] fun k s =>
    s.modCx k fun r => { r with tmode := false, pc := r.ctpc }

/-- RTT.N (R290). -/
def execRttN (lc : Fin 16) (gs : Bool) (gp : Fin 8) (s : State) : Outcome :=
  s.issue lc gs gp (fun r => if r.mayRtt then none else some (wordOf gs gp 0 0x03)) 4 [] [] fun k s =>
    s.modCx k fun r => { r with tmode := false, pc := r.ctpc + 4 }

/-- RTN: leaves NMODE at CNPC; a held NMT is then taken (R269, R290). -/
def execRtn (lc : Fin 16) (gs : Bool) (gp : Fin 8) (s : State) : Outcome :=
  s.issue lc gs gp (fun r => if r.nmode then none else some (wordOf gs gp 0 0x04)) 4 [] [] fun k s =>
    let s := s.modCx k fun r => { r with nmode := false, pc := r.cnpc }
    let l := s.lcAt (k / 32)
    if l.nmtHeld then (s.setLc (k / 32) { l with nmtHeld := false }).takeNmt (k / 32) else s.schedule (k / 32)

/-- TRAP: the detail is the code (R290). -/
def execTrap (lc : Fin 16) (gs : Bool) (gp : Fin 8) (code : BitVec 16) (s : State) : Outcome :=
  s.issue lc gs gp legal 4 [] [] fun k s => s.trapNow k trapSoft (zext code)

/-- RDTB: {g(rt+1), g(rt)} := TB; rt is even (R290, R298, R315). -/
def execRdtb (lc : Fin 16) (gs : Bool) (gp : Fin 8) (rt : Fin 32) (s : State) : Outcome :=
  s.issue lc gs gp (fun _ => if rt.val % 2 = 1 then some (wordOf gs gp 0 (rt.val * 0x20000 + 0x06)) else none) 4 []
    [rt.val, rt.val + 1] fun k s =>
    s.noted k .rdtb 0 s.tb fun v s =>
      s.modCx k fun r =>
        let q := (r.set rt (BitVec.ofNat 32 v)).set (rt.val + 1) (BitVec.ofNat 32 (v / 2 ^ 32))
        { q with pc := r.pc + 4 }

/-- System registers as MFS reads them, in context `k` (R291). -/
def CtxRegs.sysReg (r : CtxRegs) (k n : Nat) : Word :=
  match n with
  | 0 => r.ctpc
  | 1 => r.ctcause.zeroExtend 32
  | 2 => r.ctval
  | 3 => r.cnpc
  | 4 => r.scr0
  | 5 => r.scr1
  | 6 => r.status
  | 7 => BitVec.ofNat 32 (k % 512)
  | 9 => r.predicates
  | _ => 0

/-- System registers as MTS writes them (R291). -/
def CtxRegs.setSysReg (r : CtxRegs) (n : Nat) (w : Word) : CtxRegs :=
  match n with
  | 4 => { r with scr0 := w }
  | 5 => { r with scr1 := w }
  | 6 => r.setStatus w
  | 9 => r.setPredicates w
  | _ => r

/-- MFS: an undefined number is illegal (R291). -/
def execMfs (lc : Fin 16) (gs : Bool) (gp : Fin 8) (rd sr : Fin 32) (s : State) : Outcome :=
  s.issue lc gs gp (fun _ => if mfsDefined sr then none else some (wordOf gs gp 0 (fmtY rd sr 0x08))) 4 [] [rd] fun k s =>
    s.modCx k fun r => r.result rd (r.sysReg k sr) false false

/-- MTS: a number that is not RW is illegal (R291). -/
def execMts (lc : Fin 16) (gs : Bool) (gp : Fin 8) (ra sr : Fin 32) (s : State) : Outcome :=
  s.issue lc gs gp (fun _ => if mtsDefined sr then none else some (wordOf gs gp 0 (fmtY ra sr 0x09))) 4 [ra] [] fun k s =>
    s.modCx k fun r =>
      let q := r.setSysReg sr (r.get ra)
      { q with pc := r.pc + 4 }

end Sys2Proof.Machine
end

