-- ==== Sys2Proof/Machine/Waits.lean ====
section
/-! DEFINITION. Events and time: SEND.EV, WAIT.EV and WAIT.T (R263, R265-R267, R296-R299, R315). -/

namespace Sys2Proof.Machine

/-- SEND.EV (R296): numbers 0-255 take the event trap; another leaves after every earlier store of the context.
(DEDUCED: log entry 10.) -/
def execSendEv (lc : Fin 16) (gs : Bool) (gp : Fin 8) (n : EvSrc) (s : State) : Outcome :=
  s.issue lc gs gp legal 4 (evRegs n) [] fun k s =>
    let e := (s.cx k).eventOf n
    if e < 256 then s.trapNow k trapEvent (BitVec.ofNat 32 e)
    else s.access k .post 0 0 e 0 0 fun s => s.advance k 4

/-- A context parks in WAITEV or WAITT with a slot (R263, R297, R298). -/
def State.parkWait (s : State) (k : Nat) (st : CtxSt) (f : CtxRegs → CtxRegs) : State :=
  if s.slotsFull k then s.opWait k .slot else (((s.takeSlot k).modCx k f).toSt k st).schedule (k / 32)

/-- The re-execution meets a recorded wait, or the first execution finds outcome `v` at once; else `park` (R315, R317). `data` is
what the entry says of the wait. -/
def State.waitOr (s : State) (k data : Nat) (v : Option Nat) (first : State → State) (go : Nat → State → State)
    (park : State → State) : State :=
  if (s.ctxAt k).replay ≠ [] then s.noted k .wait data 0 go
  else match v with
  | some v => s.noted k .wait data v fun v s => go v (first s)
  | none => park s

/-- WAIT.EV (R297): a pending event is consumed; a deadline already observed ends the wait; else the context parks. -/
def execWaitEv (lc : Fin 16) (gs : Bool) (gp : Fin 8) (pd : Fin 8) (rt : Option (Fin 32)) (n : EvSrc) (s : State) : Outcome :=
  let bad : Option Word := match rt with
    | some r => if r.val % 2 = 1 then some (wordOf gs gp 0x11 (fmtE pd rt n)) else none
    | none => none
  let srcs : List Nat := match rt with | some r => evRegs n ++ [r.val, r.val + 1] | none => evRegs n
  s.issue lc gs gp (fun _ => bad) 4 srcs [] fun k s =>
    let r := s.cx k
    let l := s.lcAt (k / 32)
    let e := r.eventOf n
    let d : Option Nat := rt.map fun t => r.pair t
    let pends := l.pend.testBit e
    let now : Option Nat := if pends then some 1 else match d with
      | some t => if t ≤ s.tb then some 0 else none
      | none => none
    s.waitOr k (e + 1) now
      (fun s => if pends then s.setLc (k / 32) { s.lcAt (k / 32) with pend := (s.lcAt (k / 32)).pend ^^^ 2 ^ e } else s)
      (fun v s => s.modCx k fun r => let q := r.setP pd (v == 1); { q with pc := r.pc + 4 })
      fun s => s.parkWait k .waitev fun r => { r with evt := e, deadline := d, waitPd := pd.val }

/-- WAIT.T (R298): rt is even. -/
def execWaitT (lc : Fin 16) (gs : Bool) (gp : Fin 8) (rt : Fin 32) (s : State) : Outcome :=
  s.issue lc gs gp (fun _ => if rt.val % 2 = 1 then some (wordOf gs gp 0x12 (rt.val * 0x20000)) else none) 4
    [rt.val, rt.val + 1] [] fun k s =>
    let d := (s.cx k).pair rt
    s.waitOr k 0 (if d ≤ s.tb then some 1 else none) id (fun _ s => s.advance k 4)
      fun s => s.parkWait k .waitt fun r => { r with deadline := some d }

/-- EVENT_POSTING_ARRIVAL (R18, R265, R266): the first posting of the event on its way to the core arrives; one that still
waits in the release buffer of its pair has been released (R309). (DEDUCED: log entry 10.) -/
def execEventPostingArrival (lc : Fin 16) (ev : BitVec 10) (s : State) : Outcome :=
  let e := ev.toNat
  let s := s.releaseDueAll
  let s := if s.postings.any (fun p => p.ev = e && p.goesTo lc) then s
    else match s.ops.find? fun o => o.kind = .post && o.data = e with
      | some o => s.releaseTo (o.ctx / 32) o.id
      | none => s
  .next (s.deliver lc e)

end Sys2Proof.Machine
end

