-- ==== Sys2Proof/Machine/Window.lean ====
section
/-! DEFINITION. The link-folder window and remote accesses (R65-R71, R413). -/

namespace Sys2Proof.Machine

/-- LF_WRITE_APPLY (R67): the oldest held write takes effect once the window accesses issued before it have completed; later
accesses go on. -/
def execLfWriteApply (s : State) : Outcome :=
  match s.lfHeld with
  | [] => .next s
  | h :: t =>
    if s.windowBefore h.2.2 ∨ !s.clocked .net then .next s
    else
      let s := State.lfEffect { s with lfHeld := t } h.1 h.2.1
      .next (s.windowPump s.ops.length)

/-- What a register of a linked device reads as through the window (R71); an unallocated page reads as it is (R10). The device's
own link folder shows no child, at the live or the sketch address. (DEDUCED: log entry 23.) -/
def State.remoteView (s : State) (pg off : Nat) (d : Word) : Word :=
  if (kindOf pg).isNone then d
  else if off = 0x008 then d ||| 8
  else if off = 0x00C then
    let d := (d &&& 0xFFFF#32) ||| BitVec.ofNat 32 (s.fld lfPg R.LF.STAT.DEPTH * 0x10000)
    if pg = 0 then (d &&& 0xFFFFF000#32) ||| 0xF00#32 else d
  else if pg = lfPg ∧ (off = 0x010 ∨ off = 0x100 ∨ off = 0x900) then 0
  else d

/-- PGRSP_RECEIVED (R65, R413): the answer to the access that was sent completes it, and OPEN sets.
(DEDUCED: log entry 25.) -/
def execPgrspReceived (id : Nat) (d : Word) (s : State) : Outcome :=
  match s.ops.find? fun o => o.sent.isSome && o.id = id with
  | none => .next s
  | some o =>
    if !s.clocked .net then .next s
    else
      let v := s.remoteView ((o.addr - 0x41000000) / 0x1000) (o.addr % 0x1000) d
      .next (((s.setBit lfPg R.LF.STAT.OPEN true).opDone o v.toNat false false).settle o.ctx)

/-- The tick at which a request that left at `t` has waited LF.TMO microseconds, 0 taken as 1 (R65, R68). -/
def State.windowEnd (s : State) (t : Nat) : Nat := t + 100 * max 1 (s.fld lfPg R.LF.TMO.US)

/-- WINDOW_TIMEOUT (R68): no answer within LF.TMO of the request. (DESIGN CHOICE: log entry 2.) -/
def execWindowTimeout (id : Nat) (s : State) : Outcome :=
  match s.ops.find? fun o => o.id = id with
  | none => .next s
  | some o =>
    match o.sent with
    | none => .next s
    | some t =>
      if !s.clocked .net then .next s
      else s.atTick (s.windowEnd t) fun s =>
        let s := s.windowFail o R.LF.STAT.TMO 1
        s.windowPump s.ops.length

/-- CLOCK_RETURN (R92): of an island whose clock was lost; one that has been gated since stays stopped. The link engine goes on
with the window accesses that wait. (DEDUCED: log entry 54.) -/
def execClockReturn (i : Fin 17) (s : State) : Outcome :=
  if !s.clkLost.contains i.val ∨ s.clkBit R.CLK.GATE.G i ∨ s.power = .park ∨ s.xinOut then .next s
  else
    let s := s.islandRuns i
    .next (s.windowPump s.ops.length)

/-- PGREQ_RECEIVED (R413): a linked device's access is performed as that of a remote writer, and answered.
(DEDUCED: log entry 24.) -/
def execPgreqReceived (q : PgReq) (s : State) : Outcome :=
  let pg := q.pg.toNat
  if !s.clocked .net ∨ !s.clocked (s.islandOf pg) then .next s
  else if q.write then
    let s := s.writeReg .remote pg q.off.toNat q.data
    .next ((s.count linkPg 4).farFlood 3 (.pgrsp q.seq (if (kindOf pg).isNone then 0 else s.fld pg R.PG_STAT.CODE) 0 q.initiator.toNat))
  else
    let r := s.readReg pg q.off.toNat
    .next ((r.1.count linkPg 4).farFlood 3 (.pgrsp q.seq 0 r.2.toNat q.initiator.toNat))

end Sys2Proof.Machine
end

