-- ==== Sys2Proof/Machine/Dispatch.lean ====
section
/-! DEFINITION. One arm per command: each a direct call of its meaning. -/

namespace Sys2Proof.Machine

/-- The effect of a command on everything but the queue. (DESIGN CHOICE: log entry 66.) -/
def exec (i : Instr) (s : State) : Host.Outcome State Fault Refusal :=
  match i with
  | .registerWrite w pg off d => Sys2Proof.Machine.execRegisterWrite w pg off d s
  | .sketchWrite w pg off d => Sys2Proof.Machine.execSketchWrite w pg off d s
  | .cclr pg => Sys2Proof.Machine.execCclr pg s
  | .brst pg => Sys2Proof.Machine.execBrst pg s
  | .pgLockWrite pg key tree lk => Sys2Proof.Machine.execPgLockWrite pg key tree lk s
  | .check => Sys2Proof.Machine.execCheck s
  | .checkComplete => Sys2Proof.Machine.execCheckComplete s
  | .fix => Sys2Proof.Machine.execFix s
  | .abort => Sys2Proof.Machine.execAbort s
  | .fixApply => Sys2Proof.Machine.execFixApply s
  | .fixComplete => Sys2Proof.Machine.execFixComplete s
  | .fixbReceived tag t => Sys2Proof.Machine.execFixbReceived tag t s
  | .fixaReceived tag id armed => Sys2Proof.Machine.execFixaReceived tag id armed s
  | .lfWrite w off d => Sys2Proof.Machine.execLfWrite w off d s
  | .lfWriteApply => Sys2Proof.Machine.execLfWriteApply s
  | .pgreqReceived q => Sys2Proof.Machine.execPgreqReceived q s
  | .pgrspReceived id d => Sys2Proof.Machine.execPgrspReceived id d s
  | .windowTimeout id => Sys2Proof.Machine.execWindowTimeout id s
  | .tbcCtrlWrite n intv arm => Sys2Proof.Machine.execTbcCtrlWrite n intv arm s
  | .tbcFire n => Sys2Proof.Machine.execTbcFire n s
  | .capture m src => Sys2Proof.Machine.execCapture m src s
  | .syncRoleWrite role => Sys2Proof.Machine.execSyncRoleWrite role s
  | .syncMessage m => Sys2Proof.Machine.execSyncMessage m s
  | .syncMissed => Sys2Proof.Machine.execSyncMissed s
  | .holdoverTimeout => Sys2Proof.Machine.execHoldoverTimeout s
  | .deferredTbStep => Sys2Proof.Machine.execDeferredTbStep s
  | .clockLoss n => Sys2Proof.Machine.execClockLoss n s
  | .clockReturn n => Sys2Proof.Machine.execClockReturn n s
  | .crystalFailure => Sys2Proof.Machine.execCrystalFailure s
  | .pllUnlock n => Sys2Proof.Machine.execPllUnlock n s
  | .islandPllLock v => Sys2Proof.Machine.execIslandPllLock v s
  | .liveOutputWrite w o d => Sys2Proof.Machine.execLiveOutputWrite w o d s
  | .envelopeBreakpoint n => Sys2Proof.Machine.execEnvelopeBreakpoint n s
  | .hsClr n => Sys2Proof.Machine.execHsClr n s
  | .clrr n => Sys2Proof.Machine.execClrr n s
  | .testWindowOpen n len => Sys2Proof.Machine.execTestWindowOpen n len s
  | .windowClose n len => Sys2Proof.Machine.execWindowClose n len s
  | .testWindowExpiry n => Sys2Proof.Machine.execTestWindowExpiry n s
  | .trip n v => Sys2Proof.Machine.execTrip n v s
  | .retryIntervalEnd n => Sys2Proof.Machine.execRetryIntervalEnd n s
  | .ceilTrip n v => Sys2Proof.Machine.execCeilTrip n v s
  | .reverseCurrent n v => Sys2Proof.Machine.execReverseCurrent n v s
  | .stuckOn n v => Sys2Proof.Machine.execStuckOn n v s
  | .senseConversion u => Sys2Proof.Machine.execSenseConversion u s
  | .offStateDiagnosis n vbat va vb => Sys2Proof.Machine.execOffStateDiagnosis n vbat va vb s
  | .offPhaseShortSample n vbat va left => Sys2Proof.Machine.execOffPhaseShortSample n vbat va left s
  | .crossTestEdge b a rising => Sys2Proof.Machine.execCrossTestEdge b a rising s
  | .budgetExceeded b v => Sys2Proof.Machine.execBudgetExceeded b v s
  | .undervoltageEntry die => Sys2Proof.Machine.execUndervoltageEntry die s
  | .undervoltageExit die => Sys2Proof.Machine.execUndervoltageExit die s
  | .loadDumpEntry die => Sys2Proof.Machine.execLoadDumpEntry die s
  | .loadDumpExit die => Sys2Proof.Machine.execLoadDumpExit die s
  | .groundLoss die => Sys2Proof.Machine.execGroundLoss die s
  | .groundRestored die => Sys2Proof.Machine.execGroundRestored die s
  | .junctionShutdown o => Sys2Proof.Machine.execJunctionShutdown o s
  | .junctionShutdownExit o => Sys2Proof.Machine.execJunctionShutdownExit o s
  | .reverseBattery => Sys2Proof.Machine.execReverseBattery s
  | .reverseBatteryEnd => Sys2Proof.Machine.execReverseBatteryEnd s
  | .retouch n seg why => Sys2Proof.Machine.execRetouch n seg why s
  | .repairMapAppend => Sys2Proof.Machine.execRepairMapAppend s
  | .bridgeCoast k tgten => Sys2Proof.Machine.execBridgeCoast k tgten s
  | .bridgeBrake k tgten => Sys2Proof.Machine.execBridgeBrake k tgten s
  | .bridgeFwd k tgten => Sys2Proof.Machine.execBridgeFwd k tgten s
  | .bridgeRev k tgten => Sys2Proof.Machine.execBridgeRev k tgten s
  | .bridgePark k tgten => Sys2Proof.Machine.execBridgePark k tgten s
  | .startAllowanceEnd k => Sys2Proof.Machine.execStartAllowanceEnd k s
  | .sharedLegStart k => Sys2Proof.Machine.execSharedLegStart k s
  | .bridgeTrip k v => Sys2Proof.Machine.execBridgeTrip k v s
  | .legCeil l v => Sys2Proof.Machine.execLegCeil l v s
  | .bridgeClr k => Sys2Proof.Machine.execBridgeClr k s
  | .bridgeOffStateDiagnosis k vbat va vb => Sys2Proof.Machine.execBridgeOffStateDiagnosis k vbat va vb s
  | .stallTimeout k => Sys2Proof.Machine.execStallTimeout k s
  | .posWrite k v => Sys2Proof.Machine.execPosWrite k v s
  | .parkInputChange k => Sys2Proof.Machine.execParkInputChange k s
  | .parkRunTimeout k => Sys2Proof.Machine.execParkRunTimeout k s
  | .trig n => Sys2Proof.Machine.execTrig n s
  | .peakEnd n v => Sys2Proof.Machine.execPeakEnd n v s
  | .pkholdEnd n => Sys2Proof.Machine.execPkholdEnd n s
  | .endOfHold n => Sys2Proof.Machine.execEndOfHold n s
  | .decayEnd n v => Sys2Proof.Machine.execDecayEnd n v s
  | .mowaitEnd n => Sys2Proof.Machine.execMowaitEnd n s
  | .sideChangeoverEnd b => Sys2Proof.Machine.execSideChangeoverEnd b s
  | .valveOpen n v => Sys2Proof.Machine.execValveOpen n v s
  | .valveShort n v => Sys2Proof.Machine.execValveShort n v s
  | .pktime n => Sys2Proof.Machine.execPktime n s
  | .valveCeil n v => Sys2Proof.Machine.execValveCeil n v s
  | .vlClr n => Sys2Proof.Machine.execVlClr n s
  | .sideLatch b v => Sys2Proof.Machine.execSideLatch b v s
  | .clra => Sys2Proof.Machine.execClra s
  | .clrb => Sys2Proof.Machine.execClrb s
  | .bclr => Sys2Proof.Machine.execBclr s
  | .boostReady v => Sys2Proof.Machine.execBoostReady v s
  | .boostReadyLost v => Sys2Proof.Machine.execBoostReadyLost v s
  | .bovp v => Sys2Proof.Machine.execBovp v s
  | .buvto => Sys2Proof.Machine.execBuvto s
  | .sideLimpTimeout b => Sys2Proof.Machine.execSideLimpTimeout b s
  | .matrixSlotStart high drop => Sys2Proof.Machine.execMatrixSlotStart high drop s
  | .swap src => Sys2Proof.Machine.execSwap src s
  | .cancelSwap => Sys2Proof.Machine.execCancelSwap s
  | .swapTrigger src => Sys2Proof.Machine.execSwapTrigger src s
  | .pxcFrameStart => Sys2Proof.Machine.execPxcFrameStart s
  | .pxcLatch di => Sys2Proof.Machine.execPxcLatch di s
  | .deratingReading t => Sys2Proof.Machine.execDeratingReading t s
  | .ambientLoopIteration g => Sys2Proof.Machine.execAmbientLoopIteration g s
  | .sensorReadComplete g r => Sys2Proof.Machine.execSensorReadComplete g r s
  | .mxClr => Sys2Proof.Machine.execMxClr s
  | .ambClr g => Sys2Proof.Machine.execAmbClr g s
  | .shrowg r v => Sys2Proof.Machine.execShrowg r v s
  | .siSample n v vbat fail => Sys2Proof.Machine.execSiSample n v vbat fail s
  | .wettingHoldEnd n => Sys2Proof.Machine.execWettingHoldEnd n s
  | .parkSample n v vbat => Sys2Proof.Machine.execParkSample n v vbat s
  | .ioInputSample n v => Sys2Proof.Machine.execIoInputSample n v s
  | .ioClr n => Sys2Proof.Machine.execIoClr n s
  | .readbackMismatch n => Sys2Proof.Machine.execReadbackMismatch n s
  | .ioCurrentLimit n => Sys2Proof.Machine.execIoCurrentLimit n s
  | .ioTsd n => Sys2Proof.Machine.execIoTsd n s
  | .fieldSupplyChange v => Sys2Proof.Machine.execFieldSupplyChange v s
  | .laneLoss n => Sys2Proof.Machine.execLaneLoss n s
  | .fieldCommandTimeout n => Sys2Proof.Machine.execFieldCommandTimeout n s
  | .clauseTrigger subj v => Sys2Proof.Machine.execClauseTrigger subj v s
  | .clauseDurationEnd c => Sys2Proof.Machine.execClauseDurationEnd c s
  | .release c => Sys2Proof.Machine.execRelease c s
  | .fire c => Sys2Proof.Machine.execFire c s
  | .clauseBroken c => Sys2Proof.Machine.execClauseBroken c s
  | .laneParityError x => Sys2Proof.Machine.execLaneParityError x s
  | .linkRefresh t => Sys2Proof.Machine.execLinkRefresh t s
  | .reflexFrameReceived p t v src seq hop => Sys2Proof.Machine.execReflexFrameReceived p t v src seq hop s
  | .linkSlotTimeout t => Sys2Proof.Machine.execLinkSlotTimeout t s
  | .add lc gs gp rd ra rb => Sys2Proof.Machine.execAdd lc gs gp rd ra rb s
  | .sub lc gs gp rd ra rb => Sys2Proof.Machine.execSub lc gs gp rd ra rb s
  | .andR lc gs gp rd ra rb => Sys2Proof.Machine.execAndR lc gs gp rd ra rb s
  | .orR lc gs gp rd ra rb => Sys2Proof.Machine.execOrR lc gs gp rd ra rb s
  | .xorR lc gs gp rd ra rb => Sys2Proof.Machine.execXorR lc gs gp rd ra rb s
  | .andn lc gs gp rd ra rb => Sys2Proof.Machine.execAndn lc gs gp rd ra rb s
  | .neg lc gs gp rd ra => Sys2Proof.Machine.execNeg lc gs gp rd ra s
  | .shl lc gs gp rd ra rb => Sys2Proof.Machine.execShl lc gs gp rd ra rb s
  | .shr lc gs gp rd ra rb => Sys2Proof.Machine.execShr lc gs gp rd ra rb s
  | .sar lc gs gp rd ra rb => Sys2Proof.Machine.execSar lc gs gp rd ra rb s
  | .rol lc gs gp rd ra rb => Sys2Proof.Machine.execRol lc gs gp rd ra rb s
  | .ror lc gs gp rd ra rb => Sys2Proof.Machine.execRor lc gs gp rd ra rb s
  | .mul lc gs gp rd ra rb => Sys2Proof.Machine.execMul lc gs gp rd ra rb s
  | .mulh lc gs gp rd ra rb => Sys2Proof.Machine.execMulh lc gs gp rd ra rb s
  | .mulhu lc gs gp rd ra rb => Sys2Proof.Machine.execMulhu lc gs gp rd ra rb s
  | .div lc gs gp rd ra rb => Sys2Proof.Machine.execDiv lc gs gp rd ra rb s
  | .divu lc gs gp rd ra rb => Sys2Proof.Machine.execDivu lc gs gp rd ra rb s
  | .rem lc gs gp rd ra rb => Sys2Proof.Machine.execRem lc gs gp rd ra rb s
  | .remu lc gs gp rd ra rb => Sys2Proof.Machine.execRemu lc gs gp rd ra rb s
  | .minS lc gs gp rd ra rb => Sys2Proof.Machine.execMinS lc gs gp rd ra rb s
  | .maxS lc gs gp rd ra rb => Sys2Proof.Machine.execMaxS lc gs gp rd ra rb s
  | .minu lc gs gp rd ra rb => Sys2Proof.Machine.execMinu lc gs gp rd ra rb s
  | .maxu lc gs gp rd ra rb => Sys2Proof.Machine.execMaxu lc gs gp rd ra rb s
  | .clz lc gs gp rd ra => Sys2Proof.Machine.execClz lc gs gp rd ra s
  | .popc lc gs gp rd ra => Sys2Proof.Machine.execPopc lc gs gp rd ra s
  | .addi lc gs gp rd ra imm => Sys2Proof.Machine.execAddi lc gs gp rd ra imm s
  | .andi lc gs gp rd ra imm => Sys2Proof.Machine.execAndi lc gs gp rd ra imm s
  | .ori lc gs gp rd ra imm => Sys2Proof.Machine.execOri lc gs gp rd ra imm s
  | .xori lc gs gp rd ra imm => Sys2Proof.Machine.execXori lc gs gp rd ra imm s
  | .shi lc gs gp rd ra op sh => Sys2Proof.Machine.execShi lc gs gp rd ra op sh s
  | .movw lc gs gp rd h imm => Sys2Proof.Machine.execMovw lc gs gp rd h imm s
  | .cmp lc gs gp pd cond ra rb => Sys2Proof.Machine.execCmp lc gs gp pd cond ra rb s
  | .cmpi lc gs gp pd cond ra imm => Sys2Proof.Machine.execCmpi lc gs gp pd cond ra imm s
  | .pred lc gs gp pd pa pb op => Sys2Proof.Machine.execPred lc gs gp pd pa pb op s
  | .sel lc gs gp rd ra rb ps => Sys2Proof.Machine.execSel lc gs gp rd ra rb ps s
  | .ld lc gs gp r ra w off nsym => Sys2Proof.Machine.execLd lc gs gp r ra w off nsym s
  | .st lc gs gp r ra w off => Sys2Proof.Machine.execSt lc gs gp r ra w off s
  | .br lc gs gp off => Sys2Proof.Machine.execBr lc gs gp off s
  | .call lc gs gp off => Sys2Proof.Machine.execCall lc gs gp off s
  | .jmp lc gs gp rd ra imm => Sys2Proof.Machine.execJmp lc gs gp rd ra imm s
  | .waitEv lc gs gp pd rt n => Sys2Proof.Machine.execWaitEv lc gs gp pd rt n s
  | .waitT lc gs gp rt => Sys2Proof.Machine.execWaitT lc gs gp rt s
  | .sendEv lc gs gp n => Sys2Proof.Machine.execSendEv lc gs gp n s
  | .rpt lc gs gp w n nsym => Sys2Proof.Machine.execRpt lc gs gp w n nsym s
  | .movs lc gs gp rd rs rc sz nsym => Sys2Proof.Machine.execMovs lc gs gp rd rs rc sz nsym s
  | .fills lc gs gp rd rs rc sz => Sys2Proof.Machine.execFills lc gs gp rd rs rc sz s
  | .cmps lc gs gp rd rs rc sz pd nsym => Sys2Proof.Machine.execCmps lc gs gp rd rs rc sz pd nsym s
  | .scans lc gs gp rd rs rc sz pd nsym => Sys2Proof.Machine.execScans lc gs gp rd rs rc sz pd nsym s
  | .crcs lc gs gp rd rs rc sz nsym => Sys2Proof.Machine.execCrcs lc gs gp rd rs rc sz nsym s
  | .fence lc gs gp => Sys2Proof.Machine.execFence lc gs gp s
  | .rtt lc gs gp => Sys2Proof.Machine.execRtt lc gs gp s
  | .rttN lc gs gp => Sys2Proof.Machine.execRttN lc gs gp s
  | .rtn lc gs gp => Sys2Proof.Machine.execRtn lc gs gp s
  | .trap lc gs gp code => Sys2Proof.Machine.execTrap lc gs gp code s
  | .rdtb lc gs gp rt => Sys2Proof.Machine.execRdtb lc gs gp rt s
  | .mfs lc gs gp rd sr => Sys2Proof.Machine.execMfs lc gs gp rd sr s
  | .mts lc gs gp ra sr => Sys2Proof.Machine.execMts lc gs gp ra sr s
  | .nop lc => Sys2Proof.Machine.execNop lc s
  | .yield lc => Sys2Proof.Machine.execYield lc s
  | .illegalInstruction lc w => Sys2Proof.Machine.execIllegalInstruction lc w s
  | .accessComplete a nsym => Sys2Proof.Machine.execAccessComplete a nsym s
  | .poisonUse lc r => Sys2Proof.Machine.execPoisonUse lc r s
  | .eventPostingArrival lc ev => Sys2Proof.Machine.execEventPostingArrival lc ev s
  | .waitDeadline lc v => Sys2Proof.Machine.execWaitDeadline lc v s
  | .start w => Sys2Proof.Machine.execStart w s
  | .halt w => Sys2Proof.Machine.execHalt w s
  | .drainComplete lc v => Sys2Proof.Machine.execDrainComplete lc v s
  | .resume w => Sys2Proof.Machine.execResume w s
  | .nmtArrival lc => Sys2Proof.Machine.execNmtArrival lc s
  | .mismatch p drop undo => Sys2Proof.Machine.execMismatch p drop undo s
  | .invalidComparatorCode p drop undo => Sys2Proof.Machine.execInvalidComparatorCode p drop undo s
  | .takeoverComplete badCtx badEnt => Sys2Proof.Machine.execTakeoverComplete badCtx badEnt s
  | .selfTestEnd p pass ms => Sys2Proof.Machine.execSelfTestEnd p pass ms s
  | .spareSelfTest p pass ms => Sys2Proof.Machine.execSpareSelfTest p pass ms s
  | .debugHalt lc => Sys2Proof.Machine.execDebugHalt lc s
  | .debugWrite lc t d => Sys2Proof.Machine.execDebugWrite lc t d s
  | .debugResume lc => Sys2Proof.Machine.execDebugResume lc s
  | .scrubPeriodStart => Sys2Proof.Machine.execScrubPeriodStart s
  | .scrubRead nsym owner => Sys2Proof.Machine.execScrubRead nsym owner s
  | .rowRemap m row ok => Sys2Proof.Machine.execRowRemap m row ok s
  | .zero w => Sys2Proof.Machine.execZero w s
  | .prog w => Sys2Proof.Machine.execProg w s
  | .erase w => Sys2Proof.Machine.execErase w s
  | .flashCommandEnd ok => Sys2Proof.Machine.execFlashCommandEnd ok s
  | .sourceRaise l => Sys2Proof.Machine.execSourceRaise l s
  | .dieTempMeasure t => Sys2Proof.Machine.execDieTempMeasure t s
  | .raisedClear j d => Sys2Proof.Machine.execRaisedClear j d s
  | .safenLow => Sys2Proof.Machine.execSafenLow s
  | .leave => Sys2Proof.Machine.execLeave s
  | .arun => Sys2Proof.Machine.execArun s
  | .enter => Sys2Proof.Machine.execEnter s
  | .tkpair arg => Sys2Proof.Machine.execTkpair arg s
  | .tkcore arg => Sys2Proof.Machine.execTkcore arg s
  | .logclr => Sys2Proof.Machine.execLogclr s
  | .selfCheckDiscrepancy w flip => Sys2Proof.Machine.execSelfCheckDiscrepancy w flip s
  | .canGo c => Sys2Proof.Machine.execCanGo c s
  | .canStop c => Sys2Proof.Machine.execCanStop c s
  | .autobaud c => Sys2Proof.Machine.execAutobaud c s
  | .autobaudCandidateEnd c pass => Sys2Proof.Machine.execAutobaudCandidateEnd c pass s
  | .recover c => Sys2Proof.Machine.execRecover c s
  | .busOffRecoveryStart c => Sys2Proof.Machine.execBusOffRecoveryStart c s
  | .busOffRecoveryComplete c => Sys2Proof.Machine.execBusOffRecoveryComplete c s
  | .busIntegration c => Sys2Proof.Machine.execBusIntegration c s
  | .req c t => Sys2Proof.Machine.execReq c t s
  | .canCancel c t => Sys2Proof.Machine.execCanCancel c t s
  | .selectionPoint c => Sys2Proof.Machine.execSelectionPoint c s
  | .canAttemptEnd c r sof => Sys2Proof.Machine.execCanAttemptEnd c r sof s
  | .canFrameReceived c f sof ok => Sys2Proof.Machine.execCanFrameReceived c f sof ok s
  | .protocolException c => Sys2Proof.Machine.execProtocolException c s
  | .canError c code dph tx dom => Sys2Proof.Machine.execCanError c code dph tx dom s
  | .txdto b => Sys2Proof.Machine.execTxdto b s
  | .busdom c => Sys2Proof.Machine.execBusdom c s
  | .transceiverOvertemperature b => Sys2Proof.Machine.execTransceiverOvertemperature b s
  | .linGo l => Sys2Proof.Machine.execLinGo l s
  | .linStop l => Sys2Proof.Machine.execLinStop l s
  | .linSleep l => Sys2Proof.Machine.execLinSleep l s
  | .linWake l => Sys2Proof.Machine.execLinWake l s
  | .linSlotStart l => Sys2Proof.Machine.execLinSlotStart l s
  | .linHeaderReceived l h => Sys2Proof.Machine.execLinHeaderReceived l h s
  | .linFrameEnd l r => Sys2Proof.Machine.execLinFrameEnd l r s
  | .linResponseTimeout l part => Sys2Proof.Machine.execLinResponseTimeout l part s
  | .ethFrameReceived p f fcs drop => Sys2Proof.Machine.execEthFrameReceived p f fcs drop s
  | .hostTxRecord drop => Sys2Proof.Machine.execHostTxRecord drop s
  | .ethLinkChange p up master sqi => Sys2Proof.Machine.execEthLinkChange p up master sqi s
  | .topoSend => Sys2Proof.Machine.execTopoSend s
  | .topoReceived p src hop lat => Sys2Proof.Machine.execTopoReceived p src hop lat s
  | .keepAwakePeriod => Sys2Proof.Machine.execKeepAwakePeriod s
  | .voteWrite v => Sys2Proof.Machine.execVoteWrite v s
  | .readySleepTimeout => Sys2Proof.Machine.execReadySleepTimeout s
  | .silenceTimeout => Sys2Proof.Machine.execSilenceTimeout s
  | .sleepFrameEnd b own => Sys2Proof.Machine.execSleepFrameEnd b own s
  | .forcedSleepFrameEnd b own => Sys2Proof.Machine.execForcedSleepFrameEnd b own s
  | .nmCancel => Sys2Proof.Machine.execNmCancel s
  | .windowBusWake b => Sys2Proof.Machine.execWindowBusWake b s
  | .sleepWindowEnd => Sys2Proof.Machine.execSleepWindowEnd s
  | .maximumAwakeExpiry => Sys2Proof.Machine.execMaximumAwakeExpiry s
  | .wakeHoldEnd => Sys2Proof.Machine.execWakeHoldEnd s
  | .jobSubmit w q put => Sys2Proof.Machine.execJobSubmit w q put s
  | .jobStart q => Sys2Proof.Machine.execJobStart q s
  | .aesBlockBoundary ue => Sys2Proof.Machine.execAesBlockBoundary ue s
  | .inverseCheckMismatch => Sys2Proof.Machine.execInverseCheckMismatch s
  | .segmentVerify q => Sys2Proof.Machine.execSegmentVerify q s
  | .jobEnd q => Sys2Proof.Machine.execJobEnd q s
  | .noncePersistComplete c ok => Sys2Proof.Machine.execNoncePersistComplete c ok s
  | .sha w => Sys2Proof.Machine.execSha w s
  | .verifySignature w => Sys2Proof.Machine.execVerifySignature w s
  | .pkCommandEnd selfFail => Sys2Proof.Machine.execPkCommandEnd selfFail s
  | .debugAccessRequest => Sys2Proof.Machine.execDebugAccessRequest s
  | .debugResponse r sg => Sys2Proof.Machine.execDebugResponse r sg s
  | .doze => Sys2Proof.Machine.execDoze s
  | .run => Sys2Proof.Machine.execRun s
  | .parkEntry => Sys2Proof.Machine.execParkEntry s
  | .parkWake bus rtc safen => Sys2Proof.Machine.execParkWake bus rtc safen s
  | .rtcAlarm => Sys2Proof.Machine.execRtcAlarm s
  | .powerOnReset vlsel recov => Sys2Proof.Machine.execPowerOnReset vlsel recov s
  | .supplyFault u => Sys2Proof.Machine.execSupplyFault u s
  | .chipReset p => Sys2Proof.Machine.execChipReset p s
  | .chiprst key => Sys2Proof.Machine.execChiprst key s
  | .reclaimall => Sys2Proof.Machine.execReclaimall s
  | .reclaim j d => Sys2Proof.Machine.execReclaim j d s
  | .holdExpiry => Sys2Proof.Machine.execHoldExpiry s
  | .boot b => Sys2Proof.Machine.execBoot b s
  | .updOpen r => Sys2Proof.Machine.execUpdOpen r s
  | .piece r => Sys2Proof.Machine.execPiece r s
  | .pieceStored => Sys2Proof.Machine.execPieceStored s
  | .verify r => Sys2Proof.Machine.execVerify r s
  | .verifyEnd => Sys2Proof.Machine.execVerifyEnd s
  | .activate r => Sys2Proof.Machine.execActivate r s
  | .confirm => Sys2Proof.Machine.execConfirm s
  | .abandon => Sys2Proof.Machine.execAbandon s
  | .hello eth => Sys2Proof.Machine.execHello eth s
  | .reset eth => Sys2Proof.Machine.execReset eth s
  | .pwmPeriodEdge o => Sys2Proof.Machine.execPwmPeriodEdge o s
  | .safenHigh => Sys2Proof.Machine.execSafenHigh s
  | .x32CrystalFailure => Sys2Proof.Machine.execX32CrystalFailure s
  | .aliveHalfPeriod => Sys2Proof.Machine.execAliveHalfPeriod s
  | .syncSend => Sys2Proof.Machine.execSyncSend s
  | .sqiLow p sqi => Sys2Proof.Machine.execSqiLow p sqi s
  | .plcaBeaconMissed => Sys2Proof.Machine.execPlcaBeaconMissed s
  | .macAddressAgeing mac => Sys2Proof.Machine.execMacAddressAgeing mac s

end Sys2Proof.Machine
end

