-- ==== Sys2Proof/Machine/Step.lean ====
section
/-! DEFINITION. The step of the block: it takes the command at the front of the queue; on an empty queue time passes. -/

namespace Sys2Proof.Machine

/-- One step: the command at the front of the queue, with the queue's rest; on an empty queue one tick of TB passes while it
counts (R90, R92), and the Ethernet ports send on from their queues (R407). (DESIGN CHOICE: log entries 1, 66.) -/
def step (s : State) : Host.Outcome State Fault Refusal :=
  match s.pending with
  | c :: cs => exec c { s with pending := cs }
  | [] => .next s.idle.ethPump

/-- `s` with the command that a table word spells at the front of its queue; the table spells none.
(DESIGN CHOICE: log entries 1, 4.) -/
def State.withFetchWord (s : State) (nbits w : Nat) : State :=
  match decodeTableWord nbits w with
  | some c => { s with pending := c :: s.pending }
  | none => s

end Sys2Proof.Machine
end

