-- ==== Sys2Proof/WellFormed.lean ====
section
/-! DEFINITION. Which commands are well formed: what the spec lets a command of each row carry. A command that is not well formed
names nothing that can happen. -/

namespace Sys2Proof

/-- The registers that R67 names. -/
def lfPathWord (off : Nat) : Bool := off == 0x400 || off == 0x404 || off == 0x408 || (decide (0x420 ≤ off) && decide (off < 0x440) && off % 4 == 0)

/-- The registers of a timed WAIT.EV: an even number (R297). -/
def evenReg (rt : Option (Fin 32)) : Bool :=
  match rt with
  | some r => r.val % 2 == 0
  | none => true

/-- A CAN frame that can be on a bus: its identifier fits, its length is one of its format, and it carries that much data, none
as a remote frame (R377, R382). -/
def canFrameWord (f : CanFrame) : Bool :=
  decide (f.fmt ≤ 2) && decide (f.id < (if f.ide then 2 ^ 29 else 2 ^ 11)) &&
    decide (f.len ≤ (if f.fmt = 0 then 8 else if f.fmt = 1 then 64 else 2048)) &&
    f.data.length == (if f.rtr then 0 else f.len)

/-- A LIN response has one to eight data bytes (R401). -/
def linEndWord (r : LinEnd) : Bool :=
  match r with
  | .resp data _ => decide (1 ≤ data.length) && decide (data.length ≤ 8)
  | _ => true

/-- An Ethernet frame has its two addresses and its type (R407). -/
def ethRxWord (f : EthRx) : Bool :=
  match f with
  | .frame _ b => decide (14 ≤ b.length)
  | .far .. => true

/-- Well-formed commands. A PX32 word with guard 0b1000 is YIELD or acts as NOP (R278), and is that command. -/
def Instr.wellFormed (i : Instr) : Bool :=
  match i with
  | .registerWrite _ _ off _ => off.toNat % 4 == 0
  | .sketchWrite _ _ off _ => off.toNat % 4 == 0 && decide (0x100 ≤ off.toNat) && decide (off.toNat < 0x800)
  | .cclr _ => true
  | .brst _ => true
  | .pgLockWrite _ _ _ _ => true
  | .check => true
  | .checkComplete => true
  | .fix => true
  | .abort => true
  | .fixApply => true
  | .fixComplete => true
  | .fixbReceived _ _ => true
  | .fixaReceived _ _ _ => true
  | .lfWrite _ off _ => lfPathWord off.toNat
  | .lfWriteApply => true
  | .pgreqReceived q => q.off.toNat % 4 == 0
  | .pgrspReceived _ _ => true
  | .windowTimeout _ => true
  | .tbcCtrlWrite _ _ _ => true
  | .tbcFire _ => true
  | .capture _ _ => true
  | .syncRoleWrite _ => true
  | .syncMessage _ => true
  | .syncMissed => true
  | .holdoverTimeout => true
  | .deferredTbStep => true
  | .clockLoss _ => true
  | .clockReturn _ => true
  | .crystalFailure => true
  | .pllUnlock _ => true
  | .islandPllLock _ => true
  | .liveOutputWrite _ _ _ => true
  | .envelopeBreakpoint _ => true
  | .hsClr _ => true
  | .clrr _ => true
  | .testWindowOpen _ _ => true
  | .windowClose _ _ => true
  | .testWindowExpiry _ => true
  | .trip _ _ => true
  | .retryIntervalEnd _ => true
  | .ceilTrip _ _ => true
  | .reverseCurrent _ _ => true
  | .stuckOn _ _ => true
  | .senseConversion _ => true
  | .offStateDiagnosis _ _ _ _ => true
  | .offPhaseShortSample _ _ _ _ => true
  | .crossTestEdge _ _ _ => true
  | .budgetExceeded _ _ => true
  | .undervoltageEntry _ => true
  | .undervoltageExit _ => true
  | .loadDumpEntry _ => true
  | .loadDumpExit _ => true
  | .groundLoss _ => true
  | .groundRestored _ => true
  | .junctionShutdown _ => true
  | .junctionShutdownExit _ => true
  | .reverseBattery => true
  | .reverseBatteryEnd => true
  | .retouch _ _ _ => true
  | .repairMapAppend => true
  | .bridgeCoast _ _ => true
  | .bridgeBrake _ _ => true
  | .bridgeFwd _ _ => true
  | .bridgeRev _ _ => true
  | .bridgePark _ _ => true
  | .startAllowanceEnd _ => true
  | .sharedLegStart _ => true
  | .bridgeTrip _ _ => true
  | .legCeil _ _ => true
  | .bridgeClr _ => true
  | .bridgeOffStateDiagnosis _ _ _ _ => true
  | .stallTimeout _ => true
  | .posWrite _ _ => true
  | .parkInputChange _ => true
  | .parkRunTimeout _ => true
  | .trig _ => true
  | .peakEnd _ _ => true
  | .pkholdEnd _ => true
  | .endOfHold _ => true
  | .decayEnd _ _ => true
  | .mowaitEnd _ => true
  | .sideChangeoverEnd _ => true
  | .valveOpen _ _ => true
  | .valveShort _ _ => true
  | .pktime _ => true
  | .valveCeil _ _ => true
  | .vlClr _ => true
  | .sideLatch _ _ => true
  | .clra => true
  | .clrb => true
  | .bclr => true
  | .boostReady _ => true
  | .boostReadyLost _ => true
  | .bovp _ => true
  | .buvto => true
  | .sideLimpTimeout _ => true
  | .matrixSlotStart _ _ => true
  | .swap _ => true
  | .cancelSwap => true
  | .swapTrigger _ => true
  | .pxcFrameStart => true
  | .pxcLatch di => decide (di < 2 ^ 16384)
  | .deratingReading _ => true
  | .ambientLoopIteration _ => true
  | .sensorReadComplete _ _ => true
  | .mxClr => true
  | .ambClr _ => true
  | .shrowg _ _ => true
  | .siSample _ _ _ _ => true
  | .wettingHoldEnd _ => true
  | .parkSample _ _ _ => true
  | .ioInputSample _ _ => true
  | .ioClr _ => true
  | .readbackMismatch _ => true
  | .ioCurrentLimit _ => true
  | .ioTsd _ => true
  | .fieldSupplyChange _ => true
  | .laneLoss _ => true
  | .fieldCommandTimeout _ => true
  | .clauseTrigger _ _ => true
  | .clauseDurationEnd _ => true
  | .release _ => true
  | .fire _ => true
  | .clauseBroken _ => true
  | .laneParityError _ => true
  | .linkRefresh _ => true
  | .reflexFrameReceived _ _ _ _ _ _ => true
  | .linkSlotTimeout _ => true
  | .add _ gs gp _ _ _ => !neverGuard gs gp
  | .sub _ gs gp _ _ _ => !neverGuard gs gp
  | .andR _ gs gp _ _ _ => !neverGuard gs gp
  | .orR _ gs gp _ _ _ => !neverGuard gs gp
  | .xorR _ gs gp _ _ _ => !neverGuard gs gp
  | .andn _ gs gp _ _ _ => !neverGuard gs gp
  | .neg _ gs gp _ _ => !neverGuard gs gp
  | .shl _ gs gp _ _ _ => !neverGuard gs gp
  | .shr _ gs gp _ _ _ => !neverGuard gs gp
  | .sar _ gs gp _ _ _ => !neverGuard gs gp
  | .rol _ gs gp _ _ _ => !neverGuard gs gp
  | .ror _ gs gp _ _ _ => !neverGuard gs gp
  | .mul _ gs gp _ _ _ => !neverGuard gs gp
  | .mulh _ gs gp _ _ _ => !neverGuard gs gp
  | .mulhu _ gs gp _ _ _ => !neverGuard gs gp
  | .div _ gs gp _ _ _ => !neverGuard gs gp
  | .divu _ gs gp _ _ _ => !neverGuard gs gp
  | .rem _ gs gp _ _ _ => !neverGuard gs gp
  | .remu _ gs gp _ _ _ => !neverGuard gs gp
  | .minS _ gs gp _ _ _ => !neverGuard gs gp
  | .maxS _ gs gp _ _ _ => !neverGuard gs gp
  | .minu _ gs gp _ _ _ => !neverGuard gs gp
  | .maxu _ gs gp _ _ _ => !neverGuard gs gp
  | .clz _ gs gp _ _ => !neverGuard gs gp
  | .popc _ gs gp _ _ => !neverGuard gs gp
  | .addi _ gs gp _ _ _ => !neverGuard gs gp
  | .andi _ gs gp _ _ _ => !neverGuard gs gp
  | .ori _ gs gp _ _ _ => !neverGuard gs gp
  | .xori _ gs gp _ _ _ => !neverGuard gs gp
  | .shi _ gs gp _ _ _ _ => !neverGuard gs gp
  | .movw _ gs gp _ _ _ => !neverGuard gs gp
  | .cmp _ gs gp _ _ _ _ => !neverGuard gs gp
  | .cmpi _ gs gp _ _ _ _ => !neverGuard gs gp
  | .pred _ gs gp _ _ _ _ => !neverGuard gs gp
  | .sel _ gs gp _ _ _ _ => !neverGuard gs gp
  | .ld _ gs gp _ _ _ _ nsym => !neverGuard gs gp && decide (nsym ≤ 41)
  | .st _ gs gp _ _ _ _ => !neverGuard gs gp
  | .br _ gs gp _ => !neverGuard gs gp
  | .call _ gs gp _ => !neverGuard gs gp
  | .jmp _ gs gp _ _ _ => !neverGuard gs gp
  | .waitEv _ gs gp _ rt _ => !neverGuard gs gp && evenReg rt
  | .waitT _ gs gp rt => !neverGuard gs gp && rt.val % 2 == 0
  | .sendEv _ gs gp _ => !neverGuard gs gp
  | .rpt _ gs gp _ _ nsym => !neverGuard gs gp && decide (nsym ≤ 41)
  | .movs _ gs gp rd rs rc _ nsym => !neverGuard gs gp && stringRegs rd rs rc false && decide (nsym ≤ 41)
  | .fills _ gs gp rd rs rc _ => !neverGuard gs gp && stringRegs rd rs rc true
  | .cmps _ gs gp rd rs rc _ _ nsym => !neverGuard gs gp && stringRegs rd rs rc false && decide (nsym ≤ 41)
  | .scans _ gs gp rd rs rc _ _ nsym => !neverGuard gs gp && stringRegs rd rs rc true && decide (nsym ≤ 41)
  | .crcs _ gs gp rd rs rc _ nsym => !neverGuard gs gp && stringRegs rd rs rc false && decide (nsym ≤ 41)
  | .fence _ gs gp => !neverGuard gs gp
  | .rtt _ gs gp => !neverGuard gs gp
  | .rttN _ gs gp => !neverGuard gs gp
  | .rtn _ gs gp => !neverGuard gs gp
  | .trap _ gs gp _ => !neverGuard gs gp
  | .rdtb _ gs gp rt => !neverGuard gs gp && rt.val % 2 == 0
  | .mfs _ gs gp _ sr => !neverGuard gs gp && mfsDefined sr
  | .mts _ gs gp _ sr => !neverGuard gs gp && mtsDefined sr
  | .nop _ => true
  | .yield _ => true
  | .illegalInstruction lc w => decodePx32 lc w == none
  | .accessComplete _ nsym => decide (nsym ≤ 41)
  | .poisonUse _ _ => true
  | .eventPostingArrival _ _ => true
  | .waitDeadline _ _ => true
  | .start _ => true
  | .halt _ => true
  | .drainComplete _ _ => true
  | .resume _ => true
  | .nmtArrival _ => true
  | .mismatch _ _ _ => true
  | .invalidComparatorCode _ _ _ => true
  | .takeoverComplete _ _ => true
  | .selfTestEnd _ _ _ => true
  | .spareSelfTest _ _ _ => true
  | .debugHalt _ => true
  | .debugWrite _ _ _ => true
  | .debugResume _ => true
  | .scrubPeriodStart => true
  | .scrubRead nsym _ => decide (nsym ≤ 41)
  | .rowRemap _ row _ => decide (row < 8192)
  | .zero _ => true
  | .prog _ => true
  | .erase _ => true
  | .flashCommandEnd _ => true
  | .sourceRaise l => l != [] && decide l.Nodup
  | .dieTempMeasure _ => true
  | .raisedClear _ _ => true
  | .safenLow => true
  | .leave => true
  | .arun => true
  | .enter => true
  | .tkpair _ => true
  | .tkcore _ => true
  | .logclr => true
  | .selfCheckDiscrepancy _ _ => true
  | .canGo _ => true
  | .canStop _ => true
  | .autobaud _ => true
  | .autobaudCandidateEnd _ _ => true
  | .recover _ => true
  | .busOffRecoveryStart _ => true
  | .busOffRecoveryComplete _ => true
  | .busIntegration _ => true
  | .req _ _ => true
  | .canCancel _ _ => true
  | .selectionPoint _ => true
  | .canAttemptEnd _ _ _ => true
  | .canFrameReceived _ f _ _ => canFrameWord f
  | .protocolException _ => true
  | .canError _ _ _ _ _ => true
  | .txdto _ => true
  | .busdom _ => true
  | .transceiverOvertemperature _ => true
  | .linGo _ => true
  | .linStop _ => true
  | .linSleep _ => true
  | .linWake _ => true
  | .linSlotStart _ => true
  | .linHeaderReceived _ _ => true
  | .linFrameEnd _ r => linEndWord r
  | .linResponseTimeout _ _ => true
  | .ethFrameReceived _ f _ _ => ethRxWord f
  | .hostTxRecord _ => true
  | .ethLinkChange _ _ _ _ => true
  | .topoSend => true
  | .topoReceived _ _ hop _ => decide (hop < 65536)
  | .keepAwakePeriod => true
  | .voteWrite _ => true
  | .readySleepTimeout => true
  | .silenceTimeout => true
  | .sleepFrameEnd _ _ => true
  | .forcedSleepFrameEnd _ _ => true
  | .nmCancel => true
  | .windowBusWake _ => true
  | .sleepWindowEnd => true
  | .maximumAwakeExpiry => true
  | .wakeHoldEnd => true
  | .jobSubmit _ _ _ => true
  | .jobStart _ => true
  | .aesBlockBoundary _ => true
  | .inverseCheckMismatch => true
  | .segmentVerify _ => true
  | .jobEnd _ => true
  | .noncePersistComplete _ _ => true
  | .sha _ => true
  | .verifySignature _ => true
  | .pkCommandEnd _ => true
  | .debugAccessRequest => true
  | .debugResponse _ _ => true
  | .doze => true
  | .run => true
  | .parkEntry => true
  | .parkWake _ _ _ => true
  | .rtcAlarm => true
  | .powerOnReset _ _ => true
  | .supplyFault .. => true
  | .chipReset .. => true
  | .chiprst _ => true
  | .reclaimall => true
  | .reclaim _ _ => true
  | .holdExpiry => true
  | .boot b => decide b.segs.Nodup
  | .updOpen _ => true
  | .piece _ => true
  | .pieceStored => true
  | .verify _ => true
  | .verifyEnd => true
  | .activate _ => true
  | .confirm => true
  | .abandon => true
  | .hello _ => true
  | .reset _ => true
  | .pwmPeriodEdge _ => true
  | .safenHigh => true
  | .x32CrystalFailure => true
  | .aliveHalfPeriod => true
  | .syncSend => true
  | .sqiLow _ _ => true
  | .plcaBeaconMissed => true
  | .macAddressAgeing _ => true

end Sys2Proof
end

