-- ==== Sys2Proof/Safety.lean ====
section
/-! DEFINITION. What counts as a safe run, and the terms that statements about the machine use. -/

namespace Sys2Proof.Machine

/-- The command `c`, met in `s`, gives a next state with `P`. -/
def Gives (c : Instr) (s : State) (P : State → Prop) : Prop := ∃ t, exec c s = .next t ∧ P t

/-- The command `c`, met in `s`, gives the state that `f`, a named operation, leaves of a state with `P`. -/
def GivesThen (c : Instr) (s : State) (f : State → State) (P : State → Prop) : Prop := ∃ u, exec c s = .next (f u) ∧ P u

/-- A posting of an event to every logical core that exists, from the island that posts it (R265). -/
def State.posting (s : State) (ev : Nat) : Posting := ⟨ev, (List.range 16).filter s.coreExists, eventIsland ev⟩

/-- Bit `bit` of a page's PG_FSTAT. -/
def State.fstat (s : State) (pg bit : Nat) : Bool := (s.reg pg 0x048).getLsbD bit

/-- PG_STAT.CODE of a page. -/
def State.code (s : State) (pg : Nat) : Nat := s.fld pg R.PG_STAT.CODE

/-- A write of the page is refused (R58, R59): STATE_REFUSED and PG_FSTAT bit 0, and nothing of the block changes. -/
def Refused (c : Instr) (s : State) (pg : Nat) : Prop := exec c s = .next (s.refuse pg)

/-- A run of `n` steps that nothing stops. -/
def SafeRun : Nat → State → Prop
  | 0, _ => True
  | n + 1, s => ∃ t, step s = .next t ∧ SafeRun n t

/-- The sparse tables that registers and memory stand in are in canonical form. -/
def State.canonical (s : State) : Bool := twf resetWord s.regs && Memory.wf s.mem

/-- A write of a lockable register of the page reaches it and is not refused for a lock (R10, R61). -/
def State.accepts (s : State) (pg : Nat) : Bool := (kindOf pg).isSome && s.clocked (s.islandOf pg) && !s.locked pg

/-- No symbol of the `n` bytes from an address on is in error. -/
def State.sound (s : State) (a n : Nat) : Bool := (s.wordsIn a n).all fun w => !((s.symErr.map (·.1)) ++ s.poison).contains w

/-- The cipher engine reads the `n` bytes from an address on as good ones. -/
def State.clean (s : State) (a n : Nat) : Bool := !s.memBad a n && s.sound a n

/-- A word may be fetched, and is sound: as it was read into the cache, in which it stands, or as it stands in a memory that is
fetched uncached (R259, R303, R346). -/
def State.fetchable (s : State) (k a : Nat) : Bool :=
  s.canFetch a && !s.fetchMiss (k / 32) a && !s.fetchBad (k / 32) a && (isCached a || s.sound a 4)

/-- Nothing stands between the context that issues and its own instruction: no late trap is due, and its word may be fetched and is
sound (R304). -/
def State.fetches (s : State) (k : Nat) : Bool :=
  ((s.cx k).elem ≠ [] || (s.cx k).late = []) && s.fetchable k (s.cx k).pc.toNat

/-- Nothing in a release buffer has compared equal since an earlier tick: what waits there stays (R309). -/
def State.noneDue (s : State) : Bool := (List.range 16).all fun n => (s.lcAt n).buf.all fun e => decide (s.kaNow ≤ e.tick)

/-- Context `k` issues on `lc` an instruction whose guard holds, whose sources `srcs` hold sound values and whose registers
await no load (R261, R263, R264, R277). -/
def State.executes (s : State) (lc : Fin 16) (gs : Bool) (gp : Fin 8) (srcs dsts : List Nat) (k : Nat) : Bool :=
  s.issuing lc == some k && s.fetches k && !neverGuard gs gp && (s.cx k).guardHolds gs gp &&
    s.lacking k (srcs ++ dsts) == [] && ((s.cx k).poisonOf srcs).isNone

/-- An access of context `k` meets no entry of a re-execution, its journal has a place, and a slot is free, or kept for it (R263,
R314, R317). -/
def State.roomFor (s : State) (k : Nat) : Bool :=
  (s.ctxAt k).replay == [] && decide ((s.ctxAt k).journalled < 64) && !s.slotsFull k

/-- A context as its PCs must stand: bits [1:0] of the PC and of the saved and vector registers are 0 (R274, R268, R269). -/
def CtxRegs.aligned (r : CtxRegs) : Prop :=
  r.pc.toNat % 4 = 0 ∧ r.ctpc.toNat % 4 = 0 ∧ r.cnpc.toNat % 4 = 0 ∧ r.ctvec.toNat % 4 = 0

/-- Every context stands so, in its present state and in the states that a rollback returns to. -/
def State.aligned (s : State) : Prop :=
  ∀ k, (s.ctxAt k).now.aligned ∧ (s.ctxAt k).com.aligned ∧ ∀ r ∈ (s.ctxAt k).olds, r.aligned

/-- The guard of a PX32 instruction other than the hints (R277). -/
def guardOf (i : Instr) : Option (Fin 16 × Bool × Fin 8) :=
  match i with
  | .add lc gs gp _ _ _ => some (lc, gs, gp)
  | .sub lc gs gp _ _ _ => some (lc, gs, gp)
  | .andR lc gs gp _ _ _ => some (lc, gs, gp)
  | .orR lc gs gp _ _ _ => some (lc, gs, gp)
  | .xorR lc gs gp _ _ _ => some (lc, gs, gp)
  | .andn lc gs gp _ _ _ => some (lc, gs, gp)
  | .neg lc gs gp _ _ => some (lc, gs, gp)
  | .shl lc gs gp _ _ _ => some (lc, gs, gp)
  | .shr lc gs gp _ _ _ => some (lc, gs, gp)
  | .sar lc gs gp _ _ _ => some (lc, gs, gp)
  | .rol lc gs gp _ _ _ => some (lc, gs, gp)
  | .ror lc gs gp _ _ _ => some (lc, gs, gp)
  | .mul lc gs gp _ _ _ => some (lc, gs, gp)
  | .mulh lc gs gp _ _ _ => some (lc, gs, gp)
  | .mulhu lc gs gp _ _ _ => some (lc, gs, gp)
  | .div lc gs gp _ _ _ => some (lc, gs, gp)
  | .divu lc gs gp _ _ _ => some (lc, gs, gp)
  | .rem lc gs gp _ _ _ => some (lc, gs, gp)
  | .remu lc gs gp _ _ _ => some (lc, gs, gp)
  | .minS lc gs gp _ _ _ => some (lc, gs, gp)
  | .maxS lc gs gp _ _ _ => some (lc, gs, gp)
  | .minu lc gs gp _ _ _ => some (lc, gs, gp)
  | .maxu lc gs gp _ _ _ => some (lc, gs, gp)
  | .clz lc gs gp _ _ => some (lc, gs, gp)
  | .popc lc gs gp _ _ => some (lc, gs, gp)
  | .addi lc gs gp _ _ _ => some (lc, gs, gp)
  | .andi lc gs gp _ _ _ => some (lc, gs, gp)
  | .ori lc gs gp _ _ _ => some (lc, gs, gp)
  | .xori lc gs gp _ _ _ => some (lc, gs, gp)
  | .shi lc gs gp _ _ _ _ => some (lc, gs, gp)
  | .movw lc gs gp _ _ _ => some (lc, gs, gp)
  | .cmp lc gs gp _ _ _ _ => some (lc, gs, gp)
  | .cmpi lc gs gp _ _ _ _ => some (lc, gs, gp)
  | .pred lc gs gp _ _ _ _ => some (lc, gs, gp)
  | .sel lc gs gp _ _ _ _ => some (lc, gs, gp)
  | .ld lc gs gp _ _ _ _ _ => some (lc, gs, gp)
  | .st lc gs gp _ _ _ _ => some (lc, gs, gp)
  | .br lc gs gp _ => some (lc, gs, gp)
  | .call lc gs gp _ => some (lc, gs, gp)
  | .jmp lc gs gp _ _ _ => some (lc, gs, gp)
  | .waitEv lc gs gp _ _ _ => some (lc, gs, gp)
  | .waitT lc gs gp _ => some (lc, gs, gp)
  | .sendEv lc gs gp _ => some (lc, gs, gp)
  | .rpt lc gs gp _ _ _ => some (lc, gs, gp)
  | .movs lc gs gp _ _ _ _ _ => some (lc, gs, gp)
  | .fills lc gs gp _ _ _ _ => some (lc, gs, gp)
  | .cmps lc gs gp _ _ _ _ _ _ => some (lc, gs, gp)
  | .scans lc gs gp _ _ _ _ _ _ => some (lc, gs, gp)
  | .crcs lc gs gp _ _ _ _ _ => some (lc, gs, gp)
  | .fence lc gs gp => some (lc, gs, gp)
  | .rtt lc gs gp => some (lc, gs, gp)
  | .rttN lc gs gp => some (lc, gs, gp)
  | .rtn lc gs gp => some (lc, gs, gp)
  | .trap lc gs gp _ => some (lc, gs, gp)
  | .rdtb lc gs gp _ => some (lc, gs, gp)
  | .mfs lc gs gp _ _ => some (lc, gs, gp)
  | .mts lc gs gp _ _ => some (lc, gs, gp)
  | _ => none

end Sys2Proof.Machine
end

