-- ==== Sys2Proof/Certificates/Slice0/Obligations.lean ====
section
/-! DEFINITION. The statements of this model, from the spec's rules, for the provers. -/

open Sys2Proof Sys2Proof.Machine

/-- A step on a queue with command `c` in front is the command's meaning on the state with the rest of the queue; on an empty
queue one tick of TB passes while it counts, else one tick of the KA island's time beside it, the Ethernet ports send on, and
nothing else changes (the queue is the model's own: log entry 1). -/
def Obligations.StepTakesFront : Prop :=
  (∀ (c : Instr) (cs : List Instr) (s : State), s.pending = c :: cs → step s = exec c { s with pending := cs }) ∧
  (∀ s : State, s.pending = [] → s.tbCounts = true → step s = .next (State.ethPump { s with tb := s.tb + 1 })) ∧
  (∀ s : State, s.pending = [] → s.tbCounts = false → step s = .next (State.ethPump { s with kaLead := s.kaLead + 1 })) ∧
  (∀ s : State, s.eth.queue = [] → s.eth.txWait = none → s.ethPump = s)

/-- The state after a power-on reset, before the boot ROM runs: every context is OFF but context 0 of AC0, which is READY at PRI
15 at 0x2000_0000; context 31 of every core has the vector 0x2000_0100, the others vector 0; every pending vector is clear;
every register reads its reset value; the tables are canonical, and no command waits. Where the rules leave a detail open it
states the model's choice: log entries 15, 16. -/
def Obligations.ResetState : Prop :=
  (∀ k : Nat, k < 512 → (State.reset.cx k).st = (if k = 0 then CtxSt.ready else CtxSt.off)) ∧
  (State.reset.cx 0).pc = 0x20000000#32 ∧ (State.reset.cx 0).pri = 15 ∧
  (∀ k : Nat, k < 512 → (State.reset.cx k).ctvec = (if k % 32 = 31 then 0x20000100#32 else 0#32)) ∧
  (∀ n : Nat, (State.reset.lcAt n).pend = 0) ∧
  (∀ pg off : Nat, State.reset.reg pg off = resetWord (regKey pg off)) ∧
  State.reset.canonical = true ∧ State.reset.pending = []

/-- The block stops on no command: every command gives a next state in every state. -/
def Obligations.EveryCommandAnswers : Prop :=
  ∀ (c : Instr) (s : State), ∃ t, exec c s = .next t

/-- Every well-formed PX32 instruction, decoded from the word that encodes it, is itself, with every operand that the word holds;
what the word does not hold comes out as 0: the symbols in error, the word after an RPT and its element count. Each word of a
logical core decodes for that core. -/
def Obligations.DecodeOfEncode : Prop :=
  (∀ (lc : Fin 16) (gs : Bool) (gp : Fin 8) (i : Instr) (w : Word), guardOf i = some (lc, gs, gp) → i.wellFormed = true →
    encodePx32 i = some w →
    decodePx32 lc w = some (match i with
      | .ld lc gs gp r ra w off _ => .ld lc gs gp r ra w off 0
      | .rpt lc gs gp _ _ _ => .rpt lc gs gp 0 0 0
      | .movs lc gs gp rd rs rc sz _ => .movs lc gs gp rd rs rc sz 0
      | .cmps lc gs gp rd rs rc sz pd _ => .cmps lc gs gp rd rs rc sz pd 0
      | .scans lc gs gp rd rs rc sz pd _ => .scans lc gs gp rd rs rc sz pd 0
      | .crcs lc gs gp rd rs rc sz _ => .crcs lc gs gp rd rs rc sz 0
      | j => j)) ∧
  (∀ lc : Fin 16, ∀ w, encodePx32 (.nop lc) = some w → decodePx32 lc w = some (.nop lc)) ∧
  (∀ lc : Fin 16, ∀ w, encodePx32 (.yield lc) = some w → decodePx32 lc w = some (.yield lc))

/-- The words that the spec's worked examples spell decode to the instructions they stand for, and so do the hints; the word 0 is
illegal. -/
def Obligations.ExampleWords : Prop :=
  ∀ lc : Fin 16,
    decodePx32 lc 0x021398A0#32 = some (.cmp lc false 0 2 7 6 5) ∧
    decodePx32 lc 0xA04C6380#32 = some (.add lc true 2 6 6 7) ∧
    decodePx32 lc 0xA3BFFFFE#32 = some (.br lc true 2 0x3FFFFE#22) ∧
    decodePx32 lc 0x05000000#32 = some (.rpt lc false 0 0 0 0) ∧
    decodePx32 lc 0x05485340#32 = some (.movs lc false 0 4 5 6 2 0) ∧
    decodePx32 lc 0x80000000#32 = some (.nop lc) ∧
    decodePx32 lc 0x80000001#32 = some (.yield lc) ∧
    decodePx32 lc 0x00000000#32 = none

/-- The ALU's instructions other than shifts and divisions write f(ra, rb) of their function code; ADD, SUB, NEG and MUL set V
when the exact signed result does not fit, the others leave ST; the PC advances by 4, and nothing else changes but that an
issue cycle of the core passes (R309). The shifts and rotates take their amount from bits [7:0] of rb, or from the immediate,
unmasked: SHL and SHR by 32 or more give 0, SAR gives the sign, ROL and ROR rotate by the amount modulo 32; ST stays. A word
of SHI with another operation, or with its reserved bit set, spells no instruction. -/
def Obligations.RegisterAluAndShifts : Prop :=
  (∀ (s : State) (k : Nat) (lc : Fin 16) (gs : Bool) (gp : Fin 8) (rd ra rb : Fin 32),
     (s.executes lc gs gp [ra, rb] [rd] k = true →
       let a := (s.cx k).get ra
       let b := (s.cx k).get rb
       let gives := fun (i : Instr) (v : Word) (ov : Bool) => exec i s = .next ((s.modCx k fun r => r.result rd v ov false).issued lc k)
       gives (.add lc gs gp rd ra rb) (a + b) (decide (a.toInt + b.toInt < -2 ^ 31 ∨ 2 ^ 31 ≤ a.toInt + b.toInt)) ∧
       gives (.sub lc gs gp rd ra rb) (a - b) (decide (a.toInt - b.toInt < -2 ^ 31 ∨ 2 ^ 31 ≤ a.toInt - b.toInt)) ∧
       gives (.andR lc gs gp rd ra rb) (a &&& b) false ∧
       gives (.orR lc gs gp rd ra rb) (a ||| b) false ∧
       gives (.xorR lc gs gp rd ra rb) (a ^^^ b) false ∧
       gives (.andn lc gs gp rd ra rb) (a &&& ~~~ b) false ∧
       gives (.mul lc gs gp rd ra rb) (BitVec.ofInt 32 (a.toInt * b.toInt))
         (decide (a.toInt * b.toInt < -2 ^ 31 ∨ 2 ^ 31 ≤ a.toInt * b.toInt)) ∧
       gives (.mulh lc gs gp rd ra rb) (BitVec.ofInt 32 ((a.toInt * b.toInt) / 2 ^ 32)) false ∧
       gives (.mulhu lc gs gp rd ra rb) (BitVec.ofNat 32 ((a.toNat * b.toNat) / 2 ^ 32)) false ∧
       gives (.minS lc gs gp rd ra rb) (if a.toInt ≤ b.toInt then a else b) false ∧
       gives (.maxS lc gs gp rd ra rb) (if a.toInt ≤ b.toInt then b else a) false ∧
       gives (.minu lc gs gp rd ra rb) (if a.toNat ≤ b.toNat then a else b) false ∧
       gives (.maxu lc gs gp rd ra rb) (if a.toNat ≤ b.toNat then b else a) false) ∧
     (s.executes lc gs gp [ra] [rd] k = true →
       let a := (s.cx k).get ra
       let gives := fun (i : Instr) (v : Word) (ov : Bool) => exec i s = .next ((s.modCx k fun r => r.result rd v ov false).issued lc k)
       gives (.neg lc gs gp rd ra) (0 - a) (a == 0x80000000#32) ∧
       gives (.clz lc gs gp rd ra) (BitVec.ofNat 32 (((List.range 32).takeWhile fun i => !a.getLsbD (31 - i)).length)) false ∧
       gives (.popc lc gs gp rd ra) (BitVec.ofNat 32 ((List.range 32).filter fun i => a.getLsbD i).length) false)) ∧
  (∀ (s : State) (k : Nat) (lc : Fin 16) (gs : Bool) (gp : Fin 8) (rd ra rb : Fin 32) (imm : BitVec 8),
     let a := (s.cx k).get ra
     let shl := fun (n : Nat) => if 32 ≤ n then 0#32 else a <<< n
     let shr := fun (n : Nat) => if 32 ≤ n then 0#32 else a >>> n
     let sar := fun (n : Nat) => if 32 ≤ n then (if a.msb then 0xFFFFFFFF#32 else 0#32) else a.sshiftRight n
     let rol := fun (n : Nat) => a.rotateLeft (n % 32)
     let ror := fun (n : Nat) => a.rotateRight (n % 32)
     let gives := fun (i : Instr) (v : Word) => exec i s = .next ((s.modCx k fun r => r.result rd v false false).issued lc k)
     (s.executes lc gs gp [ra, rb] [rd] k = true →
       let n := ((s.cx k).get rb).toNat % 256
       gives (.shl lc gs gp rd ra rb) (shl n) ∧ gives (.shr lc gs gp rd ra rb) (shr n) ∧ gives (.sar lc gs gp rd ra rb) (sar n) ∧
       gives (.rol lc gs gp rd ra rb) (rol n) ∧ gives (.ror lc gs gp rd ra rb) (ror n)) ∧
     (s.executes lc gs gp [ra] [rd] k = true →
       gives (.shi lc gs gp rd ra 0 imm) (shl imm.toNat) ∧ gives (.shi lc gs gp rd ra 1 imm) (shr imm.toNat) ∧
       gives (.shi lc gs gp rd ra 2 imm) (sar imm.toNat) ∧ gives (.shi lc gs gp rd ra 3 imm) (rol imm.toNat) ∧
       gives (.shi lc gs gp rd ra 4 imm) (ror imm.toNat)) ∧
     (∀ w : Word, w.toNat / 2 ^ 28 ≠ 8 → w.toNat / 2 ^ 22 % 64 = 6 → 5 ≤ w.toNat / 2 ^ 8 % 16 → decodePx32 lc w = none))

/-- Divisions truncate toward zero, and a remainder has the sign of the dividend; 0x8000_0000 by -1 gives 0x8000_0000 and 0 with V
set by DIV only; a division by 0 gives 0 or the dividend with DZ set, unless the core's DZTRAP is 1: then the trap of code
0x05 is taken with DZ set and rd not written, its detail the word. -/
def Obligations.DivisionResults : Prop :=
  ∀ (s : State) (k : Nat) (lc : Fin 16) (gs : Bool) (gp : Fin 8) (rd ra rb : Fin 32), s.executes lc gs gp [ra, rb] [rd] k = true →
    let a := (s.cx k).get ra
    let b := (s.cx k).get rb
    let gives := fun (i : Instr) (v : Word) (ov dz : Bool) => exec i s = .next ((s.modCx k fun r => r.result rd v ov dz).issued lc k)
    (b ≠ 0#32 →
      gives (.div lc gs gp rd ra rb) (BitVec.ofInt 32 (a.toInt.tdiv b.toInt)) (a == 0x80000000#32 && b == 0xFFFFFFFF#32) false ∧
      gives (.rem lc gs gp rd ra rb) (BitVec.ofInt 32 (a.toInt.tmod b.toInt)) false false ∧
      gives (.divu lc gs gp rd ra rb) (BitVec.ofNat 32 (a.toNat / b.toNat)) false false ∧
      gives (.remu lc gs gp rd ra rb) (BitVec.ofNat 32 (a.toNat % b.toNat)) false false) ∧
    (b = 0#32 → s.bit lcmPg (R.LCM.LCFG.DZTRAP lc) = false →
      gives (.div lc gs gp rd ra rb) 0#32 false true ∧ gives (.divu lc gs gp rd ra rb) 0#32 false true ∧
      gives (.rem lc gs gp rd ra rb) a false true ∧ gives (.remu lc gs gp rd ra rb) a false true) ∧
    (b = 0#32 → s.bit lcmPg (R.LCM.LCFG.DZTRAP lc) = true →
      let traps := fun (i : Instr) (w : Word) =>
        exec i s = .next ((State.trapNow (s.modCx k fun r => { r with dz := true }) k 0x05 w).issued lc k)
      traps (.div lc gs gp rd ra rb) (wordOf gs gp 0x01 (fmtR rd ra rb 0x14)) ∧
      traps (.divu lc gs gp rd ra rb) (wordOf gs gp 0x01 (fmtR rd ra rb 0x15)) ∧
      traps (.rem lc gs gp rd ra rb) (wordOf gs gp 0x01 (fmtR rd ra rb 0x16)) ∧
      traps (.remu lc gs gp rd ra rb) (wordOf gs gp 0x01 (fmtR rd ra rb 0x17)))

/-- ADDI adds the sign-extended imm12 and sets V as ADD does; ANDI, ORI and XORI use the zero-extended imm12; MOVW writes imm16
with the high half cleared, or imm16 over rd's low half. -/
def Obligations.ImmediateResults : Prop :=
  ∀ (s : State) (k : Nat) (lc : Fin 16) (gs : Bool) (gp : Fin 8) (rd ra : Fin 32) (imm : BitVec 12) (imm16 : BitVec 16),
    let gives := fun (i : Instr) (v : Word) (ov : Bool) => exec i s = .next ((s.modCx k fun r => r.result rd v ov false).issued lc k)
    (s.executes lc gs gp [ra] [rd] k = true →
      let a := (s.cx k).get ra
      gives (.addi lc gs gp rd ra imm) (a + BitVec.ofInt 32 imm.toInt)
        (decide (a.toInt + imm.toInt < -2 ^ 31 ∨ 2 ^ 31 ≤ a.toInt + imm.toInt)) ∧
      gives (.andi lc gs gp rd ra imm) (a &&& BitVec.ofNat 32 imm.toNat) false ∧
      gives (.ori lc gs gp rd ra imm) (a ||| BitVec.ofNat 32 imm.toNat) false ∧
      gives (.xori lc gs gp rd ra imm) (a ^^^ BitVec.ofNat 32 imm.toNat) false) ∧
    (s.executes lc gs gp [] [rd] k = true →
      gives (.movw lc gs gp rd false imm16) (BitVec.ofNat 32 imm16.toNat) false) ∧
    (s.executes lc gs gp [rd] [rd] k = true →
      gives (.movw lc gs gp rd true imm16) (BitVec.ofNat 32 (imm16.toNat * 65536 + ((s.cx k).get rd).toNat % 65536)) false)

/-- CMP and CMPI write pd by their condition on ra and rb or the sign-extended imm10, PRED writes pd from pa and pb, and SEL
writes rd with ra or rb; ST stays, the PC advances by 4, and nothing else changes. The conditions 14 and 15 and the operation
7 of PRED are undefined: their words spell no instruction. -/
def Obligations.CompareResults : Prop :=
  ∀ (s : State) (k : Nat) (lc : Fin 16) (gs : Bool) (gp : Fin 8),
    let r := s.cx k
    let givesP := fun (i : Instr) (pd : Fin 8) (b : Bool) =>
      exec i s = .next ((s.modCx k fun r => r.resultP pd b).issued lc k)
    let cond := fun (c : Nat) (a b : Word) =>
      if c = 0 then a == b else if c = 1 then a != b
      else if c = 2 then decide (a.toInt < b.toInt) else if c = 3 then decide (b.toInt ≤ a.toInt)
      else if c = 4 then decide (a.toInt ≤ b.toInt) else if c = 5 then decide (b.toInt < a.toInt)
      else if c = 6 then decide (a.toNat < b.toNat) else if c = 7 then decide (b.toNat ≤ a.toNat)
      else if c = 8 then decide (a.toNat ≤ b.toNat) else if c = 9 then decide (b.toNat < a.toNat)
      else if c = 10 then a &&& b != 0#32 else if c = 11 then a &&& b == 0#32 else if c = 12 then r.v else r.dz
    (∀ (pd : Fin 8) (c : Fin 14) (ra rb : Fin 32), s.executes lc gs gp (if c.val < 12 then [ra.val, rb.val] else []) [] k = true →
      givesP (.cmp lc gs gp pd c ra rb) pd (cond c.val (r.get ra) (r.get rb))) ∧
    (∀ (pd : Fin 8) (c : Fin 14) (ra : Fin 32) (imm : BitVec 10), s.executes lc gs gp (if c.val < 12 then [ra.val] else []) [] k = true →
      givesP (.cmpi lc gs gp pd c ra imm) pd (cond c.val (r.get ra) (BitVec.ofInt 32 imm.toInt))) ∧
    (∀ (pd pa pb : Fin 8) (op : Fin 7), s.executes lc gs gp [] [] k = true →
      let a := r.getP pa
      let b := r.getP pb
      givesP (.pred lc gs gp pd pa pb op) pd
        (if op.val = 0 then a && b else if op.val = 1 then a || b else if op.val = 2 then a != b
         else if op.val = 3 then a && !b else if op.val = 4 then !a else op.val == 5)) ∧
    (∀ (rd ra rb : Fin 32) (ps : Fin 8), s.executes lc gs gp [if r.getP ps then ra.val else rb.val] [rd] k = true →
      exec (.sel lc gs gp rd ra rb ps) s =
        .next ((s.modCx k fun q => q.result rd (if r.getP ps then r.get ra else r.get rb) false false).issued lc k)) ∧
    (∀ w : Word, w.toNat / 2 ^ 28 ≠ 8 →
      (w.toNat / 2 ^ 22 % 64 = 8 ∨ w.toNat / 2 ^ 22 % 64 = 9) ∧ 14 ≤ w.toNat / 2 ^ 15 % 16 ∨
        (w.toNat / 2 ^ 22 % 64 = 10 ∧ w.toNat / 2 ^ 10 % 8 = 7) → decodePx32 lc w = none)

/-- What a result leaves alone: a context's other general registers, its predicates, scratch, trap and configuration registers; g0
keeps reading 0 and p0 true; V and DZ only gain; and the change is in context `k` alone: no other context, no page register,
no memory byte, no queue. After it a slot kept for the context is given on, if there is one, and an issue cycle passes: with
no operation outstanding what was issued 2 cycles before, or at an earlier tick, leaves the release buffer and the rest ages,
nothing else. V and DZ only set: no instruction of the integer, compare and transfer families, guarded or not, clears one in
any context; only MTS to ST and START do. -/
def Obligations.ResultFrame : Prop :=
  ((∀ (r : CtxRegs) (rd n : Nat) (v : Word) (ov dz : Bool),
     let q := r.result rd v ov dz
     q.get n = (if n = rd ∧ n ≠ 0 then v else r.get n) ∧ q.pc = r.pc + 4 ∧ q.v = (r.v || ov) ∧ q.dz = (r.dz || dz) ∧
     q.p = r.p ∧ q.scr0 = r.scr0 ∧ q.scr1 = r.scr1 ∧ q.ctpc = r.ctpc ∧ q.ctcause = r.ctcause ∧ q.ctval = r.ctval ∧
     q.cnpc = r.cnpc ∧ q.ctvec = r.ctvec ∧ q.centry = r.centry ∧ q.tmode = r.tmode ∧ q.nmode = r.nmode ∧ q.st = r.st) ∧
   (∀ (r : CtxRegs) (pd n : Nat) (b : Bool), pd < 8 → n < 8 →
     let q := r.resultP pd b
     q.getP n = (if n = pd ∧ n ≠ 0 then b else r.getP n) ∧ q = { r with p := q.p, pc := r.pc + 4 }) ∧
   (∀ (s : State) (k j : Nat) (f : CtxRegs → CtxRegs),
     let t := s.modCx k f
     (t.cx k) = f (s.cx k) ∧ (j ≠ k → t.ctxAt j = s.ctxAt j) ∧ (t.ctxAt k).com = (s.ctxAt k).com ∧
     (t.ctxAt k).jour = (s.ctxAt k).jour ∧ t.regs = s.regs ∧ t.mem = s.mem ∧ t.ops = s.ops ∧ t.pending = s.pending ∧
     t.postings = s.postings ∧ t.raises = s.raises ∧ t.lcores = s.lcores ∧ t.tb = s.tb) ∧
   (∀ (s : State) (n k : Nat), (s.ctxAt k).slotRes = false → s.issued n k = s.cycle n) ∧
   (∀ (s : State) (n : Nat), (s.lcAt n).buf = [] → s.cycle n = s) ∧
   (∀ (s : State) (n : Nat), s.ops = [] →
     let t := s.cycle n
     t.mem = s.mem ∧ t.regs = s.regs ∧ t.ops = [] ∧ t.postings = s.postings ∧ (∀ j, t.cx j = s.cx j) ∧
     (t.lcAt n).buf = ((s.lcAt n).buf.filter fun e => decide (e.cyc < 2) && decide (s.kaNow ≤ e.tick)).map fun e =>
       { e with cyc := e.cyc + 1 })) ∧
  (∀ (r : CtxRegs) (rd pd : Nat) (x : Word) (b ov dz : Bool),
     ((r.result rd x ov dz).v = (r.v || ov)) ∧ ((r.result rd x ov dz).dz = (r.dz || dz)) ∧
     (r.resultP pd b).v = r.v ∧ (r.resultP pd b).dz = r.dz ∧ (r.set rd x).v = r.v ∧ (r.set rd x).dz = r.dz)

/-- With a guard that fails, every PX32 instruction only advances the PC: by 4, and by 8 at RPT, whose string instruction is
skipped with it; no register, no flag, no access and no trap. FENCE with guard 0b1000 is the hint YIELD. Where the rules leave
a detail open it states the model's choice: log entry 6. -/
def Obligations.GuardFails : Prop :=
  ∀ (s : State) (k : Nat) (lc : Fin 16) (gs : Bool) (gp : Fin 8) (i : Instr), guardOf i = some (lc, gs, gp) →
    i.wellFormed = true ∨ neverGuard gs gp = true → (i = .fence lc gs gp → neverGuard gs gp = false) →
    (i = .rtt lc gs gp ∨ i = .rttN lc gs gp → neverGuard gs gp = false → (s.cx k).tmode = true ∧ (s.cx k).nmode = false) →
    (i = .rtn lc gs gp → neverGuard gs gp = false → (s.cx k).nmode = true) →
    s.issuing lc = some k → s.fetches k = true → (s.cx k).guardHolds gs gp = false →
    exec i s = .next ((s.modCx k fun r => { r with pc := r.pc + (match i with | .rpt .. => 8#32 | _ => 4#32) }).issued lc k)

/-- BR goes to PC + 4 * sext(off22), CALL too with g31 := PC + 4, JMP to ra + sext(imm12) with rd := PC + 4 after the target is
computed; a target whose bits [1:0] are not 0 takes the FETCH trap at the transfer, with the target as its detail and no
register written, before a poisoned ra of JMP takes the POISON trap. NOP only advances the PC; YIELD advances the PC and the
core selects again, another READY context of equal priority first; a word that decodes to nothing takes the ILLEGAL trap
whatever its guard, with the word as its detail. A FENCE with an access of its context outstanding keeps the context in RUN
until none is, else it completes. -/
def Obligations.ControlFlow : Prop :=
  (∀ (s : State) (k : Nat) (lc : Fin 16) (gs : Bool) (gp : Fin 8),
     let r := s.cx k
     let goes := fun (i : Instr) (target : Word) (f : CtxRegs → CtxRegs) =>
       exec i s = .next (State.issued (if target.toNat % 4 = 0 then s.modCx k (fun r => { f r with pc := target }) else s.trapNow k 2 target) lc k)
     (∀ off : BitVec 22, s.executes lc gs gp [] [] k = true →
       goes (.br lc gs gp off) (r.pc + BitVec.ofInt 32 (4 * off.toInt)) id) ∧
     (∀ off : BitVec 22, s.executes lc gs gp [] [31] k = true →
       goes (.call lc gs gp off) (r.pc + BitVec.ofInt 32 (4 * off.toInt)) (fun r => r.set 31 (r.pc + 4))) ∧
     (∀ (rd ra : Fin 32) (imm : BitVec 12), s.executes lc gs gp [] [ra, rd] k = true →
       let target := r.get ra + BitVec.ofInt 32 imm.toInt
       (r.poisonOf [ra] = none ∨ target.toNat % 4 ≠ 0 → goes (.jmp lc gs gp rd ra imm) target fun r => r.set rd (r.pc + 4)) ∧
       (∀ a, r.poisonOf [ra] = some a → target.toNat % 4 = 0 →
         exec (.jmp lc gs gp rd ra imm) s = .next ((s.trapNow k 4 a).issued lc k))) ∧
     (s.issuing lc = some k → s.fetches k = true → r.guardHolds gs gp = false →
       let falls := fun (i : Instr) => exec i s = .next ((s.modCx k fun r => { r with pc := r.pc + 4 }).issued lc k)
       (∀ off, falls (.br lc gs gp off) ∧ falls (.call lc gs gp off)) ∧ ∀ rd ra imm, falls (.jmp lc gs gp rd ra imm))) ∧
  (∀ (s : State) (k : Nat) (lc : Fin 16), s.issuing lc = some k → s.fetches k = true →
     exec (.nop lc) s = .next ((s.modCx k fun r => { r with pc := r.pc + 4 }).issued lc k) ∧
     exec (.yield lc) s = .next (((s.modCx k fun r => { r with pc := r.pc + 4 }).scheduleWith (k / 32) true).issued lc k) ∧
     (∀ w : Word, decodePx32 lc w = none → exec (.illegalInstruction lc w) s = .next ((s.trapNow k 1 w).issued lc k))) ∧
  (∀ (s : State) (k : Nat) (lc : Fin 16) (gs : Bool) (gp : Fin 8), s.executes lc gs gp [] [] k = true →
     ((∀ o ∈ s.ops, o.ctx = k → o.kind = JKind.post) →
       exec (.fence lc gs gp) s = .next ((s.modCx k fun r => { r with pc := r.pc + 4 }).issued lc k)) ∧
     ((∃ o ∈ s.ops, o.ctx = k ∧ o.kind ≠ JKind.post) →
       GivesThen (.fence lc gs gp) s (·.issued lc k) fun t => (t.ctxAt k).fence = true ∧ (t.cx k).pc = (s.cx k).pc ∧ t.ops = s.ops))

/-- A trap saves its PC, cause and detail, sets TMODE and continues at CTVEC, with the registers as they are; in TMODE or NMODE
the context becomes HALTED with DBL set, source 21 is raised and event 18 is posted. A late trap's cause has bit 7 set. RTT
and RTT.N leave TMODE for the word at CTPC or the one after it, RTN leaves NMODE for CNPC and a held NMT is then taken; each
is illegal outside its mode. TRAP takes the SOFT trap with its code as detail. An NMT saves the PC in CNPC, sets NMODE and
makes context 31 READY at its vector, out of any drain or double trap; in NMODE one is held, and a further one is only
counted. Where the rules leave a detail open it states the model's choice: log entries 6, 14. -/
def Obligations.TrapsAndReturns : Prop :=
  (∀ (s : State) (k cause : Nat) (late : Bool) (at_ detail : Word), cause < 8 →
     let r := s.cx k
     let t := s.takeTrap k cause late at_ detail
     (r.tmode = false → r.nmode = false →
       t.cx k = { r with ctpc := at_, ctcause := BitVec.ofNat 8 (cause + if late then 128 else 0), ctval := detail, tmode := true,
                         pc := r.ctvec } ∧
       t.ops = s.ops ∧ t.mem = s.mem ∧ t.raises = s.raises ∧ t.postings = s.postings ∧
       (∀ j, j ≠ k → t.ctxAt j = s.ctxAt j)) ∧
     (r.tmode = true ∨ r.nmode = true →
       t.cx k = { r with dbl := true, drain := false, st := .halted } ∧
       t.raises = s.raises ++ [⟨21, .page 0x02A⟩] ∧
       t.postings = s.postings ++ [s.posting 18] ∧
       (∀ j, j ≠ k → t.ctxAt j = s.ctxAt j))) ∧
  (∀ (s : State) (k : Nat) (lc : Fin 16) (gs : Bool) (gp : Fin 8), s.executes lc gs gp [] [] k = true →
     let r := s.cx k
     (r.tmode = true → r.nmode = false →
       exec (.rtt lc gs gp) s = .next ((s.modCx k fun r => { r with tmode := false, pc := r.ctpc }).issued lc k) ∧
       exec (.rttN lc gs gp) s = .next ((s.modCx k fun r => { r with tmode := false, pc := r.ctpc + 4 }).issued lc k)) ∧
     (r.tmode = false ∨ r.nmode = true →
       exec (.rtt lc gs gp) s = .next ((s.trapNow k 1 (wordOf gs gp 0 0x02)).issued lc k) ∧
       exec (.rttN lc gs gp) s = .next ((s.trapNow k 1 (wordOf gs gp 0 0x03)).issued lc k)) ∧
     (r.nmode = true →
       let t := s.modCx k fun r => { r with nmode := false, pc := r.cnpc }
       ((s.lcAt (k / 32)).nmtHeld = false → exec (.rtn lc gs gp) s = .next ((t.schedule (k / 32)).issued lc k)) ∧
       ((s.lcAt (k / 32)).nmtHeld = true →
         exec (.rtn lc gs gp) s = .next ((State.takeNmt (t.setLc (k / 32) { s.lcAt (k / 32) with nmtHeld := false }) (k / 32)).issued lc k))) ∧
     (r.nmode = false → exec (.rtn lc gs gp) s = .next ((s.trapNow k 1 (wordOf gs gp 0 0x04)).issued lc k)) ∧
     (∀ code : BitVec 16, exec (.trap lc gs gp code) s = .next ((s.trapNow k 7 (BitVec.ofNat 32 code.toNat)).issued lc k))) ∧
  (∀ (s : State) (lc : Fin 16), s.nmts.contains lc.val = true → s.coreExists lc = true → s.moving lc = false →
     let k := 32 * lc.val + 31
     s.midElem k = false →
     ((s.cx k).nmode = false → s.coreRuns lc = false →
       Gives (.nmtArrival lc) s fun t =>
         (t.cx k).cnpc = (s.cx k).pc ∧ (t.cx k).pc = (s.cx k).ctvec ∧ (t.cx k).nmode = true ∧ (t.cx k).st = CtxSt.ready ∧
         (t.cx k).drain = false ∧ (t.cx k).dbl = false ∧ (t.cx k).g = (s.cx k).g ∧ t.nmts = s.nmts.erase lc.val) ∧
     ((s.cx k).nmode = true → (s.lcAt lc).nmtHeld = false →
       exec (.nmtArrival lc) s = .next (State.setLc { s with nmts := s.nmts.erase lc.val } lc { s.lcAt lc with nmtHeld := true })) ∧
     ((s.cx k).nmode = true → (s.lcAt lc).nmtHeld = true →
       exec (.nmtArrival lc) s = .next (State.count { s with nmts := s.nmts.erase lc.val } 0x02A (16 + lc.val))))

/-- RDTB reads TB into an even pair at its first execution, and the recorded value where it is executed again; an odd register is
illegal. MFS reads the defined system registers and MTS writes SCR0, SCR1, ST and PV; every other number is illegal, whatever
the guard. Where the rules leave a detail open it states the model's choice: log entry 6. -/
def Obligations.SystemRegisters : Prop :=
  (∀ (s : State) (k : Nat) (lc : Fin 16) (gs : Bool) (gp : Fin 8) (rt : Fin 32),
     (s.executes lc gs gp [] [rt.val, rt.val + 1] k = true → rt.val % 2 = 0 →
       let reads := fun (v : Nat) => GivesThen (.rdtb lc gs gp rt) s (·.issued lc k) fun t =>
         (∀ n : Nat, (t.cx k).get n = (if n = 0 then 0#32 else if n = rt.val then BitVec.ofNat 32 v
           else if n = rt.val + 1 then BitVec.ofNat 32 (v / 2 ^ 32) else (s.cx k).get n)) ∧
         (t.cx k).pc = (s.cx k).pc + 4 ∧ (t.cx k).v = (s.cx k).v ∧ (t.cx k).p = (s.cx k).p ∧ t.tb = s.tb ∧ t.mem = s.mem
       ((s.ctxAt k).replay = [] → (s.ctxAt k).journalled < 64 → reads s.tb) ∧
       (∀ e l, (s.ctxAt k).replay = e :: l → e.poisoned = false → reads e.val)) ∧
     (s.executes lc gs gp [] [] k = true → rt.val % 2 = 1 →
       exec (.rdtb lc gs gp rt) s = .next ((s.trapNow k 1 (wordOf gs gp 0 (rt.val * 0x20000 + 6))).issued lc k))) ∧
  (∀ (s : State) (k : Nat) (lc : Fin 16) (gs : Bool) (gp : Fin 8) (r sr : Fin 32),
     let q := s.cx k
     (s.executes lc gs gp [] [r] k = true → sr.val < 8 ∨ sr.val = 9 →
       exec (.mfs lc gs gp r sr) s = .next (State.issued (s.modCx k fun c => c.result r
         (if sr.val = 0 then q.ctpc else if sr.val = 1 then BitVec.ofNat 32 q.ctcause.toNat else if sr.val = 2 then q.ctval
          else if sr.val = 3 then q.cnpc else if sr.val = 4 then q.scr0 else if sr.val = 5 then q.scr1
          else if sr.val = 6 then BitVec.ofNat 32 ((if q.v then 1 else 0) + (if q.dz then 2 else 0))
          else if sr.val = 7 then BitVec.ofNat 32 (k % 512)
          else BitVec.ofNat 32 (q.p % 256 / 2 * 2 + 1)) false false) lc k)) ∧
     (s.executes lc gs gp [r] [] k = true →
       let w := q.get r
       let writes := fun (f : CtxRegs → CtxRegs) =>
         exec (.mts lc gs gp r sr) s = .next ((s.modCx k fun c => { f c with pc := c.pc + 4 }).issued lc k)
       (sr.val = 4 → writes fun c => { c with scr0 := w }) ∧
       (sr.val = 5 → writes fun c => { c with scr1 := w }) ∧
       (sr.val = 6 → writes fun c => { c with v := w.getLsbD 0, dz := w.getLsbD 1 }) ∧
       (sr.val = 9 → writes fun c => { c with p := w.toNat % 256 / 2 * 2 })) ∧
     (s.issuing lc = some k → s.fetches k = true → neverGuard gs gp = false →
       (8 ≤ sr.val → sr.val ≠ 9 → exec (.mfs lc gs gp r sr) s = .next ((s.trapNow k 1 (wordOf gs gp 0 (fmtY r sr 0x08))).issued lc k)) ∧
       (sr.val ∉ [4, 5, 6, 9] → exec (.mts lc gs gp r sr) s = .next ((s.trapNow k 1 (wordOf gs gp 0 (fmtY r sr 0x09))).issued lc k))))

/-- A WAIT.EV whose event is pending clears the pending bit and completes with its predicate true; one whose deadline TB has
reached completes with it false; WAIT.T completes at once at or after its deadline. A wait that does not complete parks its
context with its event and deadline, PC at the wait, where a slot is free, else in OPWAIT. Where the rules leave a detail open
it states the model's choice: log entries 3, 13. -/
def Obligations.WaitResults : Prop :=
  ∀ (s : State) (k : Nat) (lc : Fin 16) (gs : Bool) (gp pd : Fin 8) (rt : Option (Fin 32)) (n : EvSrc) (t2 : Fin 32),
    (∀ x ∈ rt, x.val % 2 = 0) → t2.val % 2 = 0 → (s.ctxAt k).replay = [] → (s.ctxAt k).journalled < 64 →
    let r := s.cx k
    let ev := match n with | .imm e => e.toNat | .reg a => (r.get a).toNat % 1024
    let pair := fun (x : Fin 32) => (r.get (x.val + 1)).toNat * 2 ^ 32 + (r.get x).toNat
    let due := rt.map pair
    let srcs := (match n with | .imm _ => ([] : List Nat) | .reg a => [a.val]) ++
      (match rt with | some x => [x.val, x.val + 1] | none => [])
    let pended := (s.lcAt (k / 32)).pend.testBit ev
    (s.executes lc gs gp srcs [] k = true →
      (pended = true → GivesThen (.waitEv lc gs gp pd rt n) s (·.issued lc k) fun t =>
        t.cx k = { r.setP pd true with pc := r.pc + 4 } ∧
        (∀ e, (t.lcAt (k / 32)).pend.testBit e = ((s.lcAt (k / 32)).pend.testBit e && decide (e ≠ ev)))) ∧
      (pended = false → (∃ d ∈ due, d ≤ s.tb) → GivesThen (.waitEv lc gs gp pd rt n) s (·.issued lc k) fun t =>
        t.cx k = { r.setP pd false with pc := r.pc + 4 } ∧ (t.lcAt (k / 32)).pend = (s.lcAt (k / 32)).pend) ∧
      (pended = false → (∀ d ∈ due, s.tb < d) → s.slotsFull k = false → GivesThen (.waitEv lc gs gp pd rt n) s (·.issued lc k) fun t =>
        t.cx k = { r with st := .waitev, evt := ev, deadline := due, waitPd := pd.val } ∧ (t.ctxAt k).com = t.cx k)) ∧
    (s.executes lc gs gp [t2.val, t2.val + 1] [] k = true →
      (pair t2 ≤ s.tb → GivesThen (.waitT lc gs gp t2) s (·.issued lc k) fun t => t.cx k = { r with pc := r.pc + 4 }) ∧
      (s.tb < pair t2 → s.slotsFull k = false → GivesThen (.waitT lc gs gp t2) s (·.issued lc k) fun t =>
        t.cx k = { r with st := .waitt, deadline := some (pair t2) } ∧ (t.ctxAt k).com = t.cx k) ∧
      (s.tb < pair t2 → s.slotsFull k = true → GivesThen (.waitT lc gs gp t2) s (·.issued lc k) fun t =>
        t.cx k = { r with st := .opwait, opw := .slot }))

/-- A posting that arrives at a core makes every context that waits on its event READY with its predicate true and the PC past the
wait, and leaves the pending bit as it is; with no such context the pending bit sets. What the same island posted earlier
arrives before it. At its deadline tick a wait that still waits becomes READY past the wait, a WAIT.EV with its predicate
false. SEND.EV of an event 0-255 takes the EVENT trap; another is journaled and enters the core's release buffer, and the PC
advances. Two issue cycles later, or at a later tick, it leaves, if no earlier store of the context is outstanding, toward
every core that exists, from the island of the core's pair. Where the rules leave a detail open it states the model's choice:
log entries 3, 10. -/
def Obligations.EventDelivery : Prop :=
  ((∀ (s : State) (lc : Fin 16) (ev : BitVec 10) (p : Posting),
     s.postings.find? (fun q => q.ev = ev.toNat && q.left.contains lc.val) = some p →
     s.postings.find? (fun q => q.isl = p.isl && q.left.contains lc.val) = some p → s.moving lc = false → s.coreRuns lc = false →
     s.noneDue = true →
     let waits := fun i : Nat => (s.cx (32 * lc.val + i)).st = CtxSt.waitev ∧ (s.cx (32 * lc.val + i)).evt = ev.toNat
     ((∃ i, i < 32 ∧ waits i) → Gives (.eventPostingArrival lc ev) s fun t =>
       (t.lcAt lc).pend = (s.lcAt lc).pend ∧
       (∀ i, i < 32 → waits i →
         let k := 32 * lc.val + i
         t.cx k = { (s.cx k).setP (s.cx k).waitPd true with pc := (s.cx k).pc + 4, deadline := none, st := .ready })) ∧
     ((∀ i, i < 32 → ¬ waits i) → Gives (.eventPostingArrival lc ev) s fun t =>
       (∀ e, (t.lcAt lc).pend.testBit e = ((s.lcAt lc).pend.testBit e || decide (e = ev.toNat))) ∧
       (∀ k, t.ctxAt k = s.ctxAt k))) ∧
   (∀ (s : State) (lc : Fin 16) (p q : Posting) (ev : BitVec 10), s.postings = [q, p] → q.isl = p.isl → q.left = [lc.val] → p.left = [lc.val] →
     p.ev = ev.toNat → q.ev ≠ p.ev → s.moving lc = false → s.noneDue = true → (∀ k, k < 512 → (s.cx k).st ≠ CtxSt.waitev) →
     Gives (.eventPostingArrival lc ev) s fun t => t.postings = [] ∧
       ∀ e, (t.lcAt lc).pend.testBit e = ((s.lcAt lc).pend.testBit e || decide (e = q.ev) || decide (e = p.ev))) ∧
   (∀ (s : State) (lc : Fin 16) (i : Fin 32) (d : Nat),
     let k := 32 * lc.val + i.val
     let r := s.cx k
     s.coreRuns lc = true → r.deadline = some d → d ≤ s.tb → (∀ j : Fin 32, j ≠ i → (s.cx (32 * lc.val + j.val)).st = CtxSt.off) →
     (r.st = .waitt → Gives (.waitDeadline lc i) s fun t =>
       (t.cx k).pc = r.pc + 4 ∧ (t.cx k).deadline = none ∧ (t.cx k).p = r.p ∧ (t.cx k).g = r.g) ∧
     (r.st = .waitev → Gives (.waitDeadline lc i) s fun t =>
       (t.cx k).pc = r.pc + 4 ∧ (t.cx k).deadline = none ∧ (t.cx k).p = (r.setP r.waitPd false).p ∧ (t.cx k).g = r.g))) ∧
  ((∀ (s : State) (k : Nat) (lc : Fin 16) (gs : Bool) (gp : Fin 8) (n : EvSrc),
     let r := s.cx k
     let ev := match n with | .imm e => e.toNat | .reg a => (r.get a).toNat % 1024
     let o : Op := { id := s.opNext, ctx := k, epoch := (s.ctxAt k).epoch, kind := .post, addr := 0, w := 0, data := ev, slot := false }
     s.executes lc gs gp (match n with | .imm _ => [] | .reg a => [a.val]) [] k = true →
     (ev < 256 → exec (.sendEv lc gs gp n) s = .next ((s.trapNow k 6 (BitVec.ofNat 32 ev)).issued lc k)) ∧
     (256 ≤ ev → (s.ctxAt k).replay = [] → (s.ctxAt k).journalled < 64 → GivesThen (.sendEv lc gs gp n) s (·.issued lc k) fun t =>
       t.ops = s.ops ++ [o] ∧ (t.lcAt (k / 32)).buf = (s.lcAt (k / 32)).buf ++ [{ id := s.opNext, tick := s.kaNow }] ∧ t.postings = s.postings ∧
       (t.ctxAt k).jour = (s.ctxAt k).jour ++ [{ id := s.opNext, kind := .post, addr := 0, w := 0, data := ev }] ∧
       (t.cx k).pc = r.pc + 4 ∧ (t.cx k).g = r.g ∧ t.mem = s.mem)) ∧
   (∀ (s : State) (n cyc : Nat) (o : Op) (tick : Int), s.ops = [o] → o.kind = .post → o.slot = false → o.ctx / 32 = n →
     (s.lcAt n).buf = [{ id := o.id, cyc := cyc, tick := tick }] → 2 ≤ cyc ∨ tick < s.kaNow →
     let t := s.cycle n
     t.ops = [] ∧ t.released n o.id = true ∧ t.mem = s.mem ∧
     t.postings = s.postings ++ [⟨o.data, (List.range 16).filter s.coreExists, (Island.cp (s.pairOfCore n)).index⟩]))

/-- LD and ST compute ra + sext(off9) * size; a permitted access outside the core's own local SRAM takes a slot and a journal
entry, and the PC advances; a forbidden one takes the ACCESS trap with its address. A completed load writes its register and a
completed store its bytes, little-endian. An access to the core's own local SRAM takes no slot: a word load with nothing
outstanding has its value at once; a store is journaled and waits in the release buffer, and its bytes change two issue cycles
later, or at a later tick. Using a register that holds a poisoned value takes the POISON trap at the instruction, with the
address of the load. A fetch through the cache whose line the pair's cache does not hold parks its context in OPWAIT, whatever
the instruction, and whatever the line holds; once memory answers the line enters the cache, uncorrectable or not, and the
context goes on, with its PC at the instruction. Where the rules leave a detail open it states the model's choice: log entries
5, 8, 9, 10, 11. -/
def Obligations.LoadsAndStores : Prop :=
  ((∀ (s : State) (k : Nat) (lc : Fin 16) (gs : Bool) (gp : Fin 8) (r ra : Fin 32) (off : BitVec 9) (nsym : Nat),
     let q := s.cx k
     let size : Nat → Nat := fun w => if w < 2 then 1 else if w < 4 then 2 else 4
     let addr := fun w : Nat => (q.get ra + BitVec.ofInt 32 (off.toInt * (size w : Int))).toNat
     let issues := fun (i : Instr) (kind : JKind) (w data reg : Nat) => GivesThen i s (·.issued lc k) fun t =>
       t.ops = s.ops ++ [{ id := s.opNext, ctx := k, epoch := (s.ctxAt k).epoch, kind := kind, addr := addr w, w := w, data := data, reg := reg }] ∧
       t.cx k = { q with pc := q.pc + 4 } ∧ t.mem = s.mem ∧ t.regs = s.regs ∧
       (t.ctxAt k).jour = (s.ctxAt k).jour ++ [{ id := s.opNext, kind := kind, addr := addr w, w := w, data := data }]
     (∀ w : Fin 5, s.executes lc gs gp [ra] [r] k = true →
       (s.canAccess (addr w) (size w) false = true → ownLocal (k / 32) (addr w) = false → s.roomFor k = true → issues (.ld lc gs gp r ra w off nsym) .load w 0 r) ∧
       (s.canAccess (addr w) (size w) false = false →
         exec (.ld lc gs gp r ra w off nsym) s = .next ((s.trapNow k 3 (BitVec.ofNat 32 (addr w))).issued lc k))) ∧
     (∀ w : Fin 3, s.executes lc gs gp [r, ra] [] k = true →
       (s.canAccess (addr (2 * w.val)) (size (2 * w.val)) true = true → ownLocal (k / 32) (addr (2 * w.val)) = false →
         s.roomFor k = true →
         issues (.st lc gs gp r ra w off) .store (2 * w.val) ((q.get r).toNat % 256 ^ size (2 * w.val)) 0) ∧
       (s.canAccess (addr (2 * w.val)) (size (2 * w.val)) true = false →
         exec (.st lc gs gp r ra w off) s = .next ((s.trapNow k 3 (BitVec.ofNat 32 (addr (2 * w.val)))).issued lc k)))) ∧
   (∀ (s : State) (o : Op) (p : Nat), s.ops = [o] → o.slot = true → inSram o.addr 4 = true → o.addr % 4 = 0 → s.placeOf o.addr = some p →
     s.clocked .mem = true → s.poisoned p = false → s.symsOf (p / 32) = 0 → o.epoch = (s.ctxAt o.ctx).epoch → s.coreRuns (o.ctx / 32) = false → s.noneDue = true →
     (o.kind = .store → o.w = 4 → Gives (.accessComplete (.op o.id) 0) s fun t =>
       t.ops = [] ∧ (∀ i, t.byteAt i = (if p ≤ i ∧ i < p + 4 then BitVec.ofNat 8 (o.data % 2 ^ 32 / 256 ^ (i - p)) else s.byteAt i)) ∧
       (t.cx o.ctx).g = (s.cx o.ctx).g) ∧
     (o.kind = .load → o.w = 4 → 0 < o.reg → o.reg < 32 → Gives (.accessComplete (.op o.id) 0) s fun t =>
       t.ops = [] ∧ (∀ i, t.byteAt i = s.byteAt i) ∧
       (t.cx o.ctx).get o.reg = BitVec.ofNat 32 ((s.byteAt p).toNat + 256 * (s.byteAt (p + 1)).toNat +
         65536 * (s.byteAt (p + 2)).toNat + 16777216 * (s.byteAt (p + 3)).toNat) ∧
       (∀ n, n ≠ o.reg → (t.cx o.ctx).get n = (s.cx o.ctx).get n)))) ∧
  ((∀ (s : State) (k : Nat) (lc : Fin 16) (gs : Bool) (gp : Fin 8) (r ra : Fin 32) (off : BitVec 9) (p nsym : Nat),
     let q := s.cx k
     let a := (q.get ra + BitVec.ofInt 32 (off.toInt * 4)).toNat
     s.canAccess a 4 true = true → ownLocal (k / 32) a = true → s.placeOf a = some p → s.poisoned p = false → s.symsOf (p / 32) = 0 →
     (s.ctxAt k).replay = [] → (s.ctxAt k).journalled < 64 →
     (s.executes lc gs gp [ra] [r] k = true → s.ops = [] → r ≠ 0 → nsym = 0 →
       GivesThen (.ld lc gs gp r ra 4 off nsym) s (·.issued lc k) fun t =>
         t.ops = [] ∧ (t.cx k).pc = q.pc + 4 ∧ (∀ i, t.byteAt i = s.byteAt i) ∧
         (∀ n, (t.cx k).get n = if n = r.val then BitVec.ofNat 32 ((s.byteAt p).toNat + 256 * (s.byteAt (p + 1)).toNat +
           65536 * (s.byteAt (p + 2)).toNat + 16777216 * (s.byteAt (p + 3)).toNat) else q.get n)) ∧
     (s.executes lc gs gp [r, ra] [] k = true → GivesThen (.st lc gs gp r ra 2 off) s (·.issued lc k) fun t =>
       t.ops = s.ops ++ [⟨s.opNext, k, (s.ctxAt k).epoch, .store, a, 4, (q.get r).toNat, 0, false, none⟩] ∧
       (t.lcAt (k / 32)).buf = (s.lcAt (k / 32)).buf ++ [{ id := s.opNext, tick := s.kaNow }] ∧ t.cx k = { q with pc := q.pc + 4 } ∧ t.mem = s.mem)) ∧
   (∀ (s : State) (n p cyc : Nat) (o : Op) (tick : Int), s.ops = [o] → o.kind = .store → o.slot = false → o.w = 4 → o.ctx / 32 = n →
     s.placeOf o.addr = some p → (s.lcAt n).buf = [{ id := o.id, cyc := cyc, tick := tick }] → 2 ≤ cyc ∨ tick < s.kaNow →
     let t := s.cycle n
     t.ops = [] ∧ ∀ i, t.byteAt i = if p ≤ i ∧ i < p + 4 then BitVec.ofNat 8 (o.data % 2 ^ 32 / 256 ^ (i - p)) else s.byteAt i)) ∧
  (∀ (s : State) (k : Nat) (lc : Fin 16) (r : Fin 32) (a : Word), s.issuing lc = some k → s.fetches k = true → r ≠ 0 →
     s.awaits k r = false → (s.cx k).bad.find? (·.1 = r.val) = some (r.val, a) →
     exec (.poisonUse lc r) s = .next ((s.trapNow k 4 a).issued lc k)) ∧
  ((∀ (s : State) (k : Nat) (lc : Fin 16) (gs : Bool) (gp : Fin 8) (i : Instr), guardOf i = some (lc, gs, gp) →
     s.issuing lc = some k → (s.cx k).elem ≠ [] ∨ (s.cx k).late = [] → s.canFetch (s.cx k).pc.toNat = true →
     s.fetchMiss (k / 32) (s.cx k).pc.toNat = true →
     exec i s = .next ((s.opWait k (.fetch ((s.cx k).pc.toNat / 32))).issued lc k)) ∧
   (∀ (s : State) (lc : Fin 16) (j : Fin 32) (line p nsym : Nat),
     let k := 32 * lc.val + j.val
     (s.cx k).st = .opwait → (s.cx k).opw = .fetch line → (s.cx k).drain = false → s.coreRuns lc = true →
     s.memAnswers (line * 32) false = true → s.placeOf (line * 32) = some p → s.noneDue = true → nsym < 39 →
     (∀ i : Fin 32, i ≠ j → (s.cx (32 * lc.val + i.val)).st = CtxSt.off) → (s.lcAt lc).cur = none →
     Gives (.accessComplete (.fetch lc j) nsym) s fun t =>
       (t.cx k).st = .run ∧ (t.cx k).pc = (s.cx k).pc ∧ (t.cx k).g = (s.cx k).g ∧ t.mem = s.mem ∧
       (tget (fun _ => []) t.icache (s.pairOfCore lc)).head? = some line))

/-- A string instruction whose count is 0 performs nothing: the PC advances, CMPS writes pd true and SCANS false. With a count,
one element: MOVS and FILLS store it and step their registers; CMPS stops on a difference, SCANS on a match, both without
stepping, and write pd by R300; CRCS takes its byte into rd. The values are those that the element's loads brought. Where the
rules leave a detail open it states the model's choice: log entries 7, 8. -/
def Obligations.StringResults : Prop :=
  ∀ (s : State) (k : Nat) (lc : Fin 16) (gs : Bool) (gp pd : Fin 8) (rd rs rc : Fin 32) (sz : Fin 3) (nsym : Nat),
    s.executes lc gs gp [rd.val, rs.val, rc.val] [] k = true → s.awaits k 32 = false → (s.cx k).poisonOf [32] = none →
    (s.cx k).drain = false →
    let r := s.cx k
    let c := r.get rc
    let n := if sz = 0 then 1 else if sz = 1 then 2 else 4
    let step := fun (both : Bool) (q : CtxRegs) =>
      let q := q.set rd (r.get rd + BitVec.ofNat 32 n)
      let q := if both then q.set rs (r.get rs + BitVec.ofNat 32 n) else q
      q.set rc (c - 1)
    let base : CtxRegs := { r with elem := [], bad := r.bad.filter fun (e : Nat × Word) => e.1 ≠ 32 }
    let done := fun (i : Instr) (q : CtxRegs) => exec i s = .next ((s.modCx k fun _ => { q with pc := r.pc + 4 }).issued lc k)
    (stringRegs rd rs rc false = true → c = 0 →
      done (.movs lc gs gp rd rs rc sz nsym) r ∧ done (.crcs lc gs gp rd rs rc sz nsym) r ∧
      done (.cmps lc gs gp rd rs rc sz pd nsym) (r.setP pd true)) ∧
    (stringRegs rd rs rc true = true → c = 0 →
      done (.fills lc gs gp rd rs rc sz) r ∧ done (.scans lc gs gp rd rs rc sz pd nsym) (r.setP pd false)) ∧
    (stringRegs rd rs rc false = true → c ≠ 0 → s.canAccess (r.get rs).toNat n false = true →
      s.canAccess (r.get rd).toNat n false = true → ∀ x y : Nat × Word,
      (r.elem = [x, y] → x.2 = y.2 →
        done (.cmps lc gs gp rd rs rc sz pd nsym) ((step true base).setP pd (c - 1 == 0))) ∧
      (r.elem = [x, y] → x.2 ≠ y.2 → done (.cmps lc gs gp rd rs rc sz pd nsym) (base.setP pd false))) ∧
    (stringRegs rd rs rc true = true → c ≠ 0 → s.canAccess (r.get rd).toNat n false = true → ∀ x : Nat × Word, r.elem = [x] →
      let hit := x.2.toNat = (r.get rs).toNat % 256 ^ n
      (hit → done (.scans lc gs gp rd rs rc sz pd nsym) (base.setP pd true)) ∧
      (¬ hit → done (.scans lc gs gp rd rs rc sz pd nsym) ((step false base).setP pd false))) ∧
    (stringRegs rd rs rc false = true → c ≠ 0 → s.canAccess (r.get rs).toNat 1 false = true → ∀ x : Nat × Word, r.elem = [x] →
      done (.crcs lc gs gp rd rs rc sz nsym)
        (((base.set rd (crcsStep sz (r.get rd) x.2)).set rs (r.get rs + 1)).set rc (c - 1))) ∧
    (c ≠ 0 → s.canAccess (r.get rd).toNat n true = true → ownLocal (k / 32) (r.get rd).toNat = false →
      s.roomFor k = true →
      let code := if sz = 0 then 1 else if sz = 1 then 3 else 4
      let stores := fun (i : Instr) (d : Nat) (both : Bool) => GivesThen i s (·.issued lc k) fun t =>
        t.cx k = { step both base with pc := r.pc + 4 } ∧
        t.ops = s.ops ++ [{ id := s.opNext, ctx := k, epoch := (s.ctxAt k).epoch, kind := .store, addr := (r.get rd).toNat, w := code, data := d }] ∧ t.mem = s.mem ∧ t.regs = s.regs
      (stringRegs rd rs rc true = true → r.elem = [] →
        stores (.fills lc gs gp rd rs rc sz) ((r.get rs).toNat % 256 ^ n) false) ∧
      (stringRegs rd rs rc false = true → s.canAccess (r.get rs).toNat n false = true → ∀ x : Nat × Word, r.elem = [x] →
        stores (.movs lc gs gp rd rs rc sz nsym) x.2.toNat true))

/-- RPT before a FILLS performs it until its count is 0: with a count up to what is allowed and what slots and the journal hold,
every element is stored in order, rd has stepped over them, rc is 0 and the PC is past both words. A word after RPT that is
not a legal string instruction with guard 0b0000 makes the RPT illegal. Where the rules leave a detail open it states the
model's choice: log entry 7. -/
def Obligations.RepeatResults : Prop :=
  ∀ (s : State) (k : Nat) (lc : Fin 16) (gs : Bool) (gp : Fin 8) (w : Word) (n nsym : Nat), s.executes lc gs gp [] [] k = true →
    let r := s.cx k
    s.fetchable k (r.pc + 4).toNat = true →
    (∀ (rd rs rc : Fin 32) (sz : Fin 3), decodePx32 lc w = some (.fills lc false 0 rd rs rc sz) → stringRegs rd rs rc true = true →
      s.lacking k [rd.val, rs.val, rc.val] = [] → r.poisonOf [rd.val, rs.val, rc.val] = none → r.poisonOf [32] = none →
      s.awaits k 32 = false → r.drain = false → r.elem = [] → r.late = [] → (s.ctxAt k).replay = [] →
      (∀ o ∈ s.ops, o.slot = true ∧ isWindow o.addr = false) →
      let c := (r.get rc).toNat
      let m := if sz = 0 then 1 else if sz = 1 then 2 else 4
      let a := (r.get rd).toNat
      let code := if sz = 0 then 1 else if sz = 1 then 3 else 4
      let d := (r.get rs).toNat % 256 ^ m
      c ≤ n → a + m * c < 2 ^ 32 → (s.ctxAt k).journalled + c ≤ 64 → s.slotsUsed (k / 32) + c ≤ 64 →
      (∀ i, i < c → s.canAccess (a + m * i) m true = true ∧ ownLocal (k / 32) (a + m * i) = false ∧ isWindow (a + m * i) = false) →
      GivesThen (.rpt lc gs gp w n nsym) s (·.issued lc k) fun t =>
        (t.cx k).pc = r.pc + 8 ∧ (t.cx k).get rc = 0#32 ∧ (t.cx k).get rd = r.get rd + BitVec.ofNat 32 (m * c) ∧
        (t.cx k).get rs = r.get rs ∧
        t.ops = s.ops ++ (List.range c).map (fun i =>
          ({ id := s.opNext + i, ctx := k, epoch := (s.ctxAt k).epoch, kind := .store, addr := a + m * i, w := code, data := d } : Op))) ∧
    (decodePx32 lc w = none → exec (.rpt lc gs gp w n nsym) s = .next ((s.trapNow k 1 (wordOf gs gp 0x14 0)).issued lc k))

/-- Every PX32 instruction that accesses no memory keeps the PCs of every context aligned: the PC, the saved PCs and the vector,
now and in the states that a rollback returns to. -/
def Obligations.PcStaysAligned : Prop :=
  ∀ (s t : State) (i : Instr) (cs : List Instr), s.pending = i :: cs → s.aligned →
    ((guardOf i).isSome = true ∧ (match i with
      | .ld .. | .st .. | .sendEv .. | .rpt .. | .movs .. | .fills .. | .cmps .. | .scans .. | .crcs .. => False
      | _ => True)) ∨ (∃ lc, i = .nop lc ∨ i = .yield lc) ∨ (∃ lc w, i = .illegalInstruction lc w) ∨ (∃ lc r, i = .poisonUse lc r) →
    step s = .next t → t.aligned

/-- The PCs of every context are aligned right after reset. -/
def Obligations.PcAlignedAtReset : Prop :=
  State.reset.aligned

/-- A write of a page that is not allocated is ignored; a write to a locked page's register is refused with STATE_REFUSED and its
PG_FSTAT bit 0, and leaves the register; any other write of a register that only stores replaces its RW bits, clears the W1C
bits written 1, and is answered OK; no other register but PG_STAT changes. A sketch write stages the RS bits and leaves the
live register; the page's sketch is DIRTY, owned by the first writer since the last fix; another writer sets CONFLICT. CCLR
clears a page's counters and no other register; BRST gives the registers of a page that stands for no engine their reset
values, drops its sketches and clears EN; a PG_LOCK write with the key sets LK and TREE, with another key it is out of range,
and on a locked page all three are refused. Where the rules leave a detail open it states the model's choice: log entries 2,
20, 22. -/
def Obligations.RegisterPages : Prop :=
  (∀ (s : State) (w : Writer) (pg off : BitVec 12) (d : Word),
     let p := pg.toNat
     let o := off.toNat
     let rw := accMask .rw p o
     let w1c := accMask .w1c p o
     (kindOf p = none → exec (.registerWrite w pg off d) s = .next s) ∧
     (o % 4 = 0 → 0x100 + 4 * (s.children p).length ≤ o → o < 0x800 → rowsAt p o ≠ [] → kindOf p ≠ none →
       s.clocked (s.islandOf p) = true → p ≠ 0x002 → factoryPal p o = false →
       (s.locked p = true → Gives (.registerWrite w pg off d) s fun t =>
         t.fld p R.PG_STAT.CODE = 1 ∧ (t.reg p 0x048).getLsbD 0 = true ∧ t.reg p o = s.reg p o ∧ t.mem = s.mem) ∧
       (s.locked p = false → accMask .rs p o = 0 → rw ||| w1c ≠ 0 → p ≠ 0x004 → s.ownWrite w p o d = none → s.inRange p o d = true →
         Gives (.registerWrite w pg off d) s fun t =>
           t.reg p o = ((s.reg p o &&& ~~~ rw) ||| (d &&& rw)) &&& ~~~ (d &&& w1c) ∧ t.fld p R.PG_STAT.CODE = 0 ∧
           (∀ q r, r < 0x1000 → (q ≠ p ∨ (r ≠ o ∧ r ≠ 0x044)) → t.reg q r = s.reg q r) ∧ t.mem = s.mem ∧ t.pending = s.pending))) ∧
  (∀ (s : State) (w : Writer) (pg off : BitVec 12) (d : Word),
     let p := pg.toNat
     let o := off.toNat
     let rs := accMask .rs p o
     s.accepts p = true → o % 4 = 0 → 0x100 ≤ o → o < 0x800 → rowsAt p o ≠ [] → factoryPal p o = false → rs ≠ 0 →
       s.frozenPg p = false → p ≠ 0x002 →
       Gives (.sketchWrite w pg off d) s fun t =>
         t.sketchWord p o = (s.sketchWord p o &&& ~~~ rs) ||| (d &&& rs) ∧ t.reg p o = s.reg p o ∧
         t.bit p R.PG_SKSTAT.DIRTY = true ∧ t.fld p R.PG_STAT.CODE = 0 ∧
         (s.bit p R.PG_SKSTAT.DIRTY = false → t.fld p R.PG_SKSTAT.OWNER = writerCode w) ∧
         (s.bit p R.PG_SKSTAT.DIRTY = true → s.fld p R.PG_SKSTAT.OWNER ≠ writerCode w → t.bit p R.PG_SKSTAT.CONFLICT = true) ∧
         t.mem = s.mem ∧ t.pending = s.pending) ∧
  (∀ (s : State) (pg : BitVec 12) (key : Byte) (tree : Bool),
     let p := pg.toNat
     let refused := fun (c : Instr) => Gives c s fun t =>
       t.fld p R.PG_STAT.CODE = 1 ∧ (t.reg p 0x048).getLsbD 0 = true ∧ t.fld p R.PG_LOCK.LK = s.fld p R.PG_LOCK.LK
     (s.accepts p = true →
       (Gives (.cclr pg) s fun t =>
         (∀ i, i < 64 → t.reg p (0x800 + 4 * i) = 0) ∧ t.fld p R.PG_STAT.CODE = 0 ∧
         (∀ q r, r < 0x1000 → (q ≠ p ∨ (r < 0x800 ∧ r ≠ 0x044) ∨ 0x900 ≤ r) → t.reg q r = s.reg q r)) ∧
       (∀ k, kindOf p = some k → k ∈ [PageKind.sys, .pmu, .rst, .boot, .cfg, .cal, .memc, .memr, .flc, .link, .esw, .sif] →
         (s.fixScope.contains p = true → s.fixSt = 0) → Gives (.brst pg) s fun t =>
           (∀ r, 0x100 ≤ r → r < 0x800 → r ∉ keptAt k → t.reg p r = resetWord (regKey p r)) ∧
           (∀ r, r ∈ keptAt k → t.reg p r = s.reg p r) ∧ (∀ r, r < 0x1000 → t.sketchWord p r = t.reg p r) ∧
           t.enabled p = false ∧ t.fld p R.PG_STAT.CODE = 0 ∧ (∀ q r, r < 0x1000 → q ≠ p → t.reg q r = s.reg q r)) ∧
       (pgCaps p / 16 = 1 →
         (Gives (.pgLockWrite pg 0xC3 tree true) s fun t =>
           t.bit p R.PG_LOCK.LK = true ∧ t.bit p R.PG_LOCK.TREE = tree ∧ t.locked p = true ∧ t.fld p R.PG_STAT.CODE = 0) ∧
         (key ≠ 0xC3#8 → exec (.pgLockWrite pg key tree true) s = .next (s.setFld p R.PG_STAT.CODE 2)))) ∧
     (kindOf p ≠ none → s.clocked (s.islandOf p) = true → s.locked p = true →
       refused (.cclr pg) ∧ refused (.brst pg) ∧ refused (.pgLockWrite pg key tree true)))

/-- CHECK takes the scope and goes to CHECKING, and is refused in CHECKING and ARMED; when the evaluation ends the fix is CHECKED
with VALID, or IDLE with FAIL or STALE, and event 6 is posted; MODE, TAG, BLEAD and BEXP are those that the evaluation has
read. FIX from CHECKED arms at once with NOW = 1, else for FIX.TIME where that is at least the lead ahead; a time in the past
or too near leaves CHECKED with its result; in any other state it is refused. ABORT before the commit point returns to IDLE
with ABORTED and discards the sketches of the scope; at or after it, and for a broadcast, it is refused. Where the rules leave
a detail open it states the model's choice: log entries 3, 21. -/
def Obligations.FixCommands : Prop :=
  (∀ s : State, s.clocked .io = true →
     (s.locked 0x002 = false →
       (s.fixSt = 0 ∨ s.fixSt = 2 → Gives .check s fun t =>
         t.fixSt = 1 ∧ t.fixScope = s.scopeNow ∧ t.fld 0x002 R.PG_STAT.CODE = 0 ∧ t.sketch = s.sketch) ∧
       (s.fixSt = 1 ∨ s.fixSt = 3 → Gives .check s fun t => t.fld 0x002 R.PG_STAT.CODE = 1 ∧ t.fixSt = s.fixSt ∧ t.fixScope = s.fixScope)) ∧
     (s.fixSt = 1 →
       let l := s.failures (s.postFix s.fixScope) s.fixScope
       let res := if s.fixStale then 4 else if l = [] then 1 else 3
       Gives .checkComplete s fun t =>
         t.fixSt = (if res = 1 then 2 else 0) ∧ t.fld 0x002 R.FIX.STATE.RESULT = res ∧
         t.postings = s.postings ++ [s.posting 6] ∧
         (res = 1 → t.fixMode = (s.reg 0x002 0x10C).toNat ∧ t.fixTag = s.fld 0x002 R.FIX.TAG.TAG ∧
           t.fixBlead = s.fld 0x002 R.FIX.BLEAD.TICKS ∧ t.fixBexp = s.fld 0x002 R.FIX.BEXP.N) ∧
         (res = 3 → t.fld 0x002 R.FIX.FAILPG.NFAIL = min 0xFFF l.length ∧ t.fld 0x002 R.FIX.FAILPG.PAGE = (firstFailure l).1 % 4096))) ∧
  (∀ s : State, s.clocked .io = true → s.locked 0x002 = false →
     let lead := fixLead s.fixScope
     let time := s.fld64 0x002 R.FIX.TIME_LO.T R.FIX.TIME_HI.T
     (s.fixSt = 2 → s.fixModeBit R.FIX.MODE.JOIN = false → s.fixModeBit R.FIX.MODE.BCAST = false →
       (s.fixModeBit R.FIX.MODE.NOW = true → Gives .fix s fun t => t.fixSt = 3 ∧ t.fixTime = s.tb + lead ∧ t.outbox = s.outbox) ∧
       (s.fixModeBit R.FIX.MODE.NOW = false →
         (time < s.tb → Gives .fix s fun t => t.fixSt = 2 ∧ t.fld 0x002 R.FIX.STATE.RESULT = 5) ∧
         (s.tb ≤ time → time < s.tb + lead → Gives .fix s fun t => t.fixSt = 2 ∧ t.fld 0x002 R.FIX.STATE.RESULT = 6) ∧
         (s.tb + lead ≤ time → Gives .fix s fun t => t.fixSt = 3 ∧ t.fixTime = time ∧ t.fixScope = s.fixScope))) ∧
     (s.fixSt = 2 → s.fixModeBit R.FIX.MODE.JOIN = false → s.fixModeBit R.FIX.MODE.BCAST = true → s.fixModeBit R.FIX.MODE.NOW = true →
       Gives .fix s fun t =>
         let at_ := s.tb + max s.fixBlead lead
         t.fixSt = 3 ∧ t.fixTime = at_ ∧ t.fixInit = some s.fixTag ∧
         t.outbox = s.outbox ++ if s.linkPorts = [] then [] else [.fixb s.fixTag at_ (s.farHdr 4 s.fhlim)]) ∧
     (s.fixSt = 2 → s.fixModeBit R.FIX.MODE.JOIN = true → Gives .fix s fun t => t.fld 0x002 R.PG_STAT.CODE = 1 ∧ t.fixSt = 2) ∧
     (s.fixSt ≠ 2 → Gives .fix s fun t => t.fld 0x002 R.PG_STAT.CODE = 1 ∧ t.fixSt = s.fixSt) ∧
     (s.fixSt ≠ 3 ∨ (s.fixSt = 3 ∧ s.fixBcast = false ∧ s.tb + lead < s.fixTime ∧ s.fixCopied = false) →
       Gives .abort s fun t => t.fixSt = 0 ∧ t.fld 0x002 R.FIX.STATE.RESULT = 7 ∧
         (∀ p ∈ (if s.fixSt = 0 then s.scopeNow else s.fixScope), ∀ r, r < 0x1000 → p ≠ 0x002 → t.sketchWord p r = t.reg p r)) ∧
     (s.fixSt = 3 → s.fixBcast = true ∨ s.fixTime ≤ s.tb + lead → Gives .abort s fun t =>
       t.fld 0x002 R.PG_STAT.CODE = 1 ∧ t.fixSt = 3 ∧ t.sketch = s.sketch))

/-- At its fix time an armed fix copies: each staged register of a page of the scope takes its RS bits from the sketch, and keeps
its other bits; registers of other pages stay. The copy done, the fix is complete: APPLIED is the fix time, the state IDLE,
the result APPLIED, and event 7 is posted. A broadcast fix with JOIN = 1 and the same tag arms a CHECKED device for its time
and is answered armed; a device that is not CHECKED answers not ready, one that it reaches too late leaves CHECKED and answers
late; any other ignores it. An answer floods the link ports, of which one must be up. The initiator counts each participant's
answer once, whenever it comes. Where the rules leave a detail open it states the model's choice: log entries 2, 3, 21, 25. -/
def Obligations.FixInstants : Prop :=
  ((∀ s : State, s.fixSt = 3 → s.fixCopied = false → s.clocked .io = true →
     (s.fixTime ≤ s.tb → Gives .fixApply s fun t => t = s.fixCopy ∧ t.fixCopied = true) ∧
     (s.tb < s.fixTime → s.tickComes s.fixTime = true → exec .fixApply s = .next (State.fixCopy { s with tb := s.fixTime }))) ∧
   (∀ (s : State) (pages : List Nat) (p r : Nat), r < 0x1000 → twf (fun _ => none) s.sketch = true →
     (s.applySketch pages).reg p r =
       (if p ∈ pages then (s.reg p r &&& ~~~ accMask .rs p r) ||| (s.sketchWord p r &&& accMask .rs p r) else s.reg p r)) ∧
   (∀ s : State, s.fixSt = 3 → s.fixCopied = true → s.clocked .io = true →
     (s.fixReset = none → Gives .fixComplete s fun t =>
       t.fixSt = 0 ∧ t.fld 0x002 R.FIX.STATE.RESULT = 2 ∧ t.fld 0x002 R.FIX.APPLIED_LO.T = s.fixTime % 2 ^ 32 ∧
       t.fld 0x002 R.FIX.APPLIED_HI.T = s.fixTime / 2 ^ 32 % 2 ^ 32 ∧
       t.postings = s.postings ++ [s.posting 7]) ∧
     (∀ p, s.fixReset = some p → Gives .fixComplete s fun t =>
       t.fixSt = 0 ∧ t.fld 0x002 R.FIX.STATE.RESULT = 8 ∧ t.fld 0x002 R.FIX.FAILPG.PAGE = p % 4096 ∧
       t.raises = s.raises ++ [⟨7, .page 0x002⟩] ∧
       t.postings = s.postings ++ [s.posting 7]))) ∧
  (∀ (s : State) (tag : BitVec 16) (time : BitVec 64) (id : BitVec 32) (armed : Bool), s.clocked .io = true → s.clocked .net = true →
     let mine := s.bit 0x002 R.FIX.MODE.JOIN = true ∧ (if s.fixSt = 2 then s.fixTag else s.fld 0x002 R.FIX.TAG.TAG) = tag.toNat
     let lead := fixLead s.fixScope
     let answer := fun (n : Nat) => if s.linkPorts = [] then [] else [Out.fixa tag.toNat n (s.farHdr 5 s.fhlim)]
     (¬ mine → exec (.fixbReceived tag time) s = .next s) ∧
     (mine → s.fixSt ≠ 2 → Gives (.fixbReceived tag time) s fun t =>
       t.fixSt = s.fixSt ∧ t.regs = s.regs ∧ t.sketch = s.sketch ∧ t.outbox = s.outbox ++ answer 2) ∧
     (mine → s.fixSt = 2 → s.tb + lead ≤ time.toNat → Gives (.fixbReceived tag time) s fun t =>
       t.fixSt = 3 ∧ t.fixTime = time.toNat ∧ t.outbox = s.outbox ++ answer 0) ∧
     (mine → s.fixSt = 2 → time.toNat < s.tb + lead → Gives (.fixbReceived tag time) s fun t =>
       t.fixSt = 2 ∧ t.fld 0x002 R.FIX.STATE.RESULT = 9 ∧ t.outbox = s.outbox ++ answer 1 ∧
       t.raises = s.raises ++ [⟨7, .page 0x002⟩]) ∧
     (s.fixInit = some tag.toNat → id.toNat ∉ s.fixSeen →
       Gives (.fixaReceived tag id armed) s fun t =>
         t.fixSeen = s.fixSeen ++ [id.toNat] ∧
         t.fld 0x002 R.FIX.BACK.ACK = (if armed then min 0xFFFF (s.fld 0x002 R.FIX.BACK.ACK + 1) else s.fld 0x002 R.FIX.BACK.ACK) ∧
         t.fld 0x002 R.FIX.BACK.NACK = (if armed then s.fld 0x002 R.FIX.BACK.NACK else min 0xFFFF (s.fld 0x002 R.FIX.BACK.NACK + 1))) ∧
     (id.toNat ∈ s.fixSeen ∨ s.fixInit ≠ some tag.toNat → exec (.fixaReceived tag id armed) s = .next s))

/-- A write of the path takes effect at once where no window access before it is outstanding, and is held behind them otherwise;
in effect, OPEN clears and DEPTH shows the length. The answer to the access sent completes it and opens the window; without
one in time the access fails with TMO. A linked device's access is performed as its own page access, counted and answered.
Where the rules leave a detail open it states the model's choice: log entries 3, 23, 24. -/
def Obligations.LinkWindow : Prop :=
  (∀ (s : State) (w : Writer) (off : BitVec 12) (d : Word), s.clocked (s.islandOf 0xF00) = true → s.locked 0xF00 = false →
    off = 0x408#12 ∨ off = 0x420#12 → s.lfHeld = [] →
    ((∀ o ∈ s.ops, isWindow o.addr = true → s.opNext ≤ o.id) → Gives (.lfWrite w off d) s fun t =>
      t.reg 0xF00 off.toNat = d &&& accMask .rw 0xF00 off.toNat ∧ t.bit 0xF00 R.LF.STAT.OPEN = false ∧
      t.fld 0xF00 R.LF.STAT.DEPTH = s.fld 0xF00 R.LF.HOPLEN.LEN % 65536 ∧ t.lfHeld = []) ∧
    ((∃ o ∈ s.ops, isWindow o.addr = true ∧ o.id < s.opNext) → Gives (.lfWrite w off d) s fun t =>
      t.lfHeld = [(off.toNat, d, s.opNext)] ∧ t.reg 0xF00 off.toNat = s.reg 0xF00 off.toNat)) ∧
  (∀ (s : State) (off n : Nat) (d : Word) (l : List (Nat × Word × Nat)), s.lfHeld = (off, d, n) :: l → s.ops = [] → s.clocked .net = true →
    off = 0x408 ∨ off = 0x420 → Gives .lfWriteApply s fun t =>
      t.lfHeld = l ∧ t.reg 0xF00 off = d &&& accMask .rw 0xF00 off ∧ t.bit 0xF00 R.LF.STAT.OPEN = false) ∧
  (∀ (s : State) (o : Op) (d : Word) (at_ : Nat), s.ops = [o] → o.sent = some at_ → s.coreRuns (o.ctx / 32) = false → s.clocked .net = true →
    (Gives (.pgrspReceived o.id d) s fun t =>
      t.ops = [] ∧ t.bit 0xF00 R.LF.STAT.OPEN = true ∧
      (o.kind = .load → 0 < o.reg → o.reg < 32 → o.epoch = (s.ctxAt o.ctx).epoch → (t.cx o.ctx).get o.reg =
        s.remoteView ((o.addr - 0x41000000) / 0x1000) (o.addr % 0x1000) d)) ∧
    (at_ + 100 * max 1 (s.fld 0xF00 R.LF.TMO.US) ≤ s.tb → Gives (.windowTimeout o.id) s fun t =>
      t.ops = [] ∧ t.bit 0xF00 R.LF.STAT.OPEN = false ∧ t.bit 0xF00 R.LF.STAT.TMO = true ∧ (t.reg 0xF00 0x048).getLsbD 1 = true)) ∧
  (∀ (s : State) (q : PgReq), s.clocked .net = true → s.clocked (s.islandOf q.pg.toNat) = true →
    let t := s.writeReg .remote q.pg.toNat q.off.toNat q.data
    let r := s.readReg q.pg.toNat q.off.toNat
    (q.write = true → exec (.pgreqReceived q) s = .next ((t.count linkPg 4).farFlood 3
      (.pgrsp q.seq (if kindOf q.pg.toNat = none then 0 else t.fld q.pg.toNat R.PG_STAT.CODE) 0 q.initiator.toNat))) ∧
    (q.write = false → exec (.pgreqReceived q) s = .next ((r.1.count linkPg 4).farFlood 3 (.pgrsp q.seq 0 r.2.toNat q.initiator.toNat))))

/-- What a refusal is: STATE_REFUSED as the answer, PG_FSTAT bit 0 set, the sources of the page's refusals raised unless masked;
no other register, no memory and no queue changes. A write out of range only answers RANGE. A detection sets its PG_FSTAT bit;
unless PG_FMASK masks it, its sources are raised with the page as detail; with its PG_IRQEN bit the page's events are posted,
without it none is. Where the rules leave a detail open it states the model's choice: log entry 20. -/
def Obligations.RefusalAndDetection : Prop :=
  (∀ (s : State) (pg : Nat),
     let t := s.refuse pg
     t.code pg = 1 ∧ t.fstat pg 0 = true ∧
     (∀ q r, r < 0x1000 → (q ≠ pg ∨ (r ≠ 0x044 ∧ r ≠ 0x048)) → t.reg q r = s.reg q r) ∧
     ((s.reg pg 0x04C).getLsbD 0 = false → t.raises = s.raises ++ (s.blkSources pg 0).map fun c => ⟨c, .page pg⟩) ∧
     ((s.reg pg 0x04C).getLsbD 0 = true → t.raises = s.raises) ∧
     t.mem = s.mem ∧ t.ctxs = s.ctxs ∧ t.pending = s.pending ∧ t.outbox = s.outbox ∧ t.sketch = s.sketch ∧
     s.range pg = s.setFld pg R.PG_STAT.CODE 2) ∧
  (∀ (s : State) (pg bit : Nat), bit < 32 →
     let t := s.detect pg bit
     t.reg pg 0x048 = s.reg pg 0x048 ||| 1#32 <<< bit ∧
     (∀ q r, r < 0x1000 → (q ≠ pg ∨ r ≠ 0x048) → t.reg q r = s.reg q r) ∧
     t.raises = s.raises ++ (if (s.reg pg 0x04C).getLsbD bit then [] else (s.blkSources pg bit).map fun c => ⟨c, .page pg⟩) ∧
     ((s.reg pg 0x050).getLsbD bit = false → t.postings = s.postings) ∧
     ((s.reg pg 0x050).getLsbD bit = true → t.postings.length = s.postings.length + (s.irqEvents pg).length) ∧
     t.mem = s.mem ∧ t.ctxs = s.ctxs ∧ t.pending = s.pending)

/-- Arming a compare that is not armed takes INTV and ARM; writing it again with the same INTV does nothing, with another it is
refused; disarming takes effect, and a compare that is due in that cycle has fired. A compare whose value TB has reached
fires: FIRED, event 8 + n, LATE where the value was already reached as it was armed; with INTV = 0 it disarms, else its value
moves on by INTV and it stays armed. A capture unit that is not FULL takes the tick of its source, sets FULL and posts event
m; one that is FULL keeps its value and sets OVR. An LSYNC edge is taken at its tick, a posting with the tick at which it was
posted. Where the rules leave a detail open it states the model's choice: log entries 3, 49. -/
def Obligations.ComparesAndCaptures : Prop :=
  ((∀ (s : State) (n : Fin 8) (intv : BitVec 24) (arm : Bool), s.locked 0x003 = false → s.clocked .io = true →
     let on := s.bit 0x003 (R.TBC.CTRL.ARM n)
     let i := s.fld 0x003 (R.TBC.CTRL.INTV n)
     (on = false ∨ (arm = false ∧ s.tbcDue n = false) → Gives (.tbcCtrlWrite n intv arm) s fun t =>
       t.bit 0x003 (R.TBC.CTRL.ARM n) = arm ∧ t.fld 0x003 (R.TBC.CTRL.INTV n) = intv.toNat ∧ t.code 0x003 = 0 ∧
       t.postings = s.postings) ∧
     (arm = false → s.tbcDue n = true → Gives (.tbcCtrlWrite n intv arm) s fun t =>
       t.bit 0x003 (R.TBC.CTRL.ARM n) = false ∧ t.bit 0x003 (R.TBC.STAT.FIRED n) = true ∧
       t.postings = s.postings ++ [s.posting (8 + n.val)]) ∧
     (on = true → arm = true → intv.toNat = i → exec (.tbcCtrlWrite n intv arm) s = .next (s.ok 0x003)) ∧
     (on = true → arm = true → intv.toNat ≠ i → Refused (.tbcCtrlWrite n intv arm) s 0x003)) ∧
   (∀ (s : State) (n : Fin 8), s.bit 0x003 (R.TBC.CTRL.ARM n) = true → s.tbRun = true → s.clocked .io = true →
     let v := s.fld64 0x003 (R.TBC.LO.V n) (R.TBC.HI.V n)
     let a := tget (fun _ => 0) s.tbcTick n
     let i := s.fld 0x003 (R.TBC.CTRL.INTV n)
     v ≤ s.tb → a < s.tb → Gives (.tbcFire n) s fun t =>
       t.bit 0x003 (R.TBC.STAT.FIRED n) = true ∧ t.postings = s.postings ++ [s.posting (8 + n.val)] ∧ t.tb = s.tb ∧
       (v ≤ a → t.bit 0x003 (R.TBC.STAT.LATE n) = true ∧ t.fstat 0x003 1 = true) ∧
       (a < v → t.bit 0x003 (R.TBC.STAT.LATE n) = s.bit 0x003 (R.TBC.STAT.LATE n)) ∧
       (i = 0 → t.bit 0x003 (R.TBC.CTRL.ARM n) = false) ∧
       (i ≠ 0 → t.bit 0x003 (R.TBC.CTRL.ARM n) = true ∧ t.fld64 0x003 (R.TBC.LO.V n) (R.TBC.HI.V n) = (v + i) % 2 ^ 64))) ∧
  (∀ (s : State) (m : Fin 4), s.clocked .io = true →
     let mode := s.fld 0x003 (R.CAP.SEL.MODE m)
     let takes := fun (c : Instr) (tick : Nat) =>
       (s.bit 0x003 (R.CAP.STAT.FULL m) = false → Gives c s fun t =>
         t.fld 0x003 (R.CAP.LO.T m) = tick % 2 ^ 32 ∧ t.fld 0x003 (R.CAP.HI.T m) = tick / 2 ^ 32 % 2 ^ 32 ∧
         t.bit 0x003 (R.CAP.STAT.FULL m) = true ∧ t.postings = s.postings ++ [s.posting m.val]) ∧
       (s.bit 0x003 (R.CAP.STAT.FULL m) = true → Gives c s fun t =>
         t.fld 0x003 (R.CAP.LO.T m) = s.fld 0x003 (R.CAP.LO.T m) ∧ t.fld 0x003 (R.CAP.HI.T m) = s.fld 0x003 (R.CAP.HI.T m) ∧
         t.bit 0x003 (R.CAP.STAT.OVR m) = true ∧ t.fstat 0x003 2 = true)
     (mode = 2 → takes (.capture m .lsyncRise) s.tb) ∧ (mode = 3 → takes (.capture m .lsyncFall) s.tb) ∧
     (∀ (e : Byte) (l : List Capture) (tick isl : Nat), mode = 1 → s.fld 0x003 (R.CAP.SEL.EVT m) = e.toNat →
       s.capPend = ⟨m.val, e.toNat, tick, isl⟩ :: l → takes (.capture m (.event e)) tick))

/-- A new role leads to FREE with no adjustment, from there a grandmaster's to LOCKED; role 3 is out of range. A follower takes
its offset from each message of the best port, and a device without a role, or another port's message, changes only what is
relayed: within 20 ns it counts one good message and the eighth in ACQUIRE locks; a greater offset leaves LOCKED for ACQUIRE;
the rate slows a TB that is ahead and speeds up one that is behind, within 250 ppm. More than 100 000 ns behind, TB steps
forward. Three missed intervals lead to HOLDOVER, and its timeout to FREE with rate 0. Losing an island's clock sets its
CLK.LOSS bit, clears its LOCK bit, posts event 5 and raises source 9, for the IO island source 12 too; the island then stops.
Its clock back, the island runs again. A PLL that unlocks or locks changes LOCK with event 5; an unlock raises source 10, a
crystal failure source 8 and leaves the PLLs 100 us. Where the rules leave a detail open it states the model's choice: log
entries 3, 19, 49, 54. -/
def Obligations.SyncAndClocks : Prop :=
  ((∀ (s : State) (role : BitVec 2), s.locked 0x003 = false → s.clocked .io = true →
     (role = 3 → exec (.syncRoleWrite role) s = .next (s.range 0x003)) ∧
     (role ≠ 3 → role.toNat ≠ s.fld 0x003 R.TB.SYNC.ROLE → Gives (.syncRoleWrite role) s fun t =>
       t.fld 0x003 R.TB.SYNC.ROLE = role.toNat ∧ t.fld 0x003 R.TB.RATE.PPB = 0 ∧ t.syncState = (if role = 1 then 2 else 0) ∧
       t.code 0x003 = 0 ∧ (role = 1 → s.syncState ≠ 0 → t.postings = s.postings ++ [s.posting 4, s.posting 4])) ∧
     (role ≠ 3 → role.toNat = s.fld 0x003 R.TB.SYNC.ROLE → exec (.syncRoleWrite role) s = .next (s.ok 0x003))) ∧
   (∀ (s : State) (m : SyncMsg), s.linkPorts.contains m.port.val = true → s.clocked .net = true →
     s.fld 0x003 R.TB.SYNC.ROLE = 0 ∨ (s.fld 0x003 R.TB.SYNC.ROLE = 2 ∧ (s.syncTake m).2 = false) →
     exec (.syncMessage m) s = .next (s.syncTake m).1) ∧
   (∀ (s : State) (m : SyncMsg), s.fld 0x003 R.TB.SYNC.ROLE = 2 → s.linkPorts.contains m.port.val = true →
     s.tbCounts = true → s.clocked .io = true → s.clocked .net = true → (s.syncTake m).2 = true →
     let off := m.offset
     (-100000 ≤ off → Gives (.syncMessage m) s fun t =>
       t.tb = s.tb ∧ t.syncTick = s.tb ∧
       (s.syncState = 2 → off.natAbs ≤ 20 → t.syncState = 2) ∧
       (s.syncState = 2 → 20 < off.natAbs → t.syncState = 1 ∧ t.fstat 0x003 3 = true) ∧
       (s.syncState = 1 → off.natAbs ≤ 20 → t.syncState = (if s.syncGood + 1 < 8 then 1 else 2)) ∧
       (s.syncState = 0 ∨ s.syncState = 3 → t.syncState = 1 ∧ t.syncGood = 0) ∧
       (0 < off → (t.reg 0x003 R.TB.RATE.PPB.off).toInt < 0 ∧ -250000 ≤ (t.reg 0x003 R.TB.RATE.PPB.off).toInt) ∧
       (off < 0 → 0 < (t.reg 0x003 R.TB.RATE.PPB.off).toInt ∧ (t.reg 0x003 R.TB.RATE.PPB.off).toInt ≤ 250000)) ∧
     (off < -100000 → s.fixArmed = false → Gives (.syncMessage m) s fun t => t.tb = s.tb + ((-off) / 10).toNat) ∧
     (off < -100000 → s.fixArmed = true → Gives (.syncMessage m) s fun t => t.tb = s.tb ∧ t.tbStep = some ((-off) / 10).toNat)) ∧
   (∀ s : State, s.syncState = 2 → s.fld 0x003 R.TB.SYNC.ROLE = 2 → s.syncTick + 3 * s.syncInterval ≤ s.tb → s.clocked .io = true →
     Gives .syncMissed s fun t => t.syncState = 3 ∧ t.fstat 0x003 3 = true) ∧
   (∀ s : State, s.syncState = 3 → s.syncTick + s.fld 0x003 R.TB.HOLDTMO.S * 100000000 ≤ s.tb → s.clocked .io = true →
     Gives .holdoverTimeout s fun t => t.syncState = 0 ∧ t.fld 0x003 R.TB.RATE.PPB = 0) ∧
   (∀ (s : State) (k : Nat), s.tbStep = some k → s.fixArmed = false → s.tbCounts = true → s.clocked .io = true →
     Gives .deferredTbStep s fun t => t.tb = s.tb + k ∧ t.tbStep = none)) ∧
  ((∀ (s : State) (i : Fin 17), i.val ≠ 0 → s.clkDead.contains i.val = false → s.power ≠ .park →
     GivesThen (.clockLoss i) s (fun u => u.islandStops i) fun u =>
       u.clkBit R.CLK.LOSS.L i = true ∧ u.clkBit R.CLK.LOCK.L i = false ∧ u.clkLost = s.clkLost ++ [i.val] ∧
       (s.clkBit R.CLK.LOSS.L i = false ∨ s.clkBit R.CLK.LOCK.L i = true → u.postings = s.postings ++ [s.posting 5]) ∧
       u.raises = s.raises ++ (if i.val = 16 then [⟨9, .loss⟩, ⟨12, .page 0x004⟩] else [⟨9, .loss⟩]) ∧ u.mem = s.mem) ∧
   (∀ (s : State) (i : Fin 17), s.clkLost.contains i.val = true → s.clkBit R.CLK.GATE.G i = false → s.power ≠ .park →
     s.xinOut = false →
     exec (.clockReturn i) s = .next (let t := s.islandRuns i; t.windowPump t.ops.length) ∧
     (i.val = 12 → s.ops = [] → Gives (.clockReturn i) s fun t =>
       t.clkDead = s.clkDead.filter (· ≠ 12) ∧ t.clkLost = s.clkLost.filter (· ≠ 12) ∧ t.regs = s.regs)) ∧
   (∀ s : State, s.power ≠ .park → s.pwr.xok = true → Gives .crystalFailure s fun t =>
     t.bit 0x004 R.CLK.XSTAT.XOK = false ∧ t.pwr.xok = false ∧ t.pwr.xinEnd = some (s.kaNow + 10000) ∧ t.raises = s.raises ++ [⟨8, .page 0x004⟩]) ∧
   (∀ (s : State) (i : Fin 17), i.val ≠ 0 →
     (s.clkBit R.CLK.LOCK.L i = true → s.power ≠ .park → Gives (.pllUnlock i) s fun t =>
       t.clkBit R.CLK.LOCK.L i = false ∧ t.postings = s.postings ++ [s.posting 5] ∧ t.raises = s.raises ++ [⟨10, .page 0x004⟩]) ∧
     (s.clkBit R.CLK.LOCK.L i = false → s.clkBit R.CLK.GATE.G i = false → s.power ≠ .park → s.pwr.xok = true →
       GivesThen (.islandPllLock i) s (fun u => if u.clkDead.contains i.val then u.islandRuns i else u) fun u =>
         u.clkBit R.CLK.LOCK.L i = true ∧ u.postings = s.postings ++ [s.posting 5] ∧ u.clkDead = s.clkDead)))

/-- The chain on a channel that is in no gang: safe state governs first, then the latch, then a clause, then the live command; GOV
names the level, and the channel's command is its limp value, off, the clause's verb, or the live pattern. With no segment in
service it is latched. Without the PWR clock its command and GOV stay. A fault of a channel sets its PG_FSTAT bit, and GANG on
the other members of its gang, latches every member, ends a retry interval and closes an open window by a latch; then the
chain settles. A current above the effective limit through 200 ticks of an on-phase trips the unit: within an open window with
retries left it counts a retry, sets its bit and waits INT * 0.5 ms, else it latches with bit 1. A current at the ceiling
latches at once with bit 2, a reverse one above its threshold through 1 000 ticks of an on-phase with bit 7, a current through
10 000 ticks from TBLK after the off edge with bit 8. A filter counts from the gate edge, or from the end of a condition of
R29; a limit that a change of settings has lowered below the current counts from that change. Below the threshold, in the
other phase, under a condition of R29 and without the PWR clock none of these comes about but the die's own turn-off at the
ceiling. Where the rules leave a detail open it states the model's choice: log entries 2, 3, 33. -/
def Obligations.ChannelChain : Prop :=
  (∀ (s : State) (n : Fin 48), s.gid n = 0 → s.enabled (hsPg n) = true → s.heldBit n = false →
     (s.clocked .pwr = false → ((s.hsSettle n).hsAt n).cmd = (s.hsAt n).cmd ∧
       (s.hsSettle n).fld (hsPg n) R.PG_STAT.GOV = s.fld (hsPg n) R.PG_STAT.GOV) ∧
     (s.clocked .pwr = true →
     let t := s.hsSettle n
     let gov := t.fld (hsPg n) R.PG_STAT.GOV
     let cmd := (t.hsAt n).cmd
     let latched := (s.hsAt n).latch || (s.hsAt n).retryEnd.isSome || s.fld (hsPg n) R.HS.SEG.NSEG == 0
     (s.safe = true → gov = 3 ∧ (s.fld (hsPg n) R.HS.CFG.LIMP = 0 → cmd = .off)) ∧
     (s.safe = false → latched = true → gov = 2 ∧ cmd = .off) ∧
     (s.safe = false → latched = false → s.govClauseOf [n.val] = none →
       gov = 0 ∧ cmd = (if s.bit (hsPg n) R.HS.OUT.ON then
         .pwm (s.fld (hsPg n) R.HS.PERIOD.P) (s.fld (hsPg n) R.HS.PHASE.PH) (s.fld (hsPg n) R.HS.DUTY.D) else .off)) ∧
     (∀ c, s.safe = false → latched = false → s.govClauseOf [n.val] = some c → gov = 1 ∧ cmd = s.hsVerb n c))) ∧
  (∀ (s : State) (n : Fin 48) (bit : Nat), bit < 16 → ∃ u : State, s.hsFault n bit = u.hsSettle n ∧
     u.fstat (hsPg n) bit = true ∧ (∀ m ∈ s.hsUnit n, (u.hsAt m).latch = true ∧ (u.hsAt m).retryEnd = none) ∧
     (∀ m ∈ s.hsUnit n, m ≠ n.val → u.fstat (hsPg m) 11 = true) ∧
     (s.fld (hsPg (s.hsLead n)) R.HS.STAT.WKIND ≠ 0 →
       u.fld (hsPg (s.hsLead n)) R.HS.STAT.WKIND = 0 ∧ u.fld (hsPg (s.hsLead n)) R.HS.STAT.WEND = 2)) ∧
  (∀ (s : State) (n : Fin 48) (i : Int),
     let l := s.hsLead n
     let h := s.hsAt n
     let edge := max (h.edge.getD 0) h.filtAt
     let recent := ∃ e ∈ (s.hsAt l).limHist, i ≤ (e.2 : Int) ∧ s.tb < e.1 + 200
     let gate := s.bit (hsPg n) R.HS.STAT.GATE
     let sees := fun (on : Bool) => s.clocked .pwr = true ∧ gate = on ∧ s.hsBlocked n = false
     let retries := s.fld (hsPg l) R.HS.STAT.WKIND ≠ 0 ∧ s.fld (hsPg l) R.HS.STAT.RCNT < s.palFld (s.hsPal l) R.PAL.RETRY.N ∧
       s.fld (hsPg l) R.PG_STAT.GOV ≠ 3
     let since := fun (back : Nat) => s.hsLimitAt n ((s.hsAt l).act.map fun a => s.tb - back - a)
     let trips := sees true ∧ edge + 200 ≤ s.tb ∧ ¬ recent ∧ (since 200 : Int) < i
     let threshold := fun (heavy light : Int) => if n.val < 16 then heavy else light
     (trips → retries → GivesThen (.trip n i) s (fun u => u.hsSettle n) fun u =>
       u.fld (hsPg l) R.HS.STAT.RCNT = s.fld (hsPg l) R.HS.STAT.RCNT + 1 ∧ u.bit (hsPg l) R.HS.STAT.RETRY = true ∧
       u.fstat (hsPg n) 10 = true ∧ (u.hsAt l).retryEnd = some (s.tb + s.palFld (s.hsPal l) R.PAL.RETRY.INT * 50000)) ∧
     (trips → ¬ retries → exec (.trip n i) s = .next (s.hsFault n 1)) ∧
     (¬ sees true → exec (.trip n i) s = .next s) ∧
     (edge + 200 ≤ s.tb → ¬ recent → i ≤ since 0 → i ≤ since 200 → exec (.trip n i) s = .next s) ∧
     (∀ c j : Nat, (c, j) ∈ (s.hsAt l).limHist → i ≤ (j : Int) → s.tb < c + 200 →
       exec (.trip n i) s = .next s ∨ ∃ u : State, c + 200 ≤ u.tb ∧ exec (.trip n i) s = .next (u.hsTrip n)) ∧
     (let ceiling : Int := (s.fld (hsPg n) R.HS.SEG.CEIL : Int) * 100
      exec (.ceilTrip n i) s = .next (if ceiling ≤ i then
        (if s.clocked .pwr then s.hsFault n 2 else (s.setHs n { h with ceilOff := true }).hsGateUpdate n) else s)) ∧
     (sees true → edge + 1000 ≤ s.tb → threshold 2000 500 < i → exec (.reverseCurrent n i) s = .next (s.hsFault n 7)) ∧
     (¬ sees true ∨ i ≤ threshold 2000 500 → exec (.reverseCurrent n i) s = .next s) ∧
     (sees false → max (max (h.edge.getD 0 + s.palFld (s.hsPal n) R.PAL.BLANK.TBLK) h.filtAt) (h.stuckAt.getD 0) + 10000 ≤ s.tb → threshold 500 125 < i →
       exec (.stuckOn n i) s = .next ((s.setHs n { h with stuckAt := some s.tb }).hsFault n 8)) ∧
     (¬ sees false ∨ i ≤ threshold 500 125 → exec (.stuckOn n i) s = .next s))

/-- CLR and CLRR clear the latch of the whole unit, CLRR opening a RECOVER window where its entry allows retries; on a unit that
is not latched, a gang member that does not lead, and a locked page they are refused. A TEST window opens with its length, and
is refused while a window is open or a latch holds; length 0 is out of range. Closing a window ends it at once, in a retry
interval by the latch. Without the PWR clock no command arrives. At its expiry a TEST window ends with success, in a retry
interval with a latch; a retry interval that ends clears RETRY and the chain settles; the last breakpoint of an envelope
closes a START or RECOVER window with success. A write of a live command is stored and answered OK, whatever level governs,
and the output's chain settles; a locked page refuses it, and it does not arrive while its page's island has no clock. A
generator of period P, phase offset and on-time from R98 is on for its on-time from each tick that is congruent to the offset;
duty 0 is never on, duty 0xFFFF always. At an edge of a channel's generator its gate takes the generator's level. At an edge
of a bridge's generator both legs take their switches; at a period start of an ambient group's the duties (those of a fix from
its start on) and the derating factor apply; a valve's chopper turns on at a period start, and off when the current has
reached its target. Where the rules leave a detail open it states the model's choice: log entries 2, 3, 33, 34. -/
def Obligations.ChannelCommands : Prop :=
  (∀ (s : State) (n : Fin 48), s.clocked .pwr = true →
     let pg := hsPg n
     let latched := ∃ m ∈ s.hsUnit n, (s.hsAt m).latch = true
     let may := s.locked pg = false ∧ s.hsLead n = n
     (may → latched →
       (GivesThen (.hsClr n) s (fun u => u.hsSettle n) fun u =>
         (∀ m ∈ s.hsUnit n, (u.hsAt m).latch = false) ∧ u.code pg = 0 ∧ u.reg pg 0x048 = s.reg pg 0x048) ∧
       (GivesThen (.clrr n) s (fun u => u.hsSettle n) fun u =>
         (∀ m ∈ s.hsUnit n, (u.hsAt m).latch = false) ∧
         (s.palFld (s.hsPal n) R.PAL.RETRY.N ≠ 0 → s.fld pg R.HS.STAT.WKIND = 0 → u.fld pg R.HS.STAT.WKIND = 3 ∧ u.fld pg R.HS.STAT.RCNT = 0) ∧
         (s.palFld (s.hsPal n) R.PAL.RETRY.N = 0 → u.fld pg R.HS.STAT.WKIND = s.fld pg R.HS.STAT.WKIND))) ∧
     (¬ may ∨ ¬ latched → Refused (.hsClr n) s pg ∧ Refused (.clrr n) s pg) ∧
     (∀ len : BitVec 16,
       (may → ¬ latched → s.fld pg R.HS.STAT.WKIND = 0 → len ≠ 0 → Gives (.testWindowOpen n len) s fun t =>
         t.fld pg R.HS.STAT.WKIND = 2 ∧ t.fld pg R.HS.STAT.RCNT = 0 ∧ (t.hsAt n).testEnd = some (s.tb + len.toNat * 100000) ∧ t.code pg = 0) ∧
       (may → latched ∨ s.fld pg R.HS.STAT.WKIND ≠ 0 → len ≠ 0 → Refused (.testWindowOpen n len) s pg) ∧
       (s.locked pg = true ∨ (len ≠ 0 ∧ s.hsLead n ≠ n) → Refused (.testWindowOpen n len) s pg) ∧
       (s.locked pg = false → len = 0 → exec (.testWindowOpen n len) s = .next (s.range pg)) ∧
       (¬ may → Refused (.windowClose n len) s pg) ∧
       (may → (s.hsAt n).retryEnd = none → s.fld pg R.HS.STAT.WKIND = 0 → Gives (.windowClose n len) s fun t =>
         t.code pg = 0 ∧ t.fld pg R.HS.STAT.WKIND = 0 ∧ t.hs = s.hs ∧ t.postings = s.postings) ∧
       (may → (s.hsAt n).retryEnd = none → s.fld pg R.HS.STAT.WKIND ≠ 0 → Gives (.windowClose n len) s fun t =>
         t.fld pg R.HS.STAT.WKIND = 0 ∧ t.fld pg R.HS.STAT.WEND = 3 ∧ t.code pg = 0 ∧ s.posting 118 ∈ t.postings) ∧
       (may → (s.hsAt n).retryEnd ≠ none → GivesThen (.windowClose n len) s (fun u => u.hsSettle n) fun u =>
         (u.hsAt n).latch = true))) ∧
  (∀ (s : State) (n : Fin 48) (d : Nat), d ≤ s.tb → s.clocked .pwr = true →
     ((s.hsAt n).testEnd = some d → s.fld (hsPg n) R.HS.STAT.WKIND = 2 → (s.hsAt n).retryEnd = none →
       Gives (.testWindowExpiry n) s fun t =>
         t.fld (hsPg n) R.HS.STAT.WKIND = 0 ∧ t.fld (hsPg n) R.HS.STAT.WEND = 1 ∧ (t.hsAt n).testEnd = none) ∧
     ((s.hsAt (s.hsLead n)).retryEnd = some d →
       GivesThen (.retryIntervalEnd n) s (fun u =>
         if ((u.hsSettle (s.hsLead n)).hsAt (s.hsLead n)).cmd.onTime then u.hsSettle (s.hsLead n)
         else (u.hsSettle (s.hsLead n)).winClose (s.hsLead n) 3) fun u =>
           (u.hsAt (s.hsLead n)).retryEnd = none ∧ u.bit (hsPg (s.hsLead n)) R.HS.STAT.RETRY = false) ∧
     (s.hsLead n = n → (s.hsAt n).act = some d → s.hsNbp n ≠ 0 →
       (∀ k, k < s.hsNbp n → d + s.hsBpT n k ≤ s.tb) →
       (s.fld (hsPg n) R.HS.STAT.WKIND = 1 ∨ s.fld (hsPg n) R.HS.STAT.WKIND = 3 → Gives (.envelopeBreakpoint n) s fun t =>
         t.fld (hsPg n) R.HS.STAT.WKIND = 0 ∧ t.fld (hsPg n) R.HS.STAT.WEND = 1) ∧
       (s.fld (hsPg n) R.HS.STAT.WKIND = 0 → exec (.envelopeBreakpoint n) s = .next s)) ∧
     (s.hsLead n = n → (s.hsAt n).act = some d → s.tb < d + s.hsBpT n 0 → s.hsBpT n 0 < s.hsEnvEnd n →
       s.tickComes (d + s.hsBpT n 0) = true → Gives (.envelopeBreakpoint n) s fun t =>
         t.tb = d + s.hsBpT n 0 ∧ (t.hsAt n).bpSeen = 1 ∧ (t.hsAt n).act = some d ∧ t.regs = s.regs)) ∧
  (∀ (s : State) (w : Writer) (d : Word),
     let stored := fun (o : OutReg) (pg : Nat) (f : Fld) (then_ : State → State) =>
       (s.locked pg = false → GivesThen (.liveOutputWrite w o d) s then_ fun u => u.fld pg f = f.get d ∧ u.code pg = 0 ∧ u.mem = s.mem) ∧
       (s.locked pg = true → Refused (.liveOutputWrite w o d) s pg)
     (s.clocked .pwr = true →
       (∀ n : Fin 48, stored (.hs n) (hsPg n) R.HS.OUT.ON fun u => u.hsSettle n) ∧
       (∀ n : Fin 8, stored (.vl n) (vlPg n) R.VL.OUT.ON fun u => u.vlSettle n) ∧
       (∀ n : Fin 16, s.ioMode n = 4 → stored (.io n) (ioPg n) R.IO.OUT.ON fun u => u.ioSettle n) ∧
       (∀ n : Fin 16, s.ioMode n ≠ 4 → Refused (.liveOutputWrite w (.io n) d) s (ioPg n)) ∧
       (∀ g : Fin 4, stored (.amb g) (ambPg g) R.AMB.OUT.ON fun u => u.ambSettle g) ∧
       stored .mx mxPg R.MX.OUT.RUN State.mxSettle) ∧
     (s.clocked .io = true → stored .pxc pxPg R.PXC.OUT.RUN State.swapIdle) ∧
     (∀ o : OutReg, s.clocked (if o = .pxc then .io else .pwr) = false → exec (.liveOutputWrite w o d) s = .next s)) ∧
  ((∀ (p ph d t : Nat), 0 < p → ph < 65536 → d < 0xFFFF →
     (OutCmd.levelAt (.pwm p ph d) t = true ↔ ∃ k, k < d * p / 65536 ∧ t % p = (ph * p / 65536 + k) % p)) ∧
   (∀ p ph t : Nat, OutCmd.levelAt (.pwm p ph 0xFFFF) t = true) ∧
   (∀ (s : State) (n : Fin 48), s.clocked .pwr = true →
     (s.hsAt n).gen.edgeTick s.tb (s.bit (hsPg n) R.HS.STAT.GATE) ≤ s.tb → s.fld (hsPg n) R.HS.SEG.NSEG ≠ 0 →
     (s.dieAt (hsDie n)).any = false → (s.hsAt n).tsd = false → s.diesWait = false → s.power ≠ .park →
     Gives (.pwmPeriodEdge (.hs n)) s fun t =>
       t.bit (hsPg n) R.HS.STAT.GATE = ((s.hsAt n).gen.at s.tb).levelAt s.tb ∧ t.tb = s.tb)) ∧
  (∀ s : State, s.clocked .pwr = true →
     (∀ k : Fin 14, let b := s.bridgeAt k
       b.gen.edgeTick s.tb (s.legAt (if b.applied matches .rev _ then s.legB k else s.legA k)).want.1 ≤ s.tb →
       exec (.pwmPeriodEdge (.bridge k)) s = .next ((s.legUpdate (s.legA k)).legUpdate (s.legB k))) ∧
     (∀ g : Fin 4, ((s.ambAt g).gen.at s.tb).onTime = true → (s.ambAt g).gen.nextStart s.tb ≤ s.tb →
       let u := match (s.ambAt g).uNext with
         | some (u, at_) => if at_ ≤ s.tb then u else (s.ambAt g).u
         | none => (s.ambAt g).u
       Gives (.pwmPeriodEdge (.amb g)) s fun t =>
         t.fld (ambPg g) R.AMB.APPRG.R = u.1 % 2 ^ 12 ∧ t.fld (ambPg g) R.AMB.APPRG.G = u.2.1 % 2 ^ 12 ∧
         t.fld (ambPg g) R.AMB.APPB.B = u.2.2 % 2 ^ 12 ∧ (t.ambAt g).u = u ∧ (t.ambAt g).phi = s.fld 0x170 R.MX.STAT.PHI) ∧
     (∀ (n : Fin 8) (i : Nat), let v := s.valveAt n
       v.phase = .hold ∨ v.phase = .pkhold → (s.dieAt 1).ldump = false → s.vlHeld n = false →
       let target := 10 * (if v.phase = .pkhold then s.fld (vlPg n) R.VL.PEAK.IPK else s.fld (vlPg n) R.VL.HOLD.IHOLD)
       (v.chopOn = true → target ≤ i → Gives (.pwmPeriodEdge (.valve n i)) s fun t =>
         (t.valveAt n).chopOn = false ∧ (t.valveAt n).phase = v.phase ∧ t.tb = s.tb) ∧
       (v.chopOn = false → s.vlNextStart n ≤ s.tb → Gives (.pwmPeriodEdge (.valve n i)) s fun t =>
         (t.valveAt n).chopOn = true ∧ (t.valveAt n).chopStart = some s.tb ∧ (t.valveAt n).phase = v.phase)))

/-- A conversion shows floor(mean / step), at most 0x3F00, 0 for a reversed current and for a disabled channel, of a current that
the gate drive holds at CEIL in a turn-off by a fault, once at each multiple of 100 ticks; a failed reference check sets its
bit; the bank's sum follows, then the open-load total and the thermal model. A leg's conversion shows 0x1F80 + floor(I /
step), held in 0 to 0x3F00; a valve's shows floor(mean / 1 mA), a side's floor(mean / 2.5 mA), at most 0x3F00. A disabled
valve shows no new code. Where the rules leave a detail open it states the model's choice: log entries 2, 35. -/
def Obligations.SenseCodes : Prop :=
  (∀ (s : State) (n : Fin 48) (i : Int) (fail : Bool), s.clocked .pwr = true → s.tb % 100 = 0 →
     let en := s.enabled (hsPg n)
     let i' := if (s.hsAt n).faultOff = true ∧ (s.hsAt n).inEdge s.tb = true then min i (s.fld (hsPg n) R.HS.SEG.CEIL * 100000 : Nat) else i
     let step : Int := if n.val < 16 then 10000 else 2500
     let done := decide (tget (fun _ => none) s.senseAt n.val = some s.tb)
     (done = true → s.tickComes (s.tb + 100) = false → exec (.senseConversion (.hs n i fail)) s = .next s) ∧ (done = false →
     GivesThen (.senseConversion (.hs n i fail)) s (fun u => if en then (u.hsOnOpen n).hsThermal n else u.hsThermal n) fun u =>
       u.fld (hsPg n) R.HS.SENSE.CODE = (if en then (if i' < 0 then 0 else min 0x3F00 (i' / step).toNat) else 0) ∧
       (u.hsAt n).mean = max 0 i' ∧ (u.hsAt n).senseFail = (en && fail) ∧
       (en = true → fail = true → u.fstat (hsBank n) 6 = true) ∧
       u.fld (0x0F0 + n.val / 8) R.BANK.ISUM.I = min 0xFFFF ((((List.range 8).map fun k =>
         max 0 (u.hsAt (8 * (n.val / 8) + k)).mean).foldl (· + ·) 0) / 100000).toNat)) ∧
  (∀ (s : State) (i : Int) (fail : Bool), s.clocked .pwr = true → s.tb % 100 = 0 →
     (∀ u < 106, tget (fun _ => none) s.senseAt u ≠ some s.tb) →
     (∀ (l : Fin 28) (ripple : Option Nat),
       let c : Int := 0x1F80 + i / (if l.val < 12 then 10000 else 2500)
       GivesThen (.senseConversion (.leg l i fail ripple)) s (fun u =>
         ((u.bridgesWith l).filter fun k => u.legA k = l).foldl (fun t k =>
           let t := t.brPosLoad k
           if t.brOperates k then (t.brRipple k ripple).brPinch k (i / 1000) else t) u) fun u =>
         u.fld (legPg l) R.HB.SENSE.CODE = (if c < 0 then 0 else if 0x3F00 < c then 0x3F00 else c.toNat) ∧
         (u.legAt l).senseFail = fail ∧ (u.legAt l).hist.head? = some (s.tb, i / 1000)) ∧
     (∀ n : Fin 8,
       let en := s.enabled (vlPg n)
       GivesThen (.senseConversion (.vl n i fail)) s (fun u =>
         if en ∧ (9000000000000 : Rat) ≤ (u.valveAt n).x ∧ (s.valveAt n).latch = false then u.vlFault n 5 else u) fun u =>
       u.fld (vlPg n) R.VL.SENSE.CODE = (if !en then s.fld (vlPg n) R.VL.SENSE.CODE
         else if i < 0 then 0 else min 0x3F00 (i / 1000).toNat) ∧ (u.valveAt n).senseFail = (fail && en) ∧
       (u.valveAt n).x = (s.valveAt n).x + ((max 0 i * max 0 i : Int) - (s.valveAt n).x) / 500000) ∧
     (∀ b : Fin 2, Gives (.senseConversion (.side b i fail)) s fun t =>
       t.fld vsPg (if b = 0 then R.VSIDE.SENSE.CODEA else R.VSIDE.SENSE.CODEB) = (if i < 0 then 0 else min 0x3F00 (i / 2500).toNat) ∧
       (t.sideAt b).senseFail = fail))

/-- An off-state cycle ends 30 000 ticks after its start, the first one starting TBLK ticks after the on-time and the last gate
edge, and not before the diagnosis may run, the others 100 000 ticks after the one before. A battery below 6.0 V gives the
cycle up, and the diagnosis begins again. Two equal results in a row are a detection: SHORTV above 5.5 V at the first sample,
which starts a cross-test, else open load above the threshold at the second. Two off-phases in a row above 5.5 V at TBLK ticks
after their off edge set SHORTV; each is sampled once, with 200 ticks left. In a cross-test, the second on-edge and the second
off-edge of one watched switch, with no edge of another counted, end it and set XCPL, on the partner too where that is a
channel. An edge counts once. A bank whose channel currents sum above its budget sets BUDGET and trips the unit with the
largest excess over its own limit, and none where every unit is within its limit. A segment found failing leaves service for
good, RETOUCH sets, and the repair waits to be written to its map; a limit that falls with it is remembered for 200 ticks.
Where the rules leave a detail open it states the model's choice: log entries 2, 3, 35. -/
def Obligations.LoadDiagnosis : Prop :=
  (∀ (s : State) (n : Fin 48) (vbat va vb : Int), s.clocked .pwr = true → s.bit (hsPg n) R.HS.CFG.OLOFF = true →
     s.enabled (hsPg n) = true → s.hsBlocked n = false → (s.dieAt (hsDie n)).ldump = false →
     let h := s.hsAt n
     let blank := s.palFld (s.hsPal n) R.PAL.BLANK.TBLK
     let first := max (max h.offFrom (h.edge.getD 0) + blank) h.diagAt
     let res : DiagRes := if 5500 < va ∧ 7000 ≤ vbat then .shortV
       else if 2000 + (s.palFld (s.hsPal n) R.PAL.OL.VTH : Int) * 10 < vb then .openLoad else .normal
     (vbat < 6000 → h.cmd.onTime = false → exec (.offStateDiagnosis n vbat va vb) s = .next (s.setHs n { h with cyc := none, diagAt := s.tb })) ∧
     (6000 ≤ vbat → h.cmd.onTime = false → s.bit (hsPg n) R.HS.STAT.GATE = false → h.cyc.elim (first + 30000) (· + 130000) ≤ s.tb →
       Gives (.offStateDiagnosis n vbat va vb) s fun t =>
         (t.hsAt n).offRes = some res ∧ (h.cyc = none → s.tb = first + 30000 → (t.hsAt n).cyc = some first) ∧
         (∀ c, h.cyc = some c → s.tb = c + 130000 → (t.hsAt n).cyc = some (c + 100000)) ∧
         (h.offRes = some res → res = .shortV → t.fstat (hsPg n) 6 = true ∧ (h.offConf = false → (t.hsAt n).xt ≠ none)) ∧
         (h.offRes = some res → res = .openLoad → t.fstat (hsPg n) 4 = true) ∧
         (h.offRes ≠ some res ∨ res = .normal → t.regs = s.regs)) ∧
     (h.cmd.onTime = true → s.bit (hsPg n) R.HS.STAT.GATE = false → h.phSeen ≠ some h.phase → 7000 ≤ vbat →
       h.edge.getD 0 + blank ≤ s.tb → h.gen.changesBefore s.tb (s.tb + 200) = false →
       ∀ left, 200 ≤ left → Gives (.offPhaseShortSample n vbat va left) s fun t =>
         (t.hsAt n).phSeen = some h.phase ∧
         (5500 < va → (t.hsAt n).phHigh = some h.phase ∧
           (h.phHigh = some (h.phase - 1) → t.fstat (hsPg n) 6 = true ∧ (h.offConf = false → (t.hsAt n).xt ≠ none)) ∧
           (h.phHigh ≠ some (h.phase - 1) → t.regs = s.regs)) ∧
         (va ≤ 5500 → (t.hsAt n).phHigh = none ∧ t.regs = s.regs)) ∧
     (h.phSeen = some h.phase → ∀ left, exec (.offPhaseShortSample n vbat va left) s = .next s) ∧
     (∀ left, left < 200 → exec (.offPhaseShortSample n vbat va left) s = .next s)) ∧
  (∀ (s : State) (b n : Fin 48), s.gid b = 0 → b ≠ n → s.clocked .pwr = true → s.enabled (hsPg b) = true →
     let a : XSwitch := .hs n
     ∀ e : Nat,
     ((s.hsAt b).xt = some [] → s.xEdgeSeen b a true = some e → Gives (.crossTestEdge b a true) s fun t =>
       (t.hsAt b).xt = some [⟨n.val, 1, 0, e⟩] ∧ t.regs = s.regs) ∧
     (∀ e', e' ≠ e → (s.hsAt b).xt = some [⟨n.val, 2, 1, e'⟩] → s.xEdgeSeen b a false = some e → Gives (.crossTestEdge b a false) s fun t =>
       (t.hsAt b).xt = none ∧ t.fstat (hsPg b) 12 = true ∧ t.fstat (hsPg n) 12 = true) ∧
     (∀ rising, (s.hsAt b).xt = some [⟨n.val, 1, 0, e⟩] → s.xEdgeSeen b a rising = some e → Gives (.crossTestEdge b a rising) s fun t =>
       (t.hsAt b).xt = some [⟨n.val, 1, 0, e⟩] ∧ t.regs = s.regs)) ∧
  ((∀ (s : State) (b : Fin 6) (i : Vector Int 8),
     let sum : Int := (i.toList.map fun c => max 0 c).foldl (· + ·) 0
     (sum ≤ (s.fld (0x0F0 + b.val) R.BANK.BUDGET.I : Int) * 100 → exec (.budgetExceeded b i) s = .next s) ∧
     (s.clocked .pwr = false → exec (.budgetExceeded b i) s = .next s) ∧
     ((s.fld (0x0F0 + b.val) R.BANK.BUDGET.I : Int) * 100 < sum → s.clocked .pwr = true →
       (∀ t0 ∈ tget (fun _ => none) s.bankTick b.val, t0 + 50 ≤ s.tb) →
       GivesThen (.budgetExceeded b i) s (fun u => match u.budgetPick b i with | some n => u.hsTrip n | none => u) fun u =>
         u.fstat (0x0F0 + b.val) 1 = true ∧ u.hs = s.hs ∧ tget (fun _ => none) u.bankTick b.val = some s.tb)) ∧
   (∀ (s : State) (n : Fin 48) (seg : Fin 8) (why : SegFinding), s.clocked .pwr = true →
     let map := s.fld (hsPg n) R.HS.SEG.MAP
     let left := map - 2 ^ seg.val
     let segs := ((List.range 8).filter fun i => left.testBit i).length
     (map.testBit seg = true → s.segFound n why = true → left ≠ 0 → Gives (.retouch n seg why) s fun t =>
       t.retouchPend = s.retouchPend ++ [(n.val, seg.val)] ∧ t.fstat (hsPg n) 9 = true ∧
       t.fld (hsPg n) R.HS.SEG.MAP = left ∧ t.fld (hsPg n) R.HS.SEG.NSEG = segs ∧
       ∀ m, t.hsAt m = { s.hsAt m with limHist := (t.hsAt m).limHist }) ∧
     (map.testBit seg = true → s.segFound n why = true → left = 0 → GivesThen (.retouch n seg why) s (fun u =>
       let t := (u.hsSettle n).detect (hsPg n) 9
       State.mapStart { t with retouchPend := t.retouchPend ++ [(n.val, seg.val)] }) fun u =>
         u.fld (hsPg n) R.HS.SEG.MAP = 0 ∧ u.fld (hsPg n) R.HS.SEG.NSEG = 0 ∧
         ∀ m, u.hsAt m = { s.hsAt m with limHist := (u.hsAt m).limHist }) ∧
     (map.testBit seg = false ∨ s.segFound n why = false → exec (.retouch n seg why) s = .next s)))

/-- Undervoltage, load dump and ground loss of a die are recorded in its bank folders and the bridge folder, for P2 in the valve,
matrix and ambient pages too, and the die's outputs take their condition; each acts once, and is recorded while the PWR island
runs. Their ends resume the die, whose filters count anew after all but a load dump, after 10 000 ticks, 100 000 for the
ground. Reverse battery acts on both dies without a record. A junction shutdown of a channel turns it off at once, and latches
its unit with TSD in its bank and GANG on the other members while the PWR island runs; of a matrix row or column, and an
ambient channel, it sets their latch and bit. Its end clears the shutdown, and the latch stays. Where the rules leave a detail
open it states the model's choice: log entries 3, 36. -/
def Obligations.SupplyAndJunction : Prop :=
  (∀ (s : State) (die : Die),
     let d := dieIdx die
     let reports := fun (c : Instr) (j : Nat) (now : DieSt) => GivesThen c s (fun u => u.dieSettle d) fun u =>
       u.dieAt d = now ∧ (s.clocked .pwr = true →
         (∀ b, b < 3 → u.fstat (0x0F0 + 3 * d + b) (2 + j) = true) ∧ u.fstat 0x15C (1 + j) = true ∧
         (d = 1 → u.fstat 0x168 (7 + j) = true ∧ u.fstat 0x170 (6 + j) = true ∧ ∀ g, g < 4 → u.fstat (0x174 + g) (4 + j) = true))
     let q := s.dieAt d
     (q.uv = false → reports (.undervoltageEntry die) 0 { q with uv := true, uvAt := s.tb }) ∧
     (q.ldump = false → reports (.loadDumpEntry die) 1 { q with ldump := true, ldAt := s.tb }) ∧
     (q.gndl = false → reports (.groundLoss die) 2 { q with gndl := true, gndAt := s.tb }) ∧
     (q.uv = true → exec (.undervoltageEntry die) s = .next s ∧ (q.uvAt + 10000 ≤ s.tb →
       exec (.undervoltageExit die) s = .next (((s.setDie d { q with uv := false }).dieBack d).dieResume d fun _ => false))) ∧
     (q.ldump = true → exec (.loadDumpEntry die) s = .next s ∧ (q.ldAt + 10000 ≤ s.tb →
       GivesThen (.loadDumpExit die) s
         (fun u =>
           let u := u.dieResume d fun n => ((dieHs d).filter fun n => s.bit (hsPg n) R.HS.STAT.GATE).contains n
           if d = 1 then (u.sidePeakEnded 0).sidePeakEnded 1 else u) fun u =>
           u.dieAt d = { q with ldump := false } ∧ u.regs = s.regs)) ∧
     (q.gndl = true → exec (.groundLoss die) s = .next s ∧ (q.gndAt + 100000 ≤ s.tb →
       exec (.groundRestored die) s = .next (((s.setDie d { q with gndl := false }).dieBack d).dieResume d fun _ => false))) ∧
     (GivesThen .reverseBattery s (fun u => (u.dieSettle 0).dieSettle 1) fun u =>
       (u.dieAt 0).revb = true ∧ (u.dieAt 1).revb = true ∧ u.regs = s.regs ∧ u.raises = s.raises) ∧
     ((s.dieAt 0).revb = true ∨ (s.dieAt 1).revb = true → GivesThen .reverseBatteryEnd s
       (fun u => (u.dieResume 0 fun _ => false).dieResume 1 fun _ => false) fun u =>
         (u.dieAt 0).revb = false ∧ (u.dieAt 1).revb = false ∧ u.regs = s.regs)) ∧
  (∀ s : State, s.clocked .pwr = true →
     (∀ n : Fin 48,
       (GivesThen (.junctionShutdown (.hs n)) s (fun u => u.hsSettle n) fun u =>
         (u.hsAt n).tsd = true ∧ u.fstat (hsBank n) 5 = true ∧ (∀ m ∈ s.hsUnit n, (u.hsAt m).latch = true)) ∧
       ((s.hsAt n).tsd = true → GivesThen (.junctionShutdownExit (.hs n)) s (fun u => u.hsGateUpdate n) fun u =>
         (u.hsAt n).tsd = false ∧ (u.hsAt n).latch = (s.hsAt n).latch)) ∧
     (∀ r : Fin 16,
       (GivesThen (.junctionShutdown (.row r)) s State.mxSettle fun u =>
         (u.reg 0x170 R.MX.LATCH.ROW.off).getLsbD (R.MX.LATCH.ROW.lo + r.val) = true ∧ u.fstat 0x170 4 = true ∧ r.val ∈ u.light.tsdRows) ∧
       Gives (.junctionShutdownExit (.row r)) s fun t => r.val ∉ t.light.tsdRows ∧ t.regs = s.regs) ∧
     (∀ g : Fin 4,
       (GivesThen (.junctionShutdown (.amb g)) s (fun u => u.ambSettle g) fun u =>
         u.bit (ambPg g) R.AMB.STAT.LATCH = true ∧ u.fstat (ambPg g) 1 = true ∧ (u.ambAt g).tsd = true) ∧
       Gives (.junctionShutdownExit (.amb g)) s fun t => (t.ambAt g).tsd = false ∧ t.regs = s.regs) ∧
     (∀ c : Fin 16, GivesThen (.junctionShutdown (.col c)) s State.mxSettle fun u =>
       (u.reg 0x170 R.MX.LATCH.COL.off).getLsbD (R.MX.LATCH.COL.lo + c.val) = true ∧ u.fstat 0x170 4 = true ∧ c.val ∈ u.light.tsdCols) ∧
     (∀ l : Fin 28, GivesThen (.junctionShutdown (.leg l)) s (fun u => u.latchLegs l l) fun u =>
       (u.legAt l).tsd = true ∧ u.fstat (legPg l) 10 = true) ∧
     (∀ n : Fin 8, GivesThen (.junctionShutdown (.vl n)) s (fun u => if u.enabled (vlPg n) then u.vlFault n 3 else u.vlSettle n) fun u => (u.valveAt n).tsd = true) ∧
     (∀ b : Fin 2, GivesThen (.junctionShutdown (.side b)) s (fun u => u.sideFault b (5 + b.val)) fun u => (u.sideAt b).tsd = true) ∧
     (∀ l : Fin 28, GivesThen (.junctionShutdownExit (.leg l)) s (fun u => u.brSettleLeg l) fun u => (u.legAt l).tsd = false) ∧
     (∀ c : Fin 16, Gives (.junctionShutdownExit (.col c)) s fun t => c.val ∉ t.light.tsdCols ∧ t.regs = s.regs) ∧
     (∀ n : Fin 8, GivesThen (.junctionShutdownExit (.vl n)) s (fun u => u.vlSettle n) fun u => (u.valveAt n).tsd = false) ∧
     (∀ b : Fin 2, GivesThen (.junctionShutdownExit (.side b)) s (fun u => u.sideUpdate b) fun u => (u.sideAt b).tsd = false))

/-- A write of BRIDGE.OUTk stores its command, ends a park run and clears TGTHIT and PARKED, whatever level governs, and the chain
settles; on a locked page it is refused. PARK is refused without PKEN; at the parked level it brakes at once with PARKED set,
else a park run of PARKT ms starts. The chain on a bridge that operates: safe state brakes or coasts it by CFG.SAFE, a latched
leg coasts it, else a clause's verb or its live command applies, unless a sharing bridge drives: then SHARE is set and it
coasts. Without the PWR clock the dies brake or coast it by CFG.SAFE. Where the rules leave a detail open it states the
model's choice: log entry 37. -/
def Obligations.BridgeCommands : Prop :=
  (∀ (s : State) (k : Fin 14) (tgten : Bool), s.clocked .pwr = true →
     let stored := fun (u : State) (code : Nat) =>
       u.br k R.BRIDGE.OUT.CMD = code ∧ u.br k R.BRIDGE.OUT.TGTEN = (if tgten then 1 else 0) ∧ u.br k R.BRIDGE.STAT.TGTHIT = 0 ∧
       u.br k R.BRIDGE.STAT.PARKED = 0 ∧ u.code brPg = 0
     let writes := fun (c : Instr) (code : Nat) =>
       (s.locked brPg = false → GivesThen c s (fun u => u.brSettle k) fun u =>
         stored u code ∧ (u.bridgeAt k).parkRun = false ∧ (u.bridgeAt k).parkEnd = none) ∧
       (s.locked brPg = true → Refused c s brPg)
     writes (.bridgeCoast k tgten) 0 ∧ writes (.bridgeBrake k tgten) 1 ∧ writes (.bridgeFwd k tgten) 2 ∧
     writes (.bridgeRev k tgten) 3 ∧
     (s.locked brPg = true ∨ s.br k R.BRIDGE.CFG.PKEN = 0 → Refused (.bridgePark k tgten) s brPg) ∧
     (s.locked brPg = false → s.br k R.BRIDGE.CFG.PKEN ≠ 0 →
       (s.brParkedIn k = false → GivesThen (.bridgePark k tgten) s (fun u => u.brSettle k) fun u =>
         stored u 4 ∧ (u.bridgeAt k).parkRun = true ∧
         (u.bridgeAt k).parkEnd = some (s.tb + s.br k R.BRIDGE.TMO.PARKT * 100000)) ∧
       (s.brParkedIn k = true → GivesThen (.bridgePark k tgten) s (fun u => u.brParkDone k) fun u => stored u 4))) ∧
  (∀ (s : State) (k : Fin 14), s.brOperates k = true → s.power ≠ .park →
     let t := s.brSettle k
     let live := (s.brLower k).1
     let bySafe : BrCmd := if s.br k R.BRIDGE.CFG.SAFE = 1 then .brake else .coast
     (s.clocked .pwr = false → (t.bridgeAt k).applied = bySafe ∧ t.br k R.BRIDGE.STAT.GOV = s.br k R.BRIDGE.STAT.GOV) ∧
     (s.clocked .pwr = true → s.heldBit (48 + k.val) = false →
     (s.safe = true → t.br k R.BRIDGE.STAT.GOV = 3 ∧ (t.bridgeAt k).applied = bySafe) ∧
     (s.safe = false → s.brLatched k = true → t.br k R.BRIDGE.STAT.GOV = 2 ∧ (t.bridgeAt k).applied = .coast) ∧
     (s.safe = false → s.brLatched k = false → t.br k R.BRIDGE.STAT.GOV = (if (s.govClauseOf [0x040 + k.val]).isSome then 1 else 0)) ∧
     (s.safe = false → s.brLatched k = false → s.brBlocked k = false → s.br k R.BRIDGE.STAT.SHARE = 0 →
       (t.bridgeAt k).applied = live ∧ t.br k R.BRIDGE.STAT.SHARE = 0) ∧
     (s.safe = false → s.brLatched k = false → live ≠ .coast → s.brBlocked k = true →
       (t.bridgeAt k).applied = .coast ∧ t.br k R.BRIDGE.STAT.SHARE = 1)))

/-- A leg current above the bridge's limit through 200 ticks of a drive latches both legs with bit 1 on leg A; one at a leg's
ceiling latches that leg with bit 2, without the PWR clock it only turns the leg off; the bridges of the legs then settle, the
lower-numbered first. CLR clears both latches, and is refused with none set. The start allowance ends with START cleared; a
bridge held by a shared leg starts once no sharing bridge drives and none of a lower number waits for the leg, and one that
waits out a dead time gives way to it; STALLT without a ripple sets STALL once per drive start; a park run ends by its input
or by its timeout, which sets PARKTO; a position write waits for the next sense code. Off-state cycles of a coasting bridge
start 10 000 ticks after it coasts, once the conditions hold, and every 100 000 ticks; they end 25 000 ticks later. A battery
below 7.0 V gives the cycle up, and the diagnosis begins again. Two equal results in a row are one detection on leg A: SHORTV
with both samples at 5.5 V or more, SHORTG with the first at 0.5 V or less, open load with the first at 4 V or more and the
second at 1 V or less. Where the rules leave a detail open it states the model's choice: log entries 2, 3, 37. -/
def Obligations.BridgeProtection : Prop :=
  ((∀ (s : State) (k : Fin 14) (i : Int),
     let a := s.legA k
     let b := s.legB k
     let limit := 10 * (if s.br k R.BRIDGE.STAT.START ≠ 0 then s.br k R.BRIDGE.LIM.ISTART else s.br k R.BRIDGE.LIM.ILIM)
     let drives := (s.bridgeAt k).applied ≠ .coast ∧ (s.bridgeAt k).applied ≠ .brake
     let since := max (s.bridgeAt k).drvAt
       (if s.br k R.BRIDGE.STAT.START = 0 ∧ i.natAbs ≤ 10 * s.br k R.BRIDGE.LIM.ISTART then (s.bridgeAt k).startDone else 0)
     (s.clocked .pwr = true → drives → limit < i.natAbs → since + 200 ≤ s.tb →
       GivesThen (.bridgeTrip k i) s (fun u => u.brSettleLegs a b) fun u =>
         (u.legAt a).latch = true ∧ (u.legAt b).latch = true ∧ u.fstat (legPg a) 1 = true) ∧
     (¬ drives ∨ i.natAbs ≤ limit ∨ s.clocked .pwr = false → exec (.bridgeTrip k i) s = .next s) ∧
     (s.clocked .pwr = true → s.locked brPg = false → (s.legAt a).latch = true ∨ (s.legAt b).latch = true →
       GivesThen (.bridgeClr k) s (fun u => u.brSettleLegs a b) fun u =>
         (u.legAt a).latch = false ∧ (u.legAt b).latch = false ∧ u.code brPg = 0) ∧
     (s.clocked .pwr = true → s.locked brPg = true ∨ ((s.legAt a).latch = false ∧ (s.legAt b).latch = false) →
       Refused (.bridgeClr k) s brPg)) ∧
   (∀ (s : State) (l : Fin 28) (i : Nat),
     let ceil := if l.val < 12 then 60000 else 15000
     (ceil ≤ i → s.clocked .pwr = true → GivesThen (.legCeil l i) s (fun u => u.brSettleLegs l l) fun u =>
       (u.legAt l).latch = true ∧ u.fstat (legPg l) 2 = true) ∧
     (ceil ≤ i → s.clocked .pwr = false →
       exec (.legCeil l i) s = .next ((s.setLeg l { s.legAt l with ceilOff := true }).brSettleLeg l)) ∧
     (i < ceil → exec (.legCeil l i) s = .next s))) ∧
  (∀ (s : State) (k : Fin 14) (d : Nat) (v : Word), d ≤ s.tb → s.clocked .pwr = true →
     let b := s.bridgeAt k
     (b.startEnd = some d → Gives (.startAllowanceEnd k) s fun t =>
       t.br k R.BRIDGE.STAT.START = 0 ∧ (t.bridgeAt k).startEnd = none ∧ (t.bridgeAt k).startDone = s.tb ∧ t.raises = s.raises) ∧
     exec (.sharedLegStart k) s = .next (if s.br k R.BRIDGE.STAT.SHARE ≠ 0 ∧ s.brBlocked k = false ∧ s.brLowerWaits k = false
       then (s.brSettle k true).brYield k else s) ∧
     (s.br k R.BRIDGE.RIP.EN ≠ 0 → b.applied ≠ .coast → b.applied ≠ .brake → b.stalled = false →
       b.ripTick + s.br k R.BRIDGE.TMO.STALLT * 100000 ≤ s.tb → Gives (.stallTimeout k) s fun t =>
         (t.bridgeAt k).stalled = true ∧ t.fstat (legPg (s.legA k)) 6 = true) ∧
     (s.locked brPg = false → Gives (.posWrite k v) s fun t =>
       (t.bridgeAt k).posPend = some v ∧ t.br k R.BRIDGE.POS.POS = s.br k R.BRIDGE.POS.POS ∧ t.code brPg = 0) ∧
     (s.locked brPg = true → Refused (.posWrite k v) s brPg) ∧
     exec (.parkInputChange k) s =
       .next (if b.parkRun = true ∧ s.br k R.BRIDGE.OUT.CMD = 4 ∧ s.br k R.BRIDGE.STAT.GOV < 2 ∧ s.brParkedIn k = true then s.brParkDone k else s) ∧
     (b.parkEnd = some d → b.parkRun = true → s.br k R.BRIDGE.STAT.GOV < 2 →
       exec (.parkRunTimeout k) s = .next ((s.brHwBrake k).detect (legPg (s.legA k)) 9) ∧
       ∃ u : State, s.brHwBrake k = u.brSettle k ∧ u.br k R.BRIDGE.OUT.CMD = 1 ∧ (u.bridgeAt k).parkRun = false ∧
         u.heldBit (48 + k.val) = false) ∧
     (let t := s.brParkDone k
      t.br k R.BRIDGE.STAT.PARKED = 1 ∧ ∃ p ∈ t.postings, p.ev = 142)) ∧
  (∀ (s : State) (k : Fin 14) (vbat va vb : Int),
     let b := s.bridgeAt k
     let res : DiagRes := if 5500 ≤ va ∧ 5500 ≤ vb then .shortV else if va ≤ 500 then .shortG
       else if 4000 ≤ va ∧ vb ≤ 1000 then .openLoad else .normal
     let bit := match res with | .shortV => 3 | .shortG => 4 | _ => 5
     s.clocked .pwr = true → s.br k R.BRIDGE.CFG.OLOFF ≠ 0 → s.brOperates k = true → b.applied = .coast →
     (∀ j, j < 14 → (s.bridgeAt j).applied = .coast) →
     (vbat < 7000 → exec (.bridgeOffStateDiagnosis k vbat va vb) s =
       .next (s.setBridge k { b with cyc := none, diag := none, diagConf := false, diagAt := s.tb })) ∧
     (7000 ≤ vbat → b.cyc.elim (max (b.coastAt + 10000) b.diagAt + 25000) (· + 125000) ≤ s.tb →
     Gives (.bridgeOffStateDiagnosis k vbat va vb) s fun t =>
       (t.bridgeAt k).diag = some res ∧ (t.bridgeAt k).cyc = some (s.tb - 25000) ∧
       (b.diag = some res → res ≠ .normal → t.fstat (legPg (s.legA k)) bit = true) ∧
       (b.diag ≠ some res ∨ res = .normal → t.regs = s.regs)))

/-- TRIG is refused on a locked page and in level mode; where level 4 governs an enabled valve that the hold does not hold it
triggers, else it has no effect. A trigger of an idle valve whose side is free starts its profile: PEAK, with the side on
boost where the store feeds it, else on battery; with another peak running it waits in PKWAIT. Under a condition of R29 or its
side's latch it starts nothing. The profile: PEAK ends at IPK in PKHOLD, as a short within 2 us of its start and late after
TPKMAX; PKHOLD after TPH us in HOLD, HOLD of a pulse-mode valve at its end in DECAY; below 50 mA DECAY ends in IDLE, or in
MOWAIT with a start pending, and event 147 is posted; MOWAIT ends with a start. Where the rules leave a detail open it states
the model's choice: log entries 2, 3, 38. -/
def Obligations.ValveProfiles : Prop :=
  (∀ (s : State) (n : Fin 8), s.clocked .pwr = true →
     let pg := vlPg n
     let side := vlSide n
     (s.locked pg = true ∨ s.bit pg R.VL.CFG.PULSE = false → Refused (.trig n) s pg) ∧
     (s.locked pg = false → s.bit pg R.VL.CFG.PULSE = true →
       exec (.trig n) s = .next (if s.enabled pg = true ∧ s.fld pg R.PG_STAT.GOV = 0 ∧ s.heldBit (64 + n.val) = false
         then (s.ok pg).vlTrigger n else s.ok pg)) ∧
     ((s.valveAt n).phase = .idle → (s.valveAt n).decayEnd = none → (s.sideAt side).peakNext = none →
       (∀ m ∈ sideValves side, (s.valveAt m).phase ≠ .peak) →
       (s.sideAt side).src = .off → (s.sideAt side).next = none → (s.sideAt side).latch = false → (s.sideAt side).limpOff = false →
       (s.sideAt side).tsd = false → (s.valveAt n).tsd = false → (s.dieAt 1).any = false →
       let t := s.vlTrigger n
       (t.valveAt n).phase = .peak ∧ (t.valveAt n).phaseStart = s.tb ∧ t.fld pg R.VL.STAT.PHASE = 1 ∧
       (t.sideAt side).src = (if s.boostFeeds then .boost else .battery)) ∧
     (∀ m ∈ sideValves side, m ≠ n.val → (s.valveAt m).phase = .peak → (s.valveAt n).phase = .idle → (s.valveAt n).decayEnd = none →
       (s.sideAt side).peakNext = none → s.vlHeld n = false → (s.dieAt 1).ldump = false → (s.sideAt side).latch = false →
       let t := s.vlTrigger n
       (t.valveAt n).phase = .pkwait ∧ (t.valveAt n).waitStart = s.tb ∧ t.fstat pg 7 = true) ∧
     (s.vlHeld n = true ∨ (s.dieAt 1).ldump = true ∨ (s.sideAt side).latch = true →
       s.vlTrigger n = s.setValve n { s.valveAt n with lastTrig := s.tb })) ∧
  ((∀ (s : State) (n : Fin 8) (p : VPhase), ∃ u : State, s.vlMove n p = u.sidePeakEnded (vlSide n) ∧
     (u.valveAt n).phase = p ∧ (u.valveAt n).phaseStart = s.tb ∧ u.fld (vlPg n) R.VL.STAT.PHASE = vpCode p ∧
     (u.valveAt n).latch = (s.valveAt n).latch ∧ (u.valveAt n).cmd = (s.valveAt n).cmd) ∧
   (∀ (s : State) (n : Fin 8) (i : Nat),
     let v := s.valveAt n
     let pg := vlPg n
     let runs := fun (p : VPhase) => v.phase = p ∧ s.clocked .pwr = true ∧ (s.dieAt 1).ldump = false
     (runs .peak → s.fld pg R.VL.PEAK.IPK * 10 ≤ i → exec (.peakEnd n i) s = .next (
       if s.tb ≤ v.phaseStart + 200 then s.vlFault n 2 else if v.phaseStart + s.fld pg R.VL.PEAK.TPKMAX * 100 < s.tb then s.vlFault n 4
       else s.vlMove n .pkhold)) ∧
     (¬ runs .peak ∨ i < s.fld pg R.VL.PEAK.IPK * 10 → exec (.peakEnd n i) s = .next s) ∧
     (runs .pkhold → v.phaseStart + s.fld pg R.VL.PHOLD.TPH * 100 ≤ s.tb →
       let t := s.vlMove n .hold
       exec (.pkholdEnd n) s = .next (t.setValve n { t.valveAt n with holdEnd := t.tb + t.fld pg R.VL.HOLD.THOLD * 10000 })) ∧
     (runs .hold → s.bit pg R.VL.CFG.PULSE = true → v.holdEnd ≤ s.tb → exec (.endOfHold n) s = .next (s.vlMove n .decay)) ∧
     (v.phase = .decay → s.clocked .pwr = true → i < 50 → GivesThen (.decayEnd n i) s (fun u => u.sideLimp (vlSide n)) fun u =>
       (∃ p ∈ u.postings, p.ev = 147) ∧
       ∃ w : State, (w.valveAt n).decayEnd = some s.tb ∧ u = (w.vlMove n (if v.pend then .mowait else .idle)).post 147) ∧
     (runs .mowait → v.decayEnd.getD 0 + s.fld pg R.VL.MINOFF.TMINOFF * 1000 ≤ s.tb →
       s.bit pg R.VL.CFG.PULSE = true ∨ v.cmd = true → GivesThen (.mowaitEnd n) s (fun u => u.vlStart n) fun u =>
         (u.valveAt n).phase = .idle ∧ (u.valveAt n).pend = false)))

/-- A valve's fault sets its bit, counts, and latches it, and the chain settles: OPEN below 50 mA 20 us into the peak, SHORT at
IPK within 2 us, PKTIME after TPKMAX, and the ceiling at 15 A. CLR clears the valve's own latch, and is refused when it is not
set. A latched valve is commanded off. A disabled valve takes no part, and nothing latches without the PWR clock. A side at 30
A latches: its switches off, its bit set, and its valves settle; CLRA and CLRB clear a side's latch and are refused without
one. At the end of a changeover the other switch closes, and the valve that waited enters PEAK. 2 ms after its limp value was
imposed the side is off at the latest. The boost goes from CHARGE to READY at the ready voltage with event 148, back to CHARGE
below it, to FAULT more than 5 V above VSET with BOVP, and leaves FAULT by BCLR only; 20 ms of CHARGE set BUVTO once. Every
reading shows in VMEAS. Where the rules leave a detail open it states the model's choice: log entries 2, 3, 38. -/
def Obligations.ValveSupplies : Prop :=
  ((∀ (s : State) (n : Fin 8) (bit : Nat), bit < 16 →
     (s.enabled (vlPg n) = true → s.clocked .pwr = true → ∃ u : State, s.vlFault n bit = u.vlSettle n ∧
       u.fstat (vlPg n) bit = true ∧ (u.valveAt n).latch = true ∧ u.bit (vlPg n) R.VL.STAT.LATCH = true) ∧
     (s.enabled (vlPg n) = false ∨ s.clocked .pwr = false → s.vlFault n bit = s)) ∧
   (∀ (s : State) (n : Fin 8) (i : Nat),
     let v := s.valveAt n
     let peaks := v.phase = .peak ∧ s.clocked .pwr = true ∧ (s.dieAt 1).ldump = false
     (peaks → i < 50 → v.phaseStart + 2000 ≤ s.tb → exec (.valveOpen n i) s = .next (s.vlFault n 1)) ∧
     (let short := s.tb ≤ v.phaseStart + 200 ∧ s.fld (vlPg n) R.VL.PEAK.IPK * 10 ≤ i
      (peaks → short → exec (.valveShort n i) s = .next (s.vlFault n 2)) ∧
      (¬ peaks ∨ ¬ short → exec (.valveShort n i) s = .next s)) ∧
     (peaks → v.phaseStart + s.fld (vlPg n) R.VL.PEAK.TPKMAX * 100 ≤ s.tb → exec (.pktime n) s = .next (s.vlFault n 4)) ∧
     exec (.valveCeil n i) s = .next (if 15000 ≤ i then s.vlFault n 8 else s) ∧
     (s.clocked .pwr = true → s.locked (vlPg n) = false → v.latch = true → GivesThen (.vlClr n) s (fun u => u.vlSettle n) fun u =>
       (u.valveAt n).latch = false ∧ u.code (vlPg n) = 0 ∧ u.bit (vlPg n) R.VL.STAT.LATCH = false) ∧
     (s.clocked .pwr = true → s.locked (vlPg n) = true ∨ v.latch = false → Refused (.vlClr n) s (vlPg n)) ∧
     (s.clocked .pwr = true → s.heldBit (64 + n.val) = false → v.latch = true ∨ s.safe = true → (s.safe = true → (s.dieAt 1).ldump = false) →
       let t := s.vlSettle n
       (t.valveAt n).cmd = false ∧ t.fld (vlPg n) R.PG_STAT.GOV = (if s.safe then 3 else 2)))) ∧
  (∀ (s : State) (b : Fin 2),
     let settleAll := fun (u : State) => u.vlSettleList (sideValves b)
     (∀ i : Nat, (30000 ≤ i → s.clocked .pwr = true → GivesThen (.sideLatch b i) s settleAll fun u =>
         (u.sideAt b).latch = true ∧ (u.sideAt b).src = .off ∧ (u.sideAt b).peakNext = none ∧ u.fstat vsPg (3 + b.val) = true) ∧
       (30000 ≤ i → s.clocked .pwr = false →
         exec (.sideLatch b i) s = .next ((s.setSide b { s.sideAt b with limpOff := true }).sideUpdate b)) ∧
       (i < 30000 → exec (.sideLatch b i) s = .next s)) ∧
     (s.clocked .pwr = true →
     (let clr : Instr := if b = 0 then .clra else .clrb
      (s.locked vsPg = false → (s.sideAt b).latch = true → GivesThen clr s settleAll fun u =>
         (u.sideAt b).latch = false ∧ u.code vsPg = 0) ∧
      (s.locked vsPg = true ∨ (s.sideAt b).latch = false → Refused clr s vsPg)) ∧
     (∀ (src : SideSrc) (d : Nat), (s.sideAt b).next = some (src, d) → d ≤ s.tb → (s.dieAt 1).ldump = false →
       GivesThen (.sideChangeoverEnd b) s (fun u => match (s.sideAt b).peakNext with | some n => u.vlEnterPeak n | none => u) fun u =>
         (u.sideAt b).src = src ∧ (u.sideAt b).next = none ∧ (u.sideAt b).peakNext = none)) ∧
     (∀ a : Int, (s.sideAt b).limpAt = some a → a + 200000 ≤ s.kaNow →
       GivesThen (.sideLimpTimeout b) s (fun u => u.sideUpdate b) fun u => (u.sideAt b).limpOff = true ∧ u.tb = s.tb) ∧
     ((s.sideAt b).limpAt = none → exec (.sideLimpTimeout b) s = .next s)) ∧
  (∀ (s : State) (v : Nat), s.clocked .pwr = true →
     let st := s.fld vsPg R.BOOST.STAT.ST
     let vset := 24000 + s.fld vsPg R.BOOST.CFG.VSET * 250
     let ready := vset - s.fld vsPg R.BOOST.CFG.RDYM * 500
     let meas := fun (t : State) => t.fld vsPg R.BOOST.STAT.VMEAS = min 0xFFFF (v / 10)
     (st = 1 → ready ≤ v → Gives (.boostReady v) s fun t =>
       t.fld vsPg R.BOOST.STAT.ST = 2 ∧ meas t ∧ ∃ p ∈ t.postings, p.ev = 148) ∧
     (st ≠ 1 ∨ v < ready → Gives (.boostReady v) s fun t => t.fld vsPg R.BOOST.STAT.ST = st ∧ meas t ∧ t.postings = s.postings) ∧
     (st = 2 → v < ready → Gives (.boostReadyLost v) s fun t => t.fld vsPg R.BOOST.STAT.ST = 1 ∧ meas t ∧ t.boostTick = s.tb) ∧
     (st = 1 ∨ st = 2 → vset + 5000 < v → Gives (.bovp v) s fun t =>
       t.fld vsPg R.BOOST.STAT.ST = 3 ∧ meas t ∧ t.fstat vsPg 1 = true) ∧
     (st = 1 → s.boostTold = false → s.boostTick + 2000000 ≤ s.tb → Gives .buvto s fun t =>
       t.boostTold = true ∧ t.fstat vsPg 2 = true ∧ t.fld vsPg R.BOOST.STAT.ST = 1) ∧
     (s.locked vsPg = false → st = 3 → Gives .bclr s fun t =>
       t.fld vsPg R.BOOST.STAT.ST = 1 ∧ t.code vsPg = 0 ∧ t.boostTold = false) ∧
     (s.locked vsPg = true ∨ st ≠ 3 → Refused .bclr s vsPg))

/-- A swap is refused while one is pending; without a trigger to wait for, a matrix and a pixel chain that stand change front at
once; with one, the swap waits and PEND shows it. CANCEL discards a swap before its trigger and is refused after it. The
trigger of the armed kind lets it go on. A slot start shows its row, and takes the row's 16 pixel words of the front canvas
and the derating factor of the column codes. A reading of the sink sensor gives the factor 256 up to the knee, and a line of
slope SLOPE below it above, DIEOT at 0. Where the rules leave a detail open it states the model's choice: log entries 2, 3,
39. -/
def Obligations.CanvasAndMatrix : Prop :=
  (∀ (s : State) (src : Fin 4), s.clocked .pwr = true →
     (s.locked 0x173 = true ∨ s.light.swap ≠ none → Refused (.swap src) s 0x173) ∧
     (s.locked 0x173 = false → s.light.swap = none → s.bit 0x170 R.MX.OUT.RUN = false → s.bit 0x172 R.PXC.OUT.RUN = false →
       Gives (.swap 0) s fun t =>
         t.bit 0x173 R.CV.STAT.FRONT = !s.bit 0x173 R.CV.STAT.FRONT ∧ t.bit 0x173 R.CV.STAT.PXFRONT = !s.bit 0x173 R.CV.STAT.PXFRONT ∧
         t.fld 0x173 R.CV.APPLIED_LO.T = s.tb % 2 ^ 32 ∧ t.light.swap = none ∧ t.bit 0x173 R.CV.STAT.PEND = false ∧
         t.code 0x173 = 0 ∧ t.postings = s.postings ++ [s.posting 152]) ∧
     (s.locked 0x173 = false → s.light.swap = none →
       (src = 2 ∨ src = 3 ∨ (src = 1 ∧ s.tb ≤ s.fld64 0x173 R.CV.T_LO.T R.CV.T_HI.T)) → Gives (.swap src) s fun t =>
         t.light.swap = some (if src = 1 then .tick else if src = 2 then .rise else .fall) ∧ t.light.trig = none ∧
         t.bit 0x173 R.CV.STAT.PEND = true ∧ t.bit 0x173 R.CV.STAT.FRONT = s.bit 0x173 R.CV.STAT.FRONT ∧ t.code 0x173 = 0) ∧
     (s.locked 0x173 = false → s.light.swap ≠ none → s.light.trig = none → Gives .cancelSwap s fun t =>
       t.light.swap = none ∧ t.bit 0x173 R.CV.STAT.PEND = false ∧ t.code 0x173 = 0) ∧
     (s.locked 0x173 = true ∨ s.light.swap = none ∨ s.light.trig ≠ none → Refused .cancelSwap s 0x173) ∧
     (s.light.trig = none →
       (s.light.swap = some .rise → GivesThen (.swapTrigger .rise) s (fun u => u.swapAtFrame.swapIdle) fun u => u.light.trig = some s.tb ∧ u.regs = s.regs) ∧
       (s.light.swap = some .fall → GivesThen (.swapTrigger .fall) s (fun u => u.swapAtFrame.swapIdle) fun u => u.light.trig = some s.tb ∧ u.regs = s.regs) ∧
       (s.light.swap = some .tick → s.fld64 0x173 R.CV.T_LO.T R.CV.T_HI.T ≤ s.tb →
         GivesThen (.swapTrigger .tick) s (fun u => u.swapAtFrame.swapIdle) fun u => u.light.trig = some s.tb ∧ u.regs = s.regs))) ∧
  ((∀ (s : State) (high drop : BitVec 16), s.clocked .pwr = true → s.bit 0x170 R.MX.OUT.RUN = true → s.nextSlot ≤ s.tb →
     let r := s.scanAt.since s.tb / max 1 s.scanAt.slot
     r ≠ 0 → r < 16 →
     GivesThen (.matrixSlotStart high drop) s (fun u => u.rowHigh high.toNat) fun u =>
       u.light.row = r ∧ u.light.slotStart = s.tb ∧ u.fld 0x170 R.MX.STAT.SLOT = r ∧
       (∀ k, k < 16 → u.light.words.getD k 0 = s.hwLe (canvasWord (s.bit 0x173 R.CV.STAT.FRONT) (16 * r + k)) 2) ∧
       (∀ k, k < 16 → u.colCode k = s.icol k * s.fld 0x170 R.MX.STAT.PHI / 256)) ∧
   (∀ (s : State) (t : Int), -32768 ≤ t → t < 32768 → s.clocked .pwr = true → (∀ a ∈ s.light.tempAt, a + 100000 ≤ s.tb) →
     let knee : Int := 850 + 10 * (s.fld 0x170 R.MX.DERATE.TK : Int)
     let phi := if t ≤ knee then 256 else (256 - (t - knee) * (s.fld 0x170 R.MX.DERATE.SLOPE : Int) * 256 / 1000).toNat
     Gives (.deratingReading t) s fun u =>
       u.fld 0x170 R.MX.STAT.PHI = phi ∧ u.sfld 0x170 R.MX.TEMP.T = t ∧ u.light.tempAt = some s.tb ∧
       (phi = 0 → u.fstat 0x170 5 = true)) ∧
   (∀ (s : State) (r : Fin 16) (i : Nat), s.clocked .pwr = true →
     (1500 ≤ i → GivesThen (.shrowg r i) s State.mxSettle fun u =>
       (u.fld 0x170 R.MX.LATCH.ROW).testBit r = true ∧ u.fstat 0x170 1 = true) ∧
     (i < 1500 → exec (.shrowg r i) s = .next s)) ∧
   (∀ s : State, s.clocked .pwr = true →
     (s.locked 0x170 = false → s.mxLatched = true → GivesThen .mxClr s State.mxSettle fun u =>
       u.mxLatched = false ∧ u.code 0x170 = 0) ∧
     (s.locked 0x170 = true ∨ s.mxLatched = false → Refused .mxClr s 0x170)))

/-- A pixel-chain frame starts at its pattern's tick with the front canvas's bits, and shifts for two DIV a bit and LEW ticks
more, until its latch pulse, which sends them, posts event 153 and compares the bits that came back with the frame before; the
second mismatch in a row sets CHAIN. In safe state a frame start completes a swap and shifts nothing. A closed-loop group's
iteration, every INTV ms, asks for a read of the sensor port, the lowest group that waits first: one transaction with its
address and register. Counts are stored and give each duty u + trunc(e * KI / 256), held in 0 to 4095, where e is the target
derated less the count; a read that fails, or is stretched beyond TMO, holds the duties, and two in a row set SENSOR. Where
the rules leave a detail open it states the model's choice: log entries 3, 39. -/
def Obligations.PixelsAndAmbient : Prop :=
  (∀ s : State, s.clocked .io = true →
     (s.bit 0x172 R.PXC.OUT.RUN = true → s.light.pxResync = false → s.light.pxTaken ≠ some s.tb →
       pwmNextStart (s.fld 0x172 R.PXC.PERIOD.P) (s.fld 0x172 R.PXC.PHASE.PH) s.tb ≤ s.tb →
       (s.safe = false → s.bit 0x172 R.PXC.STAT.SHIFT = false → s.light.trig = none → Gives .pxcFrameStart s fun t =>
         t.bit 0x172 R.PXC.STAT.SHIFT = true ∧ t.light.pxCur = s.pxFrame ∧ t.light.pxTaken = some s.tb ∧ t.light.pxStart = s.tb ∧
         t.light.pxEnd = s.tb + s.pxFrame.1 * 2 * s.fld 0x172 R.PXC.CFG.DIV + s.fld 0x172 R.PXC.CFG.LEW) ∧
       (s.safe = true → s.light.trig ≠ none → s.light.pxDone = false → Gives .pxcFrameStart s fun t =>
         t.bit 0x172 R.PXC.STAT.SHIFT = s.bit 0x172 R.PXC.STAT.SHIFT ∧ t.light.pxDone = true ∧
         t.bit 0x173 R.CV.STAT.PXFRONT = !s.bit 0x173 R.CV.STAT.PXFRONT)) ∧
     (∀ di : Nat, s.bit 0x172 R.PXC.STAT.SHIFT = true → s.light.pxBlank = false → s.light.pxEnd ≤ s.tb →
       let bad := s.light.pxCmp = true ∧ ∃ e ∈ s.light.pxPrev, e.1 = s.light.pxCur.1 ∧ di % 2 ^ e.1 ≠ e.2
       Gives (.pxcLatch di) s fun t =>
         t.bit 0x172 R.PXC.STAT.SHIFT = false ∧ t.outbox = s.outbox ++ [.pxc s.light.pxCur.1 s.light.pxCur.2] ∧
         t.light.pxPrev = some s.light.pxCur ∧ (¬ bad → t.light.pxMism = 0) ∧ (bad → t.light.pxMism = s.light.pxMism + 1) ∧
         (bad → 1 ≤ s.light.pxMism → t.fstat 0x172 1 = true) ∧ (∃ p ∈ t.postings, p.ev = 153))) ∧
  (∀ (s : State) (g : Fin 4),
     let addr := s.fld (ambPg g) R.AMB.SENS.ADDR
     let reg := s.fld (ambPg g) R.AMB.SENS.REG
     let bit := if s.bit 0x178 R.LI2C.CFG.FAST then 250 else 1000
     let tmo := s.fld 0x178 R.LI2C.TMO.US
     (s.clocked .io = true → s.enabled 0x178 = true → s.light.i2cWait = [] →
       (s.ambLoops g = true → s.light.i2cBusy = none → (∀ a ∈ (s.ambAt g).iterAt, a + s.fld (ambPg g) R.AMB.LOOP.INTV * 100000 ≤ s.tb) →
         Gives (.ambientLoopIteration g) s fun t => t.light.i2cBusy = some g.val ∧ t.light.i2cWait = [] ∧ t.light.i2cStart = s.tb ∧
           (t.ambAt g).iterAt = some s.tb ∧ t.outbox = s.outbox ++ [.i2c addr reg bit] ∧ t.regs = s.regs) ∧
       (∀ (mr mg mb : BitVec 16) (us : Nat), s.light.i2cBusy = some g.val → s.ambLoops g = true → us ≤ tmo →
         s.light.i2cStart + 81 * bit ≤ s.tb →
         let step := fun (tgt meas u : Nat) =>
           let e : Int := ((tgt * s.fld 0x170 R.MX.STAT.PHI / 256 : Nat) : Int) - meas
           let v := (u : Int) + (e * (s.fld (ambPg g) R.AMB.LOOP.KI : Int)).tdiv 256
           (max 0 (min 4095 v)).toNat
         let next := fun (a : Amb) => match a.uNext with | some e => e.1 | none => a.u
         let old := next (s.ambAt g)
         Gives (.sensorReadComplete g (.counts mr mg mb us)) s fun t =>
           next (t.ambAt g) = (step (s.fld (ambPg g) R.AMB.TGTRG.R) mr.toNat old.1,
             step (s.fld (ambPg g) R.AMB.TGTRG.G) mg.toNat old.2.1, step (s.fld (ambPg g) R.AMB.TGTB.B) mb.toNat old.2.2) ∧
           (t.ambAt g).uNext.isSome = (s.ambAt g).uNext.isSome ∧
           t.fld (ambPg g) R.AMB.MEASRG.R = mr.toNat ∧ t.fld (ambPg g) R.AMB.MEASRG.G = mg.toNat ∧ t.fld (ambPg g) R.AMB.MEASB.B = mb.toNat ∧
           t.bit (ambPg g) R.AMB.STAT.HELD = false ∧ t.light.i2cBusy = none) ∧
       (∀ r : SensorEnd, s.light.i2cBusy = some g.val →
         tmo < (match r with | .counts _ _ _ us => us | .stretched us => us | _ => tmo + 1) → s.light.i2cStart + sensorBits r * bit ≤ s.tb →
         Gives (.sensorReadComplete g r) s fun t =>
           t.bit (ambPg g) R.AMB.STAT.HELD = true ∧ (t.ambAt g).failRun = (s.ambAt g).failRun + 1 ∧ (t.ambAt g).u = (s.ambAt g).u ∧
           (t.ambAt g).clampRun = 0 ∧ t.fld 0x178 R.LI2C.STAT.FAILS = min 0xFFFF (s.fld 0x178 R.LI2C.STAT.FAILS + 1) ∧ t.light.i2cBusy = none ∧
           (1 ≤ (s.ambAt g).failRun → t.fstat (ambPg g) 2 = true))) ∧
     (s.clocked .pwr = true →
       (s.locked (ambPg g) = false → s.bit (ambPg g) R.AMB.STAT.LATCH = true → GivesThen (.ambClr g) s (fun u => u.ambSettle g) fun u =>
         u.bit (ambPg g) R.AMB.STAT.LATCH = false ∧ u.code (ambPg g) = 0) ∧
       (s.locked (ambPg g) = true ∨ s.bit (ambPg g) R.AMB.STAT.LATCH = false → Refused (.ambClr g) s (ambPg g))))

/-- A sample of a running switch input gives its raw value by the ratiometric thresholds, or by the window of its code where it is
analog; the counter rises to TH or falls to 0 and then the state changes, with its CHG bit, and its event where asked. The
first sample sets state and counter. An input that is off takes none. A failed converter makes every analog input of the die
read 0xFFF. The wetting current falls at the end of its hold; in PARK, once in a park period, a result off the reference
counts and two consecutive ones are a wake. Where the rules leave a detail open it states the model's choice: log entries 2,
3, 40. -/
def Obligations.SwitchInputs : Prop :=
  (∀ (s : State) (n : Fin 64) (v vbat : Int) (fail : Bool),
    let k := s.siAt n
    let pg := siPg n
    let ana := decide (s.siCfg n R.SI.CFG.ANA ≠ 0)
    let ref := decide (s.siCfg n R.SI.CFG.REF ≠ 0)
    let th := s.siCfg n R.SI.CFG.TH
    let st := s.siSt n
    let code := if v < 0 then 0 else if 40800 < v then 4080 else (v / 10).toNat
    let raw := if ana then decide (s.siCfg n R.SI.WIN.LO ≤ code) && decide (code ≤ s.siCfg n R.SI.WIN.HI)
      else if 10 * v < 4 * vbat then !ref else if 6 * vbat < 10 * v then ref else k.run && s.siRaw n
    (s.siOn n = false ∨ s.clocked .io = false ∨ s.power = .park → exec (.siSample n v vbat fail) s = .next s) ∧
    (s.siOn n = true → s.clocked .io = true → s.power ≠ .park → s.nextSample (sperTicks (s.siCfg n R.SI.CFG.SPER)) n k.last ≤ s.tb →
      s.siCfg n R.SI.CFG.PARK = 0 → 0 ≤ vbat → -1000 ≤ v → v ≤ vbat + 1000 →
      (ana = true → fail = true → Gives (.siSample n v vbat fail) s fun t =>
        ∀ m, m < 64 → m / 32 = n.val / 32 → s.siOn m = true → s.siCfg m R.SI.CFG.ANA ≠ 0 →
          t.siCfg m R.SI.ADC.CODE = 0xFFF ∧ t.fstat (siPg m) 1 = true) ∧
      (ana = false ∨ fail = false →
        (k.run = false → k.entry = none → Gives (.siSample n v vbat fail) s fun t =>
          (t.siAt n).c = (if raw then th else 0) ∧ t.siSt n = raw ∧ t.siRaw n = raw ∧ t.postings = s.postings) ∧
        (k.run = true →
          let c := if raw then min (k.c + 1) th else k.c - 1
          let turns : Bool := if raw then !st && decide (c = th) else st && decide (c = 0)
          Gives (.siSample n v vbat fail) s fun t =>
            (t.siAt n).c = c ∧ t.siRaw n = raw ∧ t.siSt n = (if turns then raw else st) ∧
            (ana = true → t.siCfg n R.SI.ADC.CODE = code) ∧
            (t.fld pg R.SI.CHG.CHG).testBit (n % 8) = ((s.fld pg R.SI.CHG.CHG).testBit (n % 8) || turns) ∧
            t.postings = s.postings ++
              (if turns && (s.fld pg R.SI.CHG.EVEN).testBit (n % 8) then [s.posting (160 + n.val / 8)] else []))))) ∧
  (∀ (s : State) (n : Fin 64) (d : Nat), (s.siAt n).wetEnd = some d → d ≤ s.tb →
    exec (.wettingHoldEnd n) s = .next (s.setSi n { s.siAt n with wetEnd := none })) ∧
  (∀ (s : State) (n : Fin 64) (v vbat : Int), s.power = .park → s.siCfg n R.SI.CFG.PARK ≠ 0 → 0 ≤ vbat →
    (∀ a, (s.siAt n).parkAt = some a → a + parkPeriod (s.siCfg n R.SI.CFG.PPER) ≤ s.kaNow) →
    let k := s.siAt n
    let ref := decide (s.siCfg n R.SI.CFG.REF ≠ 0)
    let raw := if 10 * v < 4 * vbat then !ref else if 6 * vbat < 10 * v then ref else k.parkRaw
    (raw = k.parkRef → Gives (.parkSample n v vbat) s fun t =>
      (t.siAt n).parkDiff = 0 ∧ (t.siAt n).parkAt = some s.kaNow ∧ t.parkWake = s.parkWake) ∧
    (raw ≠ k.parkRef → k.parkDiff = 0 → Gives (.parkSample n v vbat) s fun t =>
      (t.siAt n).parkDiff = 1 ∧ (t.siAt n).parkAt = some s.kaNow ∧ t.parkWake = s.parkWake) ∧
    (raw ≠ k.parkRef → 0 < k.parkDiff → Gives (.parkSample n v vbat) s fun t =>
      (t.siAt n).parkRef = raw ∧ (t.siAt n).parkDiff = 0 ∧ (t.siAt n).parkAt = some s.kaNow ∧
      (t.fld (siPg n) R.SI.CHG.CHG).testBit (n % 8) = true ∧
      t.parkWake = (if s.parkWake.isNone then some (3, n.val) else s.parkWake)))

/-- The isolated bank: a sample filters its raw value into the state, or into the readback in mode 4; a current limit or a TSD
latches and turns the output off, and CLR clears it; a readback mismatch only reports; a state of the field supply that has
stood for its time is entered with an event; a lost lane reads invalid, and 20 us without a command let the field side act by
itself. Where the rules leave a detail open it states the model's choice: log entries 2, 3, 40. -/
def Obligations.IsolatedBank : Prop :=
  (∀ (s : State) (n : Fin 16) (v : Int),
    let m := s.ioMode n
    let k := s.ioAt n
    let st := s.bit (ioPg n) (ioBit m)
    let th := s.fld (ioPg n) R.IO.CFG.TH
    let on : Int := if m = 1 ∨ m = 4 then 11000 else 9000
    let raw := if on < v then true else if v < on - 2000 then false else k.raw
    let c := if raw then min (k.c + 1) th else k.c - 1
    let turns : Bool := if raw then !st && decide (c = th) else st && decide (c = 0)
    1 ≤ m → m ≤ 4 → s.fieldOk = true → s.clocked .io = true → s.power ≠ .park → k.run = true → k.laneLost = false →
    s.nextSample (if m = 3 then [100000, 500000, 1000000, 2000000].getD (s.fld (ioPg n) R.IO.CFG.PPER) 100000
      else sperTicks (s.fld (ioPg n) R.IO.CFG.SPER)) (64 + n) k.last ≤ s.tb →
    Gives (.ioInputSample n v) s fun t =>
      (t.ioAt n).c = c ∧ (t.ioAt n).raw = raw ∧ t.bit (ioPg n) (ioBit m) = (if turns then raw else st) ∧
      t.postings = s.postings ++ (if turns ∧ m ≠ 4 ∧ (s.fld isoPg R.ISO.EVEN.EN).testBit n then
        [s.posting (if n.val < 8 then 168 else 169)] else [])) ∧
  (∀ (s : State) (n : Fin 16),
    let pg := ioPg n
    let latches := fun (c : Instr) (bit : Nat) => GivesThen c s (fun u => u.ioSettle n) fun u =>
      u.bit pg R.IO.STAT.LATCH = true ∧ u.fstat pg bit = true
    (s.clocked .pwr = true →
      (s.locked pg = false → s.bit pg R.IO.STAT.LATCH = true → GivesThen (.ioClr n) s (fun u => u.ioSettle n) fun u =>
        u.bit pg R.IO.STAT.LATCH = false ∧ u.code pg = 0) ∧
      (s.locked pg = true ∨ s.bit pg R.IO.STAT.LATCH = false → Refused (.ioClr n) s pg) ∧
      (s.ioOutOn n = true → (s.ioAt n).edge + 100000 ≤ s.tb → latches (.ioCurrentLimit n) 3) ∧
      (s.ioMode n = 4 → latches (.ioTsd n) 4) ∧
      (s.bit pg R.IO.STAT.LATCH = true → s.safe = false → s.heldBit (80 + n.val) = false → ((s.ioSettle n).ioAt n).cmd = false) ∧
      (s.ioMode n = 4 → s.fieldOk = true → (s.ioAt n).laneLost = false → s.bit pg R.IO.STAT.RB ≠ (s.ioAt n).cmd →
        (s.ioAt n).edge + 150000 ≤ s.tb → Gives (.readbackMismatch n) s fun t =>
          (t.ioAt n).rbConf = true ∧ t.fstat pg (if (s.ioAt n).cmd then 2 else 1) = true ∧
          t.bit pg R.IO.STAT.LATCH = s.bit pg R.IO.STAT.LATCH ∧ (t.ioAt n).cmd = (s.ioAt n).cmd)) ∧
    (s.ioOutOn n = false ∨ s.clocked .pwr = false → exec (.ioCurrentLimit n) s = .next s) ∧
    (s.ioMode n ≠ 4 ∨ s.clocked .pwr = false → exec (.ioTsd n) s = .next s) ∧
    (s.clocked .pwr = false → exec (.ioClr n) s = .next s ∧ exec (.readbackMismatch n) s = .next s) ∧
    ((s.ioAt n).laneLost = false → Gives (.laneLoss n) s fun t =>
      (t.ioAt n).laneLost = true ∧ t.bit pg R.IO.STAT.VALID = false ∧ (t.ioAt n).quiet = some s.kaNow ∧
      (s.clocked .pwr = true → t.fstat pg 5 = true) ∧ t.bit pg R.IO.STAT.ST = s.bit pg R.IO.STAT.ST) ∧
    (∀ a, (s.ioAt n).quiet = some a → a + 2000 ≤ s.kaNow →
      exec (.fieldCommandTimeout n) s = .next (s.setIo n { s.ioAt n with cmdLost := true })) ∧
    ((s.ioAt n).quiet = none → exec (.fieldCommandTimeout n) s = .next s)) ∧
  (∀ (s : State) (v : Int), s.clocked .pwr = true → s.fld isoPg R.ISO.FS.ST = s.fsDie →
    let old := s.fsDie
    let new := if v < 10000 then 0 else if v < 16000 then 1 else if 34000 < v then 3
      else if 18000 ≤ v ∧ v ≤ 32000 then 2 else old
    (new ≠ old → s.fsAt + (if new = 2 then 1000000 else if new = 3 then 10000 else 100000) ≤ s.kaNow → s.reg isoPg 0x050 = 0 →
      Gives (.fieldSupplyChange v) s fun t =>
      t.fsDie = new ∧ t.fld isoPg R.ISO.FS.ST = new ∧ t.fsAt = s.kaNow ∧ t.postings = s.postings ++ [s.posting 171] ∧
      (new = 0 → t.fstat isoPg 1 = true) ∧ (new = 1 → t.fstat isoPg 2 = true) ∧ (new = 3 → t.fstat isoPg 3 = true) ∧
      (new = 2 → ∀ n, n < 16 → (t.ioAt n).run = false)) ∧
    (new = old → s.fsNew = false → Gives (.fieldSupplyChange v) s fun t => t.fld isoPg R.ISO.FS.ST = old ∧ t.postings = s.postings) ∧
    (s.fsNew = true → old = 0 → v < 10000 → s.fsAt + 100000 ≤ s.kaNow → Gives (.fieldSupplyChange v) s fun t =>
      t.fld isoPg R.ISO.FS.ST = 0 ∧ t.fsNew = false ∧ t.fstat isoPg 1 = true)) ∧
  (∀ (s : State) (v : Int), s.clocked .pwr = false → s.diesWait = false → fieldState v s.fsDie ≠ s.fsDie →
    s.fsAt + fieldDwell (fieldState v s.fsDie) ≤ s.kaNow → Gives (.fieldSupplyChange v) s fun t =>
      t.fsDie = fieldState v s.fsDie ∧ t.fld isoPg R.ISO.FS.ST = s.fld isoPg R.ISO.FS.ST ∧
      (t.fsDie ≠ 2 → ∀ n, n < 16 → t.ioOutOn n = false))

/-- An observed signal sets the condition of every evaluated clause with it as subject: a level, a pulse, or a measured value
against THR with hysteresis; a pulse that has not occurred, or that a former one of its island precedes, sets nothing; a
FOLLOW clause is active while condition and qualifier hold, a timed one becomes active by the edge that SMODE names until its
duration's end. The governing clause has the highest PRI, then the lowest number. A timed clause ends at its end tick, RELEASE
ends an active clause that does not follow, and FIRE triggers an evaluated one without subject and qualifier (one trigger with
the subject's at the same tick), each with its event under TEV; each is refused otherwise, RELEASE also where the duration
ends in the same cycle. A broken clause ends and is out of service. Where the rules leave a detail open it states the model's
choice: log entries 2, 3, 18, 42. -/
def Obligations.Clauses : Prop :=
  ((∀ (s : State) (subj : BitVec 11) (i : Int) (c : Nat) (cond : Bool), s.canonical = true → c < 512 → s.clEval c = true →
     s.clFld c R.CL.SUBJ.SUBJ = subj.toNat →
     let u := subj.toNat
     let k := s.clauseAt c
     let thr := s.sfld (cwPg c) (R.CL.THR.THR (c % 32))
     let r := s.sigReading u i
     let sm := s.clFld c R.CL.SUBJ.SMODE
     let pulse := decide (sigKind u = .pulse)
     let mine := s.clListed.filter fun c => s.clEval c && s.clFld c R.CL.SUBJ.SUBJ = u
     let qual := s.clListed.filter fun c => s.clEval c && s.clFld c R.CL.SUBJ.SUBJ ≠ u && s.clFld c R.CL.ASP.DMODE = 0 &&
       s.clFld c R.CL.QUAL.QEN = 1 && s.clFld c R.CL.QUAL.QSUBJ = u
     (match sigKind u with
       | .level => cond = s.sigLevel u
       | .pulse => cond = true ∧ s.pulseNext u ≠ none
       | .reserved => cond = false
       | .measured => if thr < r then cond = true else if r < thr - (s.clFld c R.CL.THR.HYS : Int) then cond = false
           else k.prev = some cond) →
     (sigKind u = .measured → k.prev ≠ none) → k.took ≠ some (s.tb, true) →
     let edge : Bool := if sm = 0 then cond && k.prev != some true else if sm = 1 then !cond && k.prev != some false
       else if sm = 2 then cond && (pulse || k.prev == some false) else if sm = 3 then !cond && k.prev == some true
       else if sm = 4 then (if pulse then cond else k.prev == some (!cond)) else false
     let gives := fun (P : State → Prop) => GivesThen (.clauseTrigger subj i) s (fun u => u.clSettle (mine ++ qual)) P
     (s.clFld c R.CL.ASP.DMODE = 0 → gives fun t =>
       (t.clauseAt c).active = ((if sm = 1 then !cond else cond) && s.clQual c)) ∧
     (s.clFld c R.CL.ASP.DMODE = 1 → k.active = false → gives fun t =>
       (t.clauseAt c).active = (edge && s.clQual c) ∧
       ((edge && s.clQual c) = true → (t.clauseAt c).endTick = s.tb + s.clFld c R.CL.ASP.DUR * dunit (s.clFld c R.CL.ASP.DUNIT))) ∧
     (s.clFld c R.CL.ASP.DMODE = 2 → k.active = false → gives fun t => (t.clauseAt c).active = (edge && s.clQual c)) ∧
     (gives fun t => (t.clauseAt c).prev = some (if pulse then false else cond))) ∧
   (∀ (s : State) (subj : BitVec 11) (i : Int),
     s.rxRuns = false ∨ (sigKind subj.toNat = .pulse ∧ s.pulseNext subj.toNat = none) →
       exec (.clauseTrigger subj i) s = .next s) ∧
   (∀ (s : State) (objs : List Nat) (c : Nat), s.rxRuns = true → c ∈ s.addressing objs →
     ∃ g, s.govClauseOf objs = some g ∧ g ∈ s.addressing objs ∧ ∀ d ∈ s.addressing objs,
       s.clFld d R.CL.ASP.PRI < s.clFld g R.CL.ASP.PRI ∨ (s.clFld d R.CL.ASP.PRI = s.clFld g R.CL.ASP.PRI ∧ g ≤ d))) ∧
  (∀ (s : State) (c : Fin 512),
     let k := s.clauseAt c
     let dm := s.clFld c R.CL.ASP.DMODE
     let due := k.active = true ∧ dm = 1 ∧ k.endTick ≤ s.tb
     let tev := fun (e : Nat) => if s.clFld c R.CL.ASP.TEV ≠ 0 then [s.posting e] else []
     let ends := fun (i : Instr) (code : Nat → Prop) => GivesThen i s (fun u => u.clSettle [c.val]) fun u =>
       (u.clauseAt c).active = false ∧ u.postings = s.postings ++ tev 49 ∧ code (u.code rxcPg)
     (k.active = true → dm = 1 → s.rxRuns = true → k.endTick ≤ s.tb → ends (.clauseDurationEnd c) fun _ => True) ∧
     (s.rxRuns = true → s.locked rxcPg = false → k.active = true → dm ≠ 0 → ¬due → ends (.release c) (· = 0)) ∧
     (s.rxRuns = true → s.locked rxcPg = true ∨ k.active = false ∨ dm = 0 → ¬due → Refused (.release c) s rxcPg) ∧
     (s.rxRuns = true → due → exec (.release c) s = .next (((s.clEnd c).clSettle [c.val]).refuse rxcPg)) ∧
     (s.rxRuns = false → exec (.release c) s = .next s ∧ exec (.fire c) s = .next s ∧ exec (.clauseBroken c) s = .next s) ∧
     (s.locked rxcPg = false → s.clEval c = true → dm ≠ 0 → k.active = false → k.took = some (s.tb, false) →
       GivesThen (.fire c) s (fun u => u.clSettle [c.val]) fun u =>
         (u.clauseAt c).active = false ∧ u.code rxcPg = 0 ∧ u.postings = s.postings) ∧
     (s.locked rxcPg = false → s.clEval c = true → dm ≠ 0 → k.active = false → k.took ≠ some (s.tb, false) →
       GivesThen (.fire c) s (fun u => u.clSettle [c.val]) fun u =>
         (u.clauseAt c).active = true ∧ u.code rxcPg = 0 ∧
         u.postings = s.postings ++ tev 48 ++ (if s.clFld c R.CL.VERB.VERB = 8 then
           [⟨s.clFld c R.CL.VERB.OBJ, (List.range 16).filter s.coreExists, Island.rx.index⟩] else []) ∧
         (dm = 1 → (u.clauseAt c).endTick = s.tb + s.clFld c R.CL.ASP.DUR * dunit (s.clFld c R.CL.ASP.DUNIT))) ∧
     (s.rxRuns = true → s.locked rxcPg = true ∨ s.clEval c = false ∨ dm = 0 → Refused (.fire c) s rxcPg) ∧
     (k.broken = false → s.rxRuns = true → GivesThen (.clauseBroken c) s (fun u => u.clSettle [c.val]) fun u =>
       (u.clauseAt c).broken = true ∧ (u.clauseAt c).active = false ∧ u.fstat rxcPg 1 = true) ∧
     (s.rxRuns = true → ∀ x : Fin 70, exec (.laneParityError x) s = .next (s.detect rxcPg 2)))

/-- A refresh sends the send value again on every reflex port, or reports that there is none. An accepted frame sets its slot,
with an event where asked, and a change is seen by the clauses that watch it; a slot that hears none for LTMO becomes 0 with
its TO bit and the TIMEOUT bit. Where the rules leave a detail open it states the model's choice: log entries 3, 43. -/
def Obligations.LinkSlots : Prop :=
  ∀ (s : State) (x : Fin 64),
    let k := s.slotAt x
    let val := fun (t : State) => (t.fld rxlPg (if x.val < 32 then R.RXL.VAL_LO.VAL else R.RXL.VAL_HI.VAL)).testBit (x % 32)
    (∀ n : Nat, k.named = some n → s.enabled rxlPg = true → s.fld rxlPg R.RXL.REF.LREF ≠ 0 → s.rxRuns = true →
      max k.txTick (max n s.rxlTick) + s.fld rxlPg R.RXL.REF.LREF * 100 ≤ s.tb → Gives (.linkRefresh x) s fun t =>
        (t.slotAt x).txTick = s.tb ∧ t.outbox = s.outbox ++ s.reflexPorts.map (fun p => Out.reflex p x k.send (s.farHdr 1 (s.fld rxlPg R.RXL.CFG.HOPS))) ∧
        (s.reflexPorts = [] → t.fstat rxlPg 2 = true)) ∧
    (∀ (p : Fin 2) (v : Bool) (src : BitVec 32) (seq hop : BitVec 16), s.lrole p = 1 → s.ethUp p = true → s.slotTaken x = true →
      s.rxRuns = true → src.toNat ≠ s.fld linkPg R.LINK.DEVID.ID → (s.seqTake src.toNat 1 seq.toNat).2 = true →
      val s = k.val → GivesThen (.reflexFrameReceived p x v src seq hop) s
        (fun u => if v = k.val then u else u.clObserve (0x100 + x) false none) fun t =>
        (t.slotAt x).val = v ∧ (t.slotAt x).rxTick = s.tb ∧ (t.slotAt x).out = false ∧ val t = v ∧
        t.postings = s.postings ++ (if v ≠ k.val ∧
          (s.fld rxlPg (if x.val < 32 then R.RXL.EVEN_LO.EN else R.RXL.EVEN_HI.EN)).testBit (x % 32) then [s.posting 50] else [])) ∧
    (∀ (p : Fin 2) (v : Bool) (src : BitVec 32) (seq hop : BitVec 16), s.slotTaken x = false →
      Gives (.reflexFrameReceived p x v src seq hop) s fun t => t.slots = s.slots) ∧
    (s.slotTaken x = true → s.fld rxlPg R.RXL.TMO.LTMO ≠ 0 → k.out = false → s.rxRuns = true →
      k.rxTick + s.fld rxlPg R.RXL.TMO.LTMO * 100 ≤ s.tb → GivesThen (.linkSlotTimeout x) s
        (fun u => ((if k.val then u.clObserve (0x100 + x) false none else u).count rxlPg 2).detect rxlPg 1) fun t =>
        (t.slotAt x).out = true ∧ (t.slotAt x).val = false ∧
        (t.fld rxlPg (if x.val < 32 then R.RXL.TO_LO.TO else R.RXL.TO_HI.TO)).testBit (x % 32) = true)

/-- START takes an OFF or HALTED context to READY at CENTRY with registers, predicates, status and trap registers 0; HALT drains
one that is neither and halts it once no access is outstanding, a wait abandoned; RESUME makes a HALTED one READY with DBL
cleared. Every other state, a draining context and a locked page refuse; while the context named moves under a takeover the
write is held, and without its island's clock it does not arrive. With debug access open a core is halted: it issues nothing,
and where no access is outstanding nothing else changes; a second core is not halted. A write reaches a register of one of its
contexts and is recorded, the 257th not; resume commits every context. Where the rules leave a detail open it states the
model's choice: log entries 2, 14, 27. -/
def Obligations.ContextsAndDebug : Prop :=
  ((∀ (s : State) (w : Writer),
     let k := s.fld lcmPg R.LCM.CSEL.CTX
     let r := s.cx k
     let idle := r.st = .off ∨ r.st = .halted
     let held := fun (n : Word) => Host.Outcome.next { s with lcmHeld := s.lcmHeld ++ [(w, R.LCM.CCMD.OP.off, n)] }
     let empty := (s.opsOf k).all (fun o => !o.slot) = true ∧ r.elem = []
     (s.lcmHolds R.LCM.CCMD.OP.off 0 = true →
       exec (.start w) s = held 1 ∧ exec (.halt w) s = held 2 ∧ exec (.resume w) s = held 3) ∧
     (s.lcmHolds R.LCM.CCMD.OP.off 0 = false →
     (s.clocked (s.islandOf lcmPg) = false →
       exec (.start w) s = .next s ∧ exec (.halt w) s = .next s ∧ exec (.resume w) s = .next s) ∧
     (s.clocked (s.islandOf lcmPg) = true → s.locked lcmPg = true →
       Refused (.start w) s lcmPg ∧ Refused (.halt w) s lcmPg ∧ Refused (.resume w) s lcmPg) ∧
     (s.clocked (s.islandOf lcmPg) = true → s.locked lcmPg = false →
       (r.drain = true → Refused (.start w) s lcmPg ∧ Refused (.halt w) s lcmPg ∧ Refused (.resume w) s lcmPg) ∧
       (r.drain = false → idle → GivesThen (.start w) s (fun u => u.schedule (k / 32)) fun u =>
         u.cx k = { pc := r.centry, centry := r.centry, ctvec := r.ctvec, mig := r.mig, pri := r.pri, st := .ready } ∧
         (u.ctxAt k).com = u.cx k ∧ u.code lcmPg = 0) ∧
       (r.drain = false → ¬ idle → Refused (.start w) s lcmPg) ∧
       (r.drain = false → idle → Refused (.halt w) s lcmPg) ∧
       (r.drain = false → ¬ idle → empty →
         GivesThen (.halt w) s (fun u => (u.schedule (k / 32)).wakeOps (k / 32)) fun u =>
           u.cx k = { r with st := .halted, deadline := none } ∧ (u.ctxAt k).com = u.cx k) ∧
       (r.drain = false → ¬ idle → ¬ empty → GivesThen (.halt w) s (fun u => u.wakeOps (k / 32)) fun u =>
         u.cx k = { r with drain := true, deadline := none, st := if r.st = .waitev ∨ r.st = .waitt then .ready else r.st }) ∧
       (r.drain = false → r.st = .halted → GivesThen (.resume w) s (fun u => u.schedule (k / 32)) fun u =>
         u.cx k = { r with dbl := false, st := .ready } ∧ u.code lcmPg = 0) ∧
       (r.drain = false → r.st ≠ .halted → Refused (.resume w) s lcmPg)))) ∧
   (∀ (s : State) (lc : Fin 16) (i : Fin 32),
     let k := 32 * lc.val + i.val
     let empty := (s.opsOf k).all (fun o => !o.slot) = true ∧ (s.cx k).elem = []
     ((s.cx k).drain = true → empty →
       GivesThen (.drainComplete lc i) s (fun u => u.schedule lc) fun u =>
         u.cx k = { s.cx k with drain := false, st := .halted }) ∧
     ((s.cx k).drain = false ∨ ¬ empty → exec (.drainComplete lc i) s = .next s))) ∧
  (∀ (s : State) (lc : Fin 16),
     (s.debugOpen = false → exec (.debugHalt lc) s = .next s ∧ ∀ t d, exec (.debugWrite lc t d) s = .next s) ∧
     (s.debugOpen = true → s.coreExists lc = true → (∀ n, n < 16 → (s.lcAt n).dbg = false) → Gives (.debugHalt lc) s fun t =>
       (t.lcAt lc).dbg = true ∧ t.issuing lc = none ∧
       (s.ops = [] → t.regs = s.regs ∧ t.mem = s.mem ∧ ∀ k, (t.cx k).g = (s.cx k).g ∧ (t.cx k).pc = (s.cx k).pc)) ∧
     ((∃ n, n < 16 ∧ (s.lcAt n).dbg = true) ∨ s.coreExists lc = false → exec (.debugHalt lc) s = .next s) ∧
     (s.debugOpen = true → (s.lcAt lc).dbg = true → s.splitCore lc = false → ∀ (i : Fin 32) (n : Fin 32) (d : Word),
       let k := 32 * lc.val + i.val
       ((s.lcAt lc).replayBuf.length < 256 → Gives (.debugWrite lc (.reg i (.g n)) d) s fun t =>
         (∀ m, (t.cx k).get m = (if m = n.val ∧ m ≠ 0 then d else (s.cx k).get m)) ∧
         (t.lcAt lc).replayBuf = (s.lcAt lc).replayBuf ++ [(i.val, .g n, d)]) ∧
       ((s.lcAt lc).replayBuf.length < 256 → Gives (.debugWrite lc (.reg i .pc) d) s fun t =>
         (t.cx k).pc = d &&& 0xFFFFFFFC#32 ∧ (t.cx k).g = (s.cx k).g) ∧
       (256 ≤ (s.lcAt lc).replayBuf.length →
         exec (.debugWrite lc (.reg i (.g n)) d) s = .next { s with outbox := s.outbox ++ [.dbgFull lc.val] })) ∧
     ((s.lcAt lc).dbg = true → GivesThen (.debugResume lc) s (fun u => u.wakeOps lc) fun u =>
       (u.lcAt lc).dbg = false ∧ (u.lcAt lc).replayBuf = [] ∧
       ∀ i, i < 32 → (u.ctxAt (32 * lc.val + i)).com = s.cx (32 * lc.val + i) ∧ u.cx (32 * lc.val + i) = s.cx (32 * lc.val + i)) ∧
     ((s.lcAt lc).dbg = false → exec (.debugResume lc) s = .next s))

/-- A mismatch or an invalid comparator code of an active pair rolls its contexts back under a new epoch and starts a takeover by
the first spare; behind another takeover it waits; without a spare its cores stop and source 19 is raised. A completed
takeover maps the core to the spare; a spare with an invalid code gives way. A self-test makes a pair SPARE or FAILED. Where
the rules leave a detail open it states the model's choice: log entries 2, 3, 12, 28. -/
def Obligations.LockStepPairs : Prop :=
  (∀ (s : State) (p : Fin 10),
    let cores := s.coresOf p
    let faults := s.role p = 1 ∧ s.runsSplit p = false ∧ (∀ t ∈ s.takeovers, t.pair ≠ some p.val ∧ t.spare ≠ p.val) ∧
      (∀ t ∈ s.tkWait, t.1 ≠ some p.val)
    let bufs := (∀ n ∈ cores, (s.lcAt n).buf = [])
    let backTo := fun (t : State) (k : Nat) =>
      let b := (s.ctxAt k).com
      t.cx k = { b with st := if b.st = .run then .ready else b.st } ∧ (t.ctxAt k).epoch = ((s.ctxAt k).epoch + 1) % 65536
    let back := fun (t : State) => bufs → ∀ k, k / 32 ∈ cores → backTo t k
    let cases := fun (c : Nat → Word → Instr) (bit : Nat) => ∀ (drop : Nat) (undo : Word),
      (faults → s.takeovers = [] → ∀ q l, s.spares = q :: l → Gives (c drop undo) s fun t =>
        t.takeovers = [⟨some p.val, cores, q, s.tb⟩] ∧ t.fstat (corePg p) bit = true ∧ back t) ∧
      (faults → s.takeovers ≠ [] → Gives (c drop undo) s fun t =>
        t.takeovers = s.takeovers ∧ t.tkWait = s.tkWait ++ [(some p.val, cores)] ∧ back t) ∧
      (faults → s.takeovers = [] → s.spares = [] → Gives (c drop undo) s fun t =>
        t.fstat lcmPg 2 = true ∧ t.role p = (if tget (fun _ => 0) s.retired p < 2 then 3 else 0) ∧
        (∀ n ∈ cores, (t.lcAt n).stopped = true) ∧
        ((∀ n ∈ cores, (s.lcAt n).coll = [] ∧ (s.lcAt n).collNmt = false) → bufs →
          ∀ k, k / 32 ∈ cores → (s.ctxAt k).com.st ≠ .opwait → backTo t k))
    cases (fun d u => .mismatch p d u) 1 ∧ cases (fun d u => .invalidComparatorCode p d u) 2 ∧
    (s.role p ≠ 1 → ∀ d u, exec (.mismatch p d u) s = .next s) ∧
    (∀ a cs t0 d u, s.takeovers = [⟨a, cs, p.val, t0⟩] → Gives (.invalidComparatorCode p d u) s fun t =>
      t.fstat (corePg p) 2 = true ∧ t.role p = (if tget (fun _ => 0) s.retired p < 2 then 3 else 0)) ∧
    (∀ arg : Byte, arg.toNat = p → s.locked fltPg = true ∨ s.role p ≠ 1 ∨ s.spares = [] → Refused (.tkpair arg) s fltPg) ∧
    (∀ arg : Byte, arg.toNat = p → s.locked fltPg = false → faults → s.takeovers = [] → s.pwr.boot ≠ .wake →
      ∀ q l, s.spares = q :: l → Gives (.tkpair arg) s fun t => t.takeovers = [⟨some p.val, cores, q, s.tb⟩] ∧ t.code fltPg = 0) ∧
    (∀ arg : Byte, arg.toNat = p → s.locked fltPg = false → s.role p = 1 → s.spares ≠ [] → s.pwr.boot = .wake →
      Gives (.tkpair arg) s fun t => t.takeovers = s.takeovers ∧ t.tkWait = s.tkWait ++ [(some p.val, cores)]) ∧
    (∀ arg : Byte, 10 ≤ arg.toNat → Refused (.tkpair arg) s fltPg) ∧
    (∀ (pass : Bool) (ms : BitVec 16),
      let good := pass && s.clocked (.cp p)
      (s.role p = 3 → s.power ≠ .park → Gives (.selfTestEnd p pass ms) s fun t =>
        t.role p = (if good then 2 else 0) ∧ t.fld (corePg p) R.CORE.TEST.RES = (if good then 1 else 2) ∧
        t.fld (corePg p) R.CORE.TEST.DUR = ms.toNat ∧ s.posting 17 ∈ t.postings ∧ (good = false → t.fstat (corePg p) 3 = true)) ∧
      (s.role p ≠ 3 ∨ s.power = .park → exec (.selfTestEnd p pass ms) s = .next s) ∧
      (p.val ∈ s.spares → s.clocked (.cp p) = true → s.power = .run → tget (fun _ => 0) s.testAt p + 1000000000 ≤ s.tb → Gives (.spareSelfTest p pass ms) s fun t =>
        t.role p = (if pass then 2 else 0) ∧ t.fld (corePg p) R.CORE.TEST.RES = (if pass then 1 else 2)))) ∧
  (∀ (s : State) (arg : Byte),
    let n := arg.toNat
    (s.locked fltPg = true ∨ s.coreExists n = false ∨ s.pairOfCore n ≠ 15 ∨ s.spares = [] → Refused (.tkcore arg) s fltPg) ∧
    (s.locked fltPg = false → s.coreExists n = true → s.pairOfCore n = 15 → s.takeovers = [] → s.pwr.boot ≠ .wake →
      ∀ q l, s.spares = q :: l → Gives (.tkcore arg) s fun t =>
        t.takeovers = [⟨none, [n % 8, n % 8 + 8].filter s.coreExists, q, s.tb⟩] ∧ t.power ≠ .doze ∧
        ∀ k, k / 32 ∈ [n % 8, n % 8 + 8].filter s.coreExists → (t.ctxAt k).epoch = ((s.ctxAt k).epoch + 1) % 65536)) ∧
  (∀ (s : State) (p q : Fin 10) (n : Fin 8) (t0 : Nat), s.takeovers = [⟨some p.val, [n.val], q, t0⟩] → p ≠ q →
    s.clocked .mem = true → s.tkWait = [] → s.lcmHeld = [] → (s.lcAt n).coll = [] → (s.lcAt n).collNmt = false →
    Gives (.takeoverComplete [] []) s fun t =>
      t.pairOf n = q.val ∧ t.role q = 1 ∧ t.role p = (if tget (fun _ => 0) s.retired p < 2 then 3 else 0) ∧ t.takeovers = [] ∧
      s.posting 16 ∈ t.postings ∧ (t.spares = [] → t.fstat lcmPg 1 = true) ∧ (t.lcAt n).stopped = false)

/-- A scrub read, every GAP cycles: the symbols in error of a word add up over its reads, until it is written; a good word goes
on; up to 3 symbols are corrected, counted and reported, and where the scrubber writes back they are gone; more poison the
word, or decode as a wrong word that is taken for a corrected one (log entry 9). A row with a third corrected read is remapped
to its macro's lowest free spare row, or reported where there is none; a spare of flash that fails its write is marked used;
what waits is appended to the runtime map. Where the rules leave a detail open it states the model's choice: log entries 2, 3,
30. -/
def Obligations.MemoryErrors : Prop :=
  (∀ (s : State) (nsym m w : Nat), s.clocked .mem = true → s.bit mcPg R.MEMC.SSTAT.RUN = true → s.bit mcPg R.MEMC.SCRUB.EN = true →
    s.memc.word = (m, w) → s.scrubSkips m = false → m < 60 → w < macroBytes m / 32 →
    s.scrubDue ≤ s.kaNow → (m = 58 → s.dataBusy = false) →
    let p := place m (32 * w)
    let had := s.symsOf (p / 32)
    let all := min 38 (had + nsym)
    let wrong := 38 < nsym ∧ nsym ≤ 41 ∧ had < 4
    let gives := fun (P : State → Prop) => GivesThen (.scrubRead nsym none) s (fun u => u.scrubAt m (w + 1)) fun u =>
      u.memc.readAt = max (s.memc.readAt + s.fld mcPg R.MEMC.SCRUB.GAP) (s.memNow - 5) ∧ P u
    (s.poisoned p = true → gives fun u => u.fld mcPg R.MEMC.EINFO.KIND = 3 ∧ u.raises = s.raises ∧ u.mem = s.mem) ∧
    (s.poisoned p = false → all = 0 → gives fun u => u.regs = s.regs ∧ u.mem = s.mem ∧ u.poison = s.poison ∧ u.raises = s.raises) ∧
    (s.poisoned p = false → 1 ≤ all → all ≤ 3 → gives fun u =>
      u.fld mcPg R.MEMC.EINFO.KIND = 1 ∧ u.fld mcPg R.MEMC.EINFO.NSYM = all ∧ u.symsOf (p / 32) = (if m ≤ 45 then 0 else all) ∧ u.fstat mcPg 1 = true ∧ u.mem = s.mem ∧
      u.poison = s.poison ∧ u.fld mcPg (R.PG_CNT 0) = min 0xFFFFFFFF (s.fld mcPg (R.PG_CNT 0) + 1)) ∧
    (s.poisoned p = false → wrong → gives fun u =>
      u.fld mcPg R.MEMC.EINFO.KIND = 1 ∧ u.fld mcPg R.MEMC.EINFO.NSYM = nsym - 38 ∧ u.poison = s.poison ∧
      u.symsOf (p / 32) = (if m ≤ 45 then 0 else nsym - 38) ∧ ∀ q, m = 45 ∨ q < p ∨ p + 32 ≤ q → u.byteAt q = s.byteAt q) ∧
    (s.poisoned p = false → ¬ wrong → 3 < all → gives fun u =>
      (isFlash m = false → u.poisoned p = true) ∧ u.fld mcPg R.MEMC.EINFO.KIND = 2 ∧
      u.fstat mcPg (if m = 45 then 8 else if m = 59 then 7 else 2) = true ∧ u.mem = s.mem)) ∧
  (∀ (s : State) (nsym : Nat), s.clocked .mem = false ∨ s.bit mcPg R.MEMC.SSTAT.RUN = false ∨ s.bit mcPg R.MEMC.SCRUB.EN = false →
    exec (.scrubRead nsym none) s = .next s) ∧
  (∀ s : State, s.clocked .mem = true → (∀ t, s.memc.start = some t → t + s.fld mcPg R.MEMC.PER.MS * 100000 ≤ s.tb) →
    Gives .scrubPeriodStart s fun t =>
      t.memc.start = some s.tb ∧ t.memc.rows = s.memc.rows.filter (fun r => decide (3 ≤ r.n) && r.mac != 59) ∧
      (s.bit mcPg R.MEMC.SSTAT.RUN = true → t.fstat mcPg 5 = true)) ∧
  (∀ (s : State) (m : Fin 60) (row : Nat) (ok : Bool) (r : RowCnt),
    s.memc.rows.find? (fun r => r.mac = m.val && r.row = row && r.due) = some r → s.clocked .mem = true → s.macroRuns m = true →
    (isFlash m = true → s.memc.flash = none ∧ s.bit flPg R.FL.STAT.HWOP = false) →
    (∀ k, (List.range 32).find? (fun k => !(s.sparesUsed m).contains k) = some k → isFlash m = false ∨ ok = true →
      Gives (.rowRemap m row ok) s fun t =>
        t.memc.remaps = s.memc.remaps ++ [{ mac := m, row := row, spare := k }] ∧
        t.memc.repairs = s.memc.repairs ++ [.remap { mac := m, row := row, spare := k }] ∧
        t.fstat mcPg 3 = true ∧ s.posting 34 ∈ t.postings) ∧
    (∀ k, (List.range 32).find? (fun k => !(s.sparesUsed m).contains k) = some k → isFlash m = true → ok = false →
      Gives (.rowRemap m row ok) s fun t => t.memc.spent = s.memc.spent ++ [(m.val, k)] ∧ t.memc.remaps = s.memc.remaps) ∧
    ((List.range 32).find? (fun k => !(s.sparesUsed m).contains k) = none → r.told = false → Gives (.rowRemap m row ok) s fun t =>
      t.fstat mcPg 4 = true ∧ t.memc.remaps = s.memc.remaps)) ∧
  (∀ s : State, s.clocked .mem = true → s.memc.flash = none → s.upd.piece = none →
    (∀ (q : Remap) (l : List Repair), s.memc.repairs = .remap q :: l → Gives .repairMapAppend s fun t =>
      t.memc.nv.remaps = s.memc.nv.remaps ++ [q] ∧
      (if s.memc.nv.used.1 < 255 then t.memc.repairs = l ∧ t.memc.nv.used.1 = s.memc.nv.used.1 + 1 ∧ t.memc.nv.sec = s.memc.nv.sec
        else t.memc.nv.sec.1 = !s.memc.nv.sec.1 ∧
          t.memc.nv.used.1 = s.memc.nv.remaps.length + s.memc.nv.pairs.length + s.memc.nv.poison.length + 1)) ∧
    (∀ (p : Nat) (l : List Repair), s.memc.repairs = .pair p :: l → s.memc.nv.used.1 < 255 → Gives .repairMapAppend s fun t =>
      t.memc.nv.pairs = s.memc.nv.pairs ++ [p] ∧ t.memc.repairs = l) ∧
    (∀ (p : Nat) (l : List Repair), s.memc.repairs = .poison p :: l → s.memc.nv.used.1 < 255 → Gives .repairMapAppend s fun t =>
      t.memc.nv.poison = s.memc.nv.poison ++ [p] ∧ t.memc.repairs = l) ∧
    (s.memc.repairs = [] → ∀ q l, s.retouchPend = q :: l → Gives .repairMapAppend s fun t =>
      t.memc.nv.retouch = s.memc.nv.retouch ++ [q] ∧ t.retouchPend = l))

/-- ZERO clears a word of SRAM and its poison; an address elsewhere is out of range. PROG needs an erased word, and both flash
commands a place that firmware may write, no command in progress and, for a bank, no update; at its end a program holds its
eight words, an erased sector reads erased, and event 33 is posted with the result of the verify read. Where the rules leave a
detail open it states the model's choice: log entries 2, 30, 31. -/
def Obligations.FlashCommands : Prop :=
  (∀ (s : State) (w : Writer), s.clocked .mem = false →
    exec (.zero w) s = .next s ∧ exec (.prog w) s = .next s ∧ exec (.erase w) s = .next s) ∧
  (∀ (s : State) (w : Writer), s.clocked .mem = true →
    (s.locked mcPg = true → Refused (.zero w) s mcPg) ∧
    (s.locked mcPg = false → ∀ p, s.placeOf (32 * s.fld mcPg R.MEMC.ZADDR.ADDR) = some p →
      (placeMacro p ≤ 44 → Gives (.zero w) s fun t =>
        (∀ a, t.byteAt a = (if p ≤ a ∧ a < p + 32 then 0#8 else s.byteAt a)) ∧ t.poisoned p = false ∧ t.code mcPg = 0) ∧
      (44 < placeMacro p → exec (.zero w) s = .next (s.range mcPg))) ∧
    (s.locked flPg = true → Refused (.prog w) s flPg ∧ Refused (.erase w) s flPg) ∧
    (s.locked flPg = false →
      (s.flTarget true = none → exec (.prog w) s = .next (s.range flPg)) ∧
      (s.flTarget false = none → exec (.erase w) s = .next (s.range flPg)) ∧
      (∀ p, s.flTarget true = some p → s.bit flPg R.PG_STAT.BUSY = true ∨ s.erased p 32 = false → Refused (.prog w) s flPg) ∧
      (∀ p, s.flTarget false = some p → s.bit flPg R.PG_STAT.BUSY = true → Refused (.erase w) s flPg) ∧
      (s.bit flPg R.PG_STAT.BUSY = false →
        (∀ p, s.flTarget true = some p → s.erased p 32 = true → placeMacro p = 58 ∨ s.fld 0x250 R.UPD.STAT.ST = 0 →
          Gives (.prog w) s fun t => t.bit flPg R.PG_STAT.BUSY = true ∧ t.code flPg = 0 ∧ t.mem = s.mem ∧
            t.memc.flash = some { prog := true, at_ := p, data := (List.range 8).map fun i => s.reg flPg (R.FL.DATA.D i).off }) ∧
        (∀ p, s.flTarget false = some p → placeMacro p = 58 ∨ s.fld 0x250 R.UPD.STAT.ST = 0 →
          Gives (.erase w) s fun t => t.bit flPg R.PG_STAT.BUSY = true ∧ t.code flPg = 0 ∧ t.mem = s.mem ∧
            (t.memc.flash.map (·.at_)) = some p ∧ (t.memc.flash.map (·.prog)) = some false)))) ∧
  (∀ (s : State) (o : FlashOp) (ok : Bool), s.memc.flash = some o → s.clocked .mem = true →
    Gives (.flashCommandEnd ok) s fun t =>
      t.memc.flash = none ∧
      (s.memc.repairs = [] → s.retouchPend = [] → s.cry.ctrs.any (·.2.wr.isSome) = false → s.upd.piece = none →
        t.bit flPg R.PG_STAT.BUSY = false) ∧ t.fld flPg R.FL.STAT.RES = (if ok then 1 else 2) ∧
      s.posting 33 ∈ t.postings ∧ (ok = false → t.fstat flPg 1 = true) ∧
      (o.prog = true → o.data.length = 8 → (∀ a, a < o.at_ ∨ o.at_ + 32 ≤ a → t.byteAt a = s.byteAt a) ∧
        (ok = true → ∀ i j, i < 8 → j < 4 →
          t.byteAt (o.at_ + 4 * i + j) = BitVec.ofNat 8 ((o.data.getD i 0).toNat / 256 ^ j))) ∧
      (o.prog = false →
        let b := sectorBase (sectorOf o.at_)
        ∀ a, (if b ≤ a ∧ a < b + sectorBytes (sectorOf o.at_) then ok = true → t.byteAt a = memDefault a
          else t.byteAt a = s.byteAt a)))

/-- A source that is raised sets its RAISED bit, is counted, logged by its severity, and taken by FIRST from severity 2; one that
was not raised takes its reactions: an interrupt or an NMT to its core, safe state. A source with no cause on its way is not
raised. Where the rules leave a detail open it states the model's choice: log entries 2, 61. -/
def Obligations.SourceReactions : Prop :=
  (∀ (s : State) (l : List (BitVec 8)), (∀ x ∈ l, ∀ c ∈ s.raises, c.src ≠ x.toNat) → exec (.sourceRaise l) s = .next s) ∧
  ∀ (s : State) (x : BitVec 8) (pg : Nat) (rest : List Cause), s.raises = ⟨x.toNat, .page pg⟩ :: rest →
    srcReserved x.toNat = false → x.toNat ≠ 19 → x.toNat ≠ 232 → s.flt.log.length < 64 →
    let c := x.toNat
    let sev := s.scfgFld c R.FLT.SCFG.SEV
    let det : Word := if c ≤ 1 ∨ (233 ≤ c ∧ c ≤ 235) then 0 else BitVec.ofNat 32 (pg * 65536) ||| (s.reg pg 0x048 &&& 0xFFFF)
    let e : LogEnt := ⟨s.tb, c, sev, det⟩
    let taken := fun (t : State) => t.raised c = true ∧ t.raises = rest ∧
      t.flt.log = (if s.fld fltPg R.FLT.CFG.LOGSEV ≤ sev then s.flt.log ++ [e] else s.flt.log) ∧
      t.flt.first = (if 2 ≤ sev ∧ s.flt.first = none then some e else s.flt.first) ∧
      t.fld (0x016 + c / 64) (R.PG_CNT (c % 64)) = min 0xFFFFFFFF (s.fld (0x016 + c / 64) (R.PG_CNT (c % 64)) + 1)
    let on := fun (f : Nat → Fld) => s.scfgFld c f = 1
    let core := s.scfgFld c R.FLT.SCFG.CORE
    (s.raised c = true → Gives (.sourceRaise [x]) s fun t => taken t ∧ t.postings = s.postings ∧ t.nmts = s.nmts) ∧
    let sound := tget (fun _ => (0 : Word)) s.flt.comp c = 0
    (s.raised c = false → sound → ¬ on R.FLT.SCFG.SAFE → ¬ on R.FLT.SCFG.ALIVE → ¬ on R.FLT.SCFG.BRST → ¬ on R.FLT.SCFG.CRST →
      s.pairOfCore core ≠ 15 → Gives (.sourceRaise [x]) s fun t => taken t ∧
        t.postings = s.postings ++ (if on R.FLT.SCFG.INT then [⟨232 + sev, [core], 0⟩] else []) ∧
        t.nmts = s.nmts ++ (if on R.FLT.SCFG.NMT then [core] else [])) ∧
    (s.raised c = false → sound → s.flt.arunAt ≠ some (s.kaNow / 100) → on R.FLT.SCFG.SAFE → ¬ on R.FLT.SCFG.INT → ¬ on R.FLT.SCFG.NMT → ¬ on R.FLT.SCFG.BRST →
      ¬ on R.FLT.SCFG.CRST → s.safe = false →
      GivesThen (.sourceRaise [x]) s (fun u => ((List.range 6).foldl State.linSafe
          ((u.aliveStop.holdClear.hsSafeWindows).settleAll.canSafeEnter)).pxStartBlank) fun u =>
        taken u ∧ u.safe = true ∧ u.fld fltPg R.FLT.SAFEC.CAUSE = 1 ∧ u.fld fltPg R.FLT.SAFEC.SRC = c ∧
        u.postings = s.postings ++ [s.posting 236])

/-- Safe state is entered by ENTER, by SAFEN low and by the self-check, with its cause and event 236; LEAVE leaves it, with event
237, only with SAFEN high, the self-check good and every source that asks for it cleared. RAISED bits clear by a 1, LOGCLR
empties the log, ARUN starts ALIVE, which toggles at each boundary of a half period; the temperature sources are raised at 140
and 150 degrees. Where the rules leave a detail open it states the model's choice: log entries 61, 62. -/
def Obligations.SafeState : Prop :=
  ∀ s : State,
    let entry := fun (u : State) => ((List.range 6).foldl State.linSafe
      ((u.aliveStop.holdClear.hsSafeWindows).settleAll.canSafeEnter)).pxStartBlank
    let enters := fun (u : State) (cause : Nat) => u.safe = true ∧ u.fld fltPg R.FLT.SAFEC.CAUSE = cause ∧ s.posting 236 ∈ u.postings
    (s.locked fltPg = true ∨ s.safe = true → Refused .enter s fltPg) ∧
    (s.locked fltPg = false → s.safe = false → GivesThen .enter s entry fun u => enters u 4 ∧ u.code fltPg = 0) ∧
    (s.power ≠ .park → s.bit fltPg R.FLT.STAT.SAFEN = false → s.safe = false →
      GivesThen .safenLow s (fun u => (entry u).collect [⟨233, .page 0⟩]) fun u =>
        enters u 2 ∧ u.bit fltPg R.FLT.STAT.SAFEN = true) ∧
    (s.power ≠ .park → exec .safenHigh s = .next (s.setBit fltPg R.FLT.STAT.SAFEN false)) ∧
    (s.power = .park → exec .safenLow s = .next s ∧ exec .safenHigh s = .next s) ∧
    (s.locked fltPg = true ∨ s.safe = false ∨ s.bit fltPg R.FLT.STAT.SAFEN = true ∨ s.bit fltPg R.FLT.STAT.SELF = true ∨
      (∃ c, c < 256 ∧ s.raised c = true ∧ s.reactsSafe c = true) → Refused .leave s fltPg) ∧
    (s.locked fltPg = false → s.safe = true → s.bit fltPg R.FLT.STAT.SAFEN = false → s.bit fltPg R.FLT.STAT.SELF = false →
      (∀ c, c < 256 → s.raised c = true → s.reactsSafe c = false) →
      GivesThen .leave s (fun u => ((u.sidesFree.settleAll).canSafeLeave).pxLeaveSafe) fun u =>
        u.safe = false ∧ u.postings = s.postings ++ [s.posting 237] ∧ u.code fltPg = 0) ∧
    (s.bit 0x005 R.PMU.SUP.VLOK = true → s.power ≠ .park →
      (s.locked fltPg = true ∨ s.safe = true ∨ s.bit fltPg R.FLT.STAT.ALIVE = true ∨
        s.flt.stopAt = some (s.kaNow / 100) → Refused .arun s fltPg) ∧
      (s.locked fltPg = false → s.safe = false → s.bit fltPg R.FLT.STAT.ALIVE = false → s.flt.stopAt ≠ some (s.kaNow / 100) → Gives .arun s fun t =>
        t.bit fltPg R.FLT.STAT.ALIVE = true ∧ t.code fltPg = 0)) ∧
    (s.bit 0x005 R.PMU.SUP.VLOK = false ∨ s.power = .park → exec .arun s = .next s) ∧
    (s.aliveDue ≤ s.kaNow → Gives .aliveHalfPeriod s fun t =>
      t.flt.pin = (s.bit fltPg R.FLT.STAT.ALIVE && !s.flt.pin && decide (s.power ≠ .park)) ∧ t.flt.edgeAt = s.aliveDue ∧
      t.regs = s.regs) ∧
    (s.locked fltPg = true → Refused .logclr s fltPg ∧ ∀ j d, Refused (.raisedClear j d) s fltPg) ∧
    (s.locked fltPg = false → Gives .logclr s fun t => t.flt.log = [] ∧ t.flt.first = none ∧ t.code fltPg = 0) ∧
    (s.locked fltPg = false → ∀ (j : Fin 8) (d : Word), Gives (.raisedClear j d) s fun t =>
      ∀ c, c < 256 → t.raised c = (s.raised c && !(decide (c / 32 = j) && d.getLsbD (c % 32)))) ∧
    (∀ (w : Fin 257) (flip : Word), tget (fun _ => (0 : Word)) s.flt.comp w.val ≠ flip → s.sweepDue w ≤ s.kaNow →
      s.flt.bad.contains w.val = false → s.safe = false → s.flt.log.length < 64 →
      GivesThen (.selfCheckDiscrepancy w flip) s entry fun u =>
        enters u 3 ∧ u.bit fltPg R.FLT.STAT.SELF = true ∧ u.raised 232 = true) ∧
    (∀ x : Int, s.flt.tempAt + 10000 ≤ s.kaNow →
      (1400 ≤ x → x < 1500 → s.flt.hot = [] → GivesThen (.dieTempMeasure x) s (fun u => u.collect [⟨0, .page 0⟩]) fun u =>
        u.flt.hot = [0] ∧ u.flt.tempAt = s.kaNow) ∧
      (1500 ≤ x → s.flt.hot = [] → GivesThen (.dieTempMeasure x) s (fun u => u.collect [⟨0, .page 0⟩, ⟨1, .page 0⟩]) fun u =>
        u.flt.hot = [0, 1]) ∧
      (x ≤ 1300 → Gives (.dieTempMeasure x) s fun t => t.flt.hot = [] ∧ t.regs = s.regs))

/-- GO leaves INIT for SYNC, or LISTEN with LOM; STOP returns to INIT, at the end of a frame in progress; AUTOBAUD tries its
candidates round by round: two good frames adopt one, an error or its timeout goes to the next, and the last fails to INIT;
RECOVER or the automatic delay starts the recovery from BUSOFF, which ends ACTIVE with both error counters 0. Each command is
refused in every other state and on a locked page. Where the rules leave a detail open it states the model's choice: log
entries 2, 3, 44, 45. -/
def Obligations.CanStates : Prop :=
  ∀ (s : State) (c : Fin 8),
    let pg := canPg c
    let st := s.canState c
    let lk := s.locked pg
    let ab := s.fld pg R.CAN.STAT.ABIDX
    (s.canRuns = false → ∀ i ∈ [Instr.canGo c, .canStop c, .autobaud c, .autobaudCandidateEnd c true, .autobaudCandidateEnd c false, .recover c,
      .busOffRecoveryStart c, .busOffRecoveryComplete c, .busIntegration c, .busdom c, .txdto (.can c), .transceiverOvertemperature ⟨.can c, true⟩],
      exec i s = .next s) ∧
    exec (.transceiverOvertemperature ⟨.can c, false⟩) s = .next s ∧
    (s.canRuns = true →
    (lk = true ∨ (st ≠ 1 ∧ st ≠ 6) → Refused (.canGo c) s pg) ∧
    (lk = false → st = 1 ∨ st = 6 → Gives (.canGo c) s fun t =>
      t.canState c = (if R.CAN.MODE.LOM.get (s.canMode c) = 1 then 6 else 2) ∧ t.code pg = 0) ∧
    (lk = true ∨ st ≤ 1 → Refused (.canStop c) s pg) ∧
    (lk = false → 1 < st → s.txActive c = none → (s.canAt c).rx = false → Gives (.canStop c) s fun t =>
      t.canState c = (if (s.canAt c).stop = some true ∧ s.enabled pg = false then 0 else 1) ∧ t.code pg = 0) ∧
    (lk = false → 1 < st → s.txActive c ≠ none ∨ (s.canAt c).rx = true → Gives (.canStop c) s fun t =>
      t.canState c = st ∧ (t.canAt c).stop = some (decide ((s.canAt c).stop = some true))) ∧
    (lk = true ∨ st ≠ 1 ∨ s.fld pg R.CAN.AB.NCAND = 0 → Refused (.autobaud c) s pg) ∧
    (lk = false → st = 1 → s.fld pg R.CAN.AB.NCAND ≠ 0 → Gives (.autobaud c) s fun t =>
      t.canState c = 7 ∧ t.fld pg R.CAN.STAT.ABIDX = 0 ∧ (t.canAt c).abRound = 0 ∧ (t.canAt c).abFrames = 0 ∧
      (t.canAt c).abErr = false ∧ (t.canAt c).abStart = s.tb) ∧
    (st = 7 →
      let passes := (s.canAt c).abErr = false ∧ 2 ≤ (s.canAt c).abFrames
      let fails := (s.canAt c).abErr = true ∨
        ((s.canAt c).abFrames < 2 ∧ (s.canAt c).abStart + s.fld pg R.CAN.AB.TMO * 100000 ≤ s.tb)
      (passes → exec (.autobaudCandidateEnd c false) s = .next s ∧ Gives (.autobaudCandidateEnd c true) s fun t =>
        t.canState c = (if s.bit pg R.CAN.AB.GO then 2 else 6) ∧ t.bit pg R.CAN.STAT.TSRC = s.bit pg R.CAN.AB.ADOPT) ∧
      (¬passes → exec (.autobaudCandidateEnd c true) s = .next s) ∧
      (fails → ab + 1 < s.fld pg R.CAN.AB.NCAND → Gives (.autobaudCandidateEnd c false) s fun t =>
        t.fld pg R.CAN.STAT.ABIDX = ab + 1 ∧ t.canState c = 7) ∧
      (fails → s.fld pg R.CAN.AB.NCAND ≤ ab + 1 →
        let n := (s.canAt c).abRound + 1
        let lim := s.fld pg R.CAN.AB.ROUNDS
        (lim = 0 ∨ n < lim → Gives (.autobaudCandidateEnd c false) s fun t =>
          t.fld pg R.CAN.STAT.ABIDX = 0 ∧ t.canState c = 7 ∧ (t.canAt c).abRound = n) ∧
        (lim ≠ 0 → lim ≤ n → Gives (.autobaudCandidateEnd c false) s fun t => t.canState c = 1 ∧ t.fstat pg 6 = true))) ∧
    (lk = true ∨ st ≠ 5 → Refused (.recover c) s pg) ∧
    (lk = false → st = 5 → Gives (.recover c) s fun t => (t.canAt c).boRec = true ∧ t.canState c = 5 ∧ t.code pg = 0) ∧
    (st = 5 → s.bit pg R.CAN.MODE.BOAUTO = true → (s.canAt c).boRec = false →
      (s.canAt c).boTick + s.fld pg R.CAN.RETRY.BODLY * 100000 ≤ s.tb →
      exec (.busOffRecoveryStart c) s = .next (s.setCan c { s.canAt c with boRec := true })) ∧
    (st = 5 → (s.canAt c).boRec = true → Gives (.busOffRecoveryComplete c) s fun t =>
      t.canState c = 3 ∧ t.fld pg R.CAN.ECNT.TEC = 0 ∧ t.fld pg R.CAN.ECNT.REC = 0) ∧
    (st = 2 → (s.canAt c).stop = none → Gives (.busIntegration c) s fun t =>
      t.canState c = (if 127 < s.fld pg R.CAN.ECNT.TEC ∨ 127 < s.fld pg R.CAN.ECNT.REC then 4 else 3)) ∧
    (s.fld pg R.CAN.TRX.MODE = 1 → exec (.txdto (.can c)) s = .next ((s.setCan c { s.canAt c with trxOff := true }).detect pg 10)) ∧
    (s.fld pg R.CAN.TRX.MODE ≠ 1 → exec (.txdto (.can c)) s = .next s) ∧
    (st ≠ 0 → exec (.busdom c) s = .next (s.detect pg 11) ∧
      exec (.transceiverOvertemperature ⟨.can c, true⟩) s = .next ((s.setCan c { s.canAt c with trxOff := true }).detect pg 10)))

/-- REQ makes a slot PENDING at its record, or BADREC; it is refused while the slot is PENDING or ACTIVE, in OFF and for the slot
of the NM block. CANCEL ends a PENDING slot at once and marks an ACTIVE one. At a selection point the slot with the lowest
arbitration key, or the oldest request, becomes ACTIVE. A successful attempt ends DONE, one lost goes back to PENDING, or
FAILED in single shot; an error without an ACK counts. Where the rules leave a detail open it states the model's choice: log
entries 2, 44, 45. -/
def Obligations.CanSlots : Prop :=
  (∀ (s : State) (c : Fin 8) (x : Fin 16), s.nmOn = false →
    let pg := canPg c
    let st := s.txSt c x
    let a := s.fld pg (R.TXS.ADDR.ADDR x) * 4
    let cts := fun (t : State) (v : Nat) => t.txSt c x = v
    (s.canRuns = false → exec (.req c x) s = .next s ∧ exec (.canCancel c x) s = .next s) ∧
    (s.canRuns = true →
    (s.locked pg = true ∨ s.canState c = 0 ∨ st = 1 ∨ st = 2 → Refused (.req c x) s pg) ∧
    (s.locked pg = false → s.canState c ≠ 0 → st ≠ 1 → st ≠ 2 → (s.canAt c).nmDue = [] → s.nmState = 0 → s.sound a 24 = true →
      (s.recOk c a = true → Gives (.req c x) s fun t => cts t 1 ∧ (t.txAt c x).addr = a ∧ (t.txAt c x).seq = (s.canAt c).reqSeq ∧
        t.fld pg (R.TXS.STAT.ATT x) = 0 ∧ t.code pg = 0) ∧
      (s.recOk c a = false → Gives (.req c x) s fun t => cts t 6 ∧ t.fstat pg 8 = true ∧ t.mem = s.mem)) ∧
    (s.locked pg = true ∨ (st ≠ 1 ∧ st ≠ 2) → Refused (.canCancel c x) s pg) ∧
    (s.locked pg = false → st = 1 → (s.canAt c).nmDue = [] → (s.txAt c x).nm = none →
      Gives (.canCancel c x) s fun t => cts t 4) ∧
    (s.locked pg = false → st = 2 → Gives (.canCancel c x) s fun t => cts t 2 ∧ (t.txAt c x).cxl = true))) ∧
  (∀ (s : State) (c : Fin 8), s.canLive c = true → s.txActive c = none → s.nmOn = false →
    (s.canAt c).rx = false → (s.canAt c).stop = none → (s.canAt c).cfgPend = false →
    ((∀ x, x < 16 → s.txSt c x ≠ 1) → Gives (.selectionPoint c) s fun t => t.regs = s.regs) ∧
    ((∃ x, x < 16 ∧ s.txSt c x = 1) → Gives (.selectionPoint c) s fun t => ∃ b, b < 16 ∧ s.txSt c b = 1 ∧ t.txSt c b = 2 ∧
      ∀ x, x < 16 → x ≠ b → t.txSt c x = s.txSt c x ∧ (s.txSt c x = 1 →
        if s.bit (canPg c) R.CAN.MODE.TXPRI then (s.txAt c b).seq ≤ (s.txAt c x).seq
        else arbKey (s.txFrame c b) ≤ arbKey (s.txFrame c x)))) ∧
  (∀ (s : State) (c : Fin 8) (x sof : Nat), s.canRuns = true → s.txActive c = some x → x < 16 → (s.canAt c).stop = none →
    (s.canAt c).cfgPend = false → (s.canAt c).nmDue = [] → (s.txAt c x).cxl = false → (s.txAt c x).nm = none → s.nmOn = false →
    let pg := canPg c
    let shot := s.bit pg R.CAN.RETRY.SSHOT
    let lim := s.fld pg R.CAN.RETRY.RTLIM
    let v := s.txAt c x
    (s.bit pg R.CAN.MODE.SELFRX = false → (s.canAt c).trxOff = false → s.sound v.addr (24 + (s.txFrame c x).data.length) = true → Gives (.canAttemptEnd c .success sof) s fun t =>
      t.txSt c x = 3 ∧ t.outbox = s.outbox ++ [Out.can c (s.txFrame c x)] ∧ t.fld pg R.CAN.ECNT.TEC = s.fld pg R.CAN.ECNT.TEC - 1 ∧
      (t.canAt c).ackless = 0) ∧
    ((s.canAt c).trxOff = true → exec (.canAttemptEnd c .success sof) s = .next s) ∧
    (Gives (.canAttemptEnd c .lost sof) s fun t => t.txSt c x = (if shot then 5 else 1) ∧ t.outbox = s.outbox ∧
      t.fld pg (R.TXS.STAT.ATT x) = min 255 (s.fld pg (R.TXS.STAT.ATT x) + 1) ∧ (t.canAt c).rx = true) ∧
    (∀ code : Fin 7, Gives (.canAttemptEnd c (.error code) sof) s fun t =>
      t.txSt c x = (if shot ∨ (lim ≠ 0 ∧ lim ≤ v.errs + 1) then 5 else 1) ∧ t.outbox = s.outbox ∧
      (t.canAt c).ackless = (s.canAt c).ackless + (if code = 3 then 1 else 0)))

/-- From its SOF on a frame is in progress. One that has passed its arbitration field sends the hits of the early elements to the
clauses, one that has become valid those of the others; the lowest matching element with a destination stores it, and REC
falls. An error raises TEC by 8 in a transmitter, REC by 1 in a receiver, and by 8 more where dominant bits follow; above 127
the controller is PASSIVE, above 255 BUSOFF, and the data phase of an XL frame counts none. A protocol exception integrates
anew. In PARK with WMODE 2 a frame is decoded for a wake. Where the rules leave a detail open it states the model's choice:
log entries 2, 44, 45. -/
def Obligations.CanReception : Prop :=
  (∀ (s : State) (c : Fin 8) (f : CanFrame) (sof : Nat),
    let pg := canPg c
    let v := s.canAt c
    let hit := fun (early : Bool) => ((((List.range 64).filter fun e =>
      s.feMatch c f e && (s.bit pg (R.FE.ACT.EARLY e) == early)).map fun e => 0x200 + 0x40 * c.val + e).filter s.pulseHeard).map fun u =>
        (⟨u, Island.net.index, s.tb⟩ : Pulse)
    (s.canDecodes c = false → s.canHears c = false → ∀ x, exec (.canFrameReceived c f sof x) s = .next s) ∧
    (s.canHears c = true → Gives (.canFrameReceived c f sof .sof) s fun t =>
      (t.canAt c).rx = (v.rx || (s.txActive c).isNone) ∧ t.pulses = s.pulses ∧ t.mem = s.mem) ∧
    (s.canHears c = true → s.canFmt c f.fmt = false → ∀ x, x ≠ .sof → exec (.canFrameReceived c f sof x) s = exec (.protocolException c) s) ∧
    (s.canHears c = true → s.canFmt c f.fmt = true →
      (v.rxPast = false → Gives (.canFrameReceived c f sof .arb) s fun t =>
        t.pulses = s.pulses ++ hit true ∧ (t.canAt c).rx = true ∧ t.bit pg R.CAN.STAT.RXING = true ∧ t.mem = s.mem ∧
        t.postings = s.postings) ∧
      (v.rxPast = true → exec (.canFrameReceived c f sof .arb) s = .next s) ∧
      exec (.canFrameReceived c f sof .bad) s = .next ((s.setCan c { v with abErr := true }).canFrameEnd c) ∧
      (s.safe = false → s.canState c = 3 ∨ s.canState c = 4 → s.fld pg R.CAN.ECNT.TEC ≤ 127 → v.stop = none → v.cfgPend = false →
        (List.range 64).find? (fun e => s.feMatch c f e && s.fld pg (R.FE.ACT.DEST e) != 0) = none →
        s.fld pg R.CAN.MODE.NOMATCH = 0 → s.nmOn = false → s.nm.hold = none →
        let r := s.fld pg R.CAN.ECNT.REC
        Gives (.canFrameReceived c f sof .good) s fun t =>
          t.pulses = s.pulses ++ (if v.rxPast then [] else hit true) ++ hit false ∧
          t.fld pg R.CAN.ECNT.REC = (if 127 < r then 120 else r - 1) ∧ t.canState c = 3 ∧ (t.canAt c).rx = false ∧
          (t.canAt c).abFrames = (if s.tb ≤ v.abStart + s.fld pg R.CAN.AB.TMO * 100000 then v.abFrames + 1 else v.abFrames) ∧ t.mem = s.mem ∧ (t.canAt c).ackless = 0)) ∧
    (s.canDecodes c = true → ∀ n, n = s.fld pg R.WAKE.STAT.FEC →
      exec (.canFrameReceived c f sof .arb) s = .next s ∧
      (f.fmt = 0 → Gives (.canFrameReceived c f sof .good) s fun t => t.fld pg R.WAKE.STAT.FEC = n - 1 ∧
        t.parkWake = (if s.canWakeFrame c f ∧ s.parkWake = none then some (1, c.val) else s.parkWake)) ∧
      (n < 31 → Gives (.canFrameReceived c f sof .bad) s fun t => t.fld pg R.WAKE.STAT.FEC = n + 1 ∧ t.parkWake = s.parkWake) ∧
      (31 ≤ n → Gives (.canFrameReceived c f sof .bad) s fun t => t.fld pg R.WAKE.STAT.FEC = 0 ∧
        t.bit pg R.WAKE.STAT.FECOVF = true ∧ t.fstat pg 12 = true ∧ t.parkWake ≠ none))) ∧
  (∀ (s : State) (c q : Nat) (f : CanFrame) (sof e : Nat) (un : Bool),
    let pg := canPg c
    let n := s.fld pg (R.RXF.CFG.NREC q)
    let put := s.fld pg (R.RXF.IDX.PUT q)
    c < 8 → q < 2 → n < 2 ∨ (put + 1) % n = s.fld pg (R.RXF.IDX.GET q) →
      (s.rxStore c q f sof e un).fstat pg (4 + q) = true ∧ (s.rxStore c q f sof e un).mem = s.mem) ∧
  (∀ (s : State) (c : Fin 8) (code : Fin 7) (dph tx : Bool) (x : CanFlag),
    let pg := canPg c
    let tec := s.fld pg R.CAN.ECNT.TEC
    let r := s.fld pg R.CAN.ECNT.REC
    let quiet := dph = true ∧ s.canXlFrame c = true
    let spared := (code = 3 ∧ s.canState c = 4 ∧ x.dom = false) ∨ (code = 1 ∧ x.arbStuff = true)
    let tec' := if tx then (if spared then tec else tec + 8) + 8 * x.runs else tec
    let r' := if tx then r else min 255 (r + (if x.dom then 9 else 1) + 8 * x.runs)
    let free := (s.canAt c).stop = none ∧ (s.canAt c).cfgPend = false
    (s.canHears c = true → code ≠ 0 → Gives (.canError c code dph tx x) s fun t =>
      t.fld pg R.CAN.LASTERR.CODE = code ∧ t.bit pg R.CAN.LASTERR.DPH = dph) ∧
    (s.canLive c = true → code ≠ 0 → free → quiet → Gives (.canError c code dph tx x) s fun t => (t.canAt c).abErr = true ∧
      t.fld pg R.CAN.ECNT.TEC = tec ∧ t.fld pg R.CAN.ECNT.REC = r ∧ t.canState c = s.canState c) ∧
    (s.canLive c = true → code ≠ 0 → free → ¬ quiet → tec' ≤ 255 → Gives (.canError c code dph tx x) s fun t => (t.canAt c).abErr = true ∧
      t.fld pg R.CAN.ECNT.TEC = tec' ∧ t.fld pg R.CAN.ECNT.REC = r' ∧
      t.canState c = (if 127 < tec' ∨ 127 < r' then 4 else 3)) ∧
    (s.canLive c = true → code ≠ 0 → free → ¬ quiet → 255 < tec' → Gives (.canError c code dph tx x) s fun t =>
      t.canState c = 5 ∧ t.fstat pg 1 = true ∧ (t.canAt c).boTick = s.tb ∧
      (t.canAt c).ackless = (s.canAt c).ackless + if code = 3 ∧ s.txActive c ≠ none then 1 else 0) ∧
    (s.canDecodes c = false → s.canHears c = false → exec (.canError c code dph tx x) s = .next s)) ∧
  (∀ (s : State) (c : Fin 8), s.canHears c = false → exec (.protocolException c) s = .next s) ∧
  (∀ (s : State) (c : Fin 8), s.canHears c = true → (s.canAt c).stop = none → Gives (.protocolException c) s fun t =>
    t.fstat (canPg c) 7 = true ∧
    t.canState c = (if s.canState c = 3 ∨ s.canState c = 4 then 2 else s.canState c))

/-- GO leaves INIT for RUN with the schedule at its start, STOP leaves RUN, at a frame's end where one is in progress, SLEEP marks
the next slot of a master, WAKE drives a pulse; each is refused in every other state. A slot start sends the header of the
slot's identifier with its parity, and sets the next start; a node that does not drive its bus sends nothing. At the time-out
or the heat of its transceiver the transmitter turns off. A slave takes a header after a break of more than 11 bit times, and
goes by its frame table with a sync byte within 15 % of the rate and a right PID; else it is error 6 or 7. At the end of the
PID, on a master too, the entry is read, and a publishing node sends its data. A frame that ends with a bit, framing, checksum
or length error, or that no response follows, marks its error code; a good subscribed response is counted and its frame is
over. Where the rules leave a detail open it states the model's choice: log entries 2, 3, 46, 47. -/
def Obligations.LinControllers : Prop :=
  (∀ (s : State) (l : Fin 6),
     let pg := linPg l
     let st := s.linState l
     let v := s.linAt l
     let lk := s.locked pg
     (s.canRuns = false → ∀ i ∈ [Instr.linGo l, .linStop l, .linSleep l, .linWake l, .linSlotStart l, .txdto (.lin l),
       .transceiverOvertemperature ⟨.lin l, true⟩], exec i s = .next s) ∧
     (s.canRuns = true →
     (lk = true ∨ st ≠ 1 → Refused (.linGo l) s pg) ∧
     (lk = false → st = 1 → Gives (.linGo l) s fun t =>
       t.linState l = 2 ∧ (t.linAt l).next = s.tb ∧ (t.linAt l).pos = 0 ∧ t.fld pg R.LIN.STAT.SCHPOS = 0 ∧ t.code pg = 0) ∧
     (lk = true ∨ st ≠ 2 → Refused (.linStop l) s pg ∧ Refused (.linSleep l) s pg) ∧
     (lk = false → st = 2 → v.frame = none → Gives (.linStop l) s fun t => t.linState l = 1 ∧ t.code pg = 0) ∧
     (lk = false → st = 2 → ∀ f, v.frame = some f → (f.entry ≠ none → f.dir = 0 → s.tb < s.linDue l f) → Gives (.linStop l) s fun t => t.linState l = 2 ∧ (t.linAt l).stopPend = true) ∧
     (s.linMaster l = false → Refused (.linSleep l) s pg) ∧
     (lk = false → st = 2 → s.linMaster l = true → Gives (.linSleep l) s fun t => (t.linAt l).sleepPend = true) ∧
     (lk = true ∨ st = 0 → Refused (.linWake l) s pg) ∧
     (lk = false → st ≠ 0 → s.linTx l = false → exec (.linWake l) s = .next (s.ok pg)) ∧
     (lk = false → st ≠ 0 → s.linTx l = true →
       (v.frame = none → Gives (.linWake l) s fun t => t.outbox = s.outbox ++ [.linWake l (s.fld pg R.LIN.WAKE.US)]) ∧
       (v.frame ≠ none → Gives (.linWake l) s fun t => (t.linAt l).wakePend = true ∧ t.outbox = s.outbox)) ∧
     (st = 2 → s.linMaster l = true → v.frame = none → v.next ≤ s.tb →
       let n := s.fld pg R.LIN.SCHN.N
       let pos := v.pos % n
       let w := s.sramWord (s.fld pg R.LIN.SCHED.ADDR * 4 + 4 * pos)
       let id := w / 65536 % 64
       let on := fun (t : State) => (t.linAt l).next = v.next + max 1 (w % 65536) * 10000 ∧ (t.linAt l).pos = (pos + 1) % n
       s.sound (s.fld pg R.LIN.SCHED.ADDR * 4 + 4 * pos) 4 = true →
       (n ≠ 0 → v.sleepPend = false → id < 62 → s.linSends l = true → Gives (.linSlotStart l) s fun t =>
         t.outbox = s.outbox ++ [.linHeader l (linPid id)] ∧ on t ∧ t.fld pg R.LIN.STAT.LASTID = id ∧
         (t.linAt l).frame = some { id := id, start := s.tb, rate := s.fld pg R.LIN.CFG.BR }) ∧
       (n ≠ 0 → v.sleepPend = false → 62 ≤ id ∨ s.linSends l = false → Gives (.linSlotStart l) s fun t => t.outbox = s.outbox ∧ on t) ∧
       (n ≠ 0 → v.sleepPend = true → s.linSends l = true → Gives (.linSlotStart l) s fun t =>
         t.outbox = s.outbox ++ [.linHeader l (linPid 0x3C)] ∧ (t.linAt l).sleepPend = false ∧
         (t.linAt l).frame = some { id := 0x3C, start := s.tb, rate := s.fld pg R.LIN.CFG.BR, sleep := true })) ∧
     (st ≠ 0 →
       (s.linTx l = true → exec (.txdto (.lin l)) s = .next ((s.linTrxOff l { v with trxOff := some s.tb }).detect pg 8)) ∧
       (s.linTx l = false → exec (.txdto (.lin l)) s = .next s) ∧
       exec (.transceiverOvertemperature ⟨.lin l, true⟩) s = .next ((s.linTrxOff l { v with hot := true }).detect pg 9))) ∧
     Gives (.transceiverOvertemperature ⟨.lin l, false⟩) s fun t => (t.linAt l).hot = false ∧ t.regs = s.regs) ∧
  (∀ (s : State) (l : Fin 6),
     let pg := linPg l
     let v := s.linAt l
     let errs := fun (c : Instr) (code : Nat) => Gives c s fun t =>
       t.fld pg R.LIN.STAT.ERR = code ∧ t.fstat pg code = true
     let word := fun (id : Nat) => s.sramWord (s.linEntry l id)
     let dir := fun (id : Nat) => if linDirOf (word id) = 1 ∧ s.linTx l = false then 0 else linDirOf (word id)
     let sends := fun (id : Nat) =>
       if dir id = 1 then [Out.linResp l (s.sramBytes (s.linEntry l id + 8) (s.linLen l id))] else []
     (s.canRuns = true → s.linState l = 2 → s.linMaster l = false → ∀ h : LinHeader,
       let br := s.fld pg R.LIN.CFG.BR
       let id := h.pid.toNat % 64
       let rateOk := 85 * br ≤ 100 * h.rate ∧ 100 * h.rate ≤ 115 * br ∧ h.rate ≠ 0
       (h.brk * br ≤ 1100000000 → exec (.linHeaderReceived l h) s = .next s) ∧
       (1100000000 < h.brk * br → v.stopPend = false →
         (¬ rateOk → errs (.linHeaderReceived l h) 6) ∧
         (rateOk → h.pid.toNat ≠ linPid id → errs (.linHeaderReceived l h) 7) ∧
         (rateOk → h.pid.toNat = linPid id → id < 62 → s.sound (s.linEntry l id) 16 = true →
           Gives (.linHeaderReceived l h) s fun t =>
             t.fld pg R.LIN.STAT.LASTID = id ∧ t.outbox = s.outbox ++ sends id ∧ (t.linAt l).frame =
               some { id := id, dir := dir id, start := s.tb - h.brk - 21 * 100000000 / h.rate, rate := h.rate,
                      entry := some (word id) }))) ∧
     (s.canRuns = false → (∀ i ∈ [Instr.linResponseTimeout l true, .linFrameEnd l .sent], exec i s = .next s) ∧
       ∀ h, exec (.linHeaderReceived l h) s = .next s) ∧
     (∀ (f : LinFrame) (h : LinHeader), s.canRuns = true → s.linState l = 2 → s.linMaster l = true → v.frame = some f →
       f.entry = none → f.cut = false → h.pid.toNat = linPid f.id → f.start + f.bits 34 ≤ s.tb → s.sound (s.linEntry l f.id) 16 = true →
       (f.sleep = false → Gives (.linHeaderReceived l h) s fun t => t.outbox = s.outbox ++ sends f.id ∧
         (t.linAt l).frame = some { f with entry := some (word f.id), dir := dir f.id }) ∧
       (f.sleep = true → Gives (.linHeaderReceived l h) s fun t =>
         t.outbox = s.outbox ++ [.linResp l (0 :: List.replicate 7 0xFF)] ∧
         (t.linAt l).frame = some { f with entry := some (word f.id), dir := 1 })) ∧
     (∀ (f : LinFrame) (w : Nat), s.canRuns = true → v.frame = some f → f.entry = some w → v.late = none → v.wakePend = false →
       let n := w % 16
       let enh := (w.testBit 29 && f.id ≠ 60 && f.id ≠ 61)
       let due := f.start + (14 * (34 + 10 * (n + 1)) * 10000000 + f.rate - 1) / max 1 f.rate
       errs (.linFrameEnd l .bitErr) 4 ∧ errs (.linFrameEnd l .frameErr) 5 ∧
       (f.dir = 1 → f.cut = false → Gives (.linFrameEnd l .sent) s fun t => (t.linAt l).frame = none ∧
         t.linState l = (if v.stopPend ∨ f.sleep then 1 else s.linState l) ∧
         (w.testBit 28 = true → s.posting (192 + l.val) ∈ t.postings)) ∧
       (f.dir = 2 → ∀ (data : List Byte) (cks : Byte),
         (data.length < n → errs (.linFrameEnd l (.resp data cks)) (if data = [] then 1 else 2)) ∧
         (n ≤ data.length → cks.toNat ≠ linCks (linPid f.id) enh (data.take n) → errs (.linFrameEnd l (.resp data cks)) 3) ∧
         (n ≤ data.length → cks.toNat = linCks (linPid f.id) enh (data.take n) → s.nm.hold = none →
           Gives (.linFrameEnd l (.resp data cks)) s fun t =>
             (t.linAt l).frame = none ∧ t.fld pg (R.PG_CNT 1) = min 0xFFFFFFFF (s.fld pg (R.PG_CNT 1) + 1) ∧
             t.fld pg R.LIN.STAT.ERR = s.fld pg R.LIN.STAT.ERR ∧ (w.testBit 28 = true → s.posting (192 + l.val) ∈ t.postings))) ∧
       (f.dir = 0 → ∀ (data : List Byte) (cks : Byte), Gives (.linFrameEnd l (.resp data cks)) s fun t =>
         (t.linAt l).frame = none ∧ t.mem = s.mem) ∧
       (due ≤ s.tb → ∀ part : Bool,
         (f.dir = 2 → errs (.linResponseTimeout l part) (if part then 2 else 1)) ∧
         (f.dir = 0 → Gives (.linResponseTimeout l part) s fun t => (t.linAt l).frame = none ∧ t.mem = s.mem))))

/-- A link that changes posts event 201, a loss also sets LDOWN. A frame on a port without the link role is switched: its source
learned, queued by its PCP for the learned port, or for every other port of its VLAN, and a port sends its highest queue
first; one without a good FCS is only counted. The host's record is sent and its index moves on. TOPO, Sync and Pdelay leave
on the link ports, each at its interval; the Sync with the fewest steps, on a tie of the lowest port, is the one taken and
relayed; addresses age out. Where the rules leave a detail open it states the model's choice: log entries 2, 3, 48, 49. -/
def Obligations.EthernetLinks : Prop :=
  let still := fun (s : State) => s.eth.queue = [] ∧ s.eth.txWait = none
  (∀ (s : State) (p : Fin 4),
    let pg := ethPg p
    (s.clocked .net = true → s.enabled pg = true → s.reg pg 0x050 = 0 → still s →
      (∀ (m : Bool) (q : Fin 8), s.bit pg R.ETH.STAT.LINK = false → Gives (.ethLinkChange p true m q) s fun t =>
        t.bit pg R.ETH.STAT.LINK = true ∧ t.fld pg R.ETH.STAT.SQI = q.val ∧
        t.bit pg R.ETH.STAT.MASTER = (if p.val = 3 then m else s.bit pg R.ETH.CFG.MS) ∧
        t.postings = s.postings ++ [s.posting 201]) ∧
      (∀ (m : Bool) (q : Fin 8), s.bit pg R.ETH.STAT.LINK = true → Gives (.ethLinkChange p false m q) s fun t =>
        t.bit pg R.ETH.STAT.LINK = false ∧ t.fld pg R.ETH.STAT.SQI = 0 ∧ t.fstat pg 1 = true ∧
        t.postings = s.postings ++ [s.posting 201])) ∧
    (s.ethUp p = true → (∀ q : Fin 8,
        (q.val < 3 → max (tget (fun _ => 0) s.eth.sqiAt p) (tget (fun _ => 0) s.eth.upTick p) + 100000000 ≤ s.tb →
          Gives (.sqiLow p q) s fun t => t.fld pg R.ETH.STAT.SQI = q.val ∧
            (tget (fun _ => false) s.eth.sqiLow p = false → t.fstat pg 2 = true)) ∧
        (3 ≤ q.val → Gives (.sqiLow p q) s fun t =>
          t.fld pg R.ETH.STAT.SQI = q.val ∧ tget (fun _ => 0) t.eth.sqiAt p = s.tb ∧ t.fstat pg 2 = s.fstat pg 2)) ∧
      (∀ (f : EthRx) (d : BitVec 5), exec (.ethFrameReceived p f false d) s = .next (s.count pg 2)) ∧
      (∀ (sfd : BitVec 64) (b : List Byte) (d : BitVec 5), still s → s.lrole p = 0 →
        exec (.ethFrameReceived p (.frame sfd b) true d) s =
          .next (if b.length ≤ 1518 ∧ s.bit eswPg (R.ESW.PORT.FWD p) = true
            then ((s.count pg 0).forward p sfd.toNat d false b).ethPump else s.count pg 0))) ∧
    (s.ethUp p = false → ∀ (f : EthRx) (ok : Bool) (d : BitVec 5) (q : Fin 8),
      exec (.ethFrameReceived p f ok d) s = .next s ∧ exec (.sqiLow p q) s = .next s)) ∧
  (∀ (s : State) (p sfd : Nat) (host : Bool) (b : List Byte), p < 5 →
    let e := ethParse b
    let member := fun q v => (s.fld eswPg (R.ESW.VLAN.MEMBER v)).testBit q && s.bit eswPg (R.ESW.PORT.FWD q) && decide (q ≠ p)
    ((List.range 16).all (fun v => !s.bit eswPg (R.ESW.VLAN.VALID v)) = true → s.forward p sfd 0 host b = s) ∧
    (∀ v tci, v < 16 → e.tag = some tci → tci % 0x1000 = s.fld eswPg (R.ESW.VLAN.VID v) → tci % 0x1000 ≠ 0 →
      s.bit eswPg (R.ESW.VLAN.VALID v) = true →
      (∀ w, w < v → s.bit eswPg (R.ESW.VLAN.VALID w) = false) →
      s.eth.macs.length < 1024 →
      let t := s.forward p sfd 0 host b
      ((∀ q, member q v = false) →
        t.outbox = s.outbox ∧ t.eth.queue = s.eth.queue ∧
        (macGroup e.src = false → ∃ x ∈ t.eth.macs, x.mac = e.src ∧ x.port = p ∧ x.seen = s.tb)) ∧
      (∀ x, macGroup e.dst = false → e.dst ≠ e.src → s.eth.macs.find? (fun y => y.mac = e.dst) = some x → x.port < 4 →
        member x.port v = true → s.ethUp x.port = true →
        t.outbox = s.outbox ∧ t.eth.queue = s.eth.queue ++ [⟨x.port, tci / 0x2000, s.tb, host,
          ethBytes e (if (s.fld eswPg (R.ESW.VLAN.UNTAG v)).testBit x.port then none else some tci)⟩]))) ∧
  (∀ (s : State) (q i sfd pcp : Nat) (d : BitVec 5) (host : Bool) (b : List Byte), q < 4 → s.ethUp q = true →
    (d.getLsbD q = false → (s.egress q i sfd d pcp host b).eth.queue = s.eth.queue ++ [⟨q, pcp, s.tb, host, b⟩]) ∧
    (d.getLsbD q = true → (s.egress q i sfd d pcp host b).eth.queue = s.eth.queue ∧
      (s.egress q i sfd d pcp host b).fstat eswPg 2 = true)) ∧
  (∀ (s : State) (q n : Nat) (l m : List EthQ) (e : EthQ), s.eth.queue = l ++ e :: m → e.port = q →
    (∀ x ∈ l, x.port = q → x.pcp < e.pcp) → (∀ x ∈ m, x.port = q → x.pcp ≤ e.pcp) →
    (tget (fun _ => 0) s.eth.busy q ≤ s.tb → ∃ r, (s.portPump q (n + 1)).outbox = s.outbox ++ Out.eth q e.b :: r) ∧
    (s.tb < tget (fun _ => 0) s.eth.busy q → s.portPump q (n + 1) = s)) ∧
  (∀ (s : State) (d : BitVec 5), s.clocked .net = true → still s → 2 ≤ s.fld ehpPg R.EHP.TXCFG.NREC →
    s.fld ehpPg R.EHP.TXIDX.GET ≠ s.fld ehpPg R.EHP.TXIDX.PUT →
    let n := s.fld ehpPg R.EHP.TXCFG.NREC
    let get := s.fld ehpPg R.EHP.TXIDX.GET
    let a := s.fld ehpPg R.EHP.TXBASE.ADDR * 32 + get * (s.fld ehpPg R.EHP.TXCFG.SZ * 64)
    let w := s.sramWord a
    let len := w % 65536
    (len < 60 ∨ 1518 < len → Gives (.hostTxRecord d) s fun t =>
      t.fld ehpPg R.EHP.TXIDX.GET = (get + 1) % n ∧ t.fstat ehpPg 2 = true ∧ t.outbox = s.outbox) ∧
    (∀ q, q < 4 → 60 ≤ len → len ≤ 1518 → w / 65536 % 32 = 2 ^ q → s.sound a (16 + len) = true → s.ethUp q = true →
      d.getLsbD q = false → tget (fun _ => 0) s.eth.busy q ≤ s.tb → Gives (.hostTxRecord d) s fun t =>
        t.fld ehpPg R.EHP.TXIDX.GET = (get + 1) % n ∧ t.outbox = s.outbox ++ [.eth q (s.sramBytes (a + 16) len)] ∧
        t.eth.txWait = none)) ∧
  (∀ s : State, s.clocked .net = true →
    let hdr := fun (typ : Nat) => FarHdr.mk (s.fld linkPg R.LINK.CFG.FHLIM) (s.fld linkPg R.LINK.DEVID.ID)
      (tget (fun _ => 0) s.eth.seqOut typ)
    let next := fun (typ : Nat) (t : State) =>
      tget (fun _ => 0) t.eth.seqOut typ = (tget (fun _ => 0) s.eth.seqOut typ + 1) % 0x10000
    (s.enabled (ethPg 3) = true → s.bit (ethPg 3) R.ETH.PLCA.EN = true → s.fld (ethPg 3) R.ETH.PLCA.ID ≠ 0 →
      exec .plcaBeaconMissed s = .next (s.detect (ethPg 3) 3)) ∧
    (∀ pd, pd = (if s.eth.pdAt + 100000000 ≤ s.tb then s.linkPorts.map Out.pdelay else []) →
      (s.fld 0x003 R.TB.SYNC.ROLE = 1 → s.eth.syncAt + s.syncInterval ≤ s.tb → Gives .syncSend s fun t =>
        t.outbox = s.outbox ++ s.linkPorts.map (Out.sync · 0) ++ pd ∧ t.eth.syncAt = s.tb) ∧
      (s.fld 0x003 R.TB.SYNC.ROLE ≠ 1 → s.eth.relay = true → Gives .syncSend s fun t =>
        t.outbox = s.outbox ++ (s.linkPorts.filter fun q => s.eth.syncPort ≠ some q).map (Out.sync · s.syncStepsOut) ++ pd ∧
        t.eth.relay = false) ∧
      (s.fld 0x003 R.TB.SYNC.ROLE ≠ 1 → s.eth.relay = false → s.eth.pdAt + 100000000 ≤ s.tb → Gives .syncSend s fun t =>
        t.outbox = s.outbox ++ pd ∧ t.eth.pdAt = s.tb)) ∧
    (∀ m : SyncMsg, s.linkPorts.contains m.port.val = true →
      (∀ q k : Nat, q < 4 → q ≠ m.port.val → s.syncStepsAt q = some k → k < m.steps.toNat ∨ (k = m.steps.toNat ∧ q < m.port.val) →
        (s.syncTake m).2 = false ∧ (s.syncTake m).1.eth.relay = s.eth.relay) ∧
      ((∀ q : Nat, q < 4 → q ≠ m.port.val → s.syncStepsAt q = none ∨
          ∃ k, s.syncStepsAt q = some k ∧ (m.steps.toNat < k ∨ (m.steps.toNat = k ∧ m.port.val < q))) →
        (s.syncTake m).2 = true ∧ (s.syncTake m).1.eth.relay = true ∧ (s.syncTake m).1.eth.syncPort = some m.port.val)) ∧
    (s.eth.topoAt + s.fld linkPg R.LINK.CFG.TOPOI * 100000 ≤ s.tb → Gives .topoSend s fun t =>
      t.outbox = s.outbox ++ s.linkPorts.map (Out.topo · (hdr 6)) ∧ t.eth.topoAt = s.tb ∧ (s.linkPorts ≠ [] → next 6 t)) ∧
    (∀ (typ : Nat) (o : FarHdr → Out), (s.linkPorts = [] → s.farFlood typ o = s) ∧
      (s.linkPorts ≠ [] → (s.farFlood typ o).outbox = s.outbox ++ [o (hdr typ)] ∧ next typ (s.farFlood typ o))) ∧
    (∀ (p : Fin 4) (src : BitVec 32) (hop lat : Nat), s.lrole p = 1 → s.ethUp p = true →
      (src.toNat = s.fld linkPg R.LINK.DEVID.ID → Gives (.topoReceived p src hop lat) s fun t =>
        t.bit linkPg R.LINK.STAT.RING = true ∧ t.eth.ownTrunk = some s.tb) ∧
      (src.toNat ≠ s.fld linkPg R.LINK.DEVID.ID → Gives (.topoReceived p src hop lat) s fun t =>
        (∃ x ∈ t.eth.topo, x.src = src.toNat ∧ x.hop = hop ∧ x.lat = lat + 80 ∧ x.port = p.val) ∧
        (∀ y : TopoSeen, s.eth.topo.contains y = true → s.tb ≤ y.tick + s.topoWindow → y ∈ t.eth.topo) ∧
        min 0xFFFF hop ≤ t.fld linkPg R.LINK.TOPO.MAXHOP ∧ min 0xFFFFFF (lat + 80) ≤ t.fld linkPg R.LINK.PLAT.TICKS))) ∧
  (∀ (s : State) (mac : BitVec 48) (e : MacEntry), s.clocked .net = true → s.eth.macs.find? (fun x => x.mac = mac.toNat) = some e →
    e.seen + s.fld eswPg R.ESW.CFG.AGE * 100000000 ≤ s.tb → Gives (.macAddressAgeing mac) s fun t =>
      t.eth.macs = s.eth.macs.filter fun x => x.mac ≠ mac.toNat)

/-- While AWAKE each period sends a keep-awake frame on every sleep bus. A vote write keeps the device awake; NM_CANCEL and a
local wake end the window, a bus wake in it is latched, and at its end SLEEP is entered. READY-SLEEP of no master falls asleep
by silence or by a sleep frame; a forced one withdraws the vote, and the last of the own frames that has ended begins the
window. The wake hold ends at its tick; a wake without a frame was false. Where the rules leave a detail open it states the
model's choice: log entries 2, 3, 50. -/
def Obligations.NetworkSleep : Prop :=
  ∀ s : State, s.nmOn = true → s.canRuns = true →
    let st := s.nmState
    let state := fun (t : State) (v : Nat) => t.fld nmPg R.NM.STAT.STATE = v
    let window := fun (c : Instr) => GivesThen c s
      (fun u => u.nmSweep) fun u =>
        state u 2 ∧ u.nm.window = s.tb ∧ u.nm.sending = []
    (st = 0 → s.nm.kaTick + s.fld nmPg R.NM.TIME1.KAPER * 100000 ≤ s.tb →
      GivesThen .keepAwakePeriod s
        (fun u => (List.range 8).foldl (fun (t : State) c => if t.sleepCan c then t.nmSend c .keepAwake else t) u) fun u =>
          u = { s with nm := { s.nm with kaTick := s.tb } }) ∧
    (s.locked nmPg = true → ∀ v, Refused (.voteWrite v) s nmPg) ∧
    (s.locked nmPg = false → st ≠ 2 → ∀ v : BitVec 16, GivesThen (.voteWrite v) s (fun u => u.nmEval) fun u =>
      u.fld nmPg R.NM.VOTE.V = v.toNat ∧ u.code nmPg = 0 ∧ state u st) ∧
    (s.nm.vote = true → s.nmVote = false → st = 0 → state s.nmEval 1) ∧ (s.nmVote = true → st = 1 → state s.nmEval 0) ∧
    (st = 1 → s.nmMaster = false ∨ s.safe = true →
      s.nm.lastFrame + s.fld nmPg R.NM.TIME2.SILENT * 100000 ≤ s.tb → window .silenceTimeout) ∧
    (st = 1 → s.nmMaster = true → s.safe = false → s.nm.sending = [] →
      s.nm.lastKa + s.fld nmPg R.NM.TIME1.RSTIME * 100000 ≤ s.tb →
      exec .readySleepTimeout s = .next (s.nmSleepFrames .sleep)) ∧
    (∀ b : NetBus, s.sleepBus b = true →
      (st = 1 → s.nmMaster = false → window (.sleepFrameEnd b false)) ∧ (st ≠ 1 → exec (.sleepFrameEnd b false) s = .next s) ∧
      (st = 1 → s.nm.sending = [busNo b] → s.nm.ended = [busNo b] → window (.sleepFrameEnd b true)) ∧
      (st = 1 ∨ st = 0 → s.nm.sending = [busNo b] → s.nm.ended = [busNo b] → window (.forcedSleepFrameEnd b true)) ∧
      (st = 1 ∨ st = 0 → s.bit nmPg R.NM.STAT.MAXEXP = false → GivesThen (.forcedSleepFrameEnd b false) s
        (fun u => u.nmSweep) fun u =>
          state u 2 ∧ u.bit nmPg R.NM.STAT.MAXEXP = true ∧ u.nm.window = s.tb ∧ s.posting 206 ∈ u.postings)) ∧
    (s.locked nmPg = true ∨ s.windowOpen = false → Refused .nmCancel s nmPg) ∧
    (s.locked nmPg = false → s.windowOpen = true → GivesThen .nmCancel s (fun u => u.nmRewake) fun u =>
      state u 0 ∧ u.fstat nmPg 4 = true ∧ u.bit nmPg R.NM.STAT.WLATCH = false ∧ u.nm.awake = s.tb ∧ u.code nmPg = 0 ∧
      (st = 2 → u.bit nmPg R.NM.STAT.MAXEXP = (s.bit nmPg R.NM.STAT.MAXEXP && !s.nm.forced))) ∧
    (st = 2 → (∀ c : Fin 8, s.canWakeDev (.can c) = true → Gives (.windowBusWake (.can c)) s fun t =>
        t.bit nmPg R.NM.STAT.WLATCH = true ∧ (t.canAt c).wakeLatch = true ∧ state t 2) ∧
      (s.nm.window + 100000 ≤ s.tb → Gives .sleepWindowEnd s fun t => state t 3 ∧ t.windowOpen = true ∧ s.posting 204 ∈ t.postings)) ∧
    (st = 0 → s.fld nmPg R.NM.MAXAW.S ≠ 0 → s.bit nmPg R.NM.STAT.MAXEXP = false → s.nmMaster = false →
      s.nm.awake + s.fld nmPg R.NM.MAXAW.S * 100000000 ≤ s.tb → GivesThen .maximumAwakeExpiry s (fun u => u.nmEval) fun u =>
        u.bit nmPg R.NM.STAT.MAXEXP = true ∧ u.fstat nmPg 3 = true ∧ s.posting 206 ∈ u.postings) ∧
    (∀ d : Nat, s.nm.hold = some (d, none) → d ≤ s.tb → GivesThen .wakeHoldEnd s (fun u => u.nmEval) fun u =>
      u.nm.hold = none ∧ u.bit nmPg R.NM.STAT.WHOLD = false) ∧
    (∀ d k : Nat, s.nm.hold = some (d, some k) → d ≤ s.tb → GivesThen .wakeHoldEnd s (fun u => u.nmEval) fun u =>
      u.nm.hold = none ∧ u.bit nmPg R.NM.STAT.WHOLD = false ∧ u.fstat nmPg 1 = true)

/-- A queue's head job starts: refused with its result code where its descriptor, context or nonce does not allow it; else with
its slots, its key, and a counter value that the context gives out once. It ends with its status; an authenticated decryption
gives out plaintext only under a right tag, a wrong segment poisons its context. The nonce counter's bound rises once it is
stored. Where the rules leave a detail open it states the model's choice: log entries 2, 51, 52. -/
def Obligations.CipherJobs : Prop :=
  (∀ (s : State) (w : Writer) (q : Fin 4) (put : BitVec 10), s.clocked .cry = false → exec (.jobSubmit w q put) s = .next s) ∧
  (∀ (s : State) (q : Fin 4) (ue : Bool), s.cryRuns = false → ∀ i ∈ [Instr.jobStart q, .aesBlockBoundary ue, .inverseCheckMismatch,
    .segmentVerify q, .jobEnd q], exec i s = .next s) ∧
  (∀ (s : State) (w : Writer) (q : Fin 4) (put : BitVec 10), s.clocked .cry = true →
    (s.locked crPg = true → Refused (.jobSubmit w q put) s crPg) ∧
    (s.locked crPg = false → s.fld crPg (R.Q.CFG.NREC q) ≤ put.toNat → exec (.jobSubmit w q put) s = .next (s.range crPg)) ∧
    (s.locked crPg = false → put.toNat < s.fld crPg (R.Q.CFG.NREC q) → Gives (.jobSubmit w q put) s fun t =>
      t.fld crPg (R.Q.IDX.PUT q) = put.toNat ∧ t.code crPg = 0)) ∧
  (∀ (s : State) (q : Fin 4), s.cryRuns = true → s.jobOf q = none → s.fld crPg (R.Q.CFG.NREC q) ≠ 0 →
    s.fld crPg (R.Q.IDX.GET q) ≠ s.fld crPg (R.Q.IDX.PUT q) →
    let a := 32 * s.fld crPg (R.Q.BASE.ADDR q) + 32 * s.fld crPg (R.Q.IDX.GET q)
    let j := s.readDesc a
    s.clean a 28 = true →
    (∀ res, s.jobRefused j = some res → Gives (.jobStart q) s fun t => t.jobOf q = none ∧
      t.fld crPg (R.Q.IDX.GET q) = (s.fld crPg (R.Q.IDX.GET q) + 1) % s.fld crPg (R.Q.CFG.NREC q) ∧
      (j.ien = true → s.posting (208 + q.val) ∈ t.postings) ∧ t.cry.ctrs = s.cry.ctrs) ∧
    (s.jobRefused j = none → j.need ≤ 16 - s.slotsHeld.length → s.slotsHeld.Nodup → (∀ k ∈ s.slotsHeld, k < 16) →
      (∀ p i, p < 4 → s.jobOf p = some i → i.ph ≠ .slotwait) → s.clean j.aadAddr (if 6 ≤ j.prog then j.aadlen else 0) = true →
      (j.takes = false → (j.readsIv = true → s.clean j.parm 16 = true) → Gives (.jobStart q) s fun t => ∃ i, t.jobOf q = some i ∧
        i.ph = .started ∧ i.key = s.cxKey j.ctx ∧ i.slots.length = j.need ∧ (∀ k ∈ i.slots, k ∉ s.slotsHeld) ∧ t.mem = s.mem) ∧
      (∀ p, j.takes = true → (s.ctrOf j.ctx).p = some p → (s.ctrOf j.ctx).c < p + 0x10000 →
        Gives (.jobStart q) s fun t => (∃ i, t.jobOf q = some i ∧ i.ph = .started) ∧
          (t.ctrOf j.ctx).c = (s.ctrOf j.ctx).c + 1 ∧ (t.ctrOf j.ctx).p = some p) ∧
      (∀ p, j.takes = true → (s.ctrOf j.ctx).p = some p → p + 0x10000 ≤ (s.ctrOf j.ctx).c →
        Gives (.jobStart q) s fun t => (∃ i, t.jobOf q = some i ∧ i.ph = .nvwait) ∧ t.mem = s.mem) ∧
      (j.takes = true → (s.ctrOf j.ctx).p = none → (s.ctrOf j.ctx).wr = none → Gives (.jobStart q) s fun t =>
        (∃ i, t.jobOf q = some i ∧ i.ph = .nvwait) ∧ (t.ctrOf j.ctx).wr = some (s.ctrOf j.ctx).c ∧ t.mem = s.mem)) ∧
    (s.jobRefused j = none → 16 < j.need + s.slotsHeld.length → s.slotsHeld.Nodup → (∀ k ∈ s.slotsHeld, k < 16) → 0 < j.need →
      Gives (.jobStart q) s fun t => (∃ i, t.jobOf q = some i ∧ i.ph = .slotwait) ∧ t.mem = s.mem)) ∧
  (∀ (s : State) (q : Fin 4) (j : Job), s.jobOf q = some j →
    let only := fun (t : State) => ∀ p, (∀ i, i < 4 → p ≠ s.placeIn (j.addr + 28 + i)) → t.byteAt p = s.byteAt p
    (s.cry.run = some q.val → s.cryRuns = true → GivesThen (.aesBlockBoundary true) s (fun u => u.jobsRetry.jobChoose) fun u =>
      u.jobOf q = none ∧ u.fstat crPg 6 = true) ∧
    (s.cry.run = some q.val → s.cryRuns = true → j.fin = false → j.pos < j.segBytes →
      s.clean (j.src + j.segk * j.seglen * (if j.seg then 1 else 0) + j.pos) (min 16 (j.segBytes - j.pos)) = true →
      GivesThen (.aesBlockBoundary false) s (fun u => u.jobsRetry.jobChoose) fun u =>
        (∃ i, u.jobOf q = some i ∧ i.pos = j.pos + min 16 (j.segBytes - j.pos)) ∧ (isDec j.prog = true → u.mem = s.mem)) ∧
    (s.cry.run = some q.val → s.cryRuns = true → GivesThen .inverseCheckMismatch s (fun u => u.jobsRetry) fun u =>
      u.jobOf q = none ∧ u.fstat crPg 1 = true ∧ only u) ∧
    (s.cryRuns = true → s.cry.run = some q.val → j.ph = .started → j.seg = true → isDec j.prog = true → j.fin = false →
      j.segBytes ≤ j.pos → s.clean (j.parm + 0x10 + 16 * j.segk) 16 = true →
      (j.tag = s.memBytes (j.parm + 0x10 + 16 * j.segk) 16 → Gives (.segmentVerify q) s fun t =>
        (∃ i, t.jobOf q = some i ∧ i.released = j.released + 1 ∧ i.out = [] ∧ (i.fin = true ∨ i.segk = j.segk + 1)) ∧
        (j.ien = true → s.posting (208 + q.val) ∈ t.postings)) ∧
      (j.tag ≠ s.memBytes (j.parm + 0x10 + 16 * j.segk) 16 → GivesThen (.segmentVerify q) s (fun u => u.jobsRetry) fun u =>
        u.jobOf q = none ∧ u.cxFld j.ctx R.CX.STAT.POISON = 1 ∧ u.fstat crPg 2 = true)) ∧
    (s.cryRuns = true → j.fin = true → isDec j.prog = true → j.seg = false → s.clean (j.parm + 0x10) 16 = true →
      j.tag ≠ s.memBytes (j.parm + 0x10) 16 →
      GivesThen (.jobEnd q) s (fun u => u.jobsRetry) fun u => u.jobOf q = none ∧ only u) ∧
    (s.cryRuns = true → j.fin = true →
      (j.prog = 5 ∨ (isDec j.prog = true ∧ j.seg = false) → s.clean (j.parm + 0x10) 16 = true ∧ j.tag = s.memBytes (j.parm + 0x10) 16) →
      GivesThen (.jobEnd q) s (fun u => u.jobsRetry) fun u =>
        u.jobOf q = none ∧ (j.ien = true → s.posting (208 + q.val) ∈ u.postings))) ∧
  (∀ (s : State) (c : BitVec 8) (v : Nat), (s.ctrOf c.toNat).wr = some v → (s.ctrOf c.toNat).wrDig = none → s.cryClock = true → s.clocked .mem = true →
    s.memc.flash = none → s.upd.piece = none →
    (GivesThen (.noncePersistComplete c true) s (fun u => ((u.nvCheck c.toNat false).mapDone).jobsRetry) fun u =>
      (u.ctrOf c.toNat).p = some v ∧ (u.ctrOf c.toNat).wr = none ∧ (u.ctrOf c.toNat).c = (s.ctrOf c.toNat).c) ∧
    (Gives (.noncePersistComplete c false) s fun t => t.cry.ctrs = s.cry.ctrs ∧ t.fstat crPg 4 = true))

/-- SHA and VERIFY are refused while the unit is busy, else they run and end with their result and event 212: the digest of the
range, or whether the signature verifies. A debug challenge is answered by a right signature, which opens access; the third
wrong one locks it (the hash and the curve are the standards': log entry 26). Where the rules leave a detail open it states
the model's choice: log entries 2, 26, 53. -/
def Obligations.SignatureUnit : Prop :=
  ∀ s : State,
    let busy := s.bit pkPg R.PG_STAT.BUSY = true ∨ s.fld 0x250 R.UPD.STAT.ST = 3
    let accepts := fun (c : Instr) (v : Bool) => Gives c s fun t =>
      t.cry.pk = some v ∧ t.bit pkPg R.PG_STAT.BUSY = true ∧ t.code pkPg = 0
    (s.clocked .cry = false → ∀ w : Writer, exec (.sha w) s = .next s ∧ exec (.verifySignature w) s = .next s) ∧
    (s.cryClock = false → ∀ f r g, exec (.pkCommandEnd f) s = .next s ∧ exec .debugAccessRequest s = .next s ∧
      exec (.debugResponse r g) s = .next s) ∧
    (s.clocked .cry = true → ∀ w : Writer, s.locked pkPg = true ∨ busy → Refused (.sha w) s pkPg ∧ Refused (.verifySignature w) s pkPg) ∧
    (s.clocked .cry = true → ∀ w : Writer, s.locked pkPg = false → ¬ busy → accepts (.sha w) false ∧ accepts (.verifySignature w) true) ∧
    (s.cryClock = true →
      let src := s.fld pkPg R.PK.SRC.ADDR
      let ends := fun (fail : Bool) (res : Nat) => Gives (.pkCommandEnd fail) s fun t =>
        t.fld pkPg R.PK.STAT.RES = res ∧ t.bit pkPg R.PG_STAT.BUSY = false ∧ t.cry.pk = none ∧ t.postings = s.postings ++ [s.posting 212]
      (s.cry.pk = some false → s.sound src (s.fld pkPg R.PK.LEN.N) = true → ∀ fail, Gives (.pkCommandEnd fail) s fun t =>
        t.fld pkPg R.PK.STAT.RES = 1 ∧ t.postings = s.postings ++ [s.posting 212] ∧
        ∀ i, i < 8 → t.fld pkPg (R.PK.DIG.D i) =
          leVal (((sha256 (s.memBytes src (s.fld pkPg R.PK.LEN.N))).drop (4 * i)).take 4)) ∧
      (s.cry.pk = some true → s.sound src 160 = true →
        let m := s.memBytes src 160
        ends true 3 ∧
        (ecdsaVerify (nat32 m 0) (nat32 m 1) (nat32 m 2) (nat32 m 3) (nat32 m 4) = true → ends false 1) ∧
        (ecdsaVerify (nat32 m 0) (nat32 m 1) (nat32 m 2) (nat32 m 3) (nat32 m 4) = false → ends false 2)) ∧
      (let st := s.fld daPg R.DA.STAT.ST
       (st = 2 ∨ st = 3 ∨ s.keyBlank 0x3E00 = true → exec .debugAccessRequest s = .next s) ∧
       (st ≠ 2 → st ≠ 3 → s.keyBlank 0x3E00 = false → Gives .debugAccessRequest s fun t =>
         t.fld daPg R.DA.STAT.ST = 1 ∧ t.cry.attempts = s.cry.attempts + 1 ∧ t.outbox = s.outbox ++ [.challenge t.cry.challenge]) ∧
       (st = 1 → ∀ r g : BitVec 256,
         let k := s.otpBytes 0x3E00 64
         let n := s.fld daPg R.DA.STAT.FAILS + 1
         let good := ecdsaVerify (natOfBytes (sha256 s.cry.challenge)) (nat32 k 0) (nat32 k 1) r.toNat g.toNat
         (good = true → Gives (.debugResponse r g) s fun t => t.fld daPg R.DA.STAT.ST = 2 ∧ t.postings = s.postings ++ [s.posting 214]) ∧
         (good = false → n ≤ 3 → Gives (.debugResponse r g) s fun t => t.fld daPg R.DA.STAT.FAILS = n ∧
           t.fld daPg R.DA.STAT.ST = (if n = 3 then 3 else 0) ∧ t.raises = s.raises ++ [⟨214, .page daPg⟩])) ∧
       (st ≠ 1 → ∀ r g, exec (.debugResponse r g) s = .next s)))

/-- DOZE and RUN change the mode. PARK is entered from SLEEP only: TB stops, the sketches but the clauses' are gone and FIX is
idle; the alarm, a bus or an input wakes, with its source, a lost SRAM, a wake hold and SAFEN evaluated. A power-on reset
keeps flash and OTP alone and samples the straps, as the faults of the supplies of the KA island do; the other supplies reset
the chip. The boot waits for VLOG and the crystal and hands over once, to the image's entry point or to recovery mode. Where
the rules leave a detail open it states the model's choice: log entries 2, 4, 16, 32, 55, 57, 58. -/
def Obligations.PowerModes : Prop :=
  ∀ s : State,
    (s.locked pmuPg = true ∨ s.power ≠ .run → Refused .doze s pmuPg) ∧
    (s.locked pmuPg = false → s.power = .run → Gives .doze s fun t => t.power = .doze ∧ t.fld pmuPg R.PMU.MODE.MODE = 1 ∧ t.code pmuPg = 0) ∧
    (s.locked pmuPg = true ∨ s.power ≠ .doze → Refused .run s pmuPg) ∧
    (s.locked pmuPg = false → s.power = .doze → Gives .run s fun t => t.power = .run ∧ t.fld pmuPg R.PMU.MODE.MODE = 0 ∧ t.code pmuPg = 0) ∧
    (s.bit pmuPg R.PMU.ALMCTL.EN = false → exec .rtcAlarm s = .next s) ∧
    (s.bit pmuPg R.PMU.ALMCTL.EN = true → s.rtcDue ≤ s.kaNow → s.power = .park → s.parkWake = none → Gives .rtcAlarm s fun t =>
      t.parkWake = some (4, 0) ∧ t.bit pmuPg R.PMU.ALMCTL.FIRED = true ∧ t.power = .park) ∧
    (s.bit pmuPg R.PMU.ALMCTL.EN = true → s.rtcDue ≤ s.kaNow → s.power ≠ .park →
      GivesThen .rtcAlarm s (fun u => u.localWake (some (4, 0))) fun u => u.bit pmuPg R.PMU.ALMCTL.FIRED = true) ∧
    (s.pwr.x32ok = true → Gives .x32CrystalFailure s fun t =>
      t.bit 0x004 R.CLK.XSTAT.X32OK = false ∧ t.pwr.x32ok = false ∧ t.raises = s.raises ++ [⟨13, .page 0x004⟩]) ∧
    (s.pwr.x32ok = false → exec .x32CrystalFailure s = .next s) ∧
    (s.power = .park ∨ s.nmState ≠ 3 ∨ s.bit updPg R.PG_STAT.BUSY = true → exec .parkEntry s = .next s) ∧
    (s.power ≠ .park → s.nmState = 3 → s.bit updPg R.PG_STAT.BUSY = false →
      GivesThen .parkEntry s (fun u => u.settleAll.outputsPark) fun u =>
        u.power = .park ∧ u.tbRun = false ∧ (∀ e ∈ u.sketch, 0x040 ≤ e.1 / 0x1000 ∧ e.1 / 0x1000 ≤ 0x050) ∧ u.fixSt = 0 ∧
        u.parkWake = none) ∧
    (s.power ≠ .park → ∀ b r f, exec (.parkWake b r f) s = .next s) ∧
    (s.power = .park → ∀ (src : Nat × Nat) (r : BitVec 48), s.parkWake = some src → src.1 < 8 → src.2 < 64 →
      Gives (.parkWake none r true) s fun t =>
        t.power = .run ∧ t.pwr.boot = .wake ∧ (t.reg rstPg R.RST.CAUSE.C.off).getLsbD 5 = true ∧ t.nmState = 0 ∧
        t.fld nmPg R.NM.WSRC.KIND = src.1 ∧ t.fld nmPg R.NM.WSRC.INDEX = src.2 ∧ t.nm.hold.isSome = true ∧
        t.bit fltPg R.FLT.STAT.SAFEN = false ∧
        s.posting 205 ∈ t.postings ∧ (∀ p, lostMacro (placeMacro p) = true → t.byteAt p = memDefault p) ∧
        (∀ p, lostMacro (placeMacro p) = false → t.byteAt p = s.byteAt p)) ∧
    (s.power = .park → ∀ (b : NetBus) (r : BitVec 48), s.busWakes b = true → Gives (.parkWake (some b) r true) s fun t =>
      t.power = .run ∧ t.pwr.boot = .wake ∧
      (match b with
        | .can c => t.fld nmPg R.NM.WSRC.KIND = 1 ∧ t.fld nmPg R.NM.WSRC.INDEX = c.val
        | .lin l => t.fld nmPg R.NM.WSRC.KIND = 2 ∧ t.fld nmPg R.NM.WSRC.INDEX = l.val)) ∧
    (s.power = .park → ∀ (b : NetBus) (r : BitVec 48), s.busWakes b = true →
      GivesThen (.parkWake (some b) r false) s (fun u => (u.enterSafe 2 0).collect [⟨233, .page 0⟩]) fun u =>
        u.power = .run ∧ u.bit fltPg R.FLT.STAT.SAFEN = true) ∧
    (s.power = .park → s.parkWake = none → ∀ r f, exec (.parkWake none r f) s = .next s) ∧
    (s.power = .park → ∀ b r f, s.busWakes b = false → exec (.parkWake (some b) r f) s = .next s) ∧
    (∀ vl rc : Bool, Gives (.powerOnReset vl rc) s fun t =>
      t.ctxs = State.reset.ctxs ∧ t.power = .run ∧ t.pwr.boot = .por ∧ t.pending = s.pending ∧ t.bankB = s.bankB ∧
      t.bit 0x001 R.SYS.STRAP.VLSEL = vl ∧ t.bit pmuPg R.PMU.SUP.BUCK = !vl ∧ t.bit 0x001 R.SYS.STRAP.RECOV = rc ∧
      (s.memc.flash = none → s.upd.piece = none → s.cry.ctrs.any (·.2.wr.isSome) = false →
        ∀ p, t.byteAt p = (if lostMacro (placeMacro p) then memDefault p else s.byteAt p))) ∧
    (s.pwr.boot = .done ∨ s.power = .park → ∀ b, exec (.boot b) s = .next s) ∧
    (∀ b : BootIn, b.vlog = false → exec (.boot b) s = .next s) ∧
    (s.pwr.boot ≠ .done → s.power ≠ .park → ∀ b : BootIn, b.vlog = true →
      (b.xin = false → Gives (.boot b) s fun t =>
        t.pwr.boot = s.pwr.boot ∧ t.bit pmuPg R.PMU.SUP.VLOK = true ∧ t.bit pmuPg R.PMU.SUP.ISUPOK = true ∧ t.ctxs = s.ctxs) ∧
      (b.xin = true → GivesThen (.boot b) s State.nextTakeover fun u =>
        u.pwr.boot = .done ∧ (s.pwr.recov = true → u.pwr.recovery = true) ∧
        (s.erased (sectorBase 617) 0x2000 = true → s.erased (sectorBase 618) 0x2000 = true → u.pwr.recovery = false →
          (u.cx 0).pc = BitVec.ofNat 32 (((u.imgHdr u.bankB).map (·.entry)).getD 0)))) ∧
    (∀ vl rc : Bool,
      (exec (.supplyFault ⟨.vbat, vl, rc⟩) s = exec (.powerOnReset vl rc) s) ∧
      (exec (.supplyFault ⟨.rail33, vl, rc⟩) s = exec (.powerOnReset vl rc) s) ∧
      (exec (.supplyFault ⟨.island 0, vl, rc⟩) s = exec (.powerOnReset vl rc) s) ∧
      (s.power = .park → exec (.supplyFault ⟨.vlog, vl, rc⟩) s = .next s ∧ exec (.supplyFault ⟨.buck, vl, rc⟩) s = .next s ∧
        ∀ i : Fin 17, i ≠ 0 → exec (.supplyFault ⟨.island i, vl, rc⟩) s = .next s) ∧
      (s.power ≠ .park →
        (GivesThen (.supplyFault ⟨.vlog, vl, rc⟩) s (fun u => u.chipReset 4) fun u =>
          u.bit pmuPg R.PMU.SUP.VLOK = false ∧ u.fstat pmuPg 1 = true) ∧
        (GivesThen (.supplyFault ⟨.buck, vl, rc⟩) s (fun u => u.chipReset 4) fun u =>
          u.bit pmuPg R.PMU.SUP.VLOK = false ∧ u.fstat pmuPg 1 = true ∧ u.fstat pmuPg 3 = true) ∧
        (exec (.supplyFault ⟨.island 15, vl, rc⟩) s = exec (.clockLoss 15) (s.setBit pmuPg R.PMU.SUP.ISUPOK false)) ∧
        (∀ i : Fin 17, i ≠ 0 → i ≠ 15 → GivesThen (.supplyFault ⟨.island i, vl, rc⟩) s (fun u => u.chipReset 4) fun u =>
          u.bit pmuPg R.PMU.SUP.ISUPOK = false ∧ u.fstat pmuPg 2 = true)))

/-- A chip reset sets its cause and starts the cores anew, no fix pending; it needs the key. In PARK RESETN is a wake. Outputs
that hold their commands are given back by RECLAIM bit by bit, or all at once, or take their limp values at the hold's end.
Where the rules leave a detail open it states the model's choice: log entries 31, 56, 63. -/
def Obligations.ChipReset : Prop :=
  ∀ s : State,
    let plain := s.takeovers = [] ∧ (s.safe = true ∨ s.fld rstPg R.RST.HOLD.MS ≠ 0)
    let anew := fun (u : State) (cause : Nat) => u.power = .run ∧ u.pwr.boot = .chip ∧ u.ctxs = bootCtxs ∧ u.ops = [] ∧
      u.sketch = [] ∧ u.fixSt = 0 ∧ u.clauses = [] ∧
      (plain → (u.reg rstPg R.RST.CAUSE.C.off).getLsbD cause = true ∧ u.pending = s.pending)
    let gangless := ∀ n, n < 48 → s.hsLead n = n ∧ s.hsUnit n = [n]
    let reclaims := fun (c : Instr) (held : Nat → Bool) => ∃ (u : State) (os : List Nat), exec c s = .next ((os.foldl State.outSettle u).holdDone) ∧
      u.code rstPg = 0 ∧ ∀ o ∈ heldOutputs, o ≠ 72 → o ≠ 73 → u.heldBit o = held o
    (s.locked rstPg = true → (∀ k, Refused (.chiprst k) s rstPg) ∧ Refused .reclaimall s rstPg ∧ ∀ j d, Refused (.reclaim j d) s rstPg) ∧
    (s.locked rstPg = false → (∀ k, k ≠ 0xA5#8 → exec (.chiprst k) s = .next (s.range rstPg)) ∧ 
      GivesThen (.chiprst 0xA5#8) s (fun u => u.lightReset.settleAll) fun u => anew u 3) ∧
    (s.power ≠ .park → ∀ r rtc f, GivesThen (.chipReset ⟨r, rtc, f⟩) s (fun u => (u.lightReset.settleAll).strapRecov r) fun u => anew u 1) ∧
    (s.power = .park → ∀ r rtc, Gives (.chipReset ⟨r, rtc, true⟩) s fun t =>
      t.power = .run ∧ t.pwr.boot = .wake ∧ (t.reg rstPg R.RST.CAUSE.C.off).getLsbD 1 = true ∧
      (t.reg rstPg R.RST.CAUSE.C.off).getLsbD 5 = true ∧ t.fld nmPg R.NM.WSRC.KIND = 0 ∧ t.pwr.recov = r ∧
      t.bit 0x001 R.SYS.STRAP.RECOV = r) ∧
    (s.locked rstPg = false → gangless → reclaims .reclaimall (fun _ => false) ∧
      ∀ (j : Fin 3) (d : Word), reclaims (.reclaim j d) fun o => s.heldBit o && !(decide (o / 32 = j.val) && d.getLsbD (o % 32))) ∧
    (s.holdRun = false → exec .holdExpiry s = .next s) ∧
    (s.holdRun = true → s.pwr.holdEnd ≤ s.kaNow → GivesThen .holdExpiry s State.settleAll fun u =>
      u.holdRun = false ∧ (heldOutputs.any s.heldBit = true → u.bit rstPg R.RST.HSTAT.EXPIRED = true ∧ u.fstat rstPg 1 = true))

/-- OPEN starts a session or resumes it for its holder with the same digest, and the ROM takes over what firmware held; a piece is
stored, held and counted, or answered with its fault; with all pieces held the session is COMPLETE, VERIFY checks the image,
ACTIVATE starts a trial, CONFIRM and ABANDON end it. Each is refused in the other states, while BUSY, and on a locked page;
recovery requests outside recovery mode do nothing. Where the rules leave a detail open it states the model's choice: log
entries 2, 31, 58, 59. -/
def Obligations.FirmwareUpdate : Prop :=
  (∀ s : State,
    let st := s.updSt
    let src := s.fld updPg R.UPD.SRCID.ID
    let holder := s.fld updPg R.UPD.STAT.HOLDER
    let f := s.fld updPg R.UPD.LEN.F
    let ok := f ≥ 0x140 ∧ f ≤ 0xC00000
    let free := s.clocked .mem = true ∧ s.locked updPg = false ∧ s.bit updPg R.PG_STAT.BUSY = false
    let cmds := [Instr.updOpen none, .piece none, .verify none, .activate none, .confirm, .abandon]
    let a := 4 * s.fld updPg R.UPD.PADDR.ADDR
    let inRam := 0x10000000 ≤ a ∧ a < 0x10600000
    let take := s.upd.pieceTake (s.updSram a 1068) false
    let n := s.fld updPg R.UPD.TRIALS.N
    (s.clocked .mem = false → ∀ i ∈ cmds, exec i s = .next s) ∧
    (s.clocked .mem = true → ¬ free → ∀ i ∈ cmds, Refused i s updPg) ∧
    (s.pwr.recovery = false ∨ s.clocked .mem = false ∨ s.clocked .net = false → ∀ eth, exec (.hello eth) s = .next s ∧ exec (.reset eth) s = .next s ∧
      exec (.verify (some eth)) s = .next s) ∧
    (s.pwr.recovery = true → s.clocked .mem = true → s.clocked .net = true → s.bit updPg R.PG_STAT.BUSY = false → ∀ eth,
      (Gives (.hello eth) s fun t => t.regs = s.regs ∧ t.mem = s.mem ∧ t.outbox.length = s.outbox.length + 1) ∧
      (GivesThen (.reset eth) s (fun u => u.chipReset 3) fun u => u.regs = s.regs ∧ u.outbox.length = s.outbox.length + 1)) ∧
    (free →
      (¬ ok → exec (.updOpen none) s = .next (s.range updPg)) ∧
      (ok → st = 0 → Gives (.updOpen none) s fun t => t.updSt = 1 ∧ t.fld updPg R.UPD.STAT.HOLDER = src ∧
        t.fld updPg R.UPD.RES.RES = 1 ∧ t.upd.held = 0 ∧ t.upd.size = f ∧ t.upd.dig = s.updDigReg ∧ t.code updPg = 0 ∧
        s.posting 224 ∈ t.postings) ∧
      (ok → st ≠ 0 → src ≠ holder → isRom src = false ∨ (isRom holder = true ∧ s.upd.claimed = true) →
        exec (.updOpen none) s = .next ((s.updSay 4).refuse updPg)) ∧
      (ok → st ≠ 0 → src = holder → s.upd.dig ≠ s.updDigReg → exec (.updOpen none) s = .next ((s.updSay 5).refuse updPg)) ∧
      (ok → 1 < st → src = holder → s.upd.dig = s.updDigReg → Refused (.updOpen none) s updPg) ∧
      (ok → st = 1 → src = holder → s.upd.dig = s.updDigReg → Gives (.updOpen none) s fun t =>
        t.updSt = 1 ∧ t.fld updPg R.UPD.RES.RES = 2 ∧ t.upd = { s.upd with claimed := true } ∧ t.code updPg = 0) ∧
      (ok → st ≠ 0 → isRom src = true → isRom holder = false →
        (s.upd.dig = s.updDigReg → Gives (.updOpen none) s fun t =>
          t.updSt = st ∧ t.fld updPg R.UPD.RES.RES = 2 ∧ t.fld updPg R.UPD.STAT.HOLDER = src ∧ t.upd.held = s.upd.held ∧
          t.code updPg = 0) ∧
        (s.upd.dig ≠ s.updDigReg → Gives (.updOpen none) s fun t =>
          t.updSt = 1 ∧ t.fld updPg R.UPD.RES.RES = 1 ∧ t.fld updPg R.UPD.STAT.HOLDER = src ∧ t.upd.held = 0 ∧
          t.upd.dig = s.updDigReg ∧ t.code updPg = 0)) ∧
      (¬ inRam → exec (.piece none) s = .next (s.range updPg)) ∧
      (inRam → s.sound a 1068 = true → st ≠ 0 → src ≠ holder → exec (.piece none) s = .next ((s.updSay 4).refuse updPg)) ∧
      (inRam → s.sound a 1068 = true → st = 0 ∨ (st ≠ 1 ∧ src = holder) → Refused (.piece none) s updPg) ∧
      (inRam → s.sound a 1068 = true → st = 1 → src = holder → take.1 ≠ 1 → Gives (.piece none) s fun t =>
        t.fld updPg R.UPD.RES.RES = take.1 ∧ t.upd = s.upd ∧ t.mem = s.mem ∧ s.posting 224 ∈ t.postings) ∧
      (inRam → s.sound a 1068 = true → st = 1 → src = holder → take.1 = 1 → Gives (.piece none) s fun t =>
        t.bit updPg R.PG_STAT.BUSY = true ∧ t.code updPg = 0 ∧ (t.upd.piece.map (·.1)) = some take.2 ∧ t.upd.held = s.upd.held ∧
        t.updSt = 1 ∧ (s.memc.flash = none → t.bit flPg R.PG_STAT.BUSY = true ∧ t.bit flPg R.FL.STAT.HWOP = true) ∧ t.mem = s.mem) ∧
      (st ≠ 2 → Refused (.verify none) s updPg) ∧
      (st = 2 → Gives (.verify none) s fun t => t.updSt = 3 ∧ t.bit updPg R.PG_STAT.BUSY = true ∧ t.code updPg = 0) ∧
      (st ≠ 4 → Refused (.activate none) s updPg) ∧
      (st = 4 → n = 0 ∨ 15 < n → exec (.activate none) s = .next (s.range updPg)) ∧
      (st = 4 → 1 ≤ n → n ≤ 15 → Gives (.activate none) s fun t =>
        t.updSt = 5 ∧ t.fld updPg R.UPD.STAT.TLEFT = n ∧ t.code updPg = 0 ∧ s.posting 224 ∈ t.postings) ∧
      (st ≠ 6 → Refused .confirm s updPg) ∧
      (st = 6 → (∀ b, s.cfgValid b = true → s.cfgVersion b ≠ s.fld updPg R.UPD.CFV.RUN) →
        exec .confirm s = .next ((s.updSay 12).refuse updPg)) ∧
      (st = 6 → (∃ b, s.cfgValid b = true ∧ s.cfgVersion b = s.fld updPg R.UPD.CFV.RUN) → Gives .confirm s fun t =>
        t.updSt = 0 ∧ t.fld updPg R.UPD.RES.RES = 1 ∧ t.fld updPg R.UPD.STAT.HOLDER = 0 ∧ t.code updPg = 0) ∧
      (st = 0 ∨ st = 3 → Refused .abandon s updPg) ∧
      (st ≠ 0 → st ≠ 3 → Gives .abandon s fun t => t.updSt = 0 ∧ t.upd.held = 0 ∧ t.code updPg = 0))) ∧
  (∀ (s : State) (i : Nat) (data : List Byte), s.upd.piece = some (i, data) → s.memc.flash = none → s.clocked .mem = true →
    s.updSt = 1 → s.upd.next < 255 → Gives .pieceStored s fun t =>
      t.upd.held = s.upd.held ||| 2 ^ i ∧ t.upd.piece = none ∧ t.bit updPg R.PG_STAT.BUSY = false ∧
      (i < s.upd.npc → s.upd.size ≤ 0xC00000 → data.length ≤ 1024 → ∀ k, k < data.length →
        t.byteAt (bankPlace s.inactive (1024 * i) + k) = data.getD k 0) ∧
      t.fld updPg R.UPD.RES.RES = 1 ∧ t.updSt = (if t.upd.count = t.upd.npc then 2 else 1) ∧ s.posting 224 ∈ t.postings) ∧
  (∀ s : State, s.updSt = 3 → s.cry.pk = none → s.clocked .mem = true → s.clocked .cry = true →
    let v := (s.bankRead s.inactive).verifyImage
    (v.1 = 1 → Gives .verifyEnd s fun t => t.updSt = 4 ∧ t.fld updPg R.UPD.RES.RES = 1 ∧ t.bit updPg R.PG_STAT.BUSY = false) ∧
    (v.1 = 11 → Gives .verifyEnd s fun t => t.updSt = 1 ∧ t.fld updPg R.UPD.RES.RES = 11 ∧ t.fld updPg R.UPD.RES.DETAIL = v.2 % 65536 ∧
      t.upd.held = dropHeld s.upd.held v.2 ∧ t.fstat updPg 1 = true) ∧
    (v.1 ≠ 1 → v.1 ≠ 11 → Gives .verifyEnd s fun t => t.updSt = 0 ∧ t.fld updPg R.UPD.RES.RES = v.1 ∧ t.fstat updPg 1 = true))
end

