-- ==== Sys2Proof/Laws/State.lean ====
section
/-! SUPPORT. What each update of the state leaves alone: one lemma per field per update, so that no proof unfolds a record update. -/

namespace Sys2Proof.Machine

/-! ## setReg -/

@[simp] theorem State.setReg_sketch (s : State) (pg off : Nat) (w : Word) : (s.setReg pg off w).sketch = s.sketch := rfl
@[simp] theorem State.setReg_symErr (s : State) (pg off : Nat) (w : Word) : (s.setReg pg off w).symErr = s.symErr := rfl
@[simp] theorem State.setReg_pending (s : State) (pg off : Nat) (w : Word) : (s.setReg pg off w).pending = s.pending := rfl
@[simp] theorem State.setReg_mem (s : State) (pg off : Nat) (w : Word) : (s.setReg pg off w).mem = s.mem := rfl
@[simp] theorem State.setReg_poison (s : State) (pg off : Nat) (w : Word) : (s.setReg pg off w).poison = s.poison := rfl
@[simp] theorem State.setReg_bankB (s : State) (pg off : Nat) (w : Word) : (s.setReg pg off w).bankB = s.bankB := rfl
@[simp] theorem State.setReg_freeCtr (s : State) (pg off : Nat) (w : Word) : (s.setReg pg off w).freeCtr = s.freeCtr := rfl
@[simp] theorem State.setReg_tb (s : State) (pg off : Nat) (w : Word) : (s.setReg pg off w).tb = s.tb := rfl
@[simp] theorem State.setReg_tbRun (s : State) (pg off : Nat) (w : Word) : (s.setReg pg off w).tbRun = s.tbRun := rfl
@[simp] theorem State.setReg_kaLead (s : State) (pg off : Nat) (w : Word) : (s.setReg pg off w).kaLead = s.kaLead := rfl
@[simp] theorem State.setReg_tbStep (s : State) (pg off : Nat) (w : Word) : (s.setReg pg off w).tbStep = s.tbStep := rfl
@[simp] theorem State.setReg_syncGood (s : State) (pg off : Nat) (w : Word) : (s.setReg pg off w).syncGood = s.syncGood := rfl
@[simp] theorem State.setReg_syncTick (s : State) (pg off : Nat) (w : Word) : (s.setReg pg off w).syncTick = s.syncTick := rfl
@[simp] theorem State.setReg_tbcTick (s : State) (pg off : Nat) (w : Word) : (s.setReg pg off w).tbcTick = s.tbcTick := rfl
@[simp] theorem State.setReg_clkDead (s : State) (pg off : Nat) (w : Word) : (s.setReg pg off w).clkDead = s.clkDead := rfl
@[simp] theorem State.setReg_clkLost (s : State) (pg off : Nat) (w : Word) : (s.setReg pg off w).clkLost = s.clkLost := rfl
@[simp] theorem State.setReg_raises (s : State) (pg off : Nat) (w : Word) : (s.setReg pg off w).raises = s.raises := rfl
@[simp] theorem State.setReg_postings (s : State) (pg off : Nat) (w : Word) : (s.setReg pg off w).postings = s.postings := rfl
@[simp] theorem State.setReg_capPend (s : State) (pg off : Nat) (w : Word) : (s.setReg pg off w).capPend = s.capPend := rfl
@[simp] theorem State.setReg_outbox (s : State) (pg off : Nat) (w : Word) : (s.setReg pg off w).outbox = s.outbox := rfl
@[simp] theorem State.setReg_fixScope (s : State) (pg off : Nat) (w : Word) : (s.setReg pg off w).fixScope = s.fixScope := rfl
@[simp] theorem State.setReg_fixStale (s : State) (pg off : Nat) (w : Word) : (s.setReg pg off w).fixStale = s.fixStale := rfl
@[simp] theorem State.setReg_fixMode (s : State) (pg off : Nat) (w : Word) : (s.setReg pg off w).fixMode = s.fixMode := rfl
@[simp] theorem State.setReg_fixTag (s : State) (pg off : Nat) (w : Word) : (s.setReg pg off w).fixTag = s.fixTag := rfl
@[simp] theorem State.setReg_fixBlead (s : State) (pg off : Nat) (w : Word) : (s.setReg pg off w).fixBlead = s.fixBlead := rfl
@[simp] theorem State.setReg_fixBexp (s : State) (pg off : Nat) (w : Word) : (s.setReg pg off w).fixBexp = s.fixBexp := rfl
@[simp] theorem State.setReg_fixTime (s : State) (pg off : Nat) (w : Word) : (s.setReg pg off w).fixTime = s.fixTime := rfl
@[simp] theorem State.setReg_fixBcast (s : State) (pg off : Nat) (w : Word) : (s.setReg pg off w).fixBcast = s.fixBcast := rfl
@[simp] theorem State.setReg_fixCopied (s : State) (pg off : Nat) (w : Word) : (s.setReg pg off w).fixCopied = s.fixCopied := rfl
@[simp] theorem State.setReg_fixReset (s : State) (pg off : Nat) (w : Word) : (s.setReg pg off w).fixReset = s.fixReset := rfl
@[simp] theorem State.setReg_fixResetPgs (s : State) (pg off : Nat) (w : Word) : (s.setReg pg off w).fixResetPgs = s.fixResetPgs := rfl
@[simp] theorem State.setReg_fixSeen (s : State) (pg off : Nat) (w : Word) : (s.setReg pg off w).fixSeen = s.fixSeen := rfl
@[simp] theorem State.setReg_fixInit (s : State) (pg off : Nat) (w : Word) : (s.setReg pg off w).fixInit = s.fixInit := rfl
@[simp] theorem State.setReg_lfHeld (s : State) (pg off : Nat) (w : Word) : (s.setReg pg off w).lfHeld = s.lfHeld := rfl
@[simp] theorem State.setReg_hs (s : State) (pg off : Nat) (w : Word) : (s.setReg pg off w).hs = s.hs := rfl
@[simp] theorem State.setReg_dies (s : State) (pg off : Nat) (w : Word) : (s.setReg pg off w).dies = s.dies := rfl
@[simp] theorem State.setReg_bankTick (s : State) (pg off : Nat) (w : Word) : (s.setReg pg off w).bankTick = s.bankTick := rfl
@[simp] theorem State.setReg_senseAt (s : State) (pg off : Nat) (w : Word) : (s.setReg pg off w).senseAt = s.senseAt := rfl
@[simp] theorem State.setReg_legs (s : State) (pg off : Nat) (w : Word) : (s.setReg pg off w).legs = s.legs := rfl
@[simp] theorem State.setReg_bridges (s : State) (pg off : Nat) (w : Word) : (s.setReg pg off w).bridges = s.bridges := rfl
@[simp] theorem State.setReg_valves (s : State) (pg off : Nat) (w : Word) : (s.setReg pg off w).valves = s.valves := rfl
@[simp] theorem State.setReg_sides (s : State) (pg off : Nat) (w : Word) : (s.setReg pg off w).sides = s.sides := rfl
@[simp] theorem State.setReg_boostTick (s : State) (pg off : Nat) (w : Word) : (s.setReg pg off w).boostTick = s.boostTick := rfl
@[simp] theorem State.setReg_boostTold (s : State) (pg off : Nat) (w : Word) : (s.setReg pg off w).boostTold = s.boostTold := rfl
@[simp] theorem State.setReg_light (s : State) (pg off : Nat) (w : Word) : (s.setReg pg off w).light = s.light := rfl
@[simp] theorem State.setReg_ambs (s : State) (pg off : Nat) (w : Word) : (s.setReg pg off w).ambs = s.ambs := rfl
@[simp] theorem State.setReg_sis (s : State) (pg off : Nat) (w : Word) : (s.setReg pg off w).sis = s.sis := rfl
@[simp] theorem State.setReg_ios (s : State) (pg off : Nat) (w : Word) : (s.setReg pg off w).ios = s.ios := rfl
@[simp] theorem State.setReg_siRef (s : State) (pg off : Nat) (w : Word) : (s.setReg pg off w).siRef = s.siRef := rfl
@[simp] theorem State.setReg_siRefPg (s : State) (pg off : Nat) (w : Word) : (s.setReg pg off w).siRefPg = s.siRefPg := rfl
@[simp] theorem State.setReg_fsDie (s : State) (pg off : Nat) (w : Word) : (s.setReg pg off w).fsDie = s.fsDie := rfl
@[simp] theorem State.setReg_fsNew (s : State) (pg off : Nat) (w : Word) : (s.setReg pg off w).fsNew = s.fsNew := rfl
@[simp] theorem State.setReg_fsAt (s : State) (pg off : Nat) (w : Word) : (s.setReg pg off w).fsAt = s.fsAt := rfl
@[simp] theorem State.setReg_parkWake (s : State) (pg off : Nat) (w : Word) : (s.setReg pg off w).parkWake = s.parkWake := rfl
@[simp] theorem State.setReg_cans (s : State) (pg off : Nat) (w : Word) : (s.setReg pg off w).cans = s.cans := rfl
@[simp] theorem State.setReg_lins (s : State) (pg off : Nat) (w : Word) : (s.setReg pg off w).lins = s.lins := rfl
@[simp] theorem State.setReg_eth (s : State) (pg off : Nat) (w : Word) : (s.setReg pg off w).eth = s.eth := rfl
@[simp] theorem State.setReg_nm (s : State) (pg off : Nat) (w : Word) : (s.setReg pg off w).nm = s.nm := rfl
@[simp] theorem State.setReg_pulses (s : State) (pg off : Nat) (w : Word) : (s.setReg pg off w).pulses = s.pulses := rfl
@[simp] theorem State.setReg_clauses (s : State) (pg off : Nat) (w : Word) : (s.setReg pg off w).clauses = s.clauses := rfl
@[simp] theorem State.setReg_slots (s : State) (pg off : Nat) (w : Word) : (s.setReg pg off w).slots = s.slots := rfl
@[simp] theorem State.setReg_rxlTick (s : State) (pg off : Nat) (w : Word) : (s.setReg pg off w).rxlTick = s.rxlTick := rfl
@[simp] theorem State.setReg_retouchPend (s : State) (pg off : Nat) (w : Word) : (s.setReg pg off w).retouchPend = s.retouchPend := rfl
@[simp] theorem State.setReg_lcMap (s : State) (pg off : Nat) (w : Word) : (s.setReg pg off w).lcMap = s.lcMap := rfl
@[simp] theorem State.setReg_ctxs (s : State) (pg off : Nat) (w : Word) : (s.setReg pg off w).ctxs = s.ctxs := rfl
@[simp] theorem State.setReg_lcores (s : State) (pg off : Nat) (w : Word) : (s.setReg pg off w).lcores = s.lcores := rfl
@[simp] theorem State.setReg_icache (s : State) (pg off : Nat) (w : Word) : (s.setReg pg off w).icache = s.icache := rfl
@[simp] theorem State.setReg_icBad (s : State) (pg off : Nat) (w : Word) : (s.setReg pg off w).icBad = s.icBad := rfl
@[simp] theorem State.setReg_testAt (s : State) (pg off : Nat) (w : Word) : (s.setReg pg off w).testAt = s.testAt := rfl
@[simp] theorem State.setReg_nmts (s : State) (pg off : Nat) (w : Word) : (s.setReg pg off w).nmts = s.nmts := rfl
@[simp] theorem State.setReg_ops (s : State) (pg off : Nat) (w : Word) : (s.setReg pg off w).ops = s.ops := rfl
@[simp] theorem State.setReg_opNext (s : State) (pg off : Nat) (w : Word) : (s.setReg pg off w).opNext = s.opNext := rfl
@[simp] theorem State.setReg_takeovers (s : State) (pg off : Nat) (w : Word) : (s.setReg pg off w).takeovers = s.takeovers := rfl
@[simp] theorem State.setReg_tkWait (s : State) (pg off : Nat) (w : Word) : (s.setReg pg off w).tkWait = s.tkWait := rfl
@[simp] theorem State.setReg_lcmHeld (s : State) (pg off : Nat) (w : Word) : (s.setReg pg off w).lcmHeld = s.lcmHeld := rfl
@[simp] theorem State.setReg_retired (s : State) (pg off : Nat) (w : Word) : (s.setReg pg off w).retired = s.retired := rfl
@[simp] theorem State.setReg_lcSram (s : State) (pg off : Nat) (w : Word) : (s.setReg pg off w).lcSram = s.lcSram := rfl
@[simp] theorem State.setReg_memc (s : State) (pg off : Nat) (w : Word) : (s.setReg pg off w).memc = s.memc := rfl
@[simp] theorem State.setReg_cry (s : State) (pg off : Nat) (w : Word) : (s.setReg pg off w).cry = s.cry := rfl
@[simp] theorem State.setReg_flt (s : State) (pg off : Nat) (w : Word) : (s.setReg pg off w).flt = s.flt := rfl
@[simp] theorem State.setReg_pwr (s : State) (pg off : Nat) (w : Word) : (s.setReg pg off w).pwr = s.pwr := rfl
@[simp] theorem State.setReg_upd (s : State) (pg off : Nat) (w : Word) : (s.setReg pg off w).upd = s.upd := rfl
@[simp] theorem State.setReg_power (s : State) (pg off : Nat) (w : Word) : (s.setReg pg off w).power = s.power := rfl

/-! ## setFld -/

@[simp] theorem State.setFld_sketch (s : State) (pg : Nat) (f : Fld) (v : Nat) : (s.setFld pg f v).sketch = s.sketch := State.setReg_sketch ..
@[simp] theorem State.setFld_symErr (s : State) (pg : Nat) (f : Fld) (v : Nat) : (s.setFld pg f v).symErr = s.symErr := State.setReg_symErr ..
@[simp] theorem State.setFld_pending (s : State) (pg : Nat) (f : Fld) (v : Nat) : (s.setFld pg f v).pending = s.pending := State.setReg_pending ..
@[simp] theorem State.setFld_mem (s : State) (pg : Nat) (f : Fld) (v : Nat) : (s.setFld pg f v).mem = s.mem := State.setReg_mem ..
@[simp] theorem State.setFld_poison (s : State) (pg : Nat) (f : Fld) (v : Nat) : (s.setFld pg f v).poison = s.poison := State.setReg_poison ..
@[simp] theorem State.setFld_bankB (s : State) (pg : Nat) (f : Fld) (v : Nat) : (s.setFld pg f v).bankB = s.bankB := State.setReg_bankB ..
@[simp] theorem State.setFld_freeCtr (s : State) (pg : Nat) (f : Fld) (v : Nat) : (s.setFld pg f v).freeCtr = s.freeCtr := State.setReg_freeCtr ..
@[simp] theorem State.setFld_tb (s : State) (pg : Nat) (f : Fld) (v : Nat) : (s.setFld pg f v).tb = s.tb := State.setReg_tb ..
@[simp] theorem State.setFld_tbRun (s : State) (pg : Nat) (f : Fld) (v : Nat) : (s.setFld pg f v).tbRun = s.tbRun := State.setReg_tbRun ..
@[simp] theorem State.setFld_kaLead (s : State) (pg : Nat) (f : Fld) (v : Nat) : (s.setFld pg f v).kaLead = s.kaLead := State.setReg_kaLead ..
@[simp] theorem State.setFld_tbStep (s : State) (pg : Nat) (f : Fld) (v : Nat) : (s.setFld pg f v).tbStep = s.tbStep := State.setReg_tbStep ..
@[simp] theorem State.setFld_syncGood (s : State) (pg : Nat) (f : Fld) (v : Nat) : (s.setFld pg f v).syncGood = s.syncGood := State.setReg_syncGood ..
@[simp] theorem State.setFld_syncTick (s : State) (pg : Nat) (f : Fld) (v : Nat) : (s.setFld pg f v).syncTick = s.syncTick := State.setReg_syncTick ..
@[simp] theorem State.setFld_tbcTick (s : State) (pg : Nat) (f : Fld) (v : Nat) : (s.setFld pg f v).tbcTick = s.tbcTick := State.setReg_tbcTick ..
@[simp] theorem State.setFld_clkDead (s : State) (pg : Nat) (f : Fld) (v : Nat) : (s.setFld pg f v).clkDead = s.clkDead := State.setReg_clkDead ..
@[simp] theorem State.setFld_clkLost (s : State) (pg : Nat) (f : Fld) (v : Nat) : (s.setFld pg f v).clkLost = s.clkLost := State.setReg_clkLost ..
@[simp] theorem State.setFld_raises (s : State) (pg : Nat) (f : Fld) (v : Nat) : (s.setFld pg f v).raises = s.raises := State.setReg_raises ..
@[simp] theorem State.setFld_postings (s : State) (pg : Nat) (f : Fld) (v : Nat) : (s.setFld pg f v).postings = s.postings := State.setReg_postings ..
@[simp] theorem State.setFld_capPend (s : State) (pg : Nat) (f : Fld) (v : Nat) : (s.setFld pg f v).capPend = s.capPend := State.setReg_capPend ..
@[simp] theorem State.setFld_outbox (s : State) (pg : Nat) (f : Fld) (v : Nat) : (s.setFld pg f v).outbox = s.outbox := State.setReg_outbox ..
@[simp] theorem State.setFld_fixScope (s : State) (pg : Nat) (f : Fld) (v : Nat) : (s.setFld pg f v).fixScope = s.fixScope := State.setReg_fixScope ..
@[simp] theorem State.setFld_fixStale (s : State) (pg : Nat) (f : Fld) (v : Nat) : (s.setFld pg f v).fixStale = s.fixStale := State.setReg_fixStale ..
@[simp] theorem State.setFld_fixMode (s : State) (pg : Nat) (f : Fld) (v : Nat) : (s.setFld pg f v).fixMode = s.fixMode := State.setReg_fixMode ..
@[simp] theorem State.setFld_fixTag (s : State) (pg : Nat) (f : Fld) (v : Nat) : (s.setFld pg f v).fixTag = s.fixTag := State.setReg_fixTag ..
@[simp] theorem State.setFld_fixBlead (s : State) (pg : Nat) (f : Fld) (v : Nat) : (s.setFld pg f v).fixBlead = s.fixBlead := State.setReg_fixBlead ..
@[simp] theorem State.setFld_fixBexp (s : State) (pg : Nat) (f : Fld) (v : Nat) : (s.setFld pg f v).fixBexp = s.fixBexp := State.setReg_fixBexp ..
@[simp] theorem State.setFld_fixTime (s : State) (pg : Nat) (f : Fld) (v : Nat) : (s.setFld pg f v).fixTime = s.fixTime := State.setReg_fixTime ..
@[simp] theorem State.setFld_fixBcast (s : State) (pg : Nat) (f : Fld) (v : Nat) : (s.setFld pg f v).fixBcast = s.fixBcast := State.setReg_fixBcast ..
@[simp] theorem State.setFld_fixCopied (s : State) (pg : Nat) (f : Fld) (v : Nat) : (s.setFld pg f v).fixCopied = s.fixCopied := State.setReg_fixCopied ..
@[simp] theorem State.setFld_fixReset (s : State) (pg : Nat) (f : Fld) (v : Nat) : (s.setFld pg f v).fixReset = s.fixReset := State.setReg_fixReset ..
@[simp] theorem State.setFld_fixResetPgs (s : State) (pg : Nat) (f : Fld) (v : Nat) : (s.setFld pg f v).fixResetPgs = s.fixResetPgs := State.setReg_fixResetPgs ..
@[simp] theorem State.setFld_fixSeen (s : State) (pg : Nat) (f : Fld) (v : Nat) : (s.setFld pg f v).fixSeen = s.fixSeen := State.setReg_fixSeen ..
@[simp] theorem State.setFld_fixInit (s : State) (pg : Nat) (f : Fld) (v : Nat) : (s.setFld pg f v).fixInit = s.fixInit := State.setReg_fixInit ..
@[simp] theorem State.setFld_lfHeld (s : State) (pg : Nat) (f : Fld) (v : Nat) : (s.setFld pg f v).lfHeld = s.lfHeld := State.setReg_lfHeld ..
@[simp] theorem State.setFld_hs (s : State) (pg : Nat) (f : Fld) (v : Nat) : (s.setFld pg f v).hs = s.hs := State.setReg_hs ..
@[simp] theorem State.setFld_dies (s : State) (pg : Nat) (f : Fld) (v : Nat) : (s.setFld pg f v).dies = s.dies := State.setReg_dies ..
@[simp] theorem State.setFld_bankTick (s : State) (pg : Nat) (f : Fld) (v : Nat) : (s.setFld pg f v).bankTick = s.bankTick := State.setReg_bankTick ..
@[simp] theorem State.setFld_senseAt (s : State) (pg : Nat) (f : Fld) (v : Nat) : (s.setFld pg f v).senseAt = s.senseAt := State.setReg_senseAt ..
@[simp] theorem State.setFld_legs (s : State) (pg : Nat) (f : Fld) (v : Nat) : (s.setFld pg f v).legs = s.legs := State.setReg_legs ..
@[simp] theorem State.setFld_bridges (s : State) (pg : Nat) (f : Fld) (v : Nat) : (s.setFld pg f v).bridges = s.bridges := State.setReg_bridges ..
@[simp] theorem State.setFld_valves (s : State) (pg : Nat) (f : Fld) (v : Nat) : (s.setFld pg f v).valves = s.valves := State.setReg_valves ..
@[simp] theorem State.setFld_sides (s : State) (pg : Nat) (f : Fld) (v : Nat) : (s.setFld pg f v).sides = s.sides := State.setReg_sides ..
@[simp] theorem State.setFld_boostTick (s : State) (pg : Nat) (f : Fld) (v : Nat) : (s.setFld pg f v).boostTick = s.boostTick := State.setReg_boostTick ..
@[simp] theorem State.setFld_boostTold (s : State) (pg : Nat) (f : Fld) (v : Nat) : (s.setFld pg f v).boostTold = s.boostTold := State.setReg_boostTold ..
@[simp] theorem State.setFld_light (s : State) (pg : Nat) (f : Fld) (v : Nat) : (s.setFld pg f v).light = s.light := State.setReg_light ..
@[simp] theorem State.setFld_ambs (s : State) (pg : Nat) (f : Fld) (v : Nat) : (s.setFld pg f v).ambs = s.ambs := State.setReg_ambs ..
@[simp] theorem State.setFld_sis (s : State) (pg : Nat) (f : Fld) (v : Nat) : (s.setFld pg f v).sis = s.sis := State.setReg_sis ..
@[simp] theorem State.setFld_ios (s : State) (pg : Nat) (f : Fld) (v : Nat) : (s.setFld pg f v).ios = s.ios := State.setReg_ios ..
@[simp] theorem State.setFld_siRef (s : State) (pg : Nat) (f : Fld) (v : Nat) : (s.setFld pg f v).siRef = s.siRef := State.setReg_siRef ..
@[simp] theorem State.setFld_siRefPg (s : State) (pg : Nat) (f : Fld) (v : Nat) : (s.setFld pg f v).siRefPg = s.siRefPg := State.setReg_siRefPg ..
@[simp] theorem State.setFld_fsDie (s : State) (pg : Nat) (f : Fld) (v : Nat) : (s.setFld pg f v).fsDie = s.fsDie := State.setReg_fsDie ..
@[simp] theorem State.setFld_fsNew (s : State) (pg : Nat) (f : Fld) (v : Nat) : (s.setFld pg f v).fsNew = s.fsNew := State.setReg_fsNew ..
@[simp] theorem State.setFld_fsAt (s : State) (pg : Nat) (f : Fld) (v : Nat) : (s.setFld pg f v).fsAt = s.fsAt := State.setReg_fsAt ..
@[simp] theorem State.setFld_parkWake (s : State) (pg : Nat) (f : Fld) (v : Nat) : (s.setFld pg f v).parkWake = s.parkWake := State.setReg_parkWake ..
@[simp] theorem State.setFld_cans (s : State) (pg : Nat) (f : Fld) (v : Nat) : (s.setFld pg f v).cans = s.cans := State.setReg_cans ..
@[simp] theorem State.setFld_lins (s : State) (pg : Nat) (f : Fld) (v : Nat) : (s.setFld pg f v).lins = s.lins := State.setReg_lins ..
@[simp] theorem State.setFld_eth (s : State) (pg : Nat) (f : Fld) (v : Nat) : (s.setFld pg f v).eth = s.eth := State.setReg_eth ..
@[simp] theorem State.setFld_nm (s : State) (pg : Nat) (f : Fld) (v : Nat) : (s.setFld pg f v).nm = s.nm := State.setReg_nm ..
@[simp] theorem State.setFld_pulses (s : State) (pg : Nat) (f : Fld) (v : Nat) : (s.setFld pg f v).pulses = s.pulses := State.setReg_pulses ..
@[simp] theorem State.setFld_clauses (s : State) (pg : Nat) (f : Fld) (v : Nat) : (s.setFld pg f v).clauses = s.clauses := State.setReg_clauses ..
@[simp] theorem State.setFld_slots (s : State) (pg : Nat) (f : Fld) (v : Nat) : (s.setFld pg f v).slots = s.slots := State.setReg_slots ..
@[simp] theorem State.setFld_rxlTick (s : State) (pg : Nat) (f : Fld) (v : Nat) : (s.setFld pg f v).rxlTick = s.rxlTick := State.setReg_rxlTick ..
@[simp] theorem State.setFld_retouchPend (s : State) (pg : Nat) (f : Fld) (v : Nat) : (s.setFld pg f v).retouchPend = s.retouchPend := State.setReg_retouchPend ..
@[simp] theorem State.setFld_lcMap (s : State) (pg : Nat) (f : Fld) (v : Nat) : (s.setFld pg f v).lcMap = s.lcMap := State.setReg_lcMap ..
@[simp] theorem State.setFld_ctxs (s : State) (pg : Nat) (f : Fld) (v : Nat) : (s.setFld pg f v).ctxs = s.ctxs := State.setReg_ctxs ..
@[simp] theorem State.setFld_lcores (s : State) (pg : Nat) (f : Fld) (v : Nat) : (s.setFld pg f v).lcores = s.lcores := State.setReg_lcores ..
@[simp] theorem State.setFld_icache (s : State) (pg : Nat) (f : Fld) (v : Nat) : (s.setFld pg f v).icache = s.icache := State.setReg_icache ..
@[simp] theorem State.setFld_icBad (s : State) (pg : Nat) (f : Fld) (v : Nat) : (s.setFld pg f v).icBad = s.icBad := State.setReg_icBad ..
@[simp] theorem State.setFld_testAt (s : State) (pg : Nat) (f : Fld) (v : Nat) : (s.setFld pg f v).testAt = s.testAt := State.setReg_testAt ..
@[simp] theorem State.setFld_nmts (s : State) (pg : Nat) (f : Fld) (v : Nat) : (s.setFld pg f v).nmts = s.nmts := State.setReg_nmts ..
@[simp] theorem State.setFld_ops (s : State) (pg : Nat) (f : Fld) (v : Nat) : (s.setFld pg f v).ops = s.ops := State.setReg_ops ..
@[simp] theorem State.setFld_opNext (s : State) (pg : Nat) (f : Fld) (v : Nat) : (s.setFld pg f v).opNext = s.opNext := State.setReg_opNext ..
@[simp] theorem State.setFld_takeovers (s : State) (pg : Nat) (f : Fld) (v : Nat) : (s.setFld pg f v).takeovers = s.takeovers := State.setReg_takeovers ..
@[simp] theorem State.setFld_tkWait (s : State) (pg : Nat) (f : Fld) (v : Nat) : (s.setFld pg f v).tkWait = s.tkWait := State.setReg_tkWait ..
@[simp] theorem State.setFld_lcmHeld (s : State) (pg : Nat) (f : Fld) (v : Nat) : (s.setFld pg f v).lcmHeld = s.lcmHeld := State.setReg_lcmHeld ..
@[simp] theorem State.setFld_retired (s : State) (pg : Nat) (f : Fld) (v : Nat) : (s.setFld pg f v).retired = s.retired := State.setReg_retired ..
@[simp] theorem State.setFld_lcSram (s : State) (pg : Nat) (f : Fld) (v : Nat) : (s.setFld pg f v).lcSram = s.lcSram := State.setReg_lcSram ..
@[simp] theorem State.setFld_memc (s : State) (pg : Nat) (f : Fld) (v : Nat) : (s.setFld pg f v).memc = s.memc := State.setReg_memc ..
@[simp] theorem State.setFld_cry (s : State) (pg : Nat) (f : Fld) (v : Nat) : (s.setFld pg f v).cry = s.cry := State.setReg_cry ..
@[simp] theorem State.setFld_flt (s : State) (pg : Nat) (f : Fld) (v : Nat) : (s.setFld pg f v).flt = s.flt := State.setReg_flt ..
@[simp] theorem State.setFld_pwr (s : State) (pg : Nat) (f : Fld) (v : Nat) : (s.setFld pg f v).pwr = s.pwr := State.setReg_pwr ..
@[simp] theorem State.setFld_upd (s : State) (pg : Nat) (f : Fld) (v : Nat) : (s.setFld pg f v).upd = s.upd := State.setReg_upd ..
@[simp] theorem State.setFld_power (s : State) (pg : Nat) (f : Fld) (v : Nat) : (s.setFld pg f v).power = s.power := State.setReg_power ..

/-! ## setBit -/

@[simp] theorem State.setBit_sketch (s : State) (pg : Nat) (f : Fld) (b : Bool) : (s.setBit pg f b).sketch = s.sketch := State.setFld_sketch ..
@[simp] theorem State.setBit_symErr (s : State) (pg : Nat) (f : Fld) (b : Bool) : (s.setBit pg f b).symErr = s.symErr := State.setFld_symErr ..
@[simp] theorem State.setBit_pending (s : State) (pg : Nat) (f : Fld) (b : Bool) : (s.setBit pg f b).pending = s.pending := State.setFld_pending ..
@[simp] theorem State.setBit_mem (s : State) (pg : Nat) (f : Fld) (b : Bool) : (s.setBit pg f b).mem = s.mem := State.setFld_mem ..
@[simp] theorem State.setBit_poison (s : State) (pg : Nat) (f : Fld) (b : Bool) : (s.setBit pg f b).poison = s.poison := State.setFld_poison ..
@[simp] theorem State.setBit_bankB (s : State) (pg : Nat) (f : Fld) (b : Bool) : (s.setBit pg f b).bankB = s.bankB := State.setFld_bankB ..
@[simp] theorem State.setBit_freeCtr (s : State) (pg : Nat) (f : Fld) (b : Bool) : (s.setBit pg f b).freeCtr = s.freeCtr := State.setFld_freeCtr ..
@[simp] theorem State.setBit_tb (s : State) (pg : Nat) (f : Fld) (b : Bool) : (s.setBit pg f b).tb = s.tb := State.setFld_tb ..
@[simp] theorem State.setBit_tbRun (s : State) (pg : Nat) (f : Fld) (b : Bool) : (s.setBit pg f b).tbRun = s.tbRun := State.setFld_tbRun ..
@[simp] theorem State.setBit_kaLead (s : State) (pg : Nat) (f : Fld) (b : Bool) : (s.setBit pg f b).kaLead = s.kaLead := State.setFld_kaLead ..
@[simp] theorem State.setBit_tbStep (s : State) (pg : Nat) (f : Fld) (b : Bool) : (s.setBit pg f b).tbStep = s.tbStep := State.setFld_tbStep ..
@[simp] theorem State.setBit_syncGood (s : State) (pg : Nat) (f : Fld) (b : Bool) : (s.setBit pg f b).syncGood = s.syncGood := State.setFld_syncGood ..
@[simp] theorem State.setBit_syncTick (s : State) (pg : Nat) (f : Fld) (b : Bool) : (s.setBit pg f b).syncTick = s.syncTick := State.setFld_syncTick ..
@[simp] theorem State.setBit_tbcTick (s : State) (pg : Nat) (f : Fld) (b : Bool) : (s.setBit pg f b).tbcTick = s.tbcTick := State.setFld_tbcTick ..
@[simp] theorem State.setBit_clkDead (s : State) (pg : Nat) (f : Fld) (b : Bool) : (s.setBit pg f b).clkDead = s.clkDead := State.setFld_clkDead ..
@[simp] theorem State.setBit_clkLost (s : State) (pg : Nat) (f : Fld) (b : Bool) : (s.setBit pg f b).clkLost = s.clkLost := State.setFld_clkLost ..
@[simp] theorem State.setBit_raises (s : State) (pg : Nat) (f : Fld) (b : Bool) : (s.setBit pg f b).raises = s.raises := State.setFld_raises ..
@[simp] theorem State.setBit_postings (s : State) (pg : Nat) (f : Fld) (b : Bool) : (s.setBit pg f b).postings = s.postings := State.setFld_postings ..
@[simp] theorem State.setBit_capPend (s : State) (pg : Nat) (f : Fld) (b : Bool) : (s.setBit pg f b).capPend = s.capPend := State.setFld_capPend ..
@[simp] theorem State.setBit_outbox (s : State) (pg : Nat) (f : Fld) (b : Bool) : (s.setBit pg f b).outbox = s.outbox := State.setFld_outbox ..
@[simp] theorem State.setBit_fixScope (s : State) (pg : Nat) (f : Fld) (b : Bool) : (s.setBit pg f b).fixScope = s.fixScope := State.setFld_fixScope ..
@[simp] theorem State.setBit_fixStale (s : State) (pg : Nat) (f : Fld) (b : Bool) : (s.setBit pg f b).fixStale = s.fixStale := State.setFld_fixStale ..
@[simp] theorem State.setBit_fixMode (s : State) (pg : Nat) (f : Fld) (b : Bool) : (s.setBit pg f b).fixMode = s.fixMode := State.setFld_fixMode ..
@[simp] theorem State.setBit_fixTag (s : State) (pg : Nat) (f : Fld) (b : Bool) : (s.setBit pg f b).fixTag = s.fixTag := State.setFld_fixTag ..
@[simp] theorem State.setBit_fixBlead (s : State) (pg : Nat) (f : Fld) (b : Bool) : (s.setBit pg f b).fixBlead = s.fixBlead := State.setFld_fixBlead ..
@[simp] theorem State.setBit_fixBexp (s : State) (pg : Nat) (f : Fld) (b : Bool) : (s.setBit pg f b).fixBexp = s.fixBexp := State.setFld_fixBexp ..
@[simp] theorem State.setBit_fixTime (s : State) (pg : Nat) (f : Fld) (b : Bool) : (s.setBit pg f b).fixTime = s.fixTime := State.setFld_fixTime ..
@[simp] theorem State.setBit_fixBcast (s : State) (pg : Nat) (f : Fld) (b : Bool) : (s.setBit pg f b).fixBcast = s.fixBcast := State.setFld_fixBcast ..
@[simp] theorem State.setBit_fixCopied (s : State) (pg : Nat) (f : Fld) (b : Bool) : (s.setBit pg f b).fixCopied = s.fixCopied := State.setFld_fixCopied ..
@[simp] theorem State.setBit_fixReset (s : State) (pg : Nat) (f : Fld) (b : Bool) : (s.setBit pg f b).fixReset = s.fixReset := State.setFld_fixReset ..
@[simp] theorem State.setBit_fixResetPgs (s : State) (pg : Nat) (f : Fld) (b : Bool) : (s.setBit pg f b).fixResetPgs = s.fixResetPgs := State.setFld_fixResetPgs ..
@[simp] theorem State.setBit_fixSeen (s : State) (pg : Nat) (f : Fld) (b : Bool) : (s.setBit pg f b).fixSeen = s.fixSeen := State.setFld_fixSeen ..
@[simp] theorem State.setBit_fixInit (s : State) (pg : Nat) (f : Fld) (b : Bool) : (s.setBit pg f b).fixInit = s.fixInit := State.setFld_fixInit ..
@[simp] theorem State.setBit_lfHeld (s : State) (pg : Nat) (f : Fld) (b : Bool) : (s.setBit pg f b).lfHeld = s.lfHeld := State.setFld_lfHeld ..
@[simp] theorem State.setBit_hs (s : State) (pg : Nat) (f : Fld) (b : Bool) : (s.setBit pg f b).hs = s.hs := State.setFld_hs ..
@[simp] theorem State.setBit_dies (s : State) (pg : Nat) (f : Fld) (b : Bool) : (s.setBit pg f b).dies = s.dies := State.setFld_dies ..
@[simp] theorem State.setBit_bankTick (s : State) (pg : Nat) (f : Fld) (b : Bool) : (s.setBit pg f b).bankTick = s.bankTick := State.setFld_bankTick ..
@[simp] theorem State.setBit_senseAt (s : State) (pg : Nat) (f : Fld) (b : Bool) : (s.setBit pg f b).senseAt = s.senseAt := State.setFld_senseAt ..
@[simp] theorem State.setBit_legs (s : State) (pg : Nat) (f : Fld) (b : Bool) : (s.setBit pg f b).legs = s.legs := State.setFld_legs ..
@[simp] theorem State.setBit_bridges (s : State) (pg : Nat) (f : Fld) (b : Bool) : (s.setBit pg f b).bridges = s.bridges := State.setFld_bridges ..
@[simp] theorem State.setBit_valves (s : State) (pg : Nat) (f : Fld) (b : Bool) : (s.setBit pg f b).valves = s.valves := State.setFld_valves ..
@[simp] theorem State.setBit_sides (s : State) (pg : Nat) (f : Fld) (b : Bool) : (s.setBit pg f b).sides = s.sides := State.setFld_sides ..
@[simp] theorem State.setBit_boostTick (s : State) (pg : Nat) (f : Fld) (b : Bool) : (s.setBit pg f b).boostTick = s.boostTick := State.setFld_boostTick ..
@[simp] theorem State.setBit_boostTold (s : State) (pg : Nat) (f : Fld) (b : Bool) : (s.setBit pg f b).boostTold = s.boostTold := State.setFld_boostTold ..
@[simp] theorem State.setBit_light (s : State) (pg : Nat) (f : Fld) (b : Bool) : (s.setBit pg f b).light = s.light := State.setFld_light ..
@[simp] theorem State.setBit_ambs (s : State) (pg : Nat) (f : Fld) (b : Bool) : (s.setBit pg f b).ambs = s.ambs := State.setFld_ambs ..
@[simp] theorem State.setBit_sis (s : State) (pg : Nat) (f : Fld) (b : Bool) : (s.setBit pg f b).sis = s.sis := State.setFld_sis ..
@[simp] theorem State.setBit_ios (s : State) (pg : Nat) (f : Fld) (b : Bool) : (s.setBit pg f b).ios = s.ios := State.setFld_ios ..
@[simp] theorem State.setBit_siRef (s : State) (pg : Nat) (f : Fld) (b : Bool) : (s.setBit pg f b).siRef = s.siRef := State.setFld_siRef ..
@[simp] theorem State.setBit_siRefPg (s : State) (pg : Nat) (f : Fld) (b : Bool) : (s.setBit pg f b).siRefPg = s.siRefPg := State.setFld_siRefPg ..
@[simp] theorem State.setBit_fsDie (s : State) (pg : Nat) (f : Fld) (b : Bool) : (s.setBit pg f b).fsDie = s.fsDie := State.setFld_fsDie ..
@[simp] theorem State.setBit_fsNew (s : State) (pg : Nat) (f : Fld) (b : Bool) : (s.setBit pg f b).fsNew = s.fsNew := State.setFld_fsNew ..
@[simp] theorem State.setBit_fsAt (s : State) (pg : Nat) (f : Fld) (b : Bool) : (s.setBit pg f b).fsAt = s.fsAt := State.setFld_fsAt ..
@[simp] theorem State.setBit_parkWake (s : State) (pg : Nat) (f : Fld) (b : Bool) : (s.setBit pg f b).parkWake = s.parkWake := State.setFld_parkWake ..
@[simp] theorem State.setBit_cans (s : State) (pg : Nat) (f : Fld) (b : Bool) : (s.setBit pg f b).cans = s.cans := State.setFld_cans ..
@[simp] theorem State.setBit_lins (s : State) (pg : Nat) (f : Fld) (b : Bool) : (s.setBit pg f b).lins = s.lins := State.setFld_lins ..
@[simp] theorem State.setBit_eth (s : State) (pg : Nat) (f : Fld) (b : Bool) : (s.setBit pg f b).eth = s.eth := State.setFld_eth ..
@[simp] theorem State.setBit_nm (s : State) (pg : Nat) (f : Fld) (b : Bool) : (s.setBit pg f b).nm = s.nm := State.setFld_nm ..
@[simp] theorem State.setBit_pulses (s : State) (pg : Nat) (f : Fld) (b : Bool) : (s.setBit pg f b).pulses = s.pulses := State.setFld_pulses ..
@[simp] theorem State.setBit_clauses (s : State) (pg : Nat) (f : Fld) (b : Bool) : (s.setBit pg f b).clauses = s.clauses := State.setFld_clauses ..
@[simp] theorem State.setBit_slots (s : State) (pg : Nat) (f : Fld) (b : Bool) : (s.setBit pg f b).slots = s.slots := State.setFld_slots ..
@[simp] theorem State.setBit_rxlTick (s : State) (pg : Nat) (f : Fld) (b : Bool) : (s.setBit pg f b).rxlTick = s.rxlTick := State.setFld_rxlTick ..
@[simp] theorem State.setBit_retouchPend (s : State) (pg : Nat) (f : Fld) (b : Bool) : (s.setBit pg f b).retouchPend = s.retouchPend := State.setFld_retouchPend ..
@[simp] theorem State.setBit_lcMap (s : State) (pg : Nat) (f : Fld) (b : Bool) : (s.setBit pg f b).lcMap = s.lcMap := State.setFld_lcMap ..
@[simp] theorem State.setBit_ctxs (s : State) (pg : Nat) (f : Fld) (b : Bool) : (s.setBit pg f b).ctxs = s.ctxs := State.setFld_ctxs ..
@[simp] theorem State.setBit_lcores (s : State) (pg : Nat) (f : Fld) (b : Bool) : (s.setBit pg f b).lcores = s.lcores := State.setFld_lcores ..
@[simp] theorem State.setBit_icache (s : State) (pg : Nat) (f : Fld) (b : Bool) : (s.setBit pg f b).icache = s.icache := State.setFld_icache ..
@[simp] theorem State.setBit_icBad (s : State) (pg : Nat) (f : Fld) (b : Bool) : (s.setBit pg f b).icBad = s.icBad := State.setFld_icBad ..
@[simp] theorem State.setBit_testAt (s : State) (pg : Nat) (f : Fld) (b : Bool) : (s.setBit pg f b).testAt = s.testAt := State.setFld_testAt ..
@[simp] theorem State.setBit_nmts (s : State) (pg : Nat) (f : Fld) (b : Bool) : (s.setBit pg f b).nmts = s.nmts := State.setFld_nmts ..
@[simp] theorem State.setBit_ops (s : State) (pg : Nat) (f : Fld) (b : Bool) : (s.setBit pg f b).ops = s.ops := State.setFld_ops ..
@[simp] theorem State.setBit_opNext (s : State) (pg : Nat) (f : Fld) (b : Bool) : (s.setBit pg f b).opNext = s.opNext := State.setFld_opNext ..
@[simp] theorem State.setBit_takeovers (s : State) (pg : Nat) (f : Fld) (b : Bool) : (s.setBit pg f b).takeovers = s.takeovers := State.setFld_takeovers ..
@[simp] theorem State.setBit_tkWait (s : State) (pg : Nat) (f : Fld) (b : Bool) : (s.setBit pg f b).tkWait = s.tkWait := State.setFld_tkWait ..
@[simp] theorem State.setBit_lcmHeld (s : State) (pg : Nat) (f : Fld) (b : Bool) : (s.setBit pg f b).lcmHeld = s.lcmHeld := State.setFld_lcmHeld ..
@[simp] theorem State.setBit_retired (s : State) (pg : Nat) (f : Fld) (b : Bool) : (s.setBit pg f b).retired = s.retired := State.setFld_retired ..
@[simp] theorem State.setBit_lcSram (s : State) (pg : Nat) (f : Fld) (b : Bool) : (s.setBit pg f b).lcSram = s.lcSram := State.setFld_lcSram ..
@[simp] theorem State.setBit_memc (s : State) (pg : Nat) (f : Fld) (b : Bool) : (s.setBit pg f b).memc = s.memc := State.setFld_memc ..
@[simp] theorem State.setBit_cry (s : State) (pg : Nat) (f : Fld) (b : Bool) : (s.setBit pg f b).cry = s.cry := State.setFld_cry ..
@[simp] theorem State.setBit_flt (s : State) (pg : Nat) (f : Fld) (b : Bool) : (s.setBit pg f b).flt = s.flt := State.setFld_flt ..
@[simp] theorem State.setBit_pwr (s : State) (pg : Nat) (f : Fld) (b : Bool) : (s.setBit pg f b).pwr = s.pwr := State.setFld_pwr ..
@[simp] theorem State.setBit_upd (s : State) (pg : Nat) (f : Fld) (b : Bool) : (s.setBit pg f b).upd = s.upd := State.setFld_upd ..
@[simp] theorem State.setBit_power (s : State) (pg : Nat) (f : Fld) (b : Bool) : (s.setBit pg f b).power = s.power := State.setFld_power ..

/-! ## answer -/

@[simp] theorem State.answer_sketch (s : State) (pg code : Nat) : (s.answer pg code).sketch = s.sketch := State.setFld_sketch ..
@[simp] theorem State.answer_symErr (s : State) (pg code : Nat) : (s.answer pg code).symErr = s.symErr := State.setFld_symErr ..
@[simp] theorem State.answer_pending (s : State) (pg code : Nat) : (s.answer pg code).pending = s.pending := State.setFld_pending ..
@[simp] theorem State.answer_mem (s : State) (pg code : Nat) : (s.answer pg code).mem = s.mem := State.setFld_mem ..
@[simp] theorem State.answer_poison (s : State) (pg code : Nat) : (s.answer pg code).poison = s.poison := State.setFld_poison ..
@[simp] theorem State.answer_bankB (s : State) (pg code : Nat) : (s.answer pg code).bankB = s.bankB := State.setFld_bankB ..
@[simp] theorem State.answer_freeCtr (s : State) (pg code : Nat) : (s.answer pg code).freeCtr = s.freeCtr := State.setFld_freeCtr ..
@[simp] theorem State.answer_tb (s : State) (pg code : Nat) : (s.answer pg code).tb = s.tb := State.setFld_tb ..
@[simp] theorem State.answer_tbRun (s : State) (pg code : Nat) : (s.answer pg code).tbRun = s.tbRun := State.setFld_tbRun ..
@[simp] theorem State.answer_kaLead (s : State) (pg code : Nat) : (s.answer pg code).kaLead = s.kaLead := State.setFld_kaLead ..
@[simp] theorem State.answer_tbStep (s : State) (pg code : Nat) : (s.answer pg code).tbStep = s.tbStep := State.setFld_tbStep ..
@[simp] theorem State.answer_syncGood (s : State) (pg code : Nat) : (s.answer pg code).syncGood = s.syncGood := State.setFld_syncGood ..
@[simp] theorem State.answer_syncTick (s : State) (pg code : Nat) : (s.answer pg code).syncTick = s.syncTick := State.setFld_syncTick ..
@[simp] theorem State.answer_tbcTick (s : State) (pg code : Nat) : (s.answer pg code).tbcTick = s.tbcTick := State.setFld_tbcTick ..
@[simp] theorem State.answer_clkDead (s : State) (pg code : Nat) : (s.answer pg code).clkDead = s.clkDead := State.setFld_clkDead ..
@[simp] theorem State.answer_clkLost (s : State) (pg code : Nat) : (s.answer pg code).clkLost = s.clkLost := State.setFld_clkLost ..
@[simp] theorem State.answer_raises (s : State) (pg code : Nat) : (s.answer pg code).raises = s.raises := State.setFld_raises ..
@[simp] theorem State.answer_postings (s : State) (pg code : Nat) : (s.answer pg code).postings = s.postings := State.setFld_postings ..
@[simp] theorem State.answer_capPend (s : State) (pg code : Nat) : (s.answer pg code).capPend = s.capPend := State.setFld_capPend ..
@[simp] theorem State.answer_outbox (s : State) (pg code : Nat) : (s.answer pg code).outbox = s.outbox := State.setFld_outbox ..
@[simp] theorem State.answer_fixScope (s : State) (pg code : Nat) : (s.answer pg code).fixScope = s.fixScope := State.setFld_fixScope ..
@[simp] theorem State.answer_fixStale (s : State) (pg code : Nat) : (s.answer pg code).fixStale = s.fixStale := State.setFld_fixStale ..
@[simp] theorem State.answer_fixMode (s : State) (pg code : Nat) : (s.answer pg code).fixMode = s.fixMode := State.setFld_fixMode ..
@[simp] theorem State.answer_fixTag (s : State) (pg code : Nat) : (s.answer pg code).fixTag = s.fixTag := State.setFld_fixTag ..
@[simp] theorem State.answer_fixBlead (s : State) (pg code : Nat) : (s.answer pg code).fixBlead = s.fixBlead := State.setFld_fixBlead ..
@[simp] theorem State.answer_fixBexp (s : State) (pg code : Nat) : (s.answer pg code).fixBexp = s.fixBexp := State.setFld_fixBexp ..
@[simp] theorem State.answer_fixTime (s : State) (pg code : Nat) : (s.answer pg code).fixTime = s.fixTime := State.setFld_fixTime ..
@[simp] theorem State.answer_fixBcast (s : State) (pg code : Nat) : (s.answer pg code).fixBcast = s.fixBcast := State.setFld_fixBcast ..
@[simp] theorem State.answer_fixCopied (s : State) (pg code : Nat) : (s.answer pg code).fixCopied = s.fixCopied := State.setFld_fixCopied ..
@[simp] theorem State.answer_fixReset (s : State) (pg code : Nat) : (s.answer pg code).fixReset = s.fixReset := State.setFld_fixReset ..
@[simp] theorem State.answer_fixResetPgs (s : State) (pg code : Nat) : (s.answer pg code).fixResetPgs = s.fixResetPgs := State.setFld_fixResetPgs ..
@[simp] theorem State.answer_fixSeen (s : State) (pg code : Nat) : (s.answer pg code).fixSeen = s.fixSeen := State.setFld_fixSeen ..
@[simp] theorem State.answer_fixInit (s : State) (pg code : Nat) : (s.answer pg code).fixInit = s.fixInit := State.setFld_fixInit ..
@[simp] theorem State.answer_lfHeld (s : State) (pg code : Nat) : (s.answer pg code).lfHeld = s.lfHeld := State.setFld_lfHeld ..
@[simp] theorem State.answer_hs (s : State) (pg code : Nat) : (s.answer pg code).hs = s.hs := State.setFld_hs ..
@[simp] theorem State.answer_dies (s : State) (pg code : Nat) : (s.answer pg code).dies = s.dies := State.setFld_dies ..
@[simp] theorem State.answer_bankTick (s : State) (pg code : Nat) : (s.answer pg code).bankTick = s.bankTick := State.setFld_bankTick ..
@[simp] theorem State.answer_senseAt (s : State) (pg code : Nat) : (s.answer pg code).senseAt = s.senseAt := State.setFld_senseAt ..
@[simp] theorem State.answer_legs (s : State) (pg code : Nat) : (s.answer pg code).legs = s.legs := State.setFld_legs ..
@[simp] theorem State.answer_bridges (s : State) (pg code : Nat) : (s.answer pg code).bridges = s.bridges := State.setFld_bridges ..
@[simp] theorem State.answer_valves (s : State) (pg code : Nat) : (s.answer pg code).valves = s.valves := State.setFld_valves ..
@[simp] theorem State.answer_sides (s : State) (pg code : Nat) : (s.answer pg code).sides = s.sides := State.setFld_sides ..
@[simp] theorem State.answer_boostTick (s : State) (pg code : Nat) : (s.answer pg code).boostTick = s.boostTick := State.setFld_boostTick ..
@[simp] theorem State.answer_boostTold (s : State) (pg code : Nat) : (s.answer pg code).boostTold = s.boostTold := State.setFld_boostTold ..
@[simp] theorem State.answer_light (s : State) (pg code : Nat) : (s.answer pg code).light = s.light := State.setFld_light ..
@[simp] theorem State.answer_ambs (s : State) (pg code : Nat) : (s.answer pg code).ambs = s.ambs := State.setFld_ambs ..
@[simp] theorem State.answer_sis (s : State) (pg code : Nat) : (s.answer pg code).sis = s.sis := State.setFld_sis ..
@[simp] theorem State.answer_ios (s : State) (pg code : Nat) : (s.answer pg code).ios = s.ios := State.setFld_ios ..
@[simp] theorem State.answer_siRef (s : State) (pg code : Nat) : (s.answer pg code).siRef = s.siRef := State.setFld_siRef ..
@[simp] theorem State.answer_siRefPg (s : State) (pg code : Nat) : (s.answer pg code).siRefPg = s.siRefPg := State.setFld_siRefPg ..
@[simp] theorem State.answer_fsDie (s : State) (pg code : Nat) : (s.answer pg code).fsDie = s.fsDie := State.setFld_fsDie ..
@[simp] theorem State.answer_fsNew (s : State) (pg code : Nat) : (s.answer pg code).fsNew = s.fsNew := State.setFld_fsNew ..
@[simp] theorem State.answer_fsAt (s : State) (pg code : Nat) : (s.answer pg code).fsAt = s.fsAt := State.setFld_fsAt ..
@[simp] theorem State.answer_parkWake (s : State) (pg code : Nat) : (s.answer pg code).parkWake = s.parkWake := State.setFld_parkWake ..
@[simp] theorem State.answer_cans (s : State) (pg code : Nat) : (s.answer pg code).cans = s.cans := State.setFld_cans ..
@[simp] theorem State.answer_lins (s : State) (pg code : Nat) : (s.answer pg code).lins = s.lins := State.setFld_lins ..
@[simp] theorem State.answer_eth (s : State) (pg code : Nat) : (s.answer pg code).eth = s.eth := State.setFld_eth ..
@[simp] theorem State.answer_nm (s : State) (pg code : Nat) : (s.answer pg code).nm = s.nm := State.setFld_nm ..
@[simp] theorem State.answer_pulses (s : State) (pg code : Nat) : (s.answer pg code).pulses = s.pulses := State.setFld_pulses ..
@[simp] theorem State.answer_clauses (s : State) (pg code : Nat) : (s.answer pg code).clauses = s.clauses := State.setFld_clauses ..
@[simp] theorem State.answer_slots (s : State) (pg code : Nat) : (s.answer pg code).slots = s.slots := State.setFld_slots ..
@[simp] theorem State.answer_rxlTick (s : State) (pg code : Nat) : (s.answer pg code).rxlTick = s.rxlTick := State.setFld_rxlTick ..
@[simp] theorem State.answer_retouchPend (s : State) (pg code : Nat) : (s.answer pg code).retouchPend = s.retouchPend := State.setFld_retouchPend ..
@[simp] theorem State.answer_lcMap (s : State) (pg code : Nat) : (s.answer pg code).lcMap = s.lcMap := State.setFld_lcMap ..
@[simp] theorem State.answer_ctxs (s : State) (pg code : Nat) : (s.answer pg code).ctxs = s.ctxs := State.setFld_ctxs ..
@[simp] theorem State.answer_lcores (s : State) (pg code : Nat) : (s.answer pg code).lcores = s.lcores := State.setFld_lcores ..
@[simp] theorem State.answer_icache (s : State) (pg code : Nat) : (s.answer pg code).icache = s.icache := State.setFld_icache ..
@[simp] theorem State.answer_icBad (s : State) (pg code : Nat) : (s.answer pg code).icBad = s.icBad := State.setFld_icBad ..
@[simp] theorem State.answer_testAt (s : State) (pg code : Nat) : (s.answer pg code).testAt = s.testAt := State.setFld_testAt ..
@[simp] theorem State.answer_nmts (s : State) (pg code : Nat) : (s.answer pg code).nmts = s.nmts := State.setFld_nmts ..
@[simp] theorem State.answer_ops (s : State) (pg code : Nat) : (s.answer pg code).ops = s.ops := State.setFld_ops ..
@[simp] theorem State.answer_opNext (s : State) (pg code : Nat) : (s.answer pg code).opNext = s.opNext := State.setFld_opNext ..
@[simp] theorem State.answer_takeovers (s : State) (pg code : Nat) : (s.answer pg code).takeovers = s.takeovers := State.setFld_takeovers ..
@[simp] theorem State.answer_tkWait (s : State) (pg code : Nat) : (s.answer pg code).tkWait = s.tkWait := State.setFld_tkWait ..
@[simp] theorem State.answer_lcmHeld (s : State) (pg code : Nat) : (s.answer pg code).lcmHeld = s.lcmHeld := State.setFld_lcmHeld ..
@[simp] theorem State.answer_retired (s : State) (pg code : Nat) : (s.answer pg code).retired = s.retired := State.setFld_retired ..
@[simp] theorem State.answer_lcSram (s : State) (pg code : Nat) : (s.answer pg code).lcSram = s.lcSram := State.setFld_lcSram ..
@[simp] theorem State.answer_memc (s : State) (pg code : Nat) : (s.answer pg code).memc = s.memc := State.setFld_memc ..
@[simp] theorem State.answer_cry (s : State) (pg code : Nat) : (s.answer pg code).cry = s.cry := State.setFld_cry ..
@[simp] theorem State.answer_flt (s : State) (pg code : Nat) : (s.answer pg code).flt = s.flt := State.setFld_flt ..
@[simp] theorem State.answer_pwr (s : State) (pg code : Nat) : (s.answer pg code).pwr = s.pwr := State.setFld_pwr ..
@[simp] theorem State.answer_upd (s : State) (pg code : Nat) : (s.answer pg code).upd = s.upd := State.setFld_upd ..
@[simp] theorem State.answer_power (s : State) (pg code : Nat) : (s.answer pg code).power = s.power := State.setFld_power ..

/-! ## emit -/

@[simp] theorem State.emit_regs (s : State) (o : Out) : (s.emit o).regs = s.regs := rfl
@[simp] theorem State.emit_sketch (s : State) (o : Out) : (s.emit o).sketch = s.sketch := rfl
@[simp] theorem State.emit_symErr (s : State) (o : Out) : (s.emit o).symErr = s.symErr := rfl
@[simp] theorem State.emit_pending (s : State) (o : Out) : (s.emit o).pending = s.pending := rfl
@[simp] theorem State.emit_mem (s : State) (o : Out) : (s.emit o).mem = s.mem := rfl
@[simp] theorem State.emit_poison (s : State) (o : Out) : (s.emit o).poison = s.poison := rfl
@[simp] theorem State.emit_bankB (s : State) (o : Out) : (s.emit o).bankB = s.bankB := rfl
@[simp] theorem State.emit_freeCtr (s : State) (o : Out) : (s.emit o).freeCtr = s.freeCtr := rfl
@[simp] theorem State.emit_tb (s : State) (o : Out) : (s.emit o).tb = s.tb := rfl
@[simp] theorem State.emit_tbRun (s : State) (o : Out) : (s.emit o).tbRun = s.tbRun := rfl
@[simp] theorem State.emit_kaLead (s : State) (o : Out) : (s.emit o).kaLead = s.kaLead := rfl
@[simp] theorem State.emit_tbStep (s : State) (o : Out) : (s.emit o).tbStep = s.tbStep := rfl
@[simp] theorem State.emit_syncGood (s : State) (o : Out) : (s.emit o).syncGood = s.syncGood := rfl
@[simp] theorem State.emit_syncTick (s : State) (o : Out) : (s.emit o).syncTick = s.syncTick := rfl
@[simp] theorem State.emit_tbcTick (s : State) (o : Out) : (s.emit o).tbcTick = s.tbcTick := rfl
@[simp] theorem State.emit_clkDead (s : State) (o : Out) : (s.emit o).clkDead = s.clkDead := rfl
@[simp] theorem State.emit_clkLost (s : State) (o : Out) : (s.emit o).clkLost = s.clkLost := rfl
@[simp] theorem State.emit_raises (s : State) (o : Out) : (s.emit o).raises = s.raises := rfl
@[simp] theorem State.emit_postings (s : State) (o : Out) : (s.emit o).postings = s.postings := rfl
@[simp] theorem State.emit_capPend (s : State) (o : Out) : (s.emit o).capPend = s.capPend := rfl
@[simp] theorem State.emit_fixScope (s : State) (o : Out) : (s.emit o).fixScope = s.fixScope := rfl
@[simp] theorem State.emit_fixStale (s : State) (o : Out) : (s.emit o).fixStale = s.fixStale := rfl
@[simp] theorem State.emit_fixMode (s : State) (o : Out) : (s.emit o).fixMode = s.fixMode := rfl
@[simp] theorem State.emit_fixTag (s : State) (o : Out) : (s.emit o).fixTag = s.fixTag := rfl
@[simp] theorem State.emit_fixBlead (s : State) (o : Out) : (s.emit o).fixBlead = s.fixBlead := rfl
@[simp] theorem State.emit_fixBexp (s : State) (o : Out) : (s.emit o).fixBexp = s.fixBexp := rfl
@[simp] theorem State.emit_fixTime (s : State) (o : Out) : (s.emit o).fixTime = s.fixTime := rfl
@[simp] theorem State.emit_fixBcast (s : State) (o : Out) : (s.emit o).fixBcast = s.fixBcast := rfl
@[simp] theorem State.emit_fixCopied (s : State) (o : Out) : (s.emit o).fixCopied = s.fixCopied := rfl
@[simp] theorem State.emit_fixReset (s : State) (o : Out) : (s.emit o).fixReset = s.fixReset := rfl
@[simp] theorem State.emit_fixResetPgs (s : State) (o : Out) : (s.emit o).fixResetPgs = s.fixResetPgs := rfl
@[simp] theorem State.emit_fixSeen (s : State) (o : Out) : (s.emit o).fixSeen = s.fixSeen := rfl
@[simp] theorem State.emit_fixInit (s : State) (o : Out) : (s.emit o).fixInit = s.fixInit := rfl
@[simp] theorem State.emit_lfHeld (s : State) (o : Out) : (s.emit o).lfHeld = s.lfHeld := rfl
@[simp] theorem State.emit_hs (s : State) (o : Out) : (s.emit o).hs = s.hs := rfl
@[simp] theorem State.emit_dies (s : State) (o : Out) : (s.emit o).dies = s.dies := rfl
@[simp] theorem State.emit_bankTick (s : State) (o : Out) : (s.emit o).bankTick = s.bankTick := rfl
@[simp] theorem State.emit_senseAt (s : State) (o : Out) : (s.emit o).senseAt = s.senseAt := rfl
@[simp] theorem State.emit_legs (s : State) (o : Out) : (s.emit o).legs = s.legs := rfl
@[simp] theorem State.emit_bridges (s : State) (o : Out) : (s.emit o).bridges = s.bridges := rfl
@[simp] theorem State.emit_valves (s : State) (o : Out) : (s.emit o).valves = s.valves := rfl
@[simp] theorem State.emit_sides (s : State) (o : Out) : (s.emit o).sides = s.sides := rfl
@[simp] theorem State.emit_boostTick (s : State) (o : Out) : (s.emit o).boostTick = s.boostTick := rfl
@[simp] theorem State.emit_boostTold (s : State) (o : Out) : (s.emit o).boostTold = s.boostTold := rfl
@[simp] theorem State.emit_light (s : State) (o : Out) : (s.emit o).light = s.light := rfl
@[simp] theorem State.emit_ambs (s : State) (o : Out) : (s.emit o).ambs = s.ambs := rfl
@[simp] theorem State.emit_sis (s : State) (o : Out) : (s.emit o).sis = s.sis := rfl
@[simp] theorem State.emit_ios (s : State) (o : Out) : (s.emit o).ios = s.ios := rfl
@[simp] theorem State.emit_siRef (s : State) (o : Out) : (s.emit o).siRef = s.siRef := rfl
@[simp] theorem State.emit_siRefPg (s : State) (o : Out) : (s.emit o).siRefPg = s.siRefPg := rfl
@[simp] theorem State.emit_fsDie (s : State) (o : Out) : (s.emit o).fsDie = s.fsDie := rfl
@[simp] theorem State.emit_fsNew (s : State) (o : Out) : (s.emit o).fsNew = s.fsNew := rfl
@[simp] theorem State.emit_fsAt (s : State) (o : Out) : (s.emit o).fsAt = s.fsAt := rfl
@[simp] theorem State.emit_parkWake (s : State) (o : Out) : (s.emit o).parkWake = s.parkWake := rfl
@[simp] theorem State.emit_cans (s : State) (o : Out) : (s.emit o).cans = s.cans := rfl
@[simp] theorem State.emit_lins (s : State) (o : Out) : (s.emit o).lins = s.lins := rfl
@[simp] theorem State.emit_eth (s : State) (o : Out) : (s.emit o).eth = s.eth := rfl
@[simp] theorem State.emit_nm (s : State) (o : Out) : (s.emit o).nm = s.nm := rfl
@[simp] theorem State.emit_pulses (s : State) (o : Out) : (s.emit o).pulses = s.pulses := rfl
@[simp] theorem State.emit_clauses (s : State) (o : Out) : (s.emit o).clauses = s.clauses := rfl
@[simp] theorem State.emit_slots (s : State) (o : Out) : (s.emit o).slots = s.slots := rfl
@[simp] theorem State.emit_rxlTick (s : State) (o : Out) : (s.emit o).rxlTick = s.rxlTick := rfl
@[simp] theorem State.emit_retouchPend (s : State) (o : Out) : (s.emit o).retouchPend = s.retouchPend := rfl
@[simp] theorem State.emit_lcMap (s : State) (o : Out) : (s.emit o).lcMap = s.lcMap := rfl
@[simp] theorem State.emit_ctxs (s : State) (o : Out) : (s.emit o).ctxs = s.ctxs := rfl
@[simp] theorem State.emit_lcores (s : State) (o : Out) : (s.emit o).lcores = s.lcores := rfl
@[simp] theorem State.emit_icache (s : State) (o : Out) : (s.emit o).icache = s.icache := rfl
@[simp] theorem State.emit_icBad (s : State) (o : Out) : (s.emit o).icBad = s.icBad := rfl
@[simp] theorem State.emit_testAt (s : State) (o : Out) : (s.emit o).testAt = s.testAt := rfl
@[simp] theorem State.emit_nmts (s : State) (o : Out) : (s.emit o).nmts = s.nmts := rfl
@[simp] theorem State.emit_ops (s : State) (o : Out) : (s.emit o).ops = s.ops := rfl
@[simp] theorem State.emit_opNext (s : State) (o : Out) : (s.emit o).opNext = s.opNext := rfl
@[simp] theorem State.emit_takeovers (s : State) (o : Out) : (s.emit o).takeovers = s.takeovers := rfl
@[simp] theorem State.emit_tkWait (s : State) (o : Out) : (s.emit o).tkWait = s.tkWait := rfl
@[simp] theorem State.emit_lcmHeld (s : State) (o : Out) : (s.emit o).lcmHeld = s.lcmHeld := rfl
@[simp] theorem State.emit_retired (s : State) (o : Out) : (s.emit o).retired = s.retired := rfl
@[simp] theorem State.emit_lcSram (s : State) (o : Out) : (s.emit o).lcSram = s.lcSram := rfl
@[simp] theorem State.emit_memc (s : State) (o : Out) : (s.emit o).memc = s.memc := rfl
@[simp] theorem State.emit_cry (s : State) (o : Out) : (s.emit o).cry = s.cry := rfl
@[simp] theorem State.emit_flt (s : State) (o : Out) : (s.emit o).flt = s.flt := rfl
@[simp] theorem State.emit_pwr (s : State) (o : Out) : (s.emit o).pwr = s.pwr := rfl
@[simp] theorem State.emit_upd (s : State) (o : Out) : (s.emit o).upd = s.upd := rfl
@[simp] theorem State.emit_power (s : State) (o : Out) : (s.emit o).power = s.power := rfl

/-! ## post -/

@[simp] theorem State.post_regs (s : State) (ev : Nat) : (s.post ev).regs = s.regs := rfl
@[simp] theorem State.post_sketch (s : State) (ev : Nat) : (s.post ev).sketch = s.sketch := rfl
@[simp] theorem State.post_symErr (s : State) (ev : Nat) : (s.post ev).symErr = s.symErr := rfl
@[simp] theorem State.post_pending (s : State) (ev : Nat) : (s.post ev).pending = s.pending := rfl
@[simp] theorem State.post_mem (s : State) (ev : Nat) : (s.post ev).mem = s.mem := rfl
@[simp] theorem State.post_poison (s : State) (ev : Nat) : (s.post ev).poison = s.poison := rfl
@[simp] theorem State.post_bankB (s : State) (ev : Nat) : (s.post ev).bankB = s.bankB := rfl
@[simp] theorem State.post_freeCtr (s : State) (ev : Nat) : (s.post ev).freeCtr = s.freeCtr := rfl
@[simp] theorem State.post_tb (s : State) (ev : Nat) : (s.post ev).tb = s.tb := rfl
@[simp] theorem State.post_tbRun (s : State) (ev : Nat) : (s.post ev).tbRun = s.tbRun := rfl
@[simp] theorem State.post_kaLead (s : State) (ev : Nat) : (s.post ev).kaLead = s.kaLead := rfl
@[simp] theorem State.post_tbStep (s : State) (ev : Nat) : (s.post ev).tbStep = s.tbStep := rfl
@[simp] theorem State.post_syncGood (s : State) (ev : Nat) : (s.post ev).syncGood = s.syncGood := rfl
@[simp] theorem State.post_syncTick (s : State) (ev : Nat) : (s.post ev).syncTick = s.syncTick := rfl
@[simp] theorem State.post_tbcTick (s : State) (ev : Nat) : (s.post ev).tbcTick = s.tbcTick := rfl
@[simp] theorem State.post_clkDead (s : State) (ev : Nat) : (s.post ev).clkDead = s.clkDead := rfl
@[simp] theorem State.post_clkLost (s : State) (ev : Nat) : (s.post ev).clkLost = s.clkLost := rfl
@[simp] theorem State.post_raises (s : State) (ev : Nat) : (s.post ev).raises = s.raises := rfl
@[simp] theorem State.post_outbox (s : State) (ev : Nat) : (s.post ev).outbox = s.outbox := rfl
@[simp] theorem State.post_fixScope (s : State) (ev : Nat) : (s.post ev).fixScope = s.fixScope := rfl
@[simp] theorem State.post_fixStale (s : State) (ev : Nat) : (s.post ev).fixStale = s.fixStale := rfl
@[simp] theorem State.post_fixMode (s : State) (ev : Nat) : (s.post ev).fixMode = s.fixMode := rfl
@[simp] theorem State.post_fixTag (s : State) (ev : Nat) : (s.post ev).fixTag = s.fixTag := rfl
@[simp] theorem State.post_fixBlead (s : State) (ev : Nat) : (s.post ev).fixBlead = s.fixBlead := rfl
@[simp] theorem State.post_fixBexp (s : State) (ev : Nat) : (s.post ev).fixBexp = s.fixBexp := rfl
@[simp] theorem State.post_fixTime (s : State) (ev : Nat) : (s.post ev).fixTime = s.fixTime := rfl
@[simp] theorem State.post_fixBcast (s : State) (ev : Nat) : (s.post ev).fixBcast = s.fixBcast := rfl
@[simp] theorem State.post_fixCopied (s : State) (ev : Nat) : (s.post ev).fixCopied = s.fixCopied := rfl
@[simp] theorem State.post_fixReset (s : State) (ev : Nat) : (s.post ev).fixReset = s.fixReset := rfl
@[simp] theorem State.post_fixResetPgs (s : State) (ev : Nat) : (s.post ev).fixResetPgs = s.fixResetPgs := rfl
@[simp] theorem State.post_fixSeen (s : State) (ev : Nat) : (s.post ev).fixSeen = s.fixSeen := rfl
@[simp] theorem State.post_fixInit (s : State) (ev : Nat) : (s.post ev).fixInit = s.fixInit := rfl
@[simp] theorem State.post_lfHeld (s : State) (ev : Nat) : (s.post ev).lfHeld = s.lfHeld := rfl
@[simp] theorem State.post_hs (s : State) (ev : Nat) : (s.post ev).hs = s.hs := rfl
@[simp] theorem State.post_dies (s : State) (ev : Nat) : (s.post ev).dies = s.dies := rfl
@[simp] theorem State.post_bankTick (s : State) (ev : Nat) : (s.post ev).bankTick = s.bankTick := rfl
@[simp] theorem State.post_senseAt (s : State) (ev : Nat) : (s.post ev).senseAt = s.senseAt := rfl
@[simp] theorem State.post_legs (s : State) (ev : Nat) : (s.post ev).legs = s.legs := rfl
@[simp] theorem State.post_bridges (s : State) (ev : Nat) : (s.post ev).bridges = s.bridges := rfl
@[simp] theorem State.post_valves (s : State) (ev : Nat) : (s.post ev).valves = s.valves := rfl
@[simp] theorem State.post_sides (s : State) (ev : Nat) : (s.post ev).sides = s.sides := rfl
@[simp] theorem State.post_boostTick (s : State) (ev : Nat) : (s.post ev).boostTick = s.boostTick := rfl
@[simp] theorem State.post_boostTold (s : State) (ev : Nat) : (s.post ev).boostTold = s.boostTold := rfl
@[simp] theorem State.post_light (s : State) (ev : Nat) : (s.post ev).light = s.light := rfl
@[simp] theorem State.post_ambs (s : State) (ev : Nat) : (s.post ev).ambs = s.ambs := rfl
@[simp] theorem State.post_sis (s : State) (ev : Nat) : (s.post ev).sis = s.sis := rfl
@[simp] theorem State.post_ios (s : State) (ev : Nat) : (s.post ev).ios = s.ios := rfl
@[simp] theorem State.post_siRef (s : State) (ev : Nat) : (s.post ev).siRef = s.siRef := rfl
@[simp] theorem State.post_siRefPg (s : State) (ev : Nat) : (s.post ev).siRefPg = s.siRefPg := rfl
@[simp] theorem State.post_fsDie (s : State) (ev : Nat) : (s.post ev).fsDie = s.fsDie := rfl
@[simp] theorem State.post_fsNew (s : State) (ev : Nat) : (s.post ev).fsNew = s.fsNew := rfl
@[simp] theorem State.post_fsAt (s : State) (ev : Nat) : (s.post ev).fsAt = s.fsAt := rfl
@[simp] theorem State.post_parkWake (s : State) (ev : Nat) : (s.post ev).parkWake = s.parkWake := rfl
@[simp] theorem State.post_cans (s : State) (ev : Nat) : (s.post ev).cans = s.cans := rfl
@[simp] theorem State.post_lins (s : State) (ev : Nat) : (s.post ev).lins = s.lins := rfl
@[simp] theorem State.post_eth (s : State) (ev : Nat) : (s.post ev).eth = s.eth := rfl
@[simp] theorem State.post_nm (s : State) (ev : Nat) : (s.post ev).nm = s.nm := rfl
@[simp] theorem State.post_clauses (s : State) (ev : Nat) : (s.post ev).clauses = s.clauses := rfl
@[simp] theorem State.post_slots (s : State) (ev : Nat) : (s.post ev).slots = s.slots := rfl
@[simp] theorem State.post_rxlTick (s : State) (ev : Nat) : (s.post ev).rxlTick = s.rxlTick := rfl
@[simp] theorem State.post_retouchPend (s : State) (ev : Nat) : (s.post ev).retouchPend = s.retouchPend := rfl
@[simp] theorem State.post_lcMap (s : State) (ev : Nat) : (s.post ev).lcMap = s.lcMap := rfl
@[simp] theorem State.post_ctxs (s : State) (ev : Nat) : (s.post ev).ctxs = s.ctxs := rfl
@[simp] theorem State.post_lcores (s : State) (ev : Nat) : (s.post ev).lcores = s.lcores := rfl
@[simp] theorem State.post_icache (s : State) (ev : Nat) : (s.post ev).icache = s.icache := rfl
@[simp] theorem State.post_icBad (s : State) (ev : Nat) : (s.post ev).icBad = s.icBad := rfl
@[simp] theorem State.post_testAt (s : State) (ev : Nat) : (s.post ev).testAt = s.testAt := rfl
@[simp] theorem State.post_nmts (s : State) (ev : Nat) : (s.post ev).nmts = s.nmts := rfl
@[simp] theorem State.post_ops (s : State) (ev : Nat) : (s.post ev).ops = s.ops := rfl
@[simp] theorem State.post_opNext (s : State) (ev : Nat) : (s.post ev).opNext = s.opNext := rfl
@[simp] theorem State.post_takeovers (s : State) (ev : Nat) : (s.post ev).takeovers = s.takeovers := rfl
@[simp] theorem State.post_tkWait (s : State) (ev : Nat) : (s.post ev).tkWait = s.tkWait := rfl
@[simp] theorem State.post_lcmHeld (s : State) (ev : Nat) : (s.post ev).lcmHeld = s.lcmHeld := rfl
@[simp] theorem State.post_retired (s : State) (ev : Nat) : (s.post ev).retired = s.retired := rfl
@[simp] theorem State.post_lcSram (s : State) (ev : Nat) : (s.post ev).lcSram = s.lcSram := rfl
@[simp] theorem State.post_memc (s : State) (ev : Nat) : (s.post ev).memc = s.memc := rfl
@[simp] theorem State.post_cry (s : State) (ev : Nat) : (s.post ev).cry = s.cry := rfl
@[simp] theorem State.post_flt (s : State) (ev : Nat) : (s.post ev).flt = s.flt := rfl
@[simp] theorem State.post_pwr (s : State) (ev : Nat) : (s.post ev).pwr = s.pwr := rfl
@[simp] theorem State.post_upd (s : State) (ev : Nat) : (s.post ev).upd = s.upd := rfl
@[simp] theorem State.post_power (s : State) (ev : Nat) : (s.post ev).power = s.power := rfl

/-! ## raise -/

@[simp] theorem State.raise_regs (s : State) (src : Nat) (d : Detail) : (s.raise src d).regs = s.regs := rfl
@[simp] theorem State.raise_sketch (s : State) (src : Nat) (d : Detail) : (s.raise src d).sketch = s.sketch := rfl
@[simp] theorem State.raise_symErr (s : State) (src : Nat) (d : Detail) : (s.raise src d).symErr = s.symErr := rfl
@[simp] theorem State.raise_pending (s : State) (src : Nat) (d : Detail) : (s.raise src d).pending = s.pending := rfl
@[simp] theorem State.raise_mem (s : State) (src : Nat) (d : Detail) : (s.raise src d).mem = s.mem := rfl
@[simp] theorem State.raise_poison (s : State) (src : Nat) (d : Detail) : (s.raise src d).poison = s.poison := rfl
@[simp] theorem State.raise_bankB (s : State) (src : Nat) (d : Detail) : (s.raise src d).bankB = s.bankB := rfl
@[simp] theorem State.raise_freeCtr (s : State) (src : Nat) (d : Detail) : (s.raise src d).freeCtr = s.freeCtr := rfl
@[simp] theorem State.raise_tb (s : State) (src : Nat) (d : Detail) : (s.raise src d).tb = s.tb := rfl
@[simp] theorem State.raise_tbRun (s : State) (src : Nat) (d : Detail) : (s.raise src d).tbRun = s.tbRun := rfl
@[simp] theorem State.raise_kaLead (s : State) (src : Nat) (d : Detail) : (s.raise src d).kaLead = s.kaLead := rfl
@[simp] theorem State.raise_tbStep (s : State) (src : Nat) (d : Detail) : (s.raise src d).tbStep = s.tbStep := rfl
@[simp] theorem State.raise_syncGood (s : State) (src : Nat) (d : Detail) : (s.raise src d).syncGood = s.syncGood := rfl
@[simp] theorem State.raise_syncTick (s : State) (src : Nat) (d : Detail) : (s.raise src d).syncTick = s.syncTick := rfl
@[simp] theorem State.raise_tbcTick (s : State) (src : Nat) (d : Detail) : (s.raise src d).tbcTick = s.tbcTick := rfl
@[simp] theorem State.raise_clkDead (s : State) (src : Nat) (d : Detail) : (s.raise src d).clkDead = s.clkDead := rfl
@[simp] theorem State.raise_clkLost (s : State) (src : Nat) (d : Detail) : (s.raise src d).clkLost = s.clkLost := rfl
@[simp] theorem State.raise_postings (s : State) (src : Nat) (d : Detail) : (s.raise src d).postings = s.postings := rfl
@[simp] theorem State.raise_capPend (s : State) (src : Nat) (d : Detail) : (s.raise src d).capPend = s.capPend := rfl
@[simp] theorem State.raise_outbox (s : State) (src : Nat) (d : Detail) : (s.raise src d).outbox = s.outbox := rfl
@[simp] theorem State.raise_fixScope (s : State) (src : Nat) (d : Detail) : (s.raise src d).fixScope = s.fixScope := rfl
@[simp] theorem State.raise_fixStale (s : State) (src : Nat) (d : Detail) : (s.raise src d).fixStale = s.fixStale := rfl
@[simp] theorem State.raise_fixMode (s : State) (src : Nat) (d : Detail) : (s.raise src d).fixMode = s.fixMode := rfl
@[simp] theorem State.raise_fixTag (s : State) (src : Nat) (d : Detail) : (s.raise src d).fixTag = s.fixTag := rfl
@[simp] theorem State.raise_fixBlead (s : State) (src : Nat) (d : Detail) : (s.raise src d).fixBlead = s.fixBlead := rfl
@[simp] theorem State.raise_fixBexp (s : State) (src : Nat) (d : Detail) : (s.raise src d).fixBexp = s.fixBexp := rfl
@[simp] theorem State.raise_fixTime (s : State) (src : Nat) (d : Detail) : (s.raise src d).fixTime = s.fixTime := rfl
@[simp] theorem State.raise_fixBcast (s : State) (src : Nat) (d : Detail) : (s.raise src d).fixBcast = s.fixBcast := rfl
@[simp] theorem State.raise_fixCopied (s : State) (src : Nat) (d : Detail) : (s.raise src d).fixCopied = s.fixCopied := rfl
@[simp] theorem State.raise_fixReset (s : State) (src : Nat) (d : Detail) : (s.raise src d).fixReset = s.fixReset := rfl
@[simp] theorem State.raise_fixResetPgs (s : State) (src : Nat) (d : Detail) : (s.raise src d).fixResetPgs = s.fixResetPgs := rfl
@[simp] theorem State.raise_fixSeen (s : State) (src : Nat) (d : Detail) : (s.raise src d).fixSeen = s.fixSeen := rfl
@[simp] theorem State.raise_fixInit (s : State) (src : Nat) (d : Detail) : (s.raise src d).fixInit = s.fixInit := rfl
@[simp] theorem State.raise_lfHeld (s : State) (src : Nat) (d : Detail) : (s.raise src d).lfHeld = s.lfHeld := rfl
@[simp] theorem State.raise_hs (s : State) (src : Nat) (d : Detail) : (s.raise src d).hs = s.hs := rfl
@[simp] theorem State.raise_dies (s : State) (src : Nat) (d : Detail) : (s.raise src d).dies = s.dies := rfl
@[simp] theorem State.raise_bankTick (s : State) (src : Nat) (d : Detail) : (s.raise src d).bankTick = s.bankTick := rfl
@[simp] theorem State.raise_senseAt (s : State) (src : Nat) (d : Detail) : (s.raise src d).senseAt = s.senseAt := rfl
@[simp] theorem State.raise_legs (s : State) (src : Nat) (d : Detail) : (s.raise src d).legs = s.legs := rfl
@[simp] theorem State.raise_bridges (s : State) (src : Nat) (d : Detail) : (s.raise src d).bridges = s.bridges := rfl
@[simp] theorem State.raise_valves (s : State) (src : Nat) (d : Detail) : (s.raise src d).valves = s.valves := rfl
@[simp] theorem State.raise_sides (s : State) (src : Nat) (d : Detail) : (s.raise src d).sides = s.sides := rfl
@[simp] theorem State.raise_boostTick (s : State) (src : Nat) (d : Detail) : (s.raise src d).boostTick = s.boostTick := rfl
@[simp] theorem State.raise_boostTold (s : State) (src : Nat) (d : Detail) : (s.raise src d).boostTold = s.boostTold := rfl
@[simp] theorem State.raise_light (s : State) (src : Nat) (d : Detail) : (s.raise src d).light = s.light := rfl
@[simp] theorem State.raise_ambs (s : State) (src : Nat) (d : Detail) : (s.raise src d).ambs = s.ambs := rfl
@[simp] theorem State.raise_sis (s : State) (src : Nat) (d : Detail) : (s.raise src d).sis = s.sis := rfl
@[simp] theorem State.raise_ios (s : State) (src : Nat) (d : Detail) : (s.raise src d).ios = s.ios := rfl
@[simp] theorem State.raise_siRef (s : State) (src : Nat) (d : Detail) : (s.raise src d).siRef = s.siRef := rfl
@[simp] theorem State.raise_siRefPg (s : State) (src : Nat) (d : Detail) : (s.raise src d).siRefPg = s.siRefPg := rfl
@[simp] theorem State.raise_fsDie (s : State) (src : Nat) (d : Detail) : (s.raise src d).fsDie = s.fsDie := rfl
@[simp] theorem State.raise_fsNew (s : State) (src : Nat) (d : Detail) : (s.raise src d).fsNew = s.fsNew := rfl
@[simp] theorem State.raise_fsAt (s : State) (src : Nat) (d : Detail) : (s.raise src d).fsAt = s.fsAt := rfl
@[simp] theorem State.raise_parkWake (s : State) (src : Nat) (d : Detail) : (s.raise src d).parkWake = s.parkWake := rfl
@[simp] theorem State.raise_cans (s : State) (src : Nat) (d : Detail) : (s.raise src d).cans = s.cans := rfl
@[simp] theorem State.raise_lins (s : State) (src : Nat) (d : Detail) : (s.raise src d).lins = s.lins := rfl
@[simp] theorem State.raise_eth (s : State) (src : Nat) (d : Detail) : (s.raise src d).eth = s.eth := rfl
@[simp] theorem State.raise_nm (s : State) (src : Nat) (d : Detail) : (s.raise src d).nm = s.nm := rfl
@[simp] theorem State.raise_pulses (s : State) (src : Nat) (d : Detail) : (s.raise src d).pulses = s.pulses := rfl
@[simp] theorem State.raise_clauses (s : State) (src : Nat) (d : Detail) : (s.raise src d).clauses = s.clauses := rfl
@[simp] theorem State.raise_slots (s : State) (src : Nat) (d : Detail) : (s.raise src d).slots = s.slots := rfl
@[simp] theorem State.raise_rxlTick (s : State) (src : Nat) (d : Detail) : (s.raise src d).rxlTick = s.rxlTick := rfl
@[simp] theorem State.raise_retouchPend (s : State) (src : Nat) (d : Detail) : (s.raise src d).retouchPend = s.retouchPend := rfl
@[simp] theorem State.raise_lcMap (s : State) (src : Nat) (d : Detail) : (s.raise src d).lcMap = s.lcMap := rfl
@[simp] theorem State.raise_ctxs (s : State) (src : Nat) (d : Detail) : (s.raise src d).ctxs = s.ctxs := rfl
@[simp] theorem State.raise_lcores (s : State) (src : Nat) (d : Detail) : (s.raise src d).lcores = s.lcores := rfl
@[simp] theorem State.raise_icache (s : State) (src : Nat) (d : Detail) : (s.raise src d).icache = s.icache := rfl
@[simp] theorem State.raise_icBad (s : State) (src : Nat) (d : Detail) : (s.raise src d).icBad = s.icBad := rfl
@[simp] theorem State.raise_testAt (s : State) (src : Nat) (d : Detail) : (s.raise src d).testAt = s.testAt := rfl
@[simp] theorem State.raise_nmts (s : State) (src : Nat) (d : Detail) : (s.raise src d).nmts = s.nmts := rfl
@[simp] theorem State.raise_ops (s : State) (src : Nat) (d : Detail) : (s.raise src d).ops = s.ops := rfl
@[simp] theorem State.raise_opNext (s : State) (src : Nat) (d : Detail) : (s.raise src d).opNext = s.opNext := rfl
@[simp] theorem State.raise_takeovers (s : State) (src : Nat) (d : Detail) : (s.raise src d).takeovers = s.takeovers := rfl
@[simp] theorem State.raise_tkWait (s : State) (src : Nat) (d : Detail) : (s.raise src d).tkWait = s.tkWait := rfl
@[simp] theorem State.raise_lcmHeld (s : State) (src : Nat) (d : Detail) : (s.raise src d).lcmHeld = s.lcmHeld := rfl
@[simp] theorem State.raise_retired (s : State) (src : Nat) (d : Detail) : (s.raise src d).retired = s.retired := rfl
@[simp] theorem State.raise_lcSram (s : State) (src : Nat) (d : Detail) : (s.raise src d).lcSram = s.lcSram := rfl
@[simp] theorem State.raise_memc (s : State) (src : Nat) (d : Detail) : (s.raise src d).memc = s.memc := rfl
@[simp] theorem State.raise_cry (s : State) (src : Nat) (d : Detail) : (s.raise src d).cry = s.cry := rfl
@[simp] theorem State.raise_flt (s : State) (src : Nat) (d : Detail) : (s.raise src d).flt = s.flt := rfl
@[simp] theorem State.raise_pwr (s : State) (src : Nat) (d : Detail) : (s.raise src d).pwr = s.pwr := rfl
@[simp] theorem State.raise_upd (s : State) (src : Nat) (d : Detail) : (s.raise src d).upd = s.upd := rfl
@[simp] theorem State.raise_power (s : State) (src : Nat) (d : Detail) : (s.raise src d).power = s.power := rfl

/-! ## nextFree -/

@[simp] theorem State.nextFree_regs (s : State) : (s.nextFree).regs = s.regs := rfl
@[simp] theorem State.nextFree_sketch (s : State) : (s.nextFree).sketch = s.sketch := rfl
@[simp] theorem State.nextFree_symErr (s : State) : (s.nextFree).symErr = s.symErr := rfl
@[simp] theorem State.nextFree_pending (s : State) : (s.nextFree).pending = s.pending := rfl
@[simp] theorem State.nextFree_mem (s : State) : (s.nextFree).mem = s.mem := rfl
@[simp] theorem State.nextFree_poison (s : State) : (s.nextFree).poison = s.poison := rfl
@[simp] theorem State.nextFree_bankB (s : State) : (s.nextFree).bankB = s.bankB := rfl
@[simp] theorem State.nextFree_tb (s : State) : (s.nextFree).tb = s.tb := rfl
@[simp] theorem State.nextFree_tbRun (s : State) : (s.nextFree).tbRun = s.tbRun := rfl
@[simp] theorem State.nextFree_kaLead (s : State) : (s.nextFree).kaLead = s.kaLead := rfl
@[simp] theorem State.nextFree_tbStep (s : State) : (s.nextFree).tbStep = s.tbStep := rfl
@[simp] theorem State.nextFree_syncGood (s : State) : (s.nextFree).syncGood = s.syncGood := rfl
@[simp] theorem State.nextFree_syncTick (s : State) : (s.nextFree).syncTick = s.syncTick := rfl
@[simp] theorem State.nextFree_tbcTick (s : State) : (s.nextFree).tbcTick = s.tbcTick := rfl
@[simp] theorem State.nextFree_clkDead (s : State) : (s.nextFree).clkDead = s.clkDead := rfl
@[simp] theorem State.nextFree_clkLost (s : State) : (s.nextFree).clkLost = s.clkLost := rfl
@[simp] theorem State.nextFree_raises (s : State) : (s.nextFree).raises = s.raises := rfl
@[simp] theorem State.nextFree_postings (s : State) : (s.nextFree).postings = s.postings := rfl
@[simp] theorem State.nextFree_capPend (s : State) : (s.nextFree).capPend = s.capPend := rfl
@[simp] theorem State.nextFree_outbox (s : State) : (s.nextFree).outbox = s.outbox := rfl
@[simp] theorem State.nextFree_fixScope (s : State) : (s.nextFree).fixScope = s.fixScope := rfl
@[simp] theorem State.nextFree_fixStale (s : State) : (s.nextFree).fixStale = s.fixStale := rfl
@[simp] theorem State.nextFree_fixMode (s : State) : (s.nextFree).fixMode = s.fixMode := rfl
@[simp] theorem State.nextFree_fixTag (s : State) : (s.nextFree).fixTag = s.fixTag := rfl
@[simp] theorem State.nextFree_fixBlead (s : State) : (s.nextFree).fixBlead = s.fixBlead := rfl
@[simp] theorem State.nextFree_fixBexp (s : State) : (s.nextFree).fixBexp = s.fixBexp := rfl
@[simp] theorem State.nextFree_fixTime (s : State) : (s.nextFree).fixTime = s.fixTime := rfl
@[simp] theorem State.nextFree_fixBcast (s : State) : (s.nextFree).fixBcast = s.fixBcast := rfl
@[simp] theorem State.nextFree_fixCopied (s : State) : (s.nextFree).fixCopied = s.fixCopied := rfl
@[simp] theorem State.nextFree_fixReset (s : State) : (s.nextFree).fixReset = s.fixReset := rfl
@[simp] theorem State.nextFree_fixResetPgs (s : State) : (s.nextFree).fixResetPgs = s.fixResetPgs := rfl
@[simp] theorem State.nextFree_fixSeen (s : State) : (s.nextFree).fixSeen = s.fixSeen := rfl
@[simp] theorem State.nextFree_fixInit (s : State) : (s.nextFree).fixInit = s.fixInit := rfl
@[simp] theorem State.nextFree_lfHeld (s : State) : (s.nextFree).lfHeld = s.lfHeld := rfl
@[simp] theorem State.nextFree_hs (s : State) : (s.nextFree).hs = s.hs := rfl
@[simp] theorem State.nextFree_dies (s : State) : (s.nextFree).dies = s.dies := rfl
@[simp] theorem State.nextFree_bankTick (s : State) : (s.nextFree).bankTick = s.bankTick := rfl
@[simp] theorem State.nextFree_senseAt (s : State) : (s.nextFree).senseAt = s.senseAt := rfl
@[simp] theorem State.nextFree_legs (s : State) : (s.nextFree).legs = s.legs := rfl
@[simp] theorem State.nextFree_bridges (s : State) : (s.nextFree).bridges = s.bridges := rfl
@[simp] theorem State.nextFree_valves (s : State) : (s.nextFree).valves = s.valves := rfl
@[simp] theorem State.nextFree_sides (s : State) : (s.nextFree).sides = s.sides := rfl
@[simp] theorem State.nextFree_boostTick (s : State) : (s.nextFree).boostTick = s.boostTick := rfl
@[simp] theorem State.nextFree_boostTold (s : State) : (s.nextFree).boostTold = s.boostTold := rfl
@[simp] theorem State.nextFree_light (s : State) : (s.nextFree).light = s.light := rfl
@[simp] theorem State.nextFree_ambs (s : State) : (s.nextFree).ambs = s.ambs := rfl
@[simp] theorem State.nextFree_sis (s : State) : (s.nextFree).sis = s.sis := rfl
@[simp] theorem State.nextFree_ios (s : State) : (s.nextFree).ios = s.ios := rfl
@[simp] theorem State.nextFree_siRef (s : State) : (s.nextFree).siRef = s.siRef := rfl
@[simp] theorem State.nextFree_siRefPg (s : State) : (s.nextFree).siRefPg = s.siRefPg := rfl
@[simp] theorem State.nextFree_fsDie (s : State) : (s.nextFree).fsDie = s.fsDie := rfl
@[simp] theorem State.nextFree_fsNew (s : State) : (s.nextFree).fsNew = s.fsNew := rfl
@[simp] theorem State.nextFree_fsAt (s : State) : (s.nextFree).fsAt = s.fsAt := rfl
@[simp] theorem State.nextFree_parkWake (s : State) : (s.nextFree).parkWake = s.parkWake := rfl
@[simp] theorem State.nextFree_cans (s : State) : (s.nextFree).cans = s.cans := rfl
@[simp] theorem State.nextFree_lins (s : State) : (s.nextFree).lins = s.lins := rfl
@[simp] theorem State.nextFree_eth (s : State) : (s.nextFree).eth = s.eth := rfl
@[simp] theorem State.nextFree_nm (s : State) : (s.nextFree).nm = s.nm := rfl
@[simp] theorem State.nextFree_pulses (s : State) : (s.nextFree).pulses = s.pulses := rfl
@[simp] theorem State.nextFree_clauses (s : State) : (s.nextFree).clauses = s.clauses := rfl
@[simp] theorem State.nextFree_slots (s : State) : (s.nextFree).slots = s.slots := rfl
@[simp] theorem State.nextFree_rxlTick (s : State) : (s.nextFree).rxlTick = s.rxlTick := rfl
@[simp] theorem State.nextFree_retouchPend (s : State) : (s.nextFree).retouchPend = s.retouchPend := rfl
@[simp] theorem State.nextFree_lcMap (s : State) : (s.nextFree).lcMap = s.lcMap := rfl
@[simp] theorem State.nextFree_ctxs (s : State) : (s.nextFree).ctxs = s.ctxs := rfl
@[simp] theorem State.nextFree_lcores (s : State) : (s.nextFree).lcores = s.lcores := rfl
@[simp] theorem State.nextFree_icache (s : State) : (s.nextFree).icache = s.icache := rfl
@[simp] theorem State.nextFree_icBad (s : State) : (s.nextFree).icBad = s.icBad := rfl
@[simp] theorem State.nextFree_testAt (s : State) : (s.nextFree).testAt = s.testAt := rfl
@[simp] theorem State.nextFree_nmts (s : State) : (s.nextFree).nmts = s.nmts := rfl
@[simp] theorem State.nextFree_ops (s : State) : (s.nextFree).ops = s.ops := rfl
@[simp] theorem State.nextFree_opNext (s : State) : (s.nextFree).opNext = s.opNext := rfl
@[simp] theorem State.nextFree_takeovers (s : State) : (s.nextFree).takeovers = s.takeovers := rfl
@[simp] theorem State.nextFree_tkWait (s : State) : (s.nextFree).tkWait = s.tkWait := rfl
@[simp] theorem State.nextFree_lcmHeld (s : State) : (s.nextFree).lcmHeld = s.lcmHeld := rfl
@[simp] theorem State.nextFree_retired (s : State) : (s.nextFree).retired = s.retired := rfl
@[simp] theorem State.nextFree_lcSram (s : State) : (s.nextFree).lcSram = s.lcSram := rfl
@[simp] theorem State.nextFree_memc (s : State) : (s.nextFree).memc = s.memc := rfl
@[simp] theorem State.nextFree_cry (s : State) : (s.nextFree).cry = s.cry := rfl
@[simp] theorem State.nextFree_flt (s : State) : (s.nextFree).flt = s.flt := rfl
@[simp] theorem State.nextFree_pwr (s : State) : (s.nextFree).pwr = s.pwr := rfl
@[simp] theorem State.nextFree_upd (s : State) : (s.nextFree).upd = s.upd := rfl
@[simp] theorem State.nextFree_power (s : State) : (s.nextFree).power = s.power := rfl

/-! ## dropSketch -/

@[simp] theorem State.dropSketch_regs (s : State) (pg : Nat) : (s.dropSketch pg).regs = s.regs := rfl
@[simp] theorem State.dropSketch_symErr (s : State) (pg : Nat) : (s.dropSketch pg).symErr = s.symErr := rfl
@[simp] theorem State.dropSketch_pending (s : State) (pg : Nat) : (s.dropSketch pg).pending = s.pending := rfl
@[simp] theorem State.dropSketch_mem (s : State) (pg : Nat) : (s.dropSketch pg).mem = s.mem := rfl
@[simp] theorem State.dropSketch_poison (s : State) (pg : Nat) : (s.dropSketch pg).poison = s.poison := rfl
@[simp] theorem State.dropSketch_bankB (s : State) (pg : Nat) : (s.dropSketch pg).bankB = s.bankB := rfl
@[simp] theorem State.dropSketch_freeCtr (s : State) (pg : Nat) : (s.dropSketch pg).freeCtr = s.freeCtr := rfl
@[simp] theorem State.dropSketch_tb (s : State) (pg : Nat) : (s.dropSketch pg).tb = s.tb := rfl
@[simp] theorem State.dropSketch_tbRun (s : State) (pg : Nat) : (s.dropSketch pg).tbRun = s.tbRun := rfl
@[simp] theorem State.dropSketch_kaLead (s : State) (pg : Nat) : (s.dropSketch pg).kaLead = s.kaLead := rfl
@[simp] theorem State.dropSketch_tbStep (s : State) (pg : Nat) : (s.dropSketch pg).tbStep = s.tbStep := rfl
@[simp] theorem State.dropSketch_syncGood (s : State) (pg : Nat) : (s.dropSketch pg).syncGood = s.syncGood := rfl
@[simp] theorem State.dropSketch_syncTick (s : State) (pg : Nat) : (s.dropSketch pg).syncTick = s.syncTick := rfl
@[simp] theorem State.dropSketch_tbcTick (s : State) (pg : Nat) : (s.dropSketch pg).tbcTick = s.tbcTick := rfl
@[simp] theorem State.dropSketch_clkDead (s : State) (pg : Nat) : (s.dropSketch pg).clkDead = s.clkDead := rfl
@[simp] theorem State.dropSketch_clkLost (s : State) (pg : Nat) : (s.dropSketch pg).clkLost = s.clkLost := rfl
@[simp] theorem State.dropSketch_raises (s : State) (pg : Nat) : (s.dropSketch pg).raises = s.raises := rfl
@[simp] theorem State.dropSketch_postings (s : State) (pg : Nat) : (s.dropSketch pg).postings = s.postings := rfl
@[simp] theorem State.dropSketch_capPend (s : State) (pg : Nat) : (s.dropSketch pg).capPend = s.capPend := rfl
@[simp] theorem State.dropSketch_outbox (s : State) (pg : Nat) : (s.dropSketch pg).outbox = s.outbox := rfl
@[simp] theorem State.dropSketch_fixScope (s : State) (pg : Nat) : (s.dropSketch pg).fixScope = s.fixScope := rfl
@[simp] theorem State.dropSketch_fixStale (s : State) (pg : Nat) : (s.dropSketch pg).fixStale = s.fixStale := rfl
@[simp] theorem State.dropSketch_fixMode (s : State) (pg : Nat) : (s.dropSketch pg).fixMode = s.fixMode := rfl
@[simp] theorem State.dropSketch_fixTag (s : State) (pg : Nat) : (s.dropSketch pg).fixTag = s.fixTag := rfl
@[simp] theorem State.dropSketch_fixBlead (s : State) (pg : Nat) : (s.dropSketch pg).fixBlead = s.fixBlead := rfl
@[simp] theorem State.dropSketch_fixBexp (s : State) (pg : Nat) : (s.dropSketch pg).fixBexp = s.fixBexp := rfl
@[simp] theorem State.dropSketch_fixTime (s : State) (pg : Nat) : (s.dropSketch pg).fixTime = s.fixTime := rfl
@[simp] theorem State.dropSketch_fixBcast (s : State) (pg : Nat) : (s.dropSketch pg).fixBcast = s.fixBcast := rfl
@[simp] theorem State.dropSketch_fixCopied (s : State) (pg : Nat) : (s.dropSketch pg).fixCopied = s.fixCopied := rfl
@[simp] theorem State.dropSketch_fixReset (s : State) (pg : Nat) : (s.dropSketch pg).fixReset = s.fixReset := rfl
@[simp] theorem State.dropSketch_fixResetPgs (s : State) (pg : Nat) : (s.dropSketch pg).fixResetPgs = s.fixResetPgs := rfl
@[simp] theorem State.dropSketch_fixSeen (s : State) (pg : Nat) : (s.dropSketch pg).fixSeen = s.fixSeen := rfl
@[simp] theorem State.dropSketch_fixInit (s : State) (pg : Nat) : (s.dropSketch pg).fixInit = s.fixInit := rfl
@[simp] theorem State.dropSketch_lfHeld (s : State) (pg : Nat) : (s.dropSketch pg).lfHeld = s.lfHeld := rfl
@[simp] theorem State.dropSketch_hs (s : State) (pg : Nat) : (s.dropSketch pg).hs = s.hs := rfl
@[simp] theorem State.dropSketch_dies (s : State) (pg : Nat) : (s.dropSketch pg).dies = s.dies := rfl
@[simp] theorem State.dropSketch_bankTick (s : State) (pg : Nat) : (s.dropSketch pg).bankTick = s.bankTick := rfl
@[simp] theorem State.dropSketch_senseAt (s : State) (pg : Nat) : (s.dropSketch pg).senseAt = s.senseAt := rfl
@[simp] theorem State.dropSketch_legs (s : State) (pg : Nat) : (s.dropSketch pg).legs = s.legs := rfl
@[simp] theorem State.dropSketch_bridges (s : State) (pg : Nat) : (s.dropSketch pg).bridges = s.bridges := rfl
@[simp] theorem State.dropSketch_valves (s : State) (pg : Nat) : (s.dropSketch pg).valves = s.valves := rfl
@[simp] theorem State.dropSketch_sides (s : State) (pg : Nat) : (s.dropSketch pg).sides = s.sides := rfl
@[simp] theorem State.dropSketch_boostTick (s : State) (pg : Nat) : (s.dropSketch pg).boostTick = s.boostTick := rfl
@[simp] theorem State.dropSketch_boostTold (s : State) (pg : Nat) : (s.dropSketch pg).boostTold = s.boostTold := rfl
@[simp] theorem State.dropSketch_light (s : State) (pg : Nat) : (s.dropSketch pg).light = s.light := rfl
@[simp] theorem State.dropSketch_ambs (s : State) (pg : Nat) : (s.dropSketch pg).ambs = s.ambs := rfl
@[simp] theorem State.dropSketch_sis (s : State) (pg : Nat) : (s.dropSketch pg).sis = s.sis := rfl
@[simp] theorem State.dropSketch_ios (s : State) (pg : Nat) : (s.dropSketch pg).ios = s.ios := rfl
@[simp] theorem State.dropSketch_siRef (s : State) (pg : Nat) : (s.dropSketch pg).siRef = s.siRef := rfl
@[simp] theorem State.dropSketch_siRefPg (s : State) (pg : Nat) : (s.dropSketch pg).siRefPg = s.siRefPg := rfl
@[simp] theorem State.dropSketch_fsDie (s : State) (pg : Nat) : (s.dropSketch pg).fsDie = s.fsDie := rfl
@[simp] theorem State.dropSketch_fsNew (s : State) (pg : Nat) : (s.dropSketch pg).fsNew = s.fsNew := rfl
@[simp] theorem State.dropSketch_fsAt (s : State) (pg : Nat) : (s.dropSketch pg).fsAt = s.fsAt := rfl
@[simp] theorem State.dropSketch_parkWake (s : State) (pg : Nat) : (s.dropSketch pg).parkWake = s.parkWake := rfl
@[simp] theorem State.dropSketch_cans (s : State) (pg : Nat) : (s.dropSketch pg).cans = s.cans := rfl
@[simp] theorem State.dropSketch_lins (s : State) (pg : Nat) : (s.dropSketch pg).lins = s.lins := rfl
@[simp] theorem State.dropSketch_eth (s : State) (pg : Nat) : (s.dropSketch pg).eth = s.eth := rfl
@[simp] theorem State.dropSketch_nm (s : State) (pg : Nat) : (s.dropSketch pg).nm = s.nm := rfl
@[simp] theorem State.dropSketch_pulses (s : State) (pg : Nat) : (s.dropSketch pg).pulses = s.pulses := rfl
@[simp] theorem State.dropSketch_clauses (s : State) (pg : Nat) : (s.dropSketch pg).clauses = s.clauses := rfl
@[simp] theorem State.dropSketch_slots (s : State) (pg : Nat) : (s.dropSketch pg).slots = s.slots := rfl
@[simp] theorem State.dropSketch_rxlTick (s : State) (pg : Nat) : (s.dropSketch pg).rxlTick = s.rxlTick := rfl
@[simp] theorem State.dropSketch_retouchPend (s : State) (pg : Nat) : (s.dropSketch pg).retouchPend = s.retouchPend := rfl
@[simp] theorem State.dropSketch_lcMap (s : State) (pg : Nat) : (s.dropSketch pg).lcMap = s.lcMap := rfl
@[simp] theorem State.dropSketch_ctxs (s : State) (pg : Nat) : (s.dropSketch pg).ctxs = s.ctxs := rfl
@[simp] theorem State.dropSketch_lcores (s : State) (pg : Nat) : (s.dropSketch pg).lcores = s.lcores := rfl
@[simp] theorem State.dropSketch_icache (s : State) (pg : Nat) : (s.dropSketch pg).icache = s.icache := rfl
@[simp] theorem State.dropSketch_icBad (s : State) (pg : Nat) : (s.dropSketch pg).icBad = s.icBad := rfl
@[simp] theorem State.dropSketch_testAt (s : State) (pg : Nat) : (s.dropSketch pg).testAt = s.testAt := rfl
@[simp] theorem State.dropSketch_nmts (s : State) (pg : Nat) : (s.dropSketch pg).nmts = s.nmts := rfl
@[simp] theorem State.dropSketch_ops (s : State) (pg : Nat) : (s.dropSketch pg).ops = s.ops := rfl
@[simp] theorem State.dropSketch_opNext (s : State) (pg : Nat) : (s.dropSketch pg).opNext = s.opNext := rfl
@[simp] theorem State.dropSketch_takeovers (s : State) (pg : Nat) : (s.dropSketch pg).takeovers = s.takeovers := rfl
@[simp] theorem State.dropSketch_tkWait (s : State) (pg : Nat) : (s.dropSketch pg).tkWait = s.tkWait := rfl
@[simp] theorem State.dropSketch_lcmHeld (s : State) (pg : Nat) : (s.dropSketch pg).lcmHeld = s.lcmHeld := rfl
@[simp] theorem State.dropSketch_retired (s : State) (pg : Nat) : (s.dropSketch pg).retired = s.retired := rfl
@[simp] theorem State.dropSketch_lcSram (s : State) (pg : Nat) : (s.dropSketch pg).lcSram = s.lcSram := rfl
@[simp] theorem State.dropSketch_memc (s : State) (pg : Nat) : (s.dropSketch pg).memc = s.memc := rfl
@[simp] theorem State.dropSketch_cry (s : State) (pg : Nat) : (s.dropSketch pg).cry = s.cry := rfl
@[simp] theorem State.dropSketch_flt (s : State) (pg : Nat) : (s.dropSketch pg).flt = s.flt := rfl
@[simp] theorem State.dropSketch_pwr (s : State) (pg : Nat) : (s.dropSketch pg).pwr = s.pwr := rfl
@[simp] theorem State.dropSketch_upd (s : State) (pg : Nat) : (s.dropSketch pg).upd = s.upd := rfl
@[simp] theorem State.dropSketch_power (s : State) (pg : Nat) : (s.dropSketch pg).power = s.power := rfl

/-! ## setCtx -/

@[simp] theorem State.setCtx_regs (s : State) (k : Nat) (c : Ctx) : (s.setCtx k c).regs = s.regs := rfl
@[simp] theorem State.setCtx_sketch (s : State) (k : Nat) (c : Ctx) : (s.setCtx k c).sketch = s.sketch := rfl
@[simp] theorem State.setCtx_symErr (s : State) (k : Nat) (c : Ctx) : (s.setCtx k c).symErr = s.symErr := rfl
@[simp] theorem State.setCtx_pending (s : State) (k : Nat) (c : Ctx) : (s.setCtx k c).pending = s.pending := rfl
@[simp] theorem State.setCtx_mem (s : State) (k : Nat) (c : Ctx) : (s.setCtx k c).mem = s.mem := rfl
@[simp] theorem State.setCtx_poison (s : State) (k : Nat) (c : Ctx) : (s.setCtx k c).poison = s.poison := rfl
@[simp] theorem State.setCtx_bankB (s : State) (k : Nat) (c : Ctx) : (s.setCtx k c).bankB = s.bankB := rfl
@[simp] theorem State.setCtx_freeCtr (s : State) (k : Nat) (c : Ctx) : (s.setCtx k c).freeCtr = s.freeCtr := rfl
@[simp] theorem State.setCtx_tb (s : State) (k : Nat) (c : Ctx) : (s.setCtx k c).tb = s.tb := rfl
@[simp] theorem State.setCtx_tbRun (s : State) (k : Nat) (c : Ctx) : (s.setCtx k c).tbRun = s.tbRun := rfl
@[simp] theorem State.setCtx_kaLead (s : State) (k : Nat) (c : Ctx) : (s.setCtx k c).kaLead = s.kaLead := rfl
@[simp] theorem State.setCtx_tbStep (s : State) (k : Nat) (c : Ctx) : (s.setCtx k c).tbStep = s.tbStep := rfl
@[simp] theorem State.setCtx_syncGood (s : State) (k : Nat) (c : Ctx) : (s.setCtx k c).syncGood = s.syncGood := rfl
@[simp] theorem State.setCtx_syncTick (s : State) (k : Nat) (c : Ctx) : (s.setCtx k c).syncTick = s.syncTick := rfl
@[simp] theorem State.setCtx_tbcTick (s : State) (k : Nat) (c : Ctx) : (s.setCtx k c).tbcTick = s.tbcTick := rfl
@[simp] theorem State.setCtx_clkDead (s : State) (k : Nat) (c : Ctx) : (s.setCtx k c).clkDead = s.clkDead := rfl
@[simp] theorem State.setCtx_clkLost (s : State) (k : Nat) (c : Ctx) : (s.setCtx k c).clkLost = s.clkLost := rfl
@[simp] theorem State.setCtx_raises (s : State) (k : Nat) (c : Ctx) : (s.setCtx k c).raises = s.raises := rfl
@[simp] theorem State.setCtx_postings (s : State) (k : Nat) (c : Ctx) : (s.setCtx k c).postings = s.postings := rfl
@[simp] theorem State.setCtx_capPend (s : State) (k : Nat) (c : Ctx) : (s.setCtx k c).capPend = s.capPend := rfl
@[simp] theorem State.setCtx_outbox (s : State) (k : Nat) (c : Ctx) : (s.setCtx k c).outbox = s.outbox := rfl
@[simp] theorem State.setCtx_fixScope (s : State) (k : Nat) (c : Ctx) : (s.setCtx k c).fixScope = s.fixScope := rfl
@[simp] theorem State.setCtx_fixStale (s : State) (k : Nat) (c : Ctx) : (s.setCtx k c).fixStale = s.fixStale := rfl
@[simp] theorem State.setCtx_fixMode (s : State) (k : Nat) (c : Ctx) : (s.setCtx k c).fixMode = s.fixMode := rfl
@[simp] theorem State.setCtx_fixTag (s : State) (k : Nat) (c : Ctx) : (s.setCtx k c).fixTag = s.fixTag := rfl
@[simp] theorem State.setCtx_fixBlead (s : State) (k : Nat) (c : Ctx) : (s.setCtx k c).fixBlead = s.fixBlead := rfl
@[simp] theorem State.setCtx_fixBexp (s : State) (k : Nat) (c : Ctx) : (s.setCtx k c).fixBexp = s.fixBexp := rfl
@[simp] theorem State.setCtx_fixTime (s : State) (k : Nat) (c : Ctx) : (s.setCtx k c).fixTime = s.fixTime := rfl
@[simp] theorem State.setCtx_fixBcast (s : State) (k : Nat) (c : Ctx) : (s.setCtx k c).fixBcast = s.fixBcast := rfl
@[simp] theorem State.setCtx_fixCopied (s : State) (k : Nat) (c : Ctx) : (s.setCtx k c).fixCopied = s.fixCopied := rfl
@[simp] theorem State.setCtx_fixReset (s : State) (k : Nat) (c : Ctx) : (s.setCtx k c).fixReset = s.fixReset := rfl
@[simp] theorem State.setCtx_fixResetPgs (s : State) (k : Nat) (c : Ctx) : (s.setCtx k c).fixResetPgs = s.fixResetPgs := rfl
@[simp] theorem State.setCtx_fixSeen (s : State) (k : Nat) (c : Ctx) : (s.setCtx k c).fixSeen = s.fixSeen := rfl
@[simp] theorem State.setCtx_fixInit (s : State) (k : Nat) (c : Ctx) : (s.setCtx k c).fixInit = s.fixInit := rfl
@[simp] theorem State.setCtx_lfHeld (s : State) (k : Nat) (c : Ctx) : (s.setCtx k c).lfHeld = s.lfHeld := rfl
@[simp] theorem State.setCtx_hs (s : State) (k : Nat) (c : Ctx) : (s.setCtx k c).hs = s.hs := rfl
@[simp] theorem State.setCtx_dies (s : State) (k : Nat) (c : Ctx) : (s.setCtx k c).dies = s.dies := rfl
@[simp] theorem State.setCtx_bankTick (s : State) (k : Nat) (c : Ctx) : (s.setCtx k c).bankTick = s.bankTick := rfl
@[simp] theorem State.setCtx_senseAt (s : State) (k : Nat) (c : Ctx) : (s.setCtx k c).senseAt = s.senseAt := rfl
@[simp] theorem State.setCtx_legs (s : State) (k : Nat) (c : Ctx) : (s.setCtx k c).legs = s.legs := rfl
@[simp] theorem State.setCtx_bridges (s : State) (k : Nat) (c : Ctx) : (s.setCtx k c).bridges = s.bridges := rfl
@[simp] theorem State.setCtx_valves (s : State) (k : Nat) (c : Ctx) : (s.setCtx k c).valves = s.valves := rfl
@[simp] theorem State.setCtx_sides (s : State) (k : Nat) (c : Ctx) : (s.setCtx k c).sides = s.sides := rfl
@[simp] theorem State.setCtx_boostTick (s : State) (k : Nat) (c : Ctx) : (s.setCtx k c).boostTick = s.boostTick := rfl
@[simp] theorem State.setCtx_boostTold (s : State) (k : Nat) (c : Ctx) : (s.setCtx k c).boostTold = s.boostTold := rfl
@[simp] theorem State.setCtx_light (s : State) (k : Nat) (c : Ctx) : (s.setCtx k c).light = s.light := rfl
@[simp] theorem State.setCtx_ambs (s : State) (k : Nat) (c : Ctx) : (s.setCtx k c).ambs = s.ambs := rfl
@[simp] theorem State.setCtx_sis (s : State) (k : Nat) (c : Ctx) : (s.setCtx k c).sis = s.sis := rfl
@[simp] theorem State.setCtx_ios (s : State) (k : Nat) (c : Ctx) : (s.setCtx k c).ios = s.ios := rfl
@[simp] theorem State.setCtx_siRef (s : State) (k : Nat) (c : Ctx) : (s.setCtx k c).siRef = s.siRef := rfl
@[simp] theorem State.setCtx_siRefPg (s : State) (k : Nat) (c : Ctx) : (s.setCtx k c).siRefPg = s.siRefPg := rfl
@[simp] theorem State.setCtx_fsDie (s : State) (k : Nat) (c : Ctx) : (s.setCtx k c).fsDie = s.fsDie := rfl
@[simp] theorem State.setCtx_fsNew (s : State) (k : Nat) (c : Ctx) : (s.setCtx k c).fsNew = s.fsNew := rfl
@[simp] theorem State.setCtx_fsAt (s : State) (k : Nat) (c : Ctx) : (s.setCtx k c).fsAt = s.fsAt := rfl
@[simp] theorem State.setCtx_parkWake (s : State) (k : Nat) (c : Ctx) : (s.setCtx k c).parkWake = s.parkWake := rfl
@[simp] theorem State.setCtx_cans (s : State) (k : Nat) (c : Ctx) : (s.setCtx k c).cans = s.cans := rfl
@[simp] theorem State.setCtx_lins (s : State) (k : Nat) (c : Ctx) : (s.setCtx k c).lins = s.lins := rfl
@[simp] theorem State.setCtx_eth (s : State) (k : Nat) (c : Ctx) : (s.setCtx k c).eth = s.eth := rfl
@[simp] theorem State.setCtx_nm (s : State) (k : Nat) (c : Ctx) : (s.setCtx k c).nm = s.nm := rfl
@[simp] theorem State.setCtx_pulses (s : State) (k : Nat) (c : Ctx) : (s.setCtx k c).pulses = s.pulses := rfl
@[simp] theorem State.setCtx_clauses (s : State) (k : Nat) (c : Ctx) : (s.setCtx k c).clauses = s.clauses := rfl
@[simp] theorem State.setCtx_slots (s : State) (k : Nat) (c : Ctx) : (s.setCtx k c).slots = s.slots := rfl
@[simp] theorem State.setCtx_rxlTick (s : State) (k : Nat) (c : Ctx) : (s.setCtx k c).rxlTick = s.rxlTick := rfl
@[simp] theorem State.setCtx_retouchPend (s : State) (k : Nat) (c : Ctx) : (s.setCtx k c).retouchPend = s.retouchPend := rfl
@[simp] theorem State.setCtx_lcMap (s : State) (k : Nat) (c : Ctx) : (s.setCtx k c).lcMap = s.lcMap := rfl
@[simp] theorem State.setCtx_lcores (s : State) (k : Nat) (c : Ctx) : (s.setCtx k c).lcores = s.lcores := rfl
@[simp] theorem State.setCtx_icache (s : State) (k : Nat) (c : Ctx) : (s.setCtx k c).icache = s.icache := rfl
@[simp] theorem State.setCtx_icBad (s : State) (k : Nat) (c : Ctx) : (s.setCtx k c).icBad = s.icBad := rfl
@[simp] theorem State.setCtx_testAt (s : State) (k : Nat) (c : Ctx) : (s.setCtx k c).testAt = s.testAt := rfl
@[simp] theorem State.setCtx_nmts (s : State) (k : Nat) (c : Ctx) : (s.setCtx k c).nmts = s.nmts := rfl
@[simp] theorem State.setCtx_ops (s : State) (k : Nat) (c : Ctx) : (s.setCtx k c).ops = s.ops := rfl
@[simp] theorem State.setCtx_opNext (s : State) (k : Nat) (c : Ctx) : (s.setCtx k c).opNext = s.opNext := rfl
@[simp] theorem State.setCtx_takeovers (s : State) (k : Nat) (c : Ctx) : (s.setCtx k c).takeovers = s.takeovers := rfl
@[simp] theorem State.setCtx_tkWait (s : State) (k : Nat) (c : Ctx) : (s.setCtx k c).tkWait = s.tkWait := rfl
@[simp] theorem State.setCtx_lcmHeld (s : State) (k : Nat) (c : Ctx) : (s.setCtx k c).lcmHeld = s.lcmHeld := rfl
@[simp] theorem State.setCtx_retired (s : State) (k : Nat) (c : Ctx) : (s.setCtx k c).retired = s.retired := rfl
@[simp] theorem State.setCtx_lcSram (s : State) (k : Nat) (c : Ctx) : (s.setCtx k c).lcSram = s.lcSram := rfl
@[simp] theorem State.setCtx_memc (s : State) (k : Nat) (c : Ctx) : (s.setCtx k c).memc = s.memc := rfl
@[simp] theorem State.setCtx_cry (s : State) (k : Nat) (c : Ctx) : (s.setCtx k c).cry = s.cry := rfl
@[simp] theorem State.setCtx_flt (s : State) (k : Nat) (c : Ctx) : (s.setCtx k c).flt = s.flt := rfl
@[simp] theorem State.setCtx_pwr (s : State) (k : Nat) (c : Ctx) : (s.setCtx k c).pwr = s.pwr := rfl
@[simp] theorem State.setCtx_upd (s : State) (k : Nat) (c : Ctx) : (s.setCtx k c).upd = s.upd := rfl
@[simp] theorem State.setCtx_power (s : State) (k : Nat) (c : Ctx) : (s.setCtx k c).power = s.power := rfl

/-! ## modCtx -/

@[simp] theorem State.modCtx_regs (s : State) (k : Nat) (f : Ctx → Ctx) : (s.modCtx k f).regs = s.regs := rfl
@[simp] theorem State.modCtx_sketch (s : State) (k : Nat) (f : Ctx → Ctx) : (s.modCtx k f).sketch = s.sketch := rfl
@[simp] theorem State.modCtx_symErr (s : State) (k : Nat) (f : Ctx → Ctx) : (s.modCtx k f).symErr = s.symErr := rfl
@[simp] theorem State.modCtx_pending (s : State) (k : Nat) (f : Ctx → Ctx) : (s.modCtx k f).pending = s.pending := rfl
@[simp] theorem State.modCtx_mem (s : State) (k : Nat) (f : Ctx → Ctx) : (s.modCtx k f).mem = s.mem := rfl
@[simp] theorem State.modCtx_poison (s : State) (k : Nat) (f : Ctx → Ctx) : (s.modCtx k f).poison = s.poison := rfl
@[simp] theorem State.modCtx_bankB (s : State) (k : Nat) (f : Ctx → Ctx) : (s.modCtx k f).bankB = s.bankB := rfl
@[simp] theorem State.modCtx_freeCtr (s : State) (k : Nat) (f : Ctx → Ctx) : (s.modCtx k f).freeCtr = s.freeCtr := rfl
@[simp] theorem State.modCtx_tb (s : State) (k : Nat) (f : Ctx → Ctx) : (s.modCtx k f).tb = s.tb := rfl
@[simp] theorem State.modCtx_tbRun (s : State) (k : Nat) (f : Ctx → Ctx) : (s.modCtx k f).tbRun = s.tbRun := rfl
@[simp] theorem State.modCtx_kaLead (s : State) (k : Nat) (f : Ctx → Ctx) : (s.modCtx k f).kaLead = s.kaLead := rfl
@[simp] theorem State.modCtx_tbStep (s : State) (k : Nat) (f : Ctx → Ctx) : (s.modCtx k f).tbStep = s.tbStep := rfl
@[simp] theorem State.modCtx_syncGood (s : State) (k : Nat) (f : Ctx → Ctx) : (s.modCtx k f).syncGood = s.syncGood := rfl
@[simp] theorem State.modCtx_syncTick (s : State) (k : Nat) (f : Ctx → Ctx) : (s.modCtx k f).syncTick = s.syncTick := rfl
@[simp] theorem State.modCtx_tbcTick (s : State) (k : Nat) (f : Ctx → Ctx) : (s.modCtx k f).tbcTick = s.tbcTick := rfl
@[simp] theorem State.modCtx_clkDead (s : State) (k : Nat) (f : Ctx → Ctx) : (s.modCtx k f).clkDead = s.clkDead := rfl
@[simp] theorem State.modCtx_clkLost (s : State) (k : Nat) (f : Ctx → Ctx) : (s.modCtx k f).clkLost = s.clkLost := rfl
@[simp] theorem State.modCtx_raises (s : State) (k : Nat) (f : Ctx → Ctx) : (s.modCtx k f).raises = s.raises := rfl
@[simp] theorem State.modCtx_postings (s : State) (k : Nat) (f : Ctx → Ctx) : (s.modCtx k f).postings = s.postings := rfl
@[simp] theorem State.modCtx_capPend (s : State) (k : Nat) (f : Ctx → Ctx) : (s.modCtx k f).capPend = s.capPend := rfl
@[simp] theorem State.modCtx_outbox (s : State) (k : Nat) (f : Ctx → Ctx) : (s.modCtx k f).outbox = s.outbox := rfl
@[simp] theorem State.modCtx_fixScope (s : State) (k : Nat) (f : Ctx → Ctx) : (s.modCtx k f).fixScope = s.fixScope := rfl
@[simp] theorem State.modCtx_fixStale (s : State) (k : Nat) (f : Ctx → Ctx) : (s.modCtx k f).fixStale = s.fixStale := rfl
@[simp] theorem State.modCtx_fixMode (s : State) (k : Nat) (f : Ctx → Ctx) : (s.modCtx k f).fixMode = s.fixMode := rfl
@[simp] theorem State.modCtx_fixTag (s : State) (k : Nat) (f : Ctx → Ctx) : (s.modCtx k f).fixTag = s.fixTag := rfl
@[simp] theorem State.modCtx_fixBlead (s : State) (k : Nat) (f : Ctx → Ctx) : (s.modCtx k f).fixBlead = s.fixBlead := rfl
@[simp] theorem State.modCtx_fixBexp (s : State) (k : Nat) (f : Ctx → Ctx) : (s.modCtx k f).fixBexp = s.fixBexp := rfl
@[simp] theorem State.modCtx_fixTime (s : State) (k : Nat) (f : Ctx → Ctx) : (s.modCtx k f).fixTime = s.fixTime := rfl
@[simp] theorem State.modCtx_fixBcast (s : State) (k : Nat) (f : Ctx → Ctx) : (s.modCtx k f).fixBcast = s.fixBcast := rfl
@[simp] theorem State.modCtx_fixCopied (s : State) (k : Nat) (f : Ctx → Ctx) : (s.modCtx k f).fixCopied = s.fixCopied := rfl
@[simp] theorem State.modCtx_fixReset (s : State) (k : Nat) (f : Ctx → Ctx) : (s.modCtx k f).fixReset = s.fixReset := rfl
@[simp] theorem State.modCtx_fixResetPgs (s : State) (k : Nat) (f : Ctx → Ctx) : (s.modCtx k f).fixResetPgs = s.fixResetPgs := rfl
@[simp] theorem State.modCtx_fixSeen (s : State) (k : Nat) (f : Ctx → Ctx) : (s.modCtx k f).fixSeen = s.fixSeen := rfl
@[simp] theorem State.modCtx_fixInit (s : State) (k : Nat) (f : Ctx → Ctx) : (s.modCtx k f).fixInit = s.fixInit := rfl
@[simp] theorem State.modCtx_lfHeld (s : State) (k : Nat) (f : Ctx → Ctx) : (s.modCtx k f).lfHeld = s.lfHeld := rfl
@[simp] theorem State.modCtx_hs (s : State) (k : Nat) (f : Ctx → Ctx) : (s.modCtx k f).hs = s.hs := rfl
@[simp] theorem State.modCtx_dies (s : State) (k : Nat) (f : Ctx → Ctx) : (s.modCtx k f).dies = s.dies := rfl
@[simp] theorem State.modCtx_bankTick (s : State) (k : Nat) (f : Ctx → Ctx) : (s.modCtx k f).bankTick = s.bankTick := rfl
@[simp] theorem State.modCtx_senseAt (s : State) (k : Nat) (f : Ctx → Ctx) : (s.modCtx k f).senseAt = s.senseAt := rfl
@[simp] theorem State.modCtx_legs (s : State) (k : Nat) (f : Ctx → Ctx) : (s.modCtx k f).legs = s.legs := rfl
@[simp] theorem State.modCtx_bridges (s : State) (k : Nat) (f : Ctx → Ctx) : (s.modCtx k f).bridges = s.bridges := rfl
@[simp] theorem State.modCtx_valves (s : State) (k : Nat) (f : Ctx → Ctx) : (s.modCtx k f).valves = s.valves := rfl
@[simp] theorem State.modCtx_sides (s : State) (k : Nat) (f : Ctx → Ctx) : (s.modCtx k f).sides = s.sides := rfl
@[simp] theorem State.modCtx_boostTick (s : State) (k : Nat) (f : Ctx → Ctx) : (s.modCtx k f).boostTick = s.boostTick := rfl
@[simp] theorem State.modCtx_boostTold (s : State) (k : Nat) (f : Ctx → Ctx) : (s.modCtx k f).boostTold = s.boostTold := rfl
@[simp] theorem State.modCtx_light (s : State) (k : Nat) (f : Ctx → Ctx) : (s.modCtx k f).light = s.light := rfl
@[simp] theorem State.modCtx_ambs (s : State) (k : Nat) (f : Ctx → Ctx) : (s.modCtx k f).ambs = s.ambs := rfl
@[simp] theorem State.modCtx_sis (s : State) (k : Nat) (f : Ctx → Ctx) : (s.modCtx k f).sis = s.sis := rfl
@[simp] theorem State.modCtx_ios (s : State) (k : Nat) (f : Ctx → Ctx) : (s.modCtx k f).ios = s.ios := rfl
@[simp] theorem State.modCtx_siRef (s : State) (k : Nat) (f : Ctx → Ctx) : (s.modCtx k f).siRef = s.siRef := rfl
@[simp] theorem State.modCtx_siRefPg (s : State) (k : Nat) (f : Ctx → Ctx) : (s.modCtx k f).siRefPg = s.siRefPg := rfl
@[simp] theorem State.modCtx_fsDie (s : State) (k : Nat) (f : Ctx → Ctx) : (s.modCtx k f).fsDie = s.fsDie := rfl
@[simp] theorem State.modCtx_fsNew (s : State) (k : Nat) (f : Ctx → Ctx) : (s.modCtx k f).fsNew = s.fsNew := rfl
@[simp] theorem State.modCtx_fsAt (s : State) (k : Nat) (f : Ctx → Ctx) : (s.modCtx k f).fsAt = s.fsAt := rfl
@[simp] theorem State.modCtx_parkWake (s : State) (k : Nat) (f : Ctx → Ctx) : (s.modCtx k f).parkWake = s.parkWake := rfl
@[simp] theorem State.modCtx_cans (s : State) (k : Nat) (f : Ctx → Ctx) : (s.modCtx k f).cans = s.cans := rfl
@[simp] theorem State.modCtx_lins (s : State) (k : Nat) (f : Ctx → Ctx) : (s.modCtx k f).lins = s.lins := rfl
@[simp] theorem State.modCtx_eth (s : State) (k : Nat) (f : Ctx → Ctx) : (s.modCtx k f).eth = s.eth := rfl
@[simp] theorem State.modCtx_nm (s : State) (k : Nat) (f : Ctx → Ctx) : (s.modCtx k f).nm = s.nm := rfl
@[simp] theorem State.modCtx_pulses (s : State) (k : Nat) (f : Ctx → Ctx) : (s.modCtx k f).pulses = s.pulses := rfl
@[simp] theorem State.modCtx_clauses (s : State) (k : Nat) (f : Ctx → Ctx) : (s.modCtx k f).clauses = s.clauses := rfl
@[simp] theorem State.modCtx_slots (s : State) (k : Nat) (f : Ctx → Ctx) : (s.modCtx k f).slots = s.slots := rfl
@[simp] theorem State.modCtx_rxlTick (s : State) (k : Nat) (f : Ctx → Ctx) : (s.modCtx k f).rxlTick = s.rxlTick := rfl
@[simp] theorem State.modCtx_retouchPend (s : State) (k : Nat) (f : Ctx → Ctx) : (s.modCtx k f).retouchPend = s.retouchPend := rfl
@[simp] theorem State.modCtx_lcMap (s : State) (k : Nat) (f : Ctx → Ctx) : (s.modCtx k f).lcMap = s.lcMap := rfl
@[simp] theorem State.modCtx_lcores (s : State) (k : Nat) (f : Ctx → Ctx) : (s.modCtx k f).lcores = s.lcores := rfl
@[simp] theorem State.modCtx_icache (s : State) (k : Nat) (f : Ctx → Ctx) : (s.modCtx k f).icache = s.icache := rfl
@[simp] theorem State.modCtx_icBad (s : State) (k : Nat) (f : Ctx → Ctx) : (s.modCtx k f).icBad = s.icBad := rfl
@[simp] theorem State.modCtx_testAt (s : State) (k : Nat) (f : Ctx → Ctx) : (s.modCtx k f).testAt = s.testAt := rfl
@[simp] theorem State.modCtx_nmts (s : State) (k : Nat) (f : Ctx → Ctx) : (s.modCtx k f).nmts = s.nmts := rfl
@[simp] theorem State.modCtx_ops (s : State) (k : Nat) (f : Ctx → Ctx) : (s.modCtx k f).ops = s.ops := rfl
@[simp] theorem State.modCtx_opNext (s : State) (k : Nat) (f : Ctx → Ctx) : (s.modCtx k f).opNext = s.opNext := rfl
@[simp] theorem State.modCtx_takeovers (s : State) (k : Nat) (f : Ctx → Ctx) : (s.modCtx k f).takeovers = s.takeovers := rfl
@[simp] theorem State.modCtx_tkWait (s : State) (k : Nat) (f : Ctx → Ctx) : (s.modCtx k f).tkWait = s.tkWait := rfl
@[simp] theorem State.modCtx_lcmHeld (s : State) (k : Nat) (f : Ctx → Ctx) : (s.modCtx k f).lcmHeld = s.lcmHeld := rfl
@[simp] theorem State.modCtx_retired (s : State) (k : Nat) (f : Ctx → Ctx) : (s.modCtx k f).retired = s.retired := rfl
@[simp] theorem State.modCtx_lcSram (s : State) (k : Nat) (f : Ctx → Ctx) : (s.modCtx k f).lcSram = s.lcSram := rfl
@[simp] theorem State.modCtx_memc (s : State) (k : Nat) (f : Ctx → Ctx) : (s.modCtx k f).memc = s.memc := rfl
@[simp] theorem State.modCtx_cry (s : State) (k : Nat) (f : Ctx → Ctx) : (s.modCtx k f).cry = s.cry := rfl
@[simp] theorem State.modCtx_flt (s : State) (k : Nat) (f : Ctx → Ctx) : (s.modCtx k f).flt = s.flt := rfl
@[simp] theorem State.modCtx_pwr (s : State) (k : Nat) (f : Ctx → Ctx) : (s.modCtx k f).pwr = s.pwr := rfl
@[simp] theorem State.modCtx_upd (s : State) (k : Nat) (f : Ctx → Ctx) : (s.modCtx k f).upd = s.upd := rfl
@[simp] theorem State.modCtx_power (s : State) (k : Nat) (f : Ctx → Ctx) : (s.modCtx k f).power = s.power := rfl

/-! ## modCx -/

@[simp] theorem State.modCx_regs (s : State) (k : Nat) (f : CtxRegs → CtxRegs) : (s.modCx k f).regs = s.regs := rfl
@[simp] theorem State.modCx_sketch (s : State) (k : Nat) (f : CtxRegs → CtxRegs) : (s.modCx k f).sketch = s.sketch := rfl
@[simp] theorem State.modCx_symErr (s : State) (k : Nat) (f : CtxRegs → CtxRegs) : (s.modCx k f).symErr = s.symErr := rfl
@[simp] theorem State.modCx_pending (s : State) (k : Nat) (f : CtxRegs → CtxRegs) : (s.modCx k f).pending = s.pending := rfl
@[simp] theorem State.modCx_mem (s : State) (k : Nat) (f : CtxRegs → CtxRegs) : (s.modCx k f).mem = s.mem := rfl
@[simp] theorem State.modCx_poison (s : State) (k : Nat) (f : CtxRegs → CtxRegs) : (s.modCx k f).poison = s.poison := rfl
@[simp] theorem State.modCx_bankB (s : State) (k : Nat) (f : CtxRegs → CtxRegs) : (s.modCx k f).bankB = s.bankB := rfl
@[simp] theorem State.modCx_freeCtr (s : State) (k : Nat) (f : CtxRegs → CtxRegs) : (s.modCx k f).freeCtr = s.freeCtr := rfl
@[simp] theorem State.modCx_tb (s : State) (k : Nat) (f : CtxRegs → CtxRegs) : (s.modCx k f).tb = s.tb := rfl
@[simp] theorem State.modCx_tbRun (s : State) (k : Nat) (f : CtxRegs → CtxRegs) : (s.modCx k f).tbRun = s.tbRun := rfl
@[simp] theorem State.modCx_kaLead (s : State) (k : Nat) (f : CtxRegs → CtxRegs) : (s.modCx k f).kaLead = s.kaLead := rfl
@[simp] theorem State.modCx_tbStep (s : State) (k : Nat) (f : CtxRegs → CtxRegs) : (s.modCx k f).tbStep = s.tbStep := rfl
@[simp] theorem State.modCx_syncGood (s : State) (k : Nat) (f : CtxRegs → CtxRegs) : (s.modCx k f).syncGood = s.syncGood := rfl
@[simp] theorem State.modCx_syncTick (s : State) (k : Nat) (f : CtxRegs → CtxRegs) : (s.modCx k f).syncTick = s.syncTick := rfl
@[simp] theorem State.modCx_tbcTick (s : State) (k : Nat) (f : CtxRegs → CtxRegs) : (s.modCx k f).tbcTick = s.tbcTick := rfl
@[simp] theorem State.modCx_clkDead (s : State) (k : Nat) (f : CtxRegs → CtxRegs) : (s.modCx k f).clkDead = s.clkDead := rfl
@[simp] theorem State.modCx_clkLost (s : State) (k : Nat) (f : CtxRegs → CtxRegs) : (s.modCx k f).clkLost = s.clkLost := rfl
@[simp] theorem State.modCx_raises (s : State) (k : Nat) (f : CtxRegs → CtxRegs) : (s.modCx k f).raises = s.raises := rfl
@[simp] theorem State.modCx_postings (s : State) (k : Nat) (f : CtxRegs → CtxRegs) : (s.modCx k f).postings = s.postings := rfl
@[simp] theorem State.modCx_capPend (s : State) (k : Nat) (f : CtxRegs → CtxRegs) : (s.modCx k f).capPend = s.capPend := rfl
@[simp] theorem State.modCx_outbox (s : State) (k : Nat) (f : CtxRegs → CtxRegs) : (s.modCx k f).outbox = s.outbox := rfl
@[simp] theorem State.modCx_fixScope (s : State) (k : Nat) (f : CtxRegs → CtxRegs) : (s.modCx k f).fixScope = s.fixScope := rfl
@[simp] theorem State.modCx_fixStale (s : State) (k : Nat) (f : CtxRegs → CtxRegs) : (s.modCx k f).fixStale = s.fixStale := rfl
@[simp] theorem State.modCx_fixMode (s : State) (k : Nat) (f : CtxRegs → CtxRegs) : (s.modCx k f).fixMode = s.fixMode := rfl
@[simp] theorem State.modCx_fixTag (s : State) (k : Nat) (f : CtxRegs → CtxRegs) : (s.modCx k f).fixTag = s.fixTag := rfl
@[simp] theorem State.modCx_fixBlead (s : State) (k : Nat) (f : CtxRegs → CtxRegs) : (s.modCx k f).fixBlead = s.fixBlead := rfl
@[simp] theorem State.modCx_fixBexp (s : State) (k : Nat) (f : CtxRegs → CtxRegs) : (s.modCx k f).fixBexp = s.fixBexp := rfl
@[simp] theorem State.modCx_fixTime (s : State) (k : Nat) (f : CtxRegs → CtxRegs) : (s.modCx k f).fixTime = s.fixTime := rfl
@[simp] theorem State.modCx_fixBcast (s : State) (k : Nat) (f : CtxRegs → CtxRegs) : (s.modCx k f).fixBcast = s.fixBcast := rfl
@[simp] theorem State.modCx_fixCopied (s : State) (k : Nat) (f : CtxRegs → CtxRegs) : (s.modCx k f).fixCopied = s.fixCopied := rfl
@[simp] theorem State.modCx_fixReset (s : State) (k : Nat) (f : CtxRegs → CtxRegs) : (s.modCx k f).fixReset = s.fixReset := rfl
@[simp] theorem State.modCx_fixResetPgs (s : State) (k : Nat) (f : CtxRegs → CtxRegs) : (s.modCx k f).fixResetPgs = s.fixResetPgs := rfl
@[simp] theorem State.modCx_fixSeen (s : State) (k : Nat) (f : CtxRegs → CtxRegs) : (s.modCx k f).fixSeen = s.fixSeen := rfl
@[simp] theorem State.modCx_fixInit (s : State) (k : Nat) (f : CtxRegs → CtxRegs) : (s.modCx k f).fixInit = s.fixInit := rfl
@[simp] theorem State.modCx_lfHeld (s : State) (k : Nat) (f : CtxRegs → CtxRegs) : (s.modCx k f).lfHeld = s.lfHeld := rfl
@[simp] theorem State.modCx_hs (s : State) (k : Nat) (f : CtxRegs → CtxRegs) : (s.modCx k f).hs = s.hs := rfl
@[simp] theorem State.modCx_dies (s : State) (k : Nat) (f : CtxRegs → CtxRegs) : (s.modCx k f).dies = s.dies := rfl
@[simp] theorem State.modCx_bankTick (s : State) (k : Nat) (f : CtxRegs → CtxRegs) : (s.modCx k f).bankTick = s.bankTick := rfl
@[simp] theorem State.modCx_senseAt (s : State) (k : Nat) (f : CtxRegs → CtxRegs) : (s.modCx k f).senseAt = s.senseAt := rfl
@[simp] theorem State.modCx_legs (s : State) (k : Nat) (f : CtxRegs → CtxRegs) : (s.modCx k f).legs = s.legs := rfl
@[simp] theorem State.modCx_bridges (s : State) (k : Nat) (f : CtxRegs → CtxRegs) : (s.modCx k f).bridges = s.bridges := rfl
@[simp] theorem State.modCx_valves (s : State) (k : Nat) (f : CtxRegs → CtxRegs) : (s.modCx k f).valves = s.valves := rfl
@[simp] theorem State.modCx_sides (s : State) (k : Nat) (f : CtxRegs → CtxRegs) : (s.modCx k f).sides = s.sides := rfl
@[simp] theorem State.modCx_boostTick (s : State) (k : Nat) (f : CtxRegs → CtxRegs) : (s.modCx k f).boostTick = s.boostTick := rfl
@[simp] theorem State.modCx_boostTold (s : State) (k : Nat) (f : CtxRegs → CtxRegs) : (s.modCx k f).boostTold = s.boostTold := rfl
@[simp] theorem State.modCx_light (s : State) (k : Nat) (f : CtxRegs → CtxRegs) : (s.modCx k f).light = s.light := rfl
@[simp] theorem State.modCx_ambs (s : State) (k : Nat) (f : CtxRegs → CtxRegs) : (s.modCx k f).ambs = s.ambs := rfl
@[simp] theorem State.modCx_sis (s : State) (k : Nat) (f : CtxRegs → CtxRegs) : (s.modCx k f).sis = s.sis := rfl
@[simp] theorem State.modCx_ios (s : State) (k : Nat) (f : CtxRegs → CtxRegs) : (s.modCx k f).ios = s.ios := rfl
@[simp] theorem State.modCx_siRef (s : State) (k : Nat) (f : CtxRegs → CtxRegs) : (s.modCx k f).siRef = s.siRef := rfl
@[simp] theorem State.modCx_siRefPg (s : State) (k : Nat) (f : CtxRegs → CtxRegs) : (s.modCx k f).siRefPg = s.siRefPg := rfl
@[simp] theorem State.modCx_fsDie (s : State) (k : Nat) (f : CtxRegs → CtxRegs) : (s.modCx k f).fsDie = s.fsDie := rfl
@[simp] theorem State.modCx_fsNew (s : State) (k : Nat) (f : CtxRegs → CtxRegs) : (s.modCx k f).fsNew = s.fsNew := rfl
@[simp] theorem State.modCx_fsAt (s : State) (k : Nat) (f : CtxRegs → CtxRegs) : (s.modCx k f).fsAt = s.fsAt := rfl
@[simp] theorem State.modCx_parkWake (s : State) (k : Nat) (f : CtxRegs → CtxRegs) : (s.modCx k f).parkWake = s.parkWake := rfl
@[simp] theorem State.modCx_cans (s : State) (k : Nat) (f : CtxRegs → CtxRegs) : (s.modCx k f).cans = s.cans := rfl
@[simp] theorem State.modCx_lins (s : State) (k : Nat) (f : CtxRegs → CtxRegs) : (s.modCx k f).lins = s.lins := rfl
@[simp] theorem State.modCx_eth (s : State) (k : Nat) (f : CtxRegs → CtxRegs) : (s.modCx k f).eth = s.eth := rfl
@[simp] theorem State.modCx_nm (s : State) (k : Nat) (f : CtxRegs → CtxRegs) : (s.modCx k f).nm = s.nm := rfl
@[simp] theorem State.modCx_pulses (s : State) (k : Nat) (f : CtxRegs → CtxRegs) : (s.modCx k f).pulses = s.pulses := rfl
@[simp] theorem State.modCx_clauses (s : State) (k : Nat) (f : CtxRegs → CtxRegs) : (s.modCx k f).clauses = s.clauses := rfl
@[simp] theorem State.modCx_slots (s : State) (k : Nat) (f : CtxRegs → CtxRegs) : (s.modCx k f).slots = s.slots := rfl
@[simp] theorem State.modCx_rxlTick (s : State) (k : Nat) (f : CtxRegs → CtxRegs) : (s.modCx k f).rxlTick = s.rxlTick := rfl
@[simp] theorem State.modCx_retouchPend (s : State) (k : Nat) (f : CtxRegs → CtxRegs) : (s.modCx k f).retouchPend = s.retouchPend := rfl
@[simp] theorem State.modCx_lcMap (s : State) (k : Nat) (f : CtxRegs → CtxRegs) : (s.modCx k f).lcMap = s.lcMap := rfl
@[simp] theorem State.modCx_lcores (s : State) (k : Nat) (f : CtxRegs → CtxRegs) : (s.modCx k f).lcores = s.lcores := rfl
@[simp] theorem State.modCx_icache (s : State) (k : Nat) (f : CtxRegs → CtxRegs) : (s.modCx k f).icache = s.icache := rfl
@[simp] theorem State.modCx_icBad (s : State) (k : Nat) (f : CtxRegs → CtxRegs) : (s.modCx k f).icBad = s.icBad := rfl
@[simp] theorem State.modCx_testAt (s : State) (k : Nat) (f : CtxRegs → CtxRegs) : (s.modCx k f).testAt = s.testAt := rfl
@[simp] theorem State.modCx_nmts (s : State) (k : Nat) (f : CtxRegs → CtxRegs) : (s.modCx k f).nmts = s.nmts := rfl
@[simp] theorem State.modCx_ops (s : State) (k : Nat) (f : CtxRegs → CtxRegs) : (s.modCx k f).ops = s.ops := rfl
@[simp] theorem State.modCx_opNext (s : State) (k : Nat) (f : CtxRegs → CtxRegs) : (s.modCx k f).opNext = s.opNext := rfl
@[simp] theorem State.modCx_takeovers (s : State) (k : Nat) (f : CtxRegs → CtxRegs) : (s.modCx k f).takeovers = s.takeovers := rfl
@[simp] theorem State.modCx_tkWait (s : State) (k : Nat) (f : CtxRegs → CtxRegs) : (s.modCx k f).tkWait = s.tkWait := rfl
@[simp] theorem State.modCx_lcmHeld (s : State) (k : Nat) (f : CtxRegs → CtxRegs) : (s.modCx k f).lcmHeld = s.lcmHeld := rfl
@[simp] theorem State.modCx_retired (s : State) (k : Nat) (f : CtxRegs → CtxRegs) : (s.modCx k f).retired = s.retired := rfl
@[simp] theorem State.modCx_lcSram (s : State) (k : Nat) (f : CtxRegs → CtxRegs) : (s.modCx k f).lcSram = s.lcSram := rfl
@[simp] theorem State.modCx_memc (s : State) (k : Nat) (f : CtxRegs → CtxRegs) : (s.modCx k f).memc = s.memc := rfl
@[simp] theorem State.modCx_cry (s : State) (k : Nat) (f : CtxRegs → CtxRegs) : (s.modCx k f).cry = s.cry := rfl
@[simp] theorem State.modCx_flt (s : State) (k : Nat) (f : CtxRegs → CtxRegs) : (s.modCx k f).flt = s.flt := rfl
@[simp] theorem State.modCx_pwr (s : State) (k : Nat) (f : CtxRegs → CtxRegs) : (s.modCx k f).pwr = s.pwr := rfl
@[simp] theorem State.modCx_upd (s : State) (k : Nat) (f : CtxRegs → CtxRegs) : (s.modCx k f).upd = s.upd := rfl
@[simp] theorem State.modCx_power (s : State) (k : Nat) (f : CtxRegs → CtxRegs) : (s.modCx k f).power = s.power := rfl

/-! ## setLc -/

@[simp] theorem State.setLc_regs (s : State) (n : Nat) (v : LCore) : (s.setLc n v).regs = s.regs := rfl
@[simp] theorem State.setLc_sketch (s : State) (n : Nat) (v : LCore) : (s.setLc n v).sketch = s.sketch := rfl
@[simp] theorem State.setLc_symErr (s : State) (n : Nat) (v : LCore) : (s.setLc n v).symErr = s.symErr := rfl
@[simp] theorem State.setLc_pending (s : State) (n : Nat) (v : LCore) : (s.setLc n v).pending = s.pending := rfl
@[simp] theorem State.setLc_mem (s : State) (n : Nat) (v : LCore) : (s.setLc n v).mem = s.mem := rfl
@[simp] theorem State.setLc_poison (s : State) (n : Nat) (v : LCore) : (s.setLc n v).poison = s.poison := rfl
@[simp] theorem State.setLc_bankB (s : State) (n : Nat) (v : LCore) : (s.setLc n v).bankB = s.bankB := rfl
@[simp] theorem State.setLc_freeCtr (s : State) (n : Nat) (v : LCore) : (s.setLc n v).freeCtr = s.freeCtr := rfl
@[simp] theorem State.setLc_tb (s : State) (n : Nat) (v : LCore) : (s.setLc n v).tb = s.tb := rfl
@[simp] theorem State.setLc_tbRun (s : State) (n : Nat) (v : LCore) : (s.setLc n v).tbRun = s.tbRun := rfl
@[simp] theorem State.setLc_kaLead (s : State) (n : Nat) (v : LCore) : (s.setLc n v).kaLead = s.kaLead := rfl
@[simp] theorem State.setLc_tbStep (s : State) (n : Nat) (v : LCore) : (s.setLc n v).tbStep = s.tbStep := rfl
@[simp] theorem State.setLc_syncGood (s : State) (n : Nat) (v : LCore) : (s.setLc n v).syncGood = s.syncGood := rfl
@[simp] theorem State.setLc_syncTick (s : State) (n : Nat) (v : LCore) : (s.setLc n v).syncTick = s.syncTick := rfl
@[simp] theorem State.setLc_tbcTick (s : State) (n : Nat) (v : LCore) : (s.setLc n v).tbcTick = s.tbcTick := rfl
@[simp] theorem State.setLc_clkDead (s : State) (n : Nat) (v : LCore) : (s.setLc n v).clkDead = s.clkDead := rfl
@[simp] theorem State.setLc_clkLost (s : State) (n : Nat) (v : LCore) : (s.setLc n v).clkLost = s.clkLost := rfl
@[simp] theorem State.setLc_raises (s : State) (n : Nat) (v : LCore) : (s.setLc n v).raises = s.raises := rfl
@[simp] theorem State.setLc_postings (s : State) (n : Nat) (v : LCore) : (s.setLc n v).postings = s.postings := rfl
@[simp] theorem State.setLc_capPend (s : State) (n : Nat) (v : LCore) : (s.setLc n v).capPend = s.capPend := rfl
@[simp] theorem State.setLc_outbox (s : State) (n : Nat) (v : LCore) : (s.setLc n v).outbox = s.outbox := rfl
@[simp] theorem State.setLc_fixScope (s : State) (n : Nat) (v : LCore) : (s.setLc n v).fixScope = s.fixScope := rfl
@[simp] theorem State.setLc_fixStale (s : State) (n : Nat) (v : LCore) : (s.setLc n v).fixStale = s.fixStale := rfl
@[simp] theorem State.setLc_fixMode (s : State) (n : Nat) (v : LCore) : (s.setLc n v).fixMode = s.fixMode := rfl
@[simp] theorem State.setLc_fixTag (s : State) (n : Nat) (v : LCore) : (s.setLc n v).fixTag = s.fixTag := rfl
@[simp] theorem State.setLc_fixBlead (s : State) (n : Nat) (v : LCore) : (s.setLc n v).fixBlead = s.fixBlead := rfl
@[simp] theorem State.setLc_fixBexp (s : State) (n : Nat) (v : LCore) : (s.setLc n v).fixBexp = s.fixBexp := rfl
@[simp] theorem State.setLc_fixTime (s : State) (n : Nat) (v : LCore) : (s.setLc n v).fixTime = s.fixTime := rfl
@[simp] theorem State.setLc_fixBcast (s : State) (n : Nat) (v : LCore) : (s.setLc n v).fixBcast = s.fixBcast := rfl
@[simp] theorem State.setLc_fixCopied (s : State) (n : Nat) (v : LCore) : (s.setLc n v).fixCopied = s.fixCopied := rfl
@[simp] theorem State.setLc_fixReset (s : State) (n : Nat) (v : LCore) : (s.setLc n v).fixReset = s.fixReset := rfl
@[simp] theorem State.setLc_fixResetPgs (s : State) (n : Nat) (v : LCore) : (s.setLc n v).fixResetPgs = s.fixResetPgs := rfl
@[simp] theorem State.setLc_fixSeen (s : State) (n : Nat) (v : LCore) : (s.setLc n v).fixSeen = s.fixSeen := rfl
@[simp] theorem State.setLc_fixInit (s : State) (n : Nat) (v : LCore) : (s.setLc n v).fixInit = s.fixInit := rfl
@[simp] theorem State.setLc_lfHeld (s : State) (n : Nat) (v : LCore) : (s.setLc n v).lfHeld = s.lfHeld := rfl
@[simp] theorem State.setLc_hs (s : State) (n : Nat) (v : LCore) : (s.setLc n v).hs = s.hs := rfl
@[simp] theorem State.setLc_dies (s : State) (n : Nat) (v : LCore) : (s.setLc n v).dies = s.dies := rfl
@[simp] theorem State.setLc_bankTick (s : State) (n : Nat) (v : LCore) : (s.setLc n v).bankTick = s.bankTick := rfl
@[simp] theorem State.setLc_senseAt (s : State) (n : Nat) (v : LCore) : (s.setLc n v).senseAt = s.senseAt := rfl
@[simp] theorem State.setLc_legs (s : State) (n : Nat) (v : LCore) : (s.setLc n v).legs = s.legs := rfl
@[simp] theorem State.setLc_bridges (s : State) (n : Nat) (v : LCore) : (s.setLc n v).bridges = s.bridges := rfl
@[simp] theorem State.setLc_valves (s : State) (n : Nat) (v : LCore) : (s.setLc n v).valves = s.valves := rfl
@[simp] theorem State.setLc_sides (s : State) (n : Nat) (v : LCore) : (s.setLc n v).sides = s.sides := rfl
@[simp] theorem State.setLc_boostTick (s : State) (n : Nat) (v : LCore) : (s.setLc n v).boostTick = s.boostTick := rfl
@[simp] theorem State.setLc_boostTold (s : State) (n : Nat) (v : LCore) : (s.setLc n v).boostTold = s.boostTold := rfl
@[simp] theorem State.setLc_light (s : State) (n : Nat) (v : LCore) : (s.setLc n v).light = s.light := rfl
@[simp] theorem State.setLc_ambs (s : State) (n : Nat) (v : LCore) : (s.setLc n v).ambs = s.ambs := rfl
@[simp] theorem State.setLc_sis (s : State) (n : Nat) (v : LCore) : (s.setLc n v).sis = s.sis := rfl
@[simp] theorem State.setLc_ios (s : State) (n : Nat) (v : LCore) : (s.setLc n v).ios = s.ios := rfl
@[simp] theorem State.setLc_siRef (s : State) (n : Nat) (v : LCore) : (s.setLc n v).siRef = s.siRef := rfl
@[simp] theorem State.setLc_siRefPg (s : State) (n : Nat) (v : LCore) : (s.setLc n v).siRefPg = s.siRefPg := rfl
@[simp] theorem State.setLc_fsDie (s : State) (n : Nat) (v : LCore) : (s.setLc n v).fsDie = s.fsDie := rfl
@[simp] theorem State.setLc_fsNew (s : State) (n : Nat) (v : LCore) : (s.setLc n v).fsNew = s.fsNew := rfl
@[simp] theorem State.setLc_fsAt (s : State) (n : Nat) (v : LCore) : (s.setLc n v).fsAt = s.fsAt := rfl
@[simp] theorem State.setLc_parkWake (s : State) (n : Nat) (v : LCore) : (s.setLc n v).parkWake = s.parkWake := rfl
@[simp] theorem State.setLc_cans (s : State) (n : Nat) (v : LCore) : (s.setLc n v).cans = s.cans := rfl
@[simp] theorem State.setLc_lins (s : State) (n : Nat) (v : LCore) : (s.setLc n v).lins = s.lins := rfl
@[simp] theorem State.setLc_eth (s : State) (n : Nat) (v : LCore) : (s.setLc n v).eth = s.eth := rfl
@[simp] theorem State.setLc_nm (s : State) (n : Nat) (v : LCore) : (s.setLc n v).nm = s.nm := rfl
@[simp] theorem State.setLc_pulses (s : State) (n : Nat) (v : LCore) : (s.setLc n v).pulses = s.pulses := rfl
@[simp] theorem State.setLc_clauses (s : State) (n : Nat) (v : LCore) : (s.setLc n v).clauses = s.clauses := rfl
@[simp] theorem State.setLc_slots (s : State) (n : Nat) (v : LCore) : (s.setLc n v).slots = s.slots := rfl
@[simp] theorem State.setLc_rxlTick (s : State) (n : Nat) (v : LCore) : (s.setLc n v).rxlTick = s.rxlTick := rfl
@[simp] theorem State.setLc_retouchPend (s : State) (n : Nat) (v : LCore) : (s.setLc n v).retouchPend = s.retouchPend := rfl
@[simp] theorem State.setLc_lcMap (s : State) (n : Nat) (v : LCore) : (s.setLc n v).lcMap = s.lcMap := rfl
@[simp] theorem State.setLc_ctxs (s : State) (n : Nat) (v : LCore) : (s.setLc n v).ctxs = s.ctxs := rfl
@[simp] theorem State.setLc_icache (s : State) (n : Nat) (v : LCore) : (s.setLc n v).icache = s.icache := rfl
@[simp] theorem State.setLc_icBad (s : State) (n : Nat) (v : LCore) : (s.setLc n v).icBad = s.icBad := rfl
@[simp] theorem State.setLc_testAt (s : State) (n : Nat) (v : LCore) : (s.setLc n v).testAt = s.testAt := rfl
@[simp] theorem State.setLc_nmts (s : State) (n : Nat) (v : LCore) : (s.setLc n v).nmts = s.nmts := rfl
@[simp] theorem State.setLc_ops (s : State) (n : Nat) (v : LCore) : (s.setLc n v).ops = s.ops := rfl
@[simp] theorem State.setLc_opNext (s : State) (n : Nat) (v : LCore) : (s.setLc n v).opNext = s.opNext := rfl
@[simp] theorem State.setLc_takeovers (s : State) (n : Nat) (v : LCore) : (s.setLc n v).takeovers = s.takeovers := rfl
@[simp] theorem State.setLc_tkWait (s : State) (n : Nat) (v : LCore) : (s.setLc n v).tkWait = s.tkWait := rfl
@[simp] theorem State.setLc_lcmHeld (s : State) (n : Nat) (v : LCore) : (s.setLc n v).lcmHeld = s.lcmHeld := rfl
@[simp] theorem State.setLc_retired (s : State) (n : Nat) (v : LCore) : (s.setLc n v).retired = s.retired := rfl
@[simp] theorem State.setLc_lcSram (s : State) (n : Nat) (v : LCore) : (s.setLc n v).lcSram = s.lcSram := rfl
@[simp] theorem State.setLc_memc (s : State) (n : Nat) (v : LCore) : (s.setLc n v).memc = s.memc := rfl
@[simp] theorem State.setLc_cry (s : State) (n : Nat) (v : LCore) : (s.setLc n v).cry = s.cry := rfl
@[simp] theorem State.setLc_flt (s : State) (n : Nat) (v : LCore) : (s.setLc n v).flt = s.flt := rfl
@[simp] theorem State.setLc_pwr (s : State) (n : Nat) (v : LCore) : (s.setLc n v).pwr = s.pwr := rfl
@[simp] theorem State.setLc_upd (s : State) (n : Nat) (v : LCore) : (s.setLc n v).upd = s.upd := rfl
@[simp] theorem State.setLc_power (s : State) (n : Nat) (v : LCore) : (s.setLc n v).power = s.power := rfl

/-! ## setByte -/

@[simp] theorem State.setByte_regs (s : State) (p : Nat) (v : Byte) : (s.setByte p v).regs = s.regs := rfl
@[simp] theorem State.setByte_sketch (s : State) (p : Nat) (v : Byte) : (s.setByte p v).sketch = s.sketch := rfl
@[simp] theorem State.setByte_pending (s : State) (p : Nat) (v : Byte) : (s.setByte p v).pending = s.pending := rfl
@[simp] theorem State.setByte_poison (s : State) (p : Nat) (v : Byte) : (s.setByte p v).poison = s.poison := rfl
@[simp] theorem State.setByte_bankB (s : State) (p : Nat) (v : Byte) : (s.setByte p v).bankB = s.bankB := rfl
@[simp] theorem State.setByte_freeCtr (s : State) (p : Nat) (v : Byte) : (s.setByte p v).freeCtr = s.freeCtr := rfl
@[simp] theorem State.setByte_tb (s : State) (p : Nat) (v : Byte) : (s.setByte p v).tb = s.tb := rfl
@[simp] theorem State.setByte_tbRun (s : State) (p : Nat) (v : Byte) : (s.setByte p v).tbRun = s.tbRun := rfl
@[simp] theorem State.setByte_kaLead (s : State) (p : Nat) (v : Byte) : (s.setByte p v).kaLead = s.kaLead := rfl
@[simp] theorem State.setByte_tbStep (s : State) (p : Nat) (v : Byte) : (s.setByte p v).tbStep = s.tbStep := rfl
@[simp] theorem State.setByte_syncGood (s : State) (p : Nat) (v : Byte) : (s.setByte p v).syncGood = s.syncGood := rfl
@[simp] theorem State.setByte_syncTick (s : State) (p : Nat) (v : Byte) : (s.setByte p v).syncTick = s.syncTick := rfl
@[simp] theorem State.setByte_tbcTick (s : State) (p : Nat) (v : Byte) : (s.setByte p v).tbcTick = s.tbcTick := rfl
@[simp] theorem State.setByte_clkDead (s : State) (p : Nat) (v : Byte) : (s.setByte p v).clkDead = s.clkDead := rfl
@[simp] theorem State.setByte_clkLost (s : State) (p : Nat) (v : Byte) : (s.setByte p v).clkLost = s.clkLost := rfl
@[simp] theorem State.setByte_raises (s : State) (p : Nat) (v : Byte) : (s.setByte p v).raises = s.raises := rfl
@[simp] theorem State.setByte_postings (s : State) (p : Nat) (v : Byte) : (s.setByte p v).postings = s.postings := rfl
@[simp] theorem State.setByte_capPend (s : State) (p : Nat) (v : Byte) : (s.setByte p v).capPend = s.capPend := rfl
@[simp] theorem State.setByte_outbox (s : State) (p : Nat) (v : Byte) : (s.setByte p v).outbox = s.outbox := rfl
@[simp] theorem State.setByte_fixScope (s : State) (p : Nat) (v : Byte) : (s.setByte p v).fixScope = s.fixScope := rfl
@[simp] theorem State.setByte_fixStale (s : State) (p : Nat) (v : Byte) : (s.setByte p v).fixStale = s.fixStale := rfl
@[simp] theorem State.setByte_fixMode (s : State) (p : Nat) (v : Byte) : (s.setByte p v).fixMode = s.fixMode := rfl
@[simp] theorem State.setByte_fixTag (s : State) (p : Nat) (v : Byte) : (s.setByte p v).fixTag = s.fixTag := rfl
@[simp] theorem State.setByte_fixBlead (s : State) (p : Nat) (v : Byte) : (s.setByte p v).fixBlead = s.fixBlead := rfl
@[simp] theorem State.setByte_fixBexp (s : State) (p : Nat) (v : Byte) : (s.setByte p v).fixBexp = s.fixBexp := rfl
@[simp] theorem State.setByte_fixTime (s : State) (p : Nat) (v : Byte) : (s.setByte p v).fixTime = s.fixTime := rfl
@[simp] theorem State.setByte_fixBcast (s : State) (p : Nat) (v : Byte) : (s.setByte p v).fixBcast = s.fixBcast := rfl
@[simp] theorem State.setByte_fixCopied (s : State) (p : Nat) (v : Byte) : (s.setByte p v).fixCopied = s.fixCopied := rfl
@[simp] theorem State.setByte_fixReset (s : State) (p : Nat) (v : Byte) : (s.setByte p v).fixReset = s.fixReset := rfl
@[simp] theorem State.setByte_fixResetPgs (s : State) (p : Nat) (v : Byte) : (s.setByte p v).fixResetPgs = s.fixResetPgs := rfl
@[simp] theorem State.setByte_fixSeen (s : State) (p : Nat) (v : Byte) : (s.setByte p v).fixSeen = s.fixSeen := rfl
@[simp] theorem State.setByte_fixInit (s : State) (p : Nat) (v : Byte) : (s.setByte p v).fixInit = s.fixInit := rfl
@[simp] theorem State.setByte_lfHeld (s : State) (p : Nat) (v : Byte) : (s.setByte p v).lfHeld = s.lfHeld := rfl
@[simp] theorem State.setByte_hs (s : State) (p : Nat) (v : Byte) : (s.setByte p v).hs = s.hs := rfl
@[simp] theorem State.setByte_dies (s : State) (p : Nat) (v : Byte) : (s.setByte p v).dies = s.dies := rfl
@[simp] theorem State.setByte_bankTick (s : State) (p : Nat) (v : Byte) : (s.setByte p v).bankTick = s.bankTick := rfl
@[simp] theorem State.setByte_senseAt (s : State) (p : Nat) (v : Byte) : (s.setByte p v).senseAt = s.senseAt := rfl
@[simp] theorem State.setByte_legs (s : State) (p : Nat) (v : Byte) : (s.setByte p v).legs = s.legs := rfl
@[simp] theorem State.setByte_bridges (s : State) (p : Nat) (v : Byte) : (s.setByte p v).bridges = s.bridges := rfl
@[simp] theorem State.setByte_valves (s : State) (p : Nat) (v : Byte) : (s.setByte p v).valves = s.valves := rfl
@[simp] theorem State.setByte_sides (s : State) (p : Nat) (v : Byte) : (s.setByte p v).sides = s.sides := rfl
@[simp] theorem State.setByte_boostTick (s : State) (p : Nat) (v : Byte) : (s.setByte p v).boostTick = s.boostTick := rfl
@[simp] theorem State.setByte_boostTold (s : State) (p : Nat) (v : Byte) : (s.setByte p v).boostTold = s.boostTold := rfl
@[simp] theorem State.setByte_light (s : State) (p : Nat) (v : Byte) : (s.setByte p v).light = s.light := rfl
@[simp] theorem State.setByte_ambs (s : State) (p : Nat) (v : Byte) : (s.setByte p v).ambs = s.ambs := rfl
@[simp] theorem State.setByte_sis (s : State) (p : Nat) (v : Byte) : (s.setByte p v).sis = s.sis := rfl
@[simp] theorem State.setByte_ios (s : State) (p : Nat) (v : Byte) : (s.setByte p v).ios = s.ios := rfl
@[simp] theorem State.setByte_siRef (s : State) (p : Nat) (v : Byte) : (s.setByte p v).siRef = s.siRef := rfl
@[simp] theorem State.setByte_siRefPg (s : State) (p : Nat) (v : Byte) : (s.setByte p v).siRefPg = s.siRefPg := rfl
@[simp] theorem State.setByte_fsDie (s : State) (p : Nat) (v : Byte) : (s.setByte p v).fsDie = s.fsDie := rfl
@[simp] theorem State.setByte_fsNew (s : State) (p : Nat) (v : Byte) : (s.setByte p v).fsNew = s.fsNew := rfl
@[simp] theorem State.setByte_fsAt (s : State) (p : Nat) (v : Byte) : (s.setByte p v).fsAt = s.fsAt := rfl
@[simp] theorem State.setByte_parkWake (s : State) (p : Nat) (v : Byte) : (s.setByte p v).parkWake = s.parkWake := rfl
@[simp] theorem State.setByte_cans (s : State) (p : Nat) (v : Byte) : (s.setByte p v).cans = s.cans := rfl
@[simp] theorem State.setByte_lins (s : State) (p : Nat) (v : Byte) : (s.setByte p v).lins = s.lins := rfl
@[simp] theorem State.setByte_eth (s : State) (p : Nat) (v : Byte) : (s.setByte p v).eth = s.eth := rfl
@[simp] theorem State.setByte_nm (s : State) (p : Nat) (v : Byte) : (s.setByte p v).nm = s.nm := rfl
@[simp] theorem State.setByte_pulses (s : State) (p : Nat) (v : Byte) : (s.setByte p v).pulses = s.pulses := rfl
@[simp] theorem State.setByte_clauses (s : State) (p : Nat) (v : Byte) : (s.setByte p v).clauses = s.clauses := rfl
@[simp] theorem State.setByte_slots (s : State) (p : Nat) (v : Byte) : (s.setByte p v).slots = s.slots := rfl
@[simp] theorem State.setByte_rxlTick (s : State) (p : Nat) (v : Byte) : (s.setByte p v).rxlTick = s.rxlTick := rfl
@[simp] theorem State.setByte_retouchPend (s : State) (p : Nat) (v : Byte) : (s.setByte p v).retouchPend = s.retouchPend := rfl
@[simp] theorem State.setByte_lcMap (s : State) (p : Nat) (v : Byte) : (s.setByte p v).lcMap = s.lcMap := rfl
@[simp] theorem State.setByte_ctxs (s : State) (p : Nat) (v : Byte) : (s.setByte p v).ctxs = s.ctxs := rfl
@[simp] theorem State.setByte_lcores (s : State) (p : Nat) (v : Byte) : (s.setByte p v).lcores = s.lcores := rfl
@[simp] theorem State.setByte_icache (s : State) (p : Nat) (v : Byte) : (s.setByte p v).icache = s.icache := rfl
@[simp] theorem State.setByte_icBad (s : State) (p : Nat) (v : Byte) : (s.setByte p v).icBad = s.icBad := rfl
@[simp] theorem State.setByte_testAt (s : State) (p : Nat) (v : Byte) : (s.setByte p v).testAt = s.testAt := rfl
@[simp] theorem State.setByte_nmts (s : State) (p : Nat) (v : Byte) : (s.setByte p v).nmts = s.nmts := rfl
@[simp] theorem State.setByte_ops (s : State) (p : Nat) (v : Byte) : (s.setByte p v).ops = s.ops := rfl
@[simp] theorem State.setByte_opNext (s : State) (p : Nat) (v : Byte) : (s.setByte p v).opNext = s.opNext := rfl
@[simp] theorem State.setByte_takeovers (s : State) (p : Nat) (v : Byte) : (s.setByte p v).takeovers = s.takeovers := rfl
@[simp] theorem State.setByte_tkWait (s : State) (p : Nat) (v : Byte) : (s.setByte p v).tkWait = s.tkWait := rfl
@[simp] theorem State.setByte_lcmHeld (s : State) (p : Nat) (v : Byte) : (s.setByte p v).lcmHeld = s.lcmHeld := rfl
@[simp] theorem State.setByte_retired (s : State) (p : Nat) (v : Byte) : (s.setByte p v).retired = s.retired := rfl
@[simp] theorem State.setByte_lcSram (s : State) (p : Nat) (v : Byte) : (s.setByte p v).lcSram = s.lcSram := rfl
@[simp] theorem State.setByte_memc (s : State) (p : Nat) (v : Byte) : (s.setByte p v).memc = s.memc := rfl
@[simp] theorem State.setByte_cry (s : State) (p : Nat) (v : Byte) : (s.setByte p v).cry = s.cry := rfl
@[simp] theorem State.setByte_flt (s : State) (p : Nat) (v : Byte) : (s.setByte p v).flt = s.flt := rfl
@[simp] theorem State.setByte_pwr (s : State) (p : Nat) (v : Byte) : (s.setByte p v).pwr = s.pwr := rfl
@[simp] theorem State.setByte_upd (s : State) (p : Nat) (v : Byte) : (s.setByte p v).upd = s.upd := rfl
@[simp] theorem State.setByte_power (s : State) (p : Nat) (v : Byte) : (s.setByte p v).power = s.power := rfl

/-! ## commitNow -/

@[simp] theorem State.commitNow_regs (s : State) (k : Nat) : (s.commitNow k).regs = s.regs := by simp [State.commitNow]
@[simp] theorem State.commitNow_sketch (s : State) (k : Nat) : (s.commitNow k).sketch = s.sketch := by simp [State.commitNow]
@[simp] theorem State.commitNow_symErr (s : State) (k : Nat) : (s.commitNow k).symErr = s.symErr := by simp [State.commitNow]
@[simp] theorem State.commitNow_pending (s : State) (k : Nat) : (s.commitNow k).pending = s.pending := by simp [State.commitNow]
@[simp] theorem State.commitNow_mem (s : State) (k : Nat) : (s.commitNow k).mem = s.mem := by simp [State.commitNow]
@[simp] theorem State.commitNow_poison (s : State) (k : Nat) : (s.commitNow k).poison = s.poison := by simp [State.commitNow]
@[simp] theorem State.commitNow_bankB (s : State) (k : Nat) : (s.commitNow k).bankB = s.bankB := by simp [State.commitNow]
@[simp] theorem State.commitNow_freeCtr (s : State) (k : Nat) : (s.commitNow k).freeCtr = s.freeCtr := by simp [State.commitNow]
@[simp] theorem State.commitNow_tb (s : State) (k : Nat) : (s.commitNow k).tb = s.tb := by simp [State.commitNow]
@[simp] theorem State.commitNow_tbRun (s : State) (k : Nat) : (s.commitNow k).tbRun = s.tbRun := by simp [State.commitNow]
@[simp] theorem State.commitNow_kaLead (s : State) (k : Nat) : (s.commitNow k).kaLead = s.kaLead := by simp [State.commitNow]
@[simp] theorem State.commitNow_tbStep (s : State) (k : Nat) : (s.commitNow k).tbStep = s.tbStep := by simp [State.commitNow]
@[simp] theorem State.commitNow_syncGood (s : State) (k : Nat) : (s.commitNow k).syncGood = s.syncGood := by simp [State.commitNow]
@[simp] theorem State.commitNow_syncTick (s : State) (k : Nat) : (s.commitNow k).syncTick = s.syncTick := by simp [State.commitNow]
@[simp] theorem State.commitNow_tbcTick (s : State) (k : Nat) : (s.commitNow k).tbcTick = s.tbcTick := by simp [State.commitNow]
@[simp] theorem State.commitNow_clkDead (s : State) (k : Nat) : (s.commitNow k).clkDead = s.clkDead := by simp [State.commitNow]
@[simp] theorem State.commitNow_clkLost (s : State) (k : Nat) : (s.commitNow k).clkLost = s.clkLost := by simp [State.commitNow]
@[simp] theorem State.commitNow_raises (s : State) (k : Nat) : (s.commitNow k).raises = s.raises := by simp [State.commitNow]
@[simp] theorem State.commitNow_postings (s : State) (k : Nat) : (s.commitNow k).postings = s.postings := by simp [State.commitNow]
@[simp] theorem State.commitNow_capPend (s : State) (k : Nat) : (s.commitNow k).capPend = s.capPend := by simp [State.commitNow]
@[simp] theorem State.commitNow_outbox (s : State) (k : Nat) : (s.commitNow k).outbox = s.outbox := by simp [State.commitNow]
@[simp] theorem State.commitNow_fixScope (s : State) (k : Nat) : (s.commitNow k).fixScope = s.fixScope := by simp [State.commitNow]
@[simp] theorem State.commitNow_fixStale (s : State) (k : Nat) : (s.commitNow k).fixStale = s.fixStale := by simp [State.commitNow]
@[simp] theorem State.commitNow_fixMode (s : State) (k : Nat) : (s.commitNow k).fixMode = s.fixMode := by simp [State.commitNow]
@[simp] theorem State.commitNow_fixTag (s : State) (k : Nat) : (s.commitNow k).fixTag = s.fixTag := by simp [State.commitNow]
@[simp] theorem State.commitNow_fixBlead (s : State) (k : Nat) : (s.commitNow k).fixBlead = s.fixBlead := by simp [State.commitNow]
@[simp] theorem State.commitNow_fixBexp (s : State) (k : Nat) : (s.commitNow k).fixBexp = s.fixBexp := by simp [State.commitNow]
@[simp] theorem State.commitNow_fixTime (s : State) (k : Nat) : (s.commitNow k).fixTime = s.fixTime := by simp [State.commitNow]
@[simp] theorem State.commitNow_fixBcast (s : State) (k : Nat) : (s.commitNow k).fixBcast = s.fixBcast := by simp [State.commitNow]
@[simp] theorem State.commitNow_fixCopied (s : State) (k : Nat) : (s.commitNow k).fixCopied = s.fixCopied := by simp [State.commitNow]
@[simp] theorem State.commitNow_fixReset (s : State) (k : Nat) : (s.commitNow k).fixReset = s.fixReset := by simp [State.commitNow]
@[simp] theorem State.commitNow_fixResetPgs (s : State) (k : Nat) : (s.commitNow k).fixResetPgs = s.fixResetPgs := by simp [State.commitNow]
@[simp] theorem State.commitNow_fixSeen (s : State) (k : Nat) : (s.commitNow k).fixSeen = s.fixSeen := by simp [State.commitNow]
@[simp] theorem State.commitNow_fixInit (s : State) (k : Nat) : (s.commitNow k).fixInit = s.fixInit := by simp [State.commitNow]
@[simp] theorem State.commitNow_lfHeld (s : State) (k : Nat) : (s.commitNow k).lfHeld = s.lfHeld := by simp [State.commitNow]
@[simp] theorem State.commitNow_hs (s : State) (k : Nat) : (s.commitNow k).hs = s.hs := by simp [State.commitNow]
@[simp] theorem State.commitNow_dies (s : State) (k : Nat) : (s.commitNow k).dies = s.dies := by simp [State.commitNow]
@[simp] theorem State.commitNow_bankTick (s : State) (k : Nat) : (s.commitNow k).bankTick = s.bankTick := by simp [State.commitNow]
@[simp] theorem State.commitNow_senseAt (s : State) (k : Nat) : (s.commitNow k).senseAt = s.senseAt := by simp [State.commitNow]
@[simp] theorem State.commitNow_legs (s : State) (k : Nat) : (s.commitNow k).legs = s.legs := by simp [State.commitNow]
@[simp] theorem State.commitNow_bridges (s : State) (k : Nat) : (s.commitNow k).bridges = s.bridges := by simp [State.commitNow]
@[simp] theorem State.commitNow_valves (s : State) (k : Nat) : (s.commitNow k).valves = s.valves := by simp [State.commitNow]
@[simp] theorem State.commitNow_sides (s : State) (k : Nat) : (s.commitNow k).sides = s.sides := by simp [State.commitNow]
@[simp] theorem State.commitNow_boostTick (s : State) (k : Nat) : (s.commitNow k).boostTick = s.boostTick := by simp [State.commitNow]
@[simp] theorem State.commitNow_boostTold (s : State) (k : Nat) : (s.commitNow k).boostTold = s.boostTold := by simp [State.commitNow]
@[simp] theorem State.commitNow_light (s : State) (k : Nat) : (s.commitNow k).light = s.light := by simp [State.commitNow]
@[simp] theorem State.commitNow_ambs (s : State) (k : Nat) : (s.commitNow k).ambs = s.ambs := by simp [State.commitNow]
@[simp] theorem State.commitNow_sis (s : State) (k : Nat) : (s.commitNow k).sis = s.sis := by simp [State.commitNow]
@[simp] theorem State.commitNow_ios (s : State) (k : Nat) : (s.commitNow k).ios = s.ios := by simp [State.commitNow]
@[simp] theorem State.commitNow_siRef (s : State) (k : Nat) : (s.commitNow k).siRef = s.siRef := by simp [State.commitNow]
@[simp] theorem State.commitNow_siRefPg (s : State) (k : Nat) : (s.commitNow k).siRefPg = s.siRefPg := by simp [State.commitNow]
@[simp] theorem State.commitNow_fsDie (s : State) (k : Nat) : (s.commitNow k).fsDie = s.fsDie := by simp [State.commitNow]
@[simp] theorem State.commitNow_fsNew (s : State) (k : Nat) : (s.commitNow k).fsNew = s.fsNew := by simp [State.commitNow]
@[simp] theorem State.commitNow_fsAt (s : State) (k : Nat) : (s.commitNow k).fsAt = s.fsAt := by simp [State.commitNow]
@[simp] theorem State.commitNow_parkWake (s : State) (k : Nat) : (s.commitNow k).parkWake = s.parkWake := by simp [State.commitNow]
@[simp] theorem State.commitNow_cans (s : State) (k : Nat) : (s.commitNow k).cans = s.cans := by simp [State.commitNow]
@[simp] theorem State.commitNow_lins (s : State) (k : Nat) : (s.commitNow k).lins = s.lins := by simp [State.commitNow]
@[simp] theorem State.commitNow_eth (s : State) (k : Nat) : (s.commitNow k).eth = s.eth := by simp [State.commitNow]
@[simp] theorem State.commitNow_nm (s : State) (k : Nat) : (s.commitNow k).nm = s.nm := by simp [State.commitNow]
@[simp] theorem State.commitNow_pulses (s : State) (k : Nat) : (s.commitNow k).pulses = s.pulses := by simp [State.commitNow]
@[simp] theorem State.commitNow_clauses (s : State) (k : Nat) : (s.commitNow k).clauses = s.clauses := by simp [State.commitNow]
@[simp] theorem State.commitNow_slots (s : State) (k : Nat) : (s.commitNow k).slots = s.slots := by simp [State.commitNow]
@[simp] theorem State.commitNow_rxlTick (s : State) (k : Nat) : (s.commitNow k).rxlTick = s.rxlTick := by simp [State.commitNow]
@[simp] theorem State.commitNow_retouchPend (s : State) (k : Nat) : (s.commitNow k).retouchPend = s.retouchPend := by simp [State.commitNow]
@[simp] theorem State.commitNow_lcMap (s : State) (k : Nat) : (s.commitNow k).lcMap = s.lcMap := by simp [State.commitNow]
@[simp] theorem State.commitNow_icache (s : State) (k : Nat) : (s.commitNow k).icache = s.icache := by simp [State.commitNow]
@[simp] theorem State.commitNow_icBad (s : State) (k : Nat) : (s.commitNow k).icBad = s.icBad := by simp [State.commitNow]
@[simp] theorem State.commitNow_testAt (s : State) (k : Nat) : (s.commitNow k).testAt = s.testAt := by simp [State.commitNow]
@[simp] theorem State.commitNow_nmts (s : State) (k : Nat) : (s.commitNow k).nmts = s.nmts := by simp [State.commitNow]
@[simp] theorem State.commitNow_ops (s : State) (k : Nat) : (s.commitNow k).ops = s.ops := by simp [State.commitNow]
@[simp] theorem State.commitNow_opNext (s : State) (k : Nat) : (s.commitNow k).opNext = s.opNext := by simp [State.commitNow]
@[simp] theorem State.commitNow_takeovers (s : State) (k : Nat) : (s.commitNow k).takeovers = s.takeovers := by simp [State.commitNow]
@[simp] theorem State.commitNow_tkWait (s : State) (k : Nat) : (s.commitNow k).tkWait = s.tkWait := by simp [State.commitNow]
@[simp] theorem State.commitNow_lcmHeld (s : State) (k : Nat) : (s.commitNow k).lcmHeld = s.lcmHeld := by simp [State.commitNow]
@[simp] theorem State.commitNow_retired (s : State) (k : Nat) : (s.commitNow k).retired = s.retired := by simp [State.commitNow]
@[simp] theorem State.commitNow_lcSram (s : State) (k : Nat) : (s.commitNow k).lcSram = s.lcSram := by simp [State.commitNow]
@[simp] theorem State.commitNow_memc (s : State) (k : Nat) : (s.commitNow k).memc = s.memc := by simp [State.commitNow]
@[simp] theorem State.commitNow_cry (s : State) (k : Nat) : (s.commitNow k).cry = s.cry := by simp [State.commitNow]
@[simp] theorem State.commitNow_flt (s : State) (k : Nat) : (s.commitNow k).flt = s.flt := by simp [State.commitNow]
@[simp] theorem State.commitNow_pwr (s : State) (k : Nat) : (s.commitNow k).pwr = s.pwr := by simp [State.commitNow]
@[simp] theorem State.commitNow_upd (s : State) (k : Nat) : (s.commitNow k).upd = s.upd := by simp [State.commitNow]
@[simp] theorem State.commitNow_power (s : State) (k : Nat) : (s.commitNow k).power = s.power := by simp [State.commitNow]

/-! ## toSt -/

@[simp] theorem State.toSt_regs (s : State) (k : Nat) (st : CtxSt) : (s.toSt k st).regs = s.regs := by simp [State.toSt]
@[simp] theorem State.toSt_sketch (s : State) (k : Nat) (st : CtxSt) : (s.toSt k st).sketch = s.sketch := by simp [State.toSt]
@[simp] theorem State.toSt_symErr (s : State) (k : Nat) (st : CtxSt) : (s.toSt k st).symErr = s.symErr := by simp [State.toSt]
@[simp] theorem State.toSt_pending (s : State) (k : Nat) (st : CtxSt) : (s.toSt k st).pending = s.pending := by simp [State.toSt]
@[simp] theorem State.toSt_mem (s : State) (k : Nat) (st : CtxSt) : (s.toSt k st).mem = s.mem := by simp [State.toSt]
@[simp] theorem State.toSt_poison (s : State) (k : Nat) (st : CtxSt) : (s.toSt k st).poison = s.poison := by simp [State.toSt]
@[simp] theorem State.toSt_bankB (s : State) (k : Nat) (st : CtxSt) : (s.toSt k st).bankB = s.bankB := by simp [State.toSt]
@[simp] theorem State.toSt_freeCtr (s : State) (k : Nat) (st : CtxSt) : (s.toSt k st).freeCtr = s.freeCtr := by simp [State.toSt]
@[simp] theorem State.toSt_tb (s : State) (k : Nat) (st : CtxSt) : (s.toSt k st).tb = s.tb := by simp [State.toSt]
@[simp] theorem State.toSt_tbRun (s : State) (k : Nat) (st : CtxSt) : (s.toSt k st).tbRun = s.tbRun := by simp [State.toSt]
@[simp] theorem State.toSt_kaLead (s : State) (k : Nat) (st : CtxSt) : (s.toSt k st).kaLead = s.kaLead := by simp [State.toSt]
@[simp] theorem State.toSt_tbStep (s : State) (k : Nat) (st : CtxSt) : (s.toSt k st).tbStep = s.tbStep := by simp [State.toSt]
@[simp] theorem State.toSt_syncGood (s : State) (k : Nat) (st : CtxSt) : (s.toSt k st).syncGood = s.syncGood := by simp [State.toSt]
@[simp] theorem State.toSt_syncTick (s : State) (k : Nat) (st : CtxSt) : (s.toSt k st).syncTick = s.syncTick := by simp [State.toSt]
@[simp] theorem State.toSt_tbcTick (s : State) (k : Nat) (st : CtxSt) : (s.toSt k st).tbcTick = s.tbcTick := by simp [State.toSt]
@[simp] theorem State.toSt_clkDead (s : State) (k : Nat) (st : CtxSt) : (s.toSt k st).clkDead = s.clkDead := by simp [State.toSt]
@[simp] theorem State.toSt_clkLost (s : State) (k : Nat) (st : CtxSt) : (s.toSt k st).clkLost = s.clkLost := by simp [State.toSt]
@[simp] theorem State.toSt_raises (s : State) (k : Nat) (st : CtxSt) : (s.toSt k st).raises = s.raises := by simp [State.toSt]
@[simp] theorem State.toSt_postings (s : State) (k : Nat) (st : CtxSt) : (s.toSt k st).postings = s.postings := by simp [State.toSt]
@[simp] theorem State.toSt_capPend (s : State) (k : Nat) (st : CtxSt) : (s.toSt k st).capPend = s.capPend := by simp [State.toSt]
@[simp] theorem State.toSt_outbox (s : State) (k : Nat) (st : CtxSt) : (s.toSt k st).outbox = s.outbox := by simp [State.toSt]
@[simp] theorem State.toSt_fixScope (s : State) (k : Nat) (st : CtxSt) : (s.toSt k st).fixScope = s.fixScope := by simp [State.toSt]
@[simp] theorem State.toSt_fixStale (s : State) (k : Nat) (st : CtxSt) : (s.toSt k st).fixStale = s.fixStale := by simp [State.toSt]
@[simp] theorem State.toSt_fixMode (s : State) (k : Nat) (st : CtxSt) : (s.toSt k st).fixMode = s.fixMode := by simp [State.toSt]
@[simp] theorem State.toSt_fixTag (s : State) (k : Nat) (st : CtxSt) : (s.toSt k st).fixTag = s.fixTag := by simp [State.toSt]
@[simp] theorem State.toSt_fixBlead (s : State) (k : Nat) (st : CtxSt) : (s.toSt k st).fixBlead = s.fixBlead := by simp [State.toSt]
@[simp] theorem State.toSt_fixBexp (s : State) (k : Nat) (st : CtxSt) : (s.toSt k st).fixBexp = s.fixBexp := by simp [State.toSt]
@[simp] theorem State.toSt_fixTime (s : State) (k : Nat) (st : CtxSt) : (s.toSt k st).fixTime = s.fixTime := by simp [State.toSt]
@[simp] theorem State.toSt_fixBcast (s : State) (k : Nat) (st : CtxSt) : (s.toSt k st).fixBcast = s.fixBcast := by simp [State.toSt]
@[simp] theorem State.toSt_fixCopied (s : State) (k : Nat) (st : CtxSt) : (s.toSt k st).fixCopied = s.fixCopied := by simp [State.toSt]
@[simp] theorem State.toSt_fixReset (s : State) (k : Nat) (st : CtxSt) : (s.toSt k st).fixReset = s.fixReset := by simp [State.toSt]
@[simp] theorem State.toSt_fixResetPgs (s : State) (k : Nat) (st : CtxSt) : (s.toSt k st).fixResetPgs = s.fixResetPgs := by simp [State.toSt]
@[simp] theorem State.toSt_fixSeen (s : State) (k : Nat) (st : CtxSt) : (s.toSt k st).fixSeen = s.fixSeen := by simp [State.toSt]
@[simp] theorem State.toSt_fixInit (s : State) (k : Nat) (st : CtxSt) : (s.toSt k st).fixInit = s.fixInit := by simp [State.toSt]
@[simp] theorem State.toSt_lfHeld (s : State) (k : Nat) (st : CtxSt) : (s.toSt k st).lfHeld = s.lfHeld := by simp [State.toSt]
@[simp] theorem State.toSt_hs (s : State) (k : Nat) (st : CtxSt) : (s.toSt k st).hs = s.hs := by simp [State.toSt]
@[simp] theorem State.toSt_dies (s : State) (k : Nat) (st : CtxSt) : (s.toSt k st).dies = s.dies := by simp [State.toSt]
@[simp] theorem State.toSt_bankTick (s : State) (k : Nat) (st : CtxSt) : (s.toSt k st).bankTick = s.bankTick := by simp [State.toSt]
@[simp] theorem State.toSt_senseAt (s : State) (k : Nat) (st : CtxSt) : (s.toSt k st).senseAt = s.senseAt := by simp [State.toSt]
@[simp] theorem State.toSt_legs (s : State) (k : Nat) (st : CtxSt) : (s.toSt k st).legs = s.legs := by simp [State.toSt]
@[simp] theorem State.toSt_bridges (s : State) (k : Nat) (st : CtxSt) : (s.toSt k st).bridges = s.bridges := by simp [State.toSt]
@[simp] theorem State.toSt_valves (s : State) (k : Nat) (st : CtxSt) : (s.toSt k st).valves = s.valves := by simp [State.toSt]
@[simp] theorem State.toSt_sides (s : State) (k : Nat) (st : CtxSt) : (s.toSt k st).sides = s.sides := by simp [State.toSt]
@[simp] theorem State.toSt_boostTick (s : State) (k : Nat) (st : CtxSt) : (s.toSt k st).boostTick = s.boostTick := by simp [State.toSt]
@[simp] theorem State.toSt_boostTold (s : State) (k : Nat) (st : CtxSt) : (s.toSt k st).boostTold = s.boostTold := by simp [State.toSt]
@[simp] theorem State.toSt_light (s : State) (k : Nat) (st : CtxSt) : (s.toSt k st).light = s.light := by simp [State.toSt]
@[simp] theorem State.toSt_ambs (s : State) (k : Nat) (st : CtxSt) : (s.toSt k st).ambs = s.ambs := by simp [State.toSt]
@[simp] theorem State.toSt_sis (s : State) (k : Nat) (st : CtxSt) : (s.toSt k st).sis = s.sis := by simp [State.toSt]
@[simp] theorem State.toSt_ios (s : State) (k : Nat) (st : CtxSt) : (s.toSt k st).ios = s.ios := by simp [State.toSt]
@[simp] theorem State.toSt_siRef (s : State) (k : Nat) (st : CtxSt) : (s.toSt k st).siRef = s.siRef := by simp [State.toSt]
@[simp] theorem State.toSt_siRefPg (s : State) (k : Nat) (st : CtxSt) : (s.toSt k st).siRefPg = s.siRefPg := by simp [State.toSt]
@[simp] theorem State.toSt_fsDie (s : State) (k : Nat) (st : CtxSt) : (s.toSt k st).fsDie = s.fsDie := by simp [State.toSt]
@[simp] theorem State.toSt_fsNew (s : State) (k : Nat) (st : CtxSt) : (s.toSt k st).fsNew = s.fsNew := by simp [State.toSt]
@[simp] theorem State.toSt_fsAt (s : State) (k : Nat) (st : CtxSt) : (s.toSt k st).fsAt = s.fsAt := by simp [State.toSt]
@[simp] theorem State.toSt_parkWake (s : State) (k : Nat) (st : CtxSt) : (s.toSt k st).parkWake = s.parkWake := by simp [State.toSt]
@[simp] theorem State.toSt_cans (s : State) (k : Nat) (st : CtxSt) : (s.toSt k st).cans = s.cans := by simp [State.toSt]
@[simp] theorem State.toSt_lins (s : State) (k : Nat) (st : CtxSt) : (s.toSt k st).lins = s.lins := by simp [State.toSt]
@[simp] theorem State.toSt_eth (s : State) (k : Nat) (st : CtxSt) : (s.toSt k st).eth = s.eth := by simp [State.toSt]
@[simp] theorem State.toSt_nm (s : State) (k : Nat) (st : CtxSt) : (s.toSt k st).nm = s.nm := by simp [State.toSt]
@[simp] theorem State.toSt_pulses (s : State) (k : Nat) (st : CtxSt) : (s.toSt k st).pulses = s.pulses := by simp [State.toSt]
@[simp] theorem State.toSt_clauses (s : State) (k : Nat) (st : CtxSt) : (s.toSt k st).clauses = s.clauses := by simp [State.toSt]
@[simp] theorem State.toSt_slots (s : State) (k : Nat) (st : CtxSt) : (s.toSt k st).slots = s.slots := by simp [State.toSt]
@[simp] theorem State.toSt_rxlTick (s : State) (k : Nat) (st : CtxSt) : (s.toSt k st).rxlTick = s.rxlTick := by simp [State.toSt]
@[simp] theorem State.toSt_retouchPend (s : State) (k : Nat) (st : CtxSt) : (s.toSt k st).retouchPend = s.retouchPend := by simp [State.toSt]
@[simp] theorem State.toSt_lcMap (s : State) (k : Nat) (st : CtxSt) : (s.toSt k st).lcMap = s.lcMap := by simp [State.toSt]
@[simp] theorem State.toSt_icache (s : State) (k : Nat) (st : CtxSt) : (s.toSt k st).icache = s.icache := by simp [State.toSt]
@[simp] theorem State.toSt_icBad (s : State) (k : Nat) (st : CtxSt) : (s.toSt k st).icBad = s.icBad := by simp [State.toSt]
@[simp] theorem State.toSt_testAt (s : State) (k : Nat) (st : CtxSt) : (s.toSt k st).testAt = s.testAt := by simp [State.toSt]
@[simp] theorem State.toSt_nmts (s : State) (k : Nat) (st : CtxSt) : (s.toSt k st).nmts = s.nmts := by simp [State.toSt]
@[simp] theorem State.toSt_ops (s : State) (k : Nat) (st : CtxSt) : (s.toSt k st).ops = s.ops := by simp [State.toSt]
@[simp] theorem State.toSt_opNext (s : State) (k : Nat) (st : CtxSt) : (s.toSt k st).opNext = s.opNext := by simp [State.toSt]
@[simp] theorem State.toSt_takeovers (s : State) (k : Nat) (st : CtxSt) : (s.toSt k st).takeovers = s.takeovers := by simp [State.toSt]
@[simp] theorem State.toSt_tkWait (s : State) (k : Nat) (st : CtxSt) : (s.toSt k st).tkWait = s.tkWait := by simp [State.toSt]
@[simp] theorem State.toSt_lcmHeld (s : State) (k : Nat) (st : CtxSt) : (s.toSt k st).lcmHeld = s.lcmHeld := by simp [State.toSt]
@[simp] theorem State.toSt_retired (s : State) (k : Nat) (st : CtxSt) : (s.toSt k st).retired = s.retired := by simp [State.toSt]
@[simp] theorem State.toSt_lcSram (s : State) (k : Nat) (st : CtxSt) : (s.toSt k st).lcSram = s.lcSram := by simp [State.toSt]
@[simp] theorem State.toSt_memc (s : State) (k : Nat) (st : CtxSt) : (s.toSt k st).memc = s.memc := by simp [State.toSt]
@[simp] theorem State.toSt_cry (s : State) (k : Nat) (st : CtxSt) : (s.toSt k st).cry = s.cry := by simp [State.toSt]
@[simp] theorem State.toSt_flt (s : State) (k : Nat) (st : CtxSt) : (s.toSt k st).flt = s.flt := by simp [State.toSt]
@[simp] theorem State.toSt_pwr (s : State) (k : Nat) (st : CtxSt) : (s.toSt k st).pwr = s.pwr := by simp [State.toSt]
@[simp] theorem State.toSt_upd (s : State) (k : Nat) (st : CtxSt) : (s.toSt k st).upd = s.upd := by simp [State.toSt]
@[simp] theorem State.toSt_power (s : State) (k : Nat) (st : CtxSt) : (s.toSt k st).power = s.power := by simp [State.toSt]

/-! ## ok -/

@[simp] theorem State.ok_sketch (s : State) (pg : Nat) : (s.ok pg).sketch = s.sketch := State.answer_sketch ..
@[simp] theorem State.ok_symErr (s : State) (pg : Nat) : (s.ok pg).symErr = s.symErr := State.answer_symErr ..
@[simp] theorem State.ok_pending (s : State) (pg : Nat) : (s.ok pg).pending = s.pending := State.answer_pending ..
@[simp] theorem State.ok_mem (s : State) (pg : Nat) : (s.ok pg).mem = s.mem := State.answer_mem ..
@[simp] theorem State.ok_poison (s : State) (pg : Nat) : (s.ok pg).poison = s.poison := State.answer_poison ..
@[simp] theorem State.ok_bankB (s : State) (pg : Nat) : (s.ok pg).bankB = s.bankB := State.answer_bankB ..
@[simp] theorem State.ok_freeCtr (s : State) (pg : Nat) : (s.ok pg).freeCtr = s.freeCtr := State.answer_freeCtr ..
@[simp] theorem State.ok_tb (s : State) (pg : Nat) : (s.ok pg).tb = s.tb := State.answer_tb ..
@[simp] theorem State.ok_tbRun (s : State) (pg : Nat) : (s.ok pg).tbRun = s.tbRun := State.answer_tbRun ..
@[simp] theorem State.ok_kaLead (s : State) (pg : Nat) : (s.ok pg).kaLead = s.kaLead := State.answer_kaLead ..
@[simp] theorem State.ok_tbStep (s : State) (pg : Nat) : (s.ok pg).tbStep = s.tbStep := State.answer_tbStep ..
@[simp] theorem State.ok_syncGood (s : State) (pg : Nat) : (s.ok pg).syncGood = s.syncGood := State.answer_syncGood ..
@[simp] theorem State.ok_syncTick (s : State) (pg : Nat) : (s.ok pg).syncTick = s.syncTick := State.answer_syncTick ..
@[simp] theorem State.ok_tbcTick (s : State) (pg : Nat) : (s.ok pg).tbcTick = s.tbcTick := State.answer_tbcTick ..
@[simp] theorem State.ok_clkDead (s : State) (pg : Nat) : (s.ok pg).clkDead = s.clkDead := State.answer_clkDead ..
@[simp] theorem State.ok_clkLost (s : State) (pg : Nat) : (s.ok pg).clkLost = s.clkLost := State.answer_clkLost ..
@[simp] theorem State.ok_raises (s : State) (pg : Nat) : (s.ok pg).raises = s.raises := State.answer_raises ..
@[simp] theorem State.ok_postings (s : State) (pg : Nat) : (s.ok pg).postings = s.postings := State.answer_postings ..
@[simp] theorem State.ok_capPend (s : State) (pg : Nat) : (s.ok pg).capPend = s.capPend := State.answer_capPend ..
@[simp] theorem State.ok_outbox (s : State) (pg : Nat) : (s.ok pg).outbox = s.outbox := State.answer_outbox ..
@[simp] theorem State.ok_fixScope (s : State) (pg : Nat) : (s.ok pg).fixScope = s.fixScope := State.answer_fixScope ..
@[simp] theorem State.ok_fixStale (s : State) (pg : Nat) : (s.ok pg).fixStale = s.fixStale := State.answer_fixStale ..
@[simp] theorem State.ok_fixMode (s : State) (pg : Nat) : (s.ok pg).fixMode = s.fixMode := State.answer_fixMode ..
@[simp] theorem State.ok_fixTag (s : State) (pg : Nat) : (s.ok pg).fixTag = s.fixTag := State.answer_fixTag ..
@[simp] theorem State.ok_fixBlead (s : State) (pg : Nat) : (s.ok pg).fixBlead = s.fixBlead := State.answer_fixBlead ..
@[simp] theorem State.ok_fixBexp (s : State) (pg : Nat) : (s.ok pg).fixBexp = s.fixBexp := State.answer_fixBexp ..
@[simp] theorem State.ok_fixTime (s : State) (pg : Nat) : (s.ok pg).fixTime = s.fixTime := State.answer_fixTime ..
@[simp] theorem State.ok_fixBcast (s : State) (pg : Nat) : (s.ok pg).fixBcast = s.fixBcast := State.answer_fixBcast ..
@[simp] theorem State.ok_fixCopied (s : State) (pg : Nat) : (s.ok pg).fixCopied = s.fixCopied := State.answer_fixCopied ..
@[simp] theorem State.ok_fixReset (s : State) (pg : Nat) : (s.ok pg).fixReset = s.fixReset := State.answer_fixReset ..
@[simp] theorem State.ok_fixResetPgs (s : State) (pg : Nat) : (s.ok pg).fixResetPgs = s.fixResetPgs := State.answer_fixResetPgs ..
@[simp] theorem State.ok_fixSeen (s : State) (pg : Nat) : (s.ok pg).fixSeen = s.fixSeen := State.answer_fixSeen ..
@[simp] theorem State.ok_fixInit (s : State) (pg : Nat) : (s.ok pg).fixInit = s.fixInit := State.answer_fixInit ..
@[simp] theorem State.ok_lfHeld (s : State) (pg : Nat) : (s.ok pg).lfHeld = s.lfHeld := State.answer_lfHeld ..
@[simp] theorem State.ok_hs (s : State) (pg : Nat) : (s.ok pg).hs = s.hs := State.answer_hs ..
@[simp] theorem State.ok_dies (s : State) (pg : Nat) : (s.ok pg).dies = s.dies := State.answer_dies ..
@[simp] theorem State.ok_bankTick (s : State) (pg : Nat) : (s.ok pg).bankTick = s.bankTick := State.answer_bankTick ..
@[simp] theorem State.ok_senseAt (s : State) (pg : Nat) : (s.ok pg).senseAt = s.senseAt := State.answer_senseAt ..
@[simp] theorem State.ok_legs (s : State) (pg : Nat) : (s.ok pg).legs = s.legs := State.answer_legs ..
@[simp] theorem State.ok_bridges (s : State) (pg : Nat) : (s.ok pg).bridges = s.bridges := State.answer_bridges ..
@[simp] theorem State.ok_valves (s : State) (pg : Nat) : (s.ok pg).valves = s.valves := State.answer_valves ..
@[simp] theorem State.ok_sides (s : State) (pg : Nat) : (s.ok pg).sides = s.sides := State.answer_sides ..
@[simp] theorem State.ok_boostTick (s : State) (pg : Nat) : (s.ok pg).boostTick = s.boostTick := State.answer_boostTick ..
@[simp] theorem State.ok_boostTold (s : State) (pg : Nat) : (s.ok pg).boostTold = s.boostTold := State.answer_boostTold ..
@[simp] theorem State.ok_light (s : State) (pg : Nat) : (s.ok pg).light = s.light := State.answer_light ..
@[simp] theorem State.ok_ambs (s : State) (pg : Nat) : (s.ok pg).ambs = s.ambs := State.answer_ambs ..
@[simp] theorem State.ok_sis (s : State) (pg : Nat) : (s.ok pg).sis = s.sis := State.answer_sis ..
@[simp] theorem State.ok_ios (s : State) (pg : Nat) : (s.ok pg).ios = s.ios := State.answer_ios ..
@[simp] theorem State.ok_siRef (s : State) (pg : Nat) : (s.ok pg).siRef = s.siRef := State.answer_siRef ..
@[simp] theorem State.ok_siRefPg (s : State) (pg : Nat) : (s.ok pg).siRefPg = s.siRefPg := State.answer_siRefPg ..
@[simp] theorem State.ok_fsDie (s : State) (pg : Nat) : (s.ok pg).fsDie = s.fsDie := State.answer_fsDie ..
@[simp] theorem State.ok_fsNew (s : State) (pg : Nat) : (s.ok pg).fsNew = s.fsNew := State.answer_fsNew ..
@[simp] theorem State.ok_fsAt (s : State) (pg : Nat) : (s.ok pg).fsAt = s.fsAt := State.answer_fsAt ..
@[simp] theorem State.ok_parkWake (s : State) (pg : Nat) : (s.ok pg).parkWake = s.parkWake := State.answer_parkWake ..
@[simp] theorem State.ok_cans (s : State) (pg : Nat) : (s.ok pg).cans = s.cans := State.answer_cans ..
@[simp] theorem State.ok_lins (s : State) (pg : Nat) : (s.ok pg).lins = s.lins := State.answer_lins ..
@[simp] theorem State.ok_eth (s : State) (pg : Nat) : (s.ok pg).eth = s.eth := State.answer_eth ..
@[simp] theorem State.ok_nm (s : State) (pg : Nat) : (s.ok pg).nm = s.nm := State.answer_nm ..
@[simp] theorem State.ok_pulses (s : State) (pg : Nat) : (s.ok pg).pulses = s.pulses := State.answer_pulses ..
@[simp] theorem State.ok_clauses (s : State) (pg : Nat) : (s.ok pg).clauses = s.clauses := State.answer_clauses ..
@[simp] theorem State.ok_slots (s : State) (pg : Nat) : (s.ok pg).slots = s.slots := State.answer_slots ..
@[simp] theorem State.ok_rxlTick (s : State) (pg : Nat) : (s.ok pg).rxlTick = s.rxlTick := State.answer_rxlTick ..
@[simp] theorem State.ok_retouchPend (s : State) (pg : Nat) : (s.ok pg).retouchPend = s.retouchPend := State.answer_retouchPend ..
@[simp] theorem State.ok_lcMap (s : State) (pg : Nat) : (s.ok pg).lcMap = s.lcMap := State.answer_lcMap ..
@[simp] theorem State.ok_ctxs (s : State) (pg : Nat) : (s.ok pg).ctxs = s.ctxs := State.answer_ctxs ..
@[simp] theorem State.ok_lcores (s : State) (pg : Nat) : (s.ok pg).lcores = s.lcores := State.answer_lcores ..
@[simp] theorem State.ok_icache (s : State) (pg : Nat) : (s.ok pg).icache = s.icache := State.answer_icache ..
@[simp] theorem State.ok_icBad (s : State) (pg : Nat) : (s.ok pg).icBad = s.icBad := State.answer_icBad ..
@[simp] theorem State.ok_testAt (s : State) (pg : Nat) : (s.ok pg).testAt = s.testAt := State.answer_testAt ..
@[simp] theorem State.ok_nmts (s : State) (pg : Nat) : (s.ok pg).nmts = s.nmts := State.answer_nmts ..
@[simp] theorem State.ok_ops (s : State) (pg : Nat) : (s.ok pg).ops = s.ops := State.answer_ops ..
@[simp] theorem State.ok_opNext (s : State) (pg : Nat) : (s.ok pg).opNext = s.opNext := State.answer_opNext ..
@[simp] theorem State.ok_takeovers (s : State) (pg : Nat) : (s.ok pg).takeovers = s.takeovers := State.answer_takeovers ..
@[simp] theorem State.ok_tkWait (s : State) (pg : Nat) : (s.ok pg).tkWait = s.tkWait := State.answer_tkWait ..
@[simp] theorem State.ok_lcmHeld (s : State) (pg : Nat) : (s.ok pg).lcmHeld = s.lcmHeld := State.answer_lcmHeld ..
@[simp] theorem State.ok_retired (s : State) (pg : Nat) : (s.ok pg).retired = s.retired := State.answer_retired ..
@[simp] theorem State.ok_lcSram (s : State) (pg : Nat) : (s.ok pg).lcSram = s.lcSram := State.answer_lcSram ..
@[simp] theorem State.ok_memc (s : State) (pg : Nat) : (s.ok pg).memc = s.memc := State.answer_memc ..
@[simp] theorem State.ok_cry (s : State) (pg : Nat) : (s.ok pg).cry = s.cry := State.answer_cry ..
@[simp] theorem State.ok_flt (s : State) (pg : Nat) : (s.ok pg).flt = s.flt := State.answer_flt ..
@[simp] theorem State.ok_pwr (s : State) (pg : Nat) : (s.ok pg).pwr = s.pwr := State.answer_pwr ..
@[simp] theorem State.ok_upd (s : State) (pg : Nat) : (s.ok pg).upd = s.upd := State.answer_upd ..
@[simp] theorem State.ok_power (s : State) (pg : Nat) : (s.ok pg).power = s.power := State.answer_power ..

/-! ## range -/

@[simp] theorem State.range_sketch (s : State) (pg : Nat) : (s.range pg).sketch = s.sketch := State.answer_sketch ..
@[simp] theorem State.range_symErr (s : State) (pg : Nat) : (s.range pg).symErr = s.symErr := State.answer_symErr ..
@[simp] theorem State.range_pending (s : State) (pg : Nat) : (s.range pg).pending = s.pending := State.answer_pending ..
@[simp] theorem State.range_mem (s : State) (pg : Nat) : (s.range pg).mem = s.mem := State.answer_mem ..
@[simp] theorem State.range_poison (s : State) (pg : Nat) : (s.range pg).poison = s.poison := State.answer_poison ..
@[simp] theorem State.range_bankB (s : State) (pg : Nat) : (s.range pg).bankB = s.bankB := State.answer_bankB ..
@[simp] theorem State.range_freeCtr (s : State) (pg : Nat) : (s.range pg).freeCtr = s.freeCtr := State.answer_freeCtr ..
@[simp] theorem State.range_tb (s : State) (pg : Nat) : (s.range pg).tb = s.tb := State.answer_tb ..
@[simp] theorem State.range_tbRun (s : State) (pg : Nat) : (s.range pg).tbRun = s.tbRun := State.answer_tbRun ..
@[simp] theorem State.range_kaLead (s : State) (pg : Nat) : (s.range pg).kaLead = s.kaLead := State.answer_kaLead ..
@[simp] theorem State.range_tbStep (s : State) (pg : Nat) : (s.range pg).tbStep = s.tbStep := State.answer_tbStep ..
@[simp] theorem State.range_syncGood (s : State) (pg : Nat) : (s.range pg).syncGood = s.syncGood := State.answer_syncGood ..
@[simp] theorem State.range_syncTick (s : State) (pg : Nat) : (s.range pg).syncTick = s.syncTick := State.answer_syncTick ..
@[simp] theorem State.range_tbcTick (s : State) (pg : Nat) : (s.range pg).tbcTick = s.tbcTick := State.answer_tbcTick ..
@[simp] theorem State.range_clkDead (s : State) (pg : Nat) : (s.range pg).clkDead = s.clkDead := State.answer_clkDead ..
@[simp] theorem State.range_clkLost (s : State) (pg : Nat) : (s.range pg).clkLost = s.clkLost := State.answer_clkLost ..
@[simp] theorem State.range_raises (s : State) (pg : Nat) : (s.range pg).raises = s.raises := State.answer_raises ..
@[simp] theorem State.range_postings (s : State) (pg : Nat) : (s.range pg).postings = s.postings := State.answer_postings ..
@[simp] theorem State.range_capPend (s : State) (pg : Nat) : (s.range pg).capPend = s.capPend := State.answer_capPend ..
@[simp] theorem State.range_outbox (s : State) (pg : Nat) : (s.range pg).outbox = s.outbox := State.answer_outbox ..
@[simp] theorem State.range_fixScope (s : State) (pg : Nat) : (s.range pg).fixScope = s.fixScope := State.answer_fixScope ..
@[simp] theorem State.range_fixStale (s : State) (pg : Nat) : (s.range pg).fixStale = s.fixStale := State.answer_fixStale ..
@[simp] theorem State.range_fixMode (s : State) (pg : Nat) : (s.range pg).fixMode = s.fixMode := State.answer_fixMode ..
@[simp] theorem State.range_fixTag (s : State) (pg : Nat) : (s.range pg).fixTag = s.fixTag := State.answer_fixTag ..
@[simp] theorem State.range_fixBlead (s : State) (pg : Nat) : (s.range pg).fixBlead = s.fixBlead := State.answer_fixBlead ..
@[simp] theorem State.range_fixBexp (s : State) (pg : Nat) : (s.range pg).fixBexp = s.fixBexp := State.answer_fixBexp ..
@[simp] theorem State.range_fixTime (s : State) (pg : Nat) : (s.range pg).fixTime = s.fixTime := State.answer_fixTime ..
@[simp] theorem State.range_fixBcast (s : State) (pg : Nat) : (s.range pg).fixBcast = s.fixBcast := State.answer_fixBcast ..
@[simp] theorem State.range_fixCopied (s : State) (pg : Nat) : (s.range pg).fixCopied = s.fixCopied := State.answer_fixCopied ..
@[simp] theorem State.range_fixReset (s : State) (pg : Nat) : (s.range pg).fixReset = s.fixReset := State.answer_fixReset ..
@[simp] theorem State.range_fixResetPgs (s : State) (pg : Nat) : (s.range pg).fixResetPgs = s.fixResetPgs := State.answer_fixResetPgs ..
@[simp] theorem State.range_fixSeen (s : State) (pg : Nat) : (s.range pg).fixSeen = s.fixSeen := State.answer_fixSeen ..
@[simp] theorem State.range_fixInit (s : State) (pg : Nat) : (s.range pg).fixInit = s.fixInit := State.answer_fixInit ..
@[simp] theorem State.range_lfHeld (s : State) (pg : Nat) : (s.range pg).lfHeld = s.lfHeld := State.answer_lfHeld ..
@[simp] theorem State.range_hs (s : State) (pg : Nat) : (s.range pg).hs = s.hs := State.answer_hs ..
@[simp] theorem State.range_dies (s : State) (pg : Nat) : (s.range pg).dies = s.dies := State.answer_dies ..
@[simp] theorem State.range_bankTick (s : State) (pg : Nat) : (s.range pg).bankTick = s.bankTick := State.answer_bankTick ..
@[simp] theorem State.range_senseAt (s : State) (pg : Nat) : (s.range pg).senseAt = s.senseAt := State.answer_senseAt ..
@[simp] theorem State.range_legs (s : State) (pg : Nat) : (s.range pg).legs = s.legs := State.answer_legs ..
@[simp] theorem State.range_bridges (s : State) (pg : Nat) : (s.range pg).bridges = s.bridges := State.answer_bridges ..
@[simp] theorem State.range_valves (s : State) (pg : Nat) : (s.range pg).valves = s.valves := State.answer_valves ..
@[simp] theorem State.range_sides (s : State) (pg : Nat) : (s.range pg).sides = s.sides := State.answer_sides ..
@[simp] theorem State.range_boostTick (s : State) (pg : Nat) : (s.range pg).boostTick = s.boostTick := State.answer_boostTick ..
@[simp] theorem State.range_boostTold (s : State) (pg : Nat) : (s.range pg).boostTold = s.boostTold := State.answer_boostTold ..
@[simp] theorem State.range_light (s : State) (pg : Nat) : (s.range pg).light = s.light := State.answer_light ..
@[simp] theorem State.range_ambs (s : State) (pg : Nat) : (s.range pg).ambs = s.ambs := State.answer_ambs ..
@[simp] theorem State.range_sis (s : State) (pg : Nat) : (s.range pg).sis = s.sis := State.answer_sis ..
@[simp] theorem State.range_ios (s : State) (pg : Nat) : (s.range pg).ios = s.ios := State.answer_ios ..
@[simp] theorem State.range_siRef (s : State) (pg : Nat) : (s.range pg).siRef = s.siRef := State.answer_siRef ..
@[simp] theorem State.range_siRefPg (s : State) (pg : Nat) : (s.range pg).siRefPg = s.siRefPg := State.answer_siRefPg ..
@[simp] theorem State.range_fsDie (s : State) (pg : Nat) : (s.range pg).fsDie = s.fsDie := State.answer_fsDie ..
@[simp] theorem State.range_fsNew (s : State) (pg : Nat) : (s.range pg).fsNew = s.fsNew := State.answer_fsNew ..
@[simp] theorem State.range_fsAt (s : State) (pg : Nat) : (s.range pg).fsAt = s.fsAt := State.answer_fsAt ..
@[simp] theorem State.range_parkWake (s : State) (pg : Nat) : (s.range pg).parkWake = s.parkWake := State.answer_parkWake ..
@[simp] theorem State.range_cans (s : State) (pg : Nat) : (s.range pg).cans = s.cans := State.answer_cans ..
@[simp] theorem State.range_lins (s : State) (pg : Nat) : (s.range pg).lins = s.lins := State.answer_lins ..
@[simp] theorem State.range_eth (s : State) (pg : Nat) : (s.range pg).eth = s.eth := State.answer_eth ..
@[simp] theorem State.range_nm (s : State) (pg : Nat) : (s.range pg).nm = s.nm := State.answer_nm ..
@[simp] theorem State.range_pulses (s : State) (pg : Nat) : (s.range pg).pulses = s.pulses := State.answer_pulses ..
@[simp] theorem State.range_clauses (s : State) (pg : Nat) : (s.range pg).clauses = s.clauses := State.answer_clauses ..
@[simp] theorem State.range_slots (s : State) (pg : Nat) : (s.range pg).slots = s.slots := State.answer_slots ..
@[simp] theorem State.range_rxlTick (s : State) (pg : Nat) : (s.range pg).rxlTick = s.rxlTick := State.answer_rxlTick ..
@[simp] theorem State.range_retouchPend (s : State) (pg : Nat) : (s.range pg).retouchPend = s.retouchPend := State.answer_retouchPend ..
@[simp] theorem State.range_lcMap (s : State) (pg : Nat) : (s.range pg).lcMap = s.lcMap := State.answer_lcMap ..
@[simp] theorem State.range_ctxs (s : State) (pg : Nat) : (s.range pg).ctxs = s.ctxs := State.answer_ctxs ..
@[simp] theorem State.range_lcores (s : State) (pg : Nat) : (s.range pg).lcores = s.lcores := State.answer_lcores ..
@[simp] theorem State.range_icache (s : State) (pg : Nat) : (s.range pg).icache = s.icache := State.answer_icache ..
@[simp] theorem State.range_icBad (s : State) (pg : Nat) : (s.range pg).icBad = s.icBad := State.answer_icBad ..
@[simp] theorem State.range_testAt (s : State) (pg : Nat) : (s.range pg).testAt = s.testAt := State.answer_testAt ..
@[simp] theorem State.range_nmts (s : State) (pg : Nat) : (s.range pg).nmts = s.nmts := State.answer_nmts ..
@[simp] theorem State.range_ops (s : State) (pg : Nat) : (s.range pg).ops = s.ops := State.answer_ops ..
@[simp] theorem State.range_opNext (s : State) (pg : Nat) : (s.range pg).opNext = s.opNext := State.answer_opNext ..
@[simp] theorem State.range_takeovers (s : State) (pg : Nat) : (s.range pg).takeovers = s.takeovers := State.answer_takeovers ..
@[simp] theorem State.range_tkWait (s : State) (pg : Nat) : (s.range pg).tkWait = s.tkWait := State.answer_tkWait ..
@[simp] theorem State.range_lcmHeld (s : State) (pg : Nat) : (s.range pg).lcmHeld = s.lcmHeld := State.answer_lcmHeld ..
@[simp] theorem State.range_retired (s : State) (pg : Nat) : (s.range pg).retired = s.retired := State.answer_retired ..
@[simp] theorem State.range_lcSram (s : State) (pg : Nat) : (s.range pg).lcSram = s.lcSram := State.answer_lcSram ..
@[simp] theorem State.range_memc (s : State) (pg : Nat) : (s.range pg).memc = s.memc := State.answer_memc ..
@[simp] theorem State.range_cry (s : State) (pg : Nat) : (s.range pg).cry = s.cry := State.answer_cry ..
@[simp] theorem State.range_flt (s : State) (pg : Nat) : (s.range pg).flt = s.flt := State.answer_flt ..
@[simp] theorem State.range_pwr (s : State) (pg : Nat) : (s.range pg).pwr = s.pwr := State.answer_pwr ..
@[simp] theorem State.range_upd (s : State) (pg : Nat) : (s.range pg).upd = s.upd := State.answer_upd ..
@[simp] theorem State.range_power (s : State) (pg : Nat) : (s.range pg).power = s.power := State.answer_power ..

/-! ## count -/

/-- A count changes registers only. -/
theorem State.count_eq (s : State) (pg i : Nat) : ∃ rg, s.count pg i = { s with regs := rg } := by
  unfold State.count; split
  · split
    · exact ⟨_, rfl⟩
    · exact ⟨_, rfl⟩
  · exact ⟨_, rfl⟩

@[simp] theorem State.count_sketch (s : State) (pg i : Nat) : (s.count pg i).sketch = s.sketch := by
  obtain ⟨_, h⟩ := s.count_eq pg i; rw [h]
@[simp] theorem State.count_symErr (s : State) (pg i : Nat) : (s.count pg i).symErr = s.symErr := by
  obtain ⟨_, h⟩ := s.count_eq pg i; rw [h]
@[simp] theorem State.count_pending (s : State) (pg i : Nat) : (s.count pg i).pending = s.pending := by
  obtain ⟨_, h⟩ := s.count_eq pg i; rw [h]
@[simp] theorem State.count_mem (s : State) (pg i : Nat) : (s.count pg i).mem = s.mem := by
  obtain ⟨_, h⟩ := s.count_eq pg i; rw [h]
@[simp] theorem State.count_poison (s : State) (pg i : Nat) : (s.count pg i).poison = s.poison := by
  obtain ⟨_, h⟩ := s.count_eq pg i; rw [h]
@[simp] theorem State.count_bankB (s : State) (pg i : Nat) : (s.count pg i).bankB = s.bankB := by
  obtain ⟨_, h⟩ := s.count_eq pg i; rw [h]
@[simp] theorem State.count_freeCtr (s : State) (pg i : Nat) : (s.count pg i).freeCtr = s.freeCtr := by
  obtain ⟨_, h⟩ := s.count_eq pg i; rw [h]
@[simp] theorem State.count_tb (s : State) (pg i : Nat) : (s.count pg i).tb = s.tb := by
  obtain ⟨_, h⟩ := s.count_eq pg i; rw [h]
@[simp] theorem State.count_tbRun (s : State) (pg i : Nat) : (s.count pg i).tbRun = s.tbRun := by
  obtain ⟨_, h⟩ := s.count_eq pg i; rw [h]
@[simp] theorem State.count_kaLead (s : State) (pg i : Nat) : (s.count pg i).kaLead = s.kaLead := by
  obtain ⟨_, h⟩ := s.count_eq pg i; rw [h]
@[simp] theorem State.count_tbStep (s : State) (pg i : Nat) : (s.count pg i).tbStep = s.tbStep := by
  obtain ⟨_, h⟩ := s.count_eq pg i; rw [h]
@[simp] theorem State.count_syncGood (s : State) (pg i : Nat) : (s.count pg i).syncGood = s.syncGood := by
  obtain ⟨_, h⟩ := s.count_eq pg i; rw [h]
@[simp] theorem State.count_syncTick (s : State) (pg i : Nat) : (s.count pg i).syncTick = s.syncTick := by
  obtain ⟨_, h⟩ := s.count_eq pg i; rw [h]
@[simp] theorem State.count_tbcTick (s : State) (pg i : Nat) : (s.count pg i).tbcTick = s.tbcTick := by
  obtain ⟨_, h⟩ := s.count_eq pg i; rw [h]
@[simp] theorem State.count_clkDead (s : State) (pg i : Nat) : (s.count pg i).clkDead = s.clkDead := by
  obtain ⟨_, h⟩ := s.count_eq pg i; rw [h]
@[simp] theorem State.count_clkLost (s : State) (pg i : Nat) : (s.count pg i).clkLost = s.clkLost := by
  obtain ⟨_, h⟩ := s.count_eq pg i; rw [h]
@[simp] theorem State.count_raises (s : State) (pg i : Nat) : (s.count pg i).raises = s.raises := by
  obtain ⟨_, h⟩ := s.count_eq pg i; rw [h]
@[simp] theorem State.count_postings (s : State) (pg i : Nat) : (s.count pg i).postings = s.postings := by
  obtain ⟨_, h⟩ := s.count_eq pg i; rw [h]
@[simp] theorem State.count_capPend (s : State) (pg i : Nat) : (s.count pg i).capPend = s.capPend := by
  obtain ⟨_, h⟩ := s.count_eq pg i; rw [h]
@[simp] theorem State.count_outbox (s : State) (pg i : Nat) : (s.count pg i).outbox = s.outbox := by
  obtain ⟨_, h⟩ := s.count_eq pg i; rw [h]
@[simp] theorem State.count_fixScope (s : State) (pg i : Nat) : (s.count pg i).fixScope = s.fixScope := by
  obtain ⟨_, h⟩ := s.count_eq pg i; rw [h]
@[simp] theorem State.count_fixStale (s : State) (pg i : Nat) : (s.count pg i).fixStale = s.fixStale := by
  obtain ⟨_, h⟩ := s.count_eq pg i; rw [h]
@[simp] theorem State.count_fixMode (s : State) (pg i : Nat) : (s.count pg i).fixMode = s.fixMode := by
  obtain ⟨_, h⟩ := s.count_eq pg i; rw [h]
@[simp] theorem State.count_fixTag (s : State) (pg i : Nat) : (s.count pg i).fixTag = s.fixTag := by
  obtain ⟨_, h⟩ := s.count_eq pg i; rw [h]
@[simp] theorem State.count_fixBlead (s : State) (pg i : Nat) : (s.count pg i).fixBlead = s.fixBlead := by
  obtain ⟨_, h⟩ := s.count_eq pg i; rw [h]
@[simp] theorem State.count_fixBexp (s : State) (pg i : Nat) : (s.count pg i).fixBexp = s.fixBexp := by
  obtain ⟨_, h⟩ := s.count_eq pg i; rw [h]
@[simp] theorem State.count_fixTime (s : State) (pg i : Nat) : (s.count pg i).fixTime = s.fixTime := by
  obtain ⟨_, h⟩ := s.count_eq pg i; rw [h]
@[simp] theorem State.count_fixBcast (s : State) (pg i : Nat) : (s.count pg i).fixBcast = s.fixBcast := by
  obtain ⟨_, h⟩ := s.count_eq pg i; rw [h]
@[simp] theorem State.count_fixCopied (s : State) (pg i : Nat) : (s.count pg i).fixCopied = s.fixCopied := by
  obtain ⟨_, h⟩ := s.count_eq pg i; rw [h]
@[simp] theorem State.count_fixReset (s : State) (pg i : Nat) : (s.count pg i).fixReset = s.fixReset := by
  obtain ⟨_, h⟩ := s.count_eq pg i; rw [h]
@[simp] theorem State.count_fixResetPgs (s : State) (pg i : Nat) : (s.count pg i).fixResetPgs = s.fixResetPgs := by
  obtain ⟨_, h⟩ := s.count_eq pg i; rw [h]
@[simp] theorem State.count_fixSeen (s : State) (pg i : Nat) : (s.count pg i).fixSeen = s.fixSeen := by
  obtain ⟨_, h⟩ := s.count_eq pg i; rw [h]
@[simp] theorem State.count_fixInit (s : State) (pg i : Nat) : (s.count pg i).fixInit = s.fixInit := by
  obtain ⟨_, h⟩ := s.count_eq pg i; rw [h]
@[simp] theorem State.count_lfHeld (s : State) (pg i : Nat) : (s.count pg i).lfHeld = s.lfHeld := by
  obtain ⟨_, h⟩ := s.count_eq pg i; rw [h]
@[simp] theorem State.count_hs (s : State) (pg i : Nat) : (s.count pg i).hs = s.hs := by
  obtain ⟨_, h⟩ := s.count_eq pg i; rw [h]
@[simp] theorem State.count_dies (s : State) (pg i : Nat) : (s.count pg i).dies = s.dies := by
  obtain ⟨_, h⟩ := s.count_eq pg i; rw [h]
@[simp] theorem State.count_bankTick (s : State) (pg i : Nat) : (s.count pg i).bankTick = s.bankTick := by
  obtain ⟨_, h⟩ := s.count_eq pg i; rw [h]
@[simp] theorem State.count_senseAt (s : State) (pg i : Nat) : (s.count pg i).senseAt = s.senseAt := by
  obtain ⟨_, h⟩ := s.count_eq pg i; rw [h]
@[simp] theorem State.count_legs (s : State) (pg i : Nat) : (s.count pg i).legs = s.legs := by
  obtain ⟨_, h⟩ := s.count_eq pg i; rw [h]
@[simp] theorem State.count_bridges (s : State) (pg i : Nat) : (s.count pg i).bridges = s.bridges := by
  obtain ⟨_, h⟩ := s.count_eq pg i; rw [h]
@[simp] theorem State.count_valves (s : State) (pg i : Nat) : (s.count pg i).valves = s.valves := by
  obtain ⟨_, h⟩ := s.count_eq pg i; rw [h]
@[simp] theorem State.count_sides (s : State) (pg i : Nat) : (s.count pg i).sides = s.sides := by
  obtain ⟨_, h⟩ := s.count_eq pg i; rw [h]
@[simp] theorem State.count_boostTick (s : State) (pg i : Nat) : (s.count pg i).boostTick = s.boostTick := by
  obtain ⟨_, h⟩ := s.count_eq pg i; rw [h]
@[simp] theorem State.count_boostTold (s : State) (pg i : Nat) : (s.count pg i).boostTold = s.boostTold := by
  obtain ⟨_, h⟩ := s.count_eq pg i; rw [h]
@[simp] theorem State.count_light (s : State) (pg i : Nat) : (s.count pg i).light = s.light := by
  obtain ⟨_, h⟩ := s.count_eq pg i; rw [h]
@[simp] theorem State.count_ambs (s : State) (pg i : Nat) : (s.count pg i).ambs = s.ambs := by
  obtain ⟨_, h⟩ := s.count_eq pg i; rw [h]
@[simp] theorem State.count_sis (s : State) (pg i : Nat) : (s.count pg i).sis = s.sis := by
  obtain ⟨_, h⟩ := s.count_eq pg i; rw [h]
@[simp] theorem State.count_ios (s : State) (pg i : Nat) : (s.count pg i).ios = s.ios := by
  obtain ⟨_, h⟩ := s.count_eq pg i; rw [h]
@[simp] theorem State.count_siRef (s : State) (pg i : Nat) : (s.count pg i).siRef = s.siRef := by
  obtain ⟨_, h⟩ := s.count_eq pg i; rw [h]
@[simp] theorem State.count_siRefPg (s : State) (pg i : Nat) : (s.count pg i).siRefPg = s.siRefPg := by
  obtain ⟨_, h⟩ := s.count_eq pg i; rw [h]
@[simp] theorem State.count_fsDie (s : State) (pg i : Nat) : (s.count pg i).fsDie = s.fsDie := by
  obtain ⟨_, h⟩ := s.count_eq pg i; rw [h]
@[simp] theorem State.count_fsNew (s : State) (pg i : Nat) : (s.count pg i).fsNew = s.fsNew := by
  obtain ⟨_, h⟩ := s.count_eq pg i; rw [h]
@[simp] theorem State.count_fsAt (s : State) (pg i : Nat) : (s.count pg i).fsAt = s.fsAt := by
  obtain ⟨_, h⟩ := s.count_eq pg i; rw [h]
@[simp] theorem State.count_parkWake (s : State) (pg i : Nat) : (s.count pg i).parkWake = s.parkWake := by
  obtain ⟨_, h⟩ := s.count_eq pg i; rw [h]
@[simp] theorem State.count_cans (s : State) (pg i : Nat) : (s.count pg i).cans = s.cans := by
  obtain ⟨_, h⟩ := s.count_eq pg i; rw [h]
@[simp] theorem State.count_lins (s : State) (pg i : Nat) : (s.count pg i).lins = s.lins := by
  obtain ⟨_, h⟩ := s.count_eq pg i; rw [h]
@[simp] theorem State.count_eth (s : State) (pg i : Nat) : (s.count pg i).eth = s.eth := by
  obtain ⟨_, h⟩ := s.count_eq pg i; rw [h]
@[simp] theorem State.count_nm (s : State) (pg i : Nat) : (s.count pg i).nm = s.nm := by
  obtain ⟨_, h⟩ := s.count_eq pg i; rw [h]
@[simp] theorem State.count_pulses (s : State) (pg i : Nat) : (s.count pg i).pulses = s.pulses := by
  obtain ⟨_, h⟩ := s.count_eq pg i; rw [h]
@[simp] theorem State.count_clauses (s : State) (pg i : Nat) : (s.count pg i).clauses = s.clauses := by
  obtain ⟨_, h⟩ := s.count_eq pg i; rw [h]
@[simp] theorem State.count_slots (s : State) (pg i : Nat) : (s.count pg i).slots = s.slots := by
  obtain ⟨_, h⟩ := s.count_eq pg i; rw [h]
@[simp] theorem State.count_rxlTick (s : State) (pg i : Nat) : (s.count pg i).rxlTick = s.rxlTick := by
  obtain ⟨_, h⟩ := s.count_eq pg i; rw [h]
@[simp] theorem State.count_retouchPend (s : State) (pg i : Nat) : (s.count pg i).retouchPend = s.retouchPend := by
  obtain ⟨_, h⟩ := s.count_eq pg i; rw [h]
@[simp] theorem State.count_lcMap (s : State) (pg i : Nat) : (s.count pg i).lcMap = s.lcMap := by
  obtain ⟨_, h⟩ := s.count_eq pg i; rw [h]
@[simp] theorem State.count_ctxs (s : State) (pg i : Nat) : (s.count pg i).ctxs = s.ctxs := by
  obtain ⟨_, h⟩ := s.count_eq pg i; rw [h]
@[simp] theorem State.count_lcores (s : State) (pg i : Nat) : (s.count pg i).lcores = s.lcores := by
  obtain ⟨_, h⟩ := s.count_eq pg i; rw [h]
@[simp] theorem State.count_icache (s : State) (pg i : Nat) : (s.count pg i).icache = s.icache := by
  obtain ⟨_, h⟩ := s.count_eq pg i; rw [h]
@[simp] theorem State.count_icBad (s : State) (pg i : Nat) : (s.count pg i).icBad = s.icBad := by
  obtain ⟨_, h⟩ := s.count_eq pg i; rw [h]
@[simp] theorem State.count_testAt (s : State) (pg i : Nat) : (s.count pg i).testAt = s.testAt := by
  obtain ⟨_, h⟩ := s.count_eq pg i; rw [h]
@[simp] theorem State.count_nmts (s : State) (pg i : Nat) : (s.count pg i).nmts = s.nmts := by
  obtain ⟨_, h⟩ := s.count_eq pg i; rw [h]
@[simp] theorem State.count_ops (s : State) (pg i : Nat) : (s.count pg i).ops = s.ops := by
  obtain ⟨_, h⟩ := s.count_eq pg i; rw [h]
@[simp] theorem State.count_opNext (s : State) (pg i : Nat) : (s.count pg i).opNext = s.opNext := by
  obtain ⟨_, h⟩ := s.count_eq pg i; rw [h]
@[simp] theorem State.count_takeovers (s : State) (pg i : Nat) : (s.count pg i).takeovers = s.takeovers := by
  obtain ⟨_, h⟩ := s.count_eq pg i; rw [h]
@[simp] theorem State.count_tkWait (s : State) (pg i : Nat) : (s.count pg i).tkWait = s.tkWait := by
  obtain ⟨_, h⟩ := s.count_eq pg i; rw [h]
@[simp] theorem State.count_lcmHeld (s : State) (pg i : Nat) : (s.count pg i).lcmHeld = s.lcmHeld := by
  obtain ⟨_, h⟩ := s.count_eq pg i; rw [h]
@[simp] theorem State.count_retired (s : State) (pg i : Nat) : (s.count pg i).retired = s.retired := by
  obtain ⟨_, h⟩ := s.count_eq pg i; rw [h]
@[simp] theorem State.count_lcSram (s : State) (pg i : Nat) : (s.count pg i).lcSram = s.lcSram := by
  obtain ⟨_, h⟩ := s.count_eq pg i; rw [h]
@[simp] theorem State.count_memc (s : State) (pg i : Nat) : (s.count pg i).memc = s.memc := by
  obtain ⟨_, h⟩ := s.count_eq pg i; rw [h]
@[simp] theorem State.count_cry (s : State) (pg i : Nat) : (s.count pg i).cry = s.cry := by
  obtain ⟨_, h⟩ := s.count_eq pg i; rw [h]
@[simp] theorem State.count_flt (s : State) (pg i : Nat) : (s.count pg i).flt = s.flt := by
  obtain ⟨_, h⟩ := s.count_eq pg i; rw [h]
@[simp] theorem State.count_pwr (s : State) (pg i : Nat) : (s.count pg i).pwr = s.pwr := by
  obtain ⟨_, h⟩ := s.count_eq pg i; rw [h]
@[simp] theorem State.count_upd (s : State) (pg i : Nat) : (s.count pg i).upd = s.upd := by
  obtain ⟨_, h⟩ := s.count_eq pg i; rw [h]
@[simp] theorem State.count_power (s : State) (pg i : Nat) : (s.count pg i).power = s.power := by
  obtain ⟨_, h⟩ := s.count_eq pg i; rw [h]

/-! ## Detections -/

/-- Raised sources go to the causes on their way only. -/
theorem State.raises_eq (d : Detail) : ∀ (l : List Nat) (s : State), ∃ r, l.foldl (fun t c => t.raise c d) s = { s with raises := r }
  | [], _ => ⟨_, rfl⟩
  | c :: l, s => State.raises_eq d l (s.raise c d)

/-- Posted events go to the postings on their way, to the capture units and toward the clause fabric. -/
theorem State.posts_eq : ∀ (l : List Nat) (s : State), ∃ p c q, l.foldl State.post s =
    { s with postings := p, capPend := c, pulses := q }
  | [], _ => ⟨_, _, _, rfl⟩
  | e :: l, s => State.posts_eq l (s.post e)

/-- A detection changes registers, causes, postings, captures and pulses only (R357). -/
theorem State.detectAs_eq (s : State) (pg bit : Nat) (l : List Nat) (d : Detail) :
    ∃ rg r p c q, s.detectAs pg bit l d = { s with regs := rg, raises := r, postings := p, capPend := c, pulses := q } := by
  obtain ⟨b, hb⟩ : ∃ b : Word, b = 1 <<< bit := ⟨_, rfl⟩
  have hp : ∀ u : State, ∃ p c q, (if s.reg pg 0x050 &&& b = 0 then u else (s.irqEvents pg).foldl State.post u) =
      { u with postings := p, capPend := c, pulses := q } := by
    intro u
    split
    · exact ⟨_, _, _, rfl⟩
    · exact State.posts_eq _ u
  have hr : ∀ u : State, ∃ r, (if s.reg pg 0x04C &&& b = 0 then l.foldl (fun t c => t.raise c d) u else u) =
      { u with raises := r } := by
    intro u
    split
    · exact State.raises_eq d l u
    · exact ⟨_, rfl⟩
  obtain ⟨r, h1⟩ := hr (s.setReg pg 0x048 (s.reg pg 0x048 ||| b))
  obtain ⟨p, c, q, h2⟩ := hp { s.setReg pg 0x048 (s.reg pg 0x048 ||| b) with raises := r }
  refine ⟨(s.setReg pg 0x048 (s.reg pg 0x048 ||| b)).regs, r, p, c, q, ?_⟩
  unfold State.detectAs
  rw [← hb]
  dsimp only
  rw [h1, h2]
  rfl

/-- A refusal changes what a detection changes (R59). -/
theorem State.refuse_eq (s : State) (pg : Nat) :
    ∃ rg r p c q, s.refuse pg = { s with regs := rg, raises := r, postings := p, capPend := c, pulses := q } := by
  obtain ⟨rg, r, p, c, q, h⟩ := (s.answer pg codeRefused).detectAs_eq pg 0 ((s.answer pg codeRefused).blkSources pg 0) (.page pg)
  exact ⟨rg, r, p, c, q, h⟩

@[simp] theorem State.detectAs_sketch (s : State) (pg bit : Nat) (l : List Nat) (d : Detail) : (s.detectAs pg bit l d).sketch = s.sketch := by
  obtain ⟨_, _, _, _, _, h⟩ := s.detectAs_eq pg bit l d; rw [h]
@[simp] theorem State.detect_sketch (s : State) (pg bit : Nat) : (s.detect pg bit).sketch = s.sketch := State.detectAs_sketch ..
@[simp] theorem State.refuse_sketch (s : State) (pg : Nat) : (s.refuse pg).sketch = s.sketch := by
  obtain ⟨_, _, _, _, _, h⟩ := s.refuse_eq pg; rw [h]
@[simp] theorem State.detectAs_symErr (s : State) (pg bit : Nat) (l : List Nat) (d : Detail) : (s.detectAs pg bit l d).symErr = s.symErr := by
  obtain ⟨_, _, _, _, _, h⟩ := s.detectAs_eq pg bit l d; rw [h]
@[simp] theorem State.detect_symErr (s : State) (pg bit : Nat) : (s.detect pg bit).symErr = s.symErr := State.detectAs_symErr ..
@[simp] theorem State.refuse_symErr (s : State) (pg : Nat) : (s.refuse pg).symErr = s.symErr := by
  obtain ⟨_, _, _, _, _, h⟩ := s.refuse_eq pg; rw [h]
@[simp] theorem State.detectAs_pending (s : State) (pg bit : Nat) (l : List Nat) (d : Detail) : (s.detectAs pg bit l d).pending = s.pending := by
  obtain ⟨_, _, _, _, _, h⟩ := s.detectAs_eq pg bit l d; rw [h]
@[simp] theorem State.detect_pending (s : State) (pg bit : Nat) : (s.detect pg bit).pending = s.pending := State.detectAs_pending ..
@[simp] theorem State.refuse_pending (s : State) (pg : Nat) : (s.refuse pg).pending = s.pending := by
  obtain ⟨_, _, _, _, _, h⟩ := s.refuse_eq pg; rw [h]
@[simp] theorem State.detectAs_mem (s : State) (pg bit : Nat) (l : List Nat) (d : Detail) : (s.detectAs pg bit l d).mem = s.mem := by
  obtain ⟨_, _, _, _, _, h⟩ := s.detectAs_eq pg bit l d; rw [h]
@[simp] theorem State.detect_mem (s : State) (pg bit : Nat) : (s.detect pg bit).mem = s.mem := State.detectAs_mem ..
@[simp] theorem State.refuse_mem (s : State) (pg : Nat) : (s.refuse pg).mem = s.mem := by
  obtain ⟨_, _, _, _, _, h⟩ := s.refuse_eq pg; rw [h]
@[simp] theorem State.detectAs_poison (s : State) (pg bit : Nat) (l : List Nat) (d : Detail) : (s.detectAs pg bit l d).poison = s.poison := by
  obtain ⟨_, _, _, _, _, h⟩ := s.detectAs_eq pg bit l d; rw [h]
@[simp] theorem State.detect_poison (s : State) (pg bit : Nat) : (s.detect pg bit).poison = s.poison := State.detectAs_poison ..
@[simp] theorem State.refuse_poison (s : State) (pg : Nat) : (s.refuse pg).poison = s.poison := by
  obtain ⟨_, _, _, _, _, h⟩ := s.refuse_eq pg; rw [h]
@[simp] theorem State.detectAs_bankB (s : State) (pg bit : Nat) (l : List Nat) (d : Detail) : (s.detectAs pg bit l d).bankB = s.bankB := by
  obtain ⟨_, _, _, _, _, h⟩ := s.detectAs_eq pg bit l d; rw [h]
@[simp] theorem State.detect_bankB (s : State) (pg bit : Nat) : (s.detect pg bit).bankB = s.bankB := State.detectAs_bankB ..
@[simp] theorem State.refuse_bankB (s : State) (pg : Nat) : (s.refuse pg).bankB = s.bankB := by
  obtain ⟨_, _, _, _, _, h⟩ := s.refuse_eq pg; rw [h]
@[simp] theorem State.detectAs_freeCtr (s : State) (pg bit : Nat) (l : List Nat) (d : Detail) : (s.detectAs pg bit l d).freeCtr = s.freeCtr := by
  obtain ⟨_, _, _, _, _, h⟩ := s.detectAs_eq pg bit l d; rw [h]
@[simp] theorem State.detect_freeCtr (s : State) (pg bit : Nat) : (s.detect pg bit).freeCtr = s.freeCtr := State.detectAs_freeCtr ..
@[simp] theorem State.refuse_freeCtr (s : State) (pg : Nat) : (s.refuse pg).freeCtr = s.freeCtr := by
  obtain ⟨_, _, _, _, _, h⟩ := s.refuse_eq pg; rw [h]
@[simp] theorem State.detectAs_tb (s : State) (pg bit : Nat) (l : List Nat) (d : Detail) : (s.detectAs pg bit l d).tb = s.tb := by
  obtain ⟨_, _, _, _, _, h⟩ := s.detectAs_eq pg bit l d; rw [h]
@[simp] theorem State.detect_tb (s : State) (pg bit : Nat) : (s.detect pg bit).tb = s.tb := State.detectAs_tb ..
@[simp] theorem State.refuse_tb (s : State) (pg : Nat) : (s.refuse pg).tb = s.tb := by
  obtain ⟨_, _, _, _, _, h⟩ := s.refuse_eq pg; rw [h]
@[simp] theorem State.detectAs_tbRun (s : State) (pg bit : Nat) (l : List Nat) (d : Detail) : (s.detectAs pg bit l d).tbRun = s.tbRun := by
  obtain ⟨_, _, _, _, _, h⟩ := s.detectAs_eq pg bit l d; rw [h]
@[simp] theorem State.detect_tbRun (s : State) (pg bit : Nat) : (s.detect pg bit).tbRun = s.tbRun := State.detectAs_tbRun ..
@[simp] theorem State.refuse_tbRun (s : State) (pg : Nat) : (s.refuse pg).tbRun = s.tbRun := by
  obtain ⟨_, _, _, _, _, h⟩ := s.refuse_eq pg; rw [h]
@[simp] theorem State.detectAs_kaLead (s : State) (pg bit : Nat) (l : List Nat) (d : Detail) : (s.detectAs pg bit l d).kaLead = s.kaLead := by
  obtain ⟨_, _, _, _, _, h⟩ := s.detectAs_eq pg bit l d; rw [h]
@[simp] theorem State.detect_kaLead (s : State) (pg bit : Nat) : (s.detect pg bit).kaLead = s.kaLead := State.detectAs_kaLead ..
@[simp] theorem State.refuse_kaLead (s : State) (pg : Nat) : (s.refuse pg).kaLead = s.kaLead := by
  obtain ⟨_, _, _, _, _, h⟩ := s.refuse_eq pg; rw [h]
@[simp] theorem State.detectAs_tbStep (s : State) (pg bit : Nat) (l : List Nat) (d : Detail) : (s.detectAs pg bit l d).tbStep = s.tbStep := by
  obtain ⟨_, _, _, _, _, h⟩ := s.detectAs_eq pg bit l d; rw [h]
@[simp] theorem State.detect_tbStep (s : State) (pg bit : Nat) : (s.detect pg bit).tbStep = s.tbStep := State.detectAs_tbStep ..
@[simp] theorem State.refuse_tbStep (s : State) (pg : Nat) : (s.refuse pg).tbStep = s.tbStep := by
  obtain ⟨_, _, _, _, _, h⟩ := s.refuse_eq pg; rw [h]
@[simp] theorem State.detectAs_syncGood (s : State) (pg bit : Nat) (l : List Nat) (d : Detail) : (s.detectAs pg bit l d).syncGood = s.syncGood := by
  obtain ⟨_, _, _, _, _, h⟩ := s.detectAs_eq pg bit l d; rw [h]
@[simp] theorem State.detect_syncGood (s : State) (pg bit : Nat) : (s.detect pg bit).syncGood = s.syncGood := State.detectAs_syncGood ..
@[simp] theorem State.refuse_syncGood (s : State) (pg : Nat) : (s.refuse pg).syncGood = s.syncGood := by
  obtain ⟨_, _, _, _, _, h⟩ := s.refuse_eq pg; rw [h]
@[simp] theorem State.detectAs_syncTick (s : State) (pg bit : Nat) (l : List Nat) (d : Detail) : (s.detectAs pg bit l d).syncTick = s.syncTick := by
  obtain ⟨_, _, _, _, _, h⟩ := s.detectAs_eq pg bit l d; rw [h]
@[simp] theorem State.detect_syncTick (s : State) (pg bit : Nat) : (s.detect pg bit).syncTick = s.syncTick := State.detectAs_syncTick ..
@[simp] theorem State.refuse_syncTick (s : State) (pg : Nat) : (s.refuse pg).syncTick = s.syncTick := by
  obtain ⟨_, _, _, _, _, h⟩ := s.refuse_eq pg; rw [h]
@[simp] theorem State.detectAs_tbcTick (s : State) (pg bit : Nat) (l : List Nat) (d : Detail) : (s.detectAs pg bit l d).tbcTick = s.tbcTick := by
  obtain ⟨_, _, _, _, _, h⟩ := s.detectAs_eq pg bit l d; rw [h]
@[simp] theorem State.detect_tbcTick (s : State) (pg bit : Nat) : (s.detect pg bit).tbcTick = s.tbcTick := State.detectAs_tbcTick ..
@[simp] theorem State.refuse_tbcTick (s : State) (pg : Nat) : (s.refuse pg).tbcTick = s.tbcTick := by
  obtain ⟨_, _, _, _, _, h⟩ := s.refuse_eq pg; rw [h]
@[simp] theorem State.detectAs_clkDead (s : State) (pg bit : Nat) (l : List Nat) (d : Detail) : (s.detectAs pg bit l d).clkDead = s.clkDead := by
  obtain ⟨_, _, _, _, _, h⟩ := s.detectAs_eq pg bit l d; rw [h]
@[simp] theorem State.detect_clkDead (s : State) (pg bit : Nat) : (s.detect pg bit).clkDead = s.clkDead := State.detectAs_clkDead ..
@[simp] theorem State.refuse_clkDead (s : State) (pg : Nat) : (s.refuse pg).clkDead = s.clkDead := by
  obtain ⟨_, _, _, _, _, h⟩ := s.refuse_eq pg; rw [h]
@[simp] theorem State.detectAs_clkLost (s : State) (pg bit : Nat) (l : List Nat) (d : Detail) : (s.detectAs pg bit l d).clkLost = s.clkLost := by
  obtain ⟨_, _, _, _, _, h⟩ := s.detectAs_eq pg bit l d; rw [h]
@[simp] theorem State.detect_clkLost (s : State) (pg bit : Nat) : (s.detect pg bit).clkLost = s.clkLost := State.detectAs_clkLost ..
@[simp] theorem State.refuse_clkLost (s : State) (pg : Nat) : (s.refuse pg).clkLost = s.clkLost := by
  obtain ⟨_, _, _, _, _, h⟩ := s.refuse_eq pg; rw [h]
@[simp] theorem State.detectAs_outbox (s : State) (pg bit : Nat) (l : List Nat) (d : Detail) : (s.detectAs pg bit l d).outbox = s.outbox := by
  obtain ⟨_, _, _, _, _, h⟩ := s.detectAs_eq pg bit l d; rw [h]
@[simp] theorem State.detect_outbox (s : State) (pg bit : Nat) : (s.detect pg bit).outbox = s.outbox := State.detectAs_outbox ..
@[simp] theorem State.refuse_outbox (s : State) (pg : Nat) : (s.refuse pg).outbox = s.outbox := by
  obtain ⟨_, _, _, _, _, h⟩ := s.refuse_eq pg; rw [h]
@[simp] theorem State.detectAs_fixScope (s : State) (pg bit : Nat) (l : List Nat) (d : Detail) : (s.detectAs pg bit l d).fixScope = s.fixScope := by
  obtain ⟨_, _, _, _, _, h⟩ := s.detectAs_eq pg bit l d; rw [h]
@[simp] theorem State.detect_fixScope (s : State) (pg bit : Nat) : (s.detect pg bit).fixScope = s.fixScope := State.detectAs_fixScope ..
@[simp] theorem State.refuse_fixScope (s : State) (pg : Nat) : (s.refuse pg).fixScope = s.fixScope := by
  obtain ⟨_, _, _, _, _, h⟩ := s.refuse_eq pg; rw [h]
@[simp] theorem State.detectAs_fixStale (s : State) (pg bit : Nat) (l : List Nat) (d : Detail) : (s.detectAs pg bit l d).fixStale = s.fixStale := by
  obtain ⟨_, _, _, _, _, h⟩ := s.detectAs_eq pg bit l d; rw [h]
@[simp] theorem State.detect_fixStale (s : State) (pg bit : Nat) : (s.detect pg bit).fixStale = s.fixStale := State.detectAs_fixStale ..
@[simp] theorem State.refuse_fixStale (s : State) (pg : Nat) : (s.refuse pg).fixStale = s.fixStale := by
  obtain ⟨_, _, _, _, _, h⟩ := s.refuse_eq pg; rw [h]
@[simp] theorem State.detectAs_fixMode (s : State) (pg bit : Nat) (l : List Nat) (d : Detail) : (s.detectAs pg bit l d).fixMode = s.fixMode := by
  obtain ⟨_, _, _, _, _, h⟩ := s.detectAs_eq pg bit l d; rw [h]
@[simp] theorem State.detect_fixMode (s : State) (pg bit : Nat) : (s.detect pg bit).fixMode = s.fixMode := State.detectAs_fixMode ..
@[simp] theorem State.refuse_fixMode (s : State) (pg : Nat) : (s.refuse pg).fixMode = s.fixMode := by
  obtain ⟨_, _, _, _, _, h⟩ := s.refuse_eq pg; rw [h]
@[simp] theorem State.detectAs_fixTag (s : State) (pg bit : Nat) (l : List Nat) (d : Detail) : (s.detectAs pg bit l d).fixTag = s.fixTag := by
  obtain ⟨_, _, _, _, _, h⟩ := s.detectAs_eq pg bit l d; rw [h]
@[simp] theorem State.detect_fixTag (s : State) (pg bit : Nat) : (s.detect pg bit).fixTag = s.fixTag := State.detectAs_fixTag ..
@[simp] theorem State.refuse_fixTag (s : State) (pg : Nat) : (s.refuse pg).fixTag = s.fixTag := by
  obtain ⟨_, _, _, _, _, h⟩ := s.refuse_eq pg; rw [h]
@[simp] theorem State.detectAs_fixBlead (s : State) (pg bit : Nat) (l : List Nat) (d : Detail) : (s.detectAs pg bit l d).fixBlead = s.fixBlead := by
  obtain ⟨_, _, _, _, _, h⟩ := s.detectAs_eq pg bit l d; rw [h]
@[simp] theorem State.detect_fixBlead (s : State) (pg bit : Nat) : (s.detect pg bit).fixBlead = s.fixBlead := State.detectAs_fixBlead ..
@[simp] theorem State.refuse_fixBlead (s : State) (pg : Nat) : (s.refuse pg).fixBlead = s.fixBlead := by
  obtain ⟨_, _, _, _, _, h⟩ := s.refuse_eq pg; rw [h]
@[simp] theorem State.detectAs_fixBexp (s : State) (pg bit : Nat) (l : List Nat) (d : Detail) : (s.detectAs pg bit l d).fixBexp = s.fixBexp := by
  obtain ⟨_, _, _, _, _, h⟩ := s.detectAs_eq pg bit l d; rw [h]
@[simp] theorem State.detect_fixBexp (s : State) (pg bit : Nat) : (s.detect pg bit).fixBexp = s.fixBexp := State.detectAs_fixBexp ..
@[simp] theorem State.refuse_fixBexp (s : State) (pg : Nat) : (s.refuse pg).fixBexp = s.fixBexp := by
  obtain ⟨_, _, _, _, _, h⟩ := s.refuse_eq pg; rw [h]
@[simp] theorem State.detectAs_fixTime (s : State) (pg bit : Nat) (l : List Nat) (d : Detail) : (s.detectAs pg bit l d).fixTime = s.fixTime := by
  obtain ⟨_, _, _, _, _, h⟩ := s.detectAs_eq pg bit l d; rw [h]
@[simp] theorem State.detect_fixTime (s : State) (pg bit : Nat) : (s.detect pg bit).fixTime = s.fixTime := State.detectAs_fixTime ..
@[simp] theorem State.refuse_fixTime (s : State) (pg : Nat) : (s.refuse pg).fixTime = s.fixTime := by
  obtain ⟨_, _, _, _, _, h⟩ := s.refuse_eq pg; rw [h]
@[simp] theorem State.detectAs_fixBcast (s : State) (pg bit : Nat) (l : List Nat) (d : Detail) : (s.detectAs pg bit l d).fixBcast = s.fixBcast := by
  obtain ⟨_, _, _, _, _, h⟩ := s.detectAs_eq pg bit l d; rw [h]
@[simp] theorem State.detect_fixBcast (s : State) (pg bit : Nat) : (s.detect pg bit).fixBcast = s.fixBcast := State.detectAs_fixBcast ..
@[simp] theorem State.refuse_fixBcast (s : State) (pg : Nat) : (s.refuse pg).fixBcast = s.fixBcast := by
  obtain ⟨_, _, _, _, _, h⟩ := s.refuse_eq pg; rw [h]
@[simp] theorem State.detectAs_fixCopied (s : State) (pg bit : Nat) (l : List Nat) (d : Detail) : (s.detectAs pg bit l d).fixCopied = s.fixCopied := by
  obtain ⟨_, _, _, _, _, h⟩ := s.detectAs_eq pg bit l d; rw [h]
@[simp] theorem State.detect_fixCopied (s : State) (pg bit : Nat) : (s.detect pg bit).fixCopied = s.fixCopied := State.detectAs_fixCopied ..
@[simp] theorem State.refuse_fixCopied (s : State) (pg : Nat) : (s.refuse pg).fixCopied = s.fixCopied := by
  obtain ⟨_, _, _, _, _, h⟩ := s.refuse_eq pg; rw [h]
@[simp] theorem State.detectAs_fixReset (s : State) (pg bit : Nat) (l : List Nat) (d : Detail) : (s.detectAs pg bit l d).fixReset = s.fixReset := by
  obtain ⟨_, _, _, _, _, h⟩ := s.detectAs_eq pg bit l d; rw [h]
@[simp] theorem State.detect_fixReset (s : State) (pg bit : Nat) : (s.detect pg bit).fixReset = s.fixReset := State.detectAs_fixReset ..
@[simp] theorem State.refuse_fixReset (s : State) (pg : Nat) : (s.refuse pg).fixReset = s.fixReset := by
  obtain ⟨_, _, _, _, _, h⟩ := s.refuse_eq pg; rw [h]
@[simp] theorem State.detectAs_fixResetPgs (s : State) (pg bit : Nat) (l : List Nat) (d : Detail) : (s.detectAs pg bit l d).fixResetPgs = s.fixResetPgs := by
  obtain ⟨_, _, _, _, _, h⟩ := s.detectAs_eq pg bit l d; rw [h]
@[simp] theorem State.detect_fixResetPgs (s : State) (pg bit : Nat) : (s.detect pg bit).fixResetPgs = s.fixResetPgs := State.detectAs_fixResetPgs ..
@[simp] theorem State.refuse_fixResetPgs (s : State) (pg : Nat) : (s.refuse pg).fixResetPgs = s.fixResetPgs := by
  obtain ⟨_, _, _, _, _, h⟩ := s.refuse_eq pg; rw [h]
@[simp] theorem State.detectAs_fixSeen (s : State) (pg bit : Nat) (l : List Nat) (d : Detail) : (s.detectAs pg bit l d).fixSeen = s.fixSeen := by
  obtain ⟨_, _, _, _, _, h⟩ := s.detectAs_eq pg bit l d; rw [h]
@[simp] theorem State.detect_fixSeen (s : State) (pg bit : Nat) : (s.detect pg bit).fixSeen = s.fixSeen := State.detectAs_fixSeen ..
@[simp] theorem State.refuse_fixSeen (s : State) (pg : Nat) : (s.refuse pg).fixSeen = s.fixSeen := by
  obtain ⟨_, _, _, _, _, h⟩ := s.refuse_eq pg; rw [h]
@[simp] theorem State.detectAs_fixInit (s : State) (pg bit : Nat) (l : List Nat) (d : Detail) : (s.detectAs pg bit l d).fixInit = s.fixInit := by
  obtain ⟨_, _, _, _, _, h⟩ := s.detectAs_eq pg bit l d; rw [h]
@[simp] theorem State.detect_fixInit (s : State) (pg bit : Nat) : (s.detect pg bit).fixInit = s.fixInit := State.detectAs_fixInit ..
@[simp] theorem State.refuse_fixInit (s : State) (pg : Nat) : (s.refuse pg).fixInit = s.fixInit := by
  obtain ⟨_, _, _, _, _, h⟩ := s.refuse_eq pg; rw [h]
@[simp] theorem State.detectAs_lfHeld (s : State) (pg bit : Nat) (l : List Nat) (d : Detail) : (s.detectAs pg bit l d).lfHeld = s.lfHeld := by
  obtain ⟨_, _, _, _, _, h⟩ := s.detectAs_eq pg bit l d; rw [h]
@[simp] theorem State.detect_lfHeld (s : State) (pg bit : Nat) : (s.detect pg bit).lfHeld = s.lfHeld := State.detectAs_lfHeld ..
@[simp] theorem State.refuse_lfHeld (s : State) (pg : Nat) : (s.refuse pg).lfHeld = s.lfHeld := by
  obtain ⟨_, _, _, _, _, h⟩ := s.refuse_eq pg; rw [h]
@[simp] theorem State.detectAs_hs (s : State) (pg bit : Nat) (l : List Nat) (d : Detail) : (s.detectAs pg bit l d).hs = s.hs := by
  obtain ⟨_, _, _, _, _, h⟩ := s.detectAs_eq pg bit l d; rw [h]
@[simp] theorem State.detect_hs (s : State) (pg bit : Nat) : (s.detect pg bit).hs = s.hs := State.detectAs_hs ..
@[simp] theorem State.refuse_hs (s : State) (pg : Nat) : (s.refuse pg).hs = s.hs := by
  obtain ⟨_, _, _, _, _, h⟩ := s.refuse_eq pg; rw [h]
@[simp] theorem State.detectAs_dies (s : State) (pg bit : Nat) (l : List Nat) (d : Detail) : (s.detectAs pg bit l d).dies = s.dies := by
  obtain ⟨_, _, _, _, _, h⟩ := s.detectAs_eq pg bit l d; rw [h]
@[simp] theorem State.detect_dies (s : State) (pg bit : Nat) : (s.detect pg bit).dies = s.dies := State.detectAs_dies ..
@[simp] theorem State.refuse_dies (s : State) (pg : Nat) : (s.refuse pg).dies = s.dies := by
  obtain ⟨_, _, _, _, _, h⟩ := s.refuse_eq pg; rw [h]
@[simp] theorem State.detectAs_bankTick (s : State) (pg bit : Nat) (l : List Nat) (d : Detail) : (s.detectAs pg bit l d).bankTick = s.bankTick := by
  obtain ⟨_, _, _, _, _, h⟩ := s.detectAs_eq pg bit l d; rw [h]
@[simp] theorem State.detect_bankTick (s : State) (pg bit : Nat) : (s.detect pg bit).bankTick = s.bankTick := State.detectAs_bankTick ..
@[simp] theorem State.refuse_bankTick (s : State) (pg : Nat) : (s.refuse pg).bankTick = s.bankTick := by
  obtain ⟨_, _, _, _, _, h⟩ := s.refuse_eq pg; rw [h]
@[simp] theorem State.detectAs_senseAt (s : State) (pg bit : Nat) (l : List Nat) (d : Detail) : (s.detectAs pg bit l d).senseAt = s.senseAt := by
  obtain ⟨_, _, _, _, _, h⟩ := s.detectAs_eq pg bit l d; rw [h]
@[simp] theorem State.detect_senseAt (s : State) (pg bit : Nat) : (s.detect pg bit).senseAt = s.senseAt := State.detectAs_senseAt ..
@[simp] theorem State.refuse_senseAt (s : State) (pg : Nat) : (s.refuse pg).senseAt = s.senseAt := by
  obtain ⟨_, _, _, _, _, h⟩ := s.refuse_eq pg; rw [h]
@[simp] theorem State.detectAs_legs (s : State) (pg bit : Nat) (l : List Nat) (d : Detail) : (s.detectAs pg bit l d).legs = s.legs := by
  obtain ⟨_, _, _, _, _, h⟩ := s.detectAs_eq pg bit l d; rw [h]
@[simp] theorem State.detect_legs (s : State) (pg bit : Nat) : (s.detect pg bit).legs = s.legs := State.detectAs_legs ..
@[simp] theorem State.refuse_legs (s : State) (pg : Nat) : (s.refuse pg).legs = s.legs := by
  obtain ⟨_, _, _, _, _, h⟩ := s.refuse_eq pg; rw [h]
@[simp] theorem State.detectAs_bridges (s : State) (pg bit : Nat) (l : List Nat) (d : Detail) : (s.detectAs pg bit l d).bridges = s.bridges := by
  obtain ⟨_, _, _, _, _, h⟩ := s.detectAs_eq pg bit l d; rw [h]
@[simp] theorem State.detect_bridges (s : State) (pg bit : Nat) : (s.detect pg bit).bridges = s.bridges := State.detectAs_bridges ..
@[simp] theorem State.refuse_bridges (s : State) (pg : Nat) : (s.refuse pg).bridges = s.bridges := by
  obtain ⟨_, _, _, _, _, h⟩ := s.refuse_eq pg; rw [h]
@[simp] theorem State.detectAs_valves (s : State) (pg bit : Nat) (l : List Nat) (d : Detail) : (s.detectAs pg bit l d).valves = s.valves := by
  obtain ⟨_, _, _, _, _, h⟩ := s.detectAs_eq pg bit l d; rw [h]
@[simp] theorem State.detect_valves (s : State) (pg bit : Nat) : (s.detect pg bit).valves = s.valves := State.detectAs_valves ..
@[simp] theorem State.refuse_valves (s : State) (pg : Nat) : (s.refuse pg).valves = s.valves := by
  obtain ⟨_, _, _, _, _, h⟩ := s.refuse_eq pg; rw [h]
@[simp] theorem State.detectAs_sides (s : State) (pg bit : Nat) (l : List Nat) (d : Detail) : (s.detectAs pg bit l d).sides = s.sides := by
  obtain ⟨_, _, _, _, _, h⟩ := s.detectAs_eq pg bit l d; rw [h]
@[simp] theorem State.detect_sides (s : State) (pg bit : Nat) : (s.detect pg bit).sides = s.sides := State.detectAs_sides ..
@[simp] theorem State.refuse_sides (s : State) (pg : Nat) : (s.refuse pg).sides = s.sides := by
  obtain ⟨_, _, _, _, _, h⟩ := s.refuse_eq pg; rw [h]
@[simp] theorem State.detectAs_boostTick (s : State) (pg bit : Nat) (l : List Nat) (d : Detail) : (s.detectAs pg bit l d).boostTick = s.boostTick := by
  obtain ⟨_, _, _, _, _, h⟩ := s.detectAs_eq pg bit l d; rw [h]
@[simp] theorem State.detect_boostTick (s : State) (pg bit : Nat) : (s.detect pg bit).boostTick = s.boostTick := State.detectAs_boostTick ..
@[simp] theorem State.refuse_boostTick (s : State) (pg : Nat) : (s.refuse pg).boostTick = s.boostTick := by
  obtain ⟨_, _, _, _, _, h⟩ := s.refuse_eq pg; rw [h]
@[simp] theorem State.detectAs_boostTold (s : State) (pg bit : Nat) (l : List Nat) (d : Detail) : (s.detectAs pg bit l d).boostTold = s.boostTold := by
  obtain ⟨_, _, _, _, _, h⟩ := s.detectAs_eq pg bit l d; rw [h]
@[simp] theorem State.detect_boostTold (s : State) (pg bit : Nat) : (s.detect pg bit).boostTold = s.boostTold := State.detectAs_boostTold ..
@[simp] theorem State.refuse_boostTold (s : State) (pg : Nat) : (s.refuse pg).boostTold = s.boostTold := by
  obtain ⟨_, _, _, _, _, h⟩ := s.refuse_eq pg; rw [h]
@[simp] theorem State.detectAs_light (s : State) (pg bit : Nat) (l : List Nat) (d : Detail) : (s.detectAs pg bit l d).light = s.light := by
  obtain ⟨_, _, _, _, _, h⟩ := s.detectAs_eq pg bit l d; rw [h]
@[simp] theorem State.detect_light (s : State) (pg bit : Nat) : (s.detect pg bit).light = s.light := State.detectAs_light ..
@[simp] theorem State.refuse_light (s : State) (pg : Nat) : (s.refuse pg).light = s.light := by
  obtain ⟨_, _, _, _, _, h⟩ := s.refuse_eq pg; rw [h]
@[simp] theorem State.detectAs_ambs (s : State) (pg bit : Nat) (l : List Nat) (d : Detail) : (s.detectAs pg bit l d).ambs = s.ambs := by
  obtain ⟨_, _, _, _, _, h⟩ := s.detectAs_eq pg bit l d; rw [h]
@[simp] theorem State.detect_ambs (s : State) (pg bit : Nat) : (s.detect pg bit).ambs = s.ambs := State.detectAs_ambs ..
@[simp] theorem State.refuse_ambs (s : State) (pg : Nat) : (s.refuse pg).ambs = s.ambs := by
  obtain ⟨_, _, _, _, _, h⟩ := s.refuse_eq pg; rw [h]
@[simp] theorem State.detectAs_sis (s : State) (pg bit : Nat) (l : List Nat) (d : Detail) : (s.detectAs pg bit l d).sis = s.sis := by
  obtain ⟨_, _, _, _, _, h⟩ := s.detectAs_eq pg bit l d; rw [h]
@[simp] theorem State.detect_sis (s : State) (pg bit : Nat) : (s.detect pg bit).sis = s.sis := State.detectAs_sis ..
@[simp] theorem State.refuse_sis (s : State) (pg : Nat) : (s.refuse pg).sis = s.sis := by
  obtain ⟨_, _, _, _, _, h⟩ := s.refuse_eq pg; rw [h]
@[simp] theorem State.detectAs_ios (s : State) (pg bit : Nat) (l : List Nat) (d : Detail) : (s.detectAs pg bit l d).ios = s.ios := by
  obtain ⟨_, _, _, _, _, h⟩ := s.detectAs_eq pg bit l d; rw [h]
@[simp] theorem State.detect_ios (s : State) (pg bit : Nat) : (s.detect pg bit).ios = s.ios := State.detectAs_ios ..
@[simp] theorem State.refuse_ios (s : State) (pg : Nat) : (s.refuse pg).ios = s.ios := by
  obtain ⟨_, _, _, _, _, h⟩ := s.refuse_eq pg; rw [h]
@[simp] theorem State.detectAs_siRef (s : State) (pg bit : Nat) (l : List Nat) (d : Detail) : (s.detectAs pg bit l d).siRef = s.siRef := by
  obtain ⟨_, _, _, _, _, h⟩ := s.detectAs_eq pg bit l d; rw [h]
@[simp] theorem State.detect_siRef (s : State) (pg bit : Nat) : (s.detect pg bit).siRef = s.siRef := State.detectAs_siRef ..
@[simp] theorem State.refuse_siRef (s : State) (pg : Nat) : (s.refuse pg).siRef = s.siRef := by
  obtain ⟨_, _, _, _, _, h⟩ := s.refuse_eq pg; rw [h]
@[simp] theorem State.detectAs_siRefPg (s : State) (pg bit : Nat) (l : List Nat) (d : Detail) : (s.detectAs pg bit l d).siRefPg = s.siRefPg := by
  obtain ⟨_, _, _, _, _, h⟩ := s.detectAs_eq pg bit l d; rw [h]
@[simp] theorem State.detect_siRefPg (s : State) (pg bit : Nat) : (s.detect pg bit).siRefPg = s.siRefPg := State.detectAs_siRefPg ..
@[simp] theorem State.refuse_siRefPg (s : State) (pg : Nat) : (s.refuse pg).siRefPg = s.siRefPg := by
  obtain ⟨_, _, _, _, _, h⟩ := s.refuse_eq pg; rw [h]
@[simp] theorem State.detectAs_fsDie (s : State) (pg bit : Nat) (l : List Nat) (d : Detail) : (s.detectAs pg bit l d).fsDie = s.fsDie := by
  obtain ⟨_, _, _, _, _, h⟩ := s.detectAs_eq pg bit l d; rw [h]
@[simp] theorem State.detect_fsDie (s : State) (pg bit : Nat) : (s.detect pg bit).fsDie = s.fsDie := State.detectAs_fsDie ..
@[simp] theorem State.refuse_fsDie (s : State) (pg : Nat) : (s.refuse pg).fsDie = s.fsDie := by
  obtain ⟨_, _, _, _, _, h⟩ := s.refuse_eq pg; rw [h]
@[simp] theorem State.detectAs_fsNew (s : State) (pg bit : Nat) (l : List Nat) (d : Detail) : (s.detectAs pg bit l d).fsNew = s.fsNew := by
  obtain ⟨_, _, _, _, _, h⟩ := s.detectAs_eq pg bit l d; rw [h]
@[simp] theorem State.detect_fsNew (s : State) (pg bit : Nat) : (s.detect pg bit).fsNew = s.fsNew := State.detectAs_fsNew ..
@[simp] theorem State.refuse_fsNew (s : State) (pg : Nat) : (s.refuse pg).fsNew = s.fsNew := by
  obtain ⟨_, _, _, _, _, h⟩ := s.refuse_eq pg; rw [h]
@[simp] theorem State.detectAs_fsAt (s : State) (pg bit : Nat) (l : List Nat) (d : Detail) : (s.detectAs pg bit l d).fsAt = s.fsAt := by
  obtain ⟨_, _, _, _, _, h⟩ := s.detectAs_eq pg bit l d; rw [h]
@[simp] theorem State.detect_fsAt (s : State) (pg bit : Nat) : (s.detect pg bit).fsAt = s.fsAt := State.detectAs_fsAt ..
@[simp] theorem State.refuse_fsAt (s : State) (pg : Nat) : (s.refuse pg).fsAt = s.fsAt := by
  obtain ⟨_, _, _, _, _, h⟩ := s.refuse_eq pg; rw [h]
@[simp] theorem State.detectAs_parkWake (s : State) (pg bit : Nat) (l : List Nat) (d : Detail) : (s.detectAs pg bit l d).parkWake = s.parkWake := by
  obtain ⟨_, _, _, _, _, h⟩ := s.detectAs_eq pg bit l d; rw [h]
@[simp] theorem State.detect_parkWake (s : State) (pg bit : Nat) : (s.detect pg bit).parkWake = s.parkWake := State.detectAs_parkWake ..
@[simp] theorem State.refuse_parkWake (s : State) (pg : Nat) : (s.refuse pg).parkWake = s.parkWake := by
  obtain ⟨_, _, _, _, _, h⟩ := s.refuse_eq pg; rw [h]
@[simp] theorem State.detectAs_cans (s : State) (pg bit : Nat) (l : List Nat) (d : Detail) : (s.detectAs pg bit l d).cans = s.cans := by
  obtain ⟨_, _, _, _, _, h⟩ := s.detectAs_eq pg bit l d; rw [h]
@[simp] theorem State.detect_cans (s : State) (pg bit : Nat) : (s.detect pg bit).cans = s.cans := State.detectAs_cans ..
@[simp] theorem State.refuse_cans (s : State) (pg : Nat) : (s.refuse pg).cans = s.cans := by
  obtain ⟨_, _, _, _, _, h⟩ := s.refuse_eq pg; rw [h]
@[simp] theorem State.detectAs_lins (s : State) (pg bit : Nat) (l : List Nat) (d : Detail) : (s.detectAs pg bit l d).lins = s.lins := by
  obtain ⟨_, _, _, _, _, h⟩ := s.detectAs_eq pg bit l d; rw [h]
@[simp] theorem State.detect_lins (s : State) (pg bit : Nat) : (s.detect pg bit).lins = s.lins := State.detectAs_lins ..
@[simp] theorem State.refuse_lins (s : State) (pg : Nat) : (s.refuse pg).lins = s.lins := by
  obtain ⟨_, _, _, _, _, h⟩ := s.refuse_eq pg; rw [h]
@[simp] theorem State.detectAs_eth (s : State) (pg bit : Nat) (l : List Nat) (d : Detail) : (s.detectAs pg bit l d).eth = s.eth := by
  obtain ⟨_, _, _, _, _, h⟩ := s.detectAs_eq pg bit l d; rw [h]
@[simp] theorem State.detect_eth (s : State) (pg bit : Nat) : (s.detect pg bit).eth = s.eth := State.detectAs_eth ..
@[simp] theorem State.refuse_eth (s : State) (pg : Nat) : (s.refuse pg).eth = s.eth := by
  obtain ⟨_, _, _, _, _, h⟩ := s.refuse_eq pg; rw [h]
@[simp] theorem State.detectAs_nm (s : State) (pg bit : Nat) (l : List Nat) (d : Detail) : (s.detectAs pg bit l d).nm = s.nm := by
  obtain ⟨_, _, _, _, _, h⟩ := s.detectAs_eq pg bit l d; rw [h]
@[simp] theorem State.detect_nm (s : State) (pg bit : Nat) : (s.detect pg bit).nm = s.nm := State.detectAs_nm ..
@[simp] theorem State.refuse_nm (s : State) (pg : Nat) : (s.refuse pg).nm = s.nm := by
  obtain ⟨_, _, _, _, _, h⟩ := s.refuse_eq pg; rw [h]
@[simp] theorem State.detectAs_clauses (s : State) (pg bit : Nat) (l : List Nat) (d : Detail) : (s.detectAs pg bit l d).clauses = s.clauses := by
  obtain ⟨_, _, _, _, _, h⟩ := s.detectAs_eq pg bit l d; rw [h]
@[simp] theorem State.detect_clauses (s : State) (pg bit : Nat) : (s.detect pg bit).clauses = s.clauses := State.detectAs_clauses ..
@[simp] theorem State.refuse_clauses (s : State) (pg : Nat) : (s.refuse pg).clauses = s.clauses := by
  obtain ⟨_, _, _, _, _, h⟩ := s.refuse_eq pg; rw [h]
@[simp] theorem State.detectAs_slots (s : State) (pg bit : Nat) (l : List Nat) (d : Detail) : (s.detectAs pg bit l d).slots = s.slots := by
  obtain ⟨_, _, _, _, _, h⟩ := s.detectAs_eq pg bit l d; rw [h]
@[simp] theorem State.detect_slots (s : State) (pg bit : Nat) : (s.detect pg bit).slots = s.slots := State.detectAs_slots ..
@[simp] theorem State.refuse_slots (s : State) (pg : Nat) : (s.refuse pg).slots = s.slots := by
  obtain ⟨_, _, _, _, _, h⟩ := s.refuse_eq pg; rw [h]
@[simp] theorem State.detectAs_rxlTick (s : State) (pg bit : Nat) (l : List Nat) (d : Detail) : (s.detectAs pg bit l d).rxlTick = s.rxlTick := by
  obtain ⟨_, _, _, _, _, h⟩ := s.detectAs_eq pg bit l d; rw [h]
@[simp] theorem State.detect_rxlTick (s : State) (pg bit : Nat) : (s.detect pg bit).rxlTick = s.rxlTick := State.detectAs_rxlTick ..
@[simp] theorem State.refuse_rxlTick (s : State) (pg : Nat) : (s.refuse pg).rxlTick = s.rxlTick := by
  obtain ⟨_, _, _, _, _, h⟩ := s.refuse_eq pg; rw [h]
@[simp] theorem State.detectAs_retouchPend (s : State) (pg bit : Nat) (l : List Nat) (d : Detail) : (s.detectAs pg bit l d).retouchPend = s.retouchPend := by
  obtain ⟨_, _, _, _, _, h⟩ := s.detectAs_eq pg bit l d; rw [h]
@[simp] theorem State.detect_retouchPend (s : State) (pg bit : Nat) : (s.detect pg bit).retouchPend = s.retouchPend := State.detectAs_retouchPend ..
@[simp] theorem State.refuse_retouchPend (s : State) (pg : Nat) : (s.refuse pg).retouchPend = s.retouchPend := by
  obtain ⟨_, _, _, _, _, h⟩ := s.refuse_eq pg; rw [h]
@[simp] theorem State.detectAs_lcMap (s : State) (pg bit : Nat) (l : List Nat) (d : Detail) : (s.detectAs pg bit l d).lcMap = s.lcMap := by
  obtain ⟨_, _, _, _, _, h⟩ := s.detectAs_eq pg bit l d; rw [h]
@[simp] theorem State.detect_lcMap (s : State) (pg bit : Nat) : (s.detect pg bit).lcMap = s.lcMap := State.detectAs_lcMap ..
@[simp] theorem State.refuse_lcMap (s : State) (pg : Nat) : (s.refuse pg).lcMap = s.lcMap := by
  obtain ⟨_, _, _, _, _, h⟩ := s.refuse_eq pg; rw [h]
@[simp] theorem State.detectAs_ctxs (s : State) (pg bit : Nat) (l : List Nat) (d : Detail) : (s.detectAs pg bit l d).ctxs = s.ctxs := by
  obtain ⟨_, _, _, _, _, h⟩ := s.detectAs_eq pg bit l d; rw [h]
@[simp] theorem State.detect_ctxs (s : State) (pg bit : Nat) : (s.detect pg bit).ctxs = s.ctxs := State.detectAs_ctxs ..
@[simp] theorem State.refuse_ctxs (s : State) (pg : Nat) : (s.refuse pg).ctxs = s.ctxs := by
  obtain ⟨_, _, _, _, _, h⟩ := s.refuse_eq pg; rw [h]
@[simp] theorem State.detectAs_lcores (s : State) (pg bit : Nat) (l : List Nat) (d : Detail) : (s.detectAs pg bit l d).lcores = s.lcores := by
  obtain ⟨_, _, _, _, _, h⟩ := s.detectAs_eq pg bit l d; rw [h]
@[simp] theorem State.detect_lcores (s : State) (pg bit : Nat) : (s.detect pg bit).lcores = s.lcores := State.detectAs_lcores ..
@[simp] theorem State.refuse_lcores (s : State) (pg : Nat) : (s.refuse pg).lcores = s.lcores := by
  obtain ⟨_, _, _, _, _, h⟩ := s.refuse_eq pg; rw [h]
@[simp] theorem State.detectAs_icache (s : State) (pg bit : Nat) (l : List Nat) (d : Detail) : (s.detectAs pg bit l d).icache = s.icache := by
  obtain ⟨_, _, _, _, _, h⟩ := s.detectAs_eq pg bit l d; rw [h]
@[simp] theorem State.detect_icache (s : State) (pg bit : Nat) : (s.detect pg bit).icache = s.icache := State.detectAs_icache ..
@[simp] theorem State.refuse_icache (s : State) (pg : Nat) : (s.refuse pg).icache = s.icache := by
  obtain ⟨_, _, _, _, _, h⟩ := s.refuse_eq pg; rw [h]
@[simp] theorem State.detectAs_icBad (s : State) (pg bit : Nat) (l : List Nat) (d : Detail) : (s.detectAs pg bit l d).icBad = s.icBad := by
  obtain ⟨_, _, _, _, _, h⟩ := s.detectAs_eq pg bit l d; rw [h]
@[simp] theorem State.detect_icBad (s : State) (pg bit : Nat) : (s.detect pg bit).icBad = s.icBad := State.detectAs_icBad ..
@[simp] theorem State.refuse_icBad (s : State) (pg : Nat) : (s.refuse pg).icBad = s.icBad := by
  obtain ⟨_, _, _, _, _, h⟩ := s.refuse_eq pg; rw [h]
@[simp] theorem State.detectAs_testAt (s : State) (pg bit : Nat) (l : List Nat) (d : Detail) : (s.detectAs pg bit l d).testAt = s.testAt := by
  obtain ⟨_, _, _, _, _, h⟩ := s.detectAs_eq pg bit l d; rw [h]
@[simp] theorem State.detect_testAt (s : State) (pg bit : Nat) : (s.detect pg bit).testAt = s.testAt := State.detectAs_testAt ..
@[simp] theorem State.refuse_testAt (s : State) (pg : Nat) : (s.refuse pg).testAt = s.testAt := by
  obtain ⟨_, _, _, _, _, h⟩ := s.refuse_eq pg; rw [h]
@[simp] theorem State.detectAs_nmts (s : State) (pg bit : Nat) (l : List Nat) (d : Detail) : (s.detectAs pg bit l d).nmts = s.nmts := by
  obtain ⟨_, _, _, _, _, h⟩ := s.detectAs_eq pg bit l d; rw [h]
@[simp] theorem State.detect_nmts (s : State) (pg bit : Nat) : (s.detect pg bit).nmts = s.nmts := State.detectAs_nmts ..
@[simp] theorem State.refuse_nmts (s : State) (pg : Nat) : (s.refuse pg).nmts = s.nmts := by
  obtain ⟨_, _, _, _, _, h⟩ := s.refuse_eq pg; rw [h]
@[simp] theorem State.detectAs_ops (s : State) (pg bit : Nat) (l : List Nat) (d : Detail) : (s.detectAs pg bit l d).ops = s.ops := by
  obtain ⟨_, _, _, _, _, h⟩ := s.detectAs_eq pg bit l d; rw [h]
@[simp] theorem State.detect_ops (s : State) (pg bit : Nat) : (s.detect pg bit).ops = s.ops := State.detectAs_ops ..
@[simp] theorem State.refuse_ops (s : State) (pg : Nat) : (s.refuse pg).ops = s.ops := by
  obtain ⟨_, _, _, _, _, h⟩ := s.refuse_eq pg; rw [h]
@[simp] theorem State.detectAs_opNext (s : State) (pg bit : Nat) (l : List Nat) (d : Detail) : (s.detectAs pg bit l d).opNext = s.opNext := by
  obtain ⟨_, _, _, _, _, h⟩ := s.detectAs_eq pg bit l d; rw [h]
@[simp] theorem State.detect_opNext (s : State) (pg bit : Nat) : (s.detect pg bit).opNext = s.opNext := State.detectAs_opNext ..
@[simp] theorem State.refuse_opNext (s : State) (pg : Nat) : (s.refuse pg).opNext = s.opNext := by
  obtain ⟨_, _, _, _, _, h⟩ := s.refuse_eq pg; rw [h]
@[simp] theorem State.detectAs_takeovers (s : State) (pg bit : Nat) (l : List Nat) (d : Detail) : (s.detectAs pg bit l d).takeovers = s.takeovers := by
  obtain ⟨_, _, _, _, _, h⟩ := s.detectAs_eq pg bit l d; rw [h]
@[simp] theorem State.detect_takeovers (s : State) (pg bit : Nat) : (s.detect pg bit).takeovers = s.takeovers := State.detectAs_takeovers ..
@[simp] theorem State.refuse_takeovers (s : State) (pg : Nat) : (s.refuse pg).takeovers = s.takeovers := by
  obtain ⟨_, _, _, _, _, h⟩ := s.refuse_eq pg; rw [h]
@[simp] theorem State.detectAs_tkWait (s : State) (pg bit : Nat) (l : List Nat) (d : Detail) : (s.detectAs pg bit l d).tkWait = s.tkWait := by
  obtain ⟨_, _, _, _, _, h⟩ := s.detectAs_eq pg bit l d; rw [h]
@[simp] theorem State.detect_tkWait (s : State) (pg bit : Nat) : (s.detect pg bit).tkWait = s.tkWait := State.detectAs_tkWait ..
@[simp] theorem State.refuse_tkWait (s : State) (pg : Nat) : (s.refuse pg).tkWait = s.tkWait := by
  obtain ⟨_, _, _, _, _, h⟩ := s.refuse_eq pg; rw [h]
@[simp] theorem State.detectAs_lcmHeld (s : State) (pg bit : Nat) (l : List Nat) (d : Detail) : (s.detectAs pg bit l d).lcmHeld = s.lcmHeld := by
  obtain ⟨_, _, _, _, _, h⟩ := s.detectAs_eq pg bit l d; rw [h]
@[simp] theorem State.detect_lcmHeld (s : State) (pg bit : Nat) : (s.detect pg bit).lcmHeld = s.lcmHeld := State.detectAs_lcmHeld ..
@[simp] theorem State.refuse_lcmHeld (s : State) (pg : Nat) : (s.refuse pg).lcmHeld = s.lcmHeld := by
  obtain ⟨_, _, _, _, _, h⟩ := s.refuse_eq pg; rw [h]
@[simp] theorem State.detectAs_retired (s : State) (pg bit : Nat) (l : List Nat) (d : Detail) : (s.detectAs pg bit l d).retired = s.retired := by
  obtain ⟨_, _, _, _, _, h⟩ := s.detectAs_eq pg bit l d; rw [h]
@[simp] theorem State.detect_retired (s : State) (pg bit : Nat) : (s.detect pg bit).retired = s.retired := State.detectAs_retired ..
@[simp] theorem State.refuse_retired (s : State) (pg : Nat) : (s.refuse pg).retired = s.retired := by
  obtain ⟨_, _, _, _, _, h⟩ := s.refuse_eq pg; rw [h]
@[simp] theorem State.detectAs_lcSram (s : State) (pg bit : Nat) (l : List Nat) (d : Detail) : (s.detectAs pg bit l d).lcSram = s.lcSram := by
  obtain ⟨_, _, _, _, _, h⟩ := s.detectAs_eq pg bit l d; rw [h]
@[simp] theorem State.detect_lcSram (s : State) (pg bit : Nat) : (s.detect pg bit).lcSram = s.lcSram := State.detectAs_lcSram ..
@[simp] theorem State.refuse_lcSram (s : State) (pg : Nat) : (s.refuse pg).lcSram = s.lcSram := by
  obtain ⟨_, _, _, _, _, h⟩ := s.refuse_eq pg; rw [h]
@[simp] theorem State.detectAs_memc (s : State) (pg bit : Nat) (l : List Nat) (d : Detail) : (s.detectAs pg bit l d).memc = s.memc := by
  obtain ⟨_, _, _, _, _, h⟩ := s.detectAs_eq pg bit l d; rw [h]
@[simp] theorem State.detect_memc (s : State) (pg bit : Nat) : (s.detect pg bit).memc = s.memc := State.detectAs_memc ..
@[simp] theorem State.refuse_memc (s : State) (pg : Nat) : (s.refuse pg).memc = s.memc := by
  obtain ⟨_, _, _, _, _, h⟩ := s.refuse_eq pg; rw [h]
@[simp] theorem State.detectAs_cry (s : State) (pg bit : Nat) (l : List Nat) (d : Detail) : (s.detectAs pg bit l d).cry = s.cry := by
  obtain ⟨_, _, _, _, _, h⟩ := s.detectAs_eq pg bit l d; rw [h]
@[simp] theorem State.detect_cry (s : State) (pg bit : Nat) : (s.detect pg bit).cry = s.cry := State.detectAs_cry ..
@[simp] theorem State.refuse_cry (s : State) (pg : Nat) : (s.refuse pg).cry = s.cry := by
  obtain ⟨_, _, _, _, _, h⟩ := s.refuse_eq pg; rw [h]
@[simp] theorem State.detectAs_flt (s : State) (pg bit : Nat) (l : List Nat) (d : Detail) : (s.detectAs pg bit l d).flt = s.flt := by
  obtain ⟨_, _, _, _, _, h⟩ := s.detectAs_eq pg bit l d; rw [h]
@[simp] theorem State.detect_flt (s : State) (pg bit : Nat) : (s.detect pg bit).flt = s.flt := State.detectAs_flt ..
@[simp] theorem State.refuse_flt (s : State) (pg : Nat) : (s.refuse pg).flt = s.flt := by
  obtain ⟨_, _, _, _, _, h⟩ := s.refuse_eq pg; rw [h]
@[simp] theorem State.detectAs_pwr (s : State) (pg bit : Nat) (l : List Nat) (d : Detail) : (s.detectAs pg bit l d).pwr = s.pwr := by
  obtain ⟨_, _, _, _, _, h⟩ := s.detectAs_eq pg bit l d; rw [h]
@[simp] theorem State.detect_pwr (s : State) (pg bit : Nat) : (s.detect pg bit).pwr = s.pwr := State.detectAs_pwr ..
@[simp] theorem State.refuse_pwr (s : State) (pg : Nat) : (s.refuse pg).pwr = s.pwr := by
  obtain ⟨_, _, _, _, _, h⟩ := s.refuse_eq pg; rw [h]
@[simp] theorem State.detectAs_upd (s : State) (pg bit : Nat) (l : List Nat) (d : Detail) : (s.detectAs pg bit l d).upd = s.upd := by
  obtain ⟨_, _, _, _, _, h⟩ := s.detectAs_eq pg bit l d; rw [h]
@[simp] theorem State.detect_upd (s : State) (pg bit : Nat) : (s.detect pg bit).upd = s.upd := State.detectAs_upd ..
@[simp] theorem State.refuse_upd (s : State) (pg : Nat) : (s.refuse pg).upd = s.upd := by
  obtain ⟨_, _, _, _, _, h⟩ := s.refuse_eq pg; rw [h]
@[simp] theorem State.detectAs_power (s : State) (pg bit : Nat) (l : List Nat) (d : Detail) : (s.detectAs pg bit l d).power = s.power := by
  obtain ⟨_, _, _, _, _, h⟩ := s.detectAs_eq pg bit l d; rw [h]
@[simp] theorem State.detect_power (s : State) (pg bit : Nat) : (s.detect pg bit).power = s.power := State.detectAs_power ..
@[simp] theorem State.refuse_power (s : State) (pg : Nat) : (s.refuse pg).power = s.power := by
  obtain ⟨_, _, _, _, _, h⟩ := s.refuse_eq pg; rw [h]

end Sys2Proof.Machine
end

