-- ==== Sys2Proof/Laws/Tab.lean ====
section
/-! SUPPORT. Laws of the sparse tables: a read after a write, and that a write keeps the canonical form. -/

namespace Sys2Proof.Machine

variable {β : Type}

theorem tget_tins_same (d : Nat → β) (k : Nat) (v : β) (m : Tab β) : tget d (tins k v (m.filter fun e => e.1 ≠ k)) k = v := by
  induction m with
  | nil => simp [tins, tget]
  | cons e m ih =>
    by_cases h : e.1 = k
    · simpa [List.filter, h] using ih
    · by_cases h2 : k < e.1
      · simp [h, tins, tget, h2]
      · rw [List.filter_cons_of_pos (by simpa using h)]
        simp only [tins, h2, if_false, tget, h]
        exact ih

theorem tget_tins_ne (d : Nat → β) {k j : Nat} (h : j ≠ k) (v : β) (m : Tab β) : tget d (tins k v m) j = tget d m j := by
  induction m with
  | nil => simp [tins, tget, Ne.symm h]
  | cons e m ih =>
    by_cases h2 : k < e.1
    · simp [tins, h2, tget, Ne.symm h]
    · simp only [tins, h2, if_false, tget, ih]

theorem tget_filter_ne (d : Nat → β) {k j : Nat} (h : j ≠ k) (m : Tab β) : tget d (m.filter fun e => e.1 ≠ k) j = tget d m j := by
  induction m with
  | nil => rfl
  | cons e m ih =>
    by_cases h2 : e.1 = k
    · have h3 : e.1 ≠ j := fun x => h (x ▸ h2)
      simp_all [List.filter, tget]
    · simp_all [List.filter, tget]

theorem tget_filter_same (d : Nat → β) (k : Nat) (m : Tab β) : tget d (m.filter fun e => e.1 ≠ k) k = d k := by
  induction m with
  | nil => rfl
  | cons e m ih => by_cases h2 : e.1 = k <;> simp_all [List.filter, tget]

/-- A read after a write of the same key gives the value written. -/
@[simp] theorem tget_tset_same [DecidableEq β] (d : Nat → β) (m : Tab β) (k : Nat) (v : β) : tget d (tset d m k v) k = v := by
  unfold tset
  split
  · rename_i h; rw [tget_filter_same, h]
  · exact tget_tins_same d k v m

/-- A write leaves every other key alone. -/
theorem tget_tset_ne [DecidableEq β] (d : Nat → β) (m : Tab β) {k j : Nat} (v : β) (h : j ≠ k) :
    tget d (tset d m k v) j = tget d m j := by
  unfold tset
  split
  · exact tget_filter_ne d h m
  · rw [tget_tins_ne d h, tget_filter_ne d h]

/-! ## The canonical form -/

/-- What `twf` says of a list with a head. -/
theorem twf_cons [DecidableEq β] (d : Nat → β) (e : Nat × β) (m : Tab β) :
    twf d (e :: m) = true ↔ e.2 ≠ d e.1 ∧ (∀ f ∈ m.head?, e.1 < f.1) ∧ twf d m = true := by
  cases m with
  | nil => simp [twf]
  | cons f m => simp [twf, and_assoc]

theorem twf_lt [DecidableEq β] (d : Nat → β) : ∀ (m : Tab β) (e : Nat × β), twf d (e :: m) = true → ∀ f ∈ m, e.1 < f.1
  | [], _, _, f, h => absurd h (List.not_mem_nil)
  | g :: m, e, w, f, h => by
    obtain ⟨_, h2, h3⟩ := (twf_cons d e (g :: m)).1 w
    have hg : e.1 < g.1 := h2 g (by simp)
    rcases List.mem_cons.1 h with rfl | h
    · exact hg
    · exact Nat.lt_trans hg (twf_lt d m g h3 f h)

theorem twf_of_lt [DecidableEq β] (d : Nat → β) (m : Tab β) (e : Nat × β) (h1 : e.2 ≠ d e.1) (h2 : ∀ f ∈ m, e.1 < f.1)
    (h3 : twf d m = true) : twf d (e :: m) = true := by
  refine (twf_cons d e m).2 ⟨h1, ?_, h3⟩
  intro f hf
  exact h2 f (List.mem_of_mem_head? hf)

theorem twf_filter [DecidableEq β] (d : Nat → β) (p : Nat × β → Bool) : ∀ m : Tab β, twf d m = true → twf d (m.filter p) = true
  | [], _ => rfl
  | e :: m, h => by
    have h3 := ((twf_cons d e m).1 h).2.2
    have ih := twf_filter d p m h3
    by_cases hp : p e = true
    · rw [List.filter_cons_of_pos hp]
      exact twf_of_lt d _ e ((twf_cons d e m).1 h).1 (fun f hf => twf_lt d m e h f (List.mem_filter.1 hf).1) ih
    · rw [List.filter_cons_of_neg hp]; exact ih

theorem mem_tins (k : Nat) (v : β) : ∀ (m : Tab β) (f : Nat × β), f ∈ tins k v m → f = (k, v) ∨ f ∈ m
  | [], f, h => by simpa [tins] using h
  | e :: m, f, h => by
    by_cases h2 : k < e.1
    · simpa [tins, h2] using h
    · simp only [tins, h2, if_false, List.mem_cons] at h
      rcases h with rfl | h
      · exact Or.inr (List.mem_cons_self ..)
      · rcases mem_tins k v m f h with h | h
        · exact Or.inl h
        · exact Or.inr (List.mem_cons_of_mem _ h)

theorem twf_tins [DecidableEq β] (d : Nat → β) (k : Nat) (v : β) (hv : v ≠ d k) :
    ∀ m : Tab β, twf d m = true → (∀ f ∈ m, f.1 ≠ k) → twf d (tins k v m) = true
  | [], _, _ => by simpa [tins, twf] using hv
  | e :: m, h, hk => by
    by_cases h2 : k < e.1
    · simp only [tins, h2, if_true]
      refine twf_of_lt d _ (k, v) hv ?_ h
      intro f hf
      rcases List.mem_cons.1 hf with rfl | hf
      · exact h2
      · exact Nat.lt_trans h2 (twf_lt d m e h f hf)
    · simp only [tins, h2, if_false]
      have hek : e.1 ≠ k := hk e (List.mem_cons_self ..)
      refine twf_of_lt d _ e ((twf_cons d e m).1 h).1 ?_
        (twf_tins d k v hv m ((twf_cons d e m).1 h).2.2 fun f hf => hk f (List.mem_cons_of_mem _ hf))
      intro f hf
      rcases mem_tins k v m f hf with rfl | hf
      · simp only; omega
      · exact twf_lt d m e h f hf

/-- A write keeps the canonical form. -/
theorem twf_tset [DecidableEq β] (d : Nat → β) (m : Tab β) (k : Nat) (v : β) (h : twf d m = true) :
    twf d (tset d m k v) = true := by
  unfold tset
  split
  · exact twf_filter d _ m h
  · rename_i hv
    refine twf_tins d k v hv _ (twf_filter d _ m h) ?_
    intro f hf
    simpa using (List.mem_filter.1 hf).2

end Sys2Proof.Machine
end

