-- ==== Sys2Proof/Laws/Ctx.lean ====
section
/-! SUPPORT. Contexts: what reading one gives after an update, and the laws of general registers and predicates (R275, R312). -/

namespace Sys2Proof.Machine

/-! ## Contexts of the state -/

@[simp] theorem State.ctxAt_setCtx_same (s : State) (k : Nat) (c : Ctx) : (s.setCtx k c).ctxAt k = c :=
  tget_tset_same ctxDflt s.ctxs k c
theorem State.ctxAt_setCtx_ne (s : State) {k j : Nat} (c : Ctx) (h : j ≠ k) : (s.setCtx k c).ctxAt j = s.ctxAt j :=
  tget_tset_ne ctxDflt s.ctxs c h
@[simp] theorem State.ctxAt_modCtx_same (s : State) (k : Nat) (f : Ctx → Ctx) : (s.modCtx k f).ctxAt k = f (s.ctxAt k) :=
  State.ctxAt_setCtx_same s k _
theorem State.ctxAt_modCtx_ne (s : State) {k j : Nat} (f : Ctx → Ctx) (h : j ≠ k) : (s.modCtx k f).ctxAt j = s.ctxAt j :=
  State.ctxAt_setCtx_ne s _ h
@[simp] theorem State.ctxAt_modCx_same (s : State) (k : Nat) (f : CtxRegs → CtxRegs) :
    (s.modCx k f).ctxAt k = { s.ctxAt k with now := f (s.cx k) } := State.ctxAt_modCtx_same s k _
theorem State.ctxAt_modCx_ne (s : State) {k j : Nat} (f : CtxRegs → CtxRegs) (h : j ≠ k) : (s.modCx k f).ctxAt j = s.ctxAt j :=
  State.ctxAt_modCtx_ne s _ h
@[simp] theorem State.cx_modCx_same (s : State) (k : Nat) (f : CtxRegs → CtxRegs) : (s.modCx k f).cx k = f (s.cx k) := by
  simp [State.cx]
theorem State.cx_modCx_ne (s : State) {k j : Nat} (f : CtxRegs → CtxRegs) (h : j ≠ k) : (s.modCx k f).cx j = s.cx j := by
  simp [State.cx, State.ctxAt_modCx_ne s f h]
@[simp] theorem State.cx_modCtx_same (s : State) (k : Nat) (f : Ctx → Ctx) : (s.modCtx k f).cx k = (f (s.ctxAt k)).now := by
  simp [State.cx]
/-- States with the same contexts read the same. -/
theorem State.ctxAt_of_ctxs {s t : State} (h : t.ctxs = s.ctxs) (k : Nat) : t.ctxAt k = s.ctxAt k := by
  simp [State.ctxAt, h]
theorem State.cx_of_ctxs {s t : State} (h : t.ctxs = s.ctxs) (k : Nat) : t.cx k = s.cx k := by
  simp [State.cx, State.ctxAt_of_ctxs h]
/-- A commit takes the present registers (R312). -/
@[simp] theorem State.ctxAt_commitNow_same (s : State) (k : Nat) : (s.commitNow k).ctxAt k = (s.ctxAt k).commit := by
  simp [State.commitNow, State.ctxAt_of_ctxs (State.setLc_ctxs ..)]
theorem State.ctxAt_commitNow_ne (s : State) {k j : Nat} (h : j ≠ k) : (s.commitNow k).ctxAt j = s.ctxAt j := by
  simp [State.commitNow, State.ctxAt_of_ctxs (State.setLc_ctxs ..), State.ctxAt_modCtx_ne s _ h]
/-- A change of state commits (R312). -/
@[simp] theorem State.ctxAt_toSt_same (s : State) (k : Nat) (st : CtxSt) :
    (s.toSt k st).ctxAt k = ({ s.ctxAt k with now := { s.cx k with st := st } } : Ctx).commit := by
  simp [State.toSt, State.cx]
theorem State.ctxAt_toSt_ne (s : State) {k j : Nat} (st : CtxSt) (h : j ≠ k) : (s.toSt k st).ctxAt j = s.ctxAt j := by
  simp [State.toSt, State.ctxAt_commitNow_ne _ h, State.ctxAt_modCx_ne s _ h]
@[simp] theorem State.cx_toSt_same (s : State) (k : Nat) (st : CtxSt) : (s.toSt k st).cx k = { s.cx k with st := st } := by
  simp [State.cx, Ctx.commit]
theorem State.cx_toSt_ne (s : State) {k j : Nat} (st : CtxSt) (h : j ≠ k) : (s.toSt k st).cx j = s.cx j := by
  simp [State.cx, State.ctxAt_toSt_ne s st h]

/-! ## Logical cores -/

@[simp] theorem State.lcAt_setLc_same (s : State) (n : Nat) (v : LCore) : (s.setLc n v).lcAt n = v :=
  tget_tset_same _ s.lcores n v
theorem State.lcAt_setLc_ne (s : State) {n m : Nat} (v : LCore) (h : m ≠ n) : (s.setLc n v).lcAt m = s.lcAt m :=
  tget_tset_ne _ s.lcores v h
theorem State.lcAt_of_lcores {s t : State} (h : t.lcores = s.lcores) (n : Nat) : t.lcAt n = s.lcAt n := by
  simp [State.lcAt, h]

/-! ## General registers and predicates -/

@[simp] theorem CtxRegs.get_zero (r : CtxRegs) : r.get 0 = 0 := rfl
@[simp] theorem CtxRegs.set_zero (r : CtxRegs) (v : Word) : r.set 0 v = r := rfl
/-- g0 stays 0, and a written register reads what was written (R275). -/
theorem CtxRegs.get_set (r : CtxRegs) (k n : Nat) (v : Word) :
    (r.set k v).get n = if n = k ∧ n ≠ 0 then v else r.get n := by
  unfold CtxRegs.set CtxRegs.get
  by_cases hk : k = 0
  · by_cases hn : n = 0 <;> simp [hk, hn]
  · by_cases hn : n = 0
    · simp [hn]
    · by_cases e : n = k
      · subst e; simp [hn]
      · simp [hk, hn, e, tget_tset_ne]
/-- Writing a register changes only it, and a poison mark of it. -/
theorem CtxRegs.set_eq (r : CtxRegs) (k : Nat) (v : Word) :
    r.set k v = { r with g := (r.set k v).g, bad := (r.set k v).bad } := by
  unfold CtxRegs.set; split <;> rfl
@[simp] theorem CtxRegs.set_p (r : CtxRegs) (k : Nat) (v : Word) : (r.set k v).p = r.p := by rw [CtxRegs.set_eq]
@[simp] theorem CtxRegs.set_v (r : CtxRegs) (k : Nat) (v : Word) : (r.set k v).v = r.v := by rw [CtxRegs.set_eq]
@[simp] theorem CtxRegs.set_dz (r : CtxRegs) (k : Nat) (v : Word) : (r.set k v).dz = r.dz := by rw [CtxRegs.set_eq]
@[simp] theorem CtxRegs.set_pc (r : CtxRegs) (k : Nat) (v : Word) : (r.set k v).pc = r.pc := by rw [CtxRegs.set_eq]
@[simp] theorem CtxRegs.set_ctpc (r : CtxRegs) (k : Nat) (v : Word) : (r.set k v).ctpc = r.ctpc := by rw [CtxRegs.set_eq]
@[simp] theorem CtxRegs.set_cnpc (r : CtxRegs) (k : Nat) (v : Word) : (r.set k v).cnpc = r.cnpc := by rw [CtxRegs.set_eq]
@[simp] theorem CtxRegs.set_ctvec (r : CtxRegs) (k : Nat) (v : Word) : (r.set k v).ctvec = r.ctvec := by rw [CtxRegs.set_eq]
@[simp] theorem CtxRegs.set_st (r : CtxRegs) (k : Nat) (v : Word) : (r.set k v).st = r.st := by rw [CtxRegs.set_eq]
@[simp] theorem CtxRegs.set_elem (r : CtxRegs) (k : Nat) (v : Word) : (r.set k v).elem = r.elem := by rw [CtxRegs.set_eq]
@[simp] theorem CtxRegs.set_late (r : CtxRegs) (k : Nat) (v : Word) : (r.set k v).late = r.late := by rw [CtxRegs.set_eq]
@[simp] theorem CtxRegs.set_drain (r : CtxRegs) (k : Nat) (v : Word) : (r.set k v).drain = r.drain := by rw [CtxRegs.set_eq]

theorem CtxRegs.setP_eq (r : CtxRegs) (k : Nat) (b : Bool) : r.setP k b = { r with p := (r.setP k b).p } := by
  unfold CtxRegs.setP; split <;> rfl
@[simp] theorem CtxRegs.getP_zero (r : CtxRegs) : r.getP 0 = true := rfl
@[simp] theorem CtxRegs.setP_zero (r : CtxRegs) (b : Bool) : r.setP 0 b = r := rfl
/-- p0 stays true, and a written predicate reads what was written (R275). -/
theorem CtxRegs.getP_setP (r : CtxRegs) (k n : Nat) (b : Bool) (hk : k < 8) (hn : n < 8) :
    (r.setP k b).getP n = if n = k ∧ n ≠ 0 then b else r.getP n := by
  unfold CtxRegs.setP CtxRegs.getP
  by_cases h0 : n = 0
  · simp [h0]
  by_cases hk0 : k = 0
  · subst hk0; simp [h0]
  simp only [hk0, h0, if_false, decide_false, Bool.false_or, ne_eq, not_false_eq_true, and_true]
  have hm : (0xFE ^^^ 2 ^ k).testBit n = decide (n ≠ k) := by
    interval_cases k <;> interval_cases n <;> revert h0 hk0 <;> decide
  by_cases e : n = k
  · subst e
    cases b <;> simp [Nat.testBit_and, Nat.testBit_or, hm]
  · have h2 : (2 ^ k).testBit n = false := by
      rw [Nat.testBit_two_pow]; exact decide_eq_false (fun h => e h.symm)
    cases b <;> simp [e, Nat.testBit_and, Nat.testBit_or, hm, h2]

end Sys2Proof.Machine
end

