-- ==== Sys2Proof/Laws/Issue.lean ====
section
/-! SUPPORT. What issuing an instruction can do: it runs its own effect, or only advances, where nothing stands before it. -/

namespace Sys2Proof.Machine

/-- What the context that issues on a core is: one of the core's, in RUN, with no FENCE that waits, on a core that runs. -/
theorem issuing_spec {s : State} {n k : Nat} (h : s.issuing n = some k) :
    k / 32 = n ∧ s.coreRuns n = true ∧ (s.lcAt n).cur = some (k % 32) ∧ (s.cx k).st = CtxSt.run ∧ (s.ctxAt k).fence = false := by
  unfold State.issuing at h
  split at h
  · rename_i hr
    split at h
    · rename_i i hi
      split at h
      · rename_i hc
        obtain ⟨h1, h2, h3⟩ := hc
        obtain rfl := Option.some.inj h
        have e1 : (32 * n + i) / 32 = n := by omega
        have e2 : (32 * n + i) % 32 = i := by omega
        refine ⟨e1, hr, by rw [e2]; exact hi, h3, ?_⟩
        simp only [Ctx.canIssue, Bool.and_eq_true, Bool.or_eq_true, beq_iff_eq, Bool.not_eq_true'] at h2
        rcases h2.2 with h4 | h4
        · exact absurd (h4.symm.trans h3) (by decide)
        · exact h4.2
      · exact absurd h (by simp)
    · exact absurd h (by simp)
  · exact absurd h (by simp)

/-- The hardware finds nothing where no word that it looks at is in error. -/
theorem State.hwFind_of_none {s : State} {f : Nat → Bool} (h : ∀ w ∈ (s.symErr.map (·.1)) ++ s.poison, f w = false) : s.hwFind f = s := by
  have e : ((s.symErr.map (·.1)) ++ s.poison).filter f = [] := List.filter_eq_nil_iff.2 fun w hw => by simp [h w hw]
  simp only [State.hwFind, e, List.foldl_nil]

/-- A read of a sound word by the hardware changes nothing. -/
theorem State.hwRead_of_sound {s : State} {a n : Nat} (h : s.sound a n = true) : s.hwRead a n = s := by
  unfold State.hwRead
  split
  · rfl
  · refine State.hwFind_of_none fun w hw => ?_
    by_contra hc
    have := (List.all_eq_true.1 h) w (by simpa using hc)
    simp only [Bool.not_eq_true', List.contains_eq_mem, decide_eq_false_iff_not] at this
    exact this hw

/-- A word that may be fetched and is sound stands before nothing. -/
theorem State.atWord_of_fetchable {s : State} {k : Nat} {a : Word} (h : s.fetchable k a.toNat = true) (trapAt : State → Nat → State)
    (body : State → State) : s.atWord k a trapAt body = body s := by
  simp only [State.fetchable, Bool.and_eq_true, Bool.not_eq_true', Bool.or_eq_true] at h
  obtain ⟨⟨⟨h1, h2⟩, h3⟩, h4⟩ := h
  have h5 : (if isCached a.toNat = true ∨ (!s.canFetch a.toNat) = true then s else s.hwRead a.toNat 4) = s := by
    rcases h4 with h | h
    · simp [h]
    · rw [State.hwRead_of_sound h, ite_self]
  simp only [State.atWord, h5]
  simp [h1, h2, h3]

/-- An instruction whose word may be fetched meets its own checks. -/
theorem atFetch_of_fetches {s : State} {k : Nat} (h : s.fetches k = true) (body : State → State) : s.atFetch k body = body s := by
  simp only [State.fetches, Bool.and_eq_true] at h
  have e : (if (s.cx k).elem = [] then (s.cx k).late else []) = [] := by
    split
    · rename_i e
      simpa [e] using h.1
    · rfl
  simp only [State.atFetch, e, State.atWord_of_fetchable h.2]

/-- Nothing leaves a release buffer in which nothing is due. -/
theorem State.releaseDueAll_of_noneDue {s : State} (h : s.noneDue = true) : s.releaseDueAll = s := by
  have e : ∀ l : List Nat, (∀ n ∈ l, n < 16) → l.foldl State.releaseDue s = s := by
    intro l
    induction l with
    | nil => exact fun _ => rfl
    | cons n l ih =>
      intro hl
      have hn := List.all_eq_true.1 (List.all_eq_true.1 h n (List.mem_range.2 (hl n (List.mem_cons_self ..))))
      have : (s.lcAt n).buf.filter (fun e => decide (e.tick < s.kaNow)) = [] :=
        List.filter_eq_nil_iff.2 fun e he => by
          have := of_decide_eq_true (hn e he)
          simp only [decide_eq_true_eq]; omega
      rw [List.foldl_cons, show s.releaseDue n = s by simp [State.releaseDue, this, State.leaves]]
      exact ih fun m hm => hl m (List.mem_cons_of_mem _ hm)
  exact e _ fun n hn => List.mem_range.1 hn

/-- An instruction that executes has its own effect, and an issue cycle passes (R274, R309). -/
theorem issue_of_executes {s : State} {lc : Fin 16} {gs : Bool} {gp : Fin 8} {srcs dsts : List Nat} {k : Nat}
    (h : s.executes lc gs gp srcs dsts k = true) {bad : CtxRegs → Option Word} (hb : bad (s.cx k) = none) (skip : Nat)
    (body : Nat → State → State) : s.issue lc gs gp bad skip srcs dsts body = .next ((body k s).issued lc k) := by
  simp only [State.executes, Bool.and_eq_true, beq_iff_eq, Bool.not_eq_true', Option.isNone_iff_eq_none] at h
  obtain ⟨⟨⟨⟨⟨h1, h2⟩, h3⟩, h4⟩, h5⟩, h6⟩ := h
  simp only [State.issue, h1, atFetch_of_fetches h2, h3, hb, h4, State.operands, h5, h6, if_true, Bool.false_eq_true, if_false]

/-- An instruction that no state makes illegal. -/
theorem issue_legal {s : State} {lc : Fin 16} {gs : Bool} {gp : Fin 8} {srcs dsts : List Nat} {k : Nat}
    (h : s.executes lc gs gp srcs dsts k = true) (skip : Nat) (body : Nat → State → State) :
    s.issue lc gs gp legal skip srcs dsts body = .next ((body k s).issued lc k) := issue_of_executes h rfl skip body

theorem simple_of_executes {s : State} {lc : Fin 16} {gs : Bool} {gp : Fin 8} {srcs dsts : List Nat} {k : Nat}
    (h : s.executes lc gs gp srcs dsts k = true) (f : CtxRegs → CtxRegs) :
    s.simple lc gs gp srcs dsts f = .next ((s.modCx k f).issued lc k) := issue_legal h 4 _

/-- An instruction whose guard is 0b1000 or fails only advances the PC (R277, R278), and the issue cycle passes (R309). -/
theorem issue_skipped {s : State} {lc : Fin 16} {gs : Bool} {gp : Fin 8} {srcs dsts : List Nat} {k : Nat}
    (hi : s.issuing lc = some k) (hf : s.fetches k = true) {bad : CtxRegs → Option Word}
    (hg : neverGuard gs gp = true ∨ bad (s.cx k) = none ∧ (s.cx k).guardHolds gs gp = false) (skip : Nat)
    (body : Nat → State → State) : s.issue lc gs gp bad skip srcs dsts body = .next ((s.advance k skip).issued lc k) := by
  simp only [State.issue, hi, atFetch_of_fetches hf]
  rcases hg with h | ⟨h1, h2⟩
  · simp [h]
  · cases neverGuard gs gp <;> simp [h1, h2]


end Sys2Proof.Machine
end

