-- ==== Sys2Proof/Laws/Memory.lean ====
section
/-! SUPPORT. Memory: reading after writing, and that every operation that writes memory keeps its canonical form. -/

namespace Sys2Proof.Machine

/-! ## Reading after writing -/

@[simp] theorem State.byteAt_setByte_same (s : State) (p : Nat) (v : Byte) : (s.setByte p v).byteAt p = v :=
  tget_tset_same memDefault s.mem p v
theorem State.byteAt_setByte_ne (s : State) {p q : Nat} (v : Byte) (h : q ≠ p) : (s.setByte p v).byteAt q = s.byteAt q :=
  tget_tset_ne memDefault s.mem v h

/-- Bytes written from a place on change those places and no other. -/
theorem State.byteAt_setBytes : ∀ (l : List Byte) (s : State) (p q : Nat),
    (s.setBytes p l).byteAt q = if p ≤ q ∧ q < p + l.length then l.getD (q - p) 0 else s.byteAt q
  | [], s, p, q => by
    have h : ¬ (p ≤ q ∧ q < p + 0) := by omega
    rw [State.setBytes, List.length_nil, if_neg h]
  | b :: l, s, p, q => by
    rw [State.setBytes, State.byteAt_setBytes l]
    by_cases h1 : p + 1 ≤ q ∧ q < p + 1 + l.length
    · have h2 : p ≤ q ∧ q < p + (b :: l).length := by simp only [List.length_cons]; omega
      have h3 : q - p = (q - (p + 1)) + 1 := by omega
      rw [if_pos h1, if_pos h2, h3, List.getD_cons_succ]
    · rw [if_neg h1]
      by_cases h2 : q = p
      · subst h2
        have h3 : q ≤ q ∧ q < q + (b :: l).length := by simp only [List.length_cons]; omega
        rw [if_pos h3]; simp
      · have h3 : ¬ (p ≤ q ∧ q < p + (b :: l).length) := by simp only [List.length_cons]; omega
        rw [if_neg h3, State.byteAt_setByte_ne s b h2]

@[simp] theorem leBytes_length : ∀ n v : Nat, (leBytes n v).length = n
  | 0, _ => rfl
  | n + 1, v => by simp [leBytes, leBytes_length n]

theorem leBytes_getD : ∀ (n v i : Nat), i < n → (leBytes n v).getD i 0 = BitVec.ofNat 8 (v / 256 ^ i)
  | n + 1, v, 0, _ => by simp [leBytes]
  | n + 1, v, i + 1, h => by
    rw [leBytes, List.getD_cons_succ, leBytes_getD n (v / 256) i (by omega), Nat.div_div_eq_div_mul, Nat.pow_succ, Nat.mul_comm]

/-- A little-endian value written at a place (R258). -/
theorem State.byteAt_setLe (s : State) (p n v q : Nat) :
    (s.setLe p n v).byteAt q = if p ≤ q ∧ q < p + n then BitVec.ofNat 8 (v / 256 ^ (q - p)) else s.byteAt q := by
  rw [State.setLe, State.byteAt_setBytes, leBytes_length]
  by_cases h : p ≤ q ∧ q < p + n
  · rw [if_pos h, if_pos h, leBytes_getD n v _ (by omega)]
  · rw [if_neg h, if_neg h]

/-! ## The canonical form -/

theorem State.setByte_wf (s : State) (p : Nat) (v : Byte) (h : Memory.wf s.mem = true) : Memory.wf (s.setByte p v).mem = true :=
  twf_tset memDefault s.mem p v h

theorem State.setBytes_wf : ∀ (l : List Byte) (s : State) (p : Nat), Memory.wf s.mem = true → Memory.wf (s.setBytes p l).mem = true
  | [], _, _, h => h
  | b :: l, s, p, h => State.setBytes_wf l _ _ (State.setByte_wf s p b h)

theorem State.setLe_wf (s : State) (p n v : Nat) (h : Memory.wf s.mem = true) : Memory.wf (s.setLe p n v).mem = true :=
  State.setBytes_wf _ s p h

theorem State.eraseSector_wf (s : State) (n : Nat) (h : Memory.wf s.mem = true) : Memory.wf (s.eraseSector n).mem = true :=
  twf_filter memDefault _ s.mem h

theorem State.sramClear_wf (s : State) (h : Memory.wf s.mem = true) : Memory.wf s.sramClear.mem = true :=
  twf_filter memDefault _ s.mem h

theorem foldl_tset_wf (mv : Nat → Nat) : ∀ (l : List (Nat × Byte)) (m : Tab Byte), Memory.wf m = true →
    Memory.wf (l.foldl (fun (m : Tab Byte) (e : Nat × Byte) => tset memDefault m (mv e.1) e.2) m) = true
  | [], _, h => h
  | _ :: l, m, h => foldl_tset_wf mv l _ (twf_tset memDefault m _ _ h)

theorem foldl_mem {α : Type} {f : State → α → State} (hf : ∀ t a, (f t a).mem = t.mem) :
    ∀ (l : List α) (s : State), (l.foldl f s).mem = s.mem
  | [], _ => rfl
  | a :: l, s => by rw [List.foldl_cons, foldl_mem hf l, hf]

@[simp] theorem State.giveCore_mem (s : State) (n j : Nat) : (s.giveCore n j).mem = s.mem := by
  unfold State.giveCore
  dsimp only
  split <;> (try split) <;> simp
@[simp] theorem State.scheduleWith_mem (s : State) (n : Nat) (b : Bool) : (s.scheduleWith n b).mem = s.mem := by
  unfold State.scheduleWith
  split
  · rfl
  · dsimp only; split <;> (try split) <;> (try split) <;> (try split) <;> simp
@[simp] theorem State.schedule_mem (s : State) (n : Nat) : (s.schedule n).mem = s.mem := State.scheduleWith_mem ..
@[simp] theorem State.wakeOps_mem (s : State) (n : Nat) : (s.wakeOps n).mem = s.mem := by
  simp only [State.wakeOps, State.schedule_mem]
  rw [foldl_mem fun t a => by simp, foldl_mem fun t a => ?_]
  split
  · split <;> (try split) <;> simp
  · rfl

@[simp] theorem State.setPoison_mem (s : State) (w : Nat) (b : Bool) : (s.setPoison w b).mem = s.mem := by
  unfold State.setPoison
  split <;> (try split) <;> rfl
@[simp] theorem State.mapStart_mem (s : State) : s.mapStart.mem = s.mem := by
  unfold State.mapStart
  split <;> simp
@[simp] theorem State.memNote_mem (s : State) (p kind nsym : Nat) : (s.memNote p kind nsym).mem = s.mem := by simp [State.memNote]
@[simp] theorem State.ctxUe_mem (s : State) (k off : Nat) : (s.ctxUe k off).mem = s.mem := by simp [State.ctxUe]
@[simp] theorem State.memUe_mem (s : State) (p : Nat) (owner : Option Nat) : (s.memUe p owner).mem = s.mem := by
  simp only [State.memUe, State.memDetect]
  repeat' split
  all_goals simp [State.queueRepair, State.setSyms]

/-- What a read of a protected word can do to memory: nothing, or write open values where it takes a pattern for another word. -/
theorem State.memRead_mem (s : State) (p nsym : Nat) (owner : Option Nat) :
    (s.memRead p nsym owner).1.mem = s.mem ∨ (s.memRead p nsym owner).1.mem = (s.wrongWord p owner).mem := by
  simp only [State.memRead]
  repeat' split
  all_goals simp [State.memDetect, State.rowCount, State.setSyms]

theorem State.wrongWord_wf (s : State) (p : Nat) (owner : Option Nat) (h : Memory.wf s.mem = true) :
    Memory.wf (s.wrongWord p owner).mem = true := by
  unfold State.wrongWord
  split
  · split <;> simpa using h
  · exact State.setBytes_wf _ s _ h

theorem State.memRead_wf (s : State) (p nsym : Nat) (owner : Option Nat) (h : Memory.wf s.mem = true) :
    Memory.wf (s.memRead p nsym owner).1.mem = true := by
  rcases s.memRead_mem p nsym owner with e | e
  · rw [e]; exact h
  · rw [e]; exact State.wrongWord_wf s p owner h

theorem State.hwFind_wf (s : State) (f : Nat → Bool) (h : Memory.wf s.mem = true) : Memory.wf (s.hwFind f).mem = true := by
  have : ∀ (l : Tab Nat) (t : State), Memory.wf t.mem = true →
      Memory.wf (l.foldl (fun (t : State) e => (t.memRead (e.1 * 32) 0 none).1) t).mem = true := by
    intro l
    induction l with
    | nil => exact fun _ h => h
    | cons e l ih => exact fun t h => ih _ (State.memRead_wf t _ _ _ h)
  exact this _ _ h

theorem State.copyMacro_wf (s : State) (a b : Nat) (h : Memory.wf s.mem = true) : Memory.wf (s.copyMacro a b).mem = true := by
  unfold State.copyMacro
  split
  · exact h
  · exact foldl_tset_wf (fun p => p % 0x1000000 + b * 0x1000000) _ _ (twf_filter memDefault _ _ (State.hwFind_wf s _ h))

/-- Tables that follow each other make a table. -/
theorem twf_append {β : Type} [DecidableEq β] (d : Nat → β) : ∀ (l m : Tab β), twf d l = true → twf d m = true →
    (∀ e ∈ l, ∀ f ∈ m, e.1 < f.1) → twf d (l ++ m) = true
  | [], _, _, h, _ => h
  | e :: l, m, hl, hm, hlt => by
    refine twf_of_lt d (l ++ m) e ((twf_cons d e l).1 hl).1 ?_
      (twf_append d l m ((twf_cons d e l).1 hl).2.2 hm fun x hx => hlt x (List.mem_cons_of_mem _ hx))
    intro f hf
    rcases List.mem_append.1 hf with hf | hf
    · exact twf_lt d l e hl f hf
    · exact hlt e (List.mem_cons_self ..) f hf

/-- Entries with rising keys and no default among them make a table. -/
theorem twf_of_pairwise {β : Type} [DecidableEq β] (d : Nat → β) : ∀ l : Tab β, l.Pairwise (fun e f => e.1 < f.1) →
    (∀ e ∈ l, e.2 ≠ d e.1) → twf d l = true
  | [], _, _ => rfl
  | e :: l, h, hd => by
    obtain ⟨h1, h2⟩ := List.pairwise_cons.1 h
    exact twf_of_lt d l e (hd e (List.mem_cons_self ..)) h1
      (twf_of_pairwise d l h2 fun x hx => hd x (List.mem_cons_of_mem _ hx))

theorem State.tearSector_wf (s : State) (n : Nat) (h : Memory.wf s.mem = true) : Memory.wf (s.tearSector n).mem = true := by
  unfold State.tearSector
  obtain ⟨bs, hw⟩ : ∃ bs, wordsBytes ((List.range (sectorBytes n / 4)).map fun i => Config.freeWord (s.freeCtr + i)) = bs := ⟨_, rfl⟩
  have hlen : bs.length ≤ sectorBytes n := by
    rw [← hw]
    have : ∀ l : List Word, (wordsBytes l).length = 4 * l.length := by
      intro l
      induction l with
      | nil => rfl
      | cons w l ih =>
        have : (wordsBytes (w :: l)).length = (leBytes 4 w.toNat).length + (wordsBytes l).length := by simp [wordsBytes]
        rw [this, ih, leBytes_length, List.length_cons]; omega
    rw [this, List.length_map, List.length_range]; omega
  have hmem : ∀ e ∈ (bs.zipIdx.map fun (e : Byte × Nat) => (sectorBase n + e.2, e.1)).filter
      (fun (e : Nat × Byte) => e.2 ≠ memDefault e.1), sectorBase n ≤ e.1 ∧ e.1 < sectorBase n + sectorBytes n ∧ e.2 ≠ memDefault e.1 := by
    intro e he
    obtain ⟨he1, he2⟩ := List.mem_filter.1 he
    obtain ⟨⟨b, i⟩, hb, rfl⟩ := List.mem_map.1 he1
    have := List.snd_lt_of_mem_zipIdx hb
    refine ⟨by simp, ?_, by simpa using he2⟩
    simp at this ⊢; omega
  have hnew : Memory.wf ((bs.zipIdx.map fun (e : Byte × Nat) => (sectorBase n + e.2, e.1)).filter
      (fun (e : Nat × Byte) => e.2 ≠ memDefault e.1)) = true := by
    refine twf_of_pairwise memDefault _ (List.Pairwise.filter _ ?_) fun e he => (hmem e he).2.2
    rw [List.pairwise_map]
    have : (bs.zipIdx.map Prod.snd).Pairwise (· < ·) := by
      rw [List.zipIdx_map_snd]; exact List.pairwise_lt_range'
    rw [List.pairwise_map] at this
    exact this.imp fun h => by simpa using h
  subst hw
  refine twf_append memDefault _ _ (twf_append memDefault _ _ (twf_filter memDefault _ _ h) ?_ ?_)
    (twf_filter memDefault _ _ h) ?_
  · exact hnew
  · intro e he f hf
    have h1 : e.1 < sectorBase n := by simpa using (List.mem_filter.1 he).2
    have h2 := (hmem f hf).1
    omega
  · intro e he f hf
    have h2 : sectorBase n + sectorBytes n ≤ f.1 := by simpa using (List.mem_filter.1 hf).2
    rcases List.mem_append.1 he with he | he
    · have h1 : e.1 < sectorBase n := by simpa using (List.mem_filter.1 he).2
      omega
    · have h1 := (hmem e he).2.1
      omega

end Sys2Proof.Machine
end

