-- ==== Sys2Proof/Laws/Regs.lean ====
section
/-! SUPPORT. Laws of register fields and registers: what a read gives after a write (R12). -/

namespace Sys2Proof

/-- The bits of a field's mask. -/
theorem Fld.mask_getLsbD (f : Fld) (i : Nat) (h : f.lo ≤ f.hi) :
    f.mask.getLsbD i = (decide (i < 32) && decide (f.lo ≤ i) && decide (i ≤ f.hi)) := by
  unfold Fld.mask
  rw [BitVec.getLsbD_shiftLeft, BitVec.getLsbD_ofNat]
  by_cases h1 : i < 32 <;> by_cases h2 : f.lo ≤ i
  · rw [Nat.testBit_two_pow_sub_one]
    simp only [h1, h2, decide_true, Bool.true_and, Nat.not_lt.2 h2, decide_false, Bool.not_false]
    by_cases h3 : i ≤ f.hi
    · have : i - f.lo < f.hi + 1 - f.lo := by omega
      have h4 : i - f.lo < 32 := by omega
      simp [this, h3, h4]
    · have : ¬ i - f.lo < f.hi + 1 - f.lo := by omega
      simp [this, h3]
  · simp [h2, Nat.lt_of_not_le h2]
  · simp [h1]
  · simp [h1]

/-- Reading a field just written gives the value, cut to its width. -/
theorem Fld.get_put_same (f : Fld) (w : Word) (v : Nat) (h : f.lo ≤ f.hi) (h2 : f.hi < 32) :
    f.get (f.put w v) = v % 2 ^ (f.hi + 1 - f.lo) := by
  have key : ((f.put w v) &&& f.mask) >>> f.lo = BitVec.ofNat 32 (v % 2 ^ (f.hi + 1 - f.lo)) := by
    apply BitVec.eq_of_getLsbD_eq
    intro i hi
    simp only [Fld.put, BitVec.getLsbD_ushiftRight, BitVec.getLsbD_and, BitVec.getLsbD_or, BitVec.getLsbD_not,
      BitVec.getLsbD_shiftLeft, Fld.mask_getLsbD f _ h, BitVec.getLsbD_ofNat, Nat.testBit_mod_two_pow]
    by_cases h3 : f.lo + i ≤ f.hi
    · have a : f.lo + i < 32 := by omega
      have b : i < f.hi + 1 - f.lo := by omega
      simp [h3, a, b, hi]
    · have b : ¬ i < f.hi + 1 - f.lo := by omega
      simp [h3, b]
  unfold Fld.get
  rw [key, BitVec.toNat_ofNat]
  apply Nat.mod_eq_of_lt
  have h4 : v % 2 ^ (f.hi + 1 - f.lo) < 2 ^ (f.hi + 1 - f.lo) := Nat.mod_lt _ (Nat.two_pow_pos _)
  exact Nat.lt_of_lt_of_le h4 (Nat.pow_le_pow_right (by decide) (by omega))

/-- Writing a field leaves a field of other bits alone. -/
theorem Fld.get_put_other (f g : Fld) (w : Word) (v : Nat) (h : f.mask &&& g.mask = 0) : g.get (f.put w v) = g.get w := by
  have key : (f.put w v) &&& g.mask = w &&& g.mask := by
    apply BitVec.eq_of_getLsbD_eq
    intro i hi
    have hb : (f.mask &&& g.mask).getLsbD i = false := by rw [h]; simp
    rw [BitVec.getLsbD_and] at hb
    simp only [Fld.put, BitVec.getLsbD_and, BitVec.getLsbD_or, BitVec.getLsbD_not, hi, decide_true, Bool.true_and]
    cases hf : f.mask.getLsbD i <;> cases hg : g.mask.getLsbD i <;> simp_all
  unfold Fld.get
  rw [key]

end Sys2Proof

namespace Sys2Proof.Machine

/-- Two registers share no key where their pages or their offsets differ. -/
theorem regKey_ne {pg off pg' off' : Nat} (h : off < 0x1000) (h' : off' < 0x1000) (hn : pg ≠ pg' ∨ off ≠ off') :
    regKey pg off ≠ regKey pg' off' := by
  unfold regKey; omega

@[simp] theorem State.reg_setReg_same (s : State) (pg off : Nat) (w : Word) : (s.setReg pg off w).reg pg off = w := by
  simp [State.reg, State.setReg]

theorem State.reg_setReg_ne (s : State) {pg off pg' off' : Nat} (w : Word) (h : regKey pg' off' ≠ regKey pg off) :
    (s.setReg pg off w).reg pg' off' = s.reg pg' off' := by
  simp [State.reg, State.setReg, tget_tset_ne _ _ _ h]

/-- A field read after a write of it (R12). -/
theorem State.fld_setFld_same (s : State) (pg : Nat) (f : Fld) (v : Nat) (h : f.lo ≤ f.hi) (h2 : f.hi < 32) :
    (s.setFld pg f v).fld pg f = v % 2 ^ (f.hi + 1 - f.lo) := by
  simp [State.fld, State.setFld, Fld.get_put_same f _ v h h2]

/-- A field of another register is unchanged. -/
theorem State.fld_setFld_ne (s : State) {pg pg' : Nat} {f g : Fld} (v : Nat) (h : regKey pg' g.off ≠ regKey pg f.off) :
    (s.setFld pg f v).fld pg' g = s.fld pg' g := by
  simp [State.fld, State.setFld, State.reg_setReg_ne s _ h]

/-- A field of other bits of the same register is unchanged. -/
theorem State.fld_setFld_bits (s : State) (pg : Nat) {f g : Fld} (v : Nat) (ho : g.off = f.off) (h : f.mask &&& g.mask = 0) :
    (s.setFld pg f v).fld pg g = s.fld pg g := by
  simp [State.fld, State.setFld, ho, Fld.get_put_other f g _ v h]

/-- A one-bit field read after a write of it. -/
theorem State.bit_setBit_same (s : State) (pg : Nat) (f : Fld) (b : Bool) (h : f.hi = f.lo) (h2 : f.hi < 32) :
    (s.setBit pg f b).bit pg f = b := by
  have hw : f.hi + 1 - f.lo = 1 := by omega
  simp only [State.bit, State.setBit, State.fld_setFld_same s pg f _ (by omega) h2, hw]
  cases b <;> rfl

theorem State.bit_setFld_ne (s : State) {pg pg' : Nat} {f g : Fld} (v : Nat) (h : regKey pg' g.off ≠ regKey pg f.off) :
    (s.setFld pg f v).bit pg' g = s.bit pg' g := by
  simp [State.bit, State.fld_setFld_ne s v h]

theorem State.bit_setFld_bits (s : State) (pg : Nat) {f g : Fld} (v : Nat) (ho : g.off = f.off) (h : f.mask &&& g.mask = 0) :
    (s.setFld pg f v).bit pg g = s.bit pg g := by
  simp [State.bit, State.fld_setFld_bits s pg v ho h]

/-- The answer to a write (R58). -/
theorem State.code_answer (s : State) (pg code : Nat) (h : code < 4) : (s.answer pg code).fld pg R.PG_STAT.CODE = code := by
  rw [State.answer, State.fld_setFld_same _ _ _ _ (by decide) (by decide)]
  exact Nat.mod_eq_of_lt (by simp; omega)

end Sys2Proof.Machine
end

