-- ==== Sys2Proof/Machine/Pins.lean ====
section
/-! DEFINITION. What the pins of group H of the pin table show (R39, R40, R144, R201, R205, R207, R367): views of the state, which
no command needs. -/

namespace Sys2Proof.Machine

/-- What a digital output pin shows (R39): a level, or that it is not driven. -/
inductive PinLevel where
  | low | high | released
  deriving DecidableEq, Repr

/-- A pin that is driven. -/
def PinLevel.drive (b : Bool) : PinLevel := if b then .high else .low

/-- ALIVE (R39, R367). -/
def State.alivePin (s : State) : PinLevel := .drive s.flt.pin

/-- TDO (R39): no scan shifts, since the debug port is served by commands (R448), so the pin is not driven. -/
def State.tdoPin (_s : State) : PinLevel := .released

/-- LSYNC (R39, R40, R201): an input outside modes 1 and 2, before the end of a boot and in PARK; driven high for 100 ticks. -/
def State.lsyncPin (s : State) : PinLevel :=
  let m := s.fld cvPg R.CV.LSYNC.MODE
  if s.power = .park ∨ s.pwr.boot ≠ .done ∨ (m ≠ 1 ∧ m ≠ 2) then .released
  else .drive (match s.light.lsyncEnd with | some t => decide (s.tb < t) | none => false)

/-- The ticks that the frame in progress has run, while the engine shifts or latches one (R205). -/
def State.pxRun (s : State) : Option Nat :=
  if s.bit pxPg R.PXC.STAT.SHIFT ∧ s.light.pxStart ≤ s.tb ∧ s.tb < s.light.pxEnd then some (s.tb - s.light.pxStart) else none

/-- PXC_CK, PXC_DO and PXC_LE (R39, R205, R207): low without a frame; a bit takes 2K ticks, the clock rising at its middle; after
the last bit LE is high up to the frame's end. -/
def State.pxPins (s : State) : PinLevel × PinLevel × PinLevel :=
  let l := s.light
  if s.power = .park then (.released, .released, .released)
  else match s.pxRun with
  | none =>
    match l.pxTail with
    | some (v, t, k) =>
      if s.bit pxPg R.PXC.STAT.SHIFT ∧ s.tb < l.pxStart then (.drive (decide (k ≤ s.tb - t)), .drive v, .low) else (.low, .low, .low)
    | none => (.low, .low, .low)
  | some t =>
    let i := t / (2 * l.pxK)
    if i < l.pxCur.1 then (.drive (decide (l.pxK ≤ t % (2 * l.pxK))), .drive (l.pxCur.2.testBit (l.pxCur.1 - 1 - i)), .low)
    else (.low, .low, .high)

/-- The sensor port drives SCL0 and SDA0 (R39, R210): a transaction runs; otherwise both are released. -/
def State.i2cDrives (s : State) : Bool := s.light.i2cBusy.isSome && s.clocked .io

/-- ISENSE in millivolts, none while it is high impedance (R39, R143, R144): the selected channel's current, taken from its code,
against its full scale, at most 3 000; 3 250 at the fault rail; 0 with EN = 0. (DESIGN CHOICE: log entry 71.) -/
def State.isensePin (s : State) : Option Nat :=
  if s.power = .park then none
  else if !s.bit 0x001 R.SYS.ISEL.EN then some 0
  else
    let n := s.fld 0x001 R.SYS.ISEL.CH
    let c := (s.hsView n R.HS.SENSE.CODE.off).toNat
    some (if c = faultRail then 3250 else min 3000 (c * 3000 / 0x3F00))

/-- The pins of an Ethernet port are driven (R39, R406, R453): its PHY is powered, outside PARK. -/
def State.ethPin (s : State) (p : Nat) : Bool := s.power ≠ .park && s.enabled (ethPg p)

/-- The pull-up current in microamperes that a channel sources into its output at a voltage in millivolts (R39, R132, R145). -/
def State.hsPullUp (s : State) (n : Nat) (mv : Int) : Nat :=
  pullUpCurrent (s.power ≠ .park && s.enabled (hsPg n) && s.hsPullUpOn n) mv

end Sys2Proof.Machine
end

