-- ==== Sys2Proof/Tests/Slice0.lean ====
section
/-! SUPPORT. Tests: which commands are well formed, decoding, a few values of the standards, and for each statement with
hypotheses states and operands that meet them (`witness_<statement>`, with the name of its part where it has several). -/

open Sys2Proof Sys2Proof.Machine

namespace Sys2Proof.Tests

set_option Elab.async false

/-! ## Small states -/

/-- Reset with every island clocked, TB counting at 1000 and the boot done: the block as firmware finds it. -/
def awake : State := { State.reset with
  clkDead := [], tbRun := true, tb := 1000, pwr := { boot := .done }, icache := (List.range 10).map fun p => (p, [0x1000000]) }

/-- Context 0 of core 0 runs the word at 0x2000_0000 with registers set by `f`. -/
def runs (f : CtxRegs → CtxRegs) : State :=
  ({ awake with lcores := [(0, { cur := some 0 })] } : State).modCx 0 fun r => f { r with st := .run }

/-- A register file with g5, g6 and g7 as given. -/
def regs3 (a b c : Word) (r : CtxRegs) : CtxRegs := ((r.set 5 a).set 6 b).set 7 c

/-- Fields of a page set one after another. -/
def put (s : State) (pg : Nat) (l : List (Fld × Nat)) : State := l.foldl (fun s e => s.setFld pg e.1 e.2) s

/-- A page whose own registers are locked. -/
def lockPg (s : State) (pg : Nat) : State := s.setBit pg R.PG_LOCK.LK true

def dead (s : State) : State := { s with clkDead := List.range 17 }
def pkd (s : State) : State := { s with power := .park }
def vari (l : List State) : List State := l ++ l.map dead ++ l.map pkd

/-! ## Well-formed commands: for each check a command that it refuses -/

theorem test_wf_offset : (Instr.registerWrite .remote 1 0x102 0).wellFormed = false := by decide
theorem test_wf_sketch :
    (Instr.sketchWrite .remote 1 0x0FC 0).wellFormed = false ∧ (Instr.sketchWrite .remote 1 0x800 0).wellFormed = false ∧
    (Instr.sketchWrite .remote 1 0x101 0).wellFormed = false ∧ (Instr.sketchWrite .remote 1 0x7FC 0).wellFormed = true := by decide
theorem test_wf_lf :
    (Instr.lfWrite .remote 0x40C 0).wellFormed = false ∧ (Instr.lfWrite .remote 0x440 0).wellFormed = false ∧
    (Instr.lfWrite .remote 0x43C 0).wellFormed = true := by decide
theorem test_wf_pgreq :
    (Instr.pgreqReceived { initiator := 7, seq := 3, write := true, pg := 0x040, off := 0x111, data := 9 }).wellFormed = false := by
  decide
theorem test_wf_never_guard : (Instr.add 0 true 0 5 6 7).wellFormed = false ∧ (Instr.add 0 false 0 5 6 7).wellFormed = true := by
  decide
theorem test_wf_even :
    (Instr.waitEv 0 false 0 1 (some 7) (.imm 3)).wellFormed = false ∧ (Instr.waitT 0 false 0 7).wellFormed = false ∧
    (Instr.rdtb 0 false 0 31).wellFormed = false := by decide
theorem test_wf_symbols :
    (Instr.ld 0 false 0 5 6 4 0 42).wellFormed = false ∧ (Instr.rpt 0 false 0 0 1 42).wellFormed = false ∧
    (Instr.movs 0 false 0 4 5 6 0 42).wellFormed = false ∧ (Instr.cmps 0 false 0 4 5 6 0 1 42).wellFormed = false ∧
    (Instr.scans 0 false 0 4 5 6 0 1 42).wellFormed = false ∧ (Instr.crcs 0 false 0 4 5 6 0 42).wellFormed = false ∧
    (Instr.accessComplete (.op 0) 42).wellFormed = false ∧ (Instr.scrubRead 42 none).wellFormed = false := by decide
theorem test_wf_string_registers :
    (Instr.movs 0 false 0 4 4 6 0 0).wellFormed = false ∧ (Instr.fills 0 false 0 0 5 6 0).wellFormed = false ∧
    (Instr.cmps 0 false 0 4 0 6 0 1 0).wellFormed = false ∧ (Instr.scans 0 false 0 4 5 4 0 1 0).wellFormed = false ∧
    (Instr.crcs 0 false 0 4 5 5 0 0).wellFormed = false ∧ (Instr.fills 0 false 0 4 0 6 0).wellFormed = true := by decide
theorem test_wf_system_registers :
    (Instr.mfs 0 false 0 5 8).wellFormed = false ∧ (Instr.mts 0 false 0 5 0).wellFormed = false ∧
    (Instr.mfs 0 false 0 5 9).wellFormed = true := by decide
theorem test_wf_illegal :
    (Instr.illegalInstruction 0 0x80000000).wellFormed = false ∧ (Instr.illegalInstruction 0 0).wellFormed = true := by decide
theorem test_wf_row : (Instr.rowRemap 3 8192 true).wellFormed = false ∧ (Instr.rowRemap 3 8191 true).wellFormed = true := by decide
theorem test_wf_can :
    (Instr.canFrameReceived 0 { fmt := 0, ide := false, id := 2048, len := 0 } 0 .good).wellFormed = false ∧
    (Instr.canFrameReceived 0 { fmt := 0, ide := false, id := 1, len := 9, data := List.replicate 9 0 } 0 .good).wellFormed = false ∧
    (Instr.canFrameReceived 0 { fmt := 1, ide := true, id := 1, len := 2, data := [1] } 0 .good).wellFormed = false ∧
    (Instr.canFrameReceived 0 { fmt := 3, ide := false, id := 1, len := 0 } 0 .good).wellFormed = false := by decide
theorem test_wf_lin : (Instr.linFrameEnd 0 (.resp [] 0)).wellFormed = false := by decide
theorem test_wf_lists :
    (Instr.sourceRaise []).wellFormed = false ∧ (Instr.sourceRaise [9, 9]).wellFormed = false ∧
    (Instr.boot { segs := [(1, 2), (1, 2)] }).wellFormed = false := by decide
theorem test_wf_latch : (Instr.pxcLatch (2 ^ 16384)).wellFormed = false := by decide +kernel
theorem test_wf_topo : (Instr.topoReceived 0 7 65536 0).wellFormed = false := by decide
theorem test_wf_ethernet : (Instr.ethFrameReceived 0 (.frame 0 (List.replicate 13 0)) true 0).wellFormed = false := by decide

/-! ## Decoding: words written out from the formats of R277 to R281 -/

theorem test_decode_alu :
    decodePx32 0 0b0000_000001_00101_00110_00111_0000000 = some (.add 0 false 0 5 6 7) ∧
    decodePx32 0 0b1010_000001_00110_00110_00111_0000000 = some (.add 0 true 2 6 6 7) ∧
    decodePx32 0 0b0011_000001_00101_00110_00000_0000110 = some (.neg 0 false 3 5 6) ∧
    decodePx32 0 0b0000_000001_00101_00110_00111_0010100 = some (.div 0 false 0 5 6 7) := by decide
theorem test_decode_immediate :
    decodePx32 0 0b0000_000010_00101_00110_100000000001 = some (.addi 0 false 0 5 6 0x801) ∧
    decodePx32 0 0b0000_000110_00101_00110_0010_00101000 = some (.shi 0 false 0 5 6 2 40) ∧
    decodePx32 0 0b0000_000111_00101_1_1010101111001101 = some (.movw 0 false 0 5 true 0xABCD) := by decide
theorem test_decode_compare :
    decodePx32 0 0b0000_001000_010_0111_00110_00101_00000 = some (.cmp 0 false 0 2 7 6 5) ∧
    decodePx32 0 0b0000_001001_001_0010_00101_0000000110 = some (.cmpi 0 false 0 1 2 5 6) ∧
    decodePx32 0 0b0000_001010_001_010_011_100_0000000000 = some (.pred 0 false 0 1 2 3 4) ∧
    decodePx32 0 0b0000_001011_00101_00110_00111_011_0000 = some (.sel 0 false 0 5 6 7 3) := by decide
theorem test_decode_memory :
    decodePx32 0 0b0000_001100_00101_00110_100_000001000 = some (.ld 0 false 0 5 6 4 8 0) ∧
    decodePx32 0 0b0000_001101_00101_00110_010_000001000 = some (.st 0 false 0 5 6 1 8) ∧
    decodePx32 0 0b0000_001101_00101_00110_001_000001000 = none := by decide
theorem test_decode_control :
    decodePx32 0 0b1010_001110_1111111111111111111110 = some (.br 0 true 2 0x3FFFFE) ∧
    decodePx32 0 0b0000_001111_0000000000000000010000 = some (.call 0 false 0 0x10) ∧
    decodePx32 0 0b0000_010000_00101_00110_000000001000 = some (.jmp 0 false 0 5 6 8) := by decide
theorem test_decode_events :
    decodePx32 0 0b0000_010001_001_0_00000_0_00_0100101100 = some (.waitEv 0 false 0 1 none (.imm 300)) ∧
    decodePx32 0 0b0000_010001_001_1_00110_1_00_00101_00000 = some (.waitEv 0 false 0 1 (some 6) (.reg 5)) ∧
    decodePx32 0 0b0000_010010_00110_00000000000000000 = some (.waitT 0 false 0 6) ∧
    decodePx32 0 0b0000_010010_00111_00000000000000000 = none := by decide
theorem test_decode_strings :
    decodePx32 0 0b0000_010100_0000000000000000000000 = some (.rpt 0 false 0 0 0 0) ∧
    decodePx32 0 0b0000_010101_00100_00101_00110_10_000_00 = some (.movs 0 false 0 4 5 6 2 0) ∧
    decodePx32 0 0b0000_010111_00100_00101_00110_01_010_00 = some (.cmps 0 false 0 4 5 6 1 2 0) ∧
    decodePx32 0 0b0000_010101_00100_00101_00110_11_000_00 = none := by decide
theorem test_decode_system :
    decodePx32 0 0b0000_000000_0000000001001101_000101 = some (.trap 0 false 0 77) ∧
    decodePx32 0 0b0000_000000_00110_0_0000000000_000110 = some (.rdtb 0 false 0 6) ∧
    decodePx32 0 0b0000_000000_00101_01001_000000_001000 = some (.mfs 0 false 0 5 9) ∧
    decodePx32 0 0b0000_000000_00101_00101_000000_001001 = some (.mts 0 false 0 5 5) ∧
    decodePx32 0 0b0000_000000_0000000000000000_000000 = none ∧
    decodePx32 0 0x80000000 = some (.nop 0) ∧ decodePx32 0 0x80000001 = some (.yield 0) := by decide

/-! ## Values of the standards -/

/-- The example of FIPS 197, C.1. -/
theorem test_aes :
    aesEnc ((List.range 16).map fun i => BitVec.ofNat 8 i) ((List.range 16).map fun i => BitVec.ofNat 8 (17 * i)) =
      [0x69, 0xc4, 0xe0, 0xd8, 0x6a, 0x7b, 0x04, 0x30, 0xd8, 0xcd, 0xb7, 0x80, 0x70, 0xb4, 0xc5, 0x5a] := by decide +kernel
/-- The example "abc" of FIPS 180-4. -/
theorem test_sha256 :
    natOfBytes (sha256 [0x61, 0x62, 0x63]) = 0xba7816bf8f01cfea414140de5dae2223b00361a396177a9cb410ff61f20015ad := by decide +kernel
/-- The check value of CRC-32C, of the ASCII digits 1 to 9. -/
theorem test_crc32c : crc32c [0x31, 0x32, 0x33, 0x34, 0x35, 0x36, 0x37, 0x38, 0x39] = 0xE3069283 := by decide +kernel


/-! ## Witnesses. The states of a part stand before its theorems, numbered. Of the clauses of `FirmwareUpdate`, the two whose
VERIFY reads a whole image (results OK and BLOCK) have none here: the kernel takes minutes on the hashes. -/

/-! ## Statements about words, PCs and a channel's fault -/

theorem witness_DecodeOfEncode :
    guardOf (.add 15 true 7 31 30 29) = some (15, true, 7) ∧ (Instr.add 15 true 7 31 30 29).wellFormed = true ∧
    (encodePx32 (.add 15 true 7 31 30 29)).isSome = true ∧ (encodePx32 (.nop 3)).isSome = true ∧
    (encodePx32 (.yield 3)).isSome = true := by decide

/-- What holds of the listed entries and of the defaults holds of every value. -/
theorem tget_all {β : Type} {P : β → Prop} {d : Nat → β} (hd : ∀ k, P (d k)) :
    ∀ l : Tab β, (∀ e ∈ l, P e.2) → ∀ k, P (tget d l k)
  | [], _, k => hd k
  | e :: l, h, k => by
    unfold tget
    split
    · exact h e (List.mem_cons_self ..)
    · exact tget_all hd l (fun x hx => h x (List.mem_cons_of_mem _ hx)) k

/-- Context 0 runs, and the command waits. -/
def ready (c : Instr) : State := { runs id with pending := [c] }

theorem ready_aligned (c : Instr) : (ready c).aligned := by
  refine tget_all (P := fun x : Ctx => x.now.aligned ∧ x.com.aligned ∧ ∀ r ∈ x.olds, r.aligned) (fun k => ?_) _ ?_
  · unfold ctxDflt CtxRegs.aligned
    by_cases h : k = 0 <;> by_cases h2 : k % 32 = 31 <;> simp [h, h2]
  · show ∀ e ∈ (ready (.nop 0)).ctxs, _
    unfold CtxRegs.aligned
    decide +kernel

theorem witness_PcStaysAligned :
    ((ready (.add 0 false 0 5 6 7)).pending = [.add 0 false 0 5 6 7] ∧ (ready (.add 0 false 0 5 6 7)).aligned ∧
      (guardOf (.add 0 false 0 5 6 7)).isSome = true ∧ (∃ t, step (ready (.add 0 false 0 5 6 7)) = .next t)) ∧
    ((ready (.nop 0)).aligned ∧ ∃ t, step (ready (.nop 0)) = .next t) ∧
    ((ready (.illegalInstruction 0 0)).aligned ∧ ∃ t, step (ready (.illegalInstruction 0 0)) = .next t) ∧
    ((ready (.poisonUse 0 5)).aligned ∧ ∃ t, step (ready (.poisonUse 0 5)) = .next t) :=
  ⟨⟨rfl, ready_aligned _, by decide, _, rfl⟩, ⟨ready_aligned _, _, rfl⟩, ⟨ready_aligned _, _, rfl⟩, ⟨ready_aligned _, _, rfl⟩⟩

/-- The last bit that the statement takes in, and a channel with its window open. -/
theorem witness_ChannelChain_ChannelFault :
    15 < 16 ∧ 1 ∈ awake.hsUnit 1 ∧
    (put awake (hsPg 1) [(R.HS.STAT.WKIND, 1)]).fld (hsPg ((put awake (hsPg 1) [(R.HS.STAT.WKIND, 1)]).hsLead 1)) R.HS.STAT.WKIND ≠ 0 ∧
    2 ∈ (put (put awake (hsPg 1) [(R.HS.STAT.WKIND, 1)]) 0x0F0 [(R.BANK.GANG.GID 1, 1), (R.BANK.GANG.GID 2, 1)]).hsUnit 1 := by
  decide +kernel

/-! ## Pins (the rows of R39, R144 and R201) -/

/-- LSYNC is high in the 100 ticks of a pulse in mode 1, and an input in PARK. -/
theorem test_pins_lsync :
    ({ put awake cvPg [(R.CV.LSYNC.MODE, 1)] with light := { lsyncEnd := some 1001 } } : State).lsyncPin = .high ∧
    ({ put awake cvPg [(R.CV.LSYNC.MODE, 1)] with light := { lsyncEnd := some 1000 } } : State).lsyncPin = .low ∧
    ({ put awake cvPg [(R.CV.LSYNC.MODE, 1)] with power := .park } : State).lsyncPin = .released := by decide +kernel

/-- ISENSE: 0 V with EN = 0, 3.250 V at the fault rail of the selected channel, high impedance in PARK. -/
theorem test_pins_isense :
    awake.isensePin = some 0 ∧
    (({ put awake 0x001 [(R.SYS.ISEL.EN, 1), (R.SYS.ISEL.CH, 3)] with hs := [(3, { senseFail := true })] } : State).setBit
      (hsPg 3) R.PG_CTRL.EN true).isensePin = some 3250 ∧
    ({ awake with power := .park } : State).isensePin = none := by decide +kernel

namespace Alu

def s0 : State :=
  { (runs (regs3 5 6 7)) with lcores := [(0, { cur := some 0, last := 0, buf := [{ id := 3, cyc := 1, tick := 1000 }] })] }
def s1 : State :=
  put (runs (regs3 7 0 3)) lcmPg [(R.LCM.LCFG.DZTRAP 0, 1)]

theorem witness_RegisterAluAndShifts_AluResults :
    (s0.executes 0 false 0 [(5 : Nat), (5 : Nat)] [(5 : Nat)] 0 = true) ∧
    (s0.executes 0 false 0 [(5 : Nat)] [(5 : Nat)] 0 = true) := by decide +kernel

theorem witness_RegisterAluAndShifts_ShiftResults :
    (s0.executes 0 false 0 [(5 : Nat), (5 : Nat)] [(5 : Nat)] 0 = true) ∧
    (s0.executes 0 false 0 [(5 : Nat)] [(5 : Nat)] 0 = true) ∧
    ((0x1800500#32).toNat / 2 ^ 28 ≠ 8 ∧ (0x1800500#32).toNat / 2 ^ 22 % 64 = 6 ∧ 5 ≤ (0x1800500#32).toNat / 2 ^ 8 % 16) := by decide +kernel

theorem witness_DivisionResults :
    (s0.executes 0 false 0 [(5 : Nat), (5 : Nat)] [(5 : Nat)] 0 = true ∧ (s0.cx 0).get (5 : Nat) ≠ 0#32) ∧
    (s0.executes 0 false 0 [(5 : Nat), (0 : Nat)] [(5 : Nat)] 0 = true ∧ (s0.cx 0).get (0 : Nat) = 0#32 ∧ s0.bit lcmPg
      (R.LCM.LCFG.DZTRAP (0 : Nat)) = false) ∧
    (s1.executes 0 false 0 [(5 : Nat), (6 : Nat)] [(5 : Nat)] 0 = true ∧ (s1.cx 0).get (6 : Nat) = 0#32 ∧ s1.bit lcmPg
      (R.LCM.LCFG.DZTRAP (0 : Nat)) = true) := by decide +kernel

theorem witness_ImmediateResults :
    (s0.executes 0 false 0 [(5 : Nat)] [(5 : Nat)] 0 = true) ∧
    (s0.executes 0 false 0 [] [(5 : Nat)] 0 = true) := by decide +kernel

theorem witness_CompareResults :
    ((s0.executes 0 false 0 (if (0 : Nat) < 12 then [(5 : Nat), (5 : Nat)] else []) [] 0 = true)) ∧
    ((s0.executes 0 false 0 (if (0 : Nat) < 12 then [(5 : Nat)] else []) [] 0 = true)) ∧
    (s0.executes 0 false 0 [] [] 0 = true) ∧
    ((s0.executes 0 false 0 [if (s0.cx 0).getP (0 : Nat) = true then (5 : Nat) else (5 : Nat)] [(5 : Nat)] 0 = true)) ∧
    ((0x2078000#32).toNat / 2 ^ 28 ≠ 8 ∧ (((0x2078000#32).toNat / 2 ^ 22 % 64 = 8 ∨ (0x2078000#32).toNat / 2 ^ 22 % 64 = 9) ∧
      14 ≤ (0x2078000#32).toNat / 2 ^ 15 % 16 ∨ (0x2078000#32).toNat / 2 ^ 22 % 64 = 10 ∧ (0x2078000#32).toNat / 2 ^ 10 % 8 =
      7)) := by decide +kernel

theorem witness_ResultFrame_ResultFrame :
    (0 < 8 ∧ 0 < 8) ∧
    (7 ≠ 0) ∧
    ((s0.ctxAt 0).slotRes = false) ∧
    ((s0.lcAt 7).buf = []) ∧
    (s0.ops = []) := by decide +kernel

end Alu

namespace Guard

def s0 : State :=
  runs (regs3 5 6 3)
def v0 : Instr :=
  Instr.add 0 false 2 5 6 7

theorem witness_GuardFails :
    (guardOf v0 = some (0, false, 2) ∧ (v0.wellFormed = true ∨ neverGuard false 2 = true) ∧ (v0 = Instr.fence 0 false 2 →
      neverGuard false 2 = false) ∧ (v0 = Instr.rtt 0 false 2 ∨ v0 = Instr.rttN 0 false 2 → neverGuard false 2 = false → (s0.cx
      0).tmode = true ∧ (s0.cx 0).nmode = false) ∧ (v0 = Instr.rtn 0 false 2 → neverGuard false 2 = false → (s0.cx 0).nmode =
      true) ∧ s0.issuing (0 : Nat) = some 0 ∧ s0.fetches 0 = true ∧ (s0.cx 0).guardHolds false 2 = false) := by decide +kernel

end Guard

namespace Control

/-- Core 0 stopped. -/
def stopped0 (s : State) : State := s.setLc 0 { s.lcAt 0 with stopped := true }
def aOp (k : JKind) (n : Nat) : Op := { id := n, ctx := 0, epoch := 0, kind := k, addr := 0x10000000, w := 4, data := 0x1234, reg := 5 }
def wEv (st : CtxSt) (d : Option Nat) : State := stopped0 (({ awake with postings := [⟨260, [0, 1], 12⟩] } : State).modCx 2 fun r => { r with st := st, evt := 260, deadline := d, waitPd := 3 })
def s0 : State :=
  runs (regs3 268435456 2 3)
def s1 : State :=
  runs fun r => { (regs3 256 2 3 r) with bad := [(5, 268435456)] }
def s2 : State :=
  runs fun r => { (regs3 1 2 3 r) with ctpc := 536870928, tmode := true }
def s3 : State :=
  { (runs (regs3 268435457 268435472 2)) with ops := [aOp JKind.load 0], opNext := 1 }
def s4 : State :=
  runs fun r => { (regs3 1 2 3 r) with cnpc := 536870944, nmode := true }
def s5 : State :=
  have s := runs fun r => { (regs3 1 2 3 r) with cnpc := 536870944, nmode := true }; s.setLc 0 ({ (s.lcAt 0) with nmtHeld := true })
def s6 : State :=
  stopped0 ({ awake with nmts := [0] })
def s7 : State :=
  stopped0 (({ awake with nmts := [0] }).modCx 31 fun r => { r with nmode := true })
def s8 : State :=
  have s := ({ awake with nmts := [0] }).modCx 31 fun r => { r with nmode := true }; s.setLc 0 ({ (s.lcAt 0) with nmtHeld := true })
def s9 : State :=
  have s := runs (regs3 5 4294967295 3); s.setLc 0 ({ (s.lcAt 0) with pend := 2 ^ 260 })
def s10 : State :=
  { (runs (regs3 1 2 3)) with ctxs := List.map (fun e => (e.1, { e.2 with replay := [{ id := 0, kind := JKind.rdtb, addr := 0, w := 0, done := true, val := 77 }] })) (runs (regs3 1 2 3)).ctxs }
def s11 : State :=
  { (runs fun r => (regs3 5 65535 3 r).set 6 5000) with ops := List.map (fun i => aOp JKind.load i) (List.range 64) }
def s12 : State :=
  wEv CtxSt.waitev none
def s13 : State :=
  wEv CtxSt.ready none
def s14 : State :=
  stopped0 ({ awake with ops := [aOp JKind.store 0] })
def s15 : State :=
  stopped0 ({ awake with ops := [aOp JKind.load 0] })
def s16 : State :=
  runs fun r => { (regs3 1 2 3 r) with bad := [(5, 268435456)] }
def v0 : JEnt :=
  { id := 0, kind := JKind.rdtb, addr := 0, w := 0, done := true, val := 77 }
def v1 : List JEnt :=
  []
def v2 : Option (Fin 32) :=
  none
def v3 : EvSrc :=
  EvSrc.imm 260
def v4 : Option (Fin 32) :=
  some 0
def v5 : EvSrc :=
  EvSrc.imm 4
def v6 : Posting :=
  { ev := 260, left := [0, 1], isl := 12 }
def v7 : Op :=
  aOp JKind.store 0
def v8 : Op :=
  aOp JKind.load 0

theorem witness_ControlFlow_TransferResults :
    (s0.executes 0 false 0 [] [] 0 = true) ∧
    (s0.executes 0 false 0 [] [31] 0 = true) ∧
    (s0.executes 0 false 0 [] [(0 : Nat), (0 : Nat)] 0 = true ∧ ((s0.cx 0).poisonOf [(0 : Nat)] = none ∨ BitVec.toNat ((s0.cx
      0).get (0 : Nat) + BitVec.ofInt 32 (3#12).toInt) % 4 ≠ 0)) ∧
    (s1.executes 0 false 0 [] [(5 : Nat), (0 : Nat)] 0 = true ∧ (s1.cx 0).poisonOf [(5 : Nat)] = some 0x10000000#32 ∧
      BitVec.toNat ((s1.cx 0).get (5 : Nat) + BitVec.ofInt 32 (4092#12).toInt) % 4 = 0) ∧
    (s0.issuing (0 : Nat) = some 0 ∧ s0.fetches 0 = true ∧ (s0.cx 0).guardHolds false 3 = false) := by decide +kernel

theorem witness_ControlFlow_HintsAndIllegal :
    (s0.issuing (0 : Nat) = some 0 ∧ s0.fetches 0 = true ∧ decodePx32 0 0#32 = none) := by decide +kernel

theorem witness_TrapsAndReturns_TrapEntry :
    (0 < 8 ∧ (s0.cx 0).tmode = false ∧ (s0.cx 0).nmode = false ∧ 2 ≠ 0) ∧
    (0 < 8 ∧ ((s2.cx 0).tmode = true ∨ (s2.cx 0).nmode = true) ∧ 2 ≠ 0) := by decide +kernel

theorem witness_ControlFlow_FenceResults :
    (s0.executes 0 false 0 [] [] 0 = true ∧ (∀ o ∈ s0.ops, o.ctx = 0 → o.kind = JKind.post)) ∧
    (s3.executes 0 false 0 [] [] 0 = true ∧ (∃ o ∈ s3.ops, o.ctx = 0 ∧ o.kind ≠ JKind.post)) := by decide +kernel

theorem witness_TrapsAndReturns_ReturnsAndTrap :
    (s2.executes 0 false 0 [] [] 0 = true ∧ (s2.cx 0).tmode = true ∧ (s2.cx 0).nmode = false) ∧
    (s0.executes 0 false 0 [] [] 0 = true ∧ ((s0.cx 0).tmode = false ∨ (s0.cx 0).nmode = true)) ∧
    (s4.executes 0 false 0 [] [] 0 = true ∧ (s4.cx 0).nmode = true ∧ (s4.lcAt (0 / 32)).nmtHeld = false) ∧
    (s5.executes 0 false 0 [] [] 0 = true ∧ (s5.cx 0).nmode = true ∧ (s5.lcAt (0 / 32)).nmtHeld = true) ∧
    (s0.executes 0 false 0 [] [] 0 = true ∧ (s0.cx 0).nmode = false) := by decide +kernel

theorem witness_TrapsAndReturns_NmtEntry :
    (s6.nmts.contains (0 : Nat) = true ∧ s6.coreExists (0 : Nat) = true ∧ s6.moving (0 : Nat) = false ∧ s6.midElem (32 * (0 :
      Nat) + 31) = false ∧ (s6.cx (32 * (0 : Nat) + 31)).nmode = false ∧ s6.coreRuns (0 : Nat) = false) ∧
    (s7.nmts.contains (0 : Nat) = true ∧ s7.coreExists (0 : Nat) = true ∧ s7.moving (0 : Nat) = false ∧ s7.midElem (32 * (0 :
      Nat) + 31) = false ∧ (s7.cx (32 * (0 : Nat) + 31)).nmode = true ∧ (s7.lcAt (0 : Nat)).nmtHeld = false) ∧
    (s8.nmts.contains (0 : Nat) = true ∧ s8.coreExists (0 : Nat) = true ∧ s8.moving (0 : Nat) = false ∧ s8.midElem (32 * (0 :
      Nat) + 31) = false ∧ (s8.cx (32 * (0 : Nat) + 31)).nmode = true ∧ (s8.lcAt (0 : Nat)).nmtHeld = true) := by decide +kernel

theorem witness_SystemRegisters_ReadTimeBase :
    (s9.executes 0 false 0 [] [(0 : Nat), (0 : Nat) + 1] 0 = true ∧ (0 : Nat) % 2 = 0 ∧ (s9.ctxAt 0).replay = [] ∧ (s9.ctxAt
      0).journalled < 64) ∧
    (s10.executes 0 false 0 [] [(0 : Nat), (0 : Nat) + 1] 0 = true ∧ (0 : Nat) % 2 = 0 ∧ (s10.ctxAt 0).replay = v0 :: v1 ∧
      v0.poisoned = false) ∧
    (s9.executes 0 false 0 [] [] 0 = true ∧ (5 : Nat) % 2 = 1) := by decide +kernel

theorem witness_SystemRegisters_SystemRegisters :
    (s0.executes 0 false 0 [] [(0 : Nat)] 0 = true ∧ ((0 : Nat) < 8 ∨ (0 : Nat) = 9)) ∧
    (s0.executes 0 false 0 [(0 : Nat)] [] 0 = true ∧ (4 : Nat) = 4) ∧
    (s0.executes 0 false 0 [(0 : Nat)] [] 0 = true ∧ (5 : Nat) = 5) ∧
    (s0.executes 0 false 0 [(0 : Nat)] [] 0 = true ∧ (6 : Nat) = 6) ∧
    (s0.executes 0 false 0 [(0 : Nat)] [] 0 = true ∧ (9 : Nat) = 9) ∧
    (s0.issuing (0 : Nat) = some 0 ∧ s0.fetches 0 = true ∧ neverGuard false 0 = false ∧ 8 ≤ (8 : Nat) ∧ (8 : Nat) ≠ 9) ∧
    (s0.issuing (0 : Nat) = some 0 ∧ s0.fetches 0 = true ∧ neverGuard false 0 = false ∧ (0 : Nat) ∉ [4, 5, 6, 9]) := by decide +kernel

theorem witness_WaitResults :
    ((∀ x ∈ v2, (↑x : Nat) % 2 = 0) ∧ (0 : Nat) % 2 = 0 ∧ (s9.ctxAt 0).replay = [] ∧ (s9.ctxAt 0).journalled < 64 ∧ (s9.executes 0 false 0 ((match v3 with | EvSrc.imm n => [] | EvSrc.reg a => [(↑a : Nat)]) ++ match v2 with | some x => [(↑x : Nat), (↑x : Nat) + 1] | none => []) [] 0 = true) ∧ ((s9.lcAt (0 / 32)).pend.testBit (match v3 with | EvSrc.imm e => e.toNat | EvSrc.reg a => BitVec.toNat ((s9.cx 0).get (↑a : Nat)) % 1024) = true)) ∧
    ((∀ x ∈ v4, (↑x : Nat) % 2 = 0) ∧ (0 : Nat) % 2 = 0 ∧ (s9.ctxAt 0).replay = [] ∧ (s9.ctxAt 0).journalled < 64 ∧ (s9.executes 0 false 0 ((match v5 with | EvSrc.imm n => [] | EvSrc.reg a => [(↑a : Nat)]) ++ match v4 with | some x => [(↑x : Nat), (↑x : Nat) + 1] | none => []) [] 0 = true) ∧ ((s9.lcAt (0 / 32)).pend.testBit (match v5 with | EvSrc.imm e => e.toNat | EvSrc.reg a => BitVec.toNat ((s9.cx 0).get (↑a : Nat)) % 1024) = false) ∧ (∃ d ∈ Option.map (fun x => BitVec.toNat ((s9.cx 0).get ((↑x : Nat) + 1)) * 2 ^ 32 + BitVec.toNat ((s9.cx 0).get (↑x : Nat))) v4, d ≤ s9.tb)) ∧
    ((∀ x ∈ v2, (↑x : Nat) % 2 = 0) ∧ (0 : Nat) % 2 = 0 ∧ (s9.ctxAt 0).replay = [] ∧ (s9.ctxAt 0).journalled < 64 ∧ (s9.executes 0 false 0 ((match v5 with | EvSrc.imm n => [] | EvSrc.reg a => [(↑a : Nat)]) ++ match v2 with | some x => [(↑x : Nat), (↑x : Nat) + 1] | none => []) [] 0 = true) ∧ ((s9.lcAt (0 / 32)).pend.testBit (match v5 with | EvSrc.imm e => e.toNat | EvSrc.reg a => BitVec.toNat ((s9.cx 0).get (↑a : Nat)) % 1024) = false) ∧ (∀ d ∈ Option.map (fun x => BitVec.toNat ((s9.cx 0).get ((↑x : Nat) + 1)) * 2 ^ 32 + BitVec.toNat ((s9.cx 0).get (↑x : Nat))) v2, s9.tb < d) ∧ s9.slotsFull 0 = false) ∧
    ((∀ x ∈ v2, (↑x : Nat) % 2 = 0) ∧ (0 : Nat) % 2 = 0 ∧ (s9.ctxAt 0).replay = [] ∧ (s9.ctxAt 0).journalled < 64 ∧ s9.executes
      0 false 0 [(0 : Nat), (0 : Nat) + 1] [] 0 = true ∧ BitVec.toNat ((s9.cx 0).get ((0 : Nat) + 1)) * 2 ^ 32 + BitVec.toNat
      ((s9.cx 0).get (0 : Nat)) ≤ s9.tb) ∧
    ((∀ x ∈ v2, (↑x : Nat) % 2 = 0) ∧ (4 : Nat) % 2 = 0 ∧ (s9.ctxAt 0).replay = [] ∧ (s9.ctxAt 0).journalled < 64 ∧ s9.executes
      0 false 0 [(4 : Nat), (4 : Nat) + 1] [] 0 = true ∧ s9.tb < BitVec.toNat ((s9.cx 0).get ((4 : Nat) + 1)) * 2 ^ 32 +
      BitVec.toNat ((s9.cx 0).get (4 : Nat)) ∧ s9.slotsFull 0 = false) ∧
    ((∀ x ∈ v2, (↑x : Nat) % 2 = 0) ∧ (6 : Nat) % 2 = 0 ∧ (s11.ctxAt 0).replay = [] ∧ (s11.ctxAt 0).journalled < 64 ∧
      s11.executes 0 false 0 [(6 : Nat), (6 : Nat) + 1] [] 0 = true ∧ s11.tb < BitVec.toNat ((s11.cx 0).get ((6 : Nat) + 1)) *
      2 ^ 32 + BitVec.toNat ((s11.cx 0).get (6 : Nat)) ∧ s11.slotsFull 0 = true) := by decide +kernel

theorem witness_EventDelivery_EventDelivery_Control :
    ((List.find? (fun q => decide (q.ev = 260) && q.left.contains (0 : Nat)) s12.postings = some v6) ∧ (List.find? (fun q =>
      decide (q.isl = v6.isl) && q.left.contains (0 : Nat)) s12.postings = some v6) ∧ s12.moving (0 : Nat) = false ∧
      s12.coreRuns (0 : Nat) = false ∧ s12.noneDue = true ∧ (∃ i < 32, (s12.cx (32 * (0 : Nat) + i)).st = CtxSt.waitev ∧
      (s12.cx (32 * (0 : Nat) + i)).evt = 260) ∧ 2 < 32 ∧ ((s12.cx (32 * (0 : Nat) + 2)).st = CtxSt.waitev ∧ (s12.cx (32 * (0 :
      Nat) + 2)).evt = 260)) ∧
    ((List.find? (fun q => decide (q.ev = 260) && q.left.contains (0 : Nat)) s13.postings = some v6) ∧ (List.find? (fun q =>
      decide (q.isl = v6.isl) && q.left.contains (0 : Nat)) s13.postings = some v6) ∧ s13.moving (0 : Nat) = false ∧
      s13.coreRuns (0 : Nat) = false ∧ s13.noneDue = true ∧ (∀ i < 32, ¬((s13.cx (32 * (0 : Nat) + i)).st = CtxSt.waitev ∧
      (s13.cx (32 * (0 : Nat) + i)).evt = 260))) := by decide +kernel

theorem witness_EventDelivery_SendEvent_Control :
    ((s0.executes 0 false 0 (match v5 with | EvSrc.imm n => [] | EvSrc.reg a => [(↑a : Nat)]) [] 0 = true) ∧ ((match v5 with | EvSrc.imm e => e.toNat | EvSrc.reg a => BitVec.toNat ((s0.cx 0).get (↑a : Nat)) % 1024) < 256)) ∧
    ((s0.executes 0 false 0 (match v3 with | EvSrc.imm n => [] | EvSrc.reg a => [(↑a : Nat)]) [] 0 = true) ∧ (256 ≤ match v3 with | EvSrc.imm e => e.toNat | EvSrc.reg a => BitVec.toNat ((s0.cx 0).get (↑a : Nat)) % 1024) ∧ (s0.ctxAt 0).replay = [] ∧ (s0.ctxAt 0).journalled < 64) := by decide +kernel

theorem witness_LoadsAndStores_LoadStoreResults :
    (s0.executes 0 false 0 [(0 : Nat)] [(0 : Nat)] 0 = true ∧ (s0.canAccess (BitVec.toNat ((s0.cx 0).get (0 : Nat) +
      BitVec.ofInt 32 ((0#9).toInt * (↑(if (0 : Nat) < 2 then 1 else if (0 : Nat) < 4 then 2 else 4) : Int)))) (if (0 : Nat) <
      2 then 1 else if (0 : Nat) < 4 then 2 else 4) false = true) ∧ (ownLocal (0 / 32) (BitVec.toNat ((s0.cx 0).get (0 : Nat) +
      BitVec.ofInt 32 ((0#9).toInt * (↑(if (0 : Nat) < 2 then 1 else if (0 : Nat) < 4 then 2 else 4) : Int)))) = false) ∧
      s0.roomFor 0 = true) ∧
    (s0.executes 0 false 0 [(0 : Nat)] [(0 : Nat)] 0 = true ∧ (s0.canAccess (BitVec.toNat ((s0.cx 0).get (0 : Nat) +
      BitVec.ofInt 32 ((511#9).toInt * (↑(if (0 : Nat) < 2 then 1 else if (0 : Nat) < 4 then 2 else 4) : Int)))) (if (0 : Nat)
      < 2 then 1 else if (0 : Nat) < 4 then 2 else 4) false = false)) ∧
    (s0.executes 0 false 0 [(0 : Nat), (5 : Nat)] [] 0 = true ∧ (s0.canAccess (BitVec.toNat ((s0.cx 0).get (5 : Nat) +
      BitVec.ofInt 32 ((0#9).toInt * (↑(if 2 * (0 : Nat) < 2 then 1 else if 2 * (0 : Nat) < 4 then 2 else 4) : Int)))) (if 2 *
      (0 : Nat) < 2 then 1 else if 2 * (0 : Nat) < 4 then 2 else 4) true = true) ∧ (ownLocal (0 / 32) (BitVec.toNat ((s0.cx
      0).get (5 : Nat) + BitVec.ofInt 32 ((0#9).toInt * (↑(if 2 * (0 : Nat) < 2 then 1 else if 2 * (0 : Nat) < 4 then 2 else 4)
      : Int)))) = false) ∧ s0.roomFor 0 = true) ∧
    (s0.executes 0 false 0 [(0 : Nat), (0 : Nat)] [] 0 = true ∧ (s0.canAccess (BitVec.toNat ((s0.cx 0).get (0 : Nat) +
      BitVec.ofInt 32 ((0#9).toInt * (↑(if 2 * (0 : Nat) < 2 then 1 else if 2 * (0 : Nat) < 4 then 2 else 4) : Int)))) (if 2 *
      (0 : Nat) < 2 then 1 else if 2 * (0 : Nat) < 4 then 2 else 4) true = false)) ∧
    (s14.ops = [v7] ∧ v7.slot = true ∧ inSram v7.addr 4 = true ∧ v7.addr % 4 = 0 ∧ s14.placeOf v7.addr = some 0 ∧ s14.clocked
      Island.mem = true ∧ s14.poisoned 0 = false ∧ s14.symsOf (0 / 32) = 0 ∧ v7.epoch = (s14.ctxAt v7.ctx).epoch ∧ s14.coreRuns
      (v7.ctx / 32) = false ∧ s14.noneDue = true ∧ v7.kind = JKind.store ∧ v7.w = 4) ∧
    (s15.ops = [v8] ∧ v8.slot = true ∧ inSram v8.addr 4 = true ∧ v8.addr % 4 = 0 ∧ s15.placeOf v8.addr = some 0 ∧ s15.clocked
      Island.mem = true ∧ s15.poisoned 0 = false ∧ s15.symsOf (0 / 32) = 0 ∧ v8.epoch = (s15.ctxAt v8.ctx).epoch ∧ s15.coreRuns
      (v8.ctx / 32) = false ∧ s15.noneDue = true ∧ v8.kind = JKind.load ∧ v8.w = 4 ∧ 0 < v8.reg ∧ v8.reg < 32 ∧ 0 ≠ v8.reg) := by decide +kernel

theorem witness_LoadsAndStores_PoisonedUse :
    (s16.issuing (0 : Nat) = some 0 ∧ s16.fetches 0 = true ∧ 5 ≠ 0 ∧ s16.awaits 0 (5 : Nat) = false ∧ (List.find? (fun x =>
      decide (x.1 = (5 : Nat))) (s16.cx 0).bad = some ((5 : Nat), 0x10000000#32))) := by decide +kernel

end Control

namespace Events

def s3 : State :=
  (({ awake with lcores := [] }).modCx 0 fun r => { r with st := CtxSt.off }).modCx 2 fun r => { r with st := CtxSt.waitt, deadline := some 1000 }
def s4 : State :=
  (({ awake with lcores := [] }).modCx 0 fun r => { r with st := CtxSt.off }).modCx 2 fun r => { r with st := CtxSt.waitev, evt := 260, deadline := some 1000, waitPd := 3 }

theorem witness_EventDelivery_EventDelivery_Events :
    (s3.coreRuns (0 : Nat) = true ∧ (s3.cx (32 * (0 : Nat) + (2 : Nat))).deadline = some 1000 ∧ 1000 ≤ s3.tb ∧ (∀ (j : Fin 32),
      j ≠ 2 → (s3.cx (32 * (0 : Nat) + (↑j : Nat))).st = CtxSt.off) ∧ (s3.cx (32 * (0 : Nat) + (2 : Nat))).st = CtxSt.waitt) ∧
    (s4.coreRuns (0 : Nat) = true ∧ (s4.cx (32 * (0 : Nat) + (2 : Nat))).deadline = some 1000 ∧ 1000 ≤ s4.tb ∧ (∀ (j : Fin 32),
      j ≠ 2 → (s4.cx (32 * (0 : Nat) + (↑j : Nat))).st = CtxSt.off) ∧ (s4.cx (32 * (0 : Nat) + (2 : Nat))).st = CtxSt.waitev) := by decide +kernel

end Events

namespace Strings

def wStr (e : List (Nat × Word)) (f : CtxRegs → CtxRegs) : State := runs fun r => f { ((r.set 4 0x10000100).set 5 0x10000200).set 6 2 with elem := e }
def s0 : State :=
  wStr [] fun x => x.set 6 0
def s1 : State :=
  wStr [(268435712, 5), (268435968, 5)] id
def s2 : State :=
  wStr [(268435712, 5), (268435968, 6)] id
def s3 : State :=
  wStr [(268435712, 0)] id
def s4 : State :=
  wStr [(268435712, 5)] id
def s5 : State :=
  wStr [] id
def v0 : Nat × Word :=
  (268435712, 5)
def v1 : Nat × Word :=
  (268435968, 5)
def v2 : Nat × Word :=
  (268435968, 6)
def v3 : Nat × Word :=
  (268435712, 0)

theorem witness_StringResults_1 :
    (s0.executes 0 false 0 [(4 : Nat), (5 : Nat), (6 : Nat)] [] 0 = true ∧ s0.awaits 0 32 = false ∧ (s0.cx 0).poisonOf [32] =
      none ∧ (s0.cx 0).drain = false ∧ stringRegs 4 5 6 false = true ∧ (s0.cx 0).get (6 : Nat) = 0) ∧
    (s0.executes 0 false 0 [(4 : Nat), (5 : Nat), (6 : Nat)] [] 0 = true ∧ s0.awaits 0 32 = false ∧ (s0.cx 0).poisonOf [32] =
      none ∧ (s0.cx 0).drain = false ∧ stringRegs 4 5 6 true = true ∧ (s0.cx 0).get (6 : Nat) = 0) ∧
    (s1.executes 0 false 0 [(4 : Nat), (5 : Nat), (6 : Nat)] [] 0 = true ∧ s1.awaits 0 32 = false ∧ (s1.cx 0).poisonOf [32] =
      none ∧ (s1.cx 0).drain = false ∧ stringRegs 4 5 6 false = true ∧ (s1.cx 0).get (6 : Nat) ≠ 0 ∧ (s1.canAccess
      (BitVec.toNat ((s1.cx 0).get (5 : Nat))) (if 0 = 0 then 1 else if 0 = 1 then 2 else 4) false = true) ∧ (s1.canAccess
      (BitVec.toNat ((s1.cx 0).get (4 : Nat))) (if 0 = 0 then 1 else if 0 = 1 then 2 else 4) false = true) ∧ (s1.cx 0).elem =
      [v0, v1] ∧ v0.2 = v1.2) ∧
    (s2.executes 0 false 0 [(4 : Nat), (5 : Nat), (6 : Nat)] [] 0 = true ∧ s2.awaits 0 32 = false ∧ (s2.cx 0).poisonOf [32] =
      none ∧ (s2.cx 0).drain = false ∧ stringRegs 4 5 6 false = true ∧ (s2.cx 0).get (6 : Nat) ≠ 0 ∧ (s2.canAccess
      (BitVec.toNat ((s2.cx 0).get (5 : Nat))) (if 0 = 0 then 1 else if 0 = 1 then 2 else 4) false = true) ∧ (s2.canAccess
      (BitVec.toNat ((s2.cx 0).get (4 : Nat))) (if 0 = 0 then 1 else if 0 = 1 then 2 else 4) false = true) ∧ (s2.cx 0).elem =
      [v0, v2] ∧ v0.2 ≠ v2.2) ∧
    (s3.executes 0 false 0 [(4 : Nat), (5 : Nat), (6 : Nat)] [] 0 = true ∧ s3.awaits 0 32 = false ∧ (s3.cx 0).poisonOf [32] =
      none ∧ (s3.cx 0).drain = false ∧ stringRegs 4 5 6 true = true ∧ (s3.cx 0).get (6 : Nat) ≠ 0 ∧ (s3.canAccess (BitVec.toNat
      ((s3.cx 0).get (4 : Nat))) (if 0 = 0 then 1 else if 0 = 1 then 2 else 4) false = true) ∧ (s3.cx 0).elem = [v3] ∧
      (BitVec.toNat v3.2 = BitVec.toNat ((s3.cx 0).get (5 : Nat)) % 256 ^ if 0 = 0 then 1 else if 0 = 1 then 2 else 4)) ∧
    (s4.executes 0 false 0 [(4 : Nat), (5 : Nat), (6 : Nat)] [] 0 = true ∧ s4.awaits 0 32 = false ∧ (s4.cx 0).poisonOf [32] =
      none ∧ (s4.cx 0).drain = false ∧ stringRegs 4 5 6 true = true ∧ (s4.cx 0).get (6 : Nat) ≠ 0 ∧ (s4.canAccess (BitVec.toNat
      ((s4.cx 0).get (4 : Nat))) (if 0 = 0 then 1 else if 0 = 1 then 2 else 4) false = true) ∧ (s4.cx 0).elem = [v0] ∧
      (¬BitVec.toNat v0.2 = BitVec.toNat ((s4.cx 0).get (5 : Nat)) % 256 ^ if 0 = 0 then 1 else if 0 = 1 then 2 else 4)) ∧
    (s4.executes 0 false 0 [(4 : Nat), (5 : Nat), (6 : Nat)] [] 0 = true ∧ s4.awaits 0 32 = false ∧ (s4.cx 0).poisonOf [32] =
      none ∧ (s4.cx 0).drain = false ∧ stringRegs 4 5 6 false = true ∧ (s4.cx 0).get (6 : Nat) ≠ 0 ∧ s4.canAccess (BitVec.toNat
      ((s4.cx 0).get (5 : Nat))) 1 false = true ∧ (s4.cx 0).elem = [v0]) := by
  refine ⟨?_, ?_, ?_, ?_, ?_, ?_, ?_⟩ <;> decide +kernel

theorem witness_StringResults_2 :
    (s5.executes 0 false 0 [(4 : Nat), (5 : Nat), (6 : Nat)] [] 0 = true ∧ s5.awaits 0 32 = false ∧ (s5.cx 0).poisonOf [32] =
      none ∧ (s5.cx 0).drain = false ∧ (s5.cx 0).get (6 : Nat) ≠ 0 ∧ (s5.canAccess (BitVec.toNat ((s5.cx 0).get (4 : Nat))) (if
      0 = 0 then 1 else if 0 = 1 then 2 else 4) true = true) ∧ ownLocal (0 / 32) (BitVec.toNat ((s5.cx 0).get (4 : Nat))) =
      false ∧ s5.roomFor 0 = true ∧ stringRegs 4 5 6 true = true ∧ (s5.cx 0).elem = []) ∧
    (s4.executes 0 false 0 [(4 : Nat), (5 : Nat), (6 : Nat)] [] 0 = true ∧ s4.awaits 0 32 = false ∧ (s4.cx 0).poisonOf [32] =
      none ∧ (s4.cx 0).drain = false ∧ (s4.cx 0).get (6 : Nat) ≠ 0 ∧ (s4.canAccess (BitVec.toNat ((s4.cx 0).get (4 : Nat))) (if
      0 = 0 then 1 else if 0 = 1 then 2 else 4) true = true) ∧ ownLocal (0 / 32) (BitVec.toNat ((s4.cx 0).get (4 : Nat))) =
      false ∧ s4.roomFor 0 = true ∧ stringRegs 4 5 6 false = true ∧ (s4.canAccess (BitVec.toNat ((s4.cx 0).get (5 : Nat))) (if
      0 = 0 then 1 else if 0 = 1 then 2 else 4) false = true) ∧ (s4.cx 0).elem = [v0]) := by
  refine ⟨?_, ?_⟩ <;> decide +kernel

end Strings

namespace Repeat

def wStr (e : List (Nat × Word)) (f : CtxRegs → CtxRegs) : State := runs fun r => f { ((r.set 4 0x10000100).set 5 0x10000200).set 6 2 with elem := e }
def s0 : State :=
  wStr [] id

theorem witness_RepeatResults :
    (s0.executes 0 false 0 [] [] 0 = true ∧ s0.fetchable 0 (BitVec.toNat ((s0.cx 0).pc + 4)) = true ∧ decodePx32 0 0x5885340#32
      = some (Instr.fills 0 false 0 4 5 6 2) ∧ stringRegs 4 5 6 true = true ∧ s0.lacking 0 [(4 : Nat), (5 : Nat), (6 : Nat)] =
      [] ∧ (s0.cx 0).poisonOf [(4 : Nat), (5 : Nat), (6 : Nat)] = none ∧ (s0.cx 0).poisonOf [32] = none ∧ s0.awaits 0 32 =
      false ∧ (s0.cx 0).drain = false ∧ (s0.cx 0).elem = [] ∧ (s0.cx 0).late = [] ∧ (s0.ctxAt 0).replay = [] ∧ (∀ o ∈ s0.ops,
      o.slot = true ∧ isWindow o.addr = false) ∧ BitVec.toNat ((s0.cx 0).get (6 : Nat)) ≤ 5 ∧ (BitVec.toNat ((s0.cx 0).get (4 :
      Nat)) + (if 2 = 0 then 1 else if 2 = 1 then 2 else 4) * BitVec.toNat ((s0.cx 0).get (6 : Nat)) < 2 ^ 32) ∧ (s0.ctxAt
      0).journalled + BitVec.toNat ((s0.cx 0).get (6 : Nat)) ≤ 64 ∧ s0.slotsUsed (0 / 32) + BitVec.toNat ((s0.cx 0).get (6 :
      Nat)) ≤ 64 ∧ (∀ i < BitVec.toNat ((s0.cx 0).get (6 : Nat)), s0.canAccess (BitVec.toNat ((s0.cx 0).get (4 : Nat)) + (if 2
      = 0 then 1 else if 2 = 1 then 2 else 4) * i) (if 2 = 0 then 1 else if 2 = 1 then 2 else 4) true = true ∧ ownLocal (0 /
      32) (BitVec.toNat ((s0.cx 0).get (4 : Nat)) + (if 2 = 0 then 1 else if 2 = 1 then 2 else 4) * i) = false ∧ isWindow
      (BitVec.toNat ((s0.cx 0).get (4 : Nat)) + (if 2 = 0 then 1 else if 2 = 1 then 2 else 4) * i) = false)) ∧
    (s0.executes 0 false 0 [] [] 0 = true ∧ s0.fetchable 0 (BitVec.toNat ((s0.cx 0).pc + 4)) = true ∧ decodePx32 0 0#32 = none) := by decide +kernel

end Repeat

namespace Cores

def aOp (k : JKind) (n : Nat) : Op := { id := n, ctx := 0, epoch := 0, kind := k, addr := 0x10000000, w := 4, data := 0x1234, reg := 5 }
def pst : Op := { aOp .post 3 with data := 300, slot := false, addr := 0, w := 0 }
def ownSt : Op := { aOp .store 3 with addr := 0x18000000, slot := false, data := 0x01020304 }
def fm (s : State) : State := { s with icache := [] }
def s2 : State :=
  { awake with postings := [{ ev := 300, left := [0], isl := 12 }, { ev := 260, left := [0], isl := 12 }] }
def s5 : State :=
  { awake with lcores := [(0, { last := 0, buf := [{ id := 3, cyc := 2 }] })], ops := [pst] }
def s6 : State :=
  runs (regs3 402653184 2 3)
def s7 : State :=
  { awake with lcores := [(0, { last := 0, buf := [{ id := 3, cyc := 2 }] })], ops := [ownSt] }
def s8 : State :=
  fm (runs (regs3 1 2 3))
def s9 : State :=
  fm ((({ awake with lcores := [] }).modCx 0 fun r => { r with st := CtxSt.off }).modCx 2 fun r => { r with st := CtxSt.opwait, opw := OpWait.fetch 8388608 })
def v1 : Posting :=
  { ev := 260, left := [0], isl := 12 }
def v2 : Posting :=
  { ev := 300, left := [0], isl := 12 }
def v3 : Instr :=
  Instr.add 0 true 0 5 6 7

theorem witness_EventDelivery_EventDelivery_Cores :
    (s2.postings = [v2, v1] ∧ v2.isl = v1.isl ∧ v2.left = [(0 : Nat)] ∧ v1.left = [(0 : Nat)] ∧ v1.ev = 260 ∧ v2.ev ≠ v1.ev ∧
      s2.moving (0 : Nat) = false ∧ s2.noneDue = true ∧ (∀ k < 512, (s2.cx k).st ≠ CtxSt.waitev)) := by decide +kernel

theorem witness_EventDelivery_SendEvent_Cores :
    (s5.ops = [pst] ∧ pst.kind = JKind.post ∧ pst.slot = false ∧ pst.ctx / 32 = 0 ∧ (s5.lcAt 0).buf = [{ id := pst.id, commit := false, cyc := 2, tick := 0 }] ∧ (2 ≤ 2 ∨ 0 < s5.kaNow)) := by decide +kernel

theorem witness_LoadsAndStores_OwnLocal :
    (s6.canAccess (BitVec.toNat ((s6.cx 0).get (5 : Nat) + BitVec.ofInt 32 ((0#9).toInt * 4))) 4 true = true ∧ ownLocal (0 /
      32) (BitVec.toNat ((s6.cx 0).get (5 : Nat) + BitVec.ofInt 32 ((0#9).toInt * 4))) = true ∧ s6.placeOf (BitVec.toNat
      ((s6.cx 0).get (5 : Nat) + BitVec.ofInt 32 ((0#9).toInt * 4))) = some 402653184 ∧ s6.poisoned 402653184 = false ∧
      s6.symsOf (402653184 / 32) = 0 ∧ (s6.ctxAt 0).replay = [] ∧ (s6.ctxAt 0).journalled < 64 ∧ s6.executes 0 false 0 [(5 :
      Nat)] [(2 : Nat)] 0 = true ∧ s6.ops = [] ∧ 2 ≠ 0 ∧ 0 = 0) ∧
    (s6.canAccess (BitVec.toNat ((s6.cx 0).get (5 : Nat) + BitVec.ofInt 32 ((0#9).toInt * 4))) 4 true = true ∧ ownLocal (0 /
      32) (BitVec.toNat ((s6.cx 0).get (5 : Nat) + BitVec.ofInt 32 ((0#9).toInt * 4))) = true ∧ s6.placeOf (BitVec.toNat
      ((s6.cx 0).get (5 : Nat) + BitVec.ofInt 32 ((0#9).toInt * 4))) = some 402653184 ∧ s6.poisoned 402653184 = false ∧
      s6.symsOf (402653184 / 32) = 0 ∧ (s6.ctxAt 0).replay = [] ∧ (s6.ctxAt 0).journalled < 64 ∧ s6.executes 0 false 0 [(0 :
      Nat), (5 : Nat)] [] 0 = true) ∧
    (s7.ops = [ownSt] ∧ ownSt.kind = JKind.store ∧ ownSt.slot = false ∧ ownSt.w = 4 ∧ ownSt.ctx / 32 = 0 ∧ s7.placeOf ownSt.addr = some 402653184 ∧ (s7.lcAt 0).buf = [{ id := ownSt.id, commit := false, cyc := 2, tick := 0 }] ∧ (2 ≤ 2 ∨ 0 < s7.kaNow)) := by decide +kernel

theorem witness_LoadsAndStores_FetchMisses :
    (guardOf v3 = some (0, true, 0) ∧ s8.issuing (0 : Nat) = some 0 ∧ ((s8.cx 0).elem ≠ [] ∨ (s8.cx 0).late = []) ∧ s8.canFetch
      (BitVec.toNat (s8.cx 0).pc) = true ∧ s8.fetchMiss (0 / 32) (BitVec.toNat (s8.cx 0).pc) = true) ∧
    ((s9.cx (32 * (0 : Nat) + (2 : Nat))).st = CtxSt.opwait ∧ (s9.cx (32 * (0 : Nat) + (2 : Nat))).opw = OpWait.fetch 8388608 ∧
      (s9.cx (32 * (0 : Nat) + (2 : Nat))).drain = false ∧ s9.coreRuns (0 : Nat) = true ∧ s9.memAnswers (8388608 * 32) false =
      true ∧ s9.placeOf (8388608 * 32) = some 0 ∧ s9.noneDue = true ∧ 0 < 39 ∧ (∀ (i : Fin 32), i ≠ 2 → (s9.cx (32 * (0 : Nat)
      + (↑i : Nat))).st = CtxSt.off) ∧ (s9.lcAt (0 : Nat)).cur = none) := by decide +kernel

end Cores

namespace Pages

def lk (pg : Nat) : State := lockPg awake pg
def fixS (st : Nat) (f : State → State) : State := (fun s : State => { s with fixMode := (s.reg 0x002 0x10C).toNat, fixTag := s.fld 0x002 R.FIX.TAG.TAG, fixBlead := s.fld 0x002 R.FIX.BLEAD.TICKS, fixBexp := s.fld 0x002 R.FIX.BEXP.N }) <| f (put { awake with fixTime := 5000, fixScope := [0x002, 0x040], sketch := [(0x040110, some 5)] } 0x002 [(R.FIX.STATE.ST, st)])
def wOp (n : Nat) (sent : Option Nat) : Op := { id := n, ctx := 0, epoch := 0, kind := .load, addr := 0x41000100, w := 4, reg := 5, sent := sent }
def s0 : State :=
  lk 64
def s1 : State :=
  fixS 0 id
def s2 : State :=
  fixS 1 id
def s3 : State :=
  fixS 2 fun s => put s 2 [(R.FIX.MODE.NOW, 1)]
def s4 : State :=
  fixS 2 id
def s5 : State :=
  fixS 2 fun s => put s 2 [(R.FIX.TIME_LO.T, 1001)]
def s6 : State :=
  fixS 2 fun s => put s 2 [(R.FIX.TIME_LO.T, 100000)]
def s7 : State :=
  fixS 2 fun s => put s 2 [(R.FIX.MODE.NOW, 1), (R.FIX.MODE.BCAST, 1), (R.FIX.BLEAD.TICKS, 50000)]
def s8 : State :=
  fixS 2 fun s => put s 2 [(R.FIX.MODE.JOIN, 1), (R.FIX.TAG.TAG, 42)]
def s9 : State :=
  fixS 3 fun s => { s with fixTime := 900 }
def s10 : State :=
  fixS 3 id
def s11 : State :=
  fixS 3 fun s => { s with fixCopied := true }
def s12 : State :=
  fixS 3 fun s => { s with fixCopied := true, fixReset := some 64 }
def s13 : State :=
  fixS 0 fun s => put s 2 [(R.FIX.MODE.JOIN, 1), (R.FIX.TAG.TAG, 42)]
def s14 : State :=
  fixS 3 fun s => { s with fixBcast := true, fixInit := some 42 }
def s15 : State :=
  { awake with ops := [wOp 0 (some 900)] }
def s16 : State :=
  { awake with lfHeld := [(1032, 3, 0)] }
def v2 : List (Nat × Word × Nat) :=
  []
def v3 : PgReq :=
  { seq := 3, write := true, pg := 64, off := 272, data := 9, initiator := 7 }

theorem witness_RegisterPages_RegisterWrites_Pages :
    (kindOf 2048 = none) ∧
    (256 % 4 = 0 ∧ 256 + 4 * (s0.children 64).length ≤ 256 ∧ 256 < 2048 ∧ rowsAt 64 256 ≠ [] ∧ kindOf 64 ≠ none ∧ s0.clocked
      (s0.islandOf 64) = true ∧ 64 ≠ 2 ∧ factoryPal 64 256 = false ∧ s0.locked 64 = true) := by decide +kernel

theorem witness_RegisterPages_SketchWrites_Pages :
    (awake.accepts 560 = true ∧ 256 % 4 = 0 ∧ 256 ≤ 256 ∧ 256 < 2048 ∧ rowsAt 560 256 ≠ [] ∧ factoryPal 560 256 = false ∧
      accMask Acc.rs 560 256 ≠ 0 ∧ awake.frozenPg 560 = false ∧ 560 ≠ 2 ∧ awake.bit 560 R.PG_SKSTAT.DIRTY = false) := by decide +kernel

theorem witness_RegisterPages_PageCommands :
    (awake.accepts 64 = true ∧ 0 < 64) ∧
    (awake.accepts 64 = true ∧ 0 < 4096 ∧ (64 ≠ 64 ∨ 0 < 2048 ∧ 0 ≠ 68 ∨ 2304 ≤ 0)) ∧
    (awake.accepts 1 = true ∧ kindOf 1 = some PageKind.sys ∧ PageKind.sys ∈ [PageKind.sys, PageKind.pmu, PageKind.rst,
      PageKind.boot, PageKind.cfg, PageKind.cal, PageKind.memc, PageKind.memr, PageKind.flc, PageKind.link, PageKind.esw,
      PageKind.sif] ∧ (awake.fixScope.contains 1 = true → awake.fixSt = 0) ∧ 256 ≤ 256 ∧ 256 < 2048 ∧ 256 ∉ keptAt
      PageKind.sys) ∧
    (awake.accepts 1 = true ∧ kindOf 1 = some PageKind.sys ∧ PageKind.sys ∈ [PageKind.sys, PageKind.pmu, PageKind.rst,
      PageKind.boot, PageKind.cfg, PageKind.cal, PageKind.memc, PageKind.memr, PageKind.flc, PageKind.link, PageKind.esw,
      PageKind.sif] ∧ (awake.fixScope.contains 1 = true → awake.fixSt = 0) ∧ 260 ∈ keptAt PageKind.sys) ∧
    (awake.accepts 1 = true ∧ kindOf 1 = some PageKind.sys ∧ PageKind.sys ∈ [PageKind.sys, PageKind.pmu, PageKind.rst,
      PageKind.boot, PageKind.cfg, PageKind.cal, PageKind.memc, PageKind.memr, PageKind.flc, PageKind.link, PageKind.esw,
      PageKind.sif] ∧ (awake.fixScope.contains 1 = true → awake.fixSt = 0) ∧ 0 < 4096 ∧ 64 ≠ 1) ∧
    (awake.accepts 64 = true ∧ pgCaps 64 / 16 = 1 ∧ 0#8 ≠ 195#8) ∧
    (kindOf 64 ≠ none ∧ s0.clocked (s0.islandOf 64) = true ∧ s0.locked 64 = true) := by decide +kernel

theorem witness_FixCommands_CheckResults_Pages :
    (s1.clocked Island.io = true ∧ s1.locked 2 = false ∧ (s1.fixSt = 0 ∨ s1.fixSt = 2)) ∧
    (s2.clocked Island.io = true ∧ s2.locked 2 = false ∧ (s2.fixSt = 1 ∨ s2.fixSt = 3)) ∧
    (s2.clocked Island.io = true ∧ s2.fixSt = 1 ∧ ((if s2.fixStale = true then 4 else if s2.failures (s2.postFix s2.fixScope)
      s2.fixScope = [] then 1 else 3) = 3)) := by decide +kernel

theorem witness_FixCommands_FixAndAbort_1 :
    (s3.clocked Island.io = true ∧ s3.locked 2 = false ∧ s3.fixSt = 2 ∧ s3.fixModeBit R.FIX.MODE.JOIN = false ∧ s3.fixModeBit
      R.FIX.MODE.BCAST = false ∧ s3.fixModeBit R.FIX.MODE.NOW = true) ∧
    (s4.clocked Island.io = true ∧ s4.locked 2 = false ∧ s4.fixSt = 2 ∧ s4.fixModeBit R.FIX.MODE.JOIN = false ∧ s4.fixModeBit
      R.FIX.MODE.BCAST = false ∧ s4.fixModeBit R.FIX.MODE.NOW = false ∧ s4.fld64 2 R.FIX.TIME_LO.T R.FIX.TIME_HI.T < s4.tb) ∧
    (s5.clocked Island.io = true ∧ s5.locked 2 = false ∧ s5.fixSt = 2 ∧ s5.fixModeBit R.FIX.MODE.JOIN = false ∧ s5.fixModeBit
      R.FIX.MODE.BCAST = false ∧ s5.fixModeBit R.FIX.MODE.NOW = false ∧ s5.tb ≤ s5.fld64 2 R.FIX.TIME_LO.T R.FIX.TIME_HI.T ∧
      s5.fld64 2 R.FIX.TIME_LO.T R.FIX.TIME_HI.T < s5.tb + fixLead s5.fixScope) ∧
    (s6.clocked Island.io = true ∧ s6.locked 2 = false ∧ s6.fixSt = 2 ∧ s6.fixModeBit R.FIX.MODE.JOIN = false ∧ s6.fixModeBit
      R.FIX.MODE.BCAST = false ∧ s6.fixModeBit R.FIX.MODE.NOW = false ∧ s6.tb + fixLead s6.fixScope ≤ s6.fld64 2
      R.FIX.TIME_LO.T R.FIX.TIME_HI.T) ∧
    (s7.clocked Island.io = true ∧ s7.locked 2 = false ∧ s7.fixSt = 2 ∧ s7.fixModeBit R.FIX.MODE.JOIN = false ∧ s7.fixModeBit
      R.FIX.MODE.BCAST = true ∧ s7.fixModeBit R.FIX.MODE.NOW = true) ∧
    (s8.clocked Island.io = true ∧ s8.locked 2 = false ∧ s8.fixSt = 2 ∧ s8.fixModeBit R.FIX.MODE.JOIN = true) ∧
    (s1.clocked Island.io = true ∧ s1.locked 2 = false ∧ s1.fixSt ≠ 2) := by
  refine ⟨?_, ?_, ?_, ?_, ?_, ?_, ?_⟩ <;> decide +kernel

theorem witness_FixCommands_FixAndAbort_2 :
    (s1.clocked Island.io = true ∧ s1.locked 2 = false ∧ (s1.fixSt ≠ 3 ∨ s1.fixSt = 3 ∧ s1.fixBcast = false ∧ s1.tb + fixLead
      s1.fixScope < s1.fixTime ∧ s1.fixCopied = false)) ∧
    (s2.clocked Island.io = true ∧ s2.locked 2 = false ∧ (s2.fixSt ≠ 3 ∨ s2.fixSt = 3 ∧ s2.fixBcast = false ∧ s2.tb + fixLead
      s2.fixScope < s2.fixTime ∧ s2.fixCopied = false) ∧ (64 ∈ if s2.fixSt = 0 then s2.scopeNow else s2.fixScope) ∧ 0 < 4096 ∧
      64 ≠ 2) ∧
    (s9.clocked Island.io = true ∧ s9.locked 2 = false ∧ s9.fixSt = 3 ∧ (s9.fixBcast = true ∨ s9.fixTime ≤ s9.tb + fixLead
      s9.fixScope)) := by
  refine ⟨?_, ?_, ?_⟩ <;> decide +kernel

theorem witness_FixInstants_FixApplies :
    (s9.fixSt = 3 ∧ s9.fixCopied = false ∧ s9.clocked Island.io = true ∧ s9.fixTime ≤ s9.tb) ∧
    (s10.fixSt = 3 ∧ s10.fixCopied = false ∧ s10.clocked Island.io = true ∧ s10.tb < s10.fixTime ∧ s10.tickComes s10.fixTime =
      true) ∧
    (0 < 4096 ∧ (twf (fun x => none) s1.sketch = true)) ∧
    (s11.fixSt = 3 ∧ s11.fixCopied = true ∧ s11.clocked Island.io = true ∧ s11.fixReset = none) ∧
    (s12.fixSt = 3 ∧ s12.fixCopied = true ∧ s12.clocked Island.io = true ∧ s12.fixReset = some 64) := by decide +kernel

theorem witness_FixInstants_BroadcastFix :
    (s1.clocked Island.io = true ∧ s1.clocked Island.net = true ∧ (¬(s1.bit 2 R.FIX.MODE.JOIN = true ∧ (if s1.fixSt = 2 then
      s1.fixTag else s1.fld 2 R.FIX.TAG.TAG) = 0))) ∧
    (s13.clocked Island.io = true ∧ s13.clocked Island.net = true ∧ (s13.bit 2 R.FIX.MODE.JOIN = true ∧ (if s13.fixSt = 2 then
      s13.fixTag else s13.fld 2 R.FIX.TAG.TAG) = 42) ∧ s13.fixSt ≠ 2) ∧
    (s8.clocked Island.io = true ∧ s8.clocked Island.net = true ∧ (s8.bit 2 R.FIX.MODE.JOIN = true ∧ (if s8.fixSt = 2 then
      s8.fixTag else s8.fld 2 R.FIX.TAG.TAG) = 42) ∧ s8.fixSt = 2 ∧ s8.tb + fixLead s8.fixScope ≤ 100000) ∧
    (s8.clocked Island.io = true ∧ s8.clocked Island.net = true ∧ (s8.bit 2 R.FIX.MODE.JOIN = true ∧ (if s8.fixSt = 2 then
      s8.fixTag else s8.fld 2 R.FIX.TAG.TAG) = 42) ∧ s8.fixSt = 2 ∧ 0 < s8.tb + fixLead s8.fixScope) ∧
    (s14.clocked Island.io = true ∧ s14.clocked Island.net = true ∧ s14.fixInit = some 42 ∧ 0 ∉ s14.fixSeen) ∧
    (s1.clocked Island.io = true ∧ s1.clocked Island.net = true ∧ (0 ∈ s1.fixSeen ∨ s1.fixInit ≠ some 0)) := by decide +kernel

theorem witness_LinkWindow_Pages :
    (awake.clocked (awake.islandOf 3840) = true ∧ awake.locked 3840 = false ∧ (1032#12 = 1032#12 ∨ 1032#12 = 1056#12) ∧
      awake.lfHeld = [] ∧ (∀ o ∈ awake.ops, isWindow o.addr = true → awake.opNext ≤ o.id)) ∧
    (s15.clocked (s15.islandOf 3840) = true ∧ s15.locked 3840 = false ∧ (1032#12 = 1032#12 ∨ 1032#12 = 1056#12) ∧ s15.lfHeld =
      [] ∧ (∃ o ∈ s15.ops, isWindow o.addr = true ∧ o.id < s15.opNext)) ∧
    (s16.lfHeld = (1032, 3#32, 0) :: v2 ∧ s16.ops = [] ∧ s16.clocked Island.net = true ∧ (1032 = 1032 ∨ 1032 = 1056)) ∧
    (awake.clocked Island.net = true ∧ awake.clocked (awake.islandOf v3.pg.toNat) = true ∧ v3.write = true) := by decide +kernel

end Pages

namespace Window

def stopped0 (s : State) : State := s.setLc 0 { s.lcAt 0 with stopped := true }
def wOp (n : Nat) (sent : Option Nat) : Op := { id := n, ctx := 0, epoch := 0, kind := .load, addr := 0x41000100, w := 4, reg := 5, sent := sent }
def s0 : State :=
  stopped0 ({ awake with tb := 100000000, ops := [wOp 0 (some 900)] })
def v2 : Op :=
  wOp 0 (some 900)
def v4 : PgReq :=
  { seq := 3, write := false, pg := 64, off := 272, data := 9, initiator := 7 }

theorem witness_LinkWindow_Window :
    (s0.ops = [v2] ∧ v2.sent = some 900 ∧ s0.coreRuns (v2.ctx / 32) = false ∧ s0.clocked Island.net = true ∧ v2.kind =
      JKind.load ∧ 0 < v2.reg ∧ v2.reg < 32 ∧ v2.epoch = (s0.ctxAt v2.ctx).epoch) ∧
    (s0.ops = [v2] ∧ v2.sent = some 900 ∧ s0.coreRuns (v2.ctx / 32) = false ∧ s0.clocked Island.net = true ∧ 900 + 100 *
      Max.max 1 (s0.fld 3840 R.LF.TMO.US) ≤ s0.tb) ∧
    (awake.clocked Island.net = true ∧ awake.clocked (awake.islandOf v4.pg.toNat) = true ∧ v4.write = false) := by decide +kernel

end Window

namespace Rows

def s0 : State :=
  put (awake.setReg 1 2060 77) (hsPg 0) [(R.PG_SKSTAT.DIRTY, 1), (R.PG_SKSTAT.OWNER, 1)]
def v0 : Writer :=
  Writer.ctx 0 0

theorem witness_RegisterPages_SketchWrites_Rows :
    (s0.accepts 256 = true ∧ 264 % 4 = 0 ∧ 256 ≤ 264 ∧ 264 < 2048 ∧ rowsAt 256 264 ≠ [] ∧ factoryPal 256 264 = false ∧ accMask
      Acc.rs 256 264 ≠ 0 ∧ s0.frozenPg 256 = false ∧ 256 ≠ 2 ∧ s0.bit 256 R.PG_SKSTAT.DIRTY = true ∧ s0.fld 256
      R.PG_SKSTAT.OWNER ≠ writerCode v0) := by decide +kernel

end Rows

namespace Writes

def v0 : Writer :=
  Writer.ctx 0 0

theorem witness_RegisterPages_RegisterWrites_Writes :
    (768 % 4 = 0 ∧ 256 + 4 * (awake.children 1).length ≤ 768 ∧ 768 < 2048 ∧ rowsAt 1 768 ≠ [] ∧ kindOf 1 ≠ none ∧ awake.clocked
      (awake.islandOf 1) = true ∧ 1 ≠ 2 ∧ factoryPal 1 768 = false ∧ awake.locked 1 = false ∧ accMask Acc.rs 1 768 = 0 ∧
      accMask Acc.rw 1 768 ||| accMask Acc.w1c 1 768 ≠ 0 ∧ 1 ≠ 4 ∧ awake.ownWrite v0 1 768 0#32 = none ∧ awake.inRange 1 768
      0#32 = true ∧ 0 < 4096 ∧ (0 ≠ 1 ∨ 0 ≠ 768 ∧ 0 ≠ 68)) := by decide +kernel

end Writes

namespace Checks

def fixS (st : Nat) (f : State → State) : State := (fun s : State => { s with fixMode := (s.reg 0x002 0x10C).toNat, fixTag := s.fld 0x002 R.FIX.TAG.TAG, fixBlead := s.fld 0x002 R.FIX.BLEAD.TICKS, fixBexp := s.fld 0x002 R.FIX.BEXP.N }) <| f (put { awake with fixTime := 5000, fixScope := [0x002, 0x040], sketch := [(0x040110, some 5)] } 0x002 [(R.FIX.STATE.ST, st)])
def fs : State := fixS 1 fun s => { put s 0x002 [(R.FIX.NSCOPE.N, 1)] with sketch := [], fixScope := [0x040] }

theorem witness_FixCommands_CheckResults_Checks :
    (fs.clocked Island.io = true ∧ fs.fixSt = 1 ∧ ((if fs.fixStale = true then 4 else if fs.failures (fs.postFix fs.fixScope)
      fs.fixScope = [] then 1 else 3) = 1)) := by decide +kernel

end Checks

namespace Time

def tbc (l : List (Fld × Nat)) (f : State → State := id) : State := f (put awake 0x003 l)
def cap (l : List (Fld × Nat)) : State := { put awake 0x003 l with capPend := [⟨1, 42, 777, 0⟩] }
def syn (role st : Nat) (f : State → State := id) : State := f ((put awake 0x003 [(R.TB.SYNC.ROLE, role), (R.TB.SSTAT.STATE, st)]))
def lnk (s : State) : State := put s (ethPg 1) [(R.ETH.CFG.LROLE, 1), (R.PG_CTRL.EN, 1), (R.ETH.STAT.LINK, 1)]
def s0 : State :=
  ((awake.setReg 256 76 4294967295).setReg 256 80 4294967295).setReg 3 80 255
def s1 : State :=
  tbc [(R.TBC.CTRL.ARM 1, 1), (R.TBC.CTRL.INTV 1, 42), (R.TBC.LO.V 1, 900)]
def s2 : State :=
  tbc [(R.TBC.CTRL.ARM 0, 1), (R.TBC.LO.V 0, 900)] fun s => { s with tbcTick := [(0, 950)] }
def s3 : State :=
  cap [(R.CAP.SEL.MODE 1, 2)]
def s4 : State :=
  cap [(R.CAP.SEL.MODE 1, 2), (R.CAP.STAT.FULL 1, 1)]
def s5 : State :=
  cap [(R.CAP.SEL.MODE 1, 3)]
def s6 : State :=
  cap [(R.CAP.SEL.MODE 1, 3), (R.CAP.STAT.FULL 1, 1)]
def s7 : State :=
  cap [(R.CAP.SEL.MODE 1, 1), (R.CAP.SEL.EVT 1, 42)]
def s8 : State :=
  cap [(R.CAP.SEL.MODE 1, 1), (R.CAP.SEL.EVT 1, 42), (R.CAP.STAT.FULL 1, 1)]
def s9 : State :=
  lnk (syn 2 1)
def s10 : State :=
  lnk (syn 0 0)
def s11 : State :=
  lnk (syn 2 0)
def s12 : State :=
  lnk (syn 2 2)
def s13 : State :=
  lnk (syn 2 2 fun s => { (put s 2 [(R.FIX.STATE.ST, 3)]) with tbStep := some 5 })
def s14 : State :=
  { (syn 2 2) with tb := 100000000000 }
def s15 : State :=
  { (syn 2 3) with tb := 100000000000 }
def s16 : State :=
  List.foldl (fun s i => s.setClkBit R.CLK.LOCK.L i true) awake (List.range 17)
def v0 : List Capture :=
  []
def v1 : SyncMsg :=
  { port := 1, steps := 0, offset := 0 }
def v2 : SyncMsg :=
  { port := 1, steps := 0, offset := 21 }
def v3 : SyncMsg :=
  { port := 1, steps := 0, offset := 20 }
def v4 : SyncMsg :=
  { port := 1, steps := 0, offset := -21 }
def v5 : SyncMsg :=
  { port := 1, steps := 0, offset := -100001 }

theorem witness_RefusalAndDetection_RefusalEffect :
    (0 < 4096 ∧ (256 ≠ 256 ∨ 0 ≠ 68 ∧ 0 ≠ 72)) ∧
    (BitVec.getLsbD (awake.reg 256 76) 0 = false) ∧
    (BitVec.getLsbD (s0.reg 256 76) 0 = true) := by decide +kernel

theorem witness_RefusalAndDetection_DetectionEffect :
    (0 < 32 ∧ 0 < 4096 ∧ (256 ≠ 256 ∨ 0 ≠ 72)) ∧
    (0 < 32 ∧ BitVec.getLsbD (awake.reg 256 80) 0 = false) ∧
    (0 < 32 ∧ BitVec.getLsbD (s0.reg 256 80) 0 = true) := by decide +kernel

theorem witness_ComparesAndCaptures_CompareUnits_1 :
    (awake.locked 3 = false ∧ awake.clocked Island.io = true ∧ (awake.bit 3 (R.TBC.CTRL.ARM (0 : Nat)) = false ∨ false = false
      ∧ awake.tbcDue (0 : Nat) = false)) ∧
    (s1.locked 3 = false ∧ s1.clocked Island.io = true ∧ false = false ∧ s1.tbcDue (1 : Nat) = true) ∧
    (s1.locked 3 = false ∧ s1.clocked Island.io = true ∧ s1.bit 3 (R.TBC.CTRL.ARM (1 : Nat)) = true ∧ true = true ∧ 42 = s1.fld
      3 (R.TBC.CTRL.INTV (1 : Nat))) ∧
    (s1.locked 3 = false ∧ s1.clocked Island.io = true ∧ s1.bit 3 (R.TBC.CTRL.ARM (1 : Nat)) = true ∧ true = true ∧ 0 ≠ s1.fld
      3 (R.TBC.CTRL.INTV (1 : Nat))) ∧
    (s2.bit 3 (R.TBC.CTRL.ARM (0 : Nat)) = true ∧ s2.tbRun = true ∧ s2.clocked Island.io = true ∧ s2.fld64 3 (R.TBC.LO.V (0 :
      Nat)) (R.TBC.HI.V (0 : Nat)) ≤ s2.tb ∧ (tget (fun x => 0) s2.tbcTick (0 : Nat) < s2.tb) ∧ (s2.fld64 3 (R.TBC.LO.V (0 :
      Nat)) (R.TBC.HI.V (0 : Nat)) ≤ tget (fun x => 0) s2.tbcTick (0 : Nat))) ∧
    (s1.bit 3 (R.TBC.CTRL.ARM (1 : Nat)) = true ∧ s1.tbRun = true ∧ s1.clocked Island.io = true ∧ s1.fld64 3 (R.TBC.LO.V (1 :
      Nat)) (R.TBC.HI.V (1 : Nat)) ≤ s1.tb ∧ (tget (fun x => 0) s1.tbcTick (1 : Nat) < s1.tb) ∧ (tget (fun x => 0) s1.tbcTick
      (1 : Nat) < s1.fld64 3 (R.TBC.LO.V (1 : Nat)) (R.TBC.HI.V (1 : Nat)))) ∧
    (s2.bit 3 (R.TBC.CTRL.ARM (0 : Nat)) = true ∧ s2.tbRun = true ∧ s2.clocked Island.io = true ∧ s2.fld64 3 (R.TBC.LO.V (0 :
      Nat)) (R.TBC.HI.V (0 : Nat)) ≤ s2.tb ∧ (tget (fun x => 0) s2.tbcTick (0 : Nat) < s2.tb) ∧ s2.fld 3 (R.TBC.CTRL.INTV (0 :
      Nat)) = 0) := by decide +kernel

theorem witness_ComparesAndCaptures_CompareUnits_2 :
    (s1.bit 3 (R.TBC.CTRL.ARM (1 : Nat)) = true ∧ s1.tbRun = true ∧ s1.clocked Island.io = true ∧ s1.fld64 3 (R.TBC.LO.V (1 :
      Nat)) (R.TBC.HI.V (1 : Nat)) ≤ s1.tb ∧ (tget (fun x => 0) s1.tbcTick (1 : Nat) < s1.tb) ∧ s1.fld 3 (R.TBC.CTRL.INTV (1 :
      Nat)) ≠ 0) := by decide +kernel

theorem witness_ComparesAndCaptures_CaptureUnits :
    (s3.clocked Island.io = true ∧ s3.fld 3 (R.CAP.SEL.MODE (1 : Nat)) = 2 ∧ s3.bit 3 (R.CAP.STAT.FULL (1 : Nat)) = false) ∧
    (s4.clocked Island.io = true ∧ s4.fld 3 (R.CAP.SEL.MODE (1 : Nat)) = 2 ∧ s4.bit 3 (R.CAP.STAT.FULL (1 : Nat)) = true) ∧
    (s5.clocked Island.io = true ∧ s5.fld 3 (R.CAP.SEL.MODE (1 : Nat)) = 3 ∧ s5.bit 3 (R.CAP.STAT.FULL (1 : Nat)) = false) ∧
    (s6.clocked Island.io = true ∧ s6.fld 3 (R.CAP.SEL.MODE (1 : Nat)) = 3 ∧ s6.bit 3 (R.CAP.STAT.FULL (1 : Nat)) = true) ∧
    (s7.clocked Island.io = true ∧ s7.fld 3 (R.CAP.SEL.MODE (1 : Nat)) = 1 ∧ s7.fld 3 (R.CAP.SEL.EVT (1 : Nat)) = 42 ∧ s7.capPend = { unit := (1 : Nat), ev := 42, tick := 777, isl := 0 } :: v0 ∧ s7.bit 3 (R.CAP.STAT.FULL (1 : Nat)) = false) ∧
    (s8.clocked Island.io = true ∧ s8.fld 3 (R.CAP.SEL.MODE (1 : Nat)) = 1 ∧ s8.fld 3 (R.CAP.SEL.EVT (1 : Nat)) = 42 ∧ s8.capPend = { unit := (1 : Nat), ev := 42, tick := 777, isl := 0 } :: v0 ∧ s8.bit 3 (R.CAP.STAT.FULL (1 : Nat)) = true) := by decide +kernel

theorem witness_SyncAndClocks_SyncStates_Time_1 :
    (awake.locked 3 = false ∧ awake.clocked Island.io = true ∧ 3#2 = 3) ∧
    (awake.locked 3 = false ∧ awake.clocked Island.io = true ∧ 1#2 ≠ 3 ∧ 1 ≠ awake.fld 3 R.TB.SYNC.ROLE) ∧
    (s9.locked 3 = false ∧ s9.clocked Island.io = true ∧ 1#2 ≠ 3 ∧ 1 ≠ s9.fld 3 R.TB.SYNC.ROLE ∧ 1#2 = 1 ∧ s9.syncState ≠ 0) ∧
    (awake.locked 3 = false ∧ awake.clocked Island.io = true ∧ 0#2 ≠ 3 ∧ 0 = awake.fld 3 R.TB.SYNC.ROLE) ∧
    (s10.linkPorts.contains (↑v1.port : Nat) = true ∧ s10.clocked Island.net = true ∧ (s10.fld 3 R.TB.SYNC.ROLE = 0 ∨ s10.fld 3
      R.TB.SYNC.ROLE = 2 ∧ (s10.syncTake v1).2 = false)) ∧
    (s12.fld 3 R.TB.SYNC.ROLE = 2 ∧ s12.linkPorts.contains (↑v1.port : Nat) = true ∧ s12.tbCounts = true ∧ s12.clocked
      Island.io = true ∧ s12.clocked Island.net = true ∧ (s12.syncTake v1).2 = true ∧ -100000 ≤ v1.offset ∧ s12.syncState = 2 ∧
      v1.offset.natAbs ≤ 20) ∧
    (s12.fld 3 R.TB.SYNC.ROLE = 2 ∧ s12.linkPorts.contains (↑v2.port : Nat) = true ∧ s12.tbCounts = true ∧ s12.clocked
      Island.io = true ∧ s12.clocked Island.net = true ∧ (s12.syncTake v2).2 = true ∧ -100000 ≤ v2.offset ∧ s12.syncState = 2 ∧
      20 < v2.offset.natAbs) := by
  refine ⟨?_, ?_, ?_, ?_, ?_, ?_, ?_⟩ <;> decide +kernel

theorem witness_SyncAndClocks_SyncStates_Time_2 :
    (s9.fld 3 R.TB.SYNC.ROLE = 2 ∧ s9.linkPorts.contains (↑v1.port : Nat) = true ∧ s9.tbCounts = true ∧ s9.clocked Island.io =
      true ∧ s9.clocked Island.net = true ∧ (s9.syncTake v1).2 = true ∧ -100000 ≤ v1.offset ∧ s9.syncState = 1 ∧
      v1.offset.natAbs ≤ 20) ∧
    (s11.fld 3 R.TB.SYNC.ROLE = 2 ∧ s11.linkPorts.contains (↑v1.port : Nat) = true ∧ s11.tbCounts = true ∧ s11.clocked
      Island.io = true ∧ s11.clocked Island.net = true ∧ (s11.syncTake v1).2 = true ∧ -100000 ≤ v1.offset ∧ (s11.syncState = 0
      ∨ s11.syncState = 3)) ∧
    (s11.fld 3 R.TB.SYNC.ROLE = 2 ∧ s11.linkPorts.contains (↑v3.port : Nat) = true ∧ s11.tbCounts = true ∧ s11.clocked
      Island.io = true ∧ s11.clocked Island.net = true ∧ (s11.syncTake v3).2 = true ∧ -100000 ≤ v3.offset ∧ 0 < v3.offset) ∧
    (s11.fld 3 R.TB.SYNC.ROLE = 2 ∧ s11.linkPorts.contains (↑v4.port : Nat) = true ∧ s11.tbCounts = true ∧ s11.clocked
      Island.io = true ∧ s11.clocked Island.net = true ∧ (s11.syncTake v4).2 = true ∧ -100000 ≤ v4.offset ∧ v4.offset < 0) ∧
    (s11.fld 3 R.TB.SYNC.ROLE = 2 ∧ s11.linkPorts.contains (↑v5.port : Nat) = true ∧ s11.tbCounts = true ∧ s11.clocked
      Island.io = true ∧ s11.clocked Island.net = true ∧ (s11.syncTake v5).2 = true ∧ v5.offset < -100000 ∧ s11.fixArmed =
      false) ∧
    (s13.fld 3 R.TB.SYNC.ROLE = 2 ∧ s13.linkPorts.contains (↑v5.port : Nat) = true ∧ s13.tbCounts = true ∧ s13.clocked
      Island.io = true ∧ s13.clocked Island.net = true ∧ (s13.syncTake v5).2 = true ∧ v5.offset < -100000 ∧ s13.fixArmed =
      true) ∧
    (s14.syncState = 2 ∧ s14.fld 3 R.TB.SYNC.ROLE = 2 ∧ s14.syncTick + 3 * s14.syncInterval ≤ s14.tb ∧ s14.clocked Island.io =
      true) := by
  refine ⟨?_, ?_, ?_, ?_, ?_, ?_, ?_⟩ <;> decide +kernel

theorem witness_SyncAndClocks_SyncStates_Time_3 :
    (s15.syncState = 3 ∧ s15.syncTick + s15.fld 3 R.TB.HOLDTMO.S * 100000000 ≤ s15.tb ∧ s15.clocked Island.io = true) := by decide +kernel

theorem witness_SyncAndClocks_IslandClocks_Time :
    ((1 : Nat) ≠ 0 ∧ awake.clkDead.contains (1 : Nat) = false ∧ awake.power ≠ Power.park) ∧
    ((1 : Nat) ≠ 0 ∧ s16.clkBit R.CLK.LOCK.L (1 : Nat) = true ∧ s16.power ≠ Power.park) := by decide +kernel

end Time

namespace Capture

def s6 : State :=
  { awake with tbStep := some 5 }

theorem witness_SyncAndClocks_SyncStates_Capture :
    (s6.tbStep = some 5 ∧ s6.fixArmed = false ∧ s6.tbCounts = true ∧ s6.clocked Island.io = true) := by decide +kernel

end Capture

namespace Clocks

def x1 (s : State) : State := { s with pwr := { s.pwr with xok := true } }
def s0 : State :=
  x1 awake
def s1 : State :=
  x1 ({ awake with clkDead := [12], clkLost := [12] })

theorem witness_SyncAndClocks_IslandClocks_Clocks :
    (s1.clkLost.contains (12 : Nat) = true ∧ s1.clkBit R.CLK.GATE.G (12 : Nat) = false ∧ s1.power ≠ Power.park ∧ s1.xinOut =
      false ∧ (12 : Nat) = 12 ∧ s1.ops = []) ∧
    ((1 : Nat) ≠ 0 ∧ s0.clkBit R.CLK.LOCK.L (1 : Nat) = false ∧ s0.clkBit R.CLK.GATE.G (1 : Nat) = false ∧ s0.power ≠
      Power.park ∧ s0.pwr.xok = true) := by decide +kernel

end Clocks

namespace HighSide

def hsOn (l : List (Fld × Nat)) (f : Hs → Hs := id) : State := (put (put awake 0x130 [(R.PAL.TRIP.I 0, 100), (R.PAL.RETRY.N 0, 3), (R.PAL.RETRY.INT 0, 4), (R.PAL.CFG.NBP 0, 1), (R.PAL.BP.T 0 0, 1), (R.PAL.BP.I 0 0, 500)]) (hsPg 1)
   ([(R.PG_CTRL.EN, 1), (R.HS.CFG.PAL, 0), (R.HS.SEG.NSEG, 8), (R.HS.SEG.MAP, 255), (R.HS.RATE.ICONT, 50), (R.HS.SEG.CEIL, 200), (R.HS.OUT.ON, 1), (R.HS.PERIOD.P, 1000), (R.HS.DUTY.D, 0x8000)] ++ l)).setHs 1 (f {})
def gang (s : State) : State := put s 0x0F0 [(R.BANK.GANG.GID 0, 1), (R.BANK.GANG.GID 1, 1)]
def safeSt (s : State) : State := s.setBit fltPg R.FLT.STAT.SAFE true
def s0 : State :=
  { (hsOn []) with clkDead := [15] }
def s1 : State :=
  safeSt (hsOn [])
def s2 : State :=
  hsOn [] fun h => { h with latch := true }
def s3 : State :=
  hsOn []
def s4 : State :=
  put ({ (hsOn []) with clauses := [(0, { active := true })] }) 65 [(R.CL.VERB.VERB 0, 1), (R.CL.VERB.OBJ 0, 1)]
def s5 : State :=
  hsOn [(R.HS.STAT.GATE, 1), (R.HS.STAT.WKIND, 1)]
def s6 : State :=
  { (hsOn [(R.HS.STAT.GATE, 1)]) with tb := 100000 }
def s7 : State :=
  { (hsOn [(R.HS.STAT.GATE, 0)]) with tb := 100000 }
def s8 : State :=
  hsOn [(R.HS.STAT.GATE, 1)] fun h => { h with limHist := [(900, 5)] }
def s9 : State :=
  hsOn [(R.HS.STAT.WKIND, 2)]
def s10 : State :=
  gang (hsOn [] fun h => { h with latch := true })
def s11 : State :=
  hsOn [(R.HS.STAT.WKIND, 2), (R.HS.STAT.RETRY, 1)] fun h => { h with retryEnd := some 5000 }
def s12 : State :=
  hsOn [(R.HS.STAT.WKIND, 2)] fun h => { h with testEnd := some 900 }
def s13 : State :=
  hsOn [(R.HS.STAT.WKIND, 1), (R.HS.STAT.RETRY, 1)] fun h => { h with retryEnd := some 900 }
def s14 : State :=
  { (hsOn [(R.HS.STAT.WKIND, 1)] fun h => { h with act := some 900 }) with tb := 50000 }
def s15 : State :=
  { (hsOn [(R.HS.STAT.WKIND, 0)] fun h => { h with act := some 900 }) with tb := 50000 }
def s16 : State :=
  { (put (hsOn [] fun h => { h with act := some 900 }) 304 [(R.PAL.CFG.NBP 0, 2), (R.PAL.BP.T 0 1, 3)]) with tb := 1000 }
def s17 : State :=
  lockPg awake (hsPg 1)
def s18 : State :=
  lockPg awake (vlPg 0)
def s19 : State :=
  put awake (ioPg 0) [(R.IO.CFG.MODE, 4)]
def s20 : State :=
  lockPg (put awake (ioPg 0) [(R.IO.CFG.MODE, 4)]) (ioPg 0)
def s21 : State :=
  lockPg awake (ambPg 0)
def s22 : State :=
  lockPg awake mxPg
def s23 : State :=
  lockPg awake pxPg
def s24 : State :=
  { awake with clkDead := [15] }
def s25 : State :=
  { (hsOn []) with tbRun := false, senseAt := [(1, some 1000), (0, some 1000)] }
def s26 : State :=
  { awake with tb := 1000 }
def v1 : OutReg :=
  OutReg.hs 1

theorem witness_ChannelChain_ChannelPrecedence :
    (s0.gid (1 : Nat) = 0 ∧ s0.enabled (hsPg (1 : Nat)) = true ∧ s0.heldBit (1 : Nat) = false ∧ s0.clocked Island.pwr = false) ∧
    (s1.gid (1 : Nat) = 0 ∧ s1.enabled (hsPg (1 : Nat)) = true ∧ s1.heldBit (1 : Nat) = false ∧ s1.clocked Island.pwr = true ∧
      s1.safe = true ∧ s1.fld (hsPg (1 : Nat)) R.HS.CFG.LIMP = 0) ∧
    (s2.gid (1 : Nat) = 0 ∧ s2.enabled (hsPg (1 : Nat)) = true ∧ s2.heldBit (1 : Nat) = false ∧ s2.clocked Island.pwr = true ∧
      s2.safe = false ∧ ((s2.hsAt (1 : Nat)).latch || (s2.hsAt (1 : Nat)).retryEnd.isSome || s2.fld (hsPg (1 : Nat))
      R.HS.SEG.NSEG == 0) = true) ∧
    (s3.gid (1 : Nat) = 0 ∧ s3.enabled (hsPg (1 : Nat)) = true ∧ s3.heldBit (1 : Nat) = false ∧ s3.clocked Island.pwr = true ∧
      s3.safe = false ∧ ((s3.hsAt (1 : Nat)).latch || (s3.hsAt (1 : Nat)).retryEnd.isSome || s3.fld (hsPg (1 : Nat))
      R.HS.SEG.NSEG == 0) = false ∧ s3.govClauseOf [(1 : Nat)] = none) ∧
    (s4.gid (1 : Nat) = 0 ∧ s4.enabled (hsPg (1 : Nat)) = true ∧ s4.heldBit (1 : Nat) = false ∧ s4.clocked Island.pwr = true ∧
      s4.safe = false ∧ ((s4.hsAt (1 : Nat)).latch || (s4.hsAt (1 : Nat)).retryEnd.isSome || s4.fld (hsPg (1 : Nat))
      R.HS.SEG.NSEG == 0) = false ∧ s4.govClauseOf [(1 : Nat)] = some 0) := by decide +kernel

theorem witness_ChannelChain_ChannelTrips_1 :
    (((s5.clocked Island.pwr = true ∧ s5.bit (hsPg (1 : Nat)) R.HS.STAT.GATE = true ∧ s5.hsBlocked (1 : Nat) = false) ∧ Max.max
      ((s5.hsAt (1 : Nat)).edge.getD 0) (s5.hsAt (1 : Nat)).filtAt + 200 ≤ s5.tb ∧ (¬∃ e ∈ (s5.hsAt (s5.hsLead (1 :
      Nat))).limHist, 1001 ≤ (↑e.2 : Int) ∧ s5.tb < e.1 + 200) ∧ (↑(s5.hsLimitAt (1 : Nat) (Option.map (fun a => s5.tb - 200 -
      a) (s5.hsAt (s5.hsLead (1 : Nat))).act)) : Int) < 1001) ∧ (s5.fld (hsPg (s5.hsLead (1 : Nat))) R.HS.STAT.WKIND ≠ 0 ∧
      s5.fld (hsPg (s5.hsLead (1 : Nat))) R.HS.STAT.RCNT < s5.palFld (s5.hsPal (s5.hsLead (1 : Nat))) R.PAL.RETRY.N ∧ s5.fld
      (hsPg (s5.hsLead (1 : Nat))) R.PG_STAT.GOV ≠ 3)) ∧
    (((s6.clocked Island.pwr = true ∧ s6.bit (hsPg (1 : Nat)) R.HS.STAT.GATE = true ∧ s6.hsBlocked (1 : Nat) = false) ∧ Max.max
      ((s6.hsAt (1 : Nat)).edge.getD 0) (s6.hsAt (1 : Nat)).filtAt + 200 ≤ s6.tb ∧ (¬∃ e ∈ (s6.hsAt (s6.hsLead (1 :
      Nat))).limHist, 1001 ≤ (↑e.2 : Int) ∧ s6.tb < e.1 + 200) ∧ (↑(s6.hsLimitAt (1 : Nat) (Option.map (fun a => s6.tb - 200 -
      a) (s6.hsAt (s6.hsLead (1 : Nat))).act)) : Int) < 1001) ∧ (¬(s6.fld (hsPg (s6.hsLead (1 : Nat))) R.HS.STAT.WKIND ≠ 0 ∧
      s6.fld (hsPg (s6.hsLead (1 : Nat))) R.HS.STAT.RCNT < s6.palFld (s6.hsPal (s6.hsLead (1 : Nat))) R.PAL.RETRY.N ∧ s6.fld
      (hsPg (s6.hsLead (1 : Nat))) R.PG_STAT.GOV ≠ 3))) ∧
    ((¬(s7.clocked Island.pwr = true ∧ s7.bit (hsPg (0 : Nat)) R.HS.STAT.GATE = true ∧ s7.hsBlocked (0 : Nat) = false))) ∧
    (Max.max ((s7.hsAt (0 : Nat)).edge.getD 0) (s7.hsAt (0 : Nat)).filtAt + 200 ≤ s7.tb ∧ (¬∃ e ∈ (s7.hsAt (s7.hsLead (0 :
      Nat))).limHist, 0 ≤ (↑e.2 : Int) ∧ s7.tb < e.1 + 200) ∧ (0 ≤ (↑(s7.hsLimitAt (0 : Nat) (Option.map (fun a => s7.tb - 0 -
      a) (s7.hsAt (s7.hsLead (0 : Nat))).act)) : Int)) ∧ (0 ≤ (↑(s7.hsLimitAt (0 : Nat) (Option.map (fun a => s7.tb - 200 - a)
      (s7.hsAt (s7.hsLead (0 : Nat))).act)) : Int))) ∧
    ((900, 5) ∈ (s8.hsAt (s8.hsLead (1 : Nat))).limHist ∧ 0 ≤ (5 : Int) ∧ s8.tb < 900 + 200) ∧
    ((s6.clocked Island.pwr = true ∧ s6.bit (hsPg (1 : Nat)) R.HS.STAT.GATE = true ∧ s6.hsBlocked (1 : Nat) = false) ∧ Max.max
      ((s6.hsAt (1 : Nat)).edge.getD 0) (s6.hsAt (1 : Nat)).filtAt + 1000 ≤ s6.tb ∧ ((if (1 : Nat) < 16 then 2000 else 500) <
      2001)) ∧
    ((¬(s7.clocked Island.pwr = true ∧ s7.bit (hsPg (0 : Nat)) R.HS.STAT.GATE = true ∧ s7.hsBlocked (0 : Nat) = false) ∨ 0 ≤ if
      (0 : Nat) < 16 then 2000 else 500)) := by decide +kernel

theorem witness_ChannelChain_ChannelTrips_2 :
    ((s7.clocked Island.pwr = true ∧ s7.bit (hsPg (0 : Nat)) R.HS.STAT.GATE = false ∧ s7.hsBlocked (0 : Nat) = false) ∧ Max.max
      (Max.max ((s7.hsAt (0 : Nat)).edge.getD 0 + s7.palFld (s7.hsPal (0 : Nat)) R.PAL.BLANK.TBLK) (s7.hsAt (0 : Nat)).filtAt)
      ((s7.hsAt (0 : Nat)).stuckAt.getD 0) + 10000 ≤ s7.tb ∧ ((if (0 : Nat) < 16 then 500 else 125) < 501)) ∧
    ((¬(s7.clocked Island.pwr = true ∧ s7.bit (hsPg (0 : Nat)) R.HS.STAT.GATE = false ∧ s7.hsBlocked (0 : Nat) = false) ∨ 0 ≤
      if (0 : Nat) < 16 then 500 else 125)) := by decide +kernel

theorem witness_ChannelCommands_ChannelCommands_1 :
    (s2.clocked Island.pwr = true ∧ (s2.locked (hsPg (1 : Nat)) = false ∧ s2.hsLead (1 : Nat) = (1 : Nat)) ∧ (∃ m ∈ s2.hsUnit
      (1 : Nat), (s2.hsAt m).latch = true)) ∧
    (awake.clocked Island.pwr = true ∧ (¬(awake.locked (hsPg (0 : Nat)) = false ∧ awake.hsLead (0 : Nat) = (0 : Nat)) ∨ ¬∃ m ∈
      awake.hsUnit (0 : Nat), (awake.hsAt m).latch = true)) ∧
    (awake.clocked Island.pwr = true ∧ (awake.locked (hsPg (0 : Nat)) = false ∧ awake.hsLead (0 : Nat) = (0 : Nat)) ∧ (¬∃ m ∈
      awake.hsUnit (0 : Nat), (awake.hsAt m).latch = true) ∧ awake.fld (hsPg (0 : Nat)) R.HS.STAT.WKIND = 0 ∧ 1#16 ≠ 0) ∧
    (s9.clocked Island.pwr = true ∧ (s9.locked (hsPg (1 : Nat)) = false ∧ s9.hsLead (1 : Nat) = (1 : Nat)) ∧ ((∃ m ∈ s9.hsUnit
      (1 : Nat), (s9.hsAt m).latch = true) ∨ s9.fld (hsPg (1 : Nat)) R.HS.STAT.WKIND ≠ 0) ∧ 1#16 ≠ 0) ∧
    (s10.clocked Island.pwr = true ∧ (s10.locked (hsPg (1 : Nat)) = true ∨ 1#16 ≠ 0 ∧ s10.hsLead (1 : Nat) ≠ (1 : Nat))) ∧
    (awake.clocked Island.pwr = true ∧ awake.locked (hsPg (0 : Nat)) = false ∧ 0#16 = 0) ∧
    (s10.clocked Island.pwr = true ∧ (¬(s10.locked (hsPg (1 : Nat)) = false ∧ s10.hsLead (1 : Nat) = (1 : Nat)))) := by decide +kernel

theorem witness_ChannelCommands_ChannelCommands_2 :
    (awake.clocked Island.pwr = true ∧ (awake.locked (hsPg (0 : Nat)) = false ∧ awake.hsLead (0 : Nat) = (0 : Nat)) ∧
      (awake.hsAt (0 : Nat)).retryEnd = none ∧ awake.fld (hsPg (0 : Nat)) R.HS.STAT.WKIND = 0) ∧
    (s9.clocked Island.pwr = true ∧ (s9.locked (hsPg (1 : Nat)) = false ∧ s9.hsLead (1 : Nat) = (1 : Nat)) ∧ (s9.hsAt (1 :
      Nat)).retryEnd = none ∧ s9.fld (hsPg (1 : Nat)) R.HS.STAT.WKIND ≠ 0) ∧
    (s11.clocked Island.pwr = true ∧ (s11.locked (hsPg (1 : Nat)) = false ∧ s11.hsLead (1 : Nat) = (1 : Nat)) ∧ (s11.hsAt (1 :
      Nat)).retryEnd ≠ none) := by decide +kernel

theorem witness_ChannelCommands_WindowTiming :
    (900 ≤ s12.tb ∧ s12.clocked Island.pwr = true ∧ (s12.hsAt (1 : Nat)).testEnd = some 900 ∧ s12.fld (hsPg (1 : Nat))
      R.HS.STAT.WKIND = 2 ∧ (s12.hsAt (1 : Nat)).retryEnd = none) ∧
    (900 ≤ s13.tb ∧ s13.clocked Island.pwr = true ∧ (s13.hsAt (s13.hsLead (1 : Nat))).retryEnd = some 900) ∧
    (900 ≤ s14.tb ∧ s14.clocked Island.pwr = true ∧ s14.hsLead (1 : Nat) = (1 : Nat) ∧ (s14.hsAt (1 : Nat)).act = some 900 ∧
      s14.hsNbp (1 : Nat) ≠ 0 ∧ (∀ k < s14.hsNbp (1 : Nat), 900 + s14.hsBpT (1 : Nat) k ≤ s14.tb) ∧ (s14.fld (hsPg (1 : Nat))
      R.HS.STAT.WKIND = 1 ∨ s14.fld (hsPg (1 : Nat)) R.HS.STAT.WKIND = 3)) ∧
    (900 ≤ s15.tb ∧ s15.clocked Island.pwr = true ∧ s15.hsLead (1 : Nat) = (1 : Nat) ∧ (s15.hsAt (1 : Nat)).act = some 900 ∧
      s15.hsNbp (1 : Nat) ≠ 0 ∧ (∀ k < s15.hsNbp (1 : Nat), 900 + s15.hsBpT (1 : Nat) k ≤ s15.tb) ∧ s15.fld (hsPg (1 : Nat))
      R.HS.STAT.WKIND = 0) ∧
    (900 ≤ s16.tb ∧ s16.clocked Island.pwr = true ∧ s16.hsLead (1 : Nat) = (1 : Nat) ∧ (s16.hsAt (1 : Nat)).act = some 900 ∧
      s16.tb < 900 + s16.hsBpT (1 : Nat) 0 ∧ s16.hsBpT (1 : Nat) 0 < s16.hsEnvEnd (1 : Nat) ∧ s16.tickComes (900 + s16.hsBpT (1
      : Nat) 0) = true) := by decide +kernel

theorem witness_ChannelCommands_LiveWrites_1 :
    (awake.clocked Island.pwr = true ∧ awake.locked (hsPg (0 : Nat)) = false) ∧
    (s17.clocked Island.pwr = true ∧ s17.locked (hsPg (1 : Nat)) = true) ∧
    (awake.clocked Island.pwr = true ∧ awake.locked (vlPg (0 : Nat)) = false) ∧
    (s18.clocked Island.pwr = true ∧ s18.locked (vlPg (0 : Nat)) = true) ∧
    (s19.clocked Island.pwr = true ∧ s19.ioMode (0 : Nat) = 4 ∧ s19.locked (ioPg (0 : Nat)) = false) ∧
    (s20.clocked Island.pwr = true ∧ s20.ioMode (0 : Nat) = 4 ∧ s20.locked (ioPg (0 : Nat)) = true) ∧
    (awake.clocked Island.pwr = true ∧ awake.ioMode (0 : Nat) ≠ 4) := by decide +kernel

theorem witness_ChannelCommands_LiveWrites_2 :
    (awake.clocked Island.pwr = true ∧ awake.locked (ambPg (0 : Nat)) = false) ∧
    (s21.clocked Island.pwr = true ∧ s21.locked (ambPg (0 : Nat)) = true) ∧
    (awake.clocked Island.pwr = true ∧ awake.locked mxPg = false) ∧
    (s22.clocked Island.pwr = true ∧ s22.locked mxPg = true) ∧
    (awake.clocked Island.io = true ∧ awake.locked pxPg = false) ∧
    (s23.clocked Island.io = true ∧ s23.locked pxPg = true) ∧
    ((s24.clocked (if v1 = OutReg.pxc then Island.io else Island.pwr) = false)) := by decide +kernel

theorem witness_SenseCodes_SenseCodes :
    (s25.clocked Island.pwr = true ∧ s25.tb % 100 = 0 ∧ (decide (tget (fun x => none) s25.senseAt (0 : Nat) = some s25.tb) =
      true) ∧ s25.tickComes (s25.tb + 100) = false) ∧
    (s26.clocked Island.pwr = true ∧ s26.tb % 100 = 0 ∧ (decide (tget (fun x => none) s26.senseAt (0 : Nat) = some s26.tb) =
      false)) := by decide +kernel

end HighSide

namespace Bridges

def hsOn (l : List (Fld × Nat)) (f : Hs → Hs := id) : State := (put (put awake 0x130 [(R.PAL.TRIP.I 0, 100), (R.PAL.RETRY.N 0, 3), (R.PAL.RETRY.INT 0, 4), (R.PAL.CFG.NBP 0, 1), (R.PAL.BLANK.TBLK 0, 100), (R.PAL.BP.T 0 0, 1), (R.PAL.BP.I 0 0, 500)]) (hsPg 1)
   ([(R.PG_CTRL.EN, 1), (R.HS.CFG.PAL, 0), (R.HS.SEG.NSEG, 8), (R.HS.SEG.MAP, 255), (R.HS.RATE.ICONT, 50), (R.HS.SEG.CEIL, 200), (R.HS.OUT.ON, 1), (R.HS.PERIOD.P, 1000), (R.HS.DUTY.D, 0x8000)] ++ l)).setHs 1 (f {})
def off (f : Hs → Hs) : State := hsOn [(R.HS.OUT.ON, 0), (R.HS.CFG.OLOFF, 1)] fun h => f { h with offRes := none }
def xs (l : List XEdge) (g : Nat) : State := (put (put ((hsOn [] fun h => { h with xt := some l }).setHs 0 { edge := some 950 }) (hsPg 0) [(R.HS.STAT.GATE, g)]) (hsPg 24) [(R.HS.STAT.GATE, g)]).setHs 24 { edge := some 950 }
def brS (l : List (Fld × Nat)) (f : Bridge → Bridge := id) : State := ((put (put awake brPg [(R.PG_CTRL.EN, 1)]) brPg ([(R.BRIDGE.CFG.EN 0, 1), (R.BRIDGE.CFG.LEGA 0, 0), (R.BRIDGE.CFG.LEGB 0, 1), (R.BRIDGE.CFG.EN 1, 1), (R.BRIDGE.CFG.LEGA 1, 1), (R.BRIDGE.CFG.LEGB 1, 2),
  (R.BRIDGE.LIM.ILIM 0, 100), (R.BRIDGE.PERIOD.P 0, 1000), (R.BRIDGE.DUTY.D 0, 0xFFFF), (R.BRIDGE.PERIOD.P 1, 1000), (R.BRIDGE.CFG.OLOFF 0, 1)] ++ l)).setFld (legPg 0) R.PG_CTRL.EN 1).setFld (legPg 1) R.PG_CTRL.EN 1 |> fun s => { s with bridges := [(0, f {})] }
def s0 : State :=
  off id
def s1 : State :=
  { (off fun h => { h with offRes := some DiagRes.shortV }) with tb := 200000 }
def s2 : State :=
  { (off id) with tb := 30100 }
def s3 : State :=
  { (off fun h => { h with cyc := some 1000 }) with tb := 131000 }
def s4 : State :=
  { (off fun h => { h with offRes := some DiagRes.openLoad }) with tb := 200000 }
def s5 : State :=
  off fun h => { h with cmd := OutCmd.pwm 1000 0 65535 }
def s6 : State :=
  off fun h => { h with cmd := OutCmd.pwm 1000 0 65535, phase := 3, phHigh := some 2 }
def s7 : State :=
  off fun h => { h with cmd := OutCmd.pwm 1000 0 65535, phase := 3, phSeen := some 3 }
def s8 : State :=
  xs [] 1
def s9 : State :=
  xs [{ sw := 0, rise := 2, fall := 1, last := 0 }] 0
def s10 : State :=
  xs [{ sw := 24, rise := 1, fall := 0, last := 950 }] 1
def s11 : State :=
  { (hsOn []) with clkDead := [15] }
def s12 : State :=
  hsOn []
def s13 : State :=
  hsOn [(R.HS.STAT.GATE, 1)]
def s14 : State :=
  put (hsOn [(R.HS.STAT.GATE, 1), (R.HS.SEG.MAP, 1)]) 240 [(R.BANK.BUDGET.I, 10)]
def s15 : State :=
  { ((awake.setDie 0 { uv := true, ldump := true, gndl := true, revb := true }).setDie 1 { uv := true, ldump := true, gndl := true, revb := true }) with tb := 200000 }
def s16 : State :=
  hsOn [] fun h => { h with tsd := true }
def s17 : State :=
  { (brS []) with tb := 200000 }
def s18 : State :=
  lockPg (brS []) brPg
def s19 : State :=
  brS [(R.BRIDGE.CFG.PKEN 0, 1), (R.BRIDGE.CFG.PLEV 0, 1)]
def s20 : State :=
  brS [(R.BRIDGE.CFG.PKEN 0, 1)]
def s21 : State :=
  { (brS []) with clkDead := [15] }
def s22 : State :=
  (brS [(R.BRIDGE.OUT.CMD 0, 2)]).setBit fltPg R.FLT.STAT.SAFE true
def s23 : State :=
  (brS [(R.BRIDGE.OUT.CMD 0, 2)]).setLeg 0 { latch := true, want := (false, false) }
def s24 : State :=
  { (brS [(R.BRIDGE.OUT.CMD 0, 2)]) with bridges := [(1, { cmd := BrCmd.fwd 65535, applied := BrCmd.fwd 65535, dir := 1 })] }
def s25 : State :=
  brS [(R.BRIDGE.OUT.CMD 0, 2)] fun b => { b with cmd := BrCmd.fwd 65535, applied := BrCmd.fwd 65535, startEnd := some 900 }
def s26 : State :=
  brS [(R.BRIDGE.RIP.EN 0, 1), (R.BRIDGE.TMO.STALLT 0, 0), (R.BRIDGE.CFG.PKEN 0, 1), (R.BRIDGE.OUT.CMD 0, 4)] fun b => { b with cmd := BrCmd.fwd 65535, applied := BrCmd.fwd 65535, parkRun := true, parkEnd := some 900 }
def s27 : State :=
  { (brS [] fun b => { b with diag := some DiagRes.shortG }) with tb := 200000 }
def v0 : Vector Int 8 :=
  #v[0, 0, 0, 0, 0, 0, 0, 0]
def v1 : Vector Int 8 :=
  #v[0, 200000, 0, 0, 0, 0, 0, -5]
def v2 : SegFinding :=
  SegFinding.hot 21 1000000000

theorem witness_LoadDiagnosis_OffDiagnosis_1 :
    (s0.clocked Island.pwr = true ∧ s0.bit (hsPg (1 : Nat)) R.HS.CFG.OLOFF = true ∧ s0.enabled (hsPg (1 : Nat)) = true ∧
      s0.hsBlocked (1 : Nat) = false ∧ (s0.dieAt (hsDie (1 : Nat))).ldump = false ∧ 0 < 6000 ∧ (s0.hsAt (1 : Nat)).cmd.onTime =
      false) ∧
    (s2.clocked Island.pwr = true ∧ s2.bit (hsPg (1 : Nat)) R.HS.CFG.OLOFF = true ∧ s2.enabled (hsPg (1 : Nat)) = true ∧
      s2.hsBlocked (1 : Nat) = false ∧ (s2.dieAt (hsDie (1 : Nat))).ldump = false ∧ 6000 ≤ 6000 ∧ (s2.hsAt (1 :
      Nat)).cmd.onTime = false ∧ s2.bit (hsPg (1 : Nat)) R.HS.STAT.GATE = false ∧ (((s2.hsAt (1 : Nat)).cyc.elim (Max.max
      (Max.max (s2.hsAt (1 : Nat)).offFrom ((s2.hsAt (1 : Nat)).edge.getD 0) + s2.palFld (s2.hsPal (1 : Nat)) R.PAL.BLANK.TBLK)
      (s2.hsAt (1 : Nat)).diagAt + 30000) fun x => x + 130000) ≤ s2.tb) ∧ (s2.hsAt (1 : Nat)).cyc = none ∧ s2.tb = Max.max
      (Max.max (s2.hsAt (1 : Nat)).offFrom ((s2.hsAt (1 : Nat)).edge.getD 0) + s2.palFld (s2.hsPal (1 : Nat)) R.PAL.BLANK.TBLK)
      (s2.hsAt (1 : Nat)).diagAt + 30000) ∧
    (s3.clocked Island.pwr = true ∧ s3.bit (hsPg (1 : Nat)) R.HS.CFG.OLOFF = true ∧ s3.enabled (hsPg (1 : Nat)) = true ∧
      s3.hsBlocked (1 : Nat) = false ∧ (s3.dieAt (hsDie (1 : Nat))).ldump = false ∧ 6000 ≤ 6000 ∧ (s3.hsAt (1 :
      Nat)).cmd.onTime = false ∧ s3.bit (hsPg (1 : Nat)) R.HS.STAT.GATE = false ∧ (((s3.hsAt (1 : Nat)).cyc.elim (Max.max
      (Max.max (s3.hsAt (1 : Nat)).offFrom ((s3.hsAt (1 : Nat)).edge.getD 0) + s3.palFld (s3.hsPal (1 : Nat)) R.PAL.BLANK.TBLK)
      (s3.hsAt (1 : Nat)).diagAt + 30000) fun x => x + 130000) ≤ s3.tb) ∧ (s3.hsAt (1 : Nat)).cyc = some 1000 ∧ s3.tb = 1000 +
      130000) ∧
    (s1.clocked Island.pwr = true ∧ s1.bit (hsPg (1 : Nat)) R.HS.CFG.OLOFF = true ∧ s1.enabled (hsPg (1 : Nat)) = true ∧
      s1.hsBlocked (1 : Nat) = false ∧ (s1.dieAt (hsDie (1 : Nat))).ldump = false ∧ 6000 ≤ 7000 ∧ (s1.hsAt (1 :
      Nat)).cmd.onTime = false ∧ s1.bit (hsPg (1 : Nat)) R.HS.STAT.GATE = false ∧ (((s1.hsAt (1 : Nat)).cyc.elim (Max.max
      (Max.max (s1.hsAt (1 : Nat)).offFrom ((s1.hsAt (1 : Nat)).edge.getD 0) + s1.palFld (s1.hsPal (1 : Nat)) R.PAL.BLANK.TBLK)
      (s1.hsAt (1 : Nat)).diagAt + 30000) fun x => x + 130000) ≤ s1.tb) ∧ ((s1.hsAt (1 : Nat)).offRes = some (if 5500 < 6000 ∧
      7000 ≤ 7000 then DiagRes.shortV else if 2000 + (↑(s1.palFld (s1.hsPal (1 : Nat)) R.PAL.OL.VTH) : Int) * 10 < 0 then
      DiagRes.openLoad else DiagRes.normal)) ∧ ((if 5500 < 6000 ∧ 7000 ≤ 7000 then DiagRes.shortV else if 2000 + (↑(s1.palFld
      (s1.hsPal (1 : Nat)) R.PAL.OL.VTH) : Int) * 10 < 0 then DiagRes.openLoad else DiagRes.normal) = DiagRes.shortV) ∧
      (s1.hsAt (1 : Nat)).offConf = false) ∧
    (s4.clocked Island.pwr = true ∧ s4.bit (hsPg (1 : Nat)) R.HS.CFG.OLOFF = true ∧ s4.enabled (hsPg (1 : Nat)) = true ∧
      s4.hsBlocked (1 : Nat) = false ∧ (s4.dieAt (hsDie (1 : Nat))).ldump = false ∧ 6000 ≤ 6000 ∧ (s4.hsAt (1 :
      Nat)).cmd.onTime = false ∧ s4.bit (hsPg (1 : Nat)) R.HS.STAT.GATE = false ∧ (((s4.hsAt (1 : Nat)).cyc.elim (Max.max
      (Max.max (s4.hsAt (1 : Nat)).offFrom ((s4.hsAt (1 : Nat)).edge.getD 0) + s4.palFld (s4.hsPal (1 : Nat)) R.PAL.BLANK.TBLK)
      (s4.hsAt (1 : Nat)).diagAt + 30000) fun x => x + 130000) ≤ s4.tb) ∧ ((s4.hsAt (1 : Nat)).offRes = some (if 5500 < 0 ∧
      7000 ≤ 6000 then DiagRes.shortV else if 2000 + (↑(s4.palFld (s4.hsPal (1 : Nat)) R.PAL.OL.VTH) : Int) * 10 < 6000 then
      DiagRes.openLoad else DiagRes.normal)) ∧ ((if 5500 < 0 ∧ 7000 ≤ 6000 then DiagRes.shortV else if 2000 + (↑(s4.palFld
      (s4.hsPal (1 : Nat)) R.PAL.OL.VTH) : Int) * 10 < 6000 then DiagRes.openLoad else DiagRes.normal) = DiagRes.openLoad)) ∧
    (s1.clocked Island.pwr = true ∧ s1.bit (hsPg (1 : Nat)) R.HS.CFG.OLOFF = true ∧ s1.enabled (hsPg (1 : Nat)) = true ∧
      s1.hsBlocked (1 : Nat) = false ∧ (s1.dieAt (hsDie (1 : Nat))).ldump = false ∧ 6000 ≤ 6000 ∧ (s1.hsAt (1 :
      Nat)).cmd.onTime = false ∧ s1.bit (hsPg (1 : Nat)) R.HS.STAT.GATE = false ∧ (((s1.hsAt (1 : Nat)).cyc.elim (Max.max
      (Max.max (s1.hsAt (1 : Nat)).offFrom ((s1.hsAt (1 : Nat)).edge.getD 0) + s1.palFld (s1.hsPal (1 : Nat)) R.PAL.BLANK.TBLK)
      (s1.hsAt (1 : Nat)).diagAt + 30000) fun x => x + 130000) ≤ s1.tb) ∧ ((s1.hsAt (1 : Nat)).offRes ≠ some (if 5500 < 0 ∧
      7000 ≤ 6000 then DiagRes.shortV else if 2000 + (↑(s1.palFld (s1.hsPal (1 : Nat)) R.PAL.OL.VTH) : Int) * 10 < 0 then
      DiagRes.openLoad else DiagRes.normal) ∨ (if 5500 < 0 ∧ 7000 ≤ 6000 then DiagRes.shortV else if 2000 + (↑(s1.palFld
      (s1.hsPal (1 : Nat)) R.PAL.OL.VTH) : Int) * 10 < 0 then DiagRes.openLoad else DiagRes.normal) = DiagRes.normal)) ∧
    (s6.clocked Island.pwr = true ∧ s6.bit (hsPg (1 : Nat)) R.HS.CFG.OLOFF = true ∧ s6.enabled (hsPg (1 : Nat)) = true ∧
      s6.hsBlocked (1 : Nat) = false ∧ (s6.dieAt (hsDie (1 : Nat))).ldump = false ∧ (s6.hsAt (1 : Nat)).cmd.onTime = true ∧
      s6.bit (hsPg (1 : Nat)) R.HS.STAT.GATE = false ∧ (s6.hsAt (1 : Nat)).phSeen ≠ some (s6.hsAt (1 : Nat)).phase ∧ 7000 ≤
      7000 ∧ (s6.hsAt (1 : Nat)).edge.getD 0 + s6.palFld (s6.hsPal (1 : Nat)) R.PAL.BLANK.TBLK ≤ s6.tb ∧ (s6.hsAt (1 :
      Nat)).gen.changesBefore s6.tb (s6.tb + 200) = false ∧ 200 ≤ 200 ∧ 5500 < 6000 ∧ (s6.hsAt (1 : Nat)).phHigh = some
      ((s6.hsAt (1 : Nat)).phase - 1) ∧ (s6.hsAt (1 : Nat)).offConf = false) := by
  refine ⟨?_, ?_, ?_, ?_, ?_, ?_, ?_⟩ <;> decide +kernel

theorem witness_LoadDiagnosis_OffDiagnosis_2 :
    (s5.clocked Island.pwr = true ∧ s5.bit (hsPg (1 : Nat)) R.HS.CFG.OLOFF = true ∧ s5.enabled (hsPg (1 : Nat)) = true ∧
      s5.hsBlocked (1 : Nat) = false ∧ (s5.dieAt (hsDie (1 : Nat))).ldump = false ∧ (s5.hsAt (1 : Nat)).cmd.onTime = true ∧
      s5.bit (hsPg (1 : Nat)) R.HS.STAT.GATE = false ∧ (s5.hsAt (1 : Nat)).phSeen ≠ some (s5.hsAt (1 : Nat)).phase ∧ 7000 ≤
      7000 ∧ (s5.hsAt (1 : Nat)).edge.getD 0 + s5.palFld (s5.hsPal (1 : Nat)) R.PAL.BLANK.TBLK ≤ s5.tb ∧ (s5.hsAt (1 :
      Nat)).gen.changesBefore s5.tb (s5.tb + 200) = false ∧ 200 ≤ 200 ∧ 5500 < 6000 ∧ (s5.hsAt (1 : Nat)).phHigh ≠ some
      ((s5.hsAt (1 : Nat)).phase - 1)) ∧
    (s5.clocked Island.pwr = true ∧ s5.bit (hsPg (1 : Nat)) R.HS.CFG.OLOFF = true ∧ s5.enabled (hsPg (1 : Nat)) = true ∧
      s5.hsBlocked (1 : Nat) = false ∧ (s5.dieAt (hsDie (1 : Nat))).ldump = false ∧ (s5.hsAt (1 : Nat)).cmd.onTime = true ∧
      s5.bit (hsPg (1 : Nat)) R.HS.STAT.GATE = false ∧ (s5.hsAt (1 : Nat)).phSeen ≠ some (s5.hsAt (1 : Nat)).phase ∧ 7000 ≤
      7000 ∧ (s5.hsAt (1 : Nat)).edge.getD 0 + s5.palFld (s5.hsPal (1 : Nat)) R.PAL.BLANK.TBLK ≤ s5.tb ∧ (s5.hsAt (1 :
      Nat)).gen.changesBefore s5.tb (s5.tb + 200) = false ∧ 200 ≤ 200 ∧ 0 ≤ 5500) ∧
    (s7.clocked Island.pwr = true ∧ s7.bit (hsPg (1 : Nat)) R.HS.CFG.OLOFF = true ∧ s7.enabled (hsPg (1 : Nat)) = true ∧
      s7.hsBlocked (1 : Nat) = false ∧ (s7.dieAt (hsDie (1 : Nat))).ldump = false ∧ (s7.hsAt (1 : Nat)).phSeen = some (s7.hsAt
      (1 : Nat)).phase) ∧
    (s0.clocked Island.pwr = true ∧ s0.bit (hsPg (1 : Nat)) R.HS.CFG.OLOFF = true ∧ s0.enabled (hsPg (1 : Nat)) = true ∧
      s0.hsBlocked (1 : Nat) = false ∧ (s0.dieAt (hsDie (1 : Nat))).ldump = false ∧ 0 < 200) := by
  refine ⟨?_, ?_, ?_, ?_⟩ <;> decide +kernel

theorem witness_LoadDiagnosis_CrossTests :
    (s8.gid (1 : Nat) = 0 ∧ 1 ≠ 0 ∧ s8.clocked Island.pwr = true ∧ s8.enabled (hsPg (1 : Nat)) = true ∧ (s8.hsAt (1 : Nat)).xt
      = some [] ∧ s8.xEdgeSeen (1 : Nat) (XSwitch.hs 0) true = some 950) ∧
    (s9.gid (1 : Nat) = 0 ∧ 1 ≠ 0 ∧ s9.clocked Island.pwr = true ∧ s9.enabled (hsPg (1 : Nat)) = true ∧ 0 ≠ 950 ∧ (s9.hsAt (1 : Nat)).xt = some [{ sw := (0 : Nat), rise := 2, fall := 1, last := 0 }] ∧ s9.xEdgeSeen (1 : Nat) (XSwitch.hs 0) false = some 950) ∧
    (s10.gid (1 : Nat) = 0 ∧ 1 ≠ 24 ∧ s10.clocked Island.pwr = true ∧ s10.enabled (hsPg (1 : Nat)) = true ∧ (s10.hsAt (1 : Nat)).xt = some [{ sw := (24 : Nat), rise := 1, fall := 0, last := 950 }] ∧ s10.xEdgeSeen (1 : Nat) (XSwitch.hs 24) true = some 950) := by decide +kernel

theorem witness_LoadDiagnosis_BudgetAndRetouch :
    ((List.foldl (· + ·) 0 (List.map (fun c => Max.max 0 c) v0.toList) ≤ (↑(s11.fld (240 + (0 : Nat)) R.BANK.BUDGET.I) : Int) *
      100)) ∧
    (s11.clocked Island.pwr = false) ∧
    (((↑(s12.fld (240 + (2 : Nat)) R.BANK.BUDGET.I) : Int) * 100 < List.foldl (· + ·) 0 (List.map (fun c => Max.max 0 c)
      v1.toList)) ∧ s12.clocked Island.pwr = true ∧ (∀ t0 ∈ tget (fun x => none) s12.bankTick (2 : Nat), t0 + 50 ≤ s12.tb)) ∧
    (s13.clocked Island.pwr = true ∧ (s13.fld (hsPg (1 : Nat)) R.HS.SEG.MAP).testBit (0 : Nat) = true ∧ s13.segFound (1 : Nat)
      v2 = true ∧ s13.fld (hsPg (1 : Nat)) R.HS.SEG.MAP - 2 ^ (0 : Nat) ≠ 0) ∧
    (s14.clocked Island.pwr = true ∧ (s14.fld (hsPg (1 : Nat)) R.HS.SEG.MAP).testBit (0 : Nat) = true ∧ s14.segFound (1 : Nat)
      v2 = true ∧ s14.fld (hsPg (1 : Nat)) R.HS.SEG.MAP - 2 ^ (0 : Nat) = 0) ∧
    (s12.clocked Island.pwr = true ∧ ((s12.fld (hsPg (0 : Nat)) R.HS.SEG.MAP).testBit (0 : Nat) = false ∨ s12.segFound (0 :
      Nat) v2 = false)) := by decide +kernel

theorem witness_SupplyAndJunction_SupplyConditions :
    ((s11.dieAt (dieIdx Die.p1)).uv = false) ∧
    ((s11.dieAt (dieIdx Die.p1)).ldump = false) ∧
    ((s11.dieAt (dieIdx Die.p1)).gndl = false) ∧
    ((s15.dieAt (dieIdx Die.p1)).uv = true ∧ (s15.dieAt (dieIdx Die.p1)).uvAt + 10000 ≤ s15.tb) ∧
    ((s15.dieAt (dieIdx Die.p1)).ldump = true ∧ (s15.dieAt (dieIdx Die.p1)).ldAt + 10000 ≤ s15.tb) ∧
    ((s15.dieAt (dieIdx Die.p1)).gndl = true ∧ (s15.dieAt (dieIdx Die.p1)).gndAt + 100000 ≤ s15.tb) ∧
    (((s15.dieAt 0).revb = true ∨ (s15.dieAt 1).revb = true)) := by decide +kernel

theorem witness_SupplyAndJunction_JunctionShutdown :
    (s12.clocked Island.pwr = true) ∧
    (s16.clocked Island.pwr = true ∧ (s16.hsAt (1 : Nat)).tsd = true) := by decide +kernel

theorem witness_ChannelCommands_PwmLevels :
    (0 < 1 ∧ 0 < 65536 ∧ 0 < 65535) ∧
    (s12.clocked Island.pwr = true ∧ (s12.hsAt (0 : Nat)).gen.edgeTick s12.tb (s12.bit (hsPg (0 : Nat)) R.HS.STAT.GATE) ≤
      s12.tb ∧ s12.fld (hsPg (0 : Nat)) R.HS.SEG.NSEG ≠ 0 ∧ (s12.dieAt (hsDie (0 : Nat))).any = false ∧ (s12.hsAt (0 :
      Nat)).tsd = false ∧ s12.diesWait = false ∧ s12.power ≠ Power.park) := by decide +kernel

theorem witness_BridgeCommands_BridgeCommands :
    (s17.clocked Island.pwr = true ∧ s17.locked brPg = false) ∧
    (s18.clocked Island.pwr = true ∧ s18.locked brPg = true) ∧
    (s17.clocked Island.pwr = true ∧ (s17.locked brPg = true ∨ s17.br (0 : Nat) R.BRIDGE.CFG.PKEN = 0)) ∧
    (s19.clocked Island.pwr = true ∧ s19.locked brPg = false ∧ s19.br (0 : Nat) R.BRIDGE.CFG.PKEN ≠ 0 ∧ s19.brParkedIn (0 :
      Nat) = false) ∧
    (s20.clocked Island.pwr = true ∧ s20.locked brPg = false ∧ s20.br (0 : Nat) R.BRIDGE.CFG.PKEN ≠ 0 ∧ s20.brParkedIn (0 :
      Nat) = true) := by decide +kernel

theorem witness_BridgeCommands_BridgePrecedence :
    (s21.brOperates (0 : Nat) = true ∧ s21.power ≠ Power.park ∧ s21.clocked Island.pwr = false) ∧
    (s22.brOperates (0 : Nat) = true ∧ s22.power ≠ Power.park ∧ s22.clocked Island.pwr = true ∧ s22.heldBit (48 + (0 : Nat)) =
      false ∧ s22.safe = true) ∧
    (s23.brOperates (0 : Nat) = true ∧ s23.power ≠ Power.park ∧ s23.clocked Island.pwr = true ∧ s23.heldBit (48 + (0 : Nat)) =
      false ∧ s23.safe = false ∧ s23.brLatched (0 : Nat) = true) ∧
    (s17.brOperates (0 : Nat) = true ∧ s17.power ≠ Power.park ∧ s17.clocked Island.pwr = true ∧ s17.heldBit (48 + (0 : Nat)) =
      false ∧ s17.safe = false ∧ s17.brLatched (0 : Nat) = false ∧ s17.brBlocked (0 : Nat) = false ∧ s17.br (0 : Nat)
      R.BRIDGE.STAT.SHARE = 0) ∧
    (s24.brOperates (0 : Nat) = true ∧ s24.power ≠ Power.park ∧ s24.clocked Island.pwr = true ∧ s24.heldBit (48 + (0 : Nat)) =
      false ∧ s24.safe = false ∧ s24.brLatched (0 : Nat) = false ∧ (s24.brLower (0 : Nat)).1 ≠ BrCmd.coast ∧ s24.brBlocked (0 :
      Nat) = true) := by decide +kernel

theorem witness_BridgeProtection_BridgeProtection :
    (s25.clocked Island.pwr = true ∧ ((s25.bridgeAt (0 : Nat)).applied ≠ BrCmd.coast ∧ (s25.bridgeAt (0 : Nat)).applied ≠
      BrCmd.brake) ∧ ((10 * if s25.br (0 : Nat) R.BRIDGE.STAT.START ≠ 0 then s25.br (0 : Nat) R.BRIDGE.LIM.ISTART else s25.br
      (0 : Nat) R.BRIDGE.LIM.ILIM) < Int.natAbs 1001) ∧ (Max.max (s25.bridgeAt (0 : Nat)).drvAt (if s25.br (0 : Nat)
      R.BRIDGE.STAT.START = 0 ∧ Int.natAbs 1001 ≤ 10 * s25.br (0 : Nat) R.BRIDGE.LIM.ISTART then (s25.bridgeAt (0 :
      Nat)).startDone else 0) + 200 ≤ s25.tb)) ∧
    ((¬((s21.bridgeAt (0 : Nat)).applied ≠ BrCmd.coast ∧ (s21.bridgeAt (0 : Nat)).applied ≠ BrCmd.brake) ∨ (Int.natAbs 0 ≤ 10 *
      if s21.br (0 : Nat) R.BRIDGE.STAT.START ≠ 0 then s21.br (0 : Nat) R.BRIDGE.LIM.ISTART else s21.br (0 : Nat)
      R.BRIDGE.LIM.ILIM) ∨ s21.clocked Island.pwr = false)) ∧
    (s23.clocked Island.pwr = true ∧ s23.locked brPg = false ∧ ((s23.legAt (s23.legA (0 : Nat))).latch = true ∨ (s23.legAt
      (s23.legB (0 : Nat))).latch = true)) ∧
    (s17.clocked Island.pwr = true ∧ (s17.locked brPg = true ∨ (s17.legAt (s17.legA (0 : Nat))).latch = false ∧ (s17.legAt
      (s17.legB (0 : Nat))).latch = false)) ∧
    (((if (0 : Nat) < 12 then 60000 else 15000) ≤ 60000) ∧ s17.clocked Island.pwr = true) ∧
    (((if (0 : Nat) < 12 then 60000 else 15000) ≤ 60000) ∧ s21.clocked Island.pwr = false) ∧
    ((900 < if (0 : Nat) < 12 then 60000 else 15000)) := by decide +kernel

theorem witness_BridgeProtection_BridgeTiming :
    (900 ≤ s25.tb ∧ s25.clocked Island.pwr = true ∧ (s25.bridgeAt (0 : Nat)).startEnd = some 900) ∧
    (900 ≤ s26.tb ∧ s26.clocked Island.pwr = true ∧ s26.br (0 : Nat) R.BRIDGE.RIP.EN ≠ 0 ∧ (s26.bridgeAt (0 : Nat)).applied ≠
      BrCmd.coast ∧ (s26.bridgeAt (0 : Nat)).applied ≠ BrCmd.brake ∧ (s26.bridgeAt (0 : Nat)).stalled = false ∧ (s26.bridgeAt
      (0 : Nat)).ripTick + s26.br (0 : Nat) R.BRIDGE.TMO.STALLT * 100000 ≤ s26.tb) ∧
    (900 ≤ s17.tb ∧ s17.clocked Island.pwr = true ∧ s17.locked brPg = false) ∧
    (900 ≤ s18.tb ∧ s18.clocked Island.pwr = true ∧ s18.locked brPg = true) ∧
    (900 ≤ s26.tb ∧ s26.clocked Island.pwr = true ∧ (s26.bridgeAt (0 : Nat)).parkEnd = some 900 ∧ (s26.bridgeAt (0 :
      Nat)).parkRun = true ∧ s26.br (0 : Nat) R.BRIDGE.STAT.GOV < 2) := by decide +kernel

theorem witness_BridgeProtection_BridgeDiagnosis :
    (s17.clocked Island.pwr = true ∧ s17.br (0 : Nat) R.BRIDGE.CFG.OLOFF ≠ 0 ∧ s17.brOperates (0 : Nat) = true ∧ (s17.bridgeAt
      (0 : Nat)).applied = BrCmd.coast ∧ (∀ j < 14, (s17.bridgeAt j).applied = BrCmd.coast) ∧ 0 < 7000) ∧
    (s27.clocked Island.pwr = true ∧ s27.br (0 : Nat) R.BRIDGE.CFG.OLOFF ≠ 0 ∧ s27.brOperates (0 : Nat) = true ∧ (s27.bridgeAt
      (0 : Nat)).applied = BrCmd.coast ∧ (∀ j < 14, (s27.bridgeAt j).applied = BrCmd.coast) ∧ 7000 ≤ 7000 ∧ (((s27.bridgeAt (0
      : Nat)).cyc.elim (Max.max ((s27.bridgeAt (0 : Nat)).coastAt + 10000) (s27.bridgeAt (0 : Nat)).diagAt + 25000) fun x => x
      + 125000) ≤ s27.tb) ∧ ((s27.bridgeAt (0 : Nat)).diag = some (if 5500 ≤ 0 ∧ 5500 ≤ 0 then DiagRes.shortV else if 0 ≤ 500
      then DiagRes.shortG else if 4000 ≤ 0 ∧ 0 ≤ 1000 then DiagRes.openLoad else DiagRes.normal)) ∧ ((if 5500 ≤ 0 ∧ 5500 ≤ 0
      then DiagRes.shortV else if 0 ≤ 500 then DiagRes.shortG else if 4000 ≤ 0 ∧ 0 ≤ 1000 then DiagRes.openLoad else
      DiagRes.normal) ≠ DiagRes.normal)) ∧
    (s17.clocked Island.pwr = true ∧ s17.br (0 : Nat) R.BRIDGE.CFG.OLOFF ≠ 0 ∧ s17.brOperates (0 : Nat) = true ∧ (s17.bridgeAt
      (0 : Nat)).applied = BrCmd.coast ∧ (∀ j < 14, (s17.bridgeAt j).applied = BrCmd.coast) ∧ 7000 ≤ 7000 ∧ (((s17.bridgeAt (0
      : Nat)).cyc.elim (Max.max ((s17.bridgeAt (0 : Nat)).coastAt + 10000) (s17.bridgeAt (0 : Nat)).diagAt + 25000) fun x => x
      + 125000) ≤ s17.tb) ∧ ((s17.bridgeAt (0 : Nat)).diag ≠ some (if 5500 ≤ 0 ∧ 5500 ≤ 0 then DiagRes.shortV else if 0 ≤ 500
      then DiagRes.shortG else if 4000 ≤ 0 ∧ 0 ≤ 1000 then DiagRes.openLoad else DiagRes.normal) ∨ (if 5500 ≤ 0 ∧ 5500 ≤ 0 then
      DiagRes.shortV else if 0 ≤ 500 then DiagRes.shortG else if 4000 ≤ 0 ∧ 0 ≤ 1000 then DiagRes.openLoad else DiagRes.normal)
      = DiagRes.normal)) := by decide +kernel

theorem witness_SenseCodes_OtherSenseCodes :
    (awake.clocked Island.pwr = true ∧ awake.tb % 100 = 0 ∧ (∀ u < 106, tget (fun x => none) awake.senseAt u ≠ some awake.tb)) := by decide +kernel

end Bridges

namespace Loads

def vlS (l : List (Fld × Nat)) (f : Valve → Valve := id) : State := (put (put awake vsPg [(R.PG_CTRL.EN, 1)]) (vlPg 0) ([(R.PG_CTRL.EN, 1), (R.VL.CFG.PULSE, 1), (R.VL.PEAK.IPK, 500), (R.VL.PEAK.TPKMAX, 5), (R.VL.PHOLD.TPH, 2)] ++ l)).setValve 0 (f {})
def bst (st : Nat) : State := put awake vsPg [(R.BOOST.CFG.VSET, 0x40), (R.BOOST.STAT.ST, st)]
def cvS (f : Light → Light) (l : List (Nat × Fld) := []) : State := l.foldl (fun s e => s.setFld e.1 e.2 1) { awake with light := f {} }
def mxS (l : List (Fld × Nat)) (f : Light → Light := id) : State := put { awake with light := f {} } 0x170 (l ++ [(R.MX.OUT.RUN, 1), (R.PG_CTRL.EN, 1)])
def pxS (l : List (Fld × Nat)) (f : Light → Light := id) : State := put { awake with light := f {} } 0x172 (l ++ [(R.PXC.OUT.RUN, 1), (R.PG_CTRL.EN, 1), (R.PXC.PERIOD.P, 500)])
def ambS (l : List (Fld × Nat)) (f : Light → Light := id) (g : Amb → Amb := id) : State := (put (put { awake with light := f {} } (ambPg 0) (l ++ [(R.PG_CTRL.EN, 1), (R.AMB.OUT.ON, 1), (R.AMB.LOOP.KI, 128), (R.AMB.LOOP.CL, 1), (R.AMB.TGTRG.R, 1000)])) 0x178 [(R.PG_CTRL.EN, 1)]) |> fun s => { s with ambs := [(0, g {})] }
def s0 : State :=
  vlS []
def s1 : State :=
  (vlS []).setValve 1 { phase := VPhase.peak, phaseStart := 900 }
def s2 : State :=
  (vlS []).setSide 0 { src := SideSrc.off, latch := true }
def s3 : State :=
  vlS [] fun v => { v with phase := VPhase.pkhold, phaseStart := 500 }
def s4 : State :=
  vlS [] fun v => { v with phase := VPhase.hold, holdEnd := 500 }
def s5 : State :=
  vlS [] fun v => { v with phase := VPhase.decay }
def s6 : State :=
  vlS [(R.VL.MINOFF.TMINOFF, 0)] fun v => { v with phase := VPhase.mowait, decayEnd := some 900, pend := true }
def s7 : State :=
  { (vlS [] fun v => { v with phase := VPhase.peak, phaseStart := 950 }) with tb := 5000 }
def s8 : State :=
  vlS [] fun v => { v with latch := true, cmd := true }
def s9 : State :=
  { awake with tb := 300000, sides := [(0, { src := SideSrc.off, limpAt := some 1000 })] }
def s10 : State :=
  { awake with clkDead := [15] }
def s11 : State :=
  awake.setSide 0 { src := SideSrc.off, latch := true }
def s12 : State :=
  (vlS []).setSide 0 { src := SideSrc.off, next := some (SideSrc.boost, 900), peakNext := some 0 }
def s13 : State :=
  bst 1
def s14 : State :=
  bst 0
def s15 : State :=
  bst 2
def s16 : State :=
  { (bst 1) with tb := 3000000 }
def s17 : State :=
  bst 3
def s18 : State :=
  lockPg awake 371
def s19 : State :=
  cvS fun l => { l with swap := some SwapSrc.rise }
def s20 : State :=
  cvS fun l => { l with swap := some SwapSrc.fall }
def s21 : State :=
  cvS fun l => { l with swap := some SwapSrc.tick }
def s22 : State :=
  { (mxS []) with tb := 12480 }
def s23 : State :=
  mxS []
def s24 : State :=
  mxS [(R.MX.LATCH.ROW, 2)]
def s25 : State :=
  pxS []
def s26 : State :=
  (pxS [] fun l => { l with trig := some 900, pxDone := false, pxResync := false }).setBit fltPg R.FLT.STAT.SAFE true
def s27 : State :=
  pxS [(R.PXC.STAT.SHIFT, 1)] fun l => { l with pxCmp := true, pxCur := (24, 5), pxPrev := some (24, 6) }
def s28 : State :=
  pxS [(R.PXC.STAT.SHIFT, 1)] fun l => { l with pxCmp := true, pxCur := (24, 5), pxPrev := some (24, 6), pxMism := 1 }
def s29 : State :=
  ambS []
def s30 : State :=
  { (ambS [] fun l => { l with i2cBusy := some 0 }) with tb := 900000 }
def s31 : State :=
  { (ambS [] (fun l => { l with i2cBusy := some 0 }) fun a => { a with failRun := 1 }) with tb := 900000 }
def s32 : State :=
  ambS [(R.AMB.STAT.LATCH, 1)]
def v0 : SensorEnd :=
  SensorEnd.counts 1 2 3 5000

theorem witness_ValveProfiles_ValveTrigger :
    (s0.clocked Island.pwr = true ∧ (s0.locked (vlPg (1 : Nat)) = true ∨ s0.bit (vlPg (1 : Nat)) R.VL.CFG.PULSE = false)) ∧
    (s0.clocked Island.pwr = true ∧ s0.locked (vlPg (0 : Nat)) = false ∧ s0.bit (vlPg (0 : Nat)) R.VL.CFG.PULSE = true) ∧
    (s0.clocked Island.pwr = true ∧ (s0.valveAt (0 : Nat)).phase = VPhase.idle ∧ (s0.valveAt (0 : Nat)).decayEnd = none ∧
      (s0.sideAt (vlSide (0 : Nat))).peakNext = none ∧ (∀ m ∈ sideValves (vlSide (0 : Nat)), (s0.valveAt m).phase ≠
      VPhase.peak) ∧ (s0.sideAt (vlSide (0 : Nat))).src = SideSrc.off ∧ (s0.sideAt (vlSide (0 : Nat))).next = none ∧ (s0.sideAt
      (vlSide (0 : Nat))).latch = false ∧ (s0.sideAt (vlSide (0 : Nat))).limpOff = false ∧ (s0.sideAt (vlSide (0 : Nat))).tsd =
      false ∧ (s0.valveAt (0 : Nat)).tsd = false ∧ (s0.dieAt 1).any = false) ∧
    (s1.clocked Island.pwr = true ∧ 1 ∈ sideValves (vlSide (0 : Nat)) ∧ 1 ≠ (0 : Nat) ∧ (s1.valveAt 1).phase = VPhase.peak ∧
      (s1.valveAt (0 : Nat)).phase = VPhase.idle ∧ (s1.valveAt (0 : Nat)).decayEnd = none ∧ (s1.sideAt (vlSide (0 :
      Nat))).peakNext = none ∧ s1.vlHeld (0 : Nat) = false ∧ (s1.dieAt 1).ldump = false ∧ (s1.sideAt (vlSide (0 : Nat))).latch
      = false) ∧
    (s2.clocked Island.pwr = true ∧ (s2.vlHeld (0 : Nat) = true ∨ (s2.dieAt 1).ldump = true ∨ (s2.sideAt (vlSide (0 :
      Nat))).latch = true)) := by decide +kernel

theorem witness_ValveProfiles_ValveProfile :
    (((s1.valveAt (1 : Nat)).phase = VPhase.peak ∧ s1.clocked Island.pwr = true ∧ (s1.dieAt 1).ldump = false) ∧ s1.fld (vlPg (1
      : Nat)) R.VL.PEAK.IPK * 10 ≤ 4999) ∧
    ((¬((s0.valveAt (0 : Nat)).phase = VPhase.peak ∧ s0.clocked Island.pwr = true ∧ (s0.dieAt 1).ldump = false) ∨ 0 < s0.fld
      (vlPg (0 : Nat)) R.VL.PEAK.IPK * 10)) ∧
    (((s3.valveAt (0 : Nat)).phase = VPhase.pkhold ∧ s3.clocked Island.pwr = true ∧ (s3.dieAt 1).ldump = false) ∧ (s3.valveAt
      (0 : Nat)).phaseStart + s3.fld (vlPg (0 : Nat)) R.VL.PHOLD.TPH * 100 ≤ s3.tb) ∧
    (((s4.valveAt (0 : Nat)).phase = VPhase.hold ∧ s4.clocked Island.pwr = true ∧ (s4.dieAt 1).ldump = false) ∧ s4.bit (vlPg (0
      : Nat)) R.VL.CFG.PULSE = true ∧ (s4.valveAt (0 : Nat)).holdEnd ≤ s4.tb) ∧
    ((s5.valveAt (0 : Nat)).phase = VPhase.decay ∧ s5.clocked Island.pwr = true ∧ 0 < 50) ∧
    (((s6.valveAt (0 : Nat)).phase = VPhase.mowait ∧ s6.clocked Island.pwr = true ∧ (s6.dieAt 1).ldump = false) ∧ (s6.valveAt
      (0 : Nat)).decayEnd.getD 0 + s6.fld (vlPg (0 : Nat)) R.VL.MINOFF.TMINOFF * 1000 ≤ s6.tb ∧ (s6.bit (vlPg (0 : Nat))
      R.VL.CFG.PULSE = true ∨ (s6.valveAt (0 : Nat)).cmd = true)) := by decide +kernel

theorem witness_ValveSupplies_ValveProtection_1 :
    (0 < 16 ∧ s0.enabled (vlPg (0 : Nat)) = true ∧ s0.clocked Island.pwr = true) ∧
    (0 < 16 ∧ (s0.enabled (vlPg (1 : Nat)) = false ∨ s0.clocked Island.pwr = false)) ∧
    (((s7.valveAt (0 : Nat)).phase = VPhase.peak ∧ s7.clocked Island.pwr = true ∧ (s7.dieAt 1).ldump = false) ∧ 0 < 50 ∧
      (s7.valveAt (0 : Nat)).phaseStart + 2000 ≤ s7.tb) ∧
    (((s1.valveAt (1 : Nat)).phase = VPhase.peak ∧ s1.clocked Island.pwr = true ∧ (s1.dieAt 1).ldump = false) ∧ (s1.tb ≤
      (s1.valveAt (1 : Nat)).phaseStart + 200 ∧ s1.fld (vlPg (1 : Nat)) R.VL.PEAK.IPK * 10 ≤ 4999)) ∧
    ((¬((s0.valveAt (0 : Nat)).phase = VPhase.peak ∧ s0.clocked Island.pwr = true ∧ (s0.dieAt 1).ldump = false) ∨ ¬(s0.tb ≤
      (s0.valveAt (0 : Nat)).phaseStart + 200 ∧ s0.fld (vlPg (0 : Nat)) R.VL.PEAK.IPK * 10 ≤ 0))) ∧
    (((s7.valveAt (0 : Nat)).phase = VPhase.peak ∧ s7.clocked Island.pwr = true ∧ (s7.dieAt 1).ldump = false) ∧ (s7.valveAt (0
      : Nat)).phaseStart + s7.fld (vlPg (0 : Nat)) R.VL.PEAK.TPKMAX * 100 ≤ s7.tb) ∧
    (s8.clocked Island.pwr = true ∧ s8.locked (vlPg (0 : Nat)) = false ∧ (s8.valveAt (0 : Nat)).latch = true) := by decide +kernel

theorem witness_ValveSupplies_ValveProtection_2 :
    (s0.clocked Island.pwr = true ∧ (s0.locked (vlPg (0 : Nat)) = true ∨ (s0.valveAt (0 : Nat)).latch = false)) ∧
    (s8.clocked Island.pwr = true ∧ s8.heldBit (64 + (0 : Nat)) = false ∧ ((s8.valveAt (0 : Nat)).latch = true ∨ s8.safe =
      true) ∧ (s8.safe = true → (s8.dieAt 1).ldump = false)) := by decide +kernel

theorem witness_ValveSupplies_ValveSides_1 :
    (30000 ≤ 30000 ∧ s9.clocked Island.pwr = true) ∧
    (30000 ≤ 30000 ∧ s10.clocked Island.pwr = false) ∧
    (0 < 30000) ∧
    (s11.clocked Island.pwr = true ∧ s11.locked vsPg = false ∧ (s11.sideAt (0 : Nat)).latch = true) ∧
    (s9.clocked Island.pwr = true ∧ (s9.locked vsPg = true ∨ (s9.sideAt (0 : Nat)).latch = false)) ∧
    (s12.clocked Island.pwr = true ∧ (s12.sideAt (0 : Nat)).next = some (SideSrc.boost, 900) ∧ 900 ≤ s12.tb ∧ (s12.dieAt
      1).ldump = false) ∧
    ((s9.sideAt (0 : Nat)).limpAt = some 1000 ∧ 1000 + 200000 ≤ s9.kaNow) := by decide +kernel

theorem witness_ValveSupplies_ValveSides_2 :
    ((s10.sideAt (0 : Nat)).limpAt = none) := by decide +kernel

theorem witness_ValveSupplies_BoostStates :
    (s13.clocked Island.pwr = true ∧ s13.fld vsPg R.BOOST.STAT.ST = 1 ∧ 24000 + s13.fld vsPg R.BOOST.CFG.VSET * 250 - s13.fld
      vsPg R.BOOST.CFG.RDYM * 500 ≤ 37999) ∧
    (s14.clocked Island.pwr = true ∧ (s14.fld vsPg R.BOOST.STAT.ST ≠ 1 ∨ 0 < 24000 + s14.fld vsPg R.BOOST.CFG.VSET * 250 -
      s14.fld vsPg R.BOOST.CFG.RDYM * 500)) ∧
    (s15.clocked Island.pwr = true ∧ s15.fld vsPg R.BOOST.STAT.ST = 2 ∧ 0 < 24000 + s15.fld vsPg R.BOOST.CFG.VSET * 250 -
      s15.fld vsPg R.BOOST.CFG.RDYM * 500) ∧
    (s13.clocked Island.pwr = true ∧ (s13.fld vsPg R.BOOST.STAT.ST = 1 ∨ s13.fld vsPg R.BOOST.STAT.ST = 2) ∧ 24000 + s13.fld
      vsPg R.BOOST.CFG.VSET * 250 + 5000 < 45001) ∧
    (s16.clocked Island.pwr = true ∧ s16.fld vsPg R.BOOST.STAT.ST = 1 ∧ s16.boostTold = false ∧ s16.boostTick + 2000000 ≤
      s16.tb) ∧
    (s17.clocked Island.pwr = true ∧ s17.locked vsPg = false ∧ s17.fld vsPg R.BOOST.STAT.ST = 3) ∧
    (s14.clocked Island.pwr = true ∧ (s14.locked vsPg = true ∨ s14.fld vsPg R.BOOST.STAT.ST ≠ 3)) := by decide +kernel

theorem witness_CanvasAndMatrix_CanvasSwap_1 :
    (s18.clocked Island.pwr = true ∧ (s18.locked 371 = true ∨ s18.light.swap ≠ none)) ∧
    (awake.clocked Island.pwr = true ∧ awake.locked 371 = false ∧ awake.light.swap = none ∧ awake.bit 368 R.MX.OUT.RUN = false
      ∧ awake.bit 370 R.PXC.OUT.RUN = false) ∧
    (awake.clocked Island.pwr = true ∧ awake.locked 371 = false ∧ awake.light.swap = none ∧ (2 = 2 ∨ 2 = 3 ∨ 2 = 1 ∧ awake.tb ≤
      awake.fld64 371 R.CV.T_LO.T R.CV.T_HI.T)) ∧
    (s19.clocked Island.pwr = true ∧ s19.locked 371 = false ∧ s19.light.swap ≠ none ∧ s19.light.trig = none) ∧
    (awake.clocked Island.pwr = true ∧ (awake.locked 371 = true ∨ awake.light.swap = none ∨ awake.light.trig ≠ none)) ∧
    (s19.clocked Island.pwr = true ∧ s19.light.trig = none ∧ s19.light.swap = some SwapSrc.rise) ∧
    (s20.clocked Island.pwr = true ∧ s20.light.trig = none ∧ s20.light.swap = some SwapSrc.fall) := by decide +kernel

theorem witness_CanvasAndMatrix_CanvasSwap_2 :
    (s21.clocked Island.pwr = true ∧ s21.light.trig = none ∧ s21.light.swap = some SwapSrc.tick ∧ s21.fld64 371 R.CV.T_LO.T
      R.CV.T_HI.T ≤ s21.tb) := by decide +kernel

theorem witness_CanvasAndMatrix_MatrixScan :
    (s22.clocked Island.pwr = true ∧ s22.bit 368 R.MX.OUT.RUN = true ∧ s22.nextSlot ≤ s22.tb ∧ s22.scanAt.since s22.tb /
      Max.max 1 s22.scanAt.slot ≠ 0 ∧ s22.scanAt.since s22.tb / Max.max 1 s22.scanAt.slot < 16) ∧
    (-32768 ≤ 0 ∧ 0 < 32768 ∧ s23.clocked Island.pwr = true ∧ (∀ a ∈ s23.light.tempAt, a + 100000 ≤ s23.tb)) ∧
    (-32768 ≤ 1500 ∧ 1500 < 32768 ∧ s23.clocked Island.pwr = true ∧ (∀ a ∈ s23.light.tempAt, a + 100000 ≤ s23.tb) ∧ ((if 1500 ≤
      850 + 10 * (↑(s23.fld 368 R.MX.DERATE.TK) : Int) then 256 else (256 - (1500 - (850 + 10 * (↑(s23.fld 368 R.MX.DERATE.TK)
      : Int))) * (↑(s23.fld 368 R.MX.DERATE.SLOPE) : Int) * 256 / 1000).toNat) = 0)) ∧
    (s23.clocked Island.pwr = true ∧ 1500 ≤ 1500) ∧
    (s23.clocked Island.pwr = true ∧ 0 < 1500) ∧
    (s24.clocked Island.pwr = true ∧ s24.locked 368 = false ∧ s24.mxLatched = true) ∧
    (s23.clocked Island.pwr = true ∧ (s23.locked 368 = true ∨ s23.mxLatched = false)) := by decide +kernel

theorem witness_PixelsAndAmbient_PixelChain :
    (s25.clocked Island.io = true ∧ s25.bit 370 R.PXC.OUT.RUN = true ∧ s25.light.pxResync = false ∧ s25.light.pxTaken ≠ some
      s25.tb ∧ pwmNextStart (s25.fld 370 R.PXC.PERIOD.P) (s25.fld 370 R.PXC.PHASE.PH) s25.tb ≤ s25.tb ∧ s25.safe = false ∧
      s25.bit 370 R.PXC.STAT.SHIFT = false ∧ s25.light.trig = none) ∧
    (s26.clocked Island.io = true ∧ s26.bit 370 R.PXC.OUT.RUN = true ∧ s26.light.pxResync = false ∧ s26.light.pxTaken ≠ some
      s26.tb ∧ pwmNextStart (s26.fld 370 R.PXC.PERIOD.P) (s26.fld 370 R.PXC.PHASE.PH) s26.tb ≤ s26.tb ∧ s26.safe = true ∧
      s26.light.trig ≠ none ∧ s26.light.pxDone = false) ∧
    (s27.clocked Island.io = true ∧ s27.bit 370 R.PXC.STAT.SHIFT = true ∧ s27.light.pxBlank = false ∧ s27.light.pxEnd ≤ s27.tb
      ∧ (¬(s27.light.pxCmp = true ∧ ∃ e ∈ s27.light.pxPrev, e.1 = s27.light.pxCur.1 ∧ 6 % 2 ^ e.1 ≠ e.2))) ∧
    (s27.clocked Island.io = true ∧ s27.bit 370 R.PXC.STAT.SHIFT = true ∧ s27.light.pxBlank = false ∧ s27.light.pxEnd ≤ s27.tb
      ∧ (s27.light.pxCmp = true ∧ ∃ e ∈ s27.light.pxPrev, e.1 = s27.light.pxCur.1 ∧ 0 % 2 ^ e.1 ≠ e.2)) ∧
    (s28.clocked Island.io = true ∧ s28.bit 370 R.PXC.STAT.SHIFT = true ∧ s28.light.pxBlank = false ∧ s28.light.pxEnd ≤ s28.tb
      ∧ (s28.light.pxCmp = true ∧ ∃ e ∈ s28.light.pxPrev, e.1 = s28.light.pxCur.1 ∧ 0 % 2 ^ e.1 ≠ e.2) ∧ 1 ≤ s28.light.pxMism) := by decide +kernel

theorem witness_PixelsAndAmbient_AmbientLoop :
    (s29.clocked Island.io = true ∧ s29.enabled 376 = true ∧ s29.light.i2cWait = [] ∧ s29.ambLoops (0 : Nat) = true ∧
      s29.light.i2cBusy = none ∧ (∀ a ∈ (s29.ambAt (0 : Nat)).iterAt, a + s29.fld (ambPg (0 : Nat)) R.AMB.LOOP.INTV * 100000 ≤
      s29.tb)) ∧
    (s30.clocked Island.io = true ∧ s30.enabled 376 = true ∧ s30.light.i2cWait = [] ∧ s30.light.i2cBusy = some (0 : Nat) ∧
      s30.ambLoops (0 : Nat) = true ∧ 0 ≤ s30.fld 376 R.LI2C.TMO.US ∧ ((s30.light.i2cStart + 81 * if s30.bit 376
      R.LI2C.CFG.FAST = true then 250 else 1000) ≤ s30.tb)) ∧
    (s30.clocked Island.io = true ∧ s30.enabled 376 = true ∧ s30.light.i2cWait = [] ∧ s30.light.i2cBusy = some (0 : Nat) ∧ (s30.fld 376 R.LI2C.TMO.US < match v0 with | SensorEnd.counts r g b us => us | SensorEnd.stretched us => us | x => s30.fld 376 R.LI2C.TMO.US + 1) ∧ ((s30.light.i2cStart + sensorBits v0 * if s30.bit 376 R.LI2C.CFG.FAST = true then 250 else 1000) ≤ s30.tb)) ∧
    (s31.clocked Island.io = true ∧ s31.enabled 376 = true ∧ s31.light.i2cWait = [] ∧ s31.light.i2cBusy = some (0 : Nat) ∧ (s31.fld 376 R.LI2C.TMO.US < match v0 with | SensorEnd.counts r g b us => us | SensorEnd.stretched us => us | x => s31.fld 376 R.LI2C.TMO.US + 1) ∧ ((s31.light.i2cStart + sensorBits v0 * if s31.bit 376 R.LI2C.CFG.FAST = true then 250 else 1000) ≤ s31.tb) ∧ 1 ≤ (s31.ambAt (0 : Nat)).failRun) ∧
    (s32.clocked Island.pwr = true ∧ s32.locked (ambPg (0 : Nat)) = false ∧ s32.bit (ambPg (0 : Nat)) R.AMB.STAT.LATCH = true) ∧
    (awake.clocked Island.pwr = true ∧ (awake.locked (ambPg (0 : Nat)) = true ∨ awake.bit (ambPg (0 : Nat)) R.AMB.STAT.LATCH =
      false)) := by decide +kernel

end Loads

namespace Inputs

def siS (l : List (Fld × Nat)) (f : Si → Si := id) : State := { put { awake with tb := 20000 } (siPg 0) ([(R.PG_CTRL.EN, 1), (R.SI.CFG.IEN 0, 1), (R.SI.CFG.REF 0, 1), (R.SI.CFG.TH 0, 3), (R.SI.CFG.SPER 0, 0)] ++ l) with sis := [(0, f {})] }
def ioS (m : Nat) (l : List (Fld × Nat)) (f : Io → Io := id) : State := { put (put { awake with tb := 200000, fsDie := 2, fsNew := false } isoPg [(R.PG_CTRL.EN, 1), (R.ISO.FS.ST, 2), (R.ISO.EVEN.EN, 0xFFFF)]) (ioPg 0) ([(R.PG_CTRL.EN, 1), (R.IO.CFG.MODE, m), (R.IO.CFG.TH, 2)] ++ l) with ios := [(0, f {})] }
def clS (l : List (Fld × Nat)) (f : Clause → Clause := id) (g : State → State := id) : State := g { put (put awake rxcPg [(R.PG_CTRL.EN, 1)]) 0x041 ([(R.PG_CTRL.EN, 1), (R.CL.SUBJ.EN 0, 1)] ++ l) with clauses := if f {} = {} then [] else [(0, f {})] }
def ru (s : State) : State := put s (ethPg 0) [(R.PG_CTRL.EN, 1), (R.ETH.CFG.LROLE, 1), (R.ETH.STAT.LINK, 1)]
def slS (l : List (Fld × Nat)) (f : Slot → Slot := id) : State := { put awake rxlPg ([(R.PG_CTRL.EN, 1), (R.RXL.CFG.PORTS, 1), (R.RXL.REF.LREF, 1), (R.RXL.TMO.LTMO, 1), (R.RXL.ACC_LO.ACC, 1)] ++ l) with slots := [(0, f {})] }
def s0 : State :=
  siS []
def s1 : State :=
  siS [(R.SI.CFG.ANA 0, 1), (R.SI.WIN.LO 0, 100), (R.SI.WIN.HI 0, 200)] fun k => { k with c := 2, run := true }
def s2 : State :=
  siS [] fun k => { k with run := true }
def s3 : State :=
  siS [] fun k => { k with wetEnd := some 900 }
def s4 : State :=
  { (siS [(R.SI.CFG.PARK 0, 1)]) with power := Power.park }
def s5 : State :=
  { (siS [(R.SI.CFG.PARK 0, 1)] fun k => { k with parkDiff := 1 }) with power := Power.park }
def s6 : State :=
  (fun s => { s with tb := 206400 }) (ioS 1 [] fun k => { k with c := 1, run := true })
def s7 : State :=
  (fun s => { s with tb := 206400 }) (ioS 4 [(R.IO.STAT.LATCH, 1)])
def s8 : State :=
  (fun s => { s with tb := 206400 }) (ioS 4 [(R.IO.OUT.ON, 1)] fun k => { k with c := 1, run := true, cmd := true, fieldCmd := true })
def s9 : State :=
  (fun s => { s with tb := 206400 }) (ioS 4 [(R.IO.OUT.ON, 1), (R.IO.STAT.RB, 1)] fun k => { k with c := 1, run := true, cmd := false })
def s10 : State :=
  (fun s => { s with tb := 206400 }) ({ (ioS 4 [(R.IO.OUT.ON, 1)]) with clkDead := [15], clkLost := [15] })
def s11 : State :=
  { (ioS 4 [] fun k => { k with quiet := some 900 }) with tb := 2064000 }
def s12 : State :=
  (fun s => { s with tb := 2064000 }) ({ (put (ioS 1 []) isoPg [(R.ISO.FS.ST, 0)]) with fsDie := 0 })
def s13 : State :=
  (fun s => { s with tb := 206400 }) ({ (put (ioS 1 []) isoPg [(R.ISO.FS.ST, 0)]) with fsDie := 0, fsNew := true })
def s14 : State :=
  clS [(R.CL.VERB.VERB 0, 1), (R.CL.VERB.VERB 1, 2), (R.CL.ASP.PRI 0, 2), (R.CL.ASP.PRI 1, 3)] (fun c => { c with active := true }) fun s => { s with clauses := s.clauses ++ [(1, { active := true })] }
def s15 : State :=
  clS [(R.CL.SUBJ.SMODE 0, 0), (R.CL.ASP.DMODE 0, 1), (R.CL.ASP.TEV 0, 1), (R.CL.ASP.DUR 0, 3)]
def s16 : State :=
  clS [(R.CL.SUBJ.SMODE 0, 0), (R.CL.ASP.DMODE 0, 2), (R.CL.ASP.TEV 0, 1), (R.CL.ASP.DUR 0, 3)]
def s17 : State :=
  { (clS [(R.CL.ASP.DMODE 0, 1)] fun c => { c with active := true, endTick := 900 }) with clkDead := [12] }
def s18 : State :=
  clS [(R.CL.ASP.DMODE 0, 2)] fun c => { c with active := true }
def s19 : State :=
  { awake with clkDead := [0, 1, 2, 3, 4, 5, 6, 7, 8, 9, 10, 11, 13] }
def s20 : State :=
  clS [(R.CL.ASP.DMODE 0, 1)] fun c => { c with took := some (1000, false) }
def s21 : State :=
  clS [(R.CL.ASP.DMODE 0, 1), (R.CL.VERB.VERB 0, 8), (R.CL.VERB.OBJ 0, 300)]
def s22 : State :=
  slS [] fun k => { k with named := some 900 }
def s23 : State :=
  ru (slS [] fun k => { k with send := true, named := some 900 })
def v0 : List Nat :=
  [0]

theorem witness_SwitchInputs_1 :
    ((s0.siOn (1 : Nat) = false ∨ s0.clocked Island.io = false ∨ s0.power = Power.park)) ∧
    (s1.siOn (0 : Nat) = true ∧ s1.clocked Island.io = true ∧ s1.power ≠ Power.park ∧ s1.nextSample (sperTicks (s1.siCfg (0 :
      Nat) R.SI.CFG.SPER)) (0 : Nat) (s1.siAt (0 : Nat)).last ≤ s1.tb ∧ s1.siCfg (0 : Nat) R.SI.CFG.PARK = 0 ∧ 0 ≤ 0 ∧ -1000 ≤
      0 ∧ 0 ≤ 0 + 1000 ∧ decide (s1.siCfg (0 : Nat) R.SI.CFG.ANA ≠ 0) = true ∧ true = true ∧ 0 < 64 ∧ 0 / 32 = (0 : Nat) / 32 ∧
      s1.siOn 0 = true ∧ s1.siCfg 0 R.SI.CFG.ANA ≠ 0) ∧
    (s0.siOn (0 : Nat) = true ∧ s0.clocked Island.io = true ∧ s0.power ≠ Power.park ∧ s0.nextSample (sperTicks (s0.siCfg (0 :
      Nat) R.SI.CFG.SPER)) (0 : Nat) (s0.siAt (0 : Nat)).last ≤ s0.tb ∧ s0.siCfg (0 : Nat) R.SI.CFG.PARK = 0 ∧ 0 ≤ 0 ∧ -1000 ≤
      0 ∧ 0 ≤ 0 + 1000 ∧ (decide (s0.siCfg (0 : Nat) R.SI.CFG.ANA ≠ 0) = false ∨ false = false) ∧ (s0.siAt (0 : Nat)).run =
      false ∧ (s0.siAt (0 : Nat)).entry = none) ∧
    (s2.siOn (0 : Nat) = true ∧ s2.clocked Island.io = true ∧ s2.power ≠ Power.park ∧ s2.nextSample (sperTicks (s2.siCfg (0 :
      Nat) R.SI.CFG.SPER)) (0 : Nat) (s2.siAt (0 : Nat)).last ≤ s2.tb ∧ s2.siCfg (0 : Nat) R.SI.CFG.PARK = 0 ∧ 0 ≤ 0 ∧ -1000 ≤
      0 ∧ 0 ≤ 0 + 1000 ∧ (decide (s2.siCfg (0 : Nat) R.SI.CFG.ANA ≠ 0) = false ∨ false = false) ∧ (s2.siAt (0 : Nat)).run =
      true) ∧
    (s1.siOn (0 : Nat) = true ∧ s1.clocked Island.io = true ∧ s1.power ≠ Power.park ∧ s1.nextSample (sperTicks (s1.siCfg (0 :
      Nat) R.SI.CFG.SPER)) (0 : Nat) (s1.siAt (0 : Nat)).last ≤ s1.tb ∧ s1.siCfg (0 : Nat) R.SI.CFG.PARK = 0 ∧ 0 ≤ 0 ∧ -1000 ≤
      0 ∧ 0 ≤ 0 + 1000 ∧ (decide (s1.siCfg (0 : Nat) R.SI.CFG.ANA ≠ 0) = false ∨ false = false) ∧ (s1.siAt (0 : Nat)).run =
      true ∧ decide (s1.siCfg (0 : Nat) R.SI.CFG.ANA ≠ 0) = true) ∧
    ((s3.siAt (0 : Nat)).wetEnd = some 900 ∧ 900 ≤ s3.tb) ∧
    (s4.power = Power.park ∧ s4.siCfg (0 : Nat) R.SI.CFG.PARK ≠ 0 ∧ 0 ≤ 0 ∧ (∀ (a : Int), (s4.siAt (0 : Nat)).parkAt = some a →
      a + parkPeriod (s4.siCfg (0 : Nat) R.SI.CFG.PPER) ≤ s4.kaNow) ∧ ((if 10 * 0 < 4 * 0 then !decide (s4.siCfg (0 : Nat)
      R.SI.CFG.REF ≠ 0) else if 6 * 0 < 10 * 0 then decide (s4.siCfg (0 : Nat) R.SI.CFG.REF ≠ 0) else (s4.siAt (0 :
      Nat)).parkRaw) = (s4.siAt (0 : Nat)).parkRef)) := by
  refine ⟨?_, ?_, ?_, ?_, ?_, ?_, ?_⟩ <;> decide +kernel

theorem witness_SwitchInputs_2 :
    (s4.power = Power.park ∧ s4.siCfg (0 : Nat) R.SI.CFG.PARK ≠ 0 ∧ 0 ≤ 0 ∧ (∀ (a : Int), (s4.siAt (0 : Nat)).parkAt = some a →
      a + parkPeriod (s4.siCfg (0 : Nat) R.SI.CFG.PPER) ≤ s4.kaNow) ∧ ((if 10 * 4799 < 4 * 0 then !decide (s4.siCfg (0 : Nat)
      R.SI.CFG.REF ≠ 0) else if 6 * 0 < 10 * 4799 then decide (s4.siCfg (0 : Nat) R.SI.CFG.REF ≠ 0) else (s4.siAt (0 :
      Nat)).parkRaw) ≠ (s4.siAt (0 : Nat)).parkRef) ∧ (s4.siAt (0 : Nat)).parkDiff = 0) ∧
    (s5.power = Power.park ∧ s5.siCfg (0 : Nat) R.SI.CFG.PARK ≠ 0 ∧ 0 ≤ 0 ∧ (∀ (a : Int), (s5.siAt (0 : Nat)).parkAt = some a →
      a + parkPeriod (s5.siCfg (0 : Nat) R.SI.CFG.PPER) ≤ s5.kaNow) ∧ ((if 10 * 4799 < 4 * 0 then !decide (s5.siCfg (0 : Nat)
      R.SI.CFG.REF ≠ 0) else if 6 * 0 < 10 * 4799 then decide (s5.siCfg (0 : Nat) R.SI.CFG.REF ≠ 0) else (s5.siAt (0 :
      Nat)).parkRaw) ≠ (s5.siAt (0 : Nat)).parkRef) ∧ 0 < (s5.siAt (0 : Nat)).parkDiff) := by
  refine ⟨?_, ?_⟩ <;> decide +kernel

theorem witness_IsolatedBank_1 :
    (1 ≤ s6.ioMode (0 : Nat) ∧ s6.ioMode (0 : Nat) ≤ 4 ∧ s6.fieldOk = true ∧ s6.clocked Island.io = true ∧ s6.power ≠
      Power.park ∧ (s6.ioAt (0 : Nat)).run = true ∧ (s6.ioAt (0 : Nat)).laneLost = false ∧ (s6.nextSample (if s6.ioMode (0 :
      Nat) = 3 then [100000, 500000, 1000000, 2000000].getD (s6.fld (ioPg (0 : Nat)) R.IO.CFG.PPER) 100000 else sperTicks
      (s6.fld (ioPg (0 : Nat)) R.IO.CFG.SPER)) (64 + (0 : Nat)) (s6.ioAt (0 : Nat)).last ≤ s6.tb)) ∧
    (s7.clocked Island.pwr = true ∧ s7.locked (ioPg (0 : Nat)) = false ∧ s7.bit (ioPg (0 : Nat)) R.IO.STAT.LATCH = true) ∧
    (s6.clocked Island.pwr = true ∧ (s6.locked (ioPg (0 : Nat)) = true ∨ s6.bit (ioPg (0 : Nat)) R.IO.STAT.LATCH = false)) ∧
    (s8.clocked Island.pwr = true ∧ s8.ioOutOn (0 : Nat) = true ∧ (s8.ioAt (0 : Nat)).edge + 100000 ≤ s8.tb) ∧
    (s7.clocked Island.pwr = true ∧ s7.bit (ioPg (0 : Nat)) R.IO.STAT.LATCH = true ∧ s7.safe = false ∧ s7.heldBit (80 + (0 :
      Nat)) = false) ∧
    (s9.clocked Island.pwr = true ∧ s9.ioMode (0 : Nat) = 4 ∧ s9.fieldOk = true ∧ (s9.ioAt (0 : Nat)).laneLost = false ∧ s9.bit
      (ioPg (0 : Nat)) R.IO.STAT.RB ≠ (s9.ioAt (0 : Nat)).cmd ∧ (s9.ioAt (0 : Nat)).edge + 150000 ≤ s9.tb) ∧
    ((s6.ioOutOn (0 : Nat) = false ∨ s6.clocked Island.pwr = false)) := by decide +kernel

theorem witness_IsolatedBank_2 :
    ((s6.ioMode (0 : Nat) ≠ 4 ∨ s6.clocked Island.pwr = false)) ∧
    ((s6.ioAt (0 : Nat)).laneLost = false ∧ s6.clocked Island.pwr = true) ∧
    ((s11.ioAt (0 : Nat)).quiet = some 900 ∧ 900 + 2000 ≤ s11.kaNow) ∧
    ((s6.ioAt (0 : Nat)).quiet = none) ∧
    (s6.clocked Island.pwr = true ∧ s6.fld isoPg R.ISO.FS.ST = s6.fsDie ∧ ((if 0 < 10000 then 0 else if 0 < 16000 then 1 else
      if 34000 < 0 then 3 else if 18000 ≤ 0 ∧ 0 ≤ 32000 then 2 else s6.fsDie) ≠ s6.fsDie) ∧ ((s6.fsAt + if (if 0 < 10000 then 0
      else if 0 < 16000 then 1 else if 34000 < 0 then 3 else if 18000 ≤ 0 ∧ 0 ≤ 32000 then 2 else s6.fsDie) = 2 then 1000000
      else if (if 0 < 10000 then 0 else if 0 < 16000 then 1 else if 34000 < 0 then 3 else if 18000 ≤ 0 ∧ 0 ≤ 32000 then 2 else
      s6.fsDie) = 3 then 10000 else 100000) ≤ s6.kaNow) ∧ s6.reg isoPg 80 = 0 ∧ ((if 0 < 10000 then 0 else if 0 < 16000 then 1
      else if 34000 < 0 then 3 else if 18000 ≤ 0 ∧ 0 ≤ 32000 then 2 else s6.fsDie) = 0)) ∧
    (s6.clocked Island.pwr = true ∧ s6.fld isoPg R.ISO.FS.ST = s6.fsDie ∧ ((if 11001 < 10000 then 0 else if 11001 < 16000 then
      1 else if 34000 < 11001 then 3 else if 18000 ≤ 11001 ∧ 11001 ≤ 32000 then 2 else s6.fsDie) ≠ s6.fsDie) ∧ ((s6.fsAt + if
      (if 11001 < 10000 then 0 else if 11001 < 16000 then 1 else if 34000 < 11001 then 3 else if 18000 ≤ 11001 ∧ 11001 ≤ 32000
      then 2 else s6.fsDie) = 2 then 1000000 else if (if 11001 < 10000 then 0 else if 11001 < 16000 then 1 else if 34000 <
      11001 then 3 else if 18000 ≤ 11001 ∧ 11001 ≤ 32000 then 2 else s6.fsDie) = 3 then 10000 else 100000) ≤ s6.kaNow) ∧ s6.reg
      isoPg 80 = 0 ∧ ((if 11001 < 10000 then 0 else if 11001 < 16000 then 1 else if 34000 < 11001 then 3 else if 18000 ≤ 11001
      ∧ 11001 ≤ 32000 then 2 else s6.fsDie) = 1)) ∧
    (s6.clocked Island.pwr = true ∧ s6.fld isoPg R.ISO.FS.ST = s6.fsDie ∧ ((if 34001 < 10000 then 0 else if 34001 < 16000 then
      1 else if 34000 < 34001 then 3 else if 18000 ≤ 34001 ∧ 34001 ≤ 32000 then 2 else s6.fsDie) ≠ s6.fsDie) ∧ ((s6.fsAt + if
      (if 34001 < 10000 then 0 else if 34001 < 16000 then 1 else if 34000 < 34001 then 3 else if 18000 ≤ 34001 ∧ 34001 ≤ 32000
      then 2 else s6.fsDie) = 2 then 1000000 else if (if 34001 < 10000 then 0 else if 34001 < 16000 then 1 else if 34000 <
      34001 then 3 else if 18000 ≤ 34001 ∧ 34001 ≤ 32000 then 2 else s6.fsDie) = 3 then 10000 else 100000) ≤ s6.kaNow) ∧ s6.reg
      isoPg 80 = 0 ∧ ((if 34001 < 10000 then 0 else if 34001 < 16000 then 1 else if 34000 < 34001 then 3 else if 18000 ≤ 34001
      ∧ 34001 ≤ 32000 then 2 else s6.fsDie) = 3)) := by decide +kernel

theorem witness_IsolatedBank_3 :
    (s12.clocked Island.pwr = true ∧ s12.fld isoPg R.ISO.FS.ST = s12.fsDie ∧ ((if 18000 < 10000 then 0 else if 18000 < 16000
      then 1 else if 34000 < 18000 then 3 else if 18000 ≤ 18000 ∧ 18000 ≤ 32000 then 2 else s12.fsDie) ≠ s12.fsDie) ∧
      ((s12.fsAt + if (if 18000 < 10000 then 0 else if 18000 < 16000 then 1 else if 34000 < 18000 then 3 else if 18000 ≤ 18000
      ∧ 18000 ≤ 32000 then 2 else s12.fsDie) = 2 then 1000000 else if (if 18000 < 10000 then 0 else if 18000 < 16000 then 1
      else if 34000 < 18000 then 3 else if 18000 ≤ 18000 ∧ 18000 ≤ 32000 then 2 else s12.fsDie) = 3 then 10000 else 100000) ≤
      s12.kaNow) ∧ s12.reg isoPg 80 = 0 ∧ ((if 18000 < 10000 then 0 else if 18000 < 16000 then 1 else if 34000 < 18000 then 3
      else if 18000 ≤ 18000 ∧ 18000 ≤ 32000 then 2 else s12.fsDie) = 2) ∧ 0 < 16) ∧
    (s6.clocked Island.pwr = true ∧ s6.fld isoPg R.ISO.FS.ST = s6.fsDie ∧ ((if 16000 < 10000 then 0 else if 16000 < 16000 then
      1 else if 34000 < 16000 then 3 else if 18000 ≤ 16000 ∧ 16000 ≤ 32000 then 2 else s6.fsDie) = s6.fsDie) ∧ s6.fsNew =
      false) ∧
    (s13.clocked Island.pwr = true ∧ s13.fld isoPg R.ISO.FS.ST = s13.fsDie ∧ s13.fsNew = true ∧ s13.fsDie = 0 ∧ 0 < 10000 ∧
      s13.fsAt + 100000 ≤ s13.kaNow) ∧
    (s10.clocked Island.pwr = false ∧ s10.diesWait = false ∧ fieldState 0 s10.fsDie ≠ s10.fsDie ∧ s10.fsAt + (↑(fieldDwell
      (fieldState 0 s10.fsDie)) : Int) ≤ s10.kaNow ∧ 0 < 16) := by decide +kernel

theorem witness_Clauses_ClauseTriggers :
    (s14.canonical = true ∧ 0 < 512 ∧ s14.clEval 0 = true ∧ s14.clFld 0 R.CL.SUBJ.SUBJ = 0 ∧ (match sigKind 0 with | Sig.level => false = s14.sigLevel 0 | Sig.pulse => false = true ∧ s14.pulseNext 0 ≠ none | Sig.reserved => false = false | Sig.measured => if s14.sfld (cwPg 0) (R.CL.THR.THR (0 % 32)) < s14.sigReading 0 0 then false = true else if s14.sigReading 0 0 < s14.sfld (cwPg 0) (R.CL.THR.THR (0 % 32)) - (↑(s14.clFld 0 R.CL.THR.HYS) : Int) then false = false else (s14.clauseAt 0).prev = some false) ∧ (sigKind 0 = Sig.measured → (s14.clauseAt 0).prev ≠ none) ∧ (s14.clauseAt 0).took ≠ some (s14.tb, true) ∧ s14.clFld 0 R.CL.ASP.DMODE = 0) ∧
    (s15.canonical = true ∧ 0 < 512 ∧ s15.clEval 0 = true ∧ s15.clFld 0 R.CL.SUBJ.SUBJ = 0 ∧ (match sigKind 0 with | Sig.level => false = s15.sigLevel 0 | Sig.pulse => false = true ∧ s15.pulseNext 0 ≠ none | Sig.reserved => false = false | Sig.measured => if s15.sfld (cwPg 0) (R.CL.THR.THR (0 % 32)) < s15.sigReading 0 0 then false = true else if s15.sigReading 0 0 < s15.sfld (cwPg 0) (R.CL.THR.THR (0 % 32)) - (↑(s15.clFld 0 R.CL.THR.HYS) : Int) then false = false else (s15.clauseAt 0).prev = some false) ∧ (sigKind 0 = Sig.measured → (s15.clauseAt 0).prev ≠ none) ∧ (s15.clauseAt 0).took ≠ some (s15.tb, true) ∧ s15.clFld 0 R.CL.ASP.DMODE = 1 ∧ (s15.clauseAt 0).active = false) ∧
    (s16.canonical = true ∧ 0 < 512 ∧ s16.clEval 0 = true ∧ s16.clFld 0 R.CL.SUBJ.SUBJ = 0 ∧ (match sigKind 0 with | Sig.level => false = s16.sigLevel 0 | Sig.pulse => false = true ∧ s16.pulseNext 0 ≠ none | Sig.reserved => false = false | Sig.measured => if s16.sfld (cwPg 0) (R.CL.THR.THR (0 % 32)) < s16.sigReading 0 0 then false = true else if s16.sigReading 0 0 < s16.sfld (cwPg 0) (R.CL.THR.THR (0 % 32)) - (↑(s16.clFld 0 R.CL.THR.HYS) : Int) then false = false else (s16.clauseAt 0).prev = some false) ∧ (sigKind 0 = Sig.measured → (s16.clauseAt 0).prev ≠ none) ∧ (s16.clauseAt 0).took ≠ some (s16.tb, true) ∧ s16.clFld 0 R.CL.ASP.DMODE = 2 ∧ (s16.clauseAt 0).active = false) ∧
    ((s14.rxRuns = false ∨ sigKind 80 = Sig.pulse ∧ s14.pulseNext 80 = none)) ∧
    (s14.rxRuns = true ∧ 0 ∈ s14.addressing v0) := 
  ⟨⟨by decide +kernel, by decide +kernel, by decide +kernel, by decide +kernel, (by decide +kernel : false = s14.sigLevel 0), by decide +kernel, by decide +kernel, by decide +kernel⟩,
    ⟨by decide +kernel, by decide +kernel, by decide +kernel, by decide +kernel, (by decide +kernel : false = s15.sigLevel 0), by decide +kernel, by decide +kernel, by decide +kernel, by decide +kernel⟩,
    ⟨by decide +kernel, by decide +kernel, by decide +kernel, by decide +kernel, (by decide +kernel : false = s16.sigLevel 0), by decide +kernel, by decide +kernel, by decide +kernel, by decide +kernel⟩,
    by decide +kernel,
    by decide +kernel⟩

theorem witness_Clauses_ClauseCommands_1 :
    ((s17.clauseAt (0 : Nat)).active = true ∧ s17.clFld (0 : Nat) R.CL.ASP.DMODE = 1 ∧ s17.rxRuns = true ∧ (s17.clauseAt (0 :
      Nat)).endTick ≤ s17.tb) ∧
    (s18.rxRuns = true ∧ s18.locked rxcPg = false ∧ (s18.clauseAt (0 : Nat)).active = true ∧ s18.clFld (0 : Nat) R.CL.ASP.DMODE
      ≠ 0 ∧ (¬((s18.clauseAt (0 : Nat)).active = true ∧ s18.clFld (0 : Nat) R.CL.ASP.DMODE = 1 ∧ (s18.clauseAt (0 :
      Nat)).endTick ≤ s18.tb))) ∧
    (awake.rxRuns = true ∧ (awake.locked rxcPg = true ∨ (awake.clauseAt (0 : Nat)).active = false ∨ awake.clFld (0 : Nat)
      R.CL.ASP.DMODE = 0) ∧ (¬((awake.clauseAt (0 : Nat)).active = true ∧ awake.clFld (0 : Nat) R.CL.ASP.DMODE = 1 ∧
      (awake.clauseAt (0 : Nat)).endTick ≤ awake.tb))) ∧
    (s17.rxRuns = true ∧ ((s17.clauseAt (0 : Nat)).active = true ∧ s17.clFld (0 : Nat) R.CL.ASP.DMODE = 1 ∧ (s17.clauseAt (0 :
      Nat)).endTick ≤ s17.tb)) ∧
    (s19.rxRuns = false) ∧
    (s20.locked rxcPg = false ∧ s20.clEval (0 : Nat) = true ∧ s20.clFld (0 : Nat) R.CL.ASP.DMODE ≠ 0 ∧ (s20.clauseAt (0 :
      Nat)).active = false ∧ (s20.clauseAt (0 : Nat)).took = some (s20.tb, false)) ∧
    (s21.locked rxcPg = false ∧ s21.clEval (0 : Nat) = true ∧ s21.clFld (0 : Nat) R.CL.ASP.DMODE ≠ 0 ∧ (s21.clauseAt (0 :
      Nat)).active = false ∧ (s21.clauseAt (0 : Nat)).took ≠ some (s21.tb, false)) := by decide +kernel

theorem witness_Clauses_ClauseCommands_2 :
    (awake.rxRuns = true ∧ (awake.locked rxcPg = true ∨ awake.clEval (0 : Nat) = false ∨ awake.clFld (0 : Nat) R.CL.ASP.DMODE =
      0)) ∧
    ((awake.clauseAt (0 : Nat)).broken = false ∧ awake.rxRuns = true) := by decide +kernel

theorem witness_LinkSlots :
    ((s22.slotAt (0 : Nat)).named = some 900 ∧ s22.enabled rxlPg = true ∧ s22.fld rxlPg R.RXL.REF.LREF ≠ 0 ∧ s22.rxRuns = true
      ∧ Max.max (s22.slotAt (0 : Nat)).txTick (Max.max 900 s22.rxlTick) + s22.fld rxlPg R.RXL.REF.LREF * 100 ≤ s22.tb ∧
      s22.reflexPorts = []) ∧
    (s23.lrole (0 : Nat) = 1 ∧ s23.ethUp (0 : Nat) = true ∧ s23.slotTaken (0 : Nat) = true ∧ s23.rxRuns = true ∧ 1 ≠ s23.fld
      linkPg R.LINK.DEVID.ID ∧ (s23.seqTake 1 1 0).2 = true ∧ ((s23.fld rxlPg (if (0 : Nat) < 32 then R.RXL.VAL_LO.VAL else
      R.RXL.VAL_HI.VAL)).testBit ((0 : Nat) % 32) = (s23.slotAt (0 : Nat)).val)) ∧
    (s22.slotTaken (40 : Nat) = false) ∧
    (s22.slotTaken (0 : Nat) = true ∧ s22.fld rxlPg R.RXL.TMO.LTMO ≠ 0 ∧ (s22.slotAt (0 : Nat)).out = false ∧ s22.rxRuns = true
      ∧ (s22.slotAt (0 : Nat)).rxTick + s22.fld rxlPg R.RXL.TMO.LTMO * 100 ≤ s22.tb) := by decide +kernel

end Inputs

namespace Contexts

def cxS (l : List (Fld × Nat)) (f : CtxRegs → CtxRegs) (g : State → State := id) : State := g ((put awake lcmPg ([(R.LCM.CSEL.CTX, 5)] ++ l)).modCx 5 f)
def opx : Op := { id := 0, ctx := 5, epoch := 0, kind := .load, addr := 0x10000000, w := 4, reg := 5 }
def dbgS (f : State → State) : State := f (put awake daPg [(R.DA.STAT.ST, 2)])
def pr (l : List (Nat × Nat)) (f : State → State := id) : State := f (l.foldl (fun s e => s.setFld (corePg e.1) R.CORE.STAT.ROLE e.2) { awake with pwr := { boot := .done } })
def s0 : State :=
  { (cxS [] id) with takeovers := [{ pair := some 0, cores := [0], spare := 8, start := 900 }] }
def s1 : State :=
  { awake with clkDead := [1, 2, 3, 4, 5, 6, 7, 8, 9, 10, 11, 13] }
def s2 : State :=
  lockPg awake lcmPg
def s3 : State :=
  cxS [] fun r => { r with drain := true, st := CtxSt.ready }
def s4 : State :=
  cxS [] fun r => { r with v := true, centry := 256, ctvec := 512, pri := 3 }
def s5 : State :=
  cxS [] (fun r => { r with st := CtxSt.waitev, deadline := some 5 }) fun s => { s with ops := [opx] }
def s6 : State :=
  cxS [] fun r => { r with dbl := true, st := CtxSt.halted }
def s7 : State :=
  dbgS id
def s8 : State :=
  dbgS fun s => s.setLc 0 { last := 0, dbg := true }
def s9 : State :=
  dbgS fun s => s.setLc 0 { last := 0, dbg := true, replayBuf := List.replicate 256 (0, DbgReg.pc, 0) }
def s10 : State :=
  pr [(0, 1), (8, 2)] fun s => { s with pwr := { boot := BootPh.wake, vmode := 1 } }
def s11 : State :=
  pr [(0, 1), (8, 2)] fun s => { s with takeovers := [{ pair := some 1, cores := [1], spare := 9, start := 900 }] }
def s12 : State :=
  pr [(0, 1)]
def s13 : State :=
  pr [(0, 1), (8, 2)] fun s => { s with takeovers := [{ pair := some 0, cores := [0], spare := 8, start := 900 }] }
def s14 : State :=
  pr [(0, 1), (8, 2)] fun s => { s with tb := 2000000000 }
def s15 : State :=
  pr [(0, 3), (8, 2)] fun s => { s with clkDead := [1, 2, 3] }
def s16 : State :=
  pr [(1, 1), (8, 2)] fun s => { s with lcMap := [(0, 15)] }
def v2 : List Nat :=
  []
def v3 : Option Nat :=
  some 0
def v4 : List Nat :=
  [0]

theorem witness_ContextsAndDebug_ContextCommands_1 :
    (s0.lcmHolds R.LCM.CCMD.OP.off 0 = true) ∧
    (s1.lcmHolds R.LCM.CCMD.OP.off 0 = false ∧ s1.clocked (s1.islandOf lcmPg) = false) ∧
    (s2.lcmHolds R.LCM.CCMD.OP.off 0 = false ∧ s2.clocked (s2.islandOf lcmPg) = true ∧ s2.locked lcmPg = true) ∧
    (s3.lcmHolds R.LCM.CCMD.OP.off 0 = false ∧ s3.clocked (s3.islandOf lcmPg) = true ∧ s3.locked lcmPg = false ∧ (s3.cx (s3.fld
      lcmPg R.LCM.CSEL.CTX)).drain = true) ∧
    (s4.lcmHolds R.LCM.CCMD.OP.off 0 = false ∧ s4.clocked (s4.islandOf lcmPg) = true ∧ s4.locked lcmPg = false ∧ (s4.cx (s4.fld
      lcmPg R.LCM.CSEL.CTX)).drain = false ∧ ((s4.cx (s4.fld lcmPg R.LCM.CSEL.CTX)).st = CtxSt.off ∨ (s4.cx (s4.fld lcmPg
      R.LCM.CSEL.CTX)).st = CtxSt.halted)) ∧
    (awake.lcmHolds R.LCM.CCMD.OP.off 0 = false ∧ awake.clocked (awake.islandOf lcmPg) = true ∧ awake.locked lcmPg = false ∧
      (awake.cx (awake.fld lcmPg R.LCM.CSEL.CTX)).drain = false ∧ (¬((awake.cx (awake.fld lcmPg R.LCM.CSEL.CTX)).st = CtxSt.off
      ∨ (awake.cx (awake.fld lcmPg R.LCM.CSEL.CTX)).st = CtxSt.halted)) ∧ (((awake.opsOf (awake.fld lcmPg R.LCM.CSEL.CTX)).all
      fun o => !o.slot) = true ∧ (awake.cx (awake.fld lcmPg R.LCM.CSEL.CTX)).elem = [])) ∧
    (s5.lcmHolds R.LCM.CCMD.OP.off 0 = false ∧ s5.clocked (s5.islandOf lcmPg) = true ∧ s5.locked lcmPg = false ∧ (s5.cx (s5.fld
      lcmPg R.LCM.CSEL.CTX)).drain = false ∧ (¬((s5.cx (s5.fld lcmPg R.LCM.CSEL.CTX)).st = CtxSt.off ∨ (s5.cx (s5.fld lcmPg
      R.LCM.CSEL.CTX)).st = CtxSt.halted)) ∧ (¬(((s5.opsOf (s5.fld lcmPg R.LCM.CSEL.CTX)).all fun o => !o.slot) = true ∧ (s5.cx
      (s5.fld lcmPg R.LCM.CSEL.CTX)).elem = []))) := by decide +kernel

theorem witness_ContextsAndDebug_ContextCommands_2 :
    (s6.lcmHolds R.LCM.CCMD.OP.off 0 = false ∧ s6.clocked (s6.islandOf lcmPg) = true ∧ s6.locked lcmPg = false ∧ (s6.cx (s6.fld
      lcmPg R.LCM.CSEL.CTX)).drain = false ∧ (s6.cx (s6.fld lcmPg R.LCM.CSEL.CTX)).st = CtxSt.halted) ∧
    (awake.lcmHolds R.LCM.CCMD.OP.off 0 = false ∧ awake.clocked (awake.islandOf lcmPg) = true ∧ awake.locked lcmPg = false ∧
      (awake.cx (awake.fld lcmPg R.LCM.CSEL.CTX)).drain = false ∧ (awake.cx (awake.fld lcmPg R.LCM.CSEL.CTX)).st ≠
      CtxSt.halted) ∧
    ((s3.cx (32 * (0 : Nat) + (5 : Nat))).drain = true ∧ (((s3.opsOf (32 * (0 : Nat) + (5 : Nat))).all fun o => !o.slot) = true
      ∧ (s3.cx (32 * (0 : Nat) + (5 : Nat))).elem = [])) ∧
    (((awake.cx (32 * (0 : Nat) + (0 : Nat))).drain = false ∨ ¬(((awake.opsOf (32 * (0 : Nat) + (0 : Nat))).all fun o =>
      !o.slot) = true ∧ (awake.cx (32 * (0 : Nat) + (0 : Nat))).elem = []))) := by decide +kernel

theorem witness_ContextsAndDebug_DebugAccess :
    (awake.debugOpen = false) ∧
    (s7.debugOpen = true ∧ s7.coreExists (0 : Nat) = true ∧ (∀ n < 16, (s7.lcAt n).dbg = false) ∧ s7.ops = []) ∧
    (((∃ n < 16, (awake.lcAt n).dbg = true) ∨ awake.coreExists (9 : Nat) = false)) ∧
    (s8.debugOpen = true ∧ (s8.lcAt (0 : Nat)).dbg = true ∧ s8.splitCore (0 : Nat) = false ∧ (s8.lcAt (0 :
      Nat)).replayBuf.length < 256) ∧
    (s9.debugOpen = true ∧ (s9.lcAt (0 : Nat)).dbg = true ∧ s9.splitCore (0 : Nat) = false ∧ 256 ≤ (s9.lcAt (0 :
      Nat)).replayBuf.length) ∧
    ((awake.lcAt (0 : Nat)).dbg = false) := by decide +kernel

theorem witness_LockStepPairs_1 :
    ((s10.role (0 : Nat) = 1 ∧ s10.runsSplit (0 : Nat) = false ∧ (∀ t ∈ s10.takeovers, t.pair ≠ some (0 : Nat) ∧ t.spare ≠ (0 :
      Nat)) ∧ ∀ t ∈ s10.tkWait, t.1 ≠ some (0 : Nat)) ∧ s10.takeovers = [] ∧ s10.spares = 8 :: v2 ∧ (∀ n ∈ s10.coresOf (0 :
      Nat), (s10.lcAt n).buf = []) ∧ 0 / 32 ∈ s10.coresOf (0 : Nat)) ∧
    ((s11.role (0 : Nat) = 1 ∧ s11.runsSplit (0 : Nat) = false ∧ (∀ t ∈ s11.takeovers, t.pair ≠ some (0 : Nat) ∧ t.spare ≠ (0 :
      Nat)) ∧ ∀ t ∈ s11.tkWait, t.1 ≠ some (0 : Nat)) ∧ s11.takeovers ≠ [] ∧ (∀ n ∈ s11.coresOf (0 : Nat), (s11.lcAt n).buf =
      []) ∧ 0 / 32 ∈ s11.coresOf (0 : Nat)) ∧
    ((s12.role (0 : Nat) = 1 ∧ s12.runsSplit (0 : Nat) = false ∧ (∀ t ∈ s12.takeovers, t.pair ≠ some (0 : Nat) ∧ t.spare ≠ (0 :
      Nat)) ∧ ∀ t ∈ s12.tkWait, t.1 ≠ some (0 : Nat)) ∧ s12.takeovers = [] ∧ s12.spares = [] ∧ 0 ∈ s12.coresOf (0 : Nat)) ∧
    ((s12.role (0 : Nat) = 1 ∧ s12.runsSplit (0 : Nat) = false ∧ (∀ t ∈ s12.takeovers, t.pair ≠ some (0 : Nat) ∧ t.spare ≠ (0 :
      Nat)) ∧ ∀ t ∈ s12.tkWait, t.1 ≠ some (0 : Nat)) ∧ s12.takeovers = [] ∧ s12.spares = [] ∧ (∀ n ∈ s12.coresOf (0 : Nat),
      (s12.lcAt n).coll = [] ∧ (s12.lcAt n).collNmt = false) ∧ (∀ n ∈ s12.coresOf (0 : Nat), (s12.lcAt n).buf = []) ∧ 0 / 32 ∈
      s12.coresOf (0 : Nat) ∧ (s12.ctxAt 0).com.st ≠ CtxSt.opwait) ∧
    (s10.role (8 : Nat) ≠ 1) ∧
    (s13.takeovers = [{ pair := v3, cores := v4, spare := (8 : Nat), start := 900 }]) ∧
    (8 = (8 : Nat) ∧ (s10.locked fltPg = true ∨ s10.role (8 : Nat) ≠ 1 ∨ s10.spares = [])) := by
  refine ⟨?_, ?_, ?_, ?_, ?_, ?_, ?_⟩ <;> decide +kernel

theorem witness_LockStepPairs_2 :
    (0 = (0 : Nat) ∧ s14.locked fltPg = false ∧ (s14.role (0 : Nat) = 1 ∧ s14.runsSplit (0 : Nat) = false ∧ (∀ t ∈
      s14.takeovers, t.pair ≠ some (0 : Nat) ∧ t.spare ≠ (0 : Nat)) ∧ ∀ t ∈ s14.tkWait, t.1 ≠ some (0 : Nat)) ∧ s14.takeovers =
      [] ∧ s14.pwr.boot ≠ BootPh.wake ∧ s14.spares = 8 :: v2) ∧
    (0 = (0 : Nat) ∧ s10.locked fltPg = false ∧ s10.role (0 : Nat) = 1 ∧ s10.spares ≠ [] ∧ s10.pwr.boot = BootPh.wake) ∧
    (10 ≤ 165) ∧
    (s15.role (0 : Nat) = 3 ∧ s15.power ≠ Power.park ∧ (false && s15.clocked (Island.cp (0 : Nat))) = false) ∧
    ((s10.role (0 : Nat) ≠ 3 ∨ s10.power = Power.park)) ∧
    ((8 : Nat) ∈ s14.spares ∧ s14.clocked (Island.cp (8 : Nat)) = true ∧ s14.power = Power.run ∧ (tget (fun x => 0) s14.testAt
      (8 : Nat) + 1000000000 ≤ s14.tb)) ∧
    ((s10.locked fltPg = true ∨ s10.coreExists 0 = false ∨ s10.pairOfCore 0 ≠ 15 ∨ s10.spares = [])) := by
  refine ⟨?_, ?_, ?_, ?_, ?_, ?_, ?_⟩ <;> decide +kernel

theorem witness_LockStepPairs_3 :
    (s16.locked fltPg = false ∧ s16.coreExists 0 = true ∧ s16.pairOfCore 0 = 15 ∧ s16.takeovers = [] ∧ s16.pwr.boot ≠
      BootPh.wake ∧ s16.spares = 8 :: v2 ∧ 0 / 32 ∈ List.filter s16.coreExists [0 % 8, 0 % 8 + 8]) ∧
    (s13.takeovers = [{ pair := some (0 : Nat), cores := [(0 : Nat)], spare := (8 : Nat), start := 900 }] ∧ 0 ≠ 8 ∧ s13.clocked Island.mem = true ∧ s13.tkWait = [] ∧ s13.lcmHeld = [] ∧ (s13.lcAt (0 : Nat)).coll = [] ∧ (s13.lcAt (0 : Nat)).collNmt = false) := by
  refine ⟨?_, ?_⟩ <;> decide +kernel

end Contexts

namespace Memory

def mcS (m w : Nat) (f : State → State := id) : State := f (let s := put awake mcPg [(R.MEMC.SSTAT.RUN, 1), (R.MEMC.SCRUB.EN, 1)]; { s with memc := { s.memc with word := (m, w) } })
def rowS (m row n : Nat) (f : MemSt → MemSt := id) : State := { awake with memc := f { rows := [{ mac := m, row := row, n := n }] } }
def flS (a : Nat) (f : State → State := id) : State := f (put awake flPg [(R.FL.ADDR.ADDR, a / 32)])
def fOp : FlashOp := { prog := true, at_ := 58 * 0x1000000 + 0x2000, data := [1,2,3,4,5,6,7,0x01020304] }
def fOpE : FlashOp := { prog := false, at_ := 58 * 0x1000000 + 0x2000 }
def seed (s : State) : State := { s with mem := [(58 * 0x1000000 + 0x2000, 5), (58 * 0x1000000 + 0x2040, 5), (58 * 0x1000000 + 0x9000, 5)] }
def s0 : State :=
  mcS 0 1 fun s => { s with poison := [1] }
def s1 : State :=
  mcS 0 0
def s2 : State :=
  { awake with memc := { start := none, repairs := [Repair.poison 4], nv := { sec := (false, false) } } }
def s3 : State :=
  rowS 3 7 3
def s4 : State :=
  rowS 50 7 3
def s5 : State :=
  rowS 3 7 3 fun m => { m with spent := List.map (fun k => (3, k)) (List.range 32) }
def s6 : State :=
  { awake with memc := { start := none, repairs := [Repair.remap { mac := 1, row := 2, spare := 3 }, Repair.pair 4], nv := { sec := (false, false) } } }
def s7 : State :=
  { awake with memc := { start := none, repairs := [Repair.remap { mac := 1, row := 2, spare := 3 }], nv := { used := (255, 0), sec := (false, false) } } }
def s8 : State :=
  { awake with memc := { start := none, repairs := [Repair.pair 4], nv := { sec := (false, false) } } }
def s9 : State :=
  { awake with retouchPend := [(1, 2)] }
def s10 : State :=
  dead ({ (put awake mcPg [(R.MEMC.ZADDR.ADDR, 8388609)]) with mem := [(0, 1), (32, 7), (40, 9), (64, 2)], poison := [1] })
def s11 : State :=
  lockPg awake mcPg
def s12 : State :=
  { (put awake mcPg [(R.MEMC.ZADDR.ADDR, 8388609)]) with mem := [(0, 1), (32, 7), (40, 9), (64, 2)], poison := [1] }
def s13 : State :=
  lockPg awake flPg
def s14 : State :=
  flS 0
def s15 : State :=
  flS 16777216 fun s => put s flPg [(R.PG_STAT.BUSY, 1)]
def s16 : State :=
  flS 16777216
def s17 : State :=
  { (flS 33562624) with memc := { start := none, nv := { sec := (false, false) }, flash := some fOp } }
def s18 : State :=
  seed ({ (flS 33562624) with memc := { start := none, nv := { sec := (false, false) }, flash := some fOpE } })
def v0 : RowCnt :=
  { mac := 3, row := 7, n := 3 }
def v1 : RowCnt :=
  { mac := 50, row := 7, n := 3 }
def v2 : Remap :=
  { mac := 1, row := 2, spare := 3 }
def v3 : List Repair :=
  [Repair.pair 4]
def v4 : List Repair :=
  []
def v5 : Nat × Nat :=
  (1, 2)
def v6 : List (Nat × Nat) :=
  []

theorem witness_MemoryErrors_1 :
    (s0.clocked Island.mem = true ∧ s0.bit mcPg R.MEMC.SSTAT.RUN = true ∧ s0.bit mcPg R.MEMC.SCRUB.EN = true ∧ s0.memc.word =
      (0, 1) ∧ s0.scrubSkips 0 = false ∧ 0 < 60 ∧ 1 < macroBytes 0 / 32 ∧ s0.scrubDue ≤ s0.kaNow ∧ (0 = 58 → s0.dataBusy =
      false) ∧ s0.poisoned (place 0 (32 * 1)) = true) ∧
    (s1.clocked Island.mem = true ∧ s1.bit mcPg R.MEMC.SSTAT.RUN = true ∧ s1.bit mcPg R.MEMC.SCRUB.EN = true ∧ s1.memc.word =
      (0, 0) ∧ s1.scrubSkips 0 = false ∧ 0 < 60 ∧ 0 < macroBytes 0 / 32 ∧ s1.scrubDue ≤ s1.kaNow ∧ (0 = 58 → s1.dataBusy =
      false) ∧ s1.poisoned (place 0 (32 * 0)) = false ∧ Min.min 38 (s1.symsOf (place 0 (32 * 0) / 32) + 0) = 0) ∧
    (s1.clocked Island.mem = true ∧ s1.bit mcPg R.MEMC.SSTAT.RUN = true ∧ s1.bit mcPg R.MEMC.SCRUB.EN = true ∧ s1.memc.word =
      (0, 0) ∧ s1.scrubSkips 0 = false ∧ 0 < 60 ∧ 0 < macroBytes 0 / 32 ∧ s1.scrubDue ≤ s1.kaNow ∧ (0 = 58 → s1.dataBusy =
      false) ∧ s1.poisoned (place 0 (32 * 0)) = false ∧ 1 ≤ Min.min 38 (s1.symsOf (place 0 (32 * 0) / 32) + 1) ∧ Min.min 38
      (s1.symsOf (place 0 (32 * 0) / 32) + 1) ≤ 3) ∧
    (s1.clocked Island.mem = true ∧ s1.bit mcPg R.MEMC.SSTAT.RUN = true ∧ s1.bit mcPg R.MEMC.SCRUB.EN = true ∧ s1.memc.word =
      (0, 0) ∧ s1.scrubSkips 0 = false ∧ 0 < 60 ∧ 0 < macroBytes 0 / 32 ∧ s1.scrubDue ≤ s1.kaNow ∧ (0 = 58 → s1.dataBusy =
      false) ∧ s1.poisoned (place 0 (32 * 0)) = false ∧ (38 < 39 ∧ 39 ≤ 41 ∧ s1.symsOf (place 0 (32 * 0) / 32) < 4)) ∧
    (s1.clocked Island.mem = true ∧ s1.bit mcPg R.MEMC.SSTAT.RUN = true ∧ s1.bit mcPg R.MEMC.SCRUB.EN = true ∧ s1.memc.word =
      (0, 0) ∧ s1.scrubSkips 0 = false ∧ 0 < 60 ∧ 0 < macroBytes 0 / 32 ∧ s1.scrubDue ≤ s1.kaNow ∧ (0 = 58 → s1.dataBusy =
      false) ∧ s1.poisoned (place 0 (32 * 0)) = false ∧ (¬(38 < 4 ∧ 4 ≤ 41 ∧ s1.symsOf (place 0 (32 * 0) / 32) < 4)) ∧ 3 <
      Min.min 38 (s1.symsOf (place 0 (32 * 0) / 32) + 4)) ∧
    ((s2.clocked Island.mem = false ∨ s2.bit mcPg R.MEMC.SSTAT.RUN = false ∨ s2.bit mcPg R.MEMC.SCRUB.EN = false)) ∧
    (s2.clocked Island.mem = true ∧ (∀ (t : Nat), s2.memc.start = some t → t + s2.fld mcPg R.MEMC.PER.MS * 100000 ≤ s2.tb)) := by
  refine ⟨?_, ?_, ?_, ?_, ?_, ?_, ?_⟩ <;> decide +kernel

theorem witness_MemoryErrors_2 :
    (s1.clocked Island.mem = true ∧ (∀ (t : Nat), s1.memc.start = some t → t + s1.fld mcPg R.MEMC.PER.MS * 100000 ≤ s1.tb) ∧
      s1.bit mcPg R.MEMC.SSTAT.RUN = true) ∧
    ((List.find? (fun r => decide (r.mac = (3 : Nat)) && decide (r.row = 7) && r.due) s3.memc.rows = some v0) ∧ s3.clocked
      Island.mem = true ∧ s3.macroRuns (3 : Nat) = true ∧ (isFlash (3 : Nat) = true → s3.memc.flash = none ∧ s3.bit flPg
      R.FL.STAT.HWOP = false) ∧ (List.find? (fun k => !(s3.sparesUsed (3 : Nat)).contains k) (List.range 32) = some 0) ∧
      (isFlash (3 : Nat) = false ∨ false = true)) ∧
    ((List.find? (fun r => decide (r.mac = (50 : Nat)) && decide (r.row = 7) && r.due) s4.memc.rows = some v1) ∧ s4.clocked
      Island.mem = true ∧ s4.macroRuns (50 : Nat) = true ∧ (isFlash (50 : Nat) = true → s4.memc.flash = none ∧ s4.bit flPg
      R.FL.STAT.HWOP = false) ∧ (List.find? (fun k => !(s4.sparesUsed (50 : Nat)).contains k) (List.range 32) = some 0) ∧
      isFlash (50 : Nat) = true ∧ false = false) ∧
    ((List.find? (fun r => decide (r.mac = (3 : Nat)) && decide (r.row = 7) && r.due) s5.memc.rows = some v0) ∧ s5.clocked
      Island.mem = true ∧ s5.macroRuns (3 : Nat) = true ∧ (isFlash (3 : Nat) = true → s5.memc.flash = none ∧ s5.bit flPg
      R.FL.STAT.HWOP = false) ∧ (List.find? (fun k => !(s5.sparesUsed (3 : Nat)).contains k) (List.range 32) = none) ∧ v0.told
      = false) ∧
    (s6.clocked Island.mem = true ∧ s6.memc.flash = none ∧ s6.upd.piece = none ∧ s6.memc.repairs = Repair.remap v2 :: v3 ∧
      s6.memc.nv.used.1 < 255) ∧
    (s7.clocked Island.mem = true ∧ s7.memc.flash = none ∧ s7.upd.piece = none ∧ s7.memc.repairs = Repair.remap v2 :: v4 ∧
      ¬s7.memc.nv.used.1 < 255) ∧
    (s8.clocked Island.mem = true ∧ s8.memc.flash = none ∧ s8.upd.piece = none ∧ s8.memc.repairs = Repair.pair 4 :: v4 ∧
      s8.memc.nv.used.1 < 255) := by
  refine ⟨?_, ?_, ?_, ?_, ?_, ?_, ?_⟩ <;> decide +kernel

theorem witness_MemoryErrors_3 :
    (s2.clocked Island.mem = true ∧ s2.memc.flash = none ∧ s2.upd.piece = none ∧ s2.memc.repairs = Repair.poison 4 :: v4 ∧
      s2.memc.nv.used.1 < 255) ∧
    (s9.clocked Island.mem = true ∧ s9.memc.flash = none ∧ s9.upd.piece = none ∧ s9.memc.repairs = [] ∧ s9.retouchPend = v5 ::
      v6) := by
  refine ⟨?_, ?_⟩ <;> decide +kernel

theorem witness_FlashCommands_1 :
    (s10.clocked Island.mem = false) ∧
    (s11.clocked Island.mem = true ∧ s11.locked mcPg = true) ∧
    (s12.clocked Island.mem = true ∧ s12.locked mcPg = false ∧ s12.placeOf (32 * s12.fld mcPg R.MEMC.ZADDR.ADDR) = some 32 ∧
      placeMacro 32 ≤ 44) ∧
    (s13.clocked Island.mem = true ∧ s13.locked mcPg = false ∧ s13.placeOf (32 * s13.fld mcPg R.MEMC.ZADDR.ADDR) = some
      771751936 ∧ 44 < placeMacro 771751936) ∧
    (s13.clocked Island.mem = true ∧ s13.locked flPg = true) ∧
    (s14.clocked Island.mem = true ∧ s14.locked flPg = false ∧ s14.flTarget true = none) ∧
    (s14.clocked Island.mem = true ∧ s14.locked flPg = false ∧ s14.flTarget false = none) := by decide +kernel

theorem witness_FlashCommands_2 :
    (s15.clocked Island.mem = true ∧ s15.locked flPg = false ∧ s15.flTarget true = some 872415232 ∧ (s15.bit flPg
      R.PG_STAT.BUSY = true ∨ s15.erased 872415232 32 = false)) ∧
    (s15.clocked Island.mem = true ∧ s15.locked flPg = false ∧ s15.flTarget false = some 872415232 ∧ s15.bit flPg
      R.PG_STAT.BUSY = true) ∧
    (s16.clocked Island.mem = true ∧ s16.locked flPg = false ∧ s16.bit flPg R.PG_STAT.BUSY = false ∧ s16.flTarget true = some
      872415232 ∧ s16.erased 872415232 32 = true ∧ (placeMacro 872415232 = 58 ∨ s16.fld 592 R.UPD.STAT.ST = 0)) ∧
    (s16.clocked Island.mem = true ∧ s16.locked flPg = false ∧ s16.bit flPg R.PG_STAT.BUSY = false ∧ s16.flTarget false = some
      872415232 ∧ (placeMacro 872415232 = 58 ∨ s16.fld 592 R.UPD.STAT.ST = 0)) ∧
    (s17.memc.flash = some fOp ∧ s17.clocked Island.mem = true ∧ s17.memc.repairs = [] ∧ s17.retouchPend = [] ∧ ((List.any
      s17.cry.ctrs fun x => x.2.wr.isSome) = false) ∧ s17.upd.piece = none) ∧
    (s17.memc.flash = some fOp ∧ s17.clocked Island.mem = true ∧ false = false) ∧
    (s17.memc.flash = some fOp ∧ s17.clocked Island.mem = true ∧ fOp.prog = true ∧ fOp.data.length = 8 ∧ (0 < fOp.at_ ∨ fOp.at_
      + 32 ≤ 0)) := by decide +kernel

theorem witness_FlashCommands_3 :
    (s17.memc.flash = some fOp ∧ s17.clocked Island.mem = true ∧ fOp.prog = true ∧ fOp.data.length = 8 ∧ true = true ∧ 0 < 8 ∧
      0 < 4) ∧
    (s18.memc.flash = some fOpE ∧ s18.clocked Island.mem = true ∧ fOpE.prog = false ∧ (sectorBase (sectorOf fOpE.at_) ≤
      973086720 ∧ 973086720 < sectorBase (sectorOf fOpE.at_) + sectorBytes (sectorOf fOpE.at_)) ∧ true = true) ∧
    (s18.memc.flash = some fOpE ∧ s18.clocked Island.mem = true ∧ fOpE.prog = false ∧ (¬(sectorBase (sectorOf fOpE.at_) ≤ 0 ∧ 0
      < sectorBase (sectorOf fOpE.at_) + sectorBytes (sectorOf fOpE.at_)))) := by decide +kernel

end Memory

namespace Faults

def rs (c : Nat) (s : State) : State := s.setReg fltPg (R.FLT.RAISED.R (c / 32)).off (1 <<< (c % 32))
def rz (c pg : Nat) (s : State) : State := { s with raises := [⟨c, .page pg⟩] }
def sf (s : State) : State := s.setBit fltPg R.FLT.STAT.SAFE true
def s0 : State :=
  rz 8 4 awake
def s1 : State :=
  rz 8 4 (rs 8 awake)
def s2 : State :=
  rz 70 256 awake
def s3 : State :=
  rz 1 0 awake
def s4 : State :=
  lockPg (put awake 5 [(R.PMU.SUP.VLOK, 1)]) fltPg
def s5 : State :=
  { (put awake 5 [(R.PMU.SUP.VLOK, 1)]) with tb := 100000 }
def s6 : State :=
  { awake with power := Power.park }
def s7 : State :=
  sf (put awake 5 [(R.PMU.SUP.VLOK, 1)])
def v0 : List (BitVec 8) :=
  [70]
def v1 : List Cause :=
  []

theorem witness_SourceReactions :
    ((∀ x ∈ v0, ∀ c ∈ s0.raises, c.src ≠ x.toNat)) ∧
    (s1.raises = { src := 8, det := Detail.page 4 } :: v1 ∧ srcReserved 8 = false ∧ 8 ≠ 19 ∧ 8 ≠ 232 ∧ s1.flt.log.length < 64 ∧ s1.raised 8 = true) ∧
    (s2.raises = { src := 70, det := Detail.page 256 } :: v1 ∧ srcReserved 70 = false ∧ 70 ≠ 19 ∧ 70 ≠ 232 ∧ s2.flt.log.length < 64 ∧ s2.raised 70 = false ∧ (tget (fun x => 0) s2.flt.comp 70 = 0) ∧ ¬s2.scfgFld 70 R.FLT.SCFG.SAFE = 1 ∧ ¬s2.scfgFld 70 R.FLT.SCFG.ALIVE = 1 ∧ ¬s2.scfgFld 70 R.FLT.SCFG.BRST = 1 ∧ ¬s2.scfgFld 70 R.FLT.SCFG.CRST = 1 ∧ s2.pairOfCore (s2.scfgFld 70 R.FLT.SCFG.CORE) ≠ 15) ∧
    (s3.raises = { src := 1, det := Detail.page 0 } :: v1 ∧ srcReserved 1 = false ∧ 1 ≠ 19 ∧ 1 ≠ 232 ∧ s3.flt.log.length < 64 ∧ s3.raised 1 = false ∧ (tget (fun x => 0) s3.flt.comp 1 = 0) ∧ s3.flt.arunAt ≠ some (s3.kaNow / 100) ∧ s3.scfgFld 1 R.FLT.SCFG.SAFE = 1 ∧ ¬s3.scfgFld 1 R.FLT.SCFG.INT = 1 ∧ ¬s3.scfgFld 1 R.FLT.SCFG.NMT = 1 ∧ ¬s3.scfgFld 1 R.FLT.SCFG.BRST = 1 ∧ ¬s3.scfgFld 1 R.FLT.SCFG.CRST = 1 ∧ s3.safe = false) := by decide +kernel

theorem witness_SafeState_1 :
    ((s4.locked fltPg = true ∨ s4.safe = true)) ∧
    (s5.power ≠ Power.park ∧ s5.bit fltPg R.FLT.STAT.SAFEN = false ∧ s5.safe = false) ∧
    (s6.power = Power.park) ∧
    ((s5.locked fltPg = true ∨ s5.safe = false ∨ s5.bit fltPg R.FLT.STAT.SAFEN = true ∨ s5.bit fltPg R.FLT.STAT.SELF = true ∨ ∃
      c < 256, s5.raised c = true ∧ s5.reactsSafe c = true)) ∧
    (s7.locked fltPg = false ∧ s7.safe = true ∧ s7.bit fltPg R.FLT.STAT.SAFEN = false ∧ s7.bit fltPg R.FLT.STAT.SELF = false ∧
      (∀ c < 256, s7.raised c = true → s7.reactsSafe c = false)) ∧
    (s4.bit 5 R.PMU.SUP.VLOK = true ∧ s4.power ≠ Power.park ∧ (s4.locked fltPg = true ∨ s4.safe = true ∨ s4.bit fltPg
      R.FLT.STAT.ALIVE = true ∨ s4.flt.stopAt = some (s4.kaNow / 100))) ∧
    (s5.bit 5 R.PMU.SUP.VLOK = true ∧ s5.power ≠ Power.park ∧ s5.locked fltPg = false ∧ s5.safe = false ∧ s5.bit fltPg
      R.FLT.STAT.ALIVE = false ∧ s5.flt.stopAt ≠ some (s5.kaNow / 100)) := by decide +kernel

theorem witness_SafeState_2 :
    ((awake.bit 5 R.PMU.SUP.VLOK = false ∨ awake.power = Power.park)) ∧
    (s5.aliveDue ≤ s5.kaNow) ∧
    (s4.locked fltPg = true) ∧
    (s5.locked fltPg = false ∧ 0 < 256) ∧
    ((tget (fun x => 0) s5.flt.comp (229 : Nat) ≠ 256#32) ∧ s5.sweepDue (229 : Nat) ≤ s5.kaNow ∧ s5.flt.bad.contains (229 :
      Nat) = false ∧ s5.safe = false ∧ s5.flt.log.length < 64) ∧
    (s5.flt.tempAt + 10000 ≤ s5.kaNow ∧ 1400 ≤ 1400 ∧ 1400 < 1500 ∧ s5.flt.hot = []) ∧
    (s5.flt.tempAt + 10000 ≤ s5.kaNow ∧ 1500 ≤ 1500 ∧ s5.flt.hot = []) := by decide +kernel

theorem witness_SafeState_3 :
    (s5.flt.tempAt + 10000 ≤ s5.kaNow ∧ 1299 ≤ 1300) := by decide +kernel

end Faults

namespace Can

def caS (st : Nat) (l : List (Fld × Nat)) (f : Can → Can := id) : State := { put { awake with tb := 2000000 } (canPg 0) ([(R.PG_CTRL.EN, 1), (R.CAN.STAT.STATE, st)] ++ l) with cans := [(0, f {})] }
def rxp : List State := [put (caS 3 [(R.WAKE.CFG.WMODE, 2)]) (canPg 0) [(R.WAKE.STAT.FEC, 31)], caS 3 [(R.WAKE.CFG.WMODE, 2)], caS 3 [(R.WAKE.CFG.WMODE, 2), (R.WAKE.STAT.FEC, 4)]]
def rx : List State := [caS 3 [(R.CAN.MODE.FDEN, 0)]] ++ rxp ++ [caS 3 [] fun c => { c with rx := true }, caS 3 [] fun c => { c with rx := true, rxPast := true, rxXl := true }, caS 4 [(R.TXS.STAT.ST 3, 2), (R.CAN.ECNT.TEC, 250)]] ++ ((List.range 8).map fun st => caS st []) ++ [caS 3 [(R.FE.ID.EN 1, 1), (R.FE.ACT.FMTS 1, 1), (R.FE.ACT.EARLY 1, 1), (R.CAN.ECNT.REC, 5)], caS 4 [(R.CAN.ECNT.REC, 128), (R.CAN.MODE.FDEN, 1), (R.FE.ID.EN 1, 1), (R.FE.ACT.FMTS 1, 1)], caS 3 [(R.CAN.ECNT.TEC, 127)], caS 4 [(R.CAN.ECNT.TEC, 250)], caS 4 [(R.CAN.ECNT.REC, 250)], (caS 3 []).setBit fltPg R.FLT.STAT.SAFE true]
def s0 : State :=
  dead (caS 7 [(R.CAN.AB.NCAND, 2), (R.CAN.AB.ROUNDS, 1), (R.CAN.STAT.ABIDX, 1)] fun c => { c with abErr := true })
def s1 : State :=
  caS 7 [(R.CAN.AB.NCAND, 2), (R.CAN.AB.ROUNDS, 1), (R.CAN.STAT.ABIDX, 1)] fun c => { c with abErr := true }
def s2 : State :=
  (fun st => caS st []) 1
def s3 : State :=
  caS 3 [(R.TXS.STAT.ST 3, 2)]
def s4 : State :=
  caS 1 [(R.CAN.AB.NCAND, 2)]
def s5 : State :=
  caS 7 [(R.CAN.AB.NCAND, 2)] fun c => { c with abFrames := 2 }
def s6 : State :=
  caS 7 [(R.CAN.AB.NCAND, 2), (R.CAN.AB.GO, 1), (R.CAN.AB.ADOPT, 1)]
def s7 : State :=
  caS 7 [(R.CAN.AB.NCAND, 2), (R.CAN.AB.ROUNDS, 0), (R.CAN.STAT.ABIDX, 1)] fun c => { c with abErr := true }
def s8 : State :=
  { (caS 5 [(R.CAN.MODE.BOAUTO, 1)]) with tb := 20000000000 }
def s9 : State :=
  caS 5 [] fun c => { c with boRec := true }
def s10 : State :=
  (fun st => caS st []) 2
def s11 : State :=
  caS 3 [(R.CAN.TRX.MODE, 1)]
def s12 : State :=
  dead (caS 0 [])
def s13 : State :=
  caS 0 []
def s14 : State :=
  caS 3 [(R.TXS.ADDR.ADDR 3, 268435456 / 4)]
def s15 : State :=
  caS 3 []
def s16 : State :=
  caS 3 [(R.TXS.STAT.ST 3, 1)]
def s17 : State :=
  caS 3 [(R.TXS.STAT.ST 3, 2)] fun c => { c with trxOff := true }
def s18 : State :=
  caS 3 [(R.CAN.MODE.FDEN, 0)]
def s19 : State :=
  caS 3 [] fun c => { c with rx := true, rxPast := true, rxXl := true }
def s20 : State :=
  pkd (put (caS 3 [(R.WAKE.CFG.WMODE, 2)]) (canPg 0) [(R.WAKE.STAT.FEC, 31)])
def s21 : State :=
  pkd (caS 3 [(R.WAKE.CFG.WMODE, 2)])
def s22 : State :=
  caS 4 [(R.TXS.STAT.ST 3, 2), (R.CAN.ECNT.TEC, 250)]
def v0 : CanFrame :=
  { fmt := 0, ide := false, id := 291, len := 2, data := [1, 2] }
def v1 : CanFrame :=
  { fmt := 1, ide := true, id := 74565, len := 2, data := [1, 2] }
def v2 : CanFlag :=
  {}

theorem witness_CanStates_1 :
    (s0.canRuns = false) ∧
    (s1.canRuns = true ∧ (s1.locked (canPg (0 : Nat)) = true ∨ s1.canState (0 : Nat) ≠ 1 ∧ s1.canState (0 : Nat) ≠ 6)) ∧
    (s2.canRuns = true ∧ s2.locked (canPg (0 : Nat)) = false ∧ (s2.canState (0 : Nat) = 1 ∨ s2.canState (0 : Nat) = 6)) ∧
    (s1.canRuns = true ∧ (s1.locked (canPg (6 : Nat)) = true ∨ s1.canState (6 : Nat) ≤ 1)) ∧
    (s1.canRuns = true ∧ s1.locked (canPg (0 : Nat)) = false ∧ 1 < s1.canState (0 : Nat) ∧ s1.txActive (0 : Nat) = none ∧
      (s1.canAt (0 : Nat)).rx = false) ∧
    (s3.canRuns = true ∧ s3.locked (canPg (0 : Nat)) = false ∧ 1 < s3.canState (0 : Nat) ∧ (s3.txActive (0 : Nat) ≠ none ∨
      (s3.canAt (0 : Nat)).rx = true)) ∧
    (s1.canRuns = true ∧ (s1.locked (canPg (0 : Nat)) = true ∨ s1.canState (0 : Nat) ≠ 1 ∨ s1.fld (canPg (0 : Nat))
      R.CAN.AB.NCAND = 0)) := by decide +kernel

theorem witness_CanStates_2 :
    (s4.canRuns = true ∧ s4.locked (canPg (0 : Nat)) = false ∧ s4.canState (0 : Nat) = 1 ∧ s4.fld (canPg (0 : Nat))
      R.CAN.AB.NCAND ≠ 0) ∧
    (s5.canRuns = true ∧ s5.canState (0 : Nat) = 7 ∧ ((s5.canAt (0 : Nat)).abErr = false ∧ 2 ≤ (s5.canAt (0 : Nat)).abFrames)) ∧
    (s1.canRuns = true ∧ s1.canState (0 : Nat) = 7 ∧ (¬((s1.canAt (0 : Nat)).abErr = false ∧ 2 ≤ (s1.canAt (0 :
      Nat)).abFrames))) ∧
    (s6.canRuns = true ∧ s6.canState (0 : Nat) = 7 ∧ ((s6.canAt (0 : Nat)).abErr = true ∨ (s6.canAt (0 : Nat)).abFrames < 2 ∧
      (s6.canAt (0 : Nat)).abStart + s6.fld (canPg (0 : Nat)) R.CAN.AB.TMO * 100000 ≤ s6.tb) ∧ s6.fld (canPg (0 : Nat))
      R.CAN.STAT.ABIDX + 1 < s6.fld (canPg (0 : Nat)) R.CAN.AB.NCAND) ∧
    (s7.canRuns = true ∧ s7.canState (0 : Nat) = 7 ∧ ((s7.canAt (0 : Nat)).abErr = true ∨ (s7.canAt (0 : Nat)).abFrames < 2 ∧
      (s7.canAt (0 : Nat)).abStart + s7.fld (canPg (0 : Nat)) R.CAN.AB.TMO * 100000 ≤ s7.tb) ∧ s7.fld (canPg (0 : Nat))
      R.CAN.AB.NCAND ≤ s7.fld (canPg (0 : Nat)) R.CAN.STAT.ABIDX + 1 ∧ (s7.fld (canPg (0 : Nat)) R.CAN.AB.ROUNDS = 0 ∨
      (s7.canAt (0 : Nat)).abRound + 1 < s7.fld (canPg (0 : Nat)) R.CAN.AB.ROUNDS)) ∧
    (s1.canRuns = true ∧ s1.canState (0 : Nat) = 7 ∧ ((s1.canAt (0 : Nat)).abErr = true ∨ (s1.canAt (0 : Nat)).abFrames < 2 ∧
      (s1.canAt (0 : Nat)).abStart + s1.fld (canPg (0 : Nat)) R.CAN.AB.TMO * 100000 ≤ s1.tb) ∧ s1.fld (canPg (0 : Nat))
      R.CAN.AB.NCAND ≤ s1.fld (canPg (0 : Nat)) R.CAN.STAT.ABIDX + 1 ∧ s1.fld (canPg (0 : Nat)) R.CAN.AB.ROUNDS ≠ 0 ∧ s1.fld
      (canPg (0 : Nat)) R.CAN.AB.ROUNDS ≤ (s1.canAt (0 : Nat)).abRound + 1) ∧
    (s1.canRuns = true ∧ (s1.locked (canPg (0 : Nat)) = true ∨ s1.canState (0 : Nat) ≠ 5)) := by decide +kernel

theorem witness_CanStates_3 :
    (s8.canRuns = true ∧ s8.locked (canPg (0 : Nat)) = false ∧ s8.canState (0 : Nat) = 5) ∧
    (s8.canRuns = true ∧ s8.canState (0 : Nat) = 5 ∧ s8.bit (canPg (0 : Nat)) R.CAN.MODE.BOAUTO = true ∧ (s8.canAt (0 :
      Nat)).boRec = false ∧ (s8.canAt (0 : Nat)).boTick + s8.fld (canPg (0 : Nat)) R.CAN.RETRY.BODLY * 100000 ≤ s8.tb) ∧
    (s9.canRuns = true ∧ s9.canState (0 : Nat) = 5 ∧ (s9.canAt (0 : Nat)).boRec = true) ∧
    (s10.canRuns = true ∧ s10.canState (0 : Nat) = 2 ∧ (s10.canAt (0 : Nat)).stop = none) ∧
    (s11.canRuns = true ∧ s11.fld (canPg (0 : Nat)) R.CAN.TRX.MODE = 1) ∧
    (s1.canRuns = true ∧ s1.fld (canPg (0 : Nat)) R.CAN.TRX.MODE ≠ 1) ∧
    (s1.canRuns = true ∧ s1.canState (0 : Nat) ≠ 0) := by decide +kernel

theorem witness_CanSlots_1 :
    (s12.nmOn = false ∧ s12.canRuns = false) ∧
    (s13.nmOn = false ∧ s13.canRuns = true ∧ (s13.locked (canPg (0 : Nat)) = true ∨ s13.canState (0 : Nat) = 0 ∨ s13.txSt (0 :
      Nat) (0 : Nat) = 1 ∨ s13.txSt (0 : Nat) (0 : Nat) = 2)) ∧
    (s14.nmOn = false ∧ s14.canRuns = true ∧ s14.locked (canPg (0 : Nat)) = false ∧ s14.canState (0 : Nat) ≠ 0 ∧ s14.txSt (0 :
      Nat) (3 : Nat) ≠ 1 ∧ s14.txSt (0 : Nat) (3 : Nat) ≠ 2 ∧ (s14.canAt (0 : Nat)).nmDue = [] ∧ s14.nmState = 0 ∧ s14.sound
      (s14.fld (canPg (0 : Nat)) (R.TXS.ADDR.ADDR (3 : Nat)) * 4) 24 = true ∧ s14.recOk (0 : Nat) (s14.fld (canPg (0 : Nat))
      (R.TXS.ADDR.ADDR (3 : Nat)) * 4) = true) ∧
    (s15.nmOn = false ∧ s15.canRuns = true ∧ s15.locked (canPg (0 : Nat)) = false ∧ s15.canState (0 : Nat) ≠ 0 ∧ s15.txSt (0 :
      Nat) (0 : Nat) ≠ 1 ∧ s15.txSt (0 : Nat) (0 : Nat) ≠ 2 ∧ (s15.canAt (0 : Nat)).nmDue = [] ∧ s15.nmState = 0 ∧ s15.sound
      (s15.fld (canPg (0 : Nat)) (R.TXS.ADDR.ADDR (0 : Nat)) * 4) 24 = true ∧ s15.recOk (0 : Nat) (s15.fld (canPg (0 : Nat))
      (R.TXS.ADDR.ADDR (0 : Nat)) * 4) = false) ∧
    (s13.nmOn = false ∧ s13.canRuns = true ∧ (s13.locked (canPg (0 : Nat)) = true ∨ s13.txSt (0 : Nat) (0 : Nat) ≠ 1 ∧ s13.txSt
      (0 : Nat) (0 : Nat) ≠ 2)) ∧
    (s16.nmOn = false ∧ s16.canRuns = true ∧ s16.locked (canPg (0 : Nat)) = false ∧ s16.txSt (0 : Nat) (3 : Nat) = 1 ∧
      (s16.canAt (0 : Nat)).nmDue = [] ∧ (s16.txAt (0 : Nat) (3 : Nat)).nm = none) ∧
    (s3.nmOn = false ∧ s3.canRuns = true ∧ s3.locked (canPg (0 : Nat)) = false ∧ s3.txSt (0 : Nat) (3 : Nat) = 2) := by
  refine ⟨?_, ?_, ?_, ?_, ?_, ?_, ?_⟩ <;> decide +kernel

theorem witness_CanSlots_2 :
    (s15.canLive (0 : Nat) = true ∧ s15.txActive (0 : Nat) = none ∧ s15.nmOn = false ∧ (s15.canAt (0 : Nat)).rx = false ∧
      (s15.canAt (0 : Nat)).stop = none ∧ (s15.canAt (0 : Nat)).cfgPend = false ∧ (∀ x < 16, s15.txSt (0 : Nat) x ≠ 1)) ∧
    (s16.canLive (0 : Nat) = true ∧ s16.txActive (0 : Nat) = none ∧ s16.nmOn = false ∧ (s16.canAt (0 : Nat)).rx = false ∧
      (s16.canAt (0 : Nat)).stop = none ∧ (s16.canAt (0 : Nat)).cfgPend = false ∧ (∃ x < 16, s16.txSt (0 : Nat) x = 1)) ∧
    (s3.canRuns = true ∧ s3.txActive (0 : Nat) = some 3 ∧ 3 < 16 ∧ (s3.canAt (0 : Nat)).stop = none ∧ (s3.canAt (0 :
      Nat)).cfgPend = false ∧ (s3.canAt (0 : Nat)).nmDue = [] ∧ (s3.txAt (0 : Nat) 3).cxl = false ∧ (s3.txAt (0 : Nat) 3).nm =
      none ∧ s3.nmOn = false ∧ s3.bit (canPg (0 : Nat)) R.CAN.MODE.SELFRX = false ∧ (s3.canAt (0 : Nat)).trxOff = false ∧
      s3.sound (s3.txAt (0 : Nat) 3).addr (24 + (s3.txFrame (0 : Nat) 3).data.length) = true) ∧
    (s17.canRuns = true ∧ s17.txActive (0 : Nat) = some 3 ∧ 3 < 16 ∧ (s17.canAt (0 : Nat)).stop = none ∧ (s17.canAt (0 :
      Nat)).cfgPend = false ∧ (s17.canAt (0 : Nat)).nmDue = [] ∧ (s17.txAt (0 : Nat) 3).cxl = false ∧ (s17.txAt (0 : Nat) 3).nm
      = none ∧ s17.nmOn = false ∧ (s17.canAt (0 : Nat)).trxOff = true) := by
  refine ⟨?_, ?_, ?_, ?_⟩ <;> decide +kernel

theorem witness_CanReception_1 :
    (s18.canDecodes (6 : Nat) = false ∧ s18.canHears (6 : Nat) = false) ∧
    (s18.canHears (0 : Nat) = true ∧ s18.canFmt (0 : Nat) v1.fmt = false ∧ CanRx.arb ≠ CanRx.sof) ∧
    (s18.canHears (0 : Nat) = true ∧ s18.canFmt (0 : Nat) v0.fmt = true ∧ (s18.canAt (0 : Nat)).rxPast = false) ∧
    (s19.canHears (0 : Nat) = true ∧ s19.canFmt (0 : Nat) v0.fmt = true ∧ (s19.canAt (0 : Nat)).rxPast = true) ∧
    (s18.canHears (0 : Nat) = true ∧ s18.canFmt (0 : Nat) v0.fmt = true ∧ s18.safe = false ∧ (s18.canState (0 : Nat) = 3 ∨
      s18.canState (0 : Nat) = 4) ∧ s18.fld (canPg (0 : Nat)) R.CAN.ECNT.TEC ≤ 127 ∧ (s18.canAt (0 : Nat)).stop = none ∧
      (s18.canAt (0 : Nat)).cfgPend = false ∧ (List.find? (fun e => s18.feMatch (0 : Nat) v0 e && s18.fld (canPg (0 : Nat))
      (R.FE.ACT.DEST e) != 0) (List.range 64) = none) ∧ s18.fld (canPg (0 : Nat)) R.CAN.MODE.NOMATCH = 0 ∧ s18.nmOn = false ∧
      s18.nm.hold = none) ∧
    (s20.canDecodes (0 : Nat) = true ∧ 31 = s20.fld (canPg (0 : Nat)) R.WAKE.STAT.FEC ∧ v0.fmt = 0) ∧
    (s21.canDecodes (0 : Nat) = true ∧ 0 = s21.fld (canPg (0 : Nat)) R.WAKE.STAT.FEC ∧ 0 < 31) := by decide +kernel

theorem witness_CanReception_2 :
    (s20.canDecodes (0 : Nat) = true ∧ 31 = s20.fld (canPg (0 : Nat)) R.WAKE.STAT.FEC ∧ 31 ≤ 31) ∧
    (0 < 8 ∧ 0 < 2 ∧ (s18.fld (canPg 0) (R.RXF.CFG.NREC 0) < 2 ∨ (s18.fld (canPg 0) (R.RXF.IDX.PUT 0) + 1) % s18.fld (canPg 0)
      (R.RXF.CFG.NREC 0) = s18.fld (canPg 0) (R.RXF.IDX.GET 0))) ∧
    (s18.canHears (0 : Nat) = true ∧ 1 ≠ 0) ∧
    (s19.canLive (0 : Nat) = true ∧ 1 ≠ 0 ∧ ((s19.canAt (0 : Nat)).stop = none ∧ (s19.canAt (0 : Nat)).cfgPend = false) ∧ (true
      = true ∧ s19.canXlFrame (0 : Nat) = true)) ∧
    (s18.canLive (0 : Nat) = true ∧ 1 ≠ 0 ∧ ((s18.canAt (0 : Nat)).stop = none ∧ (s18.canAt (0 : Nat)).cfgPend = false) ∧
      (¬(false = true ∧ s18.canXlFrame (0 : Nat) = true)) ∧ ((if false = true then (if 1 = 3 ∧ s18.canState (0 : Nat) = 4 ∧
      v2.dom = false ∨ 1 = 1 ∧ v2.arbStuff = true then s18.fld (canPg (0 : Nat)) R.CAN.ECNT.TEC else s18.fld (canPg (0 : Nat))
      R.CAN.ECNT.TEC + 8) + 8 * v2.runs else s18.fld (canPg (0 : Nat)) R.CAN.ECNT.TEC) ≤ 255)) ∧
    (s22.canLive (0 : Nat) = true ∧ 1 ≠ 0 ∧ ((s22.canAt (0 : Nat)).stop = none ∧ (s22.canAt (0 : Nat)).cfgPend = false) ∧
      (¬(false = true ∧ s22.canXlFrame (0 : Nat) = true)) ∧ (255 < if true = true then (if 1 = 3 ∧ s22.canState (0 : Nat) = 4 ∧
      v2.dom = false ∨ 1 = 1 ∧ v2.arbStuff = true then s22.fld (canPg (0 : Nat)) R.CAN.ECNT.TEC else s22.fld (canPg (0 : Nat))
      R.CAN.ECNT.TEC + 8) + 8 * v2.runs else s22.fld (canPg (0 : Nat)) R.CAN.ECNT.TEC)) := by decide +kernel

end Can

namespace Net

def liS (st : Nat) (l : List (Fld × Nat)) (f : Lin → Lin := id) (m : Tab Byte := []) : State := { put { awake with tb := 20000000 } (linPg 0) ([(R.PG_CTRL.EN, 1), (R.LIN.STAT.STATE, st), (R.LIN.CFG.BR, 19200), (R.LIN.FTAB.ADDR, 0x1000000), (R.LIN.SCHED.ADDR, 0x4000100), (R.LIN.SCHN.N, 2)] ++ l) with lins := [(0, f {})], mem := m }
def lf (id dir : Nat) (e : Option Nat) (sl : Bool := false) : LinFrame := { id := id, dir := dir, start := 0, rate := 19200, sleep := sl, entry := e }
def ms (l : List (Fld × Nat)) (f : Lin → Lin := id) : State := liS 2 ([(R.LIN.CFG.MASTER, 1)] ++ l) f [(0x400, 10), (0x402, 3)]
def lif (fr : LinFrame) (b : Tab Byte := [(48, 2), (51, 0x80)]) (f : Lin → Lin := id) : State := liS 2 [] (fun v => f { v with frame := some fr }) b
def et (l : List (Nat × List (Fld × Nat))) (f : State → State := id) : State := f (l.foldl (fun s e => put s e.1 e.2) awake)
def up (p : Nat) (role : Nat := 0) : Nat × List (Fld × Nat) := (ethPg p, [(R.PG_CTRL.EN, 1), (R.ETH.STAT.LINK, 1), (R.ETH.CFG.LROLE, role)])
def vl1 (n vid mem untag : Nat) : Nat × List (Fld × Nat) := (eswPg, [(R.PG_CTRL.EN, 1), (R.ESW.VLAN.VALID n, 1), (R.ESW.VLAN.VID n, vid), (R.ESW.VLAN.MEMBER n, mem), (R.ESW.VLAN.UNTAG n, untag), (R.ESW.PORT.FWD 0, 1), (R.ESW.PORT.FWD 1, 1), (R.ESW.PORT.FWD 2, 1)])
def frm : List Byte := [2,0,0,0,0,9, 2,0,0,0,0,7, 0x81,0, 0,5, 8,0, 1,2,3]
def q1 : EthQ := ⟨0, 3, 0, false, [1]⟩
def q2 : EthQ := ⟨0, 5, 0, true, [2]⟩
def nmS (st : Nat) (l : List (Fld × Nat)) (f : Nm → Nm := id) : State := { put { awake with tb := 100000000000 } nmPg ([(R.PG_CTRL.EN, 1), (R.NM.STAT.STATE, st), (R.NM.VOTE.V, 1)] ++ l) with nm := f { can := 1, lin := 1 } }
def nmb (st : Nat) (f : Nm → Nm := id) : State := (fun s => put s (canPg 0) [(R.PG_CTRL.EN, 1), (R.CAN.STAT.STATE, 3)]) (nmS st [] f)
def s0 : State :=
  dead (ms [] fun v => { v with trxOff := some 19999 })
def s1 : State :=
  ms [] fun v => { v with trxOff := some 19999 }
def s2 : State :=
  liS 1 []
def s3 : State :=
  liS 0 []
def s4 : State :=
  ms [] fun v => { v with frame := some (lf 3 2 (some 2147483650)) }
def s5 : State :=
  liS 2 [] fun v => { v with hot := true }
def s6 : State :=
  liS 2 [(R.LIN.CFG.MASTER, 1)] id [(1024, 10), (1026, 62)]
def s7 : State :=
  ms [] fun v => { v with sleepPend := true }
def s8 : State :=
  liS 2 []
def s9 : State :=
  dead (liS 2 [])
def s10 : State :=
  liS 2 [(R.LIN.CFG.MASTER, 1)] (fun v => { v with frame := some (lf 3 0 none) }) [(48, 2), (51, 64)]
def s11 : State :=
  liS 2 [(R.LIN.CFG.MASTER, 1)] fun v => { v with frame := some (lf 60 0 none true) }
def s12 : State :=
  lif (lf 3 2 (some 2147483650))
def s13 : State :=
  lif (lf 3 1 (some 1073741826))
def s14 : State :=
  lif (lf 60 1 (some 1342177282) true) [(12, 2)] fun v => { v with stopPend := true }
def s15 : State :=
  lif (lf 3 2 (some 2415919106))
def s16 : State :=
  lif (lf 3 0 (some 2))
def s17 : State :=
  et [(ethPg 0, [(R.PG_CTRL.EN, 1)])]
def s18 : State :=
  et [up 0 1, up 1 1, (3, [(R.TB.SYNC.ROLE, 1)])] fun s => { s with tb := 1000000000, eth := { s.eth with pdAt := 1000000000 } }
def s19 : State :=
  et [up 0, up 1, vl1 0 5 3 0]
def s20 : State :=
  et [(eswPg, [(R.ESW.VLAN.VALID 0, 0)])]
def s21 : State :=
  et [up 0, up 1, vl1 0 5 1 0]
def s22 : State :=
  et [up 0, up 1, vl1 0 5 7 2] fun s => { s with eth := { s.eth with macs := [{ mac := 2199023255561, port := 1, seen := 0 }] } }
def s23 : State :=
  { (et [up 0 1, up 1 1, (3, [(R.TB.SYNC.ROLE, 2)])]) with eth := { queue := [q1, q2, q1], syncSteps := [(0, some (1, 900)), (1, some (1, 900))] } }
def s24 : State :=
  { (et [up 0 1, up 1 1]) with tb := 1000000000, eth := { queue := [q2], busy := [(0, 5000000000)], topo := [{ src := 3, port := 0, hop := 1, lat := 100, tick := 999999999 }], syncSteps := [(0, some (5, 900000000))] } }
def s25 : State :=
  et [(ehpPg, [(R.PG_CTRL.EN, 1), (R.EHP.TXBASE.ADDR, 8388608), (R.EHP.TXCFG.NREC, 4), (R.EHP.TXCFG.SZ, 4), (R.EHP.TXIDX.PUT, 1)])]
def s26 : State :=
  { (et [up 0, (ehpPg, [(R.PG_CTRL.EN, 1), (R.EHP.TXBASE.ADDR, 8388608), (R.EHP.TXCFG.NREC, 4), (R.EHP.TXCFG.SZ, 4), (R.EHP.TXIDX.PUT, 1)])]) with mem := [(0, 60), (2, 1), (17, 9)] }
def s27 : State :=
  et [(ethPg 3, [(R.PG_CTRL.EN, 1), (R.ETH.PLCA.EN, 1), (R.ETH.PLCA.ID, 2)])]
def s28 : State :=
  et [up 0 1, up 1 1, (3, [(R.TB.SYNC.ROLE, 2)])] fun s => { s with eth := { s.eth with relay := true, syncPort := some 0 } }
def s29 : State :=
  et [up 0, up 1, vl1 0 5 7 2] fun s => { s with tb := 100000000000, eth := { s.eth with macs := [{ mac := 2199023255561, port := 1, seen := 0 }] } }
def s30 : State :=
  nmb 0 fun n => { n with sending := [0], ended := [0] }
def s31 : State :=
  lockPg (nmS 2 []) nmPg
def s32 : State :=
  nmb 1 fun n => { n with sending := [0], ended := [0] }
def s33 : State :=
  nmS 0 [(R.NM.VOTE.V, 0)]
def s34 : State :=
  nmS 1 [(R.NM.VOTE.V, 0), (R.NM.CFG.MASTER, 1)]
def s35 : State :=
  nmb 2
def s36 : State :=
  put (nmS 2 [(R.NM.VOTE.V, 0)]) (canPg 0) [(R.WAKE.CFG.WMODE, 1)]
def s37 : State :=
  nmS 0 [(R.NM.MAXAW.S, 10)]
def s38 : State :=
  nmS 0 [] fun n => { n with hold := some (900, none) }
def s39 : State :=
  nmS 0 [] fun n => { n with hold := some (900, some 1) }
def v0 : LinFrame :=
  lf 3 2 (some 2147483650)
def v1 : LinHeader :=
  { brk := 100, rate := 19200, pid := BitVec.ofNat 8 (linPid 3) }
def v2 : LinHeader :=
  { brk := 70000, rate := 30000, pid := BitVec.ofNat 8 (linPid 3) }
def v3 : LinHeader :=
  { brk := 70000, rate := 19200, pid := 67 }
def v4 : LinHeader :=
  { brk := 70000, rate := 19200, pid := BitVec.ofNat 8 (linPid 3) }
def v5 : LinFrame :=
  lf 3 0 none
def v6 : LinFrame :=
  lf 60 0 none true
def v7 : LinHeader :=
  { brk := 70000, rate := 19200, pid := BitVec.ofNat 8 (linPid 60) }
def v8 : LinFrame :=
  lf 3 1 (some 1073741826)
def v9 : LinFrame :=
  lf 60 1 (some 1342177282) true
def v10 : List Byte :=
  []
def v11 : List Byte :=
  [1, 2]
def v12 : LinFrame :=
  lf 3 2 (some 2415919106)
def v13 : LinFrame :=
  lf 3 0 (some 2)
def v15 : MacEntry :=
  { mac := 2199023255561, port := 1, seen := 0 }
def v16 : List EthQ :=
  [q1]
def v17 : List EthQ :=
  []
def v18 : List Out :=
  []
def v19 : SyncMsg :=
  { port := 1, steps := 2, offset := 0 }
def v21 : TopoSeen :=
  { src := 3, port := 0, hop := 1, lat := 100, tick := 999999999 }
def v22 : Trx :=
  Trx.can 0

theorem witness_LinControllers_LinControl_1 :
    (s0.canRuns = false) ∧
    (s1.canRuns = true ∧ (s1.locked (linPg (0 : Nat)) = true ∨ s1.linState (0 : Nat) ≠ 1)) ∧
    (s2.canRuns = true ∧ s2.locked (linPg (0 : Nat)) = false ∧ s2.linState (0 : Nat) = 1) ∧
    (s3.canRuns = true ∧ (s3.locked (linPg (0 : Nat)) = true ∨ s3.linState (0 : Nat) ≠ 2)) ∧
    (s1.canRuns = true ∧ s1.locked (linPg (0 : Nat)) = false ∧ s1.linState (0 : Nat) = 2 ∧ (s1.linAt (0 : Nat)).frame = none) ∧
    (s4.canRuns = true ∧ s4.locked (linPg (0 : Nat)) = false ∧ s4.linState (0 : Nat) = 2 ∧ (s4.linAt (0 : Nat)).frame = some v0
      ∧ (v0.entry ≠ none → v0.dir = 0 → s4.tb < s4.linDue (0 : Nat) v0)) ∧
    (s3.canRuns = true ∧ s3.linMaster (0 : Nat) = false) := by decide +kernel

theorem witness_LinControllers_LinControl_2 :
    (s1.canRuns = true ∧ s1.locked (linPg (0 : Nat)) = false ∧ s1.linState (0 : Nat) = 2 ∧ s1.linMaster (0 : Nat) = true) ∧
    (s3.canRuns = true ∧ (s3.locked (linPg (0 : Nat)) = true ∨ s3.linState (0 : Nat) = 0)) ∧
    (s5.canRuns = true ∧ s5.locked (linPg (0 : Nat)) = false ∧ s5.linState (0 : Nat) ≠ 0 ∧ s5.linTx (0 : Nat) = false) ∧
    (s1.canRuns = true ∧ s1.locked (linPg (0 : Nat)) = false ∧ s1.linState (0 : Nat) ≠ 0 ∧ s1.linTx (0 : Nat) = true ∧
      (s1.linAt (0 : Nat)).frame = none) ∧
    (s4.canRuns = true ∧ s4.locked (linPg (0 : Nat)) = false ∧ s4.linState (0 : Nat) ≠ 0 ∧ s4.linTx (0 : Nat) = true ∧
      (s4.linAt (0 : Nat)).frame ≠ none) ∧
    (s1.canRuns = true ∧ s1.linState (0 : Nat) = 2 ∧ s1.linMaster (0 : Nat) = true ∧ (s1.linAt (0 : Nat)).frame = none ∧
      (s1.linAt (0 : Nat)).next ≤ s1.tb ∧ s1.sound (s1.fld (linPg (0 : Nat)) R.LIN.SCHED.ADDR * 4 + 4 * ((s1.linAt (0 :
      Nat)).pos % s1.fld (linPg (0 : Nat)) R.LIN.SCHN.N)) 4 = true ∧ s1.fld (linPg (0 : Nat)) R.LIN.SCHN.N ≠ 0 ∧ (s1.linAt (0 :
      Nat)).sleepPend = false ∧ s1.sramWord (s1.fld (linPg (0 : Nat)) R.LIN.SCHED.ADDR * 4 + 4 * ((s1.linAt (0 : Nat)).pos %
      s1.fld (linPg (0 : Nat)) R.LIN.SCHN.N)) / 65536 % 64 < 62 ∧ s1.linSends (0 : Nat) = true) ∧
    (s6.canRuns = true ∧ s6.linState (0 : Nat) = 2 ∧ s6.linMaster (0 : Nat) = true ∧ (s6.linAt (0 : Nat)).frame = none ∧
      (s6.linAt (0 : Nat)).next ≤ s6.tb ∧ s6.sound (s6.fld (linPg (0 : Nat)) R.LIN.SCHED.ADDR * 4 + 4 * ((s6.linAt (0 :
      Nat)).pos % s6.fld (linPg (0 : Nat)) R.LIN.SCHN.N)) 4 = true ∧ s6.fld (linPg (0 : Nat)) R.LIN.SCHN.N ≠ 0 ∧ (s6.linAt (0 :
      Nat)).sleepPend = false ∧ (62 ≤ s6.sramWord (s6.fld (linPg (0 : Nat)) R.LIN.SCHED.ADDR * 4 + 4 * ((s6.linAt (0 :
      Nat)).pos % s6.fld (linPg (0 : Nat)) R.LIN.SCHN.N)) / 65536 % 64 ∨ s6.linSends (0 : Nat) = false)) := by decide +kernel

theorem witness_LinControllers_LinControl_3 :
    (s7.canRuns = true ∧ s7.linState (0 : Nat) = 2 ∧ s7.linMaster (0 : Nat) = true ∧ (s7.linAt (0 : Nat)).frame = none ∧
      (s7.linAt (0 : Nat)).next ≤ s7.tb ∧ s7.sound (s7.fld (linPg (0 : Nat)) R.LIN.SCHED.ADDR * 4 + 4 * ((s7.linAt (0 :
      Nat)).pos % s7.fld (linPg (0 : Nat)) R.LIN.SCHN.N)) 4 = true ∧ s7.fld (linPg (0 : Nat)) R.LIN.SCHN.N ≠ 0 ∧ (s7.linAt (0 :
      Nat)).sleepPend = true ∧ s7.linSends (0 : Nat) = true) := by decide +kernel

theorem witness_LinControllers_LinFrames_1 :
    (s8.canRuns = true ∧ s8.linState (0 : Nat) = 2 ∧ s8.linMaster (0 : Nat) = false ∧ v1.brk * s8.fld (linPg (0 : Nat))
      R.LIN.CFG.BR ≤ 1100000000) ∧
    (s8.canRuns = true ∧ s8.linState (0 : Nat) = 2 ∧ s8.linMaster (0 : Nat) = false ∧ 1100000000 < v2.brk * s8.fld (linPg (0 :
      Nat)) R.LIN.CFG.BR ∧ (s8.linAt (0 : Nat)).stopPend = false ∧ (¬(85 * s8.fld (linPg (0 : Nat)) R.LIN.CFG.BR ≤ 100 *
      v2.rate ∧ 100 * v2.rate ≤ 115 * s8.fld (linPg (0 : Nat)) R.LIN.CFG.BR ∧ v2.rate ≠ 0))) ∧
    (s8.canRuns = true ∧ s8.linState (0 : Nat) = 2 ∧ s8.linMaster (0 : Nat) = false ∧ 1100000000 < v3.brk * s8.fld (linPg (0 :
      Nat)) R.LIN.CFG.BR ∧ (s8.linAt (0 : Nat)).stopPend = false ∧ (85 * s8.fld (linPg (0 : Nat)) R.LIN.CFG.BR ≤ 100 * v3.rate
      ∧ 100 * v3.rate ≤ 115 * s8.fld (linPg (0 : Nat)) R.LIN.CFG.BR ∧ v3.rate ≠ 0) ∧ v3.pid.toNat ≠ linPid (v3.pid.toNat % 64)) ∧
    (s8.canRuns = true ∧ s8.linState (0 : Nat) = 2 ∧ s8.linMaster (0 : Nat) = false ∧ 1100000000 < v4.brk * s8.fld (linPg (0 :
      Nat)) R.LIN.CFG.BR ∧ (s8.linAt (0 : Nat)).stopPend = false ∧ (85 * s8.fld (linPg (0 : Nat)) R.LIN.CFG.BR ≤ 100 * v4.rate
      ∧ 100 * v4.rate ≤ 115 * s8.fld (linPg (0 : Nat)) R.LIN.CFG.BR ∧ v4.rate ≠ 0) ∧ v4.pid.toNat = linPid (v4.pid.toNat % 64)
      ∧ v4.pid.toNat % 64 < 62 ∧ s8.sound (s8.linEntry (0 : Nat) (v4.pid.toNat % 64)) 16 = true) ∧
    (s9.canRuns = false) ∧
    (s10.canRuns = true ∧ s10.linState (0 : Nat) = 2 ∧ s10.linMaster (0 : Nat) = true ∧ (s10.linAt (0 : Nat)).frame = some v5 ∧
      v5.entry = none ∧ v5.cut = false ∧ v4.pid.toNat = linPid v5.id ∧ v5.start + v5.bits 34 ≤ s10.tb ∧ s10.sound (s10.linEntry
      (0 : Nat) v5.id) 16 = true ∧ v5.sleep = false) ∧
    (s11.canRuns = true ∧ s11.linState (0 : Nat) = 2 ∧ s11.linMaster (0 : Nat) = true ∧ (s11.linAt (0 : Nat)).frame = some v6 ∧
      v6.entry = none ∧ v6.cut = false ∧ v7.pid.toNat = linPid v6.id ∧ v6.start + v6.bits 34 ≤ s11.tb ∧ s11.sound (s11.linEntry
      (0 : Nat) v6.id) 16 = true ∧ v6.sleep = true) := by
  refine ⟨?_, ?_, ?_, ?_, ?_, ?_, ?_⟩ <;> decide +kernel

theorem witness_LinControllers_LinFrames_2 :
    (s13.canRuns = true ∧ (s13.linAt (0 : Nat)).frame = some v8 ∧ v8.entry = some 1073741826 ∧ (s13.linAt (0 : Nat)).late =
      none ∧ (s13.linAt (0 : Nat)).wakePend = false ∧ v8.dir = 1 ∧ v8.cut = false) ∧
    (s14.canRuns = true ∧ (s14.linAt (0 : Nat)).frame = some v9 ∧ v9.entry = some 1342177282 ∧ (s14.linAt (0 : Nat)).late =
      none ∧ (s14.linAt (0 : Nat)).wakePend = false ∧ v9.dir = 1 ∧ v9.cut = false ∧ Nat.testBit 1342177282 28 = true) ∧
    (s12.canRuns = true ∧ (s12.linAt (0 : Nat)).frame = some v0 ∧ v0.entry = some 2147483650 ∧ (s12.linAt (0 : Nat)).late =
      none ∧ (s12.linAt (0 : Nat)).wakePend = false ∧ v0.dir = 2 ∧ v10.length < 2147483650 % 16) ∧
    (s12.canRuns = true ∧ (s12.linAt (0 : Nat)).frame = some v0 ∧ v0.entry = some 2147483650 ∧ (s12.linAt (0 : Nat)).late =
      none ∧ (s12.linAt (0 : Nat)).wakePend = false ∧ v0.dir = 2 ∧ 2147483650 % 16 ≤ v11.length ∧ 3 ≠ linCks (linPid v0.id)
      (Nat.testBit 2147483650 29 && decide (v0.id ≠ 60) && decide (v0.id ≠ 61)) (List.take (2147483650 % 16) v11)) ∧
    (s12.canRuns = true ∧ (s12.linAt (0 : Nat)).frame = some v0 ∧ v0.entry = some 2147483650 ∧ (s12.linAt (0 : Nat)).late =
      none ∧ (s12.linAt (0 : Nat)).wakePend = false ∧ v0.dir = 2 ∧ 2147483650 % 16 ≤ v11.length ∧ 252 = linCks (linPid v0.id)
      (Nat.testBit 2147483650 29 && decide (v0.id ≠ 60) && decide (v0.id ≠ 61)) (List.take (2147483650 % 16) v11) ∧ s12.nm.hold
      = none) ∧
    (s15.canRuns = true ∧ (s15.linAt (0 : Nat)).frame = some v12 ∧ v12.entry = some 2415919106 ∧ (s15.linAt (0 : Nat)).late =
      none ∧ (s15.linAt (0 : Nat)).wakePend = false ∧ v12.dir = 2 ∧ 2415919106 % 16 ≤ v11.length ∧ 252 = linCks (linPid v12.id)
      (Nat.testBit 2415919106 29 && decide (v12.id ≠ 60) && decide (v12.id ≠ 61)) (List.take (2415919106 % 16) v11) ∧
      s15.nm.hold = none ∧ Nat.testBit 2415919106 28 = true) ∧
    (s12.canRuns = true ∧ (s12.linAt (0 : Nat)).frame = some v0 ∧ v0.entry = some 2147483650 ∧ (s12.linAt (0 : Nat)).late =
      none ∧ (s12.linAt (0 : Nat)).wakePend = false ∧ v0.start + (14 * (34 + 10 * (2147483650 % 16 + 1)) * 10000000 + v0.rate -
      1) / Max.max 1 v0.rate ≤ s12.tb ∧ v0.dir = 2) := by
  refine ⟨?_, ?_, ?_, ?_, ?_, ?_, ?_⟩ <;> decide +kernel

theorem witness_LinControllers_LinFrames_3 :
    (s16.canRuns = true ∧ (s16.linAt (0 : Nat)).frame = some v13 ∧ v13.entry = some 2 ∧ (s16.linAt (0 : Nat)).late = none ∧
      (s16.linAt (0 : Nat)).wakePend = false ∧ v13.start + (14 * (34 + 10 * (2 % 16 + 1)) * 10000000 + v13.rate - 1) / Max.max
      1 v13.rate ≤ s16.tb ∧ v13.dir = 0) := by decide +kernel

theorem witness_EthernetLinks_1 :
    (s17.clocked Island.net = true ∧ s17.enabled (ethPg (0 : Nat)) = true ∧ s17.reg (ethPg (0 : Nat)) 80 = 0 ∧ (s17.eth.queue =
      [] ∧ s17.eth.txWait = none) ∧ s17.bit (ethPg (0 : Nat)) R.ETH.STAT.LINK = false) ∧
    (s18.clocked Island.net = true ∧ s18.enabled (ethPg (0 : Nat)) = true ∧ s18.reg (ethPg (0 : Nat)) 80 = 0 ∧ (s18.eth.queue =
      [] ∧ s18.eth.txWait = none) ∧ s18.bit (ethPg (0 : Nat)) R.ETH.STAT.LINK = true) ∧
    (s18.ethUp (0 : Nat) = true ∧ (0 : Nat) < 3 ∧ (Max.max (tget (fun x => 0) s18.eth.sqiAt (0 : Nat)) (tget (fun x => 0)
      s18.eth.upTick (0 : Nat)) + 100000000 ≤ s18.tb) ∧ (tget (fun x => false) s18.eth.sqiLow (0 : Nat) = false)) ∧
    (s18.ethUp (0 : Nat) = true ∧ 3 ≤ (3 : Nat)) ∧
    (s19.ethUp (0 : Nat) = true ∧ (s19.eth.queue = [] ∧ s19.eth.txWait = none) ∧ s19.lrole (0 : Nat) = 0) ∧
    (s18.ethUp (3 : Nat) = false) ∧
    (0 < 5 ∧ (((List.range 16).all fun v => !s20.bit eswPg (R.ESW.VLAN.VALID v)) = true)) := by
  refine ⟨?_, ?_, ?_, ?_, ?_, ?_, ?_⟩ <;> decide +kernel

theorem witness_EthernetLinks_2 :
    (0 < 5 ∧ 0 < 16 ∧ (ethParse frm).tag = some 5 ∧ 5 % 4096 = s21.fld eswPg (R.ESW.VLAN.VID 0) ∧ 5 % 4096 ≠ 0 ∧ s21.bit eswPg
      (R.ESW.VLAN.VALID 0) = true ∧ (∀ w < 0, s21.bit eswPg (R.ESW.VLAN.VALID w) = false) ∧ s21.eth.macs.length < 1024 ∧ (∀ (q
      : Nat), ((s21.fld eswPg (R.ESW.VLAN.MEMBER 0)).testBit q && s21.bit eswPg (R.ESW.PORT.FWD q) && decide (q ≠ 0)) = false)
      ∧ macGroup (ethParse frm).src = false) ∧
    (0 < 5 ∧ 0 < 16 ∧ (ethParse frm).tag = some 5 ∧ 5 % 4096 = s22.fld eswPg (R.ESW.VLAN.VID 0) ∧ 5 % 4096 ≠ 0 ∧ s22.bit eswPg
      (R.ESW.VLAN.VALID 0) = true ∧ (∀ w < 0, s22.bit eswPg (R.ESW.VLAN.VALID w) = false) ∧ s22.eth.macs.length < 1024 ∧
      macGroup (ethParse frm).dst = false ∧ (ethParse frm).dst ≠ (ethParse frm).src ∧ (List.find? (fun y => decide (y.mac =
      (ethParse frm).dst)) s22.eth.macs = some v15) ∧ v15.port < 4 ∧ ((s22.fld eswPg (R.ESW.VLAN.MEMBER 0)).testBit v15.port &&
      s22.bit eswPg (R.ESW.PORT.FWD v15.port) && decide (v15.port ≠ 0)) = true ∧ s22.ethUp v15.port = true) ∧
    (0 < 4 ∧ s18.ethUp 0 = true ∧ (0#5).getLsbD 0 = false) ∧
    (0 < 4 ∧ s18.ethUp 0 = true ∧ (1#5).getLsbD 0 = true) ∧
    (s23.eth.queue = v16 ++ q2 :: v16 ∧ q2.port = 0 ∧ (∀ x ∈ v16, x.port = 0 → x.pcp < q2.pcp) ∧ (∀ x ∈ v16, x.port = 0 → x.pcp
      ≤ q2.pcp) ∧ (tget (fun x => 0) s23.eth.busy 0 ≤ s23.tb)) ∧
    (s24.eth.queue = v17 ++ q2 :: v17 ∧ q2.port = 0 ∧ (∀ x ∈ v17, x.port = 0 → x.pcp < q2.pcp) ∧ (∀ x ∈ v17, x.port = 0 → x.pcp
      ≤ q2.pcp) ∧ (s24.tb < tget (fun x => 0) s24.eth.busy 0)) ∧
    (s25.clocked Island.net = true ∧ (s25.eth.queue = [] ∧ s25.eth.txWait = none) ∧ 2 ≤ s25.fld ehpPg R.EHP.TXCFG.NREC ∧
      s25.fld ehpPg R.EHP.TXIDX.GET ≠ s25.fld ehpPg R.EHP.TXIDX.PUT ∧ (s25.sramWord (s25.fld ehpPg R.EHP.TXBASE.ADDR * 32 +
      s25.fld ehpPg R.EHP.TXIDX.GET * (s25.fld ehpPg R.EHP.TXCFG.SZ * 64)) % 65536 < 60 ∨ 1518 < s25.sramWord (s25.fld ehpPg
      R.EHP.TXBASE.ADDR * 32 + s25.fld ehpPg R.EHP.TXIDX.GET * (s25.fld ehpPg R.EHP.TXCFG.SZ * 64)) % 65536)) := 
  ⟨⟨by decide +kernel, by decide +kernel, by decide +kernel, by decide +kernel, by decide +kernel, by decide +kernel, by decide +kernel, by decide +kernel, fun q => if h : q < 8 then (by decide +kernel : ∀ q < 8, ((s21.fld eswPg (R.ESW.VLAN.MEMBER 0)).testBit q && s21.bit eswPg (R.ESW.PORT.FWD q) && decide (q ≠ 0)) = false) q h
      else by
        have hb : (s21.fld eswPg (R.ESW.VLAN.MEMBER 0)).testBit q = false := Nat.testBit_lt_two_pow
          (Nat.lt_of_lt_of_le (by decide +kernel : s21.fld eswPg (R.ESW.VLAN.MEMBER 0) < 2 ^ 8) (Nat.pow_le_pow_right (by decide) (by omega)))
        simp [hb], by decide +kernel⟩,
    by decide +kernel,
    by decide +kernel,
    by decide +kernel,
    by decide +kernel,
    by decide +kernel,
    by decide +kernel⟩

theorem witness_EthernetLinks_3 :
    (s26.clocked Island.net = true ∧ (s26.eth.queue = [] ∧ s26.eth.txWait = none) ∧ 2 ≤ s26.fld ehpPg R.EHP.TXCFG.NREC ∧
      s26.fld ehpPg R.EHP.TXIDX.GET ≠ s26.fld ehpPg R.EHP.TXIDX.PUT ∧ 0 < 4 ∧ 60 ≤ s26.sramWord (s26.fld ehpPg
      R.EHP.TXBASE.ADDR * 32 + s26.fld ehpPg R.EHP.TXIDX.GET * (s26.fld ehpPg R.EHP.TXCFG.SZ * 64)) % 65536 ∧ s26.sramWord
      (s26.fld ehpPg R.EHP.TXBASE.ADDR * 32 + s26.fld ehpPg R.EHP.TXIDX.GET * (s26.fld ehpPg R.EHP.TXCFG.SZ * 64)) % 65536 ≤
      1518 ∧ s26.sramWord (s26.fld ehpPg R.EHP.TXBASE.ADDR * 32 + s26.fld ehpPg R.EHP.TXIDX.GET * (s26.fld ehpPg R.EHP.TXCFG.SZ
      * 64)) / 65536 % 32 = 2 ^ 0 ∧ s26.sound (s26.fld ehpPg R.EHP.TXBASE.ADDR * 32 + s26.fld ehpPg R.EHP.TXIDX.GET * (s26.fld
      ehpPg R.EHP.TXCFG.SZ * 64)) (16 + s26.sramWord (s26.fld ehpPg R.EHP.TXBASE.ADDR * 32 + s26.fld ehpPg R.EHP.TXIDX.GET *
      (s26.fld ehpPg R.EHP.TXCFG.SZ * 64)) % 65536) = true ∧ s26.ethUp 0 = true ∧ (0#5).getLsbD 0 = false ∧ (tget (fun x => 0)
      s26.eth.busy 0 ≤ s26.tb)) ∧
    (s27.clocked Island.net = true ∧ s27.enabled (ethPg 3) = true ∧ s27.bit (ethPg 3) R.ETH.PLCA.EN = true ∧ s27.fld (ethPg 3)
      R.ETH.PLCA.ID ≠ 0) ∧
    (s18.clocked Island.net = true ∧ (v18 = if s18.eth.pdAt + 100000000 ≤ s18.tb then List.map Out.pdelay s18.linkPorts else
      []) ∧ s18.fld 3 R.TB.SYNC.ROLE = 1 ∧ s18.eth.syncAt + s18.syncInterval ≤ s18.tb) ∧
    (s28.clocked Island.net = true ∧ (v18 = if s28.eth.pdAt + 100000000 ≤ s28.tb then List.map Out.pdelay s28.linkPorts else
      []) ∧ s28.fld 3 R.TB.SYNC.ROLE ≠ 1 ∧ s28.eth.relay = true) ∧
    (s29.clocked Island.net = true ∧ (v18 = if s29.eth.pdAt + 100000000 ≤ s29.tb then List.map Out.pdelay s29.linkPorts else
      []) ∧ s29.fld 3 R.TB.SYNC.ROLE ≠ 1 ∧ s29.eth.relay = false ∧ s29.eth.pdAt + 100000000 ≤ s29.tb) ∧
    (s23.clocked Island.net = true ∧ s23.linkPorts.contains (↑v19.port : Nat) = true ∧ 0 < 4 ∧ 0 ≠ (↑v19.port : Nat) ∧
      s23.syncStepsAt 0 = some 1 ∧ (1 < v19.steps.toNat ∨ 1 = v19.steps.toNat ∧ 0 < (↑v19.port : Nat))) ∧
    (s18.clocked Island.net = true ∧ s18.linkPorts.contains (↑v19.port : Nat) = true ∧ (∀ q < 4, q ≠ (↑v19.port : Nat) →
      s18.syncStepsAt q = none ∨ ∃ k, s18.syncStepsAt q = some k ∧ (v19.steps.toNat < k ∨ v19.steps.toNat = k ∧ (↑v19.port :
      Nat) < q))) := by
  refine ⟨?_, ?_, ?_, ?_, ?_, ?_, ?_⟩ <;> decide +kernel

theorem witness_EthernetLinks_4 :
    (s18.clocked Island.net = true ∧ s18.eth.topoAt + s18.fld linkPg R.LINK.CFG.TOPOI * 100000 ≤ s18.tb ∧ s18.linkPorts ≠ []) ∧
    (awake.clocked Island.net = true ∧ awake.linkPorts = []) ∧
    (s18.clocked Island.net = true ∧ s18.lrole (0 : Nat) = 1 ∧ s18.ethUp (0 : Nat) = true ∧ 0 = s18.fld linkPg R.LINK.DEVID.ID) ∧
    (s18.clocked Island.net = true ∧ s18.lrole (0 : Nat) = 1 ∧ s18.ethUp (0 : Nat) = true ∧ 7 ≠ s18.fld linkPg R.LINK.DEVID.ID) ∧
    (s24.clocked Island.net = true ∧ s24.lrole (0 : Nat) = 1 ∧ s24.ethUp (0 : Nat) = true ∧ 7 ≠ s24.fld linkPg R.LINK.DEVID.ID
      ∧ s24.eth.topo.contains v21 = true ∧ s24.tb ≤ v21.tick + s24.topoWindow) ∧
    (s29.clocked Island.net = true ∧ (List.find? (fun x => decide (x.mac = 2199023255561)) s29.eth.macs = some v15) ∧ v15.seen
      + s29.fld eswPg R.ESW.CFG.AGE * 100000000 ≤ s29.tb) := by
  refine ⟨?_, ?_, ?_, ?_, ?_, ?_⟩ <;> decide +kernel

theorem witness_NetworkSleep_1 :
    (s30.nmOn = true ∧ s30.canRuns = true ∧ s30.nmState = 0 ∧ s30.nm.kaTick + s30.fld nmPg R.NM.TIME1.KAPER * 100000 ≤ s30.tb) ∧
    (s31.nmOn = true ∧ s31.canRuns = true ∧ s31.locked nmPg = true) ∧
    (s32.nmOn = true ∧ s32.canRuns = true ∧ s32.locked nmPg = false ∧ s32.nmState ≠ 2) ∧
    (s33.nmOn = true ∧ s33.canRuns = true ∧ s33.nm.vote = true ∧ s33.nmVote = false ∧ s33.nmState = 0) ∧
    (s32.nmOn = true ∧ s32.canRuns = true ∧ s32.nmVote = true ∧ s32.nmState = 1) ∧
    (s32.nmOn = true ∧ s32.canRuns = true ∧ s32.nmState = 1 ∧ (s32.nmMaster = false ∨ s32.safe = true) ∧ s32.nm.lastFrame +
      s32.fld nmPg R.NM.TIME2.SILENT * 100000 ≤ s32.tb) ∧
    (s34.nmOn = true ∧ s34.canRuns = true ∧ s34.nmState = 1 ∧ s34.nmMaster = true ∧ s34.safe = false ∧ s34.nm.sending = [] ∧
      s34.nm.lastKa + s34.fld nmPg R.NM.TIME1.RSTIME * 100000 ≤ s34.tb) := by decide +kernel

theorem witness_NetworkSleep_2 :
    (s32.nmOn = true ∧ s32.canRuns = true ∧ s32.sleepBus v22 = true ∧ s32.nmState = 1 ∧ s32.nmMaster = false) ∧
    (s30.nmOn = true ∧ s30.canRuns = true ∧ s30.sleepBus v22 = true ∧ s30.nmState ≠ 1) ∧
    (s32.nmOn = true ∧ s32.canRuns = true ∧ s32.sleepBus v22 = true ∧ s32.nmState = 1 ∧ s32.nm.sending = [busNo v22] ∧
      s32.nm.ended = [busNo v22]) ∧
    (s32.nmOn = true ∧ s32.canRuns = true ∧ s32.sleepBus v22 = true ∧ (s32.nmState = 1 ∨ s32.nmState = 0) ∧ s32.nm.sending =
      [busNo v22] ∧ s32.nm.ended = [busNo v22]) ∧
    (s32.nmOn = true ∧ s32.canRuns = true ∧ s32.sleepBus v22 = true ∧ (s32.nmState = 1 ∨ s32.nmState = 0) ∧ s32.bit nmPg
      R.NM.STAT.MAXEXP = false) ∧
    (s32.nmOn = true ∧ s32.canRuns = true ∧ (s32.locked nmPg = true ∨ s32.windowOpen = false)) ∧
    (s35.nmOn = true ∧ s35.canRuns = true ∧ s35.locked nmPg = false ∧ s35.windowOpen = true) := by decide +kernel

theorem witness_NetworkSleep_3 :
    (s36.nmOn = true ∧ s36.canRuns = true ∧ s36.nmState = 2 ∧ s36.canWakeDev (Trx.can 0) = true) ∧
    (s35.nmOn = true ∧ s35.canRuns = true ∧ s35.nmState = 2 ∧ s35.nm.window + 100000 ≤ s35.tb) ∧
    (s37.nmOn = true ∧ s37.canRuns = true ∧ s37.nmState = 0 ∧ s37.fld nmPg R.NM.MAXAW.S ≠ 0 ∧ s37.bit nmPg R.NM.STAT.MAXEXP =
      false ∧ s37.nmMaster = false ∧ s37.nm.awake + s37.fld nmPg R.NM.MAXAW.S * 100000000 ≤ s37.tb) ∧
    (s38.nmOn = true ∧ s38.canRuns = true ∧ s38.nm.hold = some (900, none) ∧ 900 ≤ s38.tb) ∧
    (s39.nmOn = true ∧ s39.canRuns = true ∧ s39.nm.hold = some (900, some 1) ∧ 900 ≤ s39.tb) := by decide +kernel

end Net

namespace Cipher

def word (a : Nat) (w : Nat) : Tab Byte := ((List.range 4).map fun i => (a + i, BitVec.ofNat 8 (w / 256 ^ i))).filter fun e => e.2 ≠ 0
def desc (prog flags src dst len aad seg parm : Nat) : Tab Byte := word 0 (prog * 0x1000000 + 5 * 0x10000 + flags) ++ word 4 src ++ word 8 dst ++ word 12 len ++ word 16 aad ++ word 20 seg ++ word 24 parm
def cry (l : List (Fld × Nat)) (m : Tab Byte := []) (f : State → State := id) : State := f { put (put awake crPg ([(R.PG_CTRL.EN, 1), (R.Q.BASE.ADDR 0, 0x800000), (R.Q.CFG.NREC 0, 4), (R.CR.STAT.NVOK, 1)] ++ l)) (cxPg 5) [(R.CX.CFG.EN 5, 1), (R.CX.CFG.PERM 5, 0x3FF), (R.CX.CFG.NONCE 5, 2), (R.CX.CFG.SEGREL 5, 1)] with mem := m, cry := { progs := List.range 10 } }
def jq (prog flags len seg : Nat) (f : CrySt → CrySt := id) : State := cry [(R.Q.IDX.PUT 0, 1)] (desc prog flags 0x10001000 0x10002000 len 0x10003000 seg 0x10004000) fun s => { s with cry := f s.cry }
def ctr (c p : Nat) (f : CrySt → CrySt := id) (y : CrySt) : CrySt := f { y with ctrs := [(5, { c := c, p := some p })] }
def j0 (prog : Nat) : Job := { addr := 0x10000000, prog := prog, ctx := 5, seg := false, nce := false, ien := true, src := 0x10001000, dst := 0x10002000, len := 32, aadAddr := 0x10003000, seglen := 0, aadlen := 0, parm := 0x10004000, ph := .started, key := List.replicate 16 1, iv := List.replicate 12 2, chain := List.replicate 16 3 }
def run (j : Job) : State := cry [] [] fun s => { s with cry := { s.cry with jobs := [(0, some j)], run := some 0 } }
def good (j : Job) (s : State) : State := s.putBytes (j.parm + 0x10 + 16 * j.segk) j.tag
def jobs : List Job := [j0 1, j0 7, { j0 7 with fin := true, pos := 32 }, { j0 7 with seg := true, seglen := 32, pos := 32, slots := [3] }, { j0 7 with seg := true, seglen := 16, pos := 16 }, { j0 5 with fin := true }, { j0 1 with fin := true }]
def nv : State := { awake with mem := (((List.range 32).zip (nonceEntry 5 (List.replicate 8 7) 5)).map fun e => (sectorBase 620 + e.1, e.2)).filter (·.2 ≠ 0xFF), cry := { ctrs := [(5, { c := 7, p := some 5, wr := some 0x200 })] } }
def pk (l : List (Fld × Nat)) (f : State → State := id) : State := f (put awake pkPg ([(R.PG_CTRL.EN, 1), (R.PK.SRC.ADDR, 0x10000000), (R.PK.LEN.N, 3)] ++ l))
def be (n : Nat) : List Byte := (List.range 32).map fun i => BitVec.ofNat 8 (n / 256 ^ (31 - i))
def qx := 0x80c5a9c55eefc8136d85e44a974d6a3bce762659cd39ccc16872c85fa288694f
def qy := 0xdc73fb09d1335d6fced41b7c21e4e536e4d64c14b7885e5c337d6902ea07f8a6
def vm (r : Nat) : Tab Byte := (((be 0 ++ be 0x6B17D1F2E12C4247F8BCE6E563A440F277037D812DEB33A0F4A13945D898C296 ++ be 0x4FE342E2FE1A7F9B8EE7EB4A7C0F9E162BCE33576B315ECECBB6406837BF51F5 ++ be r ++ be r).zip (List.range 160)).map fun e => (e.2, e.1)).filter fun e => e.2 ≠ 0
def okKey : Tab Byte := (((be qx ++ be qy).zip (List.range 64)).map fun e => (60 * 0x1000000 + 0x3E00 + e.2, e.1)).filter fun e => e.2 ≠ 0

/-- A signature verifies at the numbers that its bytes spell. -/
theorem verify_at {z' x' y' r' t' z x y r t : Nat} {b : Bool} (hz : z' = z) (hx : x' = x) (hy : y' = y) (hr : r' = r)
    (ht : t' = t) (h : ecdsaVerify z x y r t = b) : ecdsaVerify z' x' y' r' t' = b := by
  subst hz hx hy hr ht; exact h
def s0 : State :=
  dead (jq 6 24576 32 0)
def s1 : State :=
  lockPg (cry []) crPg
def s2 : State :=
  jq 6 24576 32 0
def s3 : State :=
  cry [(R.Q.IDX.PUT 0, 1)]
def s4 : State :=
  jq 1 8192 0 0
def s5 : State :=
  jq 1 0 32 0
def s6 : State :=
  jq 6 24576 32 0 (ctr 7 5)
def s7 : State :=
  jq 6 24576 32 0 (ctr 65541 5)
def s8 : State :=
  jq 7 0 1024 0 fun y => { y with jobs := [(1, some ({ ((jq 7 0 32 0).readDesc 268435456) with ph := JobPh.started, slots := List.range 16 }))] }
def s9 : State :=
  run (j0 1)
def s10 : State :=
  (fun j => good j (run j)) ({ (j0 7) with seg := true, seglen := 32, slots := [3], pos := 32 })
def s11 : State :=
  run ({ (j0 7) with seg := true, seglen := 32, slots := [3], pos := 32 })
def s12 : State :=
  run ({ (j0 7) with pos := 32, fin := true })
def s13 : State :=
  run ({ (j0 1) with fin := true })
def s14 : State :=
  dead (put ({ (pk []) with mem := okKey, cry := { challenge := [115, 97, 109, 112, 108, 101] } }) daPg [(R.DA.STAT.ST, 1)])
def s15 : State :=
  lockPg (pk []) pkPg
def s16 : State :=
  put ({ (pk []) with mem := okKey, cry := { challenge := [115, 97, 109, 112, 108, 101] } }) daPg [(R.DA.STAT.ST, 1)]
def s17 : State :=
  pk [] fun s => { s with cry := { pk := some false } }
def s18 : State :=
  pk [] fun s => { s with mem := vm 48439561293906451759052585252797914202762949526041747995844080717082404635286, cry := { pk := some true } }
def s19 : State :=
  pk [] fun s => { s with mem := vm 0, cry := { pk := some true } }
def s20 : State :=
  pk []
def v1 : Job :=
  j0 1
def v2 : Job :=
  { (j0 7) with seg := true, seglen := 32, slots := [3], pos := 32 }
def v3 : Job :=
  { (j0 7) with pos := 32, fin := true }
def v4 : Job :=
  { (j0 1) with fin := true }

theorem witness_CipherJobs_1 :
    (s0.clocked Island.cry = false) ∧
    (awake.cryRuns = false) ∧
    (s1.clocked Island.cry = true ∧ s1.locked crPg = true) ∧
    (s2.clocked Island.cry = true ∧ s2.locked crPg = false ∧ s2.fld crPg (R.Q.CFG.NREC (0 : Nat)) ≤ 4) ∧
    (s2.clocked Island.cry = true ∧ s2.locked crPg = false ∧ 0 < s2.fld crPg (R.Q.CFG.NREC (0 : Nat))) ∧
    (s3.cryRuns = true ∧ s3.jobOf (0 : Nat) = none ∧ s3.fld crPg (R.Q.CFG.NREC (0 : Nat)) ≠ 0 ∧ s3.fld crPg (R.Q.IDX.GET (0 :
      Nat)) ≠ s3.fld crPg (R.Q.IDX.PUT (0 : Nat)) ∧ s3.clean (32 * s3.fld crPg (R.Q.BASE.ADDR (0 : Nat)) + 32 * s3.fld crPg
      (R.Q.IDX.GET (0 : Nat))) 28 = true ∧ s3.jobRefused (s3.readDesc (32 * s3.fld crPg (R.Q.BASE.ADDR (0 : Nat)) + 32 * s3.fld
      crPg (R.Q.IDX.GET (0 : Nat)))) = some 4) ∧
    (s4.cryRuns = true ∧ s4.jobOf (0 : Nat) = none ∧ s4.fld crPg (R.Q.CFG.NREC (0 : Nat)) ≠ 0 ∧ s4.fld crPg (R.Q.IDX.GET (0 :
      Nat)) ≠ s4.fld crPg (R.Q.IDX.PUT (0 : Nat)) ∧ s4.clean (32 * s4.fld crPg (R.Q.BASE.ADDR (0 : Nat)) + 32 * s4.fld crPg
      (R.Q.IDX.GET (0 : Nat))) 28 = true ∧ s4.jobRefused (s4.readDesc (32 * s4.fld crPg (R.Q.BASE.ADDR (0 : Nat)) + 32 * s4.fld
      crPg (R.Q.IDX.GET (0 : Nat)))) = some 4 ∧ (s4.readDesc (32 * s4.fld crPg (R.Q.BASE.ADDR (0 : Nat)) + 32 * s4.fld crPg
      (R.Q.IDX.GET (0 : Nat)))).ien = true) := by decide +kernel

theorem witness_CipherJobs_2 :
    (s5.cryRuns = true ∧ s5.jobOf (0 : Nat) = none ∧ s5.fld crPg (R.Q.CFG.NREC (0 : Nat)) ≠ 0 ∧ s5.fld crPg (R.Q.IDX.GET (0 :
      Nat)) ≠ s5.fld crPg (R.Q.IDX.PUT (0 : Nat)) ∧ s5.clean (32 * s5.fld crPg (R.Q.BASE.ADDR (0 : Nat)) + 32 * s5.fld crPg
      (R.Q.IDX.GET (0 : Nat))) 28 = true ∧ s5.jobRefused (s5.readDesc (32 * s5.fld crPg (R.Q.BASE.ADDR (0 : Nat)) + 32 * s5.fld
      crPg (R.Q.IDX.GET (0 : Nat)))) = none ∧ (s5.readDesc (32 * s5.fld crPg (R.Q.BASE.ADDR (0 : Nat)) + 32 * s5.fld crPg
      (R.Q.IDX.GET (0 : Nat)))).need ≤ 16 - s5.slotsHeld.length ∧ s5.slotsHeld.Nodup ∧ (∀ k ∈ s5.slotsHeld, k < 16) ∧ (∀ (p :
      Nat) (i : Job), p < 4 → s5.jobOf p = some i → i.ph ≠ JobPh.slotwait) ∧ (s5.clean (s5.readDesc (32 * s5.fld crPg
      (R.Q.BASE.ADDR (0 : Nat)) + 32 * s5.fld crPg (R.Q.IDX.GET (0 : Nat)))).aadAddr (if 6 ≤ (s5.readDesc (32 * s5.fld crPg
      (R.Q.BASE.ADDR (0 : Nat)) + 32 * s5.fld crPg (R.Q.IDX.GET (0 : Nat)))).prog then (s5.readDesc (32 * s5.fld crPg
      (R.Q.BASE.ADDR (0 : Nat)) + 32 * s5.fld crPg (R.Q.IDX.GET (0 : Nat)))).aadlen else 0) = true) ∧ (s5.readDesc (32 * s5.fld
      crPg (R.Q.BASE.ADDR (0 : Nat)) + 32 * s5.fld crPg (R.Q.IDX.GET (0 : Nat)))).takes = false ∧ ((s5.readDesc (32 * s5.fld
      crPg (R.Q.BASE.ADDR (0 : Nat)) + 32 * s5.fld crPg (R.Q.IDX.GET (0 : Nat)))).readsIv = true → s5.clean (s5.readDesc (32 *
      s5.fld crPg (R.Q.BASE.ADDR (0 : Nat)) + 32 * s5.fld crPg (R.Q.IDX.GET (0 : Nat)))).parm 16 = true)) ∧
    (s6.cryRuns = true ∧ s6.jobOf (0 : Nat) = none ∧ s6.fld crPg (R.Q.CFG.NREC (0 : Nat)) ≠ 0 ∧ s6.fld crPg (R.Q.IDX.GET (0 :
      Nat)) ≠ s6.fld crPg (R.Q.IDX.PUT (0 : Nat)) ∧ s6.clean (32 * s6.fld crPg (R.Q.BASE.ADDR (0 : Nat)) + 32 * s6.fld crPg
      (R.Q.IDX.GET (0 : Nat))) 28 = true ∧ s6.jobRefused (s6.readDesc (32 * s6.fld crPg (R.Q.BASE.ADDR (0 : Nat)) + 32 * s6.fld
      crPg (R.Q.IDX.GET (0 : Nat)))) = none ∧ (s6.readDesc (32 * s6.fld crPg (R.Q.BASE.ADDR (0 : Nat)) + 32 * s6.fld crPg
      (R.Q.IDX.GET (0 : Nat)))).need ≤ 16 - s6.slotsHeld.length ∧ s6.slotsHeld.Nodup ∧ (∀ k ∈ s6.slotsHeld, k < 16) ∧ (∀ (p :
      Nat) (i : Job), p < 4 → s6.jobOf p = some i → i.ph ≠ JobPh.slotwait) ∧ (s6.clean (s6.readDesc (32 * s6.fld crPg
      (R.Q.BASE.ADDR (0 : Nat)) + 32 * s6.fld crPg (R.Q.IDX.GET (0 : Nat)))).aadAddr (if 6 ≤ (s6.readDesc (32 * s6.fld crPg
      (R.Q.BASE.ADDR (0 : Nat)) + 32 * s6.fld crPg (R.Q.IDX.GET (0 : Nat)))).prog then (s6.readDesc (32 * s6.fld crPg
      (R.Q.BASE.ADDR (0 : Nat)) + 32 * s6.fld crPg (R.Q.IDX.GET (0 : Nat)))).aadlen else 0) = true) ∧ (s6.readDesc (32 * s6.fld
      crPg (R.Q.BASE.ADDR (0 : Nat)) + 32 * s6.fld crPg (R.Q.IDX.GET (0 : Nat)))).takes = true ∧ (s6.ctrOf (s6.readDesc (32 *
      s6.fld crPg (R.Q.BASE.ADDR (0 : Nat)) + 32 * s6.fld crPg (R.Q.IDX.GET (0 : Nat)))).ctx).p = some 5 ∧ (s6.ctrOf
      (s6.readDesc (32 * s6.fld crPg (R.Q.BASE.ADDR (0 : Nat)) + 32 * s6.fld crPg (R.Q.IDX.GET (0 : Nat)))).ctx).c < 5 + 65536) ∧
    (s7.cryRuns = true ∧ s7.jobOf (0 : Nat) = none ∧ s7.fld crPg (R.Q.CFG.NREC (0 : Nat)) ≠ 0 ∧ s7.fld crPg (R.Q.IDX.GET (0 :
      Nat)) ≠ s7.fld crPg (R.Q.IDX.PUT (0 : Nat)) ∧ s7.clean (32 * s7.fld crPg (R.Q.BASE.ADDR (0 : Nat)) + 32 * s7.fld crPg
      (R.Q.IDX.GET (0 : Nat))) 28 = true ∧ s7.jobRefused (s7.readDesc (32 * s7.fld crPg (R.Q.BASE.ADDR (0 : Nat)) + 32 * s7.fld
      crPg (R.Q.IDX.GET (0 : Nat)))) = none ∧ (s7.readDesc (32 * s7.fld crPg (R.Q.BASE.ADDR (0 : Nat)) + 32 * s7.fld crPg
      (R.Q.IDX.GET (0 : Nat)))).need ≤ 16 - s7.slotsHeld.length ∧ s7.slotsHeld.Nodup ∧ (∀ k ∈ s7.slotsHeld, k < 16) ∧ (∀ (p :
      Nat) (i : Job), p < 4 → s7.jobOf p = some i → i.ph ≠ JobPh.slotwait) ∧ (s7.clean (s7.readDesc (32 * s7.fld crPg
      (R.Q.BASE.ADDR (0 : Nat)) + 32 * s7.fld crPg (R.Q.IDX.GET (0 : Nat)))).aadAddr (if 6 ≤ (s7.readDesc (32 * s7.fld crPg
      (R.Q.BASE.ADDR (0 : Nat)) + 32 * s7.fld crPg (R.Q.IDX.GET (0 : Nat)))).prog then (s7.readDesc (32 * s7.fld crPg
      (R.Q.BASE.ADDR (0 : Nat)) + 32 * s7.fld crPg (R.Q.IDX.GET (0 : Nat)))).aadlen else 0) = true) ∧ (s7.readDesc (32 * s7.fld
      crPg (R.Q.BASE.ADDR (0 : Nat)) + 32 * s7.fld crPg (R.Q.IDX.GET (0 : Nat)))).takes = true ∧ (s7.ctrOf (s7.readDesc (32 *
      s7.fld crPg (R.Q.BASE.ADDR (0 : Nat)) + 32 * s7.fld crPg (R.Q.IDX.GET (0 : Nat)))).ctx).p = some 5 ∧ 5 + 65536 ≤
      (s7.ctrOf (s7.readDesc (32 * s7.fld crPg (R.Q.BASE.ADDR (0 : Nat)) + 32 * s7.fld crPg (R.Q.IDX.GET (0 : Nat)))).ctx).c) ∧
    (s2.cryRuns = true ∧ s2.jobOf (0 : Nat) = none ∧ s2.fld crPg (R.Q.CFG.NREC (0 : Nat)) ≠ 0 ∧ s2.fld crPg (R.Q.IDX.GET (0 :
      Nat)) ≠ s2.fld crPg (R.Q.IDX.PUT (0 : Nat)) ∧ s2.clean (32 * s2.fld crPg (R.Q.BASE.ADDR (0 : Nat)) + 32 * s2.fld crPg
      (R.Q.IDX.GET (0 : Nat))) 28 = true ∧ s2.jobRefused (s2.readDesc (32 * s2.fld crPg (R.Q.BASE.ADDR (0 : Nat)) + 32 * s2.fld
      crPg (R.Q.IDX.GET (0 : Nat)))) = none ∧ (s2.readDesc (32 * s2.fld crPg (R.Q.BASE.ADDR (0 : Nat)) + 32 * s2.fld crPg
      (R.Q.IDX.GET (0 : Nat)))).need ≤ 16 - s2.slotsHeld.length ∧ s2.slotsHeld.Nodup ∧ (∀ k ∈ s2.slotsHeld, k < 16) ∧ (∀ (p :
      Nat) (i : Job), p < 4 → s2.jobOf p = some i → i.ph ≠ JobPh.slotwait) ∧ (s2.clean (s2.readDesc (32 * s2.fld crPg
      (R.Q.BASE.ADDR (0 : Nat)) + 32 * s2.fld crPg (R.Q.IDX.GET (0 : Nat)))).aadAddr (if 6 ≤ (s2.readDesc (32 * s2.fld crPg
      (R.Q.BASE.ADDR (0 : Nat)) + 32 * s2.fld crPg (R.Q.IDX.GET (0 : Nat)))).prog then (s2.readDesc (32 * s2.fld crPg
      (R.Q.BASE.ADDR (0 : Nat)) + 32 * s2.fld crPg (R.Q.IDX.GET (0 : Nat)))).aadlen else 0) = true) ∧ (s2.readDesc (32 * s2.fld
      crPg (R.Q.BASE.ADDR (0 : Nat)) + 32 * s2.fld crPg (R.Q.IDX.GET (0 : Nat)))).takes = true ∧ (s2.ctrOf (s2.readDesc (32 *
      s2.fld crPg (R.Q.BASE.ADDR (0 : Nat)) + 32 * s2.fld crPg (R.Q.IDX.GET (0 : Nat)))).ctx).p = none ∧ (s2.ctrOf (s2.readDesc
      (32 * s2.fld crPg (R.Q.BASE.ADDR (0 : Nat)) + 32 * s2.fld crPg (R.Q.IDX.GET (0 : Nat)))).ctx).wr = none) ∧
    (s8.cryRuns = true ∧ s8.jobOf (0 : Nat) = none ∧ s8.fld crPg (R.Q.CFG.NREC (0 : Nat)) ≠ 0 ∧ s8.fld crPg (R.Q.IDX.GET (0 :
      Nat)) ≠ s8.fld crPg (R.Q.IDX.PUT (0 : Nat)) ∧ s8.clean (32 * s8.fld crPg (R.Q.BASE.ADDR (0 : Nat)) + 32 * s8.fld crPg
      (R.Q.IDX.GET (0 : Nat))) 28 = true ∧ s8.jobRefused (s8.readDesc (32 * s8.fld crPg (R.Q.BASE.ADDR (0 : Nat)) + 32 * s8.fld
      crPg (R.Q.IDX.GET (0 : Nat)))) = none ∧ 16 < (s8.readDesc (32 * s8.fld crPg (R.Q.BASE.ADDR (0 : Nat)) + 32 * s8.fld crPg
      (R.Q.IDX.GET (0 : Nat)))).need + s8.slotsHeld.length ∧ s8.slotsHeld.Nodup ∧ (∀ k ∈ s8.slotsHeld, k < 16) ∧ 0 <
      (s8.readDesc (32 * s8.fld crPg (R.Q.BASE.ADDR (0 : Nat)) + 32 * s8.fld crPg (R.Q.IDX.GET (0 : Nat)))).need) ∧
    (s9.jobOf (0 : Nat) = some v1 ∧ s9.cry.run = some (0 : Nat) ∧ s9.cryRuns = true ∧ v1.fin = false ∧ v1.pos < v1.segBytes ∧
      (s9.clean ((v1.src + v1.segk * v1.seglen * if v1.seg = true then 1 else 0) + v1.pos) (Min.min 16 (v1.segBytes - v1.pos))
      = true)) ∧
    (s10.jobOf (0 : Nat) = some v2 ∧ s10.cryRuns = true ∧ s10.cry.run = some (0 : Nat) ∧ v2.ph = JobPh.started ∧ v2.seg = true
      ∧ isDec v2.prog = true ∧ v2.fin = false ∧ v2.segBytes ≤ v2.pos ∧ s10.clean (v2.parm + 16 + 16 * v2.segk) 16 = true ∧
      v2.tag = s10.memBytes (v2.parm + 16 + 16 * v2.segk) 16 ∧ v2.ien = true) := 
  ⟨⟨by decide +kernel, by decide +kernel, by decide +kernel, by decide +kernel, by decide +kernel, by decide +kernel, by decide +kernel, by decide +kernel, by decide +kernel, fun p i hp h => (by decide +kernel : ∀ p < 4, ∀ i ∈ s5.jobOf p, i.ph ≠ JobPh.slotwait) p hp i (Option.mem_def.mpr h), by decide +kernel, by decide +kernel, by decide +kernel⟩,
    ⟨by decide +kernel, by decide +kernel, by decide +kernel, by decide +kernel, by decide +kernel, by decide +kernel, by decide +kernel, by decide +kernel, by decide +kernel, fun p i hp h => (by decide +kernel : ∀ p < 4, ∀ i ∈ s6.jobOf p, i.ph ≠ JobPh.slotwait) p hp i (Option.mem_def.mpr h), by decide +kernel, by decide +kernel, by decide +kernel, by decide +kernel⟩,
    ⟨by decide +kernel, by decide +kernel, by decide +kernel, by decide +kernel, by decide +kernel, by decide +kernel, by decide +kernel, by decide +kernel, by decide +kernel, fun p i hp h => (by decide +kernel : ∀ p < 4, ∀ i ∈ s7.jobOf p, i.ph ≠ JobPh.slotwait) p hp i (Option.mem_def.mpr h), by decide +kernel, by decide +kernel, by decide +kernel, by decide +kernel⟩,
    ⟨by decide +kernel, by decide +kernel, by decide +kernel, by decide +kernel, by decide +kernel, by decide +kernel, by decide +kernel, by decide +kernel, by decide +kernel, fun p i hp h => (by decide +kernel : ∀ p < 4, ∀ i ∈ s2.jobOf p, i.ph ≠ JobPh.slotwait) p hp i (Option.mem_def.mpr h), by decide +kernel, by decide +kernel, by decide +kernel, by decide +kernel⟩,
    by decide +kernel,
    by decide +kernel,
    by decide +kernel⟩

theorem witness_CipherJobs_3 :
    (s11.jobOf (0 : Nat) = some v2 ∧ s11.cryRuns = true ∧ s11.cry.run = some (0 : Nat) ∧ v2.ph = JobPh.started ∧ v2.seg = true
      ∧ isDec v2.prog = true ∧ v2.fin = false ∧ v2.segBytes ≤ v2.pos ∧ s11.clean (v2.parm + 16 + 16 * v2.segk) 16 = true ∧
      v2.tag ≠ s11.memBytes (v2.parm + 16 + 16 * v2.segk) 16) ∧
    (s12.jobOf (0 : Nat) = some v3 ∧ s12.cryRuns = true ∧ v3.fin = true ∧ isDec v3.prog = true ∧ v3.seg = false ∧ s12.clean
      (v3.parm + 16) 16 = true ∧ v3.tag ≠ s12.memBytes (v3.parm + 16) 16) ∧
    (s13.jobOf (0 : Nat) = some v4 ∧ s13.cryRuns = true ∧ v4.fin = true ∧ (v4.prog = 5 ∨ isDec v4.prog = true ∧ v4.seg = false
      → s13.clean (v4.parm + 16) 16 = true ∧ v4.tag = s13.memBytes (v4.parm + 16) 16)) ∧
    ((nv.ctrOf 5).wr = some 512 ∧ (nv.ctrOf 5).wrDig = none ∧ nv.cryClock = true ∧ nv.clocked Island.mem = true ∧ nv.memc.flash
      = none ∧ nv.upd.piece = none) := by decide +kernel

theorem witness_SignatureUnit_1 :
    (s14.clocked Island.cry = false) ∧
    (s14.cryClock = false) ∧
    (s15.clocked Island.cry = true ∧ (s15.locked pkPg = true ∨ s15.bit pkPg R.PG_STAT.BUSY = true ∨ s15.fld 592 R.UPD.STAT.ST =
      3)) ∧
    (s16.clocked Island.cry = true ∧ s16.locked pkPg = false ∧ (¬(s16.bit pkPg R.PG_STAT.BUSY = true ∨ s16.fld 592
      R.UPD.STAT.ST = 3))) ∧
    (s17.cryClock = true ∧ s17.cry.pk = some false ∧ s17.sound (s17.fld pkPg R.PK.SRC.ADDR) (s17.fld pkPg R.PK.LEN.N) = true ∧
      0 < 8) ∧
    (s18.cryClock = true ∧ s18.cry.pk = some true ∧ s18.sound (s18.fld pkPg R.PK.SRC.ADDR) 160 = true ∧ ecdsaVerify (nat32
      (s18.memBytes (s18.fld pkPg R.PK.SRC.ADDR) 160) 0) (nat32 (s18.memBytes (s18.fld pkPg R.PK.SRC.ADDR) 160) 1) (nat32
      (s18.memBytes (s18.fld pkPg R.PK.SRC.ADDR) 160) 2) (nat32 (s18.memBytes (s18.fld pkPg R.PK.SRC.ADDR) 160) 3) (nat32
      (s18.memBytes (s18.fld pkPg R.PK.SRC.ADDR) 160) 4) = true) ∧
    (s19.cryClock = true ∧ s19.cry.pk = some true ∧ s19.sound (s19.fld pkPg R.PK.SRC.ADDR) 160 = true ∧ ecdsaVerify (nat32
      (s19.memBytes (s19.fld pkPg R.PK.SRC.ADDR) 160) 0) (nat32 (s19.memBytes (s19.fld pkPg R.PK.SRC.ADDR) 160) 1) (nat32
      (s19.memBytes (s19.fld pkPg R.PK.SRC.ADDR) 160) 2) (nat32 (s19.memBytes (s19.fld pkPg R.PK.SRC.ADDR) 160) 3) (nat32
      (s19.memBytes (s19.fld pkPg R.PK.SRC.ADDR) 160) 4) = false) := 
  ⟨by decide +kernel,
    by decide +kernel,
    by decide +kernel,
    by decide +kernel,
    by decide +kernel,
    ⟨by decide +kernel, by decide +kernel, by decide +kernel, (verify_at (z := 0)
      (x := 0x6B17D1F2E12C4247F8BCE6E563A440F277037D812DEB33A0F4A13945D898C296) (y := 0x4FE342E2FE1A7F9B8EE7EB4A7C0F9E162BCE33576B315ECECBB6406837BF51F5)
      (r := 0x6B17D1F2E12C4247F8BCE6E563A440F277037D812DEB33A0F4A13945D898C296) (t := 0x6B17D1F2E12C4247F8BCE6E563A440F277037D812DEB33A0F4A13945D898C296)
      (by decide +kernel) (by decide +kernel) (by decide +kernel) (by decide +kernel) (by decide +kernel) (by decide +kernel))⟩,
    ⟨by decide +kernel, by decide +kernel, by decide +kernel, (verify_at (z := 0)
      (x := 0x6B17D1F2E12C4247F8BCE6E563A440F277037D812DEB33A0F4A13945D898C296) (y := 0x4FE342E2FE1A7F9B8EE7EB4A7C0F9E162BCE33576B315ECECBB6406837BF51F5)
      (r := 0) (t := 0)
      (by decide +kernel) (by decide +kernel) (by decide +kernel) (by decide +kernel) (by decide +kernel) (by decide +kernel))⟩⟩

theorem witness_SignatureUnit_2 :
    (s20.cryClock = true ∧ (s20.fld daPg R.DA.STAT.ST = 2 ∨ s20.fld daPg R.DA.STAT.ST = 3 ∨ s20.keyBlank 15872 = true)) ∧
    (s16.cryClock = true ∧ s16.fld daPg R.DA.STAT.ST ≠ 2 ∧ s16.fld daPg R.DA.STAT.ST ≠ 3 ∧ s16.keyBlank 15872 = false) ∧
    (s16.cryClock = true ∧ s16.fld daPg R.DA.STAT.ST = 1 ∧ ecdsaVerify (natOfBytes (sha256 s16.cry.challenge)) (nat32
      (s16.otpBytes 15872 64) 0) (nat32 (s16.otpBytes 15872 64) 1)
      42877656971275811310262564894490210024759287182177196162425349131675946712428
      42877656971275811310262564894490210024759287182177196162425349131675946712428 = true) ∧
    (s16.cryClock = true ∧ s16.fld daPg R.DA.STAT.ST = 1 ∧ ecdsaVerify (natOfBytes (sha256 s16.cry.challenge)) (nat32
      (s16.otpBytes 15872 64) 0) (nat32 (s16.otpBytes 15872 64) 1) 0 0 = false ∧ s16.fld daPg R.DA.STAT.FAILS + 1 ≤ 3) ∧
    (s20.cryClock = true ∧ s20.fld daPg R.DA.STAT.ST ≠ 1) := 
  ⟨by decide +kernel,
    by decide +kernel,
    ⟨by decide +kernel, by decide +kernel, (verify_at (z := 0xAF2BDBE1AA9B6EC1E2ADE1D694F41FC71A831D0268E9891562113D8A62ADD1BF)
      (x := qx) (y := qy)
      (by decide +kernel) (by decide +kernel) (by decide +kernel) rfl rfl (by decide +kernel))⟩,
    ⟨by decide +kernel, by decide +kernel, (verify_at (z := 0xAF2BDBE1AA9B6EC1E2ADE1D694F41FC71A831D0268E9891562113D8A62ADD1BF)
      (x := qx) (y := qy)
      (by decide +kernel) (by decide +kernel) (by decide +kernel) rfl rfl (by decide +kernel)), by decide +kernel⟩,
    by decide +kernel⟩

end Cipher

namespace Power

def pw (f : State → State) : State := f { awake with mem := [(5, 1), (46 * 0x1000000, 3)] }
def nmst (st : Nat) (s : State) : State := put s nmPg [(R.PG_CTRL.EN, 1), (R.NM.STAT.STATE, st)]
def wk (s : State) : State := { nmst 3 s with power := .park, parkWake := none, tbRun := false }
def rst (l : List (Fld × Nat)) (f : State → State := id) : State := f (put awake rstPg l)
def up (st : Nat) (l : List (Fld × Nat)) (f : State → State := id) : State := f (put awake updPg ([(R.PG_CTRL.EN, 1), (R.UPD.STAT.ST, st), (R.UPD.SRCID.ID, 7), (R.UPD.STAT.HOLDER, if st = 0 then 0 else 7), (R.UPD.LEN.F, 0x140), (R.UPD.PADDR.ADDR, 0x4000000), (R.UPD.TRIALS.N, 3)] ++ l))
def zd (s : State) : State := { s with upd := { s.upd with dig := List.replicate 32 0, size := 2048 } }
def ro (st : Nat) (h : Nat) (f : State → State := id) : State := up st [(R.UPD.SRCID.ID, 0xFFFE), (R.UPD.STAT.HOLDER, h)] f
def dg (s : State) : State := { s with upd := { s.upd with dig := s.updDigReg, size := 0x140 } }
def s0 : State :=
  { (wk (put awake pmuPg [(R.PMU.ALMCTL.EN, 1)])) with tb := 0 }
def s1 : State :=
  { (put awake pmuPg [(R.PMU.ALMCTL.EN, 1), (R.PMU.ALM_LO.T, 10)]) with tb := 40000, pwr := { boot := BootPh.por, rtc := 9, vmode := 1 } }
def s2 : State :=
  pw fun s => put { s with power := Power.doze } pmuPg [(R.PMU.MODE.MODE, 1)]
def s3 : State :=
  pw wk
def s4 : State :=
  { (put awake pmuPg [(R.PMU.ALMCTL.EN, 1)]) with tb := 0 }
def s5 : State :=
  pw fun s => { s with pwr := { s.pwr with x32ok := true } }
def s6 : State :=
  pw fun s => nmst 3 s
def s7 : State :=
  pw fun s => { (nmst 3 s) with tbRun := false, parkWake := some (3, 5), power := Power.park }
def s8 : State :=
  pw fun s => put (put (wk s) (canPg 0) [(R.WAKE.CFG.WMODE, 1)]) nmPg [(R.NM.LWAKE.EN, 1)]
def s9 : State :=
  { (put awake pmuPg [(R.PMU.ALMCTL.EN, 1), (R.PMU.ALM_LO.T, 1)]) with tb := 0 }
def s10 : State :=
  lockPg (rst []) rstPg
def s11 : State :=
  rst []
def s12 : State :=
  pkd (rst [])
def s13 : State :=
  rst [(R.RST.HELD.H 0, 3), (R.RST.HELD.H 2, 65535), (R.RST.HSTAT.RUN, 1)]
def s14 : State :=
  dead (ro 1 7 dg)
def s15 : State :=
  lockPg (up 0 []) updPg
def s16 : State :=
  ro 1 7 dg
def s17 : State :=
  { (up 0 []) with pwr := { boot := BootPh.done, recovery := true, vmode := 1 } }
def s18 : State :=
  up 0 [(R.UPD.LEN.F, 5)]
def s19 : State :=
  ro 1 65535 fun s => { s with upd := { s.upd with claimed := true } }
def s20 : State :=
  up 1 []
def s21 : State :=
  up 2 [] dg
def s22 : State :=
  up 1 [] dg
def s23 : State :=
  ro 1 7
def s24 : State :=
  up 1 [(R.UPD.PADDR.ADDR, 0)]
def s25 : State :=
  ro 2 7 dg
def s26 : State :=
  up 4 [(R.UPD.TRIALS.N, 0)]
def s27 : State :=
  up 4 []
def s28 : State :=
  up 6 []
def s29 : State :=
  up 1 [] fun s => { (zd s) with upd := { ((zd s).upd) with held := 1, piece := some (1, [1, 2, 3]) } }
def s30 : State :=
  up 3 [] zd
def v1 : Nat × Nat :=
  (3, 5)
def v2 : Trx :=
  Trx.can 0
def v3 : BootIn :=
  { vlog := true, xin := true, x32 := true, shipOk := 1023, mapOk := true }
def v4 : BootIn :=
  { vlog := false, xin := true, x32 := true, shipOk := 1023, mapOk := true }
def v5 : BootIn :=
  { vlog := true, xin := false, x32 := true, shipOk := 1023, mapOk := true }
def v6 : List Byte :=
  [1, 2, 3]

theorem witness_PowerModes_1 :
    ((s0.locked pmuPg = true ∨ s0.power ≠ Power.run)) ∧
    (s1.locked pmuPg = false ∧ s1.power = Power.run) ∧
    ((s1.locked pmuPg = true ∨ s1.power ≠ Power.doze)) ∧
    (s2.locked pmuPg = false ∧ s2.power = Power.doze) ∧
    (s3.bit pmuPg R.PMU.ALMCTL.EN = false) ∧
    (s0.bit pmuPg R.PMU.ALMCTL.EN = true ∧ s0.rtcDue ≤ s0.kaNow ∧ s0.power = Power.park ∧ s0.parkWake = none) ∧
    (s4.bit pmuPg R.PMU.ALMCTL.EN = true ∧ s4.rtcDue ≤ s4.kaNow ∧ s4.power ≠ Power.park) := by
  refine ⟨?_, ?_, ?_, ?_, ?_, ?_, ?_⟩ <;> decide +kernel

theorem witness_PowerModes_2 :
    (s5.pwr.x32ok = true) ∧
    (s1.pwr.x32ok = false) ∧
    ((s1.power = Power.park ∨ s1.nmState ≠ 3 ∨ s1.bit updPg R.PG_STAT.BUSY = true)) ∧
    (s6.power ≠ Power.park ∧ s6.nmState = 3 ∧ s6.bit updPg R.PG_STAT.BUSY = false) ∧
    (s7.power = Power.park ∧ s7.parkWake = some v1 ∧ v1.1 < 8 ∧ v1.2 < 64 ∧ lostMacro (placeMacro 0) = true) ∧
    (s7.power = Power.park ∧ s7.parkWake = some v1 ∧ v1.1 < 8 ∧ v1.2 < 64 ∧ lostMacro (placeMacro 771751936) = false) ∧
    (s8.power = Power.park ∧ s8.busWakes v2 = true) := by
  refine ⟨?_, ?_, ?_, ?_, ?_, ?_, ?_⟩ <;> decide +kernel

theorem witness_PowerModes_3 :
    (s0.power = Power.park ∧ s0.busWakes v2 = false) ∧
    (s1.memc.flash = none ∧ s1.upd.piece = none ∧ ((List.any s1.cry.ctrs fun x => x.2.wr.isSome) = false)) ∧
    ((s9.pwr.boot = BootPh.done ∨ s9.power = Power.park)) ∧
    (v4.vlog = false) ∧
    (s1.pwr.boot ≠ BootPh.done ∧ s1.power ≠ Power.park ∧ v5.vlog = true ∧ v5.xin = false) ∧
    (s1.pwr.boot ≠ BootPh.done ∧ s1.power ≠ Power.park ∧ v3.vlog = true ∧ v3.xin = true) ∧
    (s0.power = Power.park ∧ 1 ≠ 0) := by
  refine ⟨?_, ?_, ?_, ?_, ?_, ?_, ?_⟩ <;> decide +kernel

theorem witness_PowerModes_4 :
    (s1.power ≠ Power.park ∧ 1 ≠ 0 ∧ 1 ≠ 15) := by decide +kernel

theorem witness_ChipReset :
    (s10.locked rstPg = true) ∧
    (s11.locked rstPg = false ∧ 0#8 ≠ 165#8) ∧
    (s11.power ≠ Power.park) ∧
    (s12.power = Power.park) ∧
    (s11.locked rstPg = false ∧ (∀ n < 48, s11.hsLead n = n ∧ s11.hsUnit n = [n])) ∧
    (s11.holdRun = false) ∧
    (s13.holdRun = true ∧ s13.pwr.holdEnd ≤ s13.kaNow) := by decide +kernel

theorem witness_FirmwareUpdate_Power_1 :
    (s14.clocked Island.mem = false) ∧
    (s15.clocked Island.mem = true ∧ (¬(s15.clocked Island.mem = true ∧ s15.locked updPg = false ∧ s15.bit updPg R.PG_STAT.BUSY
      = false))) ∧
    ((s16.pwr.recovery = false ∨ s16.clocked Island.mem = false ∨ s16.clocked Island.net = false)) ∧
    (s17.pwr.recovery = true ∧ s17.clocked Island.mem = true ∧ s17.clocked Island.net = true ∧ s17.bit updPg R.PG_STAT.BUSY =
      false) ∧
    ((s18.clocked Island.mem = true ∧ s18.locked updPg = false ∧ s18.bit updPg R.PG_STAT.BUSY = false) ∧ (¬(s18.fld updPg
      R.UPD.LEN.F ≥ 320 ∧ s18.fld updPg R.UPD.LEN.F ≤ 12582912))) ∧
    ((s17.clocked Island.mem = true ∧ s17.locked updPg = false ∧ s17.bit updPg R.PG_STAT.BUSY = false) ∧ (s17.fld updPg
      R.UPD.LEN.F ≥ 320 ∧ s17.fld updPg R.UPD.LEN.F ≤ 12582912) ∧ s17.updSt = 0) ∧
    ((s19.clocked Island.mem = true ∧ s19.locked updPg = false ∧ s19.bit updPg R.PG_STAT.BUSY = false) ∧ (s19.fld updPg
      R.UPD.LEN.F ≥ 320 ∧ s19.fld updPg R.UPD.LEN.F ≤ 12582912) ∧ s19.updSt ≠ 0 ∧ s19.fld updPg R.UPD.SRCID.ID ≠ s19.fld updPg
      R.UPD.STAT.HOLDER ∧ (isRom (s19.fld updPg R.UPD.SRCID.ID) = false ∨ isRom (s19.fld updPg R.UPD.STAT.HOLDER) = true ∧
      s19.upd.claimed = true)) := by
  refine ⟨?_, ?_, ?_, ?_, ?_, ?_, ?_⟩ <;> decide +kernel

theorem witness_FirmwareUpdate_Power_2 :
    ((s20.clocked Island.mem = true ∧ s20.locked updPg = false ∧ s20.bit updPg R.PG_STAT.BUSY = false) ∧ (s20.fld updPg
      R.UPD.LEN.F ≥ 320 ∧ s20.fld updPg R.UPD.LEN.F ≤ 12582912) ∧ s20.updSt ≠ 0 ∧ s20.fld updPg R.UPD.SRCID.ID = s20.fld updPg
      R.UPD.STAT.HOLDER ∧ s20.upd.dig ≠ s20.updDigReg) ∧
    ((s21.clocked Island.mem = true ∧ s21.locked updPg = false ∧ s21.bit updPg R.PG_STAT.BUSY = false) ∧ (s21.fld updPg
      R.UPD.LEN.F ≥ 320 ∧ s21.fld updPg R.UPD.LEN.F ≤ 12582912) ∧ 1 < s21.updSt ∧ s21.fld updPg R.UPD.SRCID.ID = s21.fld updPg
      R.UPD.STAT.HOLDER ∧ s21.upd.dig = s21.updDigReg) ∧
    ((s22.clocked Island.mem = true ∧ s22.locked updPg = false ∧ s22.bit updPg R.PG_STAT.BUSY = false) ∧ (s22.fld updPg
      R.UPD.LEN.F ≥ 320 ∧ s22.fld updPg R.UPD.LEN.F ≤ 12582912) ∧ s22.updSt = 1 ∧ s22.fld updPg R.UPD.SRCID.ID = s22.fld updPg
      R.UPD.STAT.HOLDER ∧ s22.upd.dig = s22.updDigReg) ∧
    ((s16.clocked Island.mem = true ∧ s16.locked updPg = false ∧ s16.bit updPg R.PG_STAT.BUSY = false) ∧ (s16.fld updPg
      R.UPD.LEN.F ≥ 320 ∧ s16.fld updPg R.UPD.LEN.F ≤ 12582912) ∧ s16.updSt ≠ 0 ∧ isRom (s16.fld updPg R.UPD.SRCID.ID) = true ∧
      isRom (s16.fld updPg R.UPD.STAT.HOLDER) = false ∧ s16.upd.dig = s16.updDigReg) ∧
    ((s23.clocked Island.mem = true ∧ s23.locked updPg = false ∧ s23.bit updPg R.PG_STAT.BUSY = false) ∧ (s23.fld updPg
      R.UPD.LEN.F ≥ 320 ∧ s23.fld updPg R.UPD.LEN.F ≤ 12582912) ∧ s23.updSt ≠ 0 ∧ isRom (s23.fld updPg R.UPD.SRCID.ID) = true ∧
      isRom (s23.fld updPg R.UPD.STAT.HOLDER) = false ∧ s23.upd.dig ≠ s23.updDigReg) ∧
    ((s24.clocked Island.mem = true ∧ s24.locked updPg = false ∧ s24.bit updPg R.PG_STAT.BUSY = false) ∧ (¬(268435456 ≤ 4 *
      s24.fld updPg R.UPD.PADDR.ADDR ∧ 4 * s24.fld updPg R.UPD.PADDR.ADDR < 274726912))) ∧
    ((s16.clocked Island.mem = true ∧ s16.locked updPg = false ∧ s16.bit updPg R.PG_STAT.BUSY = false) ∧ (268435456 ≤ 4 *
      s16.fld updPg R.UPD.PADDR.ADDR ∧ 4 * s16.fld updPg R.UPD.PADDR.ADDR < 274726912) ∧ s16.sound (4 * s16.fld updPg
      R.UPD.PADDR.ADDR) 1068 = true ∧ s16.updSt ≠ 0 ∧ s16.fld updPg R.UPD.SRCID.ID ≠ s16.fld updPg R.UPD.STAT.HOLDER) := by
  refine ⟨?_, ?_, ?_, ?_, ?_, ?_, ?_⟩ <;> decide +kernel

theorem witness_FirmwareUpdate_Power_3 :
    ((s21.clocked Island.mem = true ∧ s21.locked updPg = false ∧ s21.bit updPg R.PG_STAT.BUSY = false) ∧ (268435456 ≤ 4 *
      s21.fld updPg R.UPD.PADDR.ADDR ∧ 4 * s21.fld updPg R.UPD.PADDR.ADDR < 274726912) ∧ s21.sound (4 * s21.fld updPg
      R.UPD.PADDR.ADDR) 1068 = true ∧ (s21.updSt = 0 ∨ s21.updSt ≠ 1 ∧ s21.fld updPg R.UPD.SRCID.ID = s21.fld updPg
      R.UPD.STAT.HOLDER)) ∧
    ((s22.clocked Island.mem = true ∧ s22.locked updPg = false ∧ s22.bit updPg R.PG_STAT.BUSY = false) ∧ (268435456 ≤ 4 *
      s22.fld updPg R.UPD.PADDR.ADDR ∧ 4 * s22.fld updPg R.UPD.PADDR.ADDR < 274726912) ∧ s22.sound (4 * s22.fld updPg
      R.UPD.PADDR.ADDR) 1068 = true ∧ s22.updSt = 1 ∧ s22.fld updPg R.UPD.SRCID.ID = s22.fld updPg R.UPD.STAT.HOLDER ∧
      (s22.upd.pieceTake (s22.updSram (4 * s22.fld updPg R.UPD.PADDR.ADDR) 1068) false).1 ≠ 1) ∧
    ((s16.clocked Island.mem = true ∧ s16.locked updPg = false ∧ s16.bit updPg R.PG_STAT.BUSY = false) ∧ s16.updSt ≠ 2) ∧
    ((s25.clocked Island.mem = true ∧ s25.locked updPg = false ∧ s25.bit updPg R.PG_STAT.BUSY = false) ∧ s25.updSt = 2) ∧
    ((s16.clocked Island.mem = true ∧ s16.locked updPg = false ∧ s16.bit updPg R.PG_STAT.BUSY = false) ∧ s16.updSt ≠ 4) ∧
    ((s26.clocked Island.mem = true ∧ s26.locked updPg = false ∧ s26.bit updPg R.PG_STAT.BUSY = false) ∧ s26.updSt = 4 ∧
      (s26.fld updPg R.UPD.TRIALS.N = 0 ∨ 15 < s26.fld updPg R.UPD.TRIALS.N)) ∧
    ((s27.clocked Island.mem = true ∧ s27.locked updPg = false ∧ s27.bit updPg R.PG_STAT.BUSY = false) ∧ s27.updSt = 4 ∧ 1 ≤
      s27.fld updPg R.UPD.TRIALS.N ∧ s27.fld updPg R.UPD.TRIALS.N ≤ 15) := by
  refine ⟨?_, ?_, ?_, ?_, ?_, ?_, ?_⟩ <;> decide +kernel

theorem witness_FirmwareUpdate_Power_4 :
    ((s16.clocked Island.mem = true ∧ s16.locked updPg = false ∧ s16.bit updPg R.PG_STAT.BUSY = false) ∧ s16.updSt ≠ 6) ∧
    ((s28.clocked Island.mem = true ∧ s28.locked updPg = false ∧ s28.bit updPg R.PG_STAT.BUSY = false) ∧ s28.updSt = 6 ∧ (∀ (b
      : Bool), s28.cfgValid b = true → s28.cfgVersion b ≠ s28.fld updPg R.UPD.CFV.RUN)) ∧
    ((s17.clocked Island.mem = true ∧ s17.locked updPg = false ∧ s17.bit updPg R.PG_STAT.BUSY = false) ∧ (s17.updSt = 0 ∨
      s17.updSt = 3)) ∧
    ((s16.clocked Island.mem = true ∧ s16.locked updPg = false ∧ s16.bit updPg R.PG_STAT.BUSY = false) ∧ s16.updSt ≠ 0 ∧
      s16.updSt ≠ 3) ∧
    (s29.upd.piece = some (1, v6) ∧ s29.memc.flash = none ∧ s29.clocked Island.mem = true ∧ s29.updSt = 1 ∧ s29.upd.next < 255
      ∧ 1 < s29.upd.npc ∧ s29.upd.size ≤ 12582912 ∧ v6.length ≤ 1024 ∧ 0 < v6.length) ∧
    (s30.updSt = 3 ∧ s30.cry.pk = none ∧ s30.clocked Island.mem = true ∧ s30.clocked Island.cry = true ∧ (s30.bankRead
      s30.inactive).verifyImage.1 ≠ 1 ∧ (s30.bankRead s30.inactive).verifyImage.1 ≠ 11) := by
  refine ⟨?_, ?_, ?_, ?_, ?_, ?_⟩ <;> decide +kernel

end Power

namespace Boot

def put' (m : Nat) (l : List Byte) : Tab Byte := (((List.range l.length).zip l).map fun e => (m + e.1, e.2)).filter fun e => e.2 ≠ memDefault e.1
def digest : List Byte := List.replicate 32 7
def cfgC (b : Bool) (v : Nat) : Tab Byte := let l := leBytes 4 0x43464731 ++ leBytes 4 (v * 65536) ++ List.replicate 8 0; put' (place macroData (cfgSector b * 0x2000)) (withCrc l)
def up (st : Nat) (l : List (Fld × Nat)) (f : State → State := id) : State := f (put awake updPg ([(R.PG_CTRL.EN, 1), (R.UPD.STAT.ST, st), (R.UPD.SRCID.ID, 7), (R.UPD.STAT.HOLDER, if st = 0 then 0 else 7), (R.UPD.LEN.F, 0x140), (R.UPD.PADDR.ADDR, 0x4000000), (R.UPD.TRIALS.N, 3)] ++ l))
def fullU : Upd := { size := 0x1000 + 8 + 64, dig := digest, held := 0x1F }
def pc (i : Nat) (len : Nat) : List Byte := withCrc (leBytes 2 0x5043 ++ leBytes 2 len ++ leBytes 4 i ++ digest ++ List.replicate len 7)
def fOp : FlashOp := { prog := true, at_ := 58 * 0x1000000 + 0x2000, data := [1,2,3,4,5,6,7,0x01020304] }
def s1 : State :=
  { (up 1 []) with mem := put' 0 (pc 4 72), memc := { start := none, nv := { sec := (false, false) }, flash := some fOp }, upd := { fullU with held := 1 } }
def s2 : State :=
  { (up 1 []) with mem := put' 0 (pc 4 72), upd := { fullU with held := 1 } }
def s4 : State :=
  { (up 6 [(R.UPD.CFV.RUN, 5)]) with mem := cfgC true 5 }

theorem witness_FirmwareUpdate_Boot :
    ((s1.clocked Island.mem = true ∧ s1.locked updPg = false ∧ s1.bit updPg R.PG_STAT.BUSY = false) ∧ (268435456 ≤ 4 * s1.fld
      updPg R.UPD.PADDR.ADDR ∧ 4 * s1.fld updPg R.UPD.PADDR.ADDR < 274726912) ∧ s1.sound (4 * s1.fld updPg R.UPD.PADDR.ADDR)
      1068 = true ∧ s1.updSt = 1 ∧ s1.fld updPg R.UPD.SRCID.ID = s1.fld updPg R.UPD.STAT.HOLDER ∧ (s1.upd.pieceTake (s1.updSram
      (4 * s1.fld updPg R.UPD.PADDR.ADDR) 1068) false).1 = 1) ∧
    ((s2.clocked Island.mem = true ∧ s2.locked updPg = false ∧ s2.bit updPg R.PG_STAT.BUSY = false) ∧ (268435456 ≤ 4 * s2.fld
      updPg R.UPD.PADDR.ADDR ∧ 4 * s2.fld updPg R.UPD.PADDR.ADDR < 274726912) ∧ s2.sound (4 * s2.fld updPg R.UPD.PADDR.ADDR)
      1068 = true ∧ s2.updSt = 1 ∧ s2.fld updPg R.UPD.SRCID.ID = s2.fld updPg R.UPD.STAT.HOLDER ∧ (s2.upd.pieceTake (s2.updSram
      (4 * s2.fld updPg R.UPD.PADDR.ADDR) 1068) false).1 = 1 ∧ s2.memc.flash = none) ∧
    ((s4.clocked Island.mem = true ∧ s4.locked updPg = false ∧ s4.bit updPg R.PG_STAT.BUSY = false) ∧ s4.updSt = 6 ∧ (∃ b,
      s4.cfgValid b = true ∧ s4.cfgVersion b = s4.fld updPg R.UPD.CFV.RUN)) := by
  refine ⟨?_, ?_, ?_⟩ <;> decide +kernel

end Boot

namespace Block

def s0 : State :=
  { awake with pending := [Instr.nop 0] }
def v0 : Instr :=
  Instr.nop 0
def v1 : List Instr :=
  []

theorem witness_StepTakesFront :
    (s0.pending = v0 :: v1) ∧
    (awake.pending = [] ∧ awake.tbCounts = true) ∧
    (State.reset.pending = [] ∧ State.reset.tbCounts = false) ∧
    (awake.eth.queue = [] ∧ awake.eth.txWait = none) := by decide +kernel

theorem witness_ResetState :
    (0 < 512) := by decide +kernel

end Block

end Sys2Proof.Tests
end

section
/-! A write of a window of the LCM page that meets a takeover is held (R322): what that leaves of the state. -/

namespace Sys2Proof.Machine

@[simp] theorem State.fld_lcmHold (s : State) (w : Writer) (off : Nat) (d : Word) (pg : Nat) (f : Fld) :
    (s.lcmHold w off d).fld pg f = s.fld pg f := rfl

/-- R322 comes before R61: the write is held whether or not the page is locked, and is not answered. -/
theorem State.writeReg_of_lcmHolds {s : State} {off : Nat} {d : Word} (w : Writer) (hold : s.lcmHolds off d = true)
    (haligned : off % 4 = 0) (hwritable : accMask .rw lcmPg off ||| accMask .w1c lcmPg off ||| accMask .wo lcmPg off ≠ 0) :
    s.writeReg w lcmPg off d = s.lcmHold w off d :=
  if_pos ⟨rfl, hold, haligned, hwritable⟩

/-- A held write leaves PG_STAT.CODE, the answer to the write before it, as it stands. -/
theorem code_of_held_registerWrite {s t : State} {off : BitVec 12} {d : Word} {w : Writer} (hold : s.lcmHolds off.toNat d = true)
    (haligned : off.toNat % 4 = 0)
    (hwritable : accMask .rw lcmPg off.toNat ||| accMask .w1c lcmPg off.toNat ||| accMask .wo lcmPg off.toNat ≠ 0)
    (ht : exec (.registerWrite w 0x02A off d) s = .next t) : t.fld lcmPg R.PG_STAT.CODE = s.fld lcmPg R.PG_STAT.CODE := by
  have hexec : exec (.registerWrite w 0x02A off d) s = .next (s.lcmHold w off.toNat d) :=
    congrArg Host.Outcome.next (State.writeReg_of_lcmHolds w hold haligned hwritable)
  obtain rfl : s.lcmHold w off.toNat d = t := Host.Outcome.next.inj (hexec.symm.trans ht)
  exact State.fld_lcmHold ..

end Sys2Proof.Machine
end

section
/-! The statement of register pages fails where a takeover holds a write of the locked LCM page. -/

namespace Sys2Proof.Machine

/-- Every island is clocked and the LCM page is locked, while the spare pair 8 takes over logical core 1 from pair 1:
PG_LOCK_WRITE of the page and a MISMATCH of pair 1 lead a running device there (R61, R310). -/
def lockedInTakeover : State :=
  ({ State.reset with clkDead := [], takeovers := [{ pair := some 1, cores := [1], spare := 8, start := 0 }] } : State).setBit
    lcmPg R.PG_LOCK.LK true

/-- A write of LCM.CSEL that selects context 0 of the moving core 1 is held. -/
theorem lockedInTakeover_holds : lockedInTakeover.lcmHolds R.LCM.CSEL.CTX.off 32 = true := by decide

theorem lockedInTakeover_locked : lockedInTakeover.locked lcmPg = true := by decide +kernel

/-- PG_STAT of the page shows OK, as it does after reset. -/
theorem lockedInTakeover_code : lockedInTakeover.fld lcmPg R.PG_STAT.CODE = codeOK := by decide +kernel

/-- Refutes O22: the clause of locked pages asks STATE_REFUSED of every write of a locked page. A write of LCM.CSEL that addresses a
core which a takeover moves is held instead (R322), locked page or not, and PG_STAT.CODE stays OK until it is performed. -/
theorem not_registerPages : ¬ Obligations.RegisterPages := by
  unfold Obligations.RegisterPages
  rintro ⟨hwrite, -⟩
  obtain ⟨-, hclauses⟩ := hwrite lockedInTakeover .remote 0x02A 0x110 32
  obtain ⟨hlocked, -⟩ := hclauses (by decide) (by decide) (by decide) (by decide +kernel) (by decide +kernel) (by decide +kernel)
    (by decide) (by decide)
  obtain ⟨t, ht, hrefused, -⟩ := hlocked lockedInTakeover_locked
  have hkept := code_of_held_registerWrite lockedInTakeover_holds (by decide) (by decide +kernel) ht
  exact absurd (hrefused.symm.trans (hkept.trans lockedInTakeover_code)) (by decide)

end Sys2Proof.Machine
end

section
/-! Reads of a page after writes of it: a field, a register and a bit of PG_FSTAT see only what writes their own bits. -/

namespace Sys2Proof

/-- Two fields of a page share no bit: they stand in different registers, or in different bits of one. -/
@[simp] def Fld.Apart (f g : Fld) : Prop := f.off ≠ g.off ∨ f.hi < g.lo ∨ g.hi < f.lo

theorem Fld.mask_of_hi_lt_lo {f : Fld} (h : f.hi < f.lo) : f.mask = 0 := by
  simp [Fld.mask, show f.hi + 1 - f.lo = 0 by omega]

/-- Disjoint bit ranges have disjoint masks. -/
theorem Fld.mask_and_mask {f g : Fld} (h : f.hi < g.lo ∨ g.hi < f.lo) : f.mask &&& g.mask = 0 := by
  rcases Nat.lt_or_ge f.hi f.lo with hf | hf
  · simp [Fld.mask_of_hi_lt_lo hf]
  rcases Nat.lt_or_ge g.hi g.lo with hg | hg
  · simp [Fld.mask_of_hi_lt_lo hg]
  apply BitVec.eq_of_getLsbD_eq
  intro i _
  rw [BitVec.getLsbD_and, Fld.mask_getLsbD f i hf, Fld.mask_getLsbD g i hg]
  simp; omega

/-- A field's value fits its width. -/
theorem Fld.get_lt (f : Fld) (w : Word) (h : f.lo ≤ f.hi) (h2 : f.hi < 32) : f.get w < 2 ^ (f.hi + 1 - f.lo) := by
  have e : f.get w = f.get w % 2 ^ (f.hi + 1 - f.lo) := by
    rw [← Fld.get_put_same f w (f.get w) h h2]
    congr 1
    apply BitVec.eq_of_getLsbD_eq
    intro i hi
    simp only [Fld.put, Fld.get, BitVec.ofNat_toNat, BitVec.setWidth_eq, BitVec.getLsbD_and, BitVec.getLsbD_or, BitVec.getLsbD_not,
      BitVec.getLsbD_shiftLeft, BitVec.getLsbD_ushiftRight, Fld.mask_getLsbD f _ h, hi, decide_true, Bool.true_and]
    rcases Nat.lt_or_ge i f.lo with hl | hl
    · simp [hl]
    · cases hb : decide (i ≤ f.hi) <;> simp [show f.lo + (i - f.lo) = i by omega, hl, Nat.not_lt.2 hl, hi, hb]
  rw [e]
  exact Nat.mod_lt _ (Nat.two_pow_pos _)

end Sys2Proof

namespace Sys2Proof.Machine

/-! ## States with the same registers -/

theorem State.reg_of_regs {s t : State} (h : t.regs = s.regs) (pg off : Nat) : t.reg pg off = s.reg pg off := by
  simp only [State.reg, h]
theorem State.fld_of_regs {s t : State} (h : t.regs = s.regs) (pg : Nat) (f : Fld) : t.fld pg f = s.fld pg f := by
  simp only [State.fld, State.reg_of_regs h]
theorem State.bit_of_regs {s t : State} (h : t.regs = s.regs) (pg : Nat) (f : Fld) : t.bit pg f = s.bit pg f := by
  simp only [State.bit, State.fld_of_regs h]
theorem State.fstat_of_regs {s t : State} (h : t.regs = s.regs) (pg b : Nat) : t.fstat pg b = s.fstat pg b := by
  simp only [State.fstat, State.reg_of_regs h]
theorem State.coreExists_of_regs {s t : State} (h : t.regs = s.regs) (n : Nat) : t.coreExists n = s.coreExists n := by
  simp only [State.coreExists, State.fld_of_regs h]

/-! ## A written field -/

theorem State.reg_setFld_off (s : State) (pg : Nat) {f : Fld} {off : Nat} (v : Nat) (h : off ≠ f.off) :
    (s.setFld pg f v).reg pg off = s.reg pg off :=
  State.reg_setReg_ne s _ (by unfold regKey; omega)

theorem State.reg_setFld_page (s : State) {pg pg' : Nat} {f : Fld} {off : Nat} (v : Nat) (h : pg' ≠ pg) (hf : f.off < 0x1000)
    (ho : off < 0x1000) : (s.setFld pg f v).reg pg' off = s.reg pg' off :=
  State.reg_setReg_ne s _ (regKey_ne ho hf (.inl h))

theorem State.fld_setFld_apart (s : State) (pg : Nat) {f g : Fld} (v : Nat) (h : f.Apart g) :
    (s.setFld pg f v).fld pg g = s.fld pg g := by
  by_cases ho : g.off = f.off
  · exact State.fld_setFld_bits s pg v ho (Fld.mask_and_mask (h.resolve_left fun hn => hn ho.symm))
  · simp only [State.fld, State.reg_setFld_off s pg v ho]

theorem State.fld_setFld_page (s : State) {pg pg' : Nat} {f g : Fld} (v : Nat) (h : pg' ≠ pg) (hf : f.off < 0x1000)
    (hg : g.off < 0x1000) : (s.setFld pg f v).fld pg' g = s.fld pg' g := by
  simp only [State.fld, State.reg_setFld_page s v h hf hg]

theorem State.bit_setFld_apart (s : State) (pg : Nat) {f g : Fld} (v : Nat) (h : f.Apart g) :
    (s.setFld pg f v).bit pg g = s.bit pg g := by
  simp only [State.bit, State.fld_setFld_apart s pg v h]

theorem State.bit_setFld_page (s : State) {pg pg' : Nat} {f g : Fld} (v : Nat) (h : pg' ≠ pg) (hf : f.off < 0x1000)
    (hg : g.off < 0x1000) : (s.setFld pg f v).bit pg' g = s.bit pg' g := by
  simp only [State.bit, State.fld_setFld_page s v h hf hg]

/-- A field read after a write of a value that fits it. -/
theorem State.fld_setFld_fits (s : State) (pg : Nat) (f : Fld) (v : Nat) (h : f.lo ≤ f.hi) (h2 : f.hi < 32)
    (hv : v < 2 ^ (f.hi + 1 - f.lo)) : (s.setFld pg f v).fld pg f = v := by
  rw [State.fld_setFld_same s pg f v h h2, Nat.mod_eq_of_lt hv]

end Sys2Proof.Machine
end

section
/-! What leaves the registers alone but for a few offsets: a frame that needs no page number. -/

namespace Sys2Proof.Machine

/-- `t` has the registers of `s` but for those at the offsets `offs` and the event counters from 0x800 on (R62). -/
structure State.KeepsRegs (s t : State) (offs : List Nat) : Prop where
  reg : ∀ pg off, off < 0x800 → off ∉ offs → t.reg pg off = s.reg pg off

namespace State.KeepsRegs

variable {s t u : State} {offs : List Nat}

theorem of_regs (h : t.regs = s.regs) (offs : List Nat) : s.KeepsRegs t offs := ⟨fun pg off _ _ => State.reg_of_regs h pg off⟩
theorem refl (s : State) (offs : List Nat) : s.KeepsRegs s offs := of_regs rfl offs
theorem trans (h : s.KeepsRegs t offs) (h' : t.KeepsRegs u offs) : s.KeepsRegs u offs :=
  ⟨fun pg off hlt hn => (h'.reg pg off hlt hn).trans (h.reg pg off hlt hn)⟩
theorem mono (h : s.KeepsRegs t offs) {offs' : List Nat} (hsub : ∀ a ∈ offs, a ∈ offs') : s.KeepsRegs t offs' :=
  ⟨fun pg off hlt hn => h.reg pg off hlt fun hm => hn (hsub off hm)⟩

theorem fld (h : s.KeepsRegs t offs) (pg : Nat) {f : Fld} (hlt : f.off < 0x800) (hn : f.off ∉ offs) : t.fld pg f = s.fld pg f := by
  rw [State.fld, State.fld, h.reg pg f.off hlt hn]
theorem bit (h : s.KeepsRegs t offs) (pg : Nat) {f : Fld} (hlt : f.off < 0x800) (hn : f.off ∉ offs) : t.bit pg f = s.bit pg f := by
  rw [State.bit, State.bit, h.fld pg hlt hn]
theorem fstat (h : s.KeepsRegs t offs) (hn : 0x48 ∉ offs) (pg b : Nat) : t.fstat pg b = s.fstat pg b := by
  rw [State.fstat, State.fstat, h.reg pg 0x48 (by decide) hn]
theorem enabled (h : s.KeepsRegs t offs) (hn : 0x40 ∉ offs) (pg : Nat) : t.enabled pg = s.enabled pg := h.bit pg (by decide) hn

theorem setFld (s : State) (pg : Nat) (f : Fld) (v : Nat) (hm : f.off ∈ offs) (hlt : f.off < 0x1000) : s.KeepsRegs (s.setFld pg f v) offs :=
  ⟨fun pg' off hoff hn => State.reg_setReg_ne s _ (regKey_ne (by omega) hlt (.inr fun e => hn (e ▸ hm)))⟩
theorem setBit (s : State) (pg : Nat) (f : Fld) (b : Bool) (hm : f.off ∈ offs) (hlt : f.off < 0x1000) : s.KeepsRegs (s.setBit pg f b) offs :=
  setFld s pg f _ hm hlt

/-- A list of updates, each of which leaves the registers. -/
theorem foldl {α : Type} {f : State → α → State} (hf : ∀ (t : State) a, t.KeepsRegs (f t a) offs) : ∀ (l : List α) (s : State), s.KeepsRegs (l.foldl f s) offs
  | [], s => refl s offs
  | a :: l, s => (hf s a).trans (foldl hf l (f s a))

theorem count (s : State) (pg : Nat) {i : Nat} (hi : i < 64) : s.KeepsRegs (s.count pg i) offs := by
  refine ⟨fun pg' off hoff _ => ?_⟩
  unfold State.count
  split
  · split
    · exact State.reg_setReg_ne s _ (regKey_ne (by omega) (by simp; omega) (.inr (by simp; omega)))
    · rfl
  · rfl

end State.KeepsRegs

/-! ## Detections -/

/-- Of the registers a detection writes only PG_FSTAT of its page (R357). -/
theorem State.detectAs_regs (s : State) (pg bit : Nat) (l : List Nat) (d : Detail) :
    (s.detectAs pg bit l d).regs = (s.setReg pg 0x048 (s.reg pg 0x048 ||| 1 <<< bit)).regs := by
  have hpost (evs : List Nat) (u : State) : (evs.foldl State.post u).regs = u.regs := by
    obtain ⟨p, c, q, h⟩ := State.posts_eq evs u
    rw [h]
  have hraise (u : State) : (l.foldl (fun t c => t.raise c d) u).regs = u.regs := by
    obtain ⟨r, h⟩ := State.raises_eq d l u
    rw [h]
  unfold State.detectAs
  dsimp only
  split <;> split <;> simp only [hpost, hraise]

theorem State.KeepsRegs.detectAs {offs : List Nat} (s : State) (pg bit : Nat) (l : List Nat) (d : Detail) (hm : 0x48 ∈ offs) :
    s.KeepsRegs (s.detectAs pg bit l d) offs := by
  refine ⟨fun pg' off hlt hn => ?_⟩
  rw [State.reg_of_regs (s.detectAs_regs pg bit l d)]
  exact State.reg_setReg_ne s _ (regKey_ne (by omega) (by decide) (.inr fun e => hn (e ▸ hm)))

theorem State.KeepsRegs.detect {offs : List Nat} (s : State) (pg bit : Nat) (hm : 0x48 ∈ offs) : s.KeepsRegs (s.detect pg bit) offs :=
  State.KeepsRegs.detectAs s pg bit _ _ hm

/-- The mask of one bit of a word has that bit. -/
theorem bitMask_getLsbD {bit : Nat} (h : bit < 32) : BitVec.getLsbD (1 <<< bit : Word) bit = true := by
  change (BitVec.ofNat 32 (1 <<< bit)).getLsbD bit = true
  simp only [BitVec.getLsbD_ofNat, Nat.one_shiftLeft, Nat.testBit_two_pow_self, h, decide_true, Bool.and_self]

/-- A detection sets its bit (R357). -/
theorem State.fstat_detect_same (s : State) (pg : Nat) {bit : Nat} (h : bit < 32) : (s.detect pg bit).fstat pg bit = true := by
  rw [State.detect, State.fstat_of_regs (s.detectAs_regs pg bit _ _), State.fstat, State.reg_setReg_same,
    BitVec.getLsbD_or, bitMask_getLsbD h, Bool.or_true]

/-- A detection clears no bit of PG_FSTAT (R357). -/
theorem State.fstat_detect_of_fstat {s : State} {pg' b : Nat} (h : s.fstat pg' b = true) (pg bit : Nat) :
    (s.detect pg bit).fstat pg' b = true := by
  rw [State.detect, State.fstat_of_regs (s.detectAs_regs pg bit _ _), State.fstat]
  by_cases hk : regKey pg' 0x48 = regKey pg 0x48
  · obtain rfl : pg' = pg := by unfold regKey at hk; omega
    rw [State.fstat] at h
    simp [h]
  · rwa [State.reg_setReg_ne s _ hk]

/-- A list of detections clears no bit of PG_FSTAT. -/
theorem State.fstat_foldl_detect {α : Type} (p : α → Nat) (bit : Nat) {pg' b : Nat} : ∀ (l : List α) {s : State}, s.fstat pg' b = true →
    (l.foldl (fun t a => t.detect (p a) bit) s).fstat pg' b = true
  | [], _, h => h
  | a :: l, _, h => State.fstat_foldl_detect p bit l (State.fstat_detect_of_fstat h (p a) bit)

/-- Of a list of detections each sets its bit. -/
theorem State.fstat_foldl_detect_mem {α : Type} (p : α → Nat) {bit : Nat} (hb : bit < 32) {a : α} : ∀ {l : List α}, a ∈ l → ∀ s : State,
    (l.foldl (fun t a => t.detect (p a) bit) s).fstat (p a) bit = true
  | c :: l, h, s => by
    rcases List.mem_cons.1 h with rfl | h
    · exact State.fstat_foldl_detect p bit l (State.fstat_detect_same s _ hb)
    · exact State.fstat_foldl_detect_mem p hb h _

end Sys2Proof.Machine
end

section
/-! The state after a power-on reset. -/

namespace Sys2Proof.Machine

/-- After reset a context is as its default has it (R270). -/
theorem State.reset_cx (k : Nat) : State.reset.cx k = (ctxDflt k).now := rfl

theorem ctxDflt_now_st (k : Nat) : (ctxDflt k).now.st = if k = 0 then CtxSt.ready else CtxSt.off := by
  unfold ctxDflt
  by_cases h : k = 0
  · simp only [h, if_true]
  · simp only [h, if_false]

theorem ctxDflt_now_ctvec (k : Nat) : (ctxDflt k).now.ctvec = if k % 32 = 31 then 0x20000100#32 else 0#32 := by
  unfold ctxDflt
  by_cases h : k = 0
  · subst h; rfl
  · simp only [h, if_false]; rfl

/-- Settles O2: what nothing lists reads as its default. -/
theorem resetState : Obligations.ResetState := by
  unfold Obligations.ResetState
  refine ⟨fun k _ => ?_, rfl, rfl, fun k _ => ?_, fun _ => rfl, fun _ _ => rfl, rfl, rfl⟩
  · rw [State.reset_cx, ctxDflt_now_st]
  · rw [State.reset_cx, ctxDflt_now_ctvec]

end Sys2Proof.Machine
end

section
/-! The compare and capture units of TB (R94 to R96). -/

namespace Sys2Proof.Machine

/-! ## Firing -/

theorem State.fld_tbcTick (s : State) (x : Tab Nat) (pg : Nat) (f : Fld) : State.fld { s with tbcTick := x } pg f = s.fld pg f := rfl
theorem State.bit_tbcTick (s : State) (x : Tab Nat) (pg : Nat) (f : Fld) : State.bit { s with tbcTick := x } pg f = s.bit pg f := rfl
theorem State.fstat_tbcTick (s : State) (x : Tab Nat) (pg b : Nat) : State.fstat { s with tbcTick := x } pg b = s.fstat pg b := rfl

/-- What a compare shows as it fires, before it disarms or moves on (R94). -/
def State.tbcShow (s : State) (n : Nat) (late : Bool) : State :=
  let s := ((s.setBit tbPg (R.TBC.STAT.FIRED n) true).post (8 + n)).pulse Island.io.index (0x50 + n)
  if late then (s.setBit tbPg (R.TBC.STAT.LATE n) true).detect tbPg 1 else s

/-- A firing compare shows itself, and then disarms, or moves on by INTV (R94). -/
theorem State.tbcFire_eq (s : State) (n v : Nat) (late : Bool) : s.tbcFire n v late =
    if (s.tbcShow n late).fld tbPg (R.TBC.CTRL.INTV n) = 0 then (s.tbcShow n late).setBit tbPg (R.TBC.CTRL.ARM n) false
    else
      let i := (s.tbcShow n late).fld tbPg (R.TBC.CTRL.INTV n)
      let t := (s.tbcShow n late).setFld64 tbPg (R.TBC.LO.V n) (R.TBC.HI.V n) ((v + i) % 2 ^ 64)
      { t with tbcTick := tset (fun _ => 0) t.tbcTick n (if late then t.tb else v) } := rfl

theorem State.post_postings (s : State) (ev : Nat) : (s.post ev).postings = s.postings ++ [s.posting ev] := rfl

theorem State.KeepsRegs.coreExists {s t : State} {offs : List Nat} (h : s.KeepsRegs t offs) (hn : R.LCM.SPLIT.SPLIT.off ∉ offs) (n : Nat) :
    t.coreExists n = s.coreExists n := by
  simp only [State.coreExists, h.fld 0x02A (by decide) hn]

theorem State.KeepsRegs.posting {s t : State} {offs : List Nat} (h : s.KeepsRegs t offs) (hn : R.LCM.SPLIT.SPLIT.off ∉ offs) (ev : Nat) :
    t.posting ev = s.posting ev := by
  simp only [State.posting, funext (h.coreExists hn)]

/-- A detection of a page that lists no event of its own posts nothing (R60). -/
theorem State.detect_postings_of_no_event {s : State} {pg : Nat} (h : s.irqEvents pg = []) (bit : Nat) :
    (s.detect pg bit).postings = s.postings := by
  obtain ⟨r, hr⟩ := State.raises_eq (.page pg) (s.blkSources pg bit) (s.setReg pg 0x048 (s.reg pg 0x048 ||| 1 <<< bit))
  have hraised : (if s.reg pg 0x04C &&& 1 <<< bit = 0 then
      (s.blkSources pg bit).foldl (fun t c => t.raise c (.page pg)) (s.setReg pg 0x048 (s.reg pg 0x048 ||| 1 <<< bit))
      else s.setReg pg 0x048 (s.reg pg 0x048 ||| 1 <<< bit)).postings = s.postings := by
    split
    · rw [hr]; rfl
    · rfl
  unfold State.detect State.detectAs
  simp only [h, List.foldl_nil, ite_self, hraised]

theorem State.keepsRegs_tbcShow (s : State) {n : Nat} (hn : n < 8) (late : Bool) :
    s.KeepsRegs (s.tbcShow n late) [0x20c + 0x10 * n, 0x48] := by
  have hfired : s.KeepsRegs (((s.setBit tbPg (R.TBC.STAT.FIRED n) true).post (8 + n)).pulse Island.io.index (0x50 + n))
      [0x20c + 0x10 * n, 0x48] := (State.KeepsRegs.setBit s tbPg (R.TBC.STAT.FIRED n) true (by simp) (by simp; omega)).trans (.of_regs (by rfl) _)
  unfold State.tbcShow
  cases late
  · exact hfired
  · exact (hfired.trans (.setBit _ tbPg (R.TBC.STAT.LATE n) true (by simp) (by simp; omega))).trans (.detect _ _ _ (by simp))

theorem State.tbcShow_postings (s : State) {n : Nat} (hn : n < 8) (late : Bool) :
    (s.tbcShow n late).postings = s.postings ++ [s.posting (8 + n)] := by
  have hfired : (((s.setBit tbPg (R.TBC.STAT.FIRED n) true).post (8 + n)).pulse Island.io.index (0x50 + n)).postings =
      s.postings ++ [s.posting (8 + n)] := by
    rw [← (State.KeepsRegs.setBit s tbPg (R.TBC.STAT.FIRED n) true (List.mem_singleton_self _) (by simp; omega)).posting
      (by simp; omega), ← State.setBit_postings s tbPg (R.TBC.STAT.FIRED n) true, ← State.post_postings]
    rfl
  unfold State.tbcShow
  cases late
  · exact hfired
  · exact (State.detect_postings_of_no_event rfl 1).trans hfired

theorem State.tbcShow_tb (s : State) (n : Nat) (late : Bool) : (s.tbcShow n late).tb = s.tb := by
  unfold State.tbcShow
  cases late
  · rfl
  · exact State.detect_tb ..

theorem State.tbcShow_fired (s : State) {n : Nat} (hn : n < 8) (late : Bool) : (s.tbcShow n late).bit tbPg (R.TBC.STAT.FIRED n) = true := by
  have hfired : (s.setBit tbPg (R.TBC.STAT.FIRED n) true).bit tbPg (R.TBC.STAT.FIRED n) = true :=
    State.bit_setBit_same s tbPg _ true rfl (by simp)
  unfold State.tbcShow
  cases late
  · exact hfired
  · refine ((State.KeepsRegs.detect _ tbPg 1 (List.mem_singleton_self _)).bit tbPg (by simp; omega) (by simp; omega)).trans ?_
    exact (State.bit_setFld_apart _ tbPg 1 (by simp)).trans hfired

/-- LATE sets with a late firing, and stays as it is otherwise (R94). -/
theorem State.tbcShow_late (s : State) {n : Nat} (hn : n < 8) (late : Bool) :
    (s.tbcShow n late).bit tbPg (R.TBC.STAT.LATE n) = (late || s.bit tbPg (R.TBC.STAT.LATE n)) := by
  unfold State.tbcShow
  cases late
  · exact State.bit_setFld_apart s tbPg 1 (by simp)
  · exact ((State.KeepsRegs.detect _ tbPg 1 (List.mem_singleton_self _)).bit tbPg (by simp; omega) (by simp; omega)).trans
      (State.bit_setBit_same _ tbPg _ true rfl (by simp))

/-! ### After the firing -/

/-- A 64-bit value read after a write of it. -/
theorem State.fld64_setFld64 (s : State) (pg : Nat) {lo hi : Fld} (v : Nat) (h : lo.off ≠ hi.off) (hlo : lo.lo = 0 ∧ lo.hi = 31)
    (hhi : hi.lo = 0 ∧ hi.hi = 31) : (s.setFld64 pg lo hi v).fld64 pg lo hi = v % 2 ^ 64 := by
  have hl : (s.setFld64 pg lo hi v).fld pg lo = v % 2 ^ 32 := by
    rw [State.setFld64, State.fld_setFld_apart _ pg _ (.inl (Ne.symm h)), State.fld_setFld_fits _ pg lo _ (by omega) (by omega)
      (by rw [hlo.1, hlo.2]; exact Nat.mod_lt _ (by decide))]
  have hh : (s.setFld64 pg lo hi v).fld pg hi = v / 2 ^ 32 % 2 ^ 32 := by
    rw [State.setFld64, State.fld_setFld_fits _ pg hi _ (by omega) (by omega)
      (by rw [hhi.1, hhi.2]; exact Nat.mod_lt _ (by decide))]
  rw [State.fld64, hl, hh]
  omega

theorem State.keepsRegs_setFld64 {offs : List Nat} (s : State) (pg : Nat) {lo hi : Fld} (v : Nat) (hl : lo.off ∈ offs) (hh : hi.off ∈ offs)
    (hlo : lo.off < 0x1000) (hhi : hi.off < 0x1000) : s.KeepsRegs (s.setFld64 pg lo hi v) offs :=
  (State.KeepsRegs.setFld s pg lo _ hl hlo).trans (.setFld _ pg hi _ hh hhi)

/-- What a firing shows stays: it writes besides only ARM, or the compare's value (R94). -/
theorem State.keepsRegs_tbcFire (s : State) {n : Nat} (hn : n < 8) (v : Nat) (late : Bool) :
    (s.tbcShow n late).KeepsRegs (s.tbcFire n v late) [0x200 + 0x10 * n, 0x204 + 0x10 * n, 0x208 + 0x10 * n] := by
  rw [State.tbcFire_eq]
  split
  · exact .setBit _ tbPg (R.TBC.CTRL.ARM n) false (by simp) (by simp; omega)
  · exact (State.keepsRegs_setFld64 (lo := R.TBC.LO.V n) (hi := R.TBC.HI.V n) _ tbPg _ (by simp) (by simp) (by simp; omega) (by simp; omega)).trans (.of_regs (by rfl) _)

theorem State.tbcFire_tb (s : State) (n v : Nat) (late : Bool) : (s.tbcFire n v late).tb = s.tb := by
  rw [State.tbcFire_eq]
  split
  · rw [State.setBit_tb, State.tbcShow_tb]
  · simp only [State.setFld64, State.setFld_tb, State.tbcShow_tb]

theorem State.tbcFire_postings (s : State) {n : Nat} (hn : n < 8) (v : Nat) (late : Bool) :
    (s.tbcFire n v late).postings = s.postings ++ [s.posting (8 + n)] := by
  rw [State.tbcFire_eq]
  split
  · rw [State.setBit_postings, State.tbcShow_postings s hn]
  · simp only [State.setFld64, State.setFld_postings, State.tbcShow_postings s hn]

theorem State.tbcShow_fld {s : State} {n : Nat} (hn : n < 8) (late : Bool) {f : Fld} (h : 0x200 ≤ f.off) (hlt : f.off < 0x800)
    (hne : f.off ≠ 0x20c + 0x10 * n) : (s.tbcShow n late).fld tbPg f = s.fld tbPg f :=
  (s.keepsRegs_tbcShow hn late).fld tbPg hlt (by simp; omega)

/-- With INTV = 0 a compare disarms as it fires (R94). -/
theorem State.tbcFire_disarms {s : State} {n : Nat} (hn : n < 8) (v : Nat) (late : Bool) (h : s.fld tbPg (R.TBC.CTRL.INTV n) = 0) :
    (s.tbcFire n v late).bit tbPg (R.TBC.CTRL.ARM n) = false := by
  rw [State.tbcFire_eq, if_pos (by rw [State.tbcShow_fld hn late (by simp; omega) (by simp; omega) (by simp), h])]
  exact State.bit_setBit_same _ tbPg _ false rfl (by simp)

/-- With an interval a compare stays armed as it fires, and its value moves on (R94). -/
theorem State.tbcFire_moves {s : State} {n : Nat} (hn : n < 8) (v : Nat) (late : Bool) (h : s.fld tbPg (R.TBC.CTRL.INTV n) ≠ 0) :
    (s.tbcFire n v late).bit tbPg (R.TBC.CTRL.ARM n) = s.bit tbPg (R.TBC.CTRL.ARM n) ∧
      (s.tbcFire n v late).fld64 tbPg (R.TBC.LO.V n) (R.TBC.HI.V n) = (v + s.fld tbPg (R.TBC.CTRL.INTV n)) % 2 ^ 64 := by
  have hshow {f : Fld} (h : 0x200 ≤ f.off) (hlt : f.off < 0x800) (hne : f.off ≠ 0x20c + 0x10 * n) :
      (s.tbcShow n late).fld tbPg f = s.fld tbPg f := State.tbcShow_fld hn late h hlt hne
  rw [State.tbcFire_eq, hshow (by simp; omega) (by simp; omega) (by simp), if_neg h]
  constructor
  · rw [State.bit_tbcTick, State.bit, State.setFld64, State.fld_setFld_apart _ tbPg _ (by simp), State.fld_setFld_apart _ tbPg _ (by simp),
      hshow (by simp; omega) (by simp; omega) (by simp), State.bit]
  · exact (State.fld64_setFld64 _ tbPg _ (by simp) (by simp) (by simp)).trans (Nat.mod_mod _ _)

/-! ## Writes of TBC.CTRL -/

theorem State.code_ok (s : State) (pg : Nat) : (s.ok pg).code pg = 0 := State.code_answer s pg codeOK (by decide)

theorem State.keepsRegs_ok {offs : List Nat} (s : State) (pg : Nat) (hm : 0x44 ∈ offs) : s.KeepsRegs (s.ok pg) offs :=
  .setFld s pg R.PG_STAT.CODE _ hm (by decide)

/-- A write of TBC.CTRL that takes effect (R95). -/
def State.tbcSet (s : State) (n intv : Nat) (arm : Bool) : State :=
  let s := (s.setFld tbPg (R.TBC.CTRL.INTV n) intv).setBit tbPg (R.TBC.CTRL.ARM n) arm
  ({ s with tbcTick := tset (fun _ => 0) s.tbcTick n s.tb } : State).ok tbPg

theorem State.tbcCtrl_eq {s : State} {n : Nat} {arm : Bool} (intv : Nat) (h : ¬(s.bit tbPg (R.TBC.CTRL.ARM n) = true ∧ arm = true)) :
    s.tbcCtrl n intv arm = (if s.tbcDue n then s.tbcFire n (s.tbcVal n) (decide (s.tbcVal n ≤ tget (fun _ => 0) s.tbcTick n))
      else s).tbcSet n intv arm := if_neg h

theorem State.tbcSet_arm (s : State) {n : Nat} (hn : n < 8) (intv : Nat) (arm : Bool) : (s.tbcSet n intv arm).bit tbPg (R.TBC.CTRL.ARM n) = arm := by
  rw [State.tbcSet, (State.keepsRegs_ok _ tbPg (List.mem_singleton_self _)).bit tbPg (by simp; omega) (by simp; omega), State.bit_tbcTick]
  exact State.bit_setBit_same _ tbPg _ arm rfl (by simp)

theorem State.tbcSet_intv (s : State) {n : Nat} (hn : n < 8) (intv : BitVec 24) (arm : Bool) :
    (s.tbcSet n intv.toNat arm).fld tbPg (R.TBC.CTRL.INTV n) = intv.toNat := by
  rw [State.tbcSet, (State.keepsRegs_ok _ tbPg (List.mem_singleton_self _)).fld tbPg (by simp; omega) (by simp; omega), State.fld_tbcTick,
    State.setBit, State.fld_setFld_apart _ tbPg _ (by simp)]
  exact State.fld_setFld_fits _ tbPg _ _ (by simp) (by simp) (by simpa using intv.isLt)

theorem State.tbcSet_postings (s : State) (n intv : Nat) (arm : Bool) : (s.tbcSet n intv arm).postings = s.postings := by
  simp only [State.tbcSet, State.ok_postings, State.setBit_postings, State.setFld_postings]

theorem State.keepsRegs_tbcSet (s : State) {n : Nat} (hn : n < 8) (intv : Nat) (arm : Bool) :
    s.KeepsRegs (s.tbcSet n intv arm) [0x208 + 0x10 * n, 0x44] := by
  have hset : s.KeepsRegs ((s.setFld tbPg (R.TBC.CTRL.INTV n) intv).setBit tbPg (R.TBC.CTRL.ARM n) arm) [0x208 + 0x10 * n, 0x44] :=
    (State.KeepsRegs.setFld s tbPg (R.TBC.CTRL.INTV n) intv (by simp) (by simp; omega)).trans (.setBit _ tbPg (R.TBC.CTRL.ARM n) arm (by simp) (by simp; omega))
  unfold State.tbcSet
  exact (hset.trans (.of_regs (by rfl) _)).trans (State.keepsRegs_ok _ tbPg (by simp))

/-- A write of TBC.CTRL that reaches the page (R61, R95, R105). -/
theorem exec_tbcCtrlWrite {s : State} (hlock : s.locked 0x003 = false) (hclk : s.clocked .io = true) (n : Fin 8) (intv : BitVec 24)
    (arm : Bool) : exec (.tbcCtrlWrite n intv arm) s = .next (s.tbcCtrl n intv.toNat arm) := by
  change execTbcCtrlWrite n intv arm s = _
  simp only [execTbcCtrlWrite, hclk, hlock, tbPg, Bool.not_true, Bool.false_eq_true, if_false]

/-- Neither armed and to be armed, nor due: INTV and ARM are taken, and nothing fires (R95). -/
theorem tbcCtrlWrite_takes {s : State} (hlock : s.locked 0x003 = false) (hclk : s.clocked .io = true) {n : Fin 8} {arm : Bool}
    (intv : BitVec 24) (h : s.bit 0x003 (R.TBC.CTRL.ARM n) = false ∨ (arm = false ∧ s.tbcDue n = false)) :
    Gives (.tbcCtrlWrite n intv arm) s fun t =>
      t.bit 0x003 (R.TBC.CTRL.ARM n) = arm ∧ t.fld 0x003 (R.TBC.CTRL.INTV n) = intv.toNat ∧ t.code 0x003 = 0 ∧ t.postings = s.postings := by
  have hdue : s.tbcDue n = false := h.elim (fun h => by simp [State.tbcDue, tbPg, h]) And.right
  have hnot : ¬(s.bit tbPg (R.TBC.CTRL.ARM n) = true ∧ arm = true) := by
    rintro ⟨h1, h2⟩
    rcases h with h | h
    · exact absurd (h.symm.trans h1) (by decide)
    · exact absurd (h.1.symm.trans h2) (by decide)
  refine ⟨_, exec_tbcCtrlWrite hlock hclk n intv arm, ?_⟩
  rw [State.tbcCtrl_eq intv.toNat hnot, hdue, if_neg (by decide)]
  exact ⟨State.tbcSet_arm _ n.isLt .., State.tbcSet_intv _ n.isLt .., State.code_ok .., State.tbcSet_postings ..⟩

/-- Disarming a compare that is due in the same cycle: it has fired (R95). -/
theorem tbcCtrlWrite_disarms_due {s : State} (hlock : s.locked 0x003 = false) (hclk : s.clocked .io = true) {n : Fin 8}
    (intv : BitVec 24) (hdue : s.tbcDue n = true) : Gives (.tbcCtrlWrite n intv false) s fun t =>
      t.bit 0x003 (R.TBC.CTRL.ARM n) = false ∧ t.bit 0x003 (R.TBC.STAT.FIRED n) = true ∧
      t.postings = s.postings ++ [s.posting (8 + n.val)] := by
  refine ⟨_, exec_tbcCtrlWrite hlock hclk n intv false, ?_⟩
  rw [State.tbcCtrl_eq intv.toNat (by simp), hdue, if_pos rfl]
  refine ⟨State.tbcSet_arm _ n.isLt .., ?_, (State.tbcSet_postings ..).trans (State.tbcFire_postings s n.isLt ..)⟩
  exact ((State.keepsRegs_tbcSet _ n.isLt ..).bit tbPg (by simp; omega) (by simp; omega)).trans
    (((State.keepsRegs_tbcFire s n.isLt ..).bit tbPg (by simp; omega) (by simp)).trans (State.tbcShow_fired s n.isLt _))

/-- An armed compare that is to be armed: the same INTV changes nothing, another is refused (R95). -/
theorem tbcCtrl_of_armed {s : State} {n : Nat} (h : s.bit 0x003 (R.TBC.CTRL.ARM n) = true) (intv : Nat) :
    s.tbcCtrl n intv true = if intv = s.fld 0x003 (R.TBC.CTRL.INTV n) then s.ok 0x003 else s.refuse 0x003 := if_pos ⟨h, rfl⟩

/-- A compare whose value TB has reached since it was armed fires (R94). -/
theorem exec_tbcFire {s : State} {n : Fin 8} (harm : s.bit 0x003 (R.TBC.CTRL.ARM n) = true) (hrun : s.tbRun = true)
    (hclk : s.clocked .io = true) (hv : s.tbcVal n ≤ s.tb) (ha : tget (fun _ => 0) s.tbcTick n < s.tb) :
    exec (.tbcFire n) s = .next (s.tbcFire n (s.tbcVal n) (decide (s.tbcVal n ≤ tget (fun _ => 0) s.tbcTick n))) := by
  change execTbcFire n s = _
  rw [execTbcFire, if_pos ⟨harm, hrun, hclk⟩, State.atTick, if_pos (by omega)]

theorem tbcFire_shows {s : State} {n : Fin 8} (harm : s.bit 0x003 (R.TBC.CTRL.ARM n) = true) (hrun : s.tbRun = true)
    (hclk : s.clocked .io = true) (hv : s.tbcVal n ≤ s.tb) (ha : tget (fun _ => 0) s.tbcTick n < s.tb) :
    Gives (.tbcFire n) s fun t =>
       t.bit 0x003 (R.TBC.STAT.FIRED n) = true ∧ t.postings = s.postings ++ [s.posting (8 + n.val)] ∧ t.tb = s.tb ∧
       (s.tbcVal n ≤ tget (fun _ => 0) s.tbcTick n → t.bit 0x003 (R.TBC.STAT.LATE n) = true ∧ t.fstat 0x003 1 = true) ∧
       (tget (fun _ => 0) s.tbcTick n < s.tbcVal n → t.bit 0x003 (R.TBC.STAT.LATE n) = s.bit 0x003 (R.TBC.STAT.LATE n)) ∧
       (s.fld 0x003 (R.TBC.CTRL.INTV n) = 0 → t.bit 0x003 (R.TBC.CTRL.ARM n) = false) ∧
       (s.fld 0x003 (R.TBC.CTRL.INTV n) ≠ 0 → t.bit 0x003 (R.TBC.CTRL.ARM n) = true ∧
         t.fld64 0x003 (R.TBC.LO.V n) (R.TBC.HI.V n) = (s.tbcVal n + s.fld 0x003 (R.TBC.CTRL.INTV n)) % 2 ^ 64) := by
  have hstat (late : Bool) {f : Fld} (hf : f.off = 0x20c + 0x10 * n.val) :
      (s.tbcFire n (s.tbcVal n) late).bit 0x003 f = (s.tbcShow n late).bit 0x003 f :=
    (State.keepsRegs_tbcFire s n.isLt ..).bit 0x003 (by omega) (by simp; omega)
  refine ⟨_, exec_tbcFire harm hrun hclk hv ha, (hstat _ rfl).trans (State.tbcShow_fired s n.isLt _), State.tbcFire_postings s n.isLt ..,
    State.tbcFire_tb .., fun hlate => ?_, fun hlate => ?_, fun hi => State.tbcFire_disarms n.isLt _ _ hi, fun hi => ?_⟩
  · rw [decide_eq_true hlate]
    refine ⟨(hstat true rfl).trans (State.tbcShow_late s n.isLt true), ?_⟩
    rw [(State.keepsRegs_tbcFire s n.isLt ..).fstat (by simp; omega)]
    exact State.fstat_detect_same _ 0x003 (by decide)
  · rw [decide_eq_false (by omega)]
    exact (hstat false rfl).trans (State.tbcShow_late s n.isLt false)
  · obtain ⟨hkeep, hval⟩ := State.tbcFire_moves n.isLt (s.tbcVal n) (decide (s.tbcVal n ≤ tget (fun _ => 0) s.tbcTick n)) hi
    exact ⟨hkeep.trans harm, hval⟩

/-! ## Captures -/

/-- A capture unit that is not FULL takes the tick (R96). -/
theorem State.capTake_of_empty {s : State} {m : Nat} (hm : m < 4) (tick : Nat) (h : s.bit tbPg (R.CAP.STAT.FULL m) = false) :
    (s.capTake m tick).fld tbPg (R.CAP.LO.T m) = tick % 2 ^ 32 ∧
      (s.capTake m tick).fld tbPg (R.CAP.HI.T m) = tick / 2 ^ 32 % 2 ^ 32 ∧
      (s.capTake m tick).bit tbPg (R.CAP.STAT.FULL m) = true ∧ (s.capTake m tick).postings = s.postings ++ [s.posting m] := by
  have htake : s.capTake m tick =
      ((s.setFld64 tbPg (R.CAP.LO.T m) (R.CAP.HI.T m) tick).setBit tbPg (R.CAP.STAT.FULL m) true).post m := by
    rw [State.capTake, h, if_neg (by decide)]
  have hframe : s.KeepsRegs ((s.setFld64 tbPg (R.CAP.LO.T m) (R.CAP.HI.T m) tick).setBit tbPg (R.CAP.STAT.FULL m) true)
      [0x284 + 0x10 * m, 0x288 + 0x10 * m, 0x28c + 0x10 * m] :=
    (State.keepsRegs_setFld64 (lo := R.CAP.LO.T m) (hi := R.CAP.HI.T m) s tbPg tick (by simp) (by simp) (by simp; omega)
      (by simp; omega)).trans (.setBit _ tbPg (R.CAP.STAT.FULL m) true (by simp) (by simp; omega))
  have hfld (f : Fld) (hf : (R.CAP.STAT.FULL m).Apart f) :
      (s.capTake m tick).fld tbPg f = (s.setFld64 tbPg (R.CAP.LO.T m) (R.CAP.HI.T m) tick).fld tbPg f := by
    rw [htake, State.fld_of_regs (State.post_regs ..), State.setBit, State.fld_setFld_apart _ tbPg _ hf]
  refine ⟨?_, ?_, ?_, ?_⟩
  · rw [hfld _ (by simp), State.setFld64, State.fld_setFld_apart _ tbPg _ (by simp)]
    exact State.fld_setFld_fits _ tbPg _ _ (by simp) (by simp) (Nat.mod_lt _ (by decide))
  · rw [hfld _ (by simp), State.setFld64]
    exact State.fld_setFld_fits _ tbPg _ _ (by simp) (by simp) (Nat.mod_lt _ (by decide))
  · rw [htake, State.bit_of_regs (State.post_regs ..)]
    exact State.bit_setBit_same _ tbPg _ true rfl (by simp)
  · rw [htake, State.post_postings, hframe.posting (by simp; omega)]
    simp only [State.setFld64, State.setBit_postings, State.setFld_postings]

/-- A capture unit that is FULL keeps what it took, and shows the loss (R96). -/
theorem State.capTake_of_full {s : State} {m : Nat} (hm : m < 4) (tick : Nat) (h : s.bit tbPg (R.CAP.STAT.FULL m) = true) :
    (s.capTake m tick).fld tbPg (R.CAP.LO.T m) = s.fld tbPg (R.CAP.LO.T m) ∧
      (s.capTake m tick).fld tbPg (R.CAP.HI.T m) = s.fld tbPg (R.CAP.HI.T m) ∧
      (s.capTake m tick).bit tbPg (R.CAP.STAT.OVR m) = true ∧ (s.capTake m tick).fstat tbPg 2 = true := by
  have htake : s.capTake m tick = (s.setBit tbPg (R.CAP.STAT.OVR m) true).detect tbPg 2 := by
    rw [State.capTake, h, if_pos rfl]
  have hdetect : (s.setBit tbPg (R.CAP.STAT.OVR m) true).KeepsRegs (s.capTake m tick) [0x48] := htake ▸ .detect _ _ _ (by simp)
  have hframe : s.KeepsRegs (s.capTake m tick) [0x28c + 0x10 * m, 0x48] :=
    (State.KeepsRegs.setBit s tbPg (R.CAP.STAT.OVR m) true (by simp) (by simp; omega)).trans (hdetect.mono (by simp))
  refine ⟨hframe.fld tbPg (by simp; omega) (by simp; omega), hframe.fld tbPg (by simp; omega) (by simp; omega), ?_, ?_⟩
  · rw [hdetect.bit tbPg (by simp; omega) (by simp; omega)]
    exact State.bit_setBit_same _ tbPg _ true rfl (by simp)
  · rw [htake]
    exact State.fstat_detect_same _ tbPg (by decide)

/-- What a command does that makes a capture unit take a tick, on a state with the registers and postings of `s` (R96). -/
theorem captureTakes {s u : State} {c : Instr} {m tick : Nat} (hm : m < 4) (hc : exec c s = .next (u.capTake m tick))
    (hregs : u.regs = s.regs) (hpost : u.postings = s.postings) :
    (s.bit 0x003 (R.CAP.STAT.FULL m) = false → Gives c s fun t =>
      t.fld 0x003 (R.CAP.LO.T m) = tick % 2 ^ 32 ∧ t.fld 0x003 (R.CAP.HI.T m) = tick / 2 ^ 32 % 2 ^ 32 ∧
      t.bit 0x003 (R.CAP.STAT.FULL m) = true ∧ t.postings = s.postings ++ [s.posting m]) ∧
    (s.bit 0x003 (R.CAP.STAT.FULL m) = true → Gives c s fun t =>
      t.fld 0x003 (R.CAP.LO.T m) = s.fld 0x003 (R.CAP.LO.T m) ∧ t.fld 0x003 (R.CAP.HI.T m) = s.fld 0x003 (R.CAP.HI.T m) ∧
      t.bit 0x003 (R.CAP.STAT.OVR m) = true ∧ t.fstat 0x003 2 = true) := by
  have hposting : u.posting m = s.posting m := (State.KeepsRegs.of_regs hregs []).posting (List.not_mem_nil) m
  have hfull : u.bit tbPg (R.CAP.STAT.FULL m) = s.bit tbPg (R.CAP.STAT.FULL m) := State.bit_of_regs hregs ..
  constructor
  · intro h
    have htake := State.capTake_of_empty hm tick (hfull.trans h)
    rw [hposting, hpost] at htake
    exact ⟨_, hc, htake⟩
  · intro h
    have htake := State.capTake_of_full hm tick (hfull.trans h)
    rw [State.fld_of_regs hregs, State.fld_of_regs hregs] at htake
    exact ⟨_, hc, htake⟩

theorem exec_capture_lsyncRise {s : State} {m : Fin 4} (hclk : s.clocked .io = true) (hmode : s.fld 0x003 (R.CAP.SEL.MODE m) = 2) :
    exec (.capture m .lsyncRise) s = .next (s.capTake m s.tb) := by
  change execCapture m .lsyncRise s = _
  simp only [execCapture, hclk, tbPg, hmode, Bool.not_true, Bool.false_eq_true, if_false, if_true]

theorem exec_capture_lsyncFall {s : State} {m : Fin 4} (hclk : s.clocked .io = true) (hmode : s.fld 0x003 (R.CAP.SEL.MODE m) = 3) :
    exec (.capture m .lsyncFall) s = .next (s.capTake m s.tb) := by
  change execCapture m .lsyncFall s = _
  simp only [execCapture, hclk, tbPg, hmode, Bool.not_true, Bool.false_eq_true, if_false, if_true]

/-- The first selected posting on its way is the one a unit that selects its event takes, with its own tick (R18, R96). -/
theorem exec_capture_event {s : State} {m : Fin 4} {e : Byte} {l : List Capture} {tick isl : Nat} (hclk : s.clocked .io = true)
    (hmode : s.fld 0x003 (R.CAP.SEL.MODE m) = 1) (hev : s.fld 0x003 (R.CAP.SEL.EVT m) = e.toNat)
    (hpend : s.capPend = ⟨m.val, e.toNat, tick, isl⟩ :: l) :
    exec (.capture m (.event e)) s = .next (State.capTake { s with capPend := l } m tick) := by
  change execCapture m (.event e) s = _
  simp only [execCapture, hclk, hpend, tbPg, hmode, Bool.not_true, Bool.false_eq_true, if_false, List.find?_cons, decide_true,
    Bool.and_self, ne_eq, not_true_eq_false, decide_false, List.takeWhile_cons, List.any_nil]
  rw [if_pos ⟨trivial, hev⟩, List.erase_cons_head]

/-- Settles O27: each compare and each capture unit, by the form of the command that reaches it. -/
theorem comparesAndCaptures : Obligations.ComparesAndCaptures := by
  unfold Obligations.ComparesAndCaptures
  refine ⟨⟨fun s n intv arm hlock hclk => ⟨tbcCtrlWrite_takes hlock hclk intv, ?_, ?_, ?_⟩,
    fun s n harm hrun hclk hv ha => tbcFire_shows harm hrun hclk hv ha⟩, fun s m hclk => ⟨?_, ?_, ?_⟩⟩
  · rintro rfl hdue
    exact tbcCtrlWrite_disarms_due hlock hclk intv hdue
  · rintro hon rfl hsame
    rw [exec_tbcCtrlWrite hlock hclk, tbcCtrl_of_armed hon, if_pos hsame]
  · rintro hon rfl hother
    rw [Refused, exec_tbcCtrlWrite hlock hclk, tbcCtrl_of_armed hon, if_neg hother]
  · exact fun hmode => captureTakes m.isLt (exec_capture_lsyncRise hclk hmode) rfl rfl
  · exact fun hmode => captureTakes m.isLt (exec_capture_lsyncFall hclk hmode) rfl rfl
  · exact fun e l tick isl hmode hev hpend => captureTakes m.isLt (exec_capture_event hclk hmode hev hpend) rfl rfl

end Sys2Proof.Machine
end

section
/-! Bridges: what a leg's update and a drive start leave of a bridge's command and page (R161 to R166). -/

namespace Sys2Proof.Machine

@[simp] theorem State.bridgeAt_setBridge_same (s : State) (k : Nat) (b : Bridge) : (s.setBridge k b).bridgeAt k = b :=
  tget_tset_same ..

/-- A record with the same applied command leaves the applied command of every bridge. -/
theorem State.applied_setBridge {s : State} {k : Nat} {b : Bridge} (h : b.applied = (s.bridgeAt k).applied) (j : Nat) :
    ((s.setBridge k b).bridgeAt j).applied = (s.bridgeAt j).applied := by
  by_cases hj : j = k
  · rw [hj, State.bridgeAt_setBridge_same, h]
  · simp only [State.bridgeAt, State.setBridge, tget_tset_ne _ _ _ hj]

/-- What follows the chain of bridge `k` leaves the applied commands, and of the bridge page all but START, AVG and POSUNC. -/
structure State.KeepsApplied (s t : State) (k : Nat) : Prop where
  applied : ∀ j, (t.bridgeAt j).applied = (s.bridgeAt j).applied
  fld : ∀ f : Fld, f.off < 0x800 → f.off ∉ [0x44, 0x100] → (R.BRIDGE.STAT.START k).Apart f → (R.BRIDGE.STAT.AVG k).Apart f →
    (R.BRIDGE.STAT.POSUNC k).Apart f → t.fld brPg f = s.fld brPg f

theorem State.KeepsApplied.refl (s : State) (k : Nat) : s.KeepsApplied s k := ⟨fun _ => rfl, fun _ _ _ _ _ _ => rfl⟩

theorem State.KeepsApplied.trans {s t u : State} {k : Nat} (h : s.KeepsApplied t k) (h' : t.KeepsApplied u k) : s.KeepsApplied u k :=
  ⟨fun j => (h'.applied j).trans (h.applied j),
    fun f hlt hn hs ha hp => (h'.fld f hlt hn hs ha hp).trans (h.fld f hlt hn hs ha hp)⟩

theorem State.KeepsApplied.of_keepsRegs {s t : State} {k : Nat} (ha : ∀ j, (t.bridgeAt j).applied = (s.bridgeAt j).applied)
    (hr : s.KeepsRegs t [0x44, 0x100]) : s.KeepsApplied t k :=
  ⟨ha, fun _ hlt hn _ _ _ => hr.fld brPg hlt hn⟩

theorem State.keepsApplied_ite {s t : State} {k : Nat} {c : Prop} [Decidable c] (h : s.KeepsApplied t k) :
    s.KeepsApplied (if c then t else s) k := by
  split
  · exact h
  · exact .refl s k

theorem State.brCoasted_keepsApplied (s : State) (k : Nat) : s.KeepsApplied (s.brCoasted k) k := by
  unfold State.brCoasted
  exact State.keepsApplied_ite ⟨fun _ => by simp only [State.bridgeAt, State.setBit_bridges],
    fun f _ _ _ _ hp => State.fld_setFld_apart s brPg _ hp⟩

theorem State.brDriveStart_keepsApplied (s : State) (k : Nat) : s.KeepsApplied (s.brDriveStart k) k := by
  unfold State.brDriveStart
  refine ⟨fun j => ?_, fun f _ _ hs ha _ => ?_⟩
  · simp only [State.bridgeAt, State.setFld_bridges, State.setBit_bridges]
    refine State.applied_setBridge ?_ j
    rfl
  · exact (State.fld_setFld_apart _ brPg _ ha).trans (State.fld_setFld_apart _ brPg _ hs)

/-! ## A leg's update -/

theorem State.brDiagUpdate_regs (s : State) (k : Nat) : (s.brDiagUpdate k).regs = s.regs := by
  unfold State.brDiagUpdate; dsimp only; split
  · rfl
  · split <;> rfl

theorem State.brDiagUpdate_applied (s : State) (k j : Nat) : ((s.brDiagUpdate k).bridgeAt j).applied = (s.bridgeAt j).applied := by
  unfold State.brDiagUpdate; dsimp only; split
  · rfl
  · split <;> (refine State.applied_setBridge ?_ j; rfl)

theorem State.brDiagUpdates_applied (j : Nat) : ∀ (ks : List Nat) (s : State),
    ((ks.foldl State.brDiagUpdate s).bridgeAt j).applied = (s.bridgeAt j).applied
  | [], _ => rfl
  | k :: ks, s => (State.brDiagUpdates_applied j ks _).trans (State.brDiagUpdate_applied s k j)

/-- The page of a leg as its update shows it. -/
def State.legShow (s : State) (l : Nat) (ks : List Nat) (drv : Option Nat) : State :=
  let s := s.setFld (legPg l) R.HB.STAT.MAP (ks.foldl (fun m k => m + 2 ^ k) 0)
  let s := s.setBit (legPg l) R.HB.STAT.DRIVEN drv.isSome
  let s := s.setBit (legPg l) R.HB.STAT.LATCH (s.legAt l).latch
  match (drv <|> (s.bridgesWith l).head?) with
  | some k => s.setFld (legPg l) R.PG_STAT.GOV (s.br k R.BRIDGE.STAT.GOV)
  | none => s.setFld (legPg l) R.PG_STAT.GOV 0

/-- An update of a leg: the diagnosis of its bridges, its switches, its page (R162, R164, R172). -/
theorem State.legUpdate_eq {l : Nat} (h : l < 28) (s : State) : s.legUpdate l =
    let u := (s.bridgesWith l).foldl State.brDiagUpdate s
    (u.legSwitch l (u.legWant l)).legShow l (u.bridgesOfLeg l) (u.legDriver l) := by
  rw [State.legUpdate, if_neg (by omega)]; rfl

theorem State.legUpdate_of_ge {l : Nat} (h : 28 ≤ l) (s : State) : s.legUpdate l = s := if_pos h

/-- Showing a leg writes its page only. -/
theorem State.legShow_eq (s : State) (l : Nat) (ks : List Nat) (drv : Option Nat) : ∃ rg, s.legShow l ks drv = { s with regs := rg } := by
  unfold State.legShow; dsimp only; split <;> exact ⟨_, rfl⟩

theorem State.keepsRegs_legShow (s : State) (l : Nat) (ks : List Nat) (drv : Option Nat) :
    s.KeepsRegs (s.legShow l ks drv) [0x44, 0x100] := by
  have hstat (latch : Bool) := ((State.KeepsRegs.setFld (offs := [0x44, 0x100]) s (legPg l) R.HB.STAT.MAP
    (ks.foldl (fun m k => m + 2 ^ k) 0) (by simp) (by simp)).trans
      (.setBit _ (legPg l) R.HB.STAT.DRIVEN drv.isSome (by simp) (by simp))).trans
      (.setBit _ (legPg l) R.HB.STAT.LATCH latch (by simp) (by simp))
  unfold State.legShow; dsimp only
  split
  · exact (hstat _).trans (.setFld _ (legPg l) R.PG_STAT.GOV _ (by simp) (by simp))
  · exact (hstat _).trans (.setFld _ (legPg l) R.PG_STAT.GOV _ (by simp) (by simp))

/-- An update of a leg writes its record, records of bridges, and its page. -/
theorem State.legUpdate_keepsRegs (s : State) (l : Nat) : s.KeepsRegs (s.legUpdate l) [0x44, 0x100] := by
  rcases Nat.lt_or_ge l 28 with hl | hl
  · rw [State.legUpdate_eq hl]
    have hdiag : s.KeepsRegs ((s.bridgesWith l).foldl State.brDiagUpdate s) [0x44, 0x100] :=
      .foldl (fun t k => .of_regs (t.brDiagUpdate_regs k) _) _ s
    exact (hdiag.trans (.of_regs (by rfl) _)).trans (State.keepsRegs_legShow ..)
  · rw [State.legUpdate_of_ge hl]
    exact .refl s _

theorem State.legUpdate_applied (s : State) (l j : Nat) : ((s.legUpdate l).bridgeAt j).applied = (s.bridgeAt j).applied := by
  rcases Nat.lt_or_ge l 28 with hl | hl
  · rw [State.legUpdate_eq hl]
    obtain ⟨rg, hrg⟩ := State.legShow_eq (((s.bridgesWith l).foldl State.brDiagUpdate s).legSwitch l _) l _ _
    dsimp only
    rw [hrg]
    exact State.brDiagUpdates_applied j (s.bridgesWith l) s
  · rw [State.legUpdate_of_ge hl]

theorem State.legUpdate_keepsApplied (s : State) (l k : Nat) : s.KeepsApplied (s.legUpdate l) k :=
  .of_keepsRegs (s.legUpdate_applied l) (s.legUpdate_keepsRegs l)

end Sys2Proof.Machine
end

section
/-! What the chain gives a bridge (R161, R162, R166). -/

namespace Sys2Proof.Machine

/-- Holding a clause off writes its record and a counter (R241). -/
theorem State.heldOff_eq (s : State) (c : Nat) : ∃ cs rg, s.heldOff c = { s with clauses := cs, regs := rg } := by
  unfold State.heldOff; dsimp only; split
  · exact ⟨_, _, rfl⟩
  · obtain ⟨rg, h⟩ := State.count_eq (s.setClause c { s.clauseAt c with heldOnce := true }) (0x041 + c / 32) (2 * (c % 32) + 1)
    exact ⟨_, rg, h⟩

theorem State.heldOff_keepsRegs (s : State) (c : Nat) : s.KeepsRegs (s.heldOff c) [] := by
  unfold State.heldOff; dsimp only; split
  · exact .refl s _
  · exact .trans (.of_regs (by rfl) _) (.count _ _ (by omega))

/-- A governing clause that a higher level or a bridge out of operation holds off counts (R241). -/
def State.brHold (s : State) (k : Nat) (c : Prop) [Decidable c] : State :=
  if c then s.heldOff ((s.govClauseOf [0x040 + k]).getD 0) else s

theorem State.brHold_eq (s : State) (k : Nat) (c : Prop) [Decidable c] : ∃ cs rg, s.brHold k c = { s with clauses := cs, regs := rg } := by
  unfold State.brHold; split
  · exact s.heldOff_eq _
  · exact ⟨_, _, rfl⟩

theorem State.brHold_keepsRegs (s : State) (k : Nat) (c : Prop) [Decidable c] : s.KeepsRegs (s.brHold k c) [] := by
  unfold State.brHold; split
  · exact s.heldOff_keepsRegs _
  · exact .refl s _

/-- The level that governs a bridge; without the PWR clock the one that it shows. -/
def State.brLevel (s : State) (k : Nat) : Nat :=
  if s.clocked .pwr then s.govLevel (48 + k) (s.brLatched k) (s.bridgeAt k).heldGov (s.govClauseOf [0x040 + k]).isSome
  else s.br k R.BRIDGE.STAT.GOV

/-- A bridge waits for a shared leg (R166); `run` says that the PWR clock runs. -/
def State.brShares (s : State) (k : Nat) (run : Bool) (cmd : BrCmd) (free : Bool) : Bool :=
  cmd != .coast && run && !s.safe && (s.brBlocked k || (s.br k R.BRIDGE.STAT.SHARE ≠ 0 && !free))

/-- A field of a bridge's CFG is kept where the registers are. -/
theorem State.KeepsRegs.br {s t : State} (hr : s.KeepsRegs t []) {k : Nat} (hk : k < 14) {f : Nat → Fld} (hf : (f k).off ≤ 0x43c + 0x40 * k) :
    t.br k f = s.br k f := hr.fld brPg (by omega) List.not_mem_nil

theorem State.brShare_congr {s t : State} (hr : s.KeepsRegs t []) {j k : Nat} (hj : j < 14) (hk : k < 14) :
    t.brShare j k = s.brShare j k := by
  have hen : t.br j R.BRIDGE.CFG.EN = s.br j R.BRIDGE.CFG.EN := hr.br hj (by simp)
  have hlegA {i : Nat} (hi : i < 14) : t.legA i = s.legA i := congrArg (brLeg i) (hr.br hi (by simp))
  have hlegB {i : Nat} (hi : i < 14) : t.legB i = s.legB i := congrArg (brLeg i) (hr.br hi (by simp))
  unfold State.brShare
  rw [hen, hlegA hj, hlegB hj, hlegA hk, hlegB hk]

theorem State.brBlocked_congr {s t : State} (hr : s.KeepsRegs t []) (hb : t.bridges = s.bridges) (ht : t.tb = s.tb) {k : Nat}
    (hk : k < 14) : t.brBlocked k = s.brBlocked k := by
  unfold State.brBlocked
  rw [Bool.eq_iff_iff, List.any_eq_true, List.any_eq_true]
  refine exists_congr fun j => and_congr_right fun hj => ?_
  rw [State.brShare_congr hr (List.mem_range.1 hj) hk, State.brCoasts, State.brCoasts, State.bridgeAt, State.bridgeAt, hb, ht]

theorem State.brShares_congr {s t : State} (hr : s.KeepsRegs t []) (hb : t.bridges = s.bridges) (ht : t.tb = s.tb) {k : Nat}
    (hk : k < 14) (run : Bool) (cmd : BrCmd) (free : Bool) : t.brShares k run cmd free = s.brShares k run cmd free := by
  have hshare : t.br k R.BRIDGE.STAT.SHARE = s.br k R.BRIDGE.STAT.SHARE := hr.br hk (by simp)
  have hsafe : t.safe = s.safe := hr.bit 0x010 (by decide) List.not_mem_nil
  unfold State.brShares
  rw [State.brBlocked_congr hr hb ht hk, hshare, hsafe]

/-- A bridge as the chain leaves it, before a drive start and before its legs take their switches. -/
def State.brGive (s : State) (k lvl : Nat) (cmd applied : BrCmd) (share gates : Bool) (cl : Option Nat) : State :=
  let s := s.setBridge k { s.brRecord k lvl (if lvl = govClause then cl else none) cmd applied with live := gates }
  let s := s.setFld brPg (R.BRIDGE.STAT.GOV k) lvl
  let s := s.setFld brPg (R.BRIDGE.STAT.APPLIED k) (brCode applied)
  let s := s.setBit brPg (R.BRIDGE.STAT.SHARE k) share
  s.setBit brPg (R.BRIDGE.STAT.LATCH k) (s.brLatched k)

/-- A bridge that comes to coast or starts to drive, and its legs (R164, R165, R173). -/
def State.brFinish (s : State) (k : Nat) (coasted start : Bool) : State :=
  let s := if coasted then s.brCoasted k else s
  let s := if start then s.brDriveStart k else s
  (s.legUpdate (s.legA k)).legUpdate (s.legB k)

theorem State.brFinish_keepsApplied (s : State) (k : Nat) (coasted start : Bool) : s.KeepsApplied (s.brFinish k coasted start) k :=
  (((State.keepsApplied_ite (State.brCoasted_keepsApplied ..)).trans
    (State.keepsApplied_ite (State.brDriveStart_keepsApplied ..))).trans (State.legUpdate_keepsApplied ..)).trans
    (State.legUpdate_keepsApplied ..)

/-- A bridge settles: a clause that is held off, the chain, a drive start, the legs. -/
theorem State.brSettle_eq (s : State) (k : Nat) (free : Bool) : s.brSettle k free =
    let lvl := s.brLevel k
    let cl := s.govClauseOf [0x040 + k]
    let cmd := s.brChain k lvl
    let u := s.brHold k (s.clocked .pwr ∧ cl.isSome ∧ (lvl ≥ govLatch ∨ !s.brOperates k))
    let share := u.brShares k (s.clocked .pwr) cmd free
    let applied := if share then .coast else cmd
    let gates := applied != .coast && !u.legHeld (u.legA k) && !u.legHeld (u.legB k)
    (u.brGive k lvl cmd applied share gates cl).brFinish k ((s.bridgeAt k).live && !gates)
      (brOnTime applied && !(brOnTime (s.bridgeAt k).applied && brSameDir (s.bridgeAt k).applied applied)) := by
  rfl

/-- What follows the chain leaves what it gave (R165, R171, R173). -/
theorem State.brSettle_keepsApplied (s : State) {k : Nat} (free : Bool) : ∃ u : State, (∃ cs rg, u = { s with clauses := cs, regs := rg }) ∧
    s.KeepsRegs u [] ∧
    let lvl := s.brLevel k
    let cmd := s.brChain k lvl
    let share := u.brShares k (s.clocked .pwr) cmd free
    ∃ gates, (u.brGive k lvl cmd (if share then .coast else cmd) share gates (s.govClauseOf [0x040 + k])).KeepsApplied
      (s.brSettle k free) k := by
  rw [State.brSettle_eq]
  exact ⟨_, s.brHold_eq k _, s.brHold_keepsRegs k _, _, State.brFinish_keepsApplied ..⟩

theorem State.brRecord_applied (s : State) (k lvl : Nat) (cl : Option Nat) (cmd applied : BrCmd) :
    (s.brRecord k lvl cl cmd applied).applied = applied := by
  unfold State.brRecord; dsimp only; split
  · split <;> rfl
  · rfl

theorem State.brGive_applied (s : State) (k lvl : Nat) (cmd applied : BrCmd) (share gates : Bool) (cl : Option Nat) :
    ((s.brGive k lvl cmd applied share gates cl).bridgeAt k).applied = applied := by
  unfold State.brGive State.bridgeAt
  simp only [State.setBit_bridges, State.setFld_bridges]
  exact (congrArg Bridge.applied (State.bridgeAt_setBridge_same ..)).trans (State.brRecord_applied ..)

theorem State.brGive_gov (s : State) {k lvl : Nat} (hlvl : lvl < 4) (cmd applied : BrCmd) (share gates : Bool) (cl : Option Nat) :
    (s.brGive k lvl cmd applied share gates cl).br k R.BRIDGE.STAT.GOV = lvl := by
  unfold State.brGive State.br State.setBit; dsimp only
  rw [State.fld_setFld_apart _ _ _ (by simp), State.fld_setFld_apart _ _ _ (by simp), State.fld_setFld_apart _ _ _ (by simp)]
  exact State.fld_setFld_fits _ _ _ _ (by simp) (by simp) (by simpa using hlvl)

theorem State.brGive_share (s : State) (k lvl : Nat) (cmd applied : BrCmd) (share gates : Bool) (cl : Option Nat) :
    (s.brGive k lvl cmd applied share gates cl).br k R.BRIDGE.STAT.SHARE = if share then 1 else 0 := by
  unfold State.brGive State.br State.setBit; dsimp only
  rw [State.fld_setFld_apart _ _ _ (by simp)]
  exact State.fld_setFld_fits _ _ _ _ (by simp) (by simp) (by cases share <;> simp)

/-- A bridge that settles shows the level and the shared leg, and applies what the chain gives, or coasts for a shared leg (R162, R166). -/
theorem State.brSettle_shows (s : State) {k : Nat} (hk : k < 14) (free : Bool) (hlvl : s.brLevel k < 4) :
    let cmd := s.brChain k (s.brLevel k)
    let share := s.brShares k (s.clocked .pwr) cmd free
    ((s.brSettle k free).bridgeAt k).applied = (if share then .coast else cmd) ∧
      (s.brSettle k free).br k R.BRIDGE.STAT.GOV = s.brLevel k ∧
      (s.brSettle k free).br k R.BRIDGE.STAT.SHARE = if share then 1 else 0 := by
  obtain ⟨u, ⟨cs, rg, hu⟩, hregs, gates, hkeep⟩ := s.brSettle_keepsApplied (k := k) free
  simp only [State.brShares_congr hregs (by rw [hu]) (by rw [hu]) hk] at hkeep
  have hfld (f : Nat → Fld) (hf : (f k).off = 0x43c + 0x40 * k) (hs : (R.BRIDGE.STAT.START k).Apart (f k))
      (ha : (R.BRIDGE.STAT.AVG k).Apart (f k)) (hp : (R.BRIDGE.STAT.POSUNC k).Apart (f k)) := 
    hkeep.fld (f k) (by omega) (by simp; omega) hs ha hp
  refine ⟨(hkeep.applied k).trans (State.brGive_applied ..), ?_, ?_⟩
  · exact (hfld R.BRIDGE.STAT.GOV rfl (by simp) (by simp) (by simp)).trans (State.brGive_gov u hlvl ..)
  · exact (hfld R.BRIDGE.STAT.SHARE rfl (by simp) (by simp) (by simp)).trans (State.brGive_share ..)

end Sys2Proof.Machine
end

section
/-! The obligation about bridges: the chain on a bridge that operates, and the writes of its live command (R162, R163, R176). -/

namespace Sys2Proof.Machine

/-- What CFG.SAFE gives a bridge in safe state (R161). -/
def State.brBySafe (s : State) (k : Nat) : BrCmd := if s.br k R.BRIDGE.CFG.SAFE = 1 then .brake else .coast

section
variable {s : State} {k : Nat}

theorem State.brLevel_of_stopped (h : s.clocked .pwr = false) : s.brLevel k = s.br k R.BRIDGE.STAT.GOV := by
  simp [State.brLevel, h]

/-- The command of a bridge by its level (R161, R162). -/
theorem State.brChain_of_runs (hop : s.brOperates k = true) (hpark : s.power ≠ .park) (h : s.clocked .pwr = true)
    (hheld : s.heldBit (48 + k) = false) (lvl : Nat) : s.brChain k lvl =
    if lvl = govSafe then s.brBySafe k else if lvl = govLatch then .coast else (s.brLower k).1 := by
  simp [State.brChain, hop, hpark, h, hheld, State.brBySafe]

theorem State.brChain_of_stopped (hop : s.brOperates k = true) (hpark : s.power ≠ .park) (h : s.clocked .pwr = false) (lvl : Nat) :
    s.brChain k lvl = s.brBySafe k := by
  simp [State.brChain, hop, hpark, h, State.brBySafe]

theorem State.brLevel_of_safe (h : s.clocked .pwr = true) (hsafe : s.safe = true) : s.brLevel k = govSafe := by
  simp [State.brLevel, h, State.govLevel, State.level1, hsafe]

theorem State.brLevel_of_latched (h : s.clocked .pwr = true) (hheld : s.heldBit (48 + k) = false) (hsafe : s.safe = false)
    (hlat : s.brLatched k = true) : s.brLevel k = govLatch := by
  simp [State.brLevel, h, State.govLevel, State.level1, hheld, hsafe, hlat]

theorem State.brLevel_of_lower (h : s.clocked .pwr = true) (hheld : s.heldBit (48 + k) = false) (hsafe : s.safe = false)
    (hlat : s.brLatched k = false) : s.brLevel k = if (s.govClauseOf [0x040 + k]).isSome then govClause else govLive := by
  simp [State.brLevel, h, State.govLevel, State.level1, hheld, hsafe, hlat]

end

section
variable {s : State} {k : Fin 14} (hop : s.brOperates k = true) (hpark : s.power ≠ .park)
include hop hpark

/-- Without the PWR clock the dies apply SAFE, and GOV stays (R161). -/
theorem brSettle_of_stopped (hclk : s.clocked .pwr = false) :
    ((s.brSettle k).bridgeAt k).applied = s.brBySafe k ∧ (s.brSettle k).br k R.BRIDGE.STAT.GOV = s.br k R.BRIDGE.STAT.GOV := by
  have hlevel := State.brLevel_of_stopped (k := k) hclk
  obtain ⟨happ, hgov, -⟩ := s.brSettle_shows k.isLt false (hlevel ▸ Fld.get_lt (R.BRIDGE.STAT.GOV k) _ (by simp) (by simp))
  rw [State.brChain_of_stopped hop hpark hclk, hclk] at happ
  exact ⟨by simpa [State.brShares] using happ, hgov.trans hlevel⟩

variable (hclk : s.clocked .pwr = true) (hheld : s.heldBit (48 + k.val) = false)
include hclk hheld

/-- In safe state no bridge waits for a shared leg (R162, R166). -/
theorem brSettle_of_safe (hsafe : s.safe = true) :
    (s.brSettle k).br k R.BRIDGE.STAT.GOV = 3 ∧ ((s.brSettle k).bridgeAt k).applied = s.brBySafe k := by
  have hlevel := State.brLevel_of_safe (k := k) hclk hsafe
  obtain ⟨happ, hgov, -⟩ := s.brSettle_shows k.isLt false (hlevel ▸ (by decide))
  rw [State.brChain_of_runs hop hpark hclk hheld, hlevel] at happ
  exact ⟨hgov.trans hlevel, by simpa [State.brShares, hsafe] using happ⟩

theorem brSettle_of_latched (hsafe : s.safe = false) (hlat : s.brLatched k = true) :
    (s.brSettle k).br k R.BRIDGE.STAT.GOV = 2 ∧ ((s.brSettle k).bridgeAt k).applied = .coast := by
  have hlevel := State.brLevel_of_latched hclk hheld hsafe hlat
  obtain ⟨happ, hgov, -⟩ := s.brSettle_shows k.isLt false (hlevel ▸ (by decide))
  rw [State.brChain_of_runs hop hpark hclk hheld, hlevel] at happ
  exact ⟨hgov.trans hlevel, by simpa [State.brShares, govLatch, govSafe] using happ⟩

/-- Levels 3 and 4 apply but where the bridge waits for a shared leg (R162, R166). -/
theorem brSettle_of_lower (hsafe : s.safe = false) (hlat : s.brLatched k = false) :
    let waits := s.brShares k true (s.brLower k).1 false
    (s.brSettle k).br k R.BRIDGE.STAT.GOV = (if (s.govClauseOf [0x040 + k.val]).isSome then 1 else 0) ∧
      ((s.brSettle k).bridgeAt k).applied = (if waits then .coast else (s.brLower k).1) ∧
      (s.brSettle k).br k R.BRIDGE.STAT.SHARE = if waits then 1 else 0 := by
  have hlevel := State.brLevel_of_lower hclk hheld hsafe hlat
  have hlow : s.brLevel k < govLatch := by
    rw [hlevel]; split <;> decide
  obtain ⟨happ, hgov, hshare⟩ := s.brSettle_shows k.isLt false (hlow.trans (by decide))
  rw [State.brChain_of_runs hop hpark hclk hheld, if_neg (Nat.ne_of_lt (hlow.trans (by decide))), if_neg (Nat.ne_of_lt hlow),
    hclk] at happ hshare
  exact ⟨hgov.trans hlevel, happ, hshare⟩

end

/-! ## Writes of the live command -/

theorem State.fld_setBridge (s : State) (k : Nat) (b : Bridge) (pg : Nat) (f : Fld) : (s.setBridge k b).fld pg f = s.fld pg f := rfl

theorem State.KeepsRegs.setBridge {offs : List Nat} (s : State) (k : Nat) (b : Bridge) : s.KeepsRegs (s.setBridge k b) offs :=
  .of_regs (by rfl) _

/-- The registers of a write of BRIDGE.OUTk that takes effect (R163). -/
def State.brStoredRegs (s : State) (k code : Nat) (tgten : Bool) : State :=
  ((((s.setFld brPg (R.BRIDGE.OUT.CMD k) code).setBit brPg (R.BRIDGE.OUT.TGTEN k) tgten).setBit brPg (R.BRIDGE.STAT.TGTHIT k) false).setBit
    brPg (R.BRIDGE.STAT.PARKED k) false).ok brPg

/-- What a write of BRIDGE.OUTk stores, with no park run (R163, R176). -/
def State.brStored (s : State) (k code : Nat) (tgten : Bool) : State :=
  let s := s.brStoredRegs k code tgten
  s.setBridge k { s.bridgeAt k with parkRun := false, parkEnd := none }

/-- A park run begins (R176). -/
def State.brParkRun (s : State) (k : Nat) : State :=
  s.setBridge k { s.bridgeAt k with parkRun := true, parkEnd := some (s.tb + s.br k R.BRIDGE.TMO.PARKT * 100000) }

/-- The fields that a write of BRIDGE.OUTk shows. -/
def State.BrStored (u : State) (k code : Nat) (tgten : Bool) : Prop :=
  u.br k R.BRIDGE.OUT.CMD = code ∧ u.br k R.BRIDGE.OUT.TGTEN = (if tgten then 1 else 0) ∧ u.br k R.BRIDGE.STAT.TGTHIT = 0 ∧
    u.br k R.BRIDGE.STAT.PARKED = 0 ∧ u.code brPg = 0

theorem State.BrStored.setBridge {u : State} {k code : Nat} {tgten : Bool} (h : u.BrStored k code tgten) (b : Bridge) :
    (u.setBridge k b).BrStored k code tgten := by
  simpa only [State.BrStored, State.br, State.code, State.fld_setBridge] using h

section
variable (s : State) {k : Nat} (hk : k < 14) (code : Nat) (tgten : Bool)
include hk

theorem State.brStoredRegs_shows (hcode : code < 5) : (s.brStoredRegs k code tgten).BrStored k code tgten := by
  have hok (u : State) (f : Nat → Fld) (hf : 0x400 ≤ (f k).off ∧ (f k).off ≤ 0x43c + 0x40 * k) : (u.ok brPg).br k f = u.fld brPg (f k) :=
    (State.keepsRegs_ok u brPg (List.mem_singleton_self _)).fld brPg (by omega) (by simp; omega)
  unfold State.brStoredRegs State.setBit
  refine ⟨?_, ?_, ?_, ?_, State.code_ok ..⟩ <;> rw [hok _ _ (by simp; try omega)]
  · rw [State.fld_setFld_apart _ _ _ (by simp), State.fld_setFld_apart _ _ _ (by simp), State.fld_setFld_apart _ _ _ (by simp)]
    exact State.fld_setFld_fits _ _ _ _ (by simp) (by simp) (by simp; omega)
  · rw [State.fld_setFld_apart _ _ _ (by simp), State.fld_setFld_apart _ _ _ (by simp)]
    exact State.fld_setFld_fits _ _ _ _ (by simp) (by simp) (by cases tgten <;> simp)
  · rw [State.fld_setFld_apart _ _ _ (by simp)]
    exact State.fld_setFld_fits _ _ _ _ (by simp) (by simp) (by simp)
  · exact State.fld_setFld_fits _ _ _ _ (by simp) (by simp) (by simp)

theorem State.brStored_shows (hcode : code < 5) : (s.brStored k code tgten).BrStored k code tgten :=
  (s.brStoredRegs_shows hk code tgten hcode).setBridge _

theorem State.brParkRun_shows : ((s.brStored k 4 tgten).brParkRun k).BrStored k 4 tgten :=
  (s.brStored_shows hk 4 tgten (by decide)).setBridge _

theorem State.brStored_keepsRegs : s.KeepsRegs (s.brStored k code tgten) [0x404 + 0x40 * k, 0x43c + 0x40 * k, 0x44] := by
  have hflds := ((((State.KeepsRegs.setFld (offs := [0x404 + 0x40 * k, 0x43c + 0x40 * k, 0x44]) s brPg (R.BRIDGE.OUT.CMD k) code
    (by simp) (by simp; omega)).trans (.setBit _ brPg (R.BRIDGE.OUT.TGTEN k) tgten (by simp) (by simp; omega))).trans
    (.setBit _ brPg (R.BRIDGE.STAT.TGTHIT k) false (by simp) (by simp; omega))).trans
    (.setBit _ brPg (R.BRIDGE.STAT.PARKED k) false (by simp) (by simp; omega))).trans (State.keepsRegs_ok _ brPg (by simp))
  exact hflds.trans (.setBridge ..)

/-- The park input is no part of what a write of BRIDGE.OUTk stores (R176). -/
theorem State.brStored_brParkedIn : (s.brStored k code tgten).brParkedIn k = s.brParkedIn k := by
  have hkeep := s.brStored_keepsRegs hk code tgten
  have hpsi : (s.brStored k code tgten).br k R.BRIDGE.AUX.PSI = s.br k R.BRIDGE.AUX.PSI :=
    hkeep.fld brPg (by simp; omega) (by simp; omega)
  have hplev : (s.brStored k code tgten).br k R.BRIDGE.CFG.PLEV = s.br k R.BRIDGE.CFG.PLEV :=
    hkeep.fld brPg (by simp; omega) (by simp; omega)
  have hst (n : Nat) : (s.brStored k code tgten).siState n = s.siState n := by
    rw [State.siState, State.siState, hkeep.fld (0x180 + n / 8) (f := R.SI.STATE.ST) (by decide) (by simp; omega)]
  rw [State.brParkedIn, State.brParkedIn, hpsi, hplev, hst]

end

/-! ### The write itself -/

section
variable {s : State} {k : Fin 14}

/-- A write of COAST, BRAKE, FWD or REV (R163). -/
theorem State.brWriteOut_drives (hlock : s.locked brPg = false) {code : Nat} (hcode : code < 4) (tgten : Bool) :
    s.brWriteOut k code tgten = (s.brStored k code tgten).brSettle k := by
  unfold State.brWriteOut
  rw [if_neg (by simp [hlock]), if_neg (fun h => absurd h.1 (by omega)), if_neg (by omega), if_neg (by omega)]
  rfl

/-- A write of PARK brakes at the parked level, and else begins a park run (R176). -/
theorem State.brWriteOut_park (hlock : s.locked brPg = false) (hpken : s.br k R.BRIDGE.CFG.PKEN ≠ 0) (tgten : Bool) :
    s.brWriteOut k 4 tgten = if s.brParkedIn k then (s.brStored k 4 tgten).brParkDone k
      else ((s.brStored k 4 tgten).brParkRun k).brSettle k := by
  rw [← s.brStored_brParkedIn k.isLt 4 tgten]
  unfold State.brWriteOut
  rw [if_neg (by simp [hlock]), if_neg (fun h => hpken h.2), if_neg (by decide), if_pos rfl]
  rfl

theorem State.brWriteOut_without_pken (hpken : s.br k R.BRIDGE.CFG.PKEN = 0) (tgten : Bool) : s.brWriteOut k 4 tgten = s.refuse brPg := by
  rw [State.brWriteOut]
  split
  · rfl
  · exact if_pos ⟨rfl, hpken⟩

variable {tgten : Bool}

/-- What every write but PARK does (R163). -/
theorem bridgeWrites {c : Instr} {code : Nat} (hcode : code < 4) (hc : exec c s = .next (s.brWriteOut k code tgten)) :
    (s.locked brPg = false → GivesThen c s (fun u => u.brSettle k) fun u =>
      u.BrStored k code tgten ∧ (u.bridgeAt k).parkRun = false ∧ (u.bridgeAt k).parkEnd = none) ∧
    (s.locked brPg = true → Refused c s brPg) := by
  refine ⟨fun hlock => ⟨_, hc.trans (congrArg _ (State.brWriteOut_drives hlock hcode tgten)),
    s.brStored_shows k.isLt code tgten (by omega), ?_⟩, fun hlock => hc.trans (congrArg _ (if_pos hlock))⟩
  rw [State.brStored, State.bridgeAt_setBridge_same]
  exact ⟨rfl, rfl⟩

variable (hclk : s.clocked .pwr = true)
include hclk

theorem exec_bridgePark : exec (.bridgePark k tgten) s = .next (s.brWriteOut k 4 tgten) := if_pos hclk

/-- PARK is refused on a locked page and without PKEN (R61, R176). -/
theorem bridgePark_refused (h : s.locked brPg = true ∨ s.br k R.BRIDGE.CFG.PKEN = 0) : Refused (.bridgePark k tgten) s brPg :=
  (exec_bridgePark hclk).trans (congrArg _ (h.elim (fun hlock => if_pos hlock) (fun hpken => State.brWriteOut_without_pken hpken tgten)))

variable (hlock : s.locked brPg = false) (hpken : s.br k R.BRIDGE.CFG.PKEN ≠ 0)
include hlock hpken

theorem bridgePark_runs (hin : s.brParkedIn k = false) : GivesThen (.bridgePark k tgten) s (fun u => u.brSettle k) fun u =>
    u.BrStored k 4 tgten ∧ (u.bridgeAt k).parkRun = true ∧
      (u.bridgeAt k).parkEnd = some (s.tb + s.br k R.BRIDGE.TMO.PARKT * 100000) := by
  have hparkt : (s.brStored k 4 tgten).br k R.BRIDGE.TMO.PARKT = s.br k R.BRIDGE.TMO.PARKT :=
    (s.brStored_keepsRegs k.isLt 4 tgten).fld brPg (by simp; omega) (by simp; omega)
  have htb : (s.brStored k 4 tgten).tb = s.tb := rfl
  refine ⟨(s.brStored k 4 tgten).brParkRun k, ?_, s.brParkRun_shows k.isLt tgten, ?_⟩
  · rw [exec_bridgePark hclk, State.brWriteOut_park hlock hpken, hin, if_neg (by decide)]
  · rw [State.brParkRun, State.bridgeAt_setBridge_same, hparkt, htb]
    exact ⟨rfl, rfl⟩

theorem bridgePark_brakes (hin : s.brParkedIn k = true) : GivesThen (.bridgePark k tgten) s (fun u => u.brParkDone k) fun u =>
    u.BrStored k 4 tgten := by
  refine ⟨s.brStored k 4 tgten, ?_, s.brStored_shows k.isLt 4 tgten (by decide)⟩
  rw [exec_bridgePark hclk, State.brWriteOut_park hlock hpken, hin, if_pos rfl]

end

/-- Settles O34: the writes by the command stored, the chain by the level that governs. -/
theorem bridgeCommands : Obligations.BridgeCommands := by
  unfold Obligations.BridgeCommands
  refine ⟨fun s k tgten hclk => ⟨?_, ?_, ?_, ?_, ?_, fun hlock hpken => ⟨?_, ?_⟩⟩, fun s k hop hpark => ⟨?_, fun hclk hheld => ⟨?_, ?_, ?_, ?_, ?_⟩⟩⟩
  · exact bridgeWrites (by decide) (if_pos hclk)
  · exact bridgeWrites (by decide) (if_pos hclk)
  · exact bridgeWrites (by decide) (if_pos hclk)
  · exact bridgeWrites (by decide) (if_pos hclk)
  · exact bridgePark_refused hclk
  · exact bridgePark_runs hclk hlock hpken
  · exact bridgePark_brakes hclk hlock hpken
  · exact brSettle_of_stopped hop hpark
  · exact brSettle_of_safe hop hpark hclk hheld
  · exact brSettle_of_latched hop hpark hclk hheld
  · exact fun hsafe hlat => (brSettle_of_lower hop hpark hclk hheld hsafe hlat).1
  · intro hsafe hlat hblk hnot
    obtain ⟨-, happ, hshare⟩ := brSettle_of_lower hop hpark hclk hheld hsafe hlat
    have hwaits : s.brShares k true (s.brLower k).1 false = false := by simp [State.brShares, hblk, hnot]
    rw [hwaits] at happ hshare
    exact ⟨happ, hshare⟩
  · intro hsafe hlat hlive hblk
    obtain ⟨-, happ, hshare⟩ := brSettle_of_lower hop hpark hclk hheld hsafe hlat
    have hwaits : s.brShares k true (s.brLower k).1 false = true := by simp [State.brShares, hsafe, hblk, hlive]
    rw [hwaits] at happ hshare
    exact ⟨happ, hshare⟩

end Sys2Proof.Machine
end

section
/-! High-side channels: what each operation of the chain leaves of the records and the pages (R111 to R128). -/

namespace Sys2Proof.Machine

/-! ## Records -/

@[simp] theorem State.hsAt_setHs_same (s : State) (n : Nat) (h : Hs) : (s.setHs n h).hsAt n = h := tget_tset_same ..

theorem State.hsAt_setHs_ne (s : State) {n m : Nat} (h : Hs) (hm : m ≠ n) : (s.setHs n h).hsAt m = s.hsAt m := tget_tset_ne _ _ _ hm

theorem State.hsAt_of_hs {s t : State} (h : t.hs = s.hs) (n : Nat) : t.hsAt n = s.hsAt n := by
  rw [State.hsAt, State.hsAt, h]

theorem State.KeepsRegs.setHs {offs : List Nat} (s : State) (n : Nat) (h : Hs) : s.KeepsRegs (s.setHs n h) offs := .of_regs (by rfl) _

/-- Every channel's record keeps what `f` reads of it. -/
structure State.KeepsHs {α : Type} (f : Hs → α) (s t : State) : Prop where
  at_ : ∀ n, f (t.hsAt n) = f (s.hsAt n)

namespace State.KeepsHs

variable {α : Type} {f : Hs → α} {s t u : State}

theorem of_hs (h : t.hs = s.hs) : KeepsHs f s t := ⟨fun n => congrArg f (State.hsAt_of_hs h n)⟩
theorem refl (s : State) : KeepsHs f s s := ⟨fun _ => rfl⟩
theorem trans (h : KeepsHs f s t) (h' : KeepsHs f t u) : KeepsHs f s u := ⟨fun n => (h'.at_ n).trans (h.at_ n)⟩
theorem comp {β : Type} (h : KeepsHs f s t) (g : α → β) : KeepsHs (fun x => g (f x)) s t := ⟨fun n => congrArg g (h.at_ n)⟩

theorem setHs (s : State) (n : Nat) (h : Hs) (hf : f h = f (s.hsAt n)) : KeepsHs f s (s.setHs n h) := by
  refine ⟨fun m => ?_⟩
  by_cases hm : m = n
  · rw [hm, State.hsAt_setHs_same, hf]
  · rw [State.hsAt_setHs_ne _ _ hm]

theorem foldl {β : Type} {g : State → β → State} (hg : ∀ (t : State) b, KeepsHs f t (g t b)) : ∀ (l : List β) (s : State),
    KeepsHs f s (l.foldl g s)
  | [], s => refl s
  | b :: l, s => (hg s b).trans (foldl hg l (g s b))

end State.KeepsHs

/-- A channel's record without what the gate and the diagnosis write (R111, R145). -/
def Hs.ungated (h : Hs) : Hs :=
  { h with diag := false, diagAt := 0, cyc := none, offRes := none, offConf := false, phHigh := none,
           edge := none, edgeSlew := 0, faultOff := false, phase := 0 }

/-! ## Units -/

theorem State.gid_of_keepsRegs {s t : State} {offs : List Nat} (h : s.KeepsRegs t offs) (hn : 0x400 ∉ offs) (n : Nat) : t.gid n = s.gid n :=
  h.fld _ (by simp) (by simpa using hn)

/-- A unit is kept where its bank's GANG register is (R124). -/
theorem State.hsUnit_of_keepsRegs {s t : State} {offs : List Nat} (h : s.KeepsRegs t offs) (hn : 0x400 ∉ offs) (n : Nat) :
    t.hsUnit n = s.hsUnit n := by
  simp only [State.hsUnit, State.gid_of_keepsRegs h hn]

theorem State.hsLead_of_keepsRegs {s t : State} {offs : List Nat} (h : s.KeepsRegs t offs) (hn : 0x400 ∉ offs) (n : Nat) :
    t.hsLead n = s.hsLead n := by
  rw [State.hsLead, State.hsLead, State.hsUnit_of_keepsRegs h hn]

/-- A channel is a member of its unit (R124). -/
theorem State.mem_hsUnit (s : State) (n : Nat) : n ∈ s.hsUnit n := by
  unfold State.hsUnit
  split
  · exact List.mem_singleton_self n
  · refine List.mem_filter.2 ⟨List.mem_map.2 ⟨n % 8, List.mem_range.2 (Nat.mod_lt _ (by decide)), by omega⟩, by simp⟩

/-! ## The gate -/

/-- The diagnosis writes its channel's record only. -/
theorem State.hsDiagUpdate_eq (s : State) (n : Nat) : ∃ h : Hs, s.hsDiagUpdate n = s ∨
    (s.hsDiagUpdate n = s.setHs n h ∧ h.ungated = (s.hsAt n).ungated) := by
  unfold State.hsDiagUpdate
  dsimp only
  split
  · exact ⟨{}, .inl rfl⟩
  · split
    · exact ⟨_, .inr ⟨rfl, rfl⟩⟩
    · split <;> exact ⟨_, .inr ⟨rfl, rfl⟩⟩

theorem State.hsDiagUpdate_keepsHs (s : State) (n : Nat) : KeepsHs Hs.ungated s (s.hsDiagUpdate n) := by
  obtain ⟨h, he | ⟨he, hu⟩⟩ := s.hsDiagUpdate_eq n <;> rw [he]
  · exact .refl s
  · exact .setHs s n h hu

theorem State.hsDiagUpdate_frame (s : State) (n : Nat) : ∃ hs, s.hsDiagUpdate n = { s with hs := hs } := by
  obtain ⟨h, he | ⟨he, -⟩⟩ := s.hsDiagUpdate_eq n <;> rw [he]
  · exact ⟨_, rfl⟩
  · exact ⟨_, rfl⟩

/-- An update of a gate writes records and registers only. -/
theorem State.hsGateUpdate_frame (s : State) (n : Nat) : ∃ hs rg, s.hsGateUpdate n = { s with hs := hs, regs := rg } := by
  obtain ⟨hs, h⟩ := s.hsDiagUpdate_frame n
  unfold State.hsGateUpdate
  dsimp only
  split
  · exact ⟨_, _, h⟩
  · rw [h]; exact ⟨_, _, rfl⟩

theorem State.hsGateUpdate_keepsHs (s : State) (n : Nat) : KeepsHs Hs.ungated s (s.hsGateUpdate n) := by
  unfold State.hsGateUpdate
  dsimp only
  split
  · exact s.hsDiagUpdate_keepsHs n
  · refine (s.hsDiagUpdate_keepsHs n).trans ((KeepsHs.setHs _ n _ ?_).trans (.of_hs (State.setBit_hs ..)))
    rfl

theorem State.hsGateUpdate_keepsRegs (s : State) (n : Nat) : s.KeepsRegs (s.hsGateUpdate n) [0x11c] := by
  obtain ⟨hs, h⟩ := s.hsDiagUpdate_frame n
  have hdiag : s.KeepsRegs (s.hsDiagUpdate n) [0x11c] := .of_regs (by rw [h]) _
  unfold State.hsGateUpdate
  dsimp only
  split
  · exact hdiag
  · exact hdiag.trans ((KeepsRegs.setHs ..).trans (.setBit _ (hsPg n) R.HS.STAT.GATE _ (by simp) (by simp)))

/-- Of HS.STAT an update of a gate writes GATE only. -/
theorem State.fld_hsGateUpdate (s : State) (n pg : Nat) {f : Fld} (hf : R.HS.STAT.GATE.Apart f) (hlt : f.off < 0x1000) :
    (s.hsGateUpdate n).fld pg f = s.fld pg f := by
  obtain ⟨hs, h⟩ := s.hsDiagUpdate_frame n
  have hdiag : (s.hsDiagUpdate n).fld pg f = s.fld pg f := State.fld_of_regs (by rw [h]) ..
  unfold State.hsGateUpdate
  dsimp only
  split
  · exact hdiag
  · refine Eq.trans ?_ hdiag
    by_cases hpg : pg = hsPg n
    · rw [hpg]; exact State.fld_setFld_apart _ (hsPg n) _ hf
    · exact State.fld_setFld_page _ _ hpg (by decide) hlt

/-! ## Windows -/

/-- A window that ends, on its channel's page and in its record (R122, R123). -/
def State.winEnd (s : State) (n code : Nat) : State :=
  let s := (s.setFld (hsPg n) R.HS.STAT.WKIND 0).setFld (hsPg n) R.HS.STAT.WEND code
  s.setHs n { s.hsAt n with testEnd := none }

/-- A window's end is counted where it was a success, and event 118 is posted (R123). -/
def State.winTell (s : State) (n code : Nat) : State := (if code = 1 then s.count (hsPg n) 4 else s).post 118

theorem State.winClose_of_open {s : State} {n : Nat} (h : s.fld (hsPg n) R.HS.STAT.WKIND ≠ 0) (code : Nat) :
    s.winClose n code = (s.winEnd n code).winTell n code := if_pos (decide_eq_true h)

theorem State.winClose_of_closed {s : State} {n : Nat} (h : s.fld (hsPg n) R.HS.STAT.WKIND = 0) (code : Nat) : s.winClose n code = s := by
  rw [State.winClose, State.winIs, if_neg (by simp [h])]

theorem State.winTell_keepsRegs (s : State) (n code : Nat) : s.KeepsRegs (s.winTell n code) [] := by
  unfold State.winTell
  split
  · exact (KeepsRegs.count s _ (by decide)).trans (.of_regs (State.post_regs ..) _)
  · exact .of_regs (State.post_regs ..) _

theorem State.winTell_hs (s : State) (n code : Nat) : (s.winTell n code).hs = s.hs := by
  unfold State.winTell
  split <;> simp only [State.post_hs, State.count_hs]

theorem State.winEnd_keepsRegs (s : State) (n code : Nat) : s.KeepsRegs (s.winEnd n code) [0x11c] :=
  ((KeepsRegs.setFld s (hsPg n) R.HS.STAT.WKIND 0 (by simp) (by simp)).trans
    (.setFld _ (hsPg n) R.HS.STAT.WEND code (by simp) (by simp))).trans (.setHs ..)

theorem State.winClose_keepsRegs (s : State) (n code : Nat) : s.KeepsRegs (s.winClose n code) [0x11c] := by
  by_cases h : s.fld (hsPg n) R.HS.STAT.WKIND = 0
  · rw [State.winClose_of_closed h]; exact .refl s _
  · rw [State.winClose_of_open h]
    exact (s.winEnd_keepsRegs n code).trans ((State.winTell_keepsRegs ..).mono (by simp))

/-- A window's end leaves of the records all but the expiry of a TEST window (R122). -/
theorem State.winClose_keepsHs {α : Type} {f : Hs → α} (hf : ∀ h : Hs, f { h with testEnd := none } = f h) (s : State) (n code : Nat) :
    KeepsHs f s (s.winClose n code) := by
  by_cases h : s.fld (hsPg n) R.HS.STAT.WKIND = 0
  · rw [State.winClose_of_closed h]; exact .refl s
  · rw [State.winClose_of_open h]
    refine KeepsHs.trans ?_ (.of_hs (State.winTell_hs ..))
    unfold State.winEnd
    refine KeepsHs.trans (KeepsHs.of_hs ?_) (.setHs _ n _ (hf _))
    simp only [State.setFld_hs]

theorem State.fld_setHs (s : State) (n : Nat) (h : Hs) (pg : Nat) (f : Fld) : (s.setHs n h).fld pg f = s.fld pg f := rfl

/-- A window that has been closed shows no kind, and its end code (R123). -/
theorem State.winClose_shows {s : State} {n : Nat} (h : s.fld (hsPg n) R.HS.STAT.WKIND ≠ 0) {code : Nat} (hcode : code < 4) :
    (s.winClose n code).fld (hsPg n) R.HS.STAT.WKIND = 0 ∧ (s.winClose n code).fld (hsPg n) R.HS.STAT.WEND = code := by
  have htell (f : Fld) (hlt : f.off < 0x800) : (s.winClose n code).fld (hsPg n) f = (s.winEnd n code).fld (hsPg n) f := by
    rw [State.winClose_of_open h, (State.winTell_keepsRegs ..).fld _ hlt (by simp)]
  rw [htell _ (by decide), htell _ (by decide), State.winEnd, State.fld_setHs, State.fld_setHs]
  constructor
  · rw [State.fld_setFld_apart _ _ _ (by simp)]
    exact State.fld_setFld_fits _ _ _ _ (by decide) (by decide) (by decide)
  · exact State.fld_setFld_fits _ _ _ _ (by decide) (by decide) (by simpa using hcode)

/-- Closing a window shows no kind, whether or not one was open (R123). -/
theorem State.winClose_wkind (s : State) (n : Nat) {code : Nat} (hcode : code < 4) : (s.winClose n code).fld (hsPg n) R.HS.STAT.WKIND = 0 := by
  by_cases h : s.fld (hsPg n) R.HS.STAT.WKIND = 0
  · rw [State.winClose_of_closed h, h]
  · exact (State.winClose_shows h hcode).1

end Sys2Proof.Machine
end

section
/-! Latching a unit, and a fault of a channel (R121, R124, R125). -/

namespace Sys2Proof.Machine

/-! ## One edit of several records -/

/-- The records of several channels, each edited. -/
def State.editHs (s : State) (g : Hs → Hs) (ms : List Nat) : State := ms.foldl (fun t m => t.setHs m (g (t.hsAt m))) s

theorem State.editHs_cons (s : State) (g : Hs → Hs) (m : Nat) (ms : List Nat) :
    s.editHs g (m :: ms) = (s.setHs m (g (s.hsAt m))).editHs g ms := rfl

theorem State.hsAt_editHs_of_not_mem {g : Hs → Hs} {j : Nat} : ∀ {ms : List Nat} (s : State), j ∉ ms → (s.editHs g ms).hsAt j = s.hsAt j
  | [], _, _ => rfl
  | m :: ms, s, h => by
    rw [List.mem_cons, not_or] at h
    rw [State.editHs_cons, State.hsAt_editHs_of_not_mem _ h.2, State.hsAt_setHs_ne _ _ h.1]

theorem State.hsAt_editHs_of_mem {g : Hs → Hs} {j : Nat} {ms : List Nat} (s : State) (h : j ∈ ms) :
    ∃ h, (s.editHs g ms).hsAt j = g h := by
  induction ms generalizing s with
  | nil => exact absurd h List.not_mem_nil
  | cons m ms ih =>
    rw [State.editHs_cons]
    by_cases hms : j ∈ ms
    · exact ih _ hms
    · have hjm : j = m := (List.mem_cons.1 h).resolve_right hms
      refine ⟨s.hsAt m, ?_⟩
      rw [State.hsAt_editHs_of_not_mem _ hms, hjm, State.hsAt_setHs_same]

theorem State.editHs_frame (g : Hs → Hs) : ∀ (ms : List Nat) (s : State), ∃ hs, s.editHs g ms = { s with hs := hs }
  | [], _ => ⟨_, rfl⟩
  | m :: ms, s => by
    obtain ⟨hs, h⟩ := State.editHs_frame g ms (s.setHs m (g (s.hsAt m)))
    exact ⟨hs, h⟩

theorem State.editHs_keepsHs {α : Type} {f : Hs → α} {g : Hs → Hs} (hf : ∀ h, f (g h) = f h) (s : State) (ms : List Nat) :
    KeepsHs f s (s.editHs g ms) := .foldl (fun t m => .setHs t m _ (hf _)) ms s

theorem State.editHs_regs (s : State) (g : Hs → Hs) (ms : List Nat) : (s.editHs g ms).regs = s.regs := by
  obtain ⟨hs, h⟩ := State.editHs_frame g ms s
  rw [h]

/-! ## Latching -/

/-- A record that latches (R121). -/
def Hs.latched (h : Hs) : Hs := { h with latch := true, retryEnd := none }

theorem State.hsLatchUnit_eq (s : State) (n : Nat) : s.hsLatchUnit n =
    ((s.editHs Hs.latched (s.hsUnit n)).setBit (hsPg (s.hsLead n)) R.HS.STAT.RETRY false).winClose (s.hsLead n) 2 := rfl

/-- The members' records before the window of a unit that latches closes. -/
theorem State.editHs_latched_keepsRegs (s : State) (ms : List Nat) (l : Nat) :
    s.KeepsRegs ((s.editHs Hs.latched ms).setBit (hsPg l) R.HS.STAT.RETRY false) [0x11c] :=
  (KeepsRegs.of_regs (State.editHs_regs ..) _).trans (.setBit _ (hsPg l) R.HS.STAT.RETRY false (by simp) (by simp))

theorem State.hsLatchUnit_keepsRegs (s : State) (n : Nat) : s.KeepsRegs (s.hsLatchUnit n) [0x11c] := by
  rw [State.hsLatchUnit_eq]
  exact (State.editHs_latched_keepsRegs ..).trans (State.winClose_keepsRegs ..)

/-- Every member latches, and no retry interval goes on (R121, R124). -/
theorem State.hsLatchUnit_latched (s : State) {n m : Nat} (hm : m ∈ s.hsUnit n) :
    ((s.hsLatchUnit n).hsAt m).latch = true ∧ ((s.hsLatchUnit n).hsAt m).retryEnd = none := by
  have hclose := State.winClose_keepsHs (f := fun h => (h.latch, h.retryEnd)) (fun _ => rfl)
    ((s.editHs Hs.latched (s.hsUnit n)).setBit (hsPg (s.hsLead n)) R.HS.STAT.RETRY false) (s.hsLead n) 2
  obtain ⟨h, hh⟩ := State.hsAt_editHs_of_mem (g := Hs.latched) s hm
  have hat := hclose.at_ m
  rw [State.hsAt_of_hs (State.setBit_hs ..), hh] at hat
  exact Prod.mk.inj hat

/-- A latch leaves of the records all but the latch, the retry interval and the expiry of a TEST window. -/
theorem State.hsLatchUnit_keepsHs {α : Type} {f : Hs → α} (hl : ∀ h : Hs, f h.latched = f h) (ht : ∀ h : Hs, f { h with testEnd := none } = f h)
    (s : State) (n : Nat) : KeepsHs f s (s.hsLatchUnit n) := by
  rw [State.hsLatchUnit_eq]
  exact (State.editHs_keepsHs hl s _).trans ((KeepsHs.of_hs (State.setBit_hs ..)).trans (State.winClose_keepsHs ht ..))

/-- An open window of the unit closes by the latch (R121, R123). -/
theorem State.hsLatchUnit_window {s : State} {n : Nat} (h : s.fld (hsPg (s.hsLead n)) R.HS.STAT.WKIND ≠ 0) :
    (s.hsLatchUnit n).fld (hsPg (s.hsLead n)) R.HS.STAT.WKIND = 0 ∧ (s.hsLatchUnit n).fld (hsPg (s.hsLead n)) R.HS.STAT.WEND = 2 := by
  rw [State.hsLatchUnit_eq]
  refine State.winClose_shows ?_ (by decide)
  rwa [State.setBit, State.fld_setFld_apart _ _ _ (by simp), State.fld_of_regs (State.editHs_regs ..)]

/-! ## A fault -/

/-- A fault of a channel before the chain settles (R121, R125). -/
def State.hsFaulted (s : State) (n bit : Nat) : State :=
  let others := (s.hsUnit n).filter (· ≠ n)
  let s := s.detect (hsPg n) bit
  let s := others.foldl (fun t m => t.detect (hsPg m) 11) s
  (s.hsLatchUnit n).count (hsPg n) 2

theorem State.hsFault_eq (s : State) (n bit : Nat) : s.hsFault n bit = (s.hsFaulted n bit).hsSettle n := rfl

/-- The detections of a fault: its bit on the faulty member, GANG on the others (R125). -/
def State.hsFaultShow (s : State) (n bit : Nat) : State :=
  ((s.hsUnit n).filter (· ≠ n)).foldl (fun t m => t.detect (hsPg m) 11) (s.detect (hsPg n) bit)

theorem State.hsFaulted_eq (s : State) (n bit : Nat) : s.hsFaulted n bit = ((s.hsFaultShow n bit).hsLatchUnit n).count (hsPg n) 2 := rfl

theorem State.detects_keepsRegs {α : Type} {offs : List Nat} (hm : 0x48 ∈ offs) (p : α → Nat) (bit : Nat) (l : List α) (s : State) :
    s.KeepsRegs (l.foldl (fun t a => t.detect (p a) bit) s) offs := .foldl (fun t _ => .detect t _ bit hm) l s

theorem State.detects_hs {α : Type} (p : α → Nat) (bit : Nat) : ∀ (l : List α) (s : State), (l.foldl (fun t a => t.detect (p a) bit) s).hs = s.hs
  | [], _ => rfl
  | _ :: l, _ => (State.detects_hs p bit l _).trans (State.detect_hs ..)

theorem State.hsFaultShow_keepsRegs (s : State) (n bit : Nat) : s.KeepsRegs (s.hsFaultShow n bit) [0x48] :=
  (KeepsRegs.detect s (hsPg n) bit (by simp)).trans (State.detects_keepsRegs (by simp) hsPg 11 _ _)

/-- What a fault leaves to the chain: its bits, the latches, a closed window (R121, R125). -/
theorem State.hsFaulted_shows (s : State) (n : Nat) {bit : Nat} (hbit : bit < 32) :
    (s.hsFaulted n bit).fstat (hsPg n) bit = true ∧
    (∀ m ∈ s.hsUnit n, ((s.hsFaulted n bit).hsAt m).latch = true ∧ ((s.hsFaulted n bit).hsAt m).retryEnd = none) ∧
    (∀ m ∈ s.hsUnit n, m ≠ n → (s.hsFaulted n bit).fstat (hsPg m) 11 = true) ∧
    (s.fld (hsPg (s.hsLead n)) R.HS.STAT.WKIND ≠ 0 → (s.hsFaulted n bit).fld (hsPg (s.hsLead n)) R.HS.STAT.WKIND = 0 ∧
      (s.hsFaulted n bit).fld (hsPg (s.hsLead n)) R.HS.STAT.WEND = 2) := by
  have hshow := s.hsFaultShow_keepsRegs n bit
  have hunit := State.hsUnit_of_keepsRegs hshow (by simp) n
  have hlead := State.hsLead_of_keepsRegs hshow (by simp) n
  have hcount : ((s.hsFaultShow n bit).hsLatchUnit n).KeepsRegs (s.hsFaulted n bit) [] := .count _ _ (by decide)
  have hstat (pg b : Nat) (h : (s.hsFaultShow n bit).fstat pg b = true) : (s.hsFaulted n bit).fstat pg b = true := by
    rw [hcount.fstat (by simp), (State.hsLatchUnit_keepsRegs ..).fstat (by simp), h]
  refine ⟨hstat _ _ (State.fstat_foldl_detect hsPg 11 _ (State.fstat_detect_same s _ hbit)), fun m hm => ?_, fun m hm hne => ?_, fun hwin => ?_⟩
  · rw [State.hsFaulted_eq, State.hsAt_of_hs (State.count_hs ..)]
    exact State.hsLatchUnit_latched _ (hunit ▸ hm)
  · exact hstat _ _ (State.fstat_foldl_detect_mem hsPg (by decide) (List.mem_filter.2 ⟨hm, by simpa using hne⟩) _)
  · have hopen := State.hsLatchUnit_window (s := s.hsFaultShow n bit) (n := n)
      (by rw [hlead, hshow.fld _ (by simp) (by simp)]; exact hwin)
    rw [hlead] at hopen
    rwa [hcount.fld _ (by simp) (by simp), hcount.fld _ (by simp) (by simp)]

end Sys2Proof.Machine
end

section
/-! The chain on a channel that is in no gang (R24 to R27, R112, R121, R127). -/

namespace Sys2Proof.Machine

/-- The command of the safe level (R127). -/
def State.hsLimp (s : State) (l : Nat) (hold : OutCmd) : OutCmd :=
  match s.fld (hsPg l) R.HS.CFG.LIMP with
  | 1 => OutCmd.pwm (s.fld (hsPg l) R.HS.PERIOD.P) (s.fld (hsPg l) R.HS.PHASE.PH) 0xFFFF
  | 2 => hold
  | _ => .off

/-- The command that a level gives the unit of a leader (R24, R127, R462). -/
def State.hsCmdAt (s : State) (l lvl : Nat) (hold : OutCmd) : OutCmd :=
  if lvl = govSafe then s.hsLimp l hold
  else if lvl = govLatch then .off
  else if s.heldBit l then (s.hsAt l).heldCmd
  else (s.hsLower l).1

/-- A unit that has its command is activated by on-time it had not, and loses its envelope with it (R114). -/
def State.hsStart (s : State) (l : Nat) (was : Bool) : State :=
  let on := (s.hsAt l).cmd.onTime
  if on ∧ !was then s.hsActivate l
  else if !on then s.setHs l { s.hsAt l with act := none }
  else s

/-- A unit whose clause is held off (R241). -/
def State.hsHold (s : State) (l lvl : Nat) (cl : Option Nat) : State :=
  if cl.isSome ∧ (lvl ≥ govLatch ∨ !s.enabled (hsPg l)) then s.heldOff (cl.getD 0) else s

theorem State.hsSettle_of_stopped {s : State} (h : s.clocked .pwr = false) (n : Nat) : s.hsSettle n = (s.hsUnit n).foldl State.hsGateUpdate s := by
  rw [State.hsSettle, h]; exact if_pos rfl

/-- The chain gives the members their command, and the unit starts or ends (R24, R114, R124). -/
theorem State.hsSettle_of_runs {s : State} (h : s.clocked .pwr = true) (n : Nat) : ∃ gcl limp gen,
    let u := s.hsNoSegs (s.hsLead n)
    let lvl := u.govLevel (s.hsLead n) (u.hsLatched n) (u.hsAt (s.hsLead n)).heldGov (u.govClauseOf (s.hsUnit n)).isSome
    s.hsSettle n = ((s.hsUnit n).foldl (fun t m => t.hsGive m lvl gcl limp (u.hsCmdAt (s.hsLead n) lvl limp) gen)
      (u.hsHold (s.hsLead n) lvl (u.govClauseOf (s.hsUnit n)))).hsStart (s.hsLead n) (u.hsAt (s.hsLead n)).cmd.onTime := by
  unfold State.hsSettle
  rw [h]
  exact ⟨_, _, _, rfl⟩

/-! ## What a member is given -/

theorem State.hsHold_keepsRegs (s : State) (l lvl : Nat) (cl : Option Nat) : s.KeepsRegs (s.hsHold l lvl cl) [] := by
  unfold State.hsHold; split
  · exact s.heldOff_keepsRegs _
  · exact .refl s _

theorem Hs.withCmd_cmd (h : Hs) (t : Nat) (c : OutCmd) : (h.withCmd t c).cmd = c := by
  unfold Hs.withCmd; split <;> rfl

/-- An enabled member takes the command, and shows the level (R24, R28). -/
theorem State.hsGive_shows {s : State} {m lvl : Nat} (hen : s.enabled (hsPg m) = true) (hlvl : lvl < 4) (cl : Option Nat)
    (limp cmd : OutCmd) (gen : Gen) :
    ((s.hsGive m lvl cl limp cmd gen).hsAt m).cmd = cmd ∧ (s.hsGive m lvl cl limp cmd gen).fld (hsPg m) R.PG_STAT.GOV = lvl := by
  unfold State.hsGive
  rw [hen]
  constructor
  · refine (((State.hsGateUpdate_keepsHs _ m).comp Hs.cmd).at_ m).trans ?_
    rw [State.hsAt_setHs_same]
    exact Hs.withCmd_cmd ..
  · refine ((State.hsGateUpdate_keepsRegs ..).fld _ (by decide) (by simp)).trans ?_
    exact State.fld_setFld_fits _ _ _ _ (by decide) (by decide) (by simpa using hlvl)

/-- The diagnostics that an activation begins anew (R114). -/
def Hs.restart (h : Hs) : Hs :=
  { h with olTicks := 0, olConf := false, cyc := none, offRes := none, offConf := false, phHigh := none, xt := none }

/-- An activation of a unit but for its START window (R114). -/
def State.hsRestart (s : State) (n : Nat) : State :=
  let l := s.hsLead n
  let s := s.editHs Hs.restart (s.hsUnit n)
  (s.setHs l { s.hsAt l with act := if s.hsBlocked l then none else some s.tb, bpSeen := 0, fresh := false }).count (hsPg l) 0

theorem State.hsActivate_eq (s : State) (n : Nat) : ∃ c : Bool, s.hsActivate n =
    if c then (s.hsRestart n).winOpen (s.hsLead n) 1 else s.hsRestart n := ⟨_, rfl⟩

theorem State.winOpen_keepsRegs (s : State) (n kind : Nat) : s.KeepsRegs (s.winOpen n kind) [0x11c] :=
  ((KeepsRegs.setFld s (hsPg n) R.HS.STAT.WKIND kind (by simp) (by simp)).trans
    (.setFld _ (hsPg n) R.HS.STAT.RCNT 0 (by simp) (by simp))).trans (.count _ _ (by decide))

theorem State.winOpen_hs (s : State) (n kind : Nat) : (s.winOpen n kind).hs = s.hs := by
  simp only [State.winOpen, State.count_hs, State.setFld_hs]

theorem State.hsActivate_keepsRegs (s : State) (n : Nat) : s.KeepsRegs (s.hsActivate n) [0x11c] := by
  have hrestart : s.KeepsRegs (s.hsRestart n) [0x11c] :=
    ((KeepsRegs.of_regs (State.editHs_regs s Hs.restart _) _).trans (.setHs ..)).trans (.count _ _ (by decide))
  obtain ⟨c, h⟩ := s.hsActivate_eq n
  rw [h]; split
  · exact hrestart.trans (State.winOpen_keepsRegs ..)
  · exact hrestart

/-- An activation leaves of the records what neither its diagnostics nor its envelope is (R114). -/
theorem State.hsActivate_keepsHs {α : Type} {f : Hs → α} (hr : ∀ h : Hs, f h.restart = f h)
    (ha : ∀ (h : Hs) a, f { h with act := a, bpSeen := 0, fresh := false } = f h) (s : State) (n : Nat) : KeepsHs f s (s.hsActivate n) := by
  have hrestart : KeepsHs f s (s.hsRestart n) :=
    (State.editHs_keepsHs hr s _).trans ((KeepsHs.setHs _ _ _ (ha _ _)).trans (.of_hs (State.count_hs ..)))
  obtain ⟨c, h⟩ := s.hsActivate_eq n
  rw [h]; split
  · exact hrestart.trans (.of_hs (State.winOpen_hs ..))
  · exact hrestart

/-- A start or an end leaves the command and the level (R114). -/
theorem State.hsStart_keeps (s : State) (l : Nat) (was : Bool) : ((s.hsStart l was).hsAt l).cmd = (s.hsAt l).cmd ∧
    (s.hsStart l was).fld (hsPg l) R.PG_STAT.GOV = s.fld (hsPg l) R.PG_STAT.GOV := by
  unfold State.hsStart; dsimp only; split
  · exact ⟨(State.hsActivate_keepsHs (f := Hs.cmd) (fun _ => rfl) (fun _ _ => rfl) s l).at_ l, (State.hsActivate_keepsRegs ..).fld _ (by decide) (by simp)⟩
  · split
    · rw [State.hsAt_setHs_same]; exact ⟨rfl, rfl⟩
    · exact ⟨rfl, rfl⟩

/-- With or without a segment in service, the latch writes HS.STAT only (R156). -/
theorem State.hsNoSegs_keepsRegs (s : State) (n : Nat) : s.KeepsRegs (s.hsNoSegs n) [0x11c] := by
  unfold State.hsNoSegs; split
  · exact (State.hsLatchUnit_keepsRegs ..).trans (.count _ _ (by decide))
  · exact .refl s _

/-! ## A channel in no gang -/

section
variable {s : State} {n : Nat} (hgid : s.gid n = 0)
include hgid

theorem State.hsUnit_of_alone : s.hsUnit n = [n] := if_pos hgid

theorem State.hsLead_of_alone : s.hsLead n = n := by
  rw [State.hsLead, State.hsUnit_of_alone hgid]; rfl

/-- A channel alone shows the level that governs, and takes the command of that level (R24, R112, R127). -/
theorem State.hsSettle_alone (hclk : s.clocked .pwr = true) (hen : s.enabled (hsPg n) = true) {u : State} (hu : s.hsNoSegs n = u)
    (hkeep : s.KeepsRegs u [0x11c]) : 
    let lvl := u.govLevel n (u.hsLatched n) (u.hsAt n).heldGov (u.govClauseOf [n]).isSome
    lvl < 4 → (s.hsSettle n).fld (hsPg n) R.PG_STAT.GOV = lvl ∧
      ∃ limp, ((s.hsSettle n).hsAt n).cmd = u.hsCmdAt n lvl limp := by
  intro lvl hlvl
  obtain ⟨gcl, limp, gen, hsettle⟩ := State.hsSettle_of_runs hclk n
  rw [State.hsUnit_of_alone hgid, State.hsLead_of_alone hgid, hu] at hsettle
  have hen' : (u.hsHold n lvl (u.govClauseOf [n])).enabled (hsPg n) = true := by
    rw [(State.hsHold_keepsRegs ..).enabled (by simp), hkeep.enabled (by simp), hen]
  have hgive := State.hsGive_shows hen' hlvl gcl limp (u.hsCmdAt n lvl limp) gen
  obtain ⟨hcmd, hgov⟩ := State.hsStart_keeps ((u.hsHold n lvl (u.govClauseOf [n])).hsGive n lvl gcl limp (u.hsCmdAt n lvl limp) gen) n
    (u.hsAt n).cmd.onTime
  rw [hsettle]
  exact ⟨hgov.trans hgive.2, limp, hcmd.trans hgive.1⟩

theorem State.hsNoSegs_of_segs (h : (s.hsAt n).latch = true ∨ s.fld (hsPg n) R.HS.SEG.NSEG ≠ 0) : s.hsNoSegs n = s := by
  rw [State.hsNoSegs, State.hsUnit_of_alone hgid]
  exact if_neg (by rcases h with h | h <;> simp [h])

theorem State.hsNoSegs_of_none (h : (s.hsAt n).latch = false) (hseg : s.fld (hsPg n) R.HS.SEG.NSEG = 0) :
    s.hsNoSegs n = (s.hsLatchUnit n).count (hsPg n) 2 := by
  rw [State.hsNoSegs, State.hsUnit_of_alone hgid]
  exact if_pos (by simp [h, hseg])

theorem State.hsLatched_of_alone : s.hsLatched n = ((s.hsAt n).latch || (s.hsAt n).retryEnd.isSome) := by
  rw [State.hsLatched, State.hsUnit_of_alone hgid, State.hsLead_of_alone hgid]
  simp

/-- A channel alone is held off by level 2 with its latch, in a retry interval, and with no segment in service (R120, R124, R156). -/
theorem State.hsLatched_hsNoSegs : (s.hsNoSegs n).hsLatched n =
    ((s.hsAt n).latch || (s.hsAt n).retryEnd.isSome || s.fld (hsPg n) R.HS.SEG.NSEG == 0) := by
  rw [State.hsLatched_of_alone ((State.gid_of_keepsRegs (s.hsNoSegs_keepsRegs n) (by simp) n).trans hgid)]
  by_cases hlat : (s.hsAt n).latch = true
  · simp [State.hsNoSegs_of_segs hgid (.inl hlat), hlat]
  · by_cases hseg : s.fld (hsPg n) R.HS.SEG.NSEG = 0
    · have hlatched := (s.hsLatchUnit_latched (s.mem_hsUnit n)).1
      rw [State.hsNoSegs_of_none hgid (by simpa using hlat) hseg, State.hsAt_of_hs (State.count_hs ..), hlatched]
      simp [hseg]
    · simp [State.hsNoSegs_of_segs hgid (.inr hseg), hseg]

end

/-- Levels 3 and 4 give a command that is not held (R24). -/
theorem State.hsCmdAt_of_lower {s : State} {l lvl : Nat} (hheld : s.heldBit l = false) (hlvl : lvl < govLatch) (limp : OutCmd) :
    s.hsCmdAt l lvl limp = (s.hsLower l).1 := by
  rw [State.hsCmdAt, if_neg (Nat.ne_of_lt (hlvl.trans (by decide))), if_neg (Nat.ne_of_lt hlvl), hheld, if_neg (by decide)]

theorem State.hsLower_of_alone {s : State} {n : Nat} (hgid : s.gid n = 0) : (s.hsLower n).1 =
    match s.govClauseOf [n] with
    | some c => s.hsVerb n c
    | none => s.hsLive n := by
  rw [State.hsLower, State.hsUnit_of_alone hgid, State.hsLead_of_alone hgid]
  cases s.govClauseOf [n] <;> rfl

/-- The level of an output that is not held (R24). -/
theorem State.govLevel_of_free {s : State} {o : Nat} (h : s.heldBit o = false) (lat : Bool) (heldGov : Nat) (cl : Bool) :
    s.govLevel o lat heldGov cl = if s.safe then govSafe else if lat then govLatch else if cl then govClause else govLive := by
  simp [State.govLevel, State.level1, h]

/-- Without the PWR clock the command and the level stay (R105, R128). -/
theorem hsSettle_stopped {s : State} {n : Nat} (hgid : s.gid n = 0) (hclk : s.clocked .pwr = false) :
    ((s.hsSettle n).hsAt n).cmd = (s.hsAt n).cmd ∧
      (s.hsSettle n).fld (hsPg n) R.PG_STAT.GOV = s.fld (hsPg n) R.PG_STAT.GOV := by
  rw [State.hsSettle_of_stopped hclk, State.hsUnit_of_alone hgid]
  exact ⟨((s.hsGateUpdate_keepsHs n).comp Hs.cmd).at_ n, (s.hsGateUpdate_keepsRegs n).fld _ (by decide) (by simp)⟩

/-- The chain on an enabled channel in no gang whose command is not held (R24, R112, R127). -/
theorem hsSettle_chain {s : State} {n : Nat} (hgid : s.gid n = 0) (hen : s.enabled (hsPg n) = true) (hheld : s.heldBit n = false)
    (hn : n < 48) (hclk : s.clocked .pwr = true) :
    let t := s.hsSettle n
    let gov := t.fld (hsPg n) R.PG_STAT.GOV
    let cmd := (t.hsAt n).cmd
    let latched := (s.hsAt n).latch || (s.hsAt n).retryEnd.isSome || s.fld (hsPg n) R.HS.SEG.NSEG == 0
    (s.safe = true → gov = 3 ∧ (s.fld (hsPg n) R.HS.CFG.LIMP = 0 → cmd = .off)) ∧
    (s.safe = false → latched = true → gov = 2 ∧ cmd = .off) ∧
    (s.safe = false → latched = false → s.govClauseOf [n] = none → gov = 0 ∧ cmd = s.hsLive n) ∧
    (∀ c, s.safe = false → latched = false → s.govClauseOf [n] = some c → gov = 1 ∧ cmd = s.hsVerb n c) := by
  intro t gov cmd latched
  have hkeep := s.hsNoSegs_keepsRegs n
  have hsafe : (s.hsNoSegs n).safe = s.safe := hkeep.bit 0x010 (by decide) (by decide)
  have hfree : (s.hsNoSegs n).heldBit n = false := by
    rw [State.heldBit, hkeep.reg _ _ (by simp; omega) (by simp; omega)]; exact hheld
  have hlat : (s.hsNoSegs n).hsLatched n = latched := State.hsLatched_hsNoSegs hgid
  have hsettle : ∀ lvl, (if s.safe then govSafe else if latched then govLatch
      else if ((s.hsNoSegs n).govClauseOf [n]).isSome then govClause else govLive) = lvl → lvl < 4 →
      gov = lvl ∧ ∃ limp, cmd = (s.hsNoSegs n).hsCmdAt n lvl limp := by
    rintro _ rfl
    rw [← hlat, ← hsafe, ← State.govLevel_of_free hfree]
    exact State.hsSettle_alone hgid hclk hen rfl hkeep
  refine ⟨fun h => ?_, fun h hl => ?_, fun h hl hcl => ?_, fun c h hl hcl => ?_⟩
  · obtain ⟨hgov, limp, hcmd⟩ := hsettle govSafe (by simp [h]) (by decide)
    refine ⟨hgov, fun h0 => hcmd.trans ?_⟩
    rw [State.hsCmdAt, if_pos rfl, State.hsLimp, hkeep.fld _ (by decide) (by decide), h0]
    rfl
  · obtain ⟨hgov, limp, hcmd⟩ := hsettle govLatch (by simp [h, hl]) (by decide)
    exact ⟨hgov, hcmd⟩
  all_goals
    have hseg : s.hsNoSegs n = s := State.hsNoSegs_of_segs hgid (.inr fun h0 => by simp [latched, h0] at hl)
    rw [hseg] at hsettle
  · obtain ⟨hgov, limp, hcmd⟩ := hsettle govLive (by simp [h, hl, hcl]) (by decide)
    refine ⟨hgov, hcmd.trans ?_⟩
    rw [State.hsCmdAt_of_lower hheld (by decide), State.hsLower_of_alone hgid, hcl]
  · obtain ⟨hgov, limp, hcmd⟩ := hsettle govClause (by simp [h, hl, hcl]) (by decide)
    refine ⟨hgov, hcmd.trans ?_⟩
    rw [State.hsCmdAt_of_lower hheld (by decide), State.hsLower_of_alone hgid, hcl]

end Sys2Proof.Machine
end

section
/-! Every trip of a channel (R133, R134, R137, R138). -/

namespace Sys2Proof.Machine

/-! ## The filters -/

theorem OutCmd.le_nextEdge (c : OutCmd) (t : Nat) : t ≤ c.nextEdge t := by
  cases c with
  | off => exact Nat.le_refl t
  | pwm p ph d =>
    unfold OutCmd.nextEdge pwmNextStart
    dsimp only
    split
    · omega
    · split <;> omega

/-- A phase lasts up to the present tick (R133). -/
theorem State.hsPhaseLasts_of_le {s : State} {n t : Nat} (h : t ≤ s.tb) : s.hsPhaseLasts n t = true := by
  have hedge : ¬ ((s.hsAt n).gen.at s.tb).nextEdge s.tb < t := Nat.not_lt.2 (h.trans (OutCmd.le_nextEdge ..))
  have hchange : (s.hsAt n).gen.changesBefore s.tb t = false := by
    unfold Gen.changesBefore
    cases hn : (s.hsAt n).gen.nxt with
    | none => simp [hedge]
    | some e => simp [hedge]; omega
  simp [State.hsPhaseLasts, hchange]

/-- What the filters of a channel look at: the PWR clock, its phase, and no condition of R29 other than load dump (R105, R152). -/
def State.hsSees (s : State) (n : Nat) (on : Bool) : Prop :=
  s.clocked .pwr = true ∧ s.bit (hsPg n) R.HS.STAT.GATE = on ∧ s.hsBlocked n = false

/-- A filter whose time has passed acts at once. -/
theorem State.hsFilter_of_sees {s : State} {n t : Nat} {on : Bool} (h : s.hsSees n on) (ht : t ≤ s.tb) (f : State → State) :
    s.hsFilter n on t f = .next (f s) := by
  obtain ⟨hclk, hgate, hblk⟩ := h
  rw [State.hsFilter, if_pos ⟨hclk, hgate, by simp [hblk], State.hsPhaseLasts_of_le ht⟩, State.atTick, if_pos ht]

theorem State.hsFilter_of_not_sees {s : State} {n : Nat} {on : Bool} (h : ¬ s.hsSees n on) (t : Nat) (f : State → State) :
    s.hsFilter n on t f = .next s :=
  if_neg fun ⟨hclk, hgate, hblk, _⟩ => h ⟨hclk, hgate, by simpa using hblk⟩

/-- A filter acts at its tick or not at all. -/
theorem State.hsFilter_cases (s : State) (n : Nat) (on : Bool) (t : Nat) (f : State → State) :
    s.hsFilter n on t f = .next s ∨ ∃ u : State, t ≤ u.tb ∧ s.hsFilter n on t f = .next (f u) := by
  unfold State.hsFilter State.atTick
  split
  · split
    · next ht => exact .inr ⟨s, ht, rfl⟩
    · split
      · exact .inr ⟨_, Nat.le_refl t, rfl⟩
      · exact .inl rfl
  · exact .inl rfl

/-! ## The tick of an overcurrent trip -/

theorem le_foldl_max (l : List Nat) (t : Nat) : t ≤ l.foldl max t := by
  induction l generalizing t with
  | nil => exact Nat.le_refl t
  | cons a l ih => exact (Nat.le_max_left t a).trans (ih _)

theorem mem_le_foldl_max {l : List Nat} {a : Nat} (h : a ∈ l) (t : Nat) : a ≤ l.foldl max t := by
  induction l generalizing t with
  | nil => exact absurd h List.not_mem_nil
  | cons b l ih =>
    rcases List.mem_cons.1 h with rfl | h
    · exact (Nat.le_max_right t a).trans (le_foldl_max l _)
    · exact ih h _

theorem foldl_max_of_le {l : List Nat} {t : Nat} (h : ∀ a ∈ l, a ≤ t) : l.foldl max t = t := by
  induction l with
  | nil => rfl
  | cons b l ih =>
    rw [List.foldl_cons, Nat.max_eq_left (h b List.mem_cons_self)]
    exact ih fun a ha => h a (List.mem_cons_of_mem b ha)

/-- The ticks at which the filter has passed after a change of the settings (R133). -/
def Hs.limTicks (h : Hs) (i : Int) : List Nat := (h.limHist.filter fun e => i ≤ (e.2 : Int)).map (·.1 + 200)

theorem Hs.limTicks_le {h : Hs} {i : Int} {t : Nat} (hrecent : ¬ ∃ e ∈ h.limHist, i ≤ (e.2 : Int) ∧ t < e.1 + 200) :
    ∀ a ∈ h.limTicks i, a ≤ t := by
  intro a ha
  obtain ⟨e, he, rfl⟩ := List.mem_map.1 ha
  obtain ⟨hmem, hle⟩ := List.mem_filter.1 he
  exact Nat.not_lt.1 fun hlt => hrecent ⟨e, hmem, by simpa using hle, hlt⟩

/-- Once 200 ticks have passed since the edge and since every change, the limit after an envelope decides (R133). -/
theorem State.hsTripTick_of_idle {s : State} {n t : Nat} {i : Int} (hticks : ((s.hsAt (s.hsLead n)).limTicks i).foldl max t = t)
    (hact : (s.hsAt (s.hsLead n)).act = none) : s.hsTripTick n t i = if (s.hsLimitAt n none : Int) < i then some t else none := by
  unfold Hs.limTicks at hticks
  simp only [State.hsTripTick, hticks, hact]

/-- In an activation the limit of 200 ticks ago decides, or the present one (R133). -/
theorem State.hsTripTick_of_active {s : State} {n t a : Nat} {i : Int} (hticks : ((s.hsAt (s.hsLead n)).limTicks i).foldl max t = t)
    (hact : (s.hsAt (s.hsLead n)).act = some a) : s.hsTripTick n t i =
      if (s.hsLimitAt n (some (t - 200 - a)) : Int) < i then some t
      else if (s.hsLimitAt n (some (t - a)) : Int) < i then some (max t (a + s.hsLastStep (s.hsLead n) (t - a) + 200))
      else none := by
  unfold Hs.limTicks at hticks
  simp only [State.hsTripTick, hticks, hact]

/-- A trip tick lies no earlier than any tick at which the filter has passed after a change (R133). -/
theorem State.le_of_hsTripTick {s : State} {n t t' a : Nat} {i : Int} (h : s.hsTripTick n t i = some t')
    (ha : a ∈ (s.hsAt (s.hsLead n)).limTicks i) : a ≤ t' := by
  have hle : a ≤ ((s.hsAt (s.hsLead n)).limTicks i).foldl max t := mem_le_foldl_max ha t
  unfold Hs.limTicks at hle
  unfold State.hsTripTick at h
  dsimp only at h
  split at h
  · split at h
    · cases h; exact hle
    · cases h
  · split at h
    · cases h; exact hle
    · split at h
      · cases h; exact hle.trans (Nat.le_max_left ..)
      · cases h

/-! ## A trip -/

/-- The retry counted, and RETRY's bit on the channel that the trip names (R120). -/
def State.hsRetryShow (s : State) (n : Nat) : State :=
  let l := s.hsLead n
  ((s.setFld (hsPg l) R.HS.STAT.RCNT (s.fld (hsPg l) R.HS.STAT.RCNT + 1)).detect (hsPg n) 10).count (hsPg l) 1

/-- A trip that becomes a retry, before the chain settles (R120). -/
def State.hsRetry (s : State) (n : Nat) : State :=
  let l := s.hsLead n
  let e := s.hsPal l
  let s := s.hsRetryShow n
  let s := s.setHs l { s.hsAt l with retryEnd := some (s.tb + s.palFld e R.PAL.RETRY.INT * 50000) }
  s.setBit (hsPg l) R.HS.STAT.RETRY true

/-- In an open window with retries left a trip becomes a retry, but for a limp value (R120, R139). -/
def State.hsRetries (s : State) (n : Nat) : Prop :=
  s.fld (hsPg (s.hsLead n)) R.HS.STAT.WKIND ≠ 0 ∧
    s.fld (hsPg (s.hsLead n)) R.HS.STAT.RCNT < s.palFld (s.hsPal (s.hsLead n)) R.PAL.RETRY.N ∧
    s.fld (hsPg (s.hsLead n)) R.PG_STAT.GOV ≠ 3

theorem State.hsTrip_of_retries {s : State} {n : Nat} (h : s.hsRetries n) : s.hsTrip n = (s.hsRetry n).hsSettle n :=
  if_pos ⟨decide_eq_true h.1, h.2⟩

theorem State.hsTrip_of_not_retries {s : State} {n : Nat} (h : ¬ s.hsRetries n) : s.hsTrip n = s.hsFault n 1 :=
  if_neg fun h' => h ⟨of_decide_eq_true h'.1, h'.2⟩

theorem State.hsPal_lt (s : State) (n : Nat) : s.hsPal n < 32 := Fld.get_lt R.HS.CFG.PAL _ (by decide) (by decide)

theorem State.hsRetryShow_keepsRegs (s : State) (n : Nat) : s.KeepsRegs (s.hsRetryShow n) [0x11c, 0x48] :=
  ((KeepsRegs.setFld s (hsPg (s.hsLead n)) R.HS.STAT.RCNT _ (by simp) (by simp)).trans (.detect _ (hsPg n) 10 (by simp))).trans
    (.count _ _ (by decide))

theorem State.hsRetryShow_tb (s : State) (n : Nat) : (s.hsRetryShow n).tb = s.tb := by
  simp only [State.hsRetryShow, State.count_tb, State.detect_tb, State.setFld_tb]

theorem State.hsRetryShow_fstat (s : State) (n : Nat) : (s.hsRetryShow n).fstat (hsPg n) 10 = true := by
  unfold State.hsRetryShow; dsimp only
  rw [(KeepsRegs.count (offs := []) _ _ (by decide)).fstat (by simp)]
  exact State.fstat_detect_same _ _ (by decide)

/-- RCNT has four bits, as N has: a retry that is left fits it. -/
theorem State.hsRetryShow_rcnt {s : State} {n : Nat}
    (h : s.fld (hsPg (s.hsLead n)) R.HS.STAT.RCNT < s.palFld (s.hsPal (s.hsLead n)) R.PAL.RETRY.N) :
    (s.hsRetryShow n).fld (hsPg (s.hsLead n)) R.HS.STAT.RCNT = s.fld (hsPg (s.hsLead n)) R.HS.STAT.RCNT + 1 := by
  have hN : s.palFld (s.hsPal (s.hsLead n)) R.PAL.RETRY.N < 16 := Fld.get_lt (R.PAL.RETRY.N _) _ (by simp) (by simp)
  unfold State.hsRetryShow; dsimp only
  rw [(KeepsRegs.count (offs := []) _ _ (by decide)).fld _ (by simp) (by simp),
    (KeepsRegs.detect (offs := [0x48]) _ _ 10 (by simp)).fld _ (by simp) (by simp)]
  exact State.fld_setFld_fits _ _ _ _ (by simp) (by simp) (by simp; omega)

/-- What a retry shows (R120). -/
theorem State.hsRetry_shows {s : State} {n : Nat} (h : s.hsRetries n) :
    (s.hsRetry n).fld (hsPg (s.hsLead n)) R.HS.STAT.RCNT = s.fld (hsPg (s.hsLead n)) R.HS.STAT.RCNT + 1 ∧
    (s.hsRetry n).bit (hsPg (s.hsLead n)) R.HS.STAT.RETRY = true ∧ (s.hsRetry n).fstat (hsPg n) 10 = true ∧
    ((s.hsRetry n).hsAt (s.hsLead n)).retryEnd =
      some (s.tb + s.palFld (s.hsPal (s.hsLead n)) R.PAL.RETRY.INT * 50000) := by
  have hpal := s.hsPal_lt (s.hsLead n)
  unfold State.hsRetry
  refine ⟨?_, State.bit_setBit_same _ _ _ true rfl (by decide), ?_, ?_⟩
  · refine (State.fld_setFld_apart _ _ _ (by simp)).trans ?_
    exact State.hsRetryShow_rcnt h.2.1
  · refine ((KeepsRegs.setBit (offs := [0x11c]) _ _ R.HS.STAT.RETRY true (by simp) (by simp)).fstat (by simp) _ _).trans ?_
    exact s.hsRetryShow_fstat n
  · rw [State.hsAt_of_hs (State.setBit_hs ..), State.hsAt_setHs_same, s.hsRetryShow_tb n]
    have hint : (s.hsRetryShow n).palFld (s.hsPal (s.hsLead n)) R.PAL.RETRY.INT = s.palFld (s.hsPal (s.hsLead n)) R.PAL.RETRY.INT :=
      (s.hsRetryShow_keepsRegs n).fld 0x130 (by simp; omega) (by simp; omega)
    rw [hint]

/-! ## The commands -/

section
variable {s : State} {n : Fin 48} {i : Int}

theorem exec_trip (s : State) (n : Fin 48) (i : Int) : exec (.trip n i) s =
    match s.hsTripTick n (max s.tb ((s.hsAt n).filtFrom + 200)) i with
    | some t => s.hsFilter n true t fun s => s.hsTrip n
    | none => .next s := rfl

theorem exec_trip_of_tick {t : Nat} (h : s.hsTripTick n (max s.tb ((s.hsAt n).filtFrom + 200)) i = some t) :
    exec (.trip n i) s = s.hsFilter n true t fun s => s.hsTrip n := by rw [exec_trip, h]

theorem exec_trip_of_no_tick (h : s.hsTripTick n (max s.tb ((s.hsAt n).filtFrom + 200)) i = none) :
    exec (.trip n i) s = .next s := by rw [exec_trip, h]

theorem exec_trip_of_not_sees (h : ¬ s.hsSees n true) : exec (.trip n i) s = .next s := by
  rw [exec_trip]
  split
  · exact State.hsFilter_of_not_sees h ..
  · rfl

/-- The limit that held `back` ticks ago, as far as the envelope goes (R133). -/
def State.hsLimitBack (s : State) (n back : Nat) : Nat := s.hsLimitAt n ((s.hsAt (s.hsLead n)).act.map fun a => s.tb - back - a)

section
variable (hedge : (s.hsAt n).filtFrom + 200 ≤ s.tb)
  (hrecent : ¬ ∃ e ∈ (s.hsAt (s.hsLead n)).limHist, i ≤ (e.2 : Int) ∧ s.tb < e.1 + 200)
include hedge hrecent

/-- Above the limit of 200 ticks ago the trip comes now (R133). -/
theorem hsTripTick_now (h : (s.hsLimitBack n 200 : Int) < i) :
    s.hsTripTick n (max s.tb ((s.hsAt n).filtFrom + 200)) i = some s.tb := by
  have hticks := foldl_max_of_le (Hs.limTicks_le hrecent)
  rw [Nat.max_eq_left hedge]
  unfold State.hsLimitBack at h
  cases hact : (s.hsAt (s.hsLead n)).act with
  | none => rw [hact] at h; exact (State.hsTripTick_of_idle hticks hact).trans (if_pos h)
  | some a => rw [hact] at h; exact (State.hsTripTick_of_active hticks hact).trans (if_pos h)

/-- Within the limit of 200 ticks ago and the present one no trip comes (R133). -/
theorem hsTripTick_none (h : i ≤ (s.hsLimitBack n 0 : Int)) (h200 : i ≤ (s.hsLimitBack n 200 : Int)) :
    s.hsTripTick n (max s.tb ((s.hsAt n).filtFrom + 200)) i = none := by
  have hticks := foldl_max_of_le (Hs.limTicks_le hrecent)
  rw [Nat.max_eq_left hedge]
  unfold State.hsLimitBack at h h200
  cases hact : (s.hsAt (s.hsLead n)).act with
  | none => rw [hact] at h; exact (State.hsTripTick_of_idle hticks hact).trans (if_neg (Int.not_lt.2 h))
  | some a =>
    rw [hact] at h h200
    exact (State.hsTripTick_of_active hticks hact).trans ((if_neg (Int.not_lt.2 h200)).trans (if_neg (Int.not_lt.2 h)))

end

/-- A trip does not come before the filter has passed since a change that lowered the limit below the current (R133). -/
theorem exec_trip_after_change {c j : Nat} (hmem : (c, j) ∈ (s.hsAt (s.hsLead n)).limHist) (hj : i ≤ (j : Int)) :
    exec (.trip n i) s = .next s ∨ ∃ u : State, c + 200 ≤ u.tb ∧ exec (.trip n i) s = .next (u.hsTrip n) := by
  cases htick : s.hsTripTick n (max s.tb ((s.hsAt n).filtFrom + 200)) i with
  | none => exact .inl (exec_trip_of_no_tick htick)
  | some t =>
    have hle : c + 200 ≤ t := State.le_of_hsTripTick htick
      (List.mem_map.2 ⟨(c, j), List.mem_filter.2 ⟨hmem, by simpa using hj⟩, rfl⟩)
    rw [exec_trip_of_tick htick]
    rcases s.hsFilter_cases n true t (fun s => s.hsTrip n) with h | ⟨u, hu, h⟩
    · exact .inl h
    · exact .inr ⟨u, hle.trans hu, h⟩

theorem exec_ceilTrip (s : State) (n : Fin 48) (i : Int) : exec (.ceilTrip n i) s =
    .next (if (s.fld (hsPg n) R.HS.SEG.CEIL : Int) * 100 ≤ i then
      (if s.clocked .pwr then s.hsFault n 2 else (s.setHs n { s.hsAt n with ceilOff := true }).hsGateUpdate n) else s) := by
  change execCeilTrip n i s = _
  rw [execCeilTrip, Nat.cast_mul, Nat.cast_ofNat]
  split
  · split <;> rfl
  · rfl

/-- The thresholds of R137 and R138 by the class of a channel (R108). -/
theorem hsHeavy_ite (n : Fin 48) (heavy light : Int) : (if hsHeavy n then heavy else light) = if n.val < 16 then heavy else light := by
  simp [hsHeavy]

theorem exec_reverseCurrent_of_lt (h : (if n.val < 16 then 2000 else 500) < i) : exec (.reverseCurrent n i) s =
    s.hsFilter n true ((s.hsAt n).filtFrom + 1000) fun s => s.hsFault n 7 := by
  rw [← hsHeavy_ite] at h; exact if_pos h

theorem exec_reverseCurrent_of_le (h : i ≤ (if n.val < 16 then 2000 else 500)) : exec (.reverseCurrent n i) s = .next s := by
  rw [← hsHeavy_ite] at h; exact if_neg (Int.not_lt.2 h)

/-- The tick from which the stuck-on filter of a channel counts (R138). -/
def State.hsStuckFrom (s : State) (n : Nat) : Nat :=
  max (max ((s.hsAt n).edge.getD 0 + s.palFld (s.hsPal n) R.PAL.BLANK.TBLK) (s.hsAt n).filtAt) ((s.hsAt n).stuckAt.getD 0)

theorem exec_stuckOn_of_lt (h : (if n.val < 16 then 500 else 125) < i) : exec (.stuckOn n i) s =
    s.hsFilter n false (s.hsStuckFrom n + 10000) fun s => (s.setHs n { s.hsAt n with stuckAt := some s.tb }).hsFault n 8 := by
  rw [← hsHeavy_ite] at h; exact if_pos h

theorem exec_stuckOn_of_le (h : i ≤ (if n.val < 16 then 500 else 125)) : exec (.stuckOn n i) s = .next s := by
  rw [← hsHeavy_ite] at h; exact if_neg (Int.not_lt.2 h)

end

/-- Settles O29: the chain by the level that governs, a fault by what it leaves to the chain, each trip by its filter. -/
theorem channelChain : Obligations.ChannelChain := by
  unfold Obligations.ChannelChain
  refine ⟨fun s n hgid hen hheld => ⟨hsSettle_stopped hgid, hsSettle_chain hgid hen hheld n.isLt⟩,
    fun s n bit hbit => ⟨s.hsFaulted n bit, s.hsFault_eq n bit, s.hsFaulted_shows n (by omega)⟩, fun s n i => ?_⟩
  refine ⟨?_, ?_, exec_trip_of_not_sees, ?_, fun c j hmem hj _ => exec_trip_after_change hmem hj, exec_ceilTrip s n i, ?_, ?_, ?_, ?_⟩
  · rintro ⟨hsees, hedge, hrecent, hlim⟩ hretries
    refine ⟨s.hsRetry n, ?_, State.hsRetry_shows hretries⟩
    rw [exec_trip_of_tick (hsTripTick_now hedge hrecent hlim), State.hsFilter_of_sees hsees (Nat.le_refl _), State.hsTrip_of_retries hretries]
  · rintro ⟨hsees, hedge, hrecent, hlim⟩ hretries
    rw [exec_trip_of_tick (hsTripTick_now hedge hrecent hlim), State.hsFilter_of_sees hsees (Nat.le_refl _), State.hsTrip_of_not_retries hretries]
  · exact fun hedge hrecent h h200 => exec_trip_of_no_tick (hsTripTick_none hedge hrecent h h200)
  · exact fun hsees hedge h => (exec_reverseCurrent_of_lt h).trans (State.hsFilter_of_sees hsees hedge _)
  · rintro (hnot | h)
    · by_cases h : (if n.val < 16 then 2000 else 500) < i
      · exact (exec_reverseCurrent_of_lt h).trans (State.hsFilter_of_not_sees hnot ..)
      · exact exec_reverseCurrent_of_le (Int.not_lt.1 h)
    · exact exec_reverseCurrent_of_le h
  · exact fun hsees hedge h => (exec_stuckOn_of_lt h).trans (State.hsFilter_of_sees hsees hedge _)
  · rintro (hnot | h)
    · by_cases h : (if n.val < 16 then 500 else 125) < i
      · exact (exec_stuckOn_of_lt h).trans (State.hsFilter_of_not_sees hnot ..)
      · exact exec_stuckOn_of_le (Int.not_lt.1 h)
    · exact exec_stuckOn_of_le h

end Sys2Proof.Machine
end

section
/-! Frames of the dies' conditions (R151 to R153), and single bits of a field. -/

namespace Sys2Proof

/-- A bit of a field's value is a bit of the register. -/
theorem Fld.get_testBit (f : Fld) (w : Word) {k : Nat} (h : f.lo + k ≤ f.hi) (h2 : f.hi < 32) : (f.get w).testBit k = w.getLsbD (f.lo + k) := by
  simp only [Fld.get, BitVec.testBit_toNat, BitVec.getLsbD_ushiftRight, BitVec.getLsbD_and, Fld.mask_getLsbD f _ (Nat.le_trans (Nat.le_add_right ..) h)]
  simp [h, show f.lo + k < 32 by omega]

end Sys2Proof

namespace Sys2Proof.Machine

/-- A bit put into a field stands in its register. -/
theorem State.putBit_getLsbD (s : State) (pg : Nat) (f : Fld) {k : Nat} (h : f.lo + k ≤ f.hi) (h2 : f.hi < 32) :
    ((s.putBit pg f k true).reg pg f.off).getLsbD (f.lo + k) = true := by
  have hbit (v : Nat) : (if v.testBit k = true then v else if True then v + 2 ^ k else v - 2 ^ k).testBit k = true := by
    split
    · assumption
    · next hv => rw [if_pos trivial, Nat.add_comm, Nat.testBit_two_pow_add_eq]; simpa using hv
  rw [← Fld.get_testBit f _ h h2]
  change ((s.putBit pg f k true).fld pg f).testBit k = true
  rw [State.putBit, State.fld_setFld_same _ _ _ _ (by omega) h2, Nat.testBit_mod_two_pow]
  simp only [Bool.and_eq_true, decide_eq_true_eq]
  exact ⟨by omega, hbit _⟩

/-! ## Dies -/

@[simp] theorem State.dieAt_setDie_same (s : State) (d : Nat) (v : DieSt) : (s.setDie d v).dieAt d = v := tget_tset_same ..

theorem State.dieAt_setDie_ne (s : State) {d e : Nat} (v : DieSt) (h : e ≠ d) : (s.setDie d v).dieAt e = s.dieAt e := tget_tset_ne _ _ _ h

theorem State.dieAt_of_dies {s t : State} (h : t.dies = s.dies) (d : Nat) : t.dieAt d = s.dieAt d := by
  rw [State.dieAt, State.dieAt, h]

theorem State.detects_dies {α : Type} (p : α → Nat) (bit : Nat) : ∀ (l : List α) (s : State),
    (l.foldl (fun t a => t.detect (p a) bit) s).dies = s.dies
  | [], _ => rfl
  | _ :: l, _ => (State.detects_dies p bit l _).trans (State.detect_dies ..)

/-! ## A report -/

/-- The bank folders and the bridge folder report a condition of a die (R152, R157). -/
def State.dieReportCommon (s : State) (d j : Nat) : State :=
  (((List.range 3).map fun b => 0x0F0 + 3 * d + b).foldl (fun t pg => t.detect pg (2 + j)) s).detect brPg (1 + j)

/-- For P2 the valve, matrix and ambient pages do too (R152). -/
def State.dieReportP2 (s : State) (j : Nat) : State :=
  (List.range 4).foldl (fun t g => t.detect (ambPg g) (4 + j)) ((s.detect vsPg (7 + j)).detect mxPg (6 + j))

theorem State.dieReport_eq (s : State) (d j : Nat) : s.dieReport d j =
    if !s.clocked .pwr then s else if d = 1 then (s.dieReportCommon d j).dieReportP2 j else s.dieReportCommon d j := rfl

theorem State.dieReportCommon_dies (s : State) (d j : Nat) : (s.dieReportCommon d j).dies = s.dies := by
  rw [State.dieReportCommon, State.detect_dies]
  exact State.detects_dies (fun pg => pg) (2 + j) _ s

theorem State.dieReport_dies (s : State) (d j : Nat) : (s.dieReport d j).dies = s.dies := by
  rw [State.dieReport_eq]
  split
  · rfl
  · split
    · rw [State.dieReportP2, State.detects_dies ambPg, State.detect_dies, State.detect_dies, State.dieReportCommon_dies]
    · exact s.dieReportCommon_dies d j

theorem State.fstat_dieReportP2 {s : State} {pg b : Nat} (h : s.fstat pg b = true) (j : Nat) : (s.dieReportP2 j).fstat pg b = true :=
  State.fstat_foldl_detect ambPg (4 + j) _ (State.fstat_detect_of_fstat (State.fstat_detect_of_fstat h ..) ..)

theorem State.dieReportCommon_shows (s : State) (d : Nat) {j : Nat} (hj : j < 3) :
    (∀ b, b < 3 → (s.dieReportCommon d j).fstat (0x0F0 + 3 * d + b) (2 + j) = true) ∧ (s.dieReportCommon d j).fstat 0x15C (1 + j) = true := by
  refine ⟨fun b hb => State.fstat_detect_of_fstat ?_ .., State.fstat_detect_same _ _ (by omega)⟩
  exact State.fstat_foldl_detect_mem (fun pg => pg) (by omega) (List.mem_map.2 ⟨b, List.mem_range.2 hb, rfl⟩) s

theorem State.dieReportP2_shows (s : State) {j : Nat} (hj : j < 3) : (s.dieReportP2 j).fstat 0x168 (7 + j) = true ∧
    (s.dieReportP2 j).fstat 0x170 (6 + j) = true ∧ ∀ g, g < 4 → (s.dieReportP2 j).fstat (0x174 + g) (4 + j) = true := by
  refine ⟨State.fstat_foldl_detect ambPg _ _ (State.fstat_detect_of_fstat (State.fstat_detect_same _ vsPg (by omega)) ..),
    State.fstat_foldl_detect ambPg _ _ (State.fstat_detect_same _ mxPg (by omega)), fun g hg => ?_⟩
  exact State.fstat_foldl_detect_mem ambPg (by omega) (List.mem_range.2 hg) _

/-- A condition of a die sets its bit on every page that reports it (R152, R157). -/
theorem State.dieReport_shows {s : State} (hclk : s.clocked .pwr = true) (d : Nat) {j : Nat} (hj : j < 3) :
    (∀ b, b < 3 → (s.dieReport d j).fstat (0x0F0 + 3 * d + b) (2 + j) = true) ∧ (s.dieReport d j).fstat 0x15C (1 + j) = true ∧
    (d = 1 → (s.dieReport d j).fstat 0x168 (7 + j) = true ∧ (s.dieReport d j).fstat 0x170 (6 + j) = true ∧
      ∀ g, g < 4 → (s.dieReport d j).fstat (0x174 + g) (4 + j) = true) := by
  obtain ⟨hbank, hbr⟩ := s.dieReportCommon_shows d hj
  rw [State.dieReport_eq, hclk, if_neg (by decide)]
  split
  · exact ⟨fun b hb => State.fstat_dieReportP2 (hbank b hb) j, State.fstat_dieReportP2 hbr j, fun _ => State.dieReportP2_shows _ hj⟩
  · next hd => exact ⟨hbank, hbr, fun h => absurd h hd⟩

/-- What a die's condition leaves of the die, and its report; `w` is the state in which the condition comes about (R151, R152). -/
theorem dieReports {w : State} (d : Nat) (now : DieSt) {j : Nat} (hj : j < 3) :
    ((w.setDie d now).dieReport d j).dieAt d = now ∧ (w.clocked .pwr = true →
      (∀ b, b < 3 → ((w.setDie d now).dieReport d j).fstat (0x0F0 + 3 * d + b) (2 + j) = true) ∧
      ((w.setDie d now).dieReport d j).fstat 0x15C (1 + j) = true ∧
      (d = 1 → ((w.setDie d now).dieReport d j).fstat 0x168 (7 + j) = true ∧ ((w.setDie d now).dieReport d j).fstat 0x170 (6 + j) = true ∧
        ∀ g, g < 4 → ((w.setDie d now).dieReport d j).fstat (0x174 + g) (4 + j) = true)) := by
  refine ⟨?_, fun hclk => State.dieReport_shows (s := w.setDie d now) hclk d hj⟩
  rw [State.dieAt_of_dies (State.dieReport_dies ..), State.dieAt_setDie_same]

/-! ## The gates of a load dump -/

/-- The two states agree but in the records of channels, legs and bridges, in what the light shows, and in the registers. -/
def State.SameSupply (s t : State) : Prop := ∃ hs lg br li rg, t = { s with hs := hs, legs := lg, bridges := br, light := li, regs := rg }

theorem State.SameSupply.refl (s : State) : s.SameSupply s := ⟨_, _, _, _, _, rfl⟩

theorem State.SameSupply.trans {s t u : State} (h : s.SameSupply t) (h' : t.SameSupply u) : s.SameSupply u := by
  obtain ⟨hs, lg, br, li, rg, rfl⟩ := h
  obtain ⟨hs', lg', br', li', rg', rfl⟩ := h'
  exact ⟨_, _, _, _, _, rfl⟩

theorem State.SameSupply.foldl {α : Type} {f : State → α → State} (hf : ∀ (t : State) a, t.SameSupply (f t a)) : ∀ (l : List α) (s : State),
    s.SameSupply (l.foldl f s)
  | [], s => .refl s
  | a :: l, s => (hf s a).trans (foldl hf l (f s a))

theorem State.SameSupply.keeps {s t : State} (h : s.SameSupply t) : t.dies = s.dies ∧ t.tb = s.tb ∧ t.clocked = s.clocked := by
  obtain ⟨hs, lg, br, li, rg, rfl⟩ := h
  exact ⟨rfl, rfl, rfl⟩

theorem State.hsGateUpdate_sameSupply (s : State) (n : Nat) : s.SameSupply (s.hsGateUpdate n) := by
  obtain ⟨hs, rg, h⟩ := s.hsGateUpdate_frame n
  exact ⟨_, _, _, _, _, h⟩

theorem State.brDiagUpdate_sameSupply (s : State) (k : Nat) : s.SameSupply (s.brDiagUpdate k) := by
  unfold State.brDiagUpdate; dsimp only; split
  · exact .refl s
  · split <;> exact ⟨_, _, _, _, _, rfl⟩

theorem State.legUpdate_sameSupply (s : State) (l : Nat) : s.SameSupply (s.legUpdate l) := by
  rcases Nat.lt_or_ge l 28 with hl | hl
  · rw [State.legUpdate_eq hl]
    obtain ⟨rg, hrg⟩ := State.legShow_eq (((s.bridgesWith l).foldl State.brDiagUpdate s).legSwitch l _) l _ _
    dsimp only
    rw [hrg]
    exact (SameSupply.foldl State.brDiagUpdate_sameSupply (s.bridgesWith l) s).trans ⟨_, _, _, _, _, rfl⟩
  · rw [State.legUpdate_of_ge hl]; exact .refl s

theorem State.dieGates_sameSupply (s : State) (d : Nat) : s.SameSupply (s.dieGates d) :=
  ((SameSupply.foldl State.hsGateUpdate_sameSupply (dieHs d) s).trans (.foldl State.legUpdate_sameSupply (dieLegs d) _)).trans
    (.foldl (fun _ _ => ⟨_, _, _, _, _, rfl⟩) (dieLegs d) _)

theorem State.lightFreeze_sameSupply (s : State) : s.SameSupply s.lightFreeze := ⟨_, _, _, _, _, rfl⟩

/-- A die's filters that count anew write the records of its channels (R152). -/
theorem State.dieBack_frame (s : State) (d : Nat) : ∃ hs, s.dieBack d = { s with hs := hs } := by
  unfold State.dieBack
  induction dieHs d generalizing s with
  | nil => exact ⟨_, rfl⟩
  | cons n ns ih =>
    obtain ⟨hs, h⟩ := ih (s.setHs n { s.hsAt n with filtAt := s.tb })
    exact ⟨hs, h⟩

end Sys2Proof.Machine
end

section
/-! The obligation about the dies' conditions and junction shutdown (R151 to R153, R157). -/

namespace Sys2Proof.Machine

/-! ## Conditions of a die -/

section
variable {s : State} {die : Die}

theorem exec_undervoltageEntry (h : (s.dieAt (dieIdx die)).uv = false) : exec (.undervoltageEntry die) s =
    .next (((s.setDie (dieIdx die) { s.dieAt (dieIdx die) with uv := true, uvAt := s.tb }).dieReport (dieIdx die) 0).dieSettle (dieIdx die)) :=
  if_neg (by simp [h])

theorem exec_groundLoss (h : (s.dieAt (dieIdx die)).gndl = false) : exec (.groundLoss die) s =
    .next (((s.setDie (dieIdx die) { s.dieAt (dieIdx die) with gndl := true, gndAt := s.tb }).dieReport (dieIdx die) 2).dieSettle (dieIdx die)) :=
  if_neg (by simp [h])

/-- The gates of a die as a load dump freezes them (R151). -/
def State.dieFreeze (s : State) (d : Nat) : State :=
  let s := s.dieGates d
  if d = 1 then s.lightFreeze else s

theorem State.dieFreeze_sameSupply (s : State) (d : Nat) : s.SameSupply (s.dieFreeze d) := by
  unfold State.dieFreeze; dsimp only; split
  · exact (s.dieGates_sameSupply d).trans (State.lightFreeze_sameSupply _)
  · exact s.dieGates_sameSupply d

theorem exec_loadDumpEntry (h : (s.dieAt (dieIdx die)).ldump = false) : exec (.loadDumpEntry die) s =
    let w := s.dieFreeze (dieIdx die)
    .next (((w.setDie (dieIdx die) { w.dieAt (dieIdx die) with ldump := true, ldAt := w.tb }).dieReport (dieIdx die) 1).dieSettle (dieIdx die)) :=
  if_neg (by simp [h])

/-- A load dump records the die as it met it, with its tick (R151). -/
theorem loadDumpEntry_reports (h : (s.dieAt (dieIdx die)).ldump = false) :
    GivesThen (.loadDumpEntry die) s (fun u => u.dieSettle (dieIdx die)) fun u =>
      u.dieAt (dieIdx die) = { s.dieAt (dieIdx die) with ldump := true, ldAt := s.tb } ∧ (s.clocked .pwr = true →
        (∀ b, b < 3 → u.fstat (0x0F0 + 3 * dieIdx die + b) (2 + 1) = true) ∧ u.fstat 0x15C (1 + 1) = true ∧
        (dieIdx die = 1 → u.fstat 0x168 (7 + 1) = true ∧ u.fstat 0x170 (6 + 1) = true ∧ ∀ g, g < 4 → u.fstat (0x174 + g) (4 + 1) = true)) := by
  obtain ⟨hdies, htb, hclk⟩ := (s.dieFreeze_sameSupply (dieIdx die)).keeps
  refine ⟨_, exec_loadDumpEntry h, ?_⟩
  rw [State.dieAt_of_dies hdies, htb, ← hclk]
  exact dieReports _ _ (by decide)

theorem exec_undervoltageExit (h : (s.dieAt (dieIdx die)).uv = true) (ht : (s.dieAt (dieIdx die)).uvAt + 10000 ≤ s.tb) :
    exec (.undervoltageExit die) s =
      .next (((s.setDie (dieIdx die) { s.dieAt (dieIdx die) with uv := false }).dieBack (dieIdx die)).dieResume (dieIdx die) fun _ => false) :=
  (if_pos h).trans (if_pos ht)

theorem exec_groundRestored (h : (s.dieAt (dieIdx die)).gndl = true) (ht : (s.dieAt (dieIdx die)).gndAt + 100000 ≤ s.tb) :
    exec (.groundRestored die) s =
      .next (((s.setDie (dieIdx die) { s.dieAt (dieIdx die) with gndl := false }).dieBack (dieIdx die)).dieResume (dieIdx die) fun _ => false) :=
  (if_pos h).trans (if_pos ht)

/-- The end of a load dump lets go of the light, and of the die (R151). -/
def State.dumpOver (s : State) (d : Nat) : State :=
  let s := if d = 1 then { s with light := { s.light with frozen := none } } else s
  s.setDie d { s.dieAt d with ldump := false }

theorem State.dumpOver_shows (s : State) (d : Nat) : (s.dumpOver d).dieAt d = { s.dieAt d with ldump := false } ∧ (s.dumpOver d).regs = s.regs := by
  unfold State.dumpOver; dsimp only
  rw [State.dieAt_setDie_same]
  split <;> exact ⟨rfl, rfl⟩

theorem exec_loadDumpExit (h : (s.dieAt (dieIdx die)).ldump = true) (ht : (s.dieAt (dieIdx die)).ldAt + 10000 ≤ s.tb) :
    exec (.loadDumpExit die) s =
      let u := (s.dumpOver (dieIdx die)).dieResume (dieIdx die)
        fun n => ((dieHs (dieIdx die)).filter fun n => s.bit (hsPg n) R.HS.STAT.GATE).contains n
      .next (if dieIdx die = 1 then (u.sidePeakEnded 0).sidePeakEnded 1 else u) :=
  (if_pos h).trans (if_pos ht)

end

theorem reverseBattery_shows (s : State) : GivesThen .reverseBattery s (fun u => (u.dieSettle 0).dieSettle 1) fun u =>
    (u.dieAt 0).revb = true ∧ (u.dieAt 1).revb = true ∧ u.regs = s.regs ∧ u.raises = s.raises := by
  refine ⟨_, rfl, ?_, ?_, rfl, rfl⟩
  · rw [List.foldl_cons, List.foldl_cons, List.foldl_nil, State.dieAt_setDie_ne _ _ (by decide), State.dieAt_setDie_same]
  · rw [List.foldl_cons, List.foldl_cons, List.foldl_nil, State.dieAt_setDie_same]

theorem reverseBatteryEnd_shows {s : State} (h : (s.dieAt 0).revb = true ∨ (s.dieAt 1).revb = true) :
    GivesThen .reverseBatteryEnd s (fun u => (u.dieResume 0 fun _ => false).dieResume 1 fun _ => false) fun u =>
      (u.dieAt 0).revb = false ∧ (u.dieAt 1).revb = false ∧ u.regs = s.regs := by
  refine ⟨_, if_pos h, ?_⟩
  generalize hw : [0, 1].foldl (fun (t : State) d => t.setDie d { t.dieAt d with revb := false }) s = w
  obtain ⟨hs, h0⟩ := w.dieBack_frame 0
  obtain ⟨hs', h1⟩ := (w.dieBack 0).dieBack_frame 1
  have hdies : ((w.dieBack 0).dieBack 1).dies = w.dies := by rw [h1, h0]
  have hregs : ((w.dieBack 0).dieBack 1).regs = w.regs := by rw [h1, h0]
  rw [State.dieAt_of_dies hdies, State.dieAt_of_dies hdies, hregs, ← hw, List.foldl_cons, List.foldl_cons, List.foldl_nil]
  refine ⟨?_, ?_, rfl⟩
  · rw [State.dieAt_setDie_ne _ _ (by decide), State.dieAt_setDie_same]
  · rw [State.dieAt_setDie_same]

/-! ## Junction shutdown of a channel -/

/-- A channel that its junction shuts down (R151). -/
def State.hsShut (s : State) (n : Nat) : State := (s.setHs n { (s.hsAt n).suspend with tsd := true }).hsGateUpdate n

/-- TSD in the channel's bank, GANG on the other members (R157). -/
def State.hsShutShow (s : State) (n : Nat) : State :=
  ((s.hsUnit n).filter (· ≠ n)).foldl (fun t m => t.detect (hsPg m) 11) (s.detect (hsBank n) 5)

theorem exec_junctionShutdown_hs {s : State} (hclk : s.clocked .pwr = true) (n : Fin 48) : exec (.junctionShutdown (.hs n)) s =
    .next (((((s.hsShut n).hsShutShow n).hsLatchUnit n).count (hsPg n) 2).hsSettle n) := by
  change execJunctionShutdown (.hs n) s = _
  unfold execJunctionShutdown
  rw [hclk]
  rfl

theorem State.hsShut_keepsRegs (s : State) (n : Nat) : s.KeepsRegs (s.hsShut n) [0x11c, 0x48] :=
  ((KeepsRegs.setHs ..).trans (State.hsGateUpdate_keepsRegs ..)).mono (by simp)

theorem State.hsShutShow_keepsRegs (s : State) (n : Nat) : s.KeepsRegs (s.hsShutShow n) [0x11c, 0x48] :=
  (KeepsRegs.detect s (hsBank n) 5 (by simp)).trans (State.detects_keepsRegs (by simp) hsPg 11 _ _)

theorem State.hsShutShow_hs (s : State) (n : Nat) : (s.hsShutShow n).hs = s.hs := (State.detects_hs hsPg 11 _ _).trans (State.detect_hs ..)

theorem State.hsShut_tsd (s : State) (n : Nat) : ((s.hsShut n).hsAt n).tsd = true := by
  refine (((State.hsGateUpdate_keepsHs _ n).comp Hs.tsd).at_ n).trans ?_
  rw [State.hsAt_setHs_same]; rfl

theorem junctionShutdown_hs {s : State} (hclk : s.clocked .pwr = true) (n : Fin 48) :
    GivesThen (.junctionShutdown (.hs n)) s (fun u => u.hsSettle n) fun u =>
      (u.hsAt n).tsd = true ∧ u.fstat (hsBank n) 5 = true ∧ (∀ m ∈ s.hsUnit n, (u.hsAt m).latch = true) := by
  refine ⟨_, exec_junctionShutdown_hs hclk n, ?_, ?_, fun m hm => ?_⟩
  · rw [State.hsAt_of_hs (State.count_hs ..)]
    refine ((State.hsLatchUnit_keepsHs (f := Hs.tsd) (fun _ => rfl) (fun _ => rfl) _ n).at_ n).trans ?_
    rw [State.hsAt_of_hs (State.hsShutShow_hs ..)]
    exact s.hsShut_tsd n
  · rw [(State.KeepsRegs.count (offs := []) _ _ (by decide)).fstat (by simp), (State.hsLatchUnit_keepsRegs ..).fstat (by simp)]
    exact State.fstat_foldl_detect hsPg 11 _ (State.fstat_detect_same _ _ (by decide))
  · rw [State.hsAt_of_hs (State.count_hs ..)]
    refine (State.hsLatchUnit_latched _ ?_).1
    rwa [State.hsUnit_of_keepsRegs ((s.hsShut_keepsRegs n).trans (State.hsShutShow_keepsRegs ..)) (by simp)]

/-- A channel whose junction has cooled: its filters count anew, and its unit starts where its command has on-time (R151, R152). -/
def State.hsCool (s : State) (n : Nat) : State :=
  let s := s.setHs n { s.hsAt n with tsd := false, filtAt := s.tb }
  let l := s.hsLead n
  if s.clocked .pwr ∧ (s.hsAt l).cmd.onTime ∧ !s.hsBlocked l then s.hsActivate l else s

theorem State.hsCool_shows (s : State) (n : Nat) : ((s.hsCool n).hsAt n).tsd = false ∧ ((s.hsCool n).hsAt n).latch = (s.hsAt n).latch := by
  unfold State.hsCool; dsimp only
  split
  · have hkeep := State.hsActivate_keepsHs (f := fun h => (h.tsd, h.latch)) (fun _ => rfl) (fun _ _ => rfl)
      (s.setHs n { s.hsAt n with tsd := false, filtAt := s.tb }) ((s.setHs n { s.hsAt n with tsd := false, filtAt := s.tb }).hsLead n)
    have hat := hkeep.at_ n
    rw [State.hsAt_setHs_same] at hat
    exact Prod.mk.inj hat
  · rw [State.hsAt_setHs_same]; exact ⟨rfl, rfl⟩

theorem junctionShutdownExit_hs {s : State} {n : Fin 48} (h : (s.hsAt n).tsd = true) :
    GivesThen (.junctionShutdownExit (.hs n)) s (fun u => u.hsGateUpdate n) fun u =>
      (u.hsAt n).tsd = false ∧ (u.hsAt n).latch = (s.hsAt n).latch := ⟨s.hsCool n, if_pos h, s.hsCool_shows n⟩

/-! ## Junction shutdown of the other outputs -/

theorem mem_withElem (l : List Nat) (k : Nat) : k ∈ withElem l k true := by
  unfold withElem
  rw [if_pos rfl]
  split
  · next h => simpa using h
  · exact List.mem_append_right _ (List.mem_singleton_self k)

theorem not_mem_withElem (l : List Nat) (k : Nat) : k ∉ withElem l k false := by
  simp [withElem]

/-- A bit put into the matrix's latch register stays through the detection that goes with it (R212). -/
theorem latch_putBit_detect (s : State) {f : Fld} (hoff : f.off = 0x130) {k : Nat} (h : f.lo + k ≤ f.hi) (h2 : f.hi < 32) :
    (((s.putBit mxPg f k true).detect mxPg 4).reg 0x170 f.off).getLsbD (f.lo + k) = true ∧
      ((s.putBit mxPg f k true).detect mxPg 4).fstat 0x170 4 = true := by
  refine ⟨?_, State.fstat_detect_same _ mxPg (by decide)⟩
  rw [(State.KeepsRegs.detect (offs := [0x48]) _ mxPg 4 (by simp)).reg _ _ (by omega) (by simp [hoff])]
  exact s.putBit_getLsbD mxPg f h h2

theorem junctionShutdown_row {s : State} (hclk : s.clocked .pwr = true) (r : Fin 16) :
    GivesThen (.junctionShutdown (.row r)) s State.mxSettle fun u =>
      (u.reg 0x170 R.MX.LATCH.ROW.off).getLsbD (R.MX.LATCH.ROW.lo + r.val) = true ∧ u.fstat 0x170 4 = true ∧ r.val ∈ u.light.tsdRows := by
  obtain ⟨hbit, hstat⟩ := latch_putBit_detect { s with light := { s.light with tsdRows := withElem s.light.tsdRows r true } }
    (f := R.MX.LATCH.ROW) rfl (k := r) (by simp; omega) (by decide)
  refine ⟨_, if_pos hclk, hbit, hstat, ?_⟩
  rw [State.detect_light, State.putBit, State.setFld_light]
  exact mem_withElem ..

theorem junctionShutdown_col {s : State} (hclk : s.clocked .pwr = true) (c : Fin 16) :
    GivesThen (.junctionShutdown (.col c)) s State.mxSettle fun u =>
      (u.reg 0x170 R.MX.LATCH.COL.off).getLsbD (R.MX.LATCH.COL.lo + c.val) = true ∧ u.fstat 0x170 4 = true ∧ c.val ∈ u.light.tsdCols := by
  obtain ⟨hbit, hstat⟩ := latch_putBit_detect { s with light := { s.light with tsdCols := withElem s.light.tsdCols c true } }
    (f := R.MX.LATCH.COL) rfl (k := c) (by simp; omega) (by decide)
  refine ⟨_, if_pos hclk, hbit, hstat, ?_⟩
  rw [State.detect_light, State.putBit, State.setFld_light]
  exact mem_withElem ..

theorem State.ambAt_setAmb_same (s : State) (g : Nat) (v : Amb) : (s.setAmb g v).ambAt g = v := tget_tset_same ..

theorem junctionShutdown_amb {s : State} (hclk : s.clocked .pwr = true) (g : Fin 4) :
    GivesThen (.junctionShutdown (.amb g)) s (fun u => u.ambSettle g) fun u =>
      u.bit (ambPg g) R.AMB.STAT.LATCH = true ∧ u.fstat (ambPg g) 1 = true ∧ (u.ambAt g).tsd = true := by
  refine ⟨_, if_pos hclk, ?_, State.fstat_detect_same _ _ (by decide), ?_⟩
  · rw [(State.KeepsRegs.detect (offs := [0x48]) _ _ 1 (by simp)).bit _ (by decide) (by decide)]
    exact State.bit_setBit_same _ _ _ true rfl (by decide)
  · rw [State.ambAt, State.detect_ambs, State.setBit_ambs]
    exact congrArg Amb.tsd (State.ambAt_setAmb_same ..)

theorem State.legAt_setLeg_same (s : State) (l : Nat) (v : Leg) : (s.setLeg l v).legAt l = v := tget_tset_same ..

theorem junctionShutdown_leg {s : State} (hclk : s.clocked .pwr = true) (l : Fin 28) :
    GivesThen (.junctionShutdown (.leg l)) s (fun u => u.latchLegs l l) fun u => (u.legAt l).tsd = true ∧ u.fstat (legPg l) 10 = true := by
  refine ⟨_, if_pos hclk, ?_, State.fstat_detect_same _ _ (by decide)⟩
  rw [State.legAt, State.detect_legs]
  exact congrArg Leg.tsd (State.legAt_setLeg_same ..)

theorem State.valveAt_setValve_same (s : State) (n : Nat) (v : Valve) : (s.setValve n v).valveAt n = v := by
  unfold State.setValve State.valveAt
  simp only [State.setBit_valves, State.setFld_valves, tget_tset_same]

theorem junctionShutdown_vl {s : State} (hclk : s.clocked .pwr = true) (n : Fin 8) :
    GivesThen (.junctionShutdown (.vl n)) s (fun u => if u.enabled (vlPg n) then u.vlFault n 3 else u.vlSettle n)
      fun u => (u.valveAt n).tsd = true := by
  refine ⟨s.setValve n { s.valveAt n with tsd := true }, ?_, congrArg Valve.tsd (State.valveAt_setValve_same ..)⟩
  change execJunctionShutdown (.vl n) s = _
  unfold execJunctionShutdown
  simp only [hclk, true_and]
  split <;> rfl

theorem State.sideAt_setSide_tsd (s : State) (b : Nat) (v : Side) : ((s.setSide b v).sideAt b).tsd = v.tsd := by
  unfold State.setSide State.sideAt
  simp only [State.setBit_sides, State.setFld_sides, tget_tset_same]

theorem junctionShutdown_side {s : State} (hclk : s.clocked .pwr = true) (b : Fin 2) :
    GivesThen (.junctionShutdown (.side b)) s (fun u => u.sideFault b (5 + b.val)) fun u => (u.sideAt b).tsd = true :=
  ⟨_, if_pos hclk, State.sideAt_setSide_tsd ..⟩

/-- Settles O33: each condition by its report, each hot spot by what its shutdown latches. -/
theorem supplyAndJunction : Obligations.SupplyAndJunction := by
  unfold Obligations.SupplyAndJunction
  refine ⟨fun s die => ⟨fun h => ⟨_, exec_undervoltageEntry h, dieReports _ _ (by decide)⟩, loadDumpEntry_reports,
    fun h => ⟨_, exec_groundLoss h, dieReports _ _ (by decide)⟩, fun h => ⟨if_pos h, exec_undervoltageExit h⟩,
    fun h => ⟨if_pos h, fun ht => ⟨_, exec_loadDumpExit h ht, s.dumpOver_shows _⟩⟩, fun h => ⟨if_pos h, exec_groundRestored h⟩,
    reverseBattery_shows s, reverseBatteryEnd_shows⟩, fun s hclk => ?_⟩
  refine ⟨fun n => ⟨junctionShutdown_hs hclk n, junctionShutdownExit_hs⟩,
    fun r => ⟨junctionShutdown_row hclk r, _, rfl, not_mem_withElem _ _, rfl⟩,
    fun g => ⟨junctionShutdown_amb hclk g, _, rfl, congrArg Amb.tsd (State.ambAt_setAmb_same ..), rfl⟩, junctionShutdown_col hclk, junctionShutdown_leg hclk,
    junctionShutdown_vl hclk, junctionShutdown_side hclk, fun l => ⟨_, rfl, congrArg Leg.tsd (State.legAt_setLeg_same ..)⟩, fun c => ⟨_, rfl, not_mem_withElem _ _, rfl⟩,
    fun n => ⟨_, rfl, congrArg Valve.tsd (State.valveAt_setValve_same ..)⟩, fun b => ⟨_, rfl, State.sideAt_setSide_tsd ..⟩⟩

end Sys2Proof.Machine
end

section
/-! Clearing a latch, and the windows of a channel (R119, R122, R140). -/

namespace Sys2Proof.Machine

/-! ## Clearing a latch -/

/-- A record whose latch is cleared (R140). -/
def Hs.unlatched (h : Hs) : Hs := { h with latch := false }

theorem State.hsUnlatch_eq (s : State) (n : Nat) : s.hsUnlatch n = s.editHs Hs.unlatched (s.hsUnit n) := rfl

/-- A unit's latch cleared, and the write answered (R58, R140). -/
def State.hsCleared (s : State) (n : Nat) : State := (s.hsUnlatch n).ok (hsPg n)

theorem State.hsCleared_keepsRegs (s : State) (n : Nat) : s.KeepsRegs (s.hsCleared n) [0x44] := by
  rw [State.hsCleared, State.hsUnlatch_eq]
  exact (KeepsRegs.of_regs (State.editHs_regs ..) _).trans (State.keepsRegs_ok _ _ (by simp))

theorem State.hsCleared_latch (s : State) {n m : Nat} (hm : m ∈ s.hsUnit n) : ((s.hsCleared n).hsAt m).latch = false := by
  obtain ⟨h, hh⟩ := State.hsAt_editHs_of_mem (g := Hs.unlatched) s hm
  rw [State.hsCleared, State.hsAt_of_hs (State.ok_hs ..), State.hsUnlatch_eq, hh]
  rfl

/-- The members of a unit that are latched. -/
theorem State.hsAnyLatch_iff (s : State) (n : Nat) : ((s.hsUnit n).any fun m => (s.hsAt m).latch) = true ↔ ∃ m ∈ s.hsUnit n, (s.hsAt m).latch = true :=
  List.any_eq_true

section
variable {s : State} {n : Fin 48}

/-- CLR and CLRR act where the page is not locked, on the leader of a unit that is latched (R125, R140). -/
theorem State.hsClrBase_clears (hlock : s.locked (hsPg n) = false) (hlead : s.hsLead n = n) (hlat : ∃ m ∈ s.hsUnit n, (s.hsAt m).latch = true)
    (after : State → State) : s.hsClrBase n after = (after (s.hsCleared n)).hsSettle n := by
  rw [State.hsClrBase, (s.hsAnyLatch_iff n).2 hlat, hlock, if_neg (by simp [hlead])]
  rfl

theorem State.hsClrBase_refused (h : ¬ (s.locked (hsPg n) = false ∧ s.hsLead n = n) ∨ ¬ ∃ m ∈ s.hsUnit n, (s.hsAt m).latch = true)
    (after : State → State) : s.hsClrBase n after = s.refuse (hsPg n) := by
  rw [State.hsClrBase]
  refine if_pos ?_
  rw [← s.hsAnyLatch_iff n] at h
  by_cases hlock : s.locked (hsPg n) = true
  · exact .inl hlock
  · by_cases hlead : s.hsLead n = n
    · exact .inr (.inr (by simpa [hlock, hlead] using h))
    · exact .inr (.inl hlead)

theorem exec_hsClr (hclk : s.clocked .pwr = true) : exec (.hsClr n) s = .next (s.hsClrBase n id) := if_pos hclk

/-- What CLRR adds to CLR: a RECOVER window where the entry allows retries (R119). -/
def State.hsRecover (s : State) (n : Nat) : State :=
  if 1 ≤ s.palFld (s.hsPal n) R.PAL.RETRY.N ∧ !s.winIs n then s.winOpen n 3 else s

theorem exec_clrr (hclk : s.clocked .pwr = true) : exec (.clrr n) s = .next (s.hsClrBase n fun t => t.hsRecover n) := if_pos hclk

end

/-! ## Opening a window -/

/-- An opened window shows its kind, and no retry (R119). -/
theorem State.winOpen_shows (s : State) (n : Nat) {kind : Nat} (hkind : kind < 4) :
    (s.winOpen n kind).fld (hsPg n) R.HS.STAT.WKIND = kind ∧ (s.winOpen n kind).fld (hsPg n) R.HS.STAT.RCNT = 0 := by
  have hcount : ((s.setFld (hsPg n) R.HS.STAT.WKIND kind).setFld (hsPg n) R.HS.STAT.RCNT 0).KeepsRegs (s.winOpen n kind) [] := .count _ _ (by decide)
  rw [hcount.fld _ (by decide) (by decide), hcount.fld _ (by decide) (by decide)]
  constructor
  · rw [State.fld_setFld_apart _ _ _ (by simp)]
    exact State.fld_setFld_fits _ _ _ _ (by decide) (by decide) (by simpa using hkind)
  · exact State.fld_setFld_fits _ _ _ _ (by decide) (by decide) (by decide)

theorem State.winIs_iff (s : State) (n : Nat) : s.winIs n = true ↔ s.fld (hsPg n) R.HS.STAT.WKIND ≠ 0 := decide_eq_true_iff

/-- CLRR opens a RECOVER window where its entry allows retries and no window is open, and leaves the window otherwise (R119). -/
theorem State.hsRecover_shows (s : State) (n : Nat) :
    (s.palFld (s.hsPal n) R.PAL.RETRY.N ≠ 0 → s.fld (hsPg n) R.HS.STAT.WKIND = 0 →
      (s.hsRecover n).fld (hsPg n) R.HS.STAT.WKIND = 3 ∧ (s.hsRecover n).fld (hsPg n) R.HS.STAT.RCNT = 0) ∧
    (s.palFld (s.hsPal n) R.PAL.RETRY.N = 0 → s.hsRecover n = s) := by
  constructor
  · intro hN hwin
    rw [State.hsRecover, if_pos ⟨Nat.one_le_iff_ne_zero.2 hN, by simp [State.winIs, hwin]⟩]
    exact s.winOpen_shows n (by decide)
  · intro hN
    exact if_neg (by simp [hN])

theorem State.hsRecover_hs (s : State) (n : Nat) : (s.hsRecover n).hs = s.hs := by
  unfold State.hsRecover
  split
  · exact State.winOpen_hs ..
  · rfl

section
variable {s : State} {n : Fin 48} (hclk : s.clocked .pwr = true)
include hclk

theorem hsClr_clears (hlock : s.locked (hsPg n) = false) (hlead : s.hsLead n = n) (hlat : ∃ m ∈ s.hsUnit n, (s.hsAt m).latch = true) :
    GivesThen (.hsClr n) s (fun u => u.hsSettle n) fun u =>
      (∀ m ∈ s.hsUnit n, (u.hsAt m).latch = false) ∧ u.code (hsPg n) = 0 ∧ u.reg (hsPg n) 0x048 = s.reg (hsPg n) 0x048 :=
  ⟨s.hsCleared n, (exec_hsClr hclk).trans (congrArg _ (State.hsClrBase_clears hlock hlead hlat id)), fun _ hm => s.hsCleared_latch hm,
    State.code_ok .., (s.hsCleared_keepsRegs n).reg _ _ (by decide) (by decide)⟩

theorem clrr_clears (hlock : s.locked (hsPg n) = false) (hlead : s.hsLead n = n) (hlat : ∃ m ∈ s.hsUnit n, (s.hsAt m).latch = true) :
    GivesThen (.clrr n) s (fun u => u.hsSettle n) fun u =>
      (∀ m ∈ s.hsUnit n, (u.hsAt m).latch = false) ∧
      (s.palFld (s.hsPal n) R.PAL.RETRY.N ≠ 0 → s.fld (hsPg n) R.HS.STAT.WKIND = 0 →
        u.fld (hsPg n) R.HS.STAT.WKIND = 3 ∧ u.fld (hsPg n) R.HS.STAT.RCNT = 0) ∧
      (s.palFld (s.hsPal n) R.PAL.RETRY.N = 0 → u.fld (hsPg n) R.HS.STAT.WKIND = s.fld (hsPg n) R.HS.STAT.WKIND) := by
  have hkeep := s.hsCleared_keepsRegs n
  have hpal : (s.hsCleared n).hsPal n = s.hsPal n := hkeep.fld _ (by decide) (by decide)
  have hlt := s.hsPal_lt n
  have hN : (s.hsCleared n).palFld ((s.hsCleared n).hsPal n) R.PAL.RETRY.N = s.palFld (s.hsPal n) R.PAL.RETRY.N := by
    rw [hpal]; exact hkeep.fld 0x130 (by simp; omega) (by simp; omega)
  have hwin : (s.hsCleared n).fld (hsPg n) R.HS.STAT.WKIND = s.fld (hsPg n) R.HS.STAT.WKIND := hkeep.fld _ (by decide) (by decide)
  obtain ⟨hopen, hleave⟩ := (s.hsCleared n).hsRecover_shows n
  rw [hN] at hopen hleave
  rw [hwin] at hopen
  refine ⟨(s.hsCleared n).hsRecover n, (exec_clrr hclk).trans (congrArg _ (State.hsClrBase_clears hlock hlead hlat _)), fun m hm => ?_, hopen,
    fun h => ?_⟩
  · rw [State.hsAt_of_hs (State.hsRecover_hs ..)]; exact s.hsCleared_latch hm
  · rw [hleave h, hwin]

end

/-! ## A TEST window -/

/-- A write of HS.WIN that takes effect (R119). -/
def State.hsWinWrite (s : State) (n kind len : Nat) : State :=
  ((s.setFld (hsPg n) R.HS.WIN.KIND kind).setFld (hsPg n) R.HS.WIN.LEN len).ok (hsPg n)

theorem State.hsWinWrite_keepsRegs (s : State) (n kind len : Nat) : s.KeepsRegs (s.hsWinWrite n kind len) [0x118, 0x44] :=
  ((KeepsRegs.setFld s (hsPg n) R.HS.WIN.KIND kind (by simp) (by simp)).trans (.setFld _ (hsPg n) R.HS.WIN.LEN len (by simp) (by simp))).trans
    (State.keepsRegs_ok _ _ (by simp))

theorem State.hsWinWrite_frame (s : State) (n kind len : Nat) : ∃ rg, s.hsWinWrite n kind len = { s with regs := rg } := ⟨_, rfl⟩

/-- A TEST window with its length (R119). -/
def State.testOpened (s : State) (n len : Nat) : State :=
  let u := (s.hsWinWrite n 2 len).winOpen n 2
  u.setHs n { u.hsAt n with testEnd := some (u.tb + len * 100000) }

theorem exec_testWindowOpen {s : State} (hclk : s.clocked .pwr = true) (n : Fin 48) (len : BitVec 16) : exec (.testWindowOpen n len) s =
    .next (if s.locked (hsPg n) then s.refuse (hsPg n) else if len.toNat = 0 then s.range (hsPg n)
      else if s.winIs n ∨ (s.hsUnit n).any (fun m => (s.hsAt m).latch) ∨ s.hsLead n ≠ n then s.refuse (hsPg n)
      else s.testOpened n len.toNat) := by
  change execTestWindowOpen n len s = _
  unfold execTestWindowOpen
  dsimp only
  rw [hclk, if_neg (by decide)]
  split
  · rfl
  · split
    · rfl
    · split <;> rfl

theorem State.winOpen_tb (s : State) (n kind : Nat) : (s.winOpen n kind).tb = s.tb := by
  simp only [State.winOpen, State.count_tb, State.setFld_tb]

theorem State.testOpened_shows (s : State) (n len : Nat) : (s.testOpened n len).fld (hsPg n) R.HS.STAT.WKIND = 2 ∧
    (s.testOpened n len).fld (hsPg n) R.HS.STAT.RCNT = 0 ∧ ((s.testOpened n len).hsAt n).testEnd = some (s.tb + len * 100000) ∧
    (s.testOpened n len).code (hsPg n) = 0 := by
  obtain ⟨hkind, hrcnt⟩ := (s.hsWinWrite n 2 len).winOpen_shows n (kind := 2) (by decide)
  unfold State.testOpened
  refine ⟨(State.fld_setHs ..).trans hkind, (State.fld_setHs ..).trans hrcnt, ?_, (State.fld_setHs ..).trans ?_⟩
  · have htb : (s.hsWinWrite n 2 len).tb = s.tb := rfl
    rw [State.hsAt_setHs_same, State.winOpen_tb, htb]
  · rw [(State.winOpen_keepsRegs ..).fld _ (by decide) (by decide)]
    exact State.code_ok ..

theorem toNat_ne_zero_of_ne {len : BitVec 16} (h : len ≠ 0) : len.toNat ≠ 0 := fun h0 => h (BitVec.eq_of_toNat_eq h0)

/-! ## Closing a window -/

theorem exec_windowClose {s : State} (hclk : s.clocked .pwr = true) (n : Fin 48) (len : BitVec 16) : exec (.windowClose n len) s =
    .next (if s.locked (hsPg n) then s.refuse (hsPg n) else if s.hsLead n ≠ n then s.refuse (hsPg n)
      else (s.hsWinWrite n 0 len.toNat).winStop n 3) := by
  change execWindowClose n len s = _
  unfold execWindowClose
  dsimp only
  rw [hclk, if_neg (by decide)]
  split
  · rfl
  · split <;> rfl

theorem State.winStop_of_retry {s : State} {n : Nat} (h : (s.hsAt n).retryEnd ≠ none) (code : Nat) :
    s.winStop n code = ((s.hsLatchUnit n).count (hsPg n) 2).hsSettle n := if_pos (Option.isSome_iff_ne_none.2 h)

theorem State.winStop_of_no_retry {s : State} {n : Nat} (h : (s.hsAt n).retryEnd = none) (code : Nat) : s.winStop n code = s.winClose n code :=
  if_neg (by simp [h])

/-- A window's end posts event 118 (R123). -/
theorem State.winClose_posts {s : State} {n : Nat} (h : s.fld (hsPg n) R.HS.STAT.WKIND ≠ 0) (code : Nat) :
    s.posting 118 ∈ (s.winClose n code).postings := by
  have hpost (u : State) (hu : s.KeepsRegs u [0x11c]) : s.posting 118 ∈ (u.post 118).postings := by
    rw [State.post_postings, hu.posting (by decide)]
    exact List.mem_append_right _ (List.mem_singleton_self _)
  have hend := s.winEnd_keepsRegs n code
  rw [State.winClose_of_open h, State.winTell]
  split
  · exact hpost _ (hend.trans (.count _ _ (by decide)))
  · exact hpost _ hend

theorem State.winClose_testEnd {s : State} {n : Nat} (h : s.fld (hsPg n) R.HS.STAT.WKIND ≠ 0) (code : Nat) :
    ((s.winClose n code).hsAt n).testEnd = none := by
  rw [State.winClose_of_open h, State.hsAt_of_hs (State.winTell_hs ..), State.winEnd, State.hsAt_setHs_same]

end Sys2Proof.Machine
end

section
/-! The window commands, and the ends of windows, retry intervals and envelopes (R115, R119, R120, R122). -/

namespace Sys2Proof.Machine

/-! ## Breakpoints -/

/-- The breakpoint to come (R115). -/
def State.hsNextBp (s : State) (l a : Nat) : Nat :=
  ((List.range (s.hsNbp l)).find? fun k =>
    s.tb < a + s.hsBpT l k || (s.tb == a + s.hsBpT l k && (s.hsAt l).bpSeen ≤ k)).getD (s.hsNbp l - 1)

/-- A breakpoint is counted, and the last one closes a START or RECOVER window (R115, R119). -/
def State.hsBpStep (s : State) (l a next : Nat) : State :=
  if s.tb < a + s.hsEnvEnd l then s.setHs l { s.hsAt l with bpSeen := next + 1 }
  else if s.fld (hsPg l) R.HS.STAT.WKIND = 1 ∨ s.fld (hsPg l) R.HS.STAT.WKIND = 3 then s.winClose l 1 else s

/-- The breakpoint to come is one of the entry's (R115). -/
theorem State.hsNextBp_lt {s : State} {l : Nat} (h : s.hsNbp l ≠ 0) (a : Nat) : s.hsNextBp l a < s.hsNbp l := by
  unfold State.hsNextBp
  cases hf : (List.range (s.hsNbp l)).find? fun k =>
      s.tb < a + s.hsBpT l k || (s.tb == a + s.hsBpT l k && (s.hsAt l).bpSeen ≤ k) with
  | none => simp only [Option.getD_none]; omega
  | some k => exact List.mem_range.1 (List.mem_of_find?_eq_some hf)

/-! ## The commands of a window -/

section
variable {s : State} {n : Fin 48} {len : BitVec 16} (hclk : s.clocked .pwr = true)
include hclk

theorem testWindowOpen_opens (hlock : s.locked (hsPg n) = false) (hlead : s.hsLead n = n)
    (hlat : ¬ ∃ m ∈ s.hsUnit n, (s.hsAt m).latch = true) (hwin : s.fld (hsPg n) R.HS.STAT.WKIND = 0) (hlen : len ≠ 0) :
    Gives (.testWindowOpen n len) s fun t => t.fld (hsPg n) R.HS.STAT.WKIND = 2 ∧ t.fld (hsPg n) R.HS.STAT.RCNT = 0 ∧
      (t.hsAt n).testEnd = some (s.tb + len.toNat * 100000) ∧ t.code (hsPg n) = 0 := by
  refine ⟨_, ?_, s.testOpened_shows n len.toNat⟩
  rw [exec_testWindowOpen hclk, hlock, if_neg (by decide), if_neg (toNat_ne_zero_of_ne hlen), if_neg]
  rw [s.winIs_iff, s.hsAnyLatch_iff]
  simp only [hwin, ne_eq, not_true_eq_false, hlead, or_false, false_or]
  exact hlat

/-- A TEST window is refused while one is open, with a latch, and off the leader (R122). -/
theorem testWindowOpen_refused (hlen : len ≠ 0) (h : ((∃ m ∈ s.hsUnit n, (s.hsAt m).latch = true) ∨ s.fld (hsPg n) R.HS.STAT.WKIND ≠ 0) ∨
    s.hsLead n ≠ n) : Refused (.testWindowOpen n len) s (hsPg n) := by
  have hnot : s.winIs n = true ∨ ((s.hsUnit n).any fun m => (s.hsAt m).latch) = true ∨ s.hsLead n ≠ n := by
    rw [s.winIs_iff, s.hsAnyLatch_iff]
    rcases h with (hlat | hwin) | hlead
    · exact .inr (.inl hlat)
    · exact .inl hwin
    · exact .inr (.inr hlead)
  rw [Refused, exec_testWindowOpen hclk, if_neg (toNat_ne_zero_of_ne hlen), if_pos hnot, ite_self]

theorem testWindowOpen_locked (hlock : s.locked (hsPg n) = true) : Refused (.testWindowOpen n len) s (hsPg n) := by
  rw [Refused, exec_testWindowOpen hclk, if_pos hlock]

theorem testWindowOpen_range (hlock : s.locked (hsPg n) = false) (hlen : len = 0) :
    exec (.testWindowOpen n len) s = .next (s.range (hsPg n)) := by
  rw [exec_testWindowOpen hclk, hlock, if_neg (by decide), if_pos (by rw [hlen]; rfl)]

theorem windowClose_refused (h : ¬ (s.locked (hsPg n) = false ∧ s.hsLead n = n)) : Refused (.windowClose n len) s (hsPg n) := by
  rw [Refused, exec_windowClose hclk]
  by_cases hlock : s.locked (hsPg n) = true
  · rw [if_pos hlock]
  · rw [if_neg hlock, if_pos fun hlead => h ⟨by simpa using hlock, hlead⟩]

section
variable (hlock : s.locked (hsPg n) = false) (hlead : s.hsLead n = n)
include hlock hlead

theorem exec_windowClose_stops : exec (.windowClose n len) s = .next ((s.hsWinWrite n 0 len.toNat).winStop n 3) := by
  rw [exec_windowClose hclk, hlock, if_neg (by decide), if_neg (not_not.2 hlead)]

/-- With no window open a close changes none (R122). -/
theorem windowClose_of_closed (hretry : (s.hsAt n).retryEnd = none) (hwin : s.fld (hsPg n) R.HS.STAT.WKIND = 0) :
    Gives (.windowClose n len) s fun t =>
      t.code (hsPg n) = 0 ∧ t.fld (hsPg n) R.HS.STAT.WKIND = 0 ∧ t.hs = s.hs ∧ t.postings = s.postings := by
  have hwin' : (s.hsWinWrite n 0 len.toNat).fld (hsPg n) R.HS.STAT.WKIND = 0 :=
    ((s.hsWinWrite_keepsRegs n 0 len.toNat).fld _ (by decide) (by decide)).trans hwin
  refine ⟨s.hsWinWrite n 0 len.toNat, ?_, State.code_ok .., hwin', rfl, rfl⟩
  rw [exec_windowClose_stops hclk hlock hlead, State.winStop_of_no_retry (s := s.hsWinWrite n 0 len.toNat) hretry,
    State.winClose_of_closed hwin']

/-- An open window closes at once (R122, R123). -/
theorem windowClose_closes (hretry : (s.hsAt n).retryEnd = none) (hwin : s.fld (hsPg n) R.HS.STAT.WKIND ≠ 0) :
    Gives (.windowClose n len) s fun t => t.fld (hsPg n) R.HS.STAT.WKIND = 0 ∧ t.fld (hsPg n) R.HS.STAT.WEND = 3 ∧
      t.code (hsPg n) = 0 ∧ s.posting 118 ∈ t.postings := by
  have hkeep := s.hsWinWrite_keepsRegs n 0 len.toNat
  have hwin' : (s.hsWinWrite n 0 len.toNat).fld (hsPg n) R.HS.STAT.WKIND ≠ 0 := by rwa [hkeep.fld _ (by decide) (by decide)]
  obtain ⟨hkind, hend⟩ := State.winClose_shows hwin' (code := 3) (by decide)
  refine ⟨_, (exec_windowClose_stops hclk hlock hlead).trans (congrArg _ (State.winStop_of_no_retry (s := s.hsWinWrite n 0 len.toNat) hretry 3)), hkind, hend, ?_, ?_⟩
  · exact ((State.winClose_keepsRegs ..).fld _ (by decide) (by decide)).trans (State.code_ok ..)
  · rw [← hkeep.posting (by decide)]
    exact State.winClose_posts hwin' 3

/-- In a retry interval a close latches the unit (R122). -/
theorem windowClose_latches (hretry : (s.hsAt n).retryEnd ≠ none) :
    GivesThen (.windowClose n len) s (fun u => u.hsSettle n) fun u => (u.hsAt n).latch = true := by
  refine ⟨_, (exec_windowClose_stops hclk hlock hlead).trans (congrArg _ (State.winStop_of_retry (s := s.hsWinWrite n 0 len.toNat) hretry 3)), ?_⟩
  exact (congrArg Hs.latch (State.hsAt_of_hs (State.count_hs ..) n)).trans (State.hsLatchUnit_latched _ (State.mem_hsUnit ..)).1

end

/-! ## Ends -/

section
variable {d : Nat} (hd : d ≤ s.tb)
include hd

/-- A TEST window that expires ends with success (R119). -/
theorem testWindowExpiry_ends (hend : (s.hsAt n).testEnd = some d) (hwin : s.fld (hsPg n) R.HS.STAT.WKIND = 2)
    (hretry : (s.hsAt n).retryEnd = none) : Gives (.testWindowExpiry n) s fun t =>
      t.fld (hsPg n) R.HS.STAT.WKIND = 0 ∧ t.fld (hsPg n) R.HS.STAT.WEND = 1 ∧ (t.hsAt n).testEnd = none := by
  have hopen : s.fld (hsPg n) R.HS.STAT.WKIND ≠ 0 := by rw [hwin]; decide
  obtain ⟨hkind, hcode⟩ := State.winClose_shows hopen (code := 1) (by decide)
  refine ⟨_, ?_, hkind, hcode, State.winClose_testEnd hopen 1⟩
  change execTestWindowExpiry n s = _
  unfold execTestWindowExpiry
  simp only [hend, hclk, hwin, and_self, if_true, State.atTick, hd, State.winStop_of_no_retry hretry]

/-- A retry interval that has ended (R120). -/
def State.retryOver (s : State) (l : Nat) : State := (s.setHs l { s.hsAt l with retryEnd := none }).setBit (hsPg l) R.HS.STAT.RETRY false

omit hclk hd in
theorem State.retryOver_shows (s : State) (l : Nat) : ((s.retryOver l).hsAt l).retryEnd = none ∧ (s.retryOver l).bit (hsPg l) R.HS.STAT.RETRY = false := by
  unfold State.retryOver
  refine ⟨?_, State.bit_setBit_same _ _ _ false rfl (by decide)⟩
  rw [State.hsAt_of_hs (State.setBit_hs ..), State.hsAt_setHs_same]

theorem retryIntervalEnd_settles (hretry : (s.hsAt (s.hsLead n)).retryEnd = some d) : GivesThen (.retryIntervalEnd n) s (fun u =>
      if ((u.hsSettle (s.hsLead n)).hsAt (s.hsLead n)).cmd.onTime then u.hsSettle (s.hsLead n)
      else (u.hsSettle (s.hsLead n)).winClose (s.hsLead n) 3) fun u =>
    (u.hsAt (s.hsLead n)).retryEnd = none ∧ u.bit (hsPg (s.hsLead n)) R.HS.STAT.RETRY = false := by
  refine ⟨_, ?_, s.retryOver_shows _⟩
  change execRetryIntervalEnd n s = _
  unfold execRetryIntervalEnd
  dsimp only
  rw [hretry]
  dsimp only
  rw [hclk, if_neg (by decide), State.atTick, if_pos hd]
  rfl

end

theorem exec_envelopeBreakpoint {a : Nat} (hlead : s.hsLead n = n) (hact : (s.hsAt n).act = some a) (hnbp : s.hsNbp n ≠ 0) :
    exec (.envelopeBreakpoint n) s = s.atTick (a + s.hsBpT n (s.hsNextBp n a)) fun t => t.hsBpStep n a (s.hsNextBp n a) := by
  change execEnvelopeBreakpoint n s = _
  unfold execEnvelopeBreakpoint
  dsimp only
  rw [hlead, hact]
  dsimp only
  rw [if_neg (by simp [hnbp, hclk])]
  rfl

section
variable {d : Nat} (hlead : s.hsLead n = n) (hact : (s.hsAt n).act = some d)
include hlead hact

/-- At the last breakpoint an open START or RECOVER window closes with success (R115, R119). -/
theorem exec_envelopeBreakpoint_last (hnbp : s.hsNbp n ≠ 0) (hpast : ∀ k, k < s.hsNbp n → d + s.hsBpT n k ≤ s.tb) :
    exec (.envelopeBreakpoint n) s =
      .next (if s.fld (hsPg n) R.HS.STAT.WKIND = 1 ∨ s.fld (hsPg n) R.HS.STAT.WKIND = 3 then s.winClose n 1 else s) := by
  have hend : ¬ s.tb < d + s.hsEnvEnd n := by
    rw [State.hsEnvEnd, if_neg hnbp]
    exact Nat.not_lt.2 (hpast _ (by omega))
  rw [exec_envelopeBreakpoint hclk hlead hact hnbp, State.atTick, if_pos (hpast _ (State.hsNextBp_lt hnbp d)), State.hsBpStep, if_neg hend]

/-- The first breakpoint is reported at its tick (R115). -/
theorem envelopeBreakpoint_first (hbefore : s.tb < d + s.hsBpT n 0) (hinner : s.hsBpT n 0 < s.hsEnvEnd n)
    (hcomes : s.tickComes (d + s.hsBpT n 0) = true) : Gives (.envelopeBreakpoint n) s fun t =>
      t.tb = d + s.hsBpT n 0 ∧ (t.hsAt n).bpSeen = 1 ∧ (t.hsAt n).act = some d ∧ t.regs = s.regs := by
  have hnbp : s.hsNbp n ≠ 0 := fun h0 => by rw [State.hsEnvEnd, if_pos h0] at hinner; omega
  have hnext : s.hsNextBp n d = 0 := by
    obtain ⟨m, hm⟩ := Nat.exists_eq_succ_of_ne_zero hnbp
    rw [State.hsNextBp, hm, List.range_succ_eq_map, List.find?_cons_of_pos (by simp [hbefore])]
    rfl
  have hstep : State.hsBpStep { s with tb := d + s.hsBpT n 0 } n d 0 =
      State.setHs { s with tb := d + s.hsBpT n 0 } n { s.hsAt n with bpSeen := 1 } := if_pos (Nat.add_lt_add_left hinner d)
  have hexec : exec (.envelopeBreakpoint n) s = .next (State.hsBpStep { s with tb := d + s.hsBpT n 0 } n d 0) := by
    rw [exec_envelopeBreakpoint hclk hlead hact hnbp, hnext, State.atTick, if_neg (Nat.not_le.2 hbefore), if_pos hcomes]
  refine ⟨_, hexec.trans (congrArg _ hstep), rfl, ?_, ?_, rfl⟩
  · exact congrArg Hs.bpSeen (State.hsAt_setHs_same ..)
  · exact (congrArg Hs.act (State.hsAt_setHs_same ..)).trans hact

end

end

end Sys2Proof.Machine
end

section
/-! Live writes, the patterns of R98, and the edges of the generators. -/

namespace Sys2Proof.Machine

/-! ## Live writes -/

/-- A live command that is stored and answered (R31, R58). -/
def State.liveStored (s : State) (pg : Nat) (f : Fld) (d : Word) : State := (s.setFld pg f (f.get d)).ok pg

theorem State.liveStored_shows (s : State) (pg : Nat) {f : Fld} (d : Word) (h : f.lo ≤ f.hi) (h2 : f.hi < 32) (hoff : f.off = 0x100) :
    (s.liveStored pg f d).fld pg f = f.get d ∧ (s.liveStored pg f d).code pg = 0 ∧ (s.liveStored pg f d).mem = s.mem := by
  refine ⟨?_, State.code_ok .., by simp only [State.liveStored, State.ok_mem, State.setFld_mem]⟩
  rw [State.liveStored, (State.keepsRegs_ok _ pg (offs := [0x44]) (by simp)).fld pg (by omega) (by simp [hoff])]
  exact State.fld_setFld_fits _ _ _ _ h h2 (Fld.get_lt f d h h2)

/-- A write of a live command: refused on a locked page, or stored, with what the output does then (R31, R61). -/
theorem liveWrites {s : State} {w : Writer} {o : OutReg} {d : Word} {pg : Nat} {f : Fld} {g : State → State}
    (hexec : exec (.liveOutputWrite w o d) s = .next (s.outWrite o d)) (hlocked : s.locked pg = true → s.outWrite o d = s.refuse pg)
    (hfree : s.locked pg = false → s.outWrite o d = g (s.liveStored pg f d)) (h : f.lo ≤ f.hi) (h2 : f.hi < 32) (hoff : f.off = 0x100) :
    (s.locked pg = false → GivesThen (.liveOutputWrite w o d) s g fun u => u.fld pg f = f.get d ∧ u.code pg = 0 ∧ u.mem = s.mem) ∧
    (s.locked pg = true → Refused (.liveOutputWrite w o d) s pg) :=
  ⟨fun hl => ⟨s.liveStored pg f d, hexec.trans (congrArg _ (hfree hl)), s.liveStored_shows pg d h h2 hoff⟩,
    fun hl => hexec.trans (congrArg _ (hlocked hl))⟩

section
variable {s : State} {w : Writer} {d : Word} (hclk : s.clocked .pwr = true)
include hclk

theorem exec_liveOutputWrite_pwr {o : OutReg} (ho : o ≠ .pxc) : exec (.liveOutputWrite w o d) s = .next (s.outWrite o d) :=
  if_pos (by rw [if_neg ho]; exact hclk)

theorem liveOutputWrite_hs (n : Fin 48) :
    (s.locked (hsPg n) = false → GivesThen (.liveOutputWrite w (.hs n) d) s (fun u => u.hsSettle n) fun u =>
      u.fld (hsPg n) R.HS.OUT.ON = R.HS.OUT.ON.get d ∧ u.code (hsPg n) = 0 ∧ u.mem = s.mem) ∧
    (s.locked (hsPg n) = true → Refused (.liveOutputWrite w (.hs n) d) s (hsPg n)) :=
  liveWrites (exec_liveOutputWrite_pwr hclk (by simp)) (fun h => if_pos h) (fun h => if_neg (by simp [h])) (by decide) (by decide) rfl

theorem liveOutputWrite_vl (n : Fin 8) :
    (s.locked (vlPg n) = false → GivesThen (.liveOutputWrite w (.vl n) d) s (fun u => u.vlSettle n) fun u =>
      u.fld (vlPg n) R.VL.OUT.ON = R.VL.OUT.ON.get d ∧ u.code (vlPg n) = 0 ∧ u.mem = s.mem) ∧
    (s.locked (vlPg n) = true → Refused (.liveOutputWrite w (.vl n) d) s (vlPg n)) :=
  liveWrites (exec_liveOutputWrite_pwr hclk (by simp)) (fun h => if_pos h) (fun h => if_neg (by simp [h])) (by decide) (by decide) rfl

theorem liveOutputWrite_amb (g : Fin 4) :
    (s.locked (ambPg g) = false → GivesThen (.liveOutputWrite w (.amb g) d) s (fun u => u.ambSettle g) fun u =>
      u.fld (ambPg g) R.AMB.OUT.ON = R.AMB.OUT.ON.get d ∧ u.code (ambPg g) = 0 ∧ u.mem = s.mem) ∧
    (s.locked (ambPg g) = true → Refused (.liveOutputWrite w (.amb g) d) s (ambPg g)) :=
  liveWrites (exec_liveOutputWrite_pwr hclk (by simp)) (fun h => if_pos h) (fun h => if_neg (by simp [h])) (by decide) (by decide) rfl

theorem liveOutputWrite_mx :
    (s.locked mxPg = false → GivesThen (.liveOutputWrite w .mx d) s State.mxSettle fun u =>
      u.fld mxPg R.MX.OUT.RUN = R.MX.OUT.RUN.get d ∧ u.code mxPg = 0 ∧ u.mem = s.mem) ∧
    (s.locked mxPg = true → Refused (.liveOutputWrite w .mx d) s mxPg) :=
  liveWrites (exec_liveOutputWrite_pwr hclk (by simp)) (fun h => if_pos h) (fun h => if_neg (by simp [h])) (by decide) (by decide) rfl

/-- An IO channel that is an output, mode 4 (R224). -/
theorem liveOutputWrite_io {n : Fin 16} (hmode : s.ioMode n = 4) :
    (s.locked (ioPg n) = false → GivesThen (.liveOutputWrite w (.io n) d) s (fun u => u.ioSettle n) fun u =>
      u.fld (ioPg n) R.IO.OUT.ON = R.IO.OUT.ON.get d ∧ u.code (ioPg n) = 0 ∧ u.mem = s.mem) ∧
    (s.locked (ioPg n) = true → Refused (.liveOutputWrite w (.io n) d) s (ioPg n)) :=
  liveWrites (exec_liveOutputWrite_pwr hclk (by simp)) (fun h => if_pos h)
    (fun h => (if_neg (by simp [h])).trans (if_neg (not_not.2 hmode))) (by decide) (by decide) rfl

theorem liveOutputWrite_io_refused {n : Fin 16} (hmode : s.ioMode n ≠ 4) : Refused (.liveOutputWrite w (.io n) d) s (ioPg n) := by
  refine (exec_liveOutputWrite_pwr hclk (by simp)).trans (congrArg _ ?_)
  by_cases h : s.locked (ioPg n) = true
  · exact if_pos h
  · exact (if_neg h).trans (if_pos hmode)

end

/-- What a write of PXC.OUT stores (R205, R206). -/
def State.pxStored (s : State) (d : Word) : State :=
  let was := s.bit pxPg R.PXC.OUT.RUN
  let s := s.liveStored pxPg R.PXC.OUT.RUN d
  if was then s else { s with light := { s.light with pxFirst := true, pxMism := 0 } }

theorem liveOutputWrite_pxc {s : State} {w : Writer} {d : Word} (hclk : s.clocked .io = true) :
    (s.locked pxPg = false → GivesThen (.liveOutputWrite w .pxc d) s State.swapIdle fun u =>
      u.fld pxPg R.PXC.OUT.RUN = R.PXC.OUT.RUN.get d ∧ u.code pxPg = 0 ∧ u.mem = s.mem) ∧
    (s.locked pxPg = true → Refused (.liveOutputWrite w .pxc d) s pxPg) := by
  have hexec : exec (.liveOutputWrite w .pxc d) s = .next (s.outWrite .pxc d) := if_pos hclk
  refine ⟨fun h => ⟨s.pxStored d, hexec.trans (congrArg _ (if_neg (by simp [h]))), ?_⟩, fun h => hexec.trans (congrArg _ (if_pos h))⟩
  have hstored := s.liveStored_shows pxPg d (f := R.PXC.OUT.RUN) (by decide) (by decide) rfl
  unfold State.pxStored
  dsimp only
  split
  · exact hstored
  · exact hstored

theorem liveOutputWrite_of_stopped {s : State} {w : Writer} {o : OutReg} {d : Word}
    (h : s.clocked (if o = .pxc then .io else .pwr) = false) : exec (.liveOutputWrite w o d) s = .next s := if_neg (by simp [h])

/-! ## The patterns of R98 -/

/-- A pattern of on-time `on` is on from each tick congruent to the offset, for its on-time (R98). -/
theorem pwm_onWindow {p on : Nat} (hp : 0 < p) (hon : on ≤ p) (φ t : Nat) :
    (t + p - φ % p) % p < on ↔ ∃ k, k < on ∧ t % p = (φ + k) % p := by
  have hr : φ % p < p := Nat.mod_lt φ hp
  have hadd : t + p - φ % p + φ % p = t + p := by omega
  constructor
  · intro h
    refine ⟨_, h, ?_⟩
    have hφ : φ + (t + p - φ % p) % p ≡ φ % p + (t + p - φ % p) [MOD p] :=
      (Nat.mod_modEq φ p).symm.add (Nat.mod_modEq _ p)
    rw [Nat.add_comm (φ % p), hadd] at hφ
    exact (hφ.trans (Nat.add_mod_right t p)).symm
  · rintro ⟨k, hk, ht⟩
    have hmod : t + p - φ % p ≡ k [MOD p] := by
      refine Nat.ModEq.add_right_cancel' (φ % p) ?_
      rw [hadd, Nat.add_comm k]
      exact (Nat.add_mod_right t p).trans (ht.trans ((Nat.mod_modEq φ p).symm.add_right k))
    rw [hmod, Nat.mod_eq_of_lt (by omega)]
    exact hk

/-- The on-time of a duty below 0xFFFF lies within the period (R98). -/
theorem pwmOn_le {p d : Nat} (hd : d < 0xFFFF) : pwmOn p d ≤ p := by
  unfold pwmOn
  exact Nat.div_le_of_le_mul (Nat.mul_le_mul_right p (by omega))

theorem levelAt_pwm {p ph d t : Nat} (hp : 0 < p) (hd : d < 0xFFFF) :
    OutCmd.levelAt (.pwm p ph d) t = true ↔ ∃ k, k < d * p / 65536 ∧ t % p = (ph * p / 65536 + k) % p := by
  unfold OutCmd.levelAt
  dsimp only
  by_cases h0 : d = 0
  · subst h0; simp
  · rw [if_neg h0, if_neg (by omega), decide_eq_true_iff]
    exact pwm_onWindow hp (pwmOn_le hd) _ _

/-! ## The edges of the generators -/

theorem State.hsDiagUpdate_keeps {s : State} {n : Nat} : ((s.hsDiagUpdate n).hsAt n).tsd = (s.hsAt n).tsd ∧
    ((s.hsDiagUpdate n).hsAt n).gen = (s.hsAt n).gen :=
  ⟨((s.hsDiagUpdate_keepsHs n).comp Hs.tsd).at_ n, ((s.hsDiagUpdate_keepsHs n).comp Hs.gen).at_ n⟩

/-- An update of a gate shows the gate command (R111). -/
theorem State.hsGateUpdate_gate (s : State) (n : Nat) :
    (s.hsGateUpdate n).bit (hsPg n) R.HS.STAT.GATE = (s.hsDiagUpdate n).hsGate n := by
  unfold State.hsGateUpdate
  dsimp only
  split
  · next h => exact h.symm
  · exact State.bit_setBit_same _ _ _ _ rfl (by decide)

/-- With segments in service, no condition of R29 and the clock running, the generator commands the gate (R29, R111, R112). -/
theorem State.hsGate_of_free {s : State} {n : Nat} (hclk : s.clocked .pwr = true) (hseg : s.fld (hsPg n) R.HS.SEG.NSEG ≠ 0)
    (hdie : (s.dieAt (hsDie n)).any = false) (htsd : (s.hsAt n).tsd = false) (hwait : s.diesWait = false) :
    s.hsGate n = ((s.hsAt n).gen.at s.tb).levelAt s.tb := by
  simp only [DieSt.any, Bool.or_eq_false_iff] at hdie
  obtain ⟨⟨⟨huv, hld⟩, hgnd⟩, hrev⟩ := hdie
  simp [State.hsGate, DieSt.off, hrev, huv, hgnd, hld, htsd, hwait, hseg, hclk]

theorem pwmPeriodEdge_hs {s : State} {n : Fin 48} (hclk : s.clocked .pwr = true)
    (hedge : (s.hsAt n).gen.edgeTick s.tb (s.bit (hsPg n) R.HS.STAT.GATE) ≤ s.tb) (hseg : s.fld (hsPg n) R.HS.SEG.NSEG ≠ 0)
    (hdie : (s.dieAt (hsDie n)).any = false) (htsd : (s.hsAt n).tsd = false) (hwait : s.diesWait = false) :
    Gives (.pwmPeriodEdge (.hs n)) s fun t =>
      t.bit (hsPg n) R.HS.STAT.GATE = ((s.hsAt n).gen.at s.tb).levelAt s.tb ∧ t.tb = s.tb := by
  have hexec : exec (.pwmPeriodEdge (.hs n)) s = .next (s.hsGateUpdate n) := (if_neg (by simp [hclk])).trans (if_pos hedge)
  obtain ⟨hs, rg, hframe⟩ := s.hsGateUpdate_frame n
  obtain ⟨hs', hdiag⟩ := s.hsDiagUpdate_frame n
  obtain ⟨htsd', hgen⟩ := s.hsDiagUpdate_keeps (n := n)
  refine ⟨_, hexec, ?_, by rw [hframe]⟩
  rw [State.hsGateUpdate_gate, State.hsGate_of_free, hgen, hdiag]
  · rw [hdiag]; exact hclk
  · rw [hdiag]; exact hseg
  · rw [hdiag]; exact hdie
  · rw [htsd', htsd]
  · rw [hdiag]; exact hwait

theorem pwmPeriodEdge_bridge {s : State} {k : Fin 14} (hclk : s.clocked .pwr = true)
    (hedge : (s.bridgeAt k).gen.edgeTick s.tb (s.legAt (if (s.bridgeAt k).applied matches .rev _ then s.legB k else s.legA k)).want.1 ≤ s.tb) :
    exec (.pwmPeriodEdge (.bridge k)) s = .next ((s.legUpdate (s.legA k)).legUpdate (s.legB k)) :=
  (if_neg (by simp [hclk])).trans (if_pos hedge)

/-- The duties of an ambient group from a period start on (R99, R208). -/
def State.ambDuties (s : State) (g : Nat) : Nat × Nat × Nat :=
  match (s.ambAt g).uNext with
  | some (u, t) => if t ≤ s.tb then u else (s.ambAt g).u
  | none => (s.ambAt g).u

/-- The record of an ambient group with the duties that have come into effect (R99). -/
def State.ambTaken (s : State) (g : Nat) : Amb :=
  match (s.ambAt g).uNext with
  | some (u, t) => if t ≤ s.tb then { s.ambAt g with u := u, uNext := none } else s.ambAt g
  | none => s.ambAt g

theorem State.ambTaken_u (s : State) (g : Nat) : (s.ambTaken g).u = s.ambDuties g := by
  unfold State.ambTaken State.ambDuties
  cases (s.ambAt g).uNext with
  | none => rfl
  | some e => dsimp only; split <;> rfl

/-- A period start of an ambient group: its record takes the duties and the derating factor, its page shows them (R204, R208). -/
theorem State.ambEdge_eq (s : State) (g : Nat) : s.ambEdge g =
    let v := { s.ambTaken g with phi := s.fld mxPg R.MX.STAT.PHI }
    (((s.setAmb g v).setFld (ambPg g) R.AMB.APPRG.R v.u.1).setFld (ambPg g) R.AMB.APPRG.G v.u.2.1).setFld (ambPg g) R.AMB.APPB.B v.u.2.2 := rfl

theorem State.ambEdge_shows (s : State) (g : Nat) : (s.ambEdge g).fld (ambPg g) R.AMB.APPRG.R = (s.ambDuties g).1 % 2 ^ 12 ∧
    (s.ambEdge g).fld (ambPg g) R.AMB.APPRG.G = (s.ambDuties g).2.1 % 2 ^ 12 ∧ (s.ambEdge g).fld (ambPg g) R.AMB.APPB.B = (s.ambDuties g).2.2 % 2 ^ 12 ∧
    ((s.ambEdge g).ambAt g).u = s.ambDuties g ∧ ((s.ambEdge g).ambAt g).phi = s.fld mxPg R.MX.STAT.PHI := by
  have hat : (s.ambEdge g).ambAt g = { s.ambTaken g with phi := s.fld mxPg R.MX.STAT.PHI } := by
    rw [State.ambEdge_eq, State.ambAt, State.setFld_ambs, State.setFld_ambs, State.setFld_ambs]
    exact State.ambAt_setAmb_same ..
  rw [← State.ambTaken_u, hat]
  refine ⟨?_, ?_, ?_, rfl, rfl⟩ <;> rw [State.ambEdge_eq]
  · rw [State.fld_setFld_apart _ _ _ (by simp), State.fld_setFld_apart _ _ _ (by simp)]
    exact State.fld_setFld_same _ _ _ _ (by decide) (by decide)
  · rw [State.fld_setFld_apart _ _ _ (by simp)]
    exact State.fld_setFld_same _ _ _ _ (by decide) (by decide)
  · exact State.fld_setFld_same _ _ _ _ (by decide) (by decide)

theorem exec_pwmPeriodEdge_amb {s : State} {g : Fin 4} (hclk : s.clocked .pwr = true) (hon : ((s.ambAt g).gen.at s.tb).onTime = true)
    (hstart : (s.ambAt g).gen.nextStart s.tb ≤ s.tb) : exec (.pwmPeriodEdge (.amb g)) s = .next (s.ambEdge g) :=
  (if_neg (by simp [hclk])).trans ((if_pos hon).trans (if_pos hstart))

/-- A valve whose chopper regulates takes edges (R182, R183). -/
theorem State.vlChop_of_runs {s : State} {n : Nat} (hclk : s.clocked .pwr = true) (hphase : (s.valveAt n).phase = .hold ∨ (s.valveAt n).phase = .pkhold)
    (hld : (s.dieAt 1).ldump = false) (hheld : s.vlHeld n = false) (i : Nat) : s.vlChop n i =
      if (s.valveAt n).chopOn then
        if s.vlTarget n ≤ i then .next (s.setValve n { s.valveAt n with chopOn := false })
        else s.atTick ((s.vlGen n).nextStart ((s.valveAt n).chopStart.getD s.tb + 1) - 100) fun s => s.setValve n { s.valveAt n with chopOn := false }
      else s.atTick (s.vlNextStart n) fun s => s.setValve n { s.valveAt n with chopOn := true, chopStart := some s.tb } := by
  refine if_neg ?_
  rcases hphase with h | h <;> simp [State.vlRuns, h, hclk, hld, hheld]

theorem exec_pwmPeriodEdge_valve {s : State} (hclk : s.clocked .pwr = true) (n : Fin 8) (i : Nat) :
    exec (.pwmPeriodEdge (.valve n i)) s = s.vlChop n i := if_neg (by simp [hclk])

theorem State.setValve_tb (s : State) (n : Nat) (v : Valve) : (s.setValve n v).tb = s.tb := rfl

section
variable {s : State} {n : Fin 8} {i : Nat} (hclk : s.clocked .pwr = true)
  (hphase : (s.valveAt n).phase = .hold ∨ (s.valveAt n).phase = .pkhold) (hld : (s.dieAt 1).ldump = false) (hheld : s.vlHeld n = false)
include hclk hphase hld hheld

/-- The chopper turns off as the current reaches its target (R183). -/
theorem pwmPeriodEdge_valve_off (hon : (s.valveAt n).chopOn = true) (hi : s.vlTarget n ≤ i) : Gives (.pwmPeriodEdge (.valve n i)) s fun t =>
    (t.valveAt n).chopOn = false ∧ (t.valveAt n).phase = (s.valveAt n).phase ∧ t.tb = s.tb := by
  refine ⟨_, (exec_pwmPeriodEdge_valve hclk n i).trans ((State.vlChop_of_runs hclk hphase hld hheld i).trans ((if_pos hon).trans (if_pos hi))), ?_, ?_, State.setValve_tb ..⟩
  · exact (congrArg Valve.chopOn (State.valveAt_setValve_same ..)).trans (by rfl)
  · exact (congrArg Valve.phase (State.valveAt_setValve_same ..)).trans (by rfl)

/-- It turns on at a period start (R183). -/
theorem pwmPeriodEdge_valve_on (hoff : (s.valveAt n).chopOn = false) (hstart : s.vlNextStart n ≤ s.tb) : Gives (.pwmPeriodEdge (.valve n i)) s fun t =>
    (t.valveAt n).chopOn = true ∧ (t.valveAt n).chopStart = some s.tb ∧ (t.valveAt n).phase = (s.valveAt n).phase := by
  refine ⟨_, (exec_pwmPeriodEdge_valve hclk n i).trans ((State.vlChop_of_runs hclk hphase hld hheld i).trans ((if_neg (by simp [hoff])).trans (if_pos hstart))), ?_, ?_, ?_⟩
  · exact (congrArg Valve.chopOn (State.valveAt_setValve_same ..)).trans (by rfl)
  · exact (congrArg Valve.chopStart (State.valveAt_setValve_same ..)).trans (by rfl)
  · exact (congrArg Valve.phase (State.valveAt_setValve_same ..)).trans (by rfl)

end

/-- Settles O30: the window commands by the page's lock, the leader and the latch; the ends by their ticks; the live writes by their
output; the patterns by arithmetic modulo the period. -/
theorem channelCommands : Obligations.ChannelCommands := by
  unfold Obligations.ChannelCommands
  refine ⟨fun s n hclk => ⟨?_, ?_, fun len => ?_⟩, fun s n d hd hclk => ⟨testWindowExpiry_ends hclk hd, retryIntervalEnd_settles hclk hd, ?_, ?_⟩,
    fun s w d => ⟨fun hclk => ?_, liveOutputWrite_pxc, fun o => liveOutputWrite_of_stopped⟩,
    ⟨fun p ph d t hp _ hd => levelAt_pwm hp hd, fun _ _ _ => rfl, fun s n hclk hedge hseg hdie htsd hwait _ =>
      pwmPeriodEdge_hs hclk hedge hseg hdie htsd hwait⟩, fun s hclk => ?_⟩
  · exact fun ⟨hlock, hlead⟩ hlat => ⟨hsClr_clears hclk hlock hlead hlat, clrr_clears hclk hlock hlead hlat⟩
  · exact fun h => ⟨(exec_hsClr hclk).trans (congrArg _ (State.hsClrBase_refused h id)),
      (exec_clrr hclk).trans (congrArg _ (State.hsClrBase_refused h _))⟩
  · refine ⟨fun ⟨hlock, hlead⟩ => testWindowOpen_opens hclk hlock hlead, fun _ h hlen => testWindowOpen_refused hclk hlen (.inl h), ?_,
      testWindowOpen_range hclk, windowClose_refused hclk, fun ⟨hlock, hlead⟩ => windowClose_of_closed hclk hlock hlead,
      fun ⟨hlock, hlead⟩ => windowClose_closes hclk hlock hlead, fun ⟨hlock, hlead⟩ => windowClose_latches hclk hlock hlead⟩
    rintro (hlock | ⟨hlen, hlead⟩)
    · exact testWindowOpen_locked hclk hlock
    · exact testWindowOpen_refused hclk hlen (.inr hlead)
  · intro hlead hact hnbp hpast
    have hexec := exec_envelopeBreakpoint_last hclk hlead hact hnbp hpast
    refine ⟨fun hwin => ?_, fun hwin => hexec.trans (congrArg _ (if_neg (by simp [hwin])))⟩
    exact ⟨_, hexec.trans (congrArg _ (if_pos hwin)), State.winClose_shows (by omega) (by decide)⟩
  · exact fun hlead hact => envelopeBreakpoint_first hclk hlead hact
  · exact ⟨liveOutputWrite_hs hclk, liveOutputWrite_vl hclk, fun n => liveOutputWrite_io hclk, fun n => liveOutputWrite_io_refused hclk,
      liveOutputWrite_amb hclk, liveOutputWrite_mx hclk⟩
  · refine ⟨fun k => pwmPeriodEdge_bridge hclk, fun g hon hstart => ⟨_, exec_pwmPeriodEdge_amb hclk hon hstart, s.ambEdge_shows g⟩,
      fun n i hphase hld hheld => ⟨pwmPeriodEdge_valve_off hclk hphase hld hheld, pwmPeriodEdge_valve_on hclk hphase hld hheld⟩⟩

end Sys2Proof.Machine
end

section
/-! The collector's raise of one source: counting, the log, FIRST, and the united reactions. -/

namespace Sys2Proof.Machine

/-! ## Registers of one page -/

/-- `t` has the registers of `s` but for those of page `pg` at the offsets `offs`. -/
structure State.KeepsOff (s t : State) (pg : Nat) (offs : List Nat) : Prop where
  reg : ∀ pg' off, off < 0x1000 → (pg' = pg → off ∉ offs) → t.reg pg' off = s.reg pg' off

namespace State.KeepsOff

variable {s t u : State} {pg : Nat} {offs : List Nat}

theorem of_regs (h : t.regs = s.regs) (pg : Nat) (offs : List Nat) : s.KeepsOff t pg offs :=
  ⟨fun pg' off _ _ => State.reg_of_regs h pg' off⟩

theorem trans (h : s.KeepsOff t pg offs) (h' : t.KeepsOff u pg offs) : s.KeepsOff u pg offs :=
  ⟨fun pg' off hlt hn => (h'.reg pg' off hlt hn).trans (h.reg pg' off hlt hn)⟩

theorem setReg (s : State) (pg : Nat) {off : Nat} (w : Word) (hm : off ∈ offs) (hlt : off < 0x1000) : s.KeepsOff (s.setReg pg off w) pg offs :=
  ⟨fun pg' off' hoff hn => State.reg_setReg_ne s _ (regKey_ne hoff hlt (by
    by_cases hpg : pg' = pg
    · exact .inr fun e => hn hpg (e ▸ hm)
    · exact .inl hpg))⟩

theorem setFld (s : State) (pg : Nat) (f : Fld) (v : Nat) (hm : f.off ∈ offs) (hlt : f.off < 0x1000) : s.KeepsOff (s.setFld pg f v) pg offs :=
  setReg s pg _ hm hlt

theorem fld (h : s.KeepsOff t pg offs) {pg' : Nat} {f : Fld} (hlt : f.off < 0x1000) (hn : pg' = pg → f.off ∉ offs) :
    t.fld pg' f = s.fld pg' f := by
  rw [State.fld, State.fld, h.reg pg' f.off hlt hn]

theorem bit (h : s.KeepsOff t pg offs) {pg' : Nat} {f : Fld} (hlt : f.off < 0x1000) (hn : pg' = pg → f.off ∉ offs) :
    t.bit pg' f = s.bit pg' f := by
  rw [State.bit, State.bit, h.fld hlt hn]

theorem coreExists (h : s.KeepsOff t pg offs) (hpg : (0x02A : Nat) ≠ pg) (n : Nat) : t.coreExists n = s.coreExists n := by
  rw [State.coreExists, State.coreExists, h.fld (by decide) fun e => absurd e hpg]

theorem posting (h : s.KeepsOff t pg offs) (hpg : (0x02A : Nat) ≠ pg) (ev : Nat) : t.posting ev = s.posting ev := by
  simp only [State.posting, funext (h.coreExists hpg)]

theorem scfgFld (h : s.KeepsOff t fltPg offs) {src : Nat} (hsrc : src < 256) (f : Nat → Fld) : t.scfgFld src f = s.scfgFld src f := by
  have hreg : t.reg (0x011 + src / 64) (0x100 + 4 * (src % 64)) = s.reg (0x011 + src / 64) (0x100 + 4 * (src % 64)) :=
    h.reg _ _ (by omega) fun e => by simp only [fltPg] at e; omega
  simp only [State.scfgFld, State.scfg, hreg]

end State.KeepsOff

/-- A count on a source's counter page leaves every register outside that page. -/
theorem State.reg_count_page (s : State) {pg pg' : Nat} {i off : Nat} (hi : i < 64) (hoff : off < 0x1000) (h : pg' ≠ pg) :
    (s.count pg i).reg pg' off = s.reg pg' off := by
  unfold State.count
  split
  · split
    · exact State.reg_setReg_ne s _ (regKey_ne hoff (by simp; omega) (.inl h))
    · rfl
  · rfl

/-- The counters of the fault collector's pages count, saturating (R62, R357). -/
theorem State.fld_count_source (s : State) {src : Nat} (h : src < 256) :
    (s.count (0x016 + src / 64) (src % 64)).fld (0x016 + src / 64) (R.PG_CNT (src % 64)) =
      min 0xFFFFFFFF (s.fld (0x016 + src / 64) (R.PG_CNT (src % 64)) + 1) := by
  have hrun : ∀ q < 4, (pageRun (0x016 + q)).any (·.counters) = true := by decide
  have hq := hrun (src / 64) (by omega)
  unfold State.count
  split
  next r hr =>
    rw [if_pos (by simpa [hr] using hq), State.fld_setFld_fits]
    all_goals simp
  next hr => simp [hr] at hq

/-! ## One source is raised -/

/-- The collector's log and FIRST once an entry is taken by the log (`logs`) and by FIRST (`first`) (R371). -/
def Flt.logged (f : Flt) (logs first : Prop) [Decidable logs] [Decidable first] (e : LogEnt) : Flt :=
  { f with log := if logs then f.log ++ [e] else f.log, first := if first ∧ f.first.isNone then some e else f.first }

/-- The source's bit of FLT.RAISED is set. -/
def State.setRaised (s : State) (src : Nat) : State :=
  s.setReg fltPg (R.FLT.RAISED.R (src / 32)).off (s.reg fltPg (R.FLT.RAISED.R (src / 32)).off ||| (1 <<< (src % 32)))

/-- A raise with room in the log. -/
theorem State.raiseOne_eq {s : State} {src : Nat} (hsrc : src < 256) (sev : Nat) (det : Word) (hlog : s.flt.log.length < 64) :
    s.raiseOne src sev det =
      ({ s.count (0x016 + src / 64) (src % 64) with
        flt := (s.count (0x016 + src / 64) (src % 64)).flt.logged (s.fld fltPg R.FLT.CFG.LOGSEV ≤ sev) (2 ≤ sev) ⟨s.tb, src, sev, det⟩ }).setRaised src := by
  have hsev : (s.count (0x016 + src / 64) (src % 64)).fld fltPg R.FLT.CFG.LOGSEV = s.fld fltPg R.FLT.CFG.LOGSEV := by
    rw [State.fld, State.fld, State.reg_count_page s (by omega) (by decide) (by simp only [fltPg]; omega)]
  have hflt : (s.count (0x016 + src / 64) (src % 64)).flt = s.flt := State.count_flt ..
  rw [← hflt] at hlog
  unfold State.raiseOne State.logPut Flt.logged State.setRaised
  by_cases h1 : s.fld fltPg R.FLT.CFG.LOGSEV ≤ sev <;>
    by_cases h2 : 2 ≤ sev ∧ (s.count (0x016 + src / 64) (src % 64)).flt.first.isNone = true <;>
    simp only [hsev, if_pos hlog, h1, h2, if_true, if_false, and_self]

theorem State.keepsOff_setRaised (s : State) {src : Nat} (h : src < 256) :
    s.KeepsOff (s.setRaised src) fltPg [0x114 + 4 * (src / 32)] :=
  State.KeepsOff.setReg s fltPg _ (by simp) (by simp; omega)

theorem State.raised_setRaised (s : State) (src : Nat) : (s.setRaised src).raised src = true := by
  rw [State.raised, State.setRaised, State.reg_setReg_same, BitVec.getLsbD_or, bitMask_getLsbD (by omega), Bool.or_true]

/-- A raise leaves every register outside the counters but FLT.RAISED. -/
theorem State.reg_raiseOne {s : State} {src : Nat} (hsrc : src < 256) (sev : Nat) (det : Word) (hlog : s.flt.log.length < 64) {pg off : Nat}
    (hoff : off < 0x1000) (hpg : pg ≠ 0x016 + src / 64) (h : pg = fltPg → off ≠ 0x114 + 4 * (src / 32)) :
    (s.raiseOne src sev det).reg pg off = s.reg pg off := by
  rw [State.raiseOne_eq hsrc sev det hlog, (State.keepsOff_setRaised _ hsrc).reg pg off hoff (by simpa using h)]
  exact State.reg_count_page s (by omega) hoff hpg

theorem State.scfgFld_raiseOne {s : State} {src : Nat} (hsrc : src < 256) (sev : Nat) (det : Word) (hlog : s.flt.log.length < 64)
    (f : Nat → Fld) : (s.raiseOne src sev det).scfgFld src f = s.scfgFld src f := by
  have hreg : (s.raiseOne src sev det).reg (0x011 + src / 64) (0x100 + 4 * (src % 64)) = s.reg (0x011 + src / 64) (0x100 + 4 * (src % 64)) :=
    State.reg_raiseOne hsrc sev det hlog (by omega) (by omega) (by simp only [fltPg]; omega)
  simp only [State.scfgFld, State.scfg, hreg]

/-- What a raise leaves beside the registers. -/
theorem State.raiseOne_keeps {s : State} {src : Nat} (hsrc : src < 256) (sev : Nat) (det : Word) (hlog : s.flt.log.length < 64) :
    (s.raiseOne src sev det).postings = s.postings ∧ (s.raiseOne src sev det).nmts = s.nmts ∧
      (s.raiseOne src sev det).lcMap = s.lcMap ∧ (s.raiseOne src sev det).kaNow = s.kaNow ∧
      (s.raiseOne src sev det).flt.comp = s.flt.comp ∧ (s.raiseOne src sev det).flt.arunAt = s.flt.arunAt := by
  rw [State.raiseOne_eq hsrc sev det hlog]
  refine ⟨State.count_postings .., State.count_nmts .., State.count_lcMap .., ?_, ?_, ?_⟩
  · simp [State.kaNow, State.setRaised]
  · simp [Flt.logged, State.setRaised]
  · simp [Flt.logged, State.setRaised]

/-- What the collector shows of a source it has taken: RAISED, the log, FIRST and the counter; `rest` is still on its way. -/
def State.Taken (s t : State) (rest : List Cause) (src sev : Nat) (det : Word) : Prop :=
  t.raised src = true ∧ t.raises = rest ∧
    t.flt.log = (if s.fld fltPg R.FLT.CFG.LOGSEV ≤ sev then s.flt.log ++ [⟨s.tb, src, sev, det⟩] else s.flt.log) ∧
    t.flt.first = (if 2 ≤ sev ∧ s.flt.first = none then some ⟨s.tb, src, sev, det⟩ else s.flt.first) ∧
    t.fld (0x016 + src / 64) (R.PG_CNT (src % 64)) = min 0xFFFFFFFF (s.fld (0x016 + src / 64) (R.PG_CNT (src % 64)) + 1)

theorem State.taken_raiseOne {s : State} {src : Nat} (hsrc : src < 256) (sev : Nat) (det : Word) (hlog : s.flt.log.length < 64) :
    s.Taken (s.raiseOne src sev det) s.raises src sev det := by
  have hflt : (s.raiseOne src sev det).flt =
      (s.count (0x016 + src / 64) (src % 64)).flt.logged (s.fld fltPg R.FLT.CFG.LOGSEV ≤ sev) (2 ≤ sev) ⟨s.tb, src, sev, det⟩ := by
    rw [State.raiseOne_eq hsrc sev det hlog]; rfl
  rw [State.count_flt] at hflt
  refine ⟨?_, ?_, ?_, ?_, ?_⟩
  · rw [State.raiseOne_eq hsrc sev det hlog, State.raised_setRaised]
  · rw [State.raiseOne_eq hsrc sev det hlog]
    exact State.count_raises ..
  · rw [hflt]; rfl
  · rw [hflt]; simp only [Flt.logged, Option.isNone_iff_eq_none]
  · rw [State.raiseOne_eq hsrc sev det hlog,
      (State.keepsOff_setRaised _ hsrc).fld (by simp; omega) (by simp only [fltPg]; omega)]
    exact State.fld_count_source s hsrc

/-- What a reaction writes in the collector's status registers, 0x104 and 0x10C, is nothing of what a source taken shows. -/
theorem State.Taken.keeps {s t u : State} {rest : List Cause} {src sev : Nat} {det : Word} (h : s.Taken t rest src sev det) (hsrc : src < 256)
    (hk : t.KeepsOff u fltPg [0x104, 0x10c]) (hraises : u.raises = t.raises) (hlog : u.flt.log = t.flt.log) (hfirst : u.flt.first = t.flt.first) :
    s.Taken u rest src sev det := by
  obtain ⟨h1, h2, h3, h4, h5⟩ := h
  refine ⟨?_, hraises.trans h2, hlog.trans h3, hfirst.trans h4, ?_⟩
  · rw [State.raised, hk.reg fltPg _ (by simp; omega) (by simp; omega)]
    exact h1
  · rw [hk.fld (by simp; omega) (by simp only [fltPg]; omega), h5]

/-! ## The causes of one KA cycle -/

/-- Among the sources below `N`, those of one cause. -/
theorem flatMap_range_cause (c : Cause) (N : Nat) :
    ((List.range N).flatMap fun n => [c].filter (·.src = n)) = if c.src < N then [c] else [] := by
  induction N with
  | zero => rfl
  | succ N ih =>
    rw [List.range_succ, List.flatMap_append, ih]
    by_cases h : c.src = N
    · simp [h]
    · simp [h, show c.src < N + 1 ↔ c.src < N by omega]

theorem Raised.log_nil {r : Raised} (h : r.lost = []) : r.log [] = r := by
  have hnone : ((List.range 256).flatMap fun n => ([] : List Cause).filter (·.src = n)) = [] :=
    List.flatMap_eq_nil_iff.mpr fun _ _ => rfl
  obtain ⟨st, fresh, causes, lost⟩ := r
  simp only at h
  simp only [Raised.log, List.filter_nil] at hnone ⊢
  simp [hnone, h]

/-- One cause, with room in the log. -/
theorem Raised.log_single {s : State} {c : Cause} (hsrc : c.src < 256) (hres : srcReserved c.src = false) (hlog : s.flt.log.length < 64) :
    Raised.log { st := s } [c] =
      { st := s.raiseOne c.src (s.scfgFld c.src R.FLT.SCFG.SEV) (s.detailWord c),
        fresh := if s.raised c.src then [] else [c.src], causes := [c], lost := [] } := by
  have hkept : ([c].filter fun d => !srcReserved d.src) = [c] := by simp [hres]
  have hfull : ¬ 64 ≤ s.flt.log.length := by omega
  unfold Raised.log
  dsimp only
  rw [hkept, flatMap_range_cause, if_pos hsrc]
  cases hr : s.raised c.src <;> simp [hr, hfull, List.eraseDups_cons]

/-- No word of the sources that react is discrepant. -/
theorem Raised.selfCheck_of_sound {r : Raised} (h : ∀ c ∈ r.fresh, tget (fun _ => (0 : Word)) r.st.flt.comp c = 0) : r.selfCheck = r := by
  have hnone : (r.fresh.filter fun c => tget (fun _ => (0 : Word)) r.st.flt.comp c ≠ 0) = [] := by
    rw [List.filter_eq_nil_iff]
    intro c hc
    rw [decide_eq_true_iff, not_not]
    exact h c hc
  rw [Raised.selfCheck, hnone]
  rfl

theorem Raised.moved_nil (r : Raised) : r.moved [] = [] := by
  simp [Raised.moved, State.reactMoved, State.faultPosts]

/-- A KA cycle in which the collector raises nothing of its own. -/
theorem State.raiseNow_of_quiet {s : State} {causes : List Cause} {r : Raised} (hr : Raised.log { st := s } causes = r)
    (hself : r.selfCheck = r) (hlost : r.lost = []) (hmoved : r.moved r.fresh = []) : s.raiseNow causes = r.st.react r.fresh r.causes := by
  simp only [State.raiseNow, hr, hself, hlost, Raised.log_nil hlost, hmoved, List.drop_length, Raised.moved_nil]


/-! ## The reactions of one source -/

theorem State.react_nil (s : State) (causes : List Cause) : s.react [] causes = s := by
  simp [State.react, State.faultPosts, State.reactPairs]

section
variable {s : State} {c : Nat} (causes : List Cause)

/-- Redistribution is the reaction of source 19 alone (R361). -/
theorem State.reactPairs_of_ne (h : c ≠ 19) : s.reactPairs [c] causes = [] := by
  simp [State.reactPairs, Ne.symm h]

theorem State.reactsSafe_eq (h : c ≠ 19) : s.reactsSafe c = decide (s.scfgFld c R.FLT.SCFG.SAFE = 1) := by
  simp [State.reactsSafe, h]

/-- The NMT of a source, then its interrupt (R363). -/
theorem State.faultPosts_single (s : State) (c : Nat) :
    s.faultPosts [c] =
      (if s.scfgFld c R.FLT.SCFG.NMT = 1 then [(s.scfgFld c R.FLT.SCFG.CORE, 0)] else []) ++
        if s.scfgFld c R.FLT.SCFG.INT = 1 then [(s.scfgFld c R.FLT.SCFG.CORE, 232 + s.scfgFld c R.FLT.SCFG.SEV)] else [] := by
  by_cases hn : s.scfgFld c R.FLT.SCFG.NMT = 1 <;> by_cases hi : s.scfgFld c R.FLT.SCFG.INT = 1 <;>
    simp [State.faultPosts, hn, hi, List.eraseDups_cons]

/-- Nothing is redirected from a core that has a pair (R364). -/
theorem State.reactMoved_of_pair (h : c ≠ 19) (hpair : s.pairOfCore (s.scfgFld c R.FLT.SCFG.CORE) ≠ 15) : s.reactMoved [c] causes = [] := by
  by_cases hn : s.scfgFld c R.FLT.SCFG.NMT = 1 <;> by_cases hi : s.scfgFld c R.FLT.SCFG.INT = 1 <;>
    simp [State.reactMoved, State.faultPosts_single, State.reactPairs_of_ne causes h, hn, hi, hpair]

theorem State.reactMoved_of_no_posts (h : s.faultPosts [c] = []) : s.reactMoved [c] causes = [] := by
  simp [State.reactMoved, h]

/-- A source that takes no other reaction: its NMT and its interrupt reach the core named (R363, R364). -/
theorem State.react_posts (h19 : c ≠ 19) (hsafe : s.scfgFld c R.FLT.SCFG.SAFE ≠ 1) (halive : s.scfgFld c R.FLT.SCFG.ALIVE ≠ 1)
    (hbrst : s.scfgFld c R.FLT.SCFG.BRST ≠ 1) (hcrst : s.scfgFld c R.FLT.SCFG.CRST ≠ 1)
    (hpair : s.pairOfCore (s.scfgFld c R.FLT.SCFG.CORE) ≠ 15) :
    s.react [c] causes =
      { s with
        nmts := s.nmts ++ if s.scfgFld c R.FLT.SCFG.NMT = 1 then [s.scfgFld c R.FLT.SCFG.CORE] else []
        postings := s.postings ++ if s.scfgFld c R.FLT.SCFG.INT = 1 then
          [⟨232 + s.scfgFld c R.FLT.SCFG.SEV, [s.scfgFld c R.FLT.SCFG.CORE], 0⟩] else [] } := by
  have htarget : s.faultTarget (s.scfgFld c R.FLT.SCFG.CORE) = s.scfgFld c R.FLT.SCFG.CORE := if_pos hpair
  by_cases hn : s.scfgFld c R.FLT.SCFG.NMT = 1 <;> by_cases hi : s.scfgFld c R.FLT.SCFG.INT = 1 <;>
    simp [State.react, State.faultPosts_single, State.reactPairs_of_ne causes h19, State.reactsSafe_eq h19, hsafe, halive, hbrst,
      hcrst, hn, hi, htarget, List.eraseDups_cons, State.postTo]

/-- The state in which a source's safe state is entered: ALIVE has stopped where the source asks for it (R361). -/
def State.aliveReacted (s : State) (c : Nat) : State := if s.scfgFld c R.FLT.SCFG.ALIVE = 1 then s.reactAlive else s

theorem State.reactAlive_eq (h : s.flt.arunAt ≠ some (s.kaNow / 100)) :
    s.reactAlive = State.aliveStop { s with flt := { s.flt with stopAt := some (s.kaNow / 100) } } := by
  simp [State.reactAlive, h]

theorem State.keepsOff_aliveStop (s : State) : s.KeepsOff s.aliveStop fltPg [0x104, 0x10c] :=
  State.KeepsOff.setFld s fltPg R.FLT.STAT.ALIVE _ (by simp) (by simp)

/-- With no ARUN in its KA cycle the stop of ALIVE is not answered by a refusal (R376). -/
theorem State.keepsOff_aliveReacted (h : s.flt.arunAt ≠ some (s.kaNow / 100)) (c : Nat) : s.KeepsOff (s.aliveReacted c) fltPg [0x104, 0x10c] := by
  unfold State.aliveReacted
  split
  · rw [State.reactAlive_eq h]
    exact (State.KeepsOff.of_regs (s := s) (t := { s with flt := { s.flt with stopAt := some (s.kaNow / 100) } }) rfl fltPg [0x104, 0x10c]).trans
      (State.keepsOff_aliveStop _)
  · exact State.KeepsOff.of_regs rfl _ _

theorem State.safe_aliveReacted (h : s.flt.arunAt ≠ some (s.kaNow / 100)) (c : Nat) : (s.aliveReacted c).safe = s.safe := by
  unfold State.aliveReacted
  split
  · rw [State.reactAlive_eq h]
    exact State.bit_setFld_apart _ fltPg (f := R.FLT.STAT.ALIVE) _ (by simp)
  · rfl

/-- Of the fields outside the registers the stop of ALIVE changes only its KA cycle. -/
theorem State.aliveReacted_shows (h : s.flt.arunAt ≠ some (s.kaNow / 100)) (c : Nat) :
    (s.aliveReacted c).raises = s.raises ∧ (s.aliveReacted c).postings = s.postings ∧
      (s.aliveReacted c).flt.log = s.flt.log ∧ (s.aliveReacted c).flt.first = s.flt.first := by
  unfold State.aliveReacted
  split
  · rw [State.reactAlive_eq h]
    exact ⟨rfl, rfl, rfl, rfl⟩
  · exact ⟨rfl, rfl, rfl, rfl⟩

/-- A source that takes safe state, and perhaps stops ALIVE (R361, R369). -/
theorem State.react_safe (hc : c < 256) (h19 : c ≠ 19) (hsafe : s.scfgFld c R.FLT.SCFG.SAFE = 1) (hposts : s.faultPosts [c] = [])
    (hbrst : s.scfgFld c R.FLT.SCFG.BRST ≠ 1) (hcrst : s.scfgFld c R.FLT.SCFG.CRST ≠ 1) (harun : s.flt.arunAt ≠ some (s.kaNow / 100)) :
    s.react [c] causes = (s.aliveReacted c).enterSafe 1 c := by
  have hkeep {f : Nat → Fld} : (s.aliveReacted c).scfgFld c f = s.scfgFld c f := (s.keepsOff_aliveReacted harun c).scfgFld hc f
  have hsources : [c].filter (s.aliveReacted c).reactsSafe = [c] := by simp [State.reactsSafe_eq h19, hkeep, hsafe]
  have halive : (if [c].any fun d => decide (s.scfgFld d R.FLT.SCFG.ALIVE = 1) then s.reactAlive else s) = s.aliveReacted c := by
    simp [State.aliveReacted]
  unfold State.react
  simp only [halive, hsources, hposts, State.reactPairs_of_ne causes h19]
  simp [hbrst, hcrst]

end

/-! ## Safe state -/

/-- FLT shows safe state with its cause and, for a source, the source (R369). -/
def State.safeShown (s : State) (cause src : Nat) : State :=
  let s := (s.setBit fltPg R.FLT.STAT.SAFE true).setFld fltPg R.FLT.SAFEC.CAUSE cause
  s.setFld fltPg R.FLT.SAFEC.SRC (if cause = 1 then src else 0)

theorem State.enterSafe_eq {s : State} (h : s.safe = false) (cause src : Nat) :
    s.enterSafe cause src =
      ((List.range 6).foldl State.linSafe (((s.safeShown cause src).post 236).aliveStop.holdClear.hsSafeWindows).settleAll.canSafeEnter).pxStartBlank := by
  unfold State.enterSafe State.safeShown
  rw [if_neg (by simp [h])]

theorem State.keepsOff_safeShown (s : State) (cause src : Nat) : s.KeepsOff (s.safeShown cause src) fltPg [0x104, 0x10c] :=
  ((State.KeepsOff.setFld s fltPg R.FLT.STAT.SAFE _ (by simp) (by simp)).trans
    (State.KeepsOff.setFld _ fltPg R.FLT.SAFEC.CAUSE cause (by simp) (by simp))).trans
    (State.KeepsOff.setFld _ fltPg R.FLT.SAFEC.SRC _ (by simp) (by simp))

/-- The three fields that safe state shows (R369). -/
theorem State.safeShown_shows (s : State) {src : Nat} (hsrc : src < 256) :
    (s.safeShown 1 src).safe = true ∧ (s.safeShown 1 src).fld fltPg R.FLT.SAFEC.CAUSE = 1 ∧ (s.safeShown 1 src).fld fltPg R.FLT.SAFEC.SRC = src := by
  refine ⟨?_, ?_, ?_⟩
  · change State.bit _ fltPg _ = true
    rw [State.safeShown, State.bit_setFld_apart _ _ _ (by simp), State.bit_setFld_apart _ _ _ (by simp), State.bit_setBit_same _ _ _ _ rfl (by decide)]
  · rw [State.safeShown, State.fld_setFld_apart _ _ _ (by simp), State.fld_setFld_fits _ _ _ _ (by decide) (by decide) (by decide)]
  · exact State.fld_setFld_fits _ fltPg R.FLT.SAFEC.SRC src (by decide) (by decide) (by simpa using hsrc)

/-! ## A KA cycle of one cause -/

section
variable {s : State} {c : Cause} (hsrc : c.src < 256) (hres : srcReserved c.src = false) (hlog : s.flt.log.length < 64)
include hsrc hres hlog

/-- A source that was RAISED takes no reaction (R362). -/
theorem State.raiseNow_of_raised (hr : s.raised c.src = true) :
    s.raiseNow [c] = s.raiseOne c.src (s.scfgFld c.src R.FLT.SCFG.SEV) (s.detailWord c) := by
  have hone := Raised.log_single hsrc hres hlog
  rw [hr, if_pos rfl] at hone
  rw [State.raiseNow_of_quiet hone (Raised.selfCheck_of_sound (by simp)) rfl (Raised.moved_nil _)]
  exact State.react_nil _ _

/-- A source that was not RAISED takes its reactions, when its word is sound and nothing is redirected (R362, R373). -/
theorem State.raiseNow_of_fresh (hr : s.raised c.src = false) (hsound : tget (fun _ => (0 : Word)) s.flt.comp c.src = 0)
    (hmoved : (s.raiseOne c.src (s.scfgFld c.src R.FLT.SCFG.SEV) (s.detailWord c)).reactMoved [c.src] [c] = []) :
    s.raiseNow [c] = (s.raiseOne c.src (s.scfgFld c.src R.FLT.SCFG.SEV) (s.detailWord c)).react [c.src] [c] := by
  have hone := Raised.log_single hsrc hres hlog
  rw [hr, if_neg Bool.false_ne_true] at hone
  obtain ⟨-, -, -, -, hcomp, -⟩ := State.raiseOne_keeps hsrc (s.scfgFld c.src R.FLT.SCFG.SEV) (s.detailWord c) hlog
  refine State.raiseNow_of_quiet hone (Raised.selfCheck_of_sound ?_) rfl ?_
  · simpa [hcomp] using hsound
  · simp [Raised.moved, hmoved]

/-- The source is taken, and its NMT and interrupt reach its core. -/
theorem State.raiseNow_posts (h19 : c.src ≠ 19) (hr : s.raised c.src = false) (hsound : tget (fun _ => (0 : Word)) s.flt.comp c.src = 0)
    (hsafe : s.scfgFld c.src R.FLT.SCFG.SAFE ≠ 1) (halive : s.scfgFld c.src R.FLT.SCFG.ALIVE ≠ 1)
    (hbrst : s.scfgFld c.src R.FLT.SCFG.BRST ≠ 1) (hcrst : s.scfgFld c.src R.FLT.SCFG.CRST ≠ 1)
    (hpair : s.pairOfCore (s.scfgFld c.src R.FLT.SCFG.CORE) ≠ 15) :
    s.Taken (s.raiseNow [c]) s.raises c.src (s.scfgFld c.src R.FLT.SCFG.SEV) (s.detailWord c) ∧
      (s.raiseNow [c]).postings = s.postings ++ (if s.scfgFld c.src R.FLT.SCFG.INT = 1 then
        [⟨232 + s.scfgFld c.src R.FLT.SCFG.SEV, [s.scfgFld c.src R.FLT.SCFG.CORE], 0⟩] else []) ∧
      (s.raiseNow [c]).nmts = s.nmts ++ (if s.scfgFld c.src R.FLT.SCFG.NMT = 1 then [s.scfgFld c.src R.FLT.SCFG.CORE] else []) := by
  obtain ⟨hposts, hnmts, hmap, -, -, -⟩ := State.raiseOne_keeps hsrc (s.scfgFld c.src R.FLT.SCFG.SEV) (s.detailWord c) hlog
  have hword (f : Nat → Fld) : (s.raiseOne c.src (s.scfgFld c.src R.FLT.SCFG.SEV) (s.detailWord c)).scfgFld c.src f = s.scfgFld c.src f :=
    State.scfgFld_raiseOne hsrc _ _ hlog f
  have htaken := State.taken_raiseOne hsrc (s.scfgFld c.src R.FLT.SCFG.SEV) (s.detailWord c) hlog
  have hpair' : (s.raiseOne c.src (s.scfgFld c.src R.FLT.SCFG.SEV) (s.detailWord c)).pairOfCore
      ((s.raiseOne c.src (s.scfgFld c.src R.FLT.SCFG.SEV) (s.detailWord c)).scfgFld c.src R.FLT.SCFG.CORE) ≠ 15 := by
    rwa [hword, State.pairOfCore, State.pairOf, hmap]
  rw [State.raiseNow_of_fresh hsrc hres hlog hr hsound (State.reactMoved_of_pair [c] h19 hpair'),
    State.react_posts [c] h19 (by rwa [hword]) (by rwa [hword]) (by rwa [hword]) (by rwa [hword]) hpair']
  refine ⟨htaken, ?_, ?_⟩
  · simp only [hword, hposts]
  · simp only [hword, hnmts]

/-- The source is taken, safe state is shown, and the chain of its entry follows. -/
theorem State.raiseNow_safe (h19 : c.src ≠ 19) (hr : s.raised c.src = false) (hsound : tget (fun _ => (0 : Word)) s.flt.comp c.src = 0)
    (hsafe : s.scfgFld c.src R.FLT.SCFG.SAFE = 1) (hint : s.scfgFld c.src R.FLT.SCFG.INT ≠ 1) (hnmt : s.scfgFld c.src R.FLT.SCFG.NMT ≠ 1)
    (hbrst : s.scfgFld c.src R.FLT.SCFG.BRST ≠ 1) (hcrst : s.scfgFld c.src R.FLT.SCFG.CRST ≠ 1)
    (harun : s.flt.arunAt ≠ some (s.kaNow / 100)) (hnot : s.safe = false) :
    ∃ u : State, s.raiseNow [c] =
        ((List.range 6).foldl State.linSafe (u.aliveStop.holdClear.hsSafeWindows).settleAll.canSafeEnter).pxStartBlank ∧
      s.Taken u s.raises c.src (s.scfgFld c.src R.FLT.SCFG.SEV) (s.detailWord c) ∧ u.safe = true ∧
      u.fld fltPg R.FLT.SAFEC.CAUSE = 1 ∧ u.fld fltPg R.FLT.SAFEC.SRC = c.src ∧ u.postings = s.postings ++ [s.posting 236] := by
  have htaken := State.taken_raiseOne hsrc (s.scfgFld c.src R.FLT.SCFG.SEV) (s.detailWord c) hlog
  have hword (f : Nat → Fld) : (s.raiseOne c.src (s.scfgFld c.src R.FLT.SCFG.SEV) (s.detailWord c)).scfgFld c.src f = s.scfgFld c.src f :=
    State.scfgFld_raiseOne hsrc _ _ hlog f
  have hreg {pg off : Nat} (hoff : off < 0x1000) (hpg : pg = fltPg ∧ off < 0x114 ∨ pg = 0x02A) :
      (s.raiseOne c.src (s.scfgFld c.src R.FLT.SCFG.SEV) (s.detailWord c)).reg pg off = s.reg pg off :=
    State.reg_raiseOne hsrc _ _ hlog hoff (by simp only [fltPg] at hpg; omega) (by simp only [fltPg]; omega)
  obtain ⟨hposts, -, -, hnow, -, harun'⟩ := State.raiseOne_keeps hsrc (s.scfgFld c.src R.FLT.SCFG.SEV) (s.detailWord c) hlog
  have hreact := State.raiseNow_of_fresh hsrc hres hlog hr hsound
  generalize s.raiseOne c.src (s.scfgFld c.src R.FLT.SCFG.SEV) (s.detailWord c) = t at *
  have hnone : t.faultPosts [c.src] = [] := by simp [State.faultPosts_single, hword, hint, hnmt]
  have harunT : t.flt.arunAt ≠ some (t.kaNow / 100) := by rwa [harun', hnow]
  have hkeep := State.keepsOff_aliveReacted harunT c.src
  obtain ⟨hraises, hpostsA, hlogA, hfirstA⟩ := State.aliveReacted_shows harunT c.src
  have hsafeA : (t.aliveReacted c.src).safe = false := by
    rw [State.safe_aliveReacted harunT, State.safe, State.bit, State.fld, hreg (pg := 0x010) (by decide) (.inl ⟨rfl, by decide⟩)]
    exact hnot
  have hposting : (t.aliveReacted c.src).posting 236 = s.posting 236 := by
    have hcore (n : Nat) : t.coreExists n = s.coreExists n := by
      rw [State.coreExists, State.coreExists, State.fld, hreg (by decide) (.inr rfl)]
      rfl
    rw [hkeep.posting (by decide), State.posting, State.posting, funext hcore]
  have hshown := (t.aliveReacted c.src).safeShown_shows hsrc
  have hkeepS := (t.aliveReacted c.src).keepsOff_safeShown 1 c.src
  obtain ⟨hs1, hs2, hs3⟩ := hshown
  refine ⟨((t.aliveReacted c.src).safeShown 1 c.src).post 236, ?_, ?_, hs1, hs2, hs3, ?_⟩
  · rw [hreact (State.reactMoved_of_no_posts [c] hnone),
      State.react_safe [c] hsrc h19 (by rwa [hword]) hnone (by rwa [hword]) (by rwa [hword]) harunT, State.enterSafe_eq hsafeA]
  · exact htaken.keeps hsrc ((hkeep.trans hkeepS).trans (State.KeepsOff.of_regs (State.post_regs _ 236) _ _)) hraises hlogA hfirstA
  · rw [State.post_postings, hkeepS.posting (by decide), hposting]
    exact congrArg (· ++ _) (hpostsA.trans hposts)

end

/-! ## What is on its way -/

theorem takeCauses_of_none {src : Nat} {l : List Cause} (h : ∀ c ∈ l, c.src ≠ src) : takeCauses src l = ([], l) := by
  have hnone : l.find? (·.src = src) = none := by simpa [List.find?_eq_none] using h
  rw [takeCauses, hnone]

theorem takeCauses_head (c : Cause) (rest : List Cause) : takeCauses c.src (c :: rest) = ([c], rest) := by
  simp [takeCauses]

theorem exec_sourceRaise (l : List (BitVec 8)) (s : State) : exec (.sourceRaise l) s = execSourceRaise l s := rfl

theorem State.raiseNow_nil (s : State) : s.raiseNow [] = s := by
  have hlog : Raised.log { st := s } [] = { st := s } := Raised.log_nil rfl
  rw [State.raiseNow_of_quiet hlog (Raised.selfCheck_of_sound (by simp)) rfl (Raised.moved_nil _)]
  exact State.react_nil s []

/-- No source named has a cause on its way (R357). -/
theorem exec_sourceRaise_of_none {l : List (BitVec 8)} {s : State} (h : ∀ x ∈ l, ∀ c ∈ s.raises, c.src ≠ x.toNat) :
    exec (.sourceRaise l) s = .next s := by
  have hnone : ∀ k : List (BitVec 8), (∀ x ∈ k, ∀ c ∈ s.raises, c.src ≠ x.toNat) →
      k.foldl (fun (a : List Cause × List Cause) (x : BitVec 8) =>
        (a.1 ++ (takeCauses x.toNat a.2).1, (takeCauses x.toNat a.2).2)) ([], s.raises) = ([], s.raises) := by
    intro k hk
    induction k with
    | nil => rfl
    | cons x k ih =>
      rw [List.foldl_cons, takeCauses_of_none (hk x (by simp))]
      exact ih fun y hy => hk y (by simp [hy])
  rw [exec_sourceRaise, execSourceRaise, hnone l h]
  exact congrArg Host.Outcome.next (State.raiseNow_nil s)

/-- The first cause on its way is of the source named. -/
theorem exec_sourceRaise_head {s : State} {x : BitVec 8} {d : Detail} {rest : List Cause} (h : s.raises = ⟨x.toNat, d⟩ :: rest) :
    exec (.sourceRaise [x]) s = .next (State.raiseNow { s with raises := rest } [⟨x.toNat, d⟩]) := by
  have htake : takeCauses x.toNat (⟨x.toNat, d⟩ :: rest) = ([⟨x.toNat, d⟩], rest) := takeCauses_head ⟨x.toNat, d⟩ rest
  rw [exec_sourceRaise, execSourceRaise]
  simp only [h, List.foldl_cons, List.foldl_nil, htake, List.nil_append]
  rfl

/-! ## The obligation -/

/-- The detail of a source that a page raised (R372). -/
theorem State.detailWord_page (s : State) {c pg : Nat} :
    s.detailWord ⟨c, .page pg⟩ =
      if c ≤ 1 ∨ (233 ≤ c ∧ c ≤ 235) then 0 else BitVec.ofNat 32 (pg * 65536) ||| (s.reg pg 0x048 &&& 0xFFFF) := by
  have h : (c = 0 ∨ c = 1 ∨ (233 ≤ c ∧ c ≤ 235)) ↔ (c ≤ 1 ∨ (233 ≤ c ∧ c ≤ 235)) := by omega
  simp only [State.detailWord, h]

/-- Settles O48: what the collector takes of one cause, and the reactions of a source that was not raised. -/
theorem sourceReactions : Obligations.SourceReactions := by
  refine ⟨fun s l h => exec_sourceRaise_of_none h, ?_⟩
  intro s x pg rest hs hres h19 h232 hlog
  have hc : x.toNat < 256 := x.isLt
  have hexec := exec_sourceRaise_head hs
  have hlog' : (State.flt { s with raises := rest }).log.length < 64 := hlog
  have hdet : State.detailWord { s with raises := rest } ⟨x.toNat, .page pg⟩ = _ := State.detailWord_page _
  refine ⟨?raised, ?posts, ?safe⟩
  case raised =>
    intro hr
    have hnow := State.raiseNow_of_raised (c := ⟨x.toNat, .page pg⟩) hc hres hlog' hr
    obtain ⟨hposts, hnmts, -⟩ := State.raiseOne_keeps hc (s.scfgFld x.toNat R.FLT.SCFG.SEV)
      (State.detailWord { s with raises := rest } ⟨x.toNat, .page pg⟩) hlog'
    have htaken := State.taken_raiseOne hc (s.scfgFld x.toNat R.FLT.SCFG.SEV)
      (State.detailWord { s with raises := rest } ⟨x.toNat, .page pg⟩) hlog'
    rw [hdet] at hnow hposts hnmts htaken
    exact ⟨_, hexec.trans (congrArg _ hnow), htaken, hposts, hnmts⟩
  case posts =>
    intro hr hsound hsafe halive hbrst hcrst hcore
    obtain ⟨htaken, hposts, hnmts⟩ := State.raiseNow_posts (c := ⟨x.toNat, .page pg⟩) hc hres hlog' h19 hr hsound hsafe halive hbrst hcrst hcore
    rw [hdet] at htaken
    exact ⟨_, hexec, htaken, hposts, hnmts⟩
  case safe =>
    intro hr hsound harun hsafe hint hnmt hbrst hcrst hnot
    obtain ⟨u, hu, htaken, hshown⟩ := State.raiseNow_safe (c := ⟨x.toNat, .page pg⟩) hc hres hlog' h19 hr hsound hsafe hint hnmt hbrst hcrst harun hnot
    rw [hdet] at htaken
    exact ⟨u, hexec.trans (congrArg _ hu), htaken, hshown⟩

end Sys2Proof.Machine
end

section
/-! Scheduling leaves what contexts hold and what cores owe: the frame of yield points, wake-ups and FENCE. -/

namespace Sys2Proof.Machine

/-! ## What yield points and scheduling leave -/

/-- `t` has of `s` the operations, the postings on their way, the memory, the pending bits and the requests of every core, and the
same cores run. -/
structure State.Quiet (s t : State) : Prop where
  ops : t.ops = s.ops
  postings : t.postings = s.postings
  mem : t.mem = s.mem
  pend : ∀ n, (t.lcAt n).pend = (s.lcAt n).pend
  released : ∀ n id, t.released n id = s.released n id
  halts : ∀ n, (t.lcAt n).stopped = (s.lcAt n).stopped ∧ (t.lcAt n).dbg = (s.lcAt n).dbg
  runs : ∀ n, t.coreRuns n = s.coreRuns n

/-- Beside, every context has the registers of `s` but for its state. -/
structure State.Yields (s t : State) : Prop extends s.Quiet t where
  cx : ∀ k, t.cx k = { s.cx k with st := (t.cx k).st }

namespace State.Quiet

variable {s t u : State}

theorem refl (s : State) : s.Quiet s := ⟨rfl, rfl, rfl, fun _ => rfl, fun _ _ => rfl, fun _ => ⟨rfl, rfl⟩, fun _ => rfl⟩

theorem trans (h : s.Quiet t) (h' : t.Quiet u) : s.Quiet u where
  ops := h'.ops.trans h.ops
  postings := h'.postings.trans h.postings
  mem := h'.mem.trans h.mem
  pend n := (h'.pend n).trans (h.pend n)
  released n id := (h'.released n id).trans (h.released n id)
  halts n := ⟨(h'.halts n).1.trans (h.halts n).1, (h'.halts n).2.trans (h.halts n).2⟩
  runs n := (h'.runs n).trans (h.runs n)

theorem modCtx (s : State) (k : Nat) (f : Ctx → Ctx) : s.Quiet (s.modCtx k f) := ⟨rfl, rfl, rfl, fun _ => rfl, fun _ _ => rfl, fun _ => ⟨rfl, rfl⟩, fun _ => rfl⟩

/-- A core's record changes beside its pending bits, its requests and what stops it. -/
theorem setLc (s : State) (n : Nat) (v : LCore) (hpend : v.pend = (s.lcAt n).pend)
    (hreq : ∀ id, v.buf.any (·.isReq id) = (s.lcAt n).buf.any (·.isReq id)) (hstop : v.stopped = (s.lcAt n).stopped)
    (hdbg : v.dbg = (s.lcAt n).dbg) : s.Quiet (s.setLc n v) := by
  have hruns (m : Nat) : (s.setLc n v).coreRuns m =
      (s.coreExists m && s.pairOfCore m ≠ 15 && s.clocked (.cp (s.pairOfCore m)) && !s.moving m &&
        !((s.setLc n v).lcAt m).stopped && !((s.setLc n v).lcAt m).dbg && s.power ≠ .park) := rfl
  refine ⟨rfl, rfl, rfl, fun m => ?_, fun m id => ?_, fun m => ?_, fun m => ?_⟩ <;> by_cases hm : m = n
  · rw [hm, State.lcAt_setLc_same, hpend]
  · rw [State.lcAt_setLc_ne s v hm]
  · rw [hm, State.released, State.released, State.lcAt_setLc_same, hreq]
  · rw [State.released, State.released, State.lcAt_setLc_ne s v hm]
  · rw [hm, State.lcAt_setLc_same]
    exact ⟨hstop, hdbg⟩
  · rw [State.lcAt_setLc_ne s v hm]
    exact ⟨rfl, rfl⟩
  · rw [hruns, hm, State.lcAt_setLc_same, hstop, hdbg, State.coreRuns]
  · rw [hruns, State.lcAt_setLc_ne s v hm, State.coreRuns]

theorem foldl {α : Type} {f : State → α → State} (hf : ∀ t a, State.Quiet t (f t a)) : ∀ (l : List α) (s : State), s.Quiet (l.foldl f s)
  | [], s => refl s
  | a :: l, s => (hf s a).trans (foldl hf l (f s a))

theorem toSt (s : State) (k : Nat) (st : CtxSt) : s.Quiet (s.toSt k st) := by
  have hcom : ((s.modCx k fun r => { r with st := st }).modCtx k Ctx.commit).Quiet (s.toSt k st) :=
    setLc _ _ _ rfl (by simp [BufEnt.isReq]) rfl rfl
  exact ((modCtx s k _).trans (modCtx _ k Ctx.commit)).trans hcom

end State.Quiet

namespace State.Yields

variable {s t u : State}

theorem refl (s : State) : s.Yields s := ⟨State.Quiet.refl s, fun _ => rfl⟩

theorem trans (h : s.Yields t) (h' : t.Yields u) : s.Yields u := by
  refine ⟨h.toQuiet.trans h'.toQuiet, fun k => ?_⟩
  rw [h'.cx k, h.cx k]

theorem of_cx (h : s.Quiet t) (hcx : ∀ k, t.cx k = s.cx k) : s.Yields t := ⟨h, fun k => by rw [hcx k]⟩

theorem foldl {α : Type} {f : State → α → State} (hf : ∀ t a, State.Yields t (f t a)) : ∀ (l : List α) (s : State), s.Yields (l.foldl f s)
  | [], s => refl s
  | a :: l, s => (hf s a).trans (foldl hf l (f s a))

theorem toSt (s : State) (k : Nat) (st : CtxSt) : s.Yields (s.toSt k st) := by
  refine ⟨State.Quiet.toSt s k st, fun j => ?_⟩
  by_cases h : j = k
  · rw [h, State.cx_toSt_same]
  · rw [State.cx_toSt_ne s st h]

/-- A core takes another context, or none: its record is otherwise as it stood at a state `s` before. -/
theorem setCur (h : s.Yields t) (n : Nat) (cur : Option Nat) (last : Nat) :
    s.Yields (t.setLc n { s.lcAt n with cur := cur, last := last }) := by
  have hreq (id : Nat) : (s.lcAt n).buf.any (·.isReq id) = (t.lcAt n).buf.any (·.isReq id) := by
    have hrel := h.released n id
    rw [State.released, State.released] at hrel
    exact (Bool.not_inj hrel).symm
  exact h.trans (of_cx (State.Quiet.setLc t n _ (h.pend n).symm hreq (h.halts n).1.symm (h.halts n).2.symm) fun _ => rfl)

theorem giveCore (s : State) (n j : Nat) : s.Yields (s.giveCore n j) := by
  unfold State.giveCore
  dsimp only
  refine setCur (State.Yields.trans ?_ (toSt _ _ .run)) n (some j) j
  split
  · split
    · exact toSt s _ .ready
    · exact refl s
  · exact refl s

theorem scheduleWith (s : State) (n : Nat) (hint : Bool) : s.Yields (s.scheduleWith n hint) := by
  unfold State.scheduleWith
  split
  · exact refl s
  · dsimp only
    split
    · split
      · split
        · split
          · exact giveCore s n _
          · exact refl s
        · exact refl s
      · exact giveCore s n _
    · exact giveCore s n _
    · exact setCur (refl s) n none _

end State.Yields

/-! ## Waking -/

/-- A context in OPWAIT whose wait for registers or for a journal entry is over becomes READY (R262). -/
def State.wakeOne (s : State) (k : Nat) : State :=
  let c := s.ctxAt k
  if c.now.st = .opwait then
    (match c.now.opw with
      | .regs l => if l.any (s.awaits k) then s else s.toSt k .ready
      | .jour => if c.journalled < 64 ∨ c.mayFree then s.toSt k .ready else s
      | .slot => s
      | .fetch _ => s)
  else s

/-- The contexts of a core. -/
def coreCtxs (n : Nat) : List Nat := (List.range 32).map (32 * n + ·)

/-- The contexts of a core that wait for a slot, in the order in which they get one (R263). -/
def State.slotOrder (s : State) (n : Nat) : List Nat :=
  let ws := (coreCtxs n).filter fun k => (s.cx k).st = .opwait && (s.cx k).opw = .slot && !(s.cx k).drain
  (List.range 17).reverse.flatMap fun r => ws.filter fun k => (s.cx k).rank = r

/-- A slot is kept for a context, which becomes READY (R263). -/
def State.keepSlot (s : State) (k : Nat) : State := (s.modCtx k fun c => { c with slotRes := true }).toSt k .ready

/-- The contexts of a core that wait for no slot have gone on. -/
def State.wakeDone (s : State) (n : Nat) : State := (coreCtxs n).foldl State.wakeOne s

theorem State.wakeOps_eq (s : State) (n : Nat) :
    s.wakeOps n =
      ((((s.wakeDone n).slotOrder n).take (64 - (s.wakeDone n).slotsUsed n)).foldl State.keepSlot (s.wakeDone n)).schedule n := rfl

theorem State.wakeOne_cases (s : State) (k : Nat) :
    s.wakeOne k = s ∨ (s.cx k).st = .opwait ∧ s.wakeOne k = s.toSt k .ready := by
  unfold State.wakeOne
  dsimp only
  split
  next hst =>
    split
    · split
      · exact .inl rfl
      · exact .inr ⟨hst, rfl⟩
    · split
      · exact .inr ⟨hst, rfl⟩
      · exact .inl rfl
    · exact .inl rfl
    · exact .inl rfl
  next => exact .inl rfl

namespace State.Yields

theorem wakeOne (s : State) (k : Nat) : s.Yields (s.wakeOne k) := by
  rcases s.wakeOne_cases k with h | ⟨-, h⟩ <;> rw [h]
  · exact refl s
  · exact toSt s k .ready

theorem keepSlot (s : State) (k : Nat) : s.Yields (s.keepSlot k) := by
  refine (of_cx (State.Quiet.modCtx s k _) fun j => ?_).trans (toSt _ k .ready)
  by_cases h : j = k
  · rw [h, State.cx_modCtx_same]
    rfl
  · rw [State.cx, State.ctxAt_modCtx_ne s _ h]
    rfl

theorem wakeOps (s : State) (n : Nat) : s.Yields (s.wakeOps n) := by
  rw [State.wakeOps_eq]
  exact ((foldl wakeOne _ s).trans (foldl keepSlot _ _)).trans (scheduleWith _ n false)

end State.Yields

/-- A list of updates of contexts leaves the one that it does not name. -/
theorem State.ctxAt_foldl_ne {f : State → Nat → State} {j : Nat} (l : List Nat) (hf : ∀ t : State, ∀ k ∈ l, (f t k).ctxAt j = t.ctxAt j)
    (s : State) : (l.foldl f s).ctxAt j = s.ctxAt j := by
  induction l generalizing s with
  | nil => rfl
  | cons k l ih => rw [List.foldl_cons, ih (fun t i hi => hf t i (List.mem_cons_of_mem k hi)), hf s k (List.mem_cons_self ..)]

theorem State.ctxAt_wakeDone {s : State} {j : Nat} (n : Nat) (h : (s.cx j).st ≠ .opwait) : (s.wakeDone n).ctxAt j = s.ctxAt j := by
  have hstep : ∀ (l : List Nat) (t : State), (t.cx j).st ≠ .opwait → (l.foldl State.wakeOne t).ctxAt j = t.ctxAt j := by
    intro l
    induction l with
    | nil => exact fun _ _ => rfl
    | cons k l ih =>
      intro t ht
      have hone : (t.wakeOne k).ctxAt j = t.ctxAt j := by
        rcases t.wakeOne_cases k with hk | ⟨hst, hk⟩ <;> rw [hk]
        exact State.ctxAt_toSt_ne t .ready fun hjk => ht (hjk ▸ hst)
      rw [List.foldl_cons, ih _ (by rwa [State.cx, hone]), hone]
  exact hstep _ s h

/-- Where the core does not run, its wake-ups leave a context that waits for no operation. -/
theorem State.ctxAt_wakeOps {s : State} {n j : Nat} (hrun : s.coreRuns n = false) (h : (s.cx j).st ≠ .opwait) :
    (s.wakeOps n).ctxAt j = s.ctxAt j := by
  have hdone := State.ctxAt_wakeDone n h
  have hyield : s.Yields ((((s.wakeDone n).slotOrder n).take (64 - (s.wakeDone n).slotsUsed n)).foldl State.keepSlot (s.wakeDone n)) :=
    (State.Yields.foldl State.Yields.wakeOne _ s).trans (State.Yields.foldl State.Yields.keepSlot _ _)
  rw [State.wakeOps_eq, State.schedule, State.scheduleWith, if_pos (by simp [hyield.runs, hrun]), ← hdone]
  refine State.ctxAt_foldl_ne _ (fun t k hk => ?_) _
  have hst : ((s.wakeDone n).cx k).st = .opwait := by
    obtain ⟨r, -, hr⟩ := List.mem_flatMap.mp (List.mem_of_mem_take hk)
    obtain ⟨hws, -⟩ := List.mem_filter.mp hr
    obtain ⟨-, hslot⟩ := List.mem_filter.mp hws
    simp only [Bool.and_eq_true, decide_eq_true_eq] at hslot
    obtain ⟨⟨hop, -⟩, -⟩ := hslot
    exact hop
  have hne : j ≠ k := by
    rintro rfl
    rw [State.cx, hdone] at hst
    exact h hst
  rw [State.keepSlot, State.ctxAt_toSt_ne _ .ready hne, State.ctxAt_modCtx_ne t _ hne]

/-! ## A posting arrives -/

/-- A context whose event has arrived becomes READY (R266, R297). -/
def State.eventWake (s : State) (k : Nat) : State :=
  (s.modCx k fun r => { r.setP r.waitPd true with pc := r.pc + 4, deadline := none }).toSt k .ready

/-- The contexts of a core that wait on an event. -/
def State.waiters (s : State) (n ev : Nat) : List Nat := (coreCtxs n).filter fun k => (s.cx k).st = .waitev && (s.cx k).evt = ev

/-- The pending bit of an event sets (R266). -/
def State.pended (s : State) (n ev : Nat) : State := s.setLc n { s.lcAt n with pend := (s.lcAt n).pend ||| 2 ^ ev }

theorem State.testBit_pended (s : State) (n ev e : Nat) :
    ((s.pended n ev).lcAt n).pend.testBit e = ((s.lcAt n).pend.testBit e || decide (e = ev)) := by
  rw [State.pended, State.lcAt_setLc_same]
  simp only [Nat.testBit_or, Nat.testBit_two_pow, eq_comm]

theorem State.arrive_pends {s : State} {n ev : Nat} (hmove : s.moving n = false) (h : s.waiters n ev = []) :
    s.arrive n ev = s.pended n ev := by
  unfold State.waiters coreCtxs at h
  rw [State.arrive, hmove]
  simp only [h, if_true, Bool.false_eq_true, if_false]
  rfl

theorem State.arrive_wakes {s : State} {n ev : Nat} (hmove : s.moving n = false) (h : s.waiters n ev ≠ []) :
    s.arrive n ev = ((s.waiters n ev).foldl State.eventWake s).wakeOps n := by
  unfold State.waiters coreCtxs at h ⊢
  rw [State.arrive, hmove]
  simp only [h, Bool.false_eq_true, if_false]
  rfl

theorem State.mem_waiters {s : State} {n ev k : Nat} :
    k ∈ s.waiters n ev ↔ (∃ i < 32, 32 * n + i = k) ∧ (s.cx k).st = .waitev ∧ (s.cx k).evt = ev := by
  simp [State.waiters, coreCtxs]

theorem State.quiet_eventWake (s : State) (k : Nat) : s.Quiet (s.eventWake k) :=
  (State.Quiet.modCtx s k _).trans (State.Quiet.toSt _ k .ready)

theorem State.cx_eventWake_same (s : State) (k : Nat) :
    (s.eventWake k).cx k =
      { (s.cx k).setP (s.cx k).waitPd true with pc := (s.cx k).pc + 4, deadline := none, st := .ready } := by
  rw [State.eventWake, State.cx_toSt_same, State.cx_modCx_same]

theorem State.cx_eventWake_ne (s : State) {k j : Nat} (h : j ≠ k) : (s.eventWake k).cx j = s.cx j := by
  rw [State.eventWake, State.cx_toSt_ne _ _ h, State.cx_modCx_ne _ _ h]

/-- Of a list of contexts, each once, every one is woken (R266). -/
theorem State.cx_foldl_eventWake {l : List Nat} (hl : l.Nodup) {k : Nat} (hk : k ∈ l) (s : State) :
    (l.foldl State.eventWake s).cx k =
      { (s.cx k).setP (s.cx k).waitPd true with pc := (s.cx k).pc + 4, deadline := none, st := .ready } := by
  have hother : ∀ (l : List Nat) (t : State), k ∉ l → (l.foldl State.eventWake t).cx k = t.cx k := by
    intro l
    induction l with
    | nil => exact fun _ _ => rfl
    | cons j l ih =>
      intro t hk
      rw [List.foldl_cons, ih _ fun h => hk (List.mem_cons_of_mem j h), State.cx_eventWake_ne t (List.ne_of_not_mem_cons hk)]
  induction l generalizing s with
  | nil => cases hk
  | cons j l ih =>
    obtain ⟨hj, hl⟩ := List.nodup_cons.mp hl
    rw [List.foldl_cons]
    by_cases h : k = j
    · rw [hother l _ (h ▸ hj), h, State.cx_eventWake_same]
    · rw [ih hl ((List.mem_cons.mp hk).resolve_left h), State.cx_eventWake_ne s h]

/-- A posting at a core that does not run: every context that waits on its event goes on, and no pending bit changes. -/
theorem State.arrive_wakes_shows {s : State} {n ev : Nat} (hmove : s.moving n = false) (hrun : s.coreRuns n = false)
    (h : s.waiters n ev ≠ []) :
    ((s.arrive n ev).lcAt n).pend = (s.lcAt n).pend ∧
      ∀ k ∈ s.waiters n ev, (s.arrive n ev).cx k =
        { (s.cx k).setP (s.cx k).waitPd true with pc := (s.cx k).pc + 4, deadline := none, st := .ready } := by
  have hquiet : s.Quiet ((s.waiters n ev).foldl State.eventWake s) := State.Quiet.foldl State.quiet_eventWake _ s
  have hnodup : (s.waiters n ev).Nodup :=
    (List.Nodup.map (fun i j hij => by simpa using hij) List.nodup_range).filter _
  rw [State.arrive_wakes hmove h]
  refine ⟨((hquiet.trans (State.Yields.wakeOps _ n).toQuiet).pend n), fun k hk => ?_⟩
  have hcx := State.cx_foldl_eventWake hnodup hk s
  rw [State.cx, State.ctxAt_wakeOps (by rw [hquiet.runs, hrun]) (by rw [hcx]; simp)]
  exact hcx

/-! ## Delivery -/

/-- The first posting of an event is the first of its island on its way to the core: it arrives alone. -/
theorem State.deliver_alone {s : State} {n ev : Nat} {p : Posting} (h : s.postings.find? (fun q => q.ev = ev && q.left.contains n) = some p)
    (hfirst : s.postings.find? (fun q => q.isl = p.isl && q.left.contains n) = some p) :
    ∃ l, s.deliver n ev = State.arrive { s with postings := l } n ev := by
  obtain ⟨hev, hto⟩ : p.ev = ev ∧ p.left.contains n = true := by simpa using List.find?_some h
  have hfind : s.postings.find? (fun q => q.ev = ev && q.goesTo n) = some p := h
  have halone : (s.postings.takeWhile fun q => !(decide (q.ev = ev) && q.goesTo n)).filter (fun q => q.isl = p.isl && q.goesTo n) = [] := by
    rw [List.filter_eq_nil_iff]
    intro q hq hsame
    obtain ⟨r, hr⟩ := Option.isSome_iff_exists.mp (List.find?_isSome (p := fun q => decide (q.isl = p.isl) && q.goesTo n).mpr ⟨q, hq, hsame⟩)
    have hall : s.postings.find? (fun q => q.isl = p.isl && q.goesTo n) = some r := by
      rw [← List.takeWhile_append_dropWhile (l := s.postings) (p := fun q => !(decide (q.ev = ev) && q.goesTo n)), List.find?_append,
        hr, Option.some_or]
    obtain rfl : p = r := Option.some.inj (hfirst.symm.trans hall)
    have hnot := List.mem_takeWhile_imp (List.mem_of_find?_eq_some hr)
    rw [Posting.goesTo, hto, hev] at hnot
    simp at hnot
  rw [State.deliver]
  simp only [hfind, halone, List.nil_append, List.foldl_cons, List.foldl_nil, hev]
  exact ⟨_, rfl⟩

/-- Two postings of one island on their way to one core alone: the earlier one arrives before (R18). -/
theorem State.deliver_pair {s : State} {n ev : Nat} {p q : Posting} (hs : s.postings = [q, p]) (hisl : q.isl = p.isl) (hq : q.left = [n])
    (hp : p.left = [n]) (hev : p.ev = ev) (hne : q.ev ≠ ev) :
    s.deliver n ev = (State.arrive { s with postings := [] } n q.ev).arrive n ev := by
  rw [State.deliver, hs]
  simp [hne, hisl, hev, Posting.reached, Posting.goesTo, hp, hq]

theorem exec_eventPostingArrival {s : State} {lc : Fin 16} {ev : BitVec 10} {p : Posting} (hdue : s.noneDue = true)
    (hon : p ∈ s.postings) (hev : p.ev = ev.toNat) (hto : p.left.contains lc.val = true) :
    exec (.eventPostingArrival lc ev) s = .next (s.deliver lc ev.toNat) := by
  have hany : (s.postings.any fun p => p.ev = ev.toNat && p.goesTo lc) = true :=
    List.any_eq_true.mpr ⟨p, hon, by simpa [hev, Posting.goesTo] using hto⟩
  change execEventPostingArrival lc ev s = _
  simp only [execEventPostingArrival, State.releaseDueAll_of_noneDue hdue, hany, if_true]

/-! ## Deadlines -/

/-- A context whose registers change, and which becomes READY, keeps them as its core selects again. -/
theorem State.cx_woken (s : State) (k n : Nat) (f : CtxRegs → CtxRegs) :
    ∃ st, (((s.modCx k f).toSt k .ready).wakeOps n).cx k = { f (s.cx k) with st := st } := by
  rw [(State.Yields.wakeOps _ n).cx k, State.cx_toSt_same, State.cx_modCx_same]
  exact ⟨_, rfl⟩

section
variable {s : State} {lc : Fin 16} {i : Fin 32} {d : Nat} (hrun : s.coreRuns lc = true)
  (hd : (s.cx (32 * lc.val + i.val)).deadline = some d) (hdue : d ≤ s.tb)
include hrun hd hdue

theorem exec_waitDeadline_waitt (hst : (s.cx (32 * lc.val + i.val)).st = .waitt) :
    exec (.waitDeadline lc i) s =
      .next (((s.modCx (32 * lc.val + i.val) fun r => { r with pc := r.pc + 4, deadline := none }).toSt (32 * lc.val + i.val) .ready).wakeOps lc) := by
  change execWaitDeadline lc i s = _
  simp only [execWaitDeadline, hrun, hst, hd, State.atTick, hdue, Bool.not_true, Bool.false_eq_true, if_false, if_true]

theorem exec_waitDeadline_waitev (hst : (s.cx (32 * lc.val + i.val)).st = .waitev) :
    exec (.waitDeadline lc i) s =
      .next (((s.modCx (32 * lc.val + i.val) fun r => { r.setP r.waitPd false with pc := r.pc + 4, deadline := none }).toSt
        (32 * lc.val + i.val) .ready).wakeOps lc) := by
  change execWaitDeadline lc i s = _
  simp only [execWaitDeadline, hrun, hst, hd, State.atTick, hdue, Bool.not_true, Bool.false_eq_true, if_false, if_true]

end

/-! ## SEND.EV -/

/-- The operation of a context that posts an event (R296). -/
def State.postOp (s : State) (k e : Nat) : Op :=
  { id := s.opNext, ctx := k, epoch := (s.ctxAt k).epoch, kind := .post, addr := 0, w := 0, data := e, slot := false }

/-- An event is journaled and enters the release buffer of its core (R309, R315). -/
def State.posted (s : State) (k e : Nat) : State :=
  (State.modCtx { s with ops := s.ops ++ [s.postOp k e], opNext := s.opNext + 1 } k fun c =>
    { c with jour := c.jour ++ [{ id := s.opNext, kind := .post, addr := 0, w := 0, data := e }] }).enter (k / 32) s.opNext

theorem State.access_post {s : State} {k : Nat} (hreplay : (s.ctxAt k).replay = []) (hroom : (s.ctxAt k).journalled < 64) (e : Nat)
    (go : State → State) : s.access k .post 0 0 e 0 0 go = go (s.posted k e) := by
  simp only [State.access, hreplay, State.journalRoom, hroom, if_true]
  rfl

theorem exec_sendEv {s : State} {lc : Fin 16} {gs : Bool} {gp : Fin 8} {n : EvSrc} {k : Nat}
    (h : s.executes lc gs gp (evRegs n) [] k = true) :
    exec (.sendEv lc gs gp n) s =
      .next ((if (s.cx k).eventOf n < 256 then s.trapNow k trapEvent (BitVec.ofNat 32 ((s.cx k).eventOf n))
        else s.access k .post 0 0 ((s.cx k).eventOf n) 0 0 fun s => s.advance k 4).issued lc k) :=
  issue_legal h 4 fun k s =>
    let e := (s.cx k).eventOf n
    if e < 256 then s.trapNow k trapEvent (BitVec.ofNat 32 e) else s.access k .post 0 0 e 0 0 fun s => s.advance k 4

theorem State.ctxAt_posted (s : State) (k e : Nat) :
    (s.posted k e).ctxAt k = { s.ctxAt k with jour := (s.ctxAt k).jour ++ [{ id := s.opNext, kind := .post, addr := 0, w := 0, data := e }] } := by
  rw [State.posted, State.enter, State.ctxAt_of_ctxs (State.setLc_ctxs ..), State.ctxAt_modCtx_same]
  rfl

/-- What the posting context and its core hold once the event is journaled. -/
theorem State.posted_shows (s : State) (k e : Nat) :
    ((s.posted k e).advance k 4).ops = s.ops ++ [s.postOp k e] ∧
      (((s.posted k e).advance k 4).lcAt (k / 32)).buf = (s.lcAt (k / 32)).buf ++ [{ id := s.opNext, tick := s.kaNow }] ∧
      ((s.posted k e).advance k 4).postings = s.postings ∧
      (((s.posted k e).advance k 4).ctxAt k).jour = (s.ctxAt k).jour ++ [{ id := s.opNext, kind := .post, addr := 0, w := 0, data := e }] ∧
      (((s.posted k e).advance k 4).cx k).pc = (s.cx k).pc + 4 ∧ (((s.posted k e).advance k 4).cx k).g = (s.cx k).g ∧
      ((s.posted k e).advance k 4).mem = s.mem := by
  have hctx := s.ctxAt_posted k e
  have hcx : (s.posted k e).cx k = s.cx k := by rw [State.cx, hctx, State.cx]
  refine ⟨by simp [State.advance, State.posted, State.enter], ?_, by simp [State.advance, State.posted, State.enter], ?_, ?_, ?_,
    by simp [State.advance, State.posted, State.enter]⟩
  · rw [State.advance, State.lcAt_of_lcores (State.modCx_lcores ..), State.posted, State.enter, State.lcAt_setLc_same]
    rfl
  · rw [State.advance, State.ctxAt_modCx_same, hctx]
  · rw [State.advance, State.cx_modCx_same, hcx]
    rfl
  · rw [State.advance, State.cx_modCx_same, hcx]

/-! ## Release -/

theorem State.quiet_fenceDone (s : State) (k : Nat) : s.Quiet (s.fenceDone k) := by
  unfold State.fenceDone
  dsimp only
  split
  · split
    · exact State.Quiet.modCtx s k _
    · exact (State.Quiet.modCtx s k _).trans (State.Quiet.toSt _ k .ready)
  · exact State.Quiet.refl s

/-- The release buffer of a core is empty, and nothing else has changed. -/
def State.emptied (s : State) (n : Nat) : State :=
  let s := s.setLc n (s.lcAt n).aged
  s.setLc n { s.lcAt n with buf := [] }

theorem State.emptied_released (s : State) (n id : Nat) : (s.emptied n).released n id = true := by
  rw [State.released, State.emptied, State.lcAt_setLc_same]
  rfl

/-- A posting leaves from the island of its core's pair (R265, R296). -/
theorem State.performOwn_post {s : State} {o : Op} (hkind : o.kind = .post) (nsym : Nat) :
    s.performOwn o nsym = (s.postFrom (Island.cp (s.pairOfCore (o.ctx / 32))).index o.data).opDone o 0 false false := by
  rw [State.performOwn, hkind]

theorem State.performOwn_post_shows {s : State} {o : Op} (hops : s.ops = [o]) (hkind : o.kind = .post) :
    (s.performOwn o 0).ops = [] ∧ (s.performOwn o 0).mem = s.mem ∧ (∀ n, (s.performOwn o 0).lcAt n = s.lcAt n) ∧
      (s.performOwn o 0).postings =
        s.postings ++ [⟨o.data, (List.range 16).filter s.coreExists, (Island.cp (s.pairOfCore (o.ctx / 32))).index⟩] := by
  rw [State.performOwn_post hkind, State.opDone]
  dsimp only
  rw [if_neg (by simp)]
  refine ⟨?_, rfl, fun n => rfl, rfl⟩
  rw [State.modCtx_ops]
  simp [State.postFrom, State.pulse, hops]

/-- The one entry of a core's release buffer, a posting, is released: it is performed, and the core goes on (R309). -/
theorem State.cycle_posts {s : State} {n cyc : Nat} {o : Op} {tick : Int} (hops : s.ops = [o]) (hkind : o.kind = .post) (hslot : o.slot = false)
    (hcore : o.ctx / 32 = n) (hbuf : (s.lcAt n).buf = [{ id := o.id, cyc := cyc, tick := tick }]) (hdue : 2 ≤ cyc ∨ tick < s.kaNow) :
    s.cycle n = ((coreCtxs n).foldl State.fenceDone ((s.emptied n).performOwn o 0)).wakeOps n := by
  have hold : (decide (2 ≤ cyc) || decide (tick < s.kaNow)) = true := by simpa using hdue
  have hmay : (s.emptied n).mayPerform n o = true := by
    simp [State.mayPerform, hcore, hslot, State.emptied_released, State.orderly, show (s.emptied n).ops = [o] from hops]
  have hflush : (s.emptied n).flush n 1 = (s.emptied n).performOwn o 0 := by
    rw [State.flush, show (s.emptied n).ops = [o] from hops, List.find?_cons, hmay]
    rfl
  have hdone : ((s.emptied n).performOwn o 0).ops = [] := (State.performOwn_post_shows (s := s.emptied n) hops hkind).1
  have hquiet : ((s.emptied n).performOwn o 0).Quiet (((coreCtxs n).foldl State.fenceDone ((s.emptied n).performOwn o 0)).wakeOps n) :=
    (State.Quiet.foldl State.quiet_fenceDone _ _).trans (State.Yields.wakeOps _ n).toQuiet
  have hleaves : (s.setLc n (s.lcAt n).aged).leaves n [{ id := o.id, cyc := cyc, tick := tick }] [] =
      ((coreCtxs n).foldl State.fenceDone ((s.emptied n).performOwn o 0)).wakeOps n := by
    unfold State.leaves
    rw [if_neg (by simp)]
    change (if (State.flush (s.emptied n) n (s.emptied n).ops.length).ops.length = (s.emptied n).ops.length then _ else
      ((coreCtxs n).foldl State.fenceDone (State.flush (s.emptied n) n (s.emptied n).ops.length)).wakeOps n) = _
    rw [show (s.emptied n).ops = [o] from hops, List.length_singleton, hflush, hdone, if_neg (by simp)]
  rw [State.cycle, if_neg (by simp [hbuf])]
  simp only [hbuf, List.filter_cons, List.filter_nil, hold, if_true, Bool.not_true, Bool.false_eq_true, if_false, List.map_nil, hleaves,
    hquiet.ops, hdone, List.length_nil, State.windowPump]

/-- Settles O16: arrivals, deadlines, SEND.EV, and the release of a posting. -/
theorem eventDelivery : Obligations.EventDelivery := by
  refine ⟨⟨?arrival, ?order, ?deadline⟩, ?sendEv, ?release⟩
  case arrival =>
    intro s lc ev p hfind hfirst hmove hrun hdue waits
    obtain ⟨hev, hto⟩ : p.ev = ev.toNat ∧ p.left.contains lc.val = true := by simpa using List.find?_some hfind
    obtain ⟨l, hl⟩ := State.deliver_alone hfind hfirst
    have hexec := (exec_eventPostingArrival hdue (List.mem_of_find?_eq_some hfind) hev hto).trans (congrArg Host.Outcome.next hl)
    have hwaits (i : Nat) (hi : i < 32) (hw : waits i) : 32 * lc.val + i ∈ State.waiters { s with postings := l } lc ev.toNat :=
      State.mem_waiters.mpr ⟨⟨i, hi, rfl⟩, hw⟩
    refine ⟨fun ⟨i, hi, hw⟩ => ?_, fun hnone => ?_⟩
    · obtain ⟨hpend, hcx⟩ := State.arrive_wakes_shows (s := { s with postings := l }) hmove hrun (List.ne_nil_of_mem (hwaits i hi hw))
      exact ⟨_, hexec, hpend, fun i hi hw => hcx _ (hwaits i hi hw)⟩
    · have hempty : State.waiters { s with postings := l } lc ev.toNat = [] := by
        refine List.eq_nil_iff_forall_not_mem.mpr fun k hk => ?_
        obtain ⟨⟨i, hi, rfl⟩, hw⟩ := State.mem_waiters.mp hk
        exact hnone i hi hw
      rw [State.arrive_pends (s := { s with postings := l }) hmove hempty] at hexec
      exact ⟨_, hexec, State.testBit_pended _ lc ev.toNat, fun k => rfl⟩
  case order =>
    intro s lc p q ev hs hisl hq hp hev hne hmove hdue hnone
    have hexec := (exec_eventPostingArrival hdue (p := p) (by simp [hs]) hev (by simp [hp])).trans
      (congrArg Host.Outcome.next (State.deliver_pair hs hisl hq hp hev (hev ▸ hne)))
    have hempty (t : State) (ht : t.ctxs = s.ctxs) (e : Nat) : t.waiters lc e = [] := by
      refine List.eq_nil_iff_forall_not_mem.mpr fun k hk => ?_
      obtain ⟨⟨i, hi, rfl⟩, hw, -⟩ := State.mem_waiters.mp hk
      exact hnone _ (by omega) (State.cx_of_ctxs ht _ ▸ hw)
    rw [State.arrive_pends (s := { s with postings := [] }) hmove (hempty _ rfl _),
      State.arrive_pends (s := State.pended { s with postings := [] } lc q.ev) hmove (hempty _ rfl _)] at hexec
    refine ⟨_, hexec, rfl, fun e => ?_⟩
    rw [State.testBit_pended, State.testBit_pended, hev]
    rfl
  case deadline =>
    intro s lc i d k r hrun hd hdue hoff
    refine ⟨fun hst => ⟨_, exec_waitDeadline_waitt hrun hd hdue hst, ?_⟩, fun hst => ⟨_, exec_waitDeadline_waitev hrun hd hdue hst, ?_⟩⟩
    · obtain ⟨st, hcx⟩ := s.cx_woken k lc fun r => { r with pc := r.pc + 4, deadline := none }
      rw [hcx]
      exact ⟨rfl, rfl, rfl, rfl⟩
    · obtain ⟨st, hcx⟩ := s.cx_woken k lc fun r => { r.setP r.waitPd false with pc := r.pc + 4, deadline := none }
      rw [hcx]
      exact ⟨rfl, rfl, rfl, by rw [CtxRegs.setP_eq]⟩
  case sendEv =>
    intro s k lc gs gp n r ev o hexe
    have hev : ev = r.eventOf n := by cases n <;> rfl
    have hexec := exec_sendEv (n := n) (s := s) (lc := lc) (gs := gs) (gp := gp) (k := k) (by cases n <;> exact hexe)
    refine ⟨fun hlow => ?_, fun hhigh hreplay hroom => ?_⟩
    · rw [hexec, if_pos (hev ▸ hlow), hev]
      rfl
    · rw [if_neg (by rw [← hev]; omega), State.access_post hreplay hroom, ← hev] at hexec
      exact ⟨_, hexec, s.posted_shows k ev⟩
  case release =>
    intro s n cyc o tick hops hkind hslot hcore hbuf hdue t
    obtain ⟨hops', hmem, hlc, hpostings⟩ := State.performOwn_post_shows (s := s.emptied n) hops hkind
    have hquiet : ((s.emptied n).performOwn o 0).Quiet t := by
      rw [show t = _ from State.cycle_posts hops hkind hslot hcore hbuf hdue]
      exact (State.Quiet.foldl State.quiet_fenceDone _ _).trans (State.Yields.wakeOps _ n).toQuiet
    refine ⟨hquiet.ops.trans hops', ?_, hquiet.mem.trans hmem, hquiet.postings.trans (hcore ▸ hpostings)⟩
    rw [hquiet.released, State.released, hlc]
    exact s.emptied_released n o.id

end Sys2Proof.Machine
end

section
/-! The isolated bank: the filter of a channel, its latch, the lanes, and the field supply (R223 to R227). -/

namespace Sys2Proof.Machine

/-! ## Happenings of a time that has come -/

theorem State.atTick_of_le {s : State} {t : Nat} (h : t ≤ s.tb) (f : State → State) : s.atTick t f = .next (f s) := if_pos h

theorem State.atKa_of_le {s : State} {t : Int} (h : t ≤ s.kaNow) (f : State → State) : s.atKa t f = .next (f s) := if_pos h

/-! ## Records -/

@[simp] theorem State.ioAt_setIo_same (s : State) (n : Nat) (v : Io) : (s.setIo n v).ioAt n = v := tget_tset_same ..

theorem State.ioAt_setIo_ne (s : State) {n m : Nat} (v : Io) (h : m ≠ n) : (s.setIo n v).ioAt m = s.ioAt m := tget_tset_ne _ _ _ h

theorem State.ioAt_of_ios {s t : State} (h : t.ios = s.ios) (n : Nat) : t.ioAt n = s.ioAt n := by
  rw [State.ioAt, State.ioAt, h]

theorem State.KeepsRegs.postIf {offs : List Nat} (s : State) (c : Bool) (ev : Nat) : s.KeepsRegs (s.postIf c ev) offs := by
  cases c
  · exact .refl s offs
  · exact .of_regs (State.post_regs s ev) offs

theorem State.postIf_postings (s : State) (c : Bool) (ev : Nat) :
    (s.postIf c ev).postings = s.postings ++ if c then [s.posting ev] else [] := by
  cases c
  · exact (List.append_nil _).symm
  · rfl

theorem State.postIf_ios (s : State) (c : Bool) (ev : Nat) : (s.postIf c ev).ios = s.ios := by
  cases c <;> rfl

/-! ## VALID of every channel -/

theorem State.ioValid_frame (s : State) : ∃ rg, s.ioValid = { s with regs := rg } := by
  have hfold : ∀ (l : List Nat) (t : State), ∃ rg,
      l.foldl (fun t n => t.setBit (ioPg n) R.IO.STAT.VALID (t.fieldOk && !(t.ioAt n).laneLost)) t = { t with regs := rg } := by
    intro l
    induction l with
    | nil => exact fun t => ⟨t.regs, rfl⟩
    | cons n l ih =>
      intro t
      obtain ⟨rg, h⟩ := ih (t.setBit (ioPg n) R.IO.STAT.VALID (t.fieldOk && !(t.ioAt n).laneLost))
      exact ⟨rg, h⟩
  exact hfold _ s

/-- VALID alone is written: every field apart from it stays. -/
theorem State.fld_ioValid (s : State) (pg : Nat) {f : Fld} (h : R.IO.STAT.VALID.Apart f) (hoff : f.off < 0x1000) :
    s.ioValid.fld pg f = s.fld pg f := by
  have hone (t : State) (n : Nat) (b : Bool) : (t.setBit (ioPg n) R.IO.STAT.VALID b).fld pg f = t.fld pg f := by
    by_cases hpg : pg = ioPg n
    · rw [hpg]
      exact State.fld_setFld_apart t _ _ h
    · exact State.fld_setFld_page t _ hpg (by decide) hoff
  have hfold : ∀ (l : List Nat) (t : State),
      (l.foldl (fun t n => t.setBit (ioPg n) R.IO.STAT.VALID (t.fieldOk && !(t.ioAt n).laneLost)) t).fld pg f = t.fld pg f := by
    intro l
    induction l with
    | nil => exact fun _ => rfl
    | cons n l ih => exact fun t => (ih _).trans (hone t n _)
  exact hfold _ s

theorem State.keepsRegs_ioValid (s : State) : s.KeepsRegs s.ioValid [0x10c] :=
  State.KeepsRegs.foldl (fun t n => .setBit t (ioPg n) R.IO.STAT.VALID _ (by simp) (by simp)) _ s

/-- Show VALID of one channel. -/
def State.ioShow (s : State) (n : Nat) : State := s.setBit (ioPg n) R.IO.STAT.VALID (s.fieldOk && !(s.ioAt n).laneLost)

theorem State.bit_ioShow_ne (s : State) {n m : Nat} (h : n ≠ m) (f : Fld) (hoff : f.off < 0x1000) :
    (s.ioShow m).bit (ioPg n) f = s.bit (ioPg n) f :=
  State.bit_setFld_page s _ (by simp only [ioPg]; omega) (by decide) hoff

/-- VALID shows whether the field supply is OK and the lane is there (R226, R227). -/
theorem State.valid_ioValid (s : State) {n : Nat} (hn : n < 16) :
    s.ioValid.bit (ioPg n) R.IO.STAT.VALID = (s.fieldOk && !(s.ioAt n).laneLost) := by
  have hkeep : ∀ (l : List Nat) (t : State), n ∉ l → (l.foldl State.ioShow t).bit (ioPg n) R.IO.STAT.VALID = t.bit (ioPg n) R.IO.STAT.VALID := by
    intro l
    induction l with
    | nil => exact fun _ _ => rfl
    | cons m l ih =>
      intro t h
      obtain ⟨hm, hl⟩ : n ≠ m ∧ n ∉ l := by simpa using h
      exact (ih _ hl).trans (State.bit_ioShow_ne t hm _ (by decide))
  have hshown : ∀ (l : List Nat) (t : State), l.Nodup → n ∈ l →
      (l.foldl State.ioShow t).bit (ioPg n) R.IO.STAT.VALID = (t.fieldOk && !(t.ioAt n).laneLost) := by
    intro l
    induction l with
    | nil => exact fun _ _ h => absurd h List.not_mem_nil
    | cons m l ih =>
      intro t hnd hmem
      obtain ⟨hm, hl⟩ := List.nodup_cons.mp hnd
      rcases List.mem_cons.mp hmem with rfl | hmem
      · exact (hkeep l _ hm).trans (State.bit_setBit_same t _ _ _ rfl (by decide))
      · exact ih (t.ioShow m) hl hmem
  exact hshown _ s List.nodup_range (List.mem_range.mpr hn)

/-! ## The filter -/

/-- The counter of a channel's filter after a raw value (R218). -/
def State.ioStep (s : State) (n : Nat) (raw : Bool) : Nat :=
  if raw then min ((s.ioAt n).c + 1) (s.fld (ioPg n) R.IO.CFG.TH) else (s.ioAt n).c - 1

/-- The raw value turns the channel's state, or its readback (R218). -/
def State.ioTurns (s : State) (n : Nat) (raw : Bool) : Bool :=
  if raw then !s.bit (ioPg n) (ioBit (s.ioMode n)) && decide (s.ioStep n raw = s.fld (ioPg n) R.IO.CFG.TH)
  else s.bit (ioPg n) (ioBit (s.ioMode n)) && decide (s.ioStep n raw = 0)

/-- The filter's record after a raw value. -/
def State.ioStepped (s : State) (n : Nat) (raw : Bool) : State := s.setIo n { s.ioAt n with c := s.ioStep n raw, raw := raw }

theorem State.filterStep_io (s : State) (n : Nat) (raw : Bool) :
    filterStep (s.fld (ioPg n) R.IO.CFG.TH) (s.ioAt n).c raw (s.bit (ioPg n) (ioBit (s.ioMode n))) = (s.ioStep n raw, s.ioTurns n raw) := by
  cases raw <;> cases hst : s.bit (ioPg n) (ioBit (s.ioMode n)) <;> simp [filterStep, State.ioStep, State.ioTurns, hst]

/-- What turns goes to the raw value. -/
theorem State.raw_of_ioTurns {s : State} {n : Nat} {raw : Bool} (h : s.ioTurns n raw = true) :
    (!s.bit (ioPg n) (ioBit (s.ioMode n))) = raw := by
  cases raw <;> simp_all [State.ioTurns]

section
variable {s : State} {n : Nat} {raw : Bool} (hrun : (s.ioAt n).run = true)
include hrun

theorem State.ioFilter_of_run : s.ioFilter n raw =
    if !s.ioTurns n raw then s.ioStepped n raw
    else if s.ioMode n = 4 then
      ((s.ioStepped n raw).setIo n { (s.ioStepped n raw).ioAt n with rbConf := false }).setBit (ioPg n) R.IO.STAT.RB (!s.bit (ioPg n) (ioBit (s.ioMode n)))
    else (s.ioStepped n raw).ioChange n (!s.bit (ioPg n) (ioBit (s.ioMode n))) := by
  unfold State.ioFilter
  dsimp only
  rw [if_neg (by simp [hrun]), State.filterStep_io]
  rfl

theorem State.ioFilter_stays (h : s.ioTurns n raw = false) : s.ioFilter n raw = s.ioStepped n raw := by
  rw [State.ioFilter_of_run hrun, if_pos (by simp [h])]

theorem State.ioFilter_turns_readback (h : s.ioTurns n raw = true) (hmode : s.ioMode n = 4) : s.ioFilter n raw =
    ((s.ioStepped n raw).setIo n { (s.ioStepped n raw).ioAt n with rbConf := false }).setBit (ioPg n) R.IO.STAT.RB raw := by
  rw [State.ioFilter_of_run hrun, if_neg (by simp [h]), if_pos hmode, State.raw_of_ioTurns h]

theorem State.ioFilter_turns_state (h : s.ioTurns n raw = true) (hmode : s.ioMode n ≠ 4) : s.ioFilter n raw =
    (s.ioStepped n raw).ioChange n raw := by
  rw [State.ioFilter_of_run hrun, if_neg (by simp [h]), if_neg hmode, State.raw_of_ioTurns h]

end

theorem State.ioChange_shows (s : State) (n : Nat) (st : Bool) :
    (s.ioChange n st).ios = s.ios ∧ (s.ioChange n st).bit (ioPg n) R.IO.STAT.ST = st ∧
      (s.ioChange n st).postings = s.postings ++ if (s.fld isoPg R.ISO.EVEN.EN).testBit n then [s.posting (if n < 8 then 168 else 169)] else [] := by
  have hkeep : s.KeepsRegs ((s.setBit (ioPg n) R.IO.STAT.ST st).count (ioPg n) 0) [0x10c] :=
    (State.KeepsRegs.setBit s _ _ st (by simp) (by simp)).trans (.count _ _ (by decide))
  refine ⟨?_, ?_, ?_⟩
  · exact (State.postIf_ios ..).trans (State.count_ios ..)
  · rw [State.ioChange, (State.KeepsRegs.postIf (offs := []) _ _ _).bit _ (by decide) (by simp),
      (State.KeepsRegs.count (offs := []) _ _ (by decide)).bit _ (by decide) (by simp), State.bit_setBit_same _ _ _ _ rfl (by decide)]
  · rw [State.ioChange, State.postIf_postings, hkeep.fld isoPg (by decide) (by decide), hkeep.posting (by decide), State.count_postings]
    rfl

/-- A channel's record as a sample arrives while its lane is there. -/
def Io.sampled (k : Io) (tb : Nat) : Io :=
  { k with last := some tb, laneLost := false, run := k.run && !k.laneLost, resume := k.resume || k.laneLost }

/-- A sample at its tick, with the bank OK and the lane there (R223, R226). -/
theorem exec_ioInputSample {s : State} {n : Fin 16} (hlow : 1 ≤ s.ioMode n) (hhigh : s.ioMode n ≤ 4) (hok : s.fieldOk = true)
    (hclk : s.clocked .io = true) (hpower : s.power ≠ .park) (hlane : (s.ioAt n).laneLost = false)
    (hdue : s.nextSample (s.ioPeriod n) (64 + n) (s.ioAt n).last ≤ s.tb) (v : Int) :
    exec (.ioInputSample n v) s =
      .next ((s.setIo n ((s.ioAt n).sampled s.tb)).ioFilter n (ioRaw (s.ioMode n) v (s.ioAt n).raw)) := by
  change execIoInputSample n v s = _
  rw [execIoInputSample, if_neg (by simp [hok, hclk, hpower]; omega), State.atTick_of_le hdue]
  simp only [hlane, Bool.false_eq_true, if_false, State.ioAt_setIo_same, Io.sampled]

/-- The filter's step shows in the counter, in the raw value, in the state or the readback, and in an event (R218, R219, R223). -/
theorem State.ioFilter_shows {s : State} {n : Nat} (hrun : (s.ioAt n).run = true) (raw : Bool) :
    ((s.ioFilter n raw).ioAt n).c = s.ioStep n raw ∧ ((s.ioFilter n raw).ioAt n).raw = raw ∧
      (s.ioFilter n raw).bit (ioPg n) (ioBit (s.ioMode n)) = (if s.ioTurns n raw then raw else s.bit (ioPg n) (ioBit (s.ioMode n))) ∧
      (s.ioFilter n raw).postings = s.postings ++
        (if s.ioTurns n raw ∧ s.ioMode n ≠ 4 ∧ (s.fld isoPg R.ISO.EVEN.EN).testBit n then [s.posting (if n < 8 then 168 else 169)] else []) := by
  have hrec : (s.ioStepped n raw).ioAt n = { s.ioAt n with c := s.ioStep n raw, raw := raw } := State.ioAt_setIo_same ..
  cases hturns : s.ioTurns n raw
  case false =>
    rw [State.ioFilter_stays hrun hturns, hrec]
    exact ⟨rfl, rfl, rfl, by simp [State.ioStepped, State.setIo]⟩
  case true =>
    by_cases hmode : s.ioMode n = 4
    · rw [State.ioFilter_turns_readback hrun hturns hmode, hmode]
      refine ⟨?_, ?_, State.bit_setBit_same _ (ioPg n) R.IO.STAT.RB raw rfl (by decide), by simp [State.ioStepped, State.setIo]⟩
      · rw [State.ioAt_of_ios (State.setBit_ios ..), State.ioAt_setIo_same, hrec]
      · rw [State.ioAt_of_ios (State.setBit_ios ..), State.ioAt_setIo_same, hrec]
    · rw [State.ioFilter_turns_state hrun hturns hmode]
      obtain ⟨hios, hst, hposts⟩ := (s.ioStepped n raw).ioChange_shows n raw
      rw [State.ioAt_of_ios hios, hrec, ioBit, if_neg hmode]
      refine ⟨rfl, rfl, hst, hposts.trans ?_⟩
      simp only [hmode, ne_eq, not_false_eq_true, true_and]
      rfl

/-- A sample's reading in a channel's raw value (R223). -/
theorem ioInputSample_filters {s : State} {n : Fin 16} (hlow : 1 ≤ s.ioMode n) (hhigh : s.ioMode n ≤ 4) (hok : s.fieldOk = true)
    (hclk : s.clocked .io = true) (hpower : s.power ≠ .park) (hrun : (s.ioAt n).run = true) (hlane : (s.ioAt n).laneLost = false)
    (hdue : s.nextSample (s.ioPeriod n) (64 + n) (s.ioAt n).last ≤ s.tb) (v : Int) :
    let raw := ioRaw (s.ioMode n) v (s.ioAt n).raw
    Gives (.ioInputSample n v) s fun t =>
      (t.ioAt n).c = s.ioStep n raw ∧ (t.ioAt n).raw = raw ∧
        t.bit (ioPg n) (ioBit (s.ioMode n)) = (if s.ioTurns n raw then raw else s.bit (ioPg n) (ioBit (s.ioMode n))) ∧
        t.postings = s.postings ++
          (if s.ioTurns n raw ∧ s.ioMode n ≠ 4 ∧ (s.fld isoPg R.ISO.EVEN.EN).testBit n then
            [s.posting (if n.val < 8 then 168 else 169)] else []) := by
  intro raw
  have hrec : (s.setIo n ((s.ioAt n).sampled s.tb)).ioAt n = (s.ioAt n).sampled s.tb := State.ioAt_setIo_same ..
  have hstep : (s.setIo n ((s.ioAt n).sampled s.tb)).ioStep n raw = s.ioStep n raw := by rw [State.ioStep, hrec]; rfl
  have hturns : (s.setIo n ((s.ioAt n).sampled s.tb)).ioTurns n raw = s.ioTurns n raw := by rw [State.ioTurns, hstep]; rfl
  have hshows := State.ioFilter_shows (s := s.setIo n ((s.ioAt n).sampled s.tb)) (n := n)
    (by rw [hrec]; simp [Io.sampled, hrun, hlane]) raw
  rw [hstep, hturns] at hshows
  exact ⟨_, exec_ioInputSample hlow hhigh hok hclk hpower hlane hdue v, hshows⟩

/-! ## The latch of a channel -/

section
variable {s : State} {n : Fin 16}

/-- A channel has latched, before its chain is evaluated (R225). -/
def State.ioLatched (s : State) (n bit : Nat) : State := ((s.detect (ioPg n) bit).setBit (ioPg n) R.IO.STAT.LATCH true).count (ioPg n) 1

theorem State.ioLatched_shows (s : State) (n : Nat) {bit : Nat} (h : bit < 32) :
    (s.ioLatched n bit).bit (ioPg n) R.IO.STAT.LATCH = true ∧ (s.ioLatched n bit).fstat (ioPg n) bit = true := by
  have hcount (t : State) : t.KeepsRegs (t.count (ioPg n) 1) [] := .count t _ (by decide)
  refine ⟨?_, ?_⟩
  · rw [State.ioLatched, (hcount _).bit _ (by decide) (by simp), State.bit_setBit_same _ _ _ _ rfl (by decide)]
  · rw [State.ioLatched, (hcount _).fstat (by simp), (State.KeepsRegs.setBit (offs := [0x10c]) _ _ _ _ (by simp) (by simp)).fstat (by decide),
      State.fstat_detect_same _ _ h]

theorem exec_ioCurrentLimit (hclk : s.clocked .pwr = true) (hon : s.ioOutOn n = true) (hdue : (s.ioAt n).edge + 100000 ≤ s.tb) :
    exec (.ioCurrentLimit n) s = .next ((s.ioLatched n 3).ioSettle n) :=
  (if_pos ⟨hclk, hon⟩).trans (State.atTick_of_le hdue _)

theorem exec_ioCurrentLimit_of_off (h : s.ioOutOn n = false ∨ s.clocked .pwr = false) : exec (.ioCurrentLimit n) s = .next s :=
  if_neg (by rintro ⟨hclk, hon⟩; simp [hclk, hon] at h)

theorem exec_ioTsd (hclk : s.clocked .pwr = true) (hmode : s.ioMode n = 4) : exec (.ioTsd n) s = .next ((s.ioLatched n 4).ioSettle n) :=
  if_pos ⟨hclk, hmode⟩

theorem exec_ioTsd_of_not_output (h : s.ioMode n ≠ 4 ∨ s.clocked .pwr = false) : exec (.ioTsd n) s = .next s :=
  if_neg (by rintro ⟨hclk, hmode⟩; simp [hclk, hmode] at h)

theorem exec_ioClr_of_stopped (hclk : s.clocked .pwr = false) : exec (.ioClr n) s = .next s := if_pos (by simp [hclk])

theorem ioClr_clears (hclk : s.clocked .pwr = true) (hlock : s.locked (ioPg n) = false) (hlat : s.bit (ioPg n) R.IO.STAT.LATCH = true) :
    GivesThen (.ioClr n) s (fun u => u.ioSettle n) fun u => u.bit (ioPg n) R.IO.STAT.LATCH = false ∧ u.code (ioPg n) = 0 := by
  refine ⟨(s.setBit (ioPg n) R.IO.STAT.LATCH false).ok (ioPg n), ?_, ?_, State.code_ok _ _⟩
  · exact (if_neg (by simp [hclk])).trans (if_neg (by simp [hlock, hlat]))
  · rw [(State.keepsRegs_ok (offs := [0x44]) _ _ (by simp)).bit _ (by decide) (by decide), State.bit_setBit_same _ _ _ _ rfl (by decide)]

theorem ioClr_refused (hclk : s.clocked .pwr = true) (h : s.locked (ioPg n) = true ∨ s.bit (ioPg n) R.IO.STAT.LATCH = false) :
    Refused (.ioClr n) s (ioPg n) :=
  (if_neg (by simp [hclk])).trans (if_pos (by simpa using h))

/-- A latched output is off, unless safe state or its held command governs it (R24, R225). -/
theorem State.ioSettle_of_latched (hclk : s.clocked .pwr = true) (hlat : s.bit (ioPg n) R.IO.STAT.LATCH = true) (hsafe : s.safe = false)
    (hheld : s.heldBit (80 + n.val) = false) : ((s.ioSettle n).ioAt n).cmd = false := by
  have hlvl : s.govLevel (80 + n.val) true (s.ioAt n).heldGov false = govLatch := by simp [State.govLevel, State.level1, hsafe, hheld]
  unfold State.ioSettle
  dsimp only
  rw [if_neg (by simp [hclk]), hlat, hlvl, State.ioAt_setIo_same]
  simp [govLatch, govSafe]

/-! ## The readback -/

theorem State.fstat_detectHeld (s : State) (was : Bool) (pg : Nat) {bit : Nat} (h : bit < 32) :
    (s.detectHeld was pg bit).fstat pg bit = true := by
  unfold State.detectHeld
  split
  next hwas =>
    simp only [Bool.and_eq_true] at hwas
    exact hwas.2
  next => exact State.fstat_detect_same s pg h

theorem State.KeepsRegs.detectHeld {offs : List Nat} (s : State) (was : Bool) (pg bit : Nat) (hm : 0x48 ∈ offs) :
    s.KeepsRegs (s.detectHeld was pg bit) offs := by
  unfold State.detectHeld
  split
  · exact .refl s offs
  · exact .detect s pg bit hm

theorem State.detectHeld_ios (s : State) (was : Bool) (pg bit : Nat) : (s.detectHeld was pg bit).ios = s.ios := by
  unfold State.detectHeld
  split
  · rfl
  · exact State.detect_ios ..

/-- A mismatch of the readback is reported, and turns nothing off (R225). -/
theorem readbackMismatch_reports (hclk : s.clocked .pwr = true) (hmode : s.ioMode n = 4) (hok : s.fieldOk = true) (hlane : (s.ioAt n).laneLost = false)
    (hrb : s.bit (ioPg n) R.IO.STAT.RB ≠ (s.ioAt n).cmd) (hdue : (s.ioAt n).edge + 150000 ≤ s.tb) :
    Gives (.readbackMismatch n) s fun t =>
      (t.ioAt n).rbConf = true ∧ t.fstat (ioPg n) (if (s.ioAt n).cmd then 2 else 1) = true ∧
      t.bit (ioPg n) R.IO.STAT.LATCH = s.bit (ioPg n) R.IO.STAT.LATCH ∧ (t.ioAt n).cmd = (s.ioAt n).cmd := by
  have hexec : exec (.readbackMismatch n) s = .next ((s.setIo n { s.ioAt n with rbConf := true }).detectHeld (s.ioAt n).rbConf (ioPg n)
      (if (s.ioAt n).cmd then 2 else 1)) :=
    (if_pos ⟨hclk, hmode, hok, by simp [hlane], hrb⟩).trans (State.atTick_of_le hdue _)
  refine ⟨_, hexec, ?_, State.fstat_detectHeld _ _ _ (by split <;> decide), ?_, ?_⟩
  · rw [State.ioAt_of_ios (State.detectHeld_ios ..), State.ioAt_setIo_same]
  · exact (State.KeepsRegs.detectHeld (offs := [0x48]) _ _ _ _ (by simp)).bit _ (by decide) (by decide)
  · rw [State.ioAt_of_ios (State.detectHeld_ios ..), State.ioAt_setIo_same]

theorem exec_readbackMismatch_of_stopped (hclk : s.clocked .pwr = false) : exec (.readbackMismatch n) s = .next s :=
  if_neg (by simp [hclk])

/-! ## The lanes -/

/-- A channel whose lane has just been lost (R224). -/
def State.laneGone (s : State) (n : Nat) : State := (s.setIo n { s.ioAt n with laneLost := true, quiet := some s.kaNow }).ioValid

theorem State.laneGone_shows (s : State) {n : Nat} (hn : n < 16) :
    ((s.laneGone n).ioAt n).laneLost = true ∧ ((s.laneGone n).ioAt n).quiet = some s.kaNow ∧
      (s.laneGone n).bit (ioPg n) R.IO.STAT.VALID = false ∧ (s.laneGone n).bit (ioPg n) R.IO.STAT.ST = s.bit (ioPg n) R.IO.STAT.ST := by
  obtain ⟨rg, hrg⟩ := (s.setIo n { s.ioAt n with laneLost := true, quiet := some s.kaNow }).ioValid_frame
  have hrec : (s.laneGone n).ioAt n = { s.ioAt n with laneLost := true, quiet := some s.kaNow } := by
    rw [State.laneGone, hrg]
    exact State.ioAt_setIo_same ..
  refine ⟨by rw [hrec], by rw [hrec], ?_, ?_⟩
  · rw [State.laneGone, State.valid_ioValid _ hn, State.ioAt_setIo_same, Bool.not_true, Bool.and_false]
  · rw [State.bit, State.laneGone, State.fld_ioValid _ _ (by simp) (by decide)]
    rfl

theorem State.laneGone_clocked (s : State) (n : Nat) (i : Island) : (s.laneGone n).clocked i = s.clocked i := by
  obtain ⟨rg, hrg⟩ := (s.setIo n { s.ioAt n with laneLost := true, quiet := some s.kaNow }).ioValid_frame
  rw [State.laneGone, hrg]
  rfl

/-- A lost lane is shown: the input holds its state and reads invalid (R224, R227). -/
theorem laneLoss_shows (hlane : (s.ioAt n).laneLost = false) : Gives (.laneLoss n) s fun t =>
    (t.ioAt n).laneLost = true ∧ t.bit (ioPg n) R.IO.STAT.VALID = false ∧ (t.ioAt n).quiet = some s.kaNow ∧
    (s.clocked .pwr = true → t.fstat (ioPg n) 5 = true) ∧ t.bit (ioPg n) R.IO.STAT.ST = s.bit (ioPg n) R.IO.STAT.ST := by
  have hexec : exec (.laneLoss n) s = .next (if (s.laneGone n).clocked .pwr then (s.laneGone n).detect (ioPg n) 5 else s.laneGone n) :=
    if_neg (by simp [hlane])
  obtain ⟨hlost, hquiet, hvalid, hst⟩ := s.laneGone_shows n.isLt
  refine ⟨_, hexec, ?_⟩
  rw [State.laneGone_clocked]
  cases hclk : s.clocked .pwr
  · exact ⟨hlost, hvalid, hquiet, fun h => absurd h (by decide), hst⟩
  · have hkeep : (s.laneGone n).KeepsRegs ((s.laneGone n).detect (ioPg n) 5) [0x48] := .detect _ _ _ (by simp)
    have hios := State.ioAt_of_ios (State.detect_ios (s.laneGone n) (ioPg n) 5) n
    simp only [if_true]
    rw [hios, hkeep.bit _ (by decide) (by decide), hkeep.bit _ (by decide) (by decide)]
    exact ⟨hlost, hvalid, hquiet, fun _ => State.fstat_detect_same _ _ (by decide), hst⟩

theorem exec_fieldCommandTimeout {a : Int} (hquiet : (s.ioAt n).quiet = some a) (hdue : a + 2000 ≤ s.kaNow) :
    exec (.fieldCommandTimeout n) s = .next (s.setIo n { s.ioAt n with cmdLost := true }) := by
  change execFieldCommandTimeout n s = _
  rw [execFieldCommandTimeout, hquiet]
  exact State.atKa_of_le hdue _

theorem exec_fieldCommandTimeout_of_heard (hquiet : (s.ioAt n).quiet = none) : exec (.fieldCommandTimeout n) s = .next s := by
  change execFieldCommandTimeout n s = _
  rw [execFieldCommandTimeout, hquiet]

end

/-! ## The field supply -/

theorem fieldState_eq (v : Int) (st : Nat) : fieldState v st =
    if v < 10000 then 0 else if v < 16000 then 1 else if 34000 < v then 3 else if 18000 ≤ v ∧ v ≤ 32000 then 2 else st := by
  unfold fieldState
  split_ifs <;> omega

/-- A state that the supply enters has a code of FS.ST. -/
theorem fieldState_lt {v : Int} {st : Nat} (h : fieldState v st ≠ st) : fieldState v st < 4 := by
  revert h
  unfold fieldState
  split_ifs <;> simp

theorem fieldDwell_cast (st : Nat) : ((fieldDwell st : Nat) : Int) = if st = 2 then 1000000 else if st = 3 then 10000 else 100000 := by
  unfold fieldDwell
  split_ifs <;> rfl

/-- A detection of a page that asks for no event posts nothing (R60). -/
theorem State.detect_postings_of_no_irq {s : State} {pg : Nat} (h : s.reg pg 0x050 = 0) (bit : Nat) : (s.detect pg bit).postings = s.postings := by
  obtain ⟨r, hr⟩ := State.raises_eq (.page pg) (s.blkSources pg bit) (s.setReg pg 0x048 (s.reg pg 0x048 ||| 1 <<< bit))
  unfold State.detect State.detectAs
  dsimp only
  rw [if_pos (by simp [h])]
  split
  · rw [hr]
    rfl
  · rfl

/-- The bank folder shows the supply's state, with event 171 at a change (R226). -/
def State.fieldShow (s : State) : State :=
  if s.fld isoPg R.ISO.FS.ST = s.fsDie then s else (s.setFld isoPg R.ISO.FS.ST s.fsDie).post 171

theorem State.fieldTell_eq (s : State) : s.fieldTell =
    if s.fsDie = 0 then s.fieldShow.detect isoPg 1 else if s.fsDie = 1 then s.fieldShow.detect isoPg 2
    else if s.fsDie = 3 then s.fieldShow.detect isoPg 3 else s.fieldShow := rfl

/-- What `fieldTell` changes: registers, and what a detection and a posting send. -/
theorem State.fieldTell_frame (s : State) : ∃ rg ra po ca pu, s.fieldTell = { s with regs := rg, raises := ra, postings := po, capPend := ca, pulses := pu } := by
  have hshow : ∃ rg po ca pu, s.fieldShow = { s with regs := rg, postings := po, capPend := ca, pulses := pu } := by
    unfold State.fieldShow
    split
    · exact ⟨s.regs, s.postings, s.capPend, s.pulses, rfl⟩
    · exact ⟨_, _, _, _, rfl⟩
  obtain ⟨rg, po, ca, pu, hshow⟩ := hshow
  have hdetect (bit : Nat) : ∃ rg ra po ca pu, s.fieldShow.detect isoPg bit = { s with regs := rg, raises := ra, postings := po, capPend := ca, pulses := pu } := by
    obtain ⟨rg', ra, po', ca', pu', h⟩ := s.fieldShow.detectAs_eq isoPg bit (s.fieldShow.blkSources isoPg bit) (.page isoPg)
    rw [State.detect, h, hshow]
    exact ⟨rg', ra, _, _, _, rfl⟩
  rw [State.fieldTell_eq]
  split_ifs
  · exact hdetect 1
  · exact hdetect 2
  · exact hdetect 3
  · exact ⟨rg, s.raises, po, ca, pu, hshow⟩

theorem State.keepsRegs_fieldShow (s : State) : s.KeepsRegs s.fieldShow [0x400] := by
  unfold State.fieldShow
  split
  · exact .refl s _
  · exact (State.KeepsRegs.setFld s isoPg R.ISO.FS.ST _ (by simp) (by decide)).trans (.of_regs (State.post_regs ..) _)

theorem State.fieldShow_st {s : State} (h : s.fsDie < 4) : s.fieldShow.fld isoPg R.ISO.FS.ST = s.fsDie := by
  unfold State.fieldShow
  split
  next heq => exact heq
  next =>
    rw [State.fld_of_regs (State.post_regs ..)]
    exact State.fld_setFld_fits s isoPg R.ISO.FS.ST _ (by decide) (by decide) (by simpa using h)

theorem State.fieldShow_postings {s : State} (h : s.fld isoPg R.ISO.FS.ST ≠ s.fsDie) :
    s.fieldShow.postings = s.postings ++ [s.posting 171] := by
  rw [State.fieldShow, if_neg h, State.post_postings,
    (State.KeepsRegs.setFld (offs := [0x400]) s isoPg R.ISO.FS.ST _ (by simp) (by decide)).posting (by decide)]
  rfl

/-- What the bank folder shows of the state entered: FS.ST, and the bit of its status (R226, R229). -/
theorem State.fieldTell_shows {s : State} (h : s.fsDie < 4) :
    s.fieldTell.fld isoPg R.ISO.FS.ST = s.fsDie ∧ (s.fsDie = 0 → s.fieldTell.fstat isoPg 1 = true) ∧
      (s.fsDie = 1 → s.fieldTell.fstat isoPg 2 = true) ∧ (s.fsDie = 3 → s.fieldTell.fstat isoPg 3 = true) := by
  have hst := State.fieldShow_st h
  have hkeep (bit : Nat) : (s.fieldShow.detect isoPg bit).fld isoPg R.ISO.FS.ST = s.fsDie :=
    ((State.KeepsRegs.detect (offs := [0x48]) _ _ _ (by simp)).fld _ (by decide) (by decide)).trans hst
  rw [State.fieldTell_eq]
  split_ifs with h0 h1 h3
  · exact ⟨hkeep 1, fun _ => State.fstat_detect_same _ _ (by decide), by omega, by omega⟩
  · exact ⟨hkeep 2, by omega, fun _ => State.fstat_detect_same _ _ (by decide), by omega⟩
  · exact ⟨hkeep 3, by omega, by omega, fun _ => State.fstat_detect_same _ _ (by decide)⟩
  · exact ⟨hst, by omega, by omega, by omega⟩

theorem State.fieldTell_postings {s : State} (hirq : s.reg isoPg 0x050 = 0) : s.fieldTell.postings = s.fieldShow.postings := by
  have hirq' : s.fieldShow.reg isoPg 0x050 = 0 := (s.keepsRegs_fieldShow.reg isoPg 0x050 (by decide) (by decide)).trans hirq
  rw [State.fieldTell_eq]
  split_ifs
  · exact State.detect_postings_of_no_irq hirq' 1
  · exact State.detect_postings_of_no_irq hirq' 2
  · exact State.detect_postings_of_no_irq hirq' 3
  · rfl

/-- The isolated die has found a state of its supply (R226). -/
def State.fieldFound (s : State) (new : Nat) : State := { s with fsDie := new, fsNew := false, fsAt := s.kaNow }

/-- A channel starts anew as the supply returns (R226). -/
def Io.restarted (k : Io) (tb : Nat) : Io :=
  { k with run := false, resume := k.resume || k.run, edge := if k.cmd then tb else k.edge, rbConf := false }

def State.ioRestart (s : State) (n : Nat) : State := s.setIo n ((s.ioAt n).restarted s.tb)

/-- Filters restart on the return to OK (R226). -/
def State.ioRestarts (s : State) (new : Nat) : State := if new = 2 then (List.range 16).foldl State.ioRestart s else s

theorem State.fieldEnter_eq (s : State) (new : Nat) : s.fieldEnter new =
    (State.ioRestarts (if s.clocked .pwr then (s.fieldFound new).fieldTell else s.fieldFound new) new).ioValid := rfl

theorem State.ioRestart_fold_frame : ∀ (l : List Nat) (s : State), ∃ io, l.foldl State.ioRestart s = { s with ios := io }
  | [], s => ⟨s.ios, rfl⟩
  | n :: l, s => by
    obtain ⟨io, h⟩ := State.ioRestart_fold_frame l (s.ioRestart n)
    exact ⟨io, h⟩

theorem State.ioRestarts_frame (s : State) (new : Nat) : ∃ io, s.ioRestarts new = { s with ios := io } := by
  unfold State.ioRestarts
  split
  · exact State.ioRestart_fold_frame _ s
  · exact ⟨s.ios, rfl⟩

theorem State.run_of_ioRestart_fold {n : Nat} : ∀ (l : List Nat) (s : State), (s.ioAt n).run = false ∨ n ∈ l →
    ((l.foldl State.ioRestart s).ioAt n).run = false
  | [], _, h => h.resolve_right List.not_mem_nil
  | m :: l, s, h => by
    refine State.run_of_ioRestart_fold l (s.ioRestart m) ?_
    by_cases hm : n = m
    · rw [hm, State.ioRestart, State.ioAt_setIo_same]
      exact .inl rfl
    · rw [State.ioRestart, State.ioAt_setIo_ne s _ hm]
      exact h.imp_right fun hmem => (List.mem_cons.mp hmem).resolve_left hm

/-- What entering a state leaves of the fields that show it. -/
theorem State.fieldEnter_shows {s t : State} {new : Nat} (h : (if s.clocked .pwr then (s.fieldFound new).fieldTell else s.fieldFound new) = t) :
    (s.fieldEnter new).fsDie = t.fsDie ∧ (s.fieldEnter new).fsNew = t.fsNew ∧ (s.fieldEnter new).fsAt = t.fsAt ∧
      (s.fieldEnter new).postings = t.postings ∧ (s.fieldEnter new).fld isoPg R.ISO.FS.ST = t.fld isoPg R.ISO.FS.ST ∧
      (∀ b, (s.fieldEnter new).fstat isoPg b = t.fstat isoPg b) ∧ (new = 2 → ∀ n, n < 16 → ((s.fieldEnter new).ioAt n).run = false) := by
  rw [State.fieldEnter_eq, h]
  obtain ⟨rg, hrg⟩ := (t.ioRestarts new).ioValid_frame
  obtain ⟨io, hio⟩ := t.ioRestarts_frame new
  have hkeep := (t.ioRestarts new).keepsRegs_ioValid
  refine ⟨by rw [hrg, hio], by rw [hrg, hio], by rw [hrg, hio], by rw [hrg, hio], ?_, fun b => ?_, fun hnew n hn => ?_⟩
  · rw [hkeep.fld _ (by decide) (by decide), hio]
    rfl
  · rw [hkeep.fstat (by decide), hio]
    rfl
  · have hrun : ((t.ioRestarts new).ioAt n).run = false := by
      rw [State.ioRestarts, if_pos hnew]
      exact State.run_of_ioRestart_fold _ t (.inr (List.mem_range.mpr hn))
    rw [hrg]
    exact hrun

theorem State.diesWait_of_clocked {s : State} (h : s.clocked .pwr = true) : s.diesWait = false := by
  simp only [State.clocked, Island.index, State.diesWait] at h ⊢
  simp at h ⊢
  tauto

/-- The measured voltage is shown (R226). -/
def State.fieldMeasured (s : State) (v : Int) : State := s.setFld isoPg R.ISO.FS.VMEAS (min 0xFFFF (max 0 v / 10).toNat)

theorem State.keepsRegs_fieldMeasured (s : State) (v : Int) : s.KeepsRegs (s.fieldMeasured v) [0x400] :=
  .setFld s isoPg R.ISO.FS.VMEAS _ (by simp) (by decide)

theorem State.fieldMeasured_st (s : State) (v : Int) : (s.fieldMeasured v).fld isoPg R.ISO.FS.ST = s.fld isoPg R.ISO.FS.ST :=
  State.fld_setFld_apart s isoPg _ (by simp)

section
variable {s : State} {v : Int}

/-- A voltage that has stood for its time, with the PWR clock (R226). -/
theorem exec_fieldSupplyChange_enters (hclk : s.clocked .pwr = true) (hchange : fieldState v s.fsDie ≠ s.fsDie ∨ s.fsNew = true ∧ v < 10000)
    (hdue : s.fsAt + fieldDwell (fieldState v s.fsDie) ≤ s.kaNow) :
    exec (.fieldSupplyChange v) s = .next ((s.fieldMeasured v).fieldEnter (fieldState v s.fsDie)) := by
  change execFieldSupplyChange v s = _
  unfold execFieldSupplyChange
  rw [if_neg (by simp [State.diesWait_of_clocked hclk]), if_pos hclk]
  simp only [State.setFld_fsDie, State.setFld_fsNew, State.setFld_fsAt]
  rw [if_neg (by simp; tauto)]
  exact State.atKa_of_le (s := s.fieldMeasured v) hdue _

theorem exec_fieldSupplyChange_stays (hclk : s.clocked .pwr = true) (hsame : fieldState v s.fsDie = s.fsDie) (hnew : s.fsNew = false) :
    exec (.fieldSupplyChange v) s = .next (s.fieldMeasured v) := by
  change execFieldSupplyChange v s = _
  unfold execFieldSupplyChange
  rw [if_neg (by simp [State.diesWait_of_clocked hclk]), if_pos hclk]
  exact if_pos (by simp [hsame, hnew])

/-- A new state is entered with event 171 and its bit of status (R226, R229). -/
theorem fieldSupplyChange_enters (hclk : s.clocked .pwr = true) (hshown : s.fld isoPg R.ISO.FS.ST = s.fsDie)
    (hchange : fieldState v s.fsDie ≠ s.fsDie) (hdue : s.fsAt + fieldDwell (fieldState v s.fsDie) ≤ s.kaNow) (hirq : s.reg isoPg 0x050 = 0) :
    Gives (.fieldSupplyChange v) s fun t =>
      t.fsDie = fieldState v s.fsDie ∧ t.fld isoPg R.ISO.FS.ST = fieldState v s.fsDie ∧ t.fsAt = s.kaNow ∧
      t.postings = s.postings ++ [s.posting 171] ∧ (fieldState v s.fsDie = 0 → t.fstat isoPg 1 = true) ∧
      (fieldState v s.fsDie = 1 → t.fstat isoPg 2 = true) ∧ (fieldState v s.fsDie = 3 → t.fstat isoPg 3 = true) ∧
      (fieldState v s.fsDie = 2 → ∀ n, n < 16 → (t.ioAt n).run = false) := by
  have hlt := fieldState_lt hchange
  have hexec := exec_fieldSupplyChange_enters hclk (.inl hchange) hdue
  revert hexec hlt hchange
  generalize fieldState v s.fsDie = new
  intro hchange hlt hexec
  have hfound : ((s.fieldMeasured v).fieldFound new).fsDie < 4 := hlt
  have hkeep := s.keepsRegs_fieldMeasured v
  obtain ⟨rg, ra, po, ca, pu, hframe⟩ := ((s.fieldMeasured v).fieldFound new).fieldTell_frame
  obtain ⟨hst, h0, h1, h3⟩ := State.fieldTell_shows hfound
  obtain ⟨hdie, -, hat, hposts, hfs, hfstat, hrun⟩ := State.fieldEnter_shows (if_pos (show (s.fieldMeasured v).clocked .pwr = true from hclk))
  refine ⟨_, hexec, ?_, hfs.trans hst, ?_, ?_, fun h => (hfstat 1).trans (h0 h), fun h => (hfstat 2).trans (h1 h),
    fun h => (hfstat 3).trans (h3 h), hrun⟩
  · rw [hdie, hframe]
    rfl
  · rw [hat, hframe]
    rfl
  · have hne : ((s.fieldMeasured v).fieldFound new).fld isoPg R.ISO.FS.ST ≠ ((s.fieldMeasured v).fieldFound new).fsDie := by
      change (s.fieldMeasured v).fld isoPg R.ISO.FS.ST ≠ new
      rw [State.fieldMeasured_st, hshown]
      exact Ne.symm hchange
    have hirq' : ((s.fieldMeasured v).fieldFound new).reg isoPg 0x050 = 0 := (hkeep.reg isoPg 0x050 (by decide) (by decide)).trans hirq
    rw [hposts, State.fieldTell_postings hirq', State.fieldShow_postings hne, ← hkeep.posting (by decide)]
    rfl

theorem fieldSupplyChange_stays (hclk : s.clocked .pwr = true) (hshown : s.fld isoPg R.ISO.FS.ST = s.fsDie)
    (hsame : fieldState v s.fsDie = s.fsDie) (hnew : s.fsNew = false) :
    Gives (.fieldSupplyChange v) s fun t => t.fld isoPg R.ISO.FS.ST = s.fsDie ∧ t.postings = s.postings :=
  ⟨_, exec_fieldSupplyChange_stays hclk hsame hnew, (s.fieldMeasured_st v).trans hshown, rfl⟩

/-- The first state found after a wake is ABSENT (R45, R226). -/
theorem fieldSupplyChange_first (hclk : s.clocked .pwr = true) (hnew : s.fsNew = true) (hv : v < 10000)
    (hdue : s.fsAt + 100000 ≤ s.kaNow) :
    Gives (.fieldSupplyChange v) s fun t => t.fld isoPg R.ISO.FS.ST = 0 ∧ t.fsNew = false ∧ t.fstat isoPg 1 = true := by
  have habsent : fieldState v s.fsDie = 0 := if_pos hv
  have hexec := exec_fieldSupplyChange_enters hclk (.inr ⟨hnew, hv⟩) (by rw [habsent, fieldDwell_cast]; simpa using hdue)
  rw [habsent] at hexec
  obtain ⟨rg, ra, po, ca, pu, hframe⟩ := ((s.fieldMeasured v).fieldFound 0).fieldTell_frame
  obtain ⟨hst, h0, -⟩ := State.fieldTell_shows (s := (s.fieldMeasured v).fieldFound 0) (show 0 < 4 by decide)
  obtain ⟨-, hfsNew, -, -, hfs, hfstat, -⟩ := State.fieldEnter_shows (if_pos (show (s.fieldMeasured v).clocked .pwr = true from hclk))
  refine ⟨_, hexec, hfs.trans hst, ?_, (hfstat 1).trans (h0 rfl)⟩
  rw [hfsNew, hframe]
  rfl

theorem State.ioOutOn_of_not_ok {s : State} (h : s.fsDie ≠ 2) (n : Nat) : s.ioOutOn n = false := by
  simp [State.ioOutOn, State.fieldOk, h]

/-- Without the PWR clock the isolated die finds a state for itself (R45). -/
theorem fieldSupplyChange_of_stopped (hclk : s.clocked .pwr = false) (hwait : s.diesWait = false) (hchange : fieldState v s.fsDie ≠ s.fsDie)
    (hdue : s.fsAt + fieldDwell (fieldState v s.fsDie) ≤ s.kaNow) : Gives (.fieldSupplyChange v) s fun t =>
      t.fsDie = fieldState v s.fsDie ∧ t.fld isoPg R.ISO.FS.ST = s.fld isoPg R.ISO.FS.ST ∧
      (t.fsDie ≠ 2 → ∀ n, n < 16 → t.ioOutOn n = false) := by
  have hexec : exec (.fieldSupplyChange v) s = .next (s.fieldEnter (fieldState v s.fsDie)) := by
    change execFieldSupplyChange v s = _
    unfold execFieldSupplyChange
    rw [if_neg (by simp [hwait]), if_neg (show ¬ s.clocked .pwr = true by simp [hclk])]
    exact (if_neg (by simp [hchange])).trans (State.atKa_of_le hdue _)
  obtain ⟨hdie, -, -, -, hfs, -⟩ := State.fieldEnter_shows (s := s) (new := fieldState v s.fsDie) (if_neg (by simp [hclk]))
  exact ⟨_, hexec, hdie, hfs, fun h n _ => State.ioOutOn_of_not_ok h n⟩

end

/-- Settles O41: a sample by the filter's step, the latch by what sets and clears it, the lanes by their loss, the field supply with
and without the PWR clock. -/
theorem isolatedBank : Obligations.IsolatedBank := by
  unfold Obligations.IsolatedBank
  refine ⟨?sample, ?latch, ?supply, ?stopped⟩
  case sample =>
    intro s n v m k st th on raw c turns hlow hhigh hok hclk hpower hrun hlane hdue
    exact ioInputSample_filters hlow hhigh hok hclk hpower hrun hlane hdue v
  case latch =>
    intro s n
    refine ⟨fun hclk => ⟨fun hlock hlat => ioClr_clears hclk hlock hlat, fun h => ioClr_refused hclk h, ?_, ?_,
      fun hlat hsafe hheld => State.ioSettle_of_latched hclk hlat hsafe hheld,
      fun hmode hok hlane hrb hdue => readbackMismatch_reports hclk hmode hok hlane hrb hdue⟩,
      exec_ioCurrentLimit_of_off, exec_ioTsd_of_not_output,
      fun hclk => ⟨exec_ioClr_of_stopped hclk, exec_readbackMismatch_of_stopped hclk⟩, laneLoss_shows,
      fun a hquiet hdue => exec_fieldCommandTimeout hquiet hdue, exec_fieldCommandTimeout_of_heard⟩
    · exact fun hon hdue => ⟨_, exec_ioCurrentLimit hclk hon hdue, s.ioLatched_shows n (by decide)⟩
    · exact fun hmode => ⟨_, exec_ioTsd hclk hmode, s.ioLatched_shows n (by decide)⟩
  case supply =>
    intro s v hclk hshown
    dsimp only
    rw [← fieldState_eq, ← fieldDwell_cast]
    exact ⟨fieldSupplyChange_enters hclk hshown, fieldSupplyChange_stays hclk hshown,
      fun hnew _ hv hdue => fieldSupplyChange_first hclk hnew hv hdue⟩
  case stopped =>
    intro s v hclk hwait hchange hdue
    exact fieldSupplyChange_of_stopped hclk hwait hchange hdue

end Sys2Proof.Machine
end

section
/-! Safe state, ALIVE, the self-check and the log: what each command of the collector leaves. -/

namespace Sys2Proof.Machine

/-! ## Safe state is entered -/

/-- What safe state shows as it is entered (R369). -/
def State.SafeEntry (s u : State) (cause : Nat) : Prop :=
  u.safe = true ∧ u.fld fltPg R.FLT.SAFEC.CAUSE = cause ∧ s.posting 236 ∈ u.postings

theorem State.safe_safeShown (s : State) (cause src : Nat) : (s.safeShown cause src).safe = true := by
  change State.bit _ fltPg R.FLT.STAT.SAFE = true
  rw [State.safeShown, State.bit_setFld_apart _ _ _ (by simp), State.bit_setFld_apart _ _ _ (by simp), State.bit_setBit_same _ _ _ _ rfl (by decide)]

theorem State.cause_safeShown (s : State) {cause : Nat} (h : cause < 8) (src : Nat) :
    (s.safeShown cause src).fld fltPg R.FLT.SAFEC.CAUSE = cause := by
  rw [State.safeShown, State.fld_setFld_apart _ _ _ (by simp), State.fld_setFld_fits _ _ _ _ (by decide) (by decide) (by simpa using h)]

/-- SAFEN, SELF and ALIVE are bits of the same register as SAFE, apart from it. -/
theorem State.bit_safeShown_stat (s : State) (cause src : Nat) {f : Fld} (h : R.FLT.STAT.SAFE.Apart f) (hoff : f.off = 0x104) :
    (s.safeShown cause src).bit fltPg f = s.bit fltPg f := by
  rw [State.safeShown, State.bit_setFld_apart _ _ _ (.inl (by simp [hoff])), State.bit_setFld_apart _ _ _ (.inl (by simp [hoff]))]
  exact State.bit_setFld_apart _ _ _ h

theorem State.posting_safeShown (s : State) (cause src ev : Nat) : (s.safeShown cause src).posting ev = s.posting ev :=
  (s.keepsOff_safeShown cause src).posting (by decide) ev

/-- Entering shows safe state with its cause and posts event 236, from a state that posts as `s` does. -/
theorem State.safeEntry_post {s t : State} {cause : Nat} (h : cause < 8) (src : Nat) (hp : t.posting 236 = s.posting 236) :
    s.SafeEntry ((t.safeShown cause src).post 236) cause := by
  refine ⟨?_, ?_, ?_⟩
  · exact (State.bit_of_regs (State.post_regs ..) ..).trans (t.safe_safeShown cause src)
  · exact (State.fld_of_regs (State.post_regs ..) ..).trans (t.cause_safeShown h src)
  · rw [State.post_postings, State.posting_safeShown, hp]
    exact List.mem_append_right _ (List.mem_singleton_self _)

section
variable {s : State}

/-- ENTER (R369). -/
theorem enter_enters (hlock : s.locked fltPg = false) (hsafe : s.safe = false) :
    GivesThen .enter s (fun u => ((List.range 6).foldl State.linSafe
      ((u.aliveStop.holdClear.hsSafeWindows).settleAll.canSafeEnter)).pxStartBlank) fun u => s.SafeEntry u 4 ∧ u.code fltPg = 0 := by
  have hok : s.KeepsRegs (s.ok fltPg) [0x44] := State.keepsRegs_ok s fltPg (by simp)
  have hsafe' : (s.ok fltPg).safe = false := (hok.bit _ (by decide) (by decide)).trans hsafe
  have hexec : exec .enter s = .next ((s.ok fltPg).enterSafe 4 0) := if_neg (by simp [hlock, hsafe])
  refine ⟨((s.ok fltPg).safeShown 4 0).post 236, hexec.trans (congrArg _ (State.enterSafe_eq hsafe' 4 0)),
    State.safeEntry_post (by decide) 0 (hok.posting (by decide) _), ?_⟩
  calc (((s.ok fltPg).safeShown 4 0).post 236).code fltPg
      = ((s.ok fltPg).safeShown 4 0).code fltPg := State.fld_of_regs (State.post_regs ..) ..
    _ = (s.ok fltPg).code fltPg := (State.keepsOff_safeShown _ 4 0).fld (by decide) (by simp)
    _ = 0 := State.code_ok s fltPg

/-- SAFEN low (R368, R369). -/
theorem safenLow_enters (hpark : s.power ≠ .park) (hsafen : s.bit fltPg R.FLT.STAT.SAFEN = false) (hsafe : s.safe = false) :
    GivesThen .safenLow s (fun u => (((List.range 6).foldl State.linSafe
      ((u.aliveStop.holdClear.hsSafeWindows).settleAll.canSafeEnter)).pxStartBlank).collect [⟨233, .page 0⟩]) fun u =>
        s.SafeEntry u 2 ∧ u.bit fltPg R.FLT.STAT.SAFEN = true := by
  have hset : s.KeepsOff (s.setBit fltPg R.FLT.STAT.SAFEN true) fltPg [0x104] := .setFld s fltPg _ _ (by simp) (by decide)
  have hsafe' : (s.setBit fltPg R.FLT.STAT.SAFEN true).safe = false := (State.bit_setFld_apart _ _ _ (by simp)).trans hsafe
  have hexec : exec .safenLow s = .next (((s.setBit fltPg R.FLT.STAT.SAFEN true).enterSafe 2 0).collect [⟨233, .page 0⟩]) :=
    if_neg (by simp [hpark, hsafen])
  refine ⟨((s.setBit fltPg R.FLT.STAT.SAFEN true).safeShown 2 0).post 236,
    hexec.trans (congrArg (fun t : State => Host.Outcome.next (t.collect [⟨233, .page 0⟩])) (State.enterSafe_eq hsafe' 2 0)),
    State.safeEntry_post (by decide) 0 (hset.posting (by decide) _), ?_⟩
  rw [State.bit_of_regs (State.post_regs ..), State.bit_safeShown_stat _ _ _ (by simp) rfl]
  exact State.bit_setBit_same _ _ _ _ rfl (by decide)

end

/-! ## Safe state is left -/

theorem State.safeCleared_iff (s : State) : s.safeCleared = true ↔ ∀ c, c < 256 → s.raised c = true → s.reactsSafe c = false := by
  simp only [State.safeCleared, List.all_eq_true, List.mem_range]
  refine forall₂_congr fun c _ => ?_
  cases s.raised c <;> simp

theorem State.safeCleared_false_of {s : State} (h : ∃ c, c < 256 ∧ s.raised c = true ∧ s.reactsSafe c = true) : s.safeCleared = false := by
  obtain ⟨c, hc, hr, hs⟩ := h
  refine Bool.eq_false_iff.mpr fun hall => ?_
  rw [State.safeCleared_iff] at hall
  simp [hall c hc hr] at hs

/-- Every START window may open again. -/
def State.hsFresh (s : State) : State :=
  (List.range 48).foldl (fun (t : State) n => t.setHs n { t.hsAt n with fresh := true }) s

theorem State.hsFresh_keeps (s : State) : s.hsFresh.regs = s.regs ∧ s.hsFresh.postings = s.postings := by
  have hfold : ∀ (l : List Nat) (t : State),
      (l.foldl (fun (t : State) n => t.setHs n { t.hsAt n with fresh := true }) t).regs = t.regs ∧
        (l.foldl (fun (t : State) n => t.setHs n { t.hsAt n with fresh := true }) t).postings = t.postings := by
    intro l
    induction l with
    | nil => exact fun _ => ⟨rfl, rfl⟩
    | cons n l ih => exact fun _ => ih _
  exact hfold _ s

section
variable {s : State}

theorem leave_refused (h : s.locked fltPg = true ∨ s.safe = false ∨ s.bit fltPg R.FLT.STAT.SAFEN = true ∨ s.bit fltPg R.FLT.STAT.SELF = true ∨
    (∃ c, c < 256 ∧ s.raised c = true ∧ s.reactsSafe c = true)) : Refused .leave s fltPg := by
  have hcond : s.locked fltPg = true ∨ (!s.safe) = true ∨ s.bit fltPg R.FLT.STAT.SAFEN = true ∨ s.bit fltPg R.FLT.STAT.SELF = true ∨
      (!s.safeCleared) = true := by
    rcases h with h | h | h | h | h
    · exact .inl h
    · exact .inr (.inl (by simp [h]))
    · exact .inr (.inr (.inl h))
    · exact .inr (.inr (.inr (.inl h)))
    · exact .inr (.inr (.inr (.inr (by simp [State.safeCleared_false_of h]))))
  exact if_pos hcond

/-- LEAVE (R370). -/
theorem leave_leaves (hlock : s.locked fltPg = false) (hsafe : s.safe = true) (hsafen : s.bit fltPg R.FLT.STAT.SAFEN = false)
    (hself : s.bit fltPg R.FLT.STAT.SELF = false) (hclear : ∀ c, c < 256 → s.raised c = true → s.reactsSafe c = false) :
    GivesThen .leave s (fun u => ((u.sidesFree.settleAll).canSafeLeave).pxLeaveSafe) fun u =>
      u.safe = false ∧ u.postings = s.postings ++ [s.posting 237] ∧ u.code fltPg = 0 := by
  have hexec : exec .leave s = .next ((s.ok fltPg).leaveSafe) :=
    if_neg (by simp [hlock, hsafe, hsafen, hself, (State.safeCleared_iff s).mpr hclear])
  have hset : (s.ok fltPg).KeepsOff ((s.ok fltPg).setBit fltPg R.FLT.STAT.SAFE false) fltPg [0x104] := .setFld _ fltPg _ _ (by simp) (by decide)
  obtain ⟨hregs, hposts⟩ := (((s.ok fltPg).setBit fltPg R.FLT.STAT.SAFE false).post 237).hsFresh_keeps
  rw [State.post_regs] at hregs
  refine ⟨(((s.ok fltPg).setBit fltPg R.FLT.STAT.SAFE false).post 237).hsFresh, hexec, ?_⟩
  refine ⟨(State.bit_of_regs hregs ..).trans (State.bit_setBit_same _ _ _ _ rfl (by decide)), ?_, ?_⟩
  · have hpost : (s.ok fltPg).posting 237 = s.posting 237 := (State.keepsRegs_ok (offs := [0x44]) s fltPg (by simp)).posting (by decide) _
    rw [hposts, State.post_postings, hset.posting (by decide), hpost]
    exact congrArg (· ++ _) ((State.setFld_postings ..).trans (State.ok_postings ..))
  · calc _ = ((s.ok fltPg).setBit fltPg R.FLT.STAT.SAFE false).code fltPg := State.fld_of_regs hregs ..
      _ = (s.ok fltPg).code fltPg := hset.fld (by decide) (by simp)
      _ = 0 := State.code_ok s fltPg

end

/-! ## ALIVE and the log -/

section
variable {s : State}

theorem arun_refused (hvl : s.bit 0x005 R.PMU.SUP.VLOK = true) (hpark : s.power ≠ .park)
    (h : s.locked fltPg = true ∨ s.safe = true ∨ s.bit fltPg R.FLT.STAT.ALIVE = true ∨ s.flt.stopAt = some (s.kaNow / 100)) :
    Refused .arun s fltPg :=
  (if_neg (by simp [hvl, hpark])).trans (if_pos h)

/-- ARUN (R367). -/
theorem arun_runs (hvl : s.bit 0x005 R.PMU.SUP.VLOK = true) (hpark : s.power ≠ .park) (hlock : s.locked fltPg = false) (hsafe : s.safe = false)
    (halive : s.bit fltPg R.FLT.STAT.ALIVE = false) (hstop : s.flt.stopAt ≠ some (s.kaNow / 100)) :
    Gives .arun s fun t => t.bit fltPg R.FLT.STAT.ALIVE = true ∧ t.code fltPg = 0 := by
  refine ⟨_, (if_neg (by simp [hvl, hpark])).trans (if_neg (by simp [hlock, hsafe, halive, hstop])), ?_, ?_⟩
  · exact State.bit_setBit_same (s.ok fltPg) fltPg R.FLT.STAT.ALIVE true rfl (by decide)
  · exact (State.fld_setFld_apart (s.ok fltPg) fltPg (f := R.FLT.STAT.ALIVE) 1 (by simp)).trans (State.code_ok s fltPg)

theorem arun_of_held (h : s.bit 0x005 R.PMU.SUP.VLOK = false ∨ s.power = .park) : exec .arun s = .next s :=
  if_pos (h.imp_left fun hvl => by simp [hvl])

/-- RAISED_CLEAR clears the bits of its own word alone (R362). -/
theorem raised_clear (s : State) (j : Fin 8) (d : Word) {c : Nat} :
    ((s.setReg fltPg (R.FLT.RAISED.R j).off (s.reg fltPg (R.FLT.RAISED.R j).off &&& ~~~ d)).ok fltPg).raised c =
      (s.raised c && !(decide (c / 32 = j) && d.getLsbD (c % 32))) := by
  have hok (t : State) : (t.ok fltPg).reg fltPg (R.FLT.RAISED.R (c / 32)).off = t.reg fltPg (R.FLT.RAISED.R (c / 32)).off :=
    State.reg_setFld_off t fltPg _ (by simp; omega)
  rw [State.raised, State.raised, hok]
  by_cases hj : c / 32 = j
  · have hlt : c % 32 < 32 := by omega
    rw [hj, State.reg_setReg_same, BitVec.getLsbD_and, BitVec.getLsbD_not]
    simp [hlt]
  · rw [State.reg_setReg_ne]
    · simp [hj]
    · simp only [regKey]; omega

end

/-! ## The self-check -/

/-- The page and offset of a word of the settings (R373). -/
def selfWord (w : Nat) : Nat × Nat :=
  (if w = 256 then fltPg else 0x011 + w / 64, if w = 256 then R.FLT.CFG.AKHZ.off else 0x100 + 4 * (w % 64))

/-- Bits of a word of the settings and of its complement change. -/
def State.selfFlip (s : State) (w : Nat) (flip : Word) : State :=
  let t := s.setReg (selfWord w).1 (selfWord w).2 (s.reg (selfWord w).1 (selfWord w).2 ^^^ flip)
  { t with flt := { t.flt with comp := tset (fun _ => 0) t.flt.comp w (tget (fun _ => (0 : Word)) s.flt.comp w ^^^ flip) } }

/-- A flip leaves every register beyond the settings' words. -/
theorem State.reg_selfFlip (s : State) {w : Nat} (hw : w < 257) (flip : Word) {pg off : Nat} (hoff : off < 0x1000)
    (hpg : pg < 0x010 ∨ 0x014 < pg ∨ pg = fltPg ∧ off ≠ 0x100) : (s.selfFlip w flip).reg pg off = s.reg pg off := by
  refine State.reg_setReg_ne s _ (regKey_ne hoff ?_ ?_)
  · by_cases h : w = 256
    · simp [selfWord, h]
    · simp only [selfWord, h, if_false]; omega
  · simp only [selfWord, fltPg] at hpg ⊢
    by_cases h : w = 256 <;> simp [h] <;> omega

/-- SELF and SELF.WORD show the word found (R373); a word found later changes neither. -/
def State.selfShown (s : State) (w : Nat) : State :=
  if s.bit fltPg R.FLT.STAT.SELF then s else (s.setBit fltPg R.FLT.STAT.SELF true).setFld fltPg R.FLT.SELF.WORD w

theorem State.keepsOff_selfShown (s : State) (w : Nat) : s.KeepsOff (s.selfShown w) fltPg [0x104, 0x110] := by
  unfold State.selfShown
  split
  · exact .of_regs rfl ..
  · exact (State.KeepsOff.setFld s fltPg R.FLT.STAT.SELF _ (by simp) (by decide)).trans (.setFld _ fltPg _ _ (by simp) (by decide))

theorem State.self_selfShown (s : State) (w : Nat) : (s.selfShown w).bit fltPg R.FLT.STAT.SELF = true := by
  unfold State.selfShown
  split
  next h => exact h
  next => exact (State.bit_setFld_apart _ _ _ (by simp)).trans (State.bit_setBit_same _ _ _ _ rfl (by decide))

theorem State.safe_selfShown (s : State) (w : Nat) : (s.selfShown w).safe = s.safe := by
  unfold State.selfShown
  split
  · rfl
  · exact (State.bit_setFld_apart _ _ _ (by simp)).trans (State.bit_setFld_apart _ _ _ (by simp))

theorem State.selfShown_flt (s : State) (w : Nat) : (s.selfShown w).flt = s.flt := by
  unfold State.selfShown
  split
  · rfl
  · exact (State.setFld_flt ..).trans (State.setFld_flt ..)

/-- The word is logged as of source 232 and known as bad (R373). -/
def State.selfLogged (s : State) (w : Nat) : State :=
  let t := (s.selfShown w).raiseOne 232 3 (BitVec.ofNat 32 w)
  { t with flt := { t.flt with bad := t.flt.bad ++ [w] } }

theorem State.selfFound_eq {s : State} {w : Nat} (hbad : s.flt.bad.contains w = false) (hlog : s.flt.log.length < 64) :
    s.selfFound w = ((s.selfLogged w).enterSafe 3 0, []) := by
  have hlog' : (s.selfShown w).flt.log.length < 64 := by rwa [State.selfShown_flt]
  have hfull : (if 64 ≤ (s.selfShown w).flt.log.length then [⟨234, .val 0⟩] else ([] : List Cause)) = [] := if_neg (by omega)
  unfold State.selfFound
  rw [if_neg (by simp only [hbad, Bool.false_eq_true, not_false_iff])]
  exact congrArg (Prod.mk _) hfull

section
variable {s : State} {w : Nat} (hlog : s.flt.log.length < 64)
include hlog

/-- Finding a bad word leaves every register but those of the finding, of the counters, and RAISED of source 232. -/
theorem State.reg_selfLogged {pg off : Nat} (hoff : off < 0x1000) (hpg : pg ≠ 0x019) (h : pg = fltPg → off ≠ 0x130) :
    (s.selfLogged w).reg pg off = (s.selfShown w).reg pg off :=
  State.reg_raiseOne (by decide) 3 _ (by rwa [State.selfShown_flt]) hoff (by simpa using hpg) (by simpa using h)

theorem State.selfLogged_shows : (s.selfLogged w).safe = s.safe ∧ (s.selfLogged w).bit fltPg R.FLT.STAT.SELF = true ∧
    (s.selfLogged w).raised 232 = true ∧ (s.selfLogged w).posting 236 = s.posting 236 := by
  have hreg {pg : Nat} {f : Fld} (hf : f.off < 0x1000) (hpg : pg ≠ 0x019) (h : pg = fltPg → f.off ≠ 0x130) :
      (s.selfLogged w).fld pg f = (s.selfShown w).fld pg f := by
    rw [State.fld, State.fld, State.reg_selfLogged hlog hf hpg h]
  refine ⟨?_, ?_, ?_, ?_⟩
  · exact (congrArg (· != 0) (hreg (by decide) (by decide) (by simp))).trans (s.safe_selfShown w)
  · exact (congrArg (· != 0) (hreg (by decide) (by decide) (by simp))).trans (s.self_selfShown w)
  · exact (State.taken_raiseOne (by decide) 3 _ (by rwa [State.selfShown_flt])).1
  · have hcore (n : Nat) : (s.selfLogged w).coreExists n = s.coreExists n := by
      rw [State.coreExists, State.coreExists, hreg (by decide) (by decide) (by simp [fltPg]),
        (s.keepsOff_selfShown w).fld (by decide) (by simp [fltPg])]
    simp only [State.posting, funext hcore]

/-- The word found enters safe state with cause 3 (R373). -/
theorem State.selfFound_enters (hbad : s.flt.bad.contains w = false) (hsafe : s.safe = false) :
    ∃ u, s.selfFound w = (((List.range 6).foldl State.linSafe
      ((u.aliveStop.holdClear.hsSafeWindows).settleAll.canSafeEnter)).pxStartBlank, []) ∧
      s.SafeEntry u 3 ∧ u.bit fltPg R.FLT.STAT.SELF = true ∧ u.raised 232 = true := by
  obtain ⟨hs, hself, hraised, hpost⟩ := State.selfLogged_shows (w := w) hlog
  refine ⟨((s.selfLogged w).safeShown 3 0).post 236, ?_, State.safeEntry_post (by decide) 0 hpost, ?_, ?_⟩
  · rw [State.selfFound_eq hbad hlog, State.enterSafe_eq (hs.trans hsafe)]
  · exact (State.bit_of_regs (State.post_regs ..) ..).trans ((State.bit_safeShown_stat _ _ _ (by simp) rfl).trans hself)
  · rw [State.raised, State.reg_of_regs (State.post_regs ..), (State.keepsOff_safeShown _ 3 0).reg _ _ (by decide) (by simp)]
    exact hraised

end

/-- The sweep at a bad word: what finding it raises besides is collected. -/
def State.selfSwept (s : State) (w : Nat) : State :=
  let r := s.selfFound w
  if r.2 = [] then r.1 else r.1.collect r.2

theorem State.selfSwept_of_found {s t : State} {w : Nat} (h : s.selfFound w = (t, [])) : s.selfSwept w = t := by
  rw [State.selfSwept, h]
  exact if_pos rfl

/-- SELF_CHECK_DISCREPANCY at the word's KA cycle (R373). -/
theorem selfCheckDiscrepancy_enters {s : State} {w : Fin 257} {flip : Word} (hne : tget (fun _ => (0 : Word)) s.flt.comp w.val ≠ flip)
    (hdue : s.sweepDue w ≤ s.kaNow) (hbad : s.flt.bad.contains w.val = false) (hsafe : s.safe = false) (hlog : s.flt.log.length < 64) :
    GivesThen (.selfCheckDiscrepancy w flip) s (fun u => ((List.range 6).foldl State.linSafe
      ((u.aliveStop.holdClear.hsSafeWindows).settleAll.canSafeEnter)).pxStartBlank) fun u =>
        s.SafeEntry u 3 ∧ u.bit fltPg R.FLT.STAT.SELF = true ∧ u.raised 232 = true := by
  have hcomp : tget (fun _ => (0 : Word)) s.flt.comp w.val ^^^ flip ≠ 0 := fun h => hne (BitVec.xor_eq_zero_iff.mp h)
  have hsafe' : (s.selfFlip w flip).safe = false := by
    rw [← hsafe]
    exact congrArg (fun r : Word => R.FLT.STAT.SAFE.get r != 0) (State.reg_selfFlip s w.isLt flip (by decide) (by simp [fltPg]))
  have hpost : (s.selfFlip w flip).posting 236 = s.posting 236 := by
    have hcore (n : Nat) : (s.selfFlip w flip).coreExists n = s.coreExists n := by
      rw [State.coreExists, State.coreExists, State.fld, State.fld, State.reg_selfFlip s w.isLt flip (by decide) (by decide)]
    simp only [State.posting, funext hcore]
  obtain ⟨u, hu, ⟨hsafeU, hcause, hposted⟩, hself, hraised⟩ :=
    State.selfFound_enters (s := s.selfFlip w flip) (w := w) hlog hbad hsafe'
  have hexec : exec (.selfCheckDiscrepancy w flip) s = .next ((s.selfFlip w flip).selfSwept w) :=
    (if_neg hcomp).trans (State.atKa_of_le (s := s.selfFlip w flip) hdue _)
  exact ⟨u, hexec.trans (congrArg _ (State.selfSwept_of_found hu)), ⟨hsafeU, hcause, hpost ▸ hposted⟩, hself, hraised⟩

/-! ## The die temperature -/

/-- The sources that a die temperature, in tenths of a degree, raises anew (R359). -/
def tempNew (x : Int) (hot : List Nat) : List Nat :=
  ([(0, (1400 : Int)), (1, 1500)].filter fun p => decide (p.2 ≤ x) && !hot.contains p.1).map (·.1)

/-- The sources raised before that stay until a fall of 10 K (R359). -/
def tempKeep (x : Int) (hot : List Nat) : List Nat :=
  hot.filter fun c => decide ((if c = 0 then (1400 : Int) else 1500) - 100 < x)

/-- The temperature's sources after a measurement. -/
def State.tempTaken (s : State) (x : Int) : State :=
  { s with flt := { s.flt with hot := tempKeep x s.flt.hot ++ tempNew x s.flt.hot, tempAt := s.kaNow } }

theorem exec_dieTempMeasure {s : State} (hdue : s.flt.tempAt + 10000 ≤ s.kaNow) (x : Int) :
    exec (.dieTempMeasure x) s = .next (if tempNew x s.flt.hot = [] then s.tempTaken x
      else (s.tempTaken x).collect ((tempNew x s.flt.hot).map fun c => ⟨c, .page 0⟩)) :=
  if_pos hdue

/-- A temperature that has fallen by 10 K below both limits forgets every source. -/
theorem tempKeep_of_le {x : Int} (h : x ≤ 1300) (hot : List Nat) : tempKeep x hot = [] := by
  refine List.filter_eq_nil_iff.mpr fun c _ => ?_
  split <;> simp <;> omega

theorem tempNew_of_le {x : Int} (h : x ≤ 1300) (hot : List Nat) : tempNew x hot = [] := by
  have h0 : ¬ 1400 ≤ x := by omega
  have h1 : ¬ 1500 ≤ x := by omega
  simp [tempNew, h0, h1]

theorem tempNew_warm {x : Int} (h0 : 1400 ≤ x) (h1 : x < 1500) : tempNew x [] = [0] := by
  have h1' : ¬ 1500 ≤ x := by omega
  simp [tempNew, h0, h1']

theorem tempNew_hot {x : Int} (h1 : 1500 ≤ x) : tempNew x [] = [0, 1] := by
  have h0 : 1400 ≤ x := by omega
  simp [tempNew, h0, h1]

section
variable {s : State} {x : Int} (hdue : s.flt.tempAt + 10000 ≤ s.kaNow)
include hdue

/-- The sources that rise from none are collected. -/
theorem dieTempMeasure_collects {c : Nat} {l : List Nat} (hhot : s.flt.hot = []) (hnew : tempNew x [] = c :: l) :
    GivesThen (.dieTempMeasure x) s (fun u => u.collect ((c :: l).map fun c => ⟨c, .page 0⟩)) fun u =>
      u.flt.hot = c :: l ∧ u.flt.tempAt = s.kaNow := by
  rw [← hhot] at hnew
  refine ⟨s.tempTaken x, (exec_dieTempMeasure hdue x).trans ?_, ?_, rfl⟩
  · rw [if_neg (by simp [hnew]), hnew]
  · change tempKeep x s.flt.hot ++ tempNew x s.flt.hot = c :: l
    rw [hnew, hhot]
    rfl

theorem dieTempMeasure_cool (h : x ≤ 1300) : Gives (.dieTempMeasure x) s fun t => t.flt.hot = [] ∧ t.regs = s.regs := by
  refine ⟨s.tempTaken x, (exec_dieTempMeasure hdue x).trans (congrArg _ (if_pos (tempNew_of_le h _))), ?_, rfl⟩
  change tempKeep x s.flt.hot ++ tempNew x s.flt.hot = []
  rw [tempKeep_of_le h, tempNew_of_le h, List.append_nil]

end

/-- Settles O49: entry and leave by what they write in FLT.STAT and FLT.SAFEC, the self-check by the word it finds, the temperature by
the sources above their limits. -/
theorem safeState : Obligations.SafeState := by
  unfold Obligations.SafeState
  intro s
  refine ⟨fun h => if_pos h, enter_enters, safenLow_enters, fun h => if_neg h, fun h => ⟨if_pos (.inl h), if_pos h⟩, leave_refused, leave_leaves,
    fun hvl hpark => ⟨arun_refused hvl hpark, arun_runs hvl hpark⟩, arun_of_held, fun h => ⟨_, if_pos h, rfl, rfl, rfl⟩,
    fun h => ⟨if_pos h, fun _ _ => if_pos h⟩, fun h => ⟨_, if_neg (by simp [h]), ?_⟩, fun h j d => ⟨_, if_neg (by simp [h]), fun _ _ => raised_clear s j d⟩,
    fun _ _ => selfCheckDiscrepancy_enters, fun x hdue => ⟨fun h0 h1 hhot => ?_, fun h1 hhot => ?_,
       dieTempMeasure_cool hdue⟩⟩
  · exact ⟨congrArg Flt.log (State.setFld_flt ..), congrArg Flt.first (State.setFld_flt ..), State.code_ok _ fltPg⟩
  · obtain ⟨u, hu, hshown⟩ := dieTempMeasure_collects hdue hhot (tempNew_warm h0 h1)
    exact ⟨u, hu, hshown⟩
  · obtain ⟨u, hu, hhot', _⟩ := dieTempMeasure_collects hdue hhot (tempNew_hot h1)
    exact ⟨u, hu, hhot'⟩

end Sys2Proof.Machine
end

section
/-! What a reset of the cores and of the blocks leaves: the commands on their way, the boot bank, the takeovers and RST.CAUSE. -/

namespace Sys2Proof.Machine

/-! ## Contexts and scheduling touch nothing else -/

/-- What stands beside the contexts, the cores' records and the operations in flight. -/
def State.offCores (s : State) :=
  (s.regs, s.mem, s.symErr, s.poison, s.memc, s.pwr, s.pending, s.bankB, s.takeovers)

theorem State.offCores_foldl {α : Type} {f : State → α → State} (hf : ∀ t a, (f t a).offCores = t.offCores) :
    ∀ (l : List α) (s : State), (l.foldl f s).offCores = s.offCores
  | [], _ => rfl
  | a :: l, s => (State.offCores_foldl hf l (f s a)).trans (hf s a)

theorem State.offCores_toSt (s : State) (k : Nat) (st : CtxSt) : (s.toSt k st).offCores = s.offCores := by
  simp [State.offCores]

theorem State.offCores_giveCore (s : State) (n j : Nat) : (s.giveCore n j).offCores = s.offCores := by
  have hrun (t : State) : ((t.toSt (32 * n + j) CtxSt.run).setLc n { s.lcAt n with cur := some j, last := j }).offCores = t.offCores := by
    simp [State.offCores]
  unfold State.giveCore
  refine (hrun _).trans ?_
  split
  · split
    · exact State.offCores_toSt s _ .ready
    · rfl
  · rfl

theorem State.offCores_scheduleWith (s : State) (n : Nat) (hint : Bool) : (s.scheduleWith n hint).offCores = s.offCores := by
  unfold State.scheduleWith
  split
  · rfl
  · dsimp only
    split
    · split
      · split
        · split
          · exact State.offCores_giveCore s n _
          · rfl
        · rfl
      · exact State.offCores_giveCore s n _
    · exact State.offCores_giveCore s n _
    · rfl

theorem State.offCores_wakeOne (s : State) (k : Nat) : (s.wakeOne k).offCores = s.offCores := by
  rcases s.wakeOne_cases k with h | ⟨-, h⟩ <;> rw [h]
  exact State.offCores_toSt s k .ready

theorem State.offCores_keepSlot (s : State) (k : Nat) : (s.keepSlot k).offCores = s.offCores := by
  simp [State.keepSlot, State.offCores]

theorem State.offCores_wakeOps (s : State) (n : Nat) : (s.wakeOps n).offCores = s.offCores := by
  rw [State.wakeOps_eq, State.schedule, State.offCores_scheduleWith, State.offCores_foldl State.offCores_keepSlot, State.wakeDone,
    State.offCores_foldl State.offCores_wakeOne]

theorem State.offCores_fenceDone (s : State) (k : Nat) : (s.fenceDone k).offCores = s.offCores := by
  unfold State.fenceDone
  dsimp only
  split
  · split
    · rfl
    · exact State.offCores_toSt _ k .ready
  · rfl

theorem State.offCores_opDone (s : State) (o : Op) (v : Nat) (bad err : Bool) : (s.opDone o v bad err).offCores = s.offCores := by
  unfold State.opDone
  dsimp only
  split <;> rfl

theorem State.offCores_confirmAll (s : State) (l : List BufEnt) : (s.confirmAll l).offCores = s.offCores := by
  refine State.offCores_foldl (fun t e => ?_) l s
  split <;> rfl

/-! ## What a reset leaves -/

/-- The contexts, the operations in flight, the commands on their way, the boot bank, the takeovers and RST.CAUSE. -/
def State.blockKept (s : State) : Tab Ctx × List Op × List Instr × Bool × List Takeover × Word :=
  (s.ctxs, s.ops, s.pending, s.bankB, s.takeovers, s.reg rstPg R.RST.CAUSE.C.off)

theorem State.blockKept_of {s t : State} (hregs : t.regs = s.regs) (hctxs : t.ctxs = s.ctxs) (hops : t.ops = s.ops)
    (hpending : t.pending = s.pending) (hbankB : t.bankB = s.bankB) (htakeovers : t.takeovers = s.takeovers) : t.blockKept = s.blockKept := by
  rw [State.blockKept, State.blockKept, hctxs, hops, hpending, hbankB, htakeovers, State.reg_of_regs hregs]

theorem State.blockKept_foldl_mem {α : Type} {f : State → α → State} : ∀ (l : List α), (∀ t, ∀ a ∈ l, (f t a).blockKept = t.blockKept) →
    ∀ s : State, (l.foldl f s).blockKept = s.blockKept
  | [], _, _ => rfl
  | a :: l, hf, s => (State.blockKept_foldl_mem l (fun t b hb => hf t b (List.mem_cons_of_mem a hb)) (f s a)).trans (hf s a (List.mem_cons_self ..))

theorem State.blockKept_foldl {α : Type} {f : State → α → State} (hf : ∀ t a, (f t a).blockKept = t.blockKept) (l : List α) (s : State) :
    (l.foldl f s).blockKept = s.blockKept := State.blockKept_foldl_mem l (fun t a _ => hf t a) s

theorem State.blockKept_setReg (s : State) {pg off : Nat} (w : Word) (hoff : off < 0x1000) (h : pg = rstPg → off ≠ 0x104) :
    (s.setReg pg off w).blockKept = s.blockKept := by
  have hreg : (s.setReg pg off w).reg rstPg R.RST.CAUSE.C.off = s.reg rstPg R.RST.CAUSE.C.off := by
    refine State.reg_setReg_ne s w (regKey_ne (by decide) hoff ?_)
    by_cases hpg : pg = rstPg
    · exact .inr fun e => h hpg (by simpa using e.symm)
    · exact .inl fun e => hpg e.symm
  exact congrArg (fun w => (s.ctxs, s.ops, s.pending, s.bankB, s.takeovers, w)) hreg

theorem State.blockKept_setFld (s : State) {pg : Nat} {f : Fld} (v : Nat) (hoff : f.off < 0x1000) (h : pg = rstPg → f.off ≠ 0x104) :
    (s.setFld pg f v).blockKept = s.blockKept := State.blockKept_setReg s _ hoff h

theorem State.blockKept_setBit (s : State) {pg : Nat} {f : Fld} (b : Bool) (hoff : f.off < 0x1000) (h : pg = rstPg → f.off ≠ 0x104) :
    (s.setBit pg f b).blockKept = s.blockKept := State.blockKept_setFld s _ hoff h

theorem State.blockKept_count (s : State) {pg i : Nat} (hi : i < 64) : (s.count pg i).blockKept = s.blockKept := by
  have hreg : (s.count pg i).reg rstPg R.RST.CAUSE.C.off = s.reg rstPg R.RST.CAUSE.C.off :=
    (State.KeepsRegs.count (offs := []) s pg hi).reg rstPg _ (by decide) (by simp)
  simp only [State.blockKept, State.count_ctxs, State.count_ops, State.count_pending, State.count_bankB, State.count_takeovers, hreg]

theorem State.blockKept_detectAs (s : State) (pg bit : Nat) (l : List Nat) (d : Detail) : (s.detectAs pg bit l d).blockKept = s.blockKept := by
  have hreg : (s.detectAs pg bit l d).reg rstPg R.RST.CAUSE.C.off = s.reg rstPg R.RST.CAUSE.C.off :=
    (State.KeepsRegs.detectAs (offs := [0x48]) s pg bit l d (by simp)).reg rstPg _ (by decide) (by simp)
  simp only [State.blockKept, State.detectAs_ctxs, State.detectAs_ops, State.detectAs_pending, State.detectAs_bankB, State.detectAs_takeovers, hreg]

theorem State.blockKept_postFrom (s : State) (isl ev : Nat) : (s.postFrom isl ev).blockKept = s.blockKept := rfl

theorem State.blockKept_postIf (s : State) (c : Bool) (ev : Nat) : (s.postIf c ev).blockKept = s.blockKept := by cases c <;> rfl

/-! ## Memory -/

theorem State.blockKept_setBytes : ∀ (l : List Byte) (s : State) (p : Nat), (s.setBytes p l).blockKept = s.blockKept
  | [], _, _ => rfl
  | b :: l, s, p => State.blockKept_setBytes l (s.setByte p b) (p + 1)

theorem State.blockKept_setFreeCtr (s : State) (n : Nat) : ({ s with freeCtr := n } : State).blockKept = s.blockKept :=
  State.blockKept_of rfl rfl rfl rfl rfl rfl

/-- Free values stand in place of bytes. -/
theorem State.blockKept_setFree (s : State) (p n : Nat) (l : List Byte) :
    ({ s.setBytes p l with freeCtr := n } : State).blockKept = s.blockKept :=
  (State.blockKept_setFreeCtr _ n).trans (State.blockKept_setBytes l s p)

theorem State.blockKept_putBytes : ∀ (l : List Byte) (s : State) (a : Nat), (s.putBytes a l).blockKept = s.blockKept
  | [], _, _ => rfl
  | b :: l, s, a => State.blockKept_putBytes l (s.setByte (s.placeIn a) b) (a + 1)

theorem State.blockKept_tearSector (s : State) (n : Nat) : (s.tearSector n).blockKept = s.blockKept :=
  State.blockKept_of rfl rfl rfl rfl rfl rfl

theorem State.blockKept_memNote (s : State) (p kind nsym : Nat) : (s.memNote p kind nsym).blockKept = s.blockKept := by
  unfold State.memNote
  rw [State.blockKept_setFld, State.blockKept_setFld, State.blockKept_setFld, State.blockKept_setFld, State.blockKept_setFld, State.blockKept_setFld] <;>
    simp [mcPg, rstPg]

theorem State.blockKept_mapStart (s : State) : s.mapStart.blockKept = s.blockKept := by
  unfold State.mapStart
  split
  · rw [State.blockKept_setBit _ _ (by decide) (by simp), State.blockKept_setBit _ _ (by decide) (by simp)]
  · rfl

theorem State.blockKept_mapDone (s : State) : s.mapDone.blockKept = s.blockKept := by
  rw [State.mapDone, State.blockKept_mapStart, State.blockKept_setBit _ _ (by decide) (by simp), State.blockKept_setBit _ _ (by decide) (by simp)]

theorem State.blockKept_setPoison (s : State) (w : Nat) (b : Bool) : (s.setPoison w b).blockKept = s.blockKept := by
  unfold State.setPoison
  split
  · split <;> rfl
  · rfl

theorem State.blockKept_memDetect (s : State) (bit src p : Nat) : (s.memDetect bit src p).blockKept = s.blockKept :=
  State.blockKept_detectAs ..

theorem State.blockKept_queueRepair (s : State) (r : Repair) : (s.queueRepair r).blockKept = s.blockKept :=
  (State.blockKept_mapStart _).trans rfl

theorem State.blockKept_memUe (s : State) (p : Nat) : (s.memUe p none).blockKept = s.blockKept := by
  have hnoted : ((s.memNote p 2 0).count mcPg 1).blockKept = s.blockKept :=
    (State.blockKept_count _ (by decide)).trans (State.blockKept_memNote s p 2 0)
  have hlisted (t : State) : ((t.setPoison (p / 32) true).setSyms (p / 32) 0).blockKept = t.blockKept := State.blockKept_setPoison t _ true
  unfold State.memUe
  dsimp only
  simp only [apply_ite State.blockKept, State.blockKept_memDetect, State.blockKept_queueRepair, hlisted, hnoted, ite_self]

theorem State.blockKept_rowCount (s : State) (m row : Nat) : (s.rowCount m row).blockKept = s.blockKept :=
  State.blockKept_of rfl rfl rfl rfl rfl rfl

theorem State.blockKept_wrongWord (s : State) (p : Nat) : (s.wrongWord p none).blockKept = s.blockKept := by
  unfold State.wrongWord
  split
  · rfl
  · exact State.blockKept_setFree s _ _ _

/-- A corrected read of a row. -/
theorem State.blockKept_fixed (s : State) (w p n m row : Nat) :
    (((((s.setSyms w n).memNote p 1 n).count mcPg 0).memDetect 1 32 p).rowCount m row).blockKept = s.blockKept :=
  calc _ = ((((s.setSyms w n).memNote p 1 n).count mcPg 0).memDetect 1 32 p).blockKept := State.blockKept_rowCount ..
    _ = (((s.setSyms w n).memNote p 1 n).count mcPg 0).blockKept := State.blockKept_memDetect ..
    _ = ((s.setSyms w n).memNote p 1 n).blockKept := State.blockKept_count _ (by decide)
    _ = (s.setSyms w n).blockKept := State.blockKept_memNote ..
    _ = s.blockKept := rfl

theorem State.blockKept_memRead (s : State) (p nsym : Nat) : (s.memRead p nsym none).1.blockKept = s.blockKept := by
  unfold State.memRead
  dsimp only
  split
  · rfl
  · split
    · exact State.blockKept_memNote ..
    · split
      · exact (State.blockKept_fixed ..).trans (State.blockKept_wrongWord s p)
      · split
        · rfl
        · split
          · exact State.blockKept_fixed ..
          · exact State.blockKept_memUe ..

theorem State.blockKept_touchMem (s : State) (o : Op) (p nsym : Nat) : (s.touchMem o p nsym).1.blockKept = s.blockKept := by
  unfold State.touchMem
  dsimp only
  split
  · exact State.blockKept_memRead s p nsym
  · exact State.blockKept_setBytes _ s p

/-! ## The engine and the flash -/

theorem State.blockKept_setCry (s : State) (f : CrySt → CrySt) : (s.setCry f).blockKept = s.blockKept :=
  State.blockKept_of rfl rfl rfl rfl rfl rfl

theorem State.blockKept_jobFinish (s : State) {q : Nat} (hq : q < 4) (j : Job) (res : Nat) : (s.jobFinish q j res).blockKept = s.blockKept := by
  have hcount (t : State) {i : Nat} (hi : i < 64) : (t.count crPg i).blockKept = t.blockKept := State.blockKept_count t hi
  have hget (t : State) (v : Nat) : (t.setFld crPg (R.Q.IDX.GET q) v).blockKept = t.blockKept :=
    State.blockKept_setFld t v (by simp; omega) (by simp [crPg, rstPg])
  have hjob (t : State) : (t.setJob q none).blockKept = t.blockKept := State.blockKept_setCry t _
  unfold State.jobFinish
  simp only [State.blockKept_postIf, apply_ite State.blockKept, hcount, hget, hjob, State.blockKept_setCry, State.blockKept_putBytes, ite_self,
    Nat.reduceLT]

theorem State.blockKept_nonceFill (s : State) (b : Bool) (l : List (List Byte)) : (s.nonceFill b l).blockKept = s.blockKept := by
  unfold State.nonceFill
  generalize (((nonceWords b).filter fun p => s.erased p 32).zip l) = ws
  exact State.blockKept_foldl (fun t e => State.blockKept_setBytes e.2 t e.1) ws s

theorem State.blockKept_nonceDrop (s : State) : s.nonceDrop.blockKept = s.blockKept := by
  have hctrs (l : List Nat) (t : State) : (l.foldl (fun (t : State) c => t.setCtr c { t.ctrOf c with wr := none, wrDig := none }) t).blockKept = t.blockKept :=
    State.blockKept_foldl (fun t c => State.blockKept_setCry t _) l t
  have hfree (t : State) (b : Bool) (l : List (List Byte)) (n : Nat) : ({ t.nonceFill b l with freeCtr := n } : State).blockKept = t.blockKept :=
    ((t.nonceFill b l).blockKept_setFreeCtr n).trans (t.blockKept_nonceFill b l)
  unfold State.nonceDrop
  dsimp only
  simp only [apply_ite State.blockKept, State.blockKept_mapDone, hfree, State.blockKept_tearSector, hctrs, ite_self]

theorem State.blockKept_cryAbort (s : State) : s.cryAbort.blockKept = s.blockKept := by
  unfold State.cryAbort
  rw [State.blockKept_nonceDrop, State.blockKept_setCry]
  refine State.blockKept_foldl_mem _ (fun t q hq => ?_) s
  split
  · split
    · exact State.blockKept_jobFinish t (List.mem_range.mp hq) _ _
    · exact State.blockKept_setCry t _
  · rfl

theorem State.blockKept_pieceTorn (s : State) : s.pieceTorn.blockKept = s.blockKept := by
  unfold State.pieceTorn
  split
  · simp only [apply_ite State.blockKept, State.blockKept_tearSector, State.blockKept_foldl (fun t j => State.blockKept_setFree t _ _ _), ite_self]
  · rfl

theorem State.blockKept_flashTorn (s : State) : s.flashTorn.blockKept = s.blockKept := by
  unfold State.flashTorn
  dsimp only
  split
  · exact s.blockKept_pieceTorn
  · split
    · exact (State.blockKept_setFree _ _ _ _).trans ((State.blockKept_of rfl rfl rfl rfl rfl rfl).trans s.blockKept_pieceTorn)
    · exact s.blockKept_pieceTorn

/-! ## The output hold -/

theorem State.blockKept_setHs (s : State) (n : Nat) (v : Hs) : (s.setHs n v).blockKept = s.blockKept := State.blockKept_of rfl rfl rfl rfl rfl rfl
theorem State.blockKept_setBridge (s : State) (k : Nat) (v : Bridge) : (s.setBridge k v).blockKept = s.blockKept := State.blockKept_of rfl rfl rfl rfl rfl rfl
theorem State.blockKept_setValve (s : State) (n : Nat) (v : Valve) : (s.setValve n v).blockKept = s.blockKept := by
  unfold State.setValve
  dsimp only
  rw [State.blockKept_setBit _ _ (by decide) (by simp), State.blockKept_setBit _ _ (by decide) (by simp),
    State.blockKept_setFld _ _ (by decide) (by simp)]
  exact State.blockKept_of rfl rfl rfl rfl rfl rfl
theorem State.blockKept_setLight (s : State) (v : Light) : ({ s with light := v } : State).blockKept = s.blockKept := State.blockKept_of rfl rfl rfl rfl rfl rfl
theorem State.blockKept_setAmb (s : State) (g : Nat) (v : Amb) : (s.setAmb g v).blockKept = s.blockKept := State.blockKept_of rfl rfl rfl rfl rfl rfl
theorem State.blockKept_setIo (s : State) (n : Nat) (v : Io) : (s.setIo n v).blockKept = s.blockKept := State.blockKept_of rfl rfl rfl rfl rfl rfl

/-- An output that is held keeps its held command. -/
theorem State.blockKept_unless {s t : State} (b : Bool) (h : t.blockKept = s.blockKept) : (if b then s else t).blockKept = s.blockKept := by
  cases b
  · exact h
  · rfl

theorem State.blockKept_takeHeld (s : State) : s.takeHeld.blockKept = s.blockKept := by
  unfold State.takeHeld
  refine (State.blockKept_foldl (fun t n => State.blockKept_unless _ (State.blockKept_setIo t n _)) _ _).trans ?_
  refine (State.blockKept_foldl (fun t g => State.blockKept_unless _ (State.blockKept_setAmb t g _)) _ _).trans ?_
  refine (State.blockKept_unless _ (State.blockKept_setLight _ _)).trans ?_
  refine (State.blockKept_foldl (fun t n => State.blockKept_unless _ (State.blockKept_setValve t n _)) _ _).trans ?_
  refine (State.blockKept_foldl (fun t k => State.blockKept_unless _ (State.blockKept_setBridge t k _)) _ _).trans ?_
  exact State.blockKept_foldl (fun t n => State.blockKept_unless _ (State.blockKept_setHs t n _)) _ _

theorem heldOutputs_lt {o : Nat} (h : o ∈ heldOutputs) : o < 96 := by
  simp only [heldOutputs, List.mem_append, List.mem_range, List.mem_range'_1, List.mem_cons, List.not_mem_nil, or_false] at h
  omega

theorem State.blockKept_setHeld (s : State) {o : Nat} (h : o ∈ heldOutputs) (b : Bool) : (s.setHeld o b).blockKept = s.blockKept := by
  have ho := heldOutputs_lt h
  exact State.blockKept_setReg s _ (by simp; omega) fun _ => by simp; omega

/-- The hold of a chip reset, unless it ends at once. -/
theorem State.blockKept_holdStart {s : State} (h : s.safe = true ∨ s.fld rstPg R.RST.HOLD.MS ≠ 0) : s.holdStart.blockKept = s.blockKept := by
  have hheld (t : State) : (heldOutputs.foldl (fun (t : State) o => t.setHeld o true) t).blockKept = t.blockKept :=
    State.blockKept_foldl_mem _ (fun t o ho => State.blockKept_setHeld t ho true) t
  have hend (t : State) (n : Int) : ({ t with pwr := { t.pwr with holdEnd := n } } : State).blockKept = t.blockKept :=
    State.blockKept_of rfl rfl rfl rfl rfl rfl
  unfold State.holdStart
  split
  · rfl
  next hsafe =>
    have hms : s.fld 0x006 R.RST.HOLD.MS ≠ 0 := h.resolve_left hsafe
    dsimp only
    rw [if_neg hms, hend, State.blockKept_setBit _ _ (by decide) (by simp), State.blockKept_setBit _ _ (by decide) (by simp), hheld,
      State.blockKept_takeHeld]

/-! ## What the reset of the cores leaves -/

/-- The commands on their way, the boot bank, the takeovers and RST.CAUSE. -/
def State.resetKept (s : State) : List Instr × Bool × List Takeover × Word := (s.pending, s.bankB, s.takeovers, s.reg rstPg R.RST.CAUSE.C.off)

theorem State.resetKept_of_blockKept {s t : State} (h : t.blockKept = s.blockKept) : t.resetKept = s.resetKept :=
  congrArg (fun k => k.2.2) h

theorem State.resetKept_of_offCores {s t : State} (h : t.offCores = s.offCores) : t.resetKept = s.resetKept := by
  simp only [State.offCores, Prod.mk.injEq] at h
  obtain ⟨hregs, -, -, -, -, -, hpending, hbankB, htakeovers⟩ := h
  rw [State.resetKept, State.resetKept, hpending, hbankB, htakeovers, State.reg_of_regs hregs]

theorem State.resetKept_of {s t : State} (hregs : t.regs = s.regs) (hpending : t.pending = s.pending) (hbankB : t.bankB = s.bankB)
    (htakeovers : t.takeovers = s.takeovers) : t.resetKept = s.resetKept := by
  rw [State.resetKept, State.resetKept, hpending, hbankB, htakeovers, State.reg_of_regs hregs]

theorem State.takeovers_of_resetKept {s t : State} (h : t.resetKept = s.resetKept) : t.takeovers = s.takeovers := by
  simp only [State.resetKept, Prod.mk.injEq] at h
  obtain ⟨-, -, htakeovers, -⟩ := h
  exact htakeovers

theorem State.resetKept_foldl {α : Type} {f : State → α → State} (hf : ∀ t a, (f t a).resetKept = t.resetKept) :
    ∀ (l : List α) (s : State), (l.foldl f s).resetKept = s.resetKept
  | [], _ => rfl
  | a :: l, s => (State.resetKept_foldl hf l (f s a)).trans (hf s a)

theorem State.resetKept_opDone (s : State) (o : Op) (v : Nat) (bad err : Bool) : (s.opDone o v bad err).resetKept = s.resetKept :=
  State.resetKept_of_offCores (State.offCores_opDone ..)

theorem State.resetKept_performOwn (s : State) (o : Op) (nsym : Nat) : (s.performOwn o nsym).resetKept = s.resetKept := by
  unfold State.performOwn
  split
  · exact (State.resetKept_opDone ..).trans (State.resetKept_of_blockKept (State.blockKept_postFrom ..))
  · split
    · exact State.resetKept_opDone ..
    · exact (State.resetKept_opDone ..).trans (State.resetKept_of_blockKept (State.blockKept_touchMem ..))

theorem State.resetKept_flush (n : Nat) : ∀ (m : Nat) (s : State), (s.flush n m).resetKept = s.resetKept
  | 0, _ => rfl
  | m + 1, s => by
    unfold State.flush
    split
    · rfl
    · exact (State.resetKept_flush n m _).trans (State.resetKept_performOwn s _ 0)

theorem State.resetKept_leaves (s : State) (n : Nat) (out rest : List BufEnt) : (s.leaves n out rest).resetKept = s.resetKept := by
  have hout (t : State) : (((coreCtxs n).foldl State.fenceDone t).wakeOps n).resetKept = t.resetKept :=
    State.resetKept_of_offCores ((State.offCores_wakeOps _ n).trans (State.offCores_foldl State.offCores_fenceDone _ t))
  have hflush (v : LCore) (m : Nat) : (((s.setLc n v).confirmAll out).flush n m).resetKept = s.resetKept :=
    calc _ = ((s.setLc n v).confirmAll out).resetKept := State.resetKept_flush n m _
      _ = (s.setLc n v).resetKept := State.resetKept_of_offCores (State.offCores_confirmAll _ out)
      _ = s.resetKept := rfl
  unfold State.leaves
  split
  · rfl
  · dsimp only
    split
    · exact hflush _ _
    · exact (hout _).trans (hflush _ _)

theorem State.resetKept_releaseDueAll (s : State) : s.releaseDueAll.resetKept = s.resetKept :=
  State.resetKept_foldl (fun t n => State.resetKept_leaves t n _ _) _ s

/-- The cores start anew with no takeover under way. -/
theorem State.resetKept_coresReset {s : State} (h : s.takeovers = []) : s.coresReset.resetKept = s.resetKept := by
  have hstop (t : State) : ({ t with ctxs := bootCtxs, lcores := [], icache := [], icBad := [], ops := [], nmts := [], postings := [], capPend := [], lcmHeld := [] } : State).resetKept = t.resetKept :=
    State.resetKept_of rfl rfl rfl rfl
  have hdue : s.releaseDueAll.resetKept = s.resetKept := s.resetKept_releaseDueAll
  have hnone : s.releaseDueAll.takeovers = [] := (State.takeovers_of_resetKept hdue).trans h
  have hflush : State.takeoversFlush 64 s.releaseDueAll = s.releaseDueAll := by
    unfold State.takeoversFlush
    rw [hnone]
  unfold State.coresReset
  rw [hflush]
  exact (hstop _).trans hdue

end Sys2Proof.Machine
end

section
/-! The wake boot: what it records and starts, whatever woke the device. -/

namespace Sys2Proof.Machine

/-! ## Registers of pages -/

/-- `t` has of `s` the registers of the pages in `K`. -/
structure State.KeepsOn (K : Nat → Prop) (s t : State) : Prop where
  reg : ∀ pg off, K pg → off < 0x1000 → t.reg pg off = s.reg pg off

namespace State.KeepsOn

variable {K : Nat → Prop} {s t u : State}

theorem of_regs (h : t.regs = s.regs) : s.KeepsOn K t := ⟨fun pg off _ _ => State.reg_of_regs h pg off⟩

theorem trans (h : s.KeepsOn K t) (h' : t.KeepsOn K u) : s.KeepsOn K u :=
  ⟨fun pg off hpg hoff => (h'.reg pg off hpg hoff).trans (h.reg pg off hpg hoff)⟩

theorem mono {K' : Nat → Prop} (h : s.KeepsOn K t) (hsub : ∀ pg, K' pg → K pg) : s.KeepsOn K' t :=
  ⟨fun pg off hpg hoff => h.reg pg off (hsub pg hpg) hoff⟩

theorem setReg (s : State) {pg off : Nat} (w : Word) (hpg : ¬ K pg) (hoff : off < 0x1000) : s.KeepsOn K (s.setReg pg off w) :=
  ⟨fun _ _ hpg' hoff' => State.reg_setReg_ne s w (regKey_ne hoff' hoff (.inl fun e => hpg (e ▸ hpg')))⟩

theorem setFld (s : State) {pg : Nat} {f : Fld} (v : Nat) (hpg : ¬ K pg) (hoff : f.off < 0x1000) : s.KeepsOn K (s.setFld pg f v) :=
  setReg s _ hpg hoff

theorem setBit (s : State) {pg : Nat} {f : Fld} (b : Bool) (hpg : ¬ K pg) (hoff : f.off < 0x1000) : s.KeepsOn K (s.setBit pg f b) :=
  setReg s _ hpg hoff

theorem foldl {α : Type} {f : State → α → State} : ∀ (l : List α), (∀ t : State, ∀ a ∈ l, t.KeepsOn K (f t a)) → ∀ s : State, s.KeepsOn K (l.foldl f s)
  | [], _, _ => of_regs rfl
  | a :: l, hf, s => (hf s a (List.mem_cons_self ..)).trans (foldl l (fun t b hb => hf t b (List.mem_cons_of_mem a hb)) (f s a))

theorem detect (s : State) {pg : Nat} (bit : Nat) (hpg : ¬ K pg) : s.KeepsOn K (s.detect pg bit) :=
  (setReg s _ hpg (by decide)).trans (of_regs (State.detectAs_regs ..))

theorem count (s : State) {pg i : Nat} (hi : i < 64) (hpg : ¬ K pg) : s.KeepsOn K (s.count pg i) :=
  ⟨fun _ _ hpg' hoff => State.reg_count_page s hi hoff fun e => hpg (e ▸ hpg')⟩

theorem fld (h : s.KeepsOn K t) {pg : Nat} {f : Fld} (hpg : K pg) (hoff : f.off < 0x1000) : t.fld pg f = s.fld pg f := by
  rw [State.fld, State.fld, h.reg pg f.off hpg hoff]

theorem bit (h : s.KeepsOn K t) {pg : Nat} {f : Fld} (hpg : K pg) (hoff : f.off < 0x1000) : t.bit pg f = s.bit pg f := by
  rw [State.bit, State.bit, h.fld hpg hoff]

theorem coreExists (h : s.KeepsOn K t) (hpg : K 0x02A) (n : Nat) : t.coreExists n = s.coreExists n := by
  rw [State.coreExists, State.coreExists, h.fld hpg (by decide)]

theorem posting (h : s.KeepsOn K t) (hpg : K 0x02A) (ev : Nat) : t.posting ev = s.posting ev := by
  simp only [State.posting, funext (h.coreExists hpg)]

end State.KeepsOn

/-! ## The network at a wake -/

/-- A page that is no CAN controller's. -/
abbrev offCan (pg : Nat) : Prop := pg < 0x200 ∨ 0x207 < pg

/-- The CAN controllers' pages change, and nothing that a wake boot shows. -/
structure State.NetStep (s t : State) : Prop where
  regs : s.KeepsOn offCan t
  power : t.power = s.power
  pwr : t.pwr = s.pwr
  mem : t.mem = s.mem

namespace State.NetStep

variable {s t u : State}

theorem of_regs (hregs : t.regs = s.regs) (hpower : t.power = s.power) (hpwr : t.pwr = s.pwr) (hmem : t.mem = s.mem) : s.NetStep t :=
  ⟨.of_regs hregs, hpower, hpwr, hmem⟩

theorem refl (s : State) : s.NetStep s := of_regs rfl rfl rfl rfl

theorem trans (h : s.NetStep t) (h' : t.NetStep u) : s.NetStep u :=
  ⟨h.regs.trans h'.regs, h'.power.trans h.power, h'.pwr.trans h.pwr, h'.mem.trans h.mem⟩

theorem foldl {α : Type} {f : State → α → State} : ∀ (l : List α), (∀ t : State, ∀ a ∈ l, t.NetStep (f t a)) → ∀ s : State, s.NetStep (l.foldl f s)
  | [], _, s => refl s
  | a :: l, hf, s => (hf s a (List.mem_cons_self ..)).trans (foldl l (fun t b hb => hf t b (List.mem_cons_of_mem a hb)) (f s a))

theorem setReg (s : State) {pg off : Nat} (w : Word) (hpg : ¬ offCan pg) (hoff : off < 0x1000) : s.NetStep (s.setReg pg off w) :=
  ⟨.setReg s w hpg hoff, State.setReg_power .., State.setReg_pwr .., State.setReg_mem ..⟩

theorem setFld (s : State) {pg : Nat} {f : Fld} (v : Nat) (hpg : ¬ offCan pg) (hoff : f.off < 0x1000) : s.NetStep (s.setFld pg f v) :=
  setReg s _ hpg hoff

theorem setBit (s : State) {pg : Nat} {f : Fld} (b : Bool) (hpg : ¬ offCan pg) (hoff : f.off < 0x1000) : s.NetStep (s.setBit pg f b) :=
  setReg s _ hpg hoff

theorem post (s : State) (ev : Nat) : s.NetStep (s.post ev) := of_regs (State.post_regs ..) rfl rfl rfl

theorem detect (s : State) {pg : Nat} (bit : Nat) (hpg : ¬ offCan pg) : s.NetStep (s.detect pg bit) :=
  ⟨.detect s bit hpg, State.detect_power .., State.detect_pwr .., State.detect_mem ..⟩

theorem ite {c : Prop} [Decidable c] (h : s.NetStep t) (h' : s.NetStep u) : s.NetStep (if c then t else u) := by
  split
  · exact h
  · exact h'

end State.NetStep

theorem not_offCan {c : Nat} (h : c < 8) : ¬ offCan (canPg c) := by simp only [canPg]; omega

theorem State.netStep_canShow (s : State) {c : Nat} (h : c < 8) : s.NetStep (s.canShow c) :=
  ((State.NetStep.setFld s _ (not_offCan h) (by decide)).trans (.setBit _ _ (not_offCan h) (by decide))).trans
    (.setBit _ _ (not_offCan h) (by decide))

theorem State.netStep_txEnd (s : State) {c t : Nat} (h : c < 8) (ht : t < 16) (st : Nat) : s.NetStep (s.txEnd c t st) := by
  unfold State.txEnd
  refine State.NetStep.trans ?_ (State.netStep_canShow _ h)
  refine State.NetStep.trans ?_ (.ite (.detect _ 9 (not_offCan h)) (.ite (.detect _ 8 (not_offCan h)) (.refl _)))
  refine State.NetStep.trans ?_ (.ite (.post _ _) (.refl _))
  exact (State.NetStep.setFld s _ (not_offCan h) (by simp; omega)).trans (.setReg _ _ (not_offCan h) (by decide))

theorem State.netStep_setCan (s : State) (c : Nat) (v : Can) : s.NetStep (s.setCan c v) := .of_regs rfl rfl rfl rfl
theorem State.netStep_setLin (s : State) (l : Nat) (v : Lin) : s.NetStep (s.setLin l v) := .of_regs rfl rfl rfl rfl

theorem State.netStep_setNm (s : State) (v : Nm) : s.NetStep { s with nm := v } := .of_regs rfl rfl rfl rfl

theorem State.netStep_nmSweep (s : State) : s.NetStep s.nmSweep := by
  refine State.NetStep.foldl _ (fun t c hc => ?_) s
  refine (State.netStep_setCan t c _).trans (.ite ?_ (.refl _))
  refine (State.netStep_txEnd _ (List.mem_range.mp hc) (by decide) 4).trans (.ite (.refl _) ?_)
  exact State.netStep_setCan ..

theorem State.netStep_nmCease (s : State) : s.NetStep s.nmCease := by
  have hlins (t : State) (l : Nat) : t.NetStep
      (if (t.linAt l).sleepPend ∧ s.nm.sending.contains (8 + l) then t.setLin l { t.linAt l with sleepPend := false } else t) :=
    .ite (State.netStep_setLin ..) (.refl t)
  exact (State.NetStep.foldl _ (fun t l _ => hlins t l) s).trans (State.netStep_setNm ..)

/-- A page that is neither a CAN controller's nor the NM block's. -/
abbrev offNet (pg : Nat) : Prop := offCan pg ∧ pg ≠ nmPg

/-- AWAKE is entered (R425, R430). -/
theorem State.setNmState_awake (s : State) : (s.setNmState 0).nmState = 0 ∧ s.KeepsOn offNet (s.setNmState 0) ∧
    (s.setNmState 0).power = s.power ∧ (s.setNmState 0).pwr = s.pwr ∧ (s.setNmState 0).mem = s.mem := by
  unfold State.setNmState
  split
  next h => exact ⟨h, .of_regs rfl, rfl, rfl, rfl⟩
  next =>
    have hset : (s.setFld nmPg R.NM.STAT.STATE 0).NetStep ((s.setFld nmPg R.NM.STAT.STATE 0).post 204) := .post _ 204
    have hstep (t : State) : t.NetStep
        (let u : State := { t with nm := { t.nm with awake := t.tb, kaTick := t.tb } }
         if u.nm.forced then u else u.nmCease).nmSweep :=
      ((State.netStep_setNm t _).trans (.ite (.refl _) (State.netStep_nmCease _))).trans (State.netStep_nmSweep _)
    have hall := hset.trans (hstep _)
    refine ⟨?_, ?_, ?_, ?_, ?_⟩
    · exact (hall.regs.fld (by decide) (by decide)).trans (State.fld_setFld_fits s nmPg R.NM.STAT.STATE 0 (by decide) (by decide) (by decide))
    · exact (State.KeepsOn.setFld s _ (by simp) (by decide)).trans (hall.regs.mono fun _ h => h.1)
    · exact hall.power.trans (State.setFld_power ..)
    · exact hall.pwr.trans (State.setFld_pwr ..)
    · exact hall.mem.trans (State.setFld_mem ..)

theorem State.netStep_clearLatches (s : State) : ∃ t, s.NetStep t ∧ s.clearLatches = t.setBit nmPg R.NM.STAT.WLATCH false := by
  have hcans (t : State) (c : Nat) : t.NetStep (if (t.canAt c).wakeLatch then t.setCan c { t.canAt c with wakeLatch := false } else t) :=
    .ite (State.netStep_setCan ..) (.refl t)
  have hlins (t : State) (l : Nat) : t.NetStep (if (t.linAt l).wakeLatch then t.setLin l { t.linAt l with wakeLatch := false } else t) :=
    .ite (State.netStep_setLin ..) (.refl t)
  exact ⟨_, (State.NetStep.foldl _ (fun t c _ => hcans t c) s).trans (State.NetStep.foldl _ (fun t l _ => hlins t l) _), rfl⟩

/-! ## The wake boot -/

/-- What a wake boot records, whatever its source (R456). -/
structure State.Woken (s u : State) (src : Nat × Nat) : Prop where
  power : u.power = .run
  boot : u.pwr.boot = .wake
  mem : u.mem = s.mem.filter fun e => !lostMacro (placeMacro e.1)
  cause : u.reg rstPg R.RST.CAUSE.C.off = s.reg rstPg R.RST.CAUSE.C.off ||| 0x20
  nmState : u.nmState = 0
  kind : src.1 < 16 → u.fld nmPg R.NM.WSRC.KIND = src.1
  index : src.2 < 64 → u.fld nmPg R.NM.WSRC.INDEX = src.2
  posted : s.posting 205 ∈ u.postings

/-- The wake boot goes on, with what `Woken` names as it is. -/
structure State.WakeStep (s t : State) : Prop where
  power : t.power = s.power
  pwr : t.pwr = s.pwr
  mem : t.mem = s.mem
  regs : s.KeepsOn (· = rstPg) t
  nmState : t.nmState = s.nmState
  wsrc : t.reg nmPg R.NM.WSRC.KIND.off = s.reg nmPg R.NM.WSRC.KIND.off
  posted : ∀ p ∈ s.postings, p ∈ t.postings

namespace State.WakeStep

variable {s t u : State}

theorem trans (h : s.WakeStep t) (h' : t.WakeStep u) : s.WakeStep u :=
  ⟨h'.power.trans h.power, h'.pwr.trans h.pwr, h'.mem.trans h.mem, h.regs.trans h'.regs, h'.nmState.trans h.nmState, h'.wsrc.trans h.wsrc,
    fun p hp => h'.posted p (h.posted p hp)⟩

theorem of_net (h : s.NetStep t) (hpost : ∀ p ∈ s.postings, p ∈ t.postings) : s.WakeStep t :=
  ⟨h.power, h.pwr, h.mem, h.regs.mono fun _ e => .inl (e ▸ by decide), h.regs.fld (by decide) (by decide),
    h.regs.reg nmPg _ (by decide) (by decide), hpost⟩

theorem refl (s : State) : s.WakeStep s := of_net (.refl s) fun _ => id

theorem foldl {α : Type} {f : State → α → State} : ∀ (l : List α), (∀ t : State, ∀ a ∈ l, t.WakeStep (f t a)) → ∀ s : State, s.WakeStep (l.foldl f s)
  | [], _, s => refl s
  | a :: l, hf, s => (hf s a (List.mem_cons_self ..)).trans (foldl l (fun t b hb => hf t b (List.mem_cons_of_mem a hb)) (f s a))

theorem canShow (s : State) {c : Nat} (h : c < 8) : s.WakeStep (s.canShow c) :=
  of_net (s.netStep_canShow h) fun p hp => by
    have hposts : (s.canShow c).postings = s.postings := by simp [State.canShow]
    rwa [hposts]

theorem ite {c : Prop} [Decidable c] (h : s.WakeStep t) (h' : s.WakeStep u) : s.WakeStep (if c then t else u) := by
  split
  · exact h
  · exact h'

theorem postIf (s : State) (c : Bool) (ev : Nat) : s.WakeStep (s.postIf c ev) := by
  cases c
  · exact refl s
  · exact of_net (.post s ev) fun p hp => List.mem_append_left _ hp

/-- The wake hold is shown and counted (R424). -/
theorem hold (s : State) : s.WakeStep ((s.setBit nmPg R.NM.STAT.WHOLD true).count nmPg 1) := by
  have hcount := State.KeepsRegs.count (offs := []) (s.setBit nmPg R.NM.STAT.WHOLD true) nmPg (i := 1) (by decide)
  refine ⟨(State.count_power ..).trans (State.setFld_power ..), (State.count_pwr ..).trans (State.setFld_pwr ..),
    (State.count_mem ..).trans (State.setFld_mem ..), ?_, ?_, ?_, fun p hp => ?_⟩
  · exact (State.KeepsOn.setBit s _ (by decide) (by decide)).trans (.count _ (by decide) (by decide))
  · exact (hcount.fld nmPg (by decide) (by simp)).trans (State.fld_setFld_apart _ _ _ (by simp))
  · exact (hcount.reg nmPg _ (by decide) (by simp)).trans (State.reg_setFld_off _ _ _ (by simp))
  · rw [State.count_postings]
    exact hp

end State.WakeStep

/-- The source of a wake is recorded (R424, R430). -/
def State.wakeNoted (s : State) (src : Nat × Nat) : State := ((s.setFld nmPg R.NM.WSRC.KIND src.1).setFld nmPg R.NM.WSRC.INDEX src.2).post 205

theorem State.keepsOn_wakeNoted (s : State) (src : Nat × Nat) : s.KeepsOn (· ≠ nmPg) (s.wakeNoted src) :=
  ((State.KeepsOn.setFld s _ (by simp) (by decide)).trans (.setFld _ _ (by simp) (by decide))).trans (.of_regs (State.post_regs ..))

theorem State.kind_wakeNoted (s : State) {src : Nat × Nat} (h : src.1 < 16) : (s.wakeNoted src).fld nmPg R.NM.WSRC.KIND = src.1 := by
  rw [State.wakeNoted, State.fld_of_regs (State.post_regs ..), State.fld_setFld_apart _ _ _ (by simp),
    State.fld_setFld_fits _ _ _ _ (by decide) (by decide) (by simpa using h)]

theorem State.index_wakeNoted (s : State) {src : Nat × Nat} (h : src.2 < 64) : (s.wakeNoted src).fld nmPg R.NM.WSRC.INDEX = src.2 := by
  rw [State.wakeNoted, State.fld_of_regs (State.post_regs ..), State.fld_setFld_fits _ _ _ _ (by decide) (by decide) (by simpa using h)]

theorem State.nmState_wakeNoted (s : State) (src : Nat × Nat) : (s.wakeNoted src).nmState = s.nmState := by
  rw [State.nmState, State.wakeNoted, State.fld_of_regs (State.post_regs ..), State.fld_setFld_apart _ _ _ (by simp),
    State.fld_setFld_apart _ _ _ (by simp), State.nmState]

theorem State.posted_wakeNoted (s : State) (src : Nat × Nat) : s.posting 205 ∈ (s.wakeNoted src).postings := by
  have hkeep : s.KeepsOn (· ≠ nmPg) ((s.setFld nmPg R.NM.WSRC.KIND src.1).setFld nmPg R.NM.WSRC.INDEX src.2) :=
    (State.KeepsOn.setFld s _ (by simp) (by decide)).trans (.setFld _ _ (by simp) (by decide))
  rw [State.wakeNoted, State.post_postings, hkeep.posting (by decide)]
  exact List.mem_append_right _ (List.mem_singleton_self _)

/-- The islands start from what stands in PARK (R456): `t` is the state before the network wakes. -/
structure State.WakeStart (s t : State) : Prop where
  power : t.power = .run
  boot : t.pwr.boot = .wake
  mem : t.mem = s.mem.filter fun e => !lostMacro (placeMacro e.1)
  cause : t.reg rstPg R.RST.CAUSE.C.off = s.reg rstPg R.RST.CAUSE.C.off ||| 0x20
  regs : s.KeepsOn (· = 0x02A) t

/-- The network wakes with the source recorded. -/
theorem State.WakeStart.woken {s t : State} (h : s.WakeStart t) (src : Nat × Nat) : s.Woken ((t.clearLatches.setNmState 0).wakeNoted src) src := by
  obtain ⟨c, hc, hclear⟩ := t.netStep_clearLatches
  obtain ⟨hnm, hregs, hpower, hpwr, hmem⟩ := t.clearLatches.setNmState_awake
  have hlatch : t.KeepsOn offNet t.clearLatches := by
    rw [hclear]
    exact (hc.regs.mono fun _ e => e.1).trans (.setBit _ _ (by simp) (by decide))
  have hsame : t.clearLatches.power = t.power ∧ t.clearLatches.pwr = t.pwr ∧ t.clearLatches.mem = t.mem := by
    rw [hclear]
    exact ⟨(State.setFld_power ..).trans hc.power, (State.setFld_pwr ..).trans hc.pwr, (State.setFld_mem ..).trans hc.mem⟩
  obtain ⟨hpower', hpwr', hmem'⟩ := hsame
  have hkeep : t.KeepsOn offNet (t.clearLatches.setNmState 0) := hlatch.trans hregs
  have hnote := (t.clearLatches.setNmState 0).keepsOn_wakeNoted src
  refine ⟨?_, ?_, ?_, ?_, ?_, State.kind_wakeNoted _, State.index_wakeNoted _, ?_⟩
  · exact (hpower.trans hpower').trans h.power
  · exact (congrArg Pwr.boot (hpwr.trans hpwr')).trans h.boot
  · exact (hmem.trans hmem').trans h.mem
  · rw [hnote.reg _ _ (by decide) (by decide), hkeep.reg _ _ (by decide) (by decide), h.cause]
  · rw [State.nmState_wakeNoted, hnm]
  · have hpost : (t.clearLatches.setNmState 0).posting 205 = s.posting 205 :=
      (hkeep.posting (by decide) _).trans (h.regs.posting rfl _)
    exact hpost ▸ State.posted_wakeNoted _ src

theorem State.Woken.step {s t u : State} {src : Nat × Nat} (h : s.Woken t src) (hstep : t.WakeStep u) : s.Woken u src := by
  have hfld {f : Fld} (hf : f.off = 0x128) : u.fld nmPg f = t.fld nmPg f := by
    rw [State.fld, State.fld, hf]
    exact congrArg f.get hstep.wsrc
  exact ⟨hstep.power.trans h.power, (congrArg Pwr.boot hstep.pwr).trans h.boot, hstep.mem.trans h.mem,
    (hstep.regs.reg _ _ rfl (by decide)).trans h.cause, hstep.nmState.trans h.nmState, fun hk => (hfld rfl).trans (h.kind hk),
    fun hi => (hfld rfl).trans (h.index hi), hstep.posted _ h.posted⟩

/-- A wake is a cause of RST.CAUSE, and is counted. -/
def State.wakeCaused (s : State) : State :=
  (s.setReg rstPg R.RST.CAUSE.C.off (s.reg rstPg R.RST.CAUSE.C.off ||| 0x20)).count rstPg 2

theorem State.cause_wakeCaused (s : State) : s.wakeCaused.reg rstPg R.RST.CAUSE.C.off = s.reg rstPg R.RST.CAUSE.C.off ||| 0x20 :=
  ((State.KeepsRegs.count (offs := []) _ rstPg (by decide)).reg rstPg _ (by decide) (by simp)).trans (State.reg_setReg_same ..)

theorem State.keepsOn_wakeCaused (s : State) : s.KeepsOn (· = 0x02A) s.wakeCaused :=
  State.KeepsOn.trans (.setReg s _ (by decide) (by decide)) (.count _ (by decide) (by decide))

/-- The islands' supplies and clocks start (R456). -/
def State.wakeIslands (s : State) : State :=
  (((s.setFld pmuPg R.PMU.MODE.MODE 0).setReg clkPg R.CLK.LOCK.L.off 1).setBit pmuPg R.PMU.SUP.BUCK !s.pwr.vlsel).hsFresh

theorem State.keepsOn_wakeIslands (s : State) : s.KeepsOn (fun pg => pg ≠ pmuPg ∧ pg ≠ clkPg) s.wakeIslands :=
  (((State.KeepsOn.setFld s _ (by simp) (by decide)).trans (.setReg _ _ (by simp) (by decide))).trans (.setBit _ _ (by simp) (by decide))).trans
    (.of_regs (State.hsFresh_keeps _).1)

theorem State.hsFresh_rest (s : State) : s.hsFresh.power = s.power ∧ s.hsFresh.pwr = s.pwr ∧ s.hsFresh.mem = s.mem :=
  List.foldlRecOn (List.range 48) (fun (t : State) n => t.setHs n { t.hsAt n with fresh := true })
    (motive := fun t : State => t.power = s.power ∧ t.pwr = s.pwr ∧ t.mem = s.mem) ⟨rfl, rfl, rfl⟩ fun _ ht _ _ => ht

theorem State.wakeIslands_rest (s : State) : s.wakeIslands.power = s.power ∧ s.wakeIslands.pwr = s.pwr ∧ s.wakeIslands.mem = s.mem := by
  obtain ⟨hpower, hpwr, hmem⟩ :=
    (((s.setFld pmuPg R.PMU.MODE.MODE 0).setReg clkPg R.CLK.LOCK.L.off 1).setBit pmuPg R.PMU.SUP.BUCK !s.pwr.vlsel).hsFresh_rest
  rw [State.wakeIslands, hpower, hpwr, hmem]
  simp

theorem State.wakeStart_of {s s1 s5 : State} (hregs1 : s1.regs = s.regs) (hmem1 : s1.mem = s.mem) (hpower : s5.power = .run)
    (hboot : s5.pwr.boot = .wake) (hregs : s5.regs = s1.wakeCaused.regs) (hmem : s5.mem = s1.wakeCaused.mem.filter fun e => !lostMacro (placeMacro e.1)) :
    s.WakeStart s5.wakeIslands := by
  obtain ⟨hpower', hpwr', hmem'⟩ := s5.wakeIslands_rest
  have hisl := s5.keepsOn_wakeIslands
  have hmemC : s1.wakeCaused.mem = s.mem := ((State.count_mem ..).trans (State.setReg_mem ..)).trans hmem1
  refine ⟨hpower'.trans hpower, (congrArg Pwr.boot hpwr').trans hboot, ?_, ?_, ?_⟩
  · rw [hmem', hmem, hmemC]
  · rw [hisl.reg _ _ (by decide) (by decide), State.reg_of_regs hregs, State.cause_wakeCaused, State.reg_of_regs hregs1]
  · exact ((State.KeepsOn.of_regs hregs1).trans (s1.keepsOn_wakeCaused.trans (.of_regs hregs))).trans (hisl.mono fun _ e => e ▸ by decide)

theorem State.nm_canShow (s : State) (c : Nat) : (s.canShow c).nm = s.nm := by
  simp [State.canShow]

/-- The controllers show their transceivers' modes, and an input's wake posts its change where that is asked for. -/
def State.wakeShown (s : State) (src : Nat × Nat) : State :=
  let t := (List.range 8).foldl (fun (t : State) c => t.canShow c) s
  if src.1 = 3 then t.postIf ((t.fld (siPg src.2) R.SI.CHG.EVEN).testBit (src.2 % 8)) (160 + src.2 / 8) else t

theorem State.wakeStep_wakeShown (s : State) (src : Nat × Nat) : s.WakeStep (s.wakeShown src) :=
  (State.WakeStep.foldl (List.range 8) (fun t _ hc => .canShow t (List.mem_range.mp hc)) s).trans (.ite (.postIf ..) (.refl _))

theorem State.nm_wakeShown (s : State) (src : Nat × Nat) : (s.wakeShown src).nm = s.nm := by
  have hshow : ((List.range 8).foldl (fun (t : State) c => t.canShow c) s).nm = s.nm :=
    List.foldlRecOn (List.range 8) (fun (t : State) c => t.canShow c) (motive := fun t : State => t.nm = s.nm) rfl
      fun t ht c _ => (t.nm_canShow c).trans ht
  have hpost (t : State) (b : Bool) (ev : Nat) : (t.postIf b ev).nm = t.nm := by cases b <;> rfl
  unfold State.wakeShown
  dsimp only
  rw [apply_ite State.nm, hpost, ite_self, hshow]

theorem State.wakeBoot_eq (s : State) (src : Nat × Nat) (bus : Option Nat) (rtc : Nat) : ∃ u, s.Woken u src ∧ u.nm.hold.isSome = true ∧
    s.wakeBoot src bus rtc true = u.setBit fltPg R.FLT.STAT.SAFEN false ∧
    s.wakeBoot src bus rtc false = ((u.setBit fltPg R.FLT.STAT.SAFEN true).enterSafe 2 0).collect [⟨233, .page 0⟩] := by
  generalize hu : s.wakeBoot src bus rtc = f
  unfold State.wakeBoot at hu
  extract_lets s1 ticks s2 s3 pwr s4 s5 s6 s7 s8 s9 s10 nm s11 s12 s13 at hu
  have hstart : s.WakeStart s7 := State.wakeStart_of (s := s) (s1 := s1) (s5 := s5) rfl rfl rfl rfl rfl rfl
  have h8 : s8 = s7.clearLatches.setNmState 0 := rfl
  have h9 : s9 = s8.wakeNoted src := rfl
  have h10 : s10 = (s9.setBit nmPg R.NM.STAT.WHOLD true).count nmPg 1 := rfl
  have h11 : s11 = { s10 with nm := s11.nm } := rfl
  have hhold : s11.nm.hold.isSome = true := rfl
  have h13 : s13 = s11.wakeShown src := rfl
  clear_value s7 s8 s9 s10 s11 s13
  have hwoken : s.Woken s9 src := h9 ▸ h8 ▸ hstart.woken src
  have hheld : s9.WakeStep s11 := by
    rw [h11]
    exact (h10 ▸ State.WakeStep.hold s9 : s9.WakeStep s10).trans (.of_net (State.netStep_setNm ..) fun _ => id)
  refine ⟨s13, ?_, ?_, ?_, ?_⟩
  · exact h13 ▸ (hwoken.step hheld).step (s11.wakeStep_wakeShown src)
  · rw [h13, State.nm_wakeShown, hhold]
  · rw [← hu]
    exact if_pos rfl
  · rw [← hu]
    exact if_neg (by decide)

end Sys2Proof.Machine
end

section
/-! The chip reset: what it starts anew, RESETN as a wake, and how held outputs are given back. -/

namespace Sys2Proof.Machine

/-! ## The base of a chip reset -/

/-- The cause of a chip reset is recorded and counted, and the output hold starts. -/
def State.chipHeld (s : State) (cause : Nat) : State :=
  ((s.setReg rstPg R.RST.CAUSE.C.off (s.reg rstPg R.RST.CAUSE.C.off ||| (1 <<< cause))).count rstPg 0).holdStart

/-- The cores, the engine and the flash stop. -/
def State.chipStopped (s : State) (cause : Nat) : State := (s.chipHeld cause).coresReset.cryAbort.flashTorn

/-- What a chip reset starts anew beside the registers. -/
def State.startsAnew (s : State) : Power × BootPh × Tab (Option Word) × Tab Clause × Tab Ctx × List Op × List Instr :=
  (s.power, s.pwr.boot, s.sketch, s.clauses, s.ctxs, s.ops, s.pending)

theorem State.startsAnew_setFld (s : State) (pg : Nat) (f : Fld) (v : Nat) : (s.setFld pg f v).startsAnew = s.startsAnew := by
  simp [State.startsAnew]

theorem State.startsAnew_setBit (s : State) (pg : Nat) (f : Fld) (b : Bool) : (s.setBit pg f b).startsAnew = s.startsAnew :=
  State.startsAnew_setFld ..

theorem State.startsAnew_hsFresh (s : State) : s.hsFresh.startsAnew = s.startsAnew := by
  have hfold : ∀ (l : List Nat) (t : State),
      (l.foldl (fun (t : State) n => t.setHs n { t.hsAt n with fresh := true }) t).startsAnew = t.startsAnew := by
    intro l
    induction l with
    | nil => exact fun _ => rfl
    | cons n l ih => exact fun _ => ih _
  exact hfold _ s

/-- A table filtered by its keys reads as before where they stay, and as its defaults elsewhere. -/
theorem tget_filter_keys {β : Type} (d : Nat → β) (p : Nat → Bool) (m : Tab β) (k : Nat) :
    tget d (m.filter fun e => p e.1) k = if p k then tget d m k else d k := by
  induction m with
  | nil => simp [tget]
  | cons e m ih =>
    by_cases hk : e.1 = k
    · by_cases hp : p k <;> simp [hk, hp, tget, ih]
    · by_cases hp : p e.1 <;> simp [hk, hp, tget, ih]

/-- The registers that a chip reset leaves, by their keys (R460). -/
def chipKeeps (k : Nat) : Bool := (resetKeeps (k / 0x1000) && k % 0x1000 ≠ 0x058) || chipKept (k / 0x1000) (k % 0x1000)

/-- The pages of FIX and of RST. -/
abbrev fixOrRst (pg : Nat) : Prop := pg = fixPg ∨ pg = rstPg

theorem State.chipReset_eq (s : State) (cause : Nat) : ∃ v w : State, s.chipReset cause = w.lightReset.settleAll ∧
    v.regs = (s.chipStopped cause).regs.filter (fun e => chipKeeps e.1) ∧
    v.startsAnew = (.run, .chip, [], [], (s.chipStopped cause).ctxs, (s.chipStopped cause).ops, (s.chipStopped cause).pending) ∧
    v.KeepsOn fixOrRst w ∧ w.startsAnew = v.startsAnew := by
  generalize hu : s.chipReset cause = u
  unfold State.chipReset at hu
  extract_lets s1 s2 t daSt esc blank nm memc cry pwr v hs s3 s4 s5 flt w at hu
  have ht : t = s.chipStopped cause := rfl
  have hk3 : v.KeepsOn fixOrRst s3 := by
    refine (State.KeepsOn.of_regs (t := v.hsFresh) v.hsFresh_keeps.1).trans ?_
    simp only [s3]
    split
    · exact .of_regs rfl
    · exact .setFld _ _ (by decide) (by decide)
  have hk5 : s3.KeepsOn fixOrRst s5 :=
    (((State.KeepsOn.setBit s3 _ (by decide) (by decide)).trans (.setBit _ _ (by decide) (by decide))).trans
      (.setBit _ _ (by decide) (by decide))).trans (.setFld _ _ (by decide) (by decide))
  have ha3 : s3.startsAnew = v.startsAnew := by
    refine Eq.trans ?_ v.startsAnew_hsFresh
    simp only [s3]
    split
    · rfl
    · exact State.startsAnew_setFld ..
  have ha5 : s5.startsAnew = s3.startsAnew :=
    (State.startsAnew_setFld ..).trans ((State.startsAnew_setBit ..).trans ((State.startsAnew_setBit ..).trans (State.startsAnew_setBit ..)))
  have hregs : v.regs = t.regs.filter (fun e => chipKeeps e.1) := by
    simp only [v, chipKeeps]
  have hanew : v.startsAnew = (.run, .chip, [], [], t.ctxs, t.ops, t.pending) := by
    simp only [State.startsAnew, v]
  rw [← ht]
  exact ⟨v, w, hu.symm, hregs, hanew, (hk3.trans hk5).trans (.of_regs rfl), ha5.trans ha3⟩

theorem State.blockKept_chipStopped (s : State) (cause : Nat) : (s.chipStopped cause).blockKept = (s.chipHeld cause).coresReset.blockKept :=
  (State.blockKept_flashTorn _).trans (State.blockKept_cryAbort _)

theorem State.chipStopped_cores (s : State) (cause : Nat) : (s.chipStopped cause).ctxs = bootCtxs ∧ (s.chipStopped cause).ops = [] := by
  have hkept := s.blockKept_chipStopped cause
  simp only [State.blockKept, Prod.mk.injEq] at hkept
  obtain ⟨hctxs, hops, -⟩ := hkept
  exact ⟨hctxs, hops⟩

/-- RST.CAUSE takes a bit, and the reset is counted. -/
def State.causeSet (s : State) (cause : Nat) : State :=
  (s.setReg rstPg R.RST.CAUSE.C.off (s.reg rstPg R.RST.CAUSE.C.off ||| (1 <<< cause))).count rstPg 0

theorem State.keepsRegs_causeSet (s : State) (cause : Nat) : s.KeepsRegs (s.causeSet cause) [0x104] :=
  State.KeepsRegs.trans ⟨fun _ _ hlt hn => State.reg_setReg_ne s _ (regKey_ne (by omega) (by decide) (.inr fun e => hn (by simp [e])))⟩
    (State.KeepsRegs.count _ rstPg (by decide))

theorem State.safe_causeSet (s : State) (cause : Nat) : (s.causeSet cause).safe = s.safe := by
  have hreg : (s.causeSet cause).reg 0x010 R.FLT.STAT.SAFE.off = s.reg 0x010 R.FLT.STAT.SAFE.off :=
    (State.reg_count_page _ (by decide) (by decide) (by decide)).trans (State.reg_setReg_ne s _ (by decide))
  rw [State.safe, State.safe, State.bit, State.bit, State.fld, State.fld, hreg]

theorem State.causeSet_shows (s : State) {cause : Nat} (h : cause < 32) :
    ((s.causeSet cause).reg rstPg R.RST.CAUSE.C.off).getLsbD cause = true := by
  have hcount : (s.causeSet cause).reg rstPg R.RST.CAUSE.C.off = s.reg rstPg R.RST.CAUSE.C.off ||| (1 <<< cause) :=
    ((State.KeepsRegs.count (offs := []) _ rstPg (by decide)).reg rstPg _ (by decide) (by simp)).trans (State.reg_setReg_same ..)
  rw [hcount, BitVec.getLsbD_or, bitMask_getLsbD h, Bool.or_true]

/-- No takeover completes under the reset, and the hold does not end at once. -/
def State.plainReset (s : State) : Prop := s.takeovers = [] ∧ (s.safe = true ∨ s.fld rstPg R.RST.HOLD.MS ≠ 0)

theorem State.chipStopped_plain {s : State} (h : s.plainReset) {cause : Nat} (hcause : cause < 32) :
    ((s.chipStopped cause).reg rstPg R.RST.CAUSE.C.off).getLsbD cause = true ∧ (s.chipStopped cause).pending = s.pending := by
  obtain ⟨htk, hhold⟩ := h
  have hkeep := s.keepsRegs_causeSet cause
  have hheld : (s.chipHeld cause).resetKept = (s.causeSet cause).resetKept := by
    refine State.resetKept_of_blockKept (State.blockKept_holdStart (s := s.causeSet cause) ?_)
    rwa [State.safe_causeSet, hkeep.fld _ (by decide) (by decide)]
  have hnone : (s.chipHeld cause).takeovers = [] := (State.takeovers_of_resetKept hheld).trans ((State.count_takeovers ..).trans htk)
  have hkept : (s.chipStopped cause).resetKept = (s.causeSet cause).resetKept :=
    (State.resetKept_of_blockKept (s.blockKept_chipStopped cause)).trans ((State.resetKept_coresReset hnone).trans hheld)
  simp only [State.resetKept, Prod.mk.injEq] at hkept
  obtain ⟨hpending, -, -, hcausereg⟩ := hkept
  rw [hcausereg]
  exact ⟨s.causeSet_shows hcause, hpending.trans (State.count_pending ..)⟩

/-- What a chip reset starts anew (R460), and what it leaves when nothing else ends with it. -/
def State.Anew (s u : State) (cause : Nat) : Prop :=
  u.power = .run ∧ u.pwr.boot = .chip ∧ u.ctxs = bootCtxs ∧ u.ops = [] ∧ u.sketch = [] ∧ u.fixSt = 0 ∧ u.clauses = [] ∧
    (s.plainReset → (u.reg rstPg R.RST.CAUSE.C.off).getLsbD cause = true ∧ u.pending = s.pending)

theorem State.reg_of_filter {s t : State} {p : Nat → Bool} (h : t.regs = s.regs.filter fun e => p e.1) (pg off : Nat) :
    t.reg pg off = if p (regKey pg off) then s.reg pg off else resetWord (regKey pg off) := by
  rw [State.reg, h, tget_filter_keys]
  rfl

/-- The chip reset. -/
theorem State.chipReset_anew (s : State) {cause : Nat} (hcause : cause < 32) :
    ∃ u, s.chipReset cause = u.lightReset.settleAll ∧ s.Anew u cause := by
  obtain ⟨v, w, heq, hregs, hv, hkeep, hw⟩ := s.chipReset_eq cause
  obtain ⟨hctxs, hops⟩ := s.chipStopped_cores cause
  rw [hv, hctxs, hops] at hw
  simp only [State.startsAnew, Prod.mk.injEq] at hw
  obtain ⟨hpower, hboot, hsketch, hclauses, hctxs, hops, hpending⟩ := hw
  refine ⟨w, heq, hpower, hboot, hctxs, hops, hsketch, ?_, hclauses, fun hplain => ?_⟩
  · have hfix : w.reg fixPg R.FIX.STATE.ST.off = resetWord (regKey fixPg R.FIX.STATE.ST.off) :=
      (hkeep.reg fixPg _ (.inl rfl) (by decide)).trans ((State.reg_of_filter hregs _ _).trans (if_neg (by decide)))
    rw [State.fixSt, State.fld, hfix]
    decide
  · have hcausereg : w.reg rstPg R.RST.CAUSE.C.off = (s.chipStopped cause).reg rstPg R.RST.CAUSE.C.off :=
      (hkeep.reg rstPg _ (.inr rfl) (by decide)).trans ((State.reg_of_filter hregs _ _).trans (if_pos (by decide)))
    obtain ⟨hset, hpend⟩ := State.chipStopped_plain hplain hcause
    rw [hcausereg]
    exact ⟨hset, hpending.trans hpend⟩

/-! ## The commands of a reset -/

theorem State.plainReset_ok {s : State} (h : s.plainReset) : (s.ok rstPg).plainReset := by
  obtain ⟨htk, hhold⟩ := h
  have hkeep : s.KeepsRegs (s.ok rstPg) [0x44] := State.keepsRegs_ok s rstPg (by simp)
  refine ⟨(State.ok_takeovers ..).trans htk, ?_⟩
  rwa [State.safe, hkeep.bit _ (by decide) (by decide), hkeep.fld _ (by decide) (by decide)]

/-- CHIPRST with its key (R459). -/
theorem chiprst_resets {s : State} (h : s.locked rstPg = false) :
    GivesThen (.chiprst 0xA5#8) s (fun u => u.lightReset.settleAll) fun u => s.Anew u 3 := by
  have hexec : exec (.chiprst 0xA5#8) s = .next ((s.ok rstPg).chipReset 3) :=
    (if_neg (Bool.eq_false_iff.mp h)).trans (if_neg (by decide))
  obtain ⟨u, hu, hpower, hboot, hctxs, hops, hsketch, hfix, hclauses, hplain⟩ := (s.ok rstPg).chipReset_anew (cause := 3) (by decide)
  refine ⟨u, hexec.trans (congrArg _ hu), hpower, hboot, hctxs, hops, hsketch, hfix, hclauses, fun hp => ?_⟩
  obtain ⟨hset, hpend⟩ := hplain (State.plainReset_ok hp)
  exact ⟨hset, hpend.trans (State.ok_pending ..)⟩

/-- RESETN outside PARK (R459). -/
theorem resetn_resets {s : State} (h : s.power ≠ .park) (r : Bool) (rtc : BitVec 48) (f : Bool) :
    GivesThen (.chipReset ⟨r, rtc, f⟩) s (fun u => (u.lightReset.settleAll).strapRecov r) fun u => s.Anew u 1 := by
  obtain ⟨u, hu, hanew⟩ := s.chipReset_anew (cause := 1) (by decide)
  exact ⟨u, (if_neg h).trans (congrArg (fun t : State => Host.Outcome.next (t.strapRecov r)) hu), hanew⟩

theorem State.keepsOn_strapRecov (s : State) (r : Bool) : s.KeepsOn (· ≠ 0x001) (s.strapRecov r) := by
  have hrecov : s.KeepsOn (· ≠ 0x001) { s with pwr := { s.pwr with recov := r } } := .of_regs rfl
  exact hrecov.trans (.setBit _ r (by simp) (by decide))

theorem State.strapRecov_shows (s : State) (r : Bool) : (s.strapRecov r).power = s.power ∧ (s.strapRecov r).pwr.boot = s.pwr.boot ∧
    (s.strapRecov r).pwr.recov = r ∧ (s.strapRecov r).bit 0x001 R.SYS.STRAP.RECOV = r :=
  have hpwr : (s.strapRecov r).pwr = { s.pwr with recov := r } := State.setFld_pwr ..
  ⟨State.setFld_power .., (congrArg Pwr.boot hpwr).trans rfl, congrArg Pwr.recov hpwr, State.bit_setBit_same _ _ _ _ rfl (by decide)⟩

/-- In PARK, RESETN is a wake (R459, R475). -/
theorem resetn_wakes {s : State} (h : s.power = .park) (r : Bool) (rtc : BitVec 48) : Gives (.chipReset ⟨r, rtc, true⟩) s fun t =>
    t.power = .run ∧ t.pwr.boot = .wake ∧ (t.reg rstPg R.RST.CAUSE.C.off).getLsbD 1 = true ∧
      (t.reg rstPg R.RST.CAUSE.C.off).getLsbD 5 = true ∧ t.fld nmPg R.NM.WSRC.KIND = 0 ∧ t.pwr.recov = r ∧
      t.bit 0x001 R.SYS.STRAP.RECOV = r := by
  obtain ⟨u, hwoken, -, hsafe, -⟩ :=
    (s.setReg rstPg R.RST.CAUSE.C.off (s.reg rstPg R.RST.CAUSE.C.off ||| 2)).wakeBoot_eq (0, 0) none rtc.toNat
  obtain ⟨hpower, hboot, hrecov, hstrap⟩ := (u.setBit fltPg R.FLT.STAT.SAFEN false).strapRecov_shows r
  have hkeep : u.KeepsOn (fun pg => pg ≠ fltPg ∧ pg ≠ 0x001) ((u.setBit fltPg R.FLT.STAT.SAFEN false).strapRecov r) :=
    (State.KeepsOn.setBit u _ (by simp) (by decide)).trans ((State.keepsOn_strapRecov _ r).mono fun _ e => e.2)
  have hcause : ((u.setBit fltPg R.FLT.STAT.SAFEN false).strapRecov r).reg rstPg R.RST.CAUSE.C.off =
      s.reg rstPg R.RST.CAUSE.C.off ||| 2 ||| 0x20 := by
    rw [hkeep.reg _ _ (by decide) (by decide), hwoken.cause, State.reg_setReg_same]
  refine ⟨_, (if_pos h).trans (congrArg (fun t : State => Host.Outcome.next (t.strapRecov r)) hsafe), ?_, ?_, ?_, ?_, ?_, hrecov, hstrap⟩
  · exact hpower.trans ((State.setFld_power ..).trans hwoken.power)
  · exact hboot.trans ((congrArg Pwr.boot (State.setFld_pwr ..)).trans hwoken.boot)
  · rw [hcause]
    simp
  · rw [hcause]
    simp
  · exact (hkeep.fld (by decide) (by decide)).trans (hwoken.kind (by decide))

/-! ## Held outputs -/

theorem oneBit_getLsbD {i j : Nat} (hj : j < 32) : BitVec.getLsbD (1 <<< i : Word) j = decide (j = i) := by
  change (BitVec.ofNat 32 (1 <<< i)).getLsbD j = decide (j = i)
  rw [BitVec.getLsbD_ofNat, Nat.one_shiftLeft, Nat.testBit_two_pow]
  simp [hj, eq_comm]

theorem State.heldBit_setHeld (s : State) {o o' : Nat} (ho : o < 96) (ho' : o' < 96) (b : Bool) :
    (s.setHeld o b).heldBit o' = if o' = o then b else s.heldBit o' := by
  by_cases hw : o' / 32 = o / 32
  · have hlt : o' % 32 < 32 := by omega
    have hbit : BitVec.getLsbD (1 <<< (o % 32) : Word) (o' % 32) = decide (o' = o) := by
      rw [oneBit_getLsbD hlt]
      exact decide_eq_decide.mpr (by omega)
    rw [State.heldBit, State.setHeld, hw, State.reg_setReg_same, State.heldBit, hw]
    cases b
    · rw [if_neg (by decide), BitVec.getLsbD_and, BitVec.getLsbD_not, hbit]
      by_cases h : o' = o <;> simp [h, hlt]
    · rw [if_pos rfl, BitVec.getLsbD_or, hbit]
      by_cases h : o' = o <;> simp [h]
  · have hoff : (R.RST.HELD.H (o' / 32)).off ≠ (R.RST.HELD.H (o / 32)).off := by simp; omega
    have hne : o' ≠ o := fun e => hw (congrArg (· / 32) e)
    rw [State.heldBit, State.setHeld, State.reg_setReg_ne s _ (regKey_ne (by simp; omega) (by simp; omega) (.inr hoff)), if_neg hne, State.heldBit]

theorem State.heldBit_foldl_clear {o' : Nat} (ho' : o' < 96) : ∀ (l : List Nat), (∀ o ∈ l, o < 96) → ∀ s : State,
    (l.foldl (fun (t : State) o => t.setHeld o false) s).heldBit o' = (s.heldBit o' && !l.contains o')
  | [], _, s => by simp
  | o :: l, hl, s => by
    rw [List.foldl_cons, State.heldBit_foldl_clear ho' l (fun b hb => hl b (List.mem_cons_of_mem o hb)),
      State.heldBit_setHeld s (hl o (List.mem_cons_self ..)) ho']
    by_cases h : o' = o <;> simp [h]

theorem State.code_foldl_setHeld (b : Bool) : ∀ (l : List Nat), (∀ o ∈ l, o < 96) → ∀ s : State,
    (l.foldl (fun (t : State) o => t.setHeld o b) s).code rstPg = s.code rstPg
  | [], _, _ => rfl
  | o :: l, hl, s => by
    have ho : o < 96 := hl o (List.mem_cons_self ..)
    have hone : (s.setHeld o b).code rstPg = s.code rstPg := by
      have hreg : (s.setHeld o b).reg rstPg R.PG_STAT.CODE.off = s.reg rstPg R.PG_STAT.CODE.off :=
        State.reg_setReg_ne s _ (regKey_ne (by decide) (by simp; omega) (.inr (by simp; omega)))
      rw [State.code, State.code, State.fld, State.fld, hreg]
    rw [List.foldl_cons, State.code_foldl_setHeld b l (fun b hb => hl b (List.mem_cons_of_mem o hb)), hone]

/-- No channel is in a gang. -/
def State.gangless (s : State) : Prop := ∀ n, n < 48 → s.hsLead n = n ∧ s.hsUnit n = [n]

/-- Without gangs an output is reclaimed by its own bit (R463). -/
theorem State.reclaim_units {s : State} (h : s.gangless) (os : List Nat) :
    (os.flatMap fun o => if o < 48 then (if s.hsLead o = o then s.hsUnit o else []) else [o]) = os := by
  induction os with
  | nil => rfl
  | cons o os ih =>
    rw [List.flatMap_cons, ih]
    by_cases ho : o < 48
    · obtain ⟨hlead, hunit⟩ := h o ho
      simp [ho, hlead, hunit]
    · simp [ho]

/-- The outputs of a reclaim are given back, and the switches of the sides with their valves. -/
theorem State.reclaim_eq {s : State} (h : s.gangless) {os : List Nat} (hos : ∀ o ∈ os, o < 96) : ∃ (u : State) (l : List Nat),
    s.reclaim os = (l.foldl State.outSettle u).holdDone ∧ u.code rstPg = s.code rstPg ∧
      ∀ o ∈ heldOutputs, o ≠ 72 → o ≠ 73 → u.heldBit o = (s.heldBit o && !os.contains o) := by
  have hmem : ∀ o ∈ os.filter s.heldBit, o < 96 := fun o ho => hos o (List.mem_filter.mp ho).1
  generalize hu : s.reclaim os = f
  unfold State.reclaim at hu
  dsimp only at hu
  rw [State.reclaim_units h] at hu
  generalize hsides : ([0, 1].filter fun b => _) = sides at hu
  have hlt : ∀ o ∈ sides.map (72 + ·), o = 72 ∨ o = 73 := by
    intro o ho
    obtain ⟨b, hb, rfl⟩ := List.mem_map.mp ho
    rw [← hsides] at hb
    have hb' := (List.mem_filter.mp hb).1
    simp only [List.mem_cons, List.not_mem_nil, or_false] at hb'
    omega
  have hlt' : ∀ o ∈ sides.map (72 + ·), o < 96 := fun o ho => by have := hlt o ho; omega
  rw [← List.foldl_map (f := (72 + ·)) (g := fun (t : State) o => t.setHeld o false)] at hu
  refine ⟨_, _, hu.symm, ?_, fun o ho h72 h73 => ?_⟩
  · rw [State.code_foldl_setHeld _ _ hlt', State.code_foldl_setHeld _ _ hmem]
  · have hno : o ∉ sides.map (72 + ·) := fun hin => (hlt o hin).elim h72 h73
    rw [State.heldBit_foldl_clear (heldOutputs_lt ho) _ hlt', State.heldBit_foldl_clear (heldOutputs_lt ho) _ hmem]
    cases hb : s.heldBit o <;> simp [hb, hno]

theorem State.heldBit_ok (s : State) {o : Nat} (ho : o < 96) : (s.ok rstPg).heldBit o = s.heldBit o := by
  rw [State.heldBit, State.heldBit, (State.keepsRegs_ok (offs := [0x44]) s rstPg (by simp)).reg 0x006 _ (by simp; omega) (by simp; omega)]

theorem State.gangless_ok {s : State} (h : s.gangless) : (s.ok rstPg).gangless := fun n hn => by
  have hkeep : s.KeepsRegs (s.ok rstPg) [0x44] := State.keepsRegs_ok s rstPg (by simp)
  rw [State.hsLead_of_keepsRegs hkeep (by simp), State.hsUnit_of_keepsRegs hkeep (by simp)]
  exact h n hn

/-- A command that reclaims the outputs `os` gives them back (R463). -/
theorem reclaims_of {s : State} (h : s.gangless) {os : List Nat} (hos : ∀ o ∈ os, o < 96) {c : Instr}
    (hexec : exec c s = .next ((s.ok rstPg).reclaim os)) : ∃ (u : State) (l : List Nat), exec c s = .next ((l.foldl State.outSettle u).holdDone) ∧
      u.code rstPg = 0 ∧ ∀ o ∈ heldOutputs, o ≠ 72 → o ≠ 73 → u.heldBit o = (s.heldBit o && !os.contains o) := by
  obtain ⟨u, l, heq, hcode, hheld⟩ := State.reclaim_eq (State.gangless_ok h) hos
  refine ⟨u, l, hexec.trans (congrArg _ heq), hcode.trans (State.code_ok s rstPg), fun o ho h72 h73 => ?_⟩
  rw [hheld o ho h72 h73, State.heldBit_ok s (heldOutputs_lt ho)]

/-- The outputs that a word of RECLAIM names. -/
def reclaimed (j : Fin 3) (d : Word) : List Nat :=
  (((List.range 32).filter fun i => d.getLsbD i).map (32 * j.val + ·)).filter heldOutputs.contains

theorem reclaimed_contains (j : Fin 3) (d : Word) {o : Nat} (ho : o ∈ heldOutputs) :
    (reclaimed j d).contains o = (decide (o / 32 = j.val) && d.getLsbD (o % 32)) := by
  have hmem : o ∈ reclaimed j d ↔ o / 32 = j.val ∧ d.getLsbD (o % 32) = true := by
    simp only [reclaimed, List.mem_filter, List.mem_map, List.mem_range, List.contains_iff_mem, ho, and_true]
    constructor
    · rintro ⟨i, ⟨hi, hd⟩, rfl⟩
      have hdiv : (32 * j.val + i) / 32 = j.val := by omega
      have hmod : (32 * j.val + i) % 32 = i := by omega
      exact ⟨hdiv, by rwa [hmod]⟩
    · rintro ⟨hj, hd⟩
      exact ⟨o % 32, ⟨by omega, hd⟩, by omega⟩
  rw [Bool.eq_iff_iff, List.contains_iff_mem, hmem]
  simp

theorem reclaimall_gives {s : State} (hlock : s.locked rstPg = false) (h : s.gangless) :
    ∃ (u : State) (l : List Nat), exec .reclaimall s = .next ((l.foldl State.outSettle u).holdDone) ∧
      u.code rstPg = 0 ∧ ∀ o ∈ heldOutputs, o ≠ 72 → o ≠ 73 → u.heldBit o = false := by
  obtain ⟨u, l, hexec, hcode, hheld⟩ :=
    reclaims_of h (fun _ => heldOutputs_lt) (c := .reclaimall) (if_neg (Bool.eq_false_iff.mp hlock))
  refine ⟨u, l, hexec, hcode, fun o ho h72 h73 => ?_⟩
  rw [hheld o ho h72 h73, List.contains_iff_mem.mpr ho]
  simp

theorem reclaim_gives {s : State} (hlock : s.locked rstPg = false) (h : s.gangless) (j : Fin 3) (d : Word) :
    ∃ (u : State) (l : List Nat), exec (.reclaim j d) s = .next ((l.foldl State.outSettle u).holdDone) ∧
      u.code rstPg = 0 ∧ ∀ o ∈ heldOutputs, o ≠ 72 → o ≠ 73 →
        u.heldBit o = (s.heldBit o && !(decide (o / 32 = j.val) && d.getLsbD (o % 32))) := by
  have hos : ∀ o ∈ reclaimed j d, o < 96 := fun o ho => heldOutputs_lt (List.contains_iff_mem.mp (List.mem_filter.mp ho).2)
  obtain ⟨u, l, hexec, hcode, hheld⟩ := reclaims_of h hos (c := .reclaim j d) (if_neg (Bool.eq_false_iff.mp hlock))
  refine ⟨u, l, hexec, hcode, fun o ho h72 h73 => ?_⟩
  rw [hheld o ho h72 h73, reclaimed_contains j d ho]

/-! ## The end of the hold -/

/-- What the end of the hold shows (R464). -/
def State.holdEnded (s : State) : State :=
  let t := s.setBit rstPg R.RST.HSTAT.RUN false
  if heldOutputs.any s.heldBit then ((t.setBit rstPg R.RST.HSTAT.EXPIRED true).count rstPg 1).detect rstPg 1 else t

theorem State.holdEnded_shows (s : State) : s.holdEnded.holdRun = false ∧
    (heldOutputs.any s.heldBit = true → s.holdEnded.bit rstPg R.RST.HSTAT.EXPIRED = true ∧ s.holdEnded.fstat rstPg 1 = true) := by
  have hrun : (s.setBit rstPg R.RST.HSTAT.RUN false).bit rstPg R.RST.HSTAT.RUN = false := State.bit_setBit_same _ _ _ _ rfl (by decide)
  unfold State.holdEnded
  dsimp only
  split
  next =>
    have hkeep : ((s.setBit rstPg R.RST.HSTAT.RUN false).setBit rstPg R.RST.HSTAT.EXPIRED true).KeepsRegs
        ((((s.setBit rstPg R.RST.HSTAT.RUN false).setBit rstPg R.RST.HSTAT.EXPIRED true).count rstPg 1).detect rstPg 1) [0x48] :=
      (State.KeepsRegs.count _ rstPg (by decide)).trans (.detect _ _ _ (by simp))
    refine ⟨?_, fun _ => ⟨?_, State.fstat_detect_same _ _ (by decide)⟩⟩
    · exact (hkeep.bit _ (by decide) (by decide)).trans ((State.bit_setFld_apart _ _ _ (by simp)).trans hrun)
    · exact (hkeep.bit _ (by decide) (by decide)).trans (State.bit_setBit_same _ _ _ _ rfl (by decide))
  next h => exact ⟨hrun, fun hany => absurd hany h⟩

/-- HOLD_EXPIRY (R464). -/
theorem holdExpiry_ends {s : State} (hrun : s.holdRun = true) (hdue : s.pwr.holdEnd ≤ s.kaNow) :
    GivesThen .holdExpiry s State.settleAll fun u =>
      u.holdRun = false ∧ (heldOutputs.any s.heldBit = true → u.bit rstPg R.RST.HSTAT.EXPIRED = true ∧ u.fstat rstPg 1 = true) :=
  ⟨s.holdEnded, (if_pos hrun).trans (State.atKa_of_le hdue _), s.holdEnded_shows⟩

/-- Settles O59: the reset by its base, before the lighting and the outputs follow; RESETN in PARK by the wake boot; the hold by the bits
of RST.HELD. -/
theorem chipReset : Obligations.ChipReset := by
  unfold Obligations.ChipReset
  intro s
  refine ⟨fun h => ⟨fun _ => if_pos h, if_pos h, fun _ _ => if_pos h⟩,
    fun h => ⟨fun k hk => (if_neg (Bool.eq_false_iff.mp h)).trans (if_pos hk), chiprst_resets h⟩, fun h r rtc f => resetn_resets h r rtc f,
    fun h r rtc => resetn_wakes h r rtc, fun hlock hgang => ⟨reclaimall_gives hlock hgang, reclaim_gives hlock hgang⟩,
    fun h => if_neg (Bool.eq_false_iff.mp h), holdExpiry_ends⟩

end Sys2Proof.Machine
end

section
/-! The boot bank and the strap RECOV stand through everything but a power-on reset, a boot and a sampling of the straps: what the
islands' starts and the steps of a boot leave of them. -/

namespace Sys2Proof.Machine

/-! ## Single changes -/

/-- The bank that runs and the strap RECOV as sampled. -/
def State.bootKept (s : State) : Bool × Bool := (s.bankB, s.pwr.recov)

namespace State

theorem bootKept_of {s t : State} (hbank : t.bankB = s.bankB) (hpwr : t.pwr = s.pwr) : t.bootKept = s.bootKept := by
  rw [bootKept, bootKept, hbank, hpwr]

theorem bootKept_foldl {α : Type} {f : State → α → State} (hf : ∀ t a, (f t a).bootKept = t.bootKept) :
    ∀ (l : List α) (s : State), (l.foldl f s).bootKept = s.bootKept
  | [], _ => rfl
  | a :: l, s => (bootKept_foldl hf l (f s a)).trans (hf s a)

/-- Both branches keep what the state before them has. -/
@[simp] theorem bootKept_ite {c : Prop} [Decidable c] (t u : State) : (if c then t else u).bootKept = if c then t.bootKept else u.bootKept :=
  apply_ite bootKept c t u

@[simp] theorem bootKept_setReg (s : State) (pg off : Nat) (w : Word) : (s.setReg pg off w).bootKept = s.bootKept :=
  bootKept_of (setReg_bankB ..) (setReg_pwr ..)
@[simp] theorem bootKept_setFld (s : State) (pg : Nat) (f : Fld) (v : Nat) : (s.setFld pg f v).bootKept = s.bootKept := bootKept_setReg ..
@[simp] theorem bootKept_setBit (s : State) (pg : Nat) (f : Fld) (b : Bool) : (s.setBit pg f b).bootKept = s.bootKept := bootKept_setFld ..
@[simp] theorem bootKept_setFld64 (s : State) (pg : Nat) (lo hi : Fld) (v : Nat) : (s.setFld64 pg lo hi v).bootKept = s.bootKept := by
  simp [setFld64]
@[simp] theorem bootKept_count (s : State) (pg i : Nat) : (s.count pg i).bootKept = s.bootKept := bootKept_of (count_bankB ..) (count_pwr ..)
@[simp] theorem bootKept_detectAs (s : State) (pg bit : Nat) (l : List Nat) (d : Detail) : (s.detectAs pg bit l d).bootKept = s.bootKept :=
  bootKept_of (detectAs_bankB ..) (detectAs_pwr ..)
@[simp] theorem bootKept_detect (s : State) (pg bit : Nat) : (s.detect pg bit).bootKept = s.bootKept := bootKept_detectAs ..
@[simp] theorem bootKept_detectIf (s : State) (c : Bool) (pg bit : Nat) : (s.detectIf c pg bit).bootKept = s.bootKept := by simp [detectIf]
@[simp] theorem bootKept_postFrom (s : State) (isl ev : Nat) : (s.postFrom isl ev).bootKept = s.bootKept := rfl
@[simp] theorem bootKept_post (s : State) (ev : Nat) : (s.post ev).bootKept = s.bootKept := rfl
@[simp] theorem bootKept_postIf (s : State) (c : Bool) (ev : Nat) : (s.postIf c ev).bootKept = s.bootKept := by simp [postIf]
@[simp] theorem bootKept_emit (s : State) (o : Out) : (s.emit o).bootKept = s.bootKept := bootKept_of (emit_bankB ..) (emit_pwr ..)
@[simp] theorem bootKept_putBit (s : State) (pg : Nat) (f : Fld) (k : Nat) (b : Bool) : (s.putBit pg f k b).bootKept = s.bootKept := by simp [putBit]

/-! ## Records -/

@[simp] theorem bootKept_setHs (s : State) (n : Nat) (v : Hs) : (s.setHs n v).bootKept = s.bootKept := bootKept_of rfl rfl
@[simp] theorem bootKept_setBridge (s : State) (k : Nat) (v : Bridge) : (s.setBridge k v).bootKept = s.bootKept := bootKept_of rfl rfl
@[simp] theorem bootKept_setLeg (s : State) (l : Nat) (v : Leg) : (s.setLeg l v).bootKept = s.bootKept := bootKept_of rfl rfl
@[simp] theorem bootKept_setAmb (s : State) (g : Nat) (v : Amb) : (s.setAmb g v).bootKept = s.bootKept := bootKept_of rfl rfl
@[simp] theorem bootKept_setIo (s : State) (n : Nat) (v : Io) : (s.setIo n v).bootKept = s.bootKept := bootKept_of rfl rfl
@[simp] theorem bootKept_setClause (s : State) (c : Nat) (v : Clause) : (s.setClause c v).bootKept = s.bootKept := bootKept_of rfl rfl
@[simp] theorem bootKept_setSlot (s : State) (t : Nat) (v : Slot) : (s.setSlot t v).bootKept = s.bootKept := bootKept_of rfl rfl
@[simp] theorem bootKept_setEth (s : State) (e : EthSt) : (s.setEth e).bootKept = s.bootKept := bootKept_of rfl rfl
@[simp] theorem bootKept_setCan (s : State) (c : Nat) (v : Can) : (s.setCan c v).bootKept = s.bootKept := bootKept_of rfl rfl
@[simp] theorem bootKept_setTx (s : State) (c t : Nat) (v : CanTx) : (s.setTx c t v).bootKept = s.bootKept := bootKept_of rfl rfl
@[simp] theorem bootKept_setLin (s : State) (l : Nat) (v : Lin) : (s.setLin l v).bootKept = s.bootKept := bootKept_of rfl rfl
@[simp] theorem bootKept_setNm (s : State) (v : Nm) : ({ s with nm := v } : State).bootKept = s.bootKept := bootKept_of rfl rfl
@[simp] theorem bootKept_setLight (s : State) (v : Light) : ({ s with light := v } : State).bootKept = s.bootKept := bootKept_of rfl rfl
@[simp] theorem bootKept_setCry (s : State) (f : CrySt → CrySt) : (s.setCry f).bootKept = s.bootKept := bootKept_of rfl rfl
@[simp] theorem bootKept_setCtr (s : State) (c : Nat) (v : Ctr) : (s.setCtr c v).bootKept = s.bootKept := bootKept_of rfl rfl
@[simp] theorem bootKept_setMemc (s : State) (v : MemSt) : ({ s with memc := v } : State).bootKept = s.bootKept := bootKept_of rfl rfl
@[simp] theorem bootKept_setValves (s : State) (v : Tab Valve) : ({ s with valves := v } : State).bootKept = s.bootKept := bootKept_of rfl rfl
@[simp] theorem bootKept_setSides (s : State) (v : Tab Side) : ({ s with sides := v } : State).bootKept = s.bootKept := bootKept_of rfl rfl
@[simp] theorem bootKept_setRxlTick (s : State) (n : Nat) : ({ s with rxlTick := n } : State).bootKept = s.bootKept := bootKept_of rfl rfl
@[simp] theorem bootKept_setFree (s : State) (n : Nat) : ({ s with freeCtr := n } : State).bootKept = s.bootKept := bootKept_of rfl rfl
@[simp] theorem bootKept_setUpd (s : State) (v : Upd) : ({ s with upd := v } : State).bootKept = s.bootKept := bootKept_of rfl rfl
@[simp] theorem bootKept_nextFree (s : State) : s.nextFree.bootKept = s.bootKept := bootKept_of (nextFree_bankB ..) (nextFree_pwr ..)
@[simp] theorem bootKept_schedule (s : State) (n : Nat) : (s.schedule n).bootKept = s.bootKept := by
  have h := offCores_scheduleWith s n false
  simp only [offCores, Prod.mk.injEq] at h
  obtain ⟨-, -, -, -, -, hpwr, -, hbank, -⟩ := h
  exact bootKept_of hbank hpwr

/-! ## CAN, LIN and network management -/

@[simp] theorem bootKept_canShow (s : State) (c : Nat) : (s.canShow c).bootKept = s.bootKept := by simp [canShow]
@[simp] theorem bootKept_txEnd (s : State) (c t st : Nat) : (s.txEnd c t st).bootKept = s.bootKept := by simp [txEnd]
@[simp] theorem bootKept_nmSweep (s : State) : s.nmSweep.bootKept = s.bootKept := by simp [nmSweep, bootKept_foldl]
@[simp] theorem bootKept_nmBuses (s : State) : s.nmBuses.bootKept = s.bootKept := by simp [nmBuses]
@[simp] theorem bootKept_nmCease (s : State) : s.nmCease.bootKept = s.bootKept := by simp [nmCease, bootKept_foldl]
@[simp] theorem bootKept_setNmState (s : State) (v : Nat) : (s.setNmState v).bootKept = s.bootKept := by simp [setNmState]
@[simp] theorem bootKept_nmWindow (s : State) (b : Bool) : (s.nmWindow b).bootKept = s.bootKept := by simp [nmWindow]
@[simp] theorem bootKept_nmLose (s : State) (b : Nat) : (s.nmLose b).bootKept = s.bootKept := by simp [nmLose]
@[simp] theorem bootKept_setCanState (s : State) (c st : Nat) : (s.setCanState c st).bootKept = s.bootKept := by simp [setCanState]
@[simp] theorem bootKept_canHalt (s : State) (c : Nat) (off : Bool) : (s.canHalt c off).bootKept = s.bootKept := by simp [canHalt]
@[simp] theorem bootKept_canFrameEnd (s : State) (c : Nat) : (s.canFrameEnd c).bootKept = s.bootKept := by
  unfold canFrameEnd
  dsimp only
  split
  · simp
  · split <;> simp
@[simp] theorem bootKept_nmEval (s : State) : s.nmEval.bootKept = s.bootKept := by simp [nmEval]
@[simp] theorem bootKept_nmStart (s : State) (c : Nat) (k : NmKind) : (s.nmStart c k).bootKept = s.bootKept := by simp [nmStart]
@[simp] theorem bootKept_nmNext (s : State) (c : Nat) : (s.nmNext c).bootKept = s.bootKept := by
  unfold nmNext
  dsimp only
  split <;> simp
@[simp] theorem bootKept_nmOwn (s : State) (b : Nat) (sent : Bool) : (s.nmOwn b sent).bootKept = s.bootKept := by simp [nmOwn]
@[simp] theorem bootKept_nmOwnEnd (s : State) (c t st : Nat) : (s.nmOwnEnd c t st).bootKept = s.bootKept := by simp [nmOwnEnd]
@[simp] theorem bootKept_txDone (s : State) (c t st : Nat) : (s.txDone c t st).bootKept = s.bootKept := by simp [txDone]
@[simp] theorem bootKept_canCut (s : State) (c : Nat) : (s.canCut c).bootKept = s.bootKept := by
  unfold canCut
  split <;> simp
@[simp] theorem bootKept_canResync (s : State) (c : Nat) : (s.canResync c).bootKept = s.bootKept := by simp [canResync]
@[simp] theorem bootKept_canClockBack (s : State) : s.canClockBack.bootKept = s.bootKept := by simp [canClockBack, bootKept_foldl]
@[simp] theorem bootKept_linPulse (s : State) (l : Nat) : (s.linPulse l).bootKept = s.bootKept := by simp [linPulse]
@[simp] theorem bootKept_linSkip (l n : Nat) : ∀ (k : Nat) (s : State), (s.linSkip l n k).bootKept = s.bootKept
  | 0, _ => rfl
  | k + 1, s => by simp [linSkip, bootKept_linSkip l n k]
@[simp] theorem bootKept_linClockBack (s : State) (l : Nat) : (s.linClockBack l).bootKept = s.bootKept := by simp [linClockBack]

/-! ## Load switches -/

@[simp] theorem bootKept_heldOff (s : State) (c : Nat) : (s.heldOff c).bootKept = s.bootKept := by simp [heldOff]
@[simp] theorem bootKept_winOpen (s : State) (n kind : Nat) : (s.winOpen n kind).bootKept = s.bootKept := by simp [winOpen]
@[simp] theorem bootKept_hsActivate (s : State) (n : Nat) : (s.hsActivate n).bootKept = s.bootKept := by simp [hsActivate, bootKept_foldl]
@[simp] theorem bootKept_hsDiagUpdate (s : State) (n : Nat) : (s.hsDiagUpdate n).bootKept = s.bootKept := by simp [hsDiagUpdate]
@[simp] theorem bootKept_hsGateUpdate (s : State) (n : Nat) : (s.hsGateUpdate n).bootKept = s.bootKept := by simp [hsGateUpdate]
@[simp] theorem bootKept_hsGive (s : State) (m lvl : Nat) (cl : Option Nat) (limp cmd : OutCmd) (gen : Gen) : (s.hsGive m lvl cl limp cmd gen).bootKept = s.bootKept := by simp [hsGive]
@[simp] theorem bootKept_winClose (s : State) (n code : Nat) : (s.winClose n code).bootKept = s.bootKept := by simp [winClose]
@[simp] theorem bootKept_hsLatchUnit (s : State) (n : Nat) : (s.hsLatchUnit n).bootKept = s.bootKept := by simp [hsLatchUnit, bootKept_foldl]
@[simp] theorem bootKept_hsNoSegs (s : State) (n : Nat) : (s.hsNoSegs n).bootKept = s.bootKept := by simp [hsNoSegs]
@[simp] theorem bootKept_hsSettle (s : State) (n : Nat) : (s.hsSettle n).bootKept = s.bootKept := by simp [hsSettle, bootKept_foldl]
@[simp] theorem bootKept_hsSettleAll (s : State) : s.hsSettleAll.bootKept = s.bootKept := by simp [hsSettleAll, bootKept_foldl]
@[simp] theorem bootKept_hsLimMark (s : State) (o : State) : (s.hsLimMark o).bootKept = s.bootKept := by simp [hsLimMark, bootKept_foldl]
@[simp] theorem bootKept_hsSetMap (s : State) (n map : Nat) : (s.hsSetMap n map).bootKept = s.bootKept := by simp [hsSetMap]

/-! ## Valves and their sides -/

@[simp] theorem bootKept_setValve (s : State) (n : Nat) (v : Valve) : (s.setValve n v).bootKept = s.bootKept := by simp [setValve]
@[simp] theorem bootKept_setSide (s : State) (b : Nat) (v : Side) : (s.setSide b v).bootKept = s.bootKept := by simp [setSide]
@[simp] theorem bootKept_vlEnterPeak (s : State) (n : Nat) : (s.vlEnterPeak n).bootKept = s.bootKept := by
  unfold vlEnterPeak
  dsimp only
  split <;> simp
@[simp] theorem bootKept_sideUpdate (s : State) (b : Nat) : (s.sideUpdate b).bootKept = s.bootKept := by
  unfold sideUpdate
  dsimp only
  split
  · simp
  · split
    · simp
    · simp
      split <;> simp
@[simp] theorem bootKept_vlTakePeak (s : State) (n : Nat) : (s.vlTakePeak n).bootKept = s.bootKept := by simp [vlTakePeak]
@[simp] theorem bootKept_sidePeakEnded (s : State) (b : Nat) : (s.sidePeakEnded b).bootKept = s.bootKept := by
  unfold sidePeakEnded
  split
  · simp
  · split <;> simp
@[simp] theorem bootKept_vlMove (s : State) (n : Nat) (p : VPhase) : (s.vlMove n p).bootKept = s.bootKept := by simp [vlMove]
@[simp] theorem bootKept_vlOff (s : State) (n : Nat) (d : Bool) : (s.vlOff n d).bootKept = s.bootKept := by
  unfold vlOff
  dsimp only
  split <;> simp
@[simp] theorem bootKept_vlStart (s : State) (n : Nat) : (s.vlStart n).bootKept = s.bootKept := by simp [vlStart]
@[simp] theorem bootKept_vlTrigger (s : State) (n : Nat) : (s.vlTrigger n).bootKept = s.bootKept := by
  unfold vlTrigger
  extract_lets m v0 t v store s1 v1
  have ht : t.bootKept = s.bootKept := by simp [t]
  have hstore (u : State) : (store u).bootKept = u.bootKept := by simp [store]
  have hs1 : s1.bootKept = t.bootKept := by simp [s1]
  clear_value v1 s1 store v t
  split
  · exact ht
  · split
    · split
      · simp [hstore, ht]
      · split <;> simp [ht]
    all_goals simp [hstore, ht, hs1]
@[simp] theorem bootKept_vlSettle (s : State) (n : Nat) : (s.vlSettle n).bootKept = s.bootKept := by simp [vlSettle]
@[simp] theorem bootKept_vlSettleList (s : State) (l : List Nat) : (s.vlSettleList l).bootKept = s.bootKept := by simp [vlSettleList, bootKept_foldl]
@[simp] theorem bootKept_vlSettleAll (s : State) : s.vlSettleAll.bootKept = s.bootKept := by simp [vlSettleAll]
@[simp] theorem bootKept_sideLimp (s : State) (b : Nat) : (s.sideLimp b).bootKept = s.bootKept := by simp [sideLimp]
@[simp] theorem bootKept_sidesFree (s : State) : s.sidesFree.bootKept = s.bootKept := by simp [sidesFree]

/-! ## Bridges and legs -/

@[simp] theorem bootKept_brUnshare (s : State) : s.brUnshare.bootKept = s.bootKept := by simp [brUnshare, bootKept_foldl]
@[simp] theorem bootKept_brDiagUpdate (s : State) (k : Nat) : (s.brDiagUpdate k).bootKept = s.bootKept := by simp [brDiagUpdate]
@[simp] theorem bootKept_legSwitch (s : State) (l : Nat) (w : Bool × Bool) : (s.legSwitch l w).bootKept = s.bootKept := by simp [legSwitch]
@[simp] theorem bootKept_legUpdate (s : State) (l : Nat) : (s.legUpdate l).bootKept = s.bootKept := by
  unfold legUpdate
  dsimp only
  split
  · rfl
  · split <;> simp [bootKept_foldl]
@[simp] theorem bootKept_brCoasted (s : State) (k : Nat) : (s.brCoasted k).bootKept = s.bootKept := by simp [brCoasted]
@[simp] theorem bootKept_brDriveStart (s : State) (k : Nat) : (s.brDriveStart k).bootKept = s.bootKept := by simp [brDriveStart]
@[simp] theorem bootKept_brSettle (s : State) (k : Nat) (free : Bool) : (s.brSettle k free).bootKept = s.bootKept := by simp [brSettle]
@[simp] theorem bootKept_brSettleAll (s : State) : s.brSettleAll.bootKept = s.bootKept := by simp [brSettleAll, bootKept_foldl]

/-! ## Lighting, the isolated bank, and every output -/

@[simp] theorem bootKept_ambSettle (s : State) (g : Nat) : (s.ambSettle g).bootKept = s.bootKept := by simp [ambSettle]
@[simp] theorem bootKept_ioSettle (s : State) (n : Nat) : (s.ioSettle n).bootKept = s.bootKept := by simp [ioSettle]
@[simp] theorem bootKept_colCount (s : State) : s.colCount.bootKept = s.bootKept := by simp [colCount]
@[simp] theorem bootKept_lsyncPulse (s : State) : s.lsyncPulse.bootKept = s.bootKept := by simp [lsyncPulse]
@[simp] theorem bootKept_swapShow (s : State) : s.swapShow.bootKept = s.bootKept := by simp [swapShow]
@[simp] theorem bootKept_mxSwap (s : State) : s.mxSwap.bootKept = s.bootKept := by simp [mxSwap]
@[simp] theorem bootKept_pxSwap (s : State) : s.pxSwap.bootKept = s.bootKept := by simp [pxSwap]
@[simp] theorem bootKept_swapIdle (s : State) : s.swapIdle.bootKept = s.bootKept := by simp [swapIdle]
@[simp] theorem bootKept_mxSettle (s : State) : s.mxSettle.bootKept = s.bootKept :=
  (bootKept_swapIdle _).trans ((bootKept_colCount _).trans ((bootKept_setLight ..).trans (bootKept_setFld ..)))
@[simp] theorem bootKept_settleAll (s : State) : s.settleAll.bootKept = s.bootKept := by simp [settleAll, bootKept_foldl]
@[simp] theorem bootKept_ioValid (s : State) : s.ioValid.bootKept = s.bootKept := by simp [ioValid, bootKept_foldl]
@[simp] theorem bootKept_fieldTell (s : State) : s.fieldTell.bootKept = s.bootKept := by simp [fieldTell]
@[simp] theorem bootKept_pxShift (s : State) (t : Nat) (f : Nat × Nat) (blank : Bool) : (s.pxShift t f blank).bootKept = s.bootKept := by simp [pxShift]
@[simp] theorem bootKept_pxStartBlank (s : State) : s.pxStartBlank.bootKept = s.bootKept := by simp [pxStartBlank]
@[simp] theorem bootKept_pxClockBack (s : State) : s.pxClockBack.bootKept = s.bootKept := by simp [pxClockBack]

/-! ## Clauses and reflex links -/

@[simp] theorem bootKept_clEnd (s : State) (c : Nat) : (s.clEnd c).bootKept = s.bootKept := by simp [clEnd]
@[simp] theorem bootKept_farSent (s : State) (typ : Nat) : (s.farSent typ).bootKept = s.bootKept := by simp [farSent]
@[simp] theorem bootKept_reflexSend (s : State) (t : Nat) : (s.reflexSend t).bootKept = s.bootKept := by
  unfold reflexSend
  dsimp only
  split <;> simp [bootKept_foldl]
@[simp] theorem bootKept_linkSettle (s : State) (t : Nat) : (s.linkSettle t).bootKept = s.bootKept := by simp [linkSettle]
@[simp] theorem bootKept_objSettle (s : State) (o : Nat) : (s.objSettle o).bootKept = s.bootKept := by simp [objSettle]
@[simp] theorem bootKept_clSettle (s : State) (cs : List Nat) : (s.clSettle cs).bootKept = s.bootKept := by simp [clSettle, bootKept_foldl]
@[simp] theorem bootKept_clDue (s : State) (c : Nat) : (s.clDue c).bootKept = s.bootKept := by simp [clDue]
@[simp] theorem bootKept_clTrigger (s : State) (c : Nat) : (s.clTrigger c).bootKept = s.bootKept := by
  unfold clTrigger
  dsimp only
  split
  · simp
  · split <;> simp
@[simp] theorem bootKept_clTake (s : State) (c : Nat) (fire : Bool) : (s.clTake c fire).bootKept = s.bootKept := by simp [clTake]
@[simp] theorem bootKept_clStep (s : State) (c : Nat) (hit : Bool) (i : Option Int) : (s.clStep c hit i).bootKept = s.bootKept := by
  unfold clStep
  extract_lets u prev r s1 k
  have hr : r.2.bootKept = s.bootKept := by
    simp only [r]
    clear_value prev
    split
    · rfl
    · rfl
    · rfl
    · cases i with
      | none => rfl
      | some i =>
        cases prev with
        | none => exact bootKept_nextFree s
        | some p => rfl
  have hs1 : s1.bootKept = s.bootKept := (bootKept_clDue r.2 c).trans hr
  clear_value k s1 r
  split
  · rfl
  · simp [hs1]
@[simp] theorem bootKept_clRefresh (s : State) (cs : List Nat) : (s.clRefresh cs).bootKept = s.bootKept := by simp [clRefresh, bootKept_foldl]
@[simp] theorem bootKept_clObserve (s : State) (u : Nat) (hit : Bool) (i : Option Int) : (s.clObserve u hit i).bootKept = s.bootKept := by simp [clObserve, bootKept_foldl]
@[simp] theorem bootKept_slotSet (s : State) (t : Nat) (v : Bool) : (s.slotSet t v).bootKept = s.bootKept := by simp [slotSet]
@[simp] theorem bootKept_slotsRestart (s : State) (ts : List Nat) : (s.slotsRestart ts).bootKept = s.bootKept := by simp [slotsRestart, bootKept_foldl]
@[simp] theorem bootKept_fabricWake (s : State) : s.fabricWake.bootKept = s.bootKept := by simp [fabricWake]

/-! ## Memory and the engine -/

@[simp] theorem bootKept_mapStart (s : State) : s.mapStart.bootKept = s.bootKept := by simp [mapStart]
@[simp] theorem bootKept_nvCheck (s : State) (c : Nat) (first : Bool) : (s.nvCheck c first).bootKept = s.bootKept := by
  unfold nvCheck
  dsimp only
  split
  · rfl
  · split <;> simp
@[simp] theorem bootKept_ctrLoad (s : State) (c : Nat) : (s.ctrLoad c).bootKept = s.bootKept := by simp [ctrLoad]
@[simp] theorem bootKept_nonceLoad (s : State) : s.nonceLoad.bootKept = s.bootKept := by simp [nonceLoad, bootKept_foldl]
@[simp] theorem bootKept_memDetect (s : State) (bit src p : Nat) : (s.memDetect bit src p).bootKept = s.bootKept := by simp [memDetect]
@[simp] theorem bootKept_memDetectE (s : State) (pg bit src : Nat) : (s.memDetectE pg bit src).bootKept = s.bootKept := by simp [memDetectE]
@[simp] theorem bootKept_memNote (s : State) (p kind nsym : Nat) : (s.memNote p kind nsym).bootKept = s.bootKept := by simp [memNote]
@[simp] theorem bootKept_queueRepair (s : State) (r : Repair) : (s.queueRepair r).bootKept = s.bootKept := by simp [queueRepair]
@[simp] theorem bootKept_setPoison (s : State) (w : Nat) (b : Bool) : (s.setPoison w b).bootKept = s.bootKept := by
  unfold setPoison
  split
  · split <;> rfl
  · rfl
@[simp] theorem bootKept_setSyms (s : State) (w n : Nat) : (s.setSyms w n).bootKept = s.bootKept := rfl
@[simp] theorem bootKept_rowCount (s : State) (m row : Nat) : (s.rowCount m row).bootKept = s.bootKept := by
  unfold rowCount
  exact bootKept_of rfl rfl
@[simp] theorem bootKept_setBytes : ∀ (l : List Byte) (s : State) (p : Nat), (s.setBytes p l).bootKept = s.bootKept
  | [], _, _ => rfl
  | b :: l, s, p => bootKept_setBytes l (s.setByte p b) (p + 1)
@[simp] theorem bootKept_memUe (s : State) (p : Nat) : (s.memUe p none).bootKept = s.bootKept := by simp [memUe]
@[simp] theorem bootKept_wrongWord (s : State) (p : Nat) : (s.wrongWord p none).bootKept = s.bootKept := by simp [wrongWord]
@[simp] theorem bootKept_memRead (s : State) (p nsym : Nat) : (s.memRead p nsym none).1.bootKept = s.bootKept := by
  unfold memRead
  dsimp only
  split
  · rfl
  · split
    · simp
    · split
      · simp
      · split
        · rfl
        · split <;> simp
@[simp] theorem bootKept_hwFind (s : State) (f : Nat → Bool) : (s.hwFind f).bootKept = s.bootKept := by simp [hwFind, bootKept_foldl]
@[simp] theorem bootKept_eraseSector (s : State) (n : Nat) : (s.eraseSector n).bootKept = s.bootKept := by
  unfold eraseSector
  exact bootKept_of rfl rfl
@[simp] theorem bootKept_wearCheck (s : State) (n : Nat) : (s.wearCheck n).bootKept = s.bootKept := by simp [wearCheck]
@[simp] theorem bootKept_clearSector (s : State) (n : Nat) : (s.clearSector n).bootKept = s.bootKept := by simp [clearSector]
@[simp] theorem bootKept_areaWrite (s : State) (a : Bool) (gen : Nat) : (s.areaWrite a gen).bootKept = s.bootKept := by simp [areaWrite, bootKept_foldl]
@[simp] theorem bootKept_updGo (s : State) (st : Nat) : (s.updGo st).bootKept = s.bootKept := by simp [updGo]
@[simp] theorem bootKept_updEnd (s : State) : s.updEnd.bootKept = s.bootKept := by simp [updEnd]
@[simp] theorem bootKept_updReload (s : State) (booted : Bool) : (s.updReload booted).bootKept = s.bootKept := by
  unfold updReload
  extract_lets pick blank s0
  have hs0 : s0.bootKept = s.bootKept := bootKept_updGo s 0
  clear_value s0 blank pick
  cases pick with
  | none => simp [hs0]
  | some p =>
    obtain ⟨_, src, u, ver⟩ := p
    dsimp -zeta only
    extract_lets s1 s2 s3 mine torn s4 clean s5
    have hs3 : s3.bootKept = s.bootKept := by simp [s3, s2, s1, bootKept_foldl]
    have hs4 : s4.bootKept = s.bootKept := by simp [s4, bootKept_foldl, hs3]
    have hs5 : s5.bootKept = s.bootKept := by simp [s5, hs4]
    clear_value s5 clean s4 torn mine s3
    split
    · simp [hs3]
    · cases mine with
      | some r => simp [hs3]
      | none => simp [hs3, hs5]

/-! ## The steps of a boot -/

@[simp] theorem bootKept_syncGo (s : State) (st : Nat) : (s.syncGo st).bootKept = s.bootKept := by simp [syncGo]
@[simp] theorem bootKept_setClkBit (s : State) (f : Fld) (i : Nat) (b : Bool) : (s.setClkBit f i b).bootKept = s.bootKept := by simp [setClkBit]
@[simp] theorem bootKept_lockTo (s : State) (i : Nat) (b : Bool) : (s.lockTo i b).bootKept = s.bootKept := by simp [lockTo]
@[simp] theorem bootKept_setRole (s : State) (p r : Nat) : (s.setRole p r).bootKept = s.bootKept := by simp [setRole]
@[simp] theorem bootKept_setLcMap (s : State) (m : Tab Nat) : ({ s with lcMap := m } : State).bootKept = s.bootKept := bootKept_of rfl rfl
@[simp] theorem bootKept_bootPairs (s : State) (b : BootIn) (use : Option Bool) : (s.bootPairs b use).bootKept = s.bootKept := by
  simp [bootPairs, bootKept_foldl]
@[simp] theorem bootKept_bootForget (s : State) : s.bootForget.bootKept = s.bootKept := by simp [bootForget]
@[simp] theorem bootKept_bootCfg (s : State) (use : Option Bool) : (s.bootCfg use).bootKept = s.bootKept := by
  unfold bootCfg
  dsimp only
  split
  · simp
  · split <;> simp
@[simp] theorem bootKept_bootSegs (s : State) : s.bootSegs.bootKept = s.bootKept := by simp [bootSegs, bootKept_foldl]

/-! ## Records of the supplies, clocks and maps -/

@[simp] theorem bootKept_setPwr (s : State) (p : Pwr) (h : p.recov = s.pwr.recov) : ({ s with pwr := p } : State).bootKept = s.bootKept := by
  simp only [bootKept, h]
@[simp] theorem bootKept_setClocks (s : State) (dead lost : List Nat) : ({ s with clkDead := dead, clkLost := lost } : State).bootKept = s.bootKept :=
  bootKept_of rfl rfl
@[simp] theorem bootKept_setTbRun (s : State) (b : Bool) : ({ s with tbRun := b } : State).bootKept = s.bootKept := bootKept_of rfl rfl
@[simp] theorem bootKept_setTb (s : State) (n : Nat) (l : Int) : ({ s with tb := n, kaLead := l } : State).bootKept = s.bootKept := bootKept_of rfl rfl
@[simp] theorem bootKept_setTbcTick (s : State) (m : Tab Nat) : ({ s with tbcTick := m } : State).bootKept = s.bootKept := bootKept_of rfl rfl
@[simp] theorem bootKept_setSync (s : State) (n : Nat) (o : Option Nat) : ({ s with syncGood := n, tbStep := o } : State).bootKept = s.bootKept :=
  bootKept_of rfl rfl
@[simp] theorem bootKept_tbAdvance (s : State) (k : Nat) : (s.tbAdvance k).bootKept = s.bootKept := by simp [tbAdvance, bootKept_foldl]
@[simp] theorem bootKept_syncFreeGo (s : State) : s.syncFreeGo.bootKept = s.bootKept :=
  (bootKept_syncGo ..).trans ((bootKept_setSync ..).trans (bootKept_setFld ..))
@[simp] theorem bootKept_islandRuns (s : State) (i : Nat) : (s.islandRuns i).bootKept = s.bootKept := by
  unfold islandRuns
  extract_lets s0 s1 s2 s3
  have h0 : s0.bootKept = s.bootKept := bootKept_setClocks ..
  have h1 : s1.bootKept = s.bootKept := by simp [s1, h0]
  have h2 : s2.bootKept = s.bootKept := by
    simp only [s2]
    split
    · exact (bootKept_setPwr _ _ rfl).trans ((bootKept_tbAdvance ..).trans h0)
    · exact h0
  have h3 : s3.bootKept = s.bootKept := (bootKept_pxClockBack s2).trans h2
  have hback : ((List.range 6).foldl (fun (t : State) l => t.linClockBack l) s0.canClockBack).bootKept = s.bootKept :=
    (bootKept_foldl (fun t l => bootKept_linClockBack t l) _ _).trans ((bootKept_canClockBack s0).trans h0)
  have hcores : ((s0.coresOf (i - 2)).foldl schedule s0).bootKept = s.bootKept := (bootKept_foldl bootKept_schedule _ _).trans h0
  clear_value s3 s2 s1 s0
  simp [h0, h1, h3, hback, hcores]
@[simp] theorem bootKept_pllLock (s : State) (i : Nat) : (s.pllLock i).bootKept = s.bootKept := by simp [pllLock]
@[simp] theorem bootKept_bootSupplies (s : State) : s.bootSupplies.bootKept = s.bootKept := by simp [bootSupplies]
@[simp] theorem bootKept_bootClocks (s : State) (x32 : Bool) : (s.bootClocks x32).bootKept = s.bootKept := by simp [bootClocks, bootKept_foldl]
theorem bootKept_setMaps (s : State) (m : MemSt) (l : List Nat) (p : Pwr) (h : p.recov = s.pwr.recov) :
    ({ s with memc := m, poison := l, pwr := p } : State).bootKept = s.bootKept := by
  simp only [bootKept, h]
@[simp] theorem bootKept_bootMaps (s : State) (b : BootIn) : (s.bootMaps b).bootKept = s.bootKept := by
  unfold bootMaps
  extract_lets fact s1 s2 nv memc pwr s3
  have h1 : s1.bootKept = s.bootKept := by simp [s1, bootKept_foldl]
  have h2 : s2.bootKept = s.bootKept := (bootKept_setBit ..).trans h1
  have h3 : s3.bootKept = s2.bootKept := bootKept_setMaps s2 _ _ _ rfl
  clear_value s3 pwr memc nv s2 s1
  simp [h3, h2]
@[simp] theorem bootKept_bootCfgTake (s : State) (use : Option Bool) : (s.bootCfgTake use).bootKept = s.bootKept := by
  unfold bootCfgTake
  cases use with
  | none => rfl
  | some u =>
    dsimp only
    split <;> simp
@[simp] theorem bootKept_bootCal (s : State) : s.bootCal.bootKept = s.bootKept := by
  unfold bootCal
  dsimp only
  split <;> simp

end State

end Sys2Proof.Machine
end

section
/-! The boot (R466, R467): what its last step leaves, the chosen bank and the entry point of its image. -/

namespace Sys2Proof.Machine

/-! ## The last step -/

/-- An image's header is read off the memories alone. -/
theorem State.imgHdr_of_offCores {s t : State} (h : t.offCores = s.offCores) (k : Bool) : t.imgHdr k = s.imgHdr k := by
  simp only [State.offCores, Prod.mk.injEq] at h
  obtain ⟨-, hmem, hsym, hpoison, hmemc, -⟩ := h
  have hpoisoned (p : Nat) : t.poisoned p = s.poisoned p := by rw [State.poisoned, State.poisoned, State.symsOf, State.symsOf, hsym, hpoison]
  have hread (p : Nat) : t.readByte p = s.readByte p := by rw [State.readByte, State.readByte, State.byteAt, State.byteAt, hmem, hmemc]
  have hbyte (p : Nat) : t.hwByte p = s.hwByte p := by rw [State.hwByte, State.hwByte, hpoisoned, hread]
  have hword (off : Nat) : t.bankWord k off = s.bankWord k off := by
    simp only [State.bankWord, State.bankBytes, State.bankByte, hbyte]
  simp only [State.imgHdr, hword]

theorem State.offCores_bootRun (s : State) (pc : Nat) : (s.bootRun pc).offCores = s.offCores :=
  (State.offCores_scheduleWith _ 0 false).trans rfl

/-- Context 0 stands at the address it was given, whether or not it takes its core at once. -/
theorem State.pc_bootRun (s : State) (pc : Nat) : ((s.bootRun pc).cx 0).pc = BitVec.ofNat 32 pc := by
  unfold State.bootRun
  extract_lets t
  have hpc : (t.cx 0).pc = BitVec.ofNat 32 pc := by
    simp [t, State.cx, Ctx.commit]
  rw [State.schedule, (State.Yields.scheduleWith t 0 false).cx 0]
  exact hpc

/-- The end of a boot: the cores go on at the entry point of the chosen image, or the ROM does. -/
def State.bootLeave (s : State) (bank : Option (Bool × Nat)) : State :=
  match bank with
  | some (k, _) => s.bootRun (((s.imgHdr k).map (·.entry)).getD 0)
  | none => s.schedule 0

theorem State.offCores_bootLeave (s : State) (bank : Option (Bool × Nat)) : (s.bootLeave bank).offCores = s.offCores := by
  cases bank with
  | none => exact State.offCores_scheduleWith s 0 false
  | some k => exact State.offCores_bootRun s _

theorem State.pwr_bootLeave (s : State) (bank : Option (Bool × Nat)) : (s.bootLeave bank).pwr = s.pwr := by
  have h := State.offCores_bootLeave s bank
  simp only [State.offCores, Prod.mk.injEq] at h
  obtain ⟨-, -, -, -, -, hpwr, -⟩ := h
  exact hpwr

theorem State.pc_bootLeave {s : State} {k : Bool} {mode : Nat} (hbank : s.bankB = k) :
    ((s.bootLeave (some (k, mode))).cx 0).pc =
      BitVec.ofNat 32 ((((s.bootLeave (some (k, mode))).imgHdr (s.bootLeave (some (k, mode))).bankB).map (·.entry)).getD 0) := by
  have h := State.offCores_bootLeave s (some (k, mode))
  have himg := State.imgHdr_of_offCores h
  simp only [State.offCores, Prod.mk.injEq] at h
  obtain ⟨-, -, -, -, -, -, -, hbankB, -⟩ := h
  rw [himg, hbankB, hbank]
  exact State.pc_bootRun s _

theorem State.bankB_of_bootKept {s t : State} (h : t.bootKept = s.bootKept) {k : Bool} (hk : s.bankB = k) : t.bankB = k :=
  (congrArg Prod.fst h).trans hk

theorem State.recov_of_bootKept {s t : State} (h : t.bootKept = s.bootKept) : t.pwr.recov = s.pwr.recov := congrArg Prod.snd h

theorem State.bootKept_bootEnd (s : State) (trial : Bool) (us : Nat) :
    ((s.nonceLoad.bootSegs.updReload trial).setFld 0x007 R.BOOT.TIME.US us).bootKept = s.bootKept := by
  simp

theorem boot_hands {s : State} (hboot : s.pwr.boot ≠ .done) (hpark : s.power ≠ .park) {b : BootIn} (hvlog : b.vlog = true) (hxin : b.xin = true) :
    GivesThen (.boot b) s State.nextTakeover fun u =>
        u.pwr.boot = .done ∧ (s.pwr.recov = true → u.pwr.recovery = true) ∧
        (u.pwr.recovery = false → (u.cx 0).pc = BitVec.ofNat 32 (((u.imgHdr u.bankB).map (·.entry)).getD 0)) := by
  change ∃ u : State, execBoot b s = .next u.nextTakeover ∧ _
  unfold execBoot
  rw [if_neg (by simp [hboot, hpark, hvlog]), if_neg (by simp [hxin])]
  extract_lets por s1 s2 s3 named use s4 s5 s6 c t cry t0 t1 t2 pwr t3 u
  have h6 : s6.bootKept = s.bootKept := by simp [s6, s5, s4, s3, s2, s1, por]
  have hrecov : s.pwr.recov = true → c.2.bank = none := fun h => by
    have h6' : s6.pwr.recov = true := (State.recov_of_bootKept h6).trans h
    rw [show c = (s6, ⟨none, false⟩) from if_pos h6']
  have h2 : t2.bootKept = t1.bootKept := State.bootKept_bootEnd t1 c.2.trial b.us.toNat
  have h2 : t2.bankB = t1.bankB := State.bankB_of_bootKept h2 rfl
  have h3 : t3.bankB = t2.bankB := by simp only [t3]
  have hdone : t3.pwr.boot = .done ∧ t3.pwr.recovery = c.2.bank.isNone := ⟨rfl, rfl⟩
  have hu : u = t3.bootLeave c.2.bank := rfl
  clear_value u t3 pwr t2 c s6 s5 s4 use named s3 s2 s1
  have hbank {k : Bool} {mode : Nat} (hc : c.2.bank = some (k, mode)) : t1.bankB = k := by
    have ht1 : ∃ v w : State, ∃ use' : Option Bool, v.bankB = k ∧ w.bootKept = v.bootKept ∧ t1 = w.bootCfg use' := by
      simp -zeta only [t1, hc]
      extract_lets r l cry' v v1 v2 v3
      refine ⟨v, v3, v3.cfgUse (v3.imgCfv k), rfl, ?_, rfl⟩
      clear_value v
      simp [v3, v2, v1]
    obtain ⟨v, w, use', hv, hw, ht1⟩ := ht1
    rw [ht1]
    exact State.bankB_of_bootKept ((State.bootKept_bootCfg w use').trans hw) hv
  clear_value t1 t0 cry t
  subst hu
  refine ⟨_, rfl, ?_⟩
  rw [State.pwr_bootLeave]
  obtain ⟨hboot3, hrecovery⟩ := hdone
  refine ⟨hboot3, fun h => by rw [hrecovery, hrecov h]; rfl, fun h => ?_⟩
  cases hc : c.2.bank with
  | none =>
    rw [hrecovery, hc] at h
    exact absurd h (by decide)
  | some k => exact State.pc_bootLeave (h3.trans (h2.trans (hbank hc)))

end Sys2Proof.Machine
end

section
/-! Power modes (R453, R454, R455), the wakes from PARK (R424, R456), the power-on reset and the faults of the supplies (R459, R452). -/

namespace Sys2Proof.Machine

/-! ## DOZE and RUN, the alarm and the crystal of the RTC -/

theorem State.fld_ok_mode (s : State) : (s.ok pmuPg).fld pmuPg R.PMU.MODE.MODE = s.fld pmuPg R.PMU.MODE.MODE :=
  (State.keepsRegs_ok s pmuPg (List.mem_singleton.mpr rfl)).fld _ (by decide) (by decide)

theorem doze_gives {s : State} (hlock : s.locked pmuPg = false) (hrun : s.power = .run) :
    Gives .doze s fun t => t.power = .doze ∧ t.fld pmuPg R.PMU.MODE.MODE = 1 ∧ t.code pmuPg = 0 := by
  refine ⟨_, if_neg (by simp [hlock, hrun]), by simp, ?_, State.code_ok ..⟩
  exact (State.fld_ok_mode _).trans (State.fld_setFld_same _ _ _ _ (by decide) (by decide))

theorem run_gives {s : State} (hlock : s.locked pmuPg = false) (hdoze : s.power = .doze) :
    Gives .run s fun t => t.power = .run ∧ t.fld pmuPg R.PMU.MODE.MODE = 0 ∧ t.code pmuPg = 0 := by
  refine ⟨_, if_neg (by simp [hlock, hdoze]), ?_, ?_, State.code_ok ..⟩
  · simp [State.toRun, hdoze]
  · rw [State.fld_ok_mode, State.toRun, if_pos hdoze]
    exact State.fld_setFld_same _ _ _ _ (by decide) (by decide)

theorem rtcAlarm_fires {s : State} (hen : s.bit pmuPg R.PMU.ALMCTL.EN = true) (hdue : s.rtcDue ≤ s.kaNow) :
    exec .rtcAlarm s = .next s.rtcFire :=
  (if_pos hen).trans (State.atKa_of_le hdue _)

theorem State.fired_setBit (s : State) : (s.setBit pmuPg R.PMU.ALMCTL.FIRED true).bit pmuPg R.PMU.ALMCTL.FIRED = true :=
  State.bit_setBit_same _ _ _ _ rfl (by decide)

/-- In PARK the alarm is the wake that the KA island has found (R458). -/
theorem rtcAlarm_wakes {s : State} (hen : s.bit pmuPg R.PMU.ALMCTL.EN = true) (hdue : s.rtcDue ≤ s.kaNow) (hpark : s.power = .park)
    (hnone : s.parkWake = none) : Gives .rtcAlarm s fun t =>
      t.parkWake = some (4, 0) ∧ t.bit pmuPg R.PMU.ALMCTL.FIRED = true ∧ t.power = .park := by
  have hpark' : (s.setBit pmuPg R.PMU.ALMCTL.FIRED true).power = .park := (State.setFld_power ..).trans hpark
  have hnone' : (s.setBit pmuPg R.PMU.ALMCTL.FIRED true).parkWake = none := (State.setFld_parkWake ..).trans hnone
  have hfire : s.rtcFire = { s.setBit pmuPg R.PMU.ALMCTL.FIRED true with parkWake := some (4, 0) } :=
    (if_neg (not_not.mpr hpark')).trans (if_pos (by rw [hnone']; rfl))
  refine ⟨_, rtcAlarm_fires hen hdue, ?_⟩
  rw [hfire]
  exact ⟨rfl, s.fired_setBit, hpark'⟩

/-- Else it is a local wake. -/
theorem rtcAlarm_local {s : State} (hen : s.bit pmuPg R.PMU.ALMCTL.EN = true) (hdue : s.rtcDue ≤ s.kaNow) (hpark : s.power ≠ .park) :
    GivesThen .rtcAlarm s (fun u => u.localWake (some (4, 0))) fun u => u.bit pmuPg R.PMU.ALMCTL.FIRED = true := by
  have hpark' : (s.setBit pmuPg R.PMU.ALMCTL.FIRED true).power ≠ .park := fun e => hpark ((State.setFld_power ..).symm.trans e)
  exact ⟨s.setBit pmuPg R.PMU.ALMCTL.FIRED true, (rtcAlarm_fires hen hdue).trans (congrArg Host.Outcome.next (if_pos hpark')), s.fired_setBit⟩

theorem x32CrystalFailure_gives {s : State} (hok : s.pwr.x32ok = true) : Gives .x32CrystalFailure s fun t =>
    t.bit 0x004 R.CLK.XSTAT.X32OK = false ∧ t.pwr.x32ok = false ∧ t.raises = s.raises ++ [⟨13, .page 0x004⟩] := by
  refine ⟨_, if_neg (by simp [hok]), ?_, ?_, ?_⟩
  · exact State.bit_setBit_same _ _ _ _ rfl (by decide)
  · simp [State.raise]
  · simp [State.raise, clkPg]

/-! ## Wakes from PARK -/

/-- A wake keeps the memories that PARK keeps (R456). -/
theorem State.Woken.byteAt {s u : State} {src : Nat × Nat} (h : s.Woken u src) (p : Nat) :
    u.byteAt p = if lostMacro (placeMacro p) then memDefault p else s.byteAt p := by
  rw [State.byteAt, h.mem, tget_filter_keys memDefault fun k => !lostMacro (placeMacro k)]
  cases lostMacro (placeMacro p) <;> rfl

theorem State.keepsOn_safenHigh (u : State) : u.KeepsOn (· ≠ fltPg) (u.setBit fltPg R.FLT.STAT.SAFEN false) :=
  .setBit u false (by simp) (by decide)

/-- The KA island's own wake. -/
theorem parkWake_local {s : State} (hpark : s.power = .park) {src : Nat × Nat} (r : BitVec 48) (hwake : s.parkWake = some src)
    (hkind : src.1 < 8) (hindex : src.2 < 64) : Gives (.parkWake none r true) s fun t =>
        t.power = .run ∧ t.pwr.boot = .wake ∧ (t.reg rstPg R.RST.CAUSE.C.off).getLsbD 5 = true ∧ t.nmState = 0 ∧
        t.fld nmPg R.NM.WSRC.KIND = src.1 ∧ t.fld nmPg R.NM.WSRC.INDEX = src.2 ∧ t.nm.hold.isSome = true ∧
        t.bit fltPg R.FLT.STAT.SAFEN = false ∧
        s.posting 205 ∈ t.postings ∧ (∀ p, lostMacro (placeMacro p) = true → t.byteAt p = memDefault p) ∧
        (∀ p, lostMacro (placeMacro p) = false → t.byteAt p = s.byteAt p) := by
  obtain ⟨u, hwoken, hhold, hsafe, -⟩ := s.wakeBoot_eq src (if src.1 = 1 then some src.2 else none) r.toNat
  have hexec : exec (.parkWake none r true) s = .next (s.wakeBoot src (if src.1 = 1 then some src.2 else none) r.toNat true) := by
    refine (if_neg (not_not.mpr hpark)).trans ?_
    rw [hwake]
  have hkeep := u.keepsOn_safenHigh
  have hmem : (u.setBit fltPg R.FLT.STAT.SAFEN false).mem = u.mem := State.setFld_mem ..
  have hbyte (p : Nat) : (u.setBit fltPg R.FLT.STAT.SAFEN false).byteAt p = if lostMacro (placeMacro p) then memDefault p else s.byteAt p := by
    rw [State.byteAt, hmem, ← State.byteAt, hwoken.byteAt]
  refine ⟨_, hexec.trans (congrArg Host.Outcome.next hsafe), ?_, ?_, ?_, ?_, ?_, ?_, ?_, ?_, ?_, ?_, ?_⟩
  · exact (State.setFld_power ..).trans hwoken.power
  · exact (congrArg Pwr.boot (State.setFld_pwr ..)).trans hwoken.boot
  · rw [hkeep.reg _ _ (by decide) (by decide), hwoken.cause]
    simp
  · exact (hkeep.fld (by decide) (by decide)).trans hwoken.nmState
  · exact (hkeep.fld (by decide) (by decide)).trans (hwoken.kind (by omega))
  · exact (hkeep.fld (by decide) (by decide)).trans (hwoken.index hindex)
  · exact (congrArg (fun n : Nm => n.hold.isSome) (State.setFld_nm ..)).trans hhold
  · exact State.bit_setBit_same _ _ _ _ rfl (by decide)
  · rw [State.setBit, State.setFld_postings]
    exact hwoken.posted
  · exact fun p hp => (hbyte p).trans (if_pos hp)
  · exact fun p hp => (hbyte p).trans (if_neg (by simp [hp]))

/-- Kind and index of a bus's wake. -/
def busWake (b : NetBus) : Nat × Nat := match b with | .can c => (1, c.val) | .lin l => (2, l.val)

theorem parkWake_bus {s : State} (hpark : s.power = .park) (b : NetBus) (r : BitVec 48) (f : Bool) (hwakes : s.busWakes b = true) :
    exec (.parkWake (some b) r f) s = .next (s.wakeBoot (busWake b) (some (busNo b)) r.toNat f) :=
  (if_neg (not_not.mpr hpark)).trans (if_pos hwakes)

theorem parkWake_bus_gives {s : State} (hpark : s.power = .park) (b : NetBus) (r : BitVec 48) :
    s.busWakes b = true → Gives (.parkWake (some b) r true) s fun t =>
      t.power = .run ∧ t.pwr.boot = .wake ∧
      (match b with
        | .can c => t.fld nmPg R.NM.WSRC.KIND = 1 ∧ t.fld nmPg R.NM.WSRC.INDEX = c.val
        | .lin l => t.fld nmPg R.NM.WSRC.KIND = 2 ∧ t.fld nmPg R.NM.WSRC.INDEX = l.val) := by
  intro hwakes
  obtain ⟨u, hwoken, -, hsafe, -⟩ := s.wakeBoot_eq (busWake b) (some (busNo b)) r.toNat
  have hkind (h : (busWake b).1 < 16) : (u.setBit fltPg R.FLT.STAT.SAFEN false).fld nmPg R.NM.WSRC.KIND = (busWake b).1 :=
    (u.keepsOn_safenHigh.fld (by decide) (by decide)).trans (hwoken.kind h)
  have hindex (h : (busWake b).2 < 64) : (u.setBit fltPg R.FLT.STAT.SAFEN false).fld nmPg R.NM.WSRC.INDEX = (busWake b).2 :=
    (u.keepsOn_safenHigh.fld (by decide) (by decide)).trans (hwoken.index h)
  refine ⟨_, (parkWake_bus hpark b r true hwakes).trans (congrArg Host.Outcome.next hsafe), (State.setFld_power ..).trans hwoken.power,
    (congrArg Pwr.boot (State.setFld_pwr ..)).trans hwoken.boot, ?_⟩
  cases b with
  | can c => exact ⟨hkind (show 1 < 16 by decide), hindex (show c.val < 64 by omega)⟩
  | lin l => exact ⟨hkind (show 2 < 16 by decide), hindex (show l.val < 64 by omega)⟩

theorem parkWake_bus_safe {s : State} (hpark : s.power = .park) (b : NetBus) (r : BitVec 48) (hwakes : s.busWakes b = true) :
    GivesThen (.parkWake (some b) r false) s (fun u => (u.enterSafe 2 0).collect [⟨233, .page 0⟩]) fun u =>
        u.power = .run ∧ u.bit fltPg R.FLT.STAT.SAFEN = true := by
  obtain ⟨u, hwoken, -, -, hlow⟩ := s.wakeBoot_eq (busWake b) (some (busNo b)) r.toNat
  exact ⟨_, (parkWake_bus hpark b r false hwakes).trans (congrArg Host.Outcome.next hlow), (State.setFld_power ..).trans hwoken.power,
    State.bit_setBit_same _ _ _ _ rfl (by decide)⟩

/-! ## The power-on reset -/

/-- Nothing that is written is torn where nothing is. -/
theorem State.torn_of_idle {s : State} (hflash : s.memc.flash = none) (hpiece : s.upd.piece = none)
    (hctr : s.cry.ctrs.any (·.2.wr.isSome) = false) : s.nonceDrop.flashTorn = s := by
  rw [State.nonceDrop, if_pos (by simp [hctr]), State.flashTorn, State.pieceTorn, hpiece]
  dsimp only
  rw [hflash]

theorem powerOnReset_gives (s : State) (vl rc : Bool) : Gives (.powerOnReset vl rc) s fun t =>
      t.ctxs = State.reset.ctxs ∧ t.power = .run ∧ t.pwr.boot = .por ∧ t.pending = s.pending ∧ t.bankB = s.bankB ∧
      t.bit 0x001 R.SYS.STRAP.VLSEL = vl ∧ t.bit pmuPg R.PMU.SUP.BUCK = !vl ∧ t.bit 0x001 R.SYS.STRAP.RECOV = rc ∧
      (s.memc.flash = none → s.upd.piece = none → s.cry.ctrs.any (·.2.wr.isSome) = false →
        ∀ p, t.byteAt p = (if lostMacro (placeMacro p) then memDefault p else s.byteAt p)) := by
  refine ⟨s.powerOn vl rc, rfl, ?_⟩
  have hkept : s.nonceDrop.flashTorn.blockKept = s.blockKept := (State.blockKept_flashTorn _).trans (State.blockKept_nonceDrop s)
  simp only [State.blockKept, Prod.mk.injEq] at hkept
  obtain ⟨-, -, hpending, hbankB, -⟩ := hkept
  generalize hu : s.powerOn vl rc = u
  unfold State.powerOn at hu
  extract_lets v r t0 t1 at hu
  have hv : v = s.nonceDrop.flashTorn := rfl
  have h0 : t0.ctxs = State.reset.ctxs ∧ t0.power = .run ∧ t0.pwr.boot = .por ∧ t0.pending = v.pending ∧ t0.bankB = v.bankB ∧
      t0.mem = v.mem.filter fun e => !lostMacro (placeMacro e.1) := ⟨rfl, rfl, rfl, rfl, rfl, rfl⟩
  have h1 : t1 = (t0.setBit 0x001 R.SYS.STRAP.VLSEL vl).setBit 0x001 R.SYS.STRAP.RECOV rc := rfl
  clear_value t1 t0 r v
  subst h1 hu
  obtain ⟨hctxs, hpower, hboot, hpend, hbank, hmem⟩ := h0
  refine ⟨by simpa using hctxs, by simpa using hpower, by simpa using hboot, ?_, ?_, ?_, ?_, ?_, ?_⟩
  · simp [hpend, hv, hpending]
  · simp [hbank, hv, hbankB]
  · rw [State.setBit, State.bit_setFld_page _ _ (by decide) (by decide) (by decide), State.setBit, State.bit_setFld_apart _ _ _ (by simp)]
    exact State.bit_setBit_same _ _ _ _ rfl (by decide)
  · exact State.bit_setBit_same _ _ _ _ rfl (by decide)
  · rw [State.setBit, State.bit_setFld_page _ _ (by decide) (by decide) (by decide)]
    exact State.bit_setBit_same _ _ _ _ rfl (by decide)
  · intro hflash hpiece hctr p
    rw [hv, State.torn_of_idle hflash hpiece hctr] at hmem
    have hmem' : (((t0.setBit 0x001 R.SYS.STRAP.VLSEL vl).setBit 0x001 R.SYS.STRAP.RECOV rc).setBit pmuPg R.PMU.SUP.BUCK !vl).mem = t0.mem := by
      simp
    rw [State.byteAt, hmem', hmem, tget_filter_keys memDefault fun k => !lostMacro (placeMacro k)]
    cases lostMacro (placeMacro p) <;> rfl

/-! ## Faults of the supplies -/

theorem State.vlogLost (s : State) : ((s.setBit pmuPg R.PMU.SUP.VLOK false).detect pmuPg 1).bit pmuPg R.PMU.SUP.VLOK = false := by
  refine ((State.KeepsRegs.detect _ pmuPg 1 (List.mem_singleton.mpr rfl)).bit _ (by decide) (by decide)).trans ?_
  exact State.bit_setBit_same _ _ _ _ rfl (by decide)

theorem supplyFault_vlog {s : State} (hpark : s.power ≠ .park) (vl rc : Bool) :
    GivesThen (.supplyFault ⟨.vlog, vl, rc⟩) s (fun u => u.chipReset 4) fun u =>
          u.bit pmuPg R.PMU.SUP.VLOK = false ∧ u.fstat pmuPg 1 = true :=
  ⟨(s.setBit pmuPg R.PMU.SUP.VLOK false).detect pmuPg 1, congrArg Host.Outcome.next (if_neg hpark), s.vlogLost,
    State.fstat_detect_same _ _ (by decide)⟩

theorem supplyFault_buck {s : State} (hpark : s.power ≠ .park) (vl rc : Bool) :
    GivesThen (.supplyFault ⟨.buck, vl, rc⟩) s (fun u => u.chipReset 4) fun u =>
          u.bit pmuPg R.PMU.SUP.VLOK = false ∧ u.fstat pmuPg 1 = true ∧ u.fstat pmuPg 3 = true := by
  refine ⟨((s.detect pmuPg 3).setBit pmuPg R.PMU.SUP.VLOK false).detect pmuPg 1, congrArg Host.Outcome.next (if_neg hpark),
    State.vlogLost _, State.fstat_detect_same _ _ (by decide), State.fstat_detect_of_fstat ?_ _ _⟩
  rw [State.fstat, State.setBit, State.reg_setFld_off _ _ _ (by decide)]
  exact State.fstat_detect_same s pmuPg (by decide)

theorem supplyFault_island {s : State} (hpark : s.power ≠ .park) (vl rc : Bool) {i : Fin 17} (h0 : i ≠ 0) (h15 : i ≠ 15) :
    GivesThen (.supplyFault ⟨.island i, vl, rc⟩) s (fun u => u.chipReset 4) fun u =>
          u.bit pmuPg R.PMU.SUP.ISUPOK = false ∧ u.fstat pmuPg 2 = true := by
  refine ⟨(s.setBit pmuPg R.PMU.SUP.ISUPOK false).detect pmuPg 2, ?_, ?_, State.fstat_detect_same _ _ (by decide)⟩
  · exact (if_neg fun e => h0 (Fin.ext e)).trans ((if_neg hpark).trans (if_neg fun e => h15 (Fin.ext e)))
  · refine ((State.KeepsRegs.detect _ pmuPg 2 (List.mem_singleton.mpr rfl)).bit _ (by decide) (by decide)).trans ?_
    exact State.bit_setBit_same _ _ _ _ rfl (by decide)

end Sys2Proof.Machine
end

section
/-! PARK is entered (R422, R455), and the power modes, wakes, boots and power-on resets as they are stated. -/

namespace Sys2Proof.Machine

/-! ## PARK -/

/-- The mode, TB, the sketches and the wake that is found. -/
def State.parked (s : State) : Power × Bool × Tab (Option Word) × Option (Nat × Nat) := (s.power, s.tbRun, s.sketch, s.parkWake)

theorem State.parked_foldl {α : Type} {f : State → α → State} (hf : ∀ t a, (f t a).parked = t.parked) :
    ∀ (l : List α) (s : State), (l.foldl f s).parked = s.parked
  | [], _ => rfl
  | a :: l, s => (State.parked_foldl hf l (f s a)).trans (hf s a)

@[simp] theorem State.parked_setReg (s : State) (pg off : Nat) (w : Word) : (s.setReg pg off w).parked = s.parked := rfl
@[simp] theorem State.parked_setFld (s : State) (pg : Nat) (f : Fld) (v : Nat) : (s.setFld pg f v).parked = s.parked := rfl
@[simp] theorem State.parked_setBit (s : State) (pg : Nat) (f : Fld) (b : Bool) : (s.setBit pg f b).parked = s.parked := rfl

/-- What PARK makes of the CAN controllers (R455). -/
def State.canPark (s : State) : State :=
  (List.range 8).foldl (fun (t : State) c =>
    ((t.setFld (canPg c) R.WAKE.STAT.FEC 0).setBit (canPg c) R.WAKE.STAT.FECOVF false).canShow c) s

@[simp] theorem State.parked_canPark (s : State) : s.canPark.parked = s.parked :=
  State.parked_foldl (fun _ _ => by simp [State.canShow]) _ s

@[simp] theorem State.parked_ethPark (s : State) : s.ethPark.parked = s.parked := by
  have heth (t : State) (e : EthSt) : (t.setEth e).parked = t.parked := rfl
  rw [State.ethPark, heth, State.parked_setFld, State.parked_setFld]
  exact State.parked_foldl (f := fun (t : State) p => t.setReg (ethPg p) R.ETH.STAT.LINK.off 0) (fun _ _ => rfl) _ s

theorem State.keepsOn_canPark (s : State) : s.KeepsOn (· = fixPg) s.canPark := by
  refine .foldl _ (fun t c hc => ?_) s
  have hc8 : c < 8 := List.mem_range.mp hc
  have hpg : ¬ canPg c = fixPg := by simp only [canPg, fixPg]; omega
  have hwake : t.KeepsOn (· = fixPg) ((t.setFld (canPg c) R.WAKE.STAT.FEC 0).setBit (canPg c) R.WAKE.STAT.FECOVF false) :=
    (State.KeepsOn.setFld (pg := canPg c) t 0 hpg (by decide)).trans (.setBit (pg := canPg c) _ false hpg (by decide))
  exact hwake.trans ⟨fun pg off h hoff => (State.netStep_canShow _ hc8).regs.reg pg off (by subst h; decide) hoff⟩

theorem State.keepsOn_ethPark (s : State) : s.KeepsOn (· = fixPg) s.ethPark := by
  have hlinks : s.KeepsOn (· = fixPg) ((List.range 4).foldl (fun (t : State) p => t.setReg (ethPg p) R.ETH.STAT.LINK.off 0) s) :=
    .foldl _ (fun t p hp => .setReg t 0 (by have := List.mem_range.mp hp; simp only [ethPg, fixPg]; omega) (by decide)) s
  exact (hlinks.trans (.setFld _ 0 (by decide) (by decide))).trans ((State.KeepsOn.setFld _ 0 (by decide) (by decide)).trans (.of_regs rfl))

/-- The registers that PARK leaves of FIX and of the sketches, by their keys (R84). -/
def parkKeeps (k : Nat) : Bool :=
  decide (k / 0x1000 ≠ fixPg) && (decide (k % 0x1000 ≠ 0x058) || (decide (0x040 ≤ k / 0x1000) && decide (k / 0x1000 ≤ 0x050)))

/-- FIX is idle and only the clauses' sketches are left (R84). -/
theorem State.fixDrop_shows (s : State) : s.fixDrop.fixSt = 0 ∧ ∀ e ∈ s.fixDrop.sketch, 0x040 ≤ e.1 / 0x1000 ∧ e.1 / 0x1000 ≤ 0x050 := by
  constructor
  · have hregs : s.fixDrop.regs = s.regs.filter fun e => parkKeeps e.1 := by
      simp [State.fixDrop, parkKeeps]
    rw [State.fixSt, State.fld, State.reg_of_filter hregs, if_neg (by decide)]
    decide
  · intro e he
    simpa using (List.mem_filter.mp he).2

/-- What PARK shows before the outputs follow. -/
theorem State.park_eq (s : State) : ∃ u : State, s.park = u.settleAll.outputsPark ∧
    u.power = .park ∧ u.tbRun = false ∧ (∀ e ∈ u.sketch, 0x040 ≤ e.1 / 0x1000 ∧ e.1 / 0x1000 ≤ 0x050) ∧ u.fixSt = 0 ∧
        u.parkWake = none := by
  generalize hp : s.park = p
  unfold State.park at hp
  extract_lets a b c d e memc pwr flt f g h i u at hp
  have hf : f.power = .park ∧ f.tbRun = false ∧ f.parkWake = none := ⟨rfl, rfl, rfl⟩
  have hg : g = f.fixDrop.ethPark := rfl
  have hi : i.parked = g.parked ∧ g.KeepsOn (· = fixPg) i :=
    ⟨by simp [i, h], (((State.KeepsOn.setBit g _ (by decide) (by decide)).trans (.setBit _ _ (by decide) (by decide))).trans
      (.setBit _ _ (by decide) (by decide))).trans ((State.KeepsOn.setBit _ _ (by decide) (by decide)).trans
      (.setBit _ _ (by decide) (by decide)))⟩
  have hu : u = i.canPark := rfl
  clear_value u i h g f
  subst hu hg
  obtain ⟨hparked, hkeep⟩ := hi
  obtain ⟨hpower, htb, hwake⟩ := hf
  obtain ⟨hfix, hsketch⟩ := f.fixDrop_shows
  have hall : i.canPark.parked = f.fixDrop.parked := i.parked_canPark.trans (hparked.trans f.fixDrop.parked_ethPark)
  simp only [State.parked, Prod.mk.injEq] at hall
  obtain ⟨hupower, hutb, husketch, huwake⟩ := hall
  have hst : i.canPark.fixSt = f.fixDrop.fixSt := (f.fixDrop.keepsOn_ethPark.trans (hkeep.trans i.keepsOn_canPark)).fld rfl (by decide)
  exact ⟨_, hp.symm, hupower.trans hpower, hutb.trans htb, husketch ▸ hsketch, hst.trans hfix, huwake.trans hwake⟩

theorem parkEntry_gives {s : State} (hpark : s.power ≠ .park) (hsleep : s.nmState = 3) (hbusy : s.bit updPg R.PG_STAT.BUSY = false) :
    GivesThen .parkEntry s (fun u => u.settleAll.outputsPark) fun u =>
        u.power = .park ∧ u.tbRun = false ∧ (∀ e ∈ u.sketch, 0x040 ≤ e.1 / 0x1000 ∧ e.1 / 0x1000 ≤ 0x050) ∧ u.fixSt = 0 ∧
        u.parkWake = none := by
  obtain ⟨u, heq, hshows⟩ := s.park_eq
  exact ⟨u, (if_neg (by simp [hpark, hsleep, hbusy])).trans (congrArg Host.Outcome.next heq), hshows⟩

/-! ## The statement -/

/-- Without a crystal on XIN a boot waits at step 4 (R466). -/
theorem boot_waits {s : State} (hboot : s.pwr.boot ≠ .done) (hpark : s.power ≠ .park) {b : BootIn} (hvlog : b.vlog = true) (hxin : b.xin = false) :
    Gives (.boot b) s fun t =>
        t.pwr.boot = s.pwr.boot ∧ t.bit pmuPg R.PMU.SUP.VLOK = true ∧ t.bit pmuPg R.PMU.SUP.ISUPOK = true ∧ t.ctxs = s.ctxs := by
  refine ⟨s.bootSupplies, (if_neg (by simp [hboot, hpark, hvlog])).trans (if_pos (by simp [hxin])), ?_, ?_, ?_, ?_⟩
  · simp [State.bootSupplies]
  · exact (State.bit_setFld_apart _ _ _ (by simp)).trans (State.bit_setBit_same _ _ _ _ rfl (by decide))
  · exact State.bit_setBit_same _ _ _ _ rfl (by decide)
  · simp [State.bootSupplies]

theorem supplyFault_parked {s : State} (hpark : s.power = .park) (vl rc : Bool) :
    exec (.supplyFault ⟨.vlog, vl, rc⟩) s = .next s ∧ exec (.supplyFault ⟨.buck, vl, rc⟩) s = .next s ∧
      ∀ i : Fin 17, i ≠ 0 → exec (.supplyFault ⟨.island i, vl, rc⟩) s = .next s :=
  ⟨congrArg Host.Outcome.next (if_pos hpark), congrArg Host.Outcome.next (if_pos hpark),
    fun _ hi => (if_neg fun e => hi (Fin.ext e)).trans (if_pos hpark)⟩

theorem supplyFault_iso {s : State} (hpark : s.power ≠ .park) (vl rc : Bool) :
    exec (.supplyFault ⟨.island 15, vl, rc⟩) s = exec (.clockLoss 15) (s.setBit pmuPg R.PMU.SUP.ISUPOK false) :=
  (if_neg hpark).trans (if_pos rfl)

/-- Settles O58: PARK by what its steps leave of FIX and the sketches, the wakes by `wakeBoot_eq`, the boot by the bank and the strap that
its steps keep. -/
theorem powerModes : Obligations.PowerModes := by
  unfold Obligations.PowerModes
  intro s
  refine ⟨fun h => if_pos h, doze_gives, fun h => if_pos h, run_gives, fun h => if_neg (Bool.eq_false_iff.mp h), rtcAlarm_wakes, rtcAlarm_local,
    x32CrystalFailure_gives, fun h => if_pos (by simp [h]), fun h => if_pos h, parkEntry_gives, fun h _ _ _ => if_pos h,
    fun hpark _ r hwake hkind hindex => parkWake_local hpark r hwake hkind hindex, parkWake_bus_gives, parkWake_bus_safe,
    fun hpark hnone _ _ => ?_, fun hpark b _ _ hwakes => ?_, powerOnReset_gives s, fun h _ => if_pos ?_, fun b h => if_pos (by simp [h]),
    fun hboot hpark b hvlog => ⟨boot_waits hboot hpark hvlog, fun hxin => ?_⟩, fun vl rc => ⟨rfl, rfl, rfl, fun hpark => supplyFault_parked hpark vl rc,
      fun hpark => ⟨supplyFault_vlog hpark vl rc, supplyFault_buck hpark vl rc, supplyFault_iso hpark vl rc,
        fun i h0 h15 => supplyFault_island hpark vl rc h0 h15⟩⟩⟩
  · refine (if_neg (not_not.mpr hpark)).trans ?_
    rw [hnone]
  · exact (if_neg (not_not.mpr hpark)).trans (if_neg (by simp [hwakes]))
  · exact h.elim .inl fun hpark => .inr (.inl hpark)
  · obtain ⟨u, hexec, hdone, hrecov, hpc⟩ := boot_hands hboot hpark hvlog hxin
    exact ⟨u, hexec, hdone, hrecov, fun _ _ => hpc⟩

end Sys2Proof.Machine
end

section
/-! What a detection and a refusal do: the causes they raise, the events they post, and the registers they leave (R59, R60, R357). -/

namespace Sys2Proof.Machine

/-! ## Detections -/

/-- One bit of a word is clear where the word and the mask of the bit share none. -/
theorem and_bitMask_eq_zero_iff {bit : Nat} (h : bit < 32) (w : Word) : w &&& (1 <<< bit : Word) = 0 ↔ w.getLsbD bit = false := by
  have hmask (i : Nat) : BitVec.getLsbD (1 <<< bit : Word) i = (decide (i < 32) && decide (bit = i)) := by
    change (BitVec.ofNat 32 (1 <<< bit)).getLsbD i = _
    rw [BitVec.getLsbD_ofNat, Nat.one_shiftLeft, Nat.testBit_two_pow]
  constructor
  · intro hand
    have hbit : (w &&& (1 <<< bit : Word)).getLsbD bit = (0 : Word).getLsbD bit := by rw [hand]
    simpa only [BitVec.getLsbD_and, hmask, h, decide_true, Bool.and_true, BitVec.ofNat_eq_ofNat, BitVec.getLsbD_zero] using hbit
  · intro hclear
    refine BitVec.eq_of_getLsbD_eq fun i _ => ?_
    rw [BitVec.getLsbD_and, hmask, BitVec.ofNat_eq_ofNat, BitVec.getLsbD_zero]
    by_cases hi : bit = i
    · rw [← hi, hclear, Bool.false_and]
    · rw [decide_eq_false hi, Bool.and_false, Bool.and_false]

/-- Causes on their way queue behind those before them (R357). -/
theorem State.foldl_raise_raises (d : Detail) : ∀ (l : List Nat) (s : State),
    (l.foldl (fun t c => t.raise c d) s).raises = s.raises ++ l.map fun c => ⟨c, d⟩
  | [], s => (List.append_nil _).symm
  | c :: l, s => by rw [List.foldl_cons, State.foldl_raise_raises d l, State.raise, List.map_cons, List.append_assoc]; rfl

/-- Each event posted is one posting more. -/
theorem State.foldl_post_postings_length : ∀ (l : List Nat) (s : State),
    (l.foldl State.post s).postings.length = s.postings.length + l.length
  | [], _ => rfl
  | e :: l, s => by
    rw [List.foldl_cons, State.foldl_post_postings_length l, State.post_postings, List.length_append, List.length_singleton,
      List.length_cons, Nat.add_assoc, Nat.add_comm 1]

/-- A detection before its events: the PG_FSTAT bit is set, and the causes are raised where PG_FMASK lets them (R357). -/
def State.detected (s : State) (pg bit : Nat) (srcs : List Nat) (d : Detail) : State :=
  let u := s.setReg pg 0x048 (s.reg pg 0x048 ||| 1 <<< bit)
  if (s.reg pg 0x04C).getLsbD bit then u else srcs.foldl (fun t c => t.raise c d) u

/-- A detection posts the page's events where PG_IRQEN has its bit (R60). -/
theorem State.detectAs_eq_detected (s : State) (pg : Nat) {bit : Nat} (h : bit < 32) (srcs : List Nat) (d : Detail) :
    s.detectAs pg bit srcs d = if (s.reg pg 0x050).getLsbD bit then (s.irqEvents pg).foldl State.post (s.detected pg bit srcs d)
      else s.detected pg bit srcs d := by
  simp only [State.detectAs, State.detected, and_bitMask_eq_zero_iff h]
  cases (s.reg pg 0x050).getLsbD bit <;> cases (s.reg pg 0x04C).getLsbD bit <;> rfl

theorem State.detected_raises (s : State) (pg bit : Nat) (srcs : List Nat) (d : Detail) : (s.detected pg bit srcs d).raises =
    s.raises ++ (if (s.reg pg 0x04C).getLsbD bit then [] else srcs.map fun c => ⟨c, d⟩) := by
  unfold State.detected
  dsimp only
  split
  · rw [State.setReg_raises, List.append_nil]
  · rw [State.foldl_raise_raises, State.setReg_raises]

theorem State.detected_postings (s : State) (pg bit : Nat) (srcs : List Nat) (d : Detail) :
    (s.detected pg bit srcs d).postings = s.postings := by
  unfold State.detected
  dsimp only
  split
  · rfl
  · obtain ⟨r, hr⟩ := State.raises_eq d srcs (s.setReg pg 0x048 (s.reg pg 0x048 ||| 1 <<< bit))
    rw [hr]
    rfl

/-- A detection raises its sources unless PG_FMASK masks it (R357). -/
theorem State.detectAs_raises (s : State) (pg : Nat) {bit : Nat} (h : bit < 32) (srcs : List Nat) (d : Detail) :
    (s.detectAs pg bit srcs d).raises = s.raises ++ (if (s.reg pg 0x04C).getLsbD bit then [] else srcs.map fun c => ⟨c, d⟩) := by
  rw [State.detectAs_eq_detected s pg h, ← State.detected_raises]
  split
  · obtain ⟨p, c, q, hposts⟩ := State.posts_eq (s.irqEvents pg) (s.detected pg bit srcs d)
    rw [hposts]
  · rfl

theorem State.detectAs_postings (s : State) (pg : Nat) {bit : Nat} (h : bit < 32) (srcs : List Nat) (d : Detail)
    (hirq : (s.reg pg 0x050).getLsbD bit = false) : (s.detectAs pg bit srcs d).postings = s.postings := by
  rw [State.detectAs_eq_detected s pg h, hirq]
  exact State.detected_postings ..

theorem State.detectAs_postings_length (s : State) (pg : Nat) {bit : Nat} (h : bit < 32) (srcs : List Nat) (d : Detail)
    (hirq : (s.reg pg 0x050).getLsbD bit = true) :
    (s.detectAs pg bit srcs d).postings.length = s.postings.length + (s.irqEvents pg).length := by
  rw [State.detectAs_eq_detected s pg h, hirq, if_pos rfl, State.foldl_post_postings_length, State.detected_postings]

theorem State.keepsOff_detect (s : State) (pg bit : Nat) : s.KeepsOff (s.detect pg bit) pg [0x048] :=
  (State.KeepsOff.setReg s pg _ (List.mem_singleton_self _) (by decide)).trans (.of_regs (s.detectAs_regs pg bit _ _) pg _)

theorem State.reg_detect_fstat (s : State) (pg bit : Nat) : (s.detect pg bit).reg pg 0x048 = s.reg pg 0x048 ||| 1#32 <<< bit :=
  (State.reg_of_regs (s.detectAs_regs pg bit _ _) pg 0x048).trans (State.reg_setReg_same ..)

/-! ## Refusals -/

theorem State.keepsOff_refuse (s : State) (pg : Nat) : s.KeepsOff (s.refuse pg) pg [0x044, 0x048] := by
  have hdetect (u : State) : u.KeepsOff (u.detect pg 0) pg [0x044, 0x048] :=
    ⟨fun pg' off hoff hn => (u.keepsOff_detect pg 0).reg pg' off hoff fun e hm => hn e (List.mem_cons_of_mem _ hm)⟩
  exact (State.KeepsOff.setFld s pg R.PG_STAT.CODE codeRefused (List.mem_cons_self ..) (by decide)).trans (hdetect _)

/-- A refusal answers STATE_REFUSED (R58). -/
theorem State.code_refuse (s : State) (pg : Nat) : (s.refuse pg).code pg = 1 :=
  ((State.keepsOff_detect (s.answer pg codeRefused) pg 0).fld (by decide) fun _ => by decide).trans
    (State.code_answer s pg codeRefused (by decide))

/-- A refusal is a detection of the page's refusals: it raises their sources unless PG_FMASK masks them (R59, R357). -/
theorem State.refuse_raises (s : State) (pg : Nat) : (s.refuse pg).raises =
    s.raises ++ (if (s.reg pg 0x04C).getLsbD 0 then [] else (s.blkSources pg 0).map fun c => ⟨c, .page pg⟩) := by
  have hmask : (s.answer pg codeRefused).reg pg 0x04C = s.reg pg 0x04C := State.reg_setFld_off s pg _ (by decide)
  rw [State.refuse, State.detect, State.detectAs_raises _ pg (by decide), hmask, State.answer_raises]
  rfl

/-- Settles O26: what a refusal and a detection write, raise and post, and all they leave. -/
theorem refusalAndDetection : Obligations.RefusalAndDetection := by
  refine ⟨fun s pg => ?refusal, fun s pg bit hbit => ?detection⟩
  case refusal =>
    have hregs (q r : Nat) (hr : r < 0x1000) (hne : q ≠ pg ∨ (r ≠ 0x044 ∧ r ≠ 0x048)) : (s.refuse pg).reg q r = s.reg q r :=
      (s.keepsOff_refuse pg).reg q r hr fun hq => by simpa [hq] using hne
    exact ⟨s.code_refuse pg, State.fstat_detect_same _ pg (by decide), hregs,
      fun hmask => by rw [State.refuse_raises, hmask]; rfl, fun hmask => by rw [State.refuse_raises, hmask]; exact List.append_nil _,
      State.refuse_mem .., State.refuse_ctxs .., State.refuse_pending .., State.refuse_outbox .., State.refuse_sketch .., rfl⟩
  case detection =>
    have hregs (q r : Nat) (hr : r < 0x1000) (hne : q ≠ pg ∨ r ≠ 0x048) : (s.detect pg bit).reg q r = s.reg q r :=
      (s.keepsOff_detect pg bit).reg q r hr fun hq => by simpa [hq] using hne
    exact ⟨s.reg_detect_fstat pg bit, hregs, State.detectAs_raises s pg hbit _ _, State.detectAs_postings s pg hbit _ _,
      State.detectAs_postings_length s pg hbit _ _, State.detect_mem .., State.detect_ctxs .., State.detect_pending ..⟩

end Sys2Proof.Machine
end

section
/-! Every command answers (R58, R59, R304): each branch of each meaning ends in a next state, or in one of the few ends that the
meanings share. The commands follow in the order of the model's files. -/

namespace Sys2Proof.Machine

/-! ## The shared ends -/

/-- The outcome is a next state. -/
def Answers (o : Outcome) : Prop := ∃ t, o = .next t

theorem answers_next (t : State) : Answers (.next t) := ⟨t, rfl⟩

theorem answers_ite {c : Prop} {_ : Decidable c} {a b : Outcome} (ha : Answers a) (hb : Answers b) :
    Answers (if c then a else b) := by
  split
  · exact ha
  · exact hb

theorem answers_atTick (s : State) (t : Nat) (f : State → State) : Answers (s.atTick t f) :=
  answers_ite (answers_next _) (answers_ite (answers_next _) (answers_next _))

theorem answers_atKa (s : State) (t : Int) (f : State → State) : Answers (s.atKa t f) :=
  answers_ite (answers_next _) (answers_ite (answers_next _) (answers_next _))

theorem answers_issue (s : State) (lc : Fin 16) (gs : Bool) (gp : Fin 8) (bad : CtxRegs → Option Word) (skip : Nat)
    (srcs dsts : List Nat) (body : Nat → State → State) : Answers (s.issue lc gs gp bad skip srcs dsts body) := by
  fun_cases State.issue <;> exact answers_next _

theorem answers_simple (s : State) (lc : Fin 16) (gs : Bool) (gp : Fin 8) (srcs dsts : List Nat) (f : CtxRegs → CtxRegs) :
    Answers (s.simple lc gs gp srcs dsts f) := answers_issue ..

theorem answers_alu (s : State) (lc : Fin 16) (gs : Bool) (gp : Fin 8) (rd ra rb : Fin 32) (f : Word → Word → Word)
    (ov : Word → Word → Bool) : Answers (s.alu lc gs gp rd ra rb f ov) := answers_simple ..

theorem answers_aluImm (s : State) (lc : Fin 16) (gs : Bool) (gp : Fin 8) (rd ra : Fin 32) (b : Word) (f : Word → Word → Word)
    (ov : Word → Word → Bool) : Answers (s.aluImm lc gs gp rd ra b f ov) := answers_simple ..

theorem answers_division (s : State) (lc : Fin 16) (gs : Bool) (gp : Fin 8) (w : Word) (rd ra rb : Fin 32)
    (zero f : Word → Word → Word) (ov : Word → Word → Bool) : Answers (s.division lc gs gp w rd ra rb zero f ov) :=
  answers_issue ..

theorem answers_string (s : State) (lc : Fin 16) (gs : Bool) (gp : Fin 8) (w : Word) (z : StrOp) (nsym : Nat) :
    Answers (s.string lc gs gp w z nsym) := answers_issue ..

theorem answers_hint (s : State) (lc : Fin 16) (yields : Bool) : Answers (s.hint lc yields) := by
  fun_cases State.hint <;> exact answers_next _

theorem answers_hsFilter (s : State) (n : Nat) (on : Bool) (t : Nat) (f : State → State) : Answers (s.hsFilter n on t f) :=
  answers_ite (answers_atTick ..) (answers_next _)

theorem answers_vlChop (s : State) (n i : Nat) : Answers (s.vlChop n i) := by
  fun_cases State.vlChop <;> simp only [↓answers_next, ↓answers_atTick]

theorem answers_updCmd (s : State) (r : Option Bool) (code : Nat) (f : State → State) : Answers (s.updCmd r code f) := by
  fun_cases State.updCmd <;> exact answers_next _


/-! ## The commands of Machine/Contexts -/

@[simp] theorem execNmtArrival_answers (lc : Fin 16) (s : State) : Answers (execNmtArrival lc s) := by
  fun_cases execNmtArrival <;> exact answers_next _

@[simp] theorem execWaitDeadline_answers (lc : Fin 16) (i : Fin 32) (s : State) : Answers (execWaitDeadline lc i s) := by
  fun_cases execWaitDeadline <;> simp only [↓answers_next, ↓answers_atTick]

@[simp] theorem execDrainComplete_answers (lc : Fin 16) (i : Fin 32) (s : State) : Answers (execDrainComplete lc i s) :=
  answers_next _

/-! ## The commands of Machine/MemInt -/

@[simp] theorem execScrubPeriodStart_answers (s : State) : Answers (execScrubPeriodStart s) := by
  fun_cases execScrubPeriodStart <;> simp only [↓answers_next, ↓answers_atTick]

@[simp] theorem execScrubRead_answers (nsym : Nat) (owner : Option (BitVec 9)) (s : State) :
    Answers (execScrubRead nsym owner s) := by
  fun_cases execScrubRead <;> simp only [↓answers_next, ↓answers_atKa]

@[simp] theorem execRowRemap_answers (m : Fin 60) (row : Nat) (ok : Bool) (s : State) : Answers (execRowRemap m row ok s) := by
  fun_cases execRowRemap <;> exact answers_next _

@[simp] theorem execZero_answers (w : Writer) (s : State) : Answers (execZero w s) := by
  fun_cases execZero <;> exact answers_next _

@[simp] theorem execProg_answers (w : Writer) (s : State) : Answers (execProg w s) := by
  fun_cases execProg <;> exact answers_next _

@[simp] theorem execErase_answers (w : Writer) (s : State) : Answers (execErase w s) := by
  fun_cases execErase <;> exact answers_next _

@[simp] theorem execRepairMapAppend_answers (s : State) : Answers (execRepairMapAppend s) := by
  fun_cases execRepairMapAppend <;> exact answers_next _

@[simp] theorem execFlashCommandEnd_answers (ok : Bool) (s : State) : Answers (execFlashCommandEnd ok s) := by
  fun_cases execFlashCommandEnd <;> exact answers_next _

/-! ## The commands of Machine/Can -/

@[simp] theorem execCanGo_answers (c : Fin 8) (s : State) : Answers (execCanGo c s) := by
  fun_cases execCanGo <;> exact answers_next _

@[simp] theorem execCanStop_answers (c : Fin 8) (s : State) : Answers (execCanStop c s) := by
  fun_cases execCanStop <;> exact answers_next _

@[simp] theorem execAutobaud_answers (c : Fin 8) (s : State) : Answers (execAutobaud c s) := by
  fun_cases execAutobaud <;> exact answers_next _

@[simp] theorem execAutobaudCandidateEnd_answers (c : Fin 8) (pass : Bool) (s : State) :
    Answers (execAutobaudCandidateEnd c pass s) := by
  fun_cases execAutobaudCandidateEnd <;> simp only [↓answers_next, ↓answers_atTick]

@[simp] theorem execRecover_answers (c : Fin 8) (s : State) : Answers (execRecover c s) := by
  fun_cases execRecover <;> exact answers_next _

@[simp] theorem execBusOffRecoveryStart_answers (c : Fin 8) (s : State) : Answers (execBusOffRecoveryStart c s) := by
  fun_cases execBusOffRecoveryStart <;> simp only [↓answers_next, ↓answers_atTick]

@[simp] theorem execBusOffRecoveryComplete_answers (c : Fin 8) (s : State) : Answers (execBusOffRecoveryComplete c s) := by
  fun_cases execBusOffRecoveryComplete <;> exact answers_next _

@[simp] theorem execBusIntegration_answers (c : Fin 8) (s : State) : Answers (execBusIntegration c s) := by
  fun_cases execBusIntegration <;> exact answers_next _

@[simp] theorem execReq_answers (c : Fin 8) (t : Fin 16) (s : State) : Answers (execReq c t s) := by
  fun_cases execReq <;> exact answers_next _

@[simp] theorem execCanCancel_answers (c : Fin 8) (t : Fin 16) (s : State) : Answers (execCanCancel c t s) := by
  fun_cases execCanCancel <;> exact answers_next _

@[simp] theorem execSelectionPoint_answers (c : Fin 8) (s : State) : Answers (execSelectionPoint c s) := by
  fun_cases execSelectionPoint <;> exact answers_next _

@[simp] theorem execProtocolException_answers (c : Fin 8) (s : State) : Answers (execProtocolException c s) := by
  fun_cases execProtocolException <;> exact answers_next _

@[simp] theorem execCanFrameReceived_answers (c : Fin 8) (f : CanFrame) (sof : Nat) (at_ : CanRx) (s : State) :
    Answers (execCanFrameReceived c f sof at_ s) := by
  fun_cases execCanFrameReceived <;> exact answers_next _

@[simp] theorem execCanAttemptEnd_answers (c : Fin 8) (r : CanEnd) (sof : Nat) (s : State) :
    Answers (execCanAttemptEnd c r sof s) := by
  fun_cases execCanAttemptEnd <;> exact answers_next _

@[simp] theorem execCanError_answers (c : Fin 8) (code : Fin 7) (dph tx : Bool) (x : CanFlag) (s : State) :
    Answers (execCanError c code dph tx x s) := by
  fun_cases execCanError <;> exact answers_next _

@[simp] theorem execBusdom_answers (c : Fin 8) (s : State) : Answers (execBusdom c s) := by
  fun_cases execBusdom <;> exact answers_next _

/-! ## The commands of Machine/Lin -/

@[simp] theorem execLinGo_answers (l : Fin 6) (s : State) : Answers (execLinGo l s) := by
  fun_cases execLinGo <;> exact answers_next _

@[simp] theorem execLinSleep_answers (l : Fin 6) (s : State) : Answers (execLinSleep l s) := by
  fun_cases execLinSleep <;> exact answers_next _

@[simp] theorem execLinWake_answers (l : Fin 6) (s : State) : Answers (execLinWake l s) := by
  fun_cases execLinWake <;> exact answers_next _

@[simp] theorem execLinSlotStart_answers (l : Fin 6) (s : State) : Answers (execLinSlotStart l s) := by
  fun_cases execLinSlotStart <;> simp only [↓answers_next, ↓answers_atTick]

@[simp] theorem execLinStop_answers (l : Fin 6) (s : State) : Answers (execLinStop l s) := by
  fun_cases execLinStop <;> exact answers_next _

@[simp] theorem execLinHeaderReceived_answers (l : Fin 6) (h : LinHeader) (s : State) :
    Answers (execLinHeaderReceived l h s) := by
  fun_cases execLinHeaderReceived <;> simp only [↓answers_next, ↓answers_atTick]

@[simp] theorem execLinFrameEnd_answers (l : Fin 6) (r : LinEnd) (s : State) : Answers (execLinFrameEnd l r s) := by
  fun_cases execLinFrameEnd <;> simp only [↓answers_next, ↓answers_atTick]

@[simp] theorem execLinResponseTimeout_answers (l : Fin 6) (part : Bool) (s : State) :
    Answers (execLinResponseTimeout l part s) := by
  fun_cases execLinResponseTimeout <;> simp only [↓answers_next, ↓answers_atTick]

@[simp] theorem execTxdto_answers (b : Trx) (s : State) : Answers (execTxdto b s) := by
  fun_cases execTxdto <;> exact answers_next _

@[simp] theorem execTransceiverOvertemperature_answers (b : TrxHeat) (s : State) :
    Answers (execTransceiverOvertemperature b s) := by
  fun_cases execTransceiverOvertemperature <;> exact answers_next _

/-! ## The commands of Machine/Eth -/

@[simp] theorem execEthFrameReceived_answers (p : Fin 4) (f : EthRx) (fcs : Bool) (drop : BitVec 5) (s : State) :
    Answers (execEthFrameReceived p f fcs drop s) := by
  fun_cases execEthFrameReceived <;> exact answers_next _

@[simp] theorem execHostTxRecord_answers (drop : BitVec 5) (s : State) : Answers (execHostTxRecord drop s) := by
  fun_cases execHostTxRecord <;> exact answers_next _

@[simp] theorem execEthLinkChange_answers (p : Fin 4) (up master : Bool) (sqi : Fin 8) (s : State) :
    Answers (execEthLinkChange p up master sqi s) := by
  fun_cases execEthLinkChange <;> exact answers_next _

@[simp] theorem execSqiLow_answers (p : Fin 4) (sqi : Fin 8) (s : State) : Answers (execSqiLow p sqi s) := by
  fun_cases execSqiLow <;> simp only [↓answers_next, ↓answers_atTick]

@[simp] theorem execPlcaBeaconMissed_answers (s : State) : Answers (execPlcaBeaconMissed s) := by
  fun_cases execPlcaBeaconMissed <;> exact answers_next _

@[simp] theorem execMacAddressAgeing_answers (mac : BitVec 48) (s : State) : Answers (execMacAddressAgeing mac s) := by
  fun_cases execMacAddressAgeing <;> simp only [↓answers_next, ↓answers_atTick]

@[simp] theorem execTopoSend_answers (s : State) : Answers (execTopoSend s) := by
  fun_cases execTopoSend <;> simp only [↓answers_next, ↓answers_atTick]

@[simp] theorem execTopoReceived_answers (p : Fin 4) (src : BitVec 32) (hop lat : Nat) (s : State) :
    Answers (execTopoReceived p src hop lat s) := by
  fun_cases execTopoReceived <;> exact answers_next _

@[simp] theorem execSyncSend_answers (s : State) : Answers (execSyncSend s) := by
  fun_cases execSyncSend <;> simp only [↓answers_next, ↓answers_atTick]

/-! ## The commands of Machine/Nm -/

@[simp] theorem execKeepAwakePeriod_answers (s : State) : Answers (execKeepAwakePeriod s) := by
  fun_cases execKeepAwakePeriod <;> simp only [↓answers_next, ↓answers_atTick]

@[simp] theorem execVoteWrite_answers (v : BitVec 16) (s : State) : Answers (execVoteWrite v s) := by
  fun_cases execVoteWrite <;> exact answers_next _

@[simp] theorem execReadySleepTimeout_answers (s : State) : Answers (execReadySleepTimeout s) := by
  fun_cases execReadySleepTimeout <;> simp only [↓answers_next, ↓answers_atTick]

@[simp] theorem execSilenceTimeout_answers (s : State) : Answers (execSilenceTimeout s) := by
  fun_cases execSilenceTimeout <;> simp only [↓answers_next, ↓answers_atTick]

@[simp] theorem execSleepFrameEnd_answers (b : NetBus) (own : Bool) (s : State) : Answers (execSleepFrameEnd b own s) := by
  fun_cases execSleepFrameEnd <;> exact answers_next _

@[simp] theorem execForcedSleepFrameEnd_answers (b : NetBus) (own : Bool) (s : State) :
    Answers (execForcedSleepFrameEnd b own s) := by
  fun_cases execForcedSleepFrameEnd <;> exact answers_next _

@[simp] theorem execNmCancel_answers (s : State) : Answers (execNmCancel s) := by
  fun_cases execNmCancel <;> exact answers_next _

@[simp] theorem execWindowBusWake_answers (b : NetBus) (s : State) : Answers (execWindowBusWake b s) := answers_next _

@[simp] theorem execSleepWindowEnd_answers (s : State) : Answers (execSleepWindowEnd s) := by
  fun_cases execSleepWindowEnd <;> simp only [↓answers_next, ↓answers_atTick]

@[simp] theorem execMaximumAwakeExpiry_answers (s : State) : Answers (execMaximumAwakeExpiry s) := by
  fun_cases execMaximumAwakeExpiry <;> simp only [↓answers_next, ↓answers_atTick]

@[simp] theorem execWakeHoldEnd_answers (s : State) : Answers (execWakeHoldEnd s) := by
  fun_cases execWakeHoldEnd <;> simp only [↓answers_next, ↓answers_atTick]

/-! ## The commands of Machine/Cipher -/

@[simp] theorem execJobStart_answers (q : Fin 4) (s : State) : Answers (execJobStart q s) := by
  fun_cases execJobStart <;> exact answers_next _

@[simp] theorem execJobSubmit_answers (w : Writer) (q : Fin 4) (put : BitVec 10) (s : State) :
    Answers (execJobSubmit w q put s) := by
  fun_cases execJobSubmit <;> exact answers_next _

@[simp] theorem execAesBlockBoundary_answers (ue : Bool) (s : State) : Answers (execAesBlockBoundary ue s) := by
  fun_cases execAesBlockBoundary <;> exact answers_next _

@[simp] theorem execInverseCheckMismatch_answers (s : State) : Answers (execInverseCheckMismatch s) := by
  fun_cases execInverseCheckMismatch <;> exact answers_next _

@[simp] theorem execSegmentVerify_answers (q : Fin 4) (s : State) : Answers (execSegmentVerify q s) := by
  fun_cases execSegmentVerify <;> exact answers_next _

@[simp] theorem execJobEnd_answers (q : Fin 4) (s : State) : Answers (execJobEnd q s) := by
  fun_cases execJobEnd <;> exact answers_next _

@[simp] theorem execNoncePersistComplete_answers (c : BitVec 8) (ok : Bool) (s : State) :
    Answers (execNoncePersistComplete c ok s) := by
  fun_cases execNoncePersistComplete <;> exact answers_next _

@[simp] theorem execSha_answers (w : Writer) (s : State) : Answers (execSha w s) := by
  fun_cases execSha <;> exact answers_next _

@[simp] theorem execVerifySignature_answers (w : Writer) (s : State) : Answers (execVerifySignature w s) := by
  fun_cases execVerifySignature <;> exact answers_next _

@[simp] theorem execPkCommandEnd_answers (selfFail : Bool) (s : State) : Answers (execPkCommandEnd selfFail s) := by
  fun_cases execPkCommandEnd <;> exact answers_next _

@[simp] theorem execDebugAccessRequest_answers (s : State) : Answers (execDebugAccessRequest s) := by
  fun_cases execDebugAccessRequest <;> exact answers_next _

@[simp] theorem execDebugResponse_answers (r sg : BitVec 256) (s : State) : Answers (execDebugResponse r sg s) := by
  fun_cases execDebugResponse <;> exact answers_next _

/-! ## The commands of Machine/Lockstep -/

@[simp] theorem execMismatch_answers (p : Fin 10) (drop : Nat) (undo : BitVec 32) (s : State) :
    Answers (execMismatch p drop undo s) := answers_next _

@[simp] theorem execInvalidComparatorCode_answers (p : Fin 10) (drop : Nat) (undo : BitVec 32) (s : State) :
    Answers (execInvalidComparatorCode p drop undo s) := answers_next _

@[simp] theorem execSelfTestEnd_answers (p : Fin 10) (pass : Bool) (ms : BitVec 16) (s : State) :
    Answers (execSelfTestEnd p pass ms s) := by
  fun_cases execSelfTestEnd <;> exact answers_next _

@[simp] theorem execSpareSelfTest_answers (p : Fin 10) (pass : Bool) (ms : BitVec 16) (s : State) :
    Answers (execSpareSelfTest p pass ms s) := by
  fun_cases execSpareSelfTest <;> simp only [↓answers_next, ↓answers_atTick]

@[simp] theorem execStart_answers (w : Writer) (s : State) : Answers (execStart w s) := answers_next _

@[simp] theorem execHalt_answers (w : Writer) (s : State) : Answers (execHalt w s) := answers_next _

@[simp] theorem execResume_answers (w : Writer) (s : State) : Answers (execResume w s) := answers_next _

@[simp] theorem execTakeoverComplete_answers (badCtx : List (BitVec 9 × BitVec 17)) (badEnt : List
    (Nat × BitVec 17)) (s : State) :
    Answers (execTakeoverComplete badCtx badEnt s) := by
  fun_cases execTakeoverComplete <;> exact answers_next _

/-! ## The commands of Machine/HighSide -/

@[simp] theorem execEnvelopeBreakpoint_answers (n : Fin 48) (s : State) : Answers (execEnvelopeBreakpoint n s) := by
  fun_cases execEnvelopeBreakpoint <;> simp only [↓answers_next, ↓answers_atTick]

@[simp] theorem execHsClr_answers (n : Fin 48) (s : State) : Answers (execHsClr n s) := by
  fun_cases execHsClr <;> exact answers_next _

@[simp] theorem execClrr_answers (n : Fin 48) (s : State) : Answers (execClrr n s) := by
  fun_cases execClrr <;> exact answers_next _

@[simp] theorem execTestWindowOpen_answers (n : Fin 48) (len : BitVec 16) (s : State) : Answers (execTestWindowOpen n len s) := by
  fun_cases execTestWindowOpen <;> exact answers_next _

@[simp] theorem execWindowClose_answers (n : Fin 48) (len : BitVec 16) (s : State) : Answers (execWindowClose n len s) := by
  fun_cases execWindowClose <;> exact answers_next _

@[simp] theorem execTestWindowExpiry_answers (n : Fin 48) (s : State) : Answers (execTestWindowExpiry n s) := by
  fun_cases execTestWindowExpiry <;> simp only [↓answers_next, ↓answers_atTick]

@[simp] theorem execRetryIntervalEnd_answers (n : Fin 48) (s : State) : Answers (execRetryIntervalEnd n s) := by
  fun_cases execRetryIntervalEnd <;> simp only [↓answers_next, ↓answers_atTick]

/-! ## The commands of Machine/Protect -/

@[simp] theorem execTrip_answers (n : Fin 48) (i : Int) (s : State) : Answers (execTrip n i s) := by
  fun_cases execTrip <;> simp only [↓answers_next, ↓answers_hsFilter]

@[simp] theorem execCeilTrip_answers (n : Fin 48) (i : Int) (s : State) : Answers (execCeilTrip n i s) := by
  fun_cases execCeilTrip <;> exact answers_next _

@[simp] theorem execReverseCurrent_answers (n : Fin 48) (i : Int) (s : State) : Answers (execReverseCurrent n i s) := by
  fun_cases execReverseCurrent <;> simp only [↓answers_next, ↓answers_hsFilter]

@[simp] theorem execStuckOn_answers (n : Fin 48) (i : Int) (s : State) : Answers (execStuckOn n i s) := by
  fun_cases execStuckOn <;> simp only [↓answers_next, ↓answers_hsFilter]

@[simp] theorem execOffStateDiagnosis_answers (n : Fin 48) (vbat va vb : Int) (s : State) :
    Answers (execOffStateDiagnosis n vbat va vb s) := by
  fun_cases execOffStateDiagnosis <;> simp only [↓answers_next, ↓answers_atTick]

@[simp] theorem execOffPhaseShortSample_answers (n : Fin 48) (vbat va : Int) (left : Nat) (s : State) :
    Answers (execOffPhaseShortSample n vbat va left s) := by
  fun_cases execOffPhaseShortSample <;> simp only [↓answers_next, ↓answers_atTick]

@[simp] theorem execBudgetExceeded_answers (b : Fin 6) (i : Vector Int 8) (s : State) : Answers (execBudgetExceeded b i s) := by
  fun_cases execBudgetExceeded <;> simp only [↓answers_next, ↓answers_atTick]

@[simp] theorem execRetouch_answers (n : Fin 48) (seg : Fin 8) (why : SegFinding) (s : State) :
    Answers (execRetouch n seg why s) := by
  fun_cases execRetouch <;> exact answers_next _

/-! ## The commands of Machine/Bridge -/

@[simp] theorem execBridgeCoast_answers (k : Fin 14) (tgten : Bool) (s : State) : Answers (execBridgeCoast k tgten s) := by
  fun_cases execBridgeCoast <;> exact answers_next _

@[simp] theorem execBridgeBrake_answers (k : Fin 14) (tgten : Bool) (s : State) : Answers (execBridgeBrake k tgten s) := by
  fun_cases execBridgeBrake <;> exact answers_next _

@[simp] theorem execBridgeFwd_answers (k : Fin 14) (tgten : Bool) (s : State) : Answers (execBridgeFwd k tgten s) := by
  fun_cases execBridgeFwd <;> exact answers_next _

@[simp] theorem execBridgeRev_answers (k : Fin 14) (tgten : Bool) (s : State) : Answers (execBridgeRev k tgten s) := by
  fun_cases execBridgeRev <;> exact answers_next _

@[simp] theorem execBridgePark_answers (k : Fin 14) (tgten : Bool) (s : State) : Answers (execBridgePark k tgten s) := by
  fun_cases execBridgePark <;> exact answers_next _

@[simp] theorem execStartAllowanceEnd_answers (k : Fin 14) (s : State) : Answers (execStartAllowanceEnd k s) := by
  fun_cases execStartAllowanceEnd <;> simp only [↓answers_next, ↓answers_atTick]

@[simp] theorem execSharedLegStart_answers (k : Fin 14) (s : State) : Answers (execSharedLegStart k s) := by
  fun_cases execSharedLegStart <;> exact answers_next _

@[simp] theorem execBridgeTrip_answers (k : Fin 14) (i : Int) (s : State) : Answers (execBridgeTrip k i s) := by
  fun_cases execBridgeTrip <;> simp only [↓answers_next, ↓answers_atTick]

@[simp] theorem execLegCeil_answers (l : Fin 28) (i : Nat) (s : State) : Answers (execLegCeil l i s) := by
  fun_cases execLegCeil <;> exact answers_next _

@[simp] theorem execBridgeClr_answers (k : Fin 14) (s : State) : Answers (execBridgeClr k s) := by
  fun_cases execBridgeClr <;> exact answers_next _

@[simp] theorem execBridgeOffStateDiagnosis_answers (k : Fin 14) (vbat va vb : Int) (s : State) :
    Answers (execBridgeOffStateDiagnosis k vbat va vb s) := by
  fun_cases execBridgeOffStateDiagnosis <;> simp only [↓answers_next, ↓answers_atTick]

@[simp] theorem execStallTimeout_answers (k : Fin 14) (s : State) : Answers (execStallTimeout k s) := by
  fun_cases execStallTimeout <;> simp only [↓answers_next, ↓answers_atTick]

@[simp] theorem execPosWrite_answers (k : Fin 14) (v : BitVec 32) (s : State) : Answers (execPosWrite k v s) := by
  fun_cases execPosWrite <;> exact answers_next _

@[simp] theorem execParkInputChange_answers (k : Fin 14) (s : State) : Answers (execParkInputChange k s) := by
  fun_cases execParkInputChange <;> exact answers_next _

@[simp] theorem execParkRunTimeout_answers (k : Fin 14) (s : State) : Answers (execParkRunTimeout k s) := by
  fun_cases execParkRunTimeout <;> simp only [↓answers_next, ↓answers_atTick]

/-! ## The commands of Machine/Inputs -/

@[simp] theorem execSiSample_answers (n : Fin 64) (v vbat : Int) (fail : Bool) (s : State) :
    Answers (execSiSample n v vbat fail s) := by
  fun_cases execSiSample <;> simp only [↓answers_next, ↓answers_atTick]

@[simp] theorem execWettingHoldEnd_answers (n : Fin 64) (s : State) : Answers (execWettingHoldEnd n s) := by
  fun_cases execWettingHoldEnd <;> simp only [↓answers_next, ↓answers_atTick]

@[simp] theorem execParkSample_answers (n : Fin 64) (v vbat : Int) (s : State) : Answers (execParkSample n v vbat s) := by
  fun_cases execParkSample <;> simp only [↓answers_next, ↓answers_atKa]

@[simp] theorem execIoInputSample_answers (n : Fin 16) (v : Int) (s : State) : Answers (execIoInputSample n v s) := by
  fun_cases execIoInputSample <;> simp only [↓answers_next, ↓answers_atTick]

@[simp] theorem execIoClr_answers (n : Fin 16) (s : State) : Answers (execIoClr n s) := by
  fun_cases execIoClr <;> exact answers_next _

@[simp] theorem execReadbackMismatch_answers (n : Fin 16) (s : State) : Answers (execReadbackMismatch n s) := by
  fun_cases execReadbackMismatch <;> simp only [↓answers_next, ↓answers_atTick]

@[simp] theorem execIoCurrentLimit_answers (n : Fin 16) (s : State) : Answers (execIoCurrentLimit n s) := by
  fun_cases execIoCurrentLimit <;> simp only [↓answers_next, ↓answers_atTick]

@[simp] theorem execIoTsd_answers (n : Fin 16) (s : State) : Answers (execIoTsd n s) := by
  fun_cases execIoTsd <;> exact answers_next _

@[simp] theorem execFieldSupplyChange_answers (v : Int) (s : State) : Answers (execFieldSupplyChange v s) := by
  fun_cases execFieldSupplyChange <;> simp only [↓answers_next, ↓answers_atKa]

@[simp] theorem execLaneLoss_answers (n : Fin 16) (s : State) : Answers (execLaneLoss n s) := by
  fun_cases execLaneLoss <;> exact answers_next _

@[simp] theorem execFieldCommandTimeout_answers (n : Fin 16) (s : State) : Answers (execFieldCommandTimeout n s) := by
  fun_cases execFieldCommandTimeout <;> simp only [↓answers_next, ↓answers_atKa]

/-! ## The commands of Machine/Valve -/

@[simp] theorem execTrig_answers (n : Fin 8) (s : State) : Answers (execTrig n s) := by
  fun_cases execTrig <;> exact answers_next _

@[simp] theorem execPeakEnd_answers (n : Fin 8) (i : Nat) (s : State) : Answers (execPeakEnd n i s) := by
  fun_cases execPeakEnd <;> exact answers_next _

@[simp] theorem execPkholdEnd_answers (n : Fin 8) (s : State) : Answers (execPkholdEnd n s) := by
  fun_cases execPkholdEnd <;> simp only [↓answers_next, ↓answers_atTick]

@[simp] theorem execEndOfHold_answers (n : Fin 8) (s : State) : Answers (execEndOfHold n s) := by
  fun_cases execEndOfHold <;> simp only [↓answers_next, ↓answers_atTick]

@[simp] theorem execDecayEnd_answers (n : Fin 8) (i : Nat) (s : State) : Answers (execDecayEnd n i s) := by
  fun_cases execDecayEnd <;> exact answers_next _

@[simp] theorem execMowaitEnd_answers (n : Fin 8) (s : State) : Answers (execMowaitEnd n s) := by
  fun_cases execMowaitEnd <;> simp only [↓answers_next, ↓answers_atTick]

@[simp] theorem execSideChangeoverEnd_answers (b : Fin 2) (s : State) : Answers (execSideChangeoverEnd b s) := by
  fun_cases execSideChangeoverEnd <;> simp only [↓answers_next, ↓answers_atTick]

@[simp] theorem execValveOpen_answers (n : Fin 8) (i : Nat) (s : State) : Answers (execValveOpen n i s) := by
  fun_cases execValveOpen <;> simp only [↓answers_next, ↓answers_atTick]

@[simp] theorem execValveShort_answers (n : Fin 8) (i : Nat) (s : State) : Answers (execValveShort n i s) := by
  fun_cases execValveShort <;> exact answers_next _

@[simp] theorem execPktime_answers (n : Fin 8) (s : State) : Answers (execPktime n s) := by
  fun_cases execPktime <;> simp only [↓answers_next, ↓answers_atTick]

@[simp] theorem execValveCeil_answers (n : Fin 8) (i : Nat) (s : State) : Answers (execValveCeil n i s) := by
  fun_cases execValveCeil <;> exact answers_next _

@[simp] theorem execVlClr_answers (n : Fin 8) (s : State) : Answers (execVlClr n s) := by
  fun_cases execVlClr <;> exact answers_next _

@[simp] theorem execSideLatch_answers (b : Fin 2) (i : Nat) (s : State) : Answers (execSideLatch b i s) := by
  fun_cases execSideLatch <;> exact answers_next _

@[simp] theorem execClra_answers (s : State) : Answers (execClra s) := by
  fun_cases execClra <;> exact answers_next _

@[simp] theorem execClrb_answers (s : State) : Answers (execClrb s) := by
  fun_cases execClrb <;> exact answers_next _

@[simp] theorem execBclr_answers (s : State) : Answers (execBclr s) := by
  fun_cases execBclr <;> exact answers_next _

@[simp] theorem execBoostReady_answers (v : Nat) (s : State) : Answers (execBoostReady v s) := by
  fun_cases execBoostReady <;> exact answers_next _

@[simp] theorem execBoostReadyLost_answers (v : Nat) (s : State) : Answers (execBoostReadyLost v s) := by
  fun_cases execBoostReadyLost <;> exact answers_next _

@[simp] theorem execBovp_answers (v : Nat) (s : State) : Answers (execBovp v s) := by
  fun_cases execBovp <;> exact answers_next _

@[simp] theorem execBuvto_answers (s : State) : Answers (execBuvto s) := by
  fun_cases execBuvto <;> simp only [↓answers_next, ↓answers_atTick]

@[simp] theorem execSideLimpTimeout_answers (b : Fin 2) (s : State) : Answers (execSideLimpTimeout b s) := by
  fun_cases execSideLimpTimeout <;> simp only [↓answers_next, ↓answers_atKa]

/-! ## The commands of Machine/Fabric -/

@[simp] theorem execClauseTrigger_answers (subj : BitVec 11) (i : Int) (s : State) : Answers (execClauseTrigger subj i s) := by
  fun_cases execClauseTrigger <;> exact answers_next _

@[simp] theorem execClauseDurationEnd_answers (c : Fin 512) (s : State) : Answers (execClauseDurationEnd c s) := by
  fun_cases execClauseDurationEnd <;> simp only [↓answers_next, ↓answers_atTick]

@[simp] theorem execRelease_answers (c : Fin 512) (s : State) : Answers (execRelease c s) := by
  fun_cases execRelease <;> exact answers_next _

@[simp] theorem execFire_answers (c : Fin 512) (s : State) : Answers (execFire c s) := by
  fun_cases execFire <;> exact answers_next _

@[simp] theorem execClauseBroken_answers (c : Fin 512) (s : State) : Answers (execClauseBroken c s) := by
  fun_cases execClauseBroken <;> exact answers_next _

@[simp] theorem execLaneParityError_answers (x : Fin 70) (s : State) : Answers (execLaneParityError x s) := by
  fun_cases execLaneParityError <;> exact answers_next _

@[simp] theorem execLinkRefresh_answers (t : Fin 64) (s : State) : Answers (execLinkRefresh t s) := by
  fun_cases execLinkRefresh <;> simp only [↓answers_next, ↓answers_atTick]

@[simp] theorem execReflexFrameReceived_answers (p : Fin 2) (t : Fin 64) (v : Bool) (src : BitVec 32)
    (seq : BitVec 16) (hop : BitVec 16) (s : State) :
    Answers (execReflexFrameReceived p t v src seq hop s) := by
  fun_cases execReflexFrameReceived <;> exact answers_next _

@[simp] theorem execLinkSlotTimeout_answers (t : Fin 64) (s : State) : Answers (execLinkSlotTimeout t s) := by
  fun_cases execLinkSlotTimeout <;> simp only [↓answers_next, ↓answers_atTick]

/-! ## The commands of Machine/Light -/

@[simp] theorem execMatrixSlotStart_answers (high drop : BitVec 16) (s : State) : Answers (execMatrixSlotStart high drop s) := by
  fun_cases execMatrixSlotStart <;> simp only [↓answers_next, ↓answers_atTick]

@[simp] theorem execDeratingReading_answers (t : Int) (s : State) : Answers (execDeratingReading t s) := by
  fun_cases execDeratingReading <;> simp only [↓answers_next, ↓answers_atTick]

@[simp] theorem execMxClr_answers (s : State) : Answers (execMxClr s) := by
  fun_cases execMxClr <;> exact answers_next _

@[simp] theorem execShrowg_answers (r : Fin 16) (i : Nat) (s : State) : Answers (execShrowg r i s) := by
  fun_cases execShrowg <;> exact answers_next _

@[simp] theorem execPxcFrameStart_answers (s : State) : Answers (execPxcFrameStart s) := by
  fun_cases execPxcFrameStart <;> simp only [↓answers_next, ↓answers_atTick]

@[simp] theorem execPxcLatch_answers (di : Nat) (s : State) : Answers (execPxcLatch di s) := by
  fun_cases execPxcLatch <;> simp only [↓answers_next, ↓answers_atTick]

@[simp] theorem execSwap_answers (src : Fin 4) (s : State) : Answers (execSwap src s) := by
  fun_cases execSwap <;> exact answers_next _

@[simp] theorem execCancelSwap_answers (s : State) : Answers (execCancelSwap s) := by
  fun_cases execCancelSwap <;> exact answers_next _

@[simp] theorem execSwapTrigger_answers (src : SwapEdge) (s : State) : Answers (execSwapTrigger src s) := by
  fun_cases execSwapTrigger <;> simp only [↓answers_next, ↓answers_atTick]

@[simp] theorem execAmbientLoopIteration_answers (g : Fin 4) (s : State) : Answers (execAmbientLoopIteration g s) := by
  fun_cases execAmbientLoopIteration <;> simp only [↓answers_next, ↓answers_atTick]

@[simp] theorem execSensorReadComplete_answers (g : Fin 4) (r : SensorEnd) (s : State) :
    Answers (execSensorReadComplete g r s) := by
  fun_cases execSensorReadComplete <;> simp only [↓answers_next, ↓answers_atTick]

@[simp] theorem execAmbClr_answers (g : Fin 4) (s : State) : Answers (execAmbClr g s) := by
  fun_cases execAmbClr <;> exact answers_next _

/-! ## The commands of Machine/Supply -/

@[simp] theorem execUndervoltageEntry_answers (die : Die) (s : State) : Answers (execUndervoltageEntry die s) := by
  fun_cases execUndervoltageEntry <;> exact answers_next _

@[simp] theorem execUndervoltageExit_answers (die : Die) (s : State) : Answers (execUndervoltageExit die s) := by
  fun_cases execUndervoltageExit <;> simp only [↓answers_next, ↓answers_atTick]

@[simp] theorem execLoadDumpEntry_answers (die : Die) (s : State) : Answers (execLoadDumpEntry die s) := by
  fun_cases execLoadDumpEntry <;> exact answers_next _

@[simp] theorem execLoadDumpExit_answers (die : Die) (s : State) : Answers (execLoadDumpExit die s) := by
  fun_cases execLoadDumpExit <;> simp only [↓answers_next, ↓answers_atTick]

@[simp] theorem execGroundLoss_answers (die : Die) (s : State) : Answers (execGroundLoss die s) := by
  fun_cases execGroundLoss <;> exact answers_next _

@[simp] theorem execGroundRestored_answers (die : Die) (s : State) : Answers (execGroundRestored die s) := by
  fun_cases execGroundRestored <;> simp only [↓answers_next, ↓answers_atTick]

@[simp] theorem execReverseBattery_answers (s : State) : Answers (execReverseBattery s) := answers_next _

@[simp] theorem execReverseBatteryEnd_answers (s : State) : Answers (execReverseBatteryEnd s) := by
  fun_cases execReverseBatteryEnd <;> exact answers_next _

@[simp] theorem execJunctionShutdown_answers (o : HotSpot) (s : State) : Answers (execJunctionShutdown o s) := by
  fun_cases execJunctionShutdown <;> exact answers_next _

@[simp] theorem execJunctionShutdownExit_answers (o : HotSpot) (s : State) : Answers (execJunctionShutdownExit o s) := by
  fun_cases execJunctionShutdownExit <;> exact answers_next _

@[simp] theorem execSenseConversion_answers (u : SenseUnit) (s : State) : Answers (execSenseConversion u s) := by
  fun_cases execSenseConversion <;> simp only [↓answers_next, ↓answers_atTick]

@[simp] theorem execCrossTestEdge_answers (b : Fin 48) (a : XSwitch) (rising : Bool) (s : State) :
    Answers (execCrossTestEdge b a rising s) := by
  fun_cases execCrossTestEdge <;> exact answers_next _

@[simp] theorem execPwmPeriodEdge_answers (o : PwmOut) (s : State) : Answers (execPwmPeriodEdge o s) := by
  fun_cases execPwmPeriodEdge <;> simp only [↓answers_next, ↓answers_atTick, ↓answers_vlChop]

@[simp] theorem execLiveOutputWrite_answers (w : Writer) (o : OutReg) (d : BitVec 32) (s : State) :
    Answers (execLiveOutputWrite w o d s) := by
  fun_cases execLiveOutputWrite <;> exact answers_next _

/-! ## The commands of Machine/TimeBase -/

@[simp] theorem execTbcCtrlWrite_answers (n : Fin 8) (intv : BitVec 24) (arm : Bool) (s : State) :
    Answers (execTbcCtrlWrite n intv arm s) := by
  fun_cases execTbcCtrlWrite <;> exact answers_next _

@[simp] theorem execTbcFire_answers (n : Fin 8) (s : State) : Answers (execTbcFire n s) := by
  fun_cases execTbcFire <;> simp only [↓answers_next, ↓answers_atTick]

@[simp] theorem execCapture_answers (m : Fin 4) (src : CapSrc) (s : State) : Answers (execCapture m src s) := by
  fun_cases execCapture <;> exact answers_next _

@[simp] theorem execSyncRoleWrite_answers (role : BitVec 2) (s : State) : Answers (execSyncRoleWrite role s) := by
  fun_cases execSyncRoleWrite <;> exact answers_next _

@[simp] theorem execSyncMessage_answers (m : SyncMsg) (s : State) : Answers (execSyncMessage m s) := by
  fun_cases execSyncMessage <;> exact answers_next _

@[simp] theorem execSyncMissed_answers (s : State) : Answers (execSyncMissed s) := by
  fun_cases execSyncMissed <;> simp only [↓answers_next, ↓answers_atTick]

@[simp] theorem execHoldoverTimeout_answers (s : State) : Answers (execHoldoverTimeout s) := by
  fun_cases execHoldoverTimeout <;> simp only [↓answers_next, ↓answers_atTick]

@[simp] theorem execDeferredTbStep_answers (s : State) : Answers (execDeferredTbStep s) := by
  fun_cases execDeferredTbStep <;> exact answers_next _

/-! ## The commands of Machine/Reset -/

@[simp] theorem execReclaim_answers (j : Fin 3) (d : Word) (s : State) : Answers (execReclaim j d s) := by
  fun_cases execReclaim <;> exact answers_next _

@[simp] theorem execReclaimall_answers (s : State) : Answers (execReclaimall s) := by
  fun_cases execReclaimall <;> exact answers_next _

@[simp] theorem execHoldExpiry_answers (s : State) : Answers (execHoldExpiry s) := by
  fun_cases execHoldExpiry <;> simp only [↓answers_next, ↓answers_atKa]

@[simp] theorem execBrst_answers (pg : BitVec 12) (s : State) : Answers (execBrst pg s) := by
  fun_cases execBrst <;> exact answers_next _

@[simp] theorem execChiprst_answers (key : Byte) (s : State) : Answers (execChiprst key s) := by
  fun_cases execChiprst <;> exact answers_next _

/-! ## The commands of Machine/Fault -/

@[simp] theorem execSourceRaise_answers (l : List (BitVec 8)) (s : State) : Answers (execSourceRaise l s) := answers_next _

@[simp] theorem execDieTempMeasure_answers (t : Int) (s : State) : Answers (execDieTempMeasure t s) := answers_atKa ..

@[simp] theorem execRaisedClear_answers (j : Fin 8) (d : Word) (s : State) : Answers (execRaisedClear j d s) := by
  fun_cases execRaisedClear <;> exact answers_next _

@[simp] theorem execSafenLow_answers (s : State) : Answers (execSafenLow s) := by
  fun_cases execSafenLow <;> exact answers_next _

@[simp] theorem execSafenHigh_answers (s : State) : Answers (execSafenHigh s) := by
  fun_cases execSafenHigh <;> exact answers_next _

@[simp] theorem execLeave_answers (s : State) : Answers (execLeave s) := by
  fun_cases execLeave <;> exact answers_next _

@[simp] theorem execArun_answers (s : State) : Answers (execArun s) := by
  fun_cases execArun <;> exact answers_next _

@[simp] theorem execEnter_answers (s : State) : Answers (execEnter s) := by
  fun_cases execEnter <;> exact answers_next _

@[simp] theorem execLogclr_answers (s : State) : Answers (execLogclr s) := by
  fun_cases execLogclr <;> exact answers_next _

@[simp] theorem execTkpair_answers (arg : Byte) (s : State) : Answers (execTkpair arg s) := by
  fun_cases execTkpair <;> exact answers_next _

@[simp] theorem execTkcore_answers (arg : Byte) (s : State) : Answers (execTkcore arg s) := by
  fun_cases execTkcore <;> exact answers_next _

@[simp] theorem execSelfCheckDiscrepancy_answers (w : Fin 257) (flip : Word) (s : State) :
    Answers (execSelfCheckDiscrepancy w flip s) := by
  fun_cases execSelfCheckDiscrepancy <;> simp only [↓answers_next, ↓answers_atKa]

@[simp] theorem execAliveHalfPeriod_answers (s : State) : Answers (execAliveHalfPeriod s) := answers_atKa ..

/-! ## The commands of Machine/Clock -/

@[simp] theorem execClockLoss_answers (i : Fin 17) (s : State) : Answers (execClockLoss i s) := by
  fun_cases execClockLoss <;> exact answers_next _

@[simp] theorem execSupplyFault_answers (u : SupplyLoss) (s : State) : Answers (execSupplyFault u s) := by
  fun_cases execSupplyFault <;> simp only [↓answers_next, execClockLoss_answers]

@[simp] theorem execCrystalFailure_answers (s : State) : Answers (execCrystalFailure s) := by
  fun_cases execCrystalFailure <;> exact answers_next _

@[simp] theorem execPllUnlock_answers (i : Fin 17) (s : State) : Answers (execPllUnlock i s) := by
  fun_cases execPllUnlock <;> exact answers_next _

@[simp] theorem execIslandPllLock_answers (i : Fin 17) (s : State) : Answers (execIslandPllLock i s) := by
  fun_cases execIslandPllLock <;> exact answers_next _

/-! ## The commands of Machine/Update -/

@[simp] theorem execUpdOpen_answers (r : Option RomOpen) (s : State) : Answers (execUpdOpen r s) := by
  fun_cases execUpdOpen <;> simp only [↓answers_updCmd]

@[simp] theorem execPiece_answers (r : Option (Bool × List Byte)) (s : State) : Answers (execPiece r s) := by
  fun_cases execPiece <;> simp only [↓answers_updCmd]

@[simp] theorem execPieceStored_answers (s : State) : Answers (execPieceStored s) := by
  fun_cases execPieceStored <;> exact answers_next _

@[simp] theorem execVerify_answers (r : Option Bool) (s : State) : Answers (execVerify r s) := answers_updCmd ..

@[simp] theorem execVerifyEnd_answers (s : State) : Answers (execVerifyEnd s) := by
  fun_cases execVerifyEnd <;> exact answers_next _

@[simp] theorem execActivate_answers (r : Option (Bool × Byte)) (s : State) : Answers (execActivate r s) := by
  fun_cases execActivate <;> simp only [↓answers_updCmd]

@[simp] theorem execConfirm_answers (s : State) : Answers (execConfirm s) := answers_updCmd ..

@[simp] theorem execAbandon_answers (s : State) : Answers (execAbandon s) := answers_updCmd ..

@[simp] theorem execHello_answers (eth : Bool) (s : State) : Answers (execHello eth s) := answers_updCmd ..

@[simp] theorem execReset_answers (eth : Bool) (s : State) : Answers (execReset eth s) := answers_updCmd ..

/-! ## The commands of Machine/Power -/

@[simp] theorem execDoze_answers (s : State) : Answers (execDoze s) := by
  fun_cases execDoze <;> exact answers_next _

@[simp] theorem execRun_answers (s : State) : Answers (execRun s) := by
  fun_cases execRun <;> exact answers_next _

@[simp] theorem execRtcAlarm_answers (s : State) : Answers (execRtcAlarm s) := by
  fun_cases execRtcAlarm <;> simp only [↓answers_next, ↓answers_atKa]

@[simp] theorem execX32CrystalFailure_answers (s : State) : Answers (execX32CrystalFailure s) := by
  fun_cases execX32CrystalFailure <;> exact answers_next _

@[simp] theorem execParkEntry_answers (s : State) : Answers (execParkEntry s) := by
  fun_cases execParkEntry <;> exact answers_next _

@[simp] theorem execParkWake_answers (bus : Option NetBus) (rtc : BitVec 48) (safen : Bool) (s : State) :
    Answers (execParkWake bus rtc safen s) := by
  fun_cases execParkWake <;> exact answers_next _

@[simp] theorem execPowerOnReset_answers (vlsel recov : Bool) (s : State) : Answers (execPowerOnReset vlsel recov s) :=
  answers_next _

@[simp] theorem execChipReset_answers (p : ResetPins) (s : State) : Answers (execChipReset p s) := by
  fun_cases execChipReset <;> exact answers_next _

@[simp] theorem execBoot_answers (b : BootIn) (s : State) : Answers (execBoot b s) := by
  fun_cases execBoot <;> exact answers_next _

/-! ## The commands of Machine/Fix -/

@[simp] theorem execCheck_answers (s : State) : Answers (execCheck s) := answers_next _

@[simp] theorem execCheckComplete_answers (s : State) : Answers (execCheckComplete s) := by
  fun_cases execCheckComplete <;> exact answers_next _

@[simp] theorem execFix_answers (s : State) : Answers (execFix s) := answers_next _

@[simp] theorem execAbort_answers (s : State) : Answers (execAbort s) := answers_next _

@[simp] theorem execFixApply_answers (s : State) : Answers (execFixApply s) := by
  fun_cases execFixApply <;> simp only [↓answers_next, ↓answers_atTick]

@[simp] theorem execFixComplete_answers (s : State) : Answers (execFixComplete s) := by
  fun_cases execFixComplete <;> exact answers_next _

@[simp] theorem execFixbReceived_answers (tag : BitVec 16) (t : BitVec 64) (s : State) : Answers (execFixbReceived tag t s) := by
  fun_cases execFixbReceived <;> exact answers_next _

@[simp] theorem execFixaReceived_answers (tag : BitVec 16) (id : BitVec 32) (armed : Bool) (s : State) :
    Answers (execFixaReceived tag id armed s) := by
  fun_cases execFixaReceived <;> exact answers_next _

/-! ## The commands of Machine/Access -/

@[simp] theorem execSketchWrite_answers (w : Writer) (pg off : BitVec 12) (d : Word) (s : State) :
    Answers (execSketchWrite w pg off d s) := answers_next _

@[simp] theorem execCclr_answers (pg : BitVec 12) (s : State) : Answers (execCclr pg s) := by
  fun_cases execCclr <;> exact answers_next _

@[simp] theorem execPgLockWrite_answers (pg : BitVec 12) (key : Byte) (tree lk : Bool) (s : State) :
    Answers (execPgLockWrite pg key tree lk s) := by
  fun_cases execPgLockWrite <;> exact answers_next _

@[simp] theorem execRegisterWrite_answers (w : Writer) (pg off : BitVec 12) (d : Word) (s : State) :
    Answers (execRegisterWrite w pg off d s) := answers_next _

@[simp] theorem execLfWrite_answers (w : Writer) (off : BitVec 12) (d : Word) (s : State) : Answers (execLfWrite w off d s) :=
  answers_next _

/-! ## The commands of Machine/Compare -/

@[simp] theorem execCmp_answers (lc : Fin 16) (gs : Bool) (gp : Fin 8) (pd : Fin 8) (cond : Fin 14) (ra rb : Fin 32) (s : State) :
    Answers (execCmp lc gs gp pd cond ra rb s) := answers_simple ..

@[simp] theorem execCmpi_answers (lc : Fin 16) (gs : Bool) (gp : Fin 8) (pd : Fin 8) (cond : Fin 14) (ra : Fin 32)
    (imm : BitVec 10) (s : State) :
    Answers (execCmpi lc gs gp pd cond ra imm s) := answers_simple ..

@[simp] theorem execPred_answers (lc : Fin 16) (gs : Bool) (gp : Fin 8) (pd pa pb : Fin 8) (op : Fin 7) (s : State) :
    Answers (execPred lc gs gp pd pa pb op s) := answers_simple ..

@[simp] theorem execSel_answers (lc : Fin 16) (gs : Bool) (gp : Fin 8) (rd ra rb : Fin 32) (ps : Fin 8) (s : State) :
    Answers (execSel lc gs gp rd ra rb ps s) := answers_issue ..

/-! ## The commands of Machine/Control -/

@[simp] theorem execBr_answers (lc : Fin 16) (gs : Bool) (gp : Fin 8) (off : BitVec 22) (s : State) :
    Answers (execBr lc gs gp off s) := answers_issue ..

@[simp] theorem execCall_answers (lc : Fin 16) (gs : Bool) (gp : Fin 8) (off : BitVec 22) (s : State) :
    Answers (execCall lc gs gp off s) := answers_issue ..

@[simp] theorem execJmp_answers (lc : Fin 16) (gs : Bool) (gp : Fin 8) (rd ra : Fin 32) (imm : BitVec 12) (s : State) :
    Answers (execJmp lc gs gp rd ra imm s) := answers_issue ..

@[simp] theorem execNop_answers (lc : Fin 16) (s : State) : Answers (execNop lc s) := answers_hint ..

@[simp] theorem execYield_answers (lc : Fin 16) (s : State) : Answers (execYield lc s) := answers_hint ..

@[simp] theorem execIllegalInstruction_answers (lc : Fin 16) (w : Word) (s : State) :
    Answers (execIllegalInstruction lc w s) := by
  fun_cases execIllegalInstruction <;> simp only [↓answers_next, ↓answers_issue]

/-! ## The commands of Machine/Debug -/

@[simp] theorem execDebugHalt_answers (lc : Fin 16) (s : State) : Answers (execDebugHalt lc s) := by
  fun_cases execDebugHalt <;> exact answers_next _

@[simp] theorem execDebugWrite_answers (lc : Fin 16) (t : DbgTarget) (d : Word) (s : State) :
    Answers (execDebugWrite lc t d s) := by
  fun_cases execDebugWrite <;> exact answers_next _

@[simp] theorem execDebugResume_answers (lc : Fin 16) (s : State) : Answers (execDebugResume lc s) := by
  fun_cases execDebugResume <;> exact answers_next _

/-! ## The commands of Machine/Integer -/

@[simp] theorem execAdd_answers (lc : Fin 16) (gs : Bool) (gp : Fin 8) (rd ra rb : Fin 32) (s : State) :
    Answers (execAdd lc gs gp rd ra rb s) := answers_alu ..

@[simp] theorem execSub_answers (lc : Fin 16) (gs : Bool) (gp : Fin 8) (rd ra rb : Fin 32) (s : State) :
    Answers (execSub lc gs gp rd ra rb s) := answers_alu ..

@[simp] theorem execAndR_answers (lc : Fin 16) (gs : Bool) (gp : Fin 8) (rd ra rb : Fin 32) (s : State) :
    Answers (execAndR lc gs gp rd ra rb s) := answers_alu ..

@[simp] theorem execOrR_answers (lc : Fin 16) (gs : Bool) (gp : Fin 8) (rd ra rb : Fin 32) (s : State) :
    Answers (execOrR lc gs gp rd ra rb s) := answers_alu ..

@[simp] theorem execXorR_answers (lc : Fin 16) (gs : Bool) (gp : Fin 8) (rd ra rb : Fin 32) (s : State) :
    Answers (execXorR lc gs gp rd ra rb s) := answers_alu ..

@[simp] theorem execAndn_answers (lc : Fin 16) (gs : Bool) (gp : Fin 8) (rd ra rb : Fin 32) (s : State) :
    Answers (execAndn lc gs gp rd ra rb s) := answers_alu ..

@[simp] theorem execNeg_answers (lc : Fin 16) (gs : Bool) (gp : Fin 8) (rd ra : Fin 32) (s : State) :
    Answers (execNeg lc gs gp rd ra s) := answers_alu ..

@[simp] theorem execShl_answers (lc : Fin 16) (gs : Bool) (gp : Fin 8) (rd ra rb : Fin 32) (s : State) :
    Answers (execShl lc gs gp rd ra rb s) := answers_alu ..

@[simp] theorem execShr_answers (lc : Fin 16) (gs : Bool) (gp : Fin 8) (rd ra rb : Fin 32) (s : State) :
    Answers (execShr lc gs gp rd ra rb s) := answers_alu ..

@[simp] theorem execSar_answers (lc : Fin 16) (gs : Bool) (gp : Fin 8) (rd ra rb : Fin 32) (s : State) :
    Answers (execSar lc gs gp rd ra rb s) := answers_alu ..

@[simp] theorem execRol_answers (lc : Fin 16) (gs : Bool) (gp : Fin 8) (rd ra rb : Fin 32) (s : State) :
    Answers (execRol lc gs gp rd ra rb s) := answers_alu ..

@[simp] theorem execRor_answers (lc : Fin 16) (gs : Bool) (gp : Fin 8) (rd ra rb : Fin 32) (s : State) :
    Answers (execRor lc gs gp rd ra rb s) := answers_alu ..

@[simp] theorem execMul_answers (lc : Fin 16) (gs : Bool) (gp : Fin 8) (rd ra rb : Fin 32) (s : State) :
    Answers (execMul lc gs gp rd ra rb s) := answers_alu ..

@[simp] theorem execMulh_answers (lc : Fin 16) (gs : Bool) (gp : Fin 8) (rd ra rb : Fin 32) (s : State) :
    Answers (execMulh lc gs gp rd ra rb s) := answers_alu ..

@[simp] theorem execMulhu_answers (lc : Fin 16) (gs : Bool) (gp : Fin 8) (rd ra rb : Fin 32) (s : State) :
    Answers (execMulhu lc gs gp rd ra rb s) := answers_alu ..

@[simp] theorem execDiv_answers (lc : Fin 16) (gs : Bool) (gp : Fin 8) (rd ra rb : Fin 32) (s : State) :
    Answers (execDiv lc gs gp rd ra rb s) := answers_division ..

@[simp] theorem execDivu_answers (lc : Fin 16) (gs : Bool) (gp : Fin 8) (rd ra rb : Fin 32) (s : State) :
    Answers (execDivu lc gs gp rd ra rb s) := answers_division ..

@[simp] theorem execRem_answers (lc : Fin 16) (gs : Bool) (gp : Fin 8) (rd ra rb : Fin 32) (s : State) :
    Answers (execRem lc gs gp rd ra rb s) := answers_division ..

@[simp] theorem execRemu_answers (lc : Fin 16) (gs : Bool) (gp : Fin 8) (rd ra rb : Fin 32) (s : State) :
    Answers (execRemu lc gs gp rd ra rb s) := answers_division ..

@[simp] theorem execMinS_answers (lc : Fin 16) (gs : Bool) (gp : Fin 8) (rd ra rb : Fin 32) (s : State) :
    Answers (execMinS lc gs gp rd ra rb s) := answers_alu ..

@[simp] theorem execMaxS_answers (lc : Fin 16) (gs : Bool) (gp : Fin 8) (rd ra rb : Fin 32) (s : State) :
    Answers (execMaxS lc gs gp rd ra rb s) := answers_alu ..

@[simp] theorem execMinu_answers (lc : Fin 16) (gs : Bool) (gp : Fin 8) (rd ra rb : Fin 32) (s : State) :
    Answers (execMinu lc gs gp rd ra rb s) := answers_alu ..

@[simp] theorem execMaxu_answers (lc : Fin 16) (gs : Bool) (gp : Fin 8) (rd ra rb : Fin 32) (s : State) :
    Answers (execMaxu lc gs gp rd ra rb s) := answers_alu ..

@[simp] theorem execClz_answers (lc : Fin 16) (gs : Bool) (gp : Fin 8) (rd ra : Fin 32) (s : State) :
    Answers (execClz lc gs gp rd ra s) := answers_alu ..

@[simp] theorem execPopc_answers (lc : Fin 16) (gs : Bool) (gp : Fin 8) (rd ra : Fin 32) (s : State) :
    Answers (execPopc lc gs gp rd ra s) := answers_alu ..

@[simp] theorem execAddi_answers (lc : Fin 16) (gs : Bool) (gp : Fin 8) (rd ra : Fin 32) (imm : BitVec 12) (s : State) :
    Answers (execAddi lc gs gp rd ra imm s) := answers_aluImm ..

@[simp] theorem execAndi_answers (lc : Fin 16) (gs : Bool) (gp : Fin 8) (rd ra : Fin 32) (imm : BitVec 12) (s : State) :
    Answers (execAndi lc gs gp rd ra imm s) := answers_aluImm ..

@[simp] theorem execOri_answers (lc : Fin 16) (gs : Bool) (gp : Fin 8) (rd ra : Fin 32) (imm : BitVec 12) (s : State) :
    Answers (execOri lc gs gp rd ra imm s) := answers_aluImm ..

@[simp] theorem execXori_answers (lc : Fin 16) (gs : Bool) (gp : Fin 8) (rd ra : Fin 32) (imm : BitVec 12) (s : State) :
    Answers (execXori lc gs gp rd ra imm s) := answers_aluImm ..

@[simp] theorem execShi_answers (lc : Fin 16) (gs : Bool) (gp : Fin 8) (rd ra : Fin 32) (op : Fin 5) (sh : Byte) (s : State) :
    Answers (execShi lc gs gp rd ra op sh s) := answers_aluImm ..

@[simp] theorem execMovw_answers (lc : Fin 16) (gs : Bool) (gp : Fin 8) (rd : Fin 32) (h : Bool) (imm : BitVec 16) (s : State) :
    Answers (execMovw lc gs gp rd h imm s) := answers_simple ..

/-! ## The commands of Machine/LoadStore -/

@[simp] theorem execLd_answers (lc : Fin 16) (gs : Bool) (gp : Fin 8) (r ra : Fin 32) (w : Fin 5) (off : BitVec 9)
    (nsym : Nat) (s : State) :
    Answers (execLd lc gs gp r ra w off nsym s) := answers_issue ..

@[simp] theorem execSt_answers (lc : Fin 16) (gs : Bool) (gp : Fin 8) (r ra : Fin 32) (w : Fin 3) (off : BitVec 9) (s : State) :
    Answers (execSt lc gs gp r ra w off s) := by
  unfold execSt
  exact answers_issue ..

@[simp] theorem execAccessComplete_answers (a : AccRef) (nsym : Nat) (s : State) : Answers (execAccessComplete a nsym s) := by
  unfold execAccessComplete
  extract_lets u
  split
  · split
    · exact answers_next _
    · exact answers_ite (answers_next _) (answers_ite (answers_next _) (answers_next _))
  · extract_lets k
    split
    · exact answers_ite (answers_next _) (answers_next _)
    · exact answers_next _

@[simp] theorem execPoisonUse_answers (lc : Fin 16) (r : Fin 32) (s : State) : Answers (execPoisonUse lc r s) := answers_issue ..

/-! ## The commands of Machine/Strings -/

@[simp] theorem execMovs_answers (lc : Fin 16) (gs : Bool) (gp : Fin 8) (rd rs rc : Fin 32) (sz : Fin 3)
    (nsym : Nat) (s : State) :
    Answers (execMovs lc gs gp rd rs rc sz nsym s) := answers_string ..

@[simp] theorem execFills_answers (lc : Fin 16) (gs : Bool) (gp : Fin 8) (rd rs rc : Fin 32) (sz : Fin 3) (s : State) :
    Answers (execFills lc gs gp rd rs rc sz s) := answers_string ..

@[simp] theorem execCmps_answers (lc : Fin 16) (gs : Bool) (gp : Fin 8) (rd rs rc : Fin 32) (sz : Fin 3)
    (pd : Fin 8) (nsym : Nat) (s : State) :
    Answers (execCmps lc gs gp rd rs rc sz pd nsym s) := answers_string ..

@[simp] theorem execScans_answers (lc : Fin 16) (gs : Bool) (gp : Fin 8) (rd rs rc : Fin 32) (sz : Fin 3)
    (pd : Fin 8) (nsym : Nat) (s : State) :
    Answers (execScans lc gs gp rd rs rc sz pd nsym s) := answers_string ..

@[simp] theorem execCrcs_answers (lc : Fin 16) (gs : Bool) (gp : Fin 8) (rd rs rc : Fin 32) (sz : Fin 3)
    (nsym : Nat) (s : State) :
    Answers (execCrcs lc gs gp rd rs rc sz nsym s) := answers_string ..

@[simp] theorem execRpt_answers (lc : Fin 16) (gs : Bool) (gp : Fin 8) (w : Word) (n nsym : Nat) (s : State) :
    Answers (execRpt lc gs gp w n nsym s) := answers_issue ..

/-! ## The commands of Machine/System -/

@[simp] theorem execFence_answers (lc : Fin 16) (gs : Bool) (gp : Fin 8) (s : State) : Answers (execFence lc gs gp s) := by
  fun_cases execFence <;> simp only [↓answers_issue, ↓answers_hint]

@[simp] theorem execRtt_answers (lc : Fin 16) (gs : Bool) (gp : Fin 8) (s : State) : Answers (execRtt lc gs gp s) :=
  answers_issue ..

@[simp] theorem execRttN_answers (lc : Fin 16) (gs : Bool) (gp : Fin 8) (s : State) : Answers (execRttN lc gs gp s) :=
  answers_issue ..

@[simp] theorem execRtn_answers (lc : Fin 16) (gs : Bool) (gp : Fin 8) (s : State) : Answers (execRtn lc gs gp s) :=
  answers_issue ..

@[simp] theorem execTrap_answers (lc : Fin 16) (gs : Bool) (gp : Fin 8) (code : BitVec 16) (s : State) :
    Answers (execTrap lc gs gp code s) := answers_issue ..

@[simp] theorem execRdtb_answers (lc : Fin 16) (gs : Bool) (gp : Fin 8) (rt : Fin 32) (s : State) :
    Answers (execRdtb lc gs gp rt s) := answers_issue ..

@[simp] theorem execMfs_answers (lc : Fin 16) (gs : Bool) (gp : Fin 8) (rd sr : Fin 32) (s : State) :
    Answers (execMfs lc gs gp rd sr s) := answers_issue ..

@[simp] theorem execMts_answers (lc : Fin 16) (gs : Bool) (gp : Fin 8) (ra sr : Fin 32) (s : State) :
    Answers (execMts lc gs gp ra sr s) := answers_issue ..

/-! ## The commands of Machine/Waits -/

@[simp] theorem execSendEv_answers (lc : Fin 16) (gs : Bool) (gp : Fin 8) (n : EvSrc) (s : State) :
    Answers (execSendEv lc gs gp n s) := answers_issue ..

@[simp] theorem execWaitEv_answers (lc : Fin 16) (gs : Bool) (gp : Fin 8) (pd : Fin 8) (rt : Option (Fin 32))
    (n : EvSrc) (s : State) :
    Answers (execWaitEv lc gs gp pd rt n s) := by
  fun_cases execWaitEv
  exact answers_issue ..

@[simp] theorem execWaitT_answers (lc : Fin 16) (gs : Bool) (gp : Fin 8) (rt : Fin 32) (s : State) :
    Answers (execWaitT lc gs gp rt s) := answers_issue ..

@[simp] theorem execEventPostingArrival_answers (lc : Fin 16) (ev : BitVec 10) (s : State) :
    Answers (execEventPostingArrival lc ev s) := answers_next _

/-! ## The commands of Machine/Window -/

@[simp] theorem execLfWriteApply_answers (s : State) : Answers (execLfWriteApply s) := by
  fun_cases execLfWriteApply <;> exact answers_next _

@[simp] theorem execPgrspReceived_answers (id : Nat) (d : Word) (s : State) : Answers (execPgrspReceived id d s) := by
  fun_cases execPgrspReceived <;> exact answers_next _

@[simp] theorem execWindowTimeout_answers (id : Nat) (s : State) : Answers (execWindowTimeout id s) := by
  fun_cases execWindowTimeout <;> simp only [↓answers_next, ↓answers_atTick]

@[simp] theorem execClockReturn_answers (i : Fin 17) (s : State) : Answers (execClockReturn i s) := by
  fun_cases execClockReturn <;> exact answers_next _

@[simp] theorem execPgreqReceived_answers (q : PgReq) (s : State) : Answers (execPgreqReceived q s) := by
  fun_cases execPgreqReceived <;> exact answers_next _


/-! ## Every command -/

theorem exec_answers (c : Instr) (s : State) : Answers (exec c s) := by
  fun_cases exec c s <;> simp

/-- Settles O3: each arm of `exec` is a meaning that answers. -/
theorem everyCommandAnswers : Obligations.EveryCommandAnswers := exec_answers

end Sys2Proof.Machine
end

section
/-! The FIX page: what its state and its results show after CHECK, FIX and ABORT (R74-R82), and the frames a device floods (R410). -/

namespace Sys2Proof.Machine

/-! ## The state and the result of FIX -/

theorem State.fixGo_fixSt (s : State) {st : Nat} (res : Nat) (h : st < 8) : (s.fixGo st res).fixSt = st :=
  (State.fld_setFld_apart _ fixPg res (by simp)).trans (State.fld_setFld_fits s fixPg R.FIX.STATE.ST st (by decide) (by decide) h)

theorem State.fixGo_result (s : State) (st : Nat) {res : Nat} (h : res < 256) :
    (s.fixGo st res).fld fixPg R.FIX.STATE.RESULT = res :=
  State.fld_setFld_fits _ fixPg R.FIX.STATE.RESULT res (by decide) (by decide) h

theorem State.keepsOff_fixGo (s : State) (st res : Nat) : s.KeepsOff (s.fixGo st res) fixPg [0x104] :=
  (State.KeepsOff.setFld s fixPg R.FIX.STATE.ST st (by decide) (by decide)).trans (.setFld _ fixPg R.FIX.STATE.RESULT res (by decide) (by decide))

/-- Once FIX has taken a state, whatever it wrote of its own page before, it shows the state and the result; an event posted then
is the one that the state before would post (R76, R80). -/
theorem State.fixGo_post {s u : State} {offs : List Nat} (hregs : s.KeepsOff u fixPg offs) (hpost : u.postings = s.postings)
    {st res : Nat} (hst : st < 8) (hres : res < 256) (ev : Nat) :
    ((u.fixGo st res).post ev).fixSt = st ∧ ((u.fixGo st res).post ev).fld fixPg R.FIX.STATE.RESULT = res ∧
      ((u.fixGo st res).post ev).postings = s.postings ++ [s.posting ev] := by
  have hposting : (u.fixGo st res).posting ev = s.posting ev :=
    ((u.keepsOff_fixGo st res).posting (by decide) ev).trans (hregs.posting (by decide) ev)
  refine ⟨u.fixGo_fixSt res hst, u.fixGo_result st hres, ?_⟩
  rw [State.post_postings, hposting, ← hpost]
  rfl

theorem State.fixSt_refuse (s : State) : (s.refuse fixPg).fixSt = s.fixSt :=
  (s.keepsOff_refuse fixPg).fld (by decide) fun _ => by decide

theorem State.keepsOff_ok (s : State) (pg : Nat) : s.KeepsOff (s.ok pg) pg [0x044] :=
  .setFld s pg R.PG_STAT.CODE codeOK (by decide) (by decide)

theorem State.fixCmd_of_clocked {s : State} (f : State → State) (hclk : s.clocked .io = true) (hlock : s.locked fixPg = false) :
    s.fixCmd f = f s := by
  have hisland : s.islandOf fixPg = .io := rfl
  simp [State.fixCmd, hisland, hclk, hlock]

/-! ## CHECK -/

/-- CHECK takes the scope from IDLE and CHECKED (R76). -/
theorem State.checkStart_of_takes {s : State} (h : s.fixSt = 0 ∨ s.fixSt = 2) : s.checkStart.fixSt = 1 ∧
    s.checkStart.fixScope = s.scopeNow ∧ s.checkStart.fld fixPg R.PG_STAT.CODE = 0 ∧ s.checkStart.sketch = s.sketch := by
  rw [State.checkStart, if_neg (by omega)]
  refine ⟨State.fld_setFld_fits _ fixPg R.FIX.STATE.ST 1 (by decide) (by decide) (by decide), rfl, ?_, rfl⟩
  exact (State.fld_setFld_apart _ fixPg 1 (by simp)).trans (s.code_ok fixPg)

theorem State.checkStart_of_refuses {s : State} (h : s.fixSt = 1 ∨ s.fixSt = 3) : s.checkStart = s.refuse fixPg := if_pos h

/-- The failures are reported: their number, and the page of the first (R82). -/
theorem State.reportFailures_shows (s : State) (l : List (Nat × Nat)) :
    (s.reportFailures l).fld fixPg R.FIX.FAILPG.NFAIL = min 0xFFF l.length ∧
      (s.reportFailures l).fld fixPg R.FIX.FAILPG.PAGE = (firstFailure l).1 % 4096 := by
  refine ⟨(State.fld_setFld_apart _ fixPg _ (by simp)).trans ?_, ?_⟩
  · exact State.fld_setFld_fits _ fixPg R.FIX.FAILPG.NFAIL _ (by decide) (by decide) (by simp)
  · exact State.fld_setFld_same _ fixPg R.FIX.FAILPG.PAGE _ (by decide) (by decide)

theorem State.keepsOff_reportFailures (s : State) (l : List (Nat × Nat)) : s.KeepsOff (s.reportFailures l) fixPg [0x104, 0x108] :=
  ((State.KeepsOff.setFld s fixPg R.FIX.STATE.RULE _ (by decide) (by decide)).trans
    (.setFld _ fixPg R.FIX.FAILPG.NFAIL _ (by decide) (by decide))).trans
    (.setFld _ fixPg R.FIX.FAILPG.PAGE _ (by decide) (by decide))

/-- The result of the evaluation: 4 STALE where the scope was touched, else 1 VALID or 3 FAIL (R76, R82). -/
def State.checkResult (s : State) : Nat :=
  if s.fixStale then 4 else if s.failures (s.postFix s.fixScope) s.fixScope = [] then 1 else 3

theorem State.checkResult_lt (s : State) : s.checkResult < 256 := by
  fun_cases State.checkResult <;> decide

/-- What the evaluation has read and reported before FIX takes its next state. -/
def State.checked (s : State) : State :=
  if s.fixStale then { s with fixStale := false } else s.fixRead.reportFailures (s.failures (s.postFix s.fixScope) s.fixScope)

theorem State.checkEnd_eq {s : State} (hst : s.fixSt = 1) :
    s.checkEnd = (s.checked.fixGo (if s.checkResult = 1 then 2 else 0) s.checkResult).post 6 := by
  rw [State.checkEnd, if_neg (by omega), State.checked, State.checkResult]
  by_cases hstale : s.fixStale = true
  · simp only [hstale, if_true]
    rfl
  · by_cases hvalid : s.failures (s.postFix s.fixScope) s.fixScope = [] <;> simp [hstale, hvalid]

theorem State.keepsOff_checked (s : State) : s.KeepsOff s.checked fixPg [0x104, 0x108] := by
  fun_cases State.checked
  · exact .of_regs (by rfl) ..
  · exact (State.KeepsOff.of_regs (s := s) (t := s.fixRead) rfl ..).trans (s.fixRead.keepsOff_reportFailures _)

theorem State.checked_postings (s : State) : s.checked.postings = s.postings := by
  fun_cases State.checked <;> rfl

theorem State.checked_of_fresh {s : State} (h : s.fixStale = false) :
    s.checked = s.fixRead.reportFailures (s.failures (s.postFix s.fixScope) s.fixScope) := if_neg (by simp [h])

/-- VALID and FAIL are the results of a scope that was not touched. -/
theorem State.not_stale_of_checkResult {s : State} (h : s.checkResult ≠ 4) : s.fixStale = false := by
  rw [Bool.eq_false_iff]
  exact fun hstale => h (if_pos hstale)

/-- CHECK's end (R76, R82). -/
theorem State.checkEnd_shows {s : State} (hst : s.fixSt = 1) :
    s.checkEnd.fixSt = (if s.checkResult = 1 then 2 else 0) ∧ s.checkEnd.fld fixPg R.FIX.STATE.RESULT = s.checkResult ∧
      s.checkEnd.postings = s.postings ++ [s.posting 6] := by
  rw [State.checkEnd_eq hst]
  exact State.fixGo_post s.keepsOff_checked s.checked_postings (by split <;> decide) s.checkResult_lt 6

theorem State.checkEnd_read {s : State} (hst : s.fixSt = 1) (hres : s.checkResult = 1) :
    s.checkEnd.fixMode = (s.reg fixPg 0x10C).toNat ∧ s.checkEnd.fixTag = s.fld fixPg R.FIX.TAG.TAG ∧
      s.checkEnd.fixBlead = s.fld fixPg R.FIX.BLEAD.TICKS ∧ s.checkEnd.fixBexp = s.fld fixPg R.FIX.BEXP.N := by
  rw [State.checkEnd_eq hst, State.checked_of_fresh (State.not_stale_of_checkResult (by omega))]
  exact ⟨rfl, rfl, rfl, rfl⟩

theorem State.checkEnd_failpg {s : State} (hst : s.fixSt = 1) (hres : s.checkResult = 3) :
    s.checkEnd.fld fixPg R.FIX.FAILPG.NFAIL = min 0xFFF (s.failures (s.postFix s.fixScope) s.fixScope).length ∧
      s.checkEnd.fld fixPg R.FIX.FAILPG.PAGE = (firstFailure (s.failures (s.postFix s.fixScope) s.fixScope)).1 % 4096 := by
  rw [State.checkEnd_eq hst, State.checked_of_fresh (State.not_stale_of_checkResult (by omega))]
  have hkeeps {f : Fld} (hlt : f.off < 0x1000) (hn : f.off ∉ [0x104]) (u : State) (st res : Nat) :
      ((u.fixGo st res).post 6).fld fixPg f = u.fld fixPg f := (u.keepsOff_fixGo st res).fld hlt fun _ => hn
  rw [hkeeps (by decide) (by decide), hkeeps (by decide) (by decide)]
  exact State.reportFailures_shows ..

/-! ## FIX -/

/-- FIX is armed, and no frame has left (R78, R86). -/
def State.fixSet (s : State) (t : Nat) (bcast joined : Bool) : State :=
  (State.setReg (State.setBit { s with
    fixTime := t, fixBcast := bcast || joined, fixCopied := false, fixReset := none, fixResetPgs := [], fixSeen := []
    fixInit := if bcast then some s.fixTag else none } fixPg R.FIX.STATE.BMISS false) fixPg R.FIX.BACK.ACK.off 0).setFld
    fixPg R.FIX.STATE.ST 3

theorem State.fixArm_alone (s : State) (t : Nat) (joined : Bool) : s.fixArm t false joined = s.fixSet t false joined := rfl

theorem State.fixArm_broadcast (s : State) (t : Nat) (joined : Bool) :
    s.fixArm t true joined = (s.fixSet t true joined).farFlood 4 (.fixb s.fixTag t) := rfl

theorem State.fixSet_fixSt (s : State) (t : Nat) (bcast joined : Bool) : (s.fixSet t bcast joined).fixSt = 3 :=
  State.fld_setFld_fits _ fixPg R.FIX.STATE.ST 3 (by decide) (by decide) (by decide)

theorem State.keepsOff_fixSet (s : State) (t : Nat) (bcast joined : Bool) :
    s.KeepsOff (s.fixSet t bcast joined) fixPg [0x044, 0x104, 0x128] := by
  have hset (u : State) : u.KeepsOff (((u.setBit fixPg R.FIX.STATE.BMISS false).setReg fixPg R.FIX.BACK.ACK.off 0).setFld
      fixPg R.FIX.STATE.ST 3) fixPg [0x044, 0x104, 0x128] :=
    ((State.KeepsOff.setFld u fixPg R.FIX.STATE.BMISS _ (by decide) (by decide)).trans
      (.setReg _ fixPg 0 (by decide) (by decide))).trans (.setFld _ fixPg R.FIX.STATE.ST 3 (by decide) (by decide))
  exact ⟨fun pg off hlt hn => (hset _).reg pg off hlt hn⟩

/-! ## Frames that a device floods -/

/-- A flood touches the link engine and the frames that leave, nothing else (R410). -/
theorem State.farFlood_eq (s : State) (typ : Nat) (o : FarHdr → Out) :
    ∃ e, s.farFlood typ o = { s with
      eth := e, outbox := s.outbox ++ if s.linkPorts = [] then [] else [o (s.farHdr typ s.fhlim)] } := by
  by_cases hup : s.linkPorts = []
  · exact ⟨s.eth, by simp [State.farFlood, hup]⟩
  · exact ⟨_, by simp only [State.farFlood, hup, if_false]; rfl⟩

/-- The link ports that are up, and what the next flooded frame carries, are as before where nothing but one page that is neither the
link's nor a port's has changed. -/
theorem State.flood_of_keepsOff {s u : State} {offs : List Nat} (hregs : s.KeepsOff u fixPg offs) (heth : u.eth = s.eth)
    (hclk : u.clocked .net = s.clocked .net) : u.linkPorts = s.linkPorts ∧ ∀ typ, u.farHdr typ u.fhlim = s.farHdr typ s.fhlim := by
  have hport (p : Nat) : ethPg p ≠ fixPg := by simp [ethPg, fixPg]; omega
  have hrole (p : Nat) : u.lrole p = s.lrole p := hregs.fld (by decide) fun h => absurd h (hport p)
  have hup (p : Nat) : u.ethUp p = s.ethUp p := by
    rw [State.ethUp, State.ethUp, hclk, State.enabled, State.enabled, hregs.bit (by decide) fun h => absurd h (hport p),
      hregs.bit (by decide) fun h => absurd h (hport p)]
  have hlink {f : Fld} (hf : f.off < 0x1000) : u.fld linkPg f = s.fld linkPg f := hregs.fld hf fun h => absurd h (by decide)
  refine ⟨by simp only [State.linkPorts, hrole, hup], fun typ => ?_⟩
  rw [State.farHdr, State.farHdr, State.fhlim, State.fhlim, hlink (by decide), hlink (by decide), heth]

/-- The frame that leaves is the one that the state before would flood. -/
theorem State.farFlood_outbox_of_keepsOff {s u : State} {offs : List Nat} (hregs : s.KeepsOff u fixPg offs) (heth : u.eth = s.eth)
    (hclk : u.clocked .net = s.clocked .net) (hout : u.outbox = s.outbox) (typ : Nat) (o : FarHdr → Out) :
    (u.farFlood typ o).outbox = s.outbox ++ if s.linkPorts = [] then [] else [o (s.farHdr typ s.fhlim)] := by
  obtain ⟨e, he⟩ := u.farFlood_eq typ o
  obtain ⟨hports, hhdr⟩ := State.flood_of_keepsOff hregs heth hclk
  rw [he, hports, hhdr, hout]

/-! ## The FIX command -/

section
variable {s : State} (hst : s.fixSt = 2) (hjoin : s.fixModeBit R.FIX.MODE.JOIN = false)
include hst hjoin

/-- NOW = 1 arms for the least lead ahead (R78). -/
theorem State.fixCommand_of_now (hnow : s.fixModeBit R.FIX.MODE.NOW = true) :
    s.fixCommand = (s.ok fixPg).fixArm (s.tb + s.minLead) (s.fixModeBit R.FIX.MODE.BCAST) false := by
  rw [State.fixCommand, if_neg (by simp [hst, hjoin])]
  exact if_pos hnow

/-- Else FIX.TIME says when, where it is far enough ahead (R77, R78). -/
theorem State.fixCommand_of_timed (hnow : s.fixModeBit R.FIX.MODE.NOW = false) {time : Nat}
    (htime : s.fld64 fixPg R.FIX.TIME_LO.T R.FIX.TIME_HI.T = time) :
    s.fixCommand = if time < s.tb then (s.ok fixPg).fixGo 2 5 else if time < s.tb + s.minLead then (s.ok fixPg).fixGo 2 6
      else (s.ok fixPg).fixArm time (s.fixModeBit R.FIX.MODE.BCAST) false := by
  have hread : (s.ok fixPg).fld64 fixPg R.FIX.TIME_LO.T R.FIX.TIME_HI.T = time := by
    rw [← htime, State.fld64, State.fld64, (s.keepsOff_ok fixPg).fld (by decide) fun _ => by decide,
      (s.keepsOff_ok fixPg).fld (by decide) fun _ => by decide]
  rw [State.fixCommand, if_neg (by simp [hst, hjoin])]
  simp only [hread]
  exact if_neg (Bool.not_eq_true _ ▸ hnow)

end

theorem State.fixCommand_of_refuses {s : State} (h : s.fixSt ≠ 2 ∨ s.fixModeBit R.FIX.MODE.JOIN = true) :
    s.fixCommand = s.refuse fixPg := if_pos (by simpa using h)

theorem State.minLead_alone {s : State} (h : s.fixModeBit R.FIX.MODE.BCAST = false) : s.minLead = fixLead s.fixScope := by
  simp [State.minLead, h]

theorem State.minLead_broadcast {s : State} (h : s.fixModeBit R.FIX.MODE.BCAST = true) :
    s.minLead = max s.fixBlead (fixLead s.fixScope) := by
  simp [State.minLead, h]

/-- The broadcast leaves at once, with the fix time (R86). -/
theorem State.fixArm_broadcast_shows {s u : State} {offs : List Nat} (hregs : s.KeepsOff u fixPg offs) (heth : u.eth = s.eth)
    (hclk : u.clocked .net = s.clocked .net) (hout : u.outbox = s.outbox) (htag : u.fixTag = s.fixTag) (t : Nat) :
    (u.fixArm t true false).fixSt = 3 ∧ (u.fixArm t true false).fixTime = t ∧ (u.fixArm t true false).fixInit = some s.fixTag ∧
      (u.fixArm t true false).outbox =
        s.outbox ++ if s.linkPorts = [] then [] else [.fixb s.fixTag t (s.farHdr 4 s.fhlim)] := by
  have hset : s.KeepsOff (u.fixSet t true false) fixPg (offs ++ [0x044, 0x104, 0x128]) :=
    ⟨fun pg off hlt hn => ((u.keepsOff_fixSet t true false).reg pg off hlt fun e hm => hn e (by simp [hm])).trans
      (hregs.reg pg off hlt fun e hm => hn e (by simp [hm]))⟩
  have hfloods := State.farFlood_outbox_of_keepsOff hset (typ := 4) (o := .fixb s.fixTag t) heth hclk hout
  obtain ⟨e, he⟩ := (u.fixSet t true false).farFlood_eq 4 (.fixb s.fixTag t)
  rw [State.fixArm_broadcast, htag]
  refine ⟨?_, ?_, ?_, hfloods⟩
  · rw [he]
    exact u.fixSet_fixSt t true false
  · rw [he]
    rfl
  · rw [he, ← htag]
    rfl

/-! ## ABORT -/

/-- No sketch of the pages whose sketches are discarded stays (R73). -/
theorem State.foldl_discardSketch_sketch : ∀ (pages : List Nat) (s : State),
    (pages.foldl State.discardSketch s).sketch = s.sketch.filter fun e => !pages.contains (e.1 / 0x1000)
  | [], s => by simp
  | p :: pages, s => by
    rw [List.foldl_cons, State.foldl_discardSketch_sketch pages]
    show (s.sketch.filter _).filter _ = _
    rw [List.filter_filter]
    refine List.filter_congr fun e _ => ?_
    by_cases h : e.1 / 0x1000 = p <;> simp [h]

theorem regKey_page (pg : Nat) {off : Nat} (h : off < 0x1000) : regKey pg off / 0x1000 = pg := by
  unfold regKey
  omega

section
variable {s : State} (h : s.fixSt ≠ 3 ∨ (s.fixSt = 3 ∧ s.fixBcast = false ∧ s.tb + fixLead s.fixScope < s.fixTime ∧ s.fixCopied = false))
include h

/-- ABORT before the commit point: IDLE with ABORTED, and the sketches of the scope are gone (R73, R76). -/
theorem State.fixAbort_of_takes :
    s.fixAbort = State.fixGo { ((if s.fixSt = 0 then s.scopeNow else s.fixScope).foldl State.discardSketch (s.ok fixPg)) with
      fixStale := false } 0 7 := by
  refine if_neg fun ⟨hst, hlate⟩ => ?_
  obtain hother | ⟨_, hbcast, hlead, hcopied⟩ := h
  · exact hother hst
  · rcases hlate with hb | ht | hc
    · simp [hbcast] at hb
    · omega
    · simp [hcopied] at hc

theorem State.fixAbort_sketchWord {p r : Nat} (hp : p ∈ if s.fixSt = 0 then s.scopeNow else s.fixScope) (hr : r < 0x1000) :
    s.fixAbort.sketchWord p r = s.fixAbort.reg p r := by
  have hsketch : s.fixAbort.sketch = s.sketch.filter fun e =>
      !(if s.fixSt = 0 then s.scopeNow else s.fixScope).contains (e.1 / 0x1000) := by
    rw [State.fixAbort_of_takes h]
    exact State.foldl_discardSketch_sketch _ (s.ok fixPg)
  have hnone : tget (fun _ => none) s.fixAbort.sketch (regKey p r) = none := by
    rw [hsketch, tget_filter_keys (fun _ => none) (fun k => !(if s.fixSt = 0 then s.scopeNow else s.fixScope).contains (k / 0x1000)),
      regKey_page p hr, if_neg (by simpa using hp)]
  rw [State.sketchWord, hnone]
  rfl

end

theorem State.fixAbort_of_refuses {s : State} (hst : s.fixSt = 3)
    (h : s.fixBcast = true ∨ s.fixTime ≤ s.tb + fixLead s.fixScope) : s.fixAbort = s.refuse fixPg := by
  refine if_pos ⟨hst, ?_⟩
  obtain hbcast | htime := h
  · exact .inl hbcast
  · exact .inr (.inl htime)

/-! ## The commands of the FIX page -/

section
variable {s : State} (hclk : s.clocked .io = true) (hlock : s.locked fixPg = false) {P : State → Prop}
include hclk hlock

theorem gives_check (h : P s.checkStart) : Gives .check s P :=
  ⟨_, congrArg Host.Outcome.next (State.fixCmd_of_clocked State.checkStart hclk hlock), h⟩

theorem gives_fix (h : P s.fixCommand) : Gives .fix s P :=
  ⟨_, congrArg Host.Outcome.next (State.fixCmd_of_clocked State.fixCommand hclk hlock), h⟩

theorem gives_abort (h : P s.fixAbort) : Gives .abort s P :=
  ⟨_, congrArg Host.Outcome.next (State.fixCmd_of_clocked State.fixAbort hclk hlock), h⟩

end

/-- Settles O23: CHECK, its end, FIX and ABORT, each by what it makes of the FIX page. -/
theorem fixCommands : Obligations.FixCommands := by
  refine ⟨fun s hclk => ⟨fun hlock => ⟨fun htakes => ?check, fun hbusy => ?checkRefused⟩, fun hst => ?checkEnd⟩,
    fun s hclk hlock => ⟨fun hst hjoin halone => ⟨fun hnow => ?now, fun htimed => ?timed⟩, fun hst hjoin hbcast hnow => ?broadcast,
      fun hst hjoin => ?joined, fun hst => ?unchecked, fun htakes => ?abort, fun hst hlate => ?abortRefused⟩⟩
  case check => exact gives_check hclk hlock (State.checkStart_of_takes htakes)
  case checkRefused =>
    refine gives_check hclk hlock ?_
    rw [State.checkStart_of_refuses hbusy]
    exact ⟨s.code_refuse fixPg, s.fixSt_refuse, State.refuse_fixScope ..⟩
  case checkEnd =>
    obtain ⟨hnext, hresult, hposts⟩ := State.checkEnd_shows hst
    exact ⟨s.checkEnd, if_pos hclk, hnext, hresult, hposts, State.checkEnd_read hst, State.checkEnd_failpg hst⟩
  case now =>
    refine gives_fix hclk hlock ?_
    rw [State.fixCommand_of_now hst hjoin hnow, State.minLead_alone halone, halone, State.fixArm_alone]
    exact ⟨State.fixSet_fixSt .., rfl, rfl⟩
  case timed =>
    have hcommand := State.fixCommand_of_timed hst hjoin htimed (time := s.fld64 0x002 R.FIX.TIME_LO.T R.FIX.TIME_HI.T) rfl
    rw [State.minLead_alone halone, halone] at hcommand
    refine ⟨fun hpast => gives_fix hclk hlock ?_, fun hpast hnear => gives_fix hclk hlock ?_, fun hfar => gives_fix hclk hlock ?_⟩
    · rw [hcommand, if_pos hpast]
      exact ⟨State.fixGo_fixSt _ 5 (by decide), State.fixGo_result _ 2 (by decide)⟩
    · rw [hcommand, if_neg (by omega), if_pos hnear]
      exact ⟨State.fixGo_fixSt _ 6 (by decide), State.fixGo_result _ 2 (by decide)⟩
    · rw [hcommand, if_neg (by omega), if_neg (by omega), State.fixArm_alone]
      exact ⟨State.fixSet_fixSt .., rfl, rfl⟩
  case broadcast =>
    refine gives_fix hclk hlock ?_
    rw [State.fixCommand_of_now hst hjoin hnow, State.minLead_broadcast hbcast, hbcast]
    exact State.fixArm_broadcast_shows (s.keepsOff_ok fixPg) rfl rfl rfl rfl _
  case joined =>
    refine gives_fix hclk hlock ?_
    rw [State.fixCommand_of_refuses (.inr hjoin)]
    exact ⟨s.code_refuse fixPg, s.fixSt_refuse.trans hst⟩
  case unchecked =>
    refine gives_fix hclk hlock ?_
    rw [State.fixCommand_of_refuses (.inl hst)]
    exact ⟨s.code_refuse fixPg, s.fixSt_refuse⟩
  case abort =>
    refine gives_abort hclk hlock ⟨?_, ?_, fun p hp r hr _ => State.fixAbort_sketchWord htakes hp hr⟩
    · rw [State.fixAbort_of_takes htakes]
      exact State.fixGo_fixSt _ 7 (by decide)
    · rw [State.fixAbort_of_takes htakes]
      exact State.fixGo_result _ 0 (by decide)
  case abortRefused =>
    refine gives_abort hclk hlock ?_
    rw [State.fixAbort_of_refuses hst hlate]
    exact ⟨s.code_refuse fixPg, s.fixSt_refuse.trans hst, State.refuse_sketch ..⟩

end Sys2Proof.Machine
end

section
/-! A fix at its instant, its completion, and the messages of a broadcast fix (R79, R80, R85, R86). -/

namespace Sys2Proof.Machine

/-! ## The sketches are copied -/

/-- One entry of the sketch is copied (R79). -/
def State.applyEntry (s : State) (e : Nat × Option Word) : State :=
  match e.2 with
  | some w => s.setReg (e.1 / 0x1000) (e.1 % 0x1000)
      ((s.reg (e.1 / 0x1000) (e.1 % 0x1000) &&& ~~~ rsMask e.1) ||| (w &&& rsMask e.1))
  | none => s

theorem State.applySketch_eq (s : State) (pages : List Nat) :
    s.applySketch pages = (s.sketch.filter fun e => pages.contains (e.1 / 0x1000)).foldl State.applyEntry s := rfl

/-- A register with the bits of a mask taken from its staged word, where it has one. -/
def overlaid (m : Word) (staged : Option Word) (w : Word) : Word := (w &&& ~~~ m) ||| (staged.getD w &&& m)

theorem overlaid_none (m w : Word) : overlaid m none w = w := by
  refine BitVec.eq_of_getLsbD_eq fun i hi => ?_
  cases hw : w[i] <;> cases hm : m[i] <;> simp [overlaid, hw, hm, hi]

theorem regKey_div_mod (k : Nat) : regKey (k / 0x1000) (k % 0x1000) = k := Nat.div_add_mod' k 0x1000

theorem State.applyEntry_reg_same (s : State) {p r : Nat} (hr : r < 0x1000) (o : Option Word) :
    (s.applyEntry (regKey p r, o)).reg p r = overlaid (accMask .rs p r) o (s.reg p r) := by
  have hpage : regKey p r / 0x1000 = p := regKey_page p hr
  have hoff : regKey p r % 0x1000 = r := by unfold regKey; omega
  cases o with
  | none => rw [overlaid_none]; rfl
  | some w =>
    simp only [State.applyEntry, rsMask, hpage, hoff, State.reg_setReg_same]
    rfl

theorem State.applyEntry_reg_ne (s : State) {e : Nat × Option Word} {p r : Nat} (h : e.1 ≠ regKey p r) :
    (s.applyEntry e).reg p r = s.reg p r := by
  fun_cases State.applyEntry
  · exact State.reg_setReg_ne s _ (by rw [regKey_div_mod]; exact Ne.symm h)
  · rfl

theorem tget_of_lt {β : Type} (d : Nat → β) {k : Nat} : ∀ {m : Tab β}, (∀ e ∈ m, k < e.1) → tget d m k = d k
  | [], _ => rfl
  | e :: m, h => by
    have hne : e.1 ≠ k := (Nat.ne_of_lt (h e (List.mem_cons_self ..))).symm
    rw [tget, if_neg hne]
    exact tget_of_lt d fun f hf => h f (List.mem_cons_of_mem _ hf)

/-- The entries copied in turn: each register takes its own, since no key stands twice in a table. -/
theorem State.foldl_applyEntry_reg {p r : Nat} (hr : r < 0x1000) : ∀ (l : Tab (Option Word)) (s : State),
    twf (fun _ => none) l = true →
    (l.foldl State.applyEntry s).reg p r = overlaid (accMask .rs p r) (tget (fun _ => none) l (regKey p r)) (s.reg p r)
  | [], s, _ => (overlaid_none ..).symm
  | e :: l, s, hwf => by
    obtain ⟨_, _, hl⟩ := (twf_cons _ e l).1 hwf
    rw [List.foldl_cons, State.foldl_applyEntry_reg hr l _ hl, tget]
    by_cases hkey : e.1 = regKey p r
    · obtain ⟨k, o⟩ := e
      subst hkey
      rw [tget_of_lt _ (twf_lt _ l _ hwf), overlaid_none, if_pos rfl, State.applyEntry_reg_same s hr]
    · rw [if_neg hkey, State.applyEntry_reg_ne s hkey]

/-- A staged register of a page of the scope takes its RS bits; every other register stays (R79). -/
theorem State.applySketch_reg (s : State) (pages : List Nat) (p : Nat) {r : Nat} (hr : r < 0x1000)
    (hwf : twf (fun _ => none) s.sketch = true) : (s.applySketch pages).reg p r =
      if p ∈ pages then (s.reg p r &&& ~~~ accMask .rs p r) ||| (s.sketchWord p r &&& accMask .rs p r) else s.reg p r := by
  rw [State.applySketch_eq, State.foldl_applyEntry_reg hr _ s (twf_filter _ _ _ hwf),
    tget_filter_keys (fun _ => none) (fun k => pages.contains (k / 0x1000)), regKey_page p hr]
  by_cases hp : p ∈ pages
  · rw [if_pos (by simpa using hp), if_pos hp]
    rfl
  · rw [if_neg (by simpa using hp), if_neg hp, overlaid_none]

/-! ## The fix is complete -/

/-- The fix time stands in APPLIED (R80). -/
def State.fixApplied (s : State) : State :=
  { s.setFld64 fixPg R.FIX.APPLIED_LO.T R.FIX.APPLIED_HI.T s.fixTime with fixCopied := false, fixBcast := false }

theorem State.fixApplied_shows (s : State) : s.fixApplied.fld fixPg R.FIX.APPLIED_LO.T = s.fixTime % 2 ^ 32 ∧
    s.fixApplied.fld fixPg R.FIX.APPLIED_HI.T = s.fixTime / 2 ^ 32 % 2 ^ 32 := by
  have hword (v : Nat) : v % 2 ^ 32 < 2 ^ (31 + 1 - 0) := Nat.mod_lt _ (by decide)
  refine ⟨(State.fld_setFld_apart _ fixPg _ (by simp)).trans ?_, ?_⟩
  · exact State.fld_setFld_fits s fixPg R.FIX.APPLIED_LO.T _ (by decide) (by decide) (hword _)
  · exact State.fld_setFld_fits _ fixPg R.FIX.APPLIED_HI.T _ (by decide) (by decide) (hword _)

theorem State.keepsOff_fixApplied (s : State) : s.KeepsOff s.fixApplied fixPg [0x130, 0x134] :=
  ⟨((State.KeepsOff.setFld s fixPg R.FIX.APPLIED_LO.T _ (by decide) (by decide)).trans
    (.setFld _ fixPg R.FIX.APPLIED_HI.T _ (by decide) (by decide))).reg⟩

theorem State.fixDone_of_whole {s : State} (h : s.fixReset = none) : s.fixDone = (s.fixApplied.fixGo 0 2).post 7 := by
  fun_cases State.fixDone
  case case1 => rfl
  case case2 p hreset => exact absurd (h.symm.trans hreset) (Option.some_ne_none p).symm

theorem State.fixDone_of_reset {s : State} {p : Nat} (h : s.fixReset = some p) : s.fixDone =
    ((((State.fixGo { s.fixApplied with fixReset := none, fixResetPgs := [] } 0 8).setFld fixPg R.FIX.FAILPG.PAGE p).fixWarn).post 7) := by
  fun_cases State.fixDone
  case case1 hreset => exact absurd (h.symm.trans hreset) (Option.some_ne_none p)
  case case2 q hreset =>
    obtain rfl : p = q := Option.some.inj (h.symm.trans hreset)
    rfl

/-- All pages applied: APPLIED names the time, and event 7 is posted (R80). -/
theorem State.fixDone_whole_shows {s : State} (h : s.fixReset = none) :
    s.fixDone.fixSt = 0 ∧ s.fixDone.fld fixPg R.FIX.STATE.RESULT = 2 ∧
      s.fixDone.fld fixPg R.FIX.APPLIED_LO.T = s.fixTime % 2 ^ 32 ∧
      s.fixDone.fld fixPg R.FIX.APPLIED_HI.T = s.fixTime / 2 ^ 32 % 2 ^ 32 ∧ s.fixDone.postings = s.postings ++ [s.posting 7] := by
  obtain ⟨hlo, hhi⟩ := s.fixApplied_shows
  have hkeeps {f : Fld} (hlt : f.off < 0x1000) (hn : f.off ∉ [0x104]) :
      ((s.fixApplied.fixGo 0 2).post 7).fld fixPg f = s.fixApplied.fld fixPg f := (s.fixApplied.keepsOff_fixGo 0 2).fld hlt fun _ => hn
  obtain ⟨hst, hres, hposts⟩ := State.fixGo_post s.keepsOff_fixApplied rfl (st := 0) (res := 2) (by decide) (by decide) 7
  rw [State.fixDone_of_whole h]
  exact ⟨hst, hres, (hkeeps (by decide) (by decide)).trans hlo, (hkeeps (by decide) (by decide)).trans hhi, hposts⟩

/-- A page of the scope was reset: RESULT says so, FAILPG names it, and the warning source is raised (R84). -/
theorem State.fixDone_reset_shows {s : State} {p : Nat} (h : s.fixReset = some p) :
    s.fixDone.fixSt = 0 ∧ s.fixDone.fld fixPg R.FIX.STATE.RESULT = 8 ∧ s.fixDone.fld fixPg R.FIX.FAILPG.PAGE = p % 4096 ∧
      s.fixDone.raises = s.raises ++ [⟨7, .page fixPg⟩] ∧ s.fixDone.postings = s.postings ++ [s.posting 7] := by
  have hkeeps : s.KeepsOff { s.fixApplied with fixReset := none, fixResetPgs := [] } fixPg [0x130, 0x134] :=
    ⟨s.keepsOff_fixApplied.reg⟩
  obtain ⟨hst, hres, hposts⟩ := State.fixGo_post hkeeps rfl (st := 0) (res := 8) (by decide) (by decide) 7
  have hposting (u : State) : ((u.setFld fixPg R.FIX.FAILPG.PAGE p).fixWarn).posting 7 = u.posting 7 :=
    (State.KeepsOff.setFld (offs := [0x108]) u fixPg R.FIX.FAILPG.PAGE p (by decide) (by decide)).posting (by decide) 7
  rw [State.fixDone_of_reset h]
  refine ⟨(State.fld_setFld_apart _ fixPg p (by simp)).trans hst, (State.fld_setFld_apart _ fixPg p (by simp)).trans hres,
    State.fld_setFld_same _ fixPg R.FIX.FAILPG.PAGE p (by decide) (by decide), rfl, ?_⟩
  rw [State.post_postings, hposting]
  exact hposts

/-! ## The broadcast fix -/

section
variable {s : State} {tag : Nat}

theorem State.fixbTake_of_other (t : Nat)
    (h : ¬ (s.bit fixPg R.FIX.MODE.JOIN = true ∧ (if s.fixSt = 2 then s.fixTag else s.fld fixPg R.FIX.TAG.TAG) = tag)) :
    s.fixbTake tag t = s := by
  refine if_pos ?_
  by_cases hjoin : s.bit fixPg R.FIX.MODE.JOIN = true
  · exact .inr fun htag => h ⟨hjoin, htag⟩
  · exact .inl (by simpa using hjoin)

/-- A device that joins the tag is late, arms, or answers not ready (R85). -/
theorem State.fixbTake_of_mine (t : Nat)
    (h : s.bit fixPg R.FIX.MODE.JOIN = true ∧ (if s.fixSt = 2 then s.fixTag else s.fld fixPg R.FIX.TAG.TAG) = tag) :
    s.fixbTake tag t = if s.fixSt ≠ 2 then s.farFlood 5 (.fixa tag 2)
      else if s.tb + fixLead s.fixScope ≤ t then (s.fixArm t false true).farFlood 5 (.fixa tag 0)
      else ((s.fixGo 2 9).fixWarn).farFlood 5 (.fixa tag 1) := by
  obtain ⟨hjoin, htag⟩ := h
  exact if_neg (by simp [hjoin, htag])

end

theorem gives_fixbReceived {s : State} (hio : s.clocked .io = true) (hnet : s.clocked .net = true) (tag : BitVec 16) (time : BitVec 64)
    {t : State} (h : s.fixbTake tag.toNat time.toNat = t) : exec (.fixbReceived tag time) s = .next t :=
  (if_pos ⟨hio, hnet⟩).trans (congrArg _ h)

/-! ## The answers to the initiator -/

/-- One participant more is counted (R86). -/
def State.fixaCounted (s : State) (id : Nat) (armed : Bool) : State :=
  State.setFld { s with fixSeen := s.fixSeen ++ [id] } fixPg (if armed then R.FIX.BACK.ACK else R.FIX.BACK.NACK)
    (min 0xFFFF (s.fld fixPg (if armed then R.FIX.BACK.ACK else R.FIX.BACK.NACK) + 1))

theorem execFixaReceived_of_new {s : State} {tag : BitVec 16} {id : BitVec 32} (hio : s.clocked .io = true) (hnet : s.clocked .net = true)
    (hinit : s.fixInit = some tag.toNat) (hnew : id.toNat ∉ s.fixSeen) (armed : Bool) :
    exec (.fixaReceived tag id armed) s = .next (s.fixaCounted id.toNat armed) :=
  if_neg (by simp [hinit, hnew, hio, hnet])

theorem execFixaReceived_of_known {s : State} {tag : BitVec 16} {id : BitVec 32}
    (h : id.toNat ∈ s.fixSeen ∨ s.fixInit ≠ some tag.toNat) (armed : Bool) : exec (.fixaReceived tag id armed) s = .next s := by
  refine if_pos ?_
  obtain hseen | hinit := h
  · exact .inr (.inl (by simpa using hseen))
  · exact .inl hinit

theorem State.fixaCounted_back (s : State) (id : Nat) (armed : Bool) :
    (s.fixaCounted id armed).fld fixPg R.FIX.BACK.ACK =
        (if armed then min 0xFFFF (s.fld fixPg R.FIX.BACK.ACK + 1) else s.fld fixPg R.FIX.BACK.ACK) ∧
      (s.fixaCounted id armed).fld fixPg R.FIX.BACK.NACK =
        (if armed then s.fld fixPg R.FIX.BACK.NACK else min 0xFFFF (s.fld fixPg R.FIX.BACK.NACK + 1)) := by
  cases armed with
  | true => exact ⟨State.fld_setFld_fits _ fixPg R.FIX.BACK.ACK _ (by decide) (by decide) (by simp),
      State.fld_setFld_apart _ fixPg _ (by simp)⟩
  | false => exact ⟨State.fld_setFld_apart _ fixPg _ (by simp),
      State.fld_setFld_fits _ fixPg R.FIX.BACK.NACK _ (by decide) (by decide) (by simp)⟩

/-- Settles O24: the copy, the completion, and the messages of a broadcast fix. -/
theorem fixInstants : Obligations.FixInstants := by
  refine ⟨⟨fun s hst hcopied hclk => ?apply, fun s pages p r hr hwf => s.applySketch_reg pages p hr hwf,
    fun s hst hcopied hclk => ?complete⟩, fun s tag time id armed hio hnet => ?messages⟩
  case apply =>
    have hexec : exec .fixApply s = s.atTick s.fixTime State.fixCopy := if_pos ⟨hst, by simp [hcopied], hclk⟩
    refine ⟨fun hdue => ⟨s.fixCopy, hexec.trans (State.atTick_of_le hdue _), rfl, rfl⟩, fun hahead hcomes => ?_⟩
    rw [hexec, State.atTick, if_neg (by omega), if_pos hcomes]
  case complete =>
    have hexec : exec .fixComplete s = .next s.fixDone := if_pos ⟨hst, hcopied, hclk⟩
    exact ⟨fun hwhole => ⟨_, hexec, State.fixDone_whole_shows hwhole⟩, fun p hreset => ⟨_, hexec, State.fixDone_reset_shows hreset⟩⟩
  case messages =>
    intro mine lead answer
    have hflood {u : State} {offs : List Nat} (hregs : s.KeepsOff u fixPg offs) (heth : u.eth = s.eth)
        (hclk : u.clocked .net = s.clocked .net) (hout : u.outbox = s.outbox) (n : Nat) :
        (u.farFlood 5 (.fixa tag.toNat n)).outbox = s.outbox ++ answer n :=
      State.farFlood_outbox_of_keepsOff hregs heth hclk hout 5 (.fixa tag.toNat n)
    refine ⟨fun hother => gives_fixbReceived hio hnet tag time (State.fixbTake_of_other _ hother), fun hmine hst => ?unready,
      fun hmine hst htime => ?arms, fun hmine hst htime => ?late, fun hinit hnew => ?counted,
      fun hknown => execFixaReceived_of_known hknown armed⟩
    case unready =>
      refine ⟨_, gives_fixbReceived hio hnet tag time ((State.fixbTake_of_mine _ hmine).trans (if_pos hst)), ?_⟩
      have hout := hflood (.of_regs rfl fixPg []) rfl rfl rfl 2
      obtain ⟨e, he⟩ := s.farFlood_eq 5 (.fixa tag.toNat 2)
      rw [he] at hout ⊢
      exact ⟨rfl, rfl, rfl, hout⟩
    case arms =>
      refine ⟨_, gives_fixbReceived hio hnet tag time ((State.fixbTake_of_mine _ hmine).trans
        ((if_neg (by simp [hst])).trans (if_pos htime))), ?_⟩
      rw [State.fixArm_alone]
      have hout := hflood (s.keepsOff_fixSet time.toNat false true) rfl rfl rfl 0
      obtain ⟨e, he⟩ := (s.fixSet time.toNat false true).farFlood_eq 5 (.fixa tag.toNat 0)
      rw [he] at hout ⊢
      exact ⟨s.fixSet_fixSt time.toNat false true, rfl, hout⟩
    case late =>
      refine ⟨_, gives_fixbReceived hio hnet tag time ((State.fixbTake_of_mine _ hmine).trans
        ((if_neg (by simp [hst])).trans (if_neg (by omega)))), ?_⟩
      have hout := hflood (u := (s.fixGo 2 9).fixWarn) ⟨(s.keepsOff_fixGo 2 9).reg⟩ rfl rfl rfl 1
      obtain ⟨e, he⟩ := ((s.fixGo 2 9).fixWarn).farFlood_eq 5 (.fixa tag.toNat 1)
      rw [he] at hout ⊢
      exact ⟨s.fixGo_fixSt 9 (by decide), s.fixGo_result 2 (by decide), hout, rfl⟩
    case counted => exact ⟨_, execFixaReceived_of_new hio hnet hinit hnew armed, rfl, s.fixaCounted_back id.toNat armed⟩

end Sys2Proof.Machine
end

section
/-! The link folder: a write of the path, and the end of a window access (R65, R67, R68, R413). -/

namespace Sys2Proof.Machine

/-! ## A write of the path -/

theorem State.children_lfPg_length_le (s : State) : (s.children lfPg).length ≤ 1 := by
  fun_cases State.children
  · exact Nat.zero_le 1
  · exact Nat.le_refl 1
  · contradiction

/-- A write of HOPBASE or of the first hop reaches the path (R67). -/
theorem State.writeReg_lfPath {s : State} (hclk : s.clocked (s.islandOf lfPg) = true) (hlock : s.locked lfPg = false) {off : Nat}
    (hoff : off = 0x408 ∨ off = 0x420) (w : Writer) (d : Word) : s.writeReg w lfPg off d = s.lfPut off d := by
  have hkids := s.children_lfPg_length_le
  have hlive : s.writeReg w lfPg off d = s.writeLive w lfPg off d := by
    have hkind : (kindOf lfPg).isNone = false := rfl
    have hpage : lfPg ≠ lcmPg := by decide
    obtain rfl | rfl := hoff <;> simp [State.writeReg, hkind, hpage, hclk]
  have hown : s.ownWrite w lfPg off d = some (s.lfPut off d) := by
    obtain rfl | rfl := hoff <;> rfl
  have hrows : rowsAt lfPg off ≠ [] ∧
      accMask .rs lfPg off ||| (accMask .rw lfPg off ||| accMask .w1c lfPg off ||| accMask .wo lfPg off) ≠ 0 := by
    obtain rfl | rfl := hoff <;> decide
  have hfix : lfPg ≠ fixPg := by decide
  have hpal : factoryPal lfPg off = false := rfl
  rw [hlive, State.writeLive, if_neg (by omega), if_neg hrows.1, if_neg (by simp [hlock]), if_neg (by simp [hfix]),
    if_neg (by simp [hpal])]
  simp only [hown, if_neg hrows.2]

theorem State.windowBefore_eq_false_iff (s : State) (n : Nat) :
    s.windowBefore n = false ↔ ∀ o ∈ s.ops, isWindow o.addr = true → n ≤ o.id := by
  simp [State.windowBefore]

/-- What a write of the path shows once it is in effect (R65, R67). -/
theorem State.lfEffect_shows (s : State) {off : Nat} (hoff : off = 0x408 ∨ off = 0x420) (d : Word) :
    (s.lfEffect off d).reg lfPg off = d &&& accMask .rw lfPg off ∧ (s.lfEffect off d).bit lfPg R.LF.STAT.OPEN = false ∧
      (s.lfEffect off d).fld lfPg R.LF.STAT.DEPTH = s.fld lfPg R.LF.HOPLEN.LEN % 65536 := by
  have hne : off ≠ 0x410 ∧ off ≠ 0x404 := by omega
  have hlen : (s.setReg lfPg off (d &&& accMask .rw lfPg off)).fld lfPg R.LF.HOPLEN.LEN = s.fld lfPg R.LF.HOPLEN.LEN := by
    rw [State.fld, State.fld, State.reg_setReg_ne s _ (by simp only [regKey]; omega)]
  refine ⟨?_, State.bit_setBit_same _ lfPg R.LF.STAT.OPEN false rfl (by decide), ?_⟩
  · rw [State.lfEffect, State.setBit, State.reg_setFld_off _ lfPg _ hne.1, State.reg_setFld_off _ lfPg _ hne.1, State.reg_setReg_same]
  · rw [State.lfEffect, State.setBit, State.fld_setFld_apart _ lfPg _ (by simp), State.fld_setFld_same _ lfPg _ _ (by decide) (by decide),
      hlen]
    rfl

/-- The write takes effect where no window access issued before it is outstanding, else it waits behind them (R67). -/
theorem State.lfPut_eq {s : State} (hheld : s.lfHeld = []) {off : Nat} (hoff : off = 0x408 ∨ off = 0x420) (d : Word) :
    s.lfPut off d = if s.windowBefore s.opNext then { s.ok lfPg with lfHeld := [(off, d, s.opNext)] }
      else (s.ok lfPg).lfEffect off d := by
  have hhop : off ≠ R.LF.HOPLEN.LEN.off := by simp; omega
  rw [State.lfPut, if_neg fun h => hhop h.1, hheld]
  cases s.windowBefore s.opNext <;> rfl

/-! ## After an access -/

theorem State.windowPump_of_no_ops {s : State} (h : s.ops = []) : s.windowPump s.ops.length = s := by
  rw [h]
  rfl

theorem State.ripple_of_no_ops {s : State} (h : s.ops = []) (k : Nat) : s.ripple k = (s.fenceDone k).wakeOps (k / 32) := by
  rw [State.ripple, h]
  rfl

theorem State.ripple_ops {s : State} (h : s.ops = []) (k : Nat) : (s.ripple k).ops = [] := by
  rw [State.ripple_of_no_ops h, (State.Yields.wakeOps _ _).ops, (State.quiet_fenceDone s k).ops, h]

theorem State.ripple_regs {s : State} (h : s.ops = []) (k : Nat) : (s.ripple k).regs = s.regs := by
  have hoff : (s.ripple k).offCores = s.offCores := by
    rw [State.ripple_of_no_ops h, State.offCores_wakeOps, State.offCores_fenceDone]
  simp only [State.offCores, Prod.mk.injEq] at hoff
  exact hoff.1

/-- A FENCE that completes leaves the general registers. -/
theorem State.fenceDone_g (s : State) (k : Nat) : ((s.fenceDone k).cx k).g = (s.cx k).g := by
  have hadvance : ((s.modCtx k fun c => { c with fence := false, now := { c.now with pc := c.now.pc + 4 } }).cx k).g = (s.cx k).g := by
    rw [State.cx_modCtx_same]
    rfl
  fun_cases State.fenceDone
  · exact hadvance
  · rw [State.cx_toSt_same]
    exact hadvance
  · rfl

theorem State.ripple_g {s : State} (h : s.ops = []) (k : Nat) : ((s.ripple k).cx k).g = (s.cx k).g := by
  rw [State.ripple_of_no_ops h, (State.Yields.wakeOps _ _).cx k]
  exact s.fenceDone_g k

theorem State.settle_of_no_ops {s : State} (h : s.ops = []) (k : Nat) : s.settle k = s.ripple k :=
  State.windowPump_of_no_ops (State.ripple_ops h k)

/-! ## The end of an access -/

theorem State.opDone_ops {s : State} {o : Op} (h : s.ops = [o]) (v : Nat) (bad err : Bool) : (s.opDone o v bad err).ops = [] := by
  unfold State.opDone
  split <;> simp [State.dropElem, h]

theorem State.opDone_regs (s : State) (o : Op) (v : Nat) (bad err : Bool) : (s.opDone o v bad err).regs = s.regs := by
  have hoff := s.offCores_opDone o v bad err
  simp only [State.offCores, Prod.mk.injEq] at hoff
  exact hoff.1

/-- The value of a load reaches its register under the present epoch (R263, R316). -/
theorem State.opDone_get {s : State} {o : Op} (hload : o.kind = .load) (hpos : 0 < o.reg) (hlt : o.reg < 32)
    (hepoch : o.epoch = (s.ctxAt o.ctx).epoch) (v : Nat) : ((s.opDone o v false false).cx o.ctx).get o.reg = BitVec.ofNat 32 v := by
  have hland (r : CtxRegs) : (r.land o v false false).get o.reg = BitVec.ofNat 32 v := by
    simp [CtxRegs.land, hload, show o.reg ≠ 32 by omega, show o.reg ≠ 0 by omega, CtxRegs.get_set]
  unfold State.opDone
  simp only [Bool.false_eq_true, and_false, if_false]
  rw [State.cx_modCtx_same]
  show (Ctx.now (if o.epoch = (s.ctxAt o.ctx).epoch then _ else _)).get o.reg = _
  rw [if_pos hepoch]
  exact hland _

/-- An access that fails: OPEN clears, TMO and its detection show (R68). -/
theorem State.windowFail_shows {s : State} {o : Op} (h : s.ops = [o]) : (s.windowFail o R.LF.STAT.TMO 1).ops = [] ∧
    (s.windowFail o R.LF.STAT.TMO 1).bit lfPg R.LF.STAT.OPEN = false ∧ (s.windowFail o R.LF.STAT.TMO 1).bit lfPg R.LF.STAT.TMO = true ∧
    ((s.windowFail o R.LF.STAT.TMO 1).reg lfPg 0x048).getLsbD 1 = true := by
  have hmarked : (((s.setBit lfPg R.LF.STAT.TMO true).setBit lfPg R.LF.STAT.OPEN false).detect lfPg 1).ops = [o] := by
    rw [State.detect_ops]
    exact h
  have hdone := State.opDone_ops hmarked 0 false true
  have hregs : (s.windowFail o R.LF.STAT.TMO 1).regs =
      (((s.setBit lfPg R.LF.STAT.TMO true).setBit lfPg R.LF.STAT.OPEN false).detect lfPg 1).regs :=
    (State.ripple_regs hdone o.ctx).trans (State.opDone_regs ..)
  have hbit (f : Fld) (hlt : f.off < 0x1000) (hn : f.off ∉ [0x048]) : (s.windowFail o R.LF.STAT.TMO 1).bit lfPg f =
      ((s.setBit lfPg R.LF.STAT.TMO true).setBit lfPg R.LF.STAT.OPEN false).bit lfPg f :=
    (State.bit_of_regs hregs lfPg f).trans ((State.keepsOff_detect _ lfPg 1).bit hlt fun _ => hn)
  refine ⟨State.ripple_ops hdone o.ctx, ?_, ?_, ?_⟩
  · rw [hbit _ (by decide) (by decide)]
    exact State.bit_setBit_same _ lfPg R.LF.STAT.OPEN false rfl (by decide)
  · rw [hbit _ (by decide) (by decide)]
    exact (State.bit_setFld_apart _ lfPg _ (by simp)).trans (State.bit_setBit_same _ lfPg R.LF.STAT.TMO true rfl (by decide))
  · rw [State.reg_of_regs hregs]
    exact State.fstat_detect_same _ lfPg (by decide)

/-- An access that its answer completes: OPEN sets (R65). -/
theorem State.answered_shows {s : State} {o : Op} (h : s.ops = [o]) (v : Nat) :
    (((s.setBit lfPg R.LF.STAT.OPEN true).opDone o v false false).settle o.ctx).ops = [] ∧
      (((s.setBit lfPg R.LF.STAT.OPEN true).opDone o v false false).settle o.ctx).bit lfPg R.LF.STAT.OPEN = true := by
  have hdone : ((s.setBit lfPg R.LF.STAT.OPEN true).opDone o v false false).ops = [] :=
    State.opDone_ops (s := s.setBit lfPg R.LF.STAT.OPEN true) h v false false
  rw [State.settle_of_no_ops hdone]
  refine ⟨State.ripple_ops hdone o.ctx, ?_⟩
  rw [State.bit_of_regs ((State.ripple_regs hdone o.ctx).trans (State.opDone_regs ..))]
  exact State.bit_setBit_same _ lfPg R.LF.STAT.OPEN true rfl (by decide)

/-- A load that its answer completes has its value. -/
theorem State.answered_get {s : State} {o : Op} (h : s.ops = [o]) (hload : o.kind = .load) (hpos : 0 < o.reg) (hlt : o.reg < 32)
    (hepoch : o.epoch = (s.ctxAt o.ctx).epoch) (v : Word) :
    ((((s.setBit lfPg R.LF.STAT.OPEN true).opDone o v.toNat false false).settle o.ctx).cx o.ctx).get o.reg = v := by
  have hdone : ((s.setBit lfPg R.LF.STAT.OPEN true).opDone o v.toNat false false).ops = [] :=
    State.opDone_ops (s := s.setBit lfPg R.LF.STAT.OPEN true) h _ false false
  have hget := State.opDone_get (s := s.setBit lfPg R.LF.STAT.OPEN true) hload hpos hlt hepoch v.toNat
  rw [BitVec.ofNat_toNat, BitVec.setWidth_eq] at hget
  rw [State.settle_of_no_ops hdone, CtxRegs.get, State.ripple_g hdone]
  exact hget

/-! ## The commands -/

theorem execPgrspReceived_eq {s : State} {o : Op} (h : s.ops = [o]) {at_ : Nat} (hsent : o.sent = some at_)
    (hnet : s.clocked .net = true) (d : Word) : exec (.pgrspReceived o.id d) s = .next (((s.setBit lfPg R.LF.STAT.OPEN true).opDone o
      (s.remoteView ((o.addr - 0x41000000) / 0x1000) (o.addr % 0x1000) d).toNat false false).settle o.ctx) := by
  have hfind : (s.ops.find? fun q => q.sent.isSome && q.id = o.id) = some o := by simp [h, hsent]
  show execPgrspReceived o.id d s = _
  unfold execPgrspReceived
  rw [hfind]
  exact if_neg (by simp [hnet])

theorem execWindowTimeout_eq {s : State} {o : Op} (h : s.ops = [o]) {at_ : Nat} (hsent : o.sent = some at_)
    (hnet : s.clocked .net = true) (hdue : s.windowEnd at_ ≤ s.tb) :
    exec (.windowTimeout o.id) s = .next (s.windowFail o R.LF.STAT.TMO 1) := by
  have hfind : (s.ops.find? fun q => q.id = o.id) = some o := by simp [h]
  have hpump := State.windowPump_of_no_ops (State.windowFail_shows h).1
  show execWindowTimeout o.id s = _
  unfold execWindowTimeout
  rw [hfind]
  simp only [hsent]
  rw [if_neg (by simp [hnet]), State.atTick_of_le hdue, hpump]

theorem execLfWriteApply_eq {s : State} {off n : Nat} {d : Word} {l : List (Nat × Word × Nat)} (hheld : s.lfHeld = (off, d, n) :: l)
    (hops : s.ops = []) (hnet : s.clocked .net = true) : exec .lfWriteApply s = .next (State.lfEffect { s with lfHeld := l } off d) := by
  have hnone : s.windowBefore n = false := (s.windowBefore_eq_false_iff n).2 (by simp [hops])
  have hpump : (State.lfEffect { s with lfHeld := l } off d).windowPump (State.lfEffect { s with lfHeld := l } off d).ops.length =
      State.lfEffect { s with lfHeld := l } off d := State.windowPump_of_no_ops hops
  show execLfWriteApply s = _
  unfold execLfWriteApply
  rw [hheld]
  simp only [hnone, hnet, Bool.not_true, Bool.false_eq_true, or_self, if_false, hpump]

/-- Settles O25: the writes of the path, the two ends of a window access, and the accesses of linked devices. -/
theorem linkWindow : Obligations.LinkWindow := by
  refine ⟨fun s w off d hclk hlock hoff hheld => ?path, fun s off n d l hheld hops hnet hoff => ?apply,
    fun s o d at_ hops hsent _ hnet => ⟨?answer, fun hdue => ?timeout⟩, fun s q hnet hclk => ⟨fun hwrite => ?write, fun hread => ?read⟩⟩
  case path =>
    have hoff' : off.toNat = 0x408 ∨ off.toNat = 0x420 := hoff.imp (congrArg BitVec.toNat) (congrArg BitVec.toNat)
    have hexec : exec (.lfWrite w off d) s = .next (if s.windowBefore s.opNext then { s.ok lfPg with lfHeld := [(off.toNat, d, s.opNext)] }
        else (s.ok lfPg).lfEffect off.toNat d) :=
      congrArg Host.Outcome.next ((State.writeReg_lfPath hclk hlock hoff' w d).trans (State.lfPut_eq hheld hoff' d))
    refine ⟨fun hnone => ?_, fun ⟨o, ho, hwin, hid⟩ => ?_⟩
    · rw [(s.windowBefore_eq_false_iff _).2 hnone] at hexec
      obtain ⟨hreg, hopen, hdepth⟩ := (s.ok lfPg).lfEffect_shows hoff' d
      rw [(s.keepsOff_ok lfPg).fld (by decide) fun _ => by decide] at hdepth
      exact ⟨_, hexec, hreg, hopen, hdepth, hheld⟩
    · have hbefore : s.windowBefore s.opNext = true := by
        simpa [State.windowBefore] using ⟨o, ho, hwin, hid⟩
      rw [hbefore] at hexec
      exact ⟨_, hexec, rfl, State.reg_setFld_off s lfPg _ (by simp; omega)⟩
  case apply =>
    obtain ⟨hreg, hopen, _⟩ := State.lfEffect_shows { s with lfHeld := l } hoff d
    exact ⟨_, execLfWriteApply_eq hheld hops hnet, rfl, hreg, hopen⟩
  case answer =>
    obtain ⟨hempty, hopen⟩ := State.answered_shows hops (s.remoteView ((o.addr - 0x41000000) / 0x1000) (o.addr % 0x1000) d).toNat
    exact ⟨_, execPgrspReceived_eq hops hsent hnet d, hempty, hopen,
      fun hload hpos hlt hepoch => State.answered_get hops hload hpos hlt hepoch _⟩
  case timeout => exact ⟨_, execWindowTimeout_eq hops hsent hnet hdue, State.windowFail_shows hops⟩
  case write =>
    show execPgreqReceived q s = _
    rw [execPgreqReceived, if_neg (by simp [hnet, hclk]), if_pos hwrite]
    simp only [Option.isNone_iff_eq_none]
  case read =>
    show execPgreqReceived q s = _
    rw [execPgreqReceived, if_neg (by simp [hnet, hclk]), if_neg (by simp [hread])]

end Sys2Proof.Machine
end

section
/-! A step of the block (R90, R92): the command in front, or on an empty queue the passing of time. -/

namespace Sys2Proof.Machine

theorem step_of_front {s : State} {c : Instr} {cs : List Instr} (h : s.pending = c :: cs) :
    step s = exec c { s with pending := cs } := by
  simp only [step, h]

theorem step_of_empty {s : State} (h : s.pending = []) : step s = .next s.idle.ethPump := by
  simp only [step, h]

theorem State.idle_of_counts {s : State} (h : s.tbCounts = true) : s.idle = { s with tb := s.tb + 1 } := if_pos h

theorem State.idle_of_stopped {s : State} (h : s.tbCounts = false) : s.idle = { s with kaLead := s.kaLead + 1 } := if_neg (by simp [h])

theorem State.ethPump_of_no_frames {s : State} (hqueue : s.eth.queue = []) (hwait : s.eth.txWait = none) : s.ethPump = s :=
  if_pos (.inr ⟨hqueue, Option.isNone_iff_eq_none.2 hwait⟩)

/-- Settles O1: the two cases of the queue, and the two of the time that passes. -/
theorem stepTakesFront : Obligations.StepTakesFront := by
  refine ⟨fun c cs s h => step_of_front h, fun s hempty hcounts => ?_, fun s hempty hstopped => ?_,
    fun s hqueue hwait => State.ethPump_of_no_frames hqueue hwait⟩
  · rw [step_of_empty hempty, State.idle_of_counts hcounts]
  · rw [step_of_empty hempty, State.idle_of_stopped hstopped]

end Sys2Proof.Machine
end

section
/-! The synchronisation of TB (R92, R100, R101, R102, R409): its role, the messages, the missed intervals and the deferred step. -/

namespace Sys2Proof.Machine

/-! ## The states of TB.SSTAT -/

theorem State.keepsRegs_syncGo (s : State) (st : Nat) : s.KeepsRegs (s.syncGo st) [0x10c] := by
  unfold State.syncGo
  split
  · exact .refl s _
  · exact (State.KeepsRegs.setFld s tbPg R.TB.SSTAT.STATE st (by decide) (by decide)).trans (.of_regs (State.post_regs ..) _)

theorem State.syncState_syncGo (s : State) {st : Nat} (h : st < 4) : (s.syncGo st).syncState = st := by
  unfold State.syncGo
  split
  next hsame => exact hsame
  next =>
    exact (State.fld_of_regs (State.post_regs ..) ..).trans
      (State.fld_setFld_fits s tbPg R.TB.SSTAT.STATE st (by decide) (by decide) h)

/-- Event 4 is posted where the state changes (R100). -/
theorem State.syncGo_postings (s : State) (st : Nat) :
    (s.syncGo st).postings = s.postings ++ if s.syncState = st then [] else [s.posting 4] := by
  unfold State.syncGo
  split
  next hsame => exact (List.append_nil _).symm
  next =>
    rw [State.post_postings, (State.KeepsRegs.setFld s tbPg R.TB.SSTAT.STATE st (List.mem_singleton_self _) (by decide)).posting (by decide),
      State.setFld_postings]

theorem State.syncGo_tb (s : State) (st : Nat) : (s.syncGo st).tb = s.tb := by
  unfold State.syncGo
  split <;> rfl

theorem State.syncGo_syncTick (s : State) (st : Nat) : (s.syncGo st).syncTick = s.syncTick := by
  unfold State.syncGo
  split <;> rfl

theorem State.syncGo_syncGood (s : State) (st : Nat) : (s.syncGo st).syncGood = s.syncGood := by
  unfold State.syncGo
  split <;> rfl

/-- RATE reads 0 where the next state of the synchronisation comes with no adjustment. -/
theorem State.rate_syncGo_of_zero {s : State} (h : s.fld tbPg R.TB.RATE.PPB = 0) (st : Nat) : (s.syncGo st).fld tbPg R.TB.RATE.PPB = 0 :=
  ((s.keepsRegs_syncGo st).fld tbPg (by decide) (by decide)).trans h

theorem State.rate_setFld_zero (s : State) : (s.setFld tbPg R.TB.RATE.PPB 0).fld tbPg R.TB.RATE.PPB = 0 :=
  State.fld_setFld_fits s tbPg R.TB.RATE.PPB 0 (by decide) (by decide) (by decide)

/-! ## A new role -/

/-- No adjustment is in force and no step waits (R100, R102). -/
def State.syncUnsteered (s : State) : State := { s.setFld tbPg R.TB.RATE.PPB 0 with syncGood := 0, tbStep := none }

theorem State.syncFreeGo_eq (s : State) : s.syncFreeGo = s.syncUnsteered.syncGo syncFree := rfl

theorem State.keepsRegs_syncUnsteered (s : State) : s.KeepsRegs s.syncUnsteered [0x114] :=
  (State.KeepsRegs.setFld s tbPg R.TB.RATE.PPB 0 (by decide) (by decide)).trans (.of_regs (by rfl) _)

theorem State.keepsRegs_syncFreeGo (s : State) : s.KeepsRegs s.syncFreeGo [0x114, 0x10c] :=
  (s.keepsRegs_syncUnsteered.mono (by simp)).trans ((s.syncUnsteered.keepsRegs_syncGo syncFree).mono (by simp))

theorem State.syncFreeGo_shows (s : State) : s.syncFreeGo.fld tbPg R.TB.RATE.PPB = 0 ∧ s.syncFreeGo.syncState = 0 :=
  ⟨State.rate_syncGo_of_zero (s := s.syncUnsteered) s.rate_setFld_zero syncFree, s.syncUnsteered.syncState_syncGo (by decide)⟩

theorem State.syncFreeGo_postings (s : State) :
    s.syncFreeGo.postings = s.postings ++ if s.syncState = 0 then [] else [s.posting 4] := by
  have hstate : s.syncUnsteered.syncState = s.syncState := s.keepsRegs_syncUnsteered.fld tbPg (by decide) (by decide)
  rw [State.syncFreeGo_eq, State.syncGo_postings, hstate, s.keepsRegs_syncUnsteered.posting (by decide)]
  rfl

/-- A role that is new is taken, and the synchronisation starts over in FREE (R100). -/
def State.syncRenewed (s : State) (role : Nat) : State := ((s.setFld tbPg R.TB.SYNC.ROLE role).syncFreeGo).ok tbPg

theorem State.syncRole_of_new {s : State} {role : Nat} (hrange : role ≠ 3) (hnew : role ≠ s.fld tbPg R.TB.SYNC.ROLE) :
    s.syncRole role = if role = 1 then (s.syncRenewed role).syncGo syncLocked else s.syncRenewed role := by
  rw [State.syncRole, if_neg hrange, if_neg hnew]
  rfl

theorem State.syncRenewed_shows (s : State) {role : Nat} (h : role < 4) :
    (s.syncRenewed role).fld tbPg R.TB.SYNC.ROLE = role ∧ (s.syncRenewed role).fld tbPg R.TB.RATE.PPB = 0 ∧
      (s.syncRenewed role).syncState = 0 ∧ (s.syncRenewed role).code tbPg = 0 := by
  have hok := State.keepsRegs_ok ((s.setFld tbPg R.TB.SYNC.ROLE role).syncFreeGo) tbPg (List.mem_singleton_self _)
  have hfree := (s.setFld tbPg R.TB.SYNC.ROLE role).keepsRegs_syncFreeGo
  obtain ⟨hrate, hstate⟩ := (s.setFld tbPg R.TB.SYNC.ROLE role).syncFreeGo_shows
  exact ⟨(hok.fld tbPg (by decide) (by decide)).trans ((hfree.fld tbPg (by decide) (by decide)).trans
      (State.fld_setFld_fits s tbPg R.TB.SYNC.ROLE role (by decide) (by decide) h)),
    (hok.fld tbPg (by decide) (by decide)).trans hrate, (hok.fld tbPg (by decide) (by decide)).trans hstate, State.code_ok ..⟩

/-- ROLE changes no logical core, so that what is posted goes where it went (R265). -/
theorem State.posting_setFld_role (s : State) (role ev : Nat) : (s.setFld tbPg R.TB.SYNC.ROLE role).posting ev = s.posting ev :=
  (State.KeepsOff.setFld s tbPg R.TB.SYNC.ROLE role (List.mem_singleton_self _) (by decide)).posting (by decide) ev

theorem State.posting_syncRenewed (s : State) (role ev : Nat) : (s.syncRenewed role).posting ev = s.posting ev :=
  ((State.keepsRegs_ok _ tbPg (List.mem_singleton_self _)).posting (by decide) ev).trans
    (((State.keepsRegs_syncFreeGo _).posting (by decide) ev).trans (s.posting_setFld_role role ev))

theorem State.syncRenewed_postings (s : State) (role : Nat) :
    (s.syncRenewed role).postings = s.postings ++ if s.syncState = 0 then [] else [s.posting 4] := by
  have hstate : (s.setFld tbPg R.TB.SYNC.ROLE role).syncState = s.syncState := State.fld_setFld_apart s tbPg role (by simp)
  rw [State.syncRenewed, State.ok_postings, State.syncFreeGo_postings, hstate, s.posting_setFld_role, State.setFld_postings]

/-- A grandmaster is LOCKED from FREE on (R100). -/
theorem State.syncRenewed_locks (s : State) :
    let t := (s.syncRenewed 1).syncGo syncLocked
    t.fld tbPg R.TB.SYNC.ROLE = 1 ∧ t.fld tbPg R.TB.RATE.PPB = 0 ∧ t.syncState = 2 ∧ t.code tbPg = 0 ∧
      (s.syncState ≠ 0 → t.postings = s.postings ++ [s.posting 4, s.posting 4]) := by
  obtain ⟨hrole, hrate, hfree, hcode⟩ := s.syncRenewed_shows (role := 1) (by decide)
  have hgo := (s.syncRenewed 1).keepsRegs_syncGo syncLocked
  refine ⟨(hgo.fld tbPg (by decide) (by decide)).trans hrole, State.rate_syncGo_of_zero hrate _, State.syncState_syncGo _ (by decide),
    (hgo.fld tbPg (by decide) (by decide)).trans hcode, fun hleft => ?_⟩
  rw [State.syncGo_postings, hfree, if_neg (by decide), State.syncRenewed_postings, if_neg hleft,
    s.posting_syncRenewed, List.append_assoc]
  rfl

theorem exec_syncRoleWrite {s : State} (hlock : s.locked 0x003 = false) (hclk : s.clocked .io = true) (role : BitVec 2) :
    exec (.syncRoleWrite role) s = .next (s.syncRole role.toNat) := by
  change execSyncRoleWrite role s = _
  simp only [execSyncRoleWrite, hclk, hlock, tbPg, Bool.not_true, Bool.false_eq_true, if_false]

theorem syncRoleWrite_renews {s : State} (hlock : s.locked 0x003 = false) (hclk : s.clocked .io = true) {role : BitVec 2}
    (hrange : role ≠ 3) (hnew : role.toNat ≠ s.fld 0x003 R.TB.SYNC.ROLE) : Gives (.syncRoleWrite role) s fun t =>
      t.fld 0x003 R.TB.SYNC.ROLE = role.toNat ∧ t.fld 0x003 R.TB.RATE.PPB = 0 ∧ t.syncState = (if role = 1 then 2 else 0) ∧
      t.code 0x003 = 0 ∧ (role = 1 → s.syncState ≠ 0 → t.postings = s.postings ++ [s.posting 4, s.posting 4]) := by
  have hrange' : role.toNat ≠ 3 := fun h => hrange (BitVec.eq_of_toNat_eq h)
  refine ⟨_, (exec_syncRoleWrite hlock hclk role).trans (congrArg _ (State.syncRole_of_new hrange' hnew)), ?_⟩
  by_cases hmaster : role = 1
  · subst hmaster
    obtain ⟨hrole, hrate, hstate, hcode, hpost⟩ := s.syncRenewed_locks
    exact ⟨hrole, hrate, hstate, hcode, fun _ => hpost⟩
  · have hmaster' : role.toNat ≠ 1 := fun h => hmaster (BitVec.eq_of_toNat_eq h)
    obtain ⟨hrole, hrate, hstate, hcode⟩ := s.syncRenewed_shows (role := role.toNat) role.isLt
    rw [if_neg hmaster', if_neg hmaster]
    exact ⟨hrole, hrate, hstate, hcode, fun h => absurd h hmaster⟩

/-! ## Steering -/

/-- A step of TB moves TB by its length and leaves the compares to fire (R93, R102). -/
theorem State.tbAdvance_tb (s : State) (k : Nat) : (s.tbAdvance k).tb = s.tb + k := rfl

theorem State.tbAdvance_tbStep (s : State) (k : Nat) : (s.tbAdvance k).tbStep = s.tbStep := by
  refine List.foldlRecOn (motive := fun u : State => u.tbStep = s.tbStep) (List.range 8) _ rfl fun u hu n _ => ?_
  dsimp only
  split
  · exact hu
  · exact hu

theorem State.steer_of_far_behind {s : State} {off : Int} (h : off < -100000) :
    s.steer off = if s.fixArmed then { s with tbStep := some ((-off) / 10).toNat } else s.tbAdvance ((-off) / 10).toNat := if_pos h

/-- The rate that a message sets, with the free amount `v` (R101). -/
def steerRate (v : Nat) (off : Int) : Int :=
  if 0 < off then -((v % 250000 : Nat) : Int) - 1 else if off < 0 then ((v % 250000 : Nat) : Int) + 1 else (v : Int) - 250000

theorem State.steer_of_near {s : State} {off : Int} (h : -100000 ≤ off) : s.steer off =
    (s.setFld tbPg R.TB.RATE.PPB (toField 32 (steerRate (Config.freeRate s.freeCtr).val off))).nextFree := if_neg (by omega)

/-- A TB that is ahead is slowed, within 250 ppm (R101). -/
theorem steerRate_of_ahead {off : Int} (h : 0 < off) (v : Nat) : steerRate v off < 0 ∧ -250000 ≤ steerRate v off := by
  rw [steerRate, if_pos h]
  omega

/-- A TB that is behind is sped up, within 250 ppm (R101). -/
theorem steerRate_of_behind {off : Int} (h : off < 0) (v : Nat) : 0 < steerRate v off ∧ steerRate v off ≤ 250000 := by
  rw [steerRate, if_neg (by omega), if_pos h]
  omega

/-- A register that is one field of 32 bits holds what is written to it. -/
theorem State.reg_setFld_word (s : State) (pg : Nat) {f : Fld} (hlo : f.lo = 0) (hhi : f.hi = 31) (v : Nat) :
    (s.setFld pg f v).reg pg f.off = BitVec.ofNat 32 v := by
  have hmask : f.mask = BitVec.allOnes 32 := by rw [Fld.mask, hlo, hhi]; rfl
  have hnone : ~~~f.mask = 0#32 := by rw [hmask]; rfl
  rw [State.setFld, State.reg_setReg_same, Fld.put, hnone, hmask, hlo, BitVec.shiftLeft_zero, BitVec.and_allOnes, BitVec.and_zero,
    BitVec.zero_or]

theorem ofNat_toField (r : Int) : BitVec.ofNat 32 (toField 32 r) = BitVec.ofInt 32 r := by
  apply BitVec.eq_of_toNat_eq
  rw [BitVec.toNat_ofNat, BitVec.toNat_ofInt, toField]
  omega

/-- A signed number in such a register reads as it was written. -/
theorem State.toInt_reg_setFld_toField (s : State) (pg : Nat) {f : Fld} (hlo : f.lo = 0) (hhi : f.hi = 31) {r : Int}
    (hmin : -2 ^ 31 ≤ r) (hmax : r < 2 ^ 31) : ((s.setFld pg f (toField 32 r)).reg pg f.off).toInt = r := by
  rw [s.reg_setFld_word pg hlo hhi, ofNat_toField]
  exact BitVec.toInt_ofInt_eq_self (w := 32) (by decide) hmin hmax

end Sys2Proof.Machine
end

section
/-! Messages of the grandmaster (R100, R101, R409), and what a follower does without them (R100, R102). -/

namespace Sys2Proof.Machine

/-! ## A message is counted -/

/-- The good messages in a row after one with the offset `off` in ACQUIRE, or in another state (R100). -/
def syncRun (st before : Nat) (off : Int) : Nat := if st = syncAcquire && decide (off.natAbs ≤ 20) then before + 1 else 0

/-- The state after a message with the offset `off`, the `n`-th good one in a row (R100). -/
def syncNext (st n : Nat) (off : Int) : Nat :=
  if st = syncLocked then (if decide (off.natAbs ≤ 20) then syncLocked else syncAcquire)
  else if st = syncAcquire ∧ 8 ≤ n then syncLocked else syncAcquire

theorem syncNext_lt (st n : Nat) (off : Int) : syncNext st n off < 4 := by
  unfold syncNext
  repeat' split
  all_goals decide

/-- A message is counted and brings the follower to its next state (R100). -/
def State.syncCounted (s : State) (off : Int) : State :=
  let st := s.syncState
  let n := syncRun st s.syncGood off
  (State.detectIf { s with syncTick := s.tb, syncGood := n } (decide (st = syncLocked ∧ syncNext st n off ≠ syncLocked)) tbPg 3).syncGo
    (syncNext st n off)

theorem State.keepsRegs_detectIf (s : State) (c : Bool) (pg bit : Nat) : s.KeepsRegs (s.detectIf c pg bit) [0x48] := by
  cases c
  · exact .refl s _
  · exact .detect s pg bit (by decide)

theorem State.keepsRegs_syncCounted (s : State) (off : Int) : s.KeepsRegs (s.syncCounted off) [0x48, 0x10c] :=
  ((State.KeepsRegs.of_regs (by rfl) _).trans ((State.keepsRegs_detectIf _ _ tbPg 3).mono (by simp))).trans
    ((State.keepsRegs_syncGo _ _).mono (by simp))

theorem State.syncCounted_syncState (s : State) (off : Int) :
    (s.syncCounted off).syncState = syncNext s.syncState (syncRun s.syncState s.syncGood off) off :=
  State.syncState_syncGo _ (syncNext_lt ..)

/-- What a counted message leaves beside the registers (R100). -/
theorem State.syncCounted_keeps (s : State) (off : Int) : (s.syncCounted off).tb = s.tb ∧ (s.syncCounted off).syncTick = s.tb ∧
    (s.syncCounted off).syncGood = syncRun s.syncState s.syncGood off := by
  have hdetect (u : State) (c : Bool) : (u.detectIf c tbPg 3).tb = u.tb ∧ (u.detectIf c tbPg 3).syncTick = u.syncTick ∧
      (u.detectIf c tbPg 3).syncGood = u.syncGood := by
    cases c
    · exact ⟨rfl, rfl, rfl⟩
    · exact ⟨State.detect_tb .., State.detect_syncTick .., State.detect_syncGood ..⟩
  simp only [State.syncCounted, State.syncGo_tb, State.syncGo_syncTick, State.syncGo_syncGood, hdetect, and_self]

/-- A follower that leaves LOCKED shows it in PG_FSTAT (R100). -/
theorem State.syncCounted_leaves {s : State} {off : Int} (hst : s.syncState = 2) (hbad : 20 < off.natAbs) :
    (s.syncCounted off).syncState = 1 ∧ (s.syncCounted off).fstat 0x003 3 = true := by
  have hnext (n : Nat) : syncNext s.syncState n off = 1 := by
    simp [syncNext, hst, syncLocked, syncAcquire, Nat.not_le.2 hbad]
  refine ⟨(s.syncCounted_syncState off).trans (hnext _), ?_⟩
  have hleft : decide (s.syncState = syncLocked ∧ syncNext s.syncState (syncRun s.syncState s.syncGood off) off ≠ syncLocked) = true := by
    rw [hnext]
    simp [hst, syncLocked]
  rw [State.syncCounted, hleft, (State.keepsRegs_syncGo _ _).fstat (by decide)]
  exact State.fstat_detect_same _ 0x003 (by decide)

theorem syncNext_of_locked {off : Int} (hgood : off.natAbs ≤ 20) (n : Nat) : syncNext 2 n off = 2 := by
  simp [syncNext, syncLocked, hgood]

theorem syncNext_of_acquire {off : Int} (hgood : off.natAbs ≤ 20) (before : Nat) :
    syncNext 1 (syncRun 1 before off) off = if before + 1 < 8 then 1 else 2 := by
  have hrun : syncRun 1 before off = before + 1 := by simp [syncRun, syncAcquire, hgood]
  rw [hrun, syncNext, if_neg (by decide)]
  by_cases h : before + 1 < 8
  · rw [if_neg (by omega), if_pos h]
    rfl
  · rw [if_pos ⟨rfl, by omega⟩, if_neg h]
    rfl

/-- The message that brings a follower to ACQUIRE is not counted (R100, log entry 69). -/
theorem syncNext_of_unsynced {st : Nat} (h : st = 0 ∨ st = 3) (before : Nat) (off : Int) :
    syncRun st before off = 0 ∧ syncNext st (syncRun st before off) off = 1 := by
  rcases h with rfl | rfl <;> exact ⟨rfl, rfl⟩

/-! ## The message -/

theorem State.syncTake_eq (s : State) (m : SyncMsg) : ∃ e, (s.syncTake m).1 = s.setEth e := by
  unfold State.syncTake
  dsimp only
  split
  · exact ⟨_, rfl⟩
  · exact ⟨_, rfl⟩

/-- The offset that a follower measures is shown (R100). -/
def State.syncMeasured (s : State) (m : SyncMsg) : State := (s.syncTake m).1.setFld tbPg R.TB.OFFSET.NS (toField 32 m.offset)

/-- A follower's state after a message, before it steers (R100). -/
def State.syncTaken (s : State) (m : SyncMsg) : State := (s.syncMeasured m).syncCounted m.offset

theorem State.syncMeasured_shows (s : State) (m : SyncMsg) : s.KeepsRegs (s.syncMeasured m) [0x110] ∧ (s.syncMeasured m).tb = s.tb ∧
    (s.syncMeasured m).syncGood = s.syncGood := by
  obtain ⟨e, he⟩ := s.syncTake_eq m
  rw [State.syncMeasured, he]
  exact ⟨(State.KeepsRegs.of_regs (by rfl) _).trans (.setFld _ tbPg R.TB.OFFSET.NS _ (by decide) (by decide)), rfl, rfl⟩

theorem State.syncState_syncMeasured (s : State) (m : SyncMsg) : (s.syncMeasured m).syncState = s.syncState :=
  (s.syncMeasured_shows m).1.fld tbPg (by decide) (by decide)

theorem State.syncTaken_keeps (s : State) (m : SyncMsg) :
    (s.syncTaken m).tb = s.tb ∧ (s.syncTaken m).syncTick = s.tb ∧ (s.syncTaken m).fixArmed = s.fixArmed := by
  obtain ⟨hregs, htb, -⟩ := s.syncMeasured_shows m
  obtain ⟨htb', htick, -⟩ := (s.syncMeasured m).syncCounted_keeps m.offset
  have hfix : (s.syncTaken m).fld 0x002 R.FIX.STATE.ST = s.fld 0x002 R.FIX.STATE.ST :=
    ((State.keepsRegs_syncCounted _ _).fld 0x002 (by decide) (by decide)).trans (hregs.fld 0x002 (by decide) (by decide))
  exact ⟨htb'.trans htb, htick.trans htb, by rw [State.fixArmed, State.fixArmed, hfix]⟩

theorem State.syncTaken_counts (s : State) (m : SyncMsg) : (s.syncTaken m).syncGood = syncRun s.syncState s.syncGood m.offset ∧
    (s.syncTaken m).syncState = syncNext s.syncState (syncRun s.syncState s.syncGood m.offset) m.offset := by
  obtain ⟨-, -, hgood⟩ := s.syncMeasured_shows m
  obtain ⟨-, -, hrun⟩ := (s.syncMeasured m).syncCounted_keeps m.offset
  have hnext := (s.syncMeasured m).syncCounted_syncState m.offset
  rw [s.syncState_syncMeasured, hgood] at hrun hnext
  exact ⟨hrun, hnext⟩

/-- A message within 100 000 ns is answered by a rate (R101). -/
theorem State.steer_syncTaken_of_near (s : State) {m : SyncMsg} (hnear : -100000 ≤ m.offset) : ∃ v, (s.syncTaken m).steer m.offset =
    ((s.syncTaken m).setFld tbPg R.TB.RATE.PPB (toField 32 (steerRate v m.offset))).nextFree :=
  ⟨_, State.steer_of_near hnear⟩

theorem State.syncTaken_near_states {s : State} {m : SyncMsg} (hnear : -100000 ≤ m.offset) :
    let t := (s.syncTaken m).steer m.offset
    t.tb = s.tb ∧ t.syncTick = s.tb ∧
    (s.syncState = 2 → m.offset.natAbs ≤ 20 → t.syncState = 2) ∧
    (s.syncState = 2 → 20 < m.offset.natAbs → t.syncState = 1 ∧ t.fstat 0x003 3 = true) ∧
    (s.syncState = 1 → m.offset.natAbs ≤ 20 → t.syncState = (if s.syncGood + 1 < 8 then 1 else 2)) ∧
    (s.syncState = 0 ∨ s.syncState = 3 → t.syncState = 1 ∧ t.syncGood = 0) := by
  obtain ⟨htb, htick, -⟩ := s.syncTaken_keeps m
  obtain ⟨hrun, hnext⟩ := s.syncTaken_counts m
  obtain ⟨v, hv⟩ := s.steer_syncTaken_of_near hnear
  have hsteer : (s.syncTaken m).KeepsRegs ((s.syncTaken m).steer m.offset) [0x114] :=
    hv ▸ (State.KeepsRegs.setFld _ tbPg R.TB.RATE.PPB _ (by decide) (by decide)).trans (.of_regs (by rfl) _)
  have hshown : ((s.syncTaken m).steer m.offset).syncState = (s.syncTaken m).syncState := hsteer.fld tbPg (by decide) (by decide)
  refine ⟨hv ▸ htb, hv ▸ htick, fun h2 hle => ?_, fun h2 hgt => ?_, fun h1 hle => ?_, fun h03 => ?_⟩
  · exact hshown.trans (hnext.trans (h2 ▸ syncNext_of_locked hle _))
  · obtain ⟨hacquire, hleft⟩ := State.syncCounted_leaves ((s.syncState_syncMeasured m).trans h2) hgt
    exact ⟨hshown.trans hacquire, (hsteer.fstat (by decide) ..).trans hleft⟩
  · exact hshown.trans (hnext.trans (h1 ▸ syncNext_of_acquire hle _))
  · obtain ⟨hzero, hacquire⟩ := syncNext_of_unsynced h03 s.syncGood m.offset
    exact ⟨hshown.trans (hnext.trans hacquire), hv ▸ hrun.trans hzero⟩

theorem State.syncTaken_near_rate {s : State} {m : SyncMsg} (hnear : -100000 ≤ m.offset) :
    let r := (((s.syncTaken m).steer m.offset).reg 0x003 R.TB.RATE.PPB.off).toInt
    (0 < m.offset → r < 0 ∧ -250000 ≤ r) ∧ (m.offset < 0 → 0 < r ∧ r ≤ 250000) := by
  obtain ⟨v, hv⟩ := s.steer_syncTaken_of_near hnear
  have hrate (hmin : -2 ^ 31 ≤ steerRate v m.offset) (hmax : steerRate v m.offset < 2 ^ 31) :
      (((s.syncTaken m).steer m.offset).reg 0x003 R.TB.RATE.PPB.off).toInt = steerRate v m.offset := by
    rw [hv]
    exact State.toInt_reg_setFld_toField (s.syncTaken m) tbPg (f := R.TB.RATE.PPB) rfl rfl hmin hmax
  refine ⟨fun hahead => ?_, fun hbehind => ?_⟩
  · obtain ⟨hslow, hmin⟩ := steerRate_of_ahead hahead v
    rw [hrate (by omega) (by omega)]
    exact ⟨hslow, hmin⟩
  · obtain ⟨hfast, hmax⟩ := steerRate_of_behind hbehind v
    rw [hrate (by omega) (by omega)]
    exact ⟨hfast, hmax⟩

theorem State.syncTaken_far_behind {s : State} {m : SyncMsg} (hfar : m.offset < -100000) :
    let t := (s.syncTaken m).steer m.offset
    (s.fixArmed = false → t.tb = s.tb + ((-m.offset) / 10).toNat) ∧
    (s.fixArmed = true → t.tb = s.tb ∧ t.tbStep = some ((-m.offset) / 10).toNat) := by
  obtain ⟨htb, -, hfix⟩ := s.syncTaken_keeps m
  dsimp only
  rw [State.steer_of_far_behind hfar, hfix]
  refine ⟨fun hidle => ?_, fun harmed => ?_⟩
  · rw [hidle, if_neg (by decide), State.tbAdvance_tb, htb]
  · rw [harmed, if_pos rfl]
    exact ⟨htb, rfl⟩

/-- A device that is no grandmaster hears the messages of its link ports while NET has a clock (R100, R105, R409). -/
theorem syncMessage_heard {s : State} {m : SyncMsg} (hrole : s.fld 0x003 R.TB.SYNC.ROLE ≠ 1)
    (hport : s.linkPorts.contains m.port.val = true) (hnet : s.clocked .net = true) :
    ¬(s.fld tbPg R.TB.SYNC.ROLE = 1 ∨ (!s.linkPorts.contains m.port.val) = true ∨ (!s.clocked .net) = true) := by
  simp only [tbPg, hrole, hport, hnet, Bool.not_true, Bool.false_eq_true, or_self, not_false_eq_true]

/-- A message that a device does not follow is only noted and relayed (R100, R409). -/
theorem exec_syncMessage_relays {s : State} {m : SyncMsg} (hport : s.linkPorts.contains m.port.val = true) (hnet : s.clocked .net = true)
    (h : s.fld 0x003 R.TB.SYNC.ROLE = 0 ∨ (s.fld 0x003 R.TB.SYNC.ROLE = 2 ∧ (s.syncTake m).2 = false)) :
    exec (.syncMessage m) s = .next (s.syncTake m).1 := by
  obtain ⟨e, he⟩ := s.syncTake_eq m
  have hrole : (s.syncTake m).1.fld tbPg R.TB.SYNC.ROLE = s.fld 0x003 R.TB.SYNC.ROLE := by rw [he]; rfl
  refine (if_neg (syncMessage_heard (by omega) hport hnet)).trans (if_pos ?_)
  rw [hrole]
  rcases h with h | ⟨-, h⟩
  · exact .inr (.inl (by omega))
  · exact .inl (by rw [h]; rfl)

theorem exec_syncMessage_taken {s : State} {m : SyncMsg} (hrole : s.fld 0x003 R.TB.SYNC.ROLE = 2)
    (hport : s.linkPorts.contains m.port.val = true) (hcounts : s.tbCounts = true) (hio : s.clocked .io = true)
    (hnet : s.clocked .net = true) (htaken : (s.syncTake m).2 = true) :
    exec (.syncMessage m) s = .next ((s.syncTaken m).steer m.offset) := by
  obtain ⟨e, he⟩ := s.syncTake_eq m
  have hkeeps : (s.syncTake m).1.fld tbPg R.TB.SYNC.ROLE = 2 ∧ (s.syncTake m).1.tbCounts = true ∧ (s.syncTake m).1.clocked .io = true := by
    rw [he]
    exact ⟨hrole, hcounts, hio⟩
  obtain ⟨hrole', hcounts', hio'⟩ := hkeeps
  exact (if_neg (syncMessage_heard (by omega) hport hnet)).trans (if_neg (by simp [htaken, hrole', hcounts', hio']))

/-! ## Without messages -/

theorem syncMissed_holds_over {s : State} (hst : s.syncState = 2) (hrole : s.fld 0x003 R.TB.SYNC.ROLE = 2)
    (hdue : s.syncTick + 3 * s.syncInterval ≤ s.tb) (hclk : s.clocked .io = true) :
    Gives .syncMissed s fun t => t.syncState = 3 ∧ t.fstat 0x003 3 = true := by
  have hexec : exec .syncMissed s = .next ((s.syncGo syncHoldover).detect tbPg 3) :=
    (if_pos ⟨hst, hrole, hclk⟩).trans (State.atTick_of_le hdue _)
  exact ⟨_, hexec, ((State.KeepsRegs.detect _ tbPg 3 (List.mem_singleton_self _)).fld tbPg (by decide) (by decide)).trans
    (State.syncState_syncGo s (by decide)), State.fstat_detect_same _ tbPg (by decide)⟩

theorem holdoverTimeout_frees {s : State} (hst : s.syncState = 3) (hdue : s.syncTick + s.fld 0x003 R.TB.HOLDTMO.S * 100000000 ≤ s.tb)
    (hclk : s.clocked .io = true) : Gives .holdoverTimeout s fun t => t.syncState = 0 ∧ t.fld 0x003 R.TB.RATE.PPB = 0 := by
  have hexec : exec .holdoverTimeout s = .next ((s.setFld tbPg R.TB.RATE.PPB 0).syncGo syncFree) :=
    (if_pos ⟨hst, hclk⟩).trans (State.atTick_of_le hdue _)
  exact ⟨_, hexec, State.syncState_syncGo _ (by decide), State.rate_syncGo_of_zero s.rate_setFld_zero _⟩

theorem deferredTbStep_steps {s : State} {k : Nat} (hstep : s.tbStep = some k) (hfix : s.fixArmed = false) (hcounts : s.tbCounts = true)
    (hclk : s.clocked .io = true) : Gives .deferredTbStep s fun t => t.tb = s.tb + k ∧ t.tbStep = none := by
  have hexec : exec .deferredTbStep s = .next (State.tbAdvance { s with tbStep := none } k) := by
    change execDeferredTbStep s = _
    rw [execDeferredTbStep, hstep]
    exact if_neg (by simp [hfix, hcounts, hclk])
  exact ⟨_, hexec, rfl, State.tbAdvance_tbStep ..⟩

end Sys2Proof.Machine
end

section
/-! The clocks of the islands (R92, R104, R105, R107): loss and return, the locks of the PLLs, and the crystal. -/

namespace Sys2Proof.Machine

/-! ## Bits of the CLK page -/

theorem State.clkBit_setClkBit_same (s : State) (f : Fld) {i : Nat} (hi : i < 32) (b : Bool) : (s.setClkBit f i b).clkBit f i = b := by
  rw [State.clkBit, State.setClkBit, State.reg_setReg_same]
  cases b
  · rw [if_neg (by decide), BitVec.getLsbD_and, BitVec.getLsbD_not, bitMask_getLsbD hi]
    simp
  · rw [if_pos rfl, BitVec.getLsbD_or, bitMask_getLsbD hi, Bool.or_true]

theorem State.keepsOff_setClkBit (s : State) {f : Fld} (hf : f.off < 0x1000) (i : Nat) (b : Bool) :
    s.KeepsOff (s.setClkBit f i b) clkPg [f.off] := .setReg s clkPg _ (List.mem_singleton_self _) hf

theorem State.clkBit_setClkBit_ne (s : State) {f g : Fld} (hf : f.off < 0x1000) (hg : g.off < 0x1000) (h : g.off ≠ f.off) (i j : Nat)
    (b : Bool) : (s.setClkBit f i b).clkBit g j = s.clkBit g j := by
  rw [State.clkBit, State.clkBit, (s.keepsOff_setClkBit hf i b).reg clkPg g.off hg fun _ => by simpa using h]

theorem State.clkBit_of_regs {s t : State} (h : t.regs = s.regs) (f : Fld) (i : Nat) : t.clkBit f i = s.clkBit f i := by
  rw [State.clkBit, State.clkBit, State.reg_of_regs h]

/-! ## The locks of the PLLs -/

theorem State.lockTo_of_change {s : State} {i : Nat} {b : Bool} (h : s.clkBit R.CLK.LOCK.L i = !b) :
    s.lockTo i b = (s.setClkBit R.CLK.LOCK.L i b).post 5 := if_neg (by simp [h])

/-- A change of LOCK posts event 5, and stops no island (R105, R107). -/
theorem State.lockTo_shows {s : State} {i : Nat} (hi : i < 32) {b : Bool} (h : s.clkBit R.CLK.LOCK.L i = !b) :
    (s.lockTo i b).clkBit R.CLK.LOCK.L i = b ∧ (s.lockTo i b).postings = s.postings ++ [s.posting 5] ∧
      (s.lockTo i b).clkDead = s.clkDead ∧ (s.lockTo i b).raises = s.raises := by
  rw [State.lockTo_of_change h]
  refine ⟨s.clkBit_setClkBit_same R.CLK.LOCK.L hi b, ?_, rfl, rfl⟩
  rw [State.post_postings, (s.keepsOff_setClkBit (f := R.CLK.LOCK.L) (by decide) i b).posting (by decide)]
  rfl

theorem pllUnlock_tells {s : State} {i : Fin 17} (hi : i.val ≠ 0) (hlocked : s.clkBit R.CLK.LOCK.L i = true) (hpower : s.power ≠ .park) :
    Gives (.pllUnlock i) s fun t =>
      t.clkBit R.CLK.LOCK.L i = false ∧ t.postings = s.postings ++ [s.posting 5] ∧ t.raises = s.raises ++ [⟨10, .page 0x004⟩] := by
  have hexec : exec (.pllUnlock i) s = .next ((s.lockTo i false).raise 10 (.page clkPg)) := if_neg (by simp [hi, hlocked, hpower])
  obtain ⟨hlock, hpost, -, hraises⟩ := State.lockTo_shows (b := false) (show i.val < 32 by omega) hlocked
  exact ⟨_, hexec, hlock, hpost, congrArg (· ++ _) hraises⟩

theorem islandPllLock_locks {s : State} {i : Fin 17} (hi : i.val ≠ 0) (hunlocked : s.clkBit R.CLK.LOCK.L i = false)
    (hgate : s.clkBit R.CLK.GATE.G i = false) (hpower : s.power ≠ .park) (hxok : s.pwr.xok = true) :
    GivesThen (.islandPllLock i) s (fun u => if u.clkDead.contains i.val then u.islandRuns i else u) fun u =>
      u.clkBit R.CLK.LOCK.L i = true ∧ u.postings = s.postings ++ [s.posting 5] ∧ u.clkDead = s.clkDead := by
  have hexec : exec (.islandPllLock i) s = .next (s.pllLock i) := if_neg (by simp [hi, hunlocked, hgate, hpower, hxok])
  obtain ⟨hlock, hpost, hdead, -⟩ := State.lockTo_shows (b := true) (show i.val < 32 by omega) hunlocked
  exact ⟨s.lockTo i true, hexec, hlock, hpost, hdead⟩

/-! ## A lost clock -/

/-- What CLK shows of a lost clock, with event 5 where it is new (R104). -/
def State.clkLossShown (s : State) (i : Nat) : State :=
  ((s.setClkBit R.CLK.LOSS.L i true).setClkBit R.CLK.LOCK.L i false).postIf
    (!s.clkBit R.CLK.LOSS.L i || s.clkBit R.CLK.LOCK.L i) 5

/-- The causes of a lost clock (R105). -/
def State.clkLossRaised (s : State) (i : Nat) : State :=
  let s := ({ s with clkLost := s.clkLost ++ [i] } : State).raise 9 .loss
  if i = 16 then s.raise 12 (.page clkPg) else s

theorem State.clkLossShown_eq (s : State) (i : Nat) :
    ∃ rg po ca pu, s.clkLossShown i = { s with regs := rg, postings := po, capPend := ca, pulses := pu } := by
  unfold State.clkLossShown State.postIf
  split
  · exact ⟨_, _, _, _, rfl⟩
  · exact ⟨_, _, _, _, rfl⟩

theorem State.clkLossRaised_eq (s : State) (i : Nat) : s.clkLossRaised i = { s with
    clkLost := s.clkLost ++ [i], raises := s.raises ++ if i = 16 then [⟨9, .loss⟩, ⟨12, .page clkPg⟩] else [⟨9, .loss⟩] } := by
  by_cases h : i = 16
  · simp [State.clkLossRaised, State.raise, h]
  · simp [State.clkLossRaised, State.raise, h]

theorem State.postIf_regs (s : State) (c : Bool) (ev : Nat) : (s.postIf c ev).regs = s.regs := by
  cases c <;> rfl

theorem State.clkLossShown_bits (s : State) {i : Nat} (hi : i < 32) :
    (s.clkLossShown i).clkBit R.CLK.LOSS.L i = true ∧ (s.clkLossShown i).clkBit R.CLK.LOCK.L i = false := by
  have hpost (f : Fld) : (s.clkLossShown i).clkBit f i = ((s.setClkBit R.CLK.LOSS.L i true).setClkBit R.CLK.LOCK.L i false).clkBit f i :=
    State.clkBit_of_regs (State.postIf_regs ..) f i
  refine ⟨(hpost _).trans ?_, (hpost _).trans (State.clkBit_setClkBit_same _ _ hi false)⟩
  exact (State.clkBit_setClkBit_ne _ (by decide) (by decide) (by decide) ..).trans (s.clkBit_setClkBit_same _ hi true)

theorem State.clkLossShown_postings {s : State} {i : Nat} (hnew : s.clkBit R.CLK.LOSS.L i = false ∨ s.clkBit R.CLK.LOCK.L i = true) :
    (s.clkLossShown i).postings = s.postings ++ [s.posting 5] := by
  have hnew' : (!s.clkBit R.CLK.LOSS.L i || s.clkBit R.CLK.LOCK.L i) = true := by
    rcases hnew with h | h <;> simp [h]
  rw [State.clkLossShown, hnew', State.postIf_postings, (State.keepsOff_setClkBit _ (f := R.CLK.LOCK.L) (by decide) i false).posting (by decide),
    (s.keepsOff_setClkBit (f := R.CLK.LOSS.L) (by decide) i true).posting (by decide)]
  rfl

theorem clockLoss_tells {s : State} {i : Fin 17} (hi : i.val ≠ 0) (hruns : s.clkDead.contains i.val = false) (hpower : s.power ≠ .park) :
    GivesThen (.clockLoss i) s (fun u => u.islandStops i) fun u =>
      u.clkBit R.CLK.LOSS.L i = true ∧ u.clkBit R.CLK.LOCK.L i = false ∧ u.clkLost = s.clkLost ++ [i.val] ∧
      (s.clkBit R.CLK.LOSS.L i = false ∨ s.clkBit R.CLK.LOCK.L i = true → u.postings = s.postings ++ [s.posting 5]) ∧
      u.raises = s.raises ++ (if i.val = 16 then [⟨9, .loss⟩, ⟨12, .page 0x004⟩] else [⟨9, .loss⟩]) ∧ u.mem = s.mem := by
  have hexec : exec (.clockLoss i) s = .next (((s.clkLossShown i).clkLossRaised i).islandStops i) :=
    if_neg (by simp only [hi, hruns, hpower, Bool.false_eq_true, or_self, not_false_eq_true])
  obtain ⟨hloss, hlock⟩ := s.clkLossShown_bits (show i.val < 32 by omega)
  obtain ⟨_, _, _, _, hshown⟩ := s.clkLossShown_eq i
  refine ⟨_, hexec, ?_⟩
  rw [State.clkLossRaised_eq]
  exact ⟨hloss, hlock, by rw [hshown], State.clkLossShown_postings, by rw [hshown]; rfl, by rw [hshown]⟩

/-! ## A clock that is back -/

theorem exec_clockReturn {s : State} {i : Fin 17} (hlost : s.clkLost.contains i.val = true) (hgate : s.clkBit R.CLK.GATE.G i = false)
    (hpower : s.power ≠ .park) (hxin : s.xinOut = false) :
    exec (.clockReturn i) s = .next (let t := s.islandRuns i; t.windowPump t.ops.length) :=
  if_neg (by simp only [hlost, hgate, hpower, hxin, Bool.not_true, Bool.false_eq_true, or_self, not_false_eq_true])

/-- The MEM island only runs again (R105). -/
theorem State.islandRuns_mem (s : State) : s.islandRuns 12 =
    { s with clkDead := s.clkDead.filter (· ≠ 12), clkLost := s.clkLost.filter (· ≠ 12) } := rfl

theorem clockReturn_mem {s : State} {i : Fin 17} (hi : i.val = 12) (hlost : s.clkLost.contains i.val = true)
    (hgate : s.clkBit R.CLK.GATE.G i = false) (hpower : s.power ≠ .park) (hxin : s.xinOut = false) (hops : s.ops = []) :
    Gives (.clockReturn i) s fun t =>
      t.clkDead = s.clkDead.filter (· ≠ 12) ∧ t.clkLost = s.clkLost.filter (· ≠ 12) ∧ t.regs = s.regs := by
  have hexec := exec_clockReturn hlost hgate hpower hxin
  rw [hi, State.islandRuns_mem] at hexec
  exact ⟨_, hexec.trans (congrArg _ (State.windowPump_of_no_ops hops)), rfl, rfl, rfl⟩

/-! ## The crystal -/

theorem crystalFailure_tells {s : State} (hpower : s.power ≠ .park) (hxok : s.pwr.xok = true) : Gives .crystalFailure s fun t =>
    t.bit 0x004 R.CLK.XSTAT.XOK = false ∧ t.pwr.xok = false ∧ t.pwr.xinEnd = some (s.kaNow + 10000) ∧
    t.raises = s.raises ++ [⟨8, .page 0x004⟩] := by
  have hexec : exec .crystalFailure s = .next ((State.setBit { s with pwr := { s.pwr with xok := false, xinEnd := some (s.kaNow + 10000) } }
      clkPg R.CLK.XSTAT.XOK false).raise 8 (.page clkPg)) := if_neg (by simp [hpower, hxok])
  exact ⟨_, hexec, State.bit_setBit_same _ clkPg R.CLK.XSTAT.XOK false rfl (by decide), rfl, rfl, rfl⟩

/-! ## The statement -/

/-- Settles O28: the role and the messages of the synchronisation, what a follower does without them, and the clocks of the islands. -/
theorem syncAndClocks : Obligations.SyncAndClocks := by
  refine ⟨⟨fun s role hlock hclk => ⟨?range, syncRoleWrite_renews hlock hclk, ?same⟩,
    fun s m hport hnet h => exec_syncMessage_relays hport hnet h, fun s m hrole hport hcounts hio hnet htaken => ?taken,
    fun s => syncMissed_holds_over, fun s => holdoverTimeout_frees, fun s k => deferredTbStep_steps⟩,
    fun s i => clockLoss_tells, fun s i hlost hgate hpower hxin => ?back, fun s => crystalFailure_tells,
    fun s i hi => ⟨pllUnlock_tells hi, islandPllLock_locks hi⟩⟩
  case range =>
    rintro rfl
    exact (exec_syncRoleWrite hlock hclk 3).trans (congrArg _ (if_pos rfl))
  case same =>
    intro hrange hsame
    exact (exec_syncRoleWrite hlock hclk role).trans (congrArg _ ((if_neg fun h => hrange (BitVec.eq_of_toNat_eq h)).trans (if_pos hsame)))
  case taken =>
    have hexec := exec_syncMessage_taken hrole hport hcounts hio hnet htaken
    refine ⟨fun hnear => ?_, fun hfar hidle => ⟨_, hexec, (State.syncTaken_far_behind hfar).1 hidle⟩,
      fun hfar harmed => ⟨_, hexec, (State.syncTaken_far_behind hfar).2 harmed⟩⟩
    obtain ⟨htb, htick, hlocked, hleaves, hacquires, hfirst⟩ := State.syncTaken_near_states (s := s) hnear
    exact ⟨_, hexec, htb, htick, hlocked, hleaves, hacquires, hfirst, State.syncTaken_near_rate hnear⟩
  case back =>
    exact ⟨exec_clockReturn hlost hgate hpower hxin, fun hi hops => clockReturn_mem hi hlost hgate hpower hxin hops⟩

end Sys2Proof.Machine
end

section
/-! A word of flash with more than 3 symbols in error that the list of poisoned words, full with 64 words of flash, has no place for
(R345): the scrubber reads it as uncorrectable (R335), where the statement about memory errors has it read as a listed word. -/

namespace Sys2Proof.Machine

/-- The pass goes on in SSTAT only (R340). -/
theorem State.scrubAt_keepsRegs (s : State) (m w : Nat) : s.KeepsRegs (s.scrubAt m w) [0x108] := by
  have hmove (v : MemSt) (q : Nat) : s.KeepsRegs (({ s with memc := v } : State).setFld mcPg R.MEMC.SSTAT.MACRO q) [0x108] :=
    .trans (t := { s with memc := v }) (.of_regs (by rfl) _) (.setFld _ mcPg R.MEMC.SSTAT.MACRO q (by simp) (by simp))
  have hdone : s.KeepsRegs ((s.setBit mcPg R.MEMC.SSTAT.RUN false).count mcPg 3) [0x108] :=
    (KeepsRegs.setBit s mcPg R.MEMC.SSTAT.RUN false (by simp) (by simp)).trans (.count _ mcPg (by decide))
  unfold State.scrubAt
  split
  · exact hmove _ _
  · exact (hdone.trans (.setFld _ mcPg R.MEMC.SSTAT.PASS _ (by simp) (by simp))).trans (.of_regs (State.post_regs ..) _)

/-- A pass that stands at word 64 of macro 46: the 64 words before it are listed as poisoned, and it holds 4 symbols in error. -/
def unlistedWord : State := { State.reset with
  clkDead := []
  regs := [(regKey mcPg R.MEMC.SCRUB.EN.off, 0x80000000), (regKey mcPg R.MEMC.SSTAT.RUN.off, 1)]
  poison := (List.range 64).map (place 46 0 / 32 + ·)
  symErr := [(place 46 0 / 32 + 64, 4)]
  memc := { State.reset.memc with word := (46, 64) } }

/-- The word is uncorrectable, though it is not listed (R345). -/
theorem poisoned_unlistedWord : unlistedWord.poison.contains (place 46 (32 * 64) / 32) = false ∧
    unlistedWord.poisoned (place 46 (32 * 64)) = true := by decide

/-- The scrubber reads it as a word with more than 3 symbols in error: KIND is 2, not the 3 of a listed word (R335, R345). -/
theorem scrubRead_unlistedWord : Gives (.scrubRead 0 none) unlistedWord fun t => t.fld mcPg R.MEMC.EINFO.KIND = 2 :=
  ⟨_, rfl, by decide⟩

/-- Refutes O46: the clause of poisoned words counts as poisoned a word with 4 symbols in error that is not listed, and asks KIND 3 of
its scrub read; such a word, a 65th one of flash, is met as uncorrectable at each access, with KIND 2 (R335, R345). -/
theorem not_memoryErrors : ¬ Obligations.MemoryErrors := by
  unfold Obligations.MemoryErrors
  rintro ⟨hscrub, -⟩
  obtain ⟨hpoisoned, -⟩ := hscrub unlistedWord 0 46 64 (by decide) (by decide) (by decide) rfl (by decide) (by decide) (by decide)
    (by decide) (by decide)
  obtain ⟨u, hexec, -, hkind, -⟩ := hpoisoned poisoned_unlistedWord.2
  obtain ⟨t, hread, hkind'⟩ := scrubRead_unlistedWord
  obtain rfl : t = u.scrubAt 46 65 := Host.Outcome.next.inj (hread.symm.trans hexec)
  rw [(u.scrubAt_keepsRegs 46 65).fld mcPg (by decide) (by decide), hkind] at hkind'
  exact absurd hkind' (by decide)

end Sys2Proof.Machine
end

section
/-! The sense conversions (R142): what each converter shows, and what follows it on its output (R136, R146, R149, R170, R192). -/

namespace Sys2Proof.Machine

/-! ## Fields after the writes of other pages -/

theorem State.detectHeld_hs (s : State) (was : Bool) (pg bit : Nat) : (s.detectHeld was pg bit).hs = s.hs := by
  unfold State.detectHeld
  split
  · rfl
  · exact State.detect_hs ..

theorem State.detectHeld_bridges (s : State) (was : Bool) (pg bit : Nat) : (s.detectHeld was pg bit).bridges = s.bridges := by
  unfold State.detectHeld
  split
  · rfl
  · exact State.detect_bridges ..

theorem State.KeepsRegs.setLeg {offs : List Nat} (s : State) (l : Nat) (v : Leg) : s.KeepsRegs (s.setLeg l v) offs := .of_regs (by rfl) _

/-- A valve's record shows in VL.STAT only. -/
theorem State.KeepsRegs.setValve {offs : List Nat} (s : State) (n : Nat) (v : Valve) (hm : 0x124 ∈ offs) : s.KeepsRegs (s.setValve n v) offs :=
  (((KeepsRegs.of_regs (by rfl) offs).trans (.setFld _ (vlPg n) R.VL.STAT.PHASE _ hm (by decide))).trans
    (.setBit _ (vlPg n) R.VL.STAT.PEND _ hm (by decide))).trans (.setBit _ (vlPg n) R.VL.STAT.LATCH _ hm (by decide))

/-- A side's record as it is kept: with the tick of its last edge, and the time at which its limp value was imposed. -/
theorem State.sideAt_setSide (s : State) (b : Nat) (v : Side) : ∃ e l, (s.setSide b v).sideAt b = { v with edge := e, limpAt := l } := by
  unfold State.setSide State.sideAt
  simp only [State.setBit_sides, State.setFld_sides, tget_tset_same]
  exact ⟨_, _, rfl⟩

/-! ## The conversion of a unit -/

/-- A converter has taken its conversion at this tick (R142). -/
def State.sensed (s : State) (u : SenseUnit) : State :=
  { s with senseAt := tset (fun _ => none) s.senseAt (senseKey u) (some s.tb) }

/-- What a conversion does, by its converter (R142, R170, R192). -/
def State.senseOf (s : State) : SenseUnit → State
  | .hs n i fail => s.hsSense n i fail
  | .leg l i fail ripple => s.legSense l i fail ripple
  | .vl n i fail => s.vlSense n i fail
  | .side b i fail => s.sideSense b i fail

section
variable {s : State} {u : SenseUnit} (hclk : s.clocked .pwr = true) (hperiod : s.tb % 100 = 0)
include hperiod

theorem State.nextCong_of_period : nextCong 100 0 s.tb = s.tb := by
  simp [nextCong, hperiod]

include hclk

/-- At a multiple of 100 ticks a converter takes its conversion (R142). -/
theorem exec_senseConversion (hnew : tget (fun _ => none) s.senseAt (senseKey u) ≠ some s.tb) :
    exec (.senseConversion u) s = .next ((s.sensed u).senseOf u) := by
  have htick : s.senseTick (senseKey u) = s.tb := by
    rw [State.senseTick, State.nextCong_of_period hperiod, if_neg hnew]
  have hrun : exec (.senseConversion u) s = s.atTick (s.senseTick (senseKey u)) fun t =>
      ({ t with senseAt := tset (fun _ => none) t.senseAt (senseKey u) (some (nextCong 100 0 t.tb)) } : State).senseOf u := by
    cases u <;> exact if_neg (by simp [hclk])
  rw [hrun, htick, State.atTick_of_le (Nat.le_refl _), State.nextCong_of_period hperiod]
  rfl

/-- A converter that has taken the conversion of this tick takes none where no later tick comes (R142). -/
theorem exec_senseConversion_of_taken (hdone : tget (fun _ => none) s.senseAt (senseKey u) = some s.tb)
    (hstop : s.tickComes (s.tb + 100) = false) : exec (.senseConversion u) s = .next s := by
  have htick : s.senseTick (senseKey u) = s.tb + 100 := by
    rw [State.senseTick, State.nextCong_of_period hperiod, if_pos hdone]
  refine (if_neg (by simp [hclk])).trans ?_
  rw [htick, State.atTick, if_neg (by omega), hstop, if_neg (by decide)]

end

/-! ## Channels -/

/-- A channel's conversion: its mean and its code (R142). -/
def State.hsMeasured (s : State) (n : Nat) (i : Int) (fail : Bool) : State :=
  let en := s.enabled (hsPg n)
  (s.setHs n { s.hsAt n with mean := max 0 i, senseFail := en && fail }).setFld (hsPg n) R.HS.SENSE.CODE
    (if en then senseCode (hsStep n) i else 0)

/-- The reference check of the conversion, and the bank's sum (R143, R149). -/
def State.hsConverted (s : State) (n : Nat) (i : Int) (fail : Bool) : State :=
  let u := s.hsMeasured n i fail
  (if s.enabled (hsPg n) && fail then u.detectHeld (s.hsAt n).senseFail (hsBank n) 6 else u).bankSum (n / 8)

theorem State.hsSense_eq (s : State) (n : Nat) (i : Int) (fail : Bool) :
    s.hsSense n i fail =
      let u := s.hsConverted n (s.hsCapped n s.tb i 100000) fail
      if s.enabled (hsPg n) then (u.hsOnOpen n).hsThermal n else u.hsThermal n := by
  unfold State.hsSense
  exact (apply_ite (fun t => State.hsThermal t n) ..)

theorem senseCode_lt (step i : Int) : senseCode step i < 2 ^ 14 := by
  unfold senseCode
  split <;> omega

theorem State.bankSum_keepsRegs (s : State) (b : Nat) : s.KeepsRegs (s.bankSum b) [0x408] :=
  .setFld s _ R.BANK.ISUM.I _ (by simp) (by simp)

section
variable (s : State) (n : Nat) (i : Int) (fail : Bool)

theorem State.hsConverted_hs : (s.hsConverted n i fail).hs = (s.hsMeasured n i fail).hs := by
  unfold State.hsConverted State.bankSum
  rw [State.setFld_hs]
  split
  · exact State.detectHeld_hs ..
  · rfl

theorem State.hsConverted_record : ((s.hsConverted n i fail).hsAt n).mean = max 0 i ∧
    ((s.hsConverted n i fail).hsAt n).senseFail = (s.enabled (hsPg n) && fail) := by
  rw [State.hsAt_of_hs (State.hsConverted_hs ..), State.hsMeasured, State.hsAt_of_hs (State.setFld_hs ..), State.hsAt_setHs_same]
  exact ⟨rfl, rfl⟩

theorem State.hsConverted_code : (s.hsConverted n i fail).fld (hsPg n) R.HS.SENSE.CODE =
    if s.enabled (hsPg n) then senseCode (hsStep n) i else 0 := by
  have hkeep : (s.hsMeasured n i fail).KeepsRegs (s.hsConverted n i fail) [0x48, 0x408] := by
    refine .trans ?_ ((State.bankSum_keepsRegs ..).mono (by simp))
    split
    · exact .detectHeld _ _ _ _ (by simp)
    · exact .refl _ _
  rw [hkeep.fld _ (by decide) (by simp)]
  refine State.fld_setFld_fits _ _ _ _ (by decide) (by decide) ?_
  split
  · exact senseCode_lt ..
  · decide

/-- A failed reference check sets its bit in the bank (R143). -/
theorem State.hsConverted_fstat (hen : s.enabled (hsPg n) = true) (hfail : fail = true) :
    (s.hsConverted n i fail).fstat (hsBank n) 6 = true := by
  rw [State.hsConverted, hen, hfail, (State.bankSum_keepsRegs ..).fstat (by simp)]
  exact State.fstat_detectHeld _ _ _ (by decide)

/-- BANK.ISUM is the sum of the means that the channels now have (R149). -/
theorem State.hsConverted_isum : (s.hsConverted n i fail).fld (0x0F0 + n / 8) R.BANK.ISUM.I = min 0xFFFF ((((List.range 8).map fun k =>
    max 0 ((s.hsConverted n i fail).hsAt (8 * (n / 8) + k)).mean).foldl (· + ·) 0) / 100000).toNat := by
  have hsum (u : State) (b : Nat) : (u.bankSum b).fld (0x0F0 + b) R.BANK.ISUM.I = min 0xFFFF ((((List.range 8).map fun k =>
      max 0 ((u.bankSum b).hsAt (8 * b + k)).mean).foldl (· + ·) 0) / 100000).toNat := by
    have hat (k : Nat) : (u.bankSum b).hsAt k = u.hsAt k := State.hsAt_of_hs (State.setFld_hs ..) k
    simp only [hat]
    exact State.fld_setFld_fits _ _ _ _ (by decide) (by decide) (by simp)
  exact hsum _ _

end

/-- The current that a conversion shows: one that the gate drive holds at CEIL in a turn-off by a fault (R135). -/
def State.hsShown (s : State) (n : Nat) (i : Int) : Int :=
  if (s.hsAt n).faultOff = true ∧ (s.hsAt n).inEdge s.tb = true then min i (s.fld (hsPg n) R.HS.SEG.CEIL * 100000 : Nat) else i

/-- A channel's conversion (R142, R143, R149). -/
theorem senseConversion_hs {s : State} (hclk : s.clocked .pwr = true) (hperiod : s.tb % 100 = 0) (n : Fin 48) (i : Int) (fail : Bool)
    (hnew : tget (fun _ => none) s.senseAt n.val ≠ some s.tb) :
    GivesThen (.senseConversion (.hs n i fail)) s
      (fun u => if s.enabled (hsPg n) then (u.hsOnOpen n).hsThermal n else u.hsThermal n) fun u =>
      u.fld (hsPg n) R.HS.SENSE.CODE = (if s.enabled (hsPg n) then senseCode (hsStep n) (s.hsShown n i) else 0) ∧
      (u.hsAt n).mean = max 0 (s.hsShown n i) ∧ (u.hsAt n).senseFail = (s.enabled (hsPg n) && fail) ∧
      (s.enabled (hsPg n) = true → fail = true → u.fstat (hsBank n) 6 = true) ∧
      u.fld (0x0F0 + n.val / 8) R.BANK.ISUM.I = min 0xFFFF ((((List.range 8).map fun k =>
        max 0 (u.hsAt (8 * (n.val / 8) + k)).mean).foldl (· + ·) 0) / 100000).toNat := by
  refine ⟨(s.sensed (.hs n i fail)).hsConverted n (s.hsShown n i) fail, ?_, State.hsConverted_code .., ?_⟩
  · exact (exec_senseConversion hclk hperiod (u := .hs n i fail) hnew).trans (congrArg _ ((s.sensed (.hs n i fail)).hsSense_eq n i fail))
  · obtain ⟨hmean, hcheck⟩ := (s.sensed (.hs n i fail)).hsConverted_record n (s.hsShown n i) fail
    exact ⟨hmean, hcheck, (s.sensed (.hs n i fail)).hsConverted_fstat n _ fail, State.hsConverted_isum ..⟩

/-! ## Legs -/

theorem legCode_lt (l : Nat) (i : Int) : legCode l i < 2 ^ 14 := by
  unfold legCode
  dsimp only
  split_ifs <;> omega

/-- A leg's conversion: its record and its code (R170). -/
def State.legMeasured (s : State) (l : Nat) (i : Int) (fail : Bool) : State :=
  (s.setLeg l { s.legAt l with senseFail := fail, hist := ((s.tb, i / 1000) :: (s.legAt l).hist).take 65536 }).setFld (legPg l)
    R.HB.SENSE.CODE (legCode l i)

/-- A leg's conversion is followed by the position writes, the ripple counters and the pinch comparators of its bridges (R170, R173, R175). -/
theorem senseConversion_leg {s : State} (hclk : s.clocked .pwr = true) (hperiod : s.tb % 100 = 0) (l : Fin 28) (i : Int) (fail : Bool)
    (ripple : Option Nat) (hnew : tget (fun _ => none) s.senseAt (64 + l.val) ≠ some s.tb) :
    GivesThen (.senseConversion (.leg l i fail ripple)) s (fun u =>
      ((u.bridgesWith l).filter fun k => u.legA k = l).foldl (fun t k =>
        let t := t.brPosLoad k
        if t.brOperates k then (t.brRipple k ripple).brPinch k (i / 1000) else t) u) fun u =>
      u.fld (legPg l) R.HB.SENSE.CODE = legCode l i ∧ (u.legAt l).senseFail = fail ∧ (u.legAt l).hist.head? = some (s.tb, i / 1000) := by
  have hat : ((s.sensed (.leg l i fail ripple)).legMeasured l i fail).legAt l = { s.legAt l with
      senseFail := fail, hist := ((s.tb, i / 1000) :: (s.legAt l).hist).take 65536 } := by
    unfold State.legMeasured
    rw [State.legAt, State.setFld_legs]
    exact State.legAt_setLeg_same ..
  refine ⟨(s.sensed (.leg l i fail ripple)).legMeasured l i fail, exec_senseConversion hclk hperiod (u := .leg l i fail ripple) hnew, ?_, ?_, ?_⟩
  · exact State.fld_setFld_fits _ _ _ _ (by decide) (by decide) (legCode_lt ..)
  · rw [hat]
  · rw [hat]; rfl

/-! ## Valves and sides -/

/-- A valve's conversion: its thermal model and its check, and the code of an enabled valve (R182, R189, R192). -/
def State.vlMeasured (s : State) (n : Nat) (i : Int) (fail : Bool) : State :=
  let v := s.valveAt n
  let u := s.setValve n { v with x := thermalStep v.x (max 0 i) 500000, senseFail := fail && s.enabled (vlPg n) }
  if s.enabled (vlPg n) then u.setFld (vlPg n) R.VL.SENSE.CODE (senseCode 1000 i) else u

theorem State.vlMeasured_valveAt (s : State) (n : Nat) (i : Int) (fail : Bool) : (s.vlMeasured n i fail).valveAt n = { s.valveAt n with
    x := thermalStep (s.valveAt n).x (max 0 i) 500000, senseFail := fail && s.enabled (vlPg n) } := by
  unfold State.vlMeasured
  dsimp only
  split
  · rw [State.valveAt, State.setFld_valves]; exact State.valveAt_setValve_same ..
  · exact State.valveAt_setValve_same ..

theorem State.vlMeasured_code (s : State) (n : Nat) (i : Int) (fail : Bool) : (s.vlMeasured n i fail).fld (vlPg n) R.VL.SENSE.CODE =
    if s.enabled (vlPg n) then senseCode 1000 i else s.fld (vlPg n) R.VL.SENSE.CODE := by
  unfold State.vlMeasured
  dsimp only
  split
  · exact State.fld_setFld_fits _ _ _ _ (by decide) (by decide) (senseCode_lt ..)
  · exact (State.KeepsRegs.setValve (offs := [0x124]) s n _ (by simp)).fld _ (by decide) (by decide)

/-- A conversion that takes X to the square of ICONT_present latches an enabled valve (R189). -/
theorem State.vlSense_eq (s : State) (n : Nat) (i : Int) (fail : Bool) : s.vlSense n i fail =
    if s.enabled (vlPg n) = true ∧ (9000000000000 : Rat) ≤ ((s.vlMeasured n i fail).valveAt n).x ∧ (s.valveAt n).latch = false
    then (s.vlMeasured n i fail).vlFault n 5 else s.vlMeasured n i fail := by
  have hkept (v : Valve) : (s.setValve n v).enabled (vlPg n) = s.enabled (vlPg n) :=
    (State.KeepsRegs.setValve (offs := [0x124]) s n v (by simp)).enabled (by simp) _
  rw [State.vlMeasured_valveAt]
  unfold State.vlSense State.vlMeasured
  dsimp only
  rw [hkept]
  cases s.enabled (vlPg n) <;> simp

/-- A valve's conversion (R182, R189, R192). -/
theorem senseConversion_vl {s : State} (hclk : s.clocked .pwr = true) (hperiod : s.tb % 100 = 0) (n : Fin 8) (i : Int) (fail : Bool)
    (hnew : tget (fun _ => none) s.senseAt (96 + n.val) ≠ some s.tb) :
    GivesThen (.senseConversion (.vl n i fail)) s (fun u =>
      if s.enabled (vlPg n) = true ∧ (9000000000000 : Rat) ≤ (u.valveAt n).x ∧ (s.valveAt n).latch = false then u.vlFault n 5 else u) fun u =>
      u.fld (vlPg n) R.VL.SENSE.CODE = (if s.enabled (vlPg n) then senseCode 1000 i else s.fld (vlPg n) R.VL.SENSE.CODE) ∧
      (u.valveAt n).senseFail = (fail && s.enabled (vlPg n)) ∧ (u.valveAt n).x = thermalStep (s.valveAt n).x (max 0 i) 500000 := by
  refine ⟨(s.sensed (.vl n i fail)).vlMeasured n i fail, ?_, State.vlMeasured_code .., ?_⟩
  · exact (exec_senseConversion hclk hperiod (u := .vl n i fail) hnew).trans (congrArg _ ((s.sensed (.vl n i fail)).vlSense_eq n i fail))
  · rw [State.vlMeasured_valveAt]
    exact ⟨rfl, rfl⟩

/-- A side's conversion (R192). -/
theorem senseConversion_side {s : State} (hclk : s.clocked .pwr = true) (hperiod : s.tb % 100 = 0) (b : Fin 2) (i : Int) (fail : Bool)
    (hnew : tget (fun _ => none) s.senseAt (104 + b.val) ≠ some s.tb) : Gives (.senseConversion (.side b i fail)) s fun t =>
      t.fld vsPg (if b = 0 then R.VSIDE.SENSE.CODEA else R.VSIDE.SENSE.CODEB) = senseCode 2500 i ∧ (t.sideAt b).senseFail = fail := by
  refine ⟨_, exec_senseConversion hclk hperiod (u := .side b i fail) hnew, ?_, ?_⟩
  · change ((s.sensed (.side b i fail)).sideSense b i fail).fld _ _ = _
    unfold State.sideSense
    dsimp only
    match b with
    | 0 => exact State.fld_setFld_fits _ _ R.VSIDE.SENSE.CODEA _ (by decide) (by decide) (senseCode_lt ..)
    | 1 => exact State.fld_setFld_fits _ _ R.VSIDE.SENSE.CODEB _ (by decide) (by decide) (senseCode_lt ..)
  · change (((s.sensed (.side b i fail)).sideSense b i fail).sideAt b).senseFail = _
    unfold State.sideSense
    obtain ⟨e, l, hat⟩ := State.sideAt_setSide (s.sensed (.side b i fail)) b
      { (s.sensed (.side b i fail)).sideAt b with senseFail := fail }
    rw [State.sideAt, State.setFld_sides]
    exact congrArg Side.senseFail hat

/-! ## The statement -/

theorem hsStep_eq (n : Fin 48) : hsStep n = if n.val < 16 then 10000 else 2500 := by
  simp [hsStep, hsHeavy]

/-- Settles O31: each converter by what its conversion shows, and by what follows it. -/
theorem senseCodes : Obligations.SenseCodes := by
  unfold Obligations.SenseCodes
  refine ⟨fun s n i fail hclk hperiod => ⟨fun hdone hstop => ?_, fun hdone => ?_⟩, fun s i fail hclk hperiod hnew =>
    ⟨fun l ripple => ?_, fun n => ?_, fun b => ?_⟩⟩
  · exact exec_senseConversion_of_taken hclk hperiod (u := .hs n i fail) (of_decide_eq_true hdone) hstop
  · have hconv := senseConversion_hs hclk hperiod n i fail (of_decide_eq_false hdone)
    rw [hsStep_eq] at hconv
    exact hconv
  · exact senseConversion_leg hclk hperiod l i fail ripple (hnew _ (by omega))
  · obtain ⟨u, hexec, hcode, hfail, hx⟩ := senseConversion_vl hclk hperiod n i fail (hnew _ (by omega))
    refine ⟨u, hexec, ?_, hfail, ?_⟩
    · rw [hcode]
      cases s.enabled (vlPg n) <;> rfl
    · rw [hx]
      exact congrArg _ (by norm_num)
  · exact senseConversion_side hclk hperiod b i fail (hnew _ (by omega))

end Sys2Proof.Machine
end

section
/-! Off-state diagnosis (R145) and the samples of off-phases (R147) of a channel. -/

namespace Sys2Proof.Machine

/-! ## A pattern that ends no earlier -/

/-- No generator changes before a tick that has come (R98). -/
theorem Gen.changesBefore_of_le (g : Gen) {t e : Nat} (h : e ≤ t) : g.changesBefore t e = false := by
  have hedge : ¬ (g.at t).nextEdge t < e := Nat.not_lt.2 (h.trans (OutCmd.le_nextEdge ..))
  unfold Gen.changesBefore
  split
  · simp [hedge]; omega
  · simp [hedge]

/-! ## A detection that a lasting result makes -/

/-- A short to supply that is not yet confirmed starts a cross-test; the detection is a lasting result (R148, R357). -/
def State.hsConfirm (s : State) (n : Nat) (was short : Bool) (bit : Nat) : State :=
  (if short ∧ !(was && (s.reg (hsPg n) 0x048).getLsbD bit) then s.hsXtStart n else s).detectHeld was (hsPg n) bit

section
variable (s : State) (n : Nat) (was short : Bool) {bit : Nat}

theorem State.hsConfirm_fstat (hbit : bit < 32) : (s.hsConfirm n was short bit).fstat (hsPg n) bit = true :=
  State.fstat_detectHeld _ _ _ hbit

theorem State.hsAt_hsConfirm : ∃ xt, (s.hsConfirm n was short bit).hsAt n = { s.hsAt n with xt := xt } := by
  unfold State.hsConfirm
  rw [State.hsAt_of_hs (State.detectHeld_hs ..)]
  split
  · rw [State.hsXtStart, State.hsAt_setHs_same]; exact ⟨_, rfl⟩
  · exact ⟨_, rfl⟩

/-- A short to supply that was not confirmed before is watched by a cross-test (R148). -/
theorem State.hsConfirm_watches : ((s.hsConfirm n false true bit).hsAt n).xt ≠ none := by
  unfold State.hsConfirm
  rw [State.hsAt_of_hs (State.detectHeld_hs ..), if_pos (by simp), State.hsXtStart, State.hsAt_setHs_same]
  exact Option.some_ne_none _

end

/-! ## A cycle of the diagnosis -/

/-- The bit of PG_FSTAT that a result of a cycle sets (R145). -/
def offBit (res : DiagRes) : Nat := if res = .shortV then 6 else 4

theorem offBit_lt (res : DiagRes) : offBit res < 32 := by
  unfold offBit
  split <;> decide

/-- A channel's record after a cycle with a result (R145). -/
def State.hsCycled (s : State) (n : Nat) (res : DiagRes) : Hs :=
  { s.hsAt n with cyc := some (s.hsCycleStart n), offRes := some res, offConf := decide ((s.hsAt n).offRes = some res ∧ res ≠ .normal) }

/-- The second of two equal results in a row is a detection (R145). -/
theorem State.hsOffCycle_of_same {s : State} {n : Nat} {res : DiagRes} (hsame : (s.hsAt n).offRes = some res) (hres : res ≠ .normal) :
    s.hsOffCycle n res =
      (s.setHs n (s.hsCycled n res)).hsConfirm n (s.hsAt n).offConf (decide (res = .shortV)) (offBit res) := by
  unfold State.hsOffCycle State.hsConfirm State.hsCycled offBit
  simp [hsame, hres]

theorem State.hsOffCycle_of_other {s : State} {n : Nat} {res : DiagRes} (h : (s.hsAt n).offRes ≠ some res ∨ res = .normal) :
    s.hsOffCycle n res = s.setHs n (s.hsCycled n res) := by
  have hnot : ¬ ((s.hsAt n).offRes = some res ∧ res ≠ .normal) := by tauto
  unfold State.hsOffCycle State.hsCycled
  simp [hnot]

/-- A cycle records its start and its result (R145). -/
theorem State.hsOffCycle_record (s : State) (n : Nat) (res : DiagRes) :
    ((s.hsOffCycle n res).hsAt n).offRes = some res ∧ ((s.hsOffCycle n res).hsAt n).cyc = some (s.hsCycleStart n) := by
  by_cases h : (s.hsAt n).offRes = some res ∧ res ≠ .normal
  · obtain ⟨xt, hat⟩ := (s.setHs n (s.hsCycled n res)).hsAt_hsConfirm n (s.hsAt n).offConf (decide (res = .shortV)) (bit := offBit res)
    rw [State.hsOffCycle_of_same h.1 h.2, hat, State.hsAt_setHs_same]
    exact ⟨rfl, rfl⟩
  · rw [State.hsOffCycle_of_other (by tauto), State.hsAt_setHs_same]
    exact ⟨rfl, rfl⟩

/-! ## The commands -/

/-- Off-state diagnosis may run on the channel (R109, R145, R152). -/
theorem State.hsDiagOn_of {s : State} {n : Nat} (hclk : s.clocked .pwr = true) (holoff : s.bit (hsPg n) R.HS.CFG.OLOFF = true)
    (hen : s.enabled (hsPg n) = true) (hblk : s.hsBlocked n = false) (hld : (s.dieAt (hsDie n)).ldump = false) : s.hsDiagOn n = true := by
  simp [State.hsDiagOn, hclk, holoff, hen, hblk, hld]

section
variable {s : State} {n : Fin 48} {vbat va vb : Int} (hdiag : s.hsDiagOn n = true)
include hdiag

/-- A battery below 6.0 V gives the cycle up (R145). -/
theorem exec_offStateDiagnosis_of_low (hoff : (s.hsAt n).cmd.onTime = false) (hbat : vbat < 6000) : exec (.offStateDiagnosis n vbat va vb) s =
    .next (s.setHs n { s.hsAt n with cyc := none, diagAt := s.tb }) :=
  (if_neg (by simp [hdiag, hoff])).trans (if_pos hbat)

/-- A cycle whose second sample has come ends (R145). -/
theorem exec_offStateDiagnosis_of_due (hoff : (s.hsAt n).cmd.onTime = false) (hbat : 6000 ≤ vbat)
    (hgate : s.bit (hsPg n) R.HS.STAT.GATE = false) (hdue : s.hsCycleEnd n ≤ s.tb) : exec (.offStateDiagnosis n vbat va vb) s =
    .next (s.hsOffCycle n (s.hsOffResult n vbat va vb)) :=
  (if_neg (by simp [hdiag, hoff])).trans ((if_neg (by omega)).trans
    ((if_neg (by simp [hgate, Gen.changesBefore_of_le _ hdue])).trans (State.atTick_of_le hdue _)))

/-- An off-phase that lasts is sampled once its blanking time has passed (R147). -/
theorem exec_offPhaseShortSample_of_due (hon : (s.hsAt n).cmd.onTime = true) (hgate : s.bit (hsPg n) R.HS.STAT.GATE = false)
    (hseen : (s.hsAt n).phSeen ≠ some (s.hsAt n).phase) (hbat : 7000 ≤ vbat)
    (hdue : (s.hsAt n).edge.getD 0 + s.palFld (s.hsPal n) R.PAL.BLANK.TBLK ≤ s.tb)
    (hlasts : (s.hsAt n).gen.changesBefore s.tb (s.tb + 200) = false) {left : Nat} (hleft : 200 ≤ left) :
    exec (.offPhaseShortSample n vbat va left) s = .next (s.hsOffPhase n (decide (5500 < va))) := by
  have hruns : s.hsOffRuns n vbat = true := by
    simp only [State.hsOffRuns, hdiag, Bool.true_and, decide_eq_true_eq]; omega
  refine (if_pos ⟨hruns, hbat, hon, by simp [hgate], hseen, hleft, ?_⟩).trans (State.atTick_of_le hdue _)
  rw [Nat.max_eq_left hdue, hlasts]; rfl

end

theorem exec_offPhaseShortSample_of_not {s : State} {n : Fin 48} {vbat va : Int} {left : Nat}
    (h : (s.hsAt n).phSeen = some (s.hsAt n).phase ∨ left < 200) : exec (.offPhaseShortSample n vbat va left) s = .next s := by
  refine if_neg fun ⟨_, _, _, _, hseen, hleft, _⟩ => ?_
  rcases h with h | h
  · exact hseen h
  · omega

/-! ## Where a cycle starts -/

theorem State.hsCycleEnd_eq (s : State) (n : Nat) :
    s.hsCycleEnd n = (s.hsAt n).cyc.elim (s.hsCycleFirst n + 30000) (· + 130000) := by
  unfold State.hsCycleEnd State.hsCycleBase
  cases (s.hsAt n).cyc <;> simp

/-- The first cycle ends 30 000 ticks after its start (R145). -/
theorem State.hsCycleStart_first {s : State} {n : Nat} (hcyc : (s.hsAt n).cyc = none) (htb : s.tb = s.hsCycleFirst n + 30000) :
    s.hsCycleStart n = s.hsCycleFirst n := by
  rw [State.hsCycleStart, State.hsCycleBase, hcyc, Option.getD_none, htb]; omega

/-- Every other cycle starts 100 000 ticks after the one before (R145). -/
theorem State.hsCycleStart_next {s : State} {n c : Nat} (hcyc : (s.hsAt n).cyc = some c) (htb : s.tb = c + 130000) :
    s.hsCycleStart n = c + 100000 := by
  rw [State.hsCycleStart, State.hsCycleBase, hcyc, Option.getD_some, htb]; omega

/-! ## What a cycle and a sample show -/

/-- A cycle of the diagnosis by its result (R145, R148). -/
theorem State.hsOffCycle_shows (s : State) (n : Nat) (res : DiagRes) :
    let t := s.hsOffCycle n res
    (t.hsAt n).offRes = some res ∧ ((s.hsAt n).cyc = none → s.tb = s.hsCycleFirst n + 30000 → (t.hsAt n).cyc = some (s.hsCycleFirst n)) ∧
    (∀ c, (s.hsAt n).cyc = some c → s.tb = c + 130000 → (t.hsAt n).cyc = some (c + 100000)) ∧
    ((s.hsAt n).offRes = some res → res = .shortV → t.fstat (hsPg n) 6 = true ∧ ((s.hsAt n).offConf = false → (t.hsAt n).xt ≠ none)) ∧
    ((s.hsAt n).offRes = some res → res = .openLoad → t.fstat (hsPg n) 4 = true) ∧
    ((s.hsAt n).offRes ≠ some res ∨ res = .normal → t.regs = s.regs) := by
  obtain ⟨hres, hcyc⟩ := s.hsOffCycle_record n res
  refine ⟨hres, fun hnone htb => ?_, fun c hsome htb => ?_, fun hsame hshort => ?_, fun hsame hopen => ?_, fun hother => ?_⟩
  · rw [hcyc, State.hsCycleStart_first hnone htb]
  · rw [hcyc, State.hsCycleStart_next hsome htb]
  · subst hshort
    rw [State.hsOffCycle_of_same hsame (by decide)]
    refine ⟨State.hsConfirm_fstat _ _ _ _ (by decide), fun hconf => ?_⟩
    rw [hconf]
    exact State.hsConfirm_watches _ _
  · subst hopen
    rw [State.hsOffCycle_of_same hsame (by decide)]
    exact State.hsConfirm_fstat _ _ _ _ (by decide)
  · rw [State.hsOffCycle_of_other hother]; rfl

/-- A channel's record after the sample of an off-phase (R147). -/
def State.hsSampled (s : State) (n : Nat) (high : Bool) : Hs :=
  { s.hsAt n with
    phSeen := some (s.hsAt n).phase, phHigh := if high then some (s.hsAt n).phase else none
    offConf := high && (s.hsAt n).phHigh = some ((s.hsAt n).phase - 1) }

/-- The second of two high samples in a row is a detection (R147). -/
theorem State.hsOffPhase_of_two {s : State} {n : Nat} (h : (s.hsAt n).phHigh = some ((s.hsAt n).phase - 1)) :
    s.hsOffPhase n true = (s.setHs n (s.hsSampled n true)).hsConfirm n (s.hsAt n).offConf true 6 := by
  unfold State.hsOffPhase State.hsConfirm State.hsSampled
  simp [h]

theorem State.hsOffPhase_of_not_two {s : State} {n : Nat} {high : Bool}
    (h : high = false ∨ (s.hsAt n).phHigh ≠ some ((s.hsAt n).phase - 1)) : s.hsOffPhase n high = s.setHs n (s.hsSampled n high) := by
  unfold State.hsOffPhase State.hsSampled
  rcases h with h | h <;> simp [h]

/-- The sample of an off-phase is recorded (R147). -/
theorem State.hsOffPhase_record (s : State) (n : Nat) (high : Bool) : ((s.hsOffPhase n high).hsAt n).phSeen = some (s.hsAt n).phase ∧
    ((s.hsOffPhase n high).hsAt n).phHigh = if high then some (s.hsAt n).phase else none := by
  by_cases h : high = true ∧ (s.hsAt n).phHigh = some ((s.hsAt n).phase - 1)
  · obtain ⟨rfl, htwo⟩ := h
    obtain ⟨xt, hat⟩ := (s.setHs n (s.hsSampled n true)).hsAt_hsConfirm n (s.hsAt n).offConf true (bit := 6)
    rw [State.hsOffPhase_of_two htwo, hat, State.hsAt_setHs_same]
    exact ⟨rfl, rfl⟩
  · rw [State.hsOffPhase_of_not_two (by simpa [imp_iff_not_or] using h), State.hsAt_setHs_same]
    exact ⟨rfl, rfl⟩

/-- An off-phase's sample by what it finds (R147, R148). -/
theorem State.hsOffPhase_shows (s : State) (n : Nat) (va : Int) :
    let t := s.hsOffPhase n (decide (5500 < va))
    (t.hsAt n).phSeen = some (s.hsAt n).phase ∧
    (5500 < va → (t.hsAt n).phHigh = some (s.hsAt n).phase ∧
      ((s.hsAt n).phHigh = some ((s.hsAt n).phase - 1) → t.fstat (hsPg n) 6 = true ∧ ((s.hsAt n).offConf = false → (t.hsAt n).xt ≠ none)) ∧
      ((s.hsAt n).phHigh ≠ some ((s.hsAt n).phase - 1) → t.regs = s.regs)) ∧
    (va ≤ 5500 → (t.hsAt n).phHigh = none ∧ t.regs = s.regs) := by
  obtain ⟨hseen, hhigh⟩ := s.hsOffPhase_record n (decide (5500 < va))
  refine ⟨hseen, fun hva => ⟨hhigh.trans (if_pos (decide_eq_true hva)), fun htwo => ?_, fun hone => ?_⟩,
    fun hva => ⟨hhigh.trans (if_neg (by simpa using hva)), ?_⟩⟩
  · rw [decide_eq_true hva, State.hsOffPhase_of_two htwo]
    refine ⟨State.hsConfirm_fstat _ _ _ _ (by decide), fun hconf => ?_⟩
    rw [hconf]
    exact State.hsConfirm_watches _ _
  · rw [State.hsOffPhase_of_not_two (.inr hone)]; rfl
  · rw [State.hsOffPhase_of_not_two (.inl (by simpa using hva))]; rfl

end Sys2Proof.Machine
end

section
/-! Cross-tests (R148), the bank budget (R149, R150), and retouch (R154, R155). -/

namespace Sys2Proof.Machine

/-! ## Detections with a detail of their own -/

/-- A detection writes the same registers whatever its sources and its detail are (R357). -/
theorem State.detectAs_regs_eq_detect (s : State) (pg bit : Nat) (l : List Nat) (d : Detail) :
    (s.detectAs pg bit l d).regs = (s.detect pg bit).regs := by
  rw [State.detect, State.detectAs_regs, State.detectAs_regs]

theorem State.fstat_detectAs_same (s : State) (pg : Nat) {bit : Nat} (h : bit < 32) (l : List Nat) (d : Detail) :
    (s.detectAs pg bit l d).fstat pg bit = true := by
  rw [State.fstat_of_regs (s.detectAs_regs_eq_detect pg bit l d), State.fstat_detect_same s pg h]

theorem State.fstat_detectAs_of_fstat {s : State} {pg' b : Nat} (h : s.fstat pg' b = true) (pg bit : Nat) (l : List Nat) (d : Detail) :
    (s.detectAs pg bit l d).fstat pg' b = true := by
  rw [State.fstat_of_regs (s.detectAs_regs_eq_detect pg bit l d), State.fstat_detect_of_fstat h pg bit]

/-! ## Counted edges -/

theorem xCount_first (a e : Nat) : xCount [] a true e = [⟨a, 1, 0, e⟩] := by
  simp [xCount]

/-- An edge at another tick than the one counted last counts (R148). -/
theorem xCount_fall {e e' : Nat} (a : Nat) (h : e' ≠ e) : xCount [⟨a, 2, 1, e'⟩] a false e = [⟨a, 2, 2, e⟩] := by
  simp [xCount, h]

/-- An edge that has been counted does not count again (R148). -/
theorem xCount_again (a e : Nat) (rising : Bool) : xCount [⟨a, 1, 0, e⟩] a rising e = [⟨a, 1, 0, e⟩] := by
  simp [xCount]

section
variable {s : State} {b n : Fin 48} (hgid : s.gid b = 0) (hne : b ≠ n) (hclk : s.clocked .pwr = true) (hen : s.enabled (hsPg b) = true)
include hgid hne hclk hen

/-- A switch outside the channel's unit is watched: its edges are counted (R148). -/
theorem exec_crossTestEdge {rising : Bool} {e : Nat} {l : List XEdge} (hxt : (s.hsAt b).xt = some l)
    (hseen : s.xEdgeSeen b (.hs n) rising = some e) {x : XEdge} (hcount : xCount l n rising e = [x]) :
    exec (.crossTestEdge b (.hs n) rising) s = .next (
      if 2 ≤ x.rise ∧ 2 ≤ x.fall then
        let u := s.setHs b { s.hsAt b with xt := none }
        let u := u.detectAs (hsPg b) 12 (u.blkSources (hsPg b) 12) (.xcpl (hsPg b) (xPage (.hs n)))
        u.detectAs (hsPg n) 12 (u.blkSources (hsPg n) 12) (.xcpl (hsPg n) (hsPg b))
      else s.setHs b { s.hsAt b with xt := some [x] }) := by
  have hwatched : s.xWatched b (.hs n) = true := by
    simp [State.xWatched, State.hsUnit_of_alone hgid, Fin.val_ne_of_ne hne.symm]
  change execCrossTestEdge b (.hs n) rising s = _
  unfold execCrossTestEdge
  dsimp only
  rw [if_neg (by simp [hwatched, hclk, hen]), hxt, hseen]
  have hone : xCount l (xId (.hs n)) rising e = [x] := hcount
  dsimp only
  simp only [hone]
  split <;> rfl

/-- The first on-edge of a watched switch is counted (R148). -/
theorem crossTestEdge_first {e : Nat} (hxt : (s.hsAt b).xt = some []) (hseen : s.xEdgeSeen b (.hs n) true = some e) :
    Gives (.crossTestEdge b (.hs n) true) s fun t => (t.hsAt b).xt = some [⟨n.val, 1, 0, e⟩] ∧ t.regs = s.regs := by
  refine ⟨_, exec_crossTestEdge hgid hne hclk hen hxt hseen (xCount_first n.val e), ?_⟩
  rw [if_neg (by simp)]
  exact ⟨congrArg Hs.xt (State.hsAt_setHs_same ..), rfl⟩

/-- An edge counts once (R148). -/
theorem crossTestEdge_again {e : Nat} {rising : Bool} (hxt : (s.hsAt b).xt = some [⟨n.val, 1, 0, e⟩])
    (hseen : s.xEdgeSeen b (.hs n) rising = some e) :
    Gives (.crossTestEdge b (.hs n) rising) s fun t => (t.hsAt b).xt = some [⟨n.val, 1, 0, e⟩] ∧ t.regs = s.regs := by
  refine ⟨_, exec_crossTestEdge hgid hne hclk hen hxt hseen (xCount_again n.val e rising), ?_⟩
  rw [if_neg (by simp)]
  exact ⟨congrArg Hs.xt (State.hsAt_setHs_same ..), rfl⟩

/-- The second off-edge ends the cross-test and sets XCPL on both channels (R148). -/
theorem crossTestEdge_last {e e' : Nat} (hnew : e' ≠ e) (hxt : (s.hsAt b).xt = some [⟨n.val, 2, 1, e'⟩])
    (hseen : s.xEdgeSeen b (.hs n) false = some e) : Gives (.crossTestEdge b (.hs n) false) s fun t =>
      (t.hsAt b).xt = none ∧ t.fstat (hsPg b) 12 = true ∧ t.fstat (hsPg n) 12 = true := by
  refine ⟨_, exec_crossTestEdge hgid hne hclk hen hxt hseen (xCount_fall n.val hnew), ?_⟩
  rw [if_pos (by simp)]
  refine ⟨?_, State.fstat_detectAs_of_fstat (State.fstat_detectAs_same _ _ (by decide) _ _) .., State.fstat_detectAs_same _ _ (by decide) _ _⟩
  rw [State.hsAt_of_hs (State.detectAs_hs ..), State.hsAt_of_hs (State.detectAs_hs ..), State.hsAt_setHs_same]

end

/-! ## The bank budget -/

/-- BUDGET sets on the bank's folder (R149). -/
def State.budgetShow (s : State) (b : Nat) : State :=
  ({ s with bankTick := tset (fun _ => none) s.bankTick b (some s.tb) } : State).detect (0x0F0 + b) 1

theorem State.budgetShow_shows (s : State) (b : Nat) : (s.budgetShow b).fstat (0x0F0 + b) 1 = true ∧ (s.budgetShow b).hs = s.hs ∧
    tget (fun _ => none) (s.budgetShow b).bankTick b = some s.tb := by
  unfold State.budgetShow
  refine ⟨State.fstat_detect_same _ _ (by decide), State.detect_hs .., ?_⟩
  rw [State.detect_bankTick, tget_tset_same]

section
variable {s : State} {b : Fin 6} {i : Vector Int 8}

theorem exec_budgetExceeded_of_within (h : (i.toList.map fun c => max 0 c).foldl (· + ·) 0 ≤ (s.fld (0x0F0 + b.val) R.BANK.BUDGET.I : Int) * 100) :
    exec (.budgetExceeded b i) s = .next s := if_neg fun h' => by have := h'.2; push_cast at this; omega

theorem exec_budgetExceeded_of_stopped (h : s.clocked .pwr = false) : exec (.budgetExceeded b i) s = .next s := if_neg (by simp [h])

/-- A bank above its budget selects a unit, 50 ticks after the last selection at the earliest (R149). -/
theorem exec_budgetExceeded_of_above (hsum : (s.fld (0x0F0 + b.val) R.BANK.BUDGET.I : Int) * 100 < (i.toList.map fun c => max 0 c).foldl (· + ·) 0)
    (hclk : s.clocked .pwr = true) (hlast : ∀ t0 ∈ tget (fun _ => none) s.bankTick b.val, t0 + 50 ≤ s.tb) :
    exec (.budgetExceeded b i) s = .next (match (s.budgetShow b).budgetPick b i with
      | some n => (s.budgetShow b).hsTrip n
      | none => s.budgetShow b) := by
  have hselect : exec (.budgetExceeded b i) s = .next (s.budgetSelect b i) := by
    refine (if_pos ⟨hclk, by push_cast; exact hsum⟩).trans ?_
    cases htick : tget (fun _ => none) s.bankTick b.val with
    | none => rfl
    | some t => exact State.atTick_of_le (hlast t (by rw [htick]; rfl)) _
  exact hselect

end

/-! ## Retouch -/

/-- A segment map with a bit left counts at least one segment (R155). -/
theorem popCount_ne_zero {w : Nat} (hw : w < 2 ^ 8) (h : w ≠ 0) : popCount w ≠ 0 := by
  intro hnone
  refine h (Nat.eq_of_testBit_eq fun i => ?_)
  rw [Nat.zero_testBit]
  by_cases hi : i < 8
  · have hall := List.filter_eq_nil_iff.1 (List.length_eq_zero_iff.1 hnone) i (List.mem_range.2 hi)
    simpa using hall
  · exact Nat.testBit_lt_two_pow (hw.trans_le (Nat.pow_le_pow_right (by decide) (by omega)))

theorem popCount_le (w : Nat) : popCount w ≤ 8 := by
  simpa [popCount] using List.length_filter_le (fun i => w.testBit i) (List.range 8)

/-- A channel's record without the limits that have been replaced. -/
def Hs.unlimited (h : Hs) : Hs := { h with limHist := [] }

/-- The marks of a lowered limit write the channels' records, and of those the replaced limits only (R133). -/
theorem State.hsLimMark_keeps (s o : State) : KeepsHs Hs.unlimited s (s.hsLimMark o) ∧ ∃ hs, s.hsLimMark o = { s with hs := hs } := by
  unfold State.hsLimMark
  refine ⟨.foldl (fun t n => ?_) _ s, ?_⟩
  · split
    · exact .setHs t n _ rfl
    · exact .refl t
  · generalize List.range 48 = ns
    induction ns generalizing s with
    | nil => exact ⟨_, rfl⟩
    | cons n ns ih =>
      rw [List.foldl_cons]
      split
      · exact ih (s.setHs n _)
      · exact ih s

/-- A segment map with its count and the class values that go with it (R155, R156). -/
def State.hsMapped (s : State) (n map : Nat) : State :=
  ((((s.setFld (hsPg n) R.HS.SEG.MAP map).setFld (hsPg n) R.HS.SEG.NSEG (popCount map)).setFld (hsPg n) R.HS.SEG.CEIL
    (presentValue n (hsClassCeil n) (popCount map))).setFld (hsPg n) R.HS.RATE.ICONT
    (presentValue n (hsClassIcont n) (popCount map))).hsLimMark s

theorem State.hsSetMap_eq (s : State) (n map : Nat) :
    s.hsSetMap n map = if popCount map = 0 then (s.hsMapped n map).hsSettle n else s.hsMapped n map := rfl

theorem State.hsMapped_shows (s : State) (n : Nat) {map : Nat} (hmap : map < 2 ^ 8) :
    (s.hsMapped n map).fld (hsPg n) R.HS.SEG.MAP = map ∧ (s.hsMapped n map).fld (hsPg n) R.HS.SEG.NSEG = popCount map := by
  obtain ⟨-, hs, hmark⟩ := State.hsLimMark_keeps ((((s.setFld (hsPg n) R.HS.SEG.MAP map).setFld (hsPg n) R.HS.SEG.NSEG (popCount map)).setFld
    (hsPg n) R.HS.SEG.CEIL (presentValue n (hsClassCeil n) (popCount map))).setFld (hsPg n) R.HS.RATE.ICONT
    (presentValue n (hsClassIcont n) (popCount map))) s
  have hcount := popCount_le map
  rw [State.hsMapped, hmark]
  constructor
  · refine (State.fld_setFld_apart _ _ _ (by simp)).trans ((State.fld_setFld_apart _ _ _ (by simp)).trans
      ((State.fld_setFld_apart _ _ _ (by simp)).trans (State.fld_setFld_fits _ _ _ _ (by decide) (by decide) hmap)))
  · refine (State.fld_setFld_apart _ _ _ (by simp)).trans ((State.fld_setFld_apart _ _ _ (by simp)).trans
      (State.fld_setFld_fits _ _ _ _ (by decide) (by decide) (by simp; omega)))

/-- Of the records only the replaced limits change (R133). -/
theorem State.hsAt_hsMapped (s : State) (n map m : Nat) :
    (s.hsMapped n map).hsAt m = { s.hsAt m with limHist := ((s.hsMapped n map).hsAt m).limHist } := by
  have hmark : ((s.hsMapped n map).hsAt m).unlimited = (s.hsAt m).unlimited :=
    ((State.hsLimMark_keeps _ s).1.at_ m).trans (congrArg Hs.unlimited (State.hsAt_of_hs (by simp only [State.setFld_hs]) m))
  exact congrArg (fun h : Hs => { h with limHist := ((s.hsMapped n map).hsAt m).limHist }) hmark

/-- RETOUCH has been detected, and the segment waits to be written to its map (R154, R155). -/
def State.retouched (s : State) (n : Nat) (seg : Nat) : State :=
  let t := s.detect (hsPg n) 9
  State.mapStart { t with retouchPend := t.retouchPend ++ [(n, seg)] }

theorem State.mapStart_frame (s : State) : ∃ rg, s.mapStart = { s with regs := rg } := by
  unfold State.mapStart
  split <;> exact ⟨_, rfl⟩

/-- What waits for a map writes the flash controller's page only (R349). -/
theorem State.mapStart_keepsOff (s : State) : s.KeepsOff s.mapStart flPg [0x44, 0x108] := by
  unfold State.mapStart
  split
  · exact (KeepsOff.setFld s flPg R.PG_STAT.BUSY _ (by simp) (by decide)).trans (.setFld _ flPg R.FL.STAT.HWOP _ (by simp) (by decide))
  · exact .of_regs rfl _ _

theorem State.retouched_shows (s : State) (n : Fin 48) (seg : Nat) :
    (s.retouched n seg).retouchPend = s.retouchPend ++ [(n.val, seg)] ∧ (s.retouched n seg).fstat (hsPg n) 9 = true ∧
    (s.retouched n seg).hs = s.hs ∧ (∀ f : Fld, f.off = R.HS.SEG.MAP.off → (s.retouched n seg).fld (hsPg n) f = s.fld (hsPg n) f) := by
  have hpg : hsPg n ≠ flPg := by simp only [hsPg, flPg]; omega
  have hmap (u : State) (off : Nat) (hoff : off < 0x1000) : u.mapStart.reg (hsPg n) off = u.reg (hsPg n) off :=
    u.mapStart_keepsOff.reg _ _ hoff fun h => absurd h hpg
  have hrest (u : State) : u.mapStart.retouchPend = u.retouchPend ∧ u.mapStart.hs = u.hs := by
    obtain ⟨rg, h⟩ := u.mapStart_frame
    rw [h]; exact ⟨rfl, rfl⟩
  unfold State.retouched
  refine ⟨?_, ?_, ?_, fun f hf => ?_⟩
  · rw [(hrest _).1, State.detect_retouchPend]
  · rw [State.fstat, hmap _ _ (by decide)]
    exact State.fstat_detect_same s (hsPg n) (by decide)
  · rw [(hrest _).2, State.detect_hs]
  · rw [State.fld, hmap _ _ (by rw [hf]; decide)]
    exact (KeepsRegs.detect (offs := [0x48]) s (hsPg n) 9 (by simp)).fld (hsPg n) (by rw [hf]; decide) (by rw [hf]; decide)

section
variable {s : State} {n : Fin 48} {seg : Fin 8} {why : SegFinding} (hclk : s.clocked .pwr = true)

theorem exec_retouch_of_not (h : (s.fld (hsPg n) R.HS.SEG.MAP).testBit seg = false ∨ s.segFound n why = false) :
    exec (.retouch n seg why) s = .next s := if_neg (by rintro ⟨-, hseg, hfound⟩; simp [hseg, hfound] at h)

variable (hseg : (s.fld (hsPg n) R.HS.SEG.MAP).testBit seg = true) (hfound : s.segFound n why = true)
include hclk hseg hfound

theorem exec_retouch_of_found : exec (.retouch n seg why) s =
    .next ((s.hsSetMap n (s.fld (hsPg n) R.HS.SEG.MAP - 2 ^ seg.val)).retouched n seg) := if_pos ⟨hclk, hseg, hfound⟩

omit hclk hseg hfound in
theorem State.segMap_sub_lt (s : State) (n k : Nat) : s.fld (hsPg n) R.HS.SEG.MAP - k < 2 ^ 8 :=
  (Nat.sub_le ..).trans_lt (Fld.get_lt R.HS.SEG.MAP _ (by decide) (by decide))

/-- A segment that leaves others in service (R154, R155). -/
theorem retouch_leaves (hleft : s.fld (hsPg n) R.HS.SEG.MAP - 2 ^ seg.val ≠ 0) : Gives (.retouch n seg why) s fun t =>
    t.retouchPend = s.retouchPend ++ [(n.val, seg.val)] ∧ t.fstat (hsPg n) 9 = true ∧
    t.fld (hsPg n) R.HS.SEG.MAP = s.fld (hsPg n) R.HS.SEG.MAP - 2 ^ seg.val ∧
    t.fld (hsPg n) R.HS.SEG.NSEG = popCount (s.fld (hsPg n) R.HS.SEG.MAP - 2 ^ seg.val) ∧
    ∀ m, t.hsAt m = { s.hsAt m with limHist := (t.hsAt m).limHist } := by
  have hlt := s.segMap_sub_lt n (2 ^ seg.val)
  have hexec := exec_retouch_of_found hclk hseg hfound
  rw [State.hsSetMap_eq, if_neg (popCount_ne_zero hlt hleft)] at hexec
  obtain ⟨hpend, hstat, hhs, hfld⟩ := (s.hsMapped n (s.fld (hsPg n) R.HS.SEG.MAP - 2 ^ seg.val)).retouched_shows n seg
  obtain ⟨hmap, hnseg⟩ := s.hsMapped_shows n hlt
  refine ⟨_, hexec, hpend.trans ?_, hstat, (hfld R.HS.SEG.MAP rfl).trans hmap, (hfld R.HS.SEG.NSEG rfl).trans hnseg, fun m => ?_⟩
  · obtain ⟨-, hs, hmark⟩ := State.hsLimMark_keeps ((((s.setFld (hsPg n) R.HS.SEG.MAP (s.fld (hsPg n) R.HS.SEG.MAP - 2 ^ seg.val)).setFld
      (hsPg n) R.HS.SEG.NSEG _).setFld (hsPg n) R.HS.SEG.CEIL _).setFld (hsPg n) R.HS.RATE.ICONT _) s
    rw [State.hsMapped, hmark]
    rfl
  · rw [State.hsAt_of_hs hhs]
    exact s.hsAt_hsMapped ..

/-- The last segment that leaves latches the channel with the chain (R155, R156). -/
theorem retouch_empties (hleft : s.fld (hsPg n) R.HS.SEG.MAP - 2 ^ seg.val = 0) :
    GivesThen (.retouch n seg why) s (fun u => (u.hsSettle n).retouched n seg) fun u =>
      u.fld (hsPg n) R.HS.SEG.MAP = 0 ∧ u.fld (hsPg n) R.HS.SEG.NSEG = 0 ∧ ∀ m, u.hsAt m = { s.hsAt m with limHist := (u.hsAt m).limHist } := by
  have hexec := exec_retouch_of_found hclk hseg hfound
  rw [State.hsSetMap_eq, hleft, if_pos (by decide)] at hexec
  obtain ⟨hmap, hnseg⟩ := s.hsMapped_shows n (map := 0) (by decide)
  exact ⟨_, hexec, hmap, hnseg, s.hsAt_hsMapped n 0⟩

end

/-! ## The statement -/

/-- Settles O32: a cycle and a sample by what they find, a cross-test by its counted edges, the budget by the unit it picks, a retouch
by what is left of the segment map. -/
theorem loadDiagnosis : Obligations.LoadDiagnosis := by
  unfold Obligations.LoadDiagnosis
  refine ⟨fun s n vbat va vb hclk holoff hen hblk hld => ?_, fun s b n hgid hne hclk hen e => ⟨?_, fun e' hnew => ?_, fun rising => ?_⟩,
    fun s b i => ⟨?_, ?_, ?_⟩, fun s n seg why hclk => ⟨?_, ?_, ?_⟩⟩
  · have hdiag := State.hsDiagOn_of hclk holoff hen hblk hld
    refine ⟨fun hbat hoff => ?_, fun hbat hoff hgate hdue => ?_, fun hon hgate hseen hbat hdue hlasts left hleft => ?_, fun hseen left => ?_,
      fun left hleft => ?_⟩
    · exact exec_offStateDiagnosis_of_low hdiag hoff hbat
    · exact ⟨_, exec_offStateDiagnosis_of_due hdiag hoff hbat hgate (s.hsCycleEnd_eq n ▸ hdue), s.hsOffCycle_shows n _⟩
    · exact ⟨_, exec_offPhaseShortSample_of_due hdiag hon hgate hseen hbat hdue hlasts hleft, s.hsOffPhase_shows n va⟩
    · exact exec_offPhaseShortSample_of_not (.inl hseen)
    · exact exec_offPhaseShortSample_of_not (.inr hleft)
  · exact crossTestEdge_first hgid hne hclk hen
  · exact crossTestEdge_last hgid hne hclk hen hnew
  · exact crossTestEdge_again hgid hne hclk hen
  · exact exec_budgetExceeded_of_within
  · exact exec_budgetExceeded_of_stopped
  · exact fun hsum hclk hlast => ⟨s.budgetShow b, exec_budgetExceeded_of_above hsum hclk hlast, s.budgetShow_shows b⟩
  · exact retouch_leaves hclk
  · exact retouch_empties hclk
  · exact exec_retouch_of_not

end Sys2Proof.Machine
end

section
/-! Motor bridges: trips and clears (R167 to R169), the timing of drives and park runs (R165, R166, R173, R176), and the off-state
diagnosis (R172). -/

namespace Sys2Proof.Machine

/-! ## Latches of a bridge's legs -/

/-- Two legs with their latches set or cleared (R168, R169). -/
def State.setLatches (s : State) (a b : Nat) (v : Bool) : State :=
  [a, b].foldl (fun (t : State) l => t.setLeg l { t.legAt l with latch := v }) s

theorem State.legAt_setLeg_ne (s : State) {l j : Nat} (v : Leg) (h : j ≠ l) : (s.setLeg l v).legAt j = s.legAt j := tget_tset_ne _ _ _ h

section
variable (s : State) (a b : Nat) (v : Bool)

theorem State.setLatches_regs : (s.setLatches a b v).regs = s.regs := rfl

theorem State.setLatches_latch : ((s.setLatches a b v).legAt a).latch = v ∧ ((s.setLatches a b v).legAt b).latch = v := by
  have hb (t : State) : ((t.setLeg b { t.legAt b with latch := v }).legAt b).latch = v := congrArg Leg.latch (State.legAt_setLeg_same ..)
  refine ⟨?_, hb _⟩
  by_cases h : a = b
  · rw [h]; exact hb _
  · exact (congrArg Leg.latch ((State.legAt_setLeg_ne _ _ h).trans (State.legAt_setLeg_same ..)))

/-- A latch of legs settles the bridges that contain them (R168). -/
theorem State.latchLegs_eq : s.latchLegs a b = (s.setLatches a b true).brSettleLegs a b := rfl

/-- A detection that latches legs shows in PG_FSTAT and in their records (R168). -/
theorem State.detect_setLatches (pg : Nat) {bit : Nat} (hbit : bit < 32) : (((s.detect pg bit).setLatches a b true).legAt a).latch = true ∧
    (((s.detect pg bit).setLatches a b true).legAt b).latch = true ∧ ((s.detect pg bit).setLatches a b true).fstat pg bit = true := by
  obtain ⟨ha, hb⟩ := (s.detect pg bit).setLatches_latch a b true
  refine ⟨ha, hb, ?_⟩
  rw [State.fstat_of_regs (State.setLatches_regs ..)]
  exact State.fstat_detect_same s pg hbit

end

/-! ## Trips and clears -/

/-- The applied command is FWD or REV (R163). -/
theorem two_le_brCode {c : BrCmd} : 2 ≤ brCode c ↔ c ≠ .coast ∧ c ≠ .brake := by
  cases c <;> simp [brCode]

section
variable {s : State} {k : Fin 14}

/-- The tick of the filter's end in terms of the tick from which the current has counted (R167). -/
theorem State.brTripTick_eq (s : State) (k : Nat) (i : Int) : s.brTripTick k i ≤ max (s.bridgeAt k).drvAt
    (if s.br k R.BRIDGE.STAT.START = 0 ∧ i.natAbs ≤ 10 * s.br k R.BRIDGE.LIM.ISTART then (s.bridgeAt k).startDone else 0) + 200 := by
  unfold State.brTripTick
  dsimp only
  split <;> omega

/-- A current above the limit through the filter latches both legs (R167, R168). -/
theorem exec_bridgeTrip_of_due {i : Int} (hclk : s.clocked .pwr = true) (hdrives : (s.bridgeAt k).applied ≠ .coast ∧ (s.bridgeAt k).applied ≠ .brake)
    (hlimit : s.brLimit k < i.natAbs) (hdue : s.brTripTick k i ≤ s.tb) : exec (.bridgeTrip k i) s =
    .next (((s.detect (legPg (s.legA k)) 1).setLatches (s.legA k) (s.legB k) true).brSettleLegs (s.legA k) (s.legB k)) :=
  (if_pos ⟨hclk, two_le_brCode.2 hdrives, hlimit⟩).trans (State.atTick_of_le hdue _)

theorem exec_bridgeTrip_of_not {i : Int} (h : ¬ ((s.bridgeAt k).applied ≠ .coast ∧ (s.bridgeAt k).applied ≠ .brake) ∨
    i.natAbs ≤ s.brLimit k ∨ s.clocked .pwr = false) : exec (.bridgeTrip k i) s = .next s := by
  refine if_neg fun ⟨hclk, hcode, hlimit⟩ => ?_
  rcases h with hdrives | hle | hstop
  · exact hdrives (two_le_brCode.1 hcode)
  · omega
  · simp [hstop] at hclk

/-- A clear of both latches (R169). -/
def State.brCleared (s : State) (k : Nat) : State := (s.ok brPg).setLatches (s.legA k) (s.legB k) false

theorem State.brCleared_keepsRegs (s : State) (k : Nat) : s.KeepsRegs (s.brCleared k) [0x44] :=
  (State.keepsRegs_ok s brPg (by simp)).trans (.of_regs (State.setLatches_regs ..) _)

/-- A clear settles the bridges that contain the legs (R169). -/
theorem exec_bridgeClr_of_latched (hclk : s.clocked .pwr = true) (hlock : s.locked brPg = false) (hlatch : s.brLatched k = true) :
    exec (.bridgeClr k) s = .next ((s.brCleared k).brSettleLegs (s.legA k) (s.legB k)) := by
  have hkeep := s.brCleared_keepsRegs k
  have hlegA : (s.brCleared k).legA k = s.legA k := congrArg (brLeg k) (hkeep.fld brPg (by simp; omega) (by simp; omega))
  have hlegB : (s.brCleared k).legB k = s.legB k := congrArg (brLeg k) (hkeep.fld brPg (by simp; omega) (by simp; omega))
  have hexec : exec (.bridgeClr k) s =
      .next ((s.brCleared k).brSettleLegs ((s.brCleared k).legA k) ((s.brCleared k).legB k)) :=
    (if_neg (by simp [hclk])).trans (if_neg (by simp [hlock, hlatch]))
  rw [hexec, hlegA, hlegB]

theorem exec_bridgeClr_of_refused (hclk : s.clocked .pwr = true) (h : s.locked brPg = true ∨ s.brLatched k = false) :
    Refused (.bridgeClr k) s brPg :=
  (if_neg (by simp [hclk])).trans (if_pos (by simpa using h))

/-- CLR clears both latches (R169). -/
theorem bridgeClr_clears (hclk : s.clocked .pwr = true) (hlock : s.locked brPg = false) (hlatch : s.brLatched k = true) :
    GivesThen (.bridgeClr k) s (fun u => u.brSettleLegs (s.legA k) (s.legB k)) fun u =>
      (u.legAt (s.legA k)).latch = false ∧ (u.legAt (s.legB k)).latch = false ∧ u.code brPg = 0 := by
  obtain ⟨ha, hb⟩ := (s.ok brPg).setLatches_latch (s.legA k) (s.legB k) false
  exact ⟨_, exec_bridgeClr_of_latched hclk hlock hlatch, ha, hb, s.code_ok brPg⟩

end

/-! ## The ceiling of a leg -/

section
variable {s : State} {l : Fin 28} {i : Nat}

theorem legCeil_latches (hceil : (if l.val < 12 then 60000 else 15000) ≤ i) (hclk : s.clocked .pwr = true) :
    GivesThen (.legCeil l i) s (fun u => u.brSettleLegs l l) fun u => (u.legAt l).latch = true ∧ u.fstat (legPg l) 2 = true := by
  obtain ⟨hlatch, -, hstat⟩ := s.detect_setLatches l l (legPg l) (bit := 2) (by decide)
  exact ⟨_, (if_pos hceil).trans (if_pos hclk), hlatch, hstat⟩

end

/-! ## Timing of a drive -/

section
variable {s : State} {k : Fin 14} (hclk : s.clocked .pwr = true)
include hclk

/-- The end of the start allowance clears START (R165). -/
theorem startAllowanceEnd_ends {d : Nat} (hend : (s.bridgeAt k).startEnd = some d) (hdue : d ≤ s.tb) :
    Gives (.startAllowanceEnd k) s fun t => t.br k R.BRIDGE.STAT.START = 0 ∧ (t.bridgeAt k).startEnd = none ∧
      (t.bridgeAt k).startDone = s.tb ∧ t.raises = s.raises := by
  have hexec : exec (.startAllowanceEnd k) s = .next
      ((s.setBridge k { s.bridgeAt k with startEnd := none, startDone := s.tb }).setBit brPg (R.BRIDGE.STAT.START k) false) := by
    change execStartAllowanceEnd k s = _
    unfold execStartAllowanceEnd
    rw [hend]
    exact (if_neg (by simp [hclk])).trans (State.atTick_of_le hdue _)
  have hbridge := s.bridgeAt_setBridge_same k { s.bridgeAt k with startEnd := none, startDone := s.tb }
  refine ⟨_, hexec, State.fld_setFld_fits _ _ _ _ (by simp) (by simp) (by simp), ?_, ?_, State.setBit_raises ..⟩ <;>
    rw [State.bridgeAt, State.setBit_bridges]
  · exact congrArg Bridge.startEnd hbridge
  · exact congrArg Bridge.startDone hbridge

/-- A bridge held by a shared leg (R166). -/
theorem exec_sharedLegStart : exec (.sharedLegStart k) s =
    .next (if s.br k R.BRIDGE.STAT.SHARE ≠ 0 ∧ s.brBlocked k = false ∧ s.brLowerWaits k = false
      then (s.brSettle k true).brYield k else s) := by
  change execSharedLegStart k s = _
  simp only [execSharedLegStart, hclk, true_and, Bool.not_eq_true']
  exact (apply_ite Host.Outcome.next ..).symm

/-- A drive without a ripple stalls once (R173). -/
theorem stallTimeout_stalls (hrip : s.br k R.BRIDGE.RIP.EN ≠ 0) (hdrives : (s.bridgeAt k).applied ≠ .coast ∧ (s.bridgeAt k).applied ≠ .brake)
    (hnot : (s.bridgeAt k).stalled = false) (hdue : (s.bridgeAt k).ripTick + s.br k R.BRIDGE.TMO.STALLT * 100000 ≤ s.tb) :
    Gives (.stallTimeout k) s fun t => (t.bridgeAt k).stalled = true ∧ t.fstat (legPg (s.legA k)) 6 = true := by
  refine ⟨_, (if_pos ⟨hclk, hrip, two_le_brCode.2 hdrives, by simp [hnot]⟩).trans (State.atTick_of_le hdue _), ?_,
    State.fstat_detect_same _ _ (by decide)⟩
  rw [State.bridgeAt, State.detect_bridges]
  exact congrArg Bridge.stalled (State.bridgeAt_setBridge_same ..)

/-- A position write waits for the next sense code (R173). -/
theorem posWrite_waits (v : Word) (hlock : s.locked brPg = false) : Gives (.posWrite k v) s fun t =>
    (t.bridgeAt k).posPend = some v ∧ t.br k R.BRIDGE.POS.POS = s.br k R.BRIDGE.POS.POS ∧ t.code brPg = 0 := by
  have hkeep : s.KeepsRegs ((s.setBridge k { s.bridgeAt k with posPend := some v }).ok brPg) [0x44] :=
    (State.KeepsRegs.setBridge ..).trans (State.keepsRegs_ok _ brPg (by simp))
  refine ⟨_, (if_neg (by simp [hclk])).trans (if_neg (by simp [hlock])), ?_, hkeep.fld brPg (by simp; omega) (by simp; omega), State.code_ok ..⟩
  rw [State.bridgeAt, State.ok_bridges]
  exact congrArg Bridge.posPend (State.bridgeAt_setBridge_same ..)

theorem posWrite_refused (v : Word) (hlock : s.locked brPg = true) : Refused (.posWrite k v) s brPg :=
  (if_neg (by simp [hclk])).trans (if_pos hlock)

/-- The park input ends a park run that a lower level governs (R176, R177). -/
theorem exec_parkInputChange : exec (.parkInputChange k) s =
    .next (if (s.bridgeAt k).parkRun = true ∧ s.br k R.BRIDGE.OUT.CMD = 4 ∧ s.br k R.BRIDGE.STAT.GOV < 2 ∧ s.brParkedIn k = true
      then s.brParkDone k else s) := by
  change execParkInputChange k s = _
  simp only [execParkInputChange, hclk, true_and]
  exact (apply_ite Host.Outcome.next ..).symm

/-- A park run whose time ends brakes and sets PARKTO on leg A (R176). -/
theorem exec_parkRunTimeout_of_due {d : Nat} (hend : (s.bridgeAt k).parkEnd = some d) (hdue : d ≤ s.tb) (hrun : (s.bridgeAt k).parkRun = true)
    (hgov : s.br k R.BRIDGE.STAT.GOV < 2) : exec (.parkRunTimeout k) s = .next ((s.brHwBrake k).detect (legPg (s.legA k)) 9) := by
  change execParkRunTimeout k s = _
  unfold execParkRunTimeout
  rw [hend]
  exact (if_pos ⟨hclk, hrun, hgov⟩).trans (State.atTick_of_le hdue _)

end

/-- What the hardware writes as it brakes, before the bridge settles (R174 to R176, R463). -/
def State.brBraked (s : State) (k : Nat) : State :=
  let s := s.setFld brPg (R.BRIDGE.OUT.CMD k) 1
  (s.setBridge k { s.bridgeAt k with parkRun := false, parkEnd := none }).setHeld (48 + k) false

theorem State.brHwBrake_eq (s : State) (k : Nat) : s.brHwBrake k = (s.brBraked k).brSettle k := rfl

theorem State.brBraked_shows (s : State) {k : Nat} (hk : k < 14) : (s.brBraked k).br k R.BRIDGE.OUT.CMD = 1 ∧
    ((s.brBraked k).bridgeAt k).parkRun = false ∧ (s.brBraked k).heldBit (48 + k) = false := by
  refine ⟨?_, congrArg Bridge.parkRun (State.bridgeAt_setBridge_same ..), ?_⟩
  · have hpage (u : State) (off : Nat) (hoff : off < 0x1000) : (u.setHeld (48 + k) false).reg brPg off = u.reg brPg off :=
      State.reg_setReg_ne u _ (regKey_ne hoff (by simp; omega) (.inl (by decide)))
    rw [State.br, State.brBraked, State.fld, hpage _ _ (by simp; omega)]
    exact State.fld_setFld_fits s brPg (R.BRIDGE.OUT.CMD k) 1 (by simp) (by simp) (by simp)
  · exact (State.heldBit_setHeld _ (by omega) (by omega) false).trans (if_pos rfl)

/-- A park run that ends at the input sets PARKED and posts its event (R176, R179). -/
theorem State.brParkDone_shows (s : State) (k : Nat) : (s.brParkDone k).br k R.BRIDGE.STAT.PARKED = 1 ∧
    ∃ p ∈ (s.brParkDone k).postings, p.ev = 142 := by
  refine ⟨State.fld_setFld_fits _ _ _ _ (by simp) (by simp) (by simp), ?_⟩
  rw [State.brParkDone, State.post_postings]
  exact ⟨_, List.mem_append_right _ (List.mem_singleton_self _), rfl⟩

/-! ## Off-state diagnosis -/

/-- The diagnosis of a bridge runs where no bridge applies a command (R161, R172). -/
theorem State.brDiagOn_of {s : State} {k : Nat} (hclk : s.clocked .pwr = true) (holoff : s.br k R.BRIDGE.CFG.OLOFF ≠ 0)
    (hop : s.brOperates k = true) (hcoast : (s.bridgeAt k).applied = .coast) (hall : ∀ j, j < 14 → (s.bridgeAt j).applied = .coast) :
    s.brDiagOn k = true := by
  have hfree (l j : Nat) (hj : j ∈ s.bridgesOfLeg l) (_ : ¬ j = k) : (s.bridgeAt j).applied = .coast :=
    hall j (List.mem_range.1 (List.mem_of_mem_filter hj))
  simpa [State.brDiagOn, hclk, holoff, hop, hcoast] using And.intro (hfree (s.legA k)) (hfree (s.legB k))

theorem State.brCycleEnd_eq (s : State) (k : Nat) : s.brCycleEnd k =
    (s.bridgeAt k).cyc.elim (max ((s.bridgeAt k).coastAt + 10000) (s.bridgeAt k).diagAt + 25000) (· + 125000) := by
  unfold State.brCycleEnd
  cases (s.bridgeAt k).cyc with
  | none => simp only [Option.elim_none]
  | some c => simp only [Option.elim_some, Nat.add_assoc]

/-- A bridge's record after a cycle with a result (R172). -/
def State.brCycled (s : State) (k : Nat) (res : DiagRes) : Bridge :=
  { s.bridgeAt k with cyc := some (s.tb - 25000), diag := some res, diagConf := decide ((s.bridgeAt k).diag = some res ∧ res ≠ .normal) }

/-- The bit of PG_FSTAT of leg A that a result of a cycle sets (R172). -/
def brDiagBit : DiagRes → Nat
  | .shortV => 3
  | .shortG => 4
  | _ => 5

theorem brDiagBit_lt (res : DiagRes) : brDiagBit res < 32 := by
  cases res <;> decide

/-- The second of two equal results in a row is a detection on leg A (R172). -/
theorem State.brOffCycle_of_same {s : State} {k : Nat} {res : DiagRes} (hsame : (s.bridgeAt k).diag = some res) (hres : res ≠ .normal) :
    s.brOffCycle k res = (s.setBridge k (s.brCycled k res)).detectHeld (s.bridgeAt k).diagConf (legPg (s.legA k)) (brDiagBit res) := by
  have hsecond : decide ((s.bridgeAt k).diag = some res ∧ res ≠ .normal) = true := by simp [hsame, hres]
  exact if_pos hsecond

theorem State.brOffCycle_of_other {s : State} {k : Nat} {res : DiagRes} (h : (s.bridgeAt k).diag ≠ some res ∨ res = .normal) :
    s.brOffCycle k res = s.setBridge k (s.brCycled k res) := by
  have hfirst : decide ((s.bridgeAt k).diag = some res ∧ res ≠ .normal) ≠ true := by
    simpa [imp_iff_not_or] using h
  exact if_neg hfirst

/-- A cycle records its start and its result (R172). -/
theorem State.bridgeAt_brOffCycle (s : State) (k : Nat) (res : DiagRes) : (s.brOffCycle k res).bridgeAt k = s.brCycled k res := by
  by_cases h : (s.bridgeAt k).diag = some res ∧ res ≠ .normal
  · rw [State.brOffCycle_of_same h.1 h.2, State.bridgeAt, State.detectHeld_bridges]
    exact State.bridgeAt_setBridge_same ..
  · rw [State.brOffCycle_of_other (by tauto), State.bridgeAt_setBridge_same]

section
variable {s : State} {k : Fin 14} {vbat va vb : Int} (hdiag : s.brDiagOn k = true)
include hdiag

/-- A battery below 7.0 V gives the cycle up (R172). -/
theorem exec_bridgeOffStateDiagnosis_of_low (hbat : vbat < 7000) : exec (.bridgeOffStateDiagnosis k vbat va vb) s =
    .next (s.setBridge k { s.bridgeAt k with cyc := none, diag := none, diagConf := false, diagAt := s.tb }) :=
  (if_neg (by simp [hdiag])).trans (if_neg (by omega))

/-- A cycle whose second sample has come ends (R172). -/
theorem exec_bridgeOffStateDiagnosis_of_due (hbat : 7000 ≤ vbat) (hdue : s.brCycleEnd k ≤ s.tb) :
    exec (.bridgeOffStateDiagnosis k vbat va vb) s = .next (s.brOffCycle k (brOffResult va vb)) :=
  (if_neg (by simp [hdiag])).trans ((if_pos hbat).trans (State.atTick_of_le hdue _))

end

/-- A cycle of a bridge's diagnosis by its result (R172). -/
theorem State.brOffCycle_shows (s : State) (k : Nat) (res : DiagRes) :
    ((s.brOffCycle k res).bridgeAt k).diag = some res ∧ ((s.brOffCycle k res).bridgeAt k).cyc = some (s.tb - 25000) ∧
    ((s.bridgeAt k).diag = some res → res ≠ .normal → (s.brOffCycle k res).fstat (legPg (s.legA k)) (brDiagBit res) = true) ∧
    ((s.bridgeAt k).diag ≠ some res ∨ res = .normal → (s.brOffCycle k res).regs = s.regs) := by
  rw [State.bridgeAt_brOffCycle]
  refine ⟨rfl, rfl, fun hsame hres => ?_, fun h => ?_⟩
  · rw [State.brOffCycle_of_same hsame hres]
    exact State.fstat_detectHeld _ _ _ (brDiagBit_lt res)
  · rw [State.brOffCycle_of_other h]; rfl

/-! ## The statement -/

/-- Settles O35: trips and clears by the latches of the legs, the timing by each timer's end, the diagnosis by the result of a cycle. -/
theorem bridgeProtection : Obligations.BridgeProtection := by
  unfold Obligations.BridgeProtection
  refine ⟨⟨fun s k i => ⟨fun hclk hdrives hlimit hdue => ?_, ?_, fun hclk hlock hlatch => ?_, fun hclk h => ?_⟩, fun s l i =>
      ⟨legCeil_latches, fun hceil hclk => ?_, fun hlow => ?_⟩⟩,
    fun s k d v hdue hclk => ⟨fun hend => ?_, ?_, ?_, ?_, ?_, ?_, fun hend hrun hgov => ⟨?_, ?_⟩, ?_⟩,
    fun s k vbat va vb => fun hclk holoff hop hcoast hall => ⟨?_, fun hbat hend => ?_⟩⟩
  · have htick := (s.brTripTick_eq k i).trans hdue
    exact ⟨_, exec_bridgeTrip_of_due hclk hdrives hlimit htick, s.detect_setLatches _ _ _ (by decide)⟩
  · exact exec_bridgeTrip_of_not
  · exact bridgeClr_clears hclk hlock (by simpa [State.brLatched] using hlatch)
  · exact exec_bridgeClr_of_refused hclk (by simpa [State.brLatched] using h)
  · exact (if_pos hceil).trans (if_neg (by simp [hclk]))
  · exact if_neg (Nat.not_le.2 hlow)
  · exact startAllowanceEnd_ends hclk hend hdue
  · exact exec_sharedLegStart hclk
  · exact fun hrip hcoast hbrake => stallTimeout_stalls hclk hrip ⟨hcoast, hbrake⟩
  · exact posWrite_waits hclk v
  · exact posWrite_refused hclk v
  · exact exec_parkInputChange hclk
  · exact exec_parkRunTimeout_of_due hclk hend hdue hrun hgov
  · exact ⟨s.brBraked k, s.brHwBrake_eq k, s.brBraked_shows k.isLt⟩
  · exact s.brParkDone_shows k
  · exact exec_bridgeOffStateDiagnosis_of_low (State.brDiagOn_of hclk holoff hop hcoast hall)
  · have hdiag := State.brDiagOn_of hclk holoff hop hcoast hall
    obtain ⟨hres, hcyc, hbit, hregs⟩ := s.brOffCycle_shows k (brOffResult va vb)
    refine ⟨_, exec_bridgeOffStateDiagnosis_of_due hdiag hbat (s.brCycleEnd_eq k ▸ hend), hres, hcyc, fun hsame hnot => ?_, hregs⟩
    exact hbit hsame hnot

end Sys2Proof.Machine
end

section
/-! Valves and their sides: what the moves of profiles and switches leave of the valves' commands and of the pages (R182 to R187). -/

namespace Sys2Proof.Machine

/-! ## The frame -/

/-- A side's record as VSIDE.STAT and the side's level show it (R187, R190, R191). -/
def State.sideShow (s : State) (b : Nat) (v : Side) : State :=
  let s := s.setFld vsPg (if b = 0 then R.VSIDE.STAT.SRCA else R.VSIDE.STAT.SRCB) (srcCode v.src)
  let s := s.setBit vsPg (if b = 0 then R.VSIDE.STAT.EFFA else R.VSIDE.STAT.EFFB) (s.minoff b)
  let s := s.setBit vsPg (if b = 0 then R.VSIDE.STAT.LATA else R.VSIDE.STAT.LATB) v.latch
  s.setFld vsPg (if b = 0 then R.PG_STAT.GOV else R.PG_STAT.GOVB)
    (if s.level1 (72 + b) then govSafe else if v.latch then govLatch else govLive)

theorem State.setSide_eq (s : State) (b : Nat) (v : Side) : ∃ ss w, s.setSide b v = ({ s with sides := ss } : State).sideShow b w :=
  ⟨_, _, rfl⟩

/-- `t` has the valves' commands of `s`, and its fields but for VL.STAT, VSIDE.STAT, PG_FSTAT and the levels of the sides. -/
structure State.KeepsVl (s t : State) : Prop where
  cmd : ∀ m, (t.valveAt m).cmd = (s.valveAt m).cmd
  fld : ∀ pg (f : Fld), f.off < 0x800 → f.off ∉ [0x48, 0x10c, 0x124] →
    (pg = vsPg → R.PG_STAT.GOV.Apart f ∧ R.PG_STAT.GOVB.Apart f) → t.fld pg f = s.fld pg f

namespace State.KeepsVl

variable {s t u : State}

theorem refl (s : State) : s.KeepsVl s := ⟨fun _ => rfl, fun _ _ _ _ _ => rfl⟩

theorem trans (h : s.KeepsVl t) (h' : t.KeepsVl u) : s.KeepsVl u :=
  ⟨fun m => (h'.cmd m).trans (h.cmd m), fun pg f hlt hn hgov => (h'.fld pg f hlt hn hgov).trans (h.fld pg f hlt hn hgov)⟩

/-- What writes no valve, and registers only at the offsets that the frame leaves open. -/
theorem of_keepsRegs (hv : t.valves = s.valves) (hr : s.KeepsRegs t [0x48, 0x10c, 0x124]) : s.KeepsVl t :=
  ⟨fun m => by rw [State.valveAt, State.valveAt, hv], fun pg _ hlt hn _ => hr.fld pg hlt hn⟩

theorem setFld (s : State) (pg : Nat) (f : Fld) (v : Nat) (hm : f.off ∈ [0x48, 0x10c, 0x124]) (hlt : f.off < 0x1000) : s.KeepsVl (s.setFld pg f v) :=
  of_keepsRegs (State.setFld_valves ..) (.setFld s pg f v hm hlt)

/-- A valve's record with the same command. -/
theorem setValve (s : State) (n : Nat) {v : Valve} (h : v.cmd = (s.valveAt n).cmd) : s.KeepsVl (s.setValve n v) := by
  refine ⟨fun m => ?_, fun pg _ hlt hn _ => (State.KeepsRegs.setValve s n v (by simp)).fld pg hlt hn⟩
  by_cases hm : m = n
  · rw [hm, State.valveAt_setValve_same, h]
  · unfold State.setValve State.valveAt
    simp only [State.setBit_valves, State.setFld_valves, tget_tset_ne _ _ _ hm]

/-- A level of a side (R190, R191). -/
theorem setGov (s : State) {f : Fld} (hf : f = R.PG_STAT.GOV ∨ f = R.PG_STAT.GOVB) (v : Nat) : s.KeepsVl (s.setFld vsPg f v) := by
  refine ⟨fun m => by rw [State.valveAt, State.valveAt, State.setFld_valves], fun pg g hlt _ hap => ?_⟩
  by_cases hpg : pg = vsPg
  · obtain ⟨ha, hb⟩ := hap hpg
    rw [hpg]
    exact State.fld_setFld_apart s vsPg v (hf.elim (fun e => e ▸ ha) fun e => e ▸ hb)
  · exact State.fld_setFld_page s v hpg (by rcases hf with rfl | rfl <;> decide) (by omega)

theorem sideShow (s : State) (b : Nat) (v : Side) : s.KeepsVl (s.sideShow b v) := by
  have hstat (u : State) {f : Fld} (hf : f.off = 0x10c) (x : Nat) : u.KeepsVl (u.setFld vsPg f x) :=
    setFld u vsPg f x (by simp [hf]) (by omega)
  unfold State.sideShow State.setBit
  dsimp only
  refine (((hstat s ?_ _).trans (hstat _ ?_ _)).trans (hstat _ ?_ _)).trans (setGov _ ?_ _)
  · split <;> rfl
  · split <;> rfl
  · split <;> rfl
  · split <;> simp

theorem setSide (s : State) (b : Nat) (v : Side) : s.KeepsVl (s.setSide b v) := by
  obtain ⟨ss, w, h⟩ := s.setSide_eq b v
  have hsides : s.KeepsVl ({ s with sides := ss } : State) := of_keepsRegs rfl (.of_regs (by rfl) _)
  rw [h]
  exact hsides.trans (sideShow ..)

theorem detectIf (s : State) (c : Bool) (pg bit : Nat) : s.KeepsVl (s.detectIf c pg bit) := by
  unfold State.detectIf
  split
  · exact of_keepsRegs (State.detect_valves ..) (.detect s pg bit (by simp))
  · exact refl s

theorem ite {c : Prop} [Decidable c] (ht : s.KeepsVl t) (hu : s.KeepsVl u) : s.KeepsVl (if c then t else u) := by
  split
  · exact ht
  · exact hu

/-! ## The moves of a profile -/

theorem vlEnterPeak (s : State) (n : Nat) : s.KeepsVl (s.vlEnterPeak n) := by
  have henter (u : State) (v : Valve) (c d : Bool) (h : v.cmd = (u.valveAt n).cmd) :
      u.KeepsVl (((u.setValve n v).setBit (vlPg n) R.VL.STAT.BFED c).detectIf d (vlPg n) 6) :=
    ((setValve u n h).trans (setFld _ _ _ _ (by simp) (by simp))).trans (detectIf ..)
  unfold State.vlEnterPeak
  dsimp only
  cases (s.valveAt n).waitStart with
  | none => exact henter s _ _ _ rfl
  | some t =>
    refine (setFld s (vlPg n) R.VL.STAT.WAITD _ (by simp) (by simp)).trans (henter _ _ _ _ ?_)
    rw [State.valveAt, State.valveAt, State.setFld_valves]

theorem sideUpdate (s : State) (b : Nat) : s.KeepsVl (s.sideUpdate b) := by
  unfold State.sideUpdate
  dsimp only
  refine ite (setSide ..) ?_
  split
  · exact ite (setSide ..) (ite (setSide ..) (setSide ..))
  · refine ite (setSide ..) (ite (setSide ..) (ite ?_ (setSide ..)))
    split
    · exact (setSide ..).trans (vlEnterPeak ..)
    · exact setSide ..

theorem vlTakePeak (s : State) (n : Nat) : s.KeepsVl (s.vlTakePeak n) := by
  unfold State.vlTakePeak
  dsimp only
  refine .trans ((setSide s _ _).trans (sideUpdate _ _)) (ite (.trans (setSide _ _ _) (vlEnterPeak _ n)) (refl _))

theorem sidePeakEnded (s : State) (b : Nat) : s.KeepsVl (s.sidePeakEnded b) := by
  unfold State.sidePeakEnded
  refine ite (sideUpdate ..) ?_
  split
  · refine .trans (setValve s _ ?_) (vlTakePeak _ _)
    rfl
  · exact sideUpdate ..

theorem vlMove (s : State) (n : Nat) (p : VPhase) : s.KeepsVl (s.vlMove n p) := by
  unfold State.vlMove
  dsimp only
  refine .trans (.trans (ite (setSide s _ _) (refl s)) (setValve _ n ?_)) (sidePeakEnded _ _)
  rfl

/-- A pending start is discarded, or not, before the valve leaves its phase. -/
theorem dropPend (s : State) (n : Nat) (drop : Bool) :
    s.KeepsVl (if drop then s.setValve n { s.valveAt n with pend := false, waitStart := none } else s) := by
  refine ite (setValve s n ?_) (refl s)
  rfl

theorem vlOff (s : State) (n : Nat) (drop : Bool) : s.KeepsVl (s.vlOff n drop) := by
  have hdrop := dropPend s n (drop || (s.valveAt n).phase = .mowait || (s.valveAt n).phase = .pkwait)
  unfold State.vlOff
  dsimp only
  split
  · exact hdrop.trans (vlMove ..)
  · exact hdrop.trans (vlMove ..)
  · exact hdrop.trans (vlMove ..)
  · exact hdrop.trans (vlMove ..)
  · exact hdrop.trans (vlMove ..)
  · exact hdrop
  · exact hdrop.trans (ite (vlMove ..) (refl _))

end State.KeepsVl

end Sys2Proof.Machine
end

section
/-! Valves, sides and the boost: latches and clears (R189, R190, R196), the chain of a valve that is held off (R184), the
changeover and the limp value of a side (R182, R191), and the states of the boost (R186). -/

namespace Sys2Proof.Machine

/-! ## The chain of a valve that is held off -/

/-- A governing clause that a higher level or a disabled page holds off counts (R241). -/
def State.vlHold (s : State) (n lvl : Nat) : State :=
  let cl := s.govClauseOf [0x060 + n]
  if s.clocked .pwr ∧ cl.isSome ∧ (lvl ≥ govLatch ∨ !s.enabled (vlPg n)) then s.heldOff (cl.getD 0) else s

theorem State.vlHold_eq (s : State) (n lvl : Nat) : ∃ cs rg, s.vlHold n lvl = { s with clauses := cs, regs := rg } := by
  unfold State.vlHold
  dsimp only
  split
  · exact s.heldOff_eq _
  · exact ⟨_, _, rfl⟩

/-- A valve whose level commands it off, its record before its profile ends (R184). -/
def State.vlSilenced (s : State) (n lvl : Nat) : State :=
  ((s.vlHold n lvl).setFld (vlPg n) R.PG_STAT.GOV lvl).setValve n { s.valveAt n with cmd := false }

section
variable {s : State} {n : Nat}

theorem State.valveAt_vlHold (lvl m : Nat) : (s.vlHold n lvl).valveAt m = s.valveAt m := by
  obtain ⟨cs, rg, h⟩ := s.vlHold_eq n lvl
  rw [h]; rfl

/-- At level 1 or 2 a running profile ends, but for a load dump that freezes it (R151, R184). -/
theorem State.vlSettle_of_off {lvl : Nat} (hclk : s.clocked .pwr = true) (hoff : lvl = govSafe ∨ lvl = govLatch)
    (hlvl : s.govLevel (64 + n) (s.vlLatched n) (s.valveAt n).heldGov (s.govClauseOf [0x060 + n]).isSome = lvl)
    (hfree : lvl = govLatch ∨ (s.dieAt 1).ldump = false) :
    s.vlSettle n = ((s.vlSilenced n lvl).vlOff n true).sideUpdate (vlSide n) := by
  have hdie : (((s.vlHold n lvl).setFld (vlPg n) R.PG_STAT.GOV lvl).dieAt 1).ldump = (s.dieAt 1).ldump := by
    obtain ⟨cs, rg, h⟩ := s.vlHold_eq n lvl
    rw [h]; rfl
  have hforced : lvl = govSafe ∨ lvl = govLatch ∨ !(s.clocked .pwr && s.enabled (vlPg n)) := by tauto
  unfold State.vlSettle
  dsimp only
  rw [if_pos hclk, hlvl]
  refine (if_neg ?_).trans ((if_pos (.inl hforced)).trans ?_)
  · rintro ⟨hdump, -, hne, -⟩
    have hdumps : (s.dieAt 1).ldump = true := hdie ▸ hdump
    rcases hfree with h | h
    · exact hne h
    · simp [h] at hdumps
  · rw [if_pos hoff, Bool.and_false]
    rfl

/-- A valve that is held off is commanded off, and shows its level (R184, R193). -/
theorem State.vlSettle_off_shows (hn : n < 8) {lvl : Nat} (hclk : s.clocked .pwr = true) (hoff : lvl = govSafe ∨ lvl = govLatch)
    (hlvl : s.govLevel (64 + n) (s.vlLatched n) (s.valveAt n).heldGov (s.govClauseOf [0x060 + n]).isSome = lvl)
    (hfree : lvl = govLatch ∨ (s.dieAt 1).ldump = false) :
    ((s.vlSettle n).valveAt n).cmd = false ∧ (s.vlSettle n).fld (vlPg n) R.PG_STAT.GOV = lvl := by
  have hkeep : (s.vlSilenced n lvl).KeepsVl (s.vlSettle n) :=
    State.vlSettle_of_off hclk hoff hlvl hfree ▸ (State.KeepsVl.vlOff ..).trans (.sideUpdate ..)
  have hlt : lvl < 4 := by rcases hoff with rfl | rfl <;> decide
  refine ⟨(hkeep.cmd n).trans (congrArg Valve.cmd (State.valveAt_setValve_same ..)), ?_⟩
  rw [hkeep.fld _ _ (by decide) (by decide) (fun h => absurd h (by simp only [vlPg, vsPg]; omega)), State.vlSilenced,
    (State.KeepsRegs.setValve (offs := [0x124]) _ n _ (by simp)).fld _ (by decide) (by decide)]
  exact State.fld_setFld_fits _ _ _ _ (by decide) (by decide) hlt

/-- A latched valve, and a valve in safe state, is commanded off (R184). -/
theorem vlSettle_of_latched_or_safe (hn : n < 8) (hclk : s.clocked .pwr = true) (hheld : s.heldBit (64 + n) = false)
    (h : (s.valveAt n).latch = true ∨ s.safe = true) (hdump : s.safe = true → (s.dieAt 1).ldump = false) :
    ((s.vlSettle n).valveAt n).cmd = false ∧ (s.vlSettle n).fld (vlPg n) R.PG_STAT.GOV = if s.safe then 3 else 2 := by
  have hlvl := State.govLevel_of_free hheld (s.vlLatched n) (s.valveAt n).heldGov (s.govClauseOf [0x060 + n]).isSome
  cases hsafe : s.safe with
  | true =>
    rw [hsafe, if_pos rfl] at hlvl
    exact State.vlSettle_off_shows hn hclk (.inl rfl) hlvl (.inr (hdump hsafe))
  | false =>
    have hlatch : s.vlLatched n = true := by simp [State.vlLatched, h.resolve_right (by simp [hsafe])]
    rw [hsafe, if_neg (by decide), if_pos hlatch] at hlvl
    exact State.vlSettle_off_shows hn hclk (.inr rfl) hlvl (.inl rfl)

end

/-! ## The latch of a valve -/

/-- VL.STAT shows the latch of a valve's record (R189). -/
theorem State.bit_latch_setValve (s : State) (n : Nat) (v : Valve) : (s.setValve n v).bit (vlPg n) R.VL.STAT.LATCH = v.latch :=
  State.bit_setBit_same _ _ _ _ rfl (by decide)

/-- A valve's record with its latch set or cleared (R189). -/
def State.setVlLatch (s : State) (n : Nat) (b : Bool) : State := s.setValve n { s.valveAt n with latch := b }

theorem State.setVlLatch_shows (s : State) (n : Nat) (b : Bool) : ((s.setVlLatch n b).valveAt n).latch = b ∧
    (s.setVlLatch n b).bit (vlPg n) R.VL.STAT.LATCH = b :=
  ⟨congrArg Valve.latch (State.valveAt_setValve_same ..), State.bit_latch_setValve ..⟩

section
variable {s : State} {n : Fin 8}

/-- A fault of an enabled valve is reported, counted and latched (R189). -/
theorem vlFault_latches {bit : Nat} (hbit : bit < 16) (hen : s.enabled (vlPg n) = true) (hclk : s.clocked .pwr = true) :
    ∃ u : State, s.vlFault n bit = u.vlSettle n ∧ u.fstat (vlPg n) bit = true ∧ (u.valveAt n).latch = true ∧
      u.bit (vlPg n) R.VL.STAT.LATCH = true := by
  obtain ⟨hlatch, hshown⟩ := ((s.detect (vlPg n) bit).count (vlPg n) 3).setVlLatch_shows n true
  refine ⟨_, if_neg (by simp [hen, hclk]), ?_, hlatch, hshown⟩
  have hkeep := (State.KeepsRegs.count (offs := [0x124]) (s.detect (vlPg n) bit) (vlPg n) (i := 3) (by decide)).trans
    (.setValve _ n { ((s.detect (vlPg n) bit).count (vlPg n) 3).valveAt n with latch := true } (by simp))
  exact (hkeep.fstat (by decide) _ _).trans (State.fstat_detect_same s _ (by omega))

theorem vlFault_of_out {bit : Nat} (h : s.enabled (vlPg n) = false ∨ s.clocked .pwr = false) : s.vlFault n bit = s :=
  if_pos (by simpa using h)

theorem vlClr_clears (hclk : s.clocked .pwr = true) (hlock : s.locked (vlPg n) = false) (hlatch : (s.valveAt n).latch = true) :
    GivesThen (.vlClr n) s (fun u => u.vlSettle n) fun u =>
      (u.valveAt n).latch = false ∧ u.code (vlPg n) = 0 ∧ u.bit (vlPg n) R.VL.STAT.LATCH = false := by
  obtain ⟨hclear, hshown⟩ := s.setVlLatch_shows n false
  refine ⟨(s.setVlLatch n false).ok (vlPg n), (if_neg (by simp [hclk])).trans (if_neg (by simp [hlock, hlatch])), ?_, State.code_ok .., ?_⟩
  · rw [State.valveAt, State.ok_valves]; exact hclear
  · rw [(State.keepsRegs_ok (offs := [0x44]) _ _ (by simp)).bit _ (by decide) (by decide), hshown]

theorem vlClr_refused (hclk : s.clocked .pwr = true) (h : s.locked (vlPg n) = true ∨ (s.valveAt n).latch = false) :
    Refused (.vlClr n) s (vlPg n) :=
  (if_neg (by simp [hclk])).trans (if_pos (by simpa using h))

/-! ## The faults of a peak -/

theorem State.vlRuns_iff {p : VPhase} : s.vlRuns n p = true ↔
    (s.valveAt n).phase = p ∧ s.clocked .pwr = true ∧ (s.dieAt 1).ldump = false := by
  simp [State.vlRuns, and_assoc]

theorem exec_valveOpen_of_due {i : Nat} (hruns : s.vlRuns n .peak = true) (hi : i < 50) (hdue : (s.valveAt n).phaseStart + 2000 ≤ s.tb) :
    exec (.valveOpen n i) s = .next (s.vlFault n 1) :=
  (if_pos ⟨hruns, hi⟩).trans (State.atTick_of_le hdue _)

theorem exec_pktime_of_due (hruns : s.vlRuns n .peak = true)
    (hdue : (s.valveAt n).phaseStart + s.fld (vlPg n) R.VL.PEAK.TPKMAX * 100 ≤ s.tb) : exec (.pktime n) s = .next (s.vlFault n 4) :=
  (if_pos hruns).trans (State.atTick_of_le hdue _)

theorem exec_valveCeil {i : Nat} : exec (.valveCeil n i) s = .next (if 15000 ≤ i then s.vlFault n 8 else s) :=
  (apply_ite Host.Outcome.next ..).symm

end

/-! ## Sides -/

/-- A side's record shows in VSIDE.STAT and in the levels of the sides (R187, R190). -/
theorem State.KeepsRegs.setSide (s : State) (b : Nat) (v : Side) : s.KeepsRegs (s.setSide b v) [0x44, 0x10c] := by
  obtain ⟨ss, w, h⟩ := s.setSide_eq b v
  have hset (u : State) {f : Fld} (hf : f.off = 0x10c ∨ f.off = 0x44) (x : Nat) : u.KeepsRegs (u.setFld vsPg f x) [0x44, 0x10c] :=
    .setFld u vsPg f x (by simp [hf.symm]) (by omega)
  have hsides : s.KeepsRegs ({ s with sides := ss } : State) [0x44, 0x10c] := .of_regs (by rfl) _
  rw [h]
  refine hsides.trans ?_
  unfold State.sideShow State.setBit
  dsimp only
  refine (((hset _ ?_ _).trans (hset _ ?_ _)).trans (hset _ ?_ _)).trans (hset _ ?_ _)
  · exact .inl (by split <;> rfl)
  · exact .inl (by split <;> rfl)
  · exact .inl (by split <;> rfl)
  · exact .inr (by split <;> rfl)

/-- Faults of the running valves of a side with its latch (R190). -/
def State.sideTell (s : State) (l : List Nat) : State :=
  l.foldl (fun t n => t.detectIf ((t.valveAt n).phase = .peak || (t.valveAt n).phase = .pkhold || (t.valveAt n).phase = .hold) (vlPg n) 9) s

/-- The reports of the valves leave the sides, and clear no bit (R190, R357). -/
theorem State.sideTell_shows {pg b : Nat} : ∀ (l : List Nat) (s : State),
    (s.sideTell l).sides = s.sides ∧ (s.fstat pg b = true → (s.sideTell l).fstat pg b = true)
  | [], _ => ⟨rfl, id⟩
  | n :: l, s => by
    have hone (c : Bool) : (s.detectIf c (vlPg n) 9).sides = s.sides ∧ (s.fstat pg b = true → (s.detectIf c (vlPg n) 9).fstat pg b = true) := by
      cases c
      · exact ⟨rfl, id⟩
      · exact ⟨State.detect_sides .., fun h => State.fstat_detect_of_fstat h _ _⟩
    obtain ⟨hsides, hstat⟩ := State.sideTell_shows (pg := pg) (b := b) l (s.detectIf _ (vlPg n) 9)
    exact ⟨hsides.trans (hone _).1, fun h => hstat ((hone _).2 h)⟩

/-- A side with its latch set, and its switches off (R190). -/
def State.sideLatched (s : State) (b bit : Nat) : State :=
  let s := s.detect vsPg bit
  (s.setSide b { s.sideAt b with latch := true, src := .off, next := none, peakNext := none }).sideTell (sideValves b)

theorem State.sideFault_eq (s : State) (b bit : Nat) : s.sideFault b bit = (s.sideLatched b bit).vlSettleList (sideValves b) := rfl

theorem State.sideLatched_shows (s : State) (b : Nat) {bit : Nat} (hbit : bit < 32) : ((s.sideLatched b bit).sideAt b).latch = true ∧
    ((s.sideLatched b bit).sideAt b).src = .off ∧ ((s.sideLatched b bit).sideAt b).peakNext = none ∧
    (s.sideLatched b bit).fstat vsPg bit = true := by
  obtain ⟨e, l, hside⟩ := (s.detect vsPg bit).sideAt_setSide b
    { (s.detect vsPg bit).sideAt b with latch := true, src := .off, next := none, peakNext := none }
  obtain ⟨hsides, hstat⟩ := State.sideTell_shows (pg := vsPg) (b := bit) (sideValves b) ((s.detect vsPg bit).setSide b
    { (s.detect vsPg bit).sideAt b with latch := true, src := .off, next := none, peakNext := none })
  have hat : (s.sideLatched b bit).sideAt b = ((s.detect vsPg bit).setSide b
      { (s.detect vsPg bit).sideAt b with latch := true, src := .off, next := none, peakNext := none }).sideAt b := by
    rw [State.sideAt, State.sideAt, State.sideLatched, hsides]
  rw [hat, hside]
  refine ⟨rfl, rfl, rfl, hstat ?_⟩
  rw [(State.KeepsRegs.setSide _ b _).fstat (by decide)]
  exact State.fstat_detect_same s vsPg hbit

section
variable {s : State} {b : Fin 2}

/-- A side at its ceiling latches (R190). -/
theorem exec_sideLatch_of_ceil {i : Nat} (hi : 30000 ≤ i) (hclk : s.clocked .pwr = true) :
    exec (.sideLatch b i) s = .next ((s.sideLatched b (3 + b.val)).vlSettleList (sideValves b)) := by
  have hexec : exec (.sideLatch b i) s = .next (s.sideFault b (3 + b)) := (if_pos hi).trans (if_pos hclk)
  rw [hexec, State.sideFault_eq]

/-- A clear of a side's latch (R190). -/
theorem State.sideClr_clears (hlock : s.locked vsPg = false) (hlatch : (s.sideAt b).latch = true) :
    ∃ u : State, s.sideClr b = u.vlSettleList (sideValves b) ∧ (u.sideAt b).latch = false ∧ u.code vsPg = 0 := by
  obtain ⟨e, l, hside⟩ := s.sideAt_setSide b { s.sideAt b with latch := false }
  refine ⟨(s.setSide b { s.sideAt b with latch := false }).ok vsPg, if_neg (by simp [hlock, hlatch]), ?_, State.code_ok ..⟩
  rw [State.sideAt, State.ok_sides]
  exact congrArg Side.latch hside

theorem State.sideClr_refused (h : s.locked vsPg = true ∨ (s.sideAt b).latch = false) : s.sideClr b = s.refuse vsPg :=
  if_pos (by simpa using h)

/-- CLRA and CLRB (R190). -/
theorem exec_sideClr (hclk : s.clocked .pwr = true) : exec (if b = 0 then .clra else .clrb) s = .next (s.sideClr b) :=
  match b with
  | 0 => if_pos hclk
  | 1 => if_pos hclk

/-- The end of a changeover closes the other switch (R182, R187). -/
theorem sideChangeoverEnd_closes {src : SideSrc} {d : Nat} (hclk : s.clocked .pwr = true) (hnext : (s.sideAt b).next = some (src, d))
    (hdue : d ≤ s.tb) (hdump : (s.dieAt 1).ldump = false) :
    GivesThen (.sideChangeoverEnd b) s (fun u => match (s.sideAt b).peakNext with | some n => u.vlEnterPeak n | none => u) fun u =>
      (u.sideAt b).src = src ∧ (u.sideAt b).next = none ∧ (u.sideAt b).peakNext = none := by
  obtain ⟨e, l, hside⟩ := s.sideAt_setSide b { s.sideAt b with src := src, next := none, peakNext := none }
  refine ⟨s.setSide b { s.sideAt b with src := src, next := none, peakNext := none }, ?_, ?_⟩
  · change execSideChangeoverEnd b s = _
    unfold execSideChangeoverEnd
    dsimp only
    rw [hnext]
    exact (if_neg (by simp [hclk, hdump])).trans (State.atTick_of_le hdue _)
  · exact ⟨congrArg Side.src hside, congrArg Side.next hside, congrArg Side.peakNext hside⟩

/-- A side is off 2 ms after its limp value was imposed (R191). -/
theorem sideLimpTimeout_ends {a : Int} (hlimp : (s.sideAt b).limpAt = some a) (hdue : a + 200000 ≤ s.kaNow) :
    GivesThen (.sideLimpTimeout b) s (fun u => u.sideUpdate b) fun u => (u.sideAt b).limpOff = true ∧ u.tb = s.tb := by
  obtain ⟨e, l, hside⟩ := s.sideAt_setSide b { s.sideAt b with limpOff := true }
  refine ⟨s.setSide b { s.sideAt b with limpOff := true }, ?_, congrArg Side.limpOff hside, rfl⟩
  change execSideLimpTimeout b s = _
  unfold execSideLimpTimeout
  rw [hlimp]
  exact State.atKa_of_le hdue _

theorem exec_sideLimpTimeout_of_none (hlimp : (s.sideAt b).limpAt = none) : exec (.sideLimpTimeout b) s = .next s := by
  change execSideLimpTimeout b s = _
  unfold execSideLimpTimeout
  rw [hlimp]

end

/-! ## The boost -/

section
variable (s : State) (v : Nat)

theorem State.boostMeas_vmeas : (s.boostMeas v).fld vsPg R.BOOST.STAT.VMEAS = min 0xFFFF (v / 10) :=
  State.fld_setFld_fits _ _ _ _ (by decide) (by decide) (by simp)

/-- A reading changes VMEAS only (R186). -/
theorem State.fld_boostMeas {f : Fld} (h : R.BOOST.STAT.VMEAS.Apart f) : (s.boostMeas v).fld vsPg f = s.fld vsPg f :=
  State.fld_setFld_apart s vsPg _ h

theorem State.readyV_boostMeas : (s.boostMeas v).readyV = s.readyV := by
  unfold State.readyV State.vset
  rw [s.fld_boostMeas v (by simp), s.fld_boostMeas v (by simp)]

theorem State.vset_boostMeas : (s.boostMeas v).vset = s.vset := by
  rw [State.vset, State.vset, s.fld_boostMeas v (by simp)]

/-- A change of the boost's state leaves the fields of its page but for the sides' (R186, R187). -/
theorem State.setBoost_keeps (st : Nat) : (s.setFld vsPg R.BOOST.STAT.ST st).KeepsVl (s.setBoost st) :=
  (State.KeepsVl.sideUpdate ..).trans (.sideUpdate ..)

theorem State.setBoost_st {st : Nat} (h : st < 4) : (s.setBoost st).fld vsPg R.BOOST.STAT.ST = st := by
  rw [(s.setBoost_keeps st).fld _ _ (by decide) (by decide) (fun _ => by simp)]
  exact State.fld_setFld_fits _ _ _ _ (by decide) (by decide) (by simp; omega)

theorem State.fld_setBoost (st : Nat) {f : Fld} (hlt : f.off < 0x800) (hn : f.off ∉ [0x48, 0x10c, 0x124])
    (hgov : R.PG_STAT.GOV.Apart f ∧ R.PG_STAT.GOVB.Apart f) (hst : R.BOOST.STAT.ST.Apart f) :
    (s.setBoost st).fld vsPg f = s.fld vsPg f :=
  ((s.setBoost_keeps st).fld _ _ hlt hn fun _ => hgov).trans (State.fld_setFld_apart s vsPg st hst)

/-- A state that the boost takes on a reading, with the reading (R186). -/
theorem State.setBoost_boostMeas {st : Nat} (h : st < 4) : ((s.boostMeas v).setBoost st).fld vsPg R.BOOST.STAT.ST = st ∧
    ((s.boostMeas v).setBoost st).fld vsPg R.BOOST.STAT.VMEAS = min 0xFFFF (v / 10) :=
  ⟨State.setBoost_st _ h, (State.fld_setBoost _ st (by decide) (by decide) (by simp) (by simp)).trans (s.boostMeas_vmeas v)⟩

end

section
variable {s : State} {v : Nat}

theorem State.boostFeeds_iff : s.boostFeeds = true ↔ s.fld vsPg R.BOOST.STAT.ST = 1 ∨ s.fld vsPg R.BOOST.STAT.ST = 2 := by
  simp [State.boostFeeds]

variable (hclk : s.clocked .pwr = true)
include hclk

theorem boostReady_readies (hst : s.fld vsPg R.BOOST.STAT.ST = 1) (hv : s.readyV ≤ v) : Gives (.boostReady v) s fun t =>
    t.fld vsPg R.BOOST.STAT.ST = 2 ∧ t.fld vsPg R.BOOST.STAT.VMEAS = min 0xFFFF (v / 10) ∧ ∃ p ∈ t.postings, p.ev = 148 := by
  have hready : (s.boostMeas v).fld vsPg R.BOOST.STAT.ST = 1 ∧ (s.boostMeas v).readyV ≤ v :=
    ⟨(s.fld_boostMeas v (by simp)).trans hst, (s.readyV_boostMeas v).trans_le hv⟩
  obtain ⟨hnew, hmeas⟩ := s.setBoost_boostMeas v (st := 2) (by decide)
  have hpost (f : Fld) : (((s.boostMeas v).setBoost 2).post 148).fld vsPg f = ((s.boostMeas v).setBoost 2).fld vsPg f :=
    State.fld_of_regs (State.post_regs ..) ..
  refine ⟨((s.boostMeas v).setBoost 2).post 148, (if_neg (by simp [hclk])).trans (if_pos hready), (hpost _).trans hnew, (hpost _).trans hmeas, ?_⟩
  rw [State.post_postings]
  exact ⟨_, List.mem_append_right _ (List.mem_singleton_self _), rfl⟩

theorem boostReady_measures (h : s.fld vsPg R.BOOST.STAT.ST ≠ 1 ∨ v < s.readyV) : Gives (.boostReady v) s fun t =>
    t.fld vsPg R.BOOST.STAT.ST = s.fld vsPg R.BOOST.STAT.ST ∧ t.fld vsPg R.BOOST.STAT.VMEAS = min 0xFFFF (v / 10) ∧
      t.postings = s.postings := by
  have hst : (s.boostMeas v).fld vsPg R.BOOST.STAT.ST = s.fld vsPg R.BOOST.STAT.ST := s.fld_boostMeas v (by simp)
  have hnot : ¬ ((s.boostMeas v).fld vsPg R.BOOST.STAT.ST = 1 ∧ (s.boostMeas v).readyV ≤ v) := by
    rw [hst, s.readyV_boostMeas v]; omega
  exact ⟨s.boostMeas v, (if_neg (by simp [hclk])).trans (if_neg hnot), hst, s.boostMeas_vmeas v, State.setFld_postings ..⟩

theorem boostReadyLost_charges (hst : s.fld vsPg R.BOOST.STAT.ST = 2) (hv : v < s.readyV) : Gives (.boostReadyLost v) s fun t =>
    t.fld vsPg R.BOOST.STAT.ST = 1 ∧ t.fld vsPg R.BOOST.STAT.VMEAS = min 0xFFFF (v / 10) ∧ t.boostTick = s.tb := by
  have hlost : (s.boostMeas v).fld vsPg R.BOOST.STAT.ST = 2 ∧ v < (s.boostMeas v).readyV :=
    ⟨(s.fld_boostMeas v (by simp)).trans hst, hv.trans_eq (s.readyV_boostMeas v).symm⟩
  obtain ⟨hnew, hmeas⟩ := s.setBoost_boostMeas v (st := 1) (by decide)
  exact ⟨(s.boostMeas v).boostCharge, (if_neg (by simp [hclk])).trans (if_pos hlost), hnew, hmeas, rfl⟩

theorem bovp_stops (hst : s.fld vsPg R.BOOST.STAT.ST = 1 ∨ s.fld vsPg R.BOOST.STAT.ST = 2) (hv : s.vset + 5000 < v) :
    Gives (.bovp v) s fun t => t.fld vsPg R.BOOST.STAT.ST = 3 ∧ t.fld vsPg R.BOOST.STAT.VMEAS = min 0xFFFF (v / 10) ∧
      t.fstat vsPg 1 = true := by
  have hover : (s.boostMeas v).boostFeeds = true ∧ (s.boostMeas v).vset + 5000 < v := by
    rw [State.boostFeeds_iff, s.fld_boostMeas v (by simp), s.vset_boostMeas v]
    exact ⟨hst, hv⟩
  have hkeep := State.KeepsRegs.detect (offs := [0x48]) ((s.boostMeas v).setBoost 3) vsPg 1 (by simp)
  obtain ⟨hnew, hmeas⟩ := s.setBoost_boostMeas v (st := 3) (by decide)
  exact ⟨((s.boostMeas v).setBoost 3).detect vsPg 1, (if_neg (by simp [hclk])).trans (if_pos hover),
    (hkeep.fld _ (by decide) (by decide)).trans hnew, (hkeep.fld _ (by decide) (by decide)).trans hmeas, State.fstat_detect_same _ _ (by decide)⟩

theorem buvto_tells (hst : s.fld vsPg R.BOOST.STAT.ST = 1) (htold : s.boostTold = false) (hdue : s.boostTick + 2000000 ≤ s.tb) :
    Gives .buvto s fun t => t.boostTold = true ∧ t.fstat vsPg 2 = true ∧ t.fld vsPg R.BOOST.STAT.ST = 1 := by
  have hkeep := State.KeepsRegs.detect (offs := [0x48]) ({ s with boostTold := true } : State) vsPg 2 (by simp)
  exact ⟨({ s with boostTold := true } : State).detect vsPg 2, (if_pos ⟨hclk, hst, by simp [htold]⟩).trans (State.atTick_of_le hdue _),
    State.detect_boostTold .., State.fstat_detect_same _ _ (by decide), (hkeep.fld _ (by decide) (by decide)).trans hst⟩

theorem bclr_charges (hlock : s.locked vsPg = false) (hst : s.fld vsPg R.BOOST.STAT.ST = 3) : Gives .bclr s fun t =>
    t.fld vsPg R.BOOST.STAT.ST = 1 ∧ t.code vsPg = 0 ∧ t.boostTold = false :=
  ⟨(s.ok vsPg).boostCharge, (if_neg (by simp [hclk])).trans (if_neg (by simp [hlock, hst])), (s.ok vsPg).setBoost_st (by decide),
    ((s.ok vsPg).fld_setBoost 1 (by decide) (by decide) (by simp) (by simp)).trans (s.code_ok vsPg), rfl⟩

theorem bclr_refused (h : s.locked vsPg = true ∨ s.fld vsPg R.BOOST.STAT.ST ≠ 3) : Refused .bclr s vsPg :=
  (if_neg (by simp [hclk])).trans (if_pos (by simpa using h))

end

/-! ## The statement -/

/-- Settles O37: a valve's faults and its chain, a side's latch and switches, the boost by its states. -/
theorem valveSupplies : Obligations.ValveSupplies := by
  unfold Obligations.ValveSupplies
  refine ⟨⟨fun s n bit hbit => ⟨vlFault_latches hbit, vlFault_of_out⟩, fun s n i => ⟨fun hruns hi hdue => ?_, ⟨fun hruns hshort => ?_, fun h => ?_⟩,
      fun hruns hdue => ?_, exec_valveCeil, vlClr_clears, vlClr_refused, vlSettle_of_latched_or_safe n.isLt⟩⟩,
    fun s b => ⟨fun i => ⟨fun hi hclk => ?_, fun hi hclk => ?_, fun hi => ?_⟩, fun hclk => ⟨⟨fun hlock hlatch => ?_, fun h => ?_⟩, ?_⟩, ?_, ?_⟩,
    fun s v hclk => ⟨?_, ?_, ?_, ?_, ?_, ?_, ?_⟩⟩
  · exact exec_valveOpen_of_due (State.vlRuns_iff.2 hruns) hi hdue
  · exact if_pos ⟨State.vlRuns_iff.2 hruns, hshort⟩
  · exact if_neg fun ⟨hruns, hshort⟩ => h.elim (fun hnot => hnot (State.vlRuns_iff.1 hruns)) fun hnot => hnot hshort
  · exact exec_pktime_of_due (State.vlRuns_iff.2 hruns) hdue
  · exact ⟨s.sideLatched b (3 + b), exec_sideLatch_of_ceil hi hclk, s.sideLatched_shows b (by omega)⟩
  · exact (if_pos hi).trans (if_neg (by simp [hclk]))
  · exact if_neg (Nat.not_le.2 hi)
  · obtain ⟨u, hclr, hshows⟩ := State.sideClr_clears hlock hlatch
    exact ⟨u, (exec_sideClr hclk).trans (congrArg _ hclr), hshows⟩
  · exact (exec_sideClr hclk).trans (congrArg _ (State.sideClr_refused h))
  · exact fun src d => sideChangeoverEnd_closes hclk
  · exact fun a => sideLimpTimeout_ends
  · exact exec_sideLimpTimeout_of_none
  · exact boostReady_readies hclk
  · exact boostReady_measures hclk
  · exact boostReadyLost_charges hclk
  · exact bovp_stops hclk
  · exact buvto_tells hclk
  · exact bclr_charges hclk
  · exact bclr_refused hclk

end Sys2Proof.Machine
end

section
/-! Profiles of the valves: what a start, a trigger and a move of a profile leave of the state (R182, R184, R185, R187). -/

namespace Sys2Proof.Machine

/-! ## What a valve's and a side's record leave -/

@[simp] theorem State.setSide_tb (s : State) (b : Nat) (v : Side) : (s.setSide b v).tb = s.tb := rfl
@[simp] theorem State.setValve_sides (s : State) (n : Nat) (v : Valve) : (s.setValve n v).sides = s.sides := rfl
@[simp] theorem State.setSide_valves (s : State) (b : Nat) (v : Side) : (s.setSide b v).valves = s.valves := rfl
@[simp] theorem State.setValve_dies (s : State) (n : Nat) (v : Valve) : (s.setValve n v).dies = s.dies := rfl
@[simp] theorem State.setSide_dies (s : State) (b : Nat) (v : Side) : (s.setSide b v).dies = s.dies := rfl
@[simp] theorem State.detectIf_sides (s : State) (c : Bool) (pg bit : Nat) : (s.detectIf c pg bit).sides = s.sides := by
  cases c
  · rfl
  · exact State.detect_sides ..
@[simp] theorem State.detectIf_valves (s : State) (c : Bool) (pg bit : Nat) : (s.detectIf c pg bit).valves = s.valves := by
  cases c
  · rfl
  · exact State.detect_valves ..

theorem State.valveAt_setValve_ne (s : State) {n m : Nat} (v : Valve) (h : m ≠ n) : (s.setValve n v).valveAt m = s.valveAt m := by
  unfold State.setValve State.valveAt
  simp only [State.setBit_valves, State.setFld_valves, tget_tset_ne _ _ _ h]

theorem State.valveAt_of_valves {s t : State} (h : t.valves = s.valves) (m : Nat) : t.valveAt m = s.valveAt m := by
  rw [State.valveAt, State.valveAt, h]

theorem State.sideAt_of_sides {s t : State} (h : t.sides = s.sides) (b : Nat) : t.sideAt b = s.sideAt b := by
  rw [State.sideAt, State.sideAt, h]

/-- VL.STAT shows the phase of a valve's record (R182). -/
theorem State.fld_phase_setValve (s : State) (n : Nat) (v : Valve) :
    (s.setValve n v).fld (vlPg n) R.VL.STAT.PHASE = vpCode v.phase := by
  unfold State.setValve State.setBit
  dsimp only
  rw [State.fld_setFld_apart _ _ _ (by simp), State.fld_setFld_apart _ _ _ (by simp)]
  exact State.fld_setFld_fits _ _ _ _ (by decide) (by decide) (by cases v.phase <;> decide)

/-- The boost's state is none of what the moves of profiles write (R186). -/
theorem State.KeepsVl.boostFeeds {s t : State} (h : s.KeepsVl t) : t.boostFeeds = s.boostFeeds := by
  have hst : t.fld vsPg R.BOOST.STAT.ST = s.fld vsPg R.BOOST.STAT.ST := h.fld _ _ (by decide) (by decide) fun _ => by simp
  rw [State.boostFeeds, State.boostFeeds, hst]

/-! ## The side's switch -/

/-- A choice between two changes of a side's record is one. -/
theorem State.exists_setSide_ite {s t u : State} {b : Nat} {c : Prop} [Decidable c] (ht : ∃ v, t = s.setSide b v)
    (hu : ∃ v, u = s.setSide b v) : ∃ v, (if c then t else u) = s.setSide b v := by
  split
  · exact ht
  · exact hu

/-- A change of a side's switch that no valve waits for changes the side's record only (R182, R187). -/
theorem State.sideUpdate_of_no_waiter {s : State} {b : Nat} (h : (s.sideAt b).peakNext = none) :
    ∃ v, s.sideUpdate b = s.setSide b v := by
  have hset (v : Side) : ∃ w, s.setSide b v = s.setSide b w := ⟨v, rfl⟩
  unfold State.sideUpdate
  dsimp only
  rw [h]
  refine State.exists_setSide_ite (hset _) ?_
  split
  · exact State.exists_setSide_ite (hset _) (State.exists_setSide_ite (hset _) (hset _))
  · exact State.exists_setSide_ite (hset _) (State.exists_setSide_ite (hset _) (State.exists_setSide_ite (hset _) (hset _)))

/-- Neither a latch, a limp value nor a condition of R29 keeps a side's switches off. -/
structure State.SideFree (s : State) (b : Nat) : Prop where
  latch : (s.sideAt b).latch = false
  limpOff : (s.sideAt b).limpOff = false
  tsd : (s.sideAt b).tsd = false
  die : (s.dieAt 1).any = false

namespace State.SideFree

variable {s t : State} {b : Nat} (h : s.SideFree b)
include h

theorem of_sides (hs : t.sides = s.sides) (hd : t.dies = s.dies) : t.SideFree b := by
  obtain ⟨hlatch, hlimp, htsd, hdie⟩ := h
  constructor <;> simpa only [State.sideAt_of_sides hs, State.dieAt_of_dies hd]

/-- The record of the switches and of who waits for them is none of it. -/
theorem setSide {v : Side} (hlatch : v.latch = (s.sideAt b).latch) (hlimp : v.limpOff = (s.sideAt b).limpOff)
    (htsd : v.tsd = (s.sideAt b).tsd) : (s.setSide b v).SideFree b := by
  obtain ⟨e, l, hside⟩ := s.sideAt_setSide b v
  refine ⟨?_, ?_, ?_, ?_⟩
  · rw [hside]; exact hlatch.trans h.latch
  · rw [hside]; exact hlimp.trans h.limpOff
  · rw [hside]; exact htsd.trans h.tsd
  · rw [State.dieAt_of_dies (State.setSide_dies ..)]; exact h.die

theorem die_free : (s.dieAt 1).off = false ∧ (s.dieAt 1).ldump = false ∧ (s.dieAt 1).revb = false := by
  have hdie := h.die
  simp only [DieSt.any, Bool.or_eq_false_iff] at hdie
  obtain ⟨⟨⟨huv, hdump⟩, hgndl⟩, hrevb⟩ := hdie
  exact ⟨by simp [DieSt.off, huv, hgndl], hdump, hrevb⟩

theorem ldump : (s.dieAt 1).ldump = false := h.die_free.2.1

theorem sideCut : s.sideCut b = false := by
  obtain ⟨hoff, -, hrevb⟩ := h.die_free
  simp [State.sideCut, h.latch, h.tsd, hoff, hrevb]

theorem vlHeld {n : Nat} (hb : vlSide n = b) (htsd : (s.valveAt n).tsd = false) : s.vlHeld n = false := by
  obtain ⟨hoff, -, hrevb⟩ := h.die_free
  simp [State.vlHeld, hb, htsd, h.tsd, hoff, hrevb]

/-- With a peak the side is on boost where the store feeds it, else on battery (R182). -/
theorem sideWant (hpeak : s.sidePeaking b = true) : s.sideWant b = if s.boostFeeds then .boost else .battery := by
  rw [State.sideWant, if_neg (by simp [h.sideCut, h.limpOff]), if_pos hpeak]

/-- A side that is off closes its switch at once, and the valve that waits for it enters PEAK (R187). -/
theorem sideUpdate_of_waiter {n : Nat} (hoff : (s.sideAt b).src = .off) (hnext : (s.sideAt b).next = none)
    (hwait : (s.sideAt b).peakNext = some n) : s.sideUpdate b =
      (s.setSide b { s.sideAt b with src := if s.boostFeeds then .boost else .battery, peakNext := none }).vlEnterPeak n := by
  have hwant := h.sideWant (by simp [State.sidePeaking, hwait])
  have hon : (if s.boostFeeds then SideSrc.boost else .battery) ≠ .off := by split <;> decide
  unfold State.sideUpdate
  dsimp only
  rw [if_neg (by simp [h.ldump]), hnext, hwant]
  dsimp only
  rw [if_neg (by rwa [hoff]), if_neg hon, if_pos hoff, hwait]

end State.SideFree

/-! ## The start of a peak -/

/-- A valve that enters PEAK shows it, and leaves the sides (R182). -/
theorem State.vlEnterPeak_shows (s : State) (n : Nat) : ((s.vlEnterPeak n).valveAt n).phase = .peak ∧
    ((s.vlEnterPeak n).valveAt n).phaseStart = s.tb ∧ (s.vlEnterPeak n).fld (vlPg n) R.VL.STAT.PHASE = 1 ∧
    (s.vlEnterPeak n).sides = s.sides := by
  have henter (u : State) (v : Valve) (c d : Bool) (hphase : v.phase = .peak) (hstart : v.phaseStart = s.tb) (hsides : u.sides = s.sides) :
      let t := ((u.setValve n v).setBit (vlPg n) R.VL.STAT.BFED c).detectIf d (vlPg n) 6
      (t.valveAt n).phase = .peak ∧ (t.valveAt n).phaseStart = s.tb ∧ t.fld (vlPg n) R.VL.STAT.PHASE = 1 ∧ t.sides = s.sides := by
    dsimp only
    rw [State.valveAt_of_valves (State.detectIf_valves ..), State.valveAt_of_valves (State.setBit_valves ..), State.valveAt_setValve_same,
      (State.keepsRegs_detectIf ..).fld _ (by decide) (by decide), State.setBit, State.fld_setFld_apart _ _ _ (by simp),
      State.fld_phase_setValve, hphase]
    exact ⟨rfl, hstart, rfl, by simpa using hsides⟩
  unfold State.vlEnterPeak
  dsimp only
  split
  · refine henter (s.setFld (vlPg n) R.VL.STAT.WAITD _) _ _ _ ?_ ?_ (State.setFld_sides ..) <;> rfl
  · refine henter s _ _ _ ?_ ?_ rfl <;> rfl

/-- A valve of a side that is off and free enters PEAK at once (R187). -/
theorem State.vlTakePeak_of_off {s : State} {n : Nat} (h : s.SideFree (vlSide n)) (hoff : (s.sideAt (vlSide n)).src = .off)
    (hnext : (s.sideAt (vlSide n)).next = none) : ∃ u : State, s.vlTakePeak n = u.vlEnterPeak n ∧ u.tb = s.tb ∧
      (u.sideAt (vlSide n)).src = if s.boostFeeds then .boost else .battery := by
  let w := s.setSide (vlSide n) { s.sideAt (vlSide n) with peakNext := some n }
  obtain ⟨e, l, hw⟩ : ∃ e l, w.sideAt (vlSide n) = _ := s.sideAt_setSide (vlSide n) _
  have hfeeds : w.boostFeeds = s.boostFeeds := (State.KeepsVl.setSide ..).boostFeeds
  have hupd := (show w.SideFree (vlSide n) from h.setSide rfl rfl rfl).sideUpdate_of_waiter (n := n) (by rw [hw]; exact hoff)
    (by rw [hw]; exact hnext) (by rw [hw])
  rw [hfeeds] at hupd
  obtain ⟨e', l', hu⟩ := w.sideAt_setSide (vlSide n)
    { w.sideAt (vlSide n) with src := if s.boostFeeds then .boost else .battery, peakNext := none }
  refine ⟨_, (if_neg ?_).trans hupd, by simp [w], by rw [hu]⟩
  obtain ⟨-, -, -, hsides⟩ := State.vlEnterPeak_shows (w.setSide (vlSide n)
    { w.sideAt (vlSide n) with src := if s.boostFeeds then .boost else .battery, peakNext := none }) n
  change ¬ (((w.sideUpdate (vlSide n)).sideAt (vlSide n)).peakNext = some n ∧ _)
  rw [hupd, State.sideAt_of_sides hsides, hu]
  simp

/-- A start with no peak on its side, and none to come (R187). -/
theorem State.vlStart_of_free {s : State} {n : Nat} (hwait : (s.sideAt (vlSide n)).peakNext = none)
    (hnone : ∀ m ∈ sideValves (vlSide n), m ≠ n → (s.valveAt m).phase ≠ .peak) : s.vlStart n =
      ((s.count (vlPg n) 0).setValve n { s.valveAt n with phase := .idle, waitStart := none }).vlTakePeak n := by
  have hat (m : Nat) : (s.count (vlPg n) 0).valveAt m = s.valveAt m := State.valveAt_of_valves (State.count_valves ..) m
  have hside : (s.count (vlPg n) 0).sideAt (vlSide n) = s.sideAt (vlSide n) := State.sideAt_of_sides (State.count_sides ..) _
  unfold State.vlStart
  dsimp only
  rw [hside, hat]
  refine if_neg ?_
  simp only [hwait, hat, Option.isSome_none, Bool.false_eq_true, false_or, List.any_eq_true, Bool.and_eq_true, decide_eq_true_eq]
  rintro ⟨m, hm, hne, hpeak⟩
  exact hnone m hm (by simpa using hne) hpeak

/-- The start of a valve whose side is off and free is a peak (R182, R187). -/
theorem State.vlStart_peaks {s : State} {n : Nat} (h : s.SideFree (vlSide n)) (hwait : (s.sideAt (vlSide n)).peakNext = none)
    (hnone : ∀ m ∈ sideValves (vlSide n), (s.valveAt m).phase ≠ .peak) (hoff : (s.sideAt (vlSide n)).src = .off)
    (hnext : (s.sideAt (vlSide n)).next = none) : ((s.vlStart n).valveAt n).phase = .peak ∧
      ((s.vlStart n).valveAt n).phaseStart = s.tb ∧ (s.vlStart n).fld (vlPg n) R.VL.STAT.PHASE = 1 ∧
      ((s.vlStart n).sideAt (vlSide n)).src = if s.boostFeeds then .boost else .battery := by
  let w := (s.count (vlPg n) 0).setValve n { s.valveAt n with phase := .idle, waitStart := none }
  have hstart : s.vlStart n = w.vlTakePeak n := State.vlStart_of_free hwait fun m hm _ => hnone m hm
  have hsides : w.sides = s.sides := by simp [w]
  have hkeep : s.KeepsVl w := by
    refine (State.KeepsVl.of_keepsRegs (State.count_valves ..) (.count s (vlPg n) (i := 0) (by decide))).trans (.setValve _ n ?_)
    rw [State.valveAt_of_valves (State.count_valves ..)]
  obtain ⟨u, htake, htb, hsrc⟩ := State.vlTakePeak_of_off (s := w) (n := n) (h.of_sides hsides (by simp [w]))
    (by rwa [State.sideAt_of_sides hsides]) (by rwa [State.sideAt_of_sides hsides])
  obtain ⟨hphase, hsince, hfld, hus⟩ := u.vlEnterPeak_shows n
  have hwtb : w.tb = s.tb := by simp [w, State.setValve_tb]
  rw [hstart, htake, State.sideAt_of_sides hus, hsrc, hkeep.boostFeeds]
  exact ⟨hphase, hsince.trans (htb.trans hwtb), hfld, rfl⟩

/-- A start meets a peak of its side: it waits, and reports that it does (R187). -/
theorem State.vlStart_waits {s : State} {n m : Nat} (hwait : (s.sideAt (vlSide n)).peakNext = none)
    (hm : m ∈ sideValves (vlSide n)) (hne : m ≠ n) (hpeak : (s.valveAt m).phase = .peak) :
    ((s.vlStart n).valveAt n).phase = .pkwait ∧ ((s.vlStart n).valveAt n).waitStart = s.tb ∧ (s.vlStart n).fstat (vlPg n) 7 = true := by
  let w := (s.count (vlPg n) 0).setValve n { (s.count (vlPg n) 0).valveAt n with
    phase := .pkwait, waitStart := some (s.count (vlPg n) 0).tb }
  let u := (w.detect (vlPg n) 7).count (vlPg n) 1
  have hstart : s.vlStart n = u.sideUpdate (vlSide n) := by
    refine if_pos (.inr (List.any_eq_true.2 ⟨m, hm, ?_⟩))
    rw [State.valveAt_of_valves (State.count_valves ..), hpeak]
    simp [hne]
  obtain ⟨v, hupd⟩ := State.sideUpdate_of_no_waiter (s := u) (b := vlSide n) (by
    rw [State.sideAt_of_sides (show u.sides = s.sides by simp [u, w]), hwait])
  have hat : (u.setSide (vlSide n) v).valveAt n = _ :=
    (State.valveAt_of_valves (t := u.setSide (vlSide n) v) (s := w) (by simp [u]) n).trans (State.valveAt_setValve_same ..)
  rw [hstart, hupd, hat]
  refine ⟨rfl, congrArg some (State.count_tb ..), ?_⟩
  rw [(State.KeepsRegs.setSide ..).fstat (by decide), (State.KeepsRegs.count (offs := []) _ _ (by decide)).fstat (by decide)]
  exact State.fstat_detect_same _ _ (by decide)

/-! ## Triggers -/

section
variable {s : State} {n : Nat}

/-- A valve that has been triggered, before the trigger's effect (R185). -/
def State.vlTriggered (s : State) (n : Nat) : State := s.setValve n { s.valveAt n with lastTrig := s.tb }

theorem State.vlTriggered_valveAt : (s.vlTriggered n).valveAt n = { s.valveAt n with lastTrig := s.tb } := State.valveAt_setValve_same ..

theorem State.vlTriggered_phase (m : Nat) : ((s.vlTriggered n).valveAt m).phase = (s.valveAt m).phase := by
  by_cases hm : m = n
  · rw [hm, State.vlTriggered_valveAt]
  · rw [State.vlTriggered, State.valveAt_setValve_ne _ _ hm]

theorem State.vlTriggered_sideAt (b : Nat) : (s.vlTriggered n).sideAt b = s.sideAt b := State.sideAt_of_sides (State.setValve_sides ..) b

theorem State.vlTriggered_dieAt (d : Nat) : (s.vlTriggered n).dieAt d = s.dieAt d := State.dieAt_of_dies (State.setValve_dies ..) d

theorem State.vlTriggered_vlHeld : (s.vlTriggered n).vlHeld n = s.vlHeld n := by
  simp only [State.vlHeld, State.vlTriggered_valveAt, State.vlTriggered_sideAt, State.vlTriggered_dieAt]

/-- A trigger of a valve that is held off starts nothing (R184, R190). -/
theorem State.vlTrigger_of_held (h : s.vlHeld n = true ∨ (s.dieAt 1).ldump = true ∨ (s.sideAt (vlSide n)).latch = true) :
    s.vlTrigger n = s.vlTriggered n :=
  if_pos (by rwa [← State.vlTriggered_vlHeld, ← State.vlTriggered_dieAt, ← State.vlTriggered_sideAt] at h)

/-- A trigger of an idle valve that no peak awaits and that has not just decayed is a profile start (R184, R185). -/
theorem State.vlTrigger_of_idle (hidle : (s.valveAt n).phase = .idle) (hdecay : (s.valveAt n).decayEnd = none)
    (hwait : (s.sideAt (vlSide n)).peakNext = none) (hheld : s.vlHeld n = false) (hdump : (s.dieAt 1).ldump = false)
    (hlatch : (s.sideAt (vlSide n)).latch = false) : s.vlTrigger n = (s.vlTriggered n).vlStart n := by
  rw [← State.vlTriggered_vlHeld] at hheld
  rw [← State.vlTriggered_dieAt (n := n)] at hdump
  rw [← State.vlTriggered_sideAt (n := n)] at hlatch hwait
  rw [← State.vlTriggered_phase (n := n)] at hidle
  have hdecayed : ((s.vlTriggered n).valveAt n).decayEnd = none := (congrArg Valve.decayEnd State.vlTriggered_valveAt).trans hdecay
  unfold State.vlTrigger
  dsimp only
  rw [show s.setValve n { s.valveAt n with lastTrig := s.tb } = s.vlTriggered n from rfl, if_neg (by simp [hheld, hdump, hlatch]), hidle]
  dsimp only
  rw [hwait, if_neg nofun, hdecayed]

/-- The start of an idle valve whose side is off and free (R182, R184). -/
theorem State.vlTrigger_peaks (h : s.SideFree (vlSide n)) (hidle : (s.valveAt n).phase = .idle) (hdecay : (s.valveAt n).decayEnd = none)
    (hwait : (s.sideAt (vlSide n)).peakNext = none) (hnone : ∀ m ∈ sideValves (vlSide n), (s.valveAt m).phase ≠ .peak)
    (hoff : (s.sideAt (vlSide n)).src = .off) (hnext : (s.sideAt (vlSide n)).next = none) (htsd : (s.valveAt n).tsd = false) :
    ((s.vlTrigger n).valveAt n).phase = .peak ∧ ((s.vlTrigger n).valveAt n).phaseStart = s.tb ∧
      (s.vlTrigger n).fld (vlPg n) R.VL.STAT.PHASE = 1 ∧
      ((s.vlTrigger n).sideAt (vlSide n)).src = if s.boostFeeds then .boost else .battery := by
  have hfeeds : (s.vlTriggered n).boostFeeds = s.boostFeeds := by
    refine (State.KeepsVl.setValve s n ?_).boostFeeds
    rfl
  rw [State.vlTrigger_of_idle hidle hdecay hwait (h.vlHeld rfl htsd) h.ldump h.latch, ← hfeeds]
  refine State.vlStart_peaks (h.of_sides (State.setValve_sides ..) (State.setValve_dies ..)) ?_ (fun m hm => ?_) ?_ ?_
  · rwa [State.vlTriggered_sideAt]
  · rw [State.vlTriggered_phase]; exact hnone m hm
  · rwa [State.vlTriggered_sideAt]
  · rwa [State.vlTriggered_sideAt]

/-- The start of an idle valve whose side has a peak (R184, R187). -/
theorem State.vlTrigger_waits {m : Nat} (hm : m ∈ sideValves (vlSide n)) (hne : m ≠ n) (hpeak : (s.valveAt m).phase = .peak)
    (hidle : (s.valveAt n).phase = .idle) (hdecay : (s.valveAt n).decayEnd = none) (hwait : (s.sideAt (vlSide n)).peakNext = none)
    (hheld : s.vlHeld n = false) (hdump : (s.dieAt 1).ldump = false) (hlatch : (s.sideAt (vlSide n)).latch = false) :
    ((s.vlTrigger n).valveAt n).phase = .pkwait ∧ ((s.vlTrigger n).valveAt n).waitStart = s.tb ∧
      (s.vlTrigger n).fstat (vlPg n) 7 = true := by
  rw [State.vlTrigger_of_idle hidle hdecay hwait hheld hdump hlatch]
  obtain ⟨hphase, hstart, hstat⟩ := State.vlStart_waits (s := s.vlTriggered n) (by rwa [State.vlTriggered_sideAt]) hm hne
    (by rwa [State.vlTriggered_phase])
  exact ⟨hphase, hstart.trans (congrArg some (State.setValve_tb ..)), hstat⟩

end

section
variable {s : State} {n : Fin 8} (hclk : s.clocked .pwr = true)
include hclk

theorem trig_refused (h : s.locked (vlPg n) = true ∨ s.bit (vlPg n) R.VL.CFG.PULSE = false) : Refused (.trig n) s (vlPg n) :=
  (if_neg (by simp [hclk])).trans (if_pos (by simpa using h))

/-- TRIG where level 4 governs an enabled valve that the hold does not hold (R184). -/
theorem exec_trig_of_pulse (hlock : s.locked (vlPg n) = false) (hpulse : s.bit (vlPg n) R.VL.CFG.PULSE = true) :
    exec (.trig n) s = .next (if s.enabled (vlPg n) = true ∧ s.fld (vlPg n) R.PG_STAT.GOV = 0 ∧ s.heldBit (64 + n.val) = false
      then (s.ok (vlPg n)).vlTrigger n else s.ok (vlPg n)) := by
  have hok : s.KeepsRegs (s.ok (vlPg n)) [0x44] := s.keepsRegs_ok _ (by simp)
  have hen : (s.ok (vlPg n)).enabled (vlPg n) = s.enabled (vlPg n) := hok.enabled (by decide) _
  have hgov : (s.ok (vlPg n)).fld (vlPg n) R.PG_STAT.GOV = s.fld (vlPg n) R.PG_STAT.GOV := State.fld_setFld_apart _ _ _ (by simp)
  have hheld : (s.ok (vlPg n)).heldBit (64 + n) = s.heldBit (64 + n) := by
    rw [State.heldBit, State.heldBit, hok.reg _ _ (by simp; omega) (by simp; omega)]
  refine (if_neg (by simp [hclk])).trans ((if_neg (by simp [hlock, hpulse])).trans ?_)
  dsimp only
  rw [hen, hgov, hheld, apply_ite Host.Outcome.next]
  simp [govLive]

end

/-! ## The moves of a profile -/

/-- A valve that its side's switch no longer waits for (R187). -/
def State.vlUnclaimed (s : State) (n : Nat) : State :=
  if (s.sideAt (vlSide n)).peakNext = some n then s.setSide (vlSide n) { s.sideAt (vlSide n) with peakNext := none } else s

theorem State.vlUnclaimed_keeps (s : State) (n : Nat) : (s.vlUnclaimed n).valveAt n = s.valveAt n ∧ (s.vlUnclaimed n).tb = s.tb := by
  unfold State.vlUnclaimed
  split
  · exact ⟨State.valveAt_of_valves (State.setSide_valves ..) n, State.setSide_tb ..⟩
  · exact ⟨rfl, rfl⟩

/-- A valve's record in a new phase (R182, R183). -/
def State.vlMoved (s : State) (n : Nat) (p : VPhase) : Valve :=
  { s.valveAt n with phase := p, phaseStart := s.tb, chopOn := (s.valveAt n).chopOn && (s.valveAt n).phase == .pkhold && p == .hold }

/-- A move takes a valve to its new phase, and then the side's peak may have ended (R182, R187). -/
theorem State.vlMove_shows (s : State) (n : Nat) (p : VPhase) : ∃ u : State, s.vlMove n p = u.sidePeakEnded (vlSide n) ∧
    (u.valveAt n).phase = p ∧ (u.valveAt n).phaseStart = s.tb ∧ u.fld (vlPg n) R.VL.STAT.PHASE = vpCode p ∧
    (u.valveAt n).latch = (s.valveAt n).latch ∧ (u.valveAt n).cmd = (s.valveAt n).cmd := by
  obtain ⟨hat, htb⟩ := s.vlUnclaimed_keeps n
  refine ⟨(s.vlUnclaimed n).setValve n ((s.vlUnclaimed n).vlMoved n p), rfl, ?_⟩
  rw [State.valveAt_setValve_same, State.fld_phase_setValve, State.vlMoved, hat]
  exact ⟨rfl, htb, rfl, rfl, rfl⟩

section
variable {s : State} {n : Fin 8} {i : Nat}

/-- IPK ends a peak: as a short within 2 us, late after TPKMAX, else in PKHOLD (R182, R189). -/
theorem exec_peakEnd_of_reached (hruns : s.vlRuns n .peak = true) (hi : s.fld (vlPg n) R.VL.PEAK.IPK * 10 ≤ i) :
    exec (.peakEnd n i) s = .next (if s.tb ≤ (s.valveAt n).phaseStart + 200 then s.vlFault n 2
      else if (s.valveAt n).phaseStart + s.fld (vlPg n) R.VL.PEAK.TPKMAX * 100 < s.tb then s.vlFault n 4 else s.vlMove n .pkhold) := by
  refine (if_pos ⟨hruns, hi⟩).trans ?_
  rw [apply_ite Host.Outcome.next, apply_ite Host.Outcome.next]

theorem exec_pkholdEnd_of_due (hruns : s.vlRuns n .pkhold = true)
    (hdue : (s.valveAt n).phaseStart + s.fld (vlPg n) R.VL.PHOLD.TPH * 100 ≤ s.tb) : exec (.pkholdEnd n) s =
      .next ((s.vlMove n .hold).setValve n { (s.vlMove n .hold).valveAt n with
        holdEnd := (s.vlMove n .hold).tb + (s.vlMove n .hold).fld (vlPg n) R.VL.HOLD.THOLD * 10000 }) :=
  (if_pos hruns).trans (State.atTick_of_le hdue _)

theorem exec_endOfHold_of_due (hruns : s.vlRuns n .hold = true) (hpulse : s.bit (vlPg n) R.VL.CFG.PULSE = true)
    (hdue : (s.valveAt n).holdEnd ≤ s.tb) : exec (.endOfHold n) s = .next (s.vlMove n .decay) :=
  (if_pos ⟨hruns, hpulse⟩).trans (State.atTick_of_le hdue _)

/-- Below 50 mA a decay ends in IDLE, or in MOWAIT with a start pending, with event 147 (R182, R185, R195). -/
theorem decayEnd_ends (hphase : (s.valveAt n).phase = .decay) (hclk : s.clocked .pwr = true) (hi : i < 50) :
    GivesThen (.decayEnd n i) s (fun u => u.sideLimp (vlSide n)) fun u => (∃ p ∈ u.postings, p.ev = 147) ∧
      ∃ w : State, (w.valveAt n).decayEnd = some s.tb ∧
        u = (w.vlMove n (if (s.valveAt n).pend then .mowait else .idle)).post 147 := by
  refine ⟨_, if_pos ⟨hphase, hclk, hi⟩, ?_, _, congrArg Valve.decayEnd (State.valveAt_setValve_same ..), rfl⟩
  rw [State.post_postings]
  exact ⟨_, List.mem_append_right _ (List.mem_singleton_self _), rfl⟩

/-- After the minimum off-time a pulse-mode valve starts, and one whose command is still on (R185). -/
theorem mowaitEnd_starts (hruns : s.vlRuns n .mowait = true)
    (hdue : (s.valveAt n).decayEnd.getD 0 + s.fld (vlPg n) R.VL.MINOFF.TMINOFF * 1000 ≤ s.tb)
    (hon : s.bit (vlPg n) R.VL.CFG.PULSE = true ∨ (s.valveAt n).cmd = true) :
    GivesThen (.mowaitEnd n) s (fun u => u.vlStart n) fun u => (u.valveAt n).phase = .idle ∧ (u.valveAt n).pend = false := by
  have hat := s.valveAt_setValve_same n { s.valveAt n with pend := false, phase := .idle }
  refine ⟨_, (if_pos hruns).trans ((State.atTick_of_le hdue _).trans (congrArg _ (if_pos ?_))),
    congrArg Valve.phase hat, congrArg Valve.pend hat⟩
  rwa [(State.KeepsRegs.setValve (offs := [0x124]) s n _ (by simp)).bit _ (by decide) (by decide)]

end

/-! ## The statement -/

/-- Settles O36: TRIG by who governs the valve, a start by its side, a profile by the end of each phase. -/
theorem valveProfiles : Obligations.ValveProfiles := by
  unfold Obligations.ValveProfiles
  refine ⟨fun s n hclk => ⟨trig_refused hclk, exec_trig_of_pulse hclk, ?_, ?_, State.vlTrigger_of_held⟩, fun s n p => s.vlMove_shows n p,
    fun s n i => ⟨fun hruns => ?_, fun h => if_neg ?_, fun hruns => ?_, fun hruns => ?_, decayEnd_ends, fun hruns => ?_⟩⟩
  · intro hidle hdecay hwait hnone hoff hnext hlatch hlimp hside htsd hdie
    exact State.vlTrigger_peaks ⟨hlatch, hlimp, hside, hdie⟩ hidle hdecay hwait hnone hoff hnext htsd
  · exact fun m hm hne hpeak => State.vlTrigger_waits hm hne hpeak
  · exact exec_peakEnd_of_reached (State.vlRuns_iff.2 hruns)
  · rintro ⟨hruns, hi⟩
    exact h.elim (fun hnot => hnot (State.vlRuns_iff.1 hruns)) fun hlow => Nat.not_le.2 hlow hi
  · exact exec_pkholdEnd_of_due (State.vlRuns_iff.2 hruns)
  · exact exec_endOfHold_of_due (State.vlRuns_iff.2 hruns)
  · exact mowaitEnd_starts (State.vlRuns_iff.2 hruns)

end Sys2Proof.Machine
end

section
/-! What the hardware finds in memory leaves what it reads there: a read of its own accord reports errors, and corrects no word (R337, R346). -/

namespace Sys2Proof.Machine

theorem State.symsOf_setSyms_same (s : State) (w n : Nat) : (s.setSyms w n).symsOf w = n := tget_tset_same ..

theorem State.symsOf_setSyms_ne (s : State) {w v : Nat} (n : Nat) (h : v ≠ w) : (s.setSyms w n).symsOf v = s.symsOf v := tget_tset_ne _ _ _ h

/-- A page other than those of the memory controller and of flash. -/
abbrev offMem (pg : Nat) : Prop := pg ≠ mcPg ∧ pg ≠ flPg

/-- The memory reads in `t` as in `s`, and no page but those of memory and flash differs. -/
structure State.ReadsAs (s t : State) : Prop where
  regs : s.KeepsOn offMem t
  mem : t.mem = s.mem
  poisoned : ∀ p, t.poisoned p = s.poisoned p
  light : t.light = s.light
  tb : t.tb = s.tb

namespace State.ReadsAs

variable {s t u : State}

theorem refl (s : State) : s.ReadsAs s := ⟨.of_regs rfl, rfl, fun _ => rfl, rfl, rfl⟩

theorem trans (h : s.ReadsAs t) (h' : t.ReadsAs u) : s.ReadsAs u :=
  ⟨h.regs.trans h'.regs, h'.mem.trans h.mem, fun p => (h'.poisoned p).trans (h.poisoned p), h'.light.trans h.light, h'.tb.trans h.tb⟩

theorem ite {c : Prop} [Decidable c] (h : s.ReadsAs t) (h' : s.ReadsAs u) : s.ReadsAs (if c then t else u) := by
  split
  · exact h
  · exact h'

theorem foldl {α : Type} {f : State → α → State} (hf : ∀ (t : State) a, t.ReadsAs (f t a)) :
    ∀ (l : List α) (s : State), s.ReadsAs (l.foldl f s)
  | [], s => refl s
  | a :: l, s => (hf s a).trans (foldl hf l (f s a))

/-- What leaves the words in error and the list of poisoned words leaves what is poisoned. -/
theorem of_words (hregs : s.KeepsOn offMem t) (hmem : t.mem = s.mem) (hsyms : t.symErr = s.symErr) (hpoison : t.poison = s.poison)
    (hlight : t.light = s.light) (htb : t.tb = s.tb) : s.ReadsAs t :=
  ⟨hregs, hmem, fun p => by rw [State.poisoned, State.poisoned, State.symsOf, State.symsOf, hsyms, hpoison], hlight, htb⟩

theorem setFld (s : State) {pg : Nat} (f : Fld) (v : Nat) (hpg : ¬ offMem pg) (hoff : f.off < 0x1000) : s.ReadsAs (s.setFld pg f v) :=
  of_words (.setFld s v hpg hoff) (State.setFld_mem ..) (State.setFld_symErr ..) (State.setFld_poison ..) (State.setFld_light ..)
    (State.setFld_tb ..)

theorem setBit (s : State) {pg : Nat} (f : Fld) (b : Bool) (hpg : ¬ offMem pg) (hoff : f.off < 0x1000) : s.ReadsAs (s.setBit pg f b) :=
  setFld s f _ hpg hoff

theorem count (s : State) {i : Nat} (hi : i < 64) : s.ReadsAs (s.count mcPg i) :=
  of_words (.count s hi (by simp)) (State.count_mem ..) (State.count_symErr ..) (State.count_poison ..) (State.count_light ..)
    (State.count_tb ..)

theorem memDetect (s : State) (bit src p : Nat) : s.ReadsAs (s.memDetect bit src p) :=
  of_words ((State.KeepsOn.setReg s _ (by simp) (by decide)).trans (.of_regs (State.detectAs_regs ..))) (State.detectAs_mem ..)
    (State.detectAs_symErr ..) (State.detectAs_poison ..) (State.detectAs_light ..) (State.detectAs_tb ..)

theorem memNote (s : State) (p kind nsym : Nat) : s.ReadsAs (s.memNote p kind nsym) :=
  (((((setFld s _ _ (by simp) (by decide)).trans (setFld _ _ _ (by simp) (by decide))).trans (setFld _ _ _ (by simp) (by decide))).trans
    (setFld _ _ _ (by simp) (by decide))).trans (setFld _ _ _ (by simp) (by decide))).trans (setFld _ _ _ (by simp) (by decide))

theorem rowCount (s : State) (m row : Nat) : s.ReadsAs (s.rowCount m row) := of_words (.of_regs (by rfl)) rfl rfl rfl rfl rfl

theorem queueRepair (s : State) (r : Repair) : s.ReadsAs (s.queueRepair r) :=
  .trans (t := { s with memc := { s.memc with repairs := s.memc.repairs ++ [r] } }) (of_words (.of_regs (by rfl)) rfl rfl rfl rfl rfl)
    (ite ((setBit _ _ _ (by simp) (by decide)).trans (setBit _ _ _ (by simp) (by decide))) (refl _))

/-- A word stays poisoned, or stays sound, where its symbols in error stay on their side of 4 (R345). -/
theorem setSyms (s : State) (w : Nat) {n : Nat} (h : decide (4 ≤ n) = decide (4 ≤ s.symsOf w)) : s.ReadsAs (s.setSyms w n) := by
  refine ⟨.of_regs (by rfl), rfl, fun p => ?_, rfl, rfl⟩
  by_cases hw : p / 32 = w
  · rw [State.poisoned, State.poisoned, hw, State.symsOf_setSyms_same, h]
    rfl
  · rw [State.poisoned, State.poisoned, State.symsOf_setSyms_ne s n hw]
    rfl

/-- A poisoned word joins the list once. -/
theorem listed_setPoison (s : State) (w : Nat) :
    ∃ l, s.setPoison w true = { s with poison := l } ∧ ∀ v, l.contains v = (decide (v = w) || s.poison.contains v) := by
  unfold State.setPoison
  rw [if_pos rfl]
  split
  next hin =>
    refine ⟨s.poison, rfl, fun v => ?_⟩
    by_cases hv : v = w
    · rw [hv, hin, Bool.or_true]
    · rw [decide_eq_false hv, Bool.false_or]
  next => exact ⟨w :: s.poison, rfl, fun v => by simp⟩

/-- A word with 4 symbols in error or more is listed as poisoned, and was poisoned before (R345). -/
theorem setPoison (s : State) {w : Nat} (h : 4 ≤ s.symsOf w) : s.ReadsAs ((s.setPoison w true).setSyms w 0) := by
  obtain ⟨l, hl, hlisted⟩ := listed_setPoison s w
  rw [hl]
  refine ⟨.of_regs (by rfl), rfl, fun p => ?_, rfl, rfl⟩
  change (l.contains (p / 32) || decide (4 ≤ (s.setSyms w 0).symsOf (p / 32))) = _
  rw [hlisted, State.poisoned]
  by_cases hw : p / 32 = w
  · simp [hw, h]
  · rw [State.symsOf_setSyms_ne s 0 hw, decide_eq_false hw, Bool.false_or]

/-- An uncorrectable word is reported, and listed where there is room (R345). -/
theorem memUe (s : State) {p : Nat} (h : 4 ≤ s.symsOf (p / 32)) : s.ReadsAs (s.memUe p none) := by
  have hnoted := (memNote s p 2 0).trans (count _ (i := 1) (by decide))
  have hsyms : ((s.memNote p 2 0).count mcPg 1).symsOf (p / 32) = s.symsOf (p / 32) := by
    rw [State.symsOf, State.count_symErr]
    simp only [State.memNote, State.setFld_symErr]
    rfl
  have hreports (u : State) : u.ReadsAs (if placeMacro p = 45 then u.memDetect 8 36 p else if placeMacro p = 59 then u.memDetect 7 42 p
      else u.memDetect 2 (if placeMacro p < 24 ∨ placeMacro p = 44 then 33 else if placeMacro p < 44 then 34 else 35) p) :=
    ite (memDetect ..) (ite (memDetect ..) (memDetect ..))
  unfold State.memUe
  dsimp only
  refine trans (trans ?_ (ite (queueRepair _ _) (refl _))) (hreports _)
  exact ite (hnoted.trans (setPoison _ (hsyms ▸ h))) hnoted

/-- The hardware meets a word as it stands (R335): the read corrects what it returns, not what is stored. -/
theorem memRead (s : State) (p : Nat) : s.ReadsAs (s.memRead p 0 none).1 := by
  have hplain : ¬ (miscorrects p 0 = true ∧ s.symsOf (p / 32) < 4) := by simp [miscorrects]
  unfold State.memRead
  dsimp only
  rw [if_neg hplain]
  split
  · exact refl s
  split
  · exact memNote ..
  split
  · exact refl s
  split
  · exact ((((setSyms s _ (by simp)).trans (memNote ..)).trans (count _ (by decide))).trans (memDetect ..)).trans (rowCount ..)
  next hmany =>
    exact (setSyms s _ (by simp)).trans (memUe _ (by rw [State.symsOf_setSyms_same]; omega))

theorem hwRead (s : State) (a n : Nat) : s.ReadsAs (s.hwRead a n) := by
  unfold State.hwRead State.hwFind
  refine ite (refl s) (foldl (fun t e => ?_) _ _)
  exact memRead ..

/-- The value that the hardware reads (R346). -/
theorem hwLe (h : s.ReadsAs t) (p n : Nat) : t.hwLe p n = s.hwLe p n := by
  simp only [State.hwLe, State.leAt, State.bytesAt, State.byteAt, h.poisoned, h.mem]

end State.ReadsAs

end Sys2Proof.Machine
end

section
/-! The swap of the canvases (R199, R200): how far it has come, and what each consumer's change adds. -/

namespace Sys2Proof.Machine

/-! ## The swap shown -/

/-- A swap that both consumers have taken is over (R199). -/
def Light.swapOver (l : Light) : Light := if l.mxDone && l.pxDone then { l with swap := none, trig := none } else l

theorem Light.swapOver_done (l : Light) : l.swapOver.mxDone = l.mxDone ∧ l.swapOver.pxDone = l.pxDone := by
  unfold Light.swapOver
  split <;> exact ⟨rfl, rfl⟩

theorem Light.swapOver_armed (l : Light) (swap : l.swap.isSome = true) (trig : l.trig.isSome = true) :
    l.swapOver.swap.isSome = !(l.mxDone && l.pxDone) ∧ l.swapOver.trig.isSome = !(l.mxDone && l.pxDone) := by
  unfold Light.swapOver
  split
  next h => rw [h]; exact ⟨rfl, rfl⟩
  next h => rw [Bool.eq_false_iff.2 h]; exact ⟨swap, trig⟩

/-- PEND shows whether a swap is still armed (R199). -/
theorem State.swapShow_eq (s : State) :
    s.swapShow = ({ s with light := s.light.swapOver } : State).setBit cvPg R.CV.STAT.PEND s.light.swapOver.swap.isSome := by
  unfold State.swapShow Light.swapOver
  dsimp only
  split <;> rfl

theorem State.swapShow_light (s : State) : s.swapShow.light = s.light.swapOver := by rw [State.swapShow_eq, State.setBit_light]

theorem State.swapShow_pend (s : State) : s.swapShow.bit cvPg R.CV.STAT.PEND = s.light.swapOver.swap.isSome := by
  rw [State.swapShow_eq]
  exact State.bit_setBit_same _ _ _ _ rfl (by decide)

theorem State.swapShow_bit (s : State) {f : Fld} (h : R.CV.STAT.PEND.Apart f) : s.swapShow.bit cvPg f = s.bit cvPg f := by
  rw [State.swapShow_eq]
  exact State.bit_setFld_apart _ _ _ h

theorem State.swapShow_keepsOff (s : State) : s.KeepsOff s.swapShow cvPg [0x10c] := by
  rw [State.swapShow_eq]
  exact .trans (t := { s with light := s.light.swapOver }) (.of_regs (by rfl) _ _) (.setFld _ cvPg R.CV.STAT.PEND _ (by simp) (by decide))

theorem State.swapShow_tb (s : State) : s.swapShow.tb = s.tb := by rw [State.swapShow_eq, State.setBit_tb]

theorem State.swapShow_postings (s : State) : s.swapShow.postings = s.postings := by rw [State.swapShow_eq, State.setBit_postings]

/-! ## How far a swap has come -/

/-- At `t` the swap triggered in `s` has changed the matrix's front (`m`) and the pixel chain's (`p`); it is over once both have
changed (R199). -/
structure State.SwapsTo (s t : State) (m p : Bool) : Prop where
  front : t.bit cvPg R.CV.STAT.FRONT = (s.bit cvPg R.CV.STAT.FRONT ^^ m)
  pxFront : t.bit cvPg R.CV.STAT.PXFRONT = (s.bit cvPg R.CV.STAT.PXFRONT ^^ p)
  pend : t.bit cvPg R.CV.STAT.PEND = !(m && p)
  mxDone : t.light.mxDone = m
  pxDone : t.light.pxDone = p
  swap : t.light.swap.isSome = !(m && p)
  trig : t.light.trig.isSome = !(m && p)
  regs : s.KeepsOff t cvPg [0x10c, 0x114, 0x118]
  tb : t.tb = s.tb
  applied : m = true → t.fld cvPg R.CV.APPLIED_LO.T = s.tb % 2 ^ 32
  postings : t.postings = s.postings ++ if m then [s.posting 152] else []

/-- What the matrix's change of front writes before it shows (R199). -/
def State.mxFront (s : State) : State :=
  (({ s with light := { s.light with mxDone := true } } : State).setBit cvPg R.CV.STAT.FRONT (!s.bit cvPg R.CV.STAT.FRONT)).setFld64 cvPg
    R.CV.APPLIED_LO.T R.CV.APPLIED_HI.T s.tb

/-- A pulse on LSYNC leaves the device, and its end is noted (R201). -/
theorem State.lsyncPulse_frame (s : State) : ∃ e o, s.lsyncPulse = { s with light := { s.light with lsyncEnd := e }, outbox := o } := by
  unfold State.lsyncPulse
  split <;> exact ⟨_, _, rfl⟩

/-- A change of the matrix's front posts event 152, with a pulse on LSYNC or without (R199, R201). -/
theorem State.mxSwap_eq (s : State) : ∃ e o, s.mxSwap =
    (({ s.mxFront with light := { s.mxFront.light with lsyncEnd := e }, outbox := o } : State).post 152).swapShow := by
  have hpulse : ∃ e o, (if s.mxFront.fld cvPg R.CV.LSYNC.MODE = 2 then s.mxFront.lsyncPulse else s.mxFront) =
      { s.mxFront with light := { s.mxFront.light with lsyncEnd := e }, outbox := o } := by
    split
    · exact s.mxFront.lsyncPulse_frame
    · exact ⟨_, _, rfl⟩
  obtain ⟨e, o, h⟩ := hpulse
  exact ⟨e, o, congrArg (fun t => (State.post t 152).swapShow) h⟩

theorem State.mxFront_keepsOff (s : State) : s.KeepsOff s.mxFront cvPg [0x10c, 0x114, 0x118] :=
  (((State.KeepsOff.of_regs (t := { s with light := { s.light with mxDone := true } }) (by rfl) _ _).trans
    (.setFld _ cvPg R.CV.STAT.FRONT _ (by simp) (by decide))).trans (.setFld _ cvPg R.CV.APPLIED_LO.T _ (by simp) (by decide))).trans
    (.setFld _ cvPg R.CV.APPLIED_HI.T _ (by simp) (by decide))

theorem State.mxFront_front (s : State) : s.mxFront.bit cvPg R.CV.STAT.FRONT = !s.bit cvPg R.CV.STAT.FRONT := by
  unfold State.mxFront State.setFld64
  rw [State.bit_setFld_apart _ _ _ (by simp), State.bit_setFld_apart _ _ _ (by simp)]
  exact State.bit_setBit_same _ _ _ _ rfl (by decide)

theorem State.mxFront_pxFront (s : State) : s.mxFront.bit cvPg R.CV.STAT.PXFRONT = s.bit cvPg R.CV.STAT.PXFRONT := by
  unfold State.mxFront State.setFld64 State.setBit
  rw [State.bit_setFld_apart _ _ _ (by simp), State.bit_setFld_apart _ _ _ (by simp), State.bit_setFld_apart _ _ _ (by simp)]
  rfl

theorem State.mxFront_applied (s : State) : s.mxFront.fld cvPg R.CV.APPLIED_LO.T = s.tb % 2 ^ 32 := by
  unfold State.mxFront State.setFld64
  rw [State.fld_setFld_apart _ _ _ (by simp), State.fld_setFld_same _ _ _ _ (by decide) (by decide)]
  simp

/-- A trigger in the tick of the matrix's frame start: the matrix changes front, and shows the new front's words (R200). -/
def State.mxAtFrame (s : State) : State :=
  if s.light.trig.isSome && !s.light.mxDone && s.light.slotTaken = some s.tb && s.light.row = 0 then
    { s.mxSwap with light := { s.mxSwap.light with words := s.mxSwap.rowWords 0 } }
  else s

/-- A trigger in the tick of a pixel-chain frame start: the chain changes front, and shifts the new front's bits (R200). -/
def State.pxAtFrame (s : State) : State :=
  if s.light.trig.isSome && !s.light.pxDone && s.light.pxTaken = some s.tb then
    if s.pxSwap.bit pxPg R.PXC.STAT.SHIFT && !s.pxSwap.light.pxBlank then
      { s.pxSwap with light := { s.pxSwap.light with pxCur := s.pxSwap.pxFrame } }
    else s.pxSwap
  else s

theorem State.swapAtFrame_eq (s : State) : s.swapAtFrame = s.mxAtFrame.pxAtFrame := rfl

namespace State.SwapsTo

variable {s t : State} {m p : Bool}

/-- What the consumers' frames hold is no matter of the swap. -/
theorem setLight (h : s.SwapsTo t m p) {l : Light} (hmx : l.mxDone = t.light.mxDone) (hpx : l.pxDone = t.light.pxDone)
    (hswap : l.swap = t.light.swap) (htrig : l.trig = t.light.trig) : s.SwapsTo { t with light := l } m p :=
  { h with
    mxDone := hmx.trans h.mxDone
    pxDone := hpx.trans h.pxDone
    swap := (congrArg Option.isSome hswap).trans h.swap
    trig := (congrArg Option.isSome htrig).trans h.trig
    regs := h.regs.trans (.of_regs (by rfl) _ _) }

/-- The swap shown, with the consumers that have changed (R199). -/
theorem shown {u : State} (front : u.bit cvPg R.CV.STAT.FRONT = (s.bit cvPg R.CV.STAT.FRONT ^^ m))
    (pxFront : u.bit cvPg R.CV.STAT.PXFRONT = (s.bit cvPg R.CV.STAT.PXFRONT ^^ p)) (mxDone : u.light.mxDone = m)
    (pxDone : u.light.pxDone = p) (swap : u.light.swap.isSome = true) (trig : u.light.trig.isSome = true)
    (regs : s.KeepsOff u cvPg [0x10c, 0x114, 0x118]) (tb : u.tb = s.tb)
    (applied : m = true → u.fld cvPg R.CV.APPLIED_LO.T = s.tb % 2 ^ 32)
    (postings : u.postings = s.postings ++ if m then [s.posting 152] else []) : s.SwapsTo u.swapShow m p := by
  obtain ⟨hmx, hpx⟩ := u.light.swapOver_done
  obtain ⟨hswap, htrig⟩ := u.light.swapOver_armed swap trig
  rw [mxDone, pxDone] at hswap htrig
  rw [mxDone] at hmx
  rw [pxDone] at hpx
  refine ⟨(u.swapShow_bit (by simp)).trans front, (u.swapShow_bit (by simp)).trans pxFront, u.swapShow_pend.trans hswap, ?_, ?_, ?_, ?_,
    ⟨fun pg off hoff hn => ?_⟩, u.swapShow_tb.trans tb, fun hm => ?_, u.swapShow_postings.trans postings⟩
  · rw [State.swapShow_light, hmx]
  · rw [State.swapShow_light, hpx]
  · rw [State.swapShow_light, hswap]
  · rw [State.swapShow_light, htrig]
  · exact (u.swapShow_keepsOff.reg pg off hoff fun e hm => hn e (by simp_all)).trans (regs.reg pg off hoff hn)
  · exact (u.swapShow_keepsOff.fld (by simp) fun _ => by simp).trans (applied hm)

/-- The matrix changes front (R199). -/
theorem mxSwap (h : s.SwapsTo t false p) : s.SwapsTo t.mxSwap true p := by
  obtain ⟨e, o, hswap⟩ := t.mxSwap_eq
  rw [hswap]
  refine shown ?_ (t.mxFront_pxFront.trans h.pxFront) rfl h.pxDone h.swap h.trig (h.regs.trans (t.mxFront_keepsOff.trans (.of_regs (by rfl) _ _)))
    h.tb (fun _ => ?_) ?_
  · exact t.mxFront_front.trans (by rw [h.front]; simp)
  · exact t.mxFront_applied.trans (by rw [h.tb])
  · have hposting : t.mxFront.posting 152 = s.posting 152 := (h.regs.trans t.mxFront_keepsOff).posting (by decide) 152
    exact (congrArg₂ (fun l q => l ++ [q]) h.postings hposting).trans (by simp)

/-- The pixel chain changes front (R199). -/
theorem pxSwap (h : s.SwapsTo t m false) : s.SwapsTo t.pxSwap m true := by
  have hfront : R.CV.STAT.PXFRONT.Apart R.CV.STAT.FRONT := by simp
  refine shown ((State.bit_setFld_apart _ _ _ hfront).trans h.front) ((State.bit_setBit_same _ _ _ _ rfl (by decide)).trans ?_) h.mxDone rfl
    (h.swap.trans (by simp)) (h.trig.trans (by simp)) ?_ h.tb (fun hm => ?_) h.postings
  · exact (congrArg (!·) h.pxFront).trans (by simp)
  · exact (h.regs.trans (.of_regs (t := { t with light := { t.light with pxDone := true } }) (by rfl) _ _)).trans
      (.setFld _ cvPg R.CV.STAT.PXFRONT _ (by simp) (by decide))
  · exact (State.fld_setFld_apart _ _ _ (by simp)).trans (h.applied hm)

/-- A trigger in the tick of a frame start reaches that frame's consumer (R200). -/
theorem swapAtFrame (h : s.SwapsTo t false false) : ∃ m p, s.SwapsTo t.swapAtFrame m p := by
  have hmx : ∃ m, s.SwapsTo t.mxAtFrame m false := by
    unfold State.mxAtFrame
    split
    · exact ⟨true, h.mxSwap.setLight rfl rfl rfl rfl⟩
    · exact ⟨false, h⟩
  obtain ⟨m, hm⟩ := hmx
  rw [State.swapAtFrame_eq]
  unfold State.pxAtFrame
  split
  · split
    · exact ⟨m, true, hm.pxSwap.setLight rfl rfl rfl rfl⟩
    · exact ⟨m, true, hm.pxSwap⟩
  · exact ⟨m, false, hm⟩

/-- A consumer that shows no frames changes at once, so that where neither shows any the swap is over (R199). -/
theorem swapIdle (h : s.SwapsTo t m p) (hmx : s.bit mxPg R.MX.OUT.RUN = false) (hpx : s.bit pxPg R.PXC.OUT.RUN = false) :
    s.SwapsTo t.swapIdle true true := by
  have hruns {u : State} {m p : Bool} (hu : s.SwapsTo u m p) : u.bit mxPg R.MX.OUT.RUN = false ∧ u.bit pxPg R.PXC.OUT.RUN = false :=
    ⟨(hu.regs.bit (by simp) (by decide)).trans hmx, (hu.regs.bit (by simp) (by decide)).trans hpx⟩
  have hleft {u : State} {p : Bool} (hu : s.SwapsTo u true p) :
      s.SwapsTo (if u.light.trig.isSome && !u.light.pxDone && !u.bit pxPg R.PXC.OUT.RUN then u.pxSwap else u) true true := by
    rw [hu.trig, hu.pxDone, (hruns hu).2]
    cases p
    · exact hu.pxSwap
    · exact hu
  unfold State.swapIdle
  dsimp only
  rw [h.trig, h.mxDone, (hruns h).1]
  cases m
  · exact hleft h.mxSwap
  · cases p
    · exact hleft h
    · exact h

end State.SwapsTo

end Sys2Proof.Machine
end

section
/-! The swap commands (R199, R200). -/

namespace Sys2Proof.Machine

/-- What a write of CV.SWAP arms (R199). -/
def swapSrcOf (src : Fin 4) : SwapSrc := if src = 0 then .now else if src = 1 then .tick else if src = 2 then .rise else .fall

/-- A swap has been armed (R199). -/
def State.swapArmed (s : State) (k : SwapSrc) : State :=
  ({ s.ok cvPg with light := { s.light with swap := some k, trig := none, mxDone := false, pxDone := false } } : State).swapShow

/-- The trigger has come, and has reached no consumer yet (R199). -/
def State.triggered (s : State) : State := { s with light := { s.light with trig := some s.tb } }

section
variable {s : State}

theorem swap_refused (hclk : s.clocked .pwr = true) (src : Fin 4) (h : s.locked cvPg = true ∨ s.light.swap ≠ none) :
    Refused (.swap src) s cvPg :=
  (if_neg (by simp [hclk])).trans (if_pos (h.imp_right fun hne => Option.isSome_iff_ne_none.2 hne))

theorem cancelSwap_refused (hclk : s.clocked .pwr = true) (h : s.locked cvPg = true ∨ s.light.swap = none ∨ s.light.trig ≠ none) :
    Refused .cancelSwap s cvPg :=
  (if_neg (by simp [hclk])).trans (if_pos (h.imp_right (Or.imp Option.isNone_iff_eq_none.2 Option.isSome_iff_ne_none.2)))

theorem State.swapArmed_light (s : State) (k : SwapSrc) :
    (s.swapArmed k).light = { s.light with swap := some k, trig := none, mxDone := false, pxDone := false } := State.swapShow_light ..

theorem State.swapArmed_pend (s : State) (k : SwapSrc) : (s.swapArmed k).bit cvPg R.CV.STAT.PEND = true := State.swapShow_pend ..

theorem State.swapArmed_keepsOff (s : State) (k : SwapSrc) : s.KeepsOff (s.swapArmed k) cvPg [0x044, 0x10c] := by
  refine (State.KeepsOff.setFld s cvPg R.PG_STAT.CODE codeOK (by simp) (by decide)).trans
    (.trans (t := { s.ok cvPg with light := { s.light with swap := some k, trig := none, mxDone := false, pxDone := false } })
      (.of_regs (by rfl) _ _) ⟨fun pg off hoff hn => ?_⟩)
  exact (State.swapShow_keepsOff _).reg pg off hoff fun e hm => hn e (List.mem_cons_of_mem _ hm)

theorem State.swapArmed_front (s : State) (k : SwapSrc) {f : Fld} (h : R.CV.STAT.PEND.Apart f) (hoff : f.off = 0x10c) :
    (s.swapArmed k).bit cvPg f = s.bit cvPg f :=
  (State.swapShow_bit _ h).trans (State.bit_setFld_apart s cvPg codeOK (by simp [hoff]))

theorem State.swapArmed_code (s : State) (k : SwapSrc) : (s.swapArmed k).code cvPg = 0 :=
  ((State.swapShow_keepsOff _).fld (by decide) fun _ => by decide).trans (s.code_ok cvPg)

/-- A write of CV.SWAP arms its swap; without a trigger to wait for, the trigger comes at once (R199). -/
theorem exec_swap_of_free (hclk : s.clocked .pwr = true) (hlock : s.locked cvPg = false) (hfree : s.light.swap = none) (src : Fin 4) :
    exec (.swap src) s =
      if swapSrcOf src = .now then .next (s.swapArmed (swapSrcOf src)).swapTrig
      else if swapSrcOf src = .tick ∧ (s.swapArmed (swapSrcOf src)).fld64 cvPg R.CV.T_LO.T R.CV.T_HI.T < (s.swapArmed (swapSrcOf src)).tb then
        .next ((((s.swapArmed (swapSrcOf src)).setBit cvPg R.CV.STAT.LATE true).raise 155 (.page cvPg)).swapTrig)
      else .next (s.swapArmed (swapSrcOf src)) :=
  (if_neg (by simp [hclk])).trans (if_neg (by simp [hlock, hfree]))

/-- A swap that waits for no trigger has come so far when its trigger comes: neither consumer has changed (R199). -/
theorem State.swapArmed_swapsTo (s : State) (k : SwapSrc) : (s.swapArmed k).SwapsTo (s.swapArmed k).triggered false false :=
  { front := (Bool.xor_false _).symm
    pxFront := (Bool.xor_false _).symm
    pend := s.swapArmed_pend k
    mxDone := congrArg Light.mxDone (s.swapArmed_light k)
    pxDone := congrArg Light.pxDone (s.swapArmed_light k)
    swap := congrArg (fun l => l.swap.isSome) (s.swapArmed_light k)
    trig := rfl
    regs := .of_regs (by rfl) _ _
    tb := rfl
    applied := fun h => absurd h (by simp)
    postings := (List.append_nil _).symm }

/-- A matrix and a pixel chain that stand change front at once (R199). -/
theorem swapNow_swaps (hclk : s.clocked .pwr = true) (hlock : s.locked cvPg = false) (hfree : s.light.swap = none)
    (hmx : s.bit mxPg R.MX.OUT.RUN = false) (hpx : s.bit pxPg R.PXC.OUT.RUN = false) : Gives (.swap 0) s fun t =>
      t.bit cvPg R.CV.STAT.FRONT = !s.bit cvPg R.CV.STAT.FRONT ∧ t.bit cvPg R.CV.STAT.PXFRONT = !s.bit cvPg R.CV.STAT.PXFRONT ∧
      t.fld cvPg R.CV.APPLIED_LO.T = s.tb % 2 ^ 32 ∧ t.light.swap = none ∧ t.bit cvPg R.CV.STAT.PEND = false ∧ t.code cvPg = 0 ∧
      t.postings = s.postings ++ [s.posting 152] := by
  obtain ⟨m, p, hframe⟩ := (s.swapArmed_swapsTo .now).swapAtFrame
  have hkeeps := s.swapArmed_keepsOff .now
  have hover := hframe.swapIdle ((hkeeps.bit (by decide) fun h => absurd h (by decide)).trans hmx)
    ((hkeeps.bit (by decide) fun h => absurd h (by decide)).trans hpx)
  have htb : (s.swapArmed .now).tb = s.tb := State.swapShow_tb _
  have hposted : (s.swapArmed .now).postings = s.postings := State.swapShow_postings _
  refine ⟨_, (exec_swap_of_free hclk hlock hfree 0).trans (if_pos rfl), ?_, ?_, ?_, ?_, hover.pend, ?_, ?_⟩
  · exact hover.front.trans ((Bool.xor_true _).trans (congrArg _ (s.swapArmed_front .now (by simp) rfl)))
  · exact hover.pxFront.trans ((Bool.xor_true _).trans (congrArg _ (s.swapArmed_front .now (by simp) rfl)))
  · exact (hover.applied rfl).trans (by rw [htb])
  · exact Option.isNone_iff_eq_none.1 (Option.isSome_eq_false_iff.1 hover.swap)
  · exact (hover.regs.fld (by decide) fun _ => by decide).trans (s.swapArmed_code .now)
  · exact hover.postings.trans (by rw [hposted, hkeeps.posting (by decide)]; rfl)

/-- A swap with a trigger to wait for waits (R199). -/
theorem swap_waits (hclk : s.clocked .pwr = true) {src : Fin 4} (hlock : s.locked cvPg = false) (hfree : s.light.swap = none)
    (hsrc : src = 2 ∨ src = 3 ∨ (src = 1 ∧ s.tb ≤ s.fld64 cvPg R.CV.T_LO.T R.CV.T_HI.T)) : Gives (.swap src) s fun t =>
      t.light.swap = some (if src = 1 then .tick else if src = 2 then .rise else .fall) ∧ t.light.trig = none ∧
      t.bit cvPg R.CV.STAT.PEND = true ∧ t.bit cvPg R.CV.STAT.FRONT = s.bit cvPg R.CV.STAT.FRONT ∧ t.code cvPg = 0 := by
  have hkind : swapSrcOf src = if src = 1 then .tick else if src = 2 then .rise else .fall := by
    refine if_neg ?_
    rintro rfl
    simp at hsrc
  have hlater : ¬ (swapSrcOf src = .tick ∧
      (s.swapArmed (swapSrcOf src)).fld64 cvPg R.CV.T_LO.T R.CV.T_HI.T < (s.swapArmed (swapSrcOf src)).tb) := by
    have hkeeps := s.swapArmed_keepsOff (swapSrcOf src)
    have htb : (s.swapArmed (swapSrcOf src)).tb = s.tb := State.swapShow_tb _
    rw [State.fld64, hkeeps.fld (by decide) fun _ => by decide, hkeeps.fld (by decide) fun _ => by decide, htb]
    rintro ⟨htick, hlate⟩
    rcases hsrc with rfl | rfl | ⟨rfl, hdue⟩
    · exact absurd htick (by decide)
    · exact absurd htick (by decide)
    · exact Nat.not_lt.2 hdue hlate
  refine ⟨_, (exec_swap_of_free hclk hlock hfree src).trans ((if_neg ?_).trans (if_neg hlater)), ?_, ?_, s.swapArmed_pend _,
    s.swapArmed_front _ (by simp) rfl, s.swapArmed_code _⟩
  · rcases hsrc with rfl | rfl | ⟨rfl, -⟩ <;> decide
  · rw [State.swapArmed_light, hkind]
  · rw [State.swapArmed_light]

/-- CANCEL before the trigger discards the swap (R200). -/
theorem cancelSwap_discards (hclk : s.clocked .pwr = true) (hlock : s.locked cvPg = false) (hswap : s.light.swap ≠ none)
    (htrig : s.light.trig = none) : Gives .cancelSwap s fun t =>
      t.light.swap = none ∧ t.bit cvPg R.CV.STAT.PEND = false ∧ t.code cvPg = 0 := by
  have hexec : exec .cancelSwap s =
      .next ({ s.ok cvPg with light := { s.light with mxDone := true, pxDone := true } } : State).swapShow :=
    (if_neg (by simp [hclk])).trans (if_neg (by simp [hlock, hswap, htrig]))
  refine ⟨_, hexec, ?_, State.swapShow_pend _, ?_⟩
  · rw [State.swapShow_light]
    rfl
  · exact ((State.swapShow_keepsOff _).fld (by decide) fun _ => by decide).trans (s.code_ok cvPg)

/-- The trigger of the armed kind lets the swap go on (R199). -/
theorem swapTrigger_triggers {src : SwapEdge} (hexec : exec (.swapTrigger src) s = .next s.swapTrig) :
    GivesThen (.swapTrigger src) s (fun u => u.swapAtFrame.swapIdle) fun u => u.light.trig = some s.tb ∧ u.regs = s.regs :=
  ⟨s.triggered, hexec, rfl, rfl⟩

theorem exec_swapTrigger_of_armed (hclk : s.clocked .pwr = true) (htrig : s.light.trig = none) :
    (s.light.swap = some .rise → exec (.swapTrigger .rise) s = .next s.swapTrig) ∧
    (s.light.swap = some .fall → exec (.swapTrigger .fall) s = .next s.swapTrig) ∧
    (s.light.swap = some .tick → s.fld64 cvPg R.CV.T_LO.T R.CV.T_HI.T ≤ s.tb → exec (.swapTrigger .tick) s = .next s.swapTrig) := by
  have harmed : ¬ (s.light.trig.isSome = true ∨ (!s.clocked .pwr) = true) := by simp [hclk, htrig]
  refine ⟨fun h => (if_neg harmed).trans ?_, fun h => (if_neg harmed).trans ?_, fun h hdue => (if_neg harmed).trans ?_⟩
  · rw [h]
  · rw [h]
  · rw [h]
    exact State.atTick_of_le hdue _

end

end Sys2Proof.Machine
end

section
/-! The matrix: a slot's start, the reading of the sink sensor, and the latches (R198, R202 to R204, R212). -/

namespace Sys2Proof.Machine

/-! ## A slot starts -/

/-- A slot of a row has started, before the rows read high in its guard are looked at (R198, R202, R204). -/
def State.slotStarted (s : State) (r drop : Nat) : State :=
  let t := (s.slotEnd drop).hwRead (0x60000000 + canvasWord ((s.slotEnd drop).bit cvPg R.CV.STAT.FRONT) (16 * r) % 0x1000000) 32
  let t := { t with light := { t.light with
    row := r, slotStart := t.tb, slotTaken := some t.tb, words := t.rowWords r, phi := t.fld mxPg R.MX.STAT.PHI
    colMask := 0, colOnT := [], colAt := t.tb } }
  t.colCount.setFld mxPg R.MX.STAT.SLOT r

/-- A slot start of a row other than the first shows and takes the row (R202). -/
theorem exec_matrixSlotStart_within {s : State} (hclk : s.clocked .pwr = true) (hrun : s.bit mxPg R.MX.OUT.RUN = true) (hdue : s.nextSlot ≤ s.tb)
    (hrow : s.scanAt.since s.tb / max 1 s.scanAt.slot ≠ 0) (high drop : BitVec 16) : exec (.matrixSlotStart high drop) s =
      .next ((s.slotStarted (s.scanAt.since s.tb / max 1 s.scanAt.slot) drop.toNat).rowHigh high.toNat) := by
  have hruns : ¬ ((!s.clocked .pwr) = true ∨ (!s.bit mxPg R.MX.OUT.RUN) = true ∧ (!s.light.run) = true) := by simp [hclk, hrun]
  refine (if_neg hruns).trans ((State.atTick_of_le hdue _).trans ?_)
  dsimp only
  rw [if_neg hrow]
  rfl

/-- A started slot shows its row, with the row's words of the front canvas and the derating factor (R198, R202, R204). -/
theorem State.slotStarted_shows (s : State) {r : Nat} (hr : r < 16) (drop : Nat) : (s.slotStarted r drop).light.row = r ∧
    (s.slotStarted r drop).light.slotStart = s.tb ∧ (s.slotStarted r drop).fld mxPg R.MX.STAT.SLOT = r ∧
    (∀ k, k < 16 → (s.slotStarted r drop).light.words.getD k 0 = s.hwLe (canvasWord (s.bit cvPg R.CV.STAT.FRONT) (16 * r + k)) 2) ∧
    (∀ k, k < 16 → (s.slotStarted r drop).colCode k = s.icol k * s.fld mxPg R.MX.STAT.PHI / 256) := by
  have hread := State.ReadsAs.hwRead (s.slotEnd drop) (0x60000000 + canvasWord ((s.slotEnd drop).bit cvPg R.CV.STAT.FRONT) (16 * r) % 0x1000000) 32
  refine ⟨rfl, hread.tb, State.fld_setFld_fits _ _ _ _ (by decide) (by decide) hr, fun k hk => ?_, fun k hk => ?_⟩
  · have hwords : (s.slotStarted r drop).light.words.getD k 0 =
        ((List.range 16).map fun j => ((s.slotEnd drop).hwRead _ 32).hwLe
          (canvasWord (((s.slotEnd drop).hwRead _ 32).bit cvPg R.CV.STAT.FRONT) (16 * r + j)) 2).getD k 0 := rfl
    rw [hwords, List.getD_eq_getElem _ _ (by simpa using hk), List.getElem_map, List.getElem_range, hread.hwLe,
      hread.regs.bit (by decide) (by decide)]
    rfl
  · have hicol : (s.slotStarted r drop).icol k = s.icol k :=
      (State.fld_setFld_apart _ _ _ (.inl (by simp; omega))).trans (hread.regs.fld (by decide) (by simp; omega))
    have hphi : (s.slotStarted r drop).light.phi = s.fld mxPg R.MX.STAT.PHI := hread.regs.fld (by decide) (by decide)
    rw [State.colCode, hicol, hphi]

/-! ## Derating -/

/-- A lasting result changes what a detection changes (R357). -/
theorem State.detectHeld_frame (s : State) (was : Bool) (pg bit : Nat) : ∃ rg r p c q, s.detectHeld was pg bit =
    { s with regs := rg, raises := r, postings := p, capPend := c, pulses := q } := by
  unfold State.detectHeld
  split
  · exact ⟨_, _, _, _, _, rfl⟩
  · exact s.detectAs_eq pg bit _ _

theorem State.detectHeld_light (s : State) (was : Bool) (pg bit : Nat) : (s.detectHeld was pg bit).light = s.light := by
  obtain ⟨_, _, _, _, _, h⟩ := s.detectHeld_frame was pg bit
  rw [h]

/-- The factor is 256 at most: above the knee it falls (R204). -/
theorem State.derate_le (s : State) (t : Int) : s.derate t ≤ 256 := by
  unfold State.derate
  dsimp only
  split
  · exact Nat.le_refl _
  next habove =>
    have hfall : 0 ≤ (t - (850 + 10 * (s.fld mxPg R.MX.DERATE.TK : Int))) * (s.fld mxPg R.MX.DERATE.SLOPE : Int) * 256 / 1000 :=
      Int.ediv_nonneg (Int.mul_nonneg (Int.mul_nonneg (by omega) (Int.natCast_nonneg _)) (by decide)) (by decide)
    omega

/-- A signed number of 16 bits shows in a field of 16 bits. -/
theorem State.sfld_setFld_toField (s : State) (pg : Nat) {f : Fld} (hw : f.hi + 1 - f.lo = 16) (hhi : f.hi < 32) {i : Int}
    (hlo : -32768 ≤ i) (hup : i < 32768) : (s.setFld pg f (toField 16 i)).sfld pg f = i := by
  have hfits : toField 16 i < 2 ^ 16 := by unfold toField; omega
  have hread : (s.setFld pg f (toField 16 i)).fld pg f = toField 16 i :=
    State.fld_setFld_fits _ _ _ _ (by omega) hhi (by rwa [hw])
  unfold State.sfld
  dsimp only
  rw [hread, hw]
  unfold toField
  split <;> omega

/-- The reading and the factor stand in their registers (R204). -/
def State.deratingShown (s : State) (t : Int) : State :=
  (({ s with light := { s.light with tempAt := some s.tb } } : State).setFld mxPg R.MX.TEMP.T (toField 16 t)).setFld mxPg R.MX.STAT.PHI (s.derate t)

theorem exec_deratingReading_of_due {s : State} (hclk : s.clocked .pwr = true) (hdue : ∀ a ∈ s.light.tempAt, a + 100000 ≤ s.tb) (t : Int) :
    exec (.deratingReading t) s = .next (if s.derate t = 0 then (s.deratingShown t).detectHeld (s.fld mxPg R.MX.STAT.PHI == 0) mxPg 5
      else s.deratingShown t) := by
  have hms : (match s.light.tempAt with | some a => a + 100000 | none => s.tb) ≤ s.tb := by
    split
    next a ha => exact hdue a ha
    next => exact Nat.le_refl _
  exact (if_neg (by simp [hclk])).trans (State.atTick_of_le hms _)

/-- A reading of the sink sensor gives the factor, with DIEOT at 0 (R204). -/
theorem deratingReading_shows {s : State} {t : Int} (hlo : -32768 ≤ t) (hhi : t < 32768) (hclk : s.clocked .pwr = true)
    (hdue : ∀ a ∈ s.light.tempAt, a + 100000 ≤ s.tb) : Gives (.deratingReading t) s fun u =>
      u.fld mxPg R.MX.STAT.PHI = s.derate t ∧ u.sfld mxPg R.MX.TEMP.T = t ∧ u.light.tempAt = some s.tb ∧
      (s.derate t = 0 → u.fstat mxPg 5 = true) := by
  have hphi : (s.deratingShown t).fld mxPg R.MX.STAT.PHI = s.derate t :=
    State.fld_setFld_fits _ _ _ _ (by decide) (by decide) (Nat.lt_of_le_of_lt (s.derate_le t) (by decide))
  have htemp : (s.deratingShown t).sfld mxPg R.MX.TEMP.T = t := by
    unfold State.deratingShown State.sfld
    rw [State.fld_setFld_apart _ _ _ (by simp)]
    exact State.sfld_setFld_toField _ mxPg (f := R.MX.TEMP.T) rfl (by decide) hlo hhi
  refine ⟨_, exec_deratingReading_of_due hclk hdue t, ?_⟩
  split
  · have hkeeps := State.KeepsRegs.detectHeld (offs := [0x48]) (s.deratingShown t) (s.fld mxPg R.MX.STAT.PHI == 0) mxPg 5 (by simp)
    refine ⟨(hkeeps.fld mxPg (by decide) (by decide)).trans hphi, ?_, ?_, fun _ => State.fstat_detectHeld _ _ mxPg (by decide)⟩
    · rwa [State.sfld, hkeeps.fld mxPg (by decide) (by decide)]
    · rw [State.detectHeld_light]
      rfl
  next hne => exact ⟨hphi, htemp, rfl, fun h => absurd h hne⟩

/-! ## Latches -/

/-- A row at its ceiling latches (R212). -/
theorem shrowg_latches {s : State} (hclk : s.clocked .pwr = true) (r : Fin 16) {i : Nat} (hi : 1500 ≤ i) :
    GivesThen (.shrowg r i) s State.mxSettle fun u => (u.fld mxPg R.MX.LATCH.ROW).testBit r = true ∧ u.fstat mxPg 1 = true := by
  have hfits : s.rowLatch ||| 2 ^ r.val < 2 ^ 16 :=
    Nat.or_lt_two_pow (Fld.get_lt R.MX.LATCH.ROW _ (by decide) (by decide)) (Nat.pow_lt_pow_right (by decide) r.isLt)
  refine ⟨_, if_pos ⟨hclk, hi⟩, ?_, State.fstat_detect_same _ _ (by decide)⟩
  rw [(State.KeepsRegs.detect (offs := [0x48]) _ mxPg 1 (by simp)).fld mxPg (by decide) (by decide),
    State.fld_setFld_fits _ _ _ _ (by decide) (by decide) hfits, Nat.testBit_or, Nat.testBit_two_pow_self, Bool.or_true]

/-- CLR clears every latch of the matrix (R212). -/
def State.mxCleared (s : State) : State :=
  ({ (s.setFld mxPg R.MX.LATCH.COL 0).setFld mxPg R.MX.LATCH.ROW 0 with light := { s.light with mxLatch := false } } : State).ok mxPg

theorem State.mxLatched_mxCleared (s : State) : s.mxCleared.mxLatched = false := by
  have hrow : s.mxCleared.rowLatch = 0 :=
    (State.fld_setFld_apart _ _ _ (by simp)).trans (State.fld_setFld_fits (s.setFld mxPg R.MX.LATCH.COL 0) _ _ 0 (by decide) (by decide) (by decide))
  have hcol : s.mxCleared.colLatch = 0 :=
    (State.fld_setFld_apart _ _ _ (by simp)).trans ((State.fld_setFld_apart (s.setFld mxPg R.MX.LATCH.COL 0) _ 0 (by simp)).trans
      (State.fld_setFld_fits s _ _ 0 (by decide) (by decide) (by decide)))
  have hmx : s.mxCleared.light.mxLatch = false := rfl
  rw [State.mxLatched, hrow, hcol, hmx]
  rfl

theorem mxClr_clears {s : State} (hclk : s.clocked .pwr = true) (hlock : s.locked mxPg = false) (hlatched : s.mxLatched = true) :
    GivesThen .mxClr s State.mxSettle fun u => u.mxLatched = false ∧ u.code mxPg = 0 :=
  ⟨s.mxCleared, (if_neg (by simp [hclk])).trans (if_neg (by simp [hlock, hlatched])), s.mxLatched_mxCleared, State.code_ok _ mxPg⟩

theorem mxClr_refused {s : State} (hclk : s.clocked .pwr = true) (h : s.locked mxPg = true ∨ s.mxLatched = false) : Refused .mxClr s mxPg :=
  (if_neg (by simp [hclk])).trans (if_pos (h.imp_right fun hno => by simp [hno]))

/-! ## The statement -/

/-- Settles O38: the swap by how far it has come, a slot by what its start takes, a reading by the factor it gives, the latches by what
sets and clears them. -/
theorem canvasAndMatrix : Obligations.CanvasAndMatrix := by
  unfold Obligations.CanvasAndMatrix
  refine ⟨fun s src hclk => ⟨swap_refused hclk src, swapNow_swaps hclk, swap_waits hclk, cancelSwap_discards hclk, cancelSwap_refused hclk,
    fun htrig => ?triggers⟩, fun s high drop hclk hrun hdue hrow hlt => ?slot, fun s t hlo hhi hclk hdue => deratingReading_shows hlo hhi hclk hdue,
    fun s r i hclk => ⟨shrowg_latches hclk r, fun hi => if_neg ?below⟩, fun s hclk => ⟨mxClr_clears hclk, mxClr_refused hclk⟩⟩
  case triggers =>
    obtain ⟨hrise, hfall, htick⟩ := exec_swapTrigger_of_armed hclk htrig
    exact ⟨fun h => swapTrigger_triggers (hrise h), fun h => swapTrigger_triggers (hfall h), fun h hdue => swapTrigger_triggers (htick h hdue)⟩
  case slot => exact ⟨_, exec_matrixSlotStart_within hclk hrun hdue hrow high drop, s.slotStarted_shows hlt drop.toNat⟩
  case below => exact fun h => Nat.not_le.2 hi h.2

end Sys2Proof.Machine
end

section
/-! The pixel chain: a frame's start and its latch pulse (R198 to R200, R205, R206). -/

namespace Sys2Proof.Machine

/-! ## A frame starts -/

/-- The canvas gives the same frame where the memory and the pages read the same (R205). -/
theorem State.ReadsAs.pxFrame {s t : State} (h : s.ReadsAs t) : t.pxFrame = s.pxFrame := by
  have hdrv : t.fld pxPg R.PXC.CFG.NDRV = s.fld pxPg R.PXC.CFG.NDRV := h.regs.fld (by decide) (by decide)
  have hfront : t.bit cvPg R.CV.STAT.PXFRONT = s.bit cvPg R.CV.STAT.PXFRONT := h.regs.bit (by decide) (by decide)
  have hwidth : t.pxW = s.pxW := by rw [State.pxW, State.pxW, h.regs.bit (by decide) (by decide)]
  simp only [State.pxFrame, hdrv, hfront, hwidth, h.hwLe]

/-- A frame start is noted (R205). -/
def State.pxNoted (s : State) : State := { s with light := { s.light with pxTaken := some s.tb } }

/-- The pixel chain takes a swap that has been triggered (R199). -/
def State.pxTake (s : State) : State := if s.light.trig.isSome && !s.light.pxDone then s.pxSwap else s

/-- The engine has read the channel words of its front canvas (R198). -/
def State.pxRead (s : State) : State :=
  s.hwRead (0x60000000 + canvasWord (s.bit cvPg R.CV.STAT.PXFRONT) 0x100 % 0x1000000) (s.fld pxPg R.PXC.CFG.NDRV * 32)

/-- Outside safe state the frame begins to shift (R205, R207). -/
def State.pxBegin (s : State) : State := if s.safe then s else s.pxRead.pxShift s.pxRead.tb s.pxRead.pxFrame false

section
variable {s : State}

theorem State.pxFrameStart_of_synced (hresync : s.light.pxResync = false) : s.pxFrameStart = s.pxNoted.pxTake.pxBegin :=
  congrArg (fun t : State => t.pxTake.pxBegin) (if_neg (by simp [hresync]))

/-- Outside safe state, with no swap to take, a frame start begins to shift the front canvas's bits (R205). -/
theorem State.pxFrameStart_of_plain (hresync : s.light.pxResync = false) (htrig : s.light.trig = none) (hsafe : s.safe = false) :
    s.pxFrameStart = s.pxNoted.pxRead.pxShift s.pxNoted.pxRead.tb s.pxNoted.pxRead.pxFrame false := by
  have htake : s.pxNoted.pxTake = s.pxNoted := if_neg (by rw [show s.pxNoted.light.trig = none from htrig]; simp)
  rw [State.pxFrameStart_of_synced hresync, htake]
  exact if_neg (Bool.eq_false_iff.1 hsafe)

/-- In safe state a frame start takes a swap that has been triggered, and shifts nothing (R200). -/
theorem State.pxFrameStart_of_safe (hresync : s.light.pxResync = false) (htrig : s.light.trig ≠ none) (hdone : s.light.pxDone = false)
    (hsafe : s.safe = true) : s.pxFrameStart = s.pxNoted.pxSwap := by
  have htake : s.pxNoted.pxTake = s.pxNoted.pxSwap :=
    if_pos (Bool.and_eq_true_iff.2 ⟨Option.isSome_iff_ne_none.2 htrig, congrArg (!·) hdone⟩)
  have hkept : s.pxNoted.pxSwap.safe = true :=
    ((State.swapShow_keepsOff _).bit (by decide) fun h => absurd h (by decide)).trans
      ((State.bit_setFld_page _ _ (by decide) (by decide) (by decide)).trans hsafe)
  rw [State.pxFrameStart_of_synced hresync, htake]
  exact if_pos hkept

theorem exec_pxcFrameStart_of_due (hclk : s.clocked .io = true) (hrun : s.bit pxPg R.PXC.OUT.RUN = true)
    (hfree : s.safe = true ∨ s.bit pxPg R.PXC.STAT.SHIFT = false) (hnew : s.light.pxTaken ≠ some s.tb)
    (hdue : pwmNextStart (s.fld pxPg R.PXC.PERIOD.P) (s.fld pxPg R.PXC.PHASE.PH) s.tb ≤ s.tb) :
    exec .pxcFrameStart s = .next s.pxFrameStart :=
  (if_pos ⟨hclk, hrun, hfree.imp_right fun h => by simp [h]⟩).trans (State.atTick_of_le (by rwa [if_neg hnew]) _)

theorem pxcFrameStart_shifts (hclk : s.clocked .io = true) (hrun : s.bit pxPg R.PXC.OUT.RUN = true) (hresync : s.light.pxResync = false)
    (hnew : s.light.pxTaken ≠ some s.tb) (hdue : pwmNextStart (s.fld pxPg R.PXC.PERIOD.P) (s.fld pxPg R.PXC.PHASE.PH) s.tb ≤ s.tb)
    (hsafe : s.safe = false) (hidle : s.bit pxPg R.PXC.STAT.SHIFT = false) (htrig : s.light.trig = none) : Gives .pxcFrameStart s fun t =>
      t.bit pxPg R.PXC.STAT.SHIFT = true ∧ t.light.pxCur = s.pxFrame ∧ t.light.pxTaken = some s.tb ∧ t.light.pxStart = s.tb ∧
      t.light.pxEnd = s.tb + s.pxFrame.1 * 2 * s.fld pxPg R.PXC.CFG.DIV + s.fld pxPg R.PXC.CFG.LEW := by
  have hread : s.pxNoted.ReadsAs s.pxNoted.pxRead := .hwRead ..
  have hframe : s.pxNoted.pxRead.pxFrame = s.pxFrame := hread.pxFrame
  refine ⟨_, exec_pxcFrameStart_of_due hclk hrun (.inr hidle) hnew hdue, ?_⟩
  rw [State.pxFrameStart_of_plain hresync htrig hsafe]
  refine ⟨State.bit_setBit_same _ _ _ _ rfl (by decide), hframe, congrArg Light.pxTaken hread.light, hread.tb, ?_⟩
  have hdiv : s.pxNoted.pxRead.fld pxPg R.PXC.CFG.DIV = s.fld pxPg R.PXC.CFG.DIV := hread.regs.fld (by decide) (by decide)
  have hlew : s.pxNoted.pxRead.fld pxPg R.PXC.CFG.LEW = s.fld pxPg R.PXC.CFG.LEW := hread.regs.fld (by decide) (by decide)
  have htb : s.pxNoted.pxRead.tb = s.tb := hread.tb
  rw [← hframe, ← hdiv, ← hlew, ← htb]
  rfl

theorem pxcFrameStart_swaps (hclk : s.clocked .io = true) (hrun : s.bit pxPg R.PXC.OUT.RUN = true) (hresync : s.light.pxResync = false)
    (hnew : s.light.pxTaken ≠ some s.tb) (hdue : pwmNextStart (s.fld pxPg R.PXC.PERIOD.P) (s.fld pxPg R.PXC.PHASE.PH) s.tb ≤ s.tb)
    (hsafe : s.safe = true) (htrig : s.light.trig ≠ none) (hdone : s.light.pxDone = false) : Gives .pxcFrameStart s fun t =>
      t.bit pxPg R.PXC.STAT.SHIFT = s.bit pxPg R.PXC.STAT.SHIFT ∧ t.light.pxDone = true ∧
      t.bit cvPg R.CV.STAT.PXFRONT = !s.bit cvPg R.CV.STAT.PXFRONT := by
  refine ⟨_, exec_pxcFrameStart_of_due hclk hrun (.inl hsafe) hnew hdue, ?_⟩
  rw [State.pxFrameStart_of_safe hresync htrig hdone hsafe]
  refine ⟨?_, ?_, (State.swapShow_bit _ (by simp)).trans (State.bit_setBit_same _ _ _ _ rfl (by decide))⟩
  · exact ((State.swapShow_keepsOff _).bit (by decide) fun h => absurd h (by decide)).trans
      (State.bit_setFld_page _ _ (by decide) (by decide) (by decide))
  · exact (congrArg Light.pxDone (State.swapShow_light _)).trans (Light.swapOver_done _).2

end

/-! ## A frame is latched -/

/-- The bits that came back differ from those of a frame before of the same length (R206). -/
def Light.pxBad (l : Light) (di : Nat) : Bool :=
  l.pxCmp && (match l.pxPrev with | some (n, w) => n == l.pxCur.1 && di % 2 ^ n != w | none => false)

theorem Light.pxBad_iff (l : Light) (di : Nat) :
    l.pxBad di = true ↔ l.pxCmp = true ∧ ∃ e ∈ l.pxPrev, e.1 = l.pxCur.1 ∧ di % 2 ^ e.1 ≠ e.2 := by
  unfold Light.pxBad
  rw [Bool.and_eq_true]
  refine and_congr_right fun _ => ?_
  cases l.pxPrev with
  | none => simp
  | some e => simp

/-- The mismatches in a row once a frame's bits have come back (R206). -/
def Light.pxCount (l : Light) (di : Nat) : Nat := if l.pxBad di then l.pxMism + 1 else 0

/-- A latched frame has left the device, and stands as the frame before (R205, R206). -/
def State.pxSent (s : State) (di : Nat) : State :=
  { ((s.setBit pxPg R.PXC.STAT.SHIFT false).emit (.pxc s.light.pxCur.1 s.light.pxCur.2)).post 153 with
    light := { s.light with pxPrev := some s.light.pxCur, pxMism := s.light.pxCount di } }

/-- The second mismatch in a row sets CHAIN (R206). -/
theorem State.pxLatched_of_frame {s : State} (hblank : s.light.pxBlank = false) (di : Nat) : s.pxLatched di =
    if 2 ≤ s.light.pxCount di then (s.pxSent di).detectHeld (decide (2 ≤ s.light.pxMism)) pxPg 1 else s.pxSent di :=
  if_neg (by simp [hblank])

/-- Events posted are postings more. -/
theorem State.mem_postings_foldl_post {p : Posting} : ∀ (l : List Nat) {s : State}, p ∈ s.postings → p ∈ (l.foldl State.post s).postings
  | [], _, h => h
  | e :: l, s, h => State.mem_postings_foldl_post l (s := s.post e) (List.mem_append_left _ h)

/-- A detection keeps the postings on their way (R60). -/
theorem State.mem_postings_detect {s : State} {p : Posting} (h : p ∈ s.postings) (pg : Nat) {bit : Nat} (hbit : bit < 32) :
    p ∈ (s.detect pg bit).postings := by
  have hkept : p ∈ (s.detected pg bit (s.blkSources pg bit) (.page pg)).postings := by rwa [State.detected_postings]
  rw [State.detect, State.detectAs_eq_detected _ _ hbit]
  split
  · exact State.mem_postings_foldl_post _ hkept
  · exact hkept

theorem State.mem_postings_detectHeld {s : State} {p : Posting} (h : p ∈ s.postings) (was : Bool) (pg : Nat) {bit : Nat} (hbit : bit < 32) :
    p ∈ (s.detectHeld was pg bit).postings := by
  unfold State.detectHeld
  split
  · exact h
  · exact State.mem_postings_detect h pg hbit

/-- What a latched frame shows, whether CHAIN is set with it or not (R205, R206). -/
theorem State.pxSent_shows (s : State) (di : Nat) {t : State}
    (h : t = (s.pxSent di).detectHeld (decide (2 ≤ s.light.pxMism)) pxPg 1 ∨ t = s.pxSent di) :
    t.bit pxPg R.PXC.STAT.SHIFT = false ∧ t.outbox = s.outbox ++ [.pxc s.light.pxCur.1 s.light.pxCur.2] ∧
      t.light.pxPrev = some s.light.pxCur ∧ t.light.pxMism = s.light.pxCount di ∧ ∃ p ∈ t.postings, p.ev = 153 := by
  have hshift : (s.pxSent di).bit pxPg R.PXC.STAT.SHIFT = false := State.bit_setBit_same s _ _ false rfl (by decide)
  have hposted : s.posting 153 ∈ (s.pxSent di).postings := by
    have hposting : (s.setBit pxPg R.PXC.STAT.SHIFT false).posting 153 = s.posting 153 :=
      (State.KeepsOff.setFld (offs := [0x110]) s pxPg R.PXC.STAT.SHIFT 0 (by simp) (by decide)).posting (by decide) 153
    exact List.mem_append_right _ (by rw [← hposting]; exact List.mem_singleton_self _)
  rcases h with rfl | rfl
  · have hkeeps := State.KeepsRegs.detectHeld (offs := [0x48]) (s.pxSent di) (decide (2 ≤ s.light.pxMism)) pxPg 1 (by simp)
    obtain ⟨_, _, _, _, _, hframe⟩ := (s.pxSent di).detectHeld_frame (decide (2 ≤ s.light.pxMism)) pxPg 1
    refine ⟨(hkeeps.bit pxPg (by decide) (by decide)).trans hshift, ?_, ?_, ?_, _, State.mem_postings_detectHeld hposted _ pxPg (by decide), rfl⟩
    all_goals rw [hframe]; rfl
  · exact ⟨hshift, rfl, rfl, rfl, _, hposted, rfl⟩

theorem pxcLatch_latches {s : State} (hclk : s.clocked .io = true) {di : Nat} (hshift : s.bit pxPg R.PXC.STAT.SHIFT = true)
    (hblank : s.light.pxBlank = false) (hdue : s.light.pxEnd ≤ s.tb) : Gives (.pxcLatch di) s fun t =>
      t.bit pxPg R.PXC.STAT.SHIFT = false ∧ t.outbox = s.outbox ++ [.pxc s.light.pxCur.1 s.light.pxCur.2] ∧
      t.light.pxPrev = some s.light.pxCur ∧ (¬ s.light.pxBad di = true → t.light.pxMism = 0) ∧
      (s.light.pxBad di = true → t.light.pxMism = s.light.pxMism + 1) ∧
      (s.light.pxBad di = true → 1 ≤ s.light.pxMism → t.fstat pxPg 1 = true) ∧ (∃ p ∈ t.postings, p.ev = 153) := by
  have hexec : exec (.pxcLatch di) s = .next (s.pxLatched di) := (if_neg (by simp [hclk, hshift])).trans (State.atTick_of_le hdue _)
  rw [State.pxLatched_of_frame hblank] at hexec
  obtain ⟨hlow, hsent, hprev, hmism, hposted⟩ := s.pxSent_shows di
    (ite_eq_or_eq (2 ≤ s.light.pxCount di) ((s.pxSent di).detectHeld (decide (2 ≤ s.light.pxMism)) pxPg 1) (s.pxSent di))
  refine ⟨_, hexec, hlow, hsent, hprev, fun hgood => hmism.trans (if_neg hgood), fun hbad => hmism.trans (if_pos hbad),
    fun hbad hrow => ?_, hposted⟩
  have htwo : 2 ≤ s.light.pxCount di := by rw [Light.pxCount, if_pos hbad]; omega
  rw [if_pos htwo]
  exact State.fstat_detectHeld _ _ pxPg (by decide)

end Sys2Proof.Machine
end

section
/-! The ambient loops and their sensor port (R209, R210, R212). -/

namespace Sys2Proof.Machine

/-! ## The sensor port -/

/-- With no group waiting the port takes none (R210). -/
theorem State.i2cNext_of_none {s : State} (hwait : s.light.i2cWait = []) : s.i2cNext = s := by
  unfold State.i2cNext
  split
  · rfl
  · rw [hwait]
    rfl

/-- The port begins the transaction of a group that waited alone, with the group's address and register (R210). -/
def State.i2cServed (s : State) (g : Nat) : State :=
  ({ s with light := { s.light with i2cBusy := some g, i2cStart := s.tb, i2cWait := [] } } : State).emit
    (.i2c (s.fld (ambPg g) R.AMB.SENS.ADDR) (s.fld (ambPg g) R.AMB.SENS.REG) s.i2cBit)

theorem find_waiting (g : Fin 4) : (List.range 4).find? [g.val].contains = some g.val := by revert g; decide

theorem State.i2cNext_of_one {s : State} {g : Fin 4} (hbusy : s.light.i2cBusy = none) (hwait : s.light.i2cWait = [g.val]) :
    s.i2cNext = s.i2cServed g := by
  have hrest : [g.val].filter (· ≠ g.val) = [] := by simp
  unfold State.i2cNext
  rw [hbusy, hwait, find_waiting]
  dsimp only
  rw [hrest]
  rfl

/-! ## An iteration -/

/-- A group's iteration has come: its read joins the port's order (R209). -/
def State.ambAsked (s : State) (g : Nat) : State :=
  { s.setAmb g { s.ambAt g with iterAt := some s.tb } with light := { s.light with i2cWait := g :: s.light.i2cWait } }

section
variable {s : State} {g : Fin 4}

theorem exec_ambientLoopIteration_of_due (hclk : s.clocked .io = true) (hen : s.enabled i2cPg = true) (hwait : s.light.i2cWait = [])
    (hloops : s.ambLoops g = true) (hbusy : s.light.i2cBusy = none)
    (hdue : ∀ a ∈ (s.ambAt g).iterAt, a + s.fld (ambPg g) R.AMB.LOOP.INTV * 100000 ≤ s.tb) :
    exec (.ambientLoopIteration g) s = .next ((s.ambAsked g).i2cServed g) := by
  have hready : s.ambLoops g = true ∧ s.enabled i2cPg = true ∧ s.clocked .io = true ∧ (!s.light.i2cWait.contains g.val) = true ∧
      s.light.i2cBusy ≠ some g.val := ⟨hloops, hen, hclk, by simp [hwait], by simp [hbusy]⟩
  have htick : (match (s.ambAt g).iterAt with | some t => t + s.fld (ambPg g) R.AMB.LOOP.INTV * 100000 | none => s.tb) ≤ s.tb := by
    split
    next t ht => exact hdue t ht
    next => exact Nat.le_refl _
  have halone : (s.ambAsked g).light.i2cWait = [g.val] := congrArg (g.val :: ·) hwait
  rw [← State.i2cNext_of_one (s := s.ambAsked g) hbusy halone]
  exact (if_pos hready).trans (State.atTick_of_le htick _)

/-- An iteration asks for one transaction, with the group's address and register (R209, R210). -/
theorem ambientLoopIteration_asks (hclk : s.clocked .io = true) (hen : s.enabled i2cPg = true) (hwait : s.light.i2cWait = [])
    (hloops : s.ambLoops g = true) (hbusy : s.light.i2cBusy = none)
    (hdue : ∀ a ∈ (s.ambAt g).iterAt, a + s.fld (ambPg g) R.AMB.LOOP.INTV * 100000 ≤ s.tb) : Gives (.ambientLoopIteration g) s fun t =>
      t.light.i2cBusy = some g.val ∧ t.light.i2cWait = [] ∧ t.light.i2cStart = s.tb ∧ (t.ambAt g).iterAt = some s.tb ∧
      t.outbox = s.outbox ++ [.i2c (s.fld (ambPg g) R.AMB.SENS.ADDR) (s.fld (ambPg g) R.AMB.SENS.REG) s.i2cBit] ∧ t.regs = s.regs := by
  refine ⟨_, exec_ambientLoopIteration_of_due hclk hen hwait hloops hbusy hdue, ?_, ?_, ?_, ?noted, ?_, ?_⟩
  case noted => exact congrArg Amb.iterAt (State.ambAt_setAmb_same ..)
  all_goals rfl

end

/-! ## A step of the loop -/

/-- A colour's new duty moves by the error times the gain, held in 0 to 4095 (R209). -/
theorem loopStep_fst (tgt phi meas ki u : Nat) : (loopStep tgt phi meas ki u).1 =
    (max 0 (min 4095 ((u : Int) + ((((tgt * phi / 256 : Nat) : Int) - meas) * ki).tdiv 256))).toNat := by
  unfold loopStep
  dsimp only
  split
  next hlow => rw [max_eq_left (by omega)]; rfl
  next hlow =>
    split
    next hhigh => rw [min_eq_left (by omega)]; rfl
    next hhigh => rw [min_eq_right (by omega), max_eq_right (by omega)]

/-- The duties that a group is to run: those that wait, where there are such (R99). -/
def Amb.duties (a : Amb) : Nat × Nat × Nat := match a.uNext with | some e => e.1 | none => a.u

/-- A group's record with new duties, in their place or in the place of those that wait (R99, R209). -/
def Amb.withDuties (a : Amb) (u : Nat × Nat × Nat) (run : Nat) : Amb :=
  match a.uNext with
  | some (_, t) => { a with uNext := some (u, t), clampRun := run }
  | none => { a with u := u, clampRun := run }

theorem Amb.withDuties_shows (a : Amb) (u : Nat × Nat × Nat) (run : Nat) :
    (a.withDuties u run).duties = u ∧ (a.withDuties u run).uNext.isSome = a.uNext.isSome := by
  unfold Amb.withDuties Amb.duties
  cases a.uNext with
  | some e => exact ⟨rfl, rfl⟩
  | none => exact ⟨rfl, rfl⟩

/-- The duties that a reading gives (R209). -/
def State.ambStep (s : State) (g mr mg mb : Nat) : Nat × Nat × Nat :=
  let phi := s.fld mxPg R.MX.STAT.PHI
  let ki := s.fld (ambPg g) R.AMB.LOOP.KI
  let u := (s.ambAt g).duties
  ((loopStep (s.fld (ambPg g) R.AMB.TGTRG.R) phi mr ki u.1).1, (loopStep (s.fld (ambPg g) R.AMB.TGTRG.G) phi mg ki u.2.1).1,
    (loopStep (s.fld (ambPg g) R.AMB.TGTB.B) phi mb ki u.2.2).1)

/-- A reading gives the group its new duties, and SAT after 16 clamped iterations (R209). -/
theorem State.ambLoop_eq (s : State) (g mr mg mb : Nat) : ∃ run, s.ambLoop g mr mg mb =
    if 16 ≤ run then (s.setAmb g ((s.ambAt g).withDuties (s.ambStep g mr mg mb) run)).detectHeld (decide (16 ≤ (s.ambAt g).clampRun)) (ambPg g) 3
    else s.setAmb g ((s.ambAt g).withDuties (s.ambStep g mr mg mb) run) := ⟨_, rfl⟩

theorem State.ambAt_detectHeld (s : State) (was : Bool) (pg bit g : Nat) : (s.detectHeld was pg bit).ambAt g = s.ambAt g := by
  obtain ⟨_, _, _, _, _, h⟩ := s.detectHeld_frame was pg bit
  rw [h]
  rfl

/-- A step of the loop gives the group its duties, and of the registers writes PG_FSTAT only (R209). -/
theorem State.ambLoop_shows (s : State) (g mr mg mb : Nat) : ((s.ambLoop g mr mg mb).ambAt g).duties = s.ambStep g mr mg mb ∧
    ((s.ambLoop g mr mg mb).ambAt g).uNext.isSome = (s.ambAt g).uNext.isSome ∧ s.KeepsRegs (s.ambLoop g mr mg mb) [0x48] ∧
    (s.ambLoop g mr mg mb).light = s.light := by
  obtain ⟨run, hloop⟩ := s.ambLoop_eq g mr mg mb
  have hduties := (s.ambAt g).withDuties_shows (s.ambStep g mr mg mb) run
  have hat := s.ambAt_setAmb_same g ((s.ambAt g).withDuties (s.ambStep g mr mg mb) run)
  have hset : s.KeepsRegs (s.setAmb g ((s.ambAt g).withDuties (s.ambStep g mr mg mb) run)) [0x48] := .of_regs (by rfl) _
  rw [hloop]
  split
  · have hkeeps := hset.trans (.detectHeld _ (decide (16 ≤ (s.ambAt g).clampRun)) (ambPg g) 3 (by simp))
    rw [State.ambAt_detectHeld, hat, State.detectHeld_light]
    exact ⟨hduties.1, hduties.2, hkeeps, rfl⟩
  · rw [hat]
    exact ⟨hduties.1, hduties.2, hset, rfl⟩

/-! ## A read ends -/

/-- The loop runs on as long as its page but for its counts, and the hold, stand (R209). -/
theorem State.ambLoops_of_keepsOff {s t : State} {g : Nat} (hg : g < 4) (h : s.KeepsOff t (ambPg g) [0x124, 0x128, 0x134]) :
    t.ambLoops g = s.ambLoops g := by
  have hheld : t.heldBit (75 + g) = s.heldBit (75 + g) := by
    rw [State.heldBit, State.heldBit, h.reg _ _ (by simp; omega) fun hpg => by simp only [ambPg] at hpg; omega]
  rw [State.ambLoops, State.ambLoops, h.bit (by decide) fun _ => by decide, h.bit (by decide) fun _ => by decide,
    h.fld (by decide) fun _ => by decide, hheld]

/-- The counts stand in their registers, and the loop does not hold (R209). -/
def State.ambMeasured (s : State) (g mr mg mb : Nat) : State :=
  ((((s.setAmb g { s.ambAt g with failRun := 0 }).setBit (ambPg g) R.AMB.STAT.HELD false).setFld (ambPg g) R.AMB.MEASRG.R mr).setFld (ambPg g)
    R.AMB.MEASRG.G mg).setFld (ambPg g) R.AMB.MEASB.B mb

theorem State.ambMeasured_keepsOff (s : State) (g mr mg mb : Nat) : s.KeepsOff (s.ambMeasured g mr mg mb) (ambPg g) [0x124, 0x128, 0x134] :=
  ((((State.KeepsOff.of_regs (t := s.setAmb g { s.ambAt g with failRun := 0 }) (by rfl) _ _).trans
    (.setFld _ (ambPg g) R.AMB.STAT.HELD _ (by simp) (by decide))).trans (.setFld _ (ambPg g) R.AMB.MEASRG.R _ (by simp) (by decide))).trans
    (.setFld _ (ambPg g) R.AMB.MEASRG.G _ (by simp) (by decide))).trans (.setFld _ (ambPg g) R.AMB.MEASB.B _ (by simp) (by decide))

theorem State.ambMeasured_ambAt (s : State) (g mr mg mb : Nat) : (s.ambMeasured g mr mg mb).ambAt g = { s.ambAt g with failRun := 0 } :=
  State.ambAt_setAmb_same ..

theorem State.ambMeasured_shows (s : State) (g : Nat) (mr mg mb : BitVec 16) :
    (s.ambMeasured g mr.toNat mg.toNat mb.toNat).fld (ambPg g) R.AMB.MEASRG.R = mr.toNat ∧
    (s.ambMeasured g mr.toNat mg.toNat mb.toNat).fld (ambPg g) R.AMB.MEASRG.G = mg.toNat ∧
    (s.ambMeasured g mr.toNat mg.toNat mb.toNat).fld (ambPg g) R.AMB.MEASB.B = mb.toNat ∧
    (s.ambMeasured g mr.toNat mg.toNat mb.toNat).bit (ambPg g) R.AMB.STAT.HELD = false := by
  unfold State.ambMeasured
  refine ⟨?_, ?_, State.fld_setFld_fits _ _ _ _ (by decide) (by decide) mb.isLt, ?_⟩
  · rw [State.fld_setFld_apart _ _ _ (by simp), State.fld_setFld_apart _ _ _ (by simp)]
    exact State.fld_setFld_fits _ _ _ _ (by decide) (by decide) mr.isLt
  · rw [State.fld_setFld_apart _ _ _ (by simp)]
    exact State.fld_setFld_fits _ _ _ _ (by decide) (by decide) mg.isLt
  · rw [State.bit_setFld_apart _ _ _ (by simp), State.bit_setFld_apart _ _ _ (by simp), State.bit_setFld_apart _ _ _ (by simp)]
    exact State.bit_setBit_same _ _ _ false rfl (by decide)

/-- While the loop runs a reading drives it (R209). -/
theorem State.i2cCounts_of_loops {s : State} {g : Nat} (hg : g < 4) (hloops : s.ambLoops g = true) (hwait : s.light.i2cWait = []) (mr mg mb : Nat) :
    s.i2cCounts g mr mg mb = (s.ambMeasured g mr mg mb).ambLoop g mr mg mb := by
  have hstill : (s.ambMeasured g mr mg mb).ambLoops g = true := (State.ambLoops_of_keepsOff hg (s.ambMeasured_keepsOff g mr mg mb)).trans hloops
  have hcounts : s.i2cCounts g mr mg mb = (if (s.ambMeasured g mr mg mb).ambLoops g then (s.ambMeasured g mr mg mb).ambLoop g mr mg mb
      else s.ambMeasured g mr mg mb).i2cNext := rfl
  rw [hcounts, if_pos hstill]
  exact State.i2cNext_of_none ((congrArg Light.i2cWait (State.ambLoop_shows _ g mr mg mb).2.2.2).trans hwait)

/-- The port is free: its transaction has ended (R210). -/
def State.i2cFreed (s : State) : State := { s with light := { s.light with i2cBusy := none } }

theorem exec_sensorReadComplete_of_due {s : State} {g : Fin 4} (hclk : s.clocked .io = true) (hen : s.enabled i2cPg = true)
    (hbusy : s.light.i2cBusy = some g.val) {r : SensorEnd} (hends : s.sensorGoesOn r = false)
    (hdue : s.light.i2cStart + sensorBits r * s.i2cBit ≤ s.tb) : exec (.sensorReadComplete g r) s = .next (s.sensorEnds g r) :=
  (if_neg (by simp [hclk, hen, hbusy, hends])).trans (State.atTick_of_le hdue _)

section
variable {s : State} {g : Fin 4}

/-- Counts drive the loop that runs (R209). -/
theorem State.sensorEnds_of_counts (hloops : s.ambLoops g = true) (hwait : s.light.i2cWait = []) {us : Nat} (hus : us ≤ s.fld i2cPg R.LI2C.TMO.US)
    (mr mg mb : BitVec 16) : s.sensorEnds g (.counts mr mg mb us) =
      (s.i2cFreed.ambMeasured g mr.toNat mg.toNat mb.toNat).ambLoop g mr.toNat mg.toNat mb.toNat :=
  (if_neg (Nat.not_lt.2 hus)).trans (State.i2cCounts_of_loops (s := s.i2cFreed) g.isLt hloops hwait _ _ _)

theorem sensorReadComplete_counts (hclk : s.clocked .io = true) (hen : s.enabled i2cPg = true) (hwait : s.light.i2cWait = [])
    {mr mg mb : BitVec 16} {us : Nat} (hbusy : s.light.i2cBusy = some g.val) (hloops : s.ambLoops g = true) (hus : us ≤ s.fld i2cPg R.LI2C.TMO.US)
    (hdue : s.light.i2cStart + 81 * s.i2cBit ≤ s.tb) : Gives (.sensorReadComplete g (.counts mr mg mb us)) s fun t =>
      (t.ambAt g).duties = s.ambStep g mr.toNat mg.toNat mb.toNat ∧ (t.ambAt g).uNext.isSome = (s.ambAt g).uNext.isSome ∧
      t.fld (ambPg g) R.AMB.MEASRG.R = mr.toNat ∧ t.fld (ambPg g) R.AMB.MEASRG.G = mg.toNat ∧ t.fld (ambPg g) R.AMB.MEASB.B = mb.toNat ∧
      t.bit (ambPg g) R.AMB.STAT.HELD = false ∧ t.light.i2cBusy = none := by
  have hexec := exec_sensorReadComplete_of_due (r := .counts mr mg mb us) hclk hen hbusy rfl hdue
  rw [State.sensorEnds_of_counts hloops hwait hus] at hexec
  obtain ⟨hr, hg, hb, hheld⟩ := s.i2cFreed.ambMeasured_shows g mr mg mb
  obtain ⟨hduties, hnext, hkeeps, hlight⟩ := (s.i2cFreed.ambMeasured g mr.toNat mg.toNat mb.toNat).ambLoop_shows g mr.toNat mg.toNat mb.toNat
  have hat := s.i2cFreed.ambMeasured_ambAt g mr.toNat mg.toNat mb.toNat
  have hstep : (s.i2cFreed.ambMeasured g mr.toNat mg.toNat mb.toNat).ambStep g mr.toNat mg.toNat mb.toNat =
      s.ambStep g mr.toNat mg.toNat mb.toNat := by
    have hoff := s.i2cFreed.ambMeasured_keepsOff g mr.toNat mg.toNat mb.toNat
    have hpage : mxPg ≠ ambPg g := by simp only [mxPg, ambPg]; omega
    unfold State.ambStep
    rw [hat, hoff.fld (pg' := mxPg) (by decide) fun h => absurd h hpage]
    simp only [hoff.fld (pg' := ambPg g) (f := R.AMB.LOOP.KI) (by decide) fun _ => by decide,
      hoff.fld (pg' := ambPg g) (f := R.AMB.TGTRG.R) (by decide) fun _ => by decide,
      hoff.fld (pg' := ambPg g) (f := R.AMB.TGTRG.G) (by decide) fun _ => by decide,
      hoff.fld (pg' := ambPg g) (f := R.AMB.TGTB.B) (by decide) fun _ => by decide]
    rfl
  refine ⟨_, hexec, hduties.trans hstep, hnext.trans (by rw [hat]; rfl), ?_, ?_, ?_, ?_, congrArg Light.i2cBusy hlight⟩
  · exact (hkeeps.fld _ (by decide) (by decide)).trans hr
  · exact (hkeeps.fld _ (by decide) (by decide)).trans hg
  · exact (hkeeps.fld _ (by decide) (by decide)).trans hb
  · exact (hkeeps.bit _ (by decide) (by decide)).trans hheld

/-! ## A read fails -/

/-- Ends of a transaction that give no reading (R210). -/
def State.sensorFails (s : State) : SensorEnd → Bool
  | .counts _ _ _ us => decide (s.fld i2cPg R.LI2C.TMO.US < us)
  | .stretched us => decide (s.fld i2cPg R.LI2C.TMO.US < us)
  | _ => true

theorem State.sensorGoesOn_of_fails {r : SensorEnd} (h : s.sensorFails r = true) : s.sensorGoesOn r = false := by
  cases r with
  | stretched us => exact decide_eq_false (Nat.not_le.2 (of_decide_eq_true h))
  | _ => rfl

/-- A failed read ends the same way whatever failed; a port held low is freed by pulses first (R210). -/
theorem State.sensorEnds_of_fails {r : SensorEnd} (h : s.sensorFails r = true) :
    ∃ o, s.sensorEnds g r = ({ s.i2cFreed with outbox := o } : State).i2cFail g := by
  cases r with
  | counts mr mg mb us => exact ⟨s.outbox, if_pos (of_decide_eq_true h)⟩
  | sdaLow => exact ⟨_, rfl⟩
  | _ => exact ⟨s.outbox, rfl⟩

end

/-- A failure is counted, and the loop holds (R209, R210). -/
def State.i2cFailed (s : State) (g : Nat) : State :=
  ((s.setFld i2cPg R.LI2C.STAT.FAILS (min 0xFFFF (s.fld i2cPg R.LI2C.STAT.FAILS + 1))).setAmb g
    { s.ambAt g with failRun := (s.ambAt g).failRun + 1, clampRun := 0 }).setBit (ambPg g) R.AMB.STAT.HELD true

/-- The second failure in a row sets SENSOR (R210). -/
theorem State.i2cFail_of_alone {s : State} (hwait : s.light.i2cWait = []) (g : Nat) : s.i2cFail g =
    if 2 ≤ (s.ambAt g).failRun + 1 then (s.i2cFailed g).detectHeld (decide (2 ≤ (s.ambAt g).failRun)) (ambPg g) 2 else s.i2cFailed g := by
  refine State.i2cNext_of_none ?_
  split
  · rw [State.detectHeld_light]
    exact hwait
  · exact hwait

theorem State.i2cFailed_shows (s : State) {g : Nat} (hg : g < 4) : (s.i2cFailed g).bit (ambPg g) R.AMB.STAT.HELD = true ∧
    (s.i2cFailed g).ambAt g = { s.ambAt g with failRun := (s.ambAt g).failRun + 1, clampRun := 0 } ∧
    (s.i2cFailed g).fld i2cPg R.LI2C.STAT.FAILS = min 0xFFFF (s.fld i2cPg R.LI2C.STAT.FAILS + 1) := by
  have hpage : i2cPg ≠ ambPg g := by simp only [i2cPg, ambPg]; omega
  refine ⟨State.bit_setBit_same _ _ _ true rfl (by decide), State.ambAt_setAmb_same .., ?_⟩
  exact (State.fld_setFld_page _ _ hpage (by decide) (by decide)).trans
    (State.fld_setFld_fits s i2cPg R.LI2C.STAT.FAILS _ (by decide) (by decide) (Nat.lt_of_le_of_lt (Nat.min_le_left ..) (by decide)))

section
variable {s : State} {g : Fin 4}

theorem sensorReadComplete_fails (hclk : s.clocked .io = true) (hen : s.enabled i2cPg = true) (hwait : s.light.i2cWait = []) {r : SensorEnd}
    (hbusy : s.light.i2cBusy = some g.val) (hfails : s.sensorFails r = true) (hdue : s.light.i2cStart + sensorBits r * s.i2cBit ≤ s.tb) :
    Gives (.sensorReadComplete g r) s fun t =>
      t.bit (ambPg g) R.AMB.STAT.HELD = true ∧ (t.ambAt g).failRun = (s.ambAt g).failRun + 1 ∧ (t.ambAt g).u = (s.ambAt g).u ∧
      (t.ambAt g).clampRun = 0 ∧ t.fld i2cPg R.LI2C.STAT.FAILS = min 0xFFFF (s.fld i2cPg R.LI2C.STAT.FAILS + 1) ∧ t.light.i2cBusy = none ∧
      (1 ≤ (s.ambAt g).failRun → t.fstat (ambPg g) 2 = true) := by
  obtain ⟨o, hends⟩ := State.sensorEnds_of_fails (g := g) hfails
  obtain ⟨hheld, hat, hcount⟩ := ({ s.i2cFreed with outbox := o } : State).i2cFailed_shows g.isLt
  have hexec := exec_sensorReadComplete_of_due hclk hen hbusy (State.sensorGoesOn_of_fails hfails) hdue
  rw [hends, State.i2cFail_of_alone (s := { s.i2cFreed with outbox := o }) hwait] at hexec
  refine ⟨_, hexec, ?_⟩
  split
  · have hkeeps := State.KeepsRegs.detectHeld (offs := [0x48]) (({ s.i2cFreed with outbox := o } : State).i2cFailed g)
      (decide (2 ≤ (s.ambAt g).failRun)) (ambPg g) 2 (by simp)
    refine ⟨(hkeeps.bit _ (by decide) (by decide)).trans hheld, ?_, ?_, ?_, (hkeeps.fld _ (by decide) (by decide)).trans hcount, ?_,
      fun _ => State.fstat_detectHeld _ _ _ (by decide)⟩
    · rw [State.ambAt_detectHeld, hat]; rfl
    · rw [State.ambAt_detectHeld, hat]; rfl
    · rw [State.ambAt_detectHeld, hat]
    · rw [State.detectHeld_light]; rfl
  next hfirst =>
    rw [hat]
    exact ⟨hheld, rfl, rfl, rfl, hcount, rfl, fun hrow => absurd (Nat.succ_le_succ hrow) hfirst⟩

/-! ## The latch of a group -/

theorem ambClr_clears (hclk : s.clocked .pwr = true) (hlock : s.locked (ambPg g) = false) (hlatched : s.bit (ambPg g) R.AMB.STAT.LATCH = true) :
    GivesThen (.ambClr g) s (fun u => u.ambSettle g) fun u => u.bit (ambPg g) R.AMB.STAT.LATCH = false ∧ u.code (ambPg g) = 0 := by
  refine ⟨_, (if_neg (by simp [hclk])).trans (if_neg (by simp [hlock, hlatched])), ?_, State.code_ok _ _⟩
  exact (State.bit_setFld_apart _ _ _ (by simp)).trans (State.bit_setBit_same s _ _ false rfl (by decide))

theorem ambClr_refused (hclk : s.clocked .pwr = true) (h : s.locked (ambPg g) = true ∨ s.bit (ambPg g) R.AMB.STAT.LATCH = false) :
    Refused (.ambClr g) s (ambPg g) :=
  (if_neg (by simp [hclk])).trans (if_pos (h.imp_right fun hno => by simp [hno]))

end

/-! ## The statement -/

/-- Settles O39: a frame by its start and its latch pulse, an iteration by what it asks of the port, a read by its end. -/
theorem pixelsAndAmbient : Obligations.PixelsAndAmbient := by
  unfold Obligations.PixelsAndAmbient
  refine ⟨fun s hclk => ⟨fun hrun hresync hnew hdue => ⟨pxcFrameStart_shifts hclk hrun hresync hnew hdue,
    pxcFrameStart_swaps hclk hrun hresync hnew hdue⟩, fun di hshift hblank hdue => ?latch⟩, fun s g => ⟨fun hclk hen hwait =>
    ⟨ambientLoopIteration_asks hclk hen hwait, ?counts, ?fails⟩, fun hclk => ⟨ambClr_clears hclk, ambClr_refused hclk⟩⟩⟩
  case latch =>
    dsimp only
    rw [← Light.pxBad_iff]
    exact pxcLatch_latches hclk hshift hblank hdue
  case counts =>
    intro mr mg mb us hbusy hloops hus hdue
    dsimp only
    rw [← loopStep_fst, ← loopStep_fst, ← loopStep_fst]
    exact sensorReadComplete_counts hclk hen hwait hbusy hloops hus hdue
  case fails =>
    intro r hbusy hlong hdue
    refine sensorReadComplete_fails hclk hen hwait hbusy ?_ hdue
    cases r with
    | counts mr mg mb us => exact decide_eq_true hlong
    | stretched us => exact decide_eq_true hlong
    | _ => rfl

end Sys2Proof.Machine
end
